-- ==== Sys2Proof/Word.lean ====
section
/-! DEFINITION. The word, the byte, and the sparse maps that hold registers, memories and
per-item tables as plain data. -/
namespace Sys2Proof

/-- One register word (R55). -/
abbrev Word := BitVec 32

/-- One byte. -/
abbrev Byte := BitVec 8

/-- A sparse map: pairs of a key and a value, keys strictly rising, no entry equal to what an
unlisted key reads as. The operations stand in `Machine/Sparse.lean`. -/
abbrev SMap (α : Type) := List (Nat × α)

end Sys2Proof
end

