-- ==== Sys2Proof/Names.lean ====
section
/-! DEFINITION. The names the spec uses for requesters, pages and the like, as they stand in
commands. -/
namespace Sys2Proof

/-- The four requesters of the register access unit (R84), in the order of R65's requester codes. -/
inductive Port where
  | inband | spi | i2c | fw
  deriving DecidableEq, Repr

/-- The host ports of R85 and R92: every requester but firmware. -/
inductive HPort where
  | inband | spi | i2c
  deriving DecidableEq, Repr

/-- The kinds of page in the page map (R57). -/
inductive Blk where
  | sys | clk | tbs | pwr | thm | evr | nvm | mbx | sec | ary | exp | win | trg | eng | pe | ing
  | nrd | pxc | hdr | geo | sta | vew | enc | dlv | fst | hmp | ln | sp | hlp
  deriving DecidableEq, Repr

/-- A page of the register space (R57): its kind and, for a multi-instance block, its number. -/
inductive Page where
  | sys | clk | tbs | pwr | thm | evr | nvm | mbx | sec | ary | exp | win | trg
  | eng (n : Fin 96) | pe (n : Fin 8) | ing | nrd | pxc | hdr | geo | sta | vew | enc | dlv
  | fst | hmp | ln (n : Fin 44) | sp (n : Fin 8) | hlp
  deriving DecidableEq, Repr

/-- The word of a write to write-1-to-clear bits, and the bits that hardware sets in the same cycle (R17). -/
structure W1cWord where
  v : Word
  hw : Word
  deriving DecidableEq, Repr

/-- What firmware takes next in a focus search: the command itself, a position word, or a frame (R348). -/
inductive FocusEv where
  | go | word | frame
  deriving DecidableEq, Repr

/-- The PLLs (R460). -/
inductive Pll where
  | timing | lane (q : Fin 8) | mem | opll (n : Fin 10)
  /-- An output's PLL of which the detector reports a true loss of lock (R471). -/
  | opllLoss (n : Fin 10)
  deriving DecidableEq, Repr

/-- A scan with the bypass register selected: the instruction code and the bit shifted in (R552). -/
structure BypassScan where
  code : BitVec 4 := 0xF#4
  tdi : Bool
  deriving DecidableEq, Repr

/-- Port codes of STB and LATCH (R168). -/
inductive EPort where
  | top | bot | both
  deriving DecidableEq, Repr

/-- Increment codes of STB (R168). -/
inductive EInc where
  | none | plus | minus
  deriving DecidableEq, Repr

/-- Base codes of SHUT (R168). -/
inductive EBase where
  | next | cur | trig
  deriving DecidableEq, Repr

/-- What PUSH writes: a register, or a word of C (R168). -/
inductive ESrc where
  | reg (r : Fin 15)
  | ctx (n : Fin 4)
  deriving DecidableEq, Repr

/-- A readout-engine instruction without its DELAY (R168 to R170). Registers carry the codes of
R157, sub code 4 of SHUT is ALL. -/
inductive EIns where
  | nop
  | set (dst : Fin 15) (imm : BitVec 16)
  | seth (dst : Fin 3) (imm : BitVec 16)
  | add (dst : Fin 15) (imm : BitVec 12)
  | mov (dst src : Fin 15) (op : Fin 4)
  | jmp (cond : Fin 14) (addr : Fin 1024)
  | wait (cond : Fin 9) (arg : BitVec 16)
  | stb (port : EPort) (incT incB : EInc)
  | pull (par nb : Bool)
  | push (src : ESrc) (nb : Bool)
  | shut (base : EBase) (sub : Fin 5) (hold : Bool)
  | shf (bot : Bool) (src : Fin 15)
  | shg (bot mirror : Bool)
  | latch (port : EPort)
  | sync (g : Fin 16)
  | irq (n : Fin 4)
  | stop
  deriving DecidableEq, Repr

/-- What a pin engine's WAIT waits for (R242). Kinds of a pin: 0 low, 1 high, 2 rise, 3 fall. -/
inductive PWait where
  | pin (p : Fin 16) (kind : Fin 4)
  | line (k : Fin 8)
  | start | pps | param
  deriving DecidableEq, Repr

/-- A pin-engine instruction without its DELAY (R240). Registers 0 to 3 are A to D. -/
inductive PIns where
  | nop
  | ldi (r : Fin 4) (imm : BitVec 6)
  | ldk (r : Fin 4) (k : Fin 8)
  | addi (r : Fin 4) (imm : BitVec 6)
  | mov (r s : Fin 4) (op : Fin 4)
  | jmp (cond : Fin 8) (addr : Fin 32)
  | wait (w : PWait)
  | dly (konst : Bool) (n : Fin 8)
  | setp (mask value : Fin 16)
  | pull (nb : Bool)
  | push (r : Fin 4) (nb : Bool)
  | qdec (blk : Bool)
  | trig
  | stamp (nb : Bool)
  | irq (n : Fin 2)
  | stop
  deriving DecidableEq, Repr

/-- Who sees a change of a PIO pin: the synchronised input of the trigger lines, or a pin engine
through its glitch filter (R217, R237). -/
inductive PioRd where
  | lines
  | pe (e : Fin 8)
  deriving DecidableEq, Repr

/-- A set of exposure values of the auto-exposure loop: DUR0, CG bits and the four gain codes, G0 in the
low bits (R134, R151). -/
structure AeSet where
  dur0 : BitVec 32
  cg : BitVec 4
  gains : BitVec 16
  deriving DecidableEq, Repr

/-- What an iteration of the auto-exposure loop computed: the tiles it changes, or one set for all (R149). -/
inductive AeResult where
  | tiles (l : List (Fin 6144 × AeSet))
  | all (v : AeSet)
  deriving DecidableEq, Repr

end Sys2Proof
end

