-- ==== Sys2Proof/Syntax.lean ====
section
/-! DEFINITION. The commands the block takes: one constructor per row of the spec's table. -/
namespace Sys2Proof

/-- The commands. -/
inductive Instr where
  /-- REG_WRITE (R16). A write to a register field that has no row of its own acts according to its access class. -/
  | regWrite (p : Port) (a : BitVec 24) (v : Word)
  /-- RC_READ (R18). A read of a read-clears field returns its value and clears it in the same access. -/
  | rcRead (p : Port) (a : BitVec 24)
  /-- W1C_WRITE (R17). A write of 1 to a write-1-to-clear bit clears it, unless hardware sets it in the same cycle. -/
  | w1cWrite (p : Port) (a : BitVec 24) (v : W1cWord)
  /-- PAGE_ENABLE (R62). Setting PAGE_CTRL.EN enables a block, which then starts its block-specific behaviour. -/
  | pageEnable (p : Port) (pg : Page)
  /-- PAGE_DISABLE (R62). Clearing PAGE_CTRL.EN makes the block stop at its next frame boundary. -/
  | pageDisable (p : Port) (pg : Page)
  /-- PAGE_SOFT_RST (R62). Writing SOFT_RST while EN is 0 starts a reset of the page; while EN is 1 the write is rejected. -/
  | pageSoftRst (p : Port) (pg : Page)
  /-- SOFT_RST_DONE (R62). Within 10 µs the soft reset ends with every field of the page at its reset value. -/
  | softRstDone (pg : Page)
  /-- EXPERT_SET (R73). Setting EXPERT stops firmware translation of the page's basic fields. -/
  | expertSet (p : Port) (pg : Page)
  /-- EXPERT_CLEAR (R73). Clearing EXPERT makes firmware translate every basic field of the page within 200 µs. -/
  | expertClear (p : Port) (pg : Page)
  /-- PAGE_COMMIT (R66). Writing the key to a page's COMMIT latches its shadow set and starts the consistency check. -/
  | pageCommit (p : Port) (pg : Page) (key : Word)
  /-- GCOMMIT (R70). Writing the key to SYS.GCOMMIT latches every page's shadow set and checks them as one set. -/
  | gcommit (p : Port) (key : Word)
  /-- COMMIT_CHECK_DONE (R68). The consistency check ends and sets the commit to ACCEPTED, DONE or FAILED. -/
  | commitCheckDone (pg : Option Page)
  /-- COMMIT_HOLD_TIMEOUT (R68). A held commit passes its hold limit and fails with GOV_TIMEOUT or DRAIN_TIMEOUT. -/
  | commitHoldTimeout (pg : Option Page)
  /-- XLATE_HOLD_EXPIRE (R71). A commit held behind XLATE_PEND latches after 200 µs if translation has not cleared. -/
  | xlateHoldExpire (pg : Page)
  /-- BASIC_FIELD_WRITE (R72). A host write to a basic field sets XLATE_PEND for firmware translation. -/
  | basicFieldWrite (p : Port) (a : BitVec 24) (v : Word)
  /-- TRANSLATION_DONE (R72). Firmware writes the translated expert fields, clears XLATE_PEND and may commit. -/
  | translationDone (pg : Page)
  /-- SPI_TRANSACTION (R78). An SPI transaction carries a command byte, an address and up to 64 words. -/
  | spiTransaction (cmd : Byte) (n : Nat) (a : BitVec 24) (ws : List Word)
  /-- SPI_CS_ABORT (R79). SPI_CS_N rises part-way through a word, discarding it and incrementing SPI_ABORT. -/
  | spiCsAbort (a : BitVec 24) (ws : List Word) (part : Fin 3)
  /-- I2C_TRANSACTION (R82). An I²C read or write transfers register words in groups of four bytes. -/
  | i2cTransaction (a7 : BitVec 7) (rd : Bool) (a : BitVec 24) (n : Nat) (ws : List Word)
  /-- PORT_CTRL_WRITE (R85). A write to SYS.PORT_CTRL sets the write enables of the host ports, unless it would clear all three. -/
  | portCtrlWrite (p : Port) (v : Word)
  /-- MBX_CLAIM (R92). The first write to CMD or CMD_BUF while IDLE claims the slot and sets LOADING. -/
  | mbxClaim (p : Port) (a : BitVec 24) (v : Word)
  /-- MBX_GO (R92). Writing GO posts the command to firmware. -/
  | mbxGo (p : Port)
  /-- MBX_ACK (R90). Writing ACK returns the mailbox to IDLE from DONE, ABORTED or the owner's LOADING. -/
  | mbxAck (p : Port)
  /-- MBX_LOAD_TIMEOUT (R92). A slot left in LOADING for 100 ms without GO returns to IDLE and sets MBX_ABORT. -/
  | mbxLoadTimeout
  /-- IDENTIFY (R95). Returns part, revision, image, serial and firmware version. -/
  | identify
  /-- ECHO (R95). Returns the payload. -/
  | echo
  /-- PRESET_LOAD (R531). Loads a configuration preset slot and commits it globally. -/
  | presetLoad
  /-- PRESET_SAVE (R531). Stores the non-reset field values in a preset slot. -/
  | presetSave
  /-- CTX_SNAPSHOT (R146). Returns up to 64 context entries of one bank taken at one instant. -/
  | ctxSnapshot
  /-- EVR_READ (R523). Returns whole records from a given sequence number, from log and buffer together. -/
  | evrRead
  /-- EVR_FREEZE (R524). Stops flushing and overwriting of the event log. -/
  | evrFreeze
  /-- EVR_THAW (R524). Ends a freeze so that flushing resumes. -/
  | evrThaw
  /-- EVR_CLEAR_NONCE (R525). Returns a fresh 16-byte nonce for an authorised clear. -/
  | evrClearNonce
  /-- EVR_CLEAR (R526). Verifies the HMAC and removes the records from first to last, writing a CLEAR record. -/
  | evrClear
  /-- FW_BEGIN (R532). Invalidates a slot's descriptor and opens a firmware transfer. -/
  | fwBegin
  /-- FW_DATA (R532). Programs image bytes into the open slot. -/
  | fwData
  /-- FW_END (R532). Verifies the image signature and SVN and marks the slot VALID. -/
  | fwEnd
  /-- FW_ACTIVATE (R534). Sets a valid slot to boot once on trial and restarts firmware. -/
  | fwActivate
  /-- HIST_TRIGGER (R383). Creates a history trigger at the present tick and returns its sequence number. -/
  | histTrigger
  /-- HIST_FREEZE (R388). Sets FREEZE so that no history chunk is written. -/
  | histFreeze
  /-- HIST_REPLAY (R389). Starts a replay of a slot, a burst or the whole ring to a queue. -/
  | histReplay
  /-- TIME_STEP (R479). Requests a step of the time of day, now or at the next aligned PPS. -/
  | timeStep
  /-- PHASE_STEP (R467). Slews the timing PLL phase by a signed offset. -/
  | phaseStep
  /-- GAIT_SET (R496). Writes the selected gait. -/
  | gaitSet
  /-- THERMAL_READ (R497). Returns the 32 thermal sensor readings. -/
  | thermalRead
  /-- FOCUS_RUN (R348). Drives the lens through a pin engine in a coarse and fine scan for greatest sharpness. -/
  | focusRun (e : FocusEv)
  /-- LINK_RETRAIN (R451). Sends the named lane groups to DEEP with back-off cleared, for a new attempt at once. -/
  | linkRetrain
  /-- START_TICK (R32). A frame boundary tick on which engines start a frame and commits apply. -/
  | startTick
  /-- PREAMBLE_DONE (R119). At the end of the preamble the column offsets are updated from the 16 reference conversions. -/
  | preambleDone (ds : List (Fin 24576 × List Int))
  /-- ROW_BOUNDARY (R163). The row clock offers a row boundary of a pass to the engines. -/
  | rowBoundary (ph : Fin 3)
  /-- ROW_RESULT (R120). The CDS result of a converted row enters the skid buffer at ingest. -/
  | rowResult (bank : Fin 2) (cs : List (BitVec 12 × BitVec 12))
  /-- PUMP_RAIL_FAULT (R115). A pixel rail leaves regulation and shutter control is suspended. -/
  | pumpRailFault (boost : Bool) (tgl : Bool)
  /-- SHUTTER_RESUME (R115). Shutter control resumes at the first start tick after both rails have been good for 100 µs. -/
  | shutterResume
  /-- SHUTTER_RST_FALL (R178). An armed event's RST falls and the exposure begins. -/
  | shutterRstFall (t : Fin 6144) (sub : Fin 4) (ph : Fin 3)
  /-- SHUTTER_TX_FALL (R128). An armed event's TX falls and the exposure ends. -/
  | shutterTxFall (t : Fin 6144) (sub : Fin 4) (ph : Fin 3)
  /-- TX_HOLD_RELEASE (R129). A held TX falls 60 cycles after the tile's last unread row has been converted. -/
  | txHoldRelease (t : Fin 6144) (ph : Fin 3)
  /-- CTX_TABLE_WRITE (R59). A write to the context table window is accepted for the inactive bank or rejected. -/
  | ctxTableWrite (p : Port) (a : BitVec 24) (v : Word)
  /-- CTX_COPY (R143). Writing COPY starts copying the active context bank into the inactive bank. -/
  | ctxCopy (p : Port)
  /-- CTX_COPY_DONE (R143). The copy ends within 40 µs and COPY_BUSY clears. -/
  | ctxCopyDone
  /-- AE_ITERATION (R151). The auto-exposure loop copies, writes the inactive bank and commits EXP from a frame's statistics. -/
  | aeIteration (r : AeResult) (tag : BitVec 8)
  /-- AE_MISSED (R153). An iteration does not commit within its limit and the exposures repeat. -/
  | aeMissed
  /-- AE_STALE (R153). After 8 frames without a committed iteration the loop reports STALE. -/
  | aeStale
  /-- CTX_DMA_ENTRY (R173). One context entry is delivered into an engine's context FIFO. -/
  | ctxDmaEntry (e : Fin 96)
  /-- ENG_HALT (R162). Writing HALT stops the engine at the end of the current instruction. -/
  | engHalt (p : Port) (e : Fin 96)
  /-- ENG_RESUME (R162). Writing HALT = 0 resumes execution at PC. -/
  | engResume (p : Port) (e : Fin 96)
  /-- ENG_STEP (R162). Writing STEP while HALTED executes one instruction. -/
  | engStep (p : Port) (e : Fin 96)
  /-- ENG_SNAP_REQ (R191). Writing SNAP_REQ captures the exact PC into PC_SNAP. -/
  | engSnapReq (p : Port) (e : Fin 96)
  /-- ENG_IMEM_WRITE (R192). A write to an engine instruction word is accepted or rejected by the engine state and windows. -/
  | engImemWrite (p : Port) (a : BitVec 24) (v : Word)
  /-- ENG_PARAM_WRITE (R175). A host write to ENG.PARAM enters the parameter FIFO or is refused. -/
  | engParamWrite (p : Port) (e : Fin 96) (v : Word)
  /-- ENG_OUT_READ (R175). A read of ENG.OUT pops the oldest output FIFO word. -/
  | engOutRead (p : Port) (e : Fin 96)
  /-- ENG_NOP (R168). NOP does nothing. -/
  | engNop (e : Fin 96) (dly : Fin 32)
  /-- ENG_SET (R168). SET loads a zero-extended immediate. -/
  | engSet (e : Fin 96) (dst : Fin 15) (imm : BitVec 16) (dly : Fin 32)
  /-- ENG_SETH (R168). SETH loads the upper 16 bits of X, Y or W. -/
  | engSeth (e : Fin 96) (dst : Fin 3) (imm : BitVec 16) (dly : Fin 32)
  /-- ENG_ADD (R158). ADD adds a signed immediate and sets Z. -/
  | engAdd (e : Fin 96) (ph : Fin 3) (dst : Fin 15) (imm : BitVec 12) (dly : Fin 32)
  /-- ENG_MOV (R168). MOV copies, adds, subtracts or ANDs a register and sets Z. -/
  | engMov (e : Fin 96) (ph : Fin 3) (dst : Fin 15) (src : Fin 15) (op : Fin 4) (dly : Fin 32)
  /-- ENG_JMP (R169). JMP branches if its condition holds. -/
  | engJmp (e : Fin 96) (cond : Fin 14) (addr : Fin 1024) (dly : Fin 32)
  /-- ENG_WAIT (R170). WAIT stalls until its condition holds. -/
  | engWait (e : Fin 96) (ph : Fin 3) (cond : Fin 9) (arg : BitVec 16) (dly : Fin 32)
  /-- ENG_STB (R164). STB stalls for the next row boundary of its pass, or ends with ROW_LOST. -/
  | engStb (e : Fin 96) (ph : Fin 3) (p : EPort) (it : EInc) (ib : EInc) (dly : Fin 32)
  /-- ENG_PULL (R174). PULL loads C or X from a FIFO, blocking or not. -/
  | engPull (e : Fin 96) (par : Bool) (nb : Bool) (dly : Fin 32)
  /-- ENG_PUSH (R175). PUSH writes a word to the output FIFO, blocking or not. -/
  | engPush (e : Fin 96) (ph : Fin 3) (src : ESrc) (nb : Bool) (dly : Fin 32)
  /-- ENG_SHUT (R176). SHUT arms shutter events for the tile of C. -/
  | engShut (e : Fin 96) (ph : Fin 3) (base : EBase) (sub : Fin 5) (hold : Bool) (dly : Fin 32)
  /-- ENG_SHF (R183). SHF shifts one word into a sub-chain. -/
  | engShf (e : Fin 96) (ph : Fin 3) (bot : Bool) (src : Fin 15) (dly : Fin 32)
  /-- ENG_SHG (R182). SHG starts shifting 32 words of a tile's read gain. -/
  | engShg (e : Fin 96) (ph : Fin 3) (bot : Bool) (mirror : Bool) (dly : Fin 32)
  /-- ENG_LATCH (R184). LATCH copies sub-chains to their holding latches. -/
  | engLatch (e : Fin 96) (p : EPort) (dly : Fin 32)
  /-- ENG_SYNC (R189). SYNC waits at a group barrier. -/
  | engSync (e : Fin 96) (ph : Fin 3) (g : Fin 16) (dly : Fin 32)
  /-- ENG_IRQ (R168). IRQ sets IRQ_RAW.PROGn. -/
  | engIrq (e : Fin 96) (n : Fin 4) (dly : Fin 32)
  /-- ENG_STOP (R161). STOP sets the engine STOPPED. -/
  | engStop (e : Fin 96) (dly : Fin 32)
  /-- ENG_ILLEGAL_OP (R196). Executing a word with a reserved code halts the engine as ILLEGAL. -/
  | engIllegalOp (e : Fin 96)
  /-- ENG_WAIT_DONE (R170). A stalled WAIT's condition comes to hold and the next instruction issues. -/
  | engWaitDone (e : Fin 96) (ph : Fin 3)
  /-- ENG_PULL_DONE (R167). A stalled PULL completes when data arrives. -/
  | engPullDone (e : Fin 96)
  /-- ENG_PUSH_DONE (R167). A stalled PUSH completes when space is free. -/
  | engPushDone (e : Fin 96)
  /-- ENG_SHG_DONE (R167). SHG completes on its 32nd cycle. -/
  | engShgDone (e : Fin 96)
  /-- ENG_DELAY_END (R167). The DELAY idle cycles after an instruction end and the next instruction issues. -/
  | engDelayEnd (e : Fin 96)
  /-- ENG_SYNC_RELEASE (R189). All members of a group reach SYNC and resume together. -/
  | engSyncRelease (g : Fin 16)
  /-- ENG_SYNC_TIMEOUT (R189). An engine waits n × 256 cycles at SYNC and resumes alone. -/
  | engSyncTimeout (e : Fin 96)
  /-- ARY_START (R200). Writing RUN_CTRL.START arms readout for the first start tick. -/
  | aryStart (p : Port)
  /-- ARY_STOP (R204). Writing RUN_CTRL.STOP makes the next start tick the stop tick. -/
  | aryStop (p : Port)
  /-- STRIP_FRAME_TIMEOUT (R225). MAX_MS passes with no strip exposing or unread, ending the strip frame. -/
  | stripFrameTimeout
  /-- SW_TRIG (R216). Writing a bit of TRG.SW_TRIG pulses that trigger line. -/
  | swTrig (p : Port) (v : Word)
  /-- WIN_APPLY (R212). Writing WIN.BASIC_WIN.APPLY makes firmware derive engine masks and row settings. -/
  | winApply (p : Port)
  /-- BURST_ARM (R227). Writing BURST_CTRL.ARM arms a raw burst. -/
  | burstArm (p : Port)
  /-- BURST_ABORT (R228). Writing BURST_CTRL.ABORT ends the burst after the frame in progress. -/
  | burstAbort (p : Port)
  /-- BURST_FRAME_WRITE (R381). A raw burst frame from ingest is written whole to its burst region. -/
  | burstFrameWrite
  /-- PIO_EDGE (R237). A filtered PIO input changes level. -/
  | pioEdge (rd : PioRd) (pin : Fin 16) (lvl : Bool) (ph : Fin 3)
  /-- PE_NOP (R240). NOP does nothing. -/
  | peNop (e : Fin 8) (dly : Fin 16)
  /-- PE_LDI (R240). LDI loads an immediate. -/
  | peLdi (e : Fin 8) (r : Fin 4) (imm : BitVec 6) (dly : Fin 16)
  /-- PE_LDK (R240). LDK loads a constant of the active generation. -/
  | peLdk (e : Fin 8) (r : Fin 4) (k : Fin 8) (dly : Fin 16)
  /-- PE_ADDI (R238). ADDI adds a signed immediate and sets Z and N. -/
  | peAddi (e : Fin 8) (r : Fin 4) (imm : BitVec 6) (dly : Fin 16)
  /-- PE_MOV (R240). MOV copies, adds, subtracts or negates and sets Z and N. -/
  | peMov (e : Fin 8) (r : Fin 4) (q : Fin 4) (op : Fin 4) (dly : Fin 16)
  /-- PE_JMP (R241). JMP branches if its condition holds. -/
  | peJmp (e : Fin 8) (cond : Fin 8) (addr : Fin 32) (dly : Fin 16)
  /-- PE_WAIT (R242). WAIT stalls on a pin, line, start tick, PPS or parameter condition. -/
  | peWait (e : Fin 8) (w : PWait) (dly : Fin 16)
  /-- PE_DLY (R240). DLY waits v + 1 cycles. -/
  | peDly (e : Fin 8) (konst : Bool) (n : Fin 8) (dly : Fin 16)
  /-- PE_SETP (R240). SETP sets output levels under a mask. -/
  | peSetp (e : Fin 8) (mask : Fin 16) (value : Fin 16) (dly : Fin 16)
  /-- PE_PULL (R249). PULL loads A from the parameter FIFO. -/
  | pePull (e : Fin 8) (nb : Bool) (dly : Fin 16)
  /-- PE_PUSH (R249). PUSH writes a register to the output FIFO. -/
  | pePush (e : Fin 8) (r : Fin 4) (nb : Bool) (dly : Fin 16)
  /-- PE_QDEC (R243). QDEC takes a quadrature step. -/
  | peQdec (e : Fin 8) (blk : Bool) (dly : Fin 16)
  /-- PE_TRIG (R252). TRIG pulses the engine's trigger output. -/
  | peTrig (e : Fin 8) (ph : Fin 3) (dly : Fin 16)
  /-- PE_STAMP (R240). STAMP pushes the 64-bit tick count. -/
  | peStamp (e : Fin 8) (nb : Bool) (dly : Fin 16)
  /-- PE_IRQ (R240). IRQ sets IRQ_RAW.PROGn. -/
  | peIrq (e : Fin 8) (n : Fin 2) (dly : Fin 16)
  /-- PE_STOP (R246). STOP clears EN and stops the engine at once. -/
  | peStop (e : Fin 8) (dly : Fin 16)
  /-- PE_ILLEGAL (R244). Executing a word with a reserved operand stops the engine as ILLEGAL. -/
  | peIllegal (e : Fin 8)
  /-- PE_WAIT_DONE (R242). A stalled WAIT's condition occurs and the next instruction issues. -/
  | peWaitDone (e : Fin 8)
  /-- PE_DLY_DONE (R240). A DLY count expires. -/
  | peDlyDone (e : Fin 8)
  /-- PE_DELAY_END (R239). The DELAY idle cycles after an instruction end. -/
  | peDelayEnd (e : Fin 8)
  /-- PE_PULL_DONE (R239). A stalled PULL completes when data arrives. -/
  | pePullDone (e : Fin 8)
  /-- PE_PUSH_DONE (R239). A stalled PUSH or STAMP completes when space is free. -/
  | pePushDone (e : Fin 8)
  /-- PE_QDEC_DONE (R243). A blocking QDEC completes when the quadrature state changes. -/
  | peQdecDone (e : Fin 8)
  /-- PE_PARAM_WRITE (R249). A host write to PE.PARAM enters the parameter FIFO or is refused. -/
  | peParamWrite (p : Port) (e : Fin 8) (v : Word)
  /-- PE_OUT_READ (R249). A read of PE.OUT pops the oldest output word. -/
  | peOutRead (p : Port) (e : Fin 8)
  /-- PE_FLUSH (R249). Writing CTRL.FLUSH while disabled empties both FIFOs. -/
  | peFlush (p : Port) (e : Fin 8)
  /-- PE_DMA_TIMEOUT (R250). DMA_TMO passes since the oldest waiting word and the words are sent. -/
  | peDmaTimeout (e : Fin 8)
  /-- PE_GUARD_TRIP (R251). An output held opposite SAFE for MAX_ON × 256 cycles is forced to SAFE. -/
  | peGuardTrip (e : Fin 8) (j : Fin 4)
  /-- SAT_MARKER_BLOCK (R258). A satellite marker block is received and used for lane alignment. -/
  | satMarkerBlock (sp : Fin 8) (l1 : Bool)
  /-- SAT_FRAME_START (R266). A FRAME_START packet opens a frame of a virtual sensor and stamps it. -/
  | satFrameStart (sp : Fin 8)
  /-- SAT_LINE (R264). A LINE packet carries a segment of a line and is shaped and buffered. -/
  | satLine (sp : Fin 8)
  /-- SAT_LINE_END (R263). A LINE_END packet gives the line CRC and segment count. -/
  | satLineEnd (sp : Fin 8)
  /-- SAT_FRAME_END (R266). A FRAME_END packet closes a frame and checks its CRC. -/
  | satFrameEnd (sp : Fin 8)
  /-- SAT_HELLO (R276). A satellite HELLO is stored and may be translated into VS fields. -/
  | satHello (sp : Fin 8)
  /-- SAT_FILL (R262). A FILL word is received and skipped. -/
  | satFill (sp : Fin 8)
  /-- SAT_HEADER_ERROR (R261). A header fails its check and the port searches for the next header. -/
  | satHeaderError (sp : Fin 8)
  /-- SAT_CREDIT_TIMER (R274). At least every 100 µs the port sends a CREDIT packet. -/
  | satCreditTimer (sp : Fin 8)
  /-- SAT_FRAME_TIMEOUT (R266). FRAME_TMO ms pass without a packet of the frame and it closes as NO_END. -/
  | satFrameTimeout (sp : Fin 8) (vs : Fin 4)
  /-- SP_ALIGN_TIMEOUT (R275). No confirmed marker pair within 4 intervals returns the port to DOWN. -/
  | spAlignTimeout (sp : Fin 8)
  /-- INGEST_GRANT (R279). The ingest arbiter grants one line segment to the pipeline. -/
  | ingestGrant
  /-- NRD_ROW (R293). Stage P1 flags, spatially and temporally filters a row. -/
  | nrdRow (u : Nat) (pass : Nat) (rk : Nat)
  /-- PXC_ROW (R297). Stage P2 substitutes, removes black level and applies lens shading to a row. -/
  | pxcRow (u : Nat) (pass : Nat) (rk : Nat)
  /-- PXC_DEF_DATA (R298). An access to DEF_DATA reads or writes a defect map word and increments DEF_ADDR. -/
  | pxcDefData (p : Port) (v : Option Word)
  /-- PXC_LSC_DATA (R307). An access to LSC_DATA reaches a node of the inactive grid bank and increments LSC_ADDR. -/
  | pxcLscData (p : Port) (v : Option Word)
  /-- HDR_ROW (R317). Stage P3 merges and normalises a row of a pass. -/
  | hdrRow (u : Nat) (pass : Nat) (rk : Nat)
  /-- GEO_LINE (R329). Stage P4 cuts, bins, scales and flips a line into its outputs. -/
  | geoLine (od : Fin 64)
  /-- STA_RECORDS_READY (R343). A pass's tile records and the frame histogram are handed to firmware and delivery. -/
  | staRecordsReady (pass : Fin 4)
  /-- VIEW_FRAME_ACCEPT (R352). A view accepts a frame under its rate limit into a buffer. -/
  | viewFrameAccept (v : Fin 2)
  /-- VIEW_RASTER_OUT (R353). A complete view frame is demosaiced, tone-mapped and output as a raster. -/
  | viewRasterOut (v : Fin 2)
  /-- ENC_SLICE (R361). The encoder codes a slice of a stream within the frame's budget. -/
  | encSlice (es : Fin 16)
  /-- HIST_CHUNK_WRITE (R377). A history codestream is written to the ring as one chunk. -/
  | histChunkWrite
  /-- HIST_CAPTURE_END (R384). A trigger slot's capture ends and it becomes HELD. -/
  | histCaptureEnd (k : Fin 16)
  /-- HIST_RELEASE (R387). Writing RELEASE.GO frees a trigger slot. -/
  | histRelease (p : Port) (k : Fin 16)
  /-- HMP_CTRL_FREEZE (R388). Writing CTRL.FREEZE stops or resumes chunk writing. -/
  | hmpCtrlFreeze (p : Port) (on : Bool)
  /-- HMP_CTRL_ABORT (R389). Writing CTRL.ABORT ends every running replay at a chunk boundary. -/
  | hmpCtrlAbort (p : Port)
  /-- HMP_CTRL_RETRAIN (R392). Writing CTRL.RETRAIN retrains every channel. -/
  | hmpCtrlRetrain (p : Port)
  /-- HMP_CTRL_DSM (R394). Writing CTRL.DSM while disabled puts the memory in deep sleep. -/
  | hmpCtrlDsm (p : Port)
  /-- HIST_REPLAY_SEND (R389). A replay sends the next stored chunk or frame as packets when credit allows. -/
  | histReplaySend (n : Fin 2) (hOk : Bool) (pOk : Bool)
  /-- HMP_TRAIN_DONE (R392). Initialisation and training of the channels ends, READY or FAILED. -/
  | hmpTrainDone (ok : Fin 16) (descOk : Bool)
  /-- HMP_TRACKING (R392). Every 50 ms each channel's WCK2DQ delay is tracked. -/
  | hmpTracking (moved : Fin 16)
  /-- HMP_RETRAIN_DONE (R392). A channel's retraining ends. -/
  | hmpRetrainDone (c : Fin 4)
  /-- HMP_POWER_DOWN (R394). A channel idle for 2 µs enters power-down. -/
  | hmpPowerDown (c : Fin 4)
  /-- DLV_ENQUEUE (R412). A source packet enters the delivery buffer or is dropped. -/
  | dlvEnqueue
  /-- DLV_GRANT (R413). At the end of each packet on the link the next eligible packet is granted. -/
  | dlvGrant
  /-- QUEUE_ENTRY_WRITE (R407). A write to a queue table entry changes its fields, credit limit or enable. -/
  | queueEntryWrite (p : Port) (a : BitVec 24) (v : Word)
  /-- HOST_REG_WR (R417). An in-band REG_WR request executes its words. -/
  | hostRegWr
  /-- HOST_REG_RD (R417). An in-band REG_RD request reads its words and queues a response. -/
  | hostRegRd
  /-- HOST_CREDIT (R410). A CREDIT packet updates queue limits, ignoring backward entries. -/
  | hostCredit
  /-- HOST_PACKET_ERROR (R400). A host packet fails its checks and is discarded. -/
  | hostPacketError
  /-- TIME_PERIODIC (R416). A periodic TIME packet falls due. -/
  | timePeriodic
  /-- TIME_SEND (R426). Writing TIME_CFG.SEND sends one TIME packet with reason 3. -/
  | timeSend (p : Port)
  /-- HLP_HELLO_TIMER (R422). In INIT a HELLO is sent every 100 µs. -/
  | hlpHelloTimer
  /-- HLP_INIT_TIMEOUT (R422). INIT_TMO passes without a valid host packet and the link retrains. -/
  | hlpInitTimeout
  /-- LANE_DATA_BLOCK (R430). A DATA block is received and passed to the packet layer. -/
  | laneDataBlock (l : Fin 44) (b : BitVec 260) (drift : Int)
  /-- LANE_IDLE_BLOCK (R430). An IDLE block is received. -/
  | laneIdleBlock (l : Fin 44) (b : BitVec 260) (drift : Int)
  /-- LANE_SKIP_BLOCK (R442). A SKIP block is passed, deleted or doubled by the elastic buffer. -/
  | laneSkipBlock (l : Fin 44) (b : BitVec 260) (drift : Int)
  /-- LANE_ALIGN_ROW (R434). An ALIGN row is received and used for deskew. -/
  | laneAlignRow (l : Fin 44) (b : BitVec 260) (drift : Int)
  /-- LANE_CTRL_BLOCK (R449). A CTRL block carries training, START, SLEEP or WAKE. -/
  | laneCtrlBlock (l : Fin 44) (b : BitVec 260) (drift : Int)
  /-- LANE_INVALID_HEADER (R439). A block with an invalid header is delivered as 0xFF bytes or costs lock. -/
  | laneInvalidHeader (l : Fin 44) (b : BitVec 260) (drift : Int)
  /-- FEC_CODEWORD (R437). An FEC codeword is decoded, corrected or marked uncorrectable. -/
  | fecCodeword (l : Fin 44) (w : List (BitVec 10))
  /-- LANE_SIGNAL_DETECT (R451). Signal on a receive lane for 10 µs moves DETECT to ACQUIRE. -/
  | laneSignalDetect (l : Fin 44)
  /-- LANE_CDR_LOCK (R451). CDR lock on every receive lane moves ACQUIRE to BLOCK_SYNC. -/
  | laneCdrLock (l : Fin 44)
  /-- LANE_EQ_DONE (R446). The equaliser's error has not improved for 1 ms and RX_READY is set. -/
  | laneEqDone (l : Fin 44) (eq : List Int)
  /-- LANE_LOS (R451). Loss of signal for 1 µs fails the training attempt or the link. -/
  | laneLos (l : Fin 44)
  /-- LANE_STATE_TIMEOUT (R451). A training state's timeout passes and the attempt fails. -/
  | laneStateTimeout (g : Fin 9)
  /-- LANE_FAIL_IDLE_END (R452). The 1 ms transmit idle after a failure ends. -/
  | laneFailIdleEnd (g : Fin 9)
  /-- LANE_BACKOFF_END (R451). Loops are up and BACKOFF_MS has elapsed, so DEEP moves to DETECT. -/
  | laneBackoffEnd (g : Fin 9)
  /-- LANE_ADAPT_UPDATE (R447). An adaptation update in ACTIVE moves equaliser settings within their bounds. -/
  | laneAdaptUpdate (l : Fin 44) (ds : List Int)
  /-- LANE_MARGIN_CHECK (R448). After 100 ms of idle a margin check starts. -/
  | laneMarginCheck (l : Fin 44)
  /-- LANE_MARGIN_DONE (R448). The margin check writes the eye and may report MARGIN_LOW. -/
  | laneMarginDone (l : Fin 44) (w : BitVec 16) (h : BitVec 16)
  /-- LANE_SLEEP (R455). SLEEP_US of idle rows put the direction to sleep. -/
  | laneSleep (g : Fin 9)
  /-- LANE_WAKE (R456). A packet byte or ALIGN row falls due and the direction wakes. -/
  | laneWake (g : Fin 9)
  /-- LANE_SLIP (R440). Writing SYNC_CTRL.SLIP slips the block boundary once. -/
  | laneSlip (p : Port) (l : Fin 44)
  /-- LANE_DEEP_REQ (R451). Writing PWR_CFG.DEEP_REQ sends the group to DEEP. -/
  | laneDeepReq (p : Port) (l : Fin 44)
  /-- PLL_LOCK (R462). A PLL's phase stays in window for LOCK_CNT cycles and lock is declared. -/
  | pllLock (p : Pll)
  /-- CLK_REF_LOST (R463). The timing PLL detects reference loss and coasts. -/
  | clkRefLost
  /-- CLK_REF_RETURN (R466). A reference is present again and qualification starts. -/
  | clkRefReturn
  /-- CLK_REF_QUALIFIED (R464). 1,024 good reference cycles end qualification with relock or build-out. -/
  | clkRefQualified (ofs : BitVec 32)
  /-- CLK_LOSS_OF_LOCK (R465). A frequency error outside LOL_PPM gates the clock outputs. -/
  | clkLossOfLock
  /-- CLK_REF_SELECT (R461). Writing REF_CFG.SEL changes the timing PLL reference. -/
  | clkRefSelect (p : Port) (v : Word)
  /-- CLK_OUT_ENABLE (R468). Writing OUTn_CFG.EN starts or stops a clock output without runts. -/
  | clkOutEnable (p : Port) (n : Fin 10) (en : Bool)
  /-- CLK_RAMP_SEGMENT_END (R469). A ramp segment's duration ends and the next segment or step follows. -/
  | clkRampSegmentEnd (n : Fin 10) (guarded : List Nat)
  /-- CLK_RELOCK_TIMEOUT (R471). An output's OPLL has not relocked within LIMIT_US. -/
  | clkRelockTimeout (n : Fin 10)
  /-- PHASE_SLEW_DONE (R467). A PHASE_STEP slew consumes its offset. -/
  | phaseSlewDone
  /-- TIMEBASE_TICK (R472). A 250 MHz tick increments TICK and advances the time of day. -/
  | timebaseTick
  /-- PPS_EDGE (R476). A PPS_IN edge is accepted or rejected and the servo acts on it. -/
  | ppsEdge (lvl : Bool) (ph : Fin 3)
  /-- PPS_LOST (R475). 1.5 s after the last accepted edge PPS_VALID falls. -/
  | ppsLost
  /-- TBS_TICK_LO_READ (R474). A read of TICK_LO latches the tick and time-of-day registers. -/
  | tbsTickLoRead (p : Port)
  /-- VAON_POWER_ON (R548). VAON entering range causes a power-on reset. -/
  | vaonPowerOn (resetN : Bool)
  /-- VAON_LOSS (R556). VAON below 1.60 V stops driving the rail enables. -/
  | vaonLoss
  /-- RESET_N_ASSERT (R549). RESET_N low for 10 µs takes the device to RETAIN. -/
  | resetNAssert
  /-- RESET_N_RELEASE (R486). RESET_N rises, straps are sampled and the rise to ON begins 20 µs later. -/
  | resetNRelease (boot : Fin 4) (i2c : Fin 4)
  /-- RAIL_PG_RISE (R486). A rail's power-good rises during sequencing. -/
  | railPgRise (rail : Fin 6)
  /-- RAIL_EN_STEP (R486). GAP_US after a power-good the next rail enable rises. -/
  | railEnStep
  /-- RAIL_EN_LOWER_STEP (R486). 10 µs after one enable falls the next enable is lowered. -/
  | railEnLowerStep
  /-- RAIL_PG_TIMEOUT (R487). A power-good does not rise within TMO_MS and a rail fault is declared. -/
  | railPgTimeout
  /-- RAIL_PG_LOST (R487). A power-good falls while its enable is high, declaring a rail fault. -/
  | railPgLost (rail : Fin 6)
  /-- RAIL_FAULT_RETRY (R487). 100 ms after a fault lowering the sequencer retries the rise to ON. -/
  | railFaultRetry
  /-- PMBUS_TRANSACTION_DONE (R491). A PMBus transaction completes, succeeds or is retried. -/
  | pmbusTransactionDone (ok : Bool) (data : BitVec 16)
  /-- PMB_ALERT (R492). PMB_ALERT_N asserts and the regulator status is read and cleared. -/
  | pmbAlert (st : BitVec 16) (vout : Byte)
  /-- GOVERNOR_STEP (R493). The rate governor compares capacity with target and steps VCORE by 10 mV. -/
  | governorStep (capLow : Word) (encLow : Word)
  /-- RATE_MONITOR_UPDATE (R47). Every 100 µs each rate monitor reports capacity and load. -/
  | rateMonitorUpdate (readings : List (Word × Word)) (whole : Bool)
  /-- GAIT_UPDATE (R495). Every 10 ms P_est is formed and the gait throttle updated. -/
  | gaitUpdate (other : Word)
  /-- THROTTLE_UPDATE (R499). Every 10 ms the throttle computes R, the row extension and the VCORE ceiling. -/
  | throttleUpdate
  /-- THERMAL_SAMPLE (R497). A 1 kHz thermal sample updates readings and group states. -/
  | thermalSample (samples : List (BitVec 16))
  /-- SHUTDOWN_RECORD_DONE (R501). The SHUTDOWN record is programmed and the rails go to RETAIN. -/
  | shutdownRecordDone
  /-- CUTOFF_TRIP (R502). The cutoff comparator trips and drops the upper rails at once. -/
  | cutoffTrip (pix : Bool) (temp : Byte)
  /-- AUTO_RESTART_CHECK (R503). Every 10 ms the always-on monitor checks the cutoff sensors for restart. -/
  | autoRestartCheck (pix : BitVec 16) (log : BitVec 16)
  /-- PFAIL_ACCEPT (R505). PFAIL_N low for 1 µs starts the power-fail sequence. -/
  | pfailAccept
  /-- PFAIL_FLUSH_DONE (R505). The power-fail flush of the event buffer to MRAM completes. -/
  | pfailFlushDone
  /-- PFAIL_RESTART (R506). PFAIL_N high for 100 ms with RESET_N high restarts the rise to ON. -/
  | pfailRestart
  /-- EVENT_ACCEPT (R510). The recorder accepts, filters or drops an event record. -/
  | eventAccept
  /-- EVR_DROPPED_RECORD (R516). One second after the first drop a DROPPED record is written. -/
  | evrDroppedRecord (src : Byte)
  /-- EVR_IMAGE_SEAL (R518). A page image is sealed after WINDOW_MS or 1 s. -/
  | evrImageSeal (sev : Fin 8)
  /-- EVR_PAGE_PROGRAM (R522). A sealed image is programmed into a log page. -/
  | evrPageProgram (fail : Bool)
  /-- EVR_FREEZE_EXPIRE (R524). A freeze expires after MAX_S seconds. -/
  | evrFreezeExpire
  /-- NONCE_EXPIRE (R525). A clear nonce lapses 60 s after issue. -/
  | nonceExpire
  /-- KEY_PROG (R537). Writing KEY_CTRL.PROG starts programming the operator key. -/
  | keyProg (p : Port)
  /-- KEY_PROG_DONE (R537). Key programming ends, key words clear and PROVISIONED is set. -/
  | keyProgDone
  /-- FW_CONFIRM (R534). Writing FW_CTRL.CONFIRM makes the trial image confirmed. -/
  | fwConfirm (p : Port)
  /-- BOOT_ROM_START (R541). After PLL lock the boot ROM reads boot control and scans MRAM. -/
  | bootRomStart
  /-- MRAM_SCAN_DONE (R541). The MRAM tag scan ends and the selected image is verified. -/
  | mramScanDone (torn : List (Fin 131072))
  /-- FIRMWARE_START (R542). Firmware loads calibration, programs and translations, commits and sets RUN. -/
  | firmwareStart
  /-- FIRMWARE_RESTART (R545). Firmware restarts and resumes its loops without touching hardware. -/
  | firmwareRestart
  /-- WATCHDOG_TIMEOUT (R548). 250 ms without service restarts firmware. -/
  | watchdogTimeout
  /-- RECOVERY_LOADER_START (R546). The recovery loader starts and serves its mailbox commands. -/
  | recoveryLoaderStart
  /-- WARM_RESET (R550). Writing the warm key to RST_CTRL resets the non-kept pages at level ON. -/
  | warmReset (p : Port)
  /-- FULL_RESET (R548). Writing the full key to RST_CTRL takes the device to RETAIN and back. -/
  | fullReset (p : Port)
  /-- BOOT_CFG_SAVE (R544). Writing BOOT_CFG.SAVE stores the boot preset settings in boot control. -/
  | bootCfgSave (p : Port) (v : Word)
  /-- TAP_RESET (R548). TRST_N low or 5 TCK with TMS high resets the TAP to BYPASS. -/
  | tapReset
  /-- TAP_EXTEST (R552). EXTEST drives the boundary-scan pins from the chain. -/
  | tapExtest (bits : Option (List Bool))
  /-- TAP_SAMPLE_PRELOAD (R552). SAMPLE/PRELOAD samples or preloads the boundary-scan chain. -/
  | tapSamplePreload (pre : Bool) (bits : List Bool)
  /-- TAP_CLAMP (R552). CLAMP holds the pins from the chain with BYPASS selected. -/
  | tapClamp
  /-- TAP_HIGHZ (R552). HIGHZ releases the covered pins. -/
  | tapHighz
  /-- TAP_BYPASS (R552). BYPASS selects the one-bit bypass register. -/
  | tapBypass (tdi : BypassScan)
  /-- PUMP_RAIL_RECOVER (R115). The 3.6 V reset boost and the −1.4 V transfer-gate low return to regulation, PUMP_STAT reads good again and the 100 µs qualification for shutter resume begins. -/
  | pumpRailRecover
  /-- CLK_RAMP_TARGET_REACHED (R469). A clock output's ramp reaches f_new part-way through a segment, so the frequency stops moving and RAMPING clears. -/
  | clkRampTargetReached (n : Fin 10)
  /-- BOOT_CFG_SAVE_DONE (R544). Firmware finishes storing AUTOSTART, PRESET_EN and SLOT in boot control, and SAVE_BUSY clears. -/
  | bootCfgSaveDone
  /-- SOFTWARE_RESET_RISE (R548). 1 ms after the last RAIL_EN of a full software reset's lowering has fallen, the rise to ON begins. -/
  | softwareResetRise
  /-- FOCUS_RUN_TIMEOUT (R348). FOCUS_RUN has not ended 5 s after GO, or no position word follows a parameter word within 1 s, so the command ends with TIMEOUT. -/
  | focusRunTimeout
  /-- PRESET_LOAD_TIMEOUT (R531). A page that PRESET_LOAD disabled has not stopped within 150 ms, so firmware re-enables the pages and outputs and returns TIMEOUT. -/
  | presetLoadTimeout
  /-- ENG_FLUSH_DONE (R187). The 64-cycle chain flush of a dirty engine ends, CHAIN_DIRTY clears and the engine's first instruction issues. -/
  | engFlushDone (e : Fin 96)
  deriving DecidableEq, Repr

end Sys2Proof
end

