-- ==== Sys2Proof/Decode.lean ====
section
/-! DEFINITION. The decoder of the table's words. -/
namespace Sys2Proof

/-- The command a word spells. No row of the command table gives any bits, so every word is
refused. (DESIGN CHOICE, log entry 7.) -/
def decodeTableWord (_nbits _w : Nat) : Option Instr := none

end Sys2Proof
end

