-- ==== Sys2Proof/Machine/Crc.lean ====
section
/-! DEFINITION. The two check codes of the spec, bit by bit. -/
namespace Sys2Proof.Machine

/-- `n` shifts of the reflected CRC-32 register (R265). -/
def crc32Shift : Nat → BitVec 32 → BitVec 32
  | 0, c => c
  | n + 1, c =>
    let c' := c >>> 1
    crc32Shift n (if c.getLsbD 0 then c' ^^^ 0xEDB88320#32 else c')

def crc32Step (c : BitVec 32) (b : Byte) : BitVec 32 := crc32Shift 8 (c ^^^ b.setWidth 32)

/-- The register after a byte string, from a starting register. -/
def crc32From (c : BitVec 32) : List Byte → BitVec 32
  | [] => c
  | b :: t => crc32From (crc32Step c b) t

/-- CRC-32 of a byte string (R265). -/
def crc32 (l : List Byte) : BitVec 32 := crc32From 0xFFFFFFFF#32 l ^^^ 0xFFFFFFFF#32

/-- `n` shifts of the CRC-8 register, most significant bit first (R261). -/
def crc8Shift : Nat → BitVec 8 → BitVec 8
  | 0, c => c
  | n + 1, c =>
    let c' := c <<< 1
    crc8Shift n (if c.getLsbD 7 then c' ^^^ 0x07#8 else c')

/-- CRC-8 of a byte string, from a starting register. -/
def crc8From (c : BitVec 8) : List Byte → BitVec 8
  | [] => c
  | b :: t => crc8From (crc8Shift 8 (c ^^^ b)) t

end Sys2Proof.Machine
end

