-- ==== Sys2Proof/Config.lean ====
section
/-! DEFINITION. What the spec leaves to the unit, to the outside world or open: constants with no
body, so that a statement holds whatever they are. -/
namespace Sys2Proof.Config

/-- The unit's 64-bit serial number (R86 "per unit"). (DESIGN CHOICE, log entry 5.) -/
opaque serial : BitVec 64

/-- First four bytes of the SHA-256 of the boot ROM public key (R537 "per unit"). (DESIGN CHOICE, log entry 5.) -/
opaque romKeyId : Word

/-- Region code of a page's MRAM tag (R530 gives none). (DESIGN CHOICE, log entry 25.) -/
opaque regionCode : Nat → Byte

/-- What a tile without green pixels adds to a focus score (R348 divides by their number).
(DEDUCED, log entry 107.) -/
opaque focusNoGreen : Nat → Rat

/-- Place in the boundary-scan chain of a covered pin's output cell: PIO 0 to 15, then SPI_MISO, IRQ_N, SCL, SDA, PMB_SCL and
PMB_SDA (R552 leaves the order to its description file).
(DESIGN CHOICE, log entry 108.) -/
opaque scanCell : Nat → Nat

/-- Does the crystal lie within 1,000 ppm of a REFCLK reference, by the cycle at which it is measured (R482)? No command
says so. (DESIGN CHOICE, log entry 124.) -/
opaque crystalGood : Nat → Bool

/-- A fresh free value for each count of the free-value counter. (DESIGN CHOICE, log entry 4.) -/
opaque freeWord : Nat → Word

/-- Byte `i` of the `n`-th nonce from the random source (R525 names the source, not its values).
(DESIGN CHOICE, log entry 16.) -/
opaque nonceByte : Nat → Nat → Byte

/-- Ed25519 verification with the Frasanex public key: message, signature (R532). (DESIGN CHOICE, log entry 16.) -/
opaque ed25519Ok : List Byte → List Byte → Bool

/-- The firmware release image A holds as shipped: major, minor, patch, build, SVN (R25).
(DESIGN CHOICE, log entry 5.) -/
opaque shippedMinor : Nat
/-- (DESIGN CHOICE, log entry 5.) -/
opaque shippedPatch : Nat
/-- (DESIGN CHOICE, log entry 5.) -/
opaque shippedBuild : Nat
/-- (DESIGN CHOICE, log entry 5.) -/
opaque shippedSvn : Nat

/-- The device's noise figure for a variance (R285: to within 1 %). (DESIGN CHOICE, log entry 71.) -/
opaque sigma : Rat → Rat

/-- The device's normalising factor for its 256th power (R315: to within 2^-16). (DESIGN CHOICE, log entry 71.) -/
opaque factor : Rat → Rat

/-- Which of the two neighbouring phases of the scaler a position takes (R332). (DESIGN CHOICE, log entry 77.) -/
opaque phaseUp : Rat → Bool

/-- The quantised cubic taps of a phase (R332). (DESIGN CHOICE, log entry 77.) -/
opaque cubicTap : Nat → Nat → Int

/-- What the view path takes for log2 of a luminance that is not above 0 (R353 gives none).
(DEDUCED, log entry 80.) -/
opaque darkLog : Rat → Rat

/-- The JPEG XS bytes of a slice: coding parameters, and the lines of the slice (R359 names the standard;
which of the codestreams within the budget the encoder makes is its own). (DESIGN CHOICE, log entry 81.) -/
opaque jpegXs : List Nat → List (List Nat) → List Byte

/-- Payload of the trigger-mark chunk of a trigger, by its sequence number, T and cause (R383 gives none).
(DEDUCED, log entry 83.) -/
opaque markPayload : Nat → Nat → Nat → List Byte

/-- CRC of the Hamper's ring descriptor over serial, BURST_GIB, CH_MASK and oldest chunk: R378 does not place
the descriptor's fields. (DEDUCED, log entry 83.) -/
opaque ringCrc : Nat → Nat → Nat → Nat → Nat

/-- Where the PRBS31 generator of a transmit lane starts (R433 gives no seed). (DEDUCED, log entry 95.) -/
opaque prbsSeed : Nat → Nat

/-- Engine cycles from the rising to the falling edge of a pin engine's trigger output (R252 gives none).
(DESIGN CHOICE, log entry 62.) -/
opaque trigPulse : Nat

/-- The Frasanex defaults that a configuration preset holds as shipped, as pairs of address and word (R25).
(DESIGN CHOICE, log entry 5.) -/
opaque shippedPreset : Nat → List (Nat × Word)

/-- Calibration of the unit (R356, R542): white balance and colour matrix of an illuminant, noise fields,
words of the defect map by address, how many pixel and column entries are in force, lens shading gains.
(DESIGN CHOICE, log entry 5.) -/
opaque illuminant : Nat → Nat → Nat
/-- (DESIGN CHOICE, log entry 5.) -/
opaque calNoise : Nat → Nat
/-- (DESIGN CHOICE, log entry 5.) -/
opaque calDefect : Nat → Word
/-- (DESIGN CHOICE, log entry 5.) -/
opaque calDefects : Nat
/-- (DESIGN CHOICE, log entry 5.) -/
opaque calColumns : Nat
/-- (DESIGN CHOICE, log entry 5.) -/
opaque calLsc : Nat → Nat

end Sys2Proof.Config
end

