-- ==== Sys2Proof/Machine/Fields.lean ====
section
/-! DEFINITION. The register fields of every page: place, access class, reset value and legal
values, from the spec's register tables (written from those tables row by row). -/
namespace Sys2Proof

/-- Access classes (R16). -/
inductive Acc where
  | rw | sh | lk | ro | w1c | wo | rc
  deriving DecidableEq, Repr

/-- The values a field may take: any; codes up to a bound, the rest reserved (R15); a stated range
(R583); a stated list (R583). -/
inductive Legal where
  | any
  | codes (max : Nat)
  | rng (lo hi : Nat)
  | only (l : List Nat)
  deriving DecidableEq, Repr

/-- One register field: block, byte offset in its page, spacing and number of copies, bit place,
access class, reset value and legal values. -/
structure Fld where
  blk : Blk
  off : Nat
  stride : Nat
  cnt : Nat
  hi : Nat
  lo : Nat
  acc : Acc
  rst : Nat
  legal : Legal
  deriving DecidableEq, Repr

/-! The common page header (R61). -/
def HD_PAGE_ID_BLOCK : Fld := ⟨.sys, 0x0, 0, 1, 15, 8, .ro, 0, .any⟩
def HD_PAGE_ID_VERSION : Fld := ⟨.sys, 0x0, 0, 1, 7, 0, .ro, 0x1, .any⟩
def HD_PAGE_CAP_CAP : Fld := ⟨.sys, 0x4, 0, 1, 31, 0, .ro, 0, .any⟩
def HD_PAGE_CTRL_EXPERT : Fld := ⟨.sys, 0x8, 0, 1, 2, 2, .rw, 0, .any⟩
def HD_PAGE_CTRL_SOFT_RST : Fld := ⟨.sys, 0x8, 0, 1, 1, 1, .wo, 0, .any⟩
def HD_PAGE_CTRL_EN : Fld := ⟨.sys, 0x8, 0, 1, 0, 0, .rw, 0, .any⟩
def HD_PAGE_STAT_BLK : Fld := ⟨.sys, 0xC, 0, 1, 31, 16, .ro, 0, .any⟩
def HD_PAGE_STAT_XLATE_PEND : Fld := ⟨.sys, 0xC, 0, 1, 4, 4, .ro, 0, .any⟩
def HD_PAGE_STAT_COMMIT_PEND : Fld := ⟨.sys, 0xC, 0, 1, 3, 3, .ro, 0, .any⟩
def HD_PAGE_STAT_WR_REJECT : Fld := ⟨.sys, 0xC, 0, 1, 2, 2, .w1c, 0, .any⟩
def HD_PAGE_STAT_BUSY : Fld := ⟨.sys, 0xC, 0, 1, 1, 1, .ro, 0, .any⟩
def HD_PAGE_STAT_ACTIVE : Fld := ⟨.sys, 0xC, 0, 1, 0, 0, .ro, 0, .any⟩
def HD_IRQ_RAW_BLK : Fld := ⟨.sys, 0x10, 0, 1, 31, 8, .w1c, 0, .any⟩
def HD_IRQ_RAW_WR_REJECT : Fld := ⟨.sys, 0x10, 0, 1, 2, 2, .w1c, 0, .any⟩
def HD_IRQ_RAW_COMMIT_FAIL : Fld := ⟨.sys, 0x10, 0, 1, 1, 1, .w1c, 0, .any⟩
def HD_IRQ_RAW_COMMIT_DONE : Fld := ⟨.sys, 0x10, 0, 1, 0, 0, .w1c, 0, .any⟩
def HD_IRQ_EN_EN : Fld := ⟨.sys, 0x14, 0, 1, 31, 0, .rw, 0, .any⟩
def HD_IRQ_STAT_STAT : Fld := ⟨.sys, 0x18, 0, 1, 31, 0, .ro, 0, .any⟩
def HD_COMMIT_KEY : Fld := ⟨.sys, 0x1C, 0, 1, 31, 0, .wo, 0, .any⟩
def HD_COMMIT_STAT_FAIL_OFS : Fld := ⟨.sys, 0x20, 0, 1, 29, 20, .ro, 0, .any⟩
def HD_COMMIT_STAT_REASON : Fld := ⟨.sys, 0x20, 0, 1, 15, 8, .ro, 0, .any⟩
def HD_COMMIT_STAT_STATE : Fld := ⟨.sys, 0x20, 0, 1, 3, 0, .ro, 0, .any⟩

def headerFields : List Fld :=
  [HD_PAGE_ID_BLOCK, HD_PAGE_ID_VERSION, HD_PAGE_CAP_CAP, HD_PAGE_CTRL_EXPERT, HD_PAGE_CTRL_SOFT_RST, HD_PAGE_CTRL_EN, HD_PAGE_STAT_BLK, HD_PAGE_STAT_XLATE_PEND, HD_PAGE_STAT_COMMIT_PEND, HD_PAGE_STAT_WR_REJECT, HD_PAGE_STAT_BUSY, HD_PAGE_STAT_ACTIVE, HD_IRQ_RAW_BLK, HD_IRQ_RAW_WR_REJECT, HD_IRQ_RAW_COMMIT_FAIL, HD_IRQ_RAW_COMMIT_DONE, HD_IRQ_EN_EN, HD_IRQ_STAT_STAT, HD_COMMIT_KEY, HD_COMMIT_STAT_FAIL_OFS, HD_COMMIT_STAT_REASON, HD_COMMIT_STAT_STATE]

/-! The SYS page (R86, R553). -/
def SYS_DEV_ID_PART : Fld := ⟨.sys, 0x100, 0, 1, 31, 16, .ro, 0x9612, .any⟩
def SYS_DEV_ID_REV : Fld := ⟨.sys, 0x100, 0, 1, 15, 8, .ro, 0xB0, .any⟩
def SYS_SERIAL_LO : Fld := ⟨.sys, 0x104, 0, 1, 31, 0, .ro, 0, .any⟩
def SYS_SERIAL_HI : Fld := ⟨.sys, 0x108, 0, 1, 31, 0, .ro, 0, .any⟩
def SYS_GCOMMIT_KEY : Fld := ⟨.sys, 0x110, 0, 1, 31, 0, .wo, 0, .any⟩
def SYS_GEN : Fld := ⟨.sys, 0x118, 0, 1, 31, 0, .ro, 0, .any⟩
def SYS_PORT_CTRL_WR_EN : Fld := ⟨.sys, 0x120, 0, 1, 2, 0, .rw, 0x7, .any⟩
def SYS_IRQ_GRP_GRP : Fld := ⟨.sys, 0x130, 0, 1, 28, 0, .ro, 0, .any⟩
def SYS_IRQ_GRP_EN_EN : Fld := ⟨.sys, 0x134, 0, 1, 28, 0, .rw, 0, .any⟩
def SYS_IRQ_ROUTE_PKT : Fld := ⟨.sys, 0x138, 0, 1, 1, 1, .rw, 0, .any⟩
def SYS_IRQ_ROUTE_PIN : Fld := ⟨.sys, 0x138, 0, 1, 0, 0, .rw, 0x1, .any⟩
def SYS_IRQ_ENG : Fld := ⟨.sys, 0x140, 4, 3, 31, 0, .ro, 0, .any⟩
def SYS_IRQ_PE : Fld := ⟨.sys, 0x14C, 0, 1, 7, 0, .ro, 0, .any⟩
def SYS_IRQ_LN0 : Fld := ⟨.sys, 0x150, 0, 1, 31, 0, .ro, 0, .any⟩
def SYS_IRQ_LN1 : Fld := ⟨.sys, 0x154, 0, 1, 11, 0, .ro, 0, .any⟩
def SYS_IRQ_SP : Fld := ⟨.sys, 0x158, 0, 1, 7, 0, .ro, 0, .any⟩
def SYS_BASIC_CTRL_AUTOCOMMIT : Fld := ⟨.sys, 0x160, 0, 1, 0, 0, .rw, 0x1, .any⟩
def SYS_FW_STAT_IMAGE : Fld := ⟨.sys, 0x164, 0, 1, 1, 1, .ro, 0, .any⟩
def SYS_FW_STAT_RUN : Fld := ⟨.sys, 0x164, 0, 1, 0, 0, .ro, 0, .any⟩
def SYS_ADDR_ERR : Fld := ⟨.sys, 0xF00, 0, 1, 31, 0, .rc, 0, .any⟩
def SYS_SUPERSEDED : Fld := ⟨.sys, 0xF04, 0, 1, 31, 0, .rc, 0, .any⟩
def SYS_SPI_ABORT : Fld := ⟨.sys, 0xF08, 0, 1, 31, 0, .rc, 0, .any⟩
def SYS_PORT_DENY : Fld := ⟨.sys, 0xF0C, 0, 1, 31, 0, .rc, 0, .any⟩
def SYS_RST_CAUSE_FW : Fld := ⟨.sys, 0x200, 0, 1, 11, 8, .ro, 0, .any⟩
def SYS_RST_CAUSE_RESET : Fld := ⟨.sys, 0x200, 0, 1, 3, 0, .ro, 0, .any⟩
def SYS_FW_RESTARTS_COUNT : Fld := ⟨.sys, 0x204, 0, 1, 15, 0, .ro, 0, .any⟩
def SYS_STRAP_I2C_ADDR : Fld := ⟨.sys, 0x208, 0, 1, 5, 4, .ro, 0, .any⟩
def SYS_STRAP_BOOT_SEL : Fld := ⟨.sys, 0x208, 0, 1, 1, 0, .ro, 0, .any⟩
def SYS_BOOT_STAT_BOOT_MS : Fld := ⟨.sys, 0x20C, 0, 1, 31, 16, .ro, 0, .any⟩
def SYS_BOOT_STAT_ROM_RESULT : Fld := ⟨.sys, 0x20C, 0, 1, 11, 8, .ro, 0, .any⟩
def SYS_BOOT_STAT_MODE : Fld := ⟨.sys, 0x20C, 0, 1, 1, 0, .ro, 0, .any⟩
def SYS_BOOT_CFG_SAVE_BUSY : Fld := ⟨.sys, 0x210, 0, 1, 17, 17, .ro, 0, .any⟩
def SYS_BOOT_CFG_SAVE : Fld := ⟨.sys, 0x210, 0, 1, 16, 16, .wo, 0, .any⟩
def SYS_BOOT_CFG_AUTOSTART : Fld := ⟨.sys, 0x210, 0, 1, 8, 8, .rw, 0, .any⟩
def SYS_BOOT_CFG_PRESET_EN : Fld := ⟨.sys, 0x210, 0, 1, 7, 7, .rw, 0, .any⟩
def SYS_BOOT_CFG_SLOT : Fld := ⟨.sys, 0x210, 0, 1, 4, 0, .rw, 0, .any⟩
def SYS_RST_CTRL_KEY : Fld := ⟨.sys, 0x220, 0, 1, 31, 0, .wo, 0, .any⟩

def sysFields : List Fld :=
  [SYS_DEV_ID_PART, SYS_DEV_ID_REV, SYS_SERIAL_LO, SYS_SERIAL_HI, SYS_GCOMMIT_KEY, SYS_GEN, SYS_PORT_CTRL_WR_EN, SYS_IRQ_GRP_GRP, SYS_IRQ_GRP_EN_EN, SYS_IRQ_ROUTE_PKT, SYS_IRQ_ROUTE_PIN, SYS_IRQ_ENG, SYS_IRQ_PE, SYS_IRQ_LN0, SYS_IRQ_LN1, SYS_IRQ_SP, SYS_BASIC_CTRL_AUTOCOMMIT, SYS_FW_STAT_IMAGE, SYS_FW_STAT_RUN, SYS_ADDR_ERR, SYS_SUPERSEDED, SYS_SPI_ABORT, SYS_PORT_DENY, SYS_RST_CAUSE_FW] ++
  [SYS_RST_CAUSE_RESET, SYS_FW_RESTARTS_COUNT, SYS_STRAP_I2C_ADDR, SYS_STRAP_BOOT_SEL, SYS_BOOT_STAT_BOOT_MS, SYS_BOOT_STAT_ROM_RESULT, SYS_BOOT_STAT_MODE, SYS_BOOT_CFG_SAVE_BUSY, SYS_BOOT_CFG_SAVE, SYS_BOOT_CFG_AUTOSTART, SYS_BOOT_CFG_PRESET_EN, SYS_BOOT_CFG_SLOT, SYS_RST_CTRL_KEY]

/-! The CLK page (R482). -/
def CLK_BASIC_CLK_SAT_FMT : Fld := ⟨.clk, 0x40, 0, 1, 11, 10, .rw, 0, .codes 2⟩
def CLK_BASIC_CLK_SAT_FREQ : Fld := ⟨.clk, 0x40, 0, 1, 7, 4, .rw, 0, .codes 2⟩
def CLK_BASIC_CLK_REF : Fld := ⟨.clk, 0x40, 0, 1, 1, 0, .rw, 0, .codes 2⟩
def CLK_REF_CFG_SEL : Fld := ⟨.clk, 0x100, 0, 1, 1, 0, .rw, 0, .codes 2⟩
def CLK_LOCK_CFG_LOCK_CNT : Fld := ⟨.clk, 0x104, 0, 1, 31, 16, .rw, 0x1000, .rng 256 65535⟩
def CLK_LOCK_CFG_LOCK_WIN : Fld := ⟨.clk, 0x104, 0, 1, 15, 0, .rw, 0xC8, .rng 20 2000⟩
def CLK_LOL_CFG_REF_PPM : Fld := ⟨.clk, 0x108, 0, 1, 31, 16, .rw, 0x96, .rng 50 500⟩
def CLK_LOL_CFG_LOL_PPM : Fld := ⟨.clk, 0x108, 0, 1, 15, 0, .rw, 0x64, .rng 10 1000⟩
def CLK_RELOCK_LIMIT_US : Fld := ⟨.clk, 0x10C, 0, 1, 15, 0, .rw, 0x7D0, .any⟩
def CLK_PSTEP_CFG_SLEW_PPM : Fld := ⟨.clk, 0x110, 0, 1, 7, 0, .rw, 0xA, .rng 1 100⟩
def CLK_STAT_SLEWING : Fld := ⟨.clk, 0x120, 0, 1, 11, 11, .ro, 0, .any⟩
def CLK_STAT_XTAL_OK : Fld := ⟨.clk, 0x120, 0, 1, 10, 10, .ro, 0, .any⟩
def CLK_STAT_REF_OK : Fld := ⟨.clk, 0x120, 0, 1, 9, 9, .ro, 0, .any⟩
def CLK_STAT_LOCK : Fld := ⟨.clk, 0x120, 0, 1, 8, 8, .ro, 0, .any⟩
def CLK_STAT_STATE : Fld := ⟨.clk, 0x120, 0, 1, 2, 0, .ro, 0, .any⟩
def CLK_BO_OFS : Fld := ⟨.clk, 0x124, 0, 1, 31, 0, .ro, 0, .any⟩
def CLK_PSTEP_LEFT : Fld := ⟨.clk, 0x128, 0, 1, 31, 0, .ro, 0, .any⟩
def CLK_OUT_CFG_EN : Fld := ⟨.clk, 0x200, 16, 10, 31, 31, .rw, 0, .any⟩
def CLK_OUT_CFG_FMT : Fld := ⟨.clk, 0x200, 16, 10, 25, 24, .lk, 0, .codes 2⟩
def CLK_OUT_CFG_DRV : Fld := ⟨.clk, 0x200, 16, 10, 21, 20, .lk, 0x1, .codes 2⟩
def CLK_OUT_CFG_PROFILE : Fld := ⟨.clk, 0x200, 16, 10, 17, 16, .sh, 0, .any⟩
def CLK_OUT_FREQ_FREQ : Fld := ⟨.clk, 0x204, 16, 10, 31, 0, .sh, 0xEE6B280, .any⟩
def CLK_OUT_STAT_RELOCK_FAIL : Fld := ⟨.clk, 0x208, 16, 10, 4, 4, .ro, 0, .any⟩
def CLK_OUT_STAT_GATED : Fld := ⟨.clk, 0x208, 16, 10, 3, 3, .ro, 0, .any⟩
def CLK_OUT_STAT_RAMPING : Fld := ⟨.clk, 0x208, 16, 10, 2, 2, .ro, 0, .any⟩
def CLK_OUT_STAT_LOCK : Fld := ⟨.clk, 0x208, 16, 10, 1, 1, .ro, 0, .any⟩
def CLK_OUT_STAT_RUNNING : Fld := ⟨.clk, 0x208, 16, 10, 0, 0, .ro, 0, .any⟩
def CLK_OUT_FACT_F_ACT : Fld := ⟨.clk, 0x20C, 16, 10, 31, 0, .ro, 0, .any⟩
def CLK_PRF_SEG0_SLOPE : Fld := ⟨.clk, 0x300, 64, 4, 31, 16, .sh, 0x3E8, .any⟩
def CLK_PRF_SEG0_DUR : Fld := ⟨.clk, 0x300, 64, 4, 15, 0, .sh, 0xFFFF, .any⟩
def CLK_PRF_SEG_SLOPE : Fld := ⟨.clk, 0x300, 4, 64, 31, 16, .sh, 0, .any⟩
def CLK_PRF_SEG_DUR : Fld := ⟨.clk, 0x300, 4, 64, 15, 0, .sh, 0, .any⟩
def CLK_IRQ_RAW_GUARD : Fld := ⟨.clk, 0x10, 0, 1, 13, 13, .w1c, 0, .any⟩
def CLK_IRQ_RAW_RELOCK_FAIL : Fld := ⟨.clk, 0x10, 0, 1, 12, 12, .w1c, 0, .any⟩
def CLK_IRQ_RAW_LOL : Fld := ⟨.clk, 0x10, 0, 1, 11, 11, .w1c, 0, .any⟩
def CLK_IRQ_RAW_PHASE_JUMP : Fld := ⟨.clk, 0x10, 0, 1, 10, 10, .w1c, 0, .any⟩
def CLK_IRQ_RAW_COAST : Fld := ⟨.clk, 0x10, 0, 1, 9, 9, .w1c, 0, .any⟩
def CLK_IRQ_RAW_LOCKED : Fld := ⟨.clk, 0x10, 0, 1, 8, 8, .w1c, 0, .any⟩
def CLK_COASTS : Fld := ⟨.clk, 0xF00, 0, 1, 31, 0, .rc, 0, .any⟩
def CLK_BUILD_OUTS : Fld := ⟨.clk, 0xF04, 0, 1, 31, 0, .rc, 0, .any⟩
def CLK_LOL_EVENTS : Fld := ⟨.clk, 0xF08, 0, 1, 31, 0, .rc, 0, .any⟩
def CLK_GUARD_GATED : Fld := ⟨.clk, 0xF0C, 0, 1, 31, 0, .rc, 0, .any⟩
def CLK_RELOCK_FAILS : Fld := ⟨.clk, 0xF10, 0, 1, 31, 0, .rc, 0, .any⟩
def CLK_PHASE_EXC : Fld := ⟨.clk, 0xF14, 0, 1, 31, 0, .rc, 0, .any⟩

def clkFields : List Fld :=
  [CLK_BASIC_CLK_SAT_FMT, CLK_BASIC_CLK_SAT_FREQ, CLK_BASIC_CLK_REF, CLK_REF_CFG_SEL, CLK_LOCK_CFG_LOCK_CNT, CLK_LOCK_CFG_LOCK_WIN, CLK_LOL_CFG_REF_PPM, CLK_LOL_CFG_LOL_PPM, CLK_RELOCK_LIMIT_US, CLK_PSTEP_CFG_SLEW_PPM, CLK_STAT_SLEWING, CLK_STAT_XTAL_OK, CLK_STAT_REF_OK, CLK_STAT_LOCK, CLK_STAT_STATE, CLK_BO_OFS, CLK_PSTEP_LEFT, CLK_OUT_CFG_EN, CLK_OUT_CFG_FMT, CLK_OUT_CFG_DRV, CLK_OUT_CFG_PROFILE, CLK_OUT_FREQ_FREQ, CLK_OUT_STAT_RELOCK_FAIL, CLK_OUT_STAT_GATED] ++
  [CLK_OUT_STAT_RAMPING, CLK_OUT_STAT_LOCK, CLK_OUT_STAT_RUNNING, CLK_OUT_FACT_F_ACT, CLK_PRF_SEG0_SLOPE, CLK_PRF_SEG0_DUR, CLK_PRF_SEG_SLOPE, CLK_PRF_SEG_DUR, CLK_IRQ_RAW_GUARD, CLK_IRQ_RAW_RELOCK_FAIL, CLK_IRQ_RAW_LOL, CLK_IRQ_RAW_PHASE_JUMP, CLK_IRQ_RAW_COAST, CLK_IRQ_RAW_LOCKED, CLK_COASTS, CLK_BUILD_OUTS, CLK_LOL_EVENTS, CLK_GUARD_GATED, CLK_RELOCK_FAILS, CLK_PHASE_EXC]

/-! The TBS page (R483). -/
def TBS_BASIC_TIME_PPS_FALL : Fld := ⟨.tbs, 0x40, 0, 1, 1, 1, .rw, 0, .any⟩
def TBS_BASIC_TIME_PPS_EN : Fld := ⟨.tbs, 0x40, 0, 1, 0, 0, .rw, 0, .any⟩
def TBS_PPS_CFG_EN : Fld := ⟨.tbs, 0x100, 0, 1, 31, 31, .rw, 0, .any⟩
def TBS_PPS_CFG_EDGE : Fld := ⟨.tbs, 0x100, 0, 1, 30, 30, .rw, 0, .any⟩
def TBS_PPS_CFG_OFS : Fld := ⟨.tbs, 0x100, 0, 1, 15, 0, .rw, 0, .any⟩
def TBS_SERVO_CFG_SLEW_MAX : Fld := ⟨.tbs, 0x104, 0, 1, 31, 24, .rw, 0x64, .rng 1 200⟩
def TBS_SERVO_CFG_STEP_THR : Fld := ⟨.tbs, 0x104, 0, 1, 15, 0, .rw, 0x64, .rng 1 65535⟩
def TBS_PPS_TOL_TICKS : Fld := ⟨.tbs, 0x108, 0, 1, 23, 0, .rw, 0x61A8, .any⟩
def TBS_TIME_CFG_STEP_AT_PPS : Fld := ⟨.tbs, 0x10C, 0, 1, 0, 0, .rw, 0x1, .any⟩
def TBS_TICK_LO : Fld := ⟨.tbs, 0x180, 0, 1, 31, 0, .ro, 0, .any⟩
def TBS_TICK_HI : Fld := ⟨.tbs, 0x184, 0, 1, 31, 0, .ro, 0, .any⟩
def TBS_TOD_NS_NS : Fld := ⟨.tbs, 0x188, 0, 1, 29, 0, .ro, 0, .any⟩
def TBS_TOD_SEC_LO : Fld := ⟨.tbs, 0x18C, 0, 1, 31, 0, .ro, 0, .any⟩
def TBS_TOD_SEC_HI_EPOCH : Fld := ⟨.tbs, 0x190, 0, 1, 31, 16, .ro, 0, .any⟩
def TBS_TOD_SEC_HI_SEC : Fld := ⟨.tbs, 0x190, 0, 1, 15, 0, .ro, 0, .any⟩
def TBS_STAT_STEP_PEND : Fld := ⟨.tbs, 0x194, 0, 1, 6, 6, .ro, 0, .any⟩
def TBS_STAT_TOD_SET : Fld := ⟨.tbs, 0x194, 0, 1, 5, 5, .ro, 0, .any⟩
def TBS_STAT_PPS_VALID : Fld := ⟨.tbs, 0x194, 0, 1, 4, 4, .ro, 0, .any⟩
def TBS_STAT_SERVO : Fld := ⟨.tbs, 0x194, 0, 1, 1, 0, .ro, 0, .any⟩
def TBS_PPS_ERR : Fld := ⟨.tbs, 0x198, 0, 1, 31, 0, .ro, 0, .any⟩
def TBS_RATE : Fld := ⟨.tbs, 0x19C, 0, 1, 31, 0, .ro, 0, .any⟩
def TBS_PPS_TICK_LO : Fld := ⟨.tbs, 0x1A0, 0, 1, 31, 0, .ro, 0, .any⟩
def TBS_PPS_TICK_HI : Fld := ⟨.tbs, 0x1A4, 0, 1, 31, 0, .ro, 0, .any⟩
def TBS_IRQ_RAW_PPS_LOST : Fld := ⟨.tbs, 0x10, 0, 1, 10, 10, .w1c, 0, .any⟩
def TBS_IRQ_RAW_PPS_FOUND : Fld := ⟨.tbs, 0x10, 0, 1, 9, 9, .w1c, 0, .any⟩
def TBS_IRQ_RAW_STEP : Fld := ⟨.tbs, 0x10, 0, 1, 8, 8, .w1c, 0, .any⟩
def TBS_STEPS : Fld := ⟨.tbs, 0xF00, 0, 1, 31, 0, .rc, 0, .any⟩
def TBS_PPS_EDGES : Fld := ⟨.tbs, 0xF04, 0, 1, 31, 0, .rc, 0, .any⟩
def TBS_PPS_REJECT : Fld := ⟨.tbs, 0xF08, 0, 1, 31, 0, .rc, 0, .any⟩

def tbsFields : List Fld :=
  [TBS_BASIC_TIME_PPS_FALL, TBS_BASIC_TIME_PPS_EN, TBS_PPS_CFG_EN, TBS_PPS_CFG_EDGE, TBS_PPS_CFG_OFS, TBS_SERVO_CFG_SLEW_MAX, TBS_SERVO_CFG_STEP_THR, TBS_PPS_TOL_TICKS, TBS_TIME_CFG_STEP_AT_PPS, TBS_TICK_LO, TBS_TICK_HI, TBS_TOD_NS_NS, TBS_TOD_SEC_LO, TBS_TOD_SEC_HI_EPOCH, TBS_TOD_SEC_HI_SEC, TBS_STAT_STEP_PEND, TBS_STAT_TOD_SET, TBS_STAT_PPS_VALID, TBS_STAT_SERVO, TBS_PPS_ERR, TBS_RATE, TBS_PPS_TICK_LO, TBS_PPS_TICK_HI, TBS_IRQ_RAW_PPS_LOST] ++
  [TBS_IRQ_RAW_PPS_FOUND, TBS_IRQ_RAW_STEP, TBS_STEPS, TBS_PPS_EDGES, TBS_PPS_REJECT]

/-! The PWR page (R507). -/
def PWR_BASIC_PWR_GAIT : Fld := ⟨.pwr, 0x40, 0, 1, 1, 0, .rw, 0x2, .any⟩
def PWR_GOV_FIXED : Fld := ⟨.pwr, 0x100, 0, 1, 16, 16, .rw, 0, .any⟩
def PWR_GOV_MARGIN : Fld := ⟨.pwr, 0x100, 0, 1, 7, 0, .rw, 0x5, .rng 1 50⟩
def PWR_GOV_V_V_FIX : Fld := ⟨.pwr, 0x104, 0, 1, 31, 16, .rw, 0x2EE, .rng 600 850⟩
def PWR_GOV_V_V_MAX : Fld := ⟨.pwr, 0x104, 0, 1, 15, 0, .rw, 0x352, .rng 600 850⟩
def PWR_VCORE_STAT_V_CEIL : Fld := ⟨.pwr, 0x108, 0, 1, 31, 16, .ro, 0x352, .any⟩
def PWR_VCORE_STAT_V_SET : Fld := ⟨.pwr, 0x108, 0, 1, 15, 0, .ro, 0x2EE, .any⟩
def PWR_GAIT_ACTIVE : Fld := ⟨.pwr, 0x110, 0, 1, 17, 16, .ro, 0x2, .any⟩
def PWR_GAIT_WARN_GAIT : Fld := ⟨.pwr, 0x110, 0, 1, 9, 8, .rw, 0x1, .any⟩
def PWR_GAIT_SEL : Fld := ⟨.pwr, 0x110, 0, 1, 1, 0, .rw, 0x2, .any⟩
def PWR_P_EST : Fld := ⟨.pwr, 0x114, 0, 1, 31, 0, .ro, 0, .any⟩
def PWR_P_VCORE : Fld := ⟨.pwr, 0x118, 0, 1, 31, 0, .ro, 0, .any⟩
def PWR_R_GAIT_R : Fld := ⟨.pwr, 0x11C, 0, 1, 7, 0, .ro, 0, .any⟩
def PWR_PMB_CFG_ADDR : Fld := ⟨.pwr, 0x120, 0, 1, 22, 16, .rw, 0x40, .any⟩
def PWR_PMB_CFG_PEC : Fld := ⟨.pwr, 0x120, 0, 1, 8, 8, .rw, 0x1, .any⟩
def PWR_PMB_CFG_SPEED : Fld := ⟨.pwr, 0x120, 0, 1, 0, 0, .rw, 0x1, .any⟩
def PWR_PMB_STAT_STATUS : Fld := ⟨.pwr, 0x124, 0, 1, 31, 16, .ro, 0, .any⟩
def PWR_PMB_STAT_VOUT : Fld := ⟨.pwr, 0x124, 0, 1, 15, 8, .ro, 0, .any⟩
def PWR_PMB_STAT_ALERT : Fld := ⟨.pwr, 0x124, 0, 1, 1, 1, .ro, 0, .any⟩
def PWR_PMB_STAT_OK : Fld := ⟨.pwr, 0x124, 0, 1, 0, 0, .ro, 0, .any⟩
def PWR_SEQ_CFG_AUTO_RESTART : Fld := ⟨.pwr, 0x130, 0, 1, 24, 24, .rw, 0, .any⟩
def PWR_SEQ_CFG_TMO_MS : Fld := ⟨.pwr, 0x130, 0, 1, 23, 16, .rw, 0xA, .rng 1 255⟩
def PWR_SEQ_CFG_GAP_US : Fld := ⟨.pwr, 0x130, 0, 1, 15, 0, .rw, 0x64, .any⟩
def PWR_RAIL_STAT_LEVEL : Fld := ⟨.pwr, 0x134, 0, 1, 17, 16, .ro, 0x2, .any⟩
def PWR_RAIL_STAT_PG : Fld := ⟨.pwr, 0x134, 0, 1, 13, 8, .ro, 0x3F, .any⟩
def PWR_RAIL_STAT_EN : Fld := ⟨.pwr, 0x134, 0, 1, 5, 0, .ro, 0x3F, .any⟩
def PWR_FAULT_VALID : Fld := ⟨.pwr, 0x138, 0, 1, 31, 31, .w1c, 0, .any⟩
def PWR_FAULT_RAIL : Fld := ⟨.pwr, 0x138, 0, 1, 10, 8, .ro, 0, .any⟩
def PWR_FAULT_CAUSE : Fld := ⟨.pwr, 0x138, 0, 1, 3, 0, .ro, 0, .any⟩
def PWR_IRQ_RAW_PFAIL_SEEN : Fld := ⟨.pwr, 0x10, 0, 1, 12, 12, .w1c, 0, .any⟩
def PWR_IRQ_RAW_GAIT_LIMIT : Fld := ⟨.pwr, 0x10, 0, 1, 11, 11, .w1c, 0, .any⟩
def PWR_IRQ_RAW_PMB_ERR : Fld := ⟨.pwr, 0x10, 0, 1, 10, 10, .w1c, 0, .any⟩
def PWR_IRQ_RAW_VREG_ALERT : Fld := ⟨.pwr, 0x10, 0, 1, 9, 9, .w1c, 0, .any⟩
def PWR_IRQ_RAW_RAIL_FAULT : Fld := ⟨.pwr, 0x10, 0, 1, 8, 8, .w1c, 0, .any⟩
def PWR_PMB_ERR : Fld := ⟨.pwr, 0xF00, 0, 1, 31, 0, .rc, 0, .any⟩
def PWR_VOUT_WRITES : Fld := ⟨.pwr, 0xF04, 0, 1, 31, 0, .rc, 0, .any⟩
def PWR_RAIL_FAULTS : Fld := ⟨.pwr, 0xF08, 0, 1, 31, 0, .rc, 0, .any⟩

def pwrFields : List Fld :=
  [PWR_BASIC_PWR_GAIT, PWR_GOV_FIXED, PWR_GOV_MARGIN, PWR_GOV_V_V_FIX, PWR_GOV_V_V_MAX, PWR_VCORE_STAT_V_CEIL, PWR_VCORE_STAT_V_SET, PWR_GAIT_ACTIVE, PWR_GAIT_WARN_GAIT, PWR_GAIT_SEL, PWR_P_EST, PWR_P_VCORE, PWR_R_GAIT_R, PWR_PMB_CFG_ADDR, PWR_PMB_CFG_PEC, PWR_PMB_CFG_SPEED, PWR_PMB_STAT_STATUS, PWR_PMB_STAT_VOUT, PWR_PMB_STAT_ALERT, PWR_PMB_STAT_OK, PWR_SEQ_CFG_AUTO_RESTART, PWR_SEQ_CFG_TMO_MS, PWR_SEQ_CFG_GAP_US, PWR_RAIL_STAT_LEVEL] ++
  [PWR_RAIL_STAT_PG, PWR_RAIL_STAT_EN, PWR_FAULT_VALID, PWR_FAULT_RAIL, PWR_FAULT_CAUSE, PWR_IRQ_RAW_PFAIL_SEEN, PWR_IRQ_RAW_GAIT_LIMIT, PWR_IRQ_RAW_PMB_ERR, PWR_IRQ_RAW_VREG_ALERT, PWR_IRQ_RAW_RAIL_FAULT, PWR_PMB_ERR, PWR_VOUT_WRITES, PWR_RAIL_FAULTS]

/-! The THM page (R508). -/
def THM_THR_PIX_SHUT : Fld := ⟨.thm, 0x100, 0, 1, 31, 24, .rw, 0x62, .any⟩
def THM_THR_PIX_WARN : Fld := ⟨.thm, 0x100, 0, 1, 23, 16, .rw, 0x58, .any⟩
def THM_THR_PIX_SPAN : Fld := ⟨.thm, 0x100, 0, 1, 15, 8, .rw, 0xC, .any⟩
def THM_THR_PIX_START : Fld := ⟨.thm, 0x100, 0, 1, 7, 0, .rw, 0x4E, .any⟩
def THM_THR_LOG_SHUT : Fld := ⟨.thm, 0x104, 0, 1, 31, 24, .rw, 0x70, .any⟩
def THM_THR_LOG_WARN : Fld := ⟨.thm, 0x104, 0, 1, 23, 16, .rw, 0x68, .any⟩
def THM_THR_LOG_SPAN : Fld := ⟨.thm, 0x104, 0, 1, 15, 8, .rw, 0xA, .any⟩
def THM_THR_LOG_START : Fld := ⟨.thm, 0x104, 0, 1, 7, 0, .rw, 0x5F, .any⟩
def THM_THROTTLE_R_MAX : Fld := ⟨.thm, 0x108, 0, 1, 15, 8, .rw, 0xC0, .rng 0 224⟩
def THM_THROTTLE_R_SLEW : Fld := ⟨.thm, 0x108, 0, 1, 7, 0, .rw, 0xD, .rng 1 255⟩
def THM_DWELL_HYST : Fld := ⟨.thm, 0x10C, 0, 1, 15, 8, .rw, 0x3, .any⟩
def THM_DWELL_MS : Fld := ⟨.thm, 0x10C, 0, 1, 7, 0, .rw, 0x14, .any⟩
def THM_STAT_THROTTLING : Fld := ⟨.thm, 0x180, 0, 1, 4, 4, .ro, 0, .any⟩
def THM_STAT_LOG : Fld := ⟨.thm, 0x180, 0, 1, 3, 2, .ro, 0, .any⟩
def THM_STAT_PIX : Fld := ⟨.thm, 0x180, 0, 1, 1, 0, .ro, 0, .any⟩
def THM_GRP_TEMP_LOG : Fld := ⟨.thm, 0x184, 0, 1, 31, 16, .ro, 0, .any⟩
def THM_GRP_TEMP_PIX : Fld := ⟨.thm, 0x184, 0, 1, 15, 0, .ro, 0, .any⟩
def THM_R_ACT_R : Fld := ⟨.thm, 0x188, 0, 1, 23, 16, .ro, 0, .any⟩
def THM_R_ACT_R_LOG : Fld := ⟨.thm, 0x188, 0, 1, 15, 8, .ro, 0, .any⟩
def THM_R_ACT_R_PIX : Fld := ⟨.thm, 0x188, 0, 1, 7, 0, .ro, 0, .any⟩
def THM_ROW_EXT_E : Fld := ⟨.thm, 0x18C, 0, 1, 15, 0, .ro, 0, .any⟩
def THM_LATCH_TEMP : Fld := ⟨.thm, 0x190, 0, 1, 15, 8, .ro, 0, .any⟩
def THM_LATCH_RECORD_DONE : Fld := ⟨.thm, 0x190, 0, 1, 4, 4, .ro, 0, .any⟩
def THM_LATCH_CAUSE : Fld := ⟨.thm, 0x190, 0, 1, 3, 0, .ro, 0, .any⟩
def THM_SENS_ODD : Fld := ⟨.thm, 0x200, 4, 16, 31, 16, .ro, 0, .any⟩
def THM_SENS_EVEN : Fld := ⟨.thm, 0x200, 4, 16, 15, 0, .ro, 0, .any⟩
def THM_IRQ_RAW_SHUT_INFERRED : Fld := ⟨.thm, 0x10, 0, 1, 11, 11, .w1c, 0, .any⟩
def THM_IRQ_RAW_THROTTLE : Fld := ⟨.thm, 0x10, 0, 1, 10, 10, .w1c, 0, .any⟩
def THM_IRQ_RAW_WARN_LOG : Fld := ⟨.thm, 0x10, 0, 1, 9, 9, .w1c, 0, .any⟩
def THM_IRQ_RAW_WARN_PIX : Fld := ⟨.thm, 0x10, 0, 1, 8, 8, .w1c, 0, .any⟩
def THM_THROTTLE_MS : Fld := ⟨.thm, 0xF00, 0, 1, 31, 0, .rc, 0, .any⟩
def THM_WARN_ENTRIES : Fld := ⟨.thm, 0xF04, 0, 1, 31, 0, .rc, 0, .any⟩
def THM_PEAK_LOG : Fld := ⟨.thm, 0xF08, 0, 1, 31, 16, .rc, 0, .any⟩
def THM_PEAK_PIX : Fld := ⟨.thm, 0xF08, 0, 1, 15, 0, .rc, 0, .any⟩

def thmFields : List Fld :=
  [THM_THR_PIX_SHUT, THM_THR_PIX_WARN, THM_THR_PIX_SPAN, THM_THR_PIX_START, THM_THR_LOG_SHUT, THM_THR_LOG_WARN, THM_THR_LOG_SPAN, THM_THR_LOG_START, THM_THROTTLE_R_MAX, THM_THROTTLE_R_SLEW, THM_DWELL_HYST, THM_DWELL_MS, THM_STAT_THROTTLING, THM_STAT_LOG, THM_STAT_PIX, THM_GRP_TEMP_LOG, THM_GRP_TEMP_PIX, THM_R_ACT_R, THM_R_ACT_R_LOG, THM_R_ACT_R_PIX, THM_ROW_EXT_E, THM_LATCH_TEMP, THM_LATCH_RECORD_DONE, THM_LATCH_CAUSE] ++
  [THM_SENS_ODD, THM_SENS_EVEN, THM_IRQ_RAW_SHUT_INFERRED, THM_IRQ_RAW_THROTTLE, THM_IRQ_RAW_WARN_LOG, THM_IRQ_RAW_WARN_PIX, THM_THROTTLE_MS, THM_WARN_ENTRIES, THM_PEAK_LOG, THM_PEAK_PIX]

/-! The EVR page (R535). -/
def EVR_BASIC_EVR_MIN_SEV : Fld := ⟨.evr, 0x40, 0, 1, 2, 0, .rw, 0x1, .any⟩
def EVR_CFG_WINDOW_MS : Fld := ⟨.evr, 0x100, 0, 1, 31, 16, .rw, 0x64, .rng 1 10000⟩
def EVR_CFG_MIN_SEV : Fld := ⟨.evr, 0x100, 0, 1, 2, 0, .rw, 0x1, .rng 0 4⟩
def EVR_FRZ_CFG_MAX_S : Fld := ⟨.evr, 0x104, 0, 1, 15, 0, .rw, 0x258, .rng 1 65535⟩
def EVR_STAT_NONCE_VALID : Fld := ⟨.evr, 0x110, 0, 1, 1, 1, .ro, 0, .any⟩
def EVR_STAT_FROZEN : Fld := ⟨.evr, 0x110, 0, 1, 0, 0, .ro, 0, .any⟩
def EVR_BUF_STAT_PAGES : Fld := ⟨.evr, 0x114, 0, 1, 10, 0, .ro, 0, .any⟩
def EVR_LOG_STAT_FREE : Fld := ⟨.evr, 0x118, 0, 1, 16, 0, .ro, 0x10000, .any⟩
def EVR_NEXT_SEQ_LO : Fld := ⟨.evr, 0x120, 0, 1, 31, 0, .ro, 0, .any⟩
def EVR_NEXT_SEQ_HI : Fld := ⟨.evr, 0x124, 0, 1, 31, 0, .ro, 0, .any⟩
def EVR_OLDEST_SEQ_LO : Fld := ⟨.evr, 0x128, 0, 1, 31, 0, .ro, 0, .any⟩
def EVR_OLDEST_SEQ_HI : Fld := ⟨.evr, 0x12C, 0, 1, 31, 0, .ro, 0, .any⟩
def EVR_IRQ_RAW_FREEZE_EXP : Fld := ⟨.evr, 0x10, 0, 1, 12, 12, .w1c, 0, .any⟩
def EVR_IRQ_RAW_LOG_FULL : Fld := ⟨.evr, 0x10, 0, 1, 11, 11, .w1c, 0, .any⟩
def EVR_IRQ_RAW_RATE_DROP : Fld := ⟨.evr, 0x10, 0, 1, 10, 10, .w1c, 0, .any⟩
def EVR_IRQ_RAW_LOG_DROP : Fld := ⟨.evr, 0x10, 0, 1, 9, 9, .w1c, 0, .any⟩
def EVR_IRQ_RAW_CRIT_DROP : Fld := ⟨.evr, 0x10, 0, 1, 8, 8, .w1c, 0, .any⟩
def EVR_ACCEPTED : Fld := ⟨.evr, 0xF00, 0, 1, 31, 0, .rc, 0, .any⟩
def EVR_COALESCED : Fld := ⟨.evr, 0xF04, 0, 1, 31, 0, .rc, 0, .any⟩
def EVR_RATE_DROPPED : Fld := ⟨.evr, 0xF08, 0, 1, 31, 0, .rc, 0, .any⟩
def EVR_LOG_DROPPED : Fld := ⟨.evr, 0xF0C, 0, 1, 31, 0, .rc, 0, .any⟩
def EVR_OVERWRITTEN : Fld := ⟨.evr, 0xF10, 0, 1, 31, 0, .rc, 0, .any⟩
def EVR_FILTERED : Fld := ⟨.evr, 0xF14, 0, 1, 31, 0, .rc, 0, .any⟩

def evrFields : List Fld :=
  [EVR_BASIC_EVR_MIN_SEV, EVR_CFG_WINDOW_MS, EVR_CFG_MIN_SEV, EVR_FRZ_CFG_MAX_S, EVR_STAT_NONCE_VALID, EVR_STAT_FROZEN, EVR_BUF_STAT_PAGES, EVR_LOG_STAT_FREE, EVR_NEXT_SEQ_LO, EVR_NEXT_SEQ_HI, EVR_OLDEST_SEQ_LO, EVR_OLDEST_SEQ_HI, EVR_IRQ_RAW_FREEZE_EXP, EVR_IRQ_RAW_LOG_FULL, EVR_IRQ_RAW_RATE_DROP, EVR_IRQ_RAW_LOG_DROP, EVR_IRQ_RAW_CRIT_DROP, EVR_ACCEPTED, EVR_COALESCED, EVR_RATE_DROPPED, EVR_LOG_DROPPED, EVR_OVERWRITTEN, EVR_FILTERED]

/-! The NVM page (R536). -/
def NVM_FW_STAT_XFER : Fld := ⟨.nvm, 0x100, 0, 1, 5, 5, .ro, 0, .any⟩
def NVM_FW_STAT_CONF : Fld := ⟨.nvm, 0x100, 0, 1, 4, 4, .ro, 0, .any⟩
def NVM_FW_STAT_TRIAL : Fld := ⟨.nvm, 0x100, 0, 1, 3, 3, .ro, 0, .any⟩
def NVM_FW_STAT_BOOT : Fld := ⟨.nvm, 0x100, 0, 1, 2, 2, .ro, 0, .any⟩
def NVM_FW_STAT_B_VALID : Fld := ⟨.nvm, 0x100, 0, 1, 1, 1, .ro, 0, .any⟩
def NVM_FW_STAT_A_VALID : Fld := ⟨.nvm, 0x100, 0, 1, 0, 0, .ro, 0, .any⟩
def NVM_FW_VER_A : Fld := ⟨.nvm, 0x104, 0, 1, 31, 0, .ro, 0, .any⟩
def NVM_FW_VER_B : Fld := ⟨.nvm, 0x108, 0, 1, 31, 0, .ro, 0, .any⟩
def NVM_FW_SVN_B : Fld := ⟨.nvm, 0x10C, 0, 1, 31, 16, .ro, 0, .any⟩
def NVM_FW_SVN_A : Fld := ⟨.nvm, 0x10C, 0, 1, 15, 0, .ro, 0, .any⟩
def NVM_FW_CTRL_CONFIRM : Fld := ⟨.nvm, 0x110, 0, 1, 0, 0, .wo, 0, .any⟩
def NVM_PRESET_VALID : Fld := ⟨.nvm, 0x114, 0, 1, 31, 0, .ro, 0, .any⟩
def NVM_BAD_PAGES : Fld := ⟨.nvm, 0x118, 0, 1, 31, 0, .ro, 0, .any⟩
def NVM_IRQ_RAW_ROLLBACK : Fld := ⟨.nvm, 0x10, 0, 1, 10, 10, .w1c, 0, .any⟩
def NVM_IRQ_RAW_PROG_FAIL : Fld := ⟨.nvm, 0x10, 0, 1, 9, 9, .w1c, 0, .any⟩
def NVM_IRQ_RAW_TORN : Fld := ⟨.nvm, 0x10, 0, 1, 8, 8, .w1c, 0, .any⟩
def NVM_PAGE_PROG : Fld := ⟨.nvm, 0xF00, 0, 1, 31, 0, .rc, 0, .any⟩
def NVM_TORN_DISCARD : Fld := ⟨.nvm, 0xF04, 0, 1, 31, 0, .rc, 0, .any⟩

def nvmFields : List Fld :=
  [NVM_FW_STAT_XFER, NVM_FW_STAT_CONF, NVM_FW_STAT_TRIAL, NVM_FW_STAT_BOOT, NVM_FW_STAT_B_VALID, NVM_FW_STAT_A_VALID, NVM_FW_VER_A, NVM_FW_VER_B, NVM_FW_SVN_B, NVM_FW_SVN_A, NVM_FW_CTRL_CONFIRM, NVM_PRESET_VALID, NVM_BAD_PAGES, NVM_IRQ_RAW_ROLLBACK, NVM_IRQ_RAW_PROG_FAIL, NVM_IRQ_RAW_TORN, NVM_PAGE_PROG, NVM_TORN_DISCARD]

/-! The MBX page (R90). -/
def MBX_CMD_OPCODE : Fld := ⟨.mbx, 0x100, 0, 1, 31, 16, .rw, 0, .any⟩
def MBX_CMD_TAG : Fld := ⟨.mbx, 0x100, 0, 1, 15, 8, .rw, 0, .any⟩
def MBX_CMD_LEN_W : Fld := ⟨.mbx, 0x100, 0, 1, 6, 0, .rw, 0, .rng 0 64⟩
def MBX_GO : Fld := ⟨.mbx, 0x104, 0, 1, 0, 0, .wo, 0, .any⟩
def MBX_ACK : Fld := ⟨.mbx, 0x108, 0, 1, 0, 0, .wo, 0, .any⟩
def MBX_STAT_RESULT : Fld := ⟨.mbx, 0x10C, 0, 1, 15, 8, .ro, 0, .any⟩
def MBX_STAT_STATE : Fld := ⟨.mbx, 0x10C, 0, 1, 3, 0, .ro, 0, .any⟩
def MBX_RESP_LEN_W : Fld := ⟨.mbx, 0x110, 0, 1, 24, 16, .ro, 0, .any⟩
def MBX_RESP_TAG : Fld := ⟨.mbx, 0x110, 0, 1, 15, 8, .ro, 0, .any⟩
def MBX_RESP_OWNER : Fld := ⟨.mbx, 0x110, 0, 1, 1, 0, .ro, 0, .any⟩
def MBX_CMD_BUF : Fld := ⟨.mbx, 0x200, 4, 64, 31, 0, .rw, 0, .any⟩
def MBX_RESP_BUF : Fld := ⟨.mbx, 0x400, 4, 256, 31, 0, .ro, 0, .any⟩
def MBX_IRQ_RAW_MBX_ABORT : Fld := ⟨.mbx, 0x10, 0, 1, 9, 9, .w1c, 0, .any⟩
def MBX_IRQ_RAW_MBX_DONE : Fld := ⟨.mbx, 0x10, 0, 1, 8, 8, .w1c, 0, .any⟩

def mbxFields : List Fld :=
  [MBX_CMD_OPCODE, MBX_CMD_TAG, MBX_CMD_LEN_W, MBX_GO, MBX_ACK, MBX_STAT_RESULT, MBX_STAT_STATE, MBX_RESP_LEN_W, MBX_RESP_TAG, MBX_RESP_OWNER, MBX_CMD_BUF, MBX_RESP_BUF, MBX_IRQ_RAW_MBX_ABORT, MBX_IRQ_RAW_MBX_DONE]

/-! The SEC page (R537). -/
def SEC_KEY : Fld := ⟨.sec, 0x100, 4, 8, 31, 0, .wo, 0, .any⟩
def SEC_KEY_CTRL_PROG : Fld := ⟨.sec, 0x120, 0, 1, 0, 0, .wo, 0, .any⟩
def SEC_STAT_SVN_MIN : Fld := ⟨.sec, 0x124, 0, 1, 31, 16, .ro, 0, .any⟩
def SEC_STAT_BUSY : Fld := ⟨.sec, 0x124, 0, 1, 1, 1, .ro, 0, .any⟩
def SEC_STAT_PROVISIONED : Fld := ⟨.sec, 0x124, 0, 1, 0, 0, .ro, 0, .any⟩
def SEC_ROM_KEY_ID : Fld := ⟨.sec, 0x128, 0, 1, 31, 0, .ro, 0, .any⟩
def SEC_IRQ_RAW_KEY_DONE : Fld := ⟨.sec, 0x10, 0, 1, 8, 8, .w1c, 0, .any⟩
def SEC_CLEAR_DENIED : Fld := ⟨.sec, 0xF00, 0, 1, 31, 0, .rc, 0, .any⟩
def SEC_SIG_FAIL : Fld := ⟨.sec, 0xF04, 0, 1, 31, 0, .rc, 0, .any⟩

def secFields : List Fld :=
  [SEC_KEY, SEC_KEY_CTRL_PROG, SEC_STAT_SVN_MIN, SEC_STAT_BUSY, SEC_STAT_PROVISIONED, SEC_ROM_KEY_ID, SEC_IRQ_RAW_KEY_DONE, SEC_CLEAR_DENIED, SEC_SIG_FAIL]

/-! The ARY page (R122, R231). -/
def ARY_BASIC_ADC_BITS : Fld := ⟨.ary, 0x40, 0, 1, 0, 0, .rw, 0, .any⟩
def ARY_ADC_CFG_PEDESTAL : Fld := ⟨.ary, 0x100, 0, 1, 23, 16, .sh, 0x40, .any⟩
def ARY_ADC_CFG_COL_OFS_EN : Fld := ⟨.ary, 0x100, 0, 1, 8, 8, .sh, 0x1, .any⟩
def ARY_ADC_CFG_CDS_BYPASS : Fld := ⟨.ary, 0x100, 0, 1, 4, 4, .sh, 0, .any⟩
def ARY_ADC_CFG_MODE : Fld := ⟨.ary, 0x100, 0, 1, 0, 0, .sh, 0, .any⟩
def ARY_COL_OFS_CFG_K : Fld := ⟨.ary, 0x104, 0, 1, 2, 0, .sh, 0x3, .any⟩
def ARY_PUMP_STAT_TGL_OK : Fld := ⟨.ary, 0x110, 0, 1, 1, 1, .ro, 0, .any⟩
def ARY_PUMP_STAT_BOOST_OK : Fld := ⟨.ary, 0x110, 0, 1, 0, 0, .ro, 0, .any⟩
def ARY_DARK_STAT_BOT : Fld := ⟨.ary, 0x114, 0, 1, 12, 8, .ro, 0, .any⟩
def ARY_DARK_STAT_TOP : Fld := ⟨.ary, 0x114, 0, 1, 4, 0, .ro, 0, .any⟩
def ARY_OFS_SEL_ADC : Fld := ⟨.ary, 0x120, 0, 1, 14, 0, .rw, 0, .any⟩
def ARY_OFS_VAL_OFS : Fld := ⟨.ary, 0x124, 0, 1, 15, 0, .ro, 0, .any⟩
def ARY_IRQ_RAW_DARK_SHORT : Fld := ⟨.ary, 0x10, 0, 1, 11, 11, .w1c, 0, .any⟩
def ARY_IRQ_RAW_ROW_ADDR_ERR : Fld := ⟨.ary, 0x10, 0, 1, 10, 10, .w1c, 0, .any⟩
def ARY_IRQ_RAW_TX_OVERWRITE : Fld := ⟨.ary, 0x10, 0, 1, 9, 9, .w1c, 0, .any⟩
def ARY_IRQ_RAW_PUMP_FAULT : Fld := ⟨.ary, 0x10, 0, 1, 8, 8, .w1c, 0, .any⟩
def ARY_ROW_EARLY : Fld := ⟨.ary, 0xF00, 0, 1, 31, 0, .rc, 0, .any⟩
def ARY_ROW_ADDR_ERR : Fld := ⟨.ary, 0xF04, 0, 1, 31, 0, .rc, 0, .any⟩
def ARY_TX_OVERWRITE : Fld := ⟨.ary, 0xF08, 0, 1, 31, 0, .rc, 0, .any⟩
def ARY_PUMP_DROP : Fld := ⟨.ary, 0xF0C, 0, 1, 31, 0, .rc, 0, .any⟩
def ARY_PULSE_SHORT : Fld := ⟨.ary, 0xF10, 0, 1, 31, 0, .rc, 0, .any⟩
def ARY_BASIC_MODE_BURST : Fld := ⟨.ary, 0x60, 0, 1, 8, 8, .rw, 0, .any⟩
def ARY_BASIC_MODE_BIN : Fld := ⟨.ary, 0x60, 0, 1, 5, 4, .rw, 0, .codes 2⟩
def ARY_BASIC_MODE_MODE : Fld := ⟨.ary, 0x60, 0, 1, 2, 0, .rw, 0, .codes 3⟩
def ARY_BASIC_RATE_FPS_C : Fld := ⟨.ary, 0x64, 0, 1, 23, 0, .rw, 0, .any⟩
def ARY_SCHED_CFG_SCHED : Fld := ⟨.ary, 0x180, 0, 1, 1, 0, .sh, 0, .codes 2⟩
def ARY_FRAME_PERIOD : Fld := ⟨.ary, 0x184, 0, 1, 31, 0, .sh, 0, .any⟩
def ARY_PASS_CFG_ROWS : Fld := ⟨.ary, 0x188, 0, 1, 12, 0, .sh, 0x1018, .rng 1 4120⟩
def ARY_DEMAND_PX_ROW : Fld := ⟨.ary, 0x18C, 0, 1, 14, 0, .sh, 0x6000, .rng 1 24576⟩
def ARY_START_CFG_LINE : Fld := ⟨.ary, 0x190, 0, 1, 6, 4, .rw, 0, .any⟩
def ARY_START_CFG_SRC : Fld := ⟨.ary, 0x190, 0, 1, 1, 0, .rw, 0, .codes 2⟩
def ARY_START_SEC_LO : Fld := ⟨.ary, 0x194, 0, 1, 31, 0, .rw, 0, .any⟩
def ARY_START_SEC_HI : Fld := ⟨.ary, 0x198, 0, 1, 15, 0, .rw, 0, .any⟩
def ARY_START_NS : Fld := ⟨.ary, 0x19C, 0, 1, 29, 0, .rw, 0, .rng 0 999999999⟩
def ARY_RUN_CTRL_STOP : Fld := ⟨.ary, 0x1A0, 0, 1, 1, 1, .wo, 0, .any⟩
def ARY_RUN_CTRL_START : Fld := ⟨.ary, 0x1A0, 0, 1, 0, 0, .wo, 0, .any⟩
def ARY_RUN_STAT_STATE : Fld := ⟨.ary, 0x1A4, 0, 1, 2, 0, .ro, 0, .any⟩
def ARY_FRAME_SEQ_LO : Fld := ⟨.ary, 0x1A8, 0, 1, 31, 0, .ro, 0, .any⟩
def ARY_FRAME_SEQ_HI : Fld := ⟨.ary, 0x1AC, 0, 1, 31, 0, .ro, 0, .any⟩
def ARY_PERIOD_ACT : Fld := ⟨.ary, 0x1B0, 0, 1, 31, 0, .ro, 0, .any⟩
def ARY_BURST_CFG_FRAMES : Fld := ⟨.ary, 0x1C0, 0, 1, 31, 16, .sh, 0, .any⟩
def ARY_BURST_CFG_PIPE : Fld := ⟨.ary, 0x1C0, 0, 1, 2, 2, .sh, 0x1, .any⟩
def ARY_BURST_CFG_DEST : Fld := ⟨.ary, 0x1C0, 0, 1, 1, 1, .sh, 0, .any⟩
def ARY_BURST_CFG_EN : Fld := ⟨.ary, 0x1C0, 0, 1, 0, 0, .sh, 0, .any⟩
def ARY_BURST_CTRL_ABORT : Fld := ⟨.ary, 0x1C4, 0, 1, 1, 1, .wo, 0, .any⟩
def ARY_BURST_CTRL_ARM : Fld := ⟨.ary, 0x1C4, 0, 1, 0, 0, .wo, 0, .any⟩
def ARY_BURST_STAT_COUNT : Fld := ⟨.ary, 0x1C8, 0, 1, 31, 16, .ro, 0, .any⟩
def ARY_BURST_STAT_STATE : Fld := ⟨.ary, 0x1C8, 0, 1, 2, 0, .ro, 0, .any⟩
def ARY_IRQ_RAW_BURST_DONE : Fld := ⟨.ary, 0x10, 0, 1, 15, 15, .w1c, 0, .any⟩
def ARY_IRQ_RAW_DEMAND_OVER : Fld := ⟨.ary, 0x10, 0, 1, 14, 14, .w1c, 0, .any⟩
def ARY_IRQ_RAW_SLOT_SKIP : Fld := ⟨.ary, 0x10, 0, 1, 13, 13, .w1c, 0, .any⟩
def ARY_IRQ_RAW_STARTED : Fld := ⟨.ary, 0x10, 0, 1, 12, 12, .w1c, 0, .any⟩
def ARY_SLOT_SKIP : Fld := ⟨.ary, 0xF20, 0, 1, 31, 0, .rc, 0, .any⟩
def ARY_DEMAND_OVER : Fld := ⟨.ary, 0xF24, 0, 1, 31, 0, .rc, 0, .any⟩

def aryFields : List Fld :=
  [ARY_BASIC_ADC_BITS, ARY_ADC_CFG_PEDESTAL, ARY_ADC_CFG_COL_OFS_EN, ARY_ADC_CFG_CDS_BYPASS, ARY_ADC_CFG_MODE, ARY_COL_OFS_CFG_K, ARY_PUMP_STAT_TGL_OK, ARY_PUMP_STAT_BOOST_OK, ARY_DARK_STAT_BOT, ARY_DARK_STAT_TOP, ARY_OFS_SEL_ADC, ARY_OFS_VAL_OFS, ARY_IRQ_RAW_DARK_SHORT, ARY_IRQ_RAW_ROW_ADDR_ERR, ARY_IRQ_RAW_TX_OVERWRITE, ARY_IRQ_RAW_PUMP_FAULT, ARY_ROW_EARLY, ARY_ROW_ADDR_ERR, ARY_TX_OVERWRITE, ARY_PUMP_DROP, ARY_PULSE_SHORT, ARY_BASIC_MODE_BURST, ARY_BASIC_MODE_BIN, ARY_BASIC_MODE_MODE] ++
  [ARY_BASIC_RATE_FPS_C, ARY_SCHED_CFG_SCHED, ARY_FRAME_PERIOD, ARY_PASS_CFG_ROWS, ARY_DEMAND_PX_ROW, ARY_START_CFG_LINE, ARY_START_CFG_SRC, ARY_START_SEC_LO, ARY_START_SEC_HI, ARY_START_NS, ARY_RUN_CTRL_STOP, ARY_RUN_CTRL_START, ARY_RUN_STAT_STATE, ARY_FRAME_SEQ_LO, ARY_FRAME_SEQ_HI, ARY_PERIOD_ACT, ARY_BURST_CFG_FRAMES, ARY_BURST_CFG_PIPE, ARY_BURST_CFG_DEST, ARY_BURST_CFG_EN, ARY_BURST_CTRL_ABORT, ARY_BURST_CTRL_ARM, ARY_BURST_STAT_COUNT, ARY_BURST_STAT_STATE] ++
  [ARY_IRQ_RAW_BURST_DONE, ARY_IRQ_RAW_DEMAND_OVER, ARY_IRQ_RAW_SLOT_SKIP, ARY_IRQ_RAW_STARTED, ARY_SLOT_SKIP, ARY_DEMAND_OVER]

/-! The EXP page (R155). -/
def EXP_BASIC_AE_TARGET : Fld := ⟨.exp, 0x40, 0, 1, 15, 8, .rw, 0x2E, .any⟩
def EXP_BASIC_AE_MODE : Fld := ⟨.exp, 0x40, 0, 1, 1, 0, .rw, 0x1, .codes 2⟩
def EXP_BASIC_MANUAL_EXP_US : Fld := ⟨.exp, 0x44, 0, 1, 23, 0, .rw, 0xA, .any⟩
def EXP_BASIC_GAIN_HCG : Fld := ⟨.exp, 0x48, 0, 1, 8, 8, .rw, 0, .any⟩
def EXP_BASIC_GAIN_GAIN : Fld := ⟨.exp, 0x48, 0, 1, 3, 0, .rw, 0, .codes 12⟩
def EXP_BASIC_HDR_RATIO : Fld := ⟨.exp, 0x4C, 0, 1, 13, 8, .rw, 0x10, .any⟩
def EXP_BASIC_HDR_NSUB : Fld := ⟨.exp, 0x4C, 0, 1, 1, 0, .rw, 0, .any⟩
def EXP_EXP_CFG_NSUB : Fld := ⟨.exp, 0x100, 0, 1, 1, 0, .sh, 0, .any⟩
def EXP_SLOT : Fld := ⟨.exp, 0x110, 4, 4, 31, 0, .sh, 0xED882, .any⟩
def EXP_CTX_CTRL_COPY_BUSY : Fld := ⟨.exp, 0x120, 0, 1, 17, 17, .ro, 0, .any⟩
def EXP_CTX_CTRL_ACTIVE : Fld := ⟨.exp, 0x120, 0, 1, 16, 16, .ro, 0, .any⟩
def EXP_CTX_CTRL_COPY : Fld := ⟨.exp, 0x120, 0, 1, 8, 8, .wo, 0, .any⟩
def EXP_CTX_CTRL_BANK_SEL : Fld := ⟨.exp, 0x120, 0, 1, 0, 0, .sh, 0, .any⟩
def EXP_CTX_SEQ : Fld := ⟨.exp, 0x124, 0, 1, 31, 0, .ro, 0, .any⟩
def EXP_CTX_FAIL_CHECK : Fld := ⟨.exp, 0x128, 0, 1, 19, 16, .ro, 0, .any⟩
def EXP_CTX_FAIL_BANK : Fld := ⟨.exp, 0x128, 0, 1, 13, 13, .ro, 0, .any⟩
def EXP_CTX_FAIL_TILE : Fld := ⟨.exp, 0x128, 0, 1, 12, 0, .ro, 0, .any⟩
def EXP_AE_CFG_STEP_MAX : Fld := ⟨.exp, 0x140, 0, 1, 31, 24, .rw, 0x4, .rng 1 48⟩
def EXP_AE_CFG_ADJ_MAX : Fld := ⟨.exp, 0x140, 0, 1, 23, 16, .rw, 0x10, .rng 0 24⟩
def EXP_AE_CFG_PERIOD : Fld := ⟨.exp, 0x140, 0, 1, 15, 8, .rw, 0, .any⟩
def EXP_AE_DUR_MIN : Fld := ⟨.exp, 0x144, 0, 1, 31, 0, .rw, 0x12C, .rng 300 0xFFFFFFFF⟩
def EXP_AE_DUR_MAX : Fld := ⟨.exp, 0x148, 0, 1, 31, 0, .rw, 0, .any⟩
def EXP_AE_POLICY_GAIN_MAX : Fld := ⟨.exp, 0x14C, 0, 1, 11, 8, .rw, 0xC, .codes 12⟩
def EXP_AE_POLICY_ORDER : Fld := ⟨.exp, 0x14C, 0, 1, 1, 0, .rw, 0, .codes 2⟩
def EXP_AE_STAT_ITER : Fld := ⟨.exp, 0x160, 0, 1, 31, 16, .ro, 0, .any⟩
def EXP_AE_STAT_LAST_TAG : Fld := ⟨.exp, 0x160, 0, 1, 15, 8, .ro, 0, .any⟩
def EXP_AE_STAT_STALE : Fld := ⟨.exp, 0x160, 0, 1, 1, 1, .ro, 0, .any⟩
def EXP_AE_STAT_RUN : Fld := ⟨.exp, 0x160, 0, 1, 0, 0, .ro, 0, .any⟩
def EXP_IRQ_RAW_AE_STALE : Fld := ⟨.exp, 0x10, 0, 1, 10, 10, .w1c, 0, .any⟩
def EXP_IRQ_RAW_TX_HELD : Fld := ⟨.exp, 0x10, 0, 1, 9, 9, .w1c, 0, .any⟩
def EXP_IRQ_RAW_DUR_CLAMP : Fld := ⟨.exp, 0x10, 0, 1, 8, 8, .w1c, 0, .any⟩
def EXP_DUR_CLAMP : Fld := ⟨.exp, 0xF00, 0, 1, 31, 0, .rc, 0, .any⟩
def EXP_TX_HELD : Fld := ⟨.exp, 0xF04, 0, 1, 31, 0, .rc, 0, .any⟩
def EXP_AE_MISSED : Fld := ⟨.exp, 0xF08, 0, 1, 31, 0, .rc, 0, .any⟩

def expFields : List Fld :=
  [EXP_BASIC_AE_TARGET, EXP_BASIC_AE_MODE, EXP_BASIC_MANUAL_EXP_US, EXP_BASIC_GAIN_HCG, EXP_BASIC_GAIN_GAIN, EXP_BASIC_HDR_RATIO, EXP_BASIC_HDR_NSUB, EXP_EXP_CFG_NSUB, EXP_SLOT, EXP_CTX_CTRL_COPY_BUSY, EXP_CTX_CTRL_ACTIVE, EXP_CTX_CTRL_COPY, EXP_CTX_CTRL_BANK_SEL, EXP_CTX_SEQ, EXP_CTX_FAIL_CHECK, EXP_CTX_FAIL_BANK, EXP_CTX_FAIL_TILE, EXP_AE_CFG_STEP_MAX, EXP_AE_CFG_ADJ_MAX, EXP_AE_CFG_PERIOD, EXP_AE_DUR_MIN, EXP_AE_DUR_MAX, EXP_AE_POLICY_GAIN_MAX, EXP_AE_POLICY_ORDER] ++
  [EXP_AE_STAT_ITER, EXP_AE_STAT_LAST_TAG, EXP_AE_STAT_STALE, EXP_AE_STAT_RUN, EXP_IRQ_RAW_AE_STALE, EXP_IRQ_RAW_TX_HELD, EXP_IRQ_RAW_DUR_CLAMP, EXP_DUR_CLAMP, EXP_TX_HELD, EXP_AE_MISSED]

/-! The WIN page (R232). -/
def WIN_BASIC_WIN_APPLY : Fld := ⟨.win, 0x40, 0, 1, 0, 0, .rw, 0, .any⟩
def WIN_DESC0_EN : Fld := ⟨.win, 0x400, 8, 256, 31, 31, .sh, 0, .any⟩
def WIN_DESC0_GRP : Fld := ⟨.win, 0x400, 8, 256, 30, 28, .sh, 0, .any⟩
def WIN_DESC0_Y0 : Fld := ⟨.win, 0x400, 8, 256, 26, 14, .sh, 0, .any⟩
def WIN_DESC0_X0 : Fld := ⟨.win, 0x400, 8, 256, 13, 0, .sh, 0, .any⟩
def WIN_DESC1_H : Fld := ⟨.win, 0x404, 8, 256, 27, 14, .sh, 0, .any⟩
def WIN_DESC1_W : Fld := ⟨.win, 0x404, 8, 256, 13, 0, .sh, 0, .any⟩

def winFields : List Fld :=
  [WIN_BASIC_WIN_APPLY, WIN_DESC0_EN, WIN_DESC0_GRP, WIN_DESC0_Y0, WIN_DESC0_X0, WIN_DESC1_H, WIN_DESC1_W]

/-! The TRG page (R233). -/
def TRG_BASIC_TRIG_EN : Fld := ⟨.trg, 0x40, 0, 1, 8, 8, .rw, 0, .any⟩
def TRG_BASIC_TRIG_FALL : Fld := ⟨.trg, 0x40, 0, 1, 4, 4, .rw, 0, .any⟩
def TRG_BASIC_TRIG_PIN : Fld := ⟨.trg, 0x40, 0, 1, 3, 0, .rw, 0, .any⟩
def TRG_LINE_CFG_PE : Fld := ⟨.trg, 0x100, 4, 8, 18, 16, .sh, 0, .any⟩
def TRG_LINE_CFG_EDGE : Fld := ⟨.trg, 0x100, 4, 8, 13, 12, .sh, 0, .codes 2⟩
def TRG_LINE_CFG_PIN : Fld := ⟨.trg, 0x100, 4, 8, 11, 8, .sh, 0, .any⟩
def TRG_LINE_CFG_SRC : Fld := ⟨.trg, 0x100, 4, 8, 2, 0, .sh, 0, .codes 4⟩
def TRG_SW_TRIG_PULSE : Fld := ⟨.trg, 0x120, 0, 1, 7, 0, .wo, 0, .any⟩
def TRG_TRIG_WIN : Fld := ⟨.trg, 0x124, 0, 1, 31, 0, .sh, 0x1D58, .any⟩
def TRG_MODE_CFG_LINE : Fld := ⟨.trg, 0x128, 0, 1, 2, 0, .sh, 0, .any⟩
def TRG_STRIP_CFG_MAX_MS : Fld := ⟨.trg, 0x130, 0, 1, 31, 24, .sh, 0x64, .rng 1 255⟩
def TRG_STRIP_CFG_COUNT : Fld := ⟨.trg, 0x130, 0, 1, 15, 0, .sh, 0x1000, .rng 1 32767⟩
def TRG_STRIP_ROW_BOT : Fld := ⟨.trg, 0x134, 0, 1, 28, 16, .sh, 0x1016, .any⟩
def TRG_STRIP_ROW_TOP : Fld := ⟨.trg, 0x134, 0, 1, 12, 0, .sh, 0x1016, .any⟩
def TRG_STRIP_EN : Fld := ⟨.trg, 0x138, 4, 3, 31, 0, .sh, 0xFFFFFFFF, .any⟩
def TRG_TRIG_STAT_PEND : Fld := ⟨.trg, 0x150, 0, 1, 7, 0, .ro, 0, .any⟩
def TRG_IRQ_RAW_STRIP_SKIP : Fld := ⟨.trg, 0x10, 0, 1, 9, 9, .w1c, 0, .any⟩
def TRG_IRQ_RAW_TRIG_LOST : Fld := ⟨.trg, 0x10, 0, 1, 8, 8, .w1c, 0, .any⟩
def TRG_EDGES : Fld := ⟨.trg, 0xF00, 4, 8, 31, 0, .rc, 0, .any⟩
def TRG_TRIG_LOST : Fld := ⟨.trg, 0xF20, 0, 1, 31, 0, .rc, 0, .any⟩
def TRG_STRIP_SKIP : Fld := ⟨.trg, 0xF24, 0, 1, 31, 0, .rc, 0, .any⟩
def TRG_TRIG_FAST : Fld := ⟨.trg, 0xF28, 0, 1, 31, 0, .rc, 0, .any⟩

def trgFields : List Fld :=
  [TRG_BASIC_TRIG_EN, TRG_BASIC_TRIG_FALL, TRG_BASIC_TRIG_PIN, TRG_LINE_CFG_PE, TRG_LINE_CFG_EDGE, TRG_LINE_CFG_PIN, TRG_LINE_CFG_SRC, TRG_SW_TRIG_PULSE, TRG_TRIG_WIN, TRG_MODE_CFG_LINE, TRG_STRIP_CFG_MAX_MS, TRG_STRIP_CFG_COUNT, TRG_STRIP_ROW_BOT, TRG_STRIP_ROW_TOP, TRG_STRIP_EN, TRG_TRIG_STAT_PEND, TRG_IRQ_RAW_STRIP_SKIP, TRG_IRQ_RAW_TRIG_LOST, TRG_EDGES, TRG_TRIG_LOST, TRG_STRIP_SKIP, TRG_TRIG_FAST]

/-! The ENG page (R197). -/
def ENG_PROG_ENTRY : Fld := ⟨.eng, 0x100, 0, 1, 9, 0, .sh, 0, .any⟩
def ENG_WRAP_TOP : Fld := ⟨.eng, 0x104, 0, 1, 26, 16, .sh, 0, .any⟩
def ENG_WRAP_BOT : Fld := ⟨.eng, 0x104, 0, 1, 10, 0, .sh, 0, .any⟩
def ENG_CTRL_STEP : Fld := ⟨.eng, 0x108, 0, 1, 1, 1, .wo, 0, .any⟩
def ENG_CTRL_HALT : Fld := ⟨.eng, 0x108, 0, 1, 0, 0, .rw, 0, .any⟩
def ENG_STAT_PC : Fld := ⟨.eng, 0x10C, 0, 1, 25, 16, .ro, 0, .any⟩
def ENG_STAT_PEND_WRAP : Fld := ⟨.eng, 0x10C, 0, 1, 11, 11, .ro, 0, .any⟩
def ENG_STAT_CHAIN_DIRTY : Fld := ⟨.eng, 0x10C, 0, 1, 10, 10, .ro, 0, .any⟩
def ENG_STAT_DROP : Fld := ⟨.eng, 0x10C, 0, 1, 9, 9, .ro, 0, .any⟩
def ENG_STAT_STALE : Fld := ⟨.eng, 0x10C, 0, 1, 8, 8, .ro, 0, .any⟩
def ENG_STAT_Z : Fld := ⟨.eng, 0x10C, 0, 1, 7, 7, .ro, 0, .any⟩
def ENG_STAT_STATE : Fld := ⟨.eng, 0x10C, 0, 1, 3, 0, .ro, 0, .any⟩
def ENG_PC_SNAP_VALID : Fld := ⟨.eng, 0x110, 0, 1, 31, 31, .ro, 0, .any⟩
def ENG_PC_SNAP_PC : Fld := ⟨.eng, 0x110, 0, 1, 9, 0, .ro, 0, .any⟩
def ENG_SNAP_REQ_REQ : Fld := ⟨.eng, 0x114, 0, 1, 0, 0, .wo, 0, .any⟩
def ENG_DMA_CFG_COUNT : Fld := ⟨.eng, 0x120, 0, 1, 22, 16, .sh, 0x40, .rng 1 64⟩
def ENG_DMA_CFG_FIRST : Fld := ⟨.eng, 0x120, 0, 1, 13, 8, .sh, 0, .any⟩
def ENG_DMA_CFG_DIR : Fld := ⟨.eng, 0x120, 0, 1, 4, 4, .sh, 0, .any⟩
def ENG_DMA_CFG_THR : Fld := ⟨.eng, 0x120, 0, 1, 2, 0, .sh, 0x4, .any⟩
def ENG_FIFO_STAT_OUT_LVL : Fld := ⟨.eng, 0x124, 0, 1, 20, 16, .ro, 0, .any⟩
def ENG_FIFO_STAT_PAR_LVL : Fld := ⟨.eng, 0x124, 0, 1, 15, 12, .ro, 0, .any⟩
def ENG_FIFO_STAT_CTX_LVL : Fld := ⟨.eng, 0x124, 0, 1, 11, 8, .ro, 0, .any⟩
def ENG_FIFO_STAT_NEXT : Fld := ⟨.eng, 0x124, 0, 1, 5, 0, .ro, 0, .any⟩
def ENG_SYNC_CFG_TMO : Fld := ⟨.eng, 0x128, 0, 1, 31, 16, .sh, 0, .any⟩
def ENG_SYNC_CFG_GRP : Fld := ⟨.eng, 0x128, 0, 1, 3, 0, .sh, 0, .any⟩
def ENG_TRIG_CFG_LINE : Fld := ⟨.eng, 0x12C, 0, 1, 2, 0, .sh, 0, .any⟩
def ENG_U : Fld := ⟨.eng, 0x130, 4, 4, 31, 0, .sh, 0, .any⟩
def ENG_READ_MASK_LO : Fld := ⟨.eng, 0x140, 0, 1, 31, 0, .sh, 0xFFFFFFFF, .any⟩
def ENG_READ_MASK_HI : Fld := ⟨.eng, 0x144, 0, 1, 31, 0, .sh, 0xFFFFFFFF, .any⟩
def ENG_PARAM : Fld := ⟨.eng, 0x150, 0, 1, 31, 0, .wo, 0, .any⟩
def ENG_OUT : Fld := ⟨.eng, 0x154, 0, 1, 31, 0, .rc, 0, .any⟩
def ENG_REG_X : Fld := ⟨.eng, 0x160, 0, 1, 31, 0, .ro, 0, .any⟩
def ENG_REG_Y : Fld := ⟨.eng, 0x164, 0, 1, 31, 0, .ro, 0, .any⟩
def ENG_REG_W : Fld := ⟨.eng, 0x168, 0, 1, 31, 0, .ro, 0, .any⟩
def ENG_REG_ROW_RT : Fld := ⟨.eng, 0x16C, 0, 1, 28, 16, .ro, 0, .any⟩
def ENG_REG_ROW_RB : Fld := ⟨.eng, 0x16C, 0, 1, 12, 0, .ro, 0, .any⟩
def ENG_REG_TP_T : Fld := ⟨.eng, 0x170, 0, 1, 13, 8, .ro, 0, .any⟩
def ENG_REG_TP_P : Fld := ⟨.eng, 0x170, 0, 1, 7, 6, .ro, 0, .any⟩
def ENG_REG_TP_TAG : Fld := ⟨.eng, 0x170, 0, 1, 5, 0, .ro, 0, .any⟩
def ENG_IRQ_RAW_CHAIN_ERR : Fld := ⟨.eng, 0x10, 0, 1, 20, 20, .w1c, 0, .any⟩
def ENG_IRQ_RAW_PARAM_OVF : Fld := ⟨.eng, 0x10, 0, 1, 19, 19, .w1c, 0, .any⟩
def ENG_IRQ_RAW_START_MISS : Fld := ⟨.eng, 0x10, 0, 1, 18, 18, .w1c, 0, .any⟩
def ENG_IRQ_RAW_SYNC_TMO : Fld := ⟨.eng, 0x10, 0, 1, 17, 17, .w1c, 0, .any⟩
def ENG_IRQ_RAW_ROW_LOST : Fld := ⟨.eng, 0x10, 0, 1, 16, 16, .w1c, 0, .any⟩
def ENG_IRQ_RAW_SHUT_REJECT : Fld := ⟨.eng, 0x10, 0, 1, 15, 15, .w1c, 0, .any⟩
def ENG_IRQ_RAW_SHUT_LATE : Fld := ⟨.eng, 0x10, 0, 1, 14, 14, .w1c, 0, .any⟩
def ENG_IRQ_RAW_ILLEGAL : Fld := ⟨.eng, 0x10, 0, 1, 13, 13, .w1c, 0, .any⟩
def ENG_IRQ_RAW_STOPPED : Fld := ⟨.eng, 0x10, 0, 1, 12, 12, .w1c, 0, .any⟩
def ENG_IRQ_RAW_PROG : Fld := ⟨.eng, 0x10, 0, 1, 11, 8, .w1c, 0, .any⟩
def ENG_ROW_LOST : Fld := ⟨.eng, 0xF00, 0, 1, 31, 0, .rc, 0, .any⟩
def ENG_SHUT_LATE : Fld := ⟨.eng, 0xF04, 0, 1, 31, 0, .rc, 0, .any⟩
def ENG_SHUT_REJECT : Fld := ⟨.eng, 0xF08, 0, 1, 31, 0, .rc, 0, .any⟩
def ENG_START_MISS : Fld := ⟨.eng, 0xF0C, 0, 1, 31, 0, .rc, 0, .any⟩
def ENG_SYNC_TMO : Fld := ⟨.eng, 0xF10, 0, 1, 31, 0, .rc, 0, .any⟩
def ENG_CHAIN_FLUSH : Fld := ⟨.eng, 0xF14, 0, 1, 31, 0, .rc, 0, .any⟩
def ENG_CHAIN_ERR : Fld := ⟨.eng, 0xF18, 0, 1, 31, 0, .rc, 0, .any⟩
def ENG_PARAM_OVF : Fld := ⟨.eng, 0xF1C, 0, 1, 31, 0, .rc, 0, .any⟩
def ENG_PUSH_DROP : Fld := ⟨.eng, 0xF20, 0, 1, 31, 0, .rc, 0, .any⟩
def ENG_PULL_STALE : Fld := ⟨.eng, 0xF24, 0, 1, 31, 0, .rc, 0, .any⟩
def ENG_CTX_DISCARD : Fld := ⟨.eng, 0xF28, 0, 1, 31, 0, .rc, 0, .any⟩
def ENG_TRIG_MISS : Fld := ⟨.eng, 0xF2C, 0, 1, 31, 0, .rc, 0, .any⟩

def engFields : List Fld :=
  [ENG_PROG_ENTRY, ENG_WRAP_TOP, ENG_WRAP_BOT, ENG_CTRL_STEP, ENG_CTRL_HALT, ENG_STAT_PC, ENG_STAT_PEND_WRAP, ENG_STAT_CHAIN_DIRTY, ENG_STAT_DROP, ENG_STAT_STALE, ENG_STAT_Z, ENG_STAT_STATE, ENG_PC_SNAP_VALID, ENG_PC_SNAP_PC, ENG_SNAP_REQ_REQ, ENG_DMA_CFG_COUNT, ENG_DMA_CFG_FIRST, ENG_DMA_CFG_DIR, ENG_DMA_CFG_THR, ENG_FIFO_STAT_OUT_LVL, ENG_FIFO_STAT_PAR_LVL, ENG_FIFO_STAT_CTX_LVL, ENG_FIFO_STAT_NEXT, ENG_SYNC_CFG_TMO] ++
  [ENG_SYNC_CFG_GRP, ENG_TRIG_CFG_LINE, ENG_U, ENG_READ_MASK_LO, ENG_READ_MASK_HI, ENG_PARAM, ENG_OUT, ENG_REG_X, ENG_REG_Y, ENG_REG_W, ENG_REG_ROW_RT, ENG_REG_ROW_RB, ENG_REG_TP_T, ENG_REG_TP_P, ENG_REG_TP_TAG, ENG_IRQ_RAW_CHAIN_ERR, ENG_IRQ_RAW_PARAM_OVF, ENG_IRQ_RAW_START_MISS, ENG_IRQ_RAW_SYNC_TMO, ENG_IRQ_RAW_ROW_LOST, ENG_IRQ_RAW_SHUT_REJECT, ENG_IRQ_RAW_SHUT_LATE, ENG_IRQ_RAW_ILLEGAL, ENG_IRQ_RAW_STOPPED] ++
  [ENG_IRQ_RAW_PROG, ENG_ROW_LOST, ENG_SHUT_LATE, ENG_SHUT_REJECT, ENG_START_MISS, ENG_SYNC_TMO, ENG_CHAIN_FLUSH, ENG_CHAIN_ERR, ENG_PARAM_OVF, ENG_PUSH_DROP, ENG_PULL_STALE, ENG_CTX_DISCARD, ENG_TRIG_MISS]

/-! The PE page (R255). -/
def PE_BASIC_FN_PARAM : Fld := ⟨.pe, 0x40, 0, 1, 31, 16, .lk, 0, .any⟩
def PE_BASIC_FN_PIN_B : Fld := ⟨.pe, 0x40, 0, 1, 15, 12, .lk, 0, .any⟩
def PE_BASIC_FN_PIN_A : Fld := ⟨.pe, 0x40, 0, 1, 11, 8, .lk, 0, .any⟩
def PE_BASIC_FN_FN : Fld := ⟨.pe, 0x40, 0, 1, 2, 0, .lk, 0, .codes 3⟩
def PE_PROG_ENTRY : Fld := ⟨.pe, 0x100, 0, 1, 4, 0, .lk, 0, .any⟩
def PE_CFG_START_AT : Fld := ⟨.pe, 0x104, 0, 1, 0, 0, .lk, 0, .any⟩
def PE_STAT_STOP_CAUSE : Fld := ⟨.pe, 0x108, 0, 1, 26, 24, .ro, 0, .any⟩
def PE_STAT_STALE : Fld := ⟨.pe, 0x108, 0, 1, 19, 19, .ro, 0, .any⟩
def PE_STAT_DROP : Fld := ⟨.pe, 0x108, 0, 1, 18, 18, .ro, 0, .any⟩
def PE_STAT_N : Fld := ⟨.pe, 0x108, 0, 1, 17, 17, .ro, 0, .any⟩
def PE_STAT_Z : Fld := ⟨.pe, 0x108, 0, 1, 16, 16, .ro, 0, .any⟩
def PE_STAT_PC : Fld := ⟨.pe, 0x108, 0, 1, 12, 8, .ro, 0, .any⟩
def PE_STAT_FW_OWN : Fld := ⟨.pe, 0x108, 0, 1, 3, 3, .ro, 0, .any⟩
def PE_STAT_STATE : Fld := ⟨.pe, 0x108, 0, 1, 2, 0, .ro, 0, .any⟩
def PE_IN_CFG_FILT : Fld := ⟨.pe, 0x10C, 0, 1, 23, 16, .lk, 0, .any⟩
def PE_IN_CFG_JPIN : Fld := ⟨.pe, 0x10C, 0, 1, 11, 8, .lk, 0, .any⟩
def PE_IN_CFG_QB : Fld := ⟨.pe, 0x10C, 0, 1, 7, 4, .lk, 0x1, .any⟩
def PE_IN_CFG_QA : Fld := ⟨.pe, 0x10C, 0, 1, 3, 0, .lk, 0, .any⟩
def PE_OUT_CFG_DRV : Fld := ⟨.pe, 0x110, 0, 1, 25, 24, .lk, 0x1, .codes 2⟩
def PE_OUT_CFG_SAFE : Fld := ⟨.pe, 0x110, 0, 1, 23, 20, .lk, 0, .any⟩
def PE_OUT_CFG_OEN : Fld := ⟨.pe, 0x110, 0, 1, 19, 16, .lk, 0, .any⟩
def PE_OUT_CFG_PINS : Fld := ⟨.pe, 0x110, 0, 1, 15, 0, .lk, 0, .any⟩
def PE_OUT_GUARD_MASK : Fld := ⟨.pe, 0x114, 0, 1, 19, 16, .lk, 0, .any⟩
def PE_OUT_GUARD_MAX_ON : Fld := ⟨.pe, 0x114, 0, 1, 15, 0, .lk, 0, .any⟩
def PE_K : Fld := ⟨.pe, 0x120, 4, 8, 31, 0, .sh, 0, .any⟩
def PE_PARAM : Fld := ⟨.pe, 0x140, 0, 1, 31, 0, .wo, 0, .any⟩
def PE_OUT : Fld := ⟨.pe, 0x144, 0, 1, 31, 0, .rc, 0, .any⟩
def PE_FIFO_STAT_OUT_LVL : Fld := ⟨.pe, 0x148, 0, 1, 11, 8, .ro, 0, .any⟩
def PE_FIFO_STAT_PAR_LVL : Fld := ⟨.pe, 0x148, 0, 1, 3, 0, .ro, 0, .any⟩
def PE_CTRL_FLUSH : Fld := ⟨.pe, 0x14C, 0, 1, 0, 0, .wo, 0, .any⟩
def PE_DMA_CFG_EN : Fld := ⟨.pe, 0x150, 0, 1, 31, 31, .lk, 0, .any⟩
def PE_DMA_CFG_BATCH : Fld := ⟨.pe, 0x150, 0, 1, 22, 16, .lk, 0x8, .rng 1 8⟩
def PE_DMA_CFG_QID : Fld := ⟨.pe, 0x150, 0, 1, 12, 0, .lk, 0, .any⟩
def PE_DMA_TMO_TMO : Fld := ⟨.pe, 0x154, 0, 1, 15, 0, .lk, 0x3E8, .any⟩
def PE_REG_A : Fld := ⟨.pe, 0x160, 0, 1, 31, 0, .ro, 0, .any⟩
def PE_REG_B : Fld := ⟨.pe, 0x164, 0, 1, 31, 0, .ro, 0, .any⟩
def PE_REG_C : Fld := ⟨.pe, 0x168, 0, 1, 31, 0, .ro, 0, .any⟩
def PE_REG_D : Fld := ⟨.pe, 0x16C, 0, 1, 31, 0, .ro, 0, .any⟩
def PE_IMEM_WORD : Fld := ⟨.pe, 0x200, 4, 32, 15, 0, .lk, 0, .any⟩
def PE_IRQ_RAW_QDEC_ERR : Fld := ⟨.pe, 0x10, 0, 1, 15, 15, .w1c, 0, .any⟩
def PE_IRQ_RAW_PARAM_OVF : Fld := ⟨.pe, 0x10, 0, 1, 14, 14, .w1c, 0, .any⟩
def PE_IRQ_RAW_GUARD : Fld := ⟨.pe, 0x10, 0, 1, 13, 13, .w1c, 0, .any⟩
def PE_IRQ_RAW_PIN_CONFLICT : Fld := ⟨.pe, 0x10, 0, 1, 12, 12, .w1c, 0, .any⟩
def PE_IRQ_RAW_ILLEGAL : Fld := ⟨.pe, 0x10, 0, 1, 11, 11, .w1c, 0, .any⟩
def PE_IRQ_RAW_STOPPED : Fld := ⟨.pe, 0x10, 0, 1, 10, 10, .w1c, 0, .any⟩
def PE_IRQ_RAW_PROG : Fld := ⟨.pe, 0x10, 0, 1, 9, 8, .w1c, 0, .any⟩
def PE_QDEC_ERR : Fld := ⟨.pe, 0xF00, 0, 1, 31, 0, .rc, 0, .any⟩
def PE_GUARD_TRIP : Fld := ⟨.pe, 0xF04, 0, 1, 31, 0, .rc, 0, .any⟩
def PE_PARAM_OVF : Fld := ⟨.pe, 0xF08, 0, 1, 31, 0, .rc, 0, .any⟩
def PE_PUSH_DROP : Fld := ⟨.pe, 0xF0C, 0, 1, 31, 0, .rc, 0, .any⟩
def PE_PULL_STALE : Fld := ⟨.pe, 0xF10, 0, 1, 31, 0, .rc, 0, .any⟩
def PE_EVT_MISS : Fld := ⟨.pe, 0xF14, 0, 1, 31, 0, .rc, 0, .any⟩
def PE_TRIG_OUT : Fld := ⟨.pe, 0xF18, 0, 1, 31, 0, .rc, 0, .any⟩

def peFields : List Fld :=
  [PE_BASIC_FN_PARAM, PE_BASIC_FN_PIN_B, PE_BASIC_FN_PIN_A, PE_BASIC_FN_FN, PE_PROG_ENTRY, PE_CFG_START_AT, PE_STAT_STOP_CAUSE, PE_STAT_STALE, PE_STAT_DROP, PE_STAT_N, PE_STAT_Z, PE_STAT_PC, PE_STAT_FW_OWN, PE_STAT_STATE, PE_IN_CFG_FILT, PE_IN_CFG_JPIN, PE_IN_CFG_QB, PE_IN_CFG_QA, PE_OUT_CFG_DRV, PE_OUT_CFG_SAFE, PE_OUT_CFG_OEN, PE_OUT_CFG_PINS, PE_OUT_GUARD_MASK, PE_OUT_GUARD_MAX_ON] ++
  [PE_K, PE_PARAM, PE_OUT, PE_FIFO_STAT_OUT_LVL, PE_FIFO_STAT_PAR_LVL, PE_CTRL_FLUSH, PE_DMA_CFG_EN, PE_DMA_CFG_BATCH, PE_DMA_CFG_QID, PE_DMA_TMO_TMO, PE_REG_A, PE_REG_B, PE_REG_C, PE_REG_D, PE_IMEM_WORD, PE_IRQ_RAW_QDEC_ERR, PE_IRQ_RAW_PARAM_OVF, PE_IRQ_RAW_GUARD, PE_IRQ_RAW_PIN_CONFLICT, PE_IRQ_RAW_ILLEGAL, PE_IRQ_RAW_STOPPED, PE_IRQ_RAW_PROG, PE_QDEC_ERR, PE_GUARD_TRIP] ++
  [PE_PARAM_OVF, PE_PUSH_DROP, PE_PULL_STALE, PE_EVT_MISS, PE_TRIG_OUT]

/-! The ING page (R282). -/
def ING_AGE_LIMIT_US : Fld := ⟨.ing, 0x100, 0, 1, 15, 0, .sh, 0x7D0, .rng 100 65535⟩
def ING_SAT_CAP_MPXS : Fld := ⟨.ing, 0x104, 0, 1, 15, 0, .sh, 0, .any⟩
def ING_QUANTUM_PX : Fld := ⟨.ing, 0x108, 0, 1, 11, 0, .sh, 0x100, .rng 256 4095⟩
def ING_SAT_GRANT : Fld := ⟨.ing, 0x110, 0, 1, 31, 0, .ro, 0, .any⟩
def ING_SAT_DECL : Fld := ⟨.ing, 0x114, 0, 1, 31, 0, .ro, 0, .any⟩
def ING_IRQ_RAW_URGENT : Fld := ⟨.ing, 0x10, 0, 1, 9, 9, .w1c, 0, .any⟩
def ING_IRQ_RAW_SAT_LIMITED : Fld := ⟨.ing, 0x10, 0, 1, 8, 8, .w1c, 0, .any⟩
def ING_CAP_MPXS : Fld := ⟨.ing, 0xF00, 0, 1, 31, 0, .ro, 0, .any⟩
def ING_LOAD_MPXS : Fld := ⟨.ing, 0xF04, 0, 1, 31, 0, .ro, 0, .any⟩
def ING_URGENT_PROMOTIONS : Fld := ⟨.ing, 0xF08, 0, 1, 31, 0, .rc, 0, .any⟩
def ING_SAT_HELD_US : Fld := ⟨.ing, 0xF0C, 0, 1, 31, 0, .rc, 0, .any⟩
def ING_SKID_PEAK : Fld := ⟨.ing, 0xF10, 0, 1, 4, 0, .rc, 0, .any⟩

def ingFields : List Fld :=
  [ING_AGE_LIMIT_US, ING_SAT_CAP_MPXS, ING_QUANTUM_PX, ING_SAT_GRANT, ING_SAT_DECL, ING_IRQ_RAW_URGENT, ING_IRQ_RAW_SAT_LIMITED, ING_CAP_MPXS, ING_LOAD_MPXS, ING_URGENT_PROMOTIONS, ING_SAT_HELD_US, ING_SKID_PEAK]

/-! The NRD page (R312). -/
def NRD_BASIC_NR_LEVEL : Fld := ⟨.nrd, 0x40, 0, 1, 1, 0, .rw, 0x2, .any⟩
def NRD_SPAT_THR : Fld := ⟨.nrd, 0x100, 0, 1, 15, 8, .sh, 0x40, .any⟩
def NRD_SPAT_STR : Fld := ⟨.nrd, 0x100, 0, 1, 4, 0, .sh, 0xA, .rng 0 16⟩
def NRD_TEMP_EN : Fld := ⟨.nrd, 0x104, 0, 1, 31, 31, .sh, 0x1, .any⟩
def NRD_TEMP_T_HI : Fld := ⟨.nrd, 0x104, 0, 1, 23, 16, .sh, 0x60, .any⟩
def NRD_TEMP_T_LO : Fld := ⟨.nrd, 0x104, 0, 1, 15, 8, .sh, 0x20, .any⟩
def NRD_TEMP_A_MIN : Fld := ⟨.nrd, 0x104, 0, 1, 7, 0, .sh, 0x40, .rng 8 255⟩
def NRD_TEMP_AGE_MAX_MS : Fld := ⟨.nrd, 0x108, 0, 1, 15, 0, .sh, 0x64, .any⟩
def NRD_IMP_ALARM : Fld := ⟨.nrd, 0x10C, 0, 1, 31, 16, .sh, 0x2710, .any⟩
def NRD_IMP_THR : Fld := ⟨.nrd, 0x10C, 0, 1, 7, 0, .sh, 0x30, .any⟩
def NRD_NOISE_LCG_RDV : Fld := ⟨.nrd, 0x110, 0, 1, 31, 16, .sh, 0x366, .any⟩
def NRD_NOISE_LCG_K : Fld := ⟨.nrd, 0x110, 0, 1, 15, 0, .sh, 0x625, .any⟩
def NRD_NOISE_HCG_RDV : Fld := ⟨.nrd, 0x114, 0, 1, 31, 16, .sh, 0x4A0, .any⟩
def NRD_NOISE_HCG_K : Fld := ⟨.nrd, 0x114, 0, 1, 15, 0, .sh, 0x1894, .any⟩
def NRD_SAT_CFG_LVL : Fld := ⟨.nrd, 0x118, 0, 1, 11, 0, .sh, 0xFC0, .any⟩
def NRD_SAT_NM_RDV : Fld := ⟨.nrd, 0x120, 4, 8, 31, 16, .sh, 0x366, .any⟩
def NRD_SAT_NM_K : Fld := ⟨.nrd, 0x120, 4, 8, 15, 0, .sh, 0x625, .any⟩
def NRD_TNR_STAT_CAUSE : Fld := ⟨.nrd, 0x180, 0, 1, 3, 0, .ro, 0, .any⟩
def NRD_IRQ_RAW_IMP_ALARM : Fld := ⟨.nrd, 0x10, 0, 1, 9, 9, .w1c, 0, .any⟩
def NRD_IRQ_RAW_TEMP_OFF : Fld := ⟨.nrd, 0x10, 0, 1, 8, 8, .w1c, 0, .any⟩
def NRD_CAP_MPXS : Fld := ⟨.nrd, 0xF00, 0, 1, 31, 0, .ro, 0, .any⟩
def NRD_LOAD_MPXS : Fld := ⟨.nrd, 0xF04, 0, 1, 31, 0, .ro, 0, .any⟩
def NRD_IMPULSES : Fld := ⟨.nrd, 0xF08, 0, 1, 31, 0, .rc, 0, .any⟩
def NRD_TNR_OFF_FRAMES : Fld := ⟨.nrd, 0xF0C, 0, 1, 31, 0, .rc, 0, .any⟩
def NRD_REF_INVALID_ROWS : Fld := ⟨.nrd, 0xF10, 0, 1, 31, 0, .rc, 0, .any⟩

def nrdFields : List Fld :=
  [NRD_BASIC_NR_LEVEL, NRD_SPAT_THR, NRD_SPAT_STR, NRD_TEMP_EN, NRD_TEMP_T_HI, NRD_TEMP_T_LO, NRD_TEMP_A_MIN, NRD_TEMP_AGE_MAX_MS, NRD_IMP_ALARM, NRD_IMP_THR, NRD_NOISE_LCG_RDV, NRD_NOISE_LCG_K, NRD_NOISE_HCG_RDV, NRD_NOISE_HCG_K, NRD_SAT_CFG_LVL, NRD_SAT_NM_RDV, NRD_SAT_NM_K, NRD_TNR_STAT_CAUSE, NRD_IRQ_RAW_IMP_ALARM, NRD_IRQ_RAW_TEMP_OFF, NRD_CAP_MPXS, NRD_LOAD_MPXS, NRD_IMPULSES, NRD_TNR_OFF_FRAMES] ++
  [NRD_REF_INVALID_ROWS]

/-! The PXC page (R314). -/
def PXC_BASIC_PXC_LSC : Fld := ⟨.pxc, 0x40, 0, 1, 2, 2, .rw, 0x1, .any⟩
def PXC_BASIC_PXC_BL : Fld := ⟨.pxc, 0x40, 0, 1, 1, 1, .rw, 0x1, .any⟩
def PXC_BASIC_PXC_DEF : Fld := ⟨.pxc, 0x40, 0, 1, 0, 0, .rw, 0x1, .any⟩
def PXC_DEF_CFG_COL_COUNT : Fld := ⟨.pxc, 0x100, 0, 1, 24, 16, .sh, 0, .rng 0 256⟩
def PXC_DEF_CFG_DYN_EN : Fld := ⟨.pxc, 0x100, 0, 1, 1, 1, .sh, 0x1, .any⟩
def PXC_DEF_CFG_MAP_EN : Fld := ⟨.pxc, 0x100, 0, 1, 0, 0, .sh, 0x1, .any⟩
def PXC_DEF_COUNT_COUNT : Fld := ⟨.pxc, 0x104, 0, 1, 16, 0, .sh, 0, .rng 0 65536⟩
def PXC_DEF_ADDR_ADDR : Fld := ⟨.pxc, 0x108, 0, 1, 16, 0, .rw, 0, .rng 0 66047⟩
def PXC_DEF_DATA : Fld := ⟨.pxc, 0x10C, 0, 1, 31, 0, .lk, 0, .any⟩
def PXC_BL_CFG_MAX : Fld := ⟨.pxc, 0x110, 0, 1, 31, 16, .sh, 0x100, .any⟩
def PXC_BL_CFG_K : Fld := ⟨.pxc, 0x110, 0, 1, 10, 8, .sh, 0x2, .any⟩
def PXC_BL_CFG_MODE : Fld := ⟨.pxc, 0x110, 0, 1, 1, 0, .sh, 0x2, .any⟩
def PXC_BL_FIXED_BL : Fld := ⟨.pxc, 0x114, 0, 1, 15, 0, .sh, 0x400, .any⟩
def PXC_OUT_CFG_CLAMP_NEG : Fld := ⟨.pxc, 0x118, 0, 1, 0, 0, .sh, 0, .any⟩
def PXC_LSC_CFG_ACTIVE : Fld := ⟨.pxc, 0x120, 0, 1, 16, 16, .ro, 0, .any⟩
def PXC_LSC_CFG_EN : Fld := ⟨.pxc, 0x120, 0, 1, 1, 1, .sh, 0x1, .any⟩
def PXC_LSC_CFG_BANK_SEL : Fld := ⟨.pxc, 0x120, 0, 1, 0, 0, .sh, 0, .any⟩
def PXC_LSC_ADDR_ADDR : Fld := ⟨.pxc, 0x124, 0, 1, 14, 0, .rw, 0, .rng 0 25219⟩
def PXC_LSC_DATA_GAIN : Fld := ⟨.pxc, 0x128, 0, 1, 15, 0, .rw, 0x2000, .any⟩
def PXC_BL_SEL_STRIPE : Fld := ⟨.pxc, 0x130, 0, 1, 14, 8, .rw, 0, .rng 0 95⟩
def PXC_BL_SEL_BANK : Fld := ⟨.pxc, 0x130, 0, 1, 7, 7, .rw, 0, .any⟩
def PXC_BL_SEL_PASS : Fld := ⟨.pxc, 0x130, 0, 1, 5, 4, .rw, 0, .any⟩
def PXC_BL_SEL_COLOUR : Fld := ⟨.pxc, 0x130, 0, 1, 1, 0, .rw, 0, .any⟩
def PXC_BL_VAL_VALID : Fld := ⟨.pxc, 0x134, 0, 1, 31, 31, .ro, 0, .any⟩
def PXC_BL_VAL_BL : Fld := ⟨.pxc, 0x134, 0, 1, 15, 0, .ro, 0, .any⟩
def PXC_IRQ_RAW_BL_RANGE : Fld := ⟨.pxc, 0x10, 0, 1, 9, 9, .w1c, 0, .any⟩
def PXC_IRQ_RAW_BL_PREV : Fld := ⟨.pxc, 0x10, 0, 1, 8, 8, .w1c, 0, .any⟩
def PXC_CAP_MPXS : Fld := ⟨.pxc, 0xF00, 0, 1, 31, 0, .ro, 0, .any⟩
def PXC_LOAD_MPXS : Fld := ⟨.pxc, 0xF04, 0, 1, 31, 0, .ro, 0, .any⟩
def PXC_SUBST_MAP : Fld := ⟨.pxc, 0xF08, 0, 1, 31, 0, .rc, 0, .any⟩
def PXC_SUBST_DYN : Fld := ⟨.pxc, 0xF0C, 0, 1, 31, 0, .rc, 0, .any⟩
def PXC_BL_PREV_FRAMES : Fld := ⟨.pxc, 0xF10, 0, 1, 31, 0, .rc, 0, .any⟩
def PXC_BL_RANGE : Fld := ⟨.pxc, 0xF14, 0, 1, 31, 0, .rc, 0, .any⟩

def pxcFields : List Fld :=
  [PXC_BASIC_PXC_LSC, PXC_BASIC_PXC_BL, PXC_BASIC_PXC_DEF, PXC_DEF_CFG_COL_COUNT, PXC_DEF_CFG_DYN_EN, PXC_DEF_CFG_MAP_EN, PXC_DEF_COUNT_COUNT, PXC_DEF_ADDR_ADDR, PXC_DEF_DATA, PXC_BL_CFG_MAX, PXC_BL_CFG_K, PXC_BL_CFG_MODE, PXC_BL_FIXED_BL, PXC_OUT_CFG_CLAMP_NEG, PXC_LSC_CFG_ACTIVE, PXC_LSC_CFG_EN, PXC_LSC_CFG_BANK_SEL, PXC_LSC_ADDR_ADDR, PXC_LSC_DATA_GAIN, PXC_BL_SEL_STRIPE, PXC_BL_SEL_BANK, PXC_BL_SEL_PASS, PXC_BL_SEL_COLOUR, PXC_BL_VAL_VALID] ++
  [PXC_BL_VAL_BL, PXC_IRQ_RAW_BL_RANGE, PXC_IRQ_RAW_BL_PREV, PXC_CAP_MPXS, PXC_LOAD_MPXS, PXC_SUBST_MAP, PXC_SUBST_DYN, PXC_BL_PREV_FRAMES, PXC_BL_RANGE]

/-! The HDR page (R328). -/
def HDR_BASIC_FUSE_SEPARATE : Fld := ⟨.hdr, 0x40, 0, 1, 1, 1, .rw, 0, .any⟩
def HDR_BASIC_FUSE_DEGHOST : Fld := ⟨.hdr, 0x40, 0, 1, 0, 0, .rw, 0x1, .any⟩
def HDR_CFG_REF_MODE : Fld := ⟨.hdr, 0x100, 0, 1, 4, 4, .sh, 0, .any⟩
def HDR_CFG_MODE : Fld := ⟨.hdr, 0x100, 0, 1, 0, 0, .sh, 0, .any⟩
def HDR_REF_H_LOG2H : Fld := ⟨.hdr, 0x104, 0, 1, 15, 0, .sh, 0xCDF, .any⟩
def HDR_KNEE_HI : Fld := ⟨.hdr, 0x108, 0, 1, 27, 16, .sh, 0xF00, .any⟩
def HDR_KNEE_LO : Fld := ⟨.hdr, 0x108, 0, 1, 11, 0, .sh, 0xC00, .any⟩
def HDR_MOT_EN : Fld := ⟨.hdr, 0x10C, 0, 1, 31, 31, .sh, 0x1, .any⟩
def HDR_MOT_THR : Fld := ⟨.hdr, 0x10C, 0, 1, 7, 0, .sh, 0x40, .any⟩
def HDR_OUT_CFG_FRAC : Fld := ⟨.hdr, 0x110, 0, 1, 18, 16, .sh, 0, .rng 0 4⟩
def HDR_OUT_CFG_OFS : Fld := ⟨.hdr, 0x110, 0, 1, 15, 0, .sh, 0x40, .any⟩
def HDR_BLEND_MAXCORR : Fld := ⟨.hdr, 0x114, 0, 1, 23, 16, .sh, 0x14, .any⟩
def HDR_BLEND_BAND : Fld := ⟨.hdr, 0x114, 0, 1, 8, 8, .sh, 0x1, .any⟩
def HDR_BLEND_W : Fld := ⟨.hdr, 0x114, 0, 1, 1, 0, .sh, 0x2, .any⟩
def HDR_REF_STAT_LOG2H : Fld := ⟨.hdr, 0x180, 0, 1, 15, 0, .ro, 0, .any⟩
def HDR_IRQ_RAW_BAND : Fld := ⟨.hdr, 0x10, 0, 1, 9, 9, .w1c, 0, .any⟩
def HDR_IRQ_RAW_SAT_OUT : Fld := ⟨.hdr, 0x10, 0, 1, 8, 8, .w1c, 0, .any⟩
def HDR_CAP_MPXS : Fld := ⟨.hdr, 0xF00, 0, 1, 31, 0, .ro, 0, .any⟩
def HDR_LOAD_MPXS : Fld := ⟨.hdr, 0xF04, 0, 1, 31, 0, .ro, 0, .any⟩
def HDR_MOTION_PX : Fld := ⟨.hdr, 0xF08, 0, 1, 31, 0, .rc, 0, .any⟩
def HDR_SAT_OUT : Fld := ⟨.hdr, 0xF0C, 0, 1, 31, 0, .rc, 0, .any⟩
def HDR_BORDER_SKIP : Fld := ⟨.hdr, 0xF10, 0, 1, 31, 0, .rc, 0, .any⟩
def HDR_BAND_PX : Fld := ⟨.hdr, 0xF14, 0, 1, 31, 0, .rc, 0, .any⟩

def hdrFields : List Fld :=
  [HDR_BASIC_FUSE_SEPARATE, HDR_BASIC_FUSE_DEGHOST, HDR_CFG_REF_MODE, HDR_CFG_MODE, HDR_REF_H_LOG2H, HDR_KNEE_HI, HDR_KNEE_LO, HDR_MOT_EN, HDR_MOT_THR, HDR_OUT_CFG_FRAC, HDR_OUT_CFG_OFS, HDR_BLEND_MAXCORR, HDR_BLEND_BAND, HDR_BLEND_W, HDR_REF_STAT_LOG2H, HDR_IRQ_RAW_BAND, HDR_IRQ_RAW_SAT_OUT, HDR_CAP_MPXS, HDR_LOAD_MPXS, HDR_MOTION_PX, HDR_SAT_OUT, HDR_BORDER_SKIP, HDR_BAND_PX]

/-! The GEO page (R338). -/
def GEO_BASIC_GEO_DEST : Fld := ⟨.geo, 0x40, 0, 1, 7, 4, .rw, 0x8, .any⟩
def GEO_BASIC_GEO_FLIP : Fld := ⟨.geo, 0x40, 0, 1, 1, 0, .rw, 0, .any⟩
def GEO_OD0_EN : Fld := ⟨.geo, 0x400, 32, 64, 31, 31, .sh, 0, .any⟩
def GEO_OD0_MEMBER : Fld := ⟨.geo, 0x400, 32, 64, 29, 24, .sh, 0, .rng 0 32⟩
def GEO_OD0_SRC : Fld := ⟨.geo, 0x400, 32, 64, 23, 22, .sh, 0x2, .codes 2⟩
def GEO_OD0_PASS : Fld := ⟨.geo, 0x400, 32, 64, 21, 20, .sh, 0, .any⟩
def GEO_OD0_WIN : Fld := ⟨.geo, 0x400, 32, 64, 7, 0, .sh, 0, .any⟩
def GEO_OD1_Y0 : Fld := ⟨.geo, 0x404, 32, 64, 26, 14, .sh, 0, .any⟩
def GEO_OD1_X0 : Fld := ⟨.geo, 0x404, 32, 64, 13, 0, .sh, 0, .any⟩
def GEO_OD2_H : Fld := ⟨.geo, 0x408, 32, 64, 27, 14, .sh, 0, .any⟩
def GEO_OD2_W : Fld := ⟨.geo, 0x408, 32, 64, 13, 0, .sh, 0, .any⟩
def GEO_OD3_SCALE_EN : Fld := ⟨.geo, 0x40C, 32, 64, 31, 31, .sh, 0, .any⟩
def GEO_OD3_DEST : Fld := ⟨.geo, 0x40C, 32, 64, 23, 20, .sh, 0, .any⟩
def GEO_OD3_BITS : Fld := ⟨.geo, 0x40C, 32, 64, 19, 16, .sh, 0x6, .codes 6⟩
def GEO_OD3_SHIFT : Fld := ⟨.geo, 0x40C, 32, 64, 15, 11, .sh, 0, .rng 0 16⟩
def GEO_OD3_FLIP : Fld := ⟨.geo, 0x40C, 32, 64, 9, 8, .sh, 0, .any⟩
def GEO_OD3_BIN_OP : Fld := ⟨.geo, 0x40C, 32, 64, 4, 4, .sh, 0, .any⟩
def GEO_OD3_BIN : Fld := ⟨.geo, 0x40C, 32, 64, 1, 0, .sh, 0, .codes 2⟩
def GEO_OD4_OUT_H : Fld := ⟨.geo, 0x410, 32, 64, 27, 14, .sh, 0, .any⟩
def GEO_OD4_OUT_W : Fld := ⟨.geo, 0x410, 32, 64, 13, 0, .sh, 0, .any⟩
def GEO_IRQ_RAW_UNREAD : Fld := ⟨.geo, 0x10, 0, 1, 8, 8, .w1c, 0, .any⟩
def GEO_CAP_MPXS : Fld := ⟨.geo, 0xF00, 0, 1, 31, 0, .ro, 0, .any⟩
def GEO_LOAD_MPXS : Fld := ⟨.geo, 0xF04, 0, 1, 31, 0, .ro, 0, .any⟩
def GEO_UNREAD_PX : Fld := ⟨.geo, 0xF08, 0, 1, 31, 0, .rc, 0, .any⟩

def geoFields : List Fld :=
  [GEO_BASIC_GEO_DEST, GEO_BASIC_GEO_FLIP, GEO_OD0_EN, GEO_OD0_MEMBER, GEO_OD0_SRC, GEO_OD0_PASS, GEO_OD0_WIN, GEO_OD1_Y0, GEO_OD1_X0, GEO_OD2_H, GEO_OD2_W, GEO_OD3_SCALE_EN, GEO_OD3_DEST, GEO_OD3_BITS, GEO_OD3_SHIFT, GEO_OD3_FLIP, GEO_OD3_BIN_OP, GEO_OD3_BIN, GEO_OD4_OUT_H, GEO_OD4_OUT_W, GEO_IRQ_RAW_UNREAD, GEO_CAP_MPXS, GEO_LOAD_MPXS, GEO_UNREAD_PX]

/-! The STA page (R350). -/
def STA_BASIC_STA_DELIVER : Fld := ⟨.sta, 0x40, 0, 1, 1, 0, .rw, 0, .any⟩
def STA_TILE_CFG_EN : Fld := ⟨.sta, 0x100, 0, 1, 31, 31, .sh, 0x1, .any⟩
def STA_TILE_CFG_HOST : Fld := ⟨.sta, 0x100, 0, 1, 30, 30, .sh, 0, .any⟩
def STA_TILE_CFG_PASSES : Fld := ⟨.sta, 0x100, 0, 1, 19, 16, .sh, 0x1, .any⟩
def STA_TILE_CFG_SHARP_SHIFT : Fld := ⟨.sta, 0x100, 0, 1, 12, 8, .sh, 0x8, .any⟩
def STA_TILE_CFG_CORE : Fld := ⟨.sta, 0x100, 0, 1, 7, 0, .sh, 0x8, .any⟩
def STA_QID_TILE_QID : Fld := ⟨.sta, 0x104, 0, 1, 12, 0, .sh, 0, .any⟩
def STA_QID_HIST_QID : Fld := ⟨.sta, 0x108, 0, 1, 12, 0, .sh, 0, .any⟩
def STA_HW0_EN : Fld := ⟨.sta, 0x200, 16, 16, 31, 31, .sh, 0, .any⟩
def STA_HW0_TAP : Fld := ⟨.sta, 0x200, 16, 16, 30, 30, .sh, 0, .any⟩
def STA_HW0_MEMBER : Fld := ⟨.sta, 0x200, 16, 16, 29, 24, .sh, 0, .rng 0 32⟩
def STA_HW0_SRC : Fld := ⟨.sta, 0x200, 16, 16, 23, 22, .sh, 0x2, .codes 2⟩
def STA_HW0_CHAN : Fld := ⟨.sta, 0x200, 16, 16, 21, 20, .sh, 0x1, .any⟩
def STA_HW0_SCALE : Fld := ⟨.sta, 0x200, 16, 16, 19, 19, .sh, 0x1, .any⟩
def STA_HW0_SHIFT : Fld := ⟨.sta, 0x200, 16, 16, 12, 8, .sh, 0x4, .rng 0 24⟩
def STA_HW0_WIN : Fld := ⟨.sta, 0x200, 16, 16, 7, 0, .sh, 0, .any⟩
def STA_HW1_Y0 : Fld := ⟨.sta, 0x204, 16, 16, 26, 14, .sh, 0, .any⟩
def STA_HW1_X0 : Fld := ⟨.sta, 0x204, 16, 16, 13, 0, .sh, 0, .any⟩
def STA_HW2_H : Fld := ⟨.sta, 0x208, 16, 16, 27, 14, .sh, 0, .any⟩
def STA_HW2_W : Fld := ⟨.sta, 0x208, 16, 16, 13, 0, .sh, 0, .any⟩
def STA_HW3_LMIN : Fld := ⟨.sta, 0x20C, 16, 16, 4, 0, .sh, 0, .rng 0 23⟩
def STA_FOCUS_CFG_FINE : Fld := ⟨.sta, 0x300, 0, 1, 31, 16, .rw, 0xA, .rng 1 65535⟩
def STA_FOCUS_CFG_COARSE : Fld := ⟨.sta, 0x300, 0, 1, 15, 0, .rw, 0x64, .rng 1 65535⟩
def STA_FOCUS_MIN : Fld := ⟨.sta, 0x304, 0, 1, 31, 0, .rw, 0, .any⟩
def STA_FOCUS_MAX : Fld := ⟨.sta, 0x308, 0, 1, 31, 0, .rw, 0x7D0, .any⟩
def STA_IRQ_RAW_REC_DROP : Fld := ⟨.sta, 0x10, 0, 1, 8, 8, .w1c, 0, .any⟩
def STA_CAP_MPXS : Fld := ⟨.sta, 0xF00, 0, 1, 31, 0, .ro, 0, .any⟩
def STA_LOAD_MPXS : Fld := ⟨.sta, 0xF04, 0, 1, 31, 0, .ro, 0, .any⟩
def STA_REC_DROP : Fld := ⟨.sta, 0xF08, 0, 1, 31, 0, .rc, 0, .any⟩

def staFields : List Fld :=
  [STA_BASIC_STA_DELIVER, STA_TILE_CFG_EN, STA_TILE_CFG_HOST, STA_TILE_CFG_PASSES, STA_TILE_CFG_SHARP_SHIFT, STA_TILE_CFG_CORE, STA_QID_TILE_QID, STA_QID_HIST_QID, STA_HW0_EN, STA_HW0_TAP, STA_HW0_MEMBER, STA_HW0_SRC, STA_HW0_CHAN, STA_HW0_SCALE, STA_HW0_SHIFT, STA_HW0_WIN, STA_HW1_Y0, STA_HW1_X0, STA_HW2_H, STA_HW2_W, STA_HW3_LMIN, STA_FOCUS_CFG_FINE, STA_FOCUS_CFG_COARSE, STA_FOCUS_MIN] ++
  [STA_FOCUS_MAX, STA_IRQ_RAW_REC_DROP, STA_CAP_MPXS, STA_LOAD_MPXS, STA_REC_DROP]

/-! The VEW page (R357). -/
def VEW_BASIC_VIEW_EN : Fld := ⟨.vew, 0x40, 4, 2, 16, 16, .rw, 0, .any⟩
def VEW_BASIC_VIEW_TONE : Fld := ⟨.vew, 0x40, 4, 2, 9, 8, .rw, 0x1, .codes 2⟩
def VEW_BASIC_VIEW_PRESET : Fld := ⟨.vew, 0x40, 4, 2, 1, 0, .rw, 0, .codes 2⟩
def VEW_CFG_EN : Fld := ⟨.vew, 0x100, 128, 2, 31, 31, .sh, 0, .any⟩
def VEW_CFG_DEST : Fld := ⟨.vew, 0x100, 128, 2, 1, 0, .sh, 0x2, .any⟩
def VEW_RATE_LIM_CFPS : Fld := ⟨.vew, 0x104, 128, 2, 15, 0, .sh, 0x1770, .any⟩
def VEW_RASTER_OUT_H : Fld := ⟨.vew, 0x108, 128, 2, 27, 14, .sh, 0x870, .any⟩
def VEW_RASTER_OUT_W : Fld := ⟨.vew, 0x108, 128, 2, 13, 0, .sh, 0xF00, .any⟩
def VEW_PLACE_Y : Fld := ⟨.vew, 0x10C, 128, 2, 27, 14, .sh, 0, .any⟩
def VEW_PLACE_X : Fld := ⟨.vew, 0x10C, 128, 2, 13, 0, .sh, 0, .any⟩
def VEW_BORDER_Y : Fld := ⟨.vew, 0x110, 128, 2, 29, 20, .sh, 0x40, .any⟩
def VEW_BORDER_CB : Fld := ⟨.vew, 0x110, 128, 2, 19, 10, .sh, 0x200, .any⟩
def VEW_BORDER_CR : Fld := ⟨.vew, 0x110, 128, 2, 9, 0, .sh, 0x200, .any⟩
def VEW_WB_R : Fld := ⟨.vew, 0x114, 128, 2, 31, 16, .sh, 0x1000, .any⟩
def VEW_WB_B : Fld := ⟨.vew, 0x114, 128, 2, 15, 0, .sh, 0x1000, .any⟩
def VEW_WB_G_G : Fld := ⟨.vew, 0x118, 128, 2, 15, 0, .sh, 0x1000, .any⟩
def VEW_CCM0 : Fld := ⟨.vew, 0x11C, 128, 2, 31, 0, .sh, 0x1000, .any⟩
def VEW_CCM1 : Fld := ⟨.vew, 0x120, 128, 2, 31, 0, .sh, 0, .any⟩
def VEW_CCM2 : Fld := ⟨.vew, 0x124, 128, 2, 31, 0, .sh, 0x1000, .any⟩
def VEW_CCM3 : Fld := ⟨.vew, 0x128, 128, 2, 31, 0, .sh, 0, .any⟩
def VEW_CCM4_C22 : Fld := ⟨.vew, 0x12C, 128, 2, 15, 0, .sh, 0x1000, .any⟩
def VEW_TONE_COMPRESS : Fld := ⟨.vew, 0x130, 128, 2, 23, 16, .sh, 0x4D, .any⟩
def VEW_TONE_DETAIL : Fld := ⟨.vew, 0x130, 128, 2, 15, 8, .sh, 0x9A, .any⟩
def VEW_TONE_TARGET : Fld := ⟨.vew, 0x130, 128, 2, 7, 0, .sh, 0x2E, .any⟩
def VEW_IRQ_RAW_SKIP : Fld := ⟨.vew, 0x10, 0, 1, 9, 8, .w1c, 0, .any⟩
def VEW_CAP_MPXS : Fld := ⟨.vew, 0xF00, 0, 1, 31, 0, .ro, 0, .any⟩
def VEW_LOAD_MPXS : Fld := ⟨.vew, 0xF04, 0, 1, 31, 0, .ro, 0, .any⟩
def VEW_SKIPPED : Fld := ⟨.vew, 0xF08, 4, 2, 31, 0, .rc, 0, .any⟩

def vewFields : List Fld :=
  [VEW_BASIC_VIEW_EN, VEW_BASIC_VIEW_TONE, VEW_BASIC_VIEW_PRESET, VEW_CFG_EN, VEW_CFG_DEST, VEW_RATE_LIM_CFPS, VEW_RASTER_OUT_H, VEW_RASTER_OUT_W, VEW_PLACE_Y, VEW_PLACE_X, VEW_BORDER_Y, VEW_BORDER_CB, VEW_BORDER_CR, VEW_WB_R, VEW_WB_B, VEW_WB_G_G, VEW_CCM0, VEW_CCM1, VEW_CCM2, VEW_CCM3, VEW_CCM4_C22, VEW_TONE_COMPRESS, VEW_TONE_DETAIL, VEW_TONE_TARGET] ++
  [VEW_IRQ_RAW_SKIP, VEW_CAP_MPXS, VEW_LOAD_MPXS, VEW_SKIPPED]

/-! The ENC page (R369). -/
def ENC_BASIC_ENC_HIST_FPS : Fld := ⟨.enc, 0x40, 0, 1, 31, 24, .rw, 0x1E, .any⟩
def ENC_BASIC_ENC_HIST_EN : Fld := ⟨.enc, 0x40, 0, 1, 16, 16, .rw, 0, .any⟩
def ENC_BASIC_ENC_VIEW_BPP : Fld := ⟨.enc, 0x40, 0, 1, 15, 8, .rw, 0x30, .any⟩
def ENC_BASIC_ENC_HIST_BPP : Fld := ⟨.enc, 0x40, 0, 1, 7, 0, .rw, 0x20, .any⟩
def ENC_CFG_GUARD : Fld := ⟨.enc, 0x100, 0, 1, 0, 0, .sh, 0x1, .any⟩
def ENC_LOAD_DECL : Fld := ⟨.enc, 0x104, 0, 1, 31, 0, .ro, 0, .any⟩
def ENC_ES0_EN : Fld := ⟨.enc, 0x200, 16, 16, 31, 31, .sh, 0, .any⟩
def ENC_ES0_KIND : Fld := ⟨.enc, 0x200, 16, 16, 30, 30, .sh, 0, .any⟩
def ENC_ES0_COMPAND : Fld := ⟨.enc, 0x200, 16, 16, 29, 29, .sh, 0, .any⟩
def ENC_ES0_HIST : Fld := ⟨.enc, 0x200, 16, 16, 28, 28, .sh, 0, .any⟩
def ENC_ES0_SRC : Fld := ⟨.enc, 0x200, 16, 16, 21, 16, .sh, 0, .any⟩
def ENC_ES0_QID : Fld := ⟨.enc, 0x200, 16, 16, 12, 0, .sh, 0, .any⟩
def ENC_ES1_BPP : Fld := ⟨.enc, 0x204, 16, 16, 31, 24, .sh, 0x20, .any⟩
def ENC_ES1_NLX : Fld := ⟨.enc, 0x204, 16, 16, 18, 16, .sh, 0x5, .any⟩
def ENC_ES1_NLY : Fld := ⟨.enc, 0x204, 16, 16, 13, 12, .sh, 0x1, .any⟩
def ENC_ES1_SLICE : Fld := ⟨.enc, 0x204, 16, 16, 8, 8, .sh, 0, .any⟩
def ENC_ES2_RATE_LIM : Fld := ⟨.enc, 0x208, 16, 16, 15, 0, .sh, 0, .any⟩
def ENC_IRQ_RAW_OVERSHOOT : Fld := ⟨.enc, 0x10, 0, 1, 9, 9, .w1c, 0, .any⟩
def ENC_IRQ_RAW_DROP : Fld := ⟨.enc, 0x10, 0, 1, 8, 8, .w1c, 0, .any⟩
def ENC_CAP_MPXS : Fld := ⟨.enc, 0xF00, 0, 1, 31, 0, .ro, 0, .any⟩
def ENC_LOAD_MPXS : Fld := ⟨.enc, 0xF04, 0, 1, 31, 0, .ro, 0, .any⟩
def ENC_DROP : Fld := ⟨.enc, 0xF08, 0, 1, 31, 0, .rc, 0, .any⟩
def ENC_OVERSHOOT : Fld := ⟨.enc, 0xF0C, 0, 1, 31, 0, .rc, 0, .any⟩
def ENC_GUARDED : Fld := ⟨.enc, 0xF10, 0, 1, 31, 0, .rc, 0, .any⟩

def encFields : List Fld :=
  [ENC_BASIC_ENC_HIST_FPS, ENC_BASIC_ENC_HIST_EN, ENC_BASIC_ENC_VIEW_BPP, ENC_BASIC_ENC_HIST_BPP, ENC_CFG_GUARD, ENC_LOAD_DECL, ENC_ES0_EN, ENC_ES0_KIND, ENC_ES0_COMPAND, ENC_ES0_HIST, ENC_ES0_SRC, ENC_ES0_QID, ENC_ES1_BPP, ENC_ES1_NLX, ENC_ES1_NLY, ENC_ES1_SLICE, ENC_ES2_RATE_LIM, ENC_IRQ_RAW_OVERSHOOT, ENC_IRQ_RAW_DROP, ENC_CAP_MPXS, ENC_LOAD_MPXS, ENC_DROP, ENC_OVERSHOOT, ENC_GUARDED]

/-! The DLV page (R426). -/
def DLV_BASIC_DLV_QBASE : Fld := ⟨.dlv, 0x40, 0, 1, 12, 0, .rw, 0x100, .any⟩
def DLV_AGE_P1 : Fld := ⟨.dlv, 0x100, 0, 1, 31, 0, .sh, 0x3E8, .any⟩
def DLV_AGE_P2 : Fld := ⟨.dlv, 0x104, 0, 1, 31, 0, .sh, 0x1388, .any⟩
def DLV_AGE_P3 : Fld := ⟨.dlv, 0x108, 0, 1, 31, 0, .sh, 0x2710, .any⟩
def DLV_QUANTUM_BYTES : Fld := ⟨.dlv, 0x10C, 0, 1, 15, 0, .sh, 0x1000, .any⟩
def DLV_BIND_GEO_QID : Fld := ⟨.dlv, 0x120, 4, 64, 12, 0, .sh, 0, .any⟩
def DLV_BIND_VIEW : Fld := ⟨.dlv, 0x220, 4, 2, 12, 0, .sh, 0, .any⟩
def DLV_BIND_IRQ_QID : Fld := ⟨.dlv, 0x228, 0, 1, 12, 0, .sh, 0, .any⟩
def DLV_BIND_TIME_QID : Fld := ⟨.dlv, 0x22C, 0, 1, 12, 0, .sh, 0, .any⟩
def DLV_TIME_CFG_SEND : Fld := ⟨.dlv, 0x230, 0, 1, 16, 16, .wo, 0, .any⟩
def DLV_TIME_CFG_PERIOD_MS : Fld := ⟨.dlv, 0x230, 0, 1, 15, 0, .sh, 0x3E8, .any⟩
def DLV_BUF_STAT_LVL : Fld := ⟨.dlv, 0x240, 0, 1, 14, 0, .ro, 0, .any⟩
def DLV_IRQ_RAW_UNBOUND : Fld := ⟨.dlv, 0x10, 0, 1, 12, 12, .w1c, 0, .any⟩
def DLV_IRQ_RAW_CREDIT_BACK : Fld := ⟨.dlv, 0x10, 0, 1, 11, 11, .w1c, 0, .any⟩
def DLV_IRQ_RAW_URGENT : Fld := ⟨.dlv, 0x10, 0, 1, 10, 10, .w1c, 0, .any⟩
def DLV_IRQ_RAW_PKT_DROP : Fld := ⟨.dlv, 0x10, 0, 1, 9, 9, .w1c, 0, .any⟩
def DLV_IRQ_RAW_FRAME_DROP : Fld := ⟨.dlv, 0x10, 0, 1, 8, 8, .w1c, 0, .any⟩
def DLV_CAP_MBITS : Fld := ⟨.dlv, 0xF00, 0, 1, 31, 0, .ro, 0, .any⟩
def DLV_LOAD_MBITS : Fld := ⟨.dlv, 0xF04, 0, 1, 31, 0, .ro, 0, .any⟩
def DLV_URGENT_PROMOTIONS : Fld := ⟨.dlv, 0xF08, 0, 1, 31, 0, .rc, 0, .any⟩
def DLV_FRAME_DROP : Fld := ⟨.dlv, 0xF0C, 0, 1, 31, 0, .rc, 0, .any⟩
def DLV_PKT_DROP : Fld := ⟨.dlv, 0xF10, 0, 1, 31, 0, .rc, 0, .any⟩
def DLV_UNBOUND : Fld := ⟨.dlv, 0xF14, 0, 1, 31, 0, .rc, 0, .any⟩
def DLV_CREDIT_BACK : Fld := ⟨.dlv, 0xF18, 0, 1, 31, 0, .rc, 0, .any⟩
def DLV_REPLACED : Fld := ⟨.dlv, 0xF1C, 0, 1, 31, 0, .rc, 0, .any⟩
def DLV_BUF_PEAK : Fld := ⟨.dlv, 0xF20, 0, 1, 14, 0, .rc, 0, .any⟩

def dlvFields : List Fld :=
  [DLV_BASIC_DLV_QBASE, DLV_AGE_P1, DLV_AGE_P2, DLV_AGE_P3, DLV_QUANTUM_BYTES, DLV_BIND_GEO_QID, DLV_BIND_VIEW, DLV_BIND_IRQ_QID, DLV_BIND_TIME_QID, DLV_TIME_CFG_SEND, DLV_TIME_CFG_PERIOD_MS, DLV_BUF_STAT_LVL, DLV_IRQ_RAW_UNBOUND, DLV_IRQ_RAW_CREDIT_BACK, DLV_IRQ_RAW_URGENT, DLV_IRQ_RAW_PKT_DROP, DLV_IRQ_RAW_FRAME_DROP, DLV_CAP_MBITS, DLV_LOAD_MBITS, DLV_URGENT_PROMOTIONS, DLV_FRAME_DROP, DLV_PKT_DROP, DLV_UNBOUND, DLV_CREDIT_BACK] ++
  [DLV_REPLACED, DLV_BUF_PEAK]

/-! The FST page (R395). -/
def FST_BASIC_FST_RESERVE : Fld := ⟨.fst, 0x40, 0, 1, 12, 0, .rw, 0, .any⟩
def FST_FREE_MIB : Fld := ⟨.fst, 0x100, 0, 1, 13, 0, .ro, 0x2000, .any⟩
def FST_BW_DECL : Fld := ⟨.fst, 0x104, 0, 1, 31, 0, .ro, 0, .any⟩
def FST_ALLOC0_EN : Fld := ⟨.fst, 0x200, 8, 48, 31, 31, .sh, 0, .any⟩
def FST_ALLOC0_USE : Fld := ⟨.fst, 0x200, 8, 48, 27, 24, .sh, 0, .any⟩
def FST_ALLOC0_MEMBER : Fld := ⟨.fst, 0x200, 8, 48, 21, 16, .sh, 0, .any⟩
def FST_ALLOC0_INDEX : Fld := ⟨.fst, 0x200, 8, 48, 1, 0, .sh, 0, .any⟩
def FST_ALLOC1_SIZE : Fld := ⟨.fst, 0x204, 8, 48, 29, 16, .sh, 0, .any⟩
def FST_ALLOC1_BASE : Fld := ⟨.fst, 0x204, 8, 48, 12, 0, .sh, 0, .any⟩
def FST_IRQ_RAW_ALLOC_MISS : Fld := ⟨.fst, 0x10, 0, 1, 8, 8, .w1c, 0, .any⟩
def FST_CAP_MBS : Fld := ⟨.fst, 0xF00, 0, 1, 31, 0, .ro, 0, .any⟩
def FST_LOAD_MBS : Fld := ⟨.fst, 0xF04, 0, 1, 31, 0, .ro, 0, .any⟩
def FST_LATE_REQ : Fld := ⟨.fst, 0xF08, 0, 1, 31, 0, .rc, 0, .any⟩

def fstFields : List Fld :=
  [FST_BASIC_FST_RESERVE, FST_FREE_MIB, FST_BW_DECL, FST_ALLOC0_EN, FST_ALLOC0_USE, FST_ALLOC0_MEMBER, FST_ALLOC0_INDEX, FST_ALLOC1_SIZE, FST_ALLOC1_BASE, FST_IRQ_RAW_ALLOC_MISS, FST_CAP_MBS, FST_LOAD_MBS, FST_LATE_REQ]

/-! The HMP page (R397). -/
def HMP_BASIC_HMP_PRE_S : Fld := ⟨.hmp, 0x40, 0, 1, 31, 16, .rw, 0x1E, .any⟩
def HMP_BASIC_HMP_POST_S : Fld := ⟨.hmp, 0x40, 0, 1, 15, 8, .rw, 0xA, .any⟩
def HMP_BASIC_HMP_HIST_EN : Fld := ⟨.hmp, 0x40, 0, 1, 0, 0, .rw, 0x1, .any⟩
def HMP_MEM_CFG_CH_MASK : Fld := ⟨.hmp, 0x100, 0, 1, 15, 12, .lk, 0xF, .only [15, 3, 12]⟩
def HMP_MEM_CFG_BYTE_MODE : Fld := ⟨.hmp, 0x100, 0, 1, 9, 9, .lk, 0, .any⟩
def HMP_MEM_CFG_RANKS : Fld := ⟨.hmp, 0x100, 0, 1, 8, 8, .lk, 0, .any⟩
def HMP_MEM_CFG_CAP : Fld := ⟨.hmp, 0x100, 0, 1, 5, 4, .lk, 0x3, .any⟩
def HMP_MEM_CFG_RATE : Fld := ⟨.hmp, 0x100, 0, 1, 2, 0, .lk, 0x5, .codes 5⟩
def HMP_REGION_HIST_EN : Fld := ⟨.hmp, 0x104, 0, 1, 31, 31, .sh, 0x1, .any⟩
def HMP_REGION_BURST_GIB : Fld := ⟨.hmp, 0x104, 0, 1, 7, 0, .lk, 0, .any⟩
def HMP_PRE_MS : Fld := ⟨.hmp, 0x108, 0, 1, 31, 0, .sh, 0x7530, .any⟩
def HMP_POST_MS : Fld := ⟨.hmp, 0x10C, 0, 1, 31, 0, .sh, 0x2710, .any⟩
def HMP_TRIG_CFG_CAUSE : Fld := ⟨.hmp, 0x110, 0, 1, 31, 16, .sh, 0, .any⟩
def HMP_TRIG_CFG_LINE_EN : Fld := ⟨.hmp, 0x110, 0, 1, 8, 8, .sh, 0, .any⟩
def HMP_TRIG_CFG_LINE : Fld := ⟨.hmp, 0x110, 0, 1, 2, 0, .sh, 0, .any⟩
def HMP_PROT_PROT_MAX : Fld := ⟨.hmp, 0x114, 0, 1, 7, 0, .sh, 0xC0, .any⟩
def HMP_REPLAY_CAP_MBS : Fld := ⟨.hmp, 0x118, 0, 1, 15, 0, .sh, 0, .any⟩
def HMP_CTRL_ABORT : Fld := ⟨.hmp, 0x120, 0, 1, 8, 8, .wo, 0, .any⟩
def HMP_CTRL_RETRAIN : Fld := ⟨.hmp, 0x120, 0, 1, 4, 4, .wo, 0, .any⟩
def HMP_CTRL_DSM : Fld := ⟨.hmp, 0x120, 0, 1, 1, 1, .wo, 0, .any⟩
def HMP_CTRL_FREEZE : Fld := ⟨.hmp, 0x120, 0, 1, 0, 0, .rw, 0, .any⟩
def HMP_RELEASE_GO : Fld := ⟨.hmp, 0x124, 0, 1, 4, 4, .wo, 0, .any⟩
def HMP_RELEASE_SLOT : Fld := ⟨.hmp, 0x124, 0, 1, 3, 0, .wo, 0, .any⟩
def HMP_STAT_FROZEN : Fld := ⟨.hmp, 0x130, 0, 1, 25, 25, .ro, 0, .any⟩
def HMP_STAT_RECOVERED : Fld := ⟨.hmp, 0x130, 0, 1, 24, 24, .ro, 0, .any⟩
def HMP_STAT_RATE_ACT : Fld := ⟨.hmp, 0x130, 0, 1, 18, 16, .ro, 0, .any⟩
def HMP_STAT_CH_OK : Fld := ⟨.hmp, 0x130, 0, 1, 11, 8, .ro, 0, .any⟩
def HMP_STAT_STATE : Fld := ⟨.hmp, 0x130, 0, 1, 2, 0, .ro, 0, .any⟩
def HMP_RING_MIB : Fld := ⟨.hmp, 0x134, 0, 1, 31, 0, .ro, 0, .any⟩
def HMP_SPAN_MS : Fld := ⟨.hmp, 0x138, 0, 1, 31, 0, .ro, 0, .any⟩
def HMP_TSLOT_SEQ_LO : Fld := ⟨.hmp, 0x140, 16, 16, 31, 0, .ro, 0, .any⟩
def HMP_TSLOT_SEQ_HI : Fld := ⟨.hmp, 0x144, 16, 16, 31, 0, .ro, 0, .any⟩
def HMP_TSLOT_CAUSE : Fld := ⟨.hmp, 0x148, 16, 16, 31, 16, .ro, 0, .any⟩
def HMP_TSLOT_MERGED : Fld := ⟨.hmp, 0x148, 16, 16, 10, 10, .ro, 0, .any⟩
def HMP_TSLOT_POST_CUT : Fld := ⟨.hmp, 0x148, 16, 16, 9, 9, .ro, 0, .any⟩
def HMP_TSLOT_PRE_SHORT : Fld := ⟨.hmp, 0x148, 16, 16, 8, 8, .ro, 0, .any⟩
def HMP_TSLOT_STATE : Fld := ⟨.hmp, 0x148, 16, 16, 2, 0, .ro, 0, .any⟩
def HMP_TSLOT_PROT_MIB : Fld := ⟨.hmp, 0x14C, 16, 16, 31, 0, .ro, 0, .any⟩
def HMP_BURST_SEQ_LO : Fld := ⟨.hmp, 0x240, 0, 1, 31, 0, .ro, 0, .any⟩
def HMP_BURST_SEQ_HI : Fld := ⟨.hmp, 0x244, 0, 1, 31, 0, .ro, 0, .any⟩
def HMP_IRQ_RAW_RETRAIN : Fld := ⟨.hmp, 0x10, 0, 1, 13, 13, .w1c, 0, .any⟩
def HMP_IRQ_RAW_TRAIN_FAIL : Fld := ⟨.hmp, 0x10, 0, 1, 12, 12, .w1c, 0, .any⟩
def HMP_IRQ_RAW_PROT_FULL : Fld := ⟨.hmp, 0x10, 0, 1, 11, 11, .w1c, 0, .any⟩
def HMP_IRQ_RAW_HIST_DROP : Fld := ⟨.hmp, 0x10, 0, 1, 10, 10, .w1c, 0, .any⟩
def HMP_IRQ_RAW_REPLAY_DONE : Fld := ⟨.hmp, 0x10, 0, 1, 9, 9, .w1c, 0, .any⟩
def HMP_IRQ_RAW_TRIG_DONE : Fld := ⟨.hmp, 0x10, 0, 1, 8, 8, .w1c, 0, .any⟩
def HMP_CAP_MBS : Fld := ⟨.hmp, 0xF00, 0, 1, 31, 0, .ro, 0, .any⟩
def HMP_LOAD_MBS : Fld := ⟨.hmp, 0xF04, 0, 1, 31, 0, .ro, 0, .any⟩
def HMP_CHUNKS : Fld := ⟨.hmp, 0xF08, 0, 1, 31, 0, .rc, 0, .any⟩
def HMP_HIST_DROP : Fld := ⟨.hmp, 0xF0C, 0, 1, 31, 0, .rc, 0, .any⟩
def HMP_MERGES : Fld := ⟨.hmp, 0xF10, 0, 1, 31, 0, .rc, 0, .any⟩
def HMP_REPLAY_CRC_ERR : Fld := ⟨.hmp, 0xF14, 0, 1, 31, 0, .rc, 0, .any⟩
def HMP_RETRAINS : Fld := ⟨.hmp, 0xF18, 0, 1, 31, 0, .rc, 0, .any⟩

def hmpFields : List Fld :=
  [HMP_BASIC_HMP_PRE_S, HMP_BASIC_HMP_POST_S, HMP_BASIC_HMP_HIST_EN, HMP_MEM_CFG_CH_MASK, HMP_MEM_CFG_BYTE_MODE, HMP_MEM_CFG_RANKS, HMP_MEM_CFG_CAP, HMP_MEM_CFG_RATE, HMP_REGION_HIST_EN, HMP_REGION_BURST_GIB, HMP_PRE_MS, HMP_POST_MS, HMP_TRIG_CFG_CAUSE, HMP_TRIG_CFG_LINE_EN, HMP_TRIG_CFG_LINE, HMP_PROT_PROT_MAX, HMP_REPLAY_CAP_MBS, HMP_CTRL_ABORT, HMP_CTRL_RETRAIN, HMP_CTRL_DSM, HMP_CTRL_FREEZE, HMP_RELEASE_GO, HMP_RELEASE_SLOT, HMP_STAT_FROZEN] ++
  [HMP_STAT_RECOVERED, HMP_STAT_RATE_ACT, HMP_STAT_CH_OK, HMP_STAT_STATE, HMP_RING_MIB, HMP_SPAN_MS, HMP_TSLOT_SEQ_LO, HMP_TSLOT_SEQ_HI, HMP_TSLOT_CAUSE, HMP_TSLOT_MERGED, HMP_TSLOT_POST_CUT, HMP_TSLOT_PRE_SHORT, HMP_TSLOT_STATE, HMP_TSLOT_PROT_MIB, HMP_BURST_SEQ_LO, HMP_BURST_SEQ_HI, HMP_IRQ_RAW_RETRAIN, HMP_IRQ_RAW_TRAIN_FAIL, HMP_IRQ_RAW_PROT_FULL, HMP_IRQ_RAW_HIST_DROP, HMP_IRQ_RAW_REPLAY_DONE, HMP_IRQ_RAW_TRIG_DONE, HMP_CAP_MBS, HMP_LOAD_MBS] ++
  [HMP_CHUNKS, HMP_HIST_DROP, HMP_MERGES, HMP_REPLAY_CRC_ERR, HMP_RETRAINS]

/-! The LN page (R458). -/
def LN_BASIC_LANE_SLEEP_EN : Fld := ⟨.ln, 0x40, 0, 1, 9, 9, .rw, 0, .any⟩
def LN_BASIC_LANE_FEC_REQ : Fld := ⟨.ln, 0x40, 0, 1, 8, 8, .lk, 0, .any⟩
def LN_BASIC_LANE_RATE : Fld := ⟨.ln, 0x40, 0, 1, 2, 0, .lk, 0, .codes 4⟩
def LN_CFG_TX_INV : Fld := ⟨.ln, 0x100, 0, 1, 15, 15, .lk, 0, .any⟩
def LN_CFG_RX_INV : Fld := ⟨.ln, 0x100, 0, 1, 14, 14, .lk, 0, .any⟩
def LN_CFG_PRECODE_REQ : Fld := ⟨.ln, 0x100, 0, 1, 9, 9, .lk, 0x1, .any⟩
def LN_CFG_FEC_REQ : Fld := ⟨.ln, 0x100, 0, 1, 8, 8, .lk, 0, .any⟩
def LN_CFG_RATE : Fld := ⟨.ln, 0x100, 0, 1, 2, 0, .lk, 0, .codes 4⟩
def LN_SKIP_CFG_SKIP_INT : Fld := ⟨.ln, 0x104, 0, 1, 15, 0, .lk, 0xD00, .any⟩
def LN_TX_FIR_FIXED : Fld := ⟨.ln, 0x108, 0, 1, 31, 31, .lk, 0, .any⟩
def LN_TX_FIR_MAIN : Fld := ⟨.ln, 0x108, 0, 1, 22, 16, .ro, 0x36, .any⟩
def LN_TX_FIR_POST : Fld := ⟨.ln, 0x108, 0, 1, 12, 8, .rw, 0x8, .rng 0 24⟩
def LN_TX_FIR_PRE : Fld := ⟨.ln, 0x108, 0, 1, 3, 0, .rw, 0x2, .rng 0 12⟩
def LN_TX_SWING_AMP : Fld := ⟨.ln, 0x10C, 0, 1, 3, 0, .lk, 0x8, .codes 12⟩
def LN_RX_CFG_DRIFT_MAX : Fld := ⟨.ln, 0x110, 0, 1, 31, 24, .rw, 0x10, .any⟩
def LN_RX_CFG_STEP_MAX : Fld := ⟨.ln, 0x110, 0, 1, 23, 16, .rw, 0x2, .any⟩
def LN_RX_CFG_TD_MIN : Fld := ⟨.ln, 0x110, 0, 1, 15, 8, .rw, 0x40, .rng 0 129⟩
def LN_RX_CFG_ADAPT_EN : Fld := ⟨.ln, 0x110, 0, 1, 0, 0, .rw, 0x1, .any⟩
def LN_PWR_CFG_DEEP_REQ : Fld := ⟨.ln, 0x114, 0, 1, 16, 16, .wo, 0, .any⟩
def LN_PWR_CFG_SLEEP_US : Fld := ⟨.ln, 0x114, 0, 1, 15, 0, .rw, 0, .any⟩
def LN_SYNC_CTRL_SLIP : Fld := ⟨.ln, 0x118, 0, 1, 0, 0, .wo, 0, .any⟩
def LN_MARGIN_CFG_MIN_W : Fld := ⟨.ln, 0x11C, 0, 1, 31, 16, .rw, 0xC8, .any⟩
def LN_MARGIN_CFG_MIN_H : Fld := ⟨.ln, 0x11C, 0, 1, 15, 0, .rw, 0x14, .any⟩
def LN_STAT_CAUSE : Fld := ⟨.ln, 0x180, 0, 1, 31, 28, .ro, 0, .any⟩
def LN_STAT_FAILS : Fld := ⟨.ln, 0x180, 0, 1, 27, 24, .ro, 0, .any⟩
def LN_STAT_RATE_ACT : Fld := ⟨.ln, 0x180, 0, 1, 23, 21, .ro, 0, .any⟩
def LN_STAT_FEC_ACT : Fld := ⟨.ln, 0x180, 0, 1, 20, 20, .ro, 0, .any⟩
def LN_STAT_PRECODE_ACT : Fld := ⟨.ln, 0x180, 0, 1, 19, 19, .ro, 0, .any⟩
def LN_STAT_RX_SLEEP : Fld := ⟨.ln, 0x180, 0, 1, 18, 18, .ro, 0, .any⟩
def LN_STAT_TX_SLEEP : Fld := ⟨.ln, 0x180, 0, 1, 17, 17, .ro, 0, .any⟩
def LN_STAT_BLOCK_LOCK : Fld := ⟨.ln, 0x180, 0, 1, 16, 16, .ro, 0, .any⟩
def LN_STAT_SIGNAL : Fld := ⟨.ln, 0x180, 0, 1, 15, 15, .ro, 0, .any⟩
def LN_STAT_STATE : Fld := ⟨.ln, 0x180, 0, 1, 3, 0, .ro, 0, .any⟩
def LN_RX_EQ_VGA : Fld := ⟨.ln, 0x184, 0, 1, 31, 24, .ro, 0, .any⟩
def LN_RX_EQ_PHASE : Fld := ⟨.ln, 0x184, 0, 1, 15, 8, .ro, 0, .any⟩
def LN_RX_EQ_CTLE : Fld := ⟨.ln, 0x184, 0, 1, 3, 0, .ro, 0, .any⟩
def LN_DFE : Fld := ⟨.ln, 0x188, 4, 3, 31, 0, .ro, 0, .any⟩
def LN_EYE_W : Fld := ⟨.ln, 0x194, 0, 1, 31, 16, .ro, 0, .any⟩
def LN_EYE_H : Fld := ⟨.ln, 0x194, 0, 1, 15, 0, .ro, 0, .any⟩
def LN_BACKOFF_MS : Fld := ⟨.ln, 0x198, 0, 1, 31, 0, .ro, 0, .any⟩
def LN_SKEW_BLOCKS : Fld := ⟨.ln, 0x19C, 0, 1, 5, 0, .ro, 0, .any⟩
def LN_EB_FILL_BITS : Fld := ⟨.ln, 0x1A0, 0, 1, 10, 0, .ro, 0, .any⟩
def LN_IRQ_RAW_DEEP : Fld := ⟨.ln, 0x10, 0, 1, 13, 13, .w1c, 0, .any⟩
def LN_IRQ_RAW_ADAPT_CLAMP : Fld := ⟨.ln, 0x10, 0, 1, 12, 12, .w1c, 0, .any⟩
def LN_IRQ_RAW_EB_ERR : Fld := ⟨.ln, 0x10, 0, 1, 11, 11, .w1c, 0, .any⟩
def LN_IRQ_RAW_MARGIN_LOW : Fld := ⟨.ln, 0x10, 0, 1, 10, 10, .w1c, 0, .any⟩
def LN_IRQ_RAW_DOWN : Fld := ⟨.ln, 0x10, 0, 1, 9, 9, .w1c, 0, .any⟩
def LN_IRQ_RAW_TRAINED : Fld := ⟨.ln, 0x10, 0, 1, 8, 8, .w1c, 0, .any⟩
def LN_FEC_CORR : Fld := ⟨.ln, 0x3C0, 0, 1, 31, 0, .rc, 0, .any⟩
def LN_FEC_UNCORR : Fld := ⟨.ln, 0x3C4, 0, 1, 31, 0, .rc, 0, .any⟩
def LN_HDR_ERR : Fld := ⟨.ln, 0x3C8, 0, 1, 31, 0, .rc, 0, .any⟩
def LN_EB_ERR : Fld := ⟨.ln, 0x3CC, 0, 1, 31, 0, .rc, 0, .any⟩
def LN_SKIP_DEL : Fld := ⟨.ln, 0x3D0, 0, 1, 31, 0, .rc, 0, .any⟩
def LN_SKIP_INS : Fld := ⟨.ln, 0x3D4, 0, 1, 31, 0, .rc, 0, .any⟩
def LN_SKIP_POSTPONED : Fld := ⟨.ln, 0x3D8, 0, 1, 31, 0, .rc, 0, .any⟩
def LN_TRAIN_FAIL : Fld := ⟨.ln, 0x3DC, 0, 1, 31, 0, .rc, 0, .any⟩
def LN_LOS : Fld := ⟨.ln, 0x3E0, 0, 1, 31, 0, .rc, 0, .any⟩
def LN_ADAPT_CLAMP : Fld := ⟨.ln, 0x3E4, 0, 1, 31, 0, .rc, 0, .any⟩
def LN_SLEEPS : Fld := ⟨.ln, 0x3E8, 0, 1, 31, 0, .rc, 0, .any⟩
def LN_MARGIN_CHECKS : Fld := ⟨.ln, 0x3EC, 0, 1, 31, 0, .rc, 0, .any⟩

def lnFields : List Fld :=
  [LN_BASIC_LANE_SLEEP_EN, LN_BASIC_LANE_FEC_REQ, LN_BASIC_LANE_RATE, LN_CFG_TX_INV, LN_CFG_RX_INV, LN_CFG_PRECODE_REQ, LN_CFG_FEC_REQ, LN_CFG_RATE, LN_SKIP_CFG_SKIP_INT, LN_TX_FIR_FIXED, LN_TX_FIR_MAIN, LN_TX_FIR_POST, LN_TX_FIR_PRE, LN_TX_SWING_AMP, LN_RX_CFG_DRIFT_MAX, LN_RX_CFG_STEP_MAX, LN_RX_CFG_TD_MIN, LN_RX_CFG_ADAPT_EN, LN_PWR_CFG_DEEP_REQ, LN_PWR_CFG_SLEEP_US, LN_SYNC_CTRL_SLIP, LN_MARGIN_CFG_MIN_W, LN_MARGIN_CFG_MIN_H, LN_STAT_CAUSE] ++
  [LN_STAT_FAILS, LN_STAT_RATE_ACT, LN_STAT_FEC_ACT, LN_STAT_PRECODE_ACT, LN_STAT_RX_SLEEP, LN_STAT_TX_SLEEP, LN_STAT_BLOCK_LOCK, LN_STAT_SIGNAL, LN_STAT_STATE, LN_RX_EQ_VGA, LN_RX_EQ_PHASE, LN_RX_EQ_CTLE, LN_DFE, LN_EYE_W, LN_EYE_H, LN_BACKOFF_MS, LN_SKEW_BLOCKS, LN_EB_FILL_BITS, LN_IRQ_RAW_DEEP, LN_IRQ_RAW_ADAPT_CLAMP, LN_IRQ_RAW_EB_ERR, LN_IRQ_RAW_MARGIN_LOW, LN_IRQ_RAW_DOWN, LN_IRQ_RAW_TRAINED] ++
  [LN_FEC_CORR, LN_FEC_UNCORR, LN_HDR_ERR, LN_EB_ERR, LN_SKIP_DEL, LN_SKIP_INS, LN_SKIP_POSTPONED, LN_TRAIN_FAIL, LN_LOS, LN_ADAPT_CLAMP, LN_SLEEPS, LN_MARGIN_CHECKS]

/-! The SP page (R281). -/
def SP_BASIC_PORT_AUTO : Fld := ⟨.sp, 0x40, 0, 1, 8, 8, .rw, 0x1, .any⟩
def SP_BASIC_PORT_VS_EN : Fld := ⟨.sp, 0x40, 0, 1, 3, 0, .rw, 0, .any⟩
def SP_PORT_CFG_FRAME_TMO : Fld := ⟨.sp, 0x100, 0, 1, 15, 8, .sh, 0xA, .rng 1 255⟩
def SP_PORT_CFG_PAUSE_EN : Fld := ⟨.sp, 0x100, 0, 1, 1, 1, .sh, 0x1, .any⟩
def SP_PORT_CFG_CREDIT_EN : Fld := ⟨.sp, 0x100, 0, 1, 0, 0, .lk, 0, .any⟩
def SP_VS_GEO_HEIGHT : Fld := ⟨.sp, 0x110, 16, 4, 29, 16, .sh, 0, .any⟩
def SP_VS_GEO_WIDTH : Fld := ⟨.sp, 0x110, 16, 4, 13, 0, .sh, 0, .any⟩
def SP_VS_FMT_EN : Fld := ⟨.sp, 0x114, 16, 4, 31, 31, .sh, 0, .any⟩
def SP_VS_FMT_CFA : Fld := ⟨.sp, 0x114, 16, 4, 26, 24, .sh, 0, .codes 4⟩
def SP_VS_FMT_BITS : Fld := ⟨.sp, 0x114, 16, 4, 17, 16, .sh, 0x1, .codes 2⟩
def SP_VS_FMT_WEIGHT : Fld := ⟨.sp, 0x114, 16, 4, 15, 8, .sh, 0x10, .any⟩
def SP_VS_FILL_FILL : Fld := ⟨.sp, 0x118, 16, 4, 15, 0, .sh, 0x40, .any⟩
def SP_VS_RATE_RATE : Fld := ⟨.sp, 0x11C, 16, 4, 15, 0, .sh, 0, .any⟩
def SP_HELLO : Fld := ⟨.sp, 0x180, 4, 12, 31, 0, .ro, 0, .any⟩
def SP_HELLO_STAT_VALID : Fld := ⟨.sp, 0x1B0, 0, 1, 0, 0, .ro, 0, .any⟩
def SP_PORT_STAT_PAUSED : Fld := ⟨.sp, 0x1C0, 0, 1, 11, 8, .ro, 0, .any⟩
def SP_PORT_STAT_STATE : Fld := ⟨.sp, 0x1C0, 0, 1, 2, 0, .ro, 0, .any⟩
def SP_BUF_STAT_LVL : Fld := ⟨.sp, 0x1C4, 0, 1, 13, 0, .ro, 0, .any⟩
def SP_RX_DELAY_NS : Fld := ⟨.sp, 0x1C8, 0, 1, 15, 0, .ro, 0, .any⟩
def SP_CREDIT_STAT_LIMIT : Fld := ⟨.sp, 0x1CC, 0, 1, 31, 0, .ro, 0, .any⟩
def SP_PAUSE_FNUM : Fld := ⟨.sp, 0x1D0, 0, 1, 31, 0, .ro, 0, .any⟩
def SP_IRQ_RAW_HDR_ERR : Fld := ⟨.sp, 0x10, 0, 1, 15, 15, .w1c, 0, .any⟩
def SP_IRQ_RAW_PAUSE_IGN : Fld := ⟨.sp, 0x10, 0, 1, 14, 14, .w1c, 0, .any⟩
def SP_IRQ_RAW_CRC_ERR : Fld := ⟨.sp, 0x10, 0, 1, 13, 13, .w1c, 0, .any⟩
def SP_IRQ_RAW_LONG : Fld := ⟨.sp, 0x10, 0, 1, 12, 12, .w1c, 0, .any⟩
def SP_IRQ_RAW_SHORT : Fld := ⟨.sp, 0x10, 0, 1, 11, 11, .w1c, 0, .any⟩
def SP_IRQ_RAW_TRUNC : Fld := ⟨.sp, 0x10, 0, 1, 10, 10, .w1c, 0, .any⟩
def SP_IRQ_RAW_PORT_DOWN : Fld := ⟨.sp, 0x10, 0, 1, 9, 9, .w1c, 0, .any⟩
def SP_IRQ_RAW_PORT_UP : Fld := ⟨.sp, 0x10, 0, 1, 8, 8, .w1c, 0, .any⟩
def SP_FRAMES : Fld := ⟨.sp, 0xF00, 4, 4, 31, 0, .rc, 0, .any⟩
def SP_LINE_CRC_ERR : Fld := ⟨.sp, 0xF10, 4, 4, 15, 0, .rc, 0, .any⟩
def SP_FRAME_CRC_ERR : Fld := ⟨.sp, 0xF20, 4, 4, 15, 0, .rc, 0, .any⟩
def SP_TRUNC : Fld := ⟨.sp, 0xF30, 4, 4, 31, 0, .rc, 0, .any⟩
def SP_SHORT : Fld := ⟨.sp, 0xF40, 4, 4, 31, 0, .rc, 0, .any⟩
def SP_LONG : Fld := ⟨.sp, 0xF50, 4, 4, 31, 0, .rc, 0, .any⟩
def SP_PAUSE_DROP : Fld := ⟨.sp, 0xF60, 4, 4, 31, 0, .rc, 0, .any⟩
def SP_HDR_ERR : Fld := ⟨.sp, 0xF70, 0, 1, 31, 0, .rc, 0, .any⟩
def SP_ORPHAN : Fld := ⟨.sp, 0xF74, 0, 1, 31, 0, .rc, 0, .any⟩
def SP_ALIGN_LOSS : Fld := ⟨.sp, 0xF78, 0, 1, 31, 0, .rc, 0, .any⟩
def SP_CREDIT_OVER : Fld := ⟨.sp, 0xF7C, 0, 1, 31, 0, .rc, 0, .any⟩
def SP_BUF_PEAK : Fld := ⟨.sp, 0xF80, 0, 1, 13, 0, .rc, 0, .any⟩

def spFields : List Fld :=
  [SP_BASIC_PORT_AUTO, SP_BASIC_PORT_VS_EN, SP_PORT_CFG_FRAME_TMO, SP_PORT_CFG_PAUSE_EN, SP_PORT_CFG_CREDIT_EN, SP_VS_GEO_HEIGHT, SP_VS_GEO_WIDTH, SP_VS_FMT_EN, SP_VS_FMT_CFA, SP_VS_FMT_BITS, SP_VS_FMT_WEIGHT, SP_VS_FILL_FILL, SP_VS_RATE_RATE, SP_HELLO, SP_HELLO_STAT_VALID, SP_PORT_STAT_PAUSED, SP_PORT_STAT_STATE, SP_BUF_STAT_LVL, SP_RX_DELAY_NS, SP_CREDIT_STAT_LIMIT, SP_PAUSE_FNUM, SP_IRQ_RAW_HDR_ERR, SP_IRQ_RAW_PAUSE_IGN, SP_IRQ_RAW_CRC_ERR] ++
  [SP_IRQ_RAW_LONG, SP_IRQ_RAW_SHORT, SP_IRQ_RAW_TRUNC, SP_IRQ_RAW_PORT_DOWN, SP_IRQ_RAW_PORT_UP, SP_FRAMES, SP_LINE_CRC_ERR, SP_FRAME_CRC_ERR, SP_TRUNC, SP_SHORT, SP_LONG, SP_PAUSE_DROP, SP_HDR_ERR, SP_ORPHAN, SP_ALIGN_LOSS, SP_CREDIT_OVER, SP_BUF_PEAK]

/-! The HLP page (R427). -/
def HLP_BASIC_LINK_LANES : Fld := ⟨.hlp, 0x40, 0, 1, 4, 0, .lk, 0x4, .any⟩
def HLP_CFG_DEGRADE : Fld := ⟨.hlp, 0x100, 0, 1, 16, 16, .lk, 0x1, .any⟩
def HLP_CFG_RX_LANES : Fld := ⟨.hlp, 0x100, 0, 1, 10, 8, .lk, 0x4, .only [1, 2, 4]⟩
def HLP_CFG_TX_LANES : Fld := ⟨.hlp, 0x100, 0, 1, 4, 0, .lk, 0x4, .only [1, 2, 4, 8, 16]⟩
def HLP_INIT_TMO_MS : Fld := ⟨.hlp, 0x104, 0, 1, 7, 0, .sh, 0xA, .rng 1 255⟩
def HLP_STAT_UP_COUNT : Fld := ⟨.hlp, 0x110, 0, 1, 31, 16, .ro, 0, .any⟩
def HLP_STAT_TX_ACT : Fld := ⟨.hlp, 0x110, 0, 1, 12, 8, .ro, 0, .any⟩
def HLP_STAT_RX_ACT : Fld := ⟨.hlp, 0x110, 0, 1, 7, 5, .ro, 0, .any⟩
def HLP_STAT_STATE : Fld := ⟨.hlp, 0x110, 0, 1, 1, 0, .ro, 0, .any⟩
def HLP_TX_LAT_NS : Fld := ⟨.hlp, 0x114, 0, 1, 15, 0, .ro, 0, .any⟩
def HLP_IRQ_RAW_RX_OVF : Fld := ⟨.hlp, 0x10, 0, 1, 11, 11, .w1c, 0, .any⟩
def HLP_IRQ_RAW_RX_ERR : Fld := ⟨.hlp, 0x10, 0, 1, 10, 10, .w1c, 0, .any⟩
def HLP_IRQ_RAW_LINK_DOWN : Fld := ⟨.hlp, 0x10, 0, 1, 9, 9, .w1c, 0, .any⟩
def HLP_IRQ_RAW_LINK_UP : Fld := ⟨.hlp, 0x10, 0, 1, 8, 8, .w1c, 0, .any⟩
def HLP_RX_ERR : Fld := ⟨.hlp, 0xF00, 0, 1, 31, 0, .rc, 0, .any⟩
def HLP_RX_OVF : Fld := ⟨.hlp, 0xF04, 0, 1, 31, 0, .rc, 0, .any⟩
def HLP_RETRAIN : Fld := ⟨.hlp, 0xF08, 0, 1, 31, 0, .rc, 0, .any⟩
def HLP_RX_PKTS : Fld := ⟨.hlp, 0xF0C, 0, 1, 31, 0, .rc, 0, .any⟩

def hlpFields : List Fld :=
  [HLP_BASIC_LINK_LANES, HLP_CFG_DEGRADE, HLP_CFG_RX_LANES, HLP_CFG_TX_LANES, HLP_INIT_TMO_MS, HLP_STAT_UP_COUNT, HLP_STAT_TX_ACT, HLP_STAT_RX_ACT, HLP_STAT_STATE, HLP_TX_LAT_NS, HLP_IRQ_RAW_RX_OVF, HLP_IRQ_RAW_RX_ERR, HLP_IRQ_RAW_LINK_DOWN, HLP_IRQ_RAW_LINK_UP, HLP_RX_ERR, HLP_RX_OVF, HLP_RETRAIN, HLP_RX_PKTS]

/-- The fields of a block's pages beside the common header. -/
def Blk.fields : Blk → List Fld
  | .sys => sysFields
  | .clk => clkFields
  | .tbs => tbsFields
  | .pwr => pwrFields
  | .thm => thmFields
  | .evr => evrFields
  | .nvm => nvmFields
  | .mbx => mbxFields
  | .sec => secFields
  | .ary => aryFields
  | .exp => expFields
  | .win => winFields
  | .trg => trgFields
  | .eng => engFields
  | .pe => peFields
  | .ing => ingFields
  | .nrd => nrdFields
  | .pxc => pxcFields
  | .hdr => hdrFields
  | .geo => geoFields
  | .sta => staFields
  | .vew => vewFields
  | .enc => encFields
  | .dlv => dlvFields
  | .fst => fstFields
  | .hmp => hmpFields
  | .ln => lnFields
  | .sp => spFields
  | .hlp => hlpFields

end Sys2Proof
end

