-- ==== Sys2Proof/Machine/Sparse.lean ====
section
/-! DEFINITION. The operations over sparse maps: reading, writing in canonical form, erasing a
range of keys. -/
namespace Sys2Proof

/-- The value listed for `k`, or `d k` where none is listed. -/
def SMap.get {α : Type} (d : Nat → α) : SMap α → Nat → α
  | [], k => d k
  | (k', v) :: t, k => if k' = k then v else SMap.get d t k

/-- Put a pair at its place in the rising order of keys. -/
def SMap.insertAt {α : Type} (k : Nat) (v : α) : SMap α → SMap α
  | [] => [(k, v)]
  | (k', v') :: t => if k < k' then (k, v) :: (k', v') :: t else (k', v') :: SMap.insertAt k v t

/-- Unlist a key. -/
def SMap.erase {α : Type} (m : SMap α) (k : Nat) : SMap α := m.filter fun p => p.1 != k

/-- Write `v` at `k`; writing what an unlisted key reads as unlists the key. -/
def SMap.set {α : Type} [DecidableEq α] (d : Nat → α) (m : SMap α) (k : Nat) (v : α) : SMap α :=
  if v = d k then SMap.erase m k else SMap.insertAt k v (SMap.erase m k)

/-- Unlist every key from `lo` up to, not including, `hi`. -/
def SMap.eraseRange {α : Type} (m : SMap α) (lo hi : Nat) : SMap α :=
  m.filter fun p => !(decide (lo ≤ p.1) && decide (p.1 < hi))

/-- The keys rise strictly. -/
def SMap.sorted {α : Type} : SMap α → Bool
  | [] => true
  | (k, _) :: t => t.all (fun p => decide (k < p.1)) && SMap.sorted t

/-- The canonical form: keys strictly rising, no entry equal to what an unlisted key reads as. -/
def SMap.wf {α : Type} [DecidableEq α] (d : Nat → α) (m : SMap α) : Bool :=
  m.sorted && m.all fun p => decide (p.2 ≠ d p.1)

end Sys2Proof
end

