-- ==== Sys2Proof/Machine/Regs.lean ====
section
/-! DEFINITION. The register address space: where each page lies, which register an address
names, what each register reads as after its page is reset, and the bit fields of a word. -/
namespace Sys2Proof

/-! ## Pages (R56, R57) -/

/-- Address of instance 0 of a block (R57). -/
def Blk.base : Blk → Nat
  | .sys => 0x000000 | .clk => 0x001000 | .tbs => 0x002000 | .pwr => 0x003000
  | .thm => 0x004000 | .evr => 0x005000 | .nvm => 0x006000 | .mbx => 0x007000
  | .sec => 0x008000 | .ary => 0x010000 | .exp => 0x011000 | .win => 0x012000
  | .trg => 0x013000 | .eng => 0x020000 | .pe => 0x080000 | .ing => 0x090000
  | .nrd => 0x091000 | .pxc => 0x092000 | .hdr => 0x093000 | .geo => 0x094000
  | .sta => 0x095000 | .vew => 0x096000 | .enc => 0x097000 | .dlv => 0x098000
  | .fst => 0x0A0000 | .hmp => 0x0A1000 | .ln => 0x0B0000 | .sp => 0x0C0000 | .hlp => 0x0C8000

/-- Bytes of a page (R56). -/
def Blk.size : Blk → Nat
  | .ln => 0x400
  | _ => 0x1000

/-- Instances of a block (R57). -/
def Blk.count : Blk → Nat
  | .eng => 96 | .pe => 8 | .ln => 44 | .sp => 8
  | _ => 1

/-- Block code of instance 0 (R57). -/
def Blk.code : Blk → Nat
  | .sys => 0x01 | .clk => 0x02 | .tbs => 0x03 | .pwr => 0x04 | .thm => 0x05 | .evr => 0x06
  | .nvm => 0x07 | .mbx => 0x08 | .sec => 0x09 | .ary => 0x10 | .exp => 0x11 | .win => 0x12
  | .trg => 0x13 | .eng => 0x20 | .pe => 0x80 | .ing => 0x90 | .nrd => 0x91 | .pxc => 0x92
  | .hdr => 0x93 | .geo => 0x94 | .sta => 0x95 | .vew => 0x96 | .enc => 0x97 | .dlv => 0x98
  | .fst => 0xA0 | .hmp => 0xA1 | .ln => 0xB0 | .sp => 0xE0 | .hlp => 0xE8

/-- The block's bit in `SYS.IRQ_GRP` (R57). -/
def Blk.group : Blk → Nat
  | .sys => 0 | .clk => 1 | .tbs => 2 | .pwr => 3 | .thm => 4 | .evr => 5 | .nvm => 6
  | .mbx => 7 | .sec => 8 | .ary => 9 | .exp => 10 | .win => 11 | .trg => 12 | .eng => 13
  | .pe => 14 | .ing => 15 | .nrd => 16 | .pxc => 17 | .hdr => 18 | .geo => 19 | .sta => 20
  | .vew => 21 | .enc => 22 | .dlv => 23 | .fst => 24 | .hmp => 25 | .ln => 26 | .sp => 27
  | .hlp => 28

/-- Pages that are enabled at all times (R63). -/
def Blk.alwaysOn : Blk → Bool
  | .sys | .clk | .tbs | .pwr | .thm | .evr | .nvm | .mbx | .sec => true
  | _ => false

def Page.blk : Page → Blk
  | .sys => .sys | .clk => .clk | .tbs => .tbs | .pwr => .pwr | .thm => .thm | .evr => .evr
  | .nvm => .nvm | .mbx => .mbx | .sec => .sec | .ary => .ary | .exp => .exp | .win => .win
  | .trg => .trg | .eng _ => .eng | .pe _ => .pe | .ing => .ing | .nrd => .nrd | .pxc => .pxc
  | .hdr => .hdr | .geo => .geo | .sta => .sta | .vew => .vew | .enc => .enc | .dlv => .dlv
  | .fst => .fst | .hmp => .hmp | .ln _ => .ln | .sp _ => .sp | .hlp => .hlp

def Page.inst : Page → Nat
  | .eng n => n | .pe n => n | .ln n => n | .sp n => n
  | _ => 0

def Page.base (p : Page) : Nat := Blk.base p.blk + Blk.size p.blk * p.inst
def Page.size (p : Page) : Nat := Blk.size p.blk
def Page.code (p : Page) : Nat := Blk.code p.blk + p.inst
def Page.group (p : Page) : Nat := Blk.group p.blk
def Page.alwaysOn (p : Page) : Bool := Blk.alwaysOn p.blk

/-- Every page of the map, in address order. -/
def allPages : List Page :=
  [.sys, .clk, .tbs, .pwr, .thm, .evr, .nvm, .mbx, .sec, .ary, .exp, .win, .trg] ++
  (List.finRange 96).map .eng ++ (List.finRange 8).map .pe ++
  [.ing, .nrd, .pxc, .hdr, .geo, .sta, .vew, .enc, .dlv, .fst, .hmp] ++
  (List.finRange 44).map .ln ++ (List.finRange 8).map .sp ++ [.hlp]

/-- What a 24-bit register address names (R55 to R60). -/
inductive Target where
  | page (p : Page) (off : Nat)
  | ctx (entry word : Nat)
  | queue (q word : Nat)
  | imem (e i : Nat)
  | outside
  deriving DecidableEq, Repr

/-- The single-instance page at a 4 KiB page number, where one lies there (R57). -/
def singlePage : Nat → Option Page
  | 0x00 => some .sys | 0x01 => some .clk | 0x02 => some .tbs | 0x03 => some .pwr
  | 0x04 => some .thm | 0x05 => some .evr | 0x06 => some .nvm | 0x07 => some .mbx
  | 0x08 => some .sec | 0x10 => some .ary | 0x11 => some .exp | 0x12 => some .win
  | 0x13 => some .trg | 0x90 => some .ing | 0x91 => some .nrd | 0x92 => some .pxc
  | 0x93 => some .hdr | 0x94 => some .geo | 0x95 => some .sta | 0x96 => some .vew
  | 0x97 => some .enc | 0x98 => some .dlv | 0xA0 => some .fst | 0xA1 => some .hmp
  | 0xC8 => some .hlp
  | _ => none

/-- Decode an address. Bits 1:0 are ignored (R55). (DESIGN CHOICE, log entry 110.) -/
def decodeAddr (a : Nat) : Target :=
  let a := a / 4 * 4
  if h : 0x020000 ≤ a ∧ a < 0x080000 then
    .page (.eng ⟨(a - 0x020000) / 0x1000, by omega⟩) (a % 0x1000)
  else if h : 0x080000 ≤ a ∧ a < 0x088000 then
    .page (.pe ⟨(a - 0x080000) / 0x1000, by omega⟩) (a % 0x1000)
  else if h : 0x0B0000 ≤ a ∧ a < 0x0BB000 then
    .page (.ln ⟨(a - 0x0B0000) / 0x400, by omega⟩) (a % 0x400)
  else if h : 0x0C0000 ≤ a ∧ a < 0x0C8000 then
    .page (.sp ⟨(a - 0x0C0000) / 0x1000, by omega⟩) (a % 0x1000)
  else if 0x100000 ≤ a ∧ a < 0x130000 then .ctx ((a - 0x100000) / 16) (a % 16 / 4)
  else if 0x140000 ≤ a ∧ a < 0x180000 then .queue ((a - 0x140000) / 32) (a % 32 / 4)
  else if 0x180000 ≤ a ∧ a < 0x1E0000 then
    .imem ((a - 0x180000) / 0x1000) ((a - 0x180000) % 0x1000 / 4)
  else match singlePage (a / 0x1000) with
    | some p => .page p (a % 0x1000)
    | none => .outside

/-! ## Bit fields (R11) -/

/-- Bits `hi` down to `lo` of a word, as a number. -/
def bitsOf (w : Word) (hi lo : Nat) : Nat := w.toNat / 2 ^ lo % 2 ^ (hi - lo + 1)

/-- A word with bits `hi` down to `lo` replaced by the low bits of `v`. -/
def setBits (w : Word) (hi lo v : Nat) : Word :=
  let k := hi - lo + 1
  BitVec.ofNat 32
    (w.toNat / 2 ^ (lo + k) * 2 ^ (lo + k) + v % 2 ^ k * 2 ^ lo + w.toNat % 2 ^ lo)

/-- A number read as a signed field of `k` bits. -/
def signed (k v : Nat) : Int := if v % 2 ^ k < 2 ^ (k - 1) then (v % 2 ^ k : Nat) else (v % 2 ^ k : Nat) - (2 ^ k : Nat)

/-- A signed number as a field of `k` bits. -/
def unsigned (k : Nat) (v : Int) : Nat := (v % (2 ^ k : Nat)).toNat

/-- A number held within bounds. -/
def clampInt (lo hi v : Int) : Int := max lo (min hi v)

/-! ## Fields -/

/-- Byte address of copy `k` of a field in instance `i` of its block. -/
def Fld.addr (f : Fld) (i k : Nat) : Nat := Blk.base f.blk + Blk.size f.blk * i + f.off + f.stride * k

/-- The copy of the field that lies at a page offset, where one does. -/
def Fld.copyAt (f : Fld) (off : Nat) : Option Nat :=
  if f.off = off then some 0
  else if f.stride = 0 ∨ off < f.off then none
  else if (off - f.off) % f.stride = 0 ∧ (off - f.off) / f.stride < f.cnt then
    some ((off - f.off) / f.stride)
  else none

/-- Fields common to every page, and those of the page's own block, that lie at an offset. -/
def fieldsAt (b : Blk) (off : Nat) : List Fld :=
  if off < 0x40 then
    headerFields.filter (fun f => f.off = off) ++
      (if off = 0x10 then (Blk.fields b).filter (fun f => f.off = off) else [])
  else (Blk.fields b).filter fun f => (f.copyAt off).isSome

/-- Lanes that only receive, and lanes that only transmit (R46). -/
def laneTx (l : Nat) : Bool := l < 16 || 36 ≤ l
def laneRx (l : Nat) : Bool := 16 ≤ l && l < 36

/-- Transmit and receive fields of a lane page (R458). (DEDUCED, log entry 33.) -/
def lnTxFields : List Fld :=
  [LN_CFG_TX_INV, LN_SKIP_CFG_SKIP_INT, LN_TX_FIR_FIXED, LN_TX_FIR_MAIN, LN_TX_FIR_POST, LN_TX_FIR_PRE, LN_TX_SWING_AMP,
   LN_PWR_CFG_SLEEP_US, LN_STAT_TX_SLEEP]
def lnRxFields : List Fld :=
  [LN_CFG_RX_INV, LN_CFG_PRECODE_REQ, LN_RX_CFG_DRIFT_MAX, LN_RX_CFG_STEP_MAX, LN_RX_CFG_TD_MIN, LN_RX_CFG_ADAPT_EN,
   LN_SYNC_CTRL_SLIP, LN_MARGIN_CFG_MIN_W, LN_MARGIN_CFG_MIN_H, LN_STAT_RX_SLEEP, LN_STAT_BLOCK_LOCK, LN_STAT_SIGNAL,
   LN_RX_EQ_VGA, LN_RX_EQ_PHASE, LN_RX_EQ_CTLE, LN_DFE, LN_EYE_W, LN_EYE_H, LN_SKEW_BLOCKS, LN_EB_FILL_BITS,
   LN_IRQ_RAW_ADAPT_CLAMP, LN_IRQ_RAW_EB_ERR, LN_IRQ_RAW_MARGIN_LOW, LN_FEC_CORR, LN_FEC_UNCORR, LN_HDR_ERR, LN_EB_ERR,
   LN_SKIP_DEL, LN_SKIP_INS, LN_SKIP_POSTPONED, LN_LOS, LN_ADAPT_CLAMP, LN_MARGIN_CHECKS]

/-- The fields of a page's register: a lane page has those of its own direction alone (R458). -/
def Page.fieldsAt (p : Page) (off : Nat) : List Fld :=
  let fs := Sys2Proof.fieldsAt p.blk off
  if p.blk = .ln then fs.filter fun f => !(if laneRx p.inst then lnTxFields else lnRxFields).contains f else fs

/-- The four registers whose profile segment 0 resets to a slope of its own (R482). -/
def isSeg0 (b : Blk) (off : Nat) : Bool := b = .clk && 0x300 ≤ off && off < 0x400 && off % 64 = 0

/-- The value a page's register has after the page is reset (R20, the register tables; per-page
values: R61, R63, R458). (DEDUCED, log entry 33.) -/
def Page.resetAt (p : Page) (off : Nat) : Word :=
  if off = 0x00 then BitVec.ofNat 32 (p.code * 256 + 1)
  else if off = 0x08 then (if p.alwaysOn then 1#32 else 0#32)
  else if isSeg0 p.blk off then 0x03E8FFFF#32
  else if p.blk = .ln ∧ (off = 0x40 ∨ off = 0x100) then
    let rate : Nat := if p.inst < 20 then 4 else 2
    if off = 0x40 then BitVec.ofNat 32 rate
    else BitVec.ofNat 32 (rate + if laneRx p.inst then 0x200 else 0)
  else (p.fieldsAt off).foldl (fun w f => setBits w f.hi f.lo f.rst) 0#32

/-- A word of a tile context after reset: E0 of 7,500 cycles, end-aligned, in window group 0
(R134, R137). -/
def ctxResetWord : Nat → Word
  | 0 => 0x1D4C#32
  | 1 => 1#32
  | 2 => 1#32
  | _ => 0#32

/-- A word of a queue-table entry after reset: BUF_CAP 16, WEIGHT 16 (R407). -/
def queueResetWord : Nat → Word
  | 0 => 0x00101000#32
  | _ => 0#32

/-- What a register that nothing has written reads as. (DESIGN CHOICE, log entry 110.) -/
def resetWord (a : Nat) : Word :=
  match decodeAddr a with
  | .page p off => p.resetAt off
  | .ctx _ w => ctxResetWord w
  | .queue _ w => queueResetWord w
  | _ => 0#32

/-- The field a value of which may be written: is it legal (R15, R583)? -/
def Legal.ok : Legal → Nat → Bool
  | .any, _ => true
  | .codes m, v => decide (v ≤ m)
  | .rng lo hi, v => decide (lo ≤ v) && decide (v ≤ hi)
  | .only l, v => l.contains v

/-- The reason of R65 for an illegal write: 2 reserved code, 8 range. (DEDUCED, log entry 34.) -/
def Legal.reason : Legal → Nat
  | .codes _ => 2
  | _ => 8

/-- The commit reason of R67 for an illegal latched value: 0x01 reserved code, 0x02 range. (DEDUCED, log entry 34.) -/
def Legal.commitReason : Legal → Nat
  | .codes _ => 1
  | _ => 2

end Sys2Proof
end

