-- ==== Sys2Proof/Machine/State.lean ====
section
/-! DEFINITION. The state of the block, as plain data, and the state after reset. -/
namespace Sys2Proof.Machine

/-! ## Event records (R509 to R517) -/

/-- A stamp: time of day, tick count and epoch (R39). -/
structure Stamp where
  sec : Nat := 0
  ns : Nat := 0
  ticks : Nat := 0
  epoch : Nat := 0
  deriving DecidableEq, Repr

/-- An event a block presents to the recorder, with the engine cycle at which it arrives. -/
structure Ev where
  code : Nat
  sev : Nat
  src : Nat
  payload : List Byte
  inferred : Bool := false
  cyc : Nat := 0
  deriving DecidableEq, Repr

/-- A record the recorder has accepted (R509). -/
structure Rec where
  code : Nat
  sev : Nat
  src : Nat
  payload : List Byte
  seq : Nat
  stamp : Stamp
  rep : Nat := 0
  coalesced : Bool := false
  stepped : Bool := false
  inferred : Bool := false
  deriving DecidableEq, Repr

/-- A page image of the buffer, or a programmed log page: records of one severity (R518). -/
structure PageImg where
  sev : Nat := 0
  recs : List Rec := []
  sealed : Bool := false
  deriving DecidableEq, Repr

/-- The last record of a source: what a repeat is compared with (R514). -/
structure LastRec where
  code : Nat := 0
  payload : List Byte := []
  seq : Nat := 0
  cyc : Nat := 0
  valid : Bool := false
  deriving DecidableEq, Repr

/-- The drops of a source since its last DROPPED record (R516). -/
structure DropAcc where
  n : Nat := 0
  first : Nat := 0
  last : Nat := 0
  code : Nat := 0
  sev : Nat := 0
  deriving DecidableEq, Repr

/-- A source's token bucket: what has been taken and not refilled, and when that stood (R516). -/
structure Bucket where
  taken : Nat := 0
  cyc : Nat := 0
  deriving DecidableEq, Repr

/-- The event recorder: always-on buffer and counter, and the event log in MRAM. (DESIGN CHOICE, log entry 2.) -/
structure Recorder where
  nextSeq : Nat := 0
  images : List PageImg := []
  log : SMap PageImg := []
  buckets : SMap Bucket := []
  last : SMap LastRec := []
  drops : SMap DropAcc := []
  frozen : Bool := false
  nonce : Option (List Byte) := none
  deriving DecidableEq, Repr

/-- One-time storage of the SEC block (R528): the operator key, once provisioned. -/
structure Vault where
  key : Option (List Byte) := none
  deriving DecidableEq, Repr

/-! ## Control plane -/

/-- Why an accepted commit is held (R35, R51). -/
inductive Hold where
  | none | drain | demand
  deriving DecidableEq, Repr

/-- A page commit, or the global one, between its key and its end (R66 to R71). -/
structure Commit where
  latched : SMap Word := []
  accept : Nat := 0
  hold : Hold := .none
  deriving DecidableEq, Repr

/-- Where a global commit stands (R70). -/
inductive GState where
  | idle | checking | accepted | pending
  deriving DecidableEq, Repr

structure CommitSt where
  pages : SMap Commit := []
  gstate : GState := .idle
  glob : Commit := {}
  /-- Pages with an accepted commit, in the order of acceptance. -/
  accepted : List Page := []
  /-- Pages whose key is held: a second key in CHECKING, a key behind a global check, a key behind
  XLATE_PEND, and EXP's behind COPY_BUSY; and a second global key in the global check. -/
  rekey : List Page := []
  behindGlobal : List Page := []
  behindXlate : List Page := []
  behindCopy : Bool := false
  gRekey : Bool := false
  /-- A global key is held until no check runs and COPY_BUSY is 0 (R70). -/
  gHeld : Bool := false
  /-- Pages disabled that still process, until the next frame boundary (R62). -/
  stopping : List Page := []
  /-- Basic registers written and awaiting translation, by address (R72). -/
  basic : List Nat := []
  /-- BASIC_MODE names another readout mode than the one last translated (R199). -/
  modeNew : Bool := false
  /-- TRG has changed what the mode selected takes of it (R588). -/
  readNew : Bool := false
  /-- Block codes of pages in soft reset (R62). -/
  resetting : List Nat := []
  deriving DecidableEq, Repr

/-- What the last read from a port returned, newest read last. -/
structure PortOut where
  inband : List Word := []
  spi : List Word := []
  i2c : List Word := []
  fw : List Word := []
  /-- Bytes driven on SPI_MISO by the last read: wait bytes, markers and data (R80). -/
  miso : List Byte := []
  /-- The I²C target acknowledged the address of the last transaction (R81). -/
  i2cAck : Bool := false
  deriving DecidableEq, Repr

/-- Firmware and recovery loader (R3, R546). -/
inductive FwRun where
  | off | rom | running | loader
  deriving DecidableEq, Repr

/-- A focus scan in progress (R348): the pin engine and what firmware read at its start. -/
structure FocusSt where
  pe : Nat
  rect : Nat × Nat × Nat × Nat
  coarse : Int
  fine : Int
  lo : Int
  hi : Int
  /-- 0 taking the start position, 1 coarse scan, 2 fine scan, 3 to best − COARSE, 4 to best. -/
  stage : Nat := 0
  /-- Position moved to, the position last reported, and whether its word is awaited. -/
  goal : Int := 0
  pos : Int := 0
  moving : Bool := true
  /-- Engine cycle at which that word arrived. -/
  since : Nat := 0
  /-- Last position of the scan; the best position so far, with its score. -/
  last : Int := 0
  best : Option (Int × Rat) := none
  deriving DecidableEq, Repr

/-- A PRESET_LOAD in progress (R531): what firmware has disabled, and whether the pairs are written and the
global commit is awaited. -/
structure LoadSt where
  slot : Nat
  pages : List Page := []
  outs : List Nat := []
  committed : Bool := false
  deriving DecidableEq, Repr

structure MbxSt where
  load : Option LoadSt := none
  focus : Option FocusSt := none
  deriving DecidableEq, Repr

/-! ## Time and clocks -/

structure TimeSt where
  tick : Nat := 0
  sec : Nat := 0
  ns : Nat := 0
  frac : Nat := 0
  epoch : Nat := 0
  todSet : Bool := false
  /-- RATE and the integral i of R476, in units of 2^-38 of 0.001 ppm, and of 2^-38 ns. -/
  rateU : Int := 0
  iU : Int := 0
  nOver : Nat := 0
  /-- Engine cycle of the last accepted edge (R475), and accepted intervals in a row. -/
  ppsLast : Option Nat := none
  /-- The rejected edge after it that is the new candidate (R475). -/
  ppsCand : Option Nat := none
  ppsRun : Nat := 0
  ppsValid : Bool := false
  /-- A PPS has been valid since reset. -/
  ppsEver : Bool := false
  /-- TIME_STEP waiting for the next tick, or for the aligned PPS (R479). -/
  stepNow : Option (Nat × Nat) := none
  stepPps : Option Nat := none
  deriving DecidableEq, Repr

/-- One clock output (R468 to R471). Frequencies in units of 10^-10 Hz. -/
structure OutSt where
  running : Bool := false
  lock : Bool := false
  gated : Bool := false
  ramping : Bool := false
  relockFail : Bool := false
  fAct : Nat := 0
  fRamp : Nat := 0
  fOld : Nat := 0
  fNew : Nat := 0
  seg : Nat := 0
  /-- Cycle at which the present segment of the ramp began (R469). -/
  segAt : Nat := 0
  guardSeen : Bool := false
  deriving DecidableEq, Repr

structure ClkSt where
  /-- R466: 0 ACQUIRE, 1 LOCKED, 2 COASTING, 3 QUALIFY, 4 LOST. -/
  state : Nat := 0
  refOk : Bool := false
  xtalOk : Bool := false
  /-- The timing PLL has locked since level ON (R587). -/
  everLocked : Bool := false
  outs : SMap OutSt := []
  /-- PHASE_STEP under way: offset left in units of 10^-15 s; and one that waits to begin. -/
  slewing : Bool := false
  slewLeft : Int := 0
  slewReq : Option Int := none
  memLock : Bool := false
  laneLock : List Nat := []
  deriving DecidableEq, Repr

/-! ## Power, thermal, boot -/

/-- What the rail sequencer is doing (R485 to R487). -/
inductive Seq where
  | steady                 -- at a level
  | raising                -- toward ON
  | lowering (toOff : Bool)
  deriving DecidableEq, Repr

/-- What the sequencer waits for before the next rise to ON. -/
inductive RiseOn where
  | none
  | resetN                -- the next rise of RESET_N (R486, R503)
  | resetFallRise         -- RESET_N must first fall (R503)
  | released              -- nothing but the end of the lowering
  | railRetry             -- R487
  | fullReset             -- 1 ms after the lowering (R548)
  | pfail                 -- R506
  | auto                  -- R503, AUTO_RESTART
  | stuck                 -- three faults (R487)
  deriving DecidableEq, Repr

/-- The always-on domain (R27, R488) and the pins it watches. (DESIGN CHOICE, log entry 3.) -/
structure AonSt where
  vaon : Bool := true
  resetN : Bool := true
  pfailN : Bool := true
  strapBoot : Nat := 0
  strapI2c : Nat := 0
  seq : Seq := .steady
  level : Nat := 2
  en : Nat := 0x3F
  pg : Nat := 0x3F
  waitFor : RiseOn := .none
  faults : Nat := 0
  warnPix : Nat := 0x58
  warnLog : Nat := 0x68
  hyst : Nat := 3
  cause : Nat := 1
  vaonLost : Bool := true
  /-- Highest sequence number the log held at power-on (R521). -/
  logTop : Option Nat := none
  pfailSeen : Bool := false
  shutPending : Bool := false
  /-- A SHUTDOWN record is due and not yet programmed (R501, R504). -/
  shutDue : Bool := false
  flushing : Bool := false
  /-- Successive 10 ms readings of both cutoff sensors below the restart threshold (R503). -/
  coolFor : Nat := 0
  deriving DecidableEq, Repr

/-- A PMBus transaction that waits or runs: command code, value written, and its failures so far. -/
structure PmbTx where
  code : Nat
  value : Nat := 0
  fails : Nat := 0
  deriving DecidableEq, Repr

structure PwrSt where
  /-- VCORE as last commanded, and its ceiling, in mV. -/
  vSet : Nat := 750
  vCeil : Nat := 850
  /-- PMBus transactions, the one under way first, and the words last read (R489). -/
  pmbQ : List PmbTx := []
  /-- The bytes on the bus of the last transaction that succeeded. -/
  bus : List Byte := []
  /-- The transactions of R490 have been begun since VCORE was last removed. -/
  pmbBegun : Bool := false
  vMode : Nat := 0
  vOut : Nat := 0
  iOut : Nat := 0
  /-- The governor makes no change until a transaction succeeds (R491). -/
  pmbStuck : Bool := false
  fixedByFault : Bool := false
  /-- r_gait; the last P_est values, newest first; updates at R_MAX with p_avg above the cap (R495). -/
  rGait : Rat := 0
  pAvg : List Nat := []
  atMax : Nat := 0
  /-- Lowering of VCORE waits for the first frame of this generation to leave (R52). -/
  lowerWait : Option Nat := none
  /-- Monitor readings have been taken wholly after the last step (R493). -/
  settled : Bool := true
  /-- The pixel rails that are out of regulation, and the suspension of shutter control (R115). -/
  boostOut : Bool := false
  tglOut : Bool := false
  suspended : Bool := false
  deriving DecidableEq, Repr

/-- What a thermal group counts: samples in a row at WARN or above, below WARN − HYST, and at SHUT or
above (R500). -/
structure Dwell where
  up : Nat := 0
  dn : Nat := 0
  sh : Nat := 0
  deriving DecidableEq, Repr

structure ThmSt where
  /-- The last samples of all sensors, newest first (R497). -/
  hist : List (List Int) := []
  pix : Dwell := {}
  log : Dwell := {}
  /-- Throttle value in force, its own row extension, and ms of steps in a row with value 0. -/
  rAct : Nat := 0
  extThr : Nat := 0
  zeroMs : Nat := 0
  deriving DecidableEq, Repr

/-- A firmware image slot (R532). -/
structure FwImg where
  data : SMap Byte := []
  len : Nat := 0
  /-- The signature its descriptor holds. -/
  sig : List Byte := []
  valid : Bool := false
  shipped : Bool := false
  deriving DecidableEq, Repr

/-- Boot control, as MRAM stores it (R534, R544). (DESIGN CHOICE, log entry 3.) -/
structure BootCtl where
  conf : Bool := false
  trialPending : Bool := false
  trialSlot : Bool := false
  onTrial : Bool := false
  bootSlot : Nat := 0
  bootPresetEn : Bool := false
  bootAutostart : Bool := false
  deriving DecidableEq, Repr

/-- A copy in the out-of-place region, of boot control or of a preset slot: its write generation and the MRAM pages
that hold it (R529, R530). (DESIGN CHOICE, log entry 122.) -/
structure NvmCopy where
  gen : Nat := 0
  pages : List Nat := []
  boot : Option BootCtl := none
  slot : Nat := 0
  image : List (Nat × Word) := []
  deriving DecidableEq, Repr

/-- MRAM but the event log: images, boot control and presets (R529 to R534). (DESIGN CHOICE, log entry 3.) -/
structure NvmSt where
  imgA : FwImg := { valid := true, shipped := true }
  imgB : FwImg := {}
  svnMin : Nat := 0
  conf : Bool := false
  trialPending : Bool := false
  trialSlot : Bool := false
  /-- A trial image has been started and not confirmed (R534). -/
  onTrial : Bool := false
  bootSlot : Nat := 0
  bootPresetEn : Bool := false
  bootAutostart : Bool := false
  /-- Preset slots that hold an image: address and value pairs. -/
  presets : SMap (Option (List (Nat × Word))) := []
  /-- Slots that have been saved since the unit was made; the others hold the Frasanex defaults (R25). -/
  savedSlots : List Nat := []
  /-- Copies in the out-of-place region that hold their pages, newest first, and the next write generation. -/
  copies : List NvmCopy := []
  gen : Nat := 0
  /-- Log pages retired. -/
  retired : List Nat := []
  deriving DecidableEq, Repr

/-- Firmware boot in progress and the running image (R541 to R547). (DESIGN CHOICE, log entry 3.) -/
structure BootSt where
  run : FwRun := .off
  image : Bool := false
  trial : Bool := false
  xfer : Option (Bool × Nat) := none
  /-- The scan of MRAM has ended; the boot ROM has chosen and verified an image. -/
  scanned : Bool := false
  verified : Bool := false
  /-- A firmware restart is under way, with its cause (R548), and the slot FW_ACTIVATE named. -/
  restart : Option Nat := none
  activate : Option Bool := none
  /-- The boot in progress follows a warm reset (R550). -/
  warm : Bool := false
  onAt : Nat := 0
  /-- A log page has been overwritten since boot (R522). -/
  logFull : Bool := false
  saving : Bool := false
  keyBusy : Option (List Byte) := none
  keyWords : SMap Word := []
  deriving DecidableEq, Repr

/-- The boundary-scan TAP (R552). -/
inductive Tap where
  | bypass | extest | sample | clamp | highz
  deriving DecidableEq, Repr

structure TapSt where
  /-- The 4-bit instruction register. -/
  ir : BitVec 4 := 0xF#4
  /-- Boundary-scan chain, in the order of its description file: what was last shifted in and updated, and
  the pins as last sampled. -/
  chain : List Bool := []
  sample : List Bool := []
  bypassBit : Bool := false
  deriving DecidableEq, Repr

/-- What a source hands to the delivery block (R411). Streams are named by the key that delivery
gave them at their FRAME_START. -/
inductive PktReq where
  | irq
  | time (reason : Nat) (epoch : Option Nat)
  | peData (pe qid : Nat) (words : List Word)
  | frameStart (key : Nat)
  /-- Descriptor, data bytes before padding, and the lines that end with this packet. -/
  | data (key : Nat) (desc body : List Byte) (lines : Nat)
  | frameEnd (key : Nat)
  /-- A tile-record or histogram packet: credit or drop. -/
  | stat (qid typ tag aux : Nat) (payload : List Byte)
  deriving DecidableEq, Repr

/-! ## Delivery and host link (R398 to R427) -/

/-- Classes of packet that delivery treats alike. -/
inductive PKind where
  | start | data | fin | control | drop | held
  deriving DecidableEq, Repr

/-- A packet that waits for its grant. -/
structure Pkt where
  kind : PKind
  typ : Nat
  payload : List Byte := []
  tag : Nat := 0
  aux : Nat := 0
  replay : Bool := false
  since : Nat := 0
  /-- A TIME packet takes its payload at the grant: reason and epoch before the step. -/
  time : Option (Nat × Option Nat) := none
  /-- Bytes of the request space its grant frees (R419). -/
  frees : Nat := 0
  deriving DecidableEq, Repr

/-- The packets of one frame, or of one other source, that wait together in a queue. -/
structure PGrp where
  key : Nat := 0
  /-- The frame whose packets these are. -/
  frame : Option Nat := none
  pkts : List Pkt := []
  closed : Bool := true
  deriving DecidableEq, Repr

/-- A deficit round robin (R279): the member in turn, whether its turn has begun, deficits. -/
structure Drr where
  cur : Nat := 0
  inTurn : Bool := false
  defs : SMap Int := []
  deriving DecidableEq, Repr

structure QueueSt where
  grps : List PGrp := []
  urgentUsed : Bool := false
  deriving DecidableEq, Repr

/-- A trigger: sequence number, T, window in ticks and cause (R383, R384). -/
structure Trig where
  seq : Nat
  t : Nat
  lo : Nat
  hi : Nat
  cause : Nat
  deriving DecidableEq, Repr

/-- What is offered to the history writer as a chunk (R377). -/
structure ChunkReq where
  kind : Nat
  stream : Nat := 0xFF
  member : Nat := 0
  flags : Nat := 0
  frame : Nat := 0
  stamp : Stamp := {}
  gen : Nat := 0
  fflags : Nat := 0
  payload : List Byte := []
  /-- The frame, and the FRAME_START payload and lines with which it is replayed. -/
  u : Option Nat := none
  start : List Byte := []
  pass : Nat := 0
  lines : Nat := 0
  ingest : List Byte := []
  /-- What a trigger mark records. -/
  mark : Option Trig := none
  deriving DecidableEq, Repr

/-- A streaming source's frame on its queue. -/
structure StreamSt where
  frame : Nat := 0
  q : Nat := 0
  /-- FRAME_START payload, but for DROPPED; TAGWORD and TICK_LO of the frame. -/
  start : List Byte := []
  tag : Nat := 0
  aux : Nat := 0
  /-- Flags the frame has on this stream alone. -/
  flags : Nat := 0
  /-- Unbound or dropped whole; truncated. -/
  dead : Bool := false
  begun : Bool := false
  trunc : Bool := false
  pkts : Nat := 0
  dropPkts : Nat := 0
  bytes : Nat := 0
  lines : Nat := 0
  /-- The history chunk of a codestream, which is offered with the flags of its frame's end (R406). -/
  chunk : Option ChunkReq := none
  deriving DecidableEq, Repr

/-- (DESIGN CHOICE, log entry 2.) -/
structure DlvSt where
  queues : SMap QueueSt := []
  /-- Round robins of P1, P2 and P3. -/
  drr1 : Drr := {}
  drr2 : Drr := {}
  drr3 : Drr := {}
  /-- Urgent grant under way: queue and bytes left. -/
  urgent : Option (Nat × Nat) := none
  /-- A packet is on the link. -/
  busy : Bool := false
  streams : SMap StreamSt := []
  nextStream : Nat := 1
  /-- Waiting IRQ and TIME packets whose queue is not open. -/
  irqW : Option Pkt := none
  timeW : List Pkt := []
  /-- Register responses with their queues, in request order, but the one in its queue. -/
  resps : List (Nat × Pkt) := []
  /-- The last packet granted. -/
  last : List Byte := []
  deriving DecidableEq, Repr

structure HlpSt where
  /-- The host stream, from the next packet on; the packet layer searches for a header (R400). -/
  strm : List Byte := []
  search : Bool := false
  /-- Request bytes held (R419), and when uncorrectable codewords came of late (R422). -/
  held : Nat := 0
  unc : List Nat := []
  deriving DecidableEq, Repr

/-! ## Frames -/

/-- A frame in flight: of the own array, or of a satellite's virtual sensor (R34, R39, R403). -/
structure Frame where
  member : Nat := 0
  /-- FRAME_SEQ or FRAME_ID. -/
  fid : Nat := 0
  gen : Nat := 0
  stamp : Stamp := {}
  /-- Engine cycle and number of the start tick, own array. -/
  start : Nat := 0
  k : Nat := 0
  /-- Passes, rows per pass, ADC mode, schedule, context bank and CTX_SEQ. -/
  m : Nat := 1
  rows : Nat := 0
  tenBit : Bool := false
  sched : Nat := 0
  bank : Nat := 0
  ctxSeq : Nat := 0
  /-- The words of that bank as they stood at its start tick, by address (R34). -/
  ctxs : SMap Word := []
  xs : List Nat := []
  /-- FFLAGS (R406) and the ingest status (R270). -/
  flags : Nat := 0
  ingest : Nat := 0
  linesValid : Nat := 0
  linesSent : Nat := 0
  /-- Satellite geometry and header fields (R263). -/
  w : Nat := 0
  h : Nat := 0
  bits : Nat := 0
  cfa : Nat := 0
  pedestal : Nat := 0
  /-- DWRR weight of the virtual sensor, as its other fields are (R268). -/
  weight : Nat := 0
  expUs : Nat := 0
  satTime : Nat := 0
  /-- Event types already written for this frame. -/
  once : List Nat := []
  /-- Recorded by the raw burst (R227), and passed to the pipeline (R229). -/
  burst : Bool := false
  pipe : Bool := true
  /-- Rows are still being read or received. -/
  reading : Bool := true
  /-- Strip mode: the temporal filter is off for the whole frame (R572), or from a strip on (R573). -/
  stripRateOff : Bool := false
  fastFrom : Option Nat := none
  deriving DecidableEq, Repr

/-! ## Array, exposures, readout engines -/

/-- Where an armed exposure stands (R128, R129, R178). -/
inductive EvSt where
  | armed
  | running (rst : Nat)
  | held (rst : Nat)
  | done
  deriving DecidableEq, Repr

/-- An event of the shutter unit, with all it copied from C when it was armed (R176). -/
structure ShutEv where
  sub : Nat
  /-- Number of the start tick whose frame reads it; none while it waits for a trigger edge. -/
  frame : Option Nat
  /-- Trigger line of base TRIG (R190). -/
  line : Option Nat := none
  align : Nat := 0
  offset : Nat := 0
  slot : Nat := 0
  dur : Nat := 0
  gain : Nat := 0
  cg : Bool := false
  hold : Bool := false
  clamped : Bool := false
  /-- A strip exposure that a start tick has passed: it re-arms no more (R223). -/
  lapsed : Bool := false
  /-- Placed already: an event armed while no start tick could be predicted is not (R176). -/
  placed : Bool := true
  /-- RST fall time of a trigger event (R190). -/
  startAt : Option Nat := none
  /-- Strip number within its frame, and tick count of its TRT (R225). -/
  strip : Nat := 0
  trt : Nat := 0
  st : EvSt := .armed
  deriving DecidableEq, Repr

/-- A tile: its events, its stored exposure and its unread rows (R104, R105, R177). -/
structure TileSt where
  events : List ShutEv := []
  /-- Bit y: row y of the tile awaits read; and those to be marked OVERWRITTEN (R105). -/
  unread : Nat := 0
  ovw : Nat := 0
  /-- Cycle at which the row strobed last is converted. -/
  convAt : Nat := 0
  lastTx : Option Nat := none
  /-- The stored exposure: sub-exposure, actual duration if held, strip number and trigger tick. -/
  dAct : Option Nat := none
  strip : Nat := 0
  trt : Nat := 0
  /-- Cycle at which the stored exposure began. -/
  began : Nat := 0
  /-- Conversion-gain switch (R106). -/
  cgs : Bool := false
  deriving DecidableEq, Repr

/-- Why an engine is stalled. -/
inductive Stall where
  | none
  | wait (cond arg issue tick : Nat)
  | pull (par : Bool)
  | push (v : Word)
  | strobe (top bot : Bool) (incT incB : Int)
  | shg (bot : Bool) (word : Word) (issue : Nat)
  | sync (grp issue : Nat)
  deriving DecidableEq, Repr

/-- An entry of the context FIFO: tile row and the four context words. -/
structure CtxEntry where
  ty : Nat
  ws : List Word
  deriving DecidableEq, Repr

/-- One sub-chain with its latches (R183, R184). Words nearest the end they enter come first. -/
structure Chain where
  shift : List Word := List.replicate 32 0#32
  hold : Option (List Word) := none
  drv : List Word := List.replicate 32 0#32
  deriving DecidableEq, Repr

/-- A readout engine (R157, R197). (DESIGN CHOICE, log entry 2.) -/
structure EngSt where
  state : Nat := 0
  pc : Nat := 0
  /-- The addresses of the last two instructions completed, the later first (R580). -/
  past : List Nat := []
  x : Nat := 0
  y : Nat := 0
  w : Nat := 0
  rt : Nat := 0
  rb : Nat := 0
  t : Nat := 0
  p : Nat := 0
  tag : Nat := 0
  z : Bool := false
  stale : Bool := false
  drop : Bool := false
  first : Bool := false
  /-- Context register C and the tile row its entry carried. -/
  c : List Word := [0#32, 0#32, 0#32, 0#32]
  cTy : Nat := 0
  ctxF : List CtxEntry := []
  parF : List Word := []
  outF : List Word := []
  /-- The sweep under way: bank, next tile row, entries left, and whether it requests (R172). -/
  swBank : Nat := 0
  swNext : Nat := 0
  swLeft : Nat := 0
  swFill : Bool := false
  top : Chain := {}
  bot : Chain := {}
  /-- A word has been shifted since the last LATCH; the chain is dirty (R186). -/
  shifted : Bool := false
  dirty : Bool := false
  /-- Pending trigger lines, and the cycle of the edge of each (R190). -/
  trig : Nat := 0
  trts : SMap Nat := []
  wrapTop : Nat := 0
  wrapBot : Nat := 0
  pendWrap : Option (Nat × Nat) := none
  stall : Stall := .none
  /-- In the idle cycles of DELAY; the target of the jump that precedes them. -/
  idle : Bool := false
  jump : Option Nat := none
  stepping : Bool := false
  /-- Start tick that the program's present frame began with (R171). -/
  tickSeen : Nat := 0
  /-- Cycle from which the next strobe of a port may fall in strip mode (R221). -/
  strobeFrom : Nat := 0
  lastT : Option Nat := none
  lastB : Option Nat := none
  deriving DecidableEq, Repr

/-- One stripe's row as strobed: what its line segment header carries (R188). -/
structure Strobe where
  stripe : Nat
  row : Nat
  pass : Nat
  tag : Nat
  drv : List Word
  dAct : Option Nat := none
  ovw : Bool := false
  strip : Nat := 0
  trt : Nat := 0
  began : Nat := 0
  /-- Duration as programmed, conversion gain and gain code latched at the tile's TX (R131), and the
  sub-exposures that the tile takes in the frame. -/
  dur : Nat := 0
  cg : Bool := false
  gain : Nat := 0
  subs : Nat := 0
  deriving DecidableEq, Repr

/-- The strobes of one bank at one row boundary, awaiting their conversion. -/
structure StrobeRow where
  frame : Nat
  bank : Nat
  segs : List Strobe
  deriving DecidableEq, Repr

/-- A stripe's row in the skid buffer: the strobe and its 128 output codes (R43, R117). -/
structure Seg where
  frame : Nat
  bank : Nat
  hd : Strobe
  codes : List Nat
  deriving DecidableEq, Repr

/-- A row of a bank in the skid buffer. -/
structure SkidRow where
  segs : List Seg
  deriving DecidableEq, Repr

/-- The frame schedule, the row clock and the array front end. (DESIGN CHOICE, log entry 2.) -/
structure ArySt where
  /-- Start ticks so far, and the cycles of the last one and of the schedule's anchor (R201). -/
  k : Nat := 0
  lastTick : Nat := 0
  anchor : Nat := 0
  period : Nat := 0
  /-- The frame of the first start tick, which offers no boundary (R141). -/
  armOnly : Bool := false
  /-- The frame being read, by its key in the frame table, and its row clock (R163). -/
  cur : Option Nat := none
  pass : Nat := 0
  offered : Nat := 0
  passB : List Nat := []
  lastB : Nat := 0
  rowPer : Nat := 300
  /-- The frame's last boundary has been offered, or the strip frame has ended. -/
  complete : Bool := false
  /-- START written at this cycle; LINE start: TRT of the edge (R200). -/
  startAt : Nat := 0
  startTrt : Option Nat := none
  /-- TOD start: the cycle of T_a, once it has occurred; it may lie before the device's first (R200, R480). -/
  startTa : Option Int := none
  /-- A held start request: its earliest tick (R218). -/
  request : Option Nat := none
  skipped : Bool := false
  /-- Flags and once-only events of frames not begun yet, by start tick number. -/
  preFlags : SMap Nat := []
  preOnce : SMap (List Nat) := []
  /-- Strips begun and read in the strip frame (R225). -/
  stripsBegun : Nat := 0
  stripsRead : Nat := 0
  /-- An interval between strip pulses below 1,500 cycles came in this frame (R572). -/
  stripFast : Bool := false
  stripLast : Option Nat := none
  /-- Dark-row masks, and whether an active row was strobed, by (pass, bank, stripe) (R124). -/
  dark : SMap (Nat × Bool) := []
  /-- Pixel bucket in units of pixels × T_row, and the cycle it was last brought up (R207). -/
  bucket : Nat := 0
  bucketAt : Nat := 0
  /-- Column offsets in 1/16 LSB of 12-bit, by ADC; the next preamble takes m itself (R119). -/
  ofs : SMap Rat := []
  fresh : Bool := true
  freshUsed : Bool := false
  waiting : List StrobeRow := []
  skidT : List SkidRow := []
  skidB : List SkidRow := []
  pressure : Bool := false
  /-- Engine cycle at which satellites were last held (R43). -/
  heldAt : Nat := 0
  /-- Round robin of the satellites at ingest (R279). -/
  satDrr : Drr := {}
  tiles : SMap TileSt := []
  /-- The bank and CTX_SEQ that governed the exposures read next (R140, R146). -/
  ctxBank : Nat := 0
  ctxSeq : Nat := 0
  /-- NSUB and the slot lengths in force at the last start tick (R176). -/
  nsub : Option Nat := none
  slots : List Nat := []
  /-- Start tick number of the frame whose last row was read last (R152). -/
  lastRead : Option Nat := none
  /-- Frames without a committed iteration of the auto-exposure loop; the frame that the last iteration was computed
  from (R152, R153). -/
  aeIdle : Nat := 0
  aeFrom : Option Nat := none
  /-- The set of the previous global iteration: DUR0, CG and gain codes (R151). -/
  aeSet : Option (Nat × Nat × Nat) := none
  /-- Tag of an iteration whose commit has not ended. -/
  aePend : Option Nat := none
  deriving DecidableEq, Repr

/-- Trigger lines (R216). -/
structure TrgSt where
  last : SMap (Option Nat) := []
  deriving DecidableEq, Repr

/-! ## Pin engines (R238) -/

/-- Why a pin engine is stalled. -/
inductive PStall where
  | none
  | wait (w : PWait) (met : Bool)
  | dly
  | pull
  | push (ws : List Word)
  | qdec
  deriving DecidableEq, Repr

/-- (DESIGN CHOICE, log entry 2.) -/
structure PeSt where
  /-- R255: 0 STOPPED, 1 ARMED, 2 RUN, 3 WAIT, 4 FIFO. -/
  state : Nat := 0
  cause : Nat := 0
  fwOwn : Bool := false
  pc : Nat := 0
  a : Nat := 0
  b : Nat := 0
  c : Nat := 0
  d : Nat := 0
  z : Bool := false
  n : Bool := false
  stale : Bool := false
  drop : Bool := false
  parF : List Word := []
  outF : List Word := []
  /-- Quadrature state: QA + 2 × QB. -/
  quad : Nat := 0
  /-- OUT0 to OUT3 as the program set them, and those the guard forces to SAFE (R251). -/
  outs : Nat := 0
  forced : Nat := 0
  stall : PStall := .none
  idle : Bool := false
  jump : Option Nat := none
  deriving DecidableEq, Repr

/-! ## Serial lanes (R428 to R457) -/

/-- What a receive lane holds until its direction is deskewed: the payload of a DATA block, or the row
count of an ALIGN block. -/
inductive LnItem where
  | data (v : BitVec 256)
  | align (n : Nat)
  | idle
  | lost
  deriving DecidableEq, Repr

/-- One lane. (DESIGN CHOICE, log entry 2.) -/
structure LaneSt where
  cdr : Bool := false
  /-- Left out of the group's attempt (R453). -/
  left : Bool := false
  eqDone : Bool := false
  /-- Block sync: valid headers in a row at the candidate boundary, slips made, and which of the last
  64 headers were invalid, newest first (R438, R439). -/
  good : Nat := 0
  slips : Nat := 0
  hist : List Bool := []
  /-- Blocks still to be discarded while a slip settles (R438). -/
  discard : Nat := 0
  /-- A boundary under test in ACTIVE costs the next block (R440). -/
  slipped : Bool := false
  /-- The far end's START has been received; FEC codewords follow it. -/
  started : Bool := false
  fec : Bool := false
  /-- START has been received since the direction last slept; the symbol received last, for precoding (R432). -/
  awake : Bool := false
  prev : Nat := 0
  /-- Descrambler: the last 58 payload bits received, the oldest in bit 0 (R433). -/
  desc : Nat := 0
  /-- Decoded bits not yet made into blocks, each with a mark for an uncorrectable codeword, and the
  uncorrectable codewords in succession (R437). -/
  bits : List (Bool × Bool) := []
  uncRun : Nat := 0
  q : List LnItem := []
  /-- Data blocks since the last marker slot, on a satellite lane (R258). -/
  since : Nat := 0
  /-- A deletion was postponed at the last SKIP block (R443). -/
  postponed : Bool := false
  /-- Settings: CTLE, VGA, PHASE and taps 1 to 10; and at the end of EQUALISE (R446, R447). -/
  eq : List Int := []
  eq0 : List Int := []
  clamped : Bool := false
  /-- One above the cycle at which each setting was last updated. -/
  eqAt : SMap Nat := []
  /-- The last block, header first, and whether it was a CTRL block. -/
  last : Option (Bool × BitVec 260) := none
  /-- Only IDLE and SKIP blocks have come since; a margin check runs (R448). -/
  idleOnly : Bool := false
  margin : Bool := false
  /-- Status of PRE and POST that goes back to the far receiver (R449, R450). -/
  sts : Nat := 0
  /-- The request that goes to the far transmit lane of the same index (R449, R450). -/
  req : Nat := 0
  deriving DecidableEq, Repr

/-- The transmit side of a lane (R431 to R436, R441): the last 58 scrambled bits, the oldest in bit 0; the PRBS31
register, once it has run; blocks since the last SKIP block; FEC and precoding since START, with the last symbol
sent and the bits not yet coded; and the symbol values sent by the latest command that sent any. -/
structure TxLane where
  scr : Nat := 0
  prbs : Option Nat := none
  since : Nat := 0
  fec : Bool := false
  precode : Bool := false
  prev : Nat := 0
  bits : List Bool := []
  out : List Nat := []
  deriving DecidableEq, Repr

/-- The transmit side of a group: packet bytes not yet in a row, rows since the last ALIGN row, and the row count of
the next; and whether the last of them was an IDLE row (R455). -/
structure TxGrp where
  bytes : List Byte := []
  rows : Nat := 0
  aligns : Nat := 0
  idle : Bool := false
  deriving DecidableEq, Repr

/-- (DESIGN CHOICE, log entry 2.) -/
structure TxSt where
  lanes : SMap TxLane := []
  grps : SMap TxGrp := []
  deriving DecidableEq, Repr

/-- A lane group (R428, R451, R452, R455). (DESIGN CHOICE, log entry 2.) -/
structure GrpSt where
  state : Nat := 0
  fails : Nat := 0
  /-- BACKOFF_MS, and the cycle from which it runs (R452). -/
  backoff : Nat := 0
  since : Nat := 0
  /-- Training has been requested and awaits EN (R451). -/
  req : Bool := false
  /-- The 1 ms transmit idle after a failure; DEEP held until EN falls or LINK_RETRAIN. -/
  txIdle : Bool := false
  held : Bool := false
  /-- What the far end's CTRL blocks have said. -/
  farState : Nat := 0
  farReady : Nat := 0
  farAck : Nat := 0
  farFec : Bool := false
  farPre : Bool := false
  /-- Satellite receive: which lane's block is next in the stream (R257). -/
  turn : Bool := false
  deriving DecidableEq, Repr

/-! ## Satellite ports (R256 to R276) -/

/-- What a port's elastic buffer holds of a virtual sensor, in order, with the bytes it takes. -/
inductive SpItem where
  | start (u bytes : Nat)
  /-- A segment: frame, number counted over the frame, pixels, bytes, and the cycle it was stored. -/
  | seg (u idx : Nat) (px : List Nat) (bytes stored : Nat)
  | mark (bytes : Nat)
  /-- A frame's close: what is missing is filled before it leaves. -/
  | close (u bytes stored : Nat)
  deriving DecidableEq, Repr

/-- A virtual sensor of a port. -/
structure VsSt where
  /-- The open frame, its number FNUM, and whether it is a paused frame that is discarded. -/
  opened : Option Nat := none
  fnum : Nat := 0
  discard : Bool := false
  trunc : Bool := false
  /-- Line in progress, one above its last accepted segment, and segments accepted in it and in the frame. -/
  line : Nat := 0
  nextSeg : Nat := 0
  got : Nat := 0
  total : Nat := 0
  /-- Lines of the frame that came whole, and lines with filled or discarded pixels (R270). -/
  good : List Nat := []
  bad : List Nat := []
  /-- CRC registers: of each line, and of the frame (R265). -/
  lineCrcs : SMap (BitVec 32) := []
  frameCrc : BitVec 32 := 0xFFFFFFFF#32
  q : List SpItem := []
  /-- The frame that is leaving the buffer, and its next segment. -/
  leaving : Option Nat := none
  next : Nat := 0
  paused : Option Nat := none
  urgentUsed : Bool := false
  deriving DecidableEq, Repr

/-- (DESIGN CHOICE, log entry 2.) -/
structure SpSt where
  /-- The packet layer's stream, from the next packet on; the port searches for a header (R261). -/
  strm : List Byte := []
  search : Bool := false
  /-- Marker of the present interval on L0 and L1: `some none` where it was missing; markers missing in
  succession on each (R275). -/
  mk0 : Option (Option Nat) := none
  mk1 : Option (Option Nat) := none
  pairSeen : Bool := false
  missed : Nat × Nat := (0, 0)
  vs : SMap VsSt := []
  lvl : Nat := 0
  limit : Nat := 0
  limitSent : Nat := 0
  /-- Packet bytes received since UP, and bytes that left the buffer since LIMIT last rose. -/
  received : Nat := 0
  left : Nat := 0
  /-- The packets sent to the satellite by the latest command that sent any. -/
  tx : List (List Byte) := []
  deriving DecidableEq, Repr

/-! ## The pipeline (R279 to R366) -/

/-- What a line segment carries with its pixels (R130, R131, R188, R283): the exposure of its tile in its
pass, the tile's sub-exposures, its marks, and the tick count of its strip. -/
structure SegHdr where
  dur : Nat := 0
  cg : Bool := false
  gain : Nat := 0
  subs : Nat := 0
  ovw : Bool := false
  fill : Bool := false
  /-- Pixels that came of a satellite segment shorter than expected: the others are fill (R267). -/
  kept : Option Nat := none
  trt : Nat := 0
  began : Nat := 0
  deriving DecidableEq, Repr

/-- A pixel after stage P1 (R283). -/
structure Px1 where
  v : Nat
  sat : Bool := false
  imp : Bool := false
  deriving DecidableEq, Repr

/-- A pixel after stage P2, in 1/16 of the input LSB (R283). -/
structure Px2 where
  v : Int
  sat : Bool := false
  subst : Bool := false
  deriving DecidableEq, Repr

/-- A pixel after the merge of stage P3: normalised value, before OFS; unusable where no sub-exposure
was usable (R316, R317). -/
structure Px3 where
  e : Rat
  unusable : Bool := false
  subst : Bool := false
  deriving DecidableEq, Repr

/-- A pixel that leaves stage P3 (R316). -/
structure PxY where
  y : Nat
  sat : Bool := false
  subst : Bool := false
  deriving DecidableEq, Repr

/-- A segment with its pixels. -/
structure SegOf (α : Type) where
  hd : SegHdr
  px : List α
  deriving DecidableEq, Repr

/-- An output descriptor's work on one frame (R329 to R335). -/
structure OutFr where
  opened : Bool := false
  /-- Its stream in delivery. -/
  dlv : Option Nat := none
  /-- Lines emitted, oldest first, with their pixels where a view or the encoder takes them. -/
  lines : List (Nat × List PxY) := []
  unread : Nat := 0
  closed : Bool := false
  /-- Views, of those that the output feeds, that have decided on it. -/
  viewed : List Nat := []
  deriving DecidableEq, Repr

/-- A border between two tiles: whether it is vertical, and the tiles on its lower and higher side. -/
structure Border where
  vert : Bool
  a : Nat
  b : Nat
  deriving DecidableEq, Repr

/-- One frame in the pipeline: what each stage has of it, by pass, row and segment. -/
structure PFrame where
  /-- Stages that were active when the frame entered: bit 0 P1 to bit 6 P7. -/
  acts : Nat := 0
  raw : SMap (Option (SegOf Nat)) := []
  p1 : SMap (Option (SegOf Px1)) := []
  p2 : SMap (Option (SegOf Px2)) := []
  p3 : SMap (Option (SegOf Px3)) := []
  y : SMap (Option (SegOf PxY)) := []
  /-- Rows (pass and row) in the order in which they entered stage P3, and in which they left it. -/
  entered : List Nat := []
  order : List Nat := []
  /-- Temporal filter: one above the cause of each pass (R294). Impulses flagged (R290). -/
  causes : SMap Nat := []
  imps : Nat := 0
  /-- The exposure whose H is the reference, once the frame has reached P3 (R315). -/
  href : Option SegHdr := none
  /-- Borders of each image whose uncorrected colours have been counted (R320); passes whose records were
  handed over; windows sent. -/
  borders : List (Nat × Border) := []
  handed : List Nat := []
  hists : List Nat := []
  /-- Black levels formed in this frame, and the stripes, banks and passes whose dark rows have been judged (R302). -/
  formed : List Nat := []
  judged : List Nat := []
  outs : SMap OutFr := []
  deriving DecidableEq, Repr

/-- A temporal reference (R292): the frame that wrote it, that frame's shape, the segments it wrote,
and those of the frame before. -/
structure RefSt where
  tick : Option Nat := none
  shape : List Nat := []
  cur : SMap (Option (SegOf Nat)) := []
  old : SMap (Option (SegOf Nat)) := []
  deriving DecidableEq, Repr

/-! ## The Hamper and raw burst (R227 to R229, R376 to R394) -/

/-- An index entry: ring offset / 64, TICKS, LEN / 64 rounded up, and STREAM (R378). -/
structure IndexEntry where
  off64 : Nat
  ticks : Nat
  len64 : Nat
  stream : Nat
  deriving DecidableEq, Repr

/-- A chunk in the ring: its number, ring offset, bytes with header and padding, the header as it stands in
the ring, and its index entry. -/
structure Chunk where
  req : ChunkReq
  num : Nat
  off : Nat
  size : Nat
  head : List Byte := []
  entry : IndexEntry := { off64 := 0, ticks := 0, len64 := 0, stream := 0xFF }
  deriving DecidableEq, Repr

/-- A trigger slot (R384 to R387): the chunks it protects, whether capture goes on, was cut or is full,
replays of it that run, and a release that waits for their end. -/
structure TrigSlot where
  trig : Trig
  prot : List Nat := []
  capturing : Bool := true
  cut : Bool := false
  full : Bool := false
  preShort : Bool := false
  merged : Bool := false
  release : Bool := false
  deriving DecidableEq, Repr

/-- What a replay sends (R389). -/
inductive ReplaySrc where
  | slot (k : Nat)
  | burst
  | ring
  deriving DecidableEq, Repr

structure Replay where
  src : ReplaySrc
  qid : Nat
  /-- The next chunk number, or frame of the burst. -/
  next : Nat := 0
  sent : Nat := 0
  errs : Nat := 0
  deriving DecidableEq, Repr

/-- A line of a frame of a raw burst: number, first pixel, tick count of its strip, pixels. -/
structure BurstLine where
  line : Nat
  x0 : Nat
  trt : Nat
  px : List Nat
  deriving DecidableEq, Repr

/-- A frame of a raw burst. -/
structure BurstFr where
  start : List Byte
  fid : Nat
  pass : Nat
  ticks : Nat
  bits : Nat
  flags : Nat
  lines : List BurstLine
  deriving DecidableEq, Repr

/-- The ring descriptor (R378): device serial, BURST_GIB, CH_MASK, number of the oldest chunk, and its CRC. -/
structure RingDesc where
  serial : Nat
  gib : Nat
  mask : Nat
  oldest : Option Nat
  crc : Nat
  deriving DecidableEq, Repr

/-- (DESIGN CHOICE, log entry 2.) -/
structure HmpSt where
  /-- Chunks that wait for the writer. -/
  offers : List ChunkReq := []
  /-- The ring in chunk-number order, where the next chunk goes, and its number. -/
  ring : List Chunk := []
  wp : Nat := 0
  nextNum : Nat := 0
  slots : SMap (Option TrigSlot) := []
  replays : List Replay := []
  /-- The ring descriptor as it stands in memory (R378, R390). -/
  desc : Option RingDesc := none
  /-- Channels under retraining, those whose retraining a burst defers, and those in power-down. -/
  retrain : Nat := 0
  deferred : Nat := 0
  powerDown : Nat := 0
  /-- The channels leave self-refresh: the tracking step that follows is awaited (R394). -/
  leaving : Bool := false
  /-- Channels that are trained, and the rate they are trained for: kept in self-refresh, lost in deep sleep and with the
  supplies (R390, R394). -/
  trained : Nat × Nat := (0, 0)
  deriving DecidableEq, Repr

/-- The raw burst: when it was armed, frames begun, ABORT written, and the stored burst with its
destination. -/
structure BurstSt where
  armAt : Option Nat := none
  begun : Nat := 0
  abort : Bool := false
  cutOff : Bool := false
  stored : List BurstFr := []
  dest : Nat := 0
  deriving DecidableEq, Repr

/-- A view output (R352): the tick count of the last frame it accepted, and the frames it holds, by frame
and output descriptor: the one being output, and the one that waits. -/
structure VewSt where
  last : Option Nat := none
  front : Option (Nat × Nat) := none
  wait : Option (Nat × Nat) := none
  deriving DecidableEq, Repr

/-- A frame that an encoder stream has accepted (R361 to R366). -/
structure EncJob where
  u : Nat
  op : Nat := 0
  flags : Nat := 0
  width : Nat
  height : Nat
  bits : Nat
  cfa : Nat
  shift : Nat
  ofs : Nat
  lref : Option SegHdr := none
  sliceH : Nat
  /-- Budget that the frame is coded to; the stream's full budget; the first frame after a change. -/
  budget : Nat
  full : Nat
  first : Bool := false
  /-- Lines of the source that have come, by number. -/
  lines : SMap (List Nat) := []
  /-- Slices that wait, all that have come, those coded, and the lines coded and bytes used. -/
  queue : List Nat := []
  seen : List Nat := []
  coded : SMap (List Byte) := []
  doneLines : Nat := 0
  used : Nat := 0
  dropped : Bool := false
  ended : Bool := false
  deriving DecidableEq, Repr

/-- An encoder stream: the tick count of the last frame it accepted, the last it considered, what it was
last set up with (R361), and the frames it works on. -/
structure EncSt where
  last : Option Nat := none
  considered : Option Nat := none
  sig : List Nat := []
  jobs : List EncJob := []
  deriving DecidableEq, Repr

/-- A tile record (R340). -/
structure TileRec where
  hist : List Nat
  sumG : Nat
  nG : Nat
  nSat : Nat
  sumR : Nat
  sumB : Nat
  sharp : Nat
  nR : Nat
  nB : Nat
  absent : Bool
  excl : Bool
  deriving DecidableEq, Repr

/-- What firmware received last of a pass: FRAME_SEQ, start tick number and generation of the frame, the
records by tile, and after pass 0 the frame AE histogram (R343, R344). -/
structure RecSet where
  fid : Nat := 0
  k : Nat := 0
  gen : Nat := 0
  /-- The input pedestal and depth of the frame, its bank and the words of its contexts. -/
  ped : Nat := 0
  bits : Nat := 0
  bank : Nat := 0
  ctxs : SMap Word := []
  /-- Passes of the frame, and by tile the cycle at which its first exposure in this pass began. -/
  m : Nat := 1
  began : List (Option Nat) := []
  recs : List TileRec := []
  ae : List Nat := []
  deriving DecidableEq, Repr

/-- A running black level in LSB, and what it was formed with (R302). -/
structure BlSt where
  v : Rat
  tenBit : Bool
  dur : Nat
  gain : Nat
  cg : Bool
  /-- The page has been enabled since: the next mean restarts the value (R302). -/
  stale : Bool := false
  deriving DecidableEq, Repr

/-! ## The whole block -/

/-- Everything but the command queue, the recorder and the one-time storage. -/
structure Dev where
  /-- Engine cycles since the model's time began; a field of the model. -/
  cyc : Nat := 0
  /-- Free values used so far; a field of the model. -/
  freeCtr : Nat := 0
  /-- Register words by byte address: what the host reads; for SH fields the shadow copy. -/
  regs : SMap Word := []
  /-- The active set of the words that hold SH fields. -/
  act : SMap Word := []
  evq : List Ev := []
  com : CommitSt := {}
  out : PortOut := {}
  mbx : MbxSt := {}
  time : TimeSt := {}
  clk : ClkSt := {}
  aon : AonSt := {}
  pwr : PwrSt := {}
  thm : ThmSt := {}
  nvm : NvmSt := {}
  boot : BootSt := {}
  tap : TapSt := {}
  reqs : List PktReq := []
  frames : SMap Frame := []
  nextFrame : Nat := 0
  /-- Active sets of earlier generations that frames still use (R34). -/
  gens : SMap (SMap Word) := []
  pipe : SMap PFrame := []
  refs : SMap RefSt := []
  bls : SMap (Option BlSt) := []
  hmp : HmpSt := {}
  burst : BurstSt := {}
  views : SMap VewSt := []
  encs : SMap EncSt := []
  /-- The tile records firmware received last, by pass. -/
  recs : SMap RecSet := []
  /-- Defect table and lens shading grids (R298, R307). -/
  defs : SMap Word := []
  lsc : SMap Nat := []
  ary : ArySt := {}
  eng : SMap EngSt := []
  trg : TrgSt := {}
  pe : SMap PeSt := []
  /-- Levels of the PIO pins as the trigger lines see them, and as each pin engine does. -/
  pio : Nat := 0
  pioF : SMap Nat := []
  /-- Cycle at which each synchronised PIO input took its present level. -/
  pioAt : SMap Nat := []
  lanes : SMap LaneSt := []
  grps : SMap GrpSt := []
  tx : TxSt := {}
  sp : SMap SpSt := []
  dlv : DlvSt := {}
  hlp : HlpSt := {}
  deriving DecidableEq, Repr

/-- The state of the block, with the queue of waiting commands, first in, first out. -/
structure State where
  pending : List Instr := []
  dev : Dev := {}
  evr : Recorder := {}
  vault : Vault := {}
  deriving DecidableEq, Repr

/-- No command of this block stops the machine with a fault. -/
inductive Fault where
  deriving DecidableEq, Repr

/-- Refusals. -/
inductive Refusal where
  /-- Raised by `exec` for a command that has no meaning yet; safe. -/
  | notModelled (mnemonic : String)
  deriving DecidableEq, Repr

/-- The block right after a power-on reset has reached level ON: rails up, timing PLL acquiring,
no firmware running, every register at its reset value. (DESIGN CHOICE, log entries 2 and 3.) -/
def State.reset : State := {}

end Sys2Proof.Machine
end

