-- ==== Sys2Proof/Machine/Ops.lean ====
section
/-! DEFINITION. The shared operations: lifting a change of the device to a command's outcome,
reading and writing register fields, raising interrupts, presenting events, rejecting writes. -/
namespace Sys2Proof.Machine

abbrev Out := Host.Outcome State Fault Refusal

/-! ## Lifting -/

/-- A command that changes the device alone. -/
def onDev (f : Dev → Dev) (s : State) : Out := .next { s with dev := f s.dev }

/-- A command that changes the device, and reads the recorder and the one-time storage. -/
def onDevR (f : Recorder → Vault → Dev → Dev) (s : State) : Out :=
  .next { s with dev := f s.evr s.vault s.dev }

/-- A command that changes the device and the recorder. -/
def onRec (f : Dev × Recorder → Dev × Recorder) (s : State) : Out :=
  .next { s with dev := (f (s.dev, s.evr)).1, evr := (f (s.dev, s.evr)).2 }

/-! ## Bytes of a payload (R12, R586) -/

/-- A number as `n` bytes, least significant first. -/
def bytesLE : Nat → Nat → List Byte
  | 0, _ => []
  | n + 1, v => BitVec.ofNat 8 v :: bytesLE n (v / 256)

def b2n (b : Bool) : Nat := if b then 1 else 0

def u8 (v : Nat) : List Byte := bytesLE 1 v
def u16 (v : Nat) : List Byte := bytesLE 2 v
def u32 (v : Nat) : List Byte := bytesLE 4 v
def u64 (v : Nat) : List Byte := bytesLE 8 v
def s16 (v : Int) : List Byte := bytesLE 2 (unsigned 16 v)
def s32 (v : Int) : List Byte := bytesLE 4 (unsigned 32 v)

/-- Bytes, least significant first, as a number. -/
def natOfBytes : List Byte → Nat
  | [] => 0
  | b :: t => b.toNat + 256 * natOfBytes t

/-- A time of day as R586 lays it out. -/
def todBytes (sec ns : Nat) : List Byte := bytesLE 6 sec ++ u32 ns

/-- The words of a byte string, zero-filled to whole words. -/
def wordsOf : List Byte → List Word
  | a :: b :: c :: d :: t => BitVec.ofNat 32 (natOfBytes [a, b, c, d]) :: wordsOf t
  | [] => []
  | l => [BitVec.ofNat 32 (natOfBytes l)]

/-! ## Registers -/

/-- The word a register holds: what the host reads of its stored fields. -/
def Dev.word (d : Dev) (a : Nat) : Word := SMap.get resetWord d.regs a

/-- The active word of a register with shadowed fields. -/
def Dev.actWord (d : Dev) (a : Nat) : Word := SMap.get resetWord d.act a

def Dev.putWord (d : Dev) (a : Nat) (w : Word) : Dev := { d with regs := SMap.set resetWord d.regs a w }
def Dev.putAct (d : Dev) (a : Nat) (w : Word) : Dev := { d with act := SMap.set resetWord d.act a w }

/-- Copy `k` of a field in instance `i` of its block. -/
def Dev.fi (d : Dev) (F : Fld) (i k : Nat) : Nat := bitsOf (d.word (F.addr i k)) F.hi F.lo
def Dev.f (d : Dev) (F : Fld) : Nat := d.fi F 0 0
def Dev.fk (d : Dev) (F : Fld) (k : Nat) : Nat := d.fi F 0 k
def Dev.on (d : Dev) (F : Fld) : Bool := d.f F != 0

/-- The active value of a shadowed field. -/
def Dev.ai (d : Dev) (F : Fld) (i k : Nat) : Nat := bitsOf (d.actWord (F.addr i k)) F.hi F.lo
def Dev.a (d : Dev) (F : Fld) : Nat := d.ai F 0 0
def Dev.ak (d : Dev) (F : Fld) (k : Nat) : Nat := d.ai F 0 k

def Dev.setFi (d : Dev) (F : Fld) (i k v : Nat) : Dev :=
  d.putWord (F.addr i k) (setBits (d.word (F.addr i k)) F.hi F.lo v)
def Dev.setF (d : Dev) (F : Fld) (v : Nat) : Dev := d.setFi F 0 0 v
def Dev.setFk (d : Dev) (F : Fld) (k v : Nat) : Dev := d.setFi F 0 k v

/-- A header field of a page. -/
def Dev.hf (d : Dev) (p : Page) (F : Fld) : Nat := bitsOf (d.word (p.base + F.off)) F.hi F.lo
def Dev.setHf (d : Dev) (p : Page) (F : Fld) (v : Nat) : Dev :=
  d.putWord (p.base + F.off) (setBits (d.word (p.base + F.off)) F.hi F.lo v)

/-- Is the block enabled (R62, R63)? -/
def Dev.enabled (d : Dev) (p : Page) : Bool := p.alwaysOn || d.hf p HD_PAGE_CTRL_EN != 0

/-- The block runs with its active field set. -/
def Dev.active (d : Dev) (p : Page) : Bool := d.hf p HD_PAGE_STAT_ACTIVE != 0

/-- Add to a counter, modulo its width (R19). -/
def Dev.addI (d : Dev) (F : Fld) (i k n : Nat) : Dev := d.setFi F i k (d.fi F i k + n)
def Dev.bumpI (d : Dev) (F : Fld) (i k : Nat) : Dev := d.addI F i k 1
def Dev.bump (d : Dev) (F : Fld) : Dev := d.bumpI F 0 0
def Dev.add (d : Dev) (F : Fld) (n : Nat) : Dev := d.addI F 0 0 n

/-- Add to a counter that stops at its greatest value (KL-08). -/
def Dev.bumpSat (d : Dev) (F : Fld) (i k : Nat) : Dev :=
  if d.fi F i k < 2 ^ (F.hi - F.lo + 1) - 1 then d.bumpI F i k else d

/-- Keep the greatest value seen (a peak counter). -/
def Dev.peakI (d : Dev) (F : Fld) (i k v : Nat) : Dev := if d.fi F i k < v then d.setFi F i k v else d

/-! ## Interrupts (R87 to R89) -/

/-- A page's masked interrupts. -/
def Dev.irqStat (d : Dev) (p : Page) : Word := d.word (p.base + 0x10) &&& d.word (p.base + 0x14)

/-- Bit `g` of `SYS.IRQ_GRP`. -/
def Dev.groupBit (d : Dev) (g : Nat) : Bool :=
  (allPages.filter fun p => p.group = g).any fun p => d.irqStat p != 0#32

/-- `SYS.IRQ_GRP`. -/
def Dev.irqGrp (d : Dev) : Nat :=
  (List.range 29).foldl (fun n g => if d.groupBit g then n + 2 ^ g else n) 0

/-- An enabled group bit. -/
def Dev.groupOn (d : Dev) (g : Nat) : Bool :=
  d.groupBit g && (d.f SYS_IRQ_GRP_EN_EN).testBit g

/-- The level of IRQ_N: `true` while it is driven low (R87). It is released while the level is not
ON (R89, R551). -/
def Dev.irqLow (d : Dev) : Bool :=
  d.aon.level = 2 && d.on SYS_IRQ_ROUTE_PIN && (List.range 29).any fun g => d.groupOn g

/-- Interrupt packets for the groups whose enabled bit has risen between two states (R89). -/
def irqPackets (groups : List Nat) (before after : Dev) : Dev :=
  if after.on SYS_IRQ_ROUTE_PKT then
    let up := groups.filter fun g => !before.groupOn g && after.groupOn g
    { after with reqs := after.reqs ++ up.map fun _ => PktReq.irq }
  else after

/-- Set bits of a page's IRQ_RAW. -/
def Dev.raiseBits (d : Dev) (p : Page) (bits : Word) : Dev :=
  irqPackets [p.group] d (d.putWord (p.base + 0x10) (d.word (p.base + 0x10) ||| bits))

/-- The page of instance `i` of a block. -/
def blkPage (b : Blk) (i : Nat) : Page :=
  match b with
  | .sys => .sys | .clk => .clk | .tbs => .tbs | .pwr => .pwr | .thm => .thm | .evr => .evr
  | .nvm => .nvm | .mbx => .mbx | .sec => .sec | .ary => .ary | .exp => .exp | .win => .win
  | .trg => .trg | .eng => .eng (Fin.ofNat 96 i) | .pe => .pe (Fin.ofNat 8 i) | .ing => .ing
  | .nrd => .nrd | .pxc => .pxc | .hdr => .hdr | .geo => .geo | .sta => .sta | .vew => .vew
  | .enc => .enc | .dlv => .dlv | .fst => .fst | .hmp => .hmp | .ln => .ln (Fin.ofNat 44 i)
  | .sp => .sp (Fin.ofNat 8 i) | .hlp => .hlp

/-- Set an interrupt source named by its field, in instance `i` of its block. -/
def Dev.raiseI (d : Dev) (F : Fld) (i : Nat) : Dev :=
  d.raiseBits (blkPage F.blk i) (BitVec.ofNat 32 (2 ^ F.lo))
def Dev.raise (d : Dev) (F : Fld) : Dev := d.raiseI F 0

/-! ## Events (R509 to R513, R586) -/

/-- Severity of a type (R513). DROPPED and unlisted codes take what their rule gives. -/
def evSev : Nat → Nat
  | 0x002 => 7 | 0x003 => 3 | 0x004 => 2 | 0x005 => 2 | 0x006 => 3 | 0x007 => 4 | 0x008 => 3
  | 0x009 => 4 | 0x00A => 2
  | 0x010 => 3 | 0x011 => 1 | 0x012 => 2 | 0x013 => 4 | 0x014 => 4 | 0x015 => 2 | 0x016 => 1
  | 0x017 => 3 | 0x018 => 3 | 0x019 => 1
  | 0x020 => 3 | 0x021 => 3 | 0x022 => 4 | 0x023 => 3 | 0x024 => 4 | 0x025 => 3 | 0x026 => 2
  | 0x030 => 6 | 0x031 => 6 | 0x032 => 5 | 0x033 => 4 | 0x034 => 4 | 0x035 => 3 | 0x036 => 2
  | 0x037 => 3 | 0x038 => 2
  | 0x040 => 3 | 0x041 => 4 | 0x042 => 4 | 0x043 => 2 | 0x044 => 3 | 0x045 => 2 | 0x046 => 2
  | 0x047 => 3 | 0x048 => 3 | 0x049 => 4 | 0x04A => 3 | 0x04B => 4
  | 0x050 => 3 | 0x051 => 3 | 0x052 => 4 | 0x053 => 3
  | 0x060 => 3 | 0x061 => 2 | 0x062 => 3 | 0x063 => 3 | 0x064 => 3 | 0x065 => 3 | 0x066 => 3
  | 0x067 => 3 | 0x068 => 2 | 0x069 => 3
  | 0x070 => 3 | 0x071 => 2 | 0x072 => 3 | 0x073 => 3 | 0x074 => 3 | 0x075 => 3
  | 0x080 => 5 | 0x081 => 3 | 0x082 => 3 | 0x083 => 2 | 0x084 => 1 | 0x085 => 2 | 0x086 => 1
  | 0x087 => 4
  | 0x090 => 2 | 0x091 => 3 | 0x092 => 3 | 0x093 => 3 | 0x094 => 2 | 0x095 => 3
  | _ => 0

/-- Source code of firmware's own records (R57). (DEDUCED, log entry 20.) -/
def fwSrc : Nat := 0x0F

/-- Present an event of a type to the recorder, from a source block code. -/
def Dev.emitSrc (d : Dev) (code src : Nat) (payload : List Byte) : Dev :=
  { d with evq := d.evq ++ [{ code, sev := evSev code, src, payload, cyc := d.cyc }] }

/-- Present an event a page detects. -/
def Dev.emit (d : Dev) (code : Nat) (p : Page) (payload : List Byte := []) : Dev :=
  d.emitSrc code p.code payload

/-- Present an event firmware writes (the types marked F). -/
def Dev.emitFw (d : Dev) (code : Nat) (payload : List Byte := []) : Dev := d.emitSrc code fwSrc payload

/-- Present a record marked INFERRED (R503, R521). -/
def Dev.emitInferred (d : Dev) (code src : Nat) (payload : List Byte) : Dev :=
  { d with evq := d.evq ++ [{ code, sev := evSev code, src, payload, inferred := true, cyc := d.cyc }] }

/-! ## Rejected writes (R65) -/

/-- The requester codes of R65. -/
def portCode : Port → Nat
  | .inband => 0 | .spi => 1 | .i2c => 2 | .fw => 3

def hport : HPort → Port
  | .inband => .inband | .spi => .spi | .i2c => .i2c

/-- Reject a write to a page, with its reason. (DEDUCED, log entry 19.) -/
def Dev.reject (d : Dev) (p : Page) (port : Port) (addr : Nat) (v : Word) (reason : Nat) : Dev :=
  let d := d.setHf p HD_PAGE_STAT_WR_REJECT 1
  let d := d.raiseBits p 4#32
  d.emit 0x010 p (u32 (addr / 4 * 4) ++ u32 v.toNat ++ u8 (portCode port) ++ u8 reason ++ [0#8, 0#8])

/-! ## Free values -/

/-- The next free word. (DESIGN CHOICE, log entry 4.) -/
def Dev.free (d : Dev) : Word × Dev := (Config.freeWord d.freeCtr, { d with freeCtr := d.freeCtr + 1 })

/-- The stamp of this instant (R39). -/
def Dev.stamp (d : Dev) : Stamp :=
  { sec := d.time.sec, ns := d.time.ns, ticks := d.time.tick, epoch := d.time.epoch }

/-! ## Ports -/

/-- Do the blocks run: level ON, and the timing PLL has locked? -/
def Dev.clocked (d : Dev) : Bool := d.aon.level = 2 && d.clk.everLocked

/-- Does the register access unit serve requests: from the first lock at level ON (R587) until the device begins to
leave it, as it does at entry to shutdown pending (R585)? (DEDUCED, log entry 101.) -/
def Dev.serves (d : Dev) : Bool := d.clocked && !d.aon.shutPending

/-- May a write from this port pass (R85)? Firmware is no host port. -/
def Dev.portOpen (d : Dev) : Port → Bool
  | .inband => (d.f SYS_PORT_CTRL_WR_EN).testBit 0
  | .spi => (d.f SYS_PORT_CTRL_WR_EN).testBit 1
  | .i2c => (d.f SYS_PORT_CTRL_WR_EN).testBit 2
  | .fw => true

/-- A write from a port: discarded while the unit serves nothing (R585, R587), counted and ignored
where PORT_CTRL closes the port (R85). -/
def gateWrite (p : Port) (f : Dev → Dev) (d : Dev) : Dev :=
  if !d.serves then d
  else if d.portOpen p then f d
  else d.bump SYS_PORT_DENY

/-- Hand words read to the port that asked. -/
def Dev.output (d : Dev) (p : Port) (ws : List Word) : Dev :=
  match p with
  | .inband => { d with out := { d.out with inband := ws } }
  | .spi => { d with out := { d.out with spi := ws } }
  | .i2c => { d with out := { d.out with i2c := ws } }
  | .fw => { d with out := { d.out with fw := ws } }

/-- A page in soft reset ignores writes with no status (R62). -/
def Dev.inReset (d : Dev) (p : Page) : Bool := d.com.resetting.contains p.code

/-- A write that a port makes to a register of a page, with `gateWrite`'s gate and R62's. -/
def gatePage (p : Port) (pg : Page) (f : Dev → Dev) (d : Dev) : Dev :=
  gateWrite p (fun d => if d.inReset pg then d else f d) d

/-! ## Lists -/

/-- Replace element `n`, where there is one. -/
def setAt {α : Type} : List α → Nat → α → List α
  | [], _, _ => []
  | _ :: t, 0, b => b :: t
  | a :: t, n + 1, b => a :: setAt t n b

end Sys2Proof.Machine
end

