-- ==== Sys2Proof/Machine/Mailbox.lean ====
section
/-! DEFINITION. The mailbox slot: claiming, posting, acknowledging, and how firmware answers a
command (R90 to R95). -/
namespace Sys2Proof.Machine

/-! ## Slot states (R90) -/
def mbxIDLE : Nat := 0
def mbxPOSTED : Nat := 1
def mbxBUSY : Nat := 2
def mbxDONE : Nat := 3
def mbxABORTED : Nat := 4
def mbxNOFW : Nat := 5
def mbxLOADING : Nat := 6

/-! ## Result codes (R94) -/
def resOK : Nat := 0
def resBAD_OPCODE : Nat := 1
def resBAD_LENGTH : Nat := 2
def resBAD_PARAM : Nat := 3
def resRESOURCE_BUSY : Nat := 4
def resAUTH_FAIL : Nat := 5
def resBAD_STATE : Nat := 6
def resTIMEOUT : Nat := 7

/-- Does firmware, or the recovery loader, serve the mailbox (R91, R546)? -/
def Dev.mbxServed (d : Dev) : Bool := d.boot.run = .running || d.boot.run = .loader

/-- What `STAT.STATE` reads (R91). -/
def Dev.mbxState (d : Dev) : Nat := if d.mbxServed then d.f MBX_STAT_STATE else mbxNOFW

def Dev.setMbx (d : Dev) (st : Nat) : Dev := d.setF MBX_STAT_STATE st

/-- Byte `i` of the payload. -/
def Dev.cmdByte (d : Dev) (i : Nat) : Byte :=
  BitVec.ofNat 8 (d.fk MBX_CMD_BUF (i / 4) / 2 ^ (8 * (i % 4)))

/-- Bytes `from`, on, of the payload: `n` of them. -/
def Dev.cmdBytes (d : Dev) (start n : Nat) : List Byte :=
  (List.range n).map fun i => d.cmdByte (start + i)

/-- A payload field, least significant byte first (R95). -/
def Dev.cmdNat (d : Dev) (start n : Nat) : Nat := natOfBytes (d.cmdBytes start n)

/-- Write the response words from word `k` on. -/
def writeResp : List Word → Nat → Dev → Dev
  | [], _, d => d
  | w :: t, k, d => writeResp t (k + 1) (d.setFk MBX_RESP_BUF k w.toNat)

/-- Firmware answers: response, tag, result, then DONE and its interrupt (R93). -/
def Dev.mbxDone (d : Dev) (result : Nat) (resp : List Byte := []) : Dev :=
  let ws := wordsOf resp
  let d := writeResp ws 0 d
  let d := d.setF MBX_RESP_LEN_W ws.length
  let d := d.setF MBX_RESP_TAG (d.f MBX_CMD_TAG)
  let d := d.setF MBX_STAT_RESULT result
  (d.setMbx mbxDONE).raise MBX_IRQ_RAW_MBX_DONE

/-- A firmware restart aborts a posted or busy command (R93). -/
def Dev.mbxAbort (d : Dev) : Dev :=
  if d.f MBX_STAT_STATE = mbxPOSTED ∨ d.f MBX_STAT_STATE = mbxBUSY then
    (d.setMbx mbxABORTED).raise MBX_IRQ_RAW_MBX_ABORT
  else d

/-- The opcodes of R95. -/
def mbxOpcodes : List Nat :=
  [0x01, 0x02, 0x10, 0x11, 0x20, 0x30, 0x31, 0x32, 0x33, 0x34, 0x40, 0x41, 0x42, 0x43, 0x50, 0x51,
   0x52, 0x60, 0x61, 0x70, 0x71, 0x80, 0x90]

/-- The opcodes the recovery loader accepts (R546). -/
def loaderOpcodes : List Nat := [0x01, 0x02, 0x30, 0x40, 0x41, 0x42, 0x43]

/-- Does the slot hold a command of this opcode, for a server that runs? A command firmware already
works on is BUSY. -/
def Dev.mbxReady (d : Dev) (opc : Nat) : Bool :=
  d.mbxServed && (d.f MBX_STAT_STATE = mbxPOSTED || d.f MBX_STAT_STATE = mbxBUSY) &&
    d.f MBX_CMD_OPCODE = opc

/-- The answer before the command's own meaning: an opcode the loader does not accept, or a length
wrong for the opcode (R94, R546). (DEDUCED, log entry 31.) -/
def Dev.mbxRefuse (d : Dev) (opc : Nat) (lenOk : Nat → Bool) : Option Nat :=
  if d.boot.run = .loader ∧ ¬ loaderOpcodes.contains opc then some resBAD_OPCODE
  else if lenOk (d.f MBX_CMD_LEN_W) then none
  else some resBAD_LENGTH

/-- Firmware serves a posted command: STATE goes to BUSY, and to DONE where the command ends at once (R93). With no
such command posted, nothing happens. (DEDUCED, log entry 30.) -/
def mbxServe (opc : Nat) (lenOk : Nat → Bool) (f : Dev → Dev) (d : Dev) : Dev :=
  if d.mbxReady opc then
    match d.mbxRefuse opc lenOk with
    | some r => d.mbxDone r
    | none => f (d.setMbx mbxBUSY)
  else d

/-- The same, for a command that acts on the recorder as well. -/
def mbxServeRec (opc : Nat) (lenOk : Nat → Bool) (f : Dev × Recorder → Dev × Recorder)
    (x : Dev × Recorder) : Dev × Recorder :=
  if x.1.mbxReady opc then
    match x.1.mbxRefuse opc lenOk with
    | some r => (x.1.mbxDone r, x.2)
    | none => f (x.1.setMbx mbxBUSY, x.2)
  else x

/-! ## Host access to the slot (R91, R92) -/

/-- Is the slot this port's, to write CMD, CMD_BUF or GO? The recovery loader serves SPI and I²C alone (R546). -/
def Dev.mbxMayLoad (d : Dev) (p : Port) : Bool :=
  (d.boot.run != .loader || p != .inband) && (d.f MBX_STAT_STATE = mbxIDLE ||
    (d.f MBX_STAT_STATE = mbxLOADING && d.f MBX_RESP_OWNER = portCode p))

/-- Claim an IDLE slot for a port. (DEDUCED, log entry 30.) -/
def Dev.mbxTake (d : Dev) (p : Port) : Dev :=
  if d.f MBX_STAT_STATE = mbxIDLE then (d.setF MBX_RESP_OWNER (portCode p)).setMbx mbxLOADING else d

/-- A word of CMD or CMD_BUF is stored; LEN_W keeps its value where the written one is out of range (R583). -/
def mbxStore (p : Port) (a : Nat) (v : Word) (d : Dev) : Dev :=
  if a = 0x7100 then
    let w := setBits v 7 7 0
    if MBX_CMD_LEN_W.legal.ok (bitsOf v MBX_CMD_LEN_W.hi MBX_CMD_LEN_W.lo) then d.putWord a w
    else (d.putWord a (setBits w MBX_CMD_LEN_W.hi MBX_CMD_LEN_W.lo (d.f MBX_CMD_LEN_W))).reject .mbx p a v
      MBX_CMD_LEN_W.legal.reason
  else d.putWord a v

/-- A write to CMD or CMD_BUF. Firmware's own writes, and writes while nothing serves the mailbox,
store and claim nothing. (DEDUCED, log entry 30.) -/
def mbxBufWrite (p : Port) (addr : Nat) (v : Word) (d : Dev) : Dev :=
  let a := addr / 4 * 4
  if p = .fw ∨ d.mbxServed = false then mbxStore p a v d
  else if d.mbxMayLoad p then mbxStore p a v (d.mbxTake p)
  else d.reject .mbx p addr v 6

/-- A write of 1 to GO; a 0 written there posts nothing and is not rejected. An opcode that R95 reserves is answered BAD_OPCODE at once. (DEDUCED, log entry 30.) -/
def mbxGo (p : Port) (v : Word) (d : Dev) : Dev :=
  if d.mbxServed = false then d
  else if d.mbxMayLoad p then
    let d := (d.mbxTake p).setMbx mbxPOSTED
    if mbxOpcodes.contains (d.f MBX_CMD_OPCODE) then d else d.mbxDone resBAD_OPCODE
  else d.reject .mbx p (MBX_GO.addr 0 0) v 6

/-- A write of 1 to ACK. (DEDUCED, log entry 30.) -/
def mbxAck (p : Port) (v : Word) (d : Dev) : Dev :=
  let st := d.f MBX_STAT_STATE
  if d.mbxServed = false then d
  else if st = mbxDONE ∨ st = mbxABORTED then d.setMbx mbxIDLE
  else if st = mbxLOADING then
    if d.f MBX_RESP_OWNER = portCode p then d.setMbx mbxIDLE
    else d.reject .mbx p (MBX_ACK.addr 0 0) v 6
  else d

/-- 100 ms in LOADING without GO (R92). -/
def mbxLoadTimeout (d : Dev) : Dev :=
  if d.mbxServed = true ∧ d.f MBX_STAT_STATE = mbxLOADING then
    (d.setMbx mbxIDLE).raise MBX_IRQ_RAW_MBX_ABORT
  else d

/-! ## Commands -/

/-- The address of a register of the claim: CMD, or a word of CMD_BUF. -/
def isMbxBuf (a : Nat) : Bool :=
  let o := a / 4 * 4
  o = 0x7100 || (0x7200 ≤ o && o < 0x7300)

/-- MBX_CLAIM (R92): a write to CMD or CMD_BUF. A write elsewhere is not this command. -/
def execMbxClaim (p : Port) (a : BitVec 24) (v : Word) (s : State) : Out :=
  onDev (gateWrite p fun d => if isMbxBuf a.toNat then mbxBufWrite p a.toNat v d else d) s

/-- MBX_GO (R92). -/
def execMbxGo (p : Port) (s : State) : Out := onDev (gateWrite p (mbxGo p 1#32)) s

/-- MBX_ACK (R90). -/
def execMbxAck (p : Port) (s : State) : Out := onDev (gateWrite p (mbxAck p 1#32)) s

/-- MBX_LOAD_TIMEOUT (R92). -/
def execMbxLoadTimeout (s : State) : Out := onDev mbxLoadTimeout s

/-- Version of the image that runs (R95, R532): major, minor, patch, build. The recovery loader answers those of the
image last chosen. (DESIGN CHOICE, log entry 120.) -/
def Dev.fwVersion (d : Dev) : Nat × Nat × Nat × Nat :=
  let img := if d.boot.image then d.nvm.imgB else d.nvm.imgA
  if img.shipped then (2, Config.shippedMinor % 65536, Config.shippedPatch % 65536, Config.shippedBuild % 2 ^ 32)
  else
    let b (i : Nat) : Nat := (SMap.get (fun _ => 0#8) img.data i).toNat
    (b 4 + 256 * b 5, b 6 + 256 * b 7, b 8 + 256 * b 9,
      b 10 + 256 * b 11 + 65536 * b 12 + 16777216 * b 13)

/-- IDENTIFY (R95). -/
def identify (d : Dev) : Dev :=
  let (ma, mi, pa, bu) := d.fwVersion
  d.mbxDone resOK (u16 0x9612 ++ u8 0xB0 ++ u8 (if d.boot.image then 1 else 0) ++
    u64 Config.serial.toNat ++ u16 ma ++ u16 mi ++ u16 pa ++ u32 bu ++ [0#8, 0#8])

def execIdentify (s : State) : Out := onDev (mbxServe 0x0001 (· = 0) identify) s

/-- ECHO (R95): returns the payload. -/
def echo (d : Dev) : Dev := d.mbxDone resOK (d.cmdBytes 0 (4 * d.f MBX_CMD_LEN_W))

def execEcho (s : State) : Out := onDev (mbxServe 0x0002 (· ≤ 64) echo) s

end Sys2Proof.Machine
end

