-- ==== Sys2Proof/Machine/Timebase.lean ====
section
/-! DEFINITION. The timebase: ticks, time of day, PPS servo and steps (R472 to R480). -/
namespace Sys2Proof.Machine

/-- One second in units of 2^-32 ns. -/
def secU : Nat := 1000000000 * 2 ^ 32

/-- What one tick adds to the time of day, in units of 2^-32 ns (R473). The product with RATE is
rounded down (DESIGN CHOICE, log entry 13). -/
def tickAdd (t : TimeSt) : Nat := ((2 ^ 34 : Int) + t.rateU / 16000000000).toNat

/-- Nanoseconds and fraction of the second, in units of 2^-32 ns. -/
def TimeSt.sub (t : TimeSt) : Nat := t.ns * 2 ^ 32 + t.frac

/-- The time of day and tick count one tick later, and whether the tick is the aligned PPS. -/
def TimeSt.advance (t : TimeSt) : TimeSt × Bool :=
  let v := t.sub + tickAdd t
  let t := { t with tick := (t.tick + 1) % 2 ^ 64 }
  if secU ≤ v then
    ({ t with sec := (t.sec + 1) % 2 ^ 48, ns := (v - secU) / 2 ^ 32, frac := (v - secU) % 2 ^ 32 }, true)
  else ({ t with ns := v / 2 ^ 32, frac := v % 2 ^ 32 }, false)

/-- Ask the delivery block for a TIME packet (R416). -/
def Dev.sendTime (d : Dev) (reason : Nat) (epoch : Option Nat := none) : Dev :=
  { d with reqs := d.reqs ++ [.time reason epoch] }

/-- A step of the time of day (R478), with cause 0 HOST or 1 PPS. (DEDUCED, log entry 32.) -/
def Dev.stepTime (d : Dev) (sec ns frac cause : Nat) : Dev :=
  let t := d.time
  let pay := todBytes t.sec t.ns ++ todBytes sec ns ++ u8 cause ++ u64 t.tick
  let d := { d with time := { t with sec := sec % 2 ^ 48, ns, frac, todSet := true,
                                     epoch := (t.epoch + 1) % 65536 } }
  let d := (d.emit 0x026 .tbs pay).sendTime 1 (some t.epoch)
  (d.raise TBS_IRQ_RAW_STEP).bump TBS_STEPS

/-- One tick of the timebase, with the TIME_STEP that falls on it (R479); the aligned PPS latches
its tick count. The second answer says whether the tick is the aligned PPS. (DESIGN CHOICE, log entry 37.) -/
def tickTime (d : Dev) : Dev × Bool :=
  let (t, pps) := d.time.advance
  let d := { d with cyc := d.cyc + 3, time := t }
  let d := if pps then
      (d.setF TBS_PPS_TICK_LO (t.tick % 2 ^ 32)).setF TBS_PPS_TICK_HI (t.tick / 2 ^ 32)
    else d
  let d := match t.stepNow with
    | some (sec, ns) => Dev.stepTime { d with time := { t with stepNow := none } } sec ns 0 0
    | none => d
  let d := match d.time.stepPps, pps with
    | some sec, true => Dev.stepTime { d with time := { d.time with stepPps := none } } sec 0 0 0
    | _, _ => d
  (d, pps)

/-! ## PPS (R475, R476) -/

/-- Error e of the servo at an edge `ph` engine cycles into the tick, in units of 2^-32 ns. -/
def ppsError (d : Dev) (ph : Nat) : Int :=
  let tod : Int := d.time.sub + ph * tickAdd d.time / 3
  let ofs : Int := signed 16 (d.f TBS_PPS_CFG_OFS) * 2 ^ 32
  let r := (tod - ofs) % (secU : Int)
  if 2 * r < secU then r else r - secU

/-- The servo acts on an accepted edge (R476). -/
def servo (ph : Nat) (d : Dev) : Dev :=
  let e := ppsError d ph
  let d := d.setF TBS_PPS_ERR (unsigned 32 (e / 2 ^ 32))
  let t := d.time
  if e.natAbs ≤ 1000 * d.f TBS_SERVO_CFG_STEP_THR * 2 ^ 32 then
    let iU := t.iU + e
    let lim : Int := 1000 * d.f TBS_SERVO_CFG_SLEW_MAX * 2 ^ 38
    let rateU := clampInt (-lim) lim (-(16 * e + iU))
    let d := { d with time := { t with iU, rateU, nOver := 0 } }
    d.setF TBS_RATE (unsigned 32 (rateU / 2 ^ 38))
  else if t.nOver + 1 = 3 then
    let v : Int := t.sec * secU + t.sub - e
    let d := { d with time := { t with iU := 0, nOver := 0 } }
    d.stepTime (v / secU % 2 ^ 48).toNat (v % secU / 2 ^ 32).toNat (v % secU % 2 ^ 32).toNat 1
  else { d with time := { t with nOver := t.nOver + 1 } }

/-- Does an edge lie a second after another one, within the tolerance? -/
def Dev.ppsFits (d : Dev) (now : Nat) (p : Option Nat) : Bool :=
  match p with
  | some p => p + 750000000 ≤ now + 3 * d.f TBS_PPS_TOL_TICKS && now ≤ p + 750000000 + 3 * d.f TBS_PPS_TOL_TICKS
  | none => false

/-- An edge of PPS_IN to level `lvl`, `ph` engine cycles into the tick: it is measured against the last accepted edge and
against the candidate. The first edge has none before it and is a candidate. (DEDUCED, log entry 14.) -/
def ppsEdge (lvl : Bool) (ph : Nat) (d : Dev) : Dev :=
  if d.clocked = false ∨ d.on TBS_PPS_CFG_EN = false ∨ lvl = d.on TBS_PPS_CFG_EDGE then d
  else
    let now := d.cyc + ph
    let t := d.time
    if !(d.ppsFits now t.ppsLast) && !(d.ppsFits now t.ppsCand) then
      Dev.bump { d with time := { t with ppsCand := some now, ppsRun := 0 } } TBS_PPS_REJECT
    else
      let d := Dev.bump { d with time := { t with ppsLast := some now, ppsCand := none, ppsRun := t.ppsRun + 1 } } TBS_PPS_EDGES
      let d := if !d.time.ppsValid && 2 ≤ d.time.ppsRun then
          Dev.raise { d with time := { d.time with ppsValid := true, ppsEver := true } } TBS_IRQ_RAW_PPS_FOUND
        else d
      if d.time.ppsValid then servo ph d else d

/-- PPS_EDGE (R476). -/
def execPpsEdge (lvl : Bool) (ph : Fin 3) (s : State) : Out := onDev (ppsEdge lvl ph) s

/-- PPS_LOST (R475): 1.5 s after the last accepted edge. -/
def ppsLost (d : Dev) : Dev :=
  if d.time.ppsValid then
    let d := { d with time := { d.time with ppsValid := false, ppsRun := 0 } }
    (d.raise TBS_IRQ_RAW_PPS_LOST).emit 0x025 .tbs
  else d

def execPpsLost (s : State) : Out := onDev ppsLost s

/-! ## Reading the time (R474) -/

/-- A read of TICK_LO latches the other four registers. -/
def latchTime (d : Dev) : Dev :=
  let t := d.time
  let d := d.setF TBS_TICK_HI (t.tick / 2 ^ 32)
  let d := d.setF TBS_TOD_NS_NS t.ns
  let d := d.setF TBS_TOD_SEC_LO t.sec
  let d := d.setF TBS_TOD_SEC_HI_SEC (t.sec / 2 ^ 32)
  d.setF TBS_TOD_SEC_HI_EPOCH t.epoch

/-- TICK_LO as it reads. -/
def Dev.tickLo (d : Dev) : Word := BitVec.ofNat 32 d.time.tick

/-- TBS_TICK_LO_READ (R474). -/
def readTickLo (p : Port) (d : Dev) : Dev :=
  if d.serves then (latchTime d).output p [d.tickLo] else d

def execTbsTickLoRead (p : Port) (s : State) : Out := onDev (readTickLo p) s

/-! ## TIME_STEP (R479) -/

/-- A further TIME_STEP replaces one that waits, for the tick as for the aligned PPS.
(DEDUCED, log entries 31 and 32.) -/
def timeStep (d : Dev) : Dev :=
  let sec := d.cmdNat 0 6
  let ns := d.cmdNat 6 4
  let old := u16 d.time.epoch
  if 999999999 < ns then d.mbxDone resBAD_PARAM
  else if d.on TBS_TIME_CFG_STEP_AT_PPS then
    if ns ≠ 0 then d.mbxDone resBAD_PARAM
    else if d.time.ppsValid = false then d.mbxDone resBAD_STATE
    else Dev.mbxDone { d with time := { d.time with stepPps := some sec, stepNow := none } } resOK old
  else Dev.mbxDone { d with time := { d.time with stepNow := some (sec, ns), stepPps := none } } resOK old

def execTimeStep (s : State) : Out := onDev (mbxServe 0x0060 (· = 3) timeStep) s

end Sys2Proof.Machine
end

