-- ==== Sys2Proof/Machine/Array.lean ====
section
/-! DEFINITION. Frames, the row clock and its predictions, tiles and their exposures: what the array
commands share (R97 to R144, R163, R200 to R207). -/
namespace Sys2Proof.Machine

/-! ## Frames (R34, R39, R406) -/

/-! Frame flags (R406). -/
def ffRATE_LIMITED : Nat := 0
def ffPIXEL_RAIL : Nat := 1
def ffDARK_SHORT : Nat := 2
def ffEXP_STRETCHED : Nat := 3
def ffEXP_CLAMPED : Nat := 4
def ffEXP_LATE : Nat := 5
def ffAE_STALE : Nat := 6
def ffSLOT_SKIPPED : Nat := 7
def ffTNR_OFF : Nat := 8
def ffBL_PREV : Nat := 9
def ffOVERWRITTEN : Nat := 10
def ffINCOMPLETE : Nat := 11
def ffRATE_GUARDED : Nat := 12
def ffENC_DROPPED : Nat := 13
def ffCOMPANDED : Nat := 14
def ffREPLAY : Nat := 15
def ffREPLAY_ERR : Nat := 16
def ffDLV_TRUNC : Nat := 17
def ffSEPARATE : Nat := 18

/-- Change the array's part of the state. -/
def Dev.onAry (d : Dev) (f : ArySt → ArySt) : Dev := { d with ary := f d.ary }

def zeroNat : Nat → Nat := fun _ => 0
def noList (α : Type) : Nat → List α := fun _ => []

def noFrame : Nat → Frame := fun _ => {}
def Dev.frame (d : Dev) (u : Nat) : Frame := SMap.get noFrame d.frames u
def Dev.setFrame (d : Dev) (u : Nat) (f : Frame) : Dev :=
  { d with frames := SMap.set noFrame d.frames u f }
def Dev.mapFrame (d : Dev) (u : Nat) (g : Frame → Frame) : Dev := d.setFrame u (g (d.frame u))

/-- The device with the active sets of the generation of frame `u`: what the front end and the stages read
their fields from while they process that frame (R34). -/
def Dev.asOf (d : Dev) (u : Nat) : Dev :=
  match d.gens.find? fun p => p.1 = (d.frame u).gen with
  | some p => { d with act := p.2 }
  | none => d

/-- Set a bit of a flag word. -/
def orBit (n b : Nat) : Nat := if n.testBit b then n else n + 2 ^ b

def Frame.flag (f : Frame) (b : Nat) : Frame := { f with flags := orBit f.flags b }
def Dev.flagFrame (d : Dev) (u b : Nat) : Dev := d.mapFrame u fun f => f.flag b

/-- Key of the own-array frame that began at start tick `k`, while it is in the table. -/
def Dev.frameOfTick (d : Dev) (k : Nat) : Option Nat :=
  (d.frames.find? fun p => p.2.member = 0 && p.2.k = k).map (·.1)

/-- `ARY.FRAME_SEQ` (R205). -/
def Dev.frameSeq (d : Dev) : Nat := d.f ARY_FRAME_SEQ_LO + 2 ^ 32 * d.f ARY_FRAME_SEQ_HI

/-- FRAME_SEQ of the frame of start tick `k`, predicted where it has not begun. (DEDUCED, log entry 52.) -/
def Dev.seqOfTick (d : Dev) (k : Nat) : Nat :=
  match d.frameOfTick k with
  | some u => (d.frame u).fid
  | none => d.frameSeq + (k - d.ary.k)

/-- Set a flag of the frame of start tick `k`; of one that has not begun, it is kept for it.
(DEDUCED, log entry 52.) -/
def Dev.flagTick (d : Dev) (k b : Nat) : Dev :=
  match d.frameOfTick k with
  | some u => d.flagFrame u b
  | none =>
    if k ≤ d.ary.k then d
    else
      let v := orBit (SMap.get zeroNat d.ary.preFlags k) b
      d.onAry fun a => { a with preFlags := SMap.set zeroNat a.preFlags k v }

/-- Write an event once for a frame of the table; its payload begins with FRAME (R586). (DEDUCED, log entry 26.) -/
def Dev.onceFrame (d : Dev) (u code : Nat) (p : Page) (payload : List Byte := []) : Dev :=
  let f := d.frame u
  if f.once.contains code then d
  else (d.setFrame u { f with once := f.once ++ [code] }).emit code p (u64 f.fid ++ payload)

/-- Write an event once for the own-array frame of start tick `k`. (DEDUCED, log entry 26.) -/
def Dev.onceTick (d : Dev) (k code : Nat) (p : Page) (payload : List Byte := []) : Dev :=
  match d.frameOfTick k with
  | some u => d.onceFrame u code p payload
  | none =>
    let l := SMap.get (noList Nat) d.ary.preOnce k
    if l.contains code then d
    else
      let d := d.onAry fun a => { a with preOnce := SMap.set (noList Nat) a.preOnce k (l ++ [code]) }
      d.emit code p (u64 (d.seqOfTick k) ++ payload)

/-! ## Modes and the row clock (R163, R199, R201) -/

def runSTOPPED : Nat := 0
def runARMED : Nat := 1
def runRUNNING : Nat := 2
def runSTOPPING : Nat := 3

def Dev.runState (d : Dev) : Nat := d.f ARY_RUN_STAT_STATE
def Dev.sched (d : Dev) : Nat := d.a ARY_SCHED_CFG_SCHED
def schedPERIODIC : Nat := 0
def schedTRIGGERED : Nat := 1
def schedSTRIP : Nat := 2

/-- T_row of an ADC mode (R113, R199). -/
def rowCycles (tenBit : Bool) : Nat := if tenBit then 234 else 300
def Dev.tRow (d : Dev) : Nat := rowCycles (d.a ARY_ADC_CFG_MODE = 1)
/-- m (R125). -/
def Dev.mSub (d : Dev) : Nat := d.a EXP_EXP_CFG_NSUB + 1
/-- The row-time extension in force (R36, R43, R499). -/
def Dev.rowExt (d : Dev) : Nat := d.f THM_ROW_EXT_E

/-- The first timebase tick at or after a cycle. -/
def tickAt (c : Nat) : Nat := (c + 2) / 3 * 3

/-- T_pass for a number of rows and a row period (R199). -/
def passCycles (rows per : Nat) : Nat := 9000 + rows * per

/-- Frame period P (R201). -/
def framePeriod (fp m rows trow : Nat) : Nat := if fp = 0 then m * passCycles rows trow else fp
def Dev.periodP (d : Dev) : Nat :=
  framePeriod (d.a ARY_FRAME_PERIOD) d.mSub (d.a ARY_PASS_CFG_ROWS) d.tRow

/-- The frame being read or, at the first start tick, armed only. -/
def Dev.inFrame (d : Dev) : Bool := d.ary.cur.isSome || d.ary.armOnly

/-- m, rows and row period of the frame under way. -/
def Dev.curM (d : Dev) : Nat := match d.ary.cur with | some u => (d.frame u).m | none => d.mSub
/-- A strip frame has its 24 dark rows on the row clock; ROWS is not used (R225). -/
def Dev.curRows (d : Dev) : Nat :=
  match d.ary.cur with
  | some u => if (d.frame u).sched = schedSTRIP then 24 else (d.frame u).rows
  | none => if d.sched = schedSTRIP then 24 else d.a ARY_PASS_CFG_ROWS
def Dev.curPer (d : Dev) : Nat :=
  (match d.ary.cur with | some u => rowCycles (d.frame u).tenBit | none => d.tRow) + d.rowExt

/-- When the next boundary of the present pass falls, or the pass ends. -/
def Dev.nextBoundary (d : Dev) : Nat :=
  if d.ary.offered = 0 then d.ary.passB.getLastD 0 + 9000 else d.ary.lastB + d.ary.rowPer

/-- B_i of the frame under way: as it fell, or as predicted from the extension in force. -/
def Dev.passStart (d : Dev) (i : Nat) : Nat :=
  match d.ary.passB[i]? with
  | some b => b
  | none =>
    d.nextBoundary + (d.curRows - d.ary.offered) * d.curPer +
      (i - d.ary.passB.length) * passCycles d.curRows d.curPer

/-- E, the end of the frame under way (R202). -/
def Dev.frameEnd (d : Dev) : Nat := d.passStart d.curM

/-- The grid point at or after a cycle (R201, R202). -/
def gridAt (anchor per e : Nat) : Nat := anchor + (e - anchor + per - 1) / per * per

/-- The next start tick, where it can be predicted (R176, R202, R204, R218). (DEDUCED, log entry 51.) -/
def Dev.nextStart (d : Dev) : Option Nat :=
  if d.inFrame = false then none
  else if d.sched = schedPERIODIC then
    if d.a ARY_FRAME_PERIOD = 0 then some (tickAt d.frameEnd)
    else some (gridAt d.ary.anchor d.ary.period d.frameEnd)
  else if d.sched = schedTRIGGERED then
    d.ary.request.map fun r => tickAt (max r d.frameEnd)
  else if d.ary.complete || d.ary.armOnly then some (tickAt d.frameEnd)
  else none

/-- Does a running schedule fix or serve a frame, so that a commit waits for a start tick (R33)? A triggered schedule
with no request does until E. (DEDUCED, log entry 52.) -/
def Dev.readingNow (d : Dev) : Bool :=
  d.runState = runSTOPPING ||
    (d.runState = runRUNNING &&
      (d.sched != schedTRIGGERED || d.ary.request.isSome ||
        (d.inFrame && ((d.ary.cur.isSome && !d.ary.complete) || decide (d.cyc < d.frameEnd)))))

/-- START_SEC and START_NS as a time of day, in units of 2^-32 ns. -/
def Dev.startTod (d : Dev) : Nat :=
  (d.f ARY_START_SEC_LO + 2 ^ 32 * d.f ARY_START_SEC_HI) * secU + d.f ARY_START_NS * 2 ^ 32

/-- While ARMED for TOD, T_a occurs once the time of day is at or past START: at this tick, or where START was written
after it, so many ticks before (R200, R480). -/
def todArms (written : Bool) (d : Dev) : Dev :=
  let now := d.time.sec * secU + d.time.sub
  if d.runState = runARMED ∧ d.f ARY_START_CFG_SRC = 1 ∧ d.ary.startTa.isNone ∧ d.startTod ≤ now then
    let back := if written then 3 * ((now - d.startTod) / tickAdd d.time) else 0
    d.onAry fun a => { a with startTa := some ((d.cyc : Int) - back) }
  else d

/-! ## Rows and tiles (R97 to R101, R114) -/

/-- Rows before the active area in each bank (R99). -/
def darkRows : Nat := 24

/-- y of an active row of a bank (R99). -/
def rowY (bank r : Nat) : Nat := if bank = 0 then r - 24 else 8215 - r

/-- Tile number of a stripe and tile row (R97). -/
def tileNo (stripe ty : Nat) : Nat := 96 * ty + stripe

/-- The tile whose context a row of a stripe takes: its own, or the edge tile of a dark row (R114). -/
def tileOfRow (stripe bank r : Nat) : Nat :=
  if r < 24 then (if bank = 0 then stripe else 6048 + stripe) else tileNo stripe (rowY bank r / 128)

def noTile : Nat → TileSt := fun _ => {}
def Dev.tile (d : Dev) (t : Nat) : TileSt := SMap.get noTile d.ary.tiles t
def Dev.setTile (d : Dev) (t : Nat) (x : TileSt) : Dev :=
  { d with ary := { d.ary with tiles := SMap.set noTile d.ary.tiles t x } }

/-- The tile's bit of `ENG.READ_MASK` (R181). -/
def Dev.readMask (d : Dev) (t : Nat) : Bool :=
  let ty := t / 96
  if ty < 32 then (d.ai ENG_READ_MASK_LO (t % 96) 0).testBit ty
  else (d.ai ENG_READ_MASK_HI (t % 96) 0).testBit (ty - 32)

/-- Does any row of the tile await read (R105, R181)? -/
def Dev.awaits (d : Dev) (t now : Nat) : Bool :=
  d.readMask t && ((d.tile t).unread != 0 || decide (now < (d.tile t).convAt))

/-- Rows a TX leaves to be read: all of the tile, or its strip rows (R105, R224); none where READ_MASK leaves the
tile out as the TX falls, for good. (DEDUCED, log entry 56.) -/
def Dev.rowsToRead (d : Dev) (t : Nat) : Nat :=
  if d.readMask t = false then 0
  else if d.sched = schedSTRIP then
    let bank := if t / 96 < 32 then 0 else 1
    let r := if bank = 0 then d.a TRG_STRIP_ROW_TOP else d.a TRG_STRIP_ROW_BOT
    (if tileOfRow (t % 96) bank r = t then 2 ^ (rowY bank r % 128) else 0) +
      (if tileOfRow (t % 96) bank (r + 1) = t then 2 ^ (rowY bank (r + 1) % 128) else 0)
  else 2 ^ 128 - 1

/-- The event of a tile for a sub-exposure of the frame of start tick `k`. -/
def TileSt.eventOf (x : TileSt) (sub k : Nat) : Option ShutEv :=
  x.events.find? fun e => e.sub = sub && e.frame = some k

def ShutEv.finished (e : ShutEv) : Bool := e.st = .done

/-! ## Contexts (R134 to R139) -/

/-- Word `i` of the context of tile `t` in bank `b`. -/
def Dev.ctxWord (d : Dev) (b t i : Nat) : Word := d.word (0x100000 + (b * 6144 + t) * 16 + 4 * i)
def Dev.ctxWords (d : Dev) (b t : Nat) : List Word := (List.range 4).map (d.ctxWord b t)
def Dev.activeBank (d : Dev) : Nat := d.f EXP_CTX_CTRL_ACTIVE

/-- The context words of a tile that govern a frame: those of its bank as its start tick left them (R34, R140). -/
def Frame.ctxWords (f : Frame) (t : Nat) : List Word :=
  (List.range 4).map fun i => SMap.get resetWord f.ctxs (0x100000 + (f.bank * 6144 + t) * 16 + 4 * i)

/-- The words of a bank that do not read as after reset. -/
def Dev.bankWords (d : Dev) (b : Nat) : SMap Word :=
  d.regs.filter fun p => 0x100000 + b * 98304 ≤ p.1 && p.1 < 0x100000 + (b + 1) * 98304

/-- Bits of a context entry by the numbering of R134, within one of its words. -/
def ctxBits (w : List Word) (hi lo : Nat) : Nat := bitsOf ((w[lo / 32]?).getD 0#32) (hi % 32) (lo % 32)

def ctxDur0 (c : List Word) : Nat := ctxBits c 31 0
def ctxSub (c : List Word) : Nat := ctxBits c 35 32
def ctxAlign (c : List Word) : Nat := ctxBits c 39 38
def ctxOffset (c : List Word) : Nat := ctxBits c 63 40
def ctxGrp (c : List Word) : Nat := ctxBits c 71 64
def ctxCg (c : List Word) : Nat := ctxBits c 75 72
def ctxRstHold (c : List Word) : Bool := ctxBits c 96 96 = 1
def ctxLock (c : List Word) : Bool := ctxBits c 97 97 = 1
def ctxExcl (c : List Word) : Bool := ctxBits c 98 98 = 1
def ctxTag (c : List Word) : Nat := ctxBits c 111 104
def ctxQ (c : List Word) : Nat → Nat
  | 1 => ctxBits c 83 78
  | 2 => ctxBits c 89 84
  | 3 => ctxBits c 95 90
  | _ => 0
def ctxG (c : List Word) : Nat → Nat
  | 0 => ctxBits c 115 112
  | 1 => ctxBits c 119 116
  | 2 => ctxBits c 123 120
  | _ => ctxBits c 127 124

/-- The factors M of R136. -/
def ratioM : Nat → Nat
  | 0 => 32768
  | 1 => 27554
  | 2 => 23170
  | _ => 19484

/-- d_i as R136 computes it, before the 300-cycle minimum. -/
def ratioDur (dur0 q : Nat) : Nat := dur0 * ratioM (q % 4) / 2 ^ (15 + q / 4)
def ctxDurRaw (c : List Word) (i : Nat) : Nat := if i = 0 then ctxDur0 c else ratioDur (ctxDur0 c) (ctxQ c i)
/-- d_i as carried out. -/
def ctxDur (c : List Word) (i : Nat) : Nat := max 300 (ctxDurRaw c i)

/-- Start of an exposure in its slot, from X (R127). -/
def slotStart (align x slot dur offset : Nat) : Int :=
  if align = 0 then (x : Int) - dur
  else if align = 1 then (x : Int) - slot + ((slot : Int) - dur) / 2
  else (x : Int) - slot + offset

/-- Slot end X_i of a frame's pass, from B_i (R126). -/
def slotEnd (b : Nat) : Nat := b + 8940

end Sys2Proof.Machine
end

