-- ==== Sys2Proof/Machine/Queue.lean ====
section
/-! DEFINITION. The queue table, credit, and deficit round robin (R279, R407 to R410). -/
namespace Sys2Proof.Machine

/-! ## Queue entries (R407) -/

/-- Address of a word of a queue's entry. -/
def qAddr (q w : Nat) : Nat := 0x140000 + 32 * q + 4 * w

def Dev.qGet (d : Dev) (q w hi lo : Nat) : Nat := bitsOf (d.word (qAddr q w)) hi lo
def Dev.qSet (d : Dev) (q w hi lo v : Nat) : Dev :=
  d.putWord (qAddr q w) (setBits (d.word (qAddr q w)) hi lo v)

def Dev.qCap (d : Dev) (q : Nat) : Nat := d.qGet q 0 24 16 * 65536
def Dev.qWeight (d : Dev) (q : Nat) : Nat := d.qGet q 0 15 8
/-- Largest LEN of a queue. -/
def Dev.qMaxLen (d : Dev) (q : Nat) : Nat := 4096 / 2 ^ d.qGet q 0 6 4
def Dev.qInf (d : Dev) (q : Nat) : Bool := q = 0 || d.qGet q 0 3 3 = 1
/-- Queue 0 has class P0 (R408). -/
def Dev.qClass (d : Dev) (q : Nat) : Nat := if q = 0 then 0 else d.qGet q 0 2 1
def Dev.qEn (d : Dev) (q : Nat) : Bool := q = 0 || d.qGet q 0 0 0 = 1
def Dev.qLimit (d : Dev) (q : Nat) : Nat := d.qGet q 1 31 0
def Dev.qUsed (d : Dev) (q : Nat) : Nat := d.qGet q 2 31 0

/-- Is a source bound to this queue (R408)? -/
def Dev.bound (d : Dev) (q : Nat) : Bool := q != 0 && d.qEn q

/-- Credits a packet of LEN bytes consumes (R409). -/
def credits (len : Nat) : Nat := (len + 20 + 255) / 256

/-- Is a packet of LEN bytes within the queue's credit (R409)? -/
def Dev.within (d : Dev) (q len : Nat) : Bool :=
  d.qInf q || decide ((d.qLimit q + 2 ^ 33 - d.qUsed q - credits len) % 2 ^ 32 < 2 ^ 31)

/-- May a held source hand over a packet of LEN bytes? (DEDUCED, log entry 88.) -/
def Dev.queueTakes (d : Dev) (q len : Nat) : Bool := d.active .dlv && d.bound q && d.within q len

/-- May a pin engine's packet, of one credit at most, be handed over? -/
def Dev.queueOpen (d : Dev) (q : Nat) : Bool := d.queueTakes q 60

/-! ## Deficit round robin (R279) -/

def noInt : Nat → Int := fun _ => 0
def Drr.deficit (r : Drr) (m : Nat) : Int := SMap.get noInt r.defs m
def Drr.setDeficit (r : Drr) (m : Nat) (v : Int) : Drr := { r with defs := SMap.set noInt r.defs m v }

/-- Is `k` passed when the turn goes on from `a` to `b`? -/
def drrPassed (a b k : Nat) : Bool :=
  if a < b then decide (a ≤ k) && decide (k < b) else decide (a ≤ k) || decide (k < b)

/-- The turn goes on to the next member with something waiting: those passed with nothing lose their
deficit, and the new member's quantum is added. `w` lists member, quantum and size of its head. -/
def drrAdvance (w : List (Nat × Nat × Nat)) (r : Drr) : Drr :=
  match (w.find? fun e => decide (r.cur < e.1)) <|> w.head? with
  | none => r
  | some (m, q, _) =>
    let idle (k : Nat) : Bool := drrPassed r.cur m k && !(w.any fun e => e.1 = k)
    let r := { r with cur := m, inTurn := true, defs := r.defs.filter fun p => !idle p.1 }
    r.setDeficit m (r.deficit m + q)

/-- The member granted next, among those with something waiting in rising order. -/
def drrNext : Nat → List (Nat × Nat × Nat) → Drr → Option (Nat × Drr)
  | 0, _, _ => none
  | n + 1, w, r =>
    match w.find? fun e => e.1 = r.cur with
    | some (m, _, size) =>
      if r.inTurn ∧ (size : Int) ≤ r.deficit m then some (m, r.setDeficit m (r.deficit m - size))
      else drrNext n w (drrAdvance w r)
    | none => if w.isEmpty then none else drrNext n w (drrAdvance w r)

end Sys2Proof.Machine
end

