-- ==== Sys2Proof/Machine/PinEngine.lean ====
section
/-! DEFINITION. The pin engines and their pins, all but TRIG (R234 to R252). An instruction runs only
on an engine whose next word spells it. -/
namespace Sys2Proof.Machine

/-! ## Instruction words (R239, R240, R244) -/

/-- A WAIT source. Reserved: class 1 index above 10, a kind with class 1, bit 0. -/
def pWait (w : Word) : Option PWait :=
  let b := bitsOf w
  if b 0 0 ≠ 0 then none
  else if b 7 7 = 0 then some (.pin (Fin.ofNat 16 (b 6 3)) (Fin.ofNat 4 (b 2 1)))
  else if b 2 1 ≠ 0 then none
  else if b 6 3 < 8 then some (.line (Fin.ofNat 8 (b 6 3)))
  else match b 6 3 with
    | 8 => some .start
    | 9 => some .pps
    | 10 => some .param
    | _ => none

/-- The instruction an operand field spells for an opcode. (DEDUCED, log entry 60.) -/
def pOperands (op : Nat) (w : Word) : Option PIns :=
  let b := bitsOf w
  let free (hi lo : Nat) (i : Option PIns) : Option PIns := if b hi lo = 0 then i else none
  let r (hi lo : Nat) : Fin 4 := Fin.ofNat 4 (b hi lo)
  match op with
  | 0x0 => free 7 0 (some .nop)
  | 0x1 => some (.ldi (r 7 6) (BitVec.ofNat 6 (b 5 0)))
  | 0x2 => free 5 3 (some (.ldk (r 7 6) (Fin.ofNat 8 (b 2 0))))
  | 0x3 => some (.addi (r 7 6) (BitVec.ofNat 6 (b 5 0)))
  | 0x4 => free 3 2 (some (.mov (r 7 6) (r 5 4) (r 1 0)))
  | 0x5 => some (.jmp (Fin.ofNat 8 (b 7 5)) (Fin.ofNat 32 (b 4 0)))
  | 0x6 => (pWait w).map .wait
  | 0x7 =>
    if b 7 7 = 1 then free 6 3 (some (.dly true (Fin.ofNat 8 (b 2 0))))
    else free 6 2 (some (.dly false (Fin.ofNat 8 (b 1 0))))
  | 0x8 => some (.setp (Fin.ofNat 16 (b 7 4)) (Fin.ofNat 16 (b 3 0)))
  | 0x9 => free 7 1 (some (.pull (b 0 0 = 1)))
  | 0xA => free 5 1 (some (.push (r 7 6) (b 0 0 = 1)))
  | 0xB => free 7 1 (some (.qdec (b 0 0 = 1)))
  | 0xC => free 7 0 (some .trig)
  | 0xD => free 7 1 (some (.stamp (b 0 0 = 1)))
  | 0xE => free 7 1 (some (.irq (Fin.ofNat 2 (b 0 0))))
  | _ => free 7 0 (some .stop)

/-- Decode an instruction word into its instruction and its DELAY. (DEDUCED, log entries 10 and 60.) -/
def pDecode (w : Word) : Option (PIns × Nat) :=
  (pOperands (bitsOf w 15 12) w).map fun i => (i, bitsOf w 11 8)

/-! ## Engines -/

def peSTOPPED : Nat := 0
def peARMED : Nat := 1
def peRUN : Nat := 2
def peWAIT : Nat := 3
def peFIFO : Nat := 4

def noPe : Nat → PeSt := fun _ => {}
def Dev.pin (d : Dev) (e : Nat) : PeSt := SMap.get noPe d.pe e
def Dev.setPin (d : Dev) (e : Nat) (g : PeSt) : Dev := { d with pe := SMap.set noPe d.pe e g }
def Dev.mapPin (d : Dev) (e : Nat) (f : PeSt → PeSt) : Dev := d.setPin e (f (d.pin e))

def pePage (e : Nat) : Page := .pe (Fin.ofNat 8 e)

/-- The instruction at the engine's PC. -/
def Dev.peIns (d : Dev) (e : Nat) : Option (PIns × Nat) :=
  pDecode (BitVec.ofNat 32 (d.fi PE_IMEM_WORD e (d.pin e).pc))
def Dev.peDelay (d : Dev) (e : Nat) : Nat := match d.peIns e with | some (_, n) => n | none => 0

/-- Is the engine about to issue an instruction? -/
def PeSt.issues (g : PeSt) : Bool := g.state = peRUN && !g.idle && g.stall = .none

/-- Is the engine about to issue this instruction with this DELAY? (DEDUCED, log entry 10.) -/
def Dev.peReady (d : Dev) (e : Nat) (i : PIns) (dly : Nat) : Bool :=
  (d.pin e).issues && d.peIns e = some (i, dly)

/-- The instruction at PC has ended (R239). -/
def PeSt.advance (g : PeSt) : PeSt :=
  { g with pc := (match g.jump with | some a => a | none => (g.pc + 1) % 32),
           idle := false, jump := none, stall := .none, state := peRUN }

/-- The instruction completes: its DELAY begins, or the next instruction issues. -/
def PeSt.complete (g : PeSt) (dly : Nat) (jump : Option Nat := none) : PeSt :=
  let g := { g with jump := jump, stall := .none, state := peRUN }
  if dly = 0 then g.advance else { g with idle := true }

def Dev.peDone (d : Dev) (e dly : Nat) (jump : Option Nat := none) : Dev :=
  d.mapPin e fun g => g.complete dly jump

/-- The engine stalls in its instruction. -/
def Dev.peStall (d : Dev) (e st : Nat) (x : PStall) : Dev :=
  d.mapPin e fun g => { g with state := st, stall := x }

/-- An instruction that completes on its issue cycle. (DEDUCED, log entry 10.) -/
def peRun (e : Nat) (i : PIns) (dly : Nat) (f : Dev → Dev) (d : Dev) : Dev :=
  if d.peReady e i dly then (f d).peDone e dly else d

/-! ## Registers (R238) -/

def PeSt.reg (g : PeSt) : Nat → Nat
  | 0 => g.a | 1 => g.b | 2 => g.c | _ => g.d
def PeSt.setReg (g : PeSt) (r v : Nat) : PeSt :=
  let v := v % 2 ^ 32
  match r with
  | 0 => { g with a := v } | 1 => { g with b := v } | 2 => { g with c := v } | _ => { g with d := v }

/-- Write a result, and set Z and N by it. -/
def PeSt.setResult (g : PeSt) (r : Nat) (v : Int) : PeSt :=
  let n := unsigned 32 v
  { g.setReg r n with z := n = 0, n := n.testBit 31 }

/-- PE_NOP. -/
def execPeNop (e : Fin 8) (dly : Fin 16) (s : State) : Out := onDev (peRun e .nop dly id) s

/-- PE_LDI. -/
def execPeLdi (e : Fin 8) (r : Fin 4) (imm : BitVec 6) (dly : Fin 16) (s : State) : Out :=
  onDev (fun d => peRun e (.ldi r imm) dly (fun d => d.mapPin e fun g => g.setReg r imm.toNat) d) s

/-- PE_LDK: a constant of the active generation. -/
def execPeLdk (e : Fin 8) (r : Fin 4) (k : Fin 8) (dly : Fin 16) (s : State) : Out :=
  onDev (fun d =>
    peRun e (.ldk r k) dly (fun d => d.mapPin e fun g => g.setReg r (d.ai PE_K e k)) d) s

/-- PE_ADDI. -/
def execPeAddi (e : Fin 8) (r : Fin 4) (imm : BitVec 6) (dly : Fin 16) (s : State) : Out :=
  onDev (fun d => peRun e (.addi r imm) dly
    (fun d => d.mapPin e fun g => g.setResult r (g.reg r + imm.toInt)) d) s

/-- The result of MOV. -/
def movResult (r s : Int) : Nat → Int
  | 0 => s | 1 => r + s | 2 => r - s | _ => -s

/-- PE_MOV. -/
def execPeMov (e : Fin 8) (r q : Fin 4) (op : Fin 4) (dly : Fin 16) (s : State) : Out :=
  onDev (fun d => peRun e (.mov r q op) dly
    (fun d => d.mapPin e fun g => g.setResult r (movResult (g.reg r) (g.reg q) op)) d) s

/-! ## Jumps (R241) -/

/-- The filtered input of a pin, as an engine sees it (R237). (DEDUCED, log entry 61.) -/
def Dev.pinLevel (d : Dev) (e p : Nat) : Bool := (SMap.get zeroNat d.pioF e).testBit p

def Dev.peCond (d : Dev) (e : Nat) (c : Nat) : Bool :=
  let g := d.pin e
  match c with
  | 0 => true
  | 1 => g.z
  | 2 => !g.z
  | 3 => g.n
  | 4 => g.a != 0
  | 5 => d.pinLevel e (d.fi PE_IN_CFG_JPIN e 0)
  | 6 => g.stale
  | _ => g.parF.isEmpty

/-- JMP: ADEC decrements A after the test. -/
def peJmp (e c a dly : Nat) (d : Dev) : Dev :=
  let take := d.peCond e c
  let d := if c = 4 then d.mapPin e fun g => g.setReg 0 (unsigned 32 ((g.a : Int) - 1)) else d
  d.peDone e dly (if take then some a else none)

/-- PE_JMP. -/
def execPeJmp (e : Fin 8) (cond : Fin 8) (addr : Fin 32) (dly : Fin 16) (s : State) : Out :=
  onDev (fun d => if d.peReady e (.jmp cond addr) dly then peJmp e cond addr dly d else d) s

/-! ## WAIT (R242) -/

/-- Does a level condition hold? -/
def Dev.peLevel (d : Dev) (e : Nat) : PWait → Bool
  | .pin p k => (k = 0 && !d.pinLevel e p) || (k = 1 && d.pinLevel e p)
  | .param => !(d.pin e).parF.isEmpty
  | _ => false

/-- PE_WAIT. -/
def execPeWait (e : Fin 8) (w : PWait) (dly : Fin 16) (s : State) : Out :=
  onDev (fun d => if d.peReady e (.wait w) dly then
      if d.peLevel e w then d.peDone e dly else d.peStall e peWAIT (.wait w false)
    else d) s

/-- A stalled WAIT whose condition has come completes. -/
def peWaitDone (e : Nat) (d : Dev) : Dev :=
  match (d.pin e).stall with
  | .wait w met => if met || d.peLevel e w then d.peDone e (d.peDelay e) else d
  | _ => d

/-- PE_WAIT_DONE. -/
def execPeWaitDone (e : Fin 8) (s : State) : Out := onDev (peWaitDone e) s

/-- An event of class 1 occurs: an engine that waits for it may go on; one that runs and does not
wait for it counts a miss. (DEDUCED, log entry 61.) -/
def peEvent (w : PWait) (d : Dev) : Dev :=
  (List.range 8).foldl (fun d e =>
    let g := d.pin e
    if g.state < peRUN then d
    else match g.stall with
      | .wait v _ => if v = w then d.setPin e { g with stall := .wait v true } else d.bumpI PE_EVT_MISS e 0
      | _ => d.bumpI PE_EVT_MISS e 0) d

/-- Has the synchronised input held a level for IN_CFG.FILT cycles (R237)? -/
def Dev.filtered (d : Dev) (e p : Nat) (lvl : Bool) (now : Nat) : Bool :=
  d.pio.testBit p = lvl && decide (SMap.get zeroNat d.pioAt p + d.fi PE_IN_CFG_FILT e 0 ≤ now)

/-- The level of a pin changes for an engine, once its filter accepts it; a WAIT for that edge may go on. -/
def pePinEdge (e p : Nat) (lvl : Bool) (now : Nat) (d : Dev) : Dev :=
  if d.pinLevel e p = lvl ∨ d.filtered e p lvl now = false then d
  else
    let m := SMap.get zeroNat d.pioF e
    let m := if lvl then m + 2 ^ p else m - 2 ^ p
    let d := { d with pioF := SMap.set zeroNat d.pioF e m }
    match (d.pin e).stall with
    | .wait (.pin q k) _ =>
      if q.val = p ∧ k = (if lvl then 2 else 3) then d.mapPin e fun g => { g with stall := .wait (.pin q k) true }
      else d
    | _ => d

/-! ## DLY and DELAY (R239, R240) -/

/-- PE_DLY: v + 1 cycles; STATE reads RUN meanwhile. (DESIGN CHOICE, log entry 120.) -/
def execPeDly (e : Fin 8) (konst : Bool) (n : Fin 8) (dly : Fin 16) (s : State) : Out :=
  onDev (fun d => if d.peReady e (.dly konst n) dly then
      let v := if konst then d.ai PE_K e n else (d.pin e).reg n
      if v = 0 then d.peDone e dly else d.peStall e peRUN .dly
    else d) s

/-- PE_DLY_DONE. -/
def execPeDlyDone (e : Fin 8) (s : State) : Out :=
  onDev (fun d => if (d.pin e).stall = .dly then d.peDone e (d.peDelay e) else d) s

/-- PE_DELAY_END. -/
def execPeDelayEnd (e : Fin 8) (s : State) : Out :=
  onDev (fun d => if (d.pin e).idle then d.mapPin e PeSt.advance else d) s

/-! ## Outputs (R235, R236, R251) -/

/-- (DEDUCED, log entry 61.) -/
def Dev.peSafe (d : Dev) (e : Nat) : Nat := d.fi PE_OUT_CFG_SAFE e 0

/-- Bits of `n` replaced by those of `v` where `m` has 1. -/
def maskIn (n m v : Nat) : Nat :=
  (List.range 4).foldl (fun a j => if (if m.testBit j then v.testBit j else n.testBit j) then a + 2 ^ j else a) 0

/-- Bits of `m` that `v` has equal to `safe`. -/
def atSafe (m v safe : Nat) : Nat :=
  (List.range 4).foldl (fun a j => if m.testBit j && (v.testBit j = safe.testBit j) then a + 2 ^ j else a) 0

/-- SETP; an output set to its SAFE level is forced no longer. (DEDUCED, log entry 61.) -/
def peSetp (e m v : Nat) (d : Dev) : Dev :=
  d.mapPin e fun g =>
    { g with outs := maskIn g.outs m v, forced := maskIn g.forced (atSafe m v (d.peSafe e)) 0 }

/-- PE_SETP. -/
def execPeSetp (e : Fin 8) (mask value : Fin 16) (dly : Fin 16) (s : State) : Out :=
  onDev (fun d => peRun e (.setp mask value) dly (peSetp e mask value) d) s

/-- The level an engine gives output `j` where it drives it: the program's while it runs, else SAFE.
(DEDUCED, log entry 61.) -/
def Dev.peOut (d : Dev) (e j : Nat) : Bool :=
  let g := d.pin e
  if g.state = peSTOPPED ∨ g.forced.testBit j then (d.peSafe e).testBit j else g.outs.testBit j

/-- Pin of output `j`, where OEN drives one. -/
def Dev.pePinOf (d : Dev) (e j : Nat) : Option Nat :=
  if (d.fi PE_OUT_CFG_OEN e 0).testBit j then some (d.fi PE_OUT_CFG_PINS e 0 / 16 ^ j % 16) else none

/-- Does the engine claim the pin? -/
def Dev.peClaims (d : Dev) (e p : Nat) : Bool := (List.range 4).any fun j => d.pePinOf e j = some p

/-- The engine and level that drive a pin; none, and it is high-impedance. An enabled claim comes
before a disabled engine's SAFE level; the lowest-numbered engine, and its lowest-numbered output, drives the pin.
(DESIGN CHOICE, log entry 121.) -/
def Dev.pioDrive (d : Dev) (p : Nat) : Option (Nat × Bool) :=
  let es := (List.range 8).filter fun e => d.peClaims e p
  let on := es.filter fun e => d.hf (pePage e) HD_PAGE_CTRL_EN = 1
  match (if on.isEmpty then es else on) with
  | [] => none
  | e :: _ => ((List.range 4).find? fun j => d.pePinOf e j = some p).map fun j => (e, d.peOut e j)

/-- Is a claim of the engine overridden by a lower-numbered enabled engine? -/
def Dev.pinClash (d : Dev) (e : Nat) : Bool :=
  (List.range e).any fun f =>
    d.hf (pePage f) HD_PAGE_CTRL_EN = 1 && (List.range 16).any fun p => d.peClaims f p && d.peClaims e p

/-- PE_GUARD_TRIP (R251): an output held opposite its SAFE level too long. -/
def peGuard (e j : Nat) (d : Dev) : Dev :=
  if d.fi PE_OUT_GUARD_MAX_ON e 0 ≠ 0 ∧ (d.fi PE_OUT_GUARD_MASK e 0).testBit j ∧
      d.peOut e j ≠ (d.peSafe e).testBit j then
    let d := d.mapPin e fun g => { g with forced := orBit g.forced j }
    ((d.bumpI PE_GUARD_TRIP e 0).raiseI PE_IRQ_RAW_GUARD e).emit 0x053 (pePage e)
  else d

def execPeGuardTrip (e : Fin 8) (j : Fin 4) (s : State) : Out := onDev (peGuard e j) s

/-! ## Parameter FIFO (R249) -/

def peTake (e : Nat) (d : Dev) : Dev :=
  match (d.pin e).parF with
  | w :: t => d.mapPin e fun g => { g with parF := t, a := w.toNat, stale := false }
  | [] => d

/-- PE_PULL. -/
def execPePull (e : Fin 8) (nb : Bool) (dly : Fin 16) (s : State) : Out :=
  onDev (fun d => if d.peReady e (.pull nb) dly then
      if (d.pin e).parF.isEmpty = false then (peTake e d).peDone e dly
      else if nb then
        ((d.bumpI PE_PULL_STALE e 0).mapPin e fun g => { g with stale := true }).peDone e dly
      else d.peStall e peFIFO .pull
    else d) s

/-- PE_PULL_DONE. -/
def execPePullDone (e : Fin 8) (s : State) : Out :=
  onDev (fun d => if (d.pin e).stall = .pull ∧ (d.pin e).parF.isEmpty = false then
    (peTake e d).peDone e (d.peDelay e) else d) s

/-- A write to PARAM. -/
def peParam (p : Port) (e : Nat) (v : Word) (d : Dev) : Dev :=
  let g := d.pin e
  if g.fwOwn ∧ p ≠ .fw then d.reject (pePage e) p (PE_PARAM.addr e 0) v 6
  else if 8 ≤ g.parF.length then (d.bumpI PE_PARAM_OVF e 0).raiseI PE_IRQ_RAW_PARAM_OVF e
  else d.setPin e { g with parF := g.parF ++ [v] }

/-- PE_PARAM_WRITE. -/
def execPeParamWrite (p : Port) (e : Fin 8) (v : Word) (s : State) : Out :=
  onDev (gatePage p (.pe e) (peParam p e v)) s

/-! ## Output FIFO (R249, R250) -/

/-- The output FIFO's DMA works: enabled, and not suspended by FOCUS_RUN. -/
def Dev.peDmaOn (d : Dev) (e : Nat) : Bool := d.fi PE_DMA_CFG_EN e 0 = 1 && !(d.pin e).fwOwn

/-- Send up to `n` words of the output FIFO to its queue. -/
def peDmaSend (e n : Nat) (d : Dev) : Dev :=
  let g := d.pin e
  let d := d.setPin e { g with outF := g.outF.drop n }
  { d with reqs := d.reqs ++ [.peData e (d.fi PE_DMA_CFG_QID e 0) (g.outF.take n)] }

/-- BATCH words wait: they are sent, unless the queue has no credit. -/
def peBatch (e : Nat) (d : Dev) : Dev :=
  let n := d.fi PE_DMA_CFG_BATCH e 0
  if d.peDmaOn e ∧ n ≤ (d.pin e).outF.length ∧ d.queueOpen (d.fi PE_DMA_CFG_QID e 0) then
    peDmaSend e n d
  else d

/-- Words enter the output FIFO, all or none. -/
def pePut (e : Nat) (ws : List Word) (d : Dev) : Dev :=
  peBatch e (d.mapPin e fun g => { g with outF := g.outF ++ ws, drop := false })

/-- PUSH and STAMP: `ws` enter the FIFO, or the engine stalls, or they are dropped. -/
def pePush (e : Nat) (ws : List Word) (nb : Bool) (dly : Nat) (d : Dev) : Dev :=
  if (d.pin e).outF.length + ws.length ≤ 8 then (pePut e ws d).peDone e dly
  else if nb then
    ((d.bumpI PE_PUSH_DROP e 0).mapPin e fun g => { g with drop := true }).peDone e dly
  else d.peStall e peFIFO (.push ws)

/-- PE_PUSH. -/
def execPePush (e : Fin 8) (r : Fin 4) (nb : Bool) (dly : Fin 16) (s : State) : Out :=
  onDev (fun d => if d.peReady e (.push r nb) dly then
    pePush e [BitVec.ofNat 32 ((d.pin e).reg r)] nb dly d else d) s

/-- PE_STAMP: the tick count of the last tick at or before issue, low word first. -/
def execPeStamp (e : Fin 8) (nb : Bool) (dly : Fin 16) (s : State) : Out :=
  onDev (fun d => if d.peReady e (.stamp nb) dly then
    pePush e (wordsOf (u64 d.time.tick)) nb dly d else d) s

/-- PE_PUSH_DONE: a stalled PUSH or STAMP finds its space. -/
def pePushDone (e : Nat) (d : Dev) : Dev :=
  match (d.pin e).stall with
  | .push ws =>
    if (d.pin e).outF.length + ws.length ≤ 8 then (pePut e ws d).peDone e (d.peDelay e) else d
  | _ => d

def execPePushDone (e : Fin 8) (s : State) : Out := onDev (pePushDone e) s

/-- A read of OUT: the oldest word, removed; 0 and nothing removed while firmware or the DMA takes
the words. -/
def peOutRead (p : Port) (e : Nat) (d : Dev) : Dev :=
  let g := d.pin e
  let mine := if g.fwOwn then p = .fw else d.fi PE_DMA_CFG_EN e 0 = 0
  match g.outF with
  | w :: t => if mine then (d.setPin e { g with outF := t }).output p [w] else d.output p [0#32]
  | [] => d.output p [0#32]

/-- PE_OUT_READ. -/
def execPeOutRead (p : Port) (e : Fin 8) (s : State) : Out :=
  onDev (fun d => if d.serves then peOutRead p e d else d) s

/-- PE_DMA_TIMEOUT: the words that wait are sent, up to BATCH. -/
def peDmaTimeout (e : Nat) (d : Dev) : Dev :=
  if d.peDmaOn e ∧ d.fi PE_DMA_TMO_TMO e 0 ≠ 0 ∧ (d.pin e).outF ≠ [] ∧
      d.queueOpen (d.fi PE_DMA_CFG_QID e 0) then
    peDmaSend e (d.fi PE_DMA_CFG_BATCH e 0) d
  else d

def execPeDmaTimeout (e : Fin 8) (s : State) : Out := onDev (peDmaTimeout e) s

/-- A write of 1 to CTRL.FLUSH. -/
def peFlush (e : Nat) (d : Dev) : Dev :=
  if d.hf (pePage e) HD_PAGE_CTRL_EN = 0 then d.mapPin e fun g => { g with parF := [], outF := [] } else d

/-- PE_FLUSH. -/
def execPeFlush (p : Port) (e : Fin 8) (s : State) : Out := onDev (gatePage p (.pe e) (peFlush e)) s

/-! ## QDEC (R243) -/

/-- The state (QA, QB) of an engine's inputs, as QA + 2 × QB. -/
def Dev.quadNow (d : Dev) (e : Nat) : Nat :=
  b2n (d.pinLevel e (d.fi PE_IN_CFG_QA e 0)) + 2 * b2n (d.pinLevel e (d.fi PE_IN_CFG_QB e 0))

/-- Place of a state in the forward sequence 00, 10, 11, 01. -/
def quadPos : Nat → Nat
  | 0 => 0 | 1 => 1 | 3 => 2 | _ => 3

/-- The quadrature step from the stored state, which the new one replaces. -/
def peQuad (e : Nat) (d : Dev) : Dev :=
  let g := d.pin e
  let q := d.quadNow e
  let g' := { g with quad := q }
  match (quadPos q + 4 - quadPos g.quad) % 4 with
  | 0 => d.setPin e { g' with z := true, n := false }
  | 1 => d.setPin e { g'.setReg 3 (g.d + 1) with z := false, n := false }
  | 3 => d.setPin e { g'.setReg 3 (unsigned 32 ((g.d : Int) - 1)) with z := false, n := true }
  | _ =>
    let d := d.setPin e { g' with z := true, n := false }
    ((d.bumpI PE_QDEC_ERR e 0).raiseI PE_IRQ_RAW_QDEC_ERR e).emit 0x051 (pePage e)

/-- PE_QDEC. STATE reads WAIT while it stalls. (DEDUCED, log entry 61; DESIGN CHOICE, log entry 120.) -/
def execPeQdec (e : Fin 8) (blk : Bool) (dly : Fin 16) (s : State) : Out :=
  onDev (fun d => if d.peReady e (.qdec blk) dly then
      if blk ∧ d.quadNow e = (d.pin e).quad then d.peStall e peWAIT .qdec
      else (peQuad e d).peDone e dly
    else d) s

/-- PE_QDEC_DONE. -/
def execPeQdecDone (e : Fin 8) (s : State) : Out :=
  onDev (fun d => if (d.pin e).stall = .qdec ∧ d.quadNow e ≠ (d.pin e).quad then
    (peQuad e d).peDone e (d.peDelay e) else d) s

/-! ## IRQ (R240) -/

/-- PE_IRQ. -/
def execPeIrq (e : Fin 8) (n : Fin 2) (dly : Fin 16) (s : State) : Out :=
  onDev (fun d => peRun e (.irq n) dly
    (fun d => d.raiseBits (.pe e) (BitVec.ofNat 32 (2 ^ (8 + n.val)))) d) s

/-! ## Starting and stopping (R246) -/

/-- EN changes from 0 to 1; STOP_CAUSE keeps naming the last stop. (DEDUCED, log entry 61.) -/
def peStart (e : Nat) (d : Dev) : Dev :=
  let old := d.pin e
  let g : PeSt := { parF := old.parF, outF := old.outF, fwOwn := old.fwOwn, cause := old.cause, forced := old.forced, quad := d.quadNow e,
                    outs := d.peSafe e, pc := d.fi PE_PROG_ENTRY e 0,
                    state := if d.fi PE_CFG_START_AT e 0 = 1 then peARMED else peRUN }
  let d := (d.setPin e g).setHf (pePage e) HD_PAGE_STAT_ACTIVE 1
  if d.pinClash e then (d.raiseI PE_IRQ_RAW_PIN_CONFLICT e).emit 0x050 (pePage e) else d

/-- The engine stops, with its cause: stalls are abandoned, the FIFOs kept, outputs at SAFE. -/
def peHalt (e cause : Nat) (d : Dev) : Dev :=
  let g := d.pin e
  if g.state = peSTOPPED then d
  else
    let d := d.setPin e { g with state := peSTOPPED, stall := .none, idle := false, jump := none,
                                 outs := d.peSafe e, cause }
    ((d.setHf (pePage e) HD_PAGE_CTRL_EN 0).setHf (pePage e) HD_PAGE_STAT_ACTIVE 0).raiseI PE_IRQ_RAW_STOPPED e

/-- At a start tick an ARMED engine begins, and WAIT START goes on. -/
def peStartTick (d : Dev) : Dev :=
  let d := peEvent .start d
  (List.range 8).foldl (fun d e =>
    if (d.pin e).state = peARMED then d.mapPin e fun g => { g with state := peRUN } else d) d

/-- At a tick an engine whose EN has been cleared stops (R246). -/
def peStopTick (d : Dev) : Dev :=
  (List.range 8).foldl (fun d e =>
    if (d.pin e).state ≠ peSTOPPED ∧ d.hf (pePage e) HD_PAGE_CTRL_EN = 0 then peHalt e 1 d else d) d

/-! ## Registers as the host reads them (R255) -/

def PeSt.statWord (g : PeSt) : Nat :=
  g.cause * 2 ^ 24 + b2n g.stale * 2 ^ 19 + b2n g.drop * 2 ^ 18 + b2n g.n * 2 ^ 17 + b2n g.z * 2 ^ 16 +
    g.pc * 256 + b2n g.fwOwn * 8 + g.state

/-- The engine's own words of its page. -/
def PeSt.pageWord (g : PeSt) (off : Nat) : Option Nat :=
  match off with
  | 0x108 => some g.statWord
  | 0x148 => some (g.outF.length * 256 + g.parF.length)
  | 0x160 => some g.a
  | 0x164 => some g.b
  | 0x168 => some g.c
  | 0x16C => some g.d
  | _ => none

end Sys2Proof.Machine
end

