-- ==== Sys2Proof/Machine/Fec.lean ====
section
/-! DEFINITION. The forward error correction of the lanes: RS(272,258) over GF(2^10) (R435 to R437). -/
namespace Sys2Proof.Machine

/-! ## The field GF(2^10), with x^10 + x^3 + 1 -/

/-- Double an element: multiply by α = x. -/
def gfDouble (a : Nat) : Nat := if 512 ≤ a then (2 * a) ^^^ 0x409 else 2 * a

def gfMulAux : Nat → Nat → Nat → Nat
  | 0, _, _ => 0
  | n + 1, a, b => (if b % 2 = 1 then a else 0) ^^^ gfMulAux n (gfDouble a) (b / 2)

def gfMul (a b : Nat) : Nat := gfMulAux 10 a b

/-- a to a power given by its low ten bits. -/
def gfPowAux : Nat → Nat → Nat → Nat
  | 0, _, _ => 1
  | n + 1, a, e => gfMul (if e % 2 = 1 then a else 1) (gfPowAux n (gfMul a a) (e / 2))

/-- α to a power. -/
def gfAlpha (e : Nat) : Nat := gfPowAux 10 2 (e % 1023)

/-- The inverse of an element that is not 0: its 1,022nd power. -/
def gfInv (a : Nat) : Nat := gfPowAux 10 a 1022

/-- A polynomial, lowest coefficient first, at a point. -/
def gfEval : List Nat → Nat → Nat
  | [], _ => 0
  | c :: t, x => c ^^^ gfMul x (gfEval t x)

/-- Sum of two polynomials. -/
def gfAdd : List Nat → List Nat → List Nat
  | [], q => q
  | p, [] => p
  | a :: p, b :: q => (a ^^^ b) :: gfAdd p q

def gfScale (k : Nat) (p : List Nat) : List Nat := p.map (gfMul k)

/-- Product of two polynomials. -/
def gfPolyMul : List Nat → List Nat → List Nat
  | [], _ => []
  | a :: p, q => gfAdd (gfScale a q) (0 :: gfPolyMul p q)

/-! ## Decoding -/

/-- Fourteen syndromes of a codeword, its symbols in the order sent: the first is the coefficient of
the highest power. -/
def rsSyndromes (w : List Nat) : List Nat := (List.range 14).map fun j => gfEval w.reverse (gfAlpha j)

/-- The Berlekamp–Massey recursion over the syndromes that remain: syndromes seen, newest first; the
locator; the last locator before its length changed; the shift since; its discrepancy; the length. -/
def rsLocate : List Nat → List Nat → List Nat → List Nat → Nat → Nat → Nat → List Nat × Nat
  | [], _, c, _, _, _, l => (c, l)
  | s :: t, seen, c, b, m, bd, l =>
    let past := s :: seen
    let dsc := (c.zip past).foldl (fun a p => a ^^^ gfMul p.1 p.2) 0
    if dsc = 0 then rsLocate t past c b (m + 1) bd l
    else
      let c' := gfAdd c (List.replicate m 0 ++ gfScale (gfMul dsc (gfInv bd)) b)
      if 2 * l ≤ seen.length then rsLocate t past c' c 1 dsc (seen.length + 1 - l)
      else rsLocate t past c' b (m + 1) bd l

/-- Powers of the positions in error: the roots' inverses. -/
def rsPositions (loc : List Nat) : List Nat :=
  (List.range 272).filter fun k => gfEval loc (gfAlpha (1023 - k)) = 0

/-- The formal derivative: odd coefficients. -/
def gfDeriv : List Nat → List Nat
  | [] => []
  | _ :: p => p.zipIdx.map fun x => if x.2 % 2 = 0 then x.1 else 0

/-- The value of the error at a position (Forney, first root α^0). -/
def rsValue (om dl : List Nat) (k : Nat) : Nat :=
  let x := gfAlpha (1023 - k)
  gfMul (gfAlpha k) (gfMul (gfEval om x) (gfInv (gfEval dl x)))

/-- Decode a codeword of 272 symbols: the corrected codeword and how many symbols were corrected; none
where it cannot be corrected. -/
def rsDecode (w : List Nat) : Option (List Nat × Nat) :=
  let syn := rsSyndromes w
  if syn.all (· = 0) then some (w, 0)
  else
    let (loc, l) := rsLocate syn [] [1] [1] 1 1 0
    let ps := rsPositions loc
    if 7 < l ∨ ps.length ≠ l then none
    else
      let om := (gfPolyMul syn loc).take 14
      let dl := gfDeriv loc
      let fix := w.zipIdx.map fun x => if ps.contains (271 - x.2) then x.1 ^^^ rsValue om dl (271 - x.2) else x.1
      if (rsSyndromes fix).all (· = 0) then some (fix, l) else none

/-- Bits of a ten-bit symbol, most significant first. -/
def symBits (s : Nat) : List Bool := (List.range 10).map fun i => s.testBit (9 - i)

/-! ## Encoding -/

/-- g(x) but for its leading term, highest coefficient first. -/
def rsGenerator : List Nat :=
  (((List.range 14).foldl (fun p j => gfPolyMul p [gfAlpha j, 1]) [1]).reverse).drop 1

/-- The parity register after a message symbol, highest coefficient first. -/
def rsShift (r : List Nat) (s : Nat) : List Nat :=
  let k := s ^^^ (r.headD 0)
  gfAdd (r.drop 1 ++ [0]) (gfScale k rsGenerator)

/-- The 14 parity symbols of a message. -/
def rsParity (m : List Nat) : List Nat := m.foldl rsShift (List.replicate 14 0)

/-- A symbol of ten bits, the first most significant. -/
def symOf (bs : List Bool) : Nat := bs.foldl (fun n b => 2 * n + (if b then 1 else 0)) 0

/-- Bits in symbols of ten. -/
def symsOf : Nat → List Bool → List Nat
  | 0, _ => []
  | n + 1, bs => symOf (bs.take 10) :: symsOf n (bs.drop 10)

/-- The 2,720 bits of the codeword of 2,580 bits. -/
def rsEncode (bs : List Bool) : List Bool :=
  let m := symsOf 258 bs
  (m ++ rsParity m).flatMap symBits

/-- The 2,580 message bits of a codeword. -/
def rsMessage (w : List Nat) : List Bool := (w.take 258).flatMap symBits

end Sys2Proof.Machine
end

