-- ==== Sys2Proof/Machine/LaneBase.lean ====
section
/-! DEFINITION. Lane groups: their lanes and rates, their states and failures (R428, R429, R451 to
R454, R457). -/
namespace Sys2Proof.Machine

/-! ## Groups and lanes (R428) -/

/-! States (R451). -/
def lnOFF : Nat := 0
def lnDEEP : Nat := 1
def lnDETECT : Nat := 2
def lnACQUIRE : Nat := 3
def lnSYNC : Nat := 4
def lnEQUALISE : Nat := 5
def lnCONFIG : Nat := 6
def lnACTIVE : Nat := 7

/-! Causes (R458). -/
def lnLOS : Nat := 6
def lnLOCK : Nat := 7
def lnCONFLICT : Nat := 8
def lnCOMMAND : Nat := 9

def lnPage (l : Nat) : Page := .ln (Fin.ofNat 44 l)

/-- Group of a lane: 0 host, 1 + p satellite p. -/
def laneGroup (l : Nat) : Nat := if l < 20 then 0 else if l < 36 then 1 + (l - 20) / 2 else 1 + (l - 36)

/-- Receive and transmit lanes of a group. -/
def rxLanes (g : Nat) : List Nat := if g = 0 then [16, 17, 18, 19] else [20 + 2 * (g - 1), 21 + 2 * (g - 1)]
def txLanes (g : Nat) : List Nat := if g = 0 then List.range 16 else [36 + (g - 1)]

/-- The lane's index within its direction (R434). -/
def laneIndex (l : Nat) : Nat := if l < 16 then l else if l < 20 then l - 16 else if l < 36 then l % 2 else 0

def noLane : Nat → LaneSt := fun _ => {}
def Dev.lane (d : Dev) (l : Nat) : LaneSt := SMap.get noLane d.lanes l
def Dev.setLane (d : Dev) (l : Nat) (x : LaneSt) : Dev := { d with lanes := SMap.set noLane d.lanes l x }
def Dev.mapLane (d : Dev) (l : Nat) (f : LaneSt → LaneSt) : Dev := d.setLane l (f (d.lane l))

def noGrp : Nat → GrpSt := fun _ => {}
def Dev.grp (d : Dev) (g : Nat) : GrpSt := SMap.get noGrp d.grps g
def Dev.setGrp (d : Dev) (g : Nat) (x : GrpSt) : Dev := { d with grps := SMap.set noGrp d.grps g x }
def Dev.mapGrp (d : Dev) (g : Nat) (f : GrpSt → GrpSt) : Dev := d.setGrp g (f (d.grp g))

/-- Is the lane enabled and, in the host group, one of HLP.CFG's lanes? -/
def Dev.laneUsed (d : Dev) (l : Nat) : Bool :=
  d.hf (lnPage l) HD_PAGE_CTRL_EN = 1 &&
    (if l < 16 then decide (l < d.f HLP_CFG_TX_LANES)
     else if l < 20 then decide (l < 16 + d.f HLP_CFG_RX_LANES) else true)

/-- The lanes of a group that take part in its attempt. -/
def Dev.partLanes (d : Dev) (ls : List Nat) : List Nat := ls.filter fun l => d.laneUsed l && !(d.lane l).left
def Dev.partRx (d : Dev) (g : Nat) : List Nat := d.partLanes (rxLanes g)
def Dev.partTx (d : Dev) (g : Nat) : List Nat := d.partLanes (txLanes g)
def Dev.partAll (d : Dev) (g : Nat) : List Nat := d.partTx g ++ d.partRx g

/-- Lanes of a group with EN = 1. -/
def Dev.usedAll (d : Dev) (g : Nat) : List Nat := (txLanes g ++ rxLanes g).filter d.laneUsed

/-- Change every lane of a list. -/
def Dev.eachLane (d : Dev) (ls : List Nat) (f : Nat → Dev → Dev) : Dev := ls.foldl (fun d l => f l d) d

/-- Set a field of every lane of a list. -/
def Dev.laneField (d : Dev) (ls : List Nat) (F : Fld) (v : Nat) : Dev := d.eachLane ls fun l d => d.setFi F l 0 v

/-- Is a lane trained (R422, R275)? -/
def Dev.laneTrained (d : Dev) (l : Nat) : Bool := d.fi LN_STAT_STATE l 0 = lnACTIVE

/-! ## Blocks and symbols (R430 to R432) -/

/-- Kinds of block; `bad` has an invalid header or lies in an uncorrectable codeword. -/
inductive BKind where
  | data | idle | skip | align | ctrl | bad
  deriving DecidableEq, Repr

/-- The header code of a kind. -/
def headerOf : BKind → Nat
  | .data => 6 | .idle => 9 | .skip => 5 | .align => 10 | .ctrl => 3 | .bad => 0

/-- The kind a header code names, if it is valid. -/
def kindOf : Nat → Option BKind
  | 6 => some .data | 9 => some .idle | 5 => some .skip | 10 => some .align | 3 => some .ctrl
  | _ => none

/-- Bits, the first least significant, as a number. -/
def natOfBits : List Bool → Nat
  | [] => 0
  | b :: t => b2n b + 2 * natOfBits t

/-- Symbol values of bits taken in pairs, the first the more significant of its Gray code (R431). -/
def symbolsOf : List Bool → List Nat
  | a :: b :: t => (if a then (if b then 2 else 3) else (if b then 1 else 0)) :: symbolsOf t
  | _ => []

/-- The bits of symbol values. -/
def bitsOfSymbols (ss : List Nat) : List Bool :=
  ss.flatMap fun s => match s with | 0 => [false, false] | 1 => [false, true] | 2 => [true, true] | _ => [true, false]

/-- The bits of a block in the order sent. -/
def blockBits (b : BitVec 260) : List Bool := (List.range 260).map b.getLsbD
def blockLevels (b : BitVec 260) : List Nat := symbolsOf (blockBits b)

/-- Symbol values as the receiver takes them: the register of the symbol before, and what follows (R432). -/
def unprecode : Nat → List Nat → List Nat × Nat
  | p, [] => ([], p)
  | p, r :: t => let x := unprecode r t; ((r + p) % 4 :: x.1, x.2)

/-- Symbol values as the transmitter sends them. -/
def precode : Nat → List Nat → List Nat × Nat
  | p, [] => ([], p)
  | p, g :: t => let s := (g + 4 - p) % 4; let x := precode s t; (s :: x.1, x.2)

/-! ## Rates (R429) -/

/-- One quarter of a receive rate, for a satellite transmit lane. -/
def quarterRate : Nat → Nat
  | 2 => 0 | 1 => 5 | _ => 6

/-- Lowest-numbered lane of a direction. -/
def leadLane (ls : List Nat) : Nat := ls.headD 0

/-- The receive lane a satellite quad takes its rate from: its lowest-numbered one with EN = 1. -/
def Dev.quadLead (d : Dev) (ls : List Nat) : Nat := ((ls.filter d.laneUsed).head?).getD (ls.headD 0)

/-- Rates of an attempt of a group: transmit, receive. -/
def Dev.groupRates (d : Dev) (g : Nat) : Nat × Nat :=
  let rx := d.fi LN_CFG_RATE (leadLane (rxLanes g)) 0
  if g = 0 then (d.fi LN_CFG_RATE (leadLane (txLanes g)) 0, rx) else (quarterRate rx, rx)

/-- Does a group's rate lie outside its row of R428, differ between the directions of the host group, or differ
from its satellite quad's? (DEDUCED, log entry 94.) -/
def Dev.rateConflict (d : Dev) (g : Nat) : Bool :=
  let (tx, rx) := d.groupRates g
  if g = 0 then decide (tx ≠ rx) || decide (rx < 2) || decide (4 < rx)
  else if 2 < rx then true
  else
    let q := 20 + 4 * ((g - 1) / 2)
    let ls := [q, q + 1, q + 2, q + 3]
    decide (d.fi LN_CFG_RATE (d.quadLead ls) 0 ≠ (d.groupRates g).2)

/-! ## Changes of state (R451, R454) -/

/-- The page whose code a group's events carry: its lowest-numbered lane. -/
def groupPage (g : Nat) : Page := lnPage (if g = 0 then 0 else 20 + 2 * (g - 1))

/-! ### Lane PLLs (R46, R457) -/

/-- The quad whose PLL clocks a lane: 0 to 3 of the host, 4 to 7 of the satellites. -/
def laneQuad (l : Nat) : Nat :=
  if l < 16 then l / 4 else if l < 20 then l - 16 else if l < 36 then 4 + (l - 20) / 4 else 4 + (l - 36) / 2

/-- Do the loops of a group's lanes run: are the PLLs of their quads locked (R451, R460)? -/
def Dev.loopsRun (d : Dev) (g : Nat) : Bool := (d.usedAll g).all fun l => d.clk.laneLock.contains (laneQuad l)

/-- The PLL of a quad with no lane out of DEEP and OFF is off (R457). -/
def quadsOff (d : Dev) : Dev :=
  let on := fun q => (List.range 44).any fun l => laneQuad l = q && decide (lnDEEP < d.fi LN_STAT_STATE l 0)
  let left := d.clk.laneLock.filter on
  { d with clk := { d.clk with laneLock := left } }

/-- The group moves to a state, with the event of a change. -/
def groupTo (g st cause : Nat) (d : Dev) : Dev :=
  let old := (d.grp g).state
  let d := d.mapGrp g fun x => { x with state := st }
  let d := d.laneField (d.usedAll g) LN_STAT_STATE st
  let d := d.laneField ((d.usedAll g).filter fun l => (d.lane l).left) LN_STAT_STATE lnDEEP
  let d := if st ≤ lnDEEP then quadsOff (d.laneField (rxLanes g) LN_STAT_SIGNAL 0) else d
  if old = st then d else d.emit 0x090 (groupPage g) (u8 g ++ u8 old ++ u8 st ++ u8 cause)

/-- What an attempt learnt is forgotten; settings, taps and the descrambler stay. -/
def LaneSt.fresh (x : LaneSt) : LaneSt := { desc := x.desc, eq := x.eq, eq0 := x.eq0 }

/-- The receive side of a group's lanes starts over. -/
def laneReset (g : Nat) (d : Dev) : Dev :=
  let ls := txLanes g ++ rxLanes g
  let d := d.eachLane ls fun l d => d.mapLane l LaneSt.fresh
  let d := d.laneField ls LN_STAT_BLOCK_LOCK 0
  let d := (d.laneField ls LN_STAT_RX_SLEEP 0).laneField ls LN_STAT_TX_SLEEP 0
  d.mapGrp g fun x =>
    { x with farState := 0, farReady := 0, farAck := 0, farFec := false, farPre := false, turn := false }

/-- Raise an interrupt on every used lane of a group. -/
def laneIrq (g : Nat) (F : Fld) (d : Dev) : Dev := d.eachLane (d.usedAll g) fun l d => d.raiseI F l

/-- Set the back-off and what the lanes report of it. -/
def setBackoff (g n : Nat) (d : Dev) : Dev :=
  (d.mapGrp g fun x => { x with backoff := n, since := d.cyc }).laneField (d.usedAll g) LN_BACKOFF_MS n

def setFails (g n : Nat) (d : Dev) : Dev :=
  (d.mapGrp g fun x => { x with fails := n }).laneField (d.usedAll g) LN_STAT_FAILS n

/-- A failure of the group (R452); how often it has failed, and what follows from it, is firmware's while it runs
(R3). (DEDUCED, log entry 94.) -/
def groupFail (g cause : Nat) (d : Dev) : Dev :=
  let x := d.grp g
  let d := if x.state = lnACTIVE then laneIrq g LN_IRQ_RAW_DOWN d else d
  let d := d.eachLane (d.usedAll g) fun l d => d.bumpI LN_TRAIN_FAIL l 0
  let d := d.laneField (d.usedAll g) LN_STAT_CAUSE cause
  let run : Bool := d.boot.run = .running
  let d := if run then setFails g (min 15 (x.fails + 1)) d else d
  let d := laneReset g d
  if x.fails + 1 < 3 ∨ run = false then
    groupTo g lnDETECT cause (d.mapGrp g fun x => { x with txIdle := true })
  else
    let d := setBackoff g (if x.fails + 1 = 3 then 500 else min 8000 (2 * x.backoff)) d
    let d := laneIrq g LN_IRQ_RAW_DEEP d
    groupTo g lnDEEP cause (d.mapGrp g fun x => { x with txIdle := false })

/-- What is left of the back-off of a lane's group, in ms rounded up. (DEDUCED, log entry 94.) -/
def Dev.backoffLeft (d : Dev) (l : Nat) : Nat :=
  let x := d.grp (laneGroup l)
  let n := d.fi LN_BACKOFF_MS l 0
  if x.state = lnDEEP ∧ x.held = false then n - (d.cyc - x.since) / 750000 else n

/-- Enter DEEP: loop power-up from OFF, or a command that holds the back-off where it stands. -/
def groupDeep (g cause : Nat) (held : Bool) (d : Dev) : Dev :=
  let d := if held then d.eachLane (d.usedAll g) fun l d => d.setFi LN_BACKOFF_MS l 0 (d.backoffLeft l) else d
  let d := laneReset g d
  groupTo g lnDEEP cause (d.mapGrp g fun x => { x with txIdle := false, held, req := false })

/-- A request for training: a group whose lanes are enabled leaves OFF; the request waits for EN.
(DEDUCED, log entry 94.) -/
def groupRequest (g : Nat) (d : Dev) : Dev :=
  if (d.grp g).state ≠ lnOFF then d
  else if (d.usedAll g).isEmpty then d.mapGrp g fun x => { x with req := true }
  else groupDeep g 0 false d

/-- A new attempt at once: back-off and failures cleared (R451). -/
def groupRetrain (g cause : Nat) (d : Dev) : Dev :=
  if (d.grp g).state = lnOFF then groupRequest g d
  else groupDeep g cause false (setBackoff g 0 (setFails g 0 d))

/-- EN of a lane is cleared: its group goes to OFF. (DEDUCED, log entry 94.) -/
def groupOff (g : Nat) (d : Dev) : Dev :=
  let d := laneReset g d
  let d := d.mapGrp g fun x => { x with txIdle := false, held := false, req := false }
  groupTo g lnOFF 0 (d.laneField (txLanes g ++ rxLanes g) LN_STAT_STATE lnOFF)

end Sys2Proof.Machine
end

