-- ==== Sys2Proof/Machine/Transmit.lean ====
section
/-! DEFINITION. The transmit side of the lanes: rows of blocks, SKIP and ALIGN blocks, scrambling, FEC, precoding
and symbols (R398, R430 to R436, R441, R449, R455, R456). -/
namespace Sys2Proof.Machine

def noTxLane : Nat → TxLane := fun _ => {}
def Dev.txLane (d : Dev) (l : Nat) : TxLane := SMap.get noTxLane d.tx.lanes l
def Dev.setTxLane (d : Dev) (l : Nat) (x : TxLane) : Dev := { d with tx := { d.tx with lanes := SMap.set noTxLane d.tx.lanes l x } }

def noTxGrp : Nat → TxGrp := fun _ => {}
def Dev.txGrp (d : Dev) (g : Nat) : TxGrp := SMap.get noTxGrp d.tx.grps g
def Dev.setTxGrp (d : Dev) (g : Nat) (x : TxGrp) : Dev := { d with tx := { d.tx with grps := SMap.set noTxGrp d.tx.grps g x } }

/-! ## Bits (R433) -/

/-- Scramble payload bits: the bits sent, and the register after them. -/
def scramble : Nat → List Bool → List Bool × Nat
  | h, [] => ([], h)
  | h, b :: t =>
    let y := b != (h.testBit 0 != h.testBit 19)
    let r := scramble (h / 2 + if y then 2 ^ 57 else 0) t
    (y :: r.1, r.2)

/-- The next bits of a PRBS31 generator, the oldest of whose last 31 bits is bit 0. -/
def prbs31 : Nat → Nat → List Bool × Nat
  | 0, h => ([], h)
  | n + 1, h =>
    let y := h.testBit 0 != h.testBit 3
    let r := prbs31 n (h / 2 + if y then 2 ^ 30 else 0)
    (y :: r.1, r.2)

/-- The generator of a lane as it stands: where it starts is open, and never 0. (DEDUCED, log entry 95.) -/
def TxLane.generator (x : TxLane) (l : Nat) : Nat := x.prbs.getD (1 + Config.prbsSeed l % (2 ^ 31 - 1))

def byteBits (bs : List Byte) : List Bool := bs.flatMap fun b => (List.range 8).map b.getLsbD

/-! ## Symbols (R431, R432, R435) -/

/-- Whole codewords of message bits, coded, and the bits left. -/
def codewords : Nat → List Bool → List Bool × List Bool
  | 0, bs => ([], bs)
  | n + 1, bs =>
    if bs.length < 2580 then ([], bs)
    else let r := codewords n (bs.drop 2580); (rsEncode (bs.take 2580) ++ r.1, r.2)

/-- Bits of a lane become the symbols at its pins. -/
def txBits (l : Nat) (bs : List Bool) (d : Dev) : Dev :=
  let x := d.txLane l
  let (coded, rest) := if x.fec then codewords ((x.bits.length + bs.length) / 2580 + 1) (x.bits ++ bs) else (bs, [])
  let (ss, prev) := if x.precode then precode x.prev (symbolsOf coded) else (symbolsOf coded, x.prev)
  let ss := if d.fi LN_CFG_TX_INV l 0 = 1 then ss.map fun s => 3 - s else ss
  d.setTxLane l { x with bits := rest, prev, out := x.out ++ ss }

/-- One block of a lane; IDLE and SKIP blocks carry the generator's bits. -/
def txOne (l : Nat) (k : BKind) (pay : List Bool) (d : Dev) : Dev :=
  let x := d.txLane l
  let (pay, x) := if k = .idle ∨ k = .skip then (let r := prbs31 256 (x.generator l); (r.1, { x with prbs := some r.2 }))
    else (pay, x)
  let (bits, scr) := scramble x.scr pay
  txBits l ((List.range 4).map (headerOf k).testBit ++ bits) (d.setTxLane l { x with scr })

/-- SKIP_INT in force (R441, R458). -/
def Dev.skipInt (d : Dev) (l : Nat) : Nat :=
  let n := d.fi LN_SKIP_CFG_SKIP_INT l 0
  if n = 0 then 0 else max 256 n

/-- One block of a lane, counted toward the next SKIP block. -/
def txCount (l : Nat) (k : BKind) (pay : List Bool) (d : Dev) : Dev :=
  let d := txOne l k pay d
  d.setTxLane l { d.txLane l with since := (d.txLane l).since + 1 }

/-- The SKIP block that is due on a lane. -/
def txSkip (l : Nat) (d : Dev) : Dev :=
  if d.skipInt l ≠ 0 ∧ d.skipInt l ≤ (d.txLane l).since then txOne l .skip [] (d.setTxLane l { d.txLane l with since := 0 })
  else d

/-- One block of a lane, and the SKIP block that falls due after it. -/
def txBlock (l : Nat) (k : BKind) (pay : List Bool) (d : Dev) : Dev := txSkip l (txCount l k pay d)

/-! ## Rows (R434) -/

/-- Lanes that carry a group's stream: those of the host link in use, or the satellite's one. -/
def Dev.txStream (d : Dev) (g : Nat) : List Nat := if g = 0 then List.range (d.f HLP_STAT_TX_ACT) else txLanes g

/-- May a group send rows of its stream? A sleeping direction sends none. -/
def Dev.txOpen (d : Dev) (g : Nat) : Bool :=
  (d.grp g).state = lnACTIVE && d.fi LN_STAT_TX_SLEEP (leadLane (txLanes g)) 0 = 0 && !(d.txStream g).isEmpty

/-- What the lanes of a group sent before is past. -/
def txClear (g : Nat) (d : Dev) : Dev :=
  d.eachLane (txLanes g) fun l d => if (d.txLane l).out.isEmpty then d else d.setTxLane l { d.txLane l with out := [] }

/-- A row: one block on each lane of a list, whose payload depends on the lane's index. -/
def txRow (ls : List Nat) (k : BKind) (pay : Nat → List Byte) (d : Dev) : Dev :=
  d.eachLane ls fun l d => txBlock l k (byteBits (pay (laneIndex l))) d

/-- An ALIGN row of the host group. -/
def txAlignRow (g : Nat) (d : Dev) : Dev :=
  let ls := d.txStream g
  let x := d.txGrp g
  let d := txRow ls .align (fun i => u32 x.aligns ++ u8 i ++ u8 ls.length ++ List.replicate 26 0#8) d
  d.setTxGrp g { x with rows := 0, aligns := (x.aligns + 1) % 2 ^ 32 }

/-- A row of the stream; on the host group an ALIGN row follows every 4,096 rows. (DEDUCED, log entry 95.) -/
def txStreamRow (g : Nat) (k : BKind) (pay : Nat → List Byte) (d : Dev) : Dev :=
  let d := txRow (d.txStream g) k pay d
  let x := d.txGrp g
  let d := d.setTxGrp g { x with rows := x.rows + 1, idle := decide (k = .idle) }
  if g ≠ 0 ∨ x.rows + 1 < 4096 then d else txAlignRow g d

/-- DATA rows of the bytes that fill them: data block k goes to lane k mod N. -/
def txRows (g : Nat) : Nat → Dev → Dev
  | 0, d => d
  | n + 1, d =>
    let x := d.txGrp g
    let w := 32 * (d.txStream g).length
    if d.txOpen g = false ∨ x.bytes.length < w then d
    else txRows g n (txStreamRow g .data (fun i => (x.bytes.drop (32 * i)).take 32)
      (d.setTxGrp g { x with bytes := x.bytes.drop w }))

/-- Packet bytes join a group's stream, and rows that are full leave. -/
def txPackets (g : Nat) (bs : List Byte) (d : Dev) : Dev :=
  let x := d.txGrp g
  let d := d.setTxGrp g { x with bytes := x.bytes ++ bs }
  txRows g ((x.bytes ++ bs).length / 32) (txClear g d)

/-- No packet is ready: NULL or FILL words complete the row begun; where none is, an IDLE row leaves.
(DEDUCED, log entry 95.) -/
def txIdleRow (g : Nat) (d : Dev) : Dev :=
  let x := d.txGrp g
  let w := 32 * (d.txStream g).length
  if d.txOpen g = false then d
  else if x.bytes.isEmpty then txStreamRow g .idle (fun _ => []) (txClear g d)
  else txPackets g (List.replicate (w - x.bytes.length) 0#8) d

/-! ## CTRL rows (R449, R451, R455, R456) -/

/-- STS of the group's transmit lanes. -/
def Dev.txSts (d : Dev) (g : Nat) : Nat := (txLanes g).foldl (fun n l => n + (d.lane l).sts * 16 ^ laneIndex l) 0

/-- REQ to the far transmit lanes, by index: the receive lane of that index asks. -/
def Dev.txReq (d : Dev) (g : Nat) : List Byte :=
  (List.range 16).flatMap fun i => match (d.partRx g).find? fun l => laneIndex l = i with
    | some l => u8 (d.lane l).req
    | none => u8 0

/-- FLAGS: FEC_REQ and PRECODE_REQ from CONFIG on; CONFIG_ACK once the far end has reached CONFIG.
(DEDUCED, log entry 95.) -/
def Dev.txFlags (d : Dev) (g : Nat) : Nat :=
  let x := d.grp g
  let tx := leadLane (txLanes g)
  let rx := leadLane (rxLanes g)
  let conf := decide (lnCONFIG ≤ x.state)
  1 + 2 * b2n (conf && (d.fi LN_CFG_FEC_REQ tx 0 = 1 || d.fi LN_CFG_FEC_REQ rx 0 = 1)) +
    4 * b2n (conf && d.fi LN_CFG_PRECODE_REQ rx 0 = 1) +
    8 * b2n (decide (lnEQUALISE ≤ x.state) && (d.partRx g).all fun l => (d.lane l).eqDone) +
    16 * b2n (conf && decide (lnCONFIG ≤ x.farState))

/-- The CTRL payload of a code on a lane index. -/
def Dev.ctrlPay (d : Dev) (g code i : Nat) : List Byte :=
  u8 code ++ u8 (d.grp g).state ++ u8 (d.txFlags g) ++ u8 (d.fi LN_STAT_RATE_ACT (leadLane (txLanes g)) 0) ++ u8 i ++
    u8 (d.partTx g).length ++ [0#8, 0#8] ++ d.txReq g ++ u64 (d.txSts g)

/-- Rows of a CTRL code on the lanes of an attempt. -/
def ctrlRows (g code : Nat) : Nat → Dev → Dev
  | 0, d => d
  | n + 1, d => ctrlRows g code n (txRow (d.partTx g) .ctrl (d.ctrlPay g code) d)

/-- A TRAIN row, while the group trains and its transmitters are not idle. They follow without a break; the model
sends one where what it says may have changed. (DEDUCED, log entry 95.) -/
def txTrain (g : Nat) (d : Dev) : Dev :=
  let x := d.grp g
  if lnDETECT ≤ x.state ∧ x.state ≤ lnCONFIG ∧ x.txIdle = false then ctrlRows g 1 1 (txClear g d) else d

/-- A START row; FEC and precoding begin after it, where they are in force: with the first block that follows, be it
a SKIP block. -/
def txStart (g : Nat) (d : Dev) : Dev :=
  d.eachLane (d.partTx g) fun l d =>
    let d := txCount l .ctrl (byteBits (d.ctrlPay g 2 (laneIndex l))) d
    txSkip l (d.setTxLane l
      { d.txLane l with fec := d.fi LN_STAT_FEC_ACT l 0 = 1, precode := d.fi LN_STAT_PRECODE_ACT l 0 = 1, prev := 0,
                        bits := [] })

/-- Coding ends with the direction: CTRL rows before the next START row are sent plain. -/
def txPlain (g : Nat) (d : Dev) : Dev :=
  d.eachLane (txLanes g) fun l d =>
    let x := d.txLane l
    if x.fec || x.precode then d.setTxLane l { x with fec := false, precode := false, bits := [] } else d

/-- The direction enters ACTIVE: its stream begins after the START row. -/
def txActive (g : Nat) (d : Dev) : Dev :=
  let d := d.setTxGrp g { d.txGrp g with bytes := [], rows := 0, idle := false }
  txStart g (txClear g (txPlain g d))

/-- A codeword that has begun is filled with bits of the lane's generator, so that it leaves whole.
(DEDUCED, log entry 95.) -/
def txFill (l : Nat) (d : Dev) : Dev :=
  let x := d.txLane l
  if x.fec = false ∨ x.bits = [] then d
  else
    let r := prbs31 (2580 - x.bits.length % 2580) (x.generator l)
    txBits l r.1 (d.setTxLane l { x with prbs := some r.2 })

/-- The direction goes to sleep: one SLEEP row, with which its lanes stop. -/
def txSleepRow (g : Nat) (d : Dev) : Dev :=
  txPlain g ((txClear g d).eachLane (d.partTx g) fun l d =>
    txFill l (txCount l .ctrl (byteBits (d.ctrlPay g 3 (laneIndex l))) d))

/-- The direction wakes: 64 WAKE rows and a START row, then the bytes that wait, or the ALIGN row that was due.
(DEDUCED, log entry 95.) -/
def txWake (g : Nat) (d : Dev) : Dev :=
  let d := txStart g (ctrlRows g 4 64 (txClear g d))
  if g = 0 ∧ (d.txGrp g).bytes.isEmpty then txAlignRow g d else txRows g ((d.txGrp g).bytes.length / 32) d

end Sys2Proof.Machine
end

