-- ==== Sys2Proof/Machine/Delivery.lean ====
section
/-! DEFINITION. The delivery block: its sources, its buffer and its arbiter (R398 to R416, R420,
R421). -/
namespace Sys2Proof.Machine

/-! ## The delivery block's state -/

def Dev.onDlv (d : Dev) (f : DlvSt → DlvSt) : Dev := { d with dlv := f d.dlv }

def noQueue : Nat → QueueSt := fun _ => {}
def Dev.queue (d : Dev) (q : Nat) : QueueSt := SMap.get noQueue d.dlv.queues q
def Dev.setQueue (d : Dev) (q : Nat) (x : QueueSt) : Dev :=
  d.onDlv fun s => { s with queues := SMap.set noQueue s.queues q x }
def Dev.mapQueue (d : Dev) (q : Nat) (f : QueueSt → QueueSt) : Dev := d.setQueue q (f (d.queue q))

def noStream : Nat → StreamSt := fun _ => {}
def Dev.stream (d : Dev) (k : Nat) : StreamSt := SMap.get noStream d.dlv.streams k
def Dev.setStream (d : Dev) (k : Nat) (x : StreamSt) : Dev :=
  d.onDlv fun s => { s with streams := SMap.set noStream s.streams k x }

def Pkt.len (p : Pkt) : Nat := p.payload.length
/-- Bytes of a packet on the link. -/
def Pkt.size (p : Pkt) : Nat := p.len + 20

/-- The head packet of a queue. -/
def QueueSt.head (x : QueueSt) : Option Pkt := x.grps.head?.bind fun g => g.pkts.head?
def QueueSt.all (x : QueueSt) : List Pkt := x.grps.flatMap (·.pkts)

/-- Bytes that packets of a list take in the delivery buffer: those of streaming, IRQ and TIME
sources. (DEDUCED, log entry 88.) -/
def buffered (ps : List Pkt) : Nat :=
  ps.foldl (fun n p => if p.kind = .drop ∨ p.kind = .held then n else n + p.size) 0
def bufferedData (ps : List Pkt) : Nat := buffered (ps.filter fun p => p.kind = .data)

def Dev.allPkts (d : Dev) : List Pkt := d.dlv.queues.flatMap fun p => p.2.all

/-- The buffer use as the registers report it, in KiB rounded down. -/
def bufRegs (q : Nat) (d : Dev) : Dev :=
  let l := buffered d.allPkts / 1024
  let d := d.qSet q 5 14 0 (buffered (d.queue q).all / 1024)
  (d.setF DLV_BUF_STAT_LVL l).peakI DLV_BUF_PEAK 0 0 l

/-- Append a closed group of packets to a queue. -/
def dlvPut (q : Nat) (ps : List Pkt) (d : Dev) : Dev :=
  bufRegs q (d.mapQueue q fun x => { x with grps := x.grps ++ [{ pkts := ps }] })

/-! ## Frames on their way (R403 to R405) -/

/-- The stamp block (R402). -/
def stampBlock (s : Stamp) : List Byte :=
  bytesLE 6 s.sec ++ u32 s.ns ++ u64 s.ticks ++ u16 s.epoch ++ u32 0

/-- TAGWORD of the frame family (R399). -/
def frameTag (member pass fid : Nat) : Nat := member % 64 + 64 * (pass % 4) + 256 * (fid % 2 ^ 24)

/-- A streaming source begins a frame: the key it gives its packets, and the request. -/
def Dev.openStream (d : Dev) (x : StreamSt) : Nat × Dev :=
  let k := d.dlv.nextStream
  let d := (d.setStream k x).onDlv fun s => { s with nextStream := k + 1 }
  (k, { d with reqs := d.reqs ++ [.frameStart k] })

/-- The frame of a stream ends. -/
def Dev.closeStream (d : Dev) (k : Nat) : Dev := { d with reqs := d.reqs ++ [.frameEnd k] }

/-- Pixels packed, `b` bits each (R264). -/
def packPx (b : Nat) (px : List Nat) : List Byte :=
  let v := px.foldr (fun p n => p % 2 ^ b + 2 ^ b * n) 0
  bytesLE ((b * px.length + 7) / 8) v

/-- Cut a list into pieces of `n`. -/
def chunksOf {α : Type} : Nat → Nat → List α → List (List α)
  | 0, _, _ => []
  | f + 1, n, l => if l.isEmpty then [] else l.take n :: chunksOf f n (l.drop n)

/-- A line of pixels becomes DATA packets of its stream (R404): `b` bits a sample, cut at multiples
of `unit` samples, `per` samples a pixel. -/
def Dev.streamLine (d : Dev) (k line x0 trt b unit per : Nat) (px : List Nat) : Dev :=
  let room := (d.qMaxLen (d.stream k).q - 16) * 8 / (b * unit) * unit
  let ps := chunksOf px.length room px
  let n := ps.length
  let reqs := ps.zipIdx.map fun (c, i) =>
    let desc := u32 line ++ u16 (x0 + i * room / per) ++ u16 (c.length / per) ++ u64 trt
    PktReq.data k desc (packPx b c) (if i + 1 = n then 1 else 0)
  { d with reqs := d.reqs ++ reqs }

/-- Bytes of a codestream become DATA packets of its stream (R404). -/
def Dev.streamBytes (d : Dev) (k at' lines : Nat) (bs : List Byte) : Dev :=
  let room := d.qMaxLen (d.stream k).q - 16
  let ps := chunksOf bs.length room bs
  let n := ps.length
  let reqs := ps.zipIdx.map fun (c, i) =>
    let desc := u32 (at' + i * room) ++ u16 0 ++ u16 c.length ++ u64 0
    PktReq.data k desc c (if i + 1 = n then lines else 0)
  { d with reqs := d.reqs ++ reqs }

/-- A frame is dropped whole on its queue (R412 rule 1). -/
def dropOn (q : Nat) (d : Dev) : Dev :=
  let d := d.qSet q 3 31 16 (d.qGet q 3 31 16 + 1)
  ((d.bump DLV_FRAME_DROP).raise DLV_IRQ_RAW_FRAME_DROP).emit 0x075 .dlv
/-- (DEDUCED, log entry 88.) -/
def dropStream (k : Nat) (d : Dev) : Dev :=
  dropOn (d.stream k).q (d.setStream k { d.stream k with dead := true })

/-- Append a packet to its frame's group. (DEDUCED, log entry 88.) -/
def dlvAppend (k : Nat) (p : Pkt) (close : Bool) (d : Dev) : Dev :=
  let q := (d.stream k).q
  let put (g : PGrp) : PGrp := if g.key = k then { g with pkts := g.pkts ++ [p], closed := close } else g
  bufRegs q (d.mapQueue q fun x => { x with grps := x.grps.map put })

/-! ## The arbiter (R413, R414) -/

/-- May the link carry packets of a queue now (R422, R423)? -/
def Dev.linkOpen (d : Dev) (q : Nat) : Bool :=
  d.f HLP_STAT_STATE = 3 || (d.f HLP_STAT_STATE = 2 && q = 0)

/-- Queues whose head packet is eligible, with that packet. (DEDUCED, log entry 89.) -/
def Dev.eligible (d : Dev) : List (Nat × Pkt) :=
  d.dlv.queues.filterMap fun (q, x) =>
    match x.head with
    | some p => if d.linkOpen q ∧ d.qEn q ∧ d.within q p.len then some (q, p) else none
    | none => none

/-- Age limit of a class in engine cycles; 0 is none (R414). -/
def Dev.ageLimit (d : Dev) (cls : Nat) : Nat :=
  750 * (match cls with | 1 => d.a DLV_AGE_P1 | 2 => d.a DLV_AGE_P2 | 3 => d.a DLV_AGE_P3 | _ => 0)

/-- Has the head packet waited longer than its class's limit? -/
def Dev.aged (d : Dev) (q : Nat) (p : Pkt) : Bool :=
  let l := d.ageLimit (d.qClass q)
  l != 0 && decide (l < d.cyc - p.since)

def Dev.qQuantum (d : Dev) (q : Nat) : Nat := d.qWeight q * d.a DLV_QUANTUM_BYTES

/-- (DEDUCED, log entry 89.) -/
def DlvSt.drr (s : DlvSt) (cls : Nat) : Drr := match cls with | 1 => s.drr1 | 2 => s.drr2 | _ => s.drr3
def DlvSt.setDrr (s : DlvSt) (cls : Nat) (r : Drr) : DlvSt :=
  match cls with | 1 => { s with drr1 := r } | 2 => { s with drr2 := r } | _ => { s with drr3 := r }

/-- The one of a list with the greatest age; of several, the first. -/
def oldest (l : List (Nat × Pkt)) : Option (Nat × Pkt) :=
  l.foldl (fun b e => match b with
    | some c => if e.2.since < c.2.since then some e else some c
    | none => some e) none

/-- A queue whose age has fallen below its limit may be promoted again. -/
def dlvRearm (d : Dev) : Dev :=
  let keep (q : Nat) (x : QueueSt) : Bool :=
    let l := d.ageLimit (d.qClass q)
    l != 0 && match x.head with | some p => decide (l ≤ d.cyc - p.since) | none => false
  d.dlv.queues.foldl (fun d e => d.setQueue e.1 { e.2 with urgentUsed := e.2.urgentUsed && keep e.1 e.2 }) d

/-- A packet is granted urgently: its bytes come off the deficit, to no less than minus one quantum.
(DEDUCED, log entry 89.) -/
def urgentTake (q size : Nat) (left : Nat) (d : Dev) : Dev :=
  let cls := d.qClass q
  let r := d.dlv.drr cls
  let v := max (-(d.qQuantum q : Int)) (r.deficit q - size)
  d.onDlv fun s => { s.setDrr cls (r.setDeficit q v) with urgent := some (q, left - size) }

/-- An overdue queue is promoted. (DEDUCED, log entry 89.) -/
def promote (es : List (Nat × Pkt)) (d : Dev) : Option (Nat × Bool × Dev) :=
  match oldest (es.filter fun e => d.aged e.1 e.2 && !(d.queue e.1).urgentUsed) with
  | some (q, p) =>
    let d := (d.bump DLV_URGENT_PROMOTIONS).raise DLV_IRQ_RAW_URGENT
    let d := d.mapQueue q fun x => { x with urgentUsed := true }
    some (q, true, urgentTake q p.size (d.qQuantum q) d)
  | none => none

/-- The round robin of a class. -/
def classPick (cls : Nat) (es : List (Nat × Pkt)) (d : Dev) : Option (Nat × Bool × Dev) :=
  let w := (es.filter fun e => d.qClass e.1 = cls ∧ d.qWeight e.1 ≠ 0).map
    fun e => (e.1, d.qQuantum e.1, e.2.size)
  (drrNext (w.length * 8300 + 2) w (d.dlv.drr cls)).map
    fun r => (r.1, false, d.onDlv fun s => { s.setDrr cls r.2 with urgent := none })

/-- With nothing left to serve in a class its loop goes round, and every deficit becomes 0 (R279, R413). -/
def classIdle (cls : Nat) (d : Dev) : Dev :=
  if d.eligible.any fun e => d.qClass e.1 = cls then d
  else d.onDlv fun s => s.setDrr cls { s.drr cls with inTurn := false, defs := [] }

/-- The queue granted next, whether urgently, and the arbiter after it. An urgent grant goes on while the next packet of its
queue may be sent within it. (DEDUCED, log entry 89.) -/
def dlvChoose (d : Dev) : Option (Nat × Bool × Dev) :=
  let d := dlvRearm d
  let es := d.eligible
  let going := d.dlv.urgent.bind fun u =>
    (es.find? fun e => e.1 = u.1 && decide (e.2.size ≤ u.2)).map fun e => (e, u.2)
  let d := if going.isNone then d.onDlv fun s => { s with urgent := none } else d
  match oldest (es.filter fun e => d.qClass e.1 = 0) with
  | some (q, _) => some (q, false, d)
  | none =>
    match going with
    | some (e, left) => some (e.1, true, urgentTake e.1 e.2.size left d)
    | none =>
      let d1 := classIdle 1 d
      let d2 := classIdle 2 d1
      promote es d <|> classPick 1 es d <|> classPick 2 es d1 <|> classPick 3 es d2

/-! ## Forming and sending (R399, R400, R416) -/

/-- Payload of a TIME packet, at its grant; bit 1 of the status stands in COASTING and QUALIFY (R463). The epoch before the step is open where none was made.
(DEDUCED, log entry 32.) -/
def timePayload (reason : Nat) (epoch : Option Nat) (d : Dev) : List Byte × Dev :=
  let (w, d) := match epoch with
    | some e => (e, d)
    | none => let (w, d) := d.free; (w.toNat, d)
  let st := b2n d.time.ppsValid + 2 * b2n (d.clk.state = 2 ∨ d.clk.state = 3)
  (stampBlock d.stamp ++ u32 (d.f TBS_PPS_TICK_LO) ++ u32 (d.f TBS_PPS_TICK_HI) ++ u8 reason ++ u8 st ++
    u16 w ++ u32 0, d)

/-- The bytes of a packet. -/
def packetBytes (typ cls q pseq tag aux : Nat) (replay urgent : Bool) (pay : List Byte) : List Byte :=
  let a := bytesLE 3 (typ + 64 * cls + 256 * q + 2 ^ 21 * b2n replay + 2 ^ 22 * b2n urgent)
  let b := u16 pay.length ++ u16 pseq ++ u32 tag ++ u32 aux
  let h := a ++ [crc8From 0#8 (a ++ b)] ++ b
  h ++ pay ++ u32 (crc32 (h ++ pay)).toNat

/-- A packet's payload as it leaves: TIME takes its stamp, FRAME_START, a replayed one too, the frames dropped. -/
def finalPayload (q : Nat) (p : Pkt) (d : Dev) : List Byte × Dev :=
  match p.time with
  | some (r, e) => timePayload r e d
  | none =>
    if p.typ = 0x02 then
      (p.payload.take 54 ++ u16 (d.qGet q 3 31 16) ++ p.payload.drop 56, d.qSet q 3 31 16 0)
    else (p.payload, d)

/-- What is left of an urgent grant ends with the queue's packets (R414). -/
def urgentEnd (q : Nat) (d : Dev) : Dev :=
  if (d.queue q).grps.all fun g => g.pkts.isEmpty then
    d.onDlv fun s => { s with urgent := s.urgent.filter fun u => u.1 != q }
  else d

/-- The head packet of a queue leaves, and its bytes go to the lanes. -/
def dlvSend (q : Nat) (urgent : Bool) (d : Dev) : Dev :=
  match (d.queue q).grps with
  | g :: gs =>
    match g.pkts with
    | p :: t =>
      let gs := if t.isEmpty && g.closed then gs else { g with pkts := t } :: gs
      let d := urgentEnd q (d.mapQueue q fun x => { x with grps := gs })
      let (pay, d) := finalPayload q p d
      let n := d.qGet q 3 15 0
      let d := d.qSet q 2 31 0 (d.qUsed q + credits pay.length)
      let d := (d.qSet q 3 15 0 (n + 1)).qSet q 6 31 0 (d.qGet q 6 31 0 + 1)
      let aux := if p.time.isSome then d.time.tick else p.aux
      let bs := packetBytes p.typ (d.qClass q) q n p.tag aux p.replay urgent pay
      let d := { d with hlp := { d.hlp with held := d.hlp.held - p.frees } }
      txPackets 0 bs (dlvRearm (bufRegs q (d.onDlv fun s => { s with last := bs, busy := true })))
    | [] => d
  | [] => d

/-- Sources that keep their packet until their queue is enabled hand it over. -/
def dlvSettle (d : Dev) : Dev :=
  let qi := d.a DLV_BIND_IRQ_QID
  let qt := d.a DLV_BIND_TIME_QID
  let d := match d.dlv.irqW with
    | some p => if d.bound qi then dlvPut qi [p] (d.onDlv fun s => { s with irqW := none }) else d
    | none => d
  let d := if d.bound qt then
      d.dlv.timeW.foldl (fun d p => dlvPut qt [p] d) (d.onDlv fun s => { s with timeW := [] })
    else d
  match d.dlv.resps with
  | (q, p) :: t =>
    if d.bound q ∧ (d.allPkts.all fun p => p.typ ≠ 0x12) then
      dlvPut q [p] (d.onDlv fun s => { s with resps := t })
    else d
  | [] => d

/-- The next eligible packet is granted; with none the link is idle. -/
def dlvGrant (d : Dev) : Dev :=
  if d.active .dlv = false then d
  else
    let d := dlvSettle ((List.range 8).foldl (fun d e => peBatch e d) d)
    match dlvChoose d with
    | some (q, u, d) => dlvSettle (dlvSend q u d)
    | none =>
      let d := classIdle 3 (classIdle 2 (classIdle 1 (dlvRearm (d.onDlv fun s => { s with busy := false, urgent := none }))))
      txIdleRow 0 d

/-- DLV_GRANT. -/
def execDlvGrant (s : State) : Out := onDev dlvGrant s

/-! ## Entering the buffer (R411, R412, R415) -/

def Dev.tickLow (d : Dev) : Nat := d.time.tick % 2 ^ 32

/-- Change the waiting packets of a type, in whichever queue they stand. -/
def Dev.mapPkts (d : Dev) (f : Pkt → Pkt) : Dev :=
  d.onDlv fun s => { s with queues := s.queues.map fun e =>
    (e.1, { e.2 with grps := e.2.grps.map fun g => { g with pkts := g.pkts.map f } }) }

/-- An IRQ packet is formed, with the words as they stand now; it takes the place of one that waits. -/
def irqEnqueue (d : Dev) : Dev :=
  let p : Pkt := { kind := .control, typ := 0x08, aux := d.tickLow, since := d.cyc,
                   payload := stampBlock d.stamp ++ u32 d.irqGrp ++ u32 (d.f SYS_IRQ_GRP_EN_EN) }
  if d.allPkts.any fun p => p.typ = 0x08 then
    (d.mapPkts fun x => if x.typ = 0x08 then { p with since := x.since } else x).bump DLV_REPLACED
  else if d.dlv.irqW.isSome then
    (d.onDlv fun s => { s with irqW := some p }).bump DLV_REPLACED
  else dlvSettle (d.onDlv fun s => { s with irqW := some p })

/-- A TIME packet takes the place of a periodic one that waits; behind another kind a periodic one is
discarded. -/
def timeEnqueue (reason : Nat) (epoch : Option Nat) (d : Dev) : Dev :=
  let p : Pkt := { kind := .control, typ := 0x09, since := d.cyc, time := some (reason, epoch),
                   payload := List.replicate 40 0#8 }
  let waiting := (d.allPkts.filter fun p => p.typ = 0x09) ++ d.dlv.timeW
  let periodic (x : Pkt) : Bool := x.typ = 0x09 && (x.time.map (·.1)) = some 0
  if waiting.isEmpty then dlvSettle (d.onDlv fun s => { s with timeW := [p] })
  else if waiting.any periodic then
    let swap (x : Pkt) : Pkt := if periodic x then { p with since := x.since } else x
    let d := (d.mapPkts swap).onDlv fun s => { s with timeW := s.timeW.map swap }
    d.bump DLV_REPLACED
  else if reason = 0 then d
  else dlvSettle (d.onDlv fun s => { s with timeW := s.timeW ++ [p] })

/-- FRAME_START of a stream: unbound, dropped, or begun. -/
def startEnqueue (k : Nat) (d : Dev) : Dev :=
  let x := d.stream k
  if d.active .dlv = false then d.setStream k { x with dead := true }
  else if d.bound x.q = false then
    ((d.setStream k { x with dead := true }).bump DLV_UNBOUND).raise DLV_IRQ_RAW_UNBOUND
  else if 2 ^ 24 < buffered d.allPkts + 148 then dropStream k d
  else
    let p : Pkt := { kind := .start, typ := 0x02, tag := x.tag, aux := x.aux, since := d.cyc, payload := x.start }
    let d := d.setStream k { x with begun := true }
    bufRegs x.q (d.mapQueue x.q fun y => { y with grps := y.grps ++ [{ key := k, frame := some x.frame, pkts := [p], closed := false }] })

/-- Would a DATA packet of a queue with no share of the buffer be granted at once? (DEDUCED, log entry 88.) -/
def grantedAtOnce (q : Nat) (d : Dev) : Bool :=
  !d.dlv.busy && (d.queue q).all.length = 1 &&
    (match dlvChoose d with | some (q', _, _) => q' = q | none => false)

/-- A DATA packet of a stream enters the buffer, or is dropped with all that follow (rules 2, 3). -/
def dataEnqueue (k : Nat) (desc body : List Byte) (lines : Nat) (d : Dev) : Dev :=
  let x := d.stream k
  if x.dead then d
  else
    let pad := List.replicate ((4 - body.length % 4) % 4) 0#8
    let p : Pkt := { kind := .data, typ := 0x03, tag := x.tag, aux := x.aux, since := d.cyc,
                     payload := desc ++ body ++ pad }
    let fits :=
      if d.qCap x.q = 0 then grantedAtOnce x.q (dlvAppend k p false d)
      else decide (bufferedData (d.queue x.q).all + p.size ≤ d.qCap x.q)
    if x.trunc ∨ fits = false ∨ 2 ^ 24 - 2 ^ 18 < bufferedData d.allPkts + p.size then
      let d := d.setStream k { x with trunc := true, dropPkts := x.dropPkts + 1 }
      (d.bump DLV_PKT_DROP).raise DLV_IRQ_RAW_PKT_DROP
    else
      let d := d.setStream k { x with pkts := x.pkts + 1, bytes := x.bytes + body.length, lines := x.lines + lines }
      dlvAppend k p false d

/-! ## Chunks offered to the history writer (R377, R379, R406) -/

/-- A chunk is dropped (R379). -/
def histDrop (d : Dev) : Dev :=
  ((d.bump HMP_HIST_DROP).raise HMP_IRQ_RAW_HIST_DROP).emit 0x082 .hmp

/-- Bytes that wait in the writer's buffer. -/
def HmpSt.buffered (h : HmpSt) : Nat := h.offers.foldl (fun n (c : ChunkReq) => n + 64 + c.payload.length) 0

/-- A chunk is offered to the history writer, whose buffer may be full (R379). The chunk of a frame is offered under
the frame's own HIST_EN (R34). (DEDUCED, log entry 82.) -/
def offer (c : ChunkReq) (d : Dev) : Dev :=
  let on := (match c.u with | some u => d.asOf u | none => d).a HMP_REGION_HIST_EN
  if on = 0 ∨ d.f HMP_STAT_STATE = 0 ∨ 4 ≤ d.f HMP_STAT_STATE then d
  else if 2 ^ 23 ≤ d.hmp.buffered then histDrop d
  else { d with hmp := { d.hmp with offers := d.hmp.offers ++ [c] } }

/-- FRAME_END of a stream (R405). The history chunk of a codestream takes the same flags (R406). -/
def endEnqueue (k : Nat) (d : Dev) : Dev :=
  let x := d.stream k
  let f := d.frame x.frame
  let fl := f.flags ||| x.flags ||| (if x.trunc then 2 ^ ffDLV_TRUNC else 0)
  let d := match x.chunk with
    | some c => offer { c with fflags := fl } d
    | none => d
  if x.dead then d.setStream k {}
  else
    let pay := u32 fl ++ u8 f.ingest ++ u8 0 ++ u16 f.linesValid ++ u32 f.linesSent ++ u32 x.lines ++
      u32 x.pkts ++ u32 x.dropPkts ++ u32 x.bytes ++ u32 0
    let p : Pkt := { kind := .fin, typ := 0x04, tag := x.tag, aux := x.aux, since := d.cyc, payload := pay }
    (dlvAppend k p true d).setStream k {}

/-- A tile-record or histogram packet: sent with credit, or dropped whole (R345, R347). -/
def statEnqueue (q typ tag aux : Nat) (pay : List Byte) (d : Dev) : Dev :=
  if d.queueTakes q pay.length then
    dlvPut q [{ kind := .drop, typ, tag, aux, since := d.cyc, payload := pay }] d
  else (d.bump STA_REC_DROP).raise STA_IRQ_RAW_REC_DROP

/-- Payload of a PE_DATA packet (R402). -/
def pePayload (e : Nat) (ws : List Word) (d : Dev) : List Byte :=
  stampBlock d.stamp ++ u8 e ++ u8 ws.length ++ u16 0 ++ ws.flatMap fun w => u32 w.toNat

/-- One packet of a source enters delivery. -/
def dlvEnqueue (d : Dev) : Dev :=
  match d.reqs with
  | [] => d
  | r :: t =>
    let d := { d with reqs := t }
    match r with
    | .irq => irqEnqueue d
    | .time reason epoch => timeEnqueue reason epoch d
    | .peData e q ws =>
      if d.bound q = false then d.bump DLV_PKT_DROP
      else dlvPut q [{ kind := .held, typ := 0x07, aux := d.tickLow, since := d.cyc, payload := pePayload e ws d }] d
    | .frameStart k => startEnqueue k d
    | .data k desc body lines => dataEnqueue k desc body lines d
    | .frameEnd k => endEnqueue k d
    | .stat q typ tag aux pay => statEnqueue q typ tag aux pay d

/-- DLV_ENQUEUE. -/
def execDlvEnqueue (s : State) : Out := onDev dlvEnqueue s

/-! ## Queue entries written (R407, R408) -/

/-- Request space that packets would have freed. (DEDUCED, log entry 91.) -/
def freed (ps : List Pkt) : Nat := ps.foldl (fun n (p : Pkt) => n + p.frees) 0

/-- Streams of a queue end with no FRAME_END. (DEDUCED, log entry 88.) -/
def killStreams (q : Nat) (d : Dev) : Dev :=
  d.onDlv fun s => { s with streams := s.streams.map fun e =>
    (e.1, if e.2.q = q ∧ e.2.begun then { e.2 with dead := true } else e.2) }

/-- EN of a queue is cleared: what waits is discarded and counted. (DEDUCED, log entry 90.) -/
def queueOff (q : Nat) (d : Dev) : Dev :=
  let ps := (d.queue q).all
  let d := d.add DLV_PKT_DROP ps.length
  let d := { d with hlp := { d.hlp with held := d.hlp.held - freed ps } }
  bufRegs q (killStreams q (urgentEnd q (d.setQueue q {})))

/-- A write to word 0 of an entry. (DEDUCED, log entry 90.) -/
def queueWord0 (p : Port) (q : Nat) (a : BitVec 24) (v : Word) (d : Dev) : Dev :=
  let b := bitsOf v
  let was := d.qEn q
  let badCap := decide (256 < b 24 16)
  let badMax := !was && decide (4 < b 6 4)
  let d := if badCap then d else d.qSet q 0 24 16 (b 24 16)
  let d := d.qSet q 0 15 8 (b 15 8)
  let d := if was ∨ badMax then d else d.qSet q 0 6 4 (b 6 4)
  let d := if was then d else d.qSet q 0 3 1 (b 3 1)
  let d := d.qSet q 0 0 0 (b 0 0)
  let d := if was = false ∧ b 0 0 = 1 then (d.qSet q 2 31 0 0).qSet q 3 15 0 0 else d
  let d := if was ∧ b 0 0 = 0 then queueOff q d else d
  if badCap then d.reject .dlv p a.toNat v 8
  else if was then d.reject .dlv p a.toNat v 1
  else if badMax then d.reject .dlv p a.toNat v 2
  else d

/-- A write to a word of an entry. The reason with which a write to queue 0 is rejected is open.
(DEDUCED, log entry 90.) -/
def queueWrite (p : Port) (a : BitVec 24) (v : Word) (d : Dev) : Dev :=
  match decodeAddr a.toNat with
  | .queue q w =>
    if q = 0 then
      let (r, d) := d.free
      d.reject .dlv p a.toNat v (1 + r.toNat % 8)
    else if w = 0 then queueWord0 p q a v d
    else if w = 1 then d.qSet q 1 31 0 v.toNat
    else d
  | _ => d

/-- QUEUE_ENTRY_WRITE. -/
def execQueueEntryWrite (p : Port) (a : BitVec 24) (v : Word) (s : State) : Out :=
  onDev (gateWrite p (queueWrite p a v)) s

/-! ## TIME packets (R416, R426) -/

/-- TIME_PERIODIC. -/
def execTimePeriodic (s : State) : Out :=
  onDev (fun d => if d.active .dlv ∧ d.a DLV_TIME_CFG_PERIOD_MS ≠ 0 then d.sendTime 0 else d) s

/-- TIME_SEND. -/
def execTimeSend (p : Port) (s : State) : Out := onDev (gatePage p .dlv fun d => d.sendTime 3) s

end Sys2Proof.Machine
end

