-- ==== Sys2Proof/Machine/EngCode.lean ====
section
/-! DEFINITION. The readout engines' instruction words (R166 to R170). -/
namespace Sys2Proof.Machine

/-- A number below a bound, or nothing: a reserved code. -/
def finCode (n v : Nat) : Option (Fin n) := if h : v < n then some ⟨v, h⟩ else none

def portCodeE : Nat → Option EPort
  | 1 => some .top
  | 2 => some .bot
  | 3 => some .both
  | _ => none

def incCode : Nat → Option EInc
  | 0 => some .none
  | 1 => some .plus
  | 2 => some .minus
  | _ => none

def baseCode : Nat → Option EBase
  | 0 => some .next
  | 1 => some .cur
  | 2 => some .trig
  | _ => none

/-- The instruction an operand field spells for an opcode; nothing for a reserved opcode, a reserved
code or a reserved bit that is not 0. `b hi lo` are operand bits. (DEDUCED, log entry 60.) -/
def eOperands (op : Nat) (w : Word) : Option EIns :=
  let b := bitsOf w
  let free (hi lo : Nat) (i : Option EIns) : Option EIns := if b hi lo = 0 then i else none
  match op with
  | 0x00 => free 21 0 (some .nop)
  | 0x01 => free 17 16 ((finCode 15 (b 21 18)).map fun r => .set r (BitVec.ofNat 16 (b 15 0)))
  | 0x02 => free 17 16 ((finCode 3 (b 21 18)).map fun r => .seth r (BitVec.ofNat 16 (b 15 0)))
  | 0x03 => free 17 12 ((finCode 15 (b 21 18)).map fun r => .add r (BitVec.ofNat 12 (b 11 0)))
  | 0x04 => free 11 0 do
      let d ← finCode 15 (b 21 18)
      let s ← finCode 15 (b 17 14)
      let o ← finCode 4 (b 13 12)
      some (.mov d s o)
  | 0x05 => free 17 10 do
      let c ← finCode 14 (b 21 18)
      let a ← finCode 1024 (b 9 0)
      some (.jmp c a)
  | 0x06 => free 17 16 ((finCode 9 (b 21 18)).map fun c => .wait c (BitVec.ofNat 16 (b 15 0)))
  | 0x07 => free 15 0 do
      let p ← portCodeE (b 21 20)
      let t ← incCode (b 19 18)
      let u ← incCode (b 17 16)
      some (.stb p t u)
  | 0x08 => free 19 0 (some (.pull (b 21 21 = 1) (b 20 20 = 1)))
  | 0x09 => free 15 0 (
      if b 17 17 = 1 then (finCode 4 (b 21 18)).map fun n => .push (.ctx n) (b 16 16 = 1)
      else (finCode 15 (b 21 18)).map fun r => .push (.reg r) (b 16 16 = 1))
  | 0x0A => free 15 0 do
      let a ← baseCode (b 21 20)
      let s ← finCode 5 (b 19 17)
      some (.shut a s (b 16 16 = 1))
  | 0x0B => free 16 0 ((finCode 15 (b 20 17)).map fun r => .shf (b 21 21 = 1) r)
  | 0x0C => free 19 0 (some (.shg (b 21 21 = 1) (b 20 20 = 1)))
  | 0x0D => free 19 0 ((portCodeE (b 21 20)).map .latch)
  | 0x0E => free 17 0 ((finCode 16 (b 21 18)).map .sync)
  | 0x0F => free 19 0 ((finCode 4 (b 21 20)).map .irq)
  | 0x10 => free 21 0 (some .stop)
  | _ => none

/-- Decode an instruction word into its instruction and its DELAY (R166). (DEDUCED, log entries 10 and 60.) -/
def eDecode (w : Word) : Option (EIns × Nat) :=
  (eOperands (bitsOf w 31 27) w).map fun i => (i, bitsOf w 26 22)

end Sys2Proof.Machine
end

