-- ==== Sys2Proof/Machine/Engine.lean ====
section
/-! DEFINITION. The readout engines: registers, control, FIFOs, shift chains and instructions, all but
SHUT (R157 to R197). An instruction runs only on an engine whose next word spells it. `ph` is the
engine cycle within the tick. -/
namespace Sys2Proof.Machine

/-! ## Engines -/

/-! States (R197). -/
def engSTOPPED : Nat := 0
def engRUN : Nat := 1
def engWAIT : Nat := 2
def engFIFO : Nat := 3
def engSTROBE : Nat := 4
def engSYNC : Nat := 5
def engHALTED : Nat := 6
def engILLEGAL : Nat := 7
def engFLUSH : Nat := 8

def noEng : Nat → EngSt := fun _ => {}
def Dev.engine (d : Dev) (e : Nat) : EngSt := SMap.get noEng d.eng e
def Dev.setEngine (d : Dev) (e : Nat) (g : EngSt) : Dev := { d with eng := SMap.set noEng d.eng e g }

/-- The page of engine `e`. -/
def engPage (e : Nat) : Page := .eng (Fin.ofNat 96 e)

/-- Does the engine count as running (R192)? -/
def EngSt.running (g : EngSt) : Bool := !(g.state = engSTOPPED || g.state = engHALTED || g.state = engILLEGAL)

/-- Instruction word `i` of engine `e` (R191). -/
def imemAddr (e i : Nat) : Nat := 0x180000 + e * 0x1000 + 4 * i
def Dev.imem (d : Dev) (e i : Nat) : Word := d.word (imemAddr e i)

/-- The instruction at the engine's PC. -/
def Dev.engIns (d : Dev) (e : Nat) : Option (EIns × Nat) := eDecode (d.imem e (d.engine e).pc)

/-- DELAY of the instruction at the engine's PC. -/
def Dev.engDelay (d : Dev) (e : Nat) : Nat := match d.engIns e with | some (_, n) => n | none => 0

/-- Is the engine about to issue an instruction? -/
def EngSt.issues (g : EngSt) : Bool := g.state = engRUN && !g.idle && g.stall = .none

/-- Is the engine about to issue this instruction with this DELAY? (DEDUCED, log entry 10.) -/
def Dev.engReady (d : Dev) (e : Nat) (i : EIns) (dly : Nat) : Bool :=
  (d.engine e).issues && d.engIns e = some (i, dly)

/-- The instruction at PC has ended: the next PC, by a taken jump, the wrap crossing or the next
address (R193, R194); an engine that was stepped halts again (R162). -/
def EngSt.advance (g : EngSt) : EngSt :=
  let g := { g with past := (g.pc :: g.past).take 2 }
  let g := match g.jump with
    | some a => { g with pc := a }
    | none =>
      if g.pc = g.wrapTop then
        match g.pendWrap with
        | some (t, b) => { g with pc := b % 1024, wrapTop := t, wrapBot := b, pendWrap := none }
        | none => { g with pc := g.wrapBot % 1024 }
      else { g with pc := (g.pc + 1) % 1024 }
  { g with idle := false, jump := none, stall := .none,
           state := if g.stepping then engHALTED else engRUN,
           dirty := g.dirty || (g.stepping && g.shifted), stepping := false }

/-- The instruction completes: its DELAY begins, or the next instruction issues (R167). -/
def EngSt.complete (g : EngSt) (dly : Nat) (jump : Option Nat := none) : EngSt :=
  let g := { g with jump := jump, stall := .none, state := engRUN }
  if dly = 0 ∨ g.stepping then g.advance else { g with idle := true }

def Dev.engDone (d : Dev) (e dly : Nat) (jump : Option Nat := none) : Dev :=
  d.setEngine e ((d.engine e).complete dly jump)

/-! ## Registers (R157, R158) -/

/-- STAT as instructions read it. -/
def EngSt.statReg (g : EngSt) : Nat :=
  (if g.z then 1 else 0) + (if g.stale then 2 else 0) + (if g.drop then 4 else 0) +
    (if g.first then 8 else 0) + 256 * g.trig

/-- Engine cycles since the last start tick. -/
def Dev.fc (d : Dev) (now : Nat) : Nat := (now - d.ary.lastTick) % 2 ^ 32

def regWidth : Nat → Nat
  | 3 => 13 | 4 => 13 | 5 => 6 | 6 => 2 | 7 => 6 | 9 => 16 | 10 => 3 | _ => 32

/-- A register's value. -/
def Dev.engReg (d : Dev) (e now r : Nat) : Nat :=
  let g := d.engine e
  match r with
  | 0 => g.x | 1 => g.y | 2 => g.w | 3 => g.rt | 4 => g.rb | 5 => g.t | 6 => g.p | 7 => g.tag
  | 8 => d.fc now
  | 9 => g.statReg
  | 10 => d.curM
  | r => d.ai ENG_U e (r - 11)

/-- Write a register; read-only registers keep their value. -/
def EngSt.setReg (g : EngSt) (r v : Nat) : EngSt :=
  let v := v % 2 ^ regWidth r
  match r with
  | 0 => { g with x := v } | 1 => { g with y := v } | 2 => { g with w := v }
  | 3 => { g with rt := v } | 4 => { g with rb := v } | 5 => { g with t := v }
  | 6 => { g with p := v } | 7 => { g with tag := v }
  | _ => g

/-- Write a result and set Z by it, at the width of the destination. -/
def EngSt.setResult (g : EngSt) (r : Nat) (v : Int) : EngSt :=
  let n := unsigned (regWidth r) v
  { g.setReg r n with z := n = 0 }

/-! ## Plain instructions (R168) -/

/-- Run an instruction that completes on its issue cycle. (DEDUCED, log entry 10.) -/
def engRun (e : Nat) (i : EIns) (dly : Nat) (f : EngSt → EngSt) (d : Dev) : Dev :=
  if d.engReady e i dly then (d.setEngine e (f (d.engine e))).engDone e dly else d

/-- ENG_NOP. -/
def execEngNop (e : Fin 96) (dly : Fin 32) (s : State) : Out := onDev (engRun e .nop dly id) s

/-- ENG_SET. -/
def execEngSet (e : Fin 96) (dst : Fin 15) (imm : BitVec 16) (dly : Fin 32) (s : State) : Out :=
  onDev (engRun e (.set dst imm) dly fun g => g.setReg dst imm.toNat) s

/-- SETH: the high half of X, Y or W. -/
def EngSt.setHigh (g : EngSt) (r imm : Nat) : EngSt :=
  let v := match r with | 0 => g.x | 1 => g.y | _ => g.w
  g.setReg r (imm * 65536 + v % 65536)

/-- ENG_SETH. -/
def execEngSeth (e : Fin 96) (dst : Fin 3) (imm : BitVec 16) (dly : Fin 32) (s : State) : Out :=
  onDev (engRun e (.seth dst imm) dly fun g => g.setHigh dst imm.toNat) s

/-- ADD. -/
def engAdd (e dst : Nat) (imm : Int) (now : Nat) (d : Dev) (g : EngSt) : EngSt :=
  g.setResult dst ((d.engReg e now dst : Int) + imm)

/-- ENG_ADD. -/
def execEngAdd (e : Fin 96) (ph : Fin 3) (dst : Fin 15) (imm : BitVec 12) (dly : Fin 32) (s : State) : Out :=
  onDev (fun d => engRun e (.add dst imm) dly (engAdd e dst imm.toInt (d.cyc + ph) d) d) s

/-- MOV: copy, add, subtract or AND. -/
def engMov (e dst src op now : Nat) (d : Dev) (g : EngSt) : EngSt :=
  let a := d.engReg e now dst
  let b := d.engReg e now src
  g.setResult dst (match op with
    | 0 => (b : Int)
    | 1 => (a : Int) + b
    | 2 => (a : Int) - b
    | _ => ((a &&& b : Nat) : Int))

/-- ENG_MOV. -/
def execEngMov (e : Fin 96) (ph : Fin 3) (dst src : Fin 15) (op : Fin 4) (dly : Fin 32) (s : State) : Out :=
  onDev (fun d => engRun e (.mov dst src op) dly (engMov e dst src op (d.cyc + ph) d) d) s

/-- Does a JMP condition hold (R169)? -/
def EngSt.jmpHolds (g : EngSt) (cond : Nat) : Bool :=
  match cond with
  | 0 => true
  | 1 => g.z
  | 2 => !g.z
  | 3 => g.x != 0
  | 4 => g.y != 0
  | 5 => g.stale
  | 6 => !g.stale
  | 7 => g.drop
  | 8 => g.x != g.y
  | 9 => decide (g.x < g.y)
  | 10 => g.t = 63
  | 11 => g.ctxF.isEmpty
  | 12 => g.parF.isEmpty
  | _ => g.first

/-- What testing a condition changes: XDEC and YDEC count down. -/
def EngSt.jmpEffect (g : EngSt) (cond : Nat) : EngSt :=
  match cond with
  | 3 => g.setReg 0 (g.x + 2 ^ 32 - 1)
  | 4 => g.setReg 1 (g.y + 2 ^ 32 - 1)
  | _ => g

def engJmp (e cond addr dly : Nat) (d : Dev) : Dev :=
  let g := d.engine e
  (d.setEngine e (g.jmpEffect cond)).engDone e dly (if g.jmpHolds cond then some addr else none)

/-- ENG_JMP. -/
def execEngJmp (e : Fin 96) (cond : Fin 14) (addr : Fin 1024) (dly : Fin 32) (s : State) : Out :=
  onDev (fun d => if d.engReady e (.jmp cond addr) dly then engJmp e cond addr dly d else d) s

/-- ENG_IRQ. -/
def execEngIrq (e : Fin 96) (n : Fin 4) (dly : Fin 32) (s : State) : Out :=
  onDev (fun d => if d.engReady e (.irq n) dly then
      (d.raiseBits (.eng e) (BitVec.ofNat 32 (2 ^ (8 + n.val)))).engDone e dly else d) s

/-- The engine stops itself: its armed events run on (R161), and its PC stays at the STOP. (DESIGN CHOICE, log entry 120.) -/
def engStopSelf (e : Nat) (d : Dev) : Dev :=
  let g := d.engine e
  (d.setEngine e { g with state := engSTOPPED, dirty := g.dirty || g.shifted, stepping := false }).raiseI
    ENG_IRQ_RAW_STOPPED e

/-- ENG_STOP. -/
def execEngStop (e : Fin 96) (dly : Fin 32) (s : State) : Out :=
  onDev (fun d => if d.engReady e .stop dly then engStopSelf e d else d) s

/-- The idle cycles of DELAY end (R167, R193). -/
def engDelayEnd (e : Nat) (d : Dev) : Dev :=
  let g := d.engine e
  if g.state = engRUN ∧ g.idle then d.setEngine e g.advance else d

/-- ENG_DELAY_END. -/
def execEngDelayEnd (e : Fin 96) (s : State) : Out := onDev (engDelayEnd e) s

/-- A word with a reserved opcode, code or bit halts the engine (R196). -/
def engIllegal (e : Nat) (d : Dev) : Dev :=
  let g := d.engine e
  if g.issues ∧ d.engIns e = none then
    let d := d.setEngine e { g with state := engILLEGAL, dirty := g.dirty || g.shifted, stepping := false }
    (d.raiseI ENG_IRQ_RAW_ILLEGAL e).emit 0x04B (engPage e) (u16 g.pc ++ u32 (d.imem e g.pc).toNat)
  else d

/-- ENG_ILLEGAL_OP. -/
def execEngIllegalOp (e : Fin 96) (s : State) : Out := onDev (engIllegal e) s

/-! ## WAIT (R170, R171) -/

/-- Does a WAIT condition hold, for a WAIT issued at cycle `issue` and count `tick`? -/
def Dev.waitHolds (d : Dev) (e now cond arg issue tick : Nat) : Bool :=
  let g := d.engine e
  match cond with
  | 0 => decide (tick < d.ary.k)
  | 1 => d.time.tick != tick
  | 2 => decide (g.x ≤ d.fc now)
  | 3 => g.trig.testBit (arg % 8)
  | 4 => !d.awaits (tileNo e g.t) now
  | 5 => decide (arg % 16 ≤ g.ctxF.length)
  | 6 => decide (arg % 16 ≤ g.parF.length)
  | 7 => decide (arg % 32 + g.outF.length ≤ 16)
  | _ => decide (issue + arg + 1 ≤ now)

/-- What a completing WAIT changes: TRIG clears its line; START meets its tick. -/
def EngSt.waitEffect (g : EngSt) (cond arg k : Nat) : EngSt :=
  match cond with
  | 0 => { g with tickSeen := k }
  | 3 => if g.trig.testBit (arg % 8) then { g with trig := g.trig - 2 ^ (arg % 8) } else g
  | _ => g

/-- A WAIT START reached after the tick it was meant for (R171): a start tick has passed since the one that the engine
last met or was started at. (DESIGN CHOICE, log entry 116.) -/
def startMiss (e : Nat) (d : Dev) : Dev :=
  let g := d.engine e
  if g.tickSeen = d.ary.k then d
  else
    let d := d.setEngine e { g with tickSeen := d.ary.k }
    ((d.bumpI ENG_START_MISS e 0).raiseI ENG_IRQ_RAW_START_MISS e).onceTick d.ary.k 0x047 (engPage e)

def engWait (e cond arg now dly : Nat) (d : Dev) : Dev :=
  let tick := if cond = 1 then d.time.tick else d.ary.k
  if d.waitHolds e now cond arg now tick then
    (d.setEngine e ((d.engine e).waitEffect cond arg d.ary.k)).engDone e dly
  else
    let d := if cond = 0 then startMiss e d else d
    d.setEngine e { d.engine e with state := engWAIT, stall := .wait cond arg now tick }

/-- ENG_WAIT. -/
def execEngWait (e : Fin 96) (ph : Fin 3) (cond : Fin 9) (arg : BitVec 16) (dly : Fin 32) (s : State) : Out :=
  onDev (fun d => if d.engReady e (.wait cond arg) dly then engWait e cond arg.toNat (d.cyc + ph) dly d
    else d) s

/-- A stalled WAIT whose condition holds completes. -/
def engWaitDone (e now : Nat) (d : Dev) : Dev :=
  match (d.engine e).stall with
  | .wait cond arg issue tick =>
    if d.waitHolds e now cond arg issue tick then
      (d.setEngine e ((d.engine e).waitEffect cond arg d.ary.k)).engDone e (d.engDelay e)
    else d
  | _ => d

/-- ENG_WAIT_DONE. -/
def execEngWaitDone (e : Fin 96) (ph : Fin 3) (s : State) : Out :=
  onDev (fun d => engWaitDone e (d.cyc + ph) d) s

/-! ## FIFOs (R172 to R175) -/

/-- The sweep requests entries at or below THR, until the FIFO holds 8. -/
def EngSt.refill (g : EngSt) (thr : Nat) : EngSt :=
  if g.ctxF.length ≤ thr then { g with swFill := true }
  else if 8 ≤ g.ctxF.length then { g with swFill := false }
  else g

/-- One entry of the sweep is delivered (R172, R173); NEXT goes on by one, also from the last. (DESIGN CHOICE,
log entry 120.) -/
def ctxDma (e : Nat) (d : Dev) : Dev :=
  let g := (d.engine e).refill (d.ai ENG_DMA_CFG_THR e 0)
  if g.swLeft = 0 ∨ g.swFill = false ∨ 8 ≤ g.ctxF.length then d.setEngine e g
  else
    let x : CtxEntry := { ty := g.swNext, ws := d.ctxWords g.swBank (tileNo e g.swNext) }
    let nx := if d.ai ENG_DMA_CFG_DIR e 0 = 0 then (g.swNext + 1) % 64 else (g.swNext + 63) % 64
    let g := { g with ctxF := g.ctxF ++ [x], swNext := nx, swLeft := g.swLeft - 1 }
    d.setEngine e (g.refill (d.ai ENG_DMA_CFG_THR e 0))

/-- CTX_DMA_ENTRY. -/
def execCtxDmaEntry (e : Fin 96) (s : State) : Out := onDev (ctxDma e) s

/-- What a PULL finds: the engine with the entry taken, or nothing. -/
def EngSt.pulled (g : EngSt) (par : Bool) : Option EngSt :=
  if par then
    match g.parF with
    | w :: t => some { g with x := w.toNat, parF := t, stale := false }
    | [] => none
  else
    match g.ctxF with
    | x :: t => some { g with c := x.ws, cTy := x.ty, t := x.ty, ctxF := t, stale := false }
    | [] => none

def engPull (e : Nat) (par nb : Bool) (dly : Nat) (d : Dev) : Dev :=
  let g := d.engine e
  match g.pulled par with
  | some g => (d.setEngine e (g.refill (d.ai ENG_DMA_CFG_THR e 0))).engDone e dly
  | none =>
    if nb ∨ (par = false ∧ g.swLeft = 0) then
      ((d.setEngine e { g with stale := true }).bumpI ENG_PULL_STALE e 0).engDone e dly
    else d.setEngine e { g with state := engFIFO, stall := .pull par }

/-- ENG_PULL. -/
def execEngPull (e : Fin 96) (par nb : Bool) (dly : Fin 32) (s : State) : Out :=
  onDev (fun d => if d.engReady e (.pull par nb) dly then engPull e par nb dly d else d) s

/-- A stalled PULL completes when its data is present. -/
def engPullDone (e : Nat) (d : Dev) : Dev :=
  match (d.engine e).stall with
  | .pull par =>
    match (d.engine e).pulled par with
    | some g => (d.setEngine e (g.refill (d.ai ENG_DMA_CFG_THR e 0))).engDone e (d.engDelay e)
    | none => d
  | _ => d

/-- ENG_PULL_DONE. -/
def execEngPullDone (e : Fin 96) (s : State) : Out := onDev (engPullDone e) s

/-- The word a PUSH writes. -/
def Dev.pushWord (d : Dev) (e now : Nat) (src : ESrc) : Word :=
  match src with
  | .reg r => BitVec.ofNat 32 (d.engReg e now r)
  | .ctx n => ((d.engine e).c[n.val]?).getD 0#32

def engPush (e : Nat) (v : Word) (nb : Bool) (dly : Nat) (d : Dev) : Dev :=
  let g := d.engine e
  if g.outF.length < 16 then
    (d.setEngine e { g with outF := g.outF ++ [v], drop := false }).engDone e dly
  else if nb then
    ((d.setEngine e { g with drop := true }).bumpI ENG_PUSH_DROP e 0).engDone e dly
  else d.setEngine e { g with state := engFIFO, stall := .push v }

/-- ENG_PUSH. -/
def execEngPush (e : Fin 96) (ph : Fin 3) (src : ESrc) (nb : Bool) (dly : Fin 32) (s : State) : Out :=
  onDev (fun d => if d.engReady e (.push src nb) dly then
      engPush e (d.pushWord e (d.cyc + ph) src) nb dly d else d) s

/-- A stalled PUSH completes when space is free. -/
def engPushDone (e : Nat) (d : Dev) : Dev :=
  let g := d.engine e
  match g.stall with
  | .push v =>
    if g.outF.length < 16 then
      (d.setEngine e { g with outF := g.outF ++ [v], drop := false }).engDone e (d.engDelay e)
    else d
  | _ => d

/-- ENG_PUSH_DONE. -/
def execEngPushDone (e : Fin 96) (s : State) : Out := onDev (engPushDone e) s

/-- A host write of PARAM. -/
def engParam (e : Nat) (v : Word) (d : Dev) : Dev :=
  let g := d.engine e
  if g.parF.length < 8 then d.setEngine e { g with parF := g.parF ++ [v] }
  else (d.bumpI ENG_PARAM_OVF e 0).raiseI ENG_IRQ_RAW_PARAM_OVF e

/-- ENG_PARAM_WRITE. -/
def execEngParamWrite (p : Port) (e : Fin 96) (v : Word) (s : State) : Out :=
  onDev (gatePage p (.eng e) (engParam e v)) s

/-- A read of OUT: its value, and the state it leaves. -/
def engOutPop (e : Nat) (d : Dev) : Word × Dev :=
  let g := d.engine e
  match g.outF with
  | w :: t => (w, d.setEngine e { g with outF := t })
  | [] => (0#32, d)

/-- ENG_OUT_READ. -/
def execEngOutRead (p : Port) (e : Fin 96) (s : State) : Out :=
  onDev (fun d => if d.serves then let (w, d) := engOutPop e d; d.output p [w] else d) s

/-! ## Shift chains (R182 to R187) -/

def EngSt.chain (g : EngSt) (bot : Bool) : Chain := if bot then g.bot else g.top
def EngSt.setChain (g : EngSt) (bot : Bool) (c : Chain) : EngSt :=
  if bot then { g with bot := c } else { g with top := c }

/-- Shift a word in at the near end; the word at the far end is lost (R183). -/
def Chain.push (c : Chain) (w : Word) : Chain := { c with shift := (w :: c.shift).take 32 }

def EngSt.shf (g : EngSt) (bot : Bool) (w : Word) : EngSt :=
  { g.setChain bot ((g.chain bot).push w) with shifted := true }

/-- ENG_SHF. -/
def execEngShf (e : Fin 96) (ph : Fin 3) (bot : Bool) (src : Fin 15) (dly : Fin 32) (s : State) : Out :=
  onDev (fun d => engRun e (.shf bot src) dly
    (fun g => g.shf bot (BitVec.ofNat 32 (d.engReg e (d.cyc + ph) src))) d) s

/-- The read gain of a tile for a pass of the frame being read (R182). In strip mode an event that waits for its edge
belongs to the frame being read (R190). -/
def Dev.readGain (d : Dev) (t pass : Nat) : Nat :=
  let x := d.tile t
  let waits (v : ShutEv) : Bool := d.sched = schedSTRIP && v.sub = pass && v.line.isSome && v.frame.isNone
  match x.eventOf pass d.ary.k <|> x.events.find? waits with
  | some v => v.gain
  | none => 0

/-- A word whose four bytes carry a gain. -/
def gainWord (g : Nat) : Word := BitVec.ofNat 32 (g * 0x01010101)

def engShg (e : Nat) (bot mirror : Bool) (now : Nat) (d : Dev) : Dev :=
  let g := d.engine e
  let ty := if mirror then 63 - g.t else g.t
  d.setEngine e { g with stall := .shg bot (gainWord (d.readGain (tileNo e ty) g.p)) now }

/-- ENG_SHG: 32 cycles of shifting begin. -/
def execEngShg (e : Fin 96) (ph : Fin 3) (bot mirror : Bool) (dly : Fin 32) (s : State) : Out :=
  onDev (fun d => if d.engReady e (.shg bot mirror) dly then engShg e bot mirror (d.cyc + ph) d else d) s

/-- Shift the same word `n` times. -/
def EngSt.shiftMany (g : EngSt) (bot : Bool) (w : Word) : Nat → EngSt
  | 0 => g
  | n + 1 => (g.shf bot w).shiftMany bot w n

/-- SHG completes on its 32nd cycle. -/
def engShgDone (e : Nat) (d : Dev) : Dev :=
  let g := d.engine e
  match g.stall with
  | .shg bot w _ => (d.setEngine e (g.shiftMany bot w 32)).engDone e (d.engDelay e)
  | _ => d

/-- ENG_SHG_DONE. -/
def execEngShgDone (e : Fin 96) (s : State) : Out := onDev (engShgDone e) s

def Chain.latch (c : Chain) : Chain := { c with hold := some c.shift }

/-- LATCH copies the named sub-chains (R184). (DEDUCED, log entry 57.) -/
def EngSt.latch (g : EngSt) (p : EPort) : EngSt :=
  let g := match p with
    | .top => { g with top := g.top.latch }
    | .bot => { g with bot := g.bot.latch }
    | .both => { g with top := g.top.latch, bot := g.bot.latch }
  { g with shifted := false }

/-- ENG_LATCH. -/
def execEngLatch (e : Fin 96) (p : EPort) (dly : Fin 32) (s : State) : Out :=
  onDev (engRun e (.latch p) dly fun g => g.latch p) s

/-- What the 64-cycle flush does to a sub-chain (R187). -/
def Chain.flush (c : Chain) : Chain := { c with shift := c.drv, hold := none }

/-- The flush ends and the engine runs. -/
def engFlushDone (e : Nat) (d : Dev) : Dev :=
  let g := d.engine e
  if g.state = engFLUSH then
    let g := { g with top := g.top.flush, bot := g.bot.flush, dirty := false, shifted := false,
                      state := engRUN }
    (d.setEngine e g).bumpI ENG_CHAIN_FLUSH e 0
  else d

/-- ENG_FLUSH_DONE. -/
def execEngFlushDone (e : Fin 96) (s : State) : Out := onDev (engFlushDone e) s

/-! ## STB (R164) -/

/-- Have all boundaries of a pass of the frame being read passed? -/
def Dev.passOver (d : Dev) (p : Nat) : Bool :=
  match d.ary.cur with
  | some u => decide (p < d.ary.pass) ||
      (p = d.ary.pass &&
        (d.ary.complete || ((d.frame u).sched != schedSTRIP && decide ((d.frame u).rows ≤ d.ary.offered))))
  | none => false

def incOf : EInc → Int
  | .none => 0
  | .plus => 1
  | .minus => -1

/-- STB ends without a strobe; its increments are not applied. (DESIGN CHOICE, log entry 116.) -/
def rowLost (e dly : Nat) (d : Dev) : Dev :=
  ((d.bumpI ENG_ROW_LOST e 0).raiseI ENG_IRQ_RAW_ROW_LOST e).engDone e dly

/-- (DEDUCED, log entry 53.) -/
def engStb (e : Nat) (p : EPort) (it ib : EInc) (now dly : Nat) (d : Dev) : Dev :=
  let g := d.engine e
  if d.curM ≤ g.p ∨ d.passOver g.p then rowLost e dly d
  else
    let st := Stall.strobe (p != .bot) (p != .top) (incOf it) (incOf ib)
    d.setEngine e { g with state := engSTROBE, stall := st, strobeFrom := now + 1 }

/-- ENG_STB. -/
def execEngStb (e : Fin 96) (ph : Fin 3) (p : EPort) (it ib : EInc) (dly : Fin 32) (s : State) : Out :=
  onDev (fun d => if d.engReady e (.stb p it ib) dly then engStb e p it ib (d.cyc + ph) dly d else d) s

/-! ## SYNC (R189) -/

/-- ENG_SYNC. -/
def execEngSync (e : Fin 96) (ph : Fin 3) (g : Fin 16) (dly : Fin 32) (s : State) : Out :=
  onDev (fun d => if d.engReady e (.sync g) dly then
      d.setEngine e { d.engine e with state := engSYNC, stall := .sync g (d.cyc + ph) } else d) s

/-- The members of a barrier group. -/
def Dev.syncMembers (d : Dev) (grp : Nat) : List Nat :=
  (List.range 96).filter fun e =>
    d.ai ENG_SYNC_CFG_GRP e 0 = grp && d.enabled (engPage e) && (d.engine e).running

/-- Does the engine wait at the barrier? -/
def EngSt.atSync (g : EngSt) (grp : Nat) : Bool :=
  match g.stall with
  | .sync h _ => h = grp
  | _ => false

/-- The barrier releases when every member waits at it. -/
def syncRelease (grp : Nat) (d : Dev) : Dev :=
  let ms := d.syncMembers grp
  if ms.all fun e => (d.engine e).atSync grp then
    ms.foldl (fun d e => d.engDone e (d.engDelay e)) d
  else d

/-- ENG_SYNC_RELEASE. -/
def execEngSyncRelease (g : Fin 16) (s : State) : Out := onDev (syncRelease g) s

/-- An engine has waited TMO × 256 cycles. -/
def syncTimeout (e : Nat) (d : Dev) : Dev :=
  match (d.engine e).stall with
  | .sync _ _ =>
    if d.ai ENG_SYNC_CFG_TMO e 0 = 0 then d
    else
      let d := d.engDone e (d.engDelay e)
      ((d.bumpI ENG_SYNC_TMO e 0).raiseI ENG_IRQ_RAW_SYNC_TMO e).emit 0x04A (engPage e)
  | _ => d

/-- ENG_SYNC_TIMEOUT. -/
def execEngSyncTimeout (e : Fin 96) (s : State) : Out := onDev (syncTimeout e) s

/-! ## Halt, resume, step (R162, R186) -/

/-- Abandon what the engine does: an SHG in progress has shifted a word each cycle; a DELAY under way
ends. (DEDUCED, log entry 57.) -/
def EngSt.abandon (g : EngSt) (now : Nat) : EngSt :=
  match g.stall with
  | .shg bot w issue => { g.shiftMany bot w (min 31 (now - issue)) with stall := .none, dirty := true }
  | .none => if g.idle then { g with stepping := false }.advance else g
  | _ => { g with stall := .none }

/-- (DEDUCED, log entry 57.) -/
def engHalt (e : Nat) (d : Dev) : Dev :=
  let d := d.setFi ENG_CTRL_HALT e 0 1
  let g := d.engine e
  if g.running then
    let g := g.abandon d.cyc
    d.setEngine e { g with state := engHALTED, stepping := false, dirty := g.dirty || g.shifted }
  else d

/-- ENG_HALT. -/
def execEngHalt (p : Port) (e : Fin 96) (s : State) : Out := onDev (gatePage p (.eng e) (engHalt e)) s

/-- Run on from PC, after the flush of a dirty chain. -/
def EngSt.goOn (g : EngSt) : EngSt := { g with state := if g.dirty then engFLUSH else engRUN }

/-- (DEDUCED, log entry 57.) -/
def engResume (e : Nat) (d : Dev) : Dev :=
  let d := d.setFi ENG_CTRL_HALT e 0 0
  let g := d.engine e
  if g.state = engHALTED ∨ g.state = engILLEGAL then d.setEngine e { g with stepping := false }.goOn
  else d.setEngine e { g with stepping := false }

/-- ENG_RESUME. -/
def execEngResume (p : Port) (e : Fin 96) (s : State) : Out := onDev (gatePage p (.eng e) (engResume e)) s

/-- A write of STEP = 1: one instruction. HALT stays as it is. (DEDUCED, log entry 57.) -/
def engStep (e : Nat) (d : Dev) : Dev :=
  let g := d.engine e
  if g.state = engHALTED ∨ g.state = engILLEGAL then d.setEngine e { g with stepping := true }.goOn else d

/-- ENG_STEP. -/
def execEngStep (p : Port) (e : Fin 96) (s : State) : Out := onDev (gatePage p (.eng e) (engStep e)) s

/-- SNAP_REQ captures the address of the instruction executing or stalled (R191); of an engine that does neither, that
of the next. (DESIGN CHOICE, log entry 116.) -/
def engSnap (e : Nat) (d : Dev) : Dev :=
  (d.setFi ENG_PC_SNAP_PC e 0 (d.engine e).pc).setFi ENG_PC_SNAP_VALID e 0 1

/-- ENG_SNAP_REQ. -/
def execEngSnapReq (p : Port) (e : Fin 96) (s : State) : Out := onDev (gatePage p (.eng e) (engSnap e)) s

/-! ## Instruction memory (R192) -/

/-- Does an address lie in a wrap window? -/
def inWindow (t b i : Nat) : Bool := decide (b ≤ i) && decide (i ≤ t)

/-- May instruction word `i` be written? -/
def EngSt.imemOpen (g : EngSt) (i : Nat) : Bool :=
  !g.running ||
    (!inWindow g.wrapTop g.wrapBot i &&
      (match g.pendWrap with | some (t, b) => !inWindow t b i | none => true) &&
      decide (4 ≤ (i + 1024 - g.pc) % 1024))

def imemWrite (p : Port) (e i : Nat) (v : Word) (d : Dev) : Dev :=
  if (d.engine e).imemOpen i then d.putWord (imemAddr e i) v
  else d.reject (engPage e) p (imemAddr e i) v 1

/-- ENG_IMEM_WRITE. A write elsewhere is not this command. -/
def execEngImemWrite (p : Port) (a : BitVec 24) (v : Word) (s : State) : Out :=
  onDev (gateWrite p fun d =>
    match decodeAddr a.toNat with
    | .imem e i => if d.inReset (engPage e) then d else imemWrite p e i v d
    | _ => d) s

/-! ## Start and stop ticks (R159, R160, R172) -/

/-- The commanded start: an enabled engine that is STOPPED starts at ENTRY, and runs on whatever HALT was written
before. (DESIGN CHOICE, log entry 116.) -/
def engStart (e : Nat) (d : Dev) : Dev :=
  let g := d.engine e
  if g.state = engSTOPPED ∧ d.enabled (engPage e) then
    let g := { g with pc := d.ai ENG_PROG_ENTRY e 0, past := [], first := true, idle := false, jump := none,
                      stall := .none, stepping := false, tickSeen := d.ary.k }
    d.setEngine e g.goOn
  else d

/-- The engine stops at a start tick. A pending wrap pair stays pending. (DESIGN CHOICE, log entry 116.) -/
def engStopTick (e : Nat) (d : Dev) : Dev :=
  let g := d.engine e
  if g.state = engSTOPPED then d
  else
    let g := g.abandon d.cyc
    d.setEngine e { g with state := engSTOPPED, stepping := false, dirty := g.dirty || g.shifted }

/-- At a start tick the context FIFO is emptied and a sweep of the active bank begins; an engine that is
STOPPED or not enabled keeps its FIFO and fetches nothing more. -/
def sweepStart (e : Nat) (d : Dev) : Dev :=
  let g := d.engine e
  if d.enabled (engPage e) = false ∨ g.state = engSTOPPED then d.setEngine e { g with swLeft := 0, swFill := false }
  else
    let d := d.addI ENG_CTX_DISCARD e 0 g.ctxF.length
    d.setEngine e { g with ctxF := [], swBank := d.activeBank, swNext := d.ai ENG_DMA_CFG_FIRST e 0,
                           swLeft := d.ai ENG_DMA_CFG_COUNT e 0, swFill := true }

/-- A committed wrap pair (R194). -/
def wrapApply (e : Nat) (d : Dev) : Dev :=
  let g := d.engine e
  let t := d.ai ENG_WRAP_TOP e 0
  let b := d.ai ENG_WRAP_BOT e 0
  if g.running then d.setEngine e { g with pendWrap := some (t, b) }
  else d.setEngine e { g with wrapTop := t, wrapBot := b, pendWrap := none }

/-! ## Registers as the host reads them (R197) -/

/-- `ENG.STAT` with its PC field at `pc`. -/
def EngSt.statAt (g : EngSt) (pc : Nat) : Nat :=
  pc * 65536 + b2n g.pendWrap.isSome * 2048 + b2n g.dirty * 1024 + b2n g.drop * 512 +
    b2n g.stale * 256 + b2n g.z * 128 + g.state

/-- `ENG.STAT`, with an exact PC. -/
def EngSt.statWord (g : EngSt) : Nat := g.statAt g.pc

/-- The PC that a read of `ENG.STAT` shows: exact at rest, and while the engine runs the instruction at
PC or one of the two before it, as `n` has it (R191, R580; DESIGN CHOICE, log entry 115). -/
def EngSt.shownPc (g : EngSt) (n : Nat) : Nat :=
  if g.running then ((g.pc :: g.past)[n % (g.past.length + 1)]?).getD g.pc else g.pc

/-- `ENG.STAT` as a port reads it. -/
def engStatRead (e : Nat) (d : Dev) : Word × Dev :=
  let g := d.engine e
  if g.running then
    let (n, d) := d.free
    (BitVec.ofNat 32 (g.statAt (g.shownPc n.toNat)), d)
  else (BitVec.ofNat 32 g.statWord, d)

/-- `ENG.FIFO_STAT`. -/
def EngSt.fifoWord (g : EngSt) : Nat :=
  g.outF.length * 65536 + g.parF.length * 4096 + g.ctxF.length * 256 + g.swNext

/-- The engine's own words of its page. -/
def EngSt.pageWord (g : EngSt) (off : Nat) : Option Nat :=
  match off with
  | 0x10C => some g.statWord
  | 0x124 => some g.fifoWord
  | 0x160 => some g.x
  | 0x164 => some g.y
  | 0x168 => some g.w
  | 0x16C => some (g.rt * 65536 + g.rb)
  | 0x170 => some (g.t * 256 + g.p * 64 + g.tag)
  | _ => none

end Sys2Proof.Machine
end

