-- ==== Sys2Proof/Machine/Shutter.lean ====
section
/-! DEFINITION. The shutter units: SHUT, the falls of RST and TX, the transfer hold, trigger edges at
the shutter, and the suspension of shutter control (R102 to R106, R115, R126 to R132, R176 to R182,
R190, R223). -/
namespace Sys2Proof.Machine

/-! ## Arming (R176, R177, R179) -/

def shutReject (e : Nat) (d : Dev) : Dev := (d.bumpI ENG_SHUT_REJECT e 0).raiseI ENG_IRQ_RAW_SHUT_REJECT e

def addEvent (t : Nat) (v : ShutEv) (d : Dev) : Dev :=
  let x := d.tile t
  d.setTile t { x with events := x.events ++ [v] }

/-- A duration raised to 300 cycles (R136). (DEDUCED, log entry 55.) -/
def durClamp (v : ShutEv) (d : Dev) : Dev :=
  if v.clamped then
    let d := (d.bump EXP_DUR_CLAMP).raise EXP_IRQ_RAW_DUR_CLAMP
    match v.frame with
    | some k => d.flagTick k ffEXP_CLAMPED
    | none => d
  else d

/-- A late event (R179). (DEDUCED, log entry 55.) -/
def shutLate (t k : Nat) (d : Dev) : Dev :=
  let e := t % 96
  let d := (d.bumpI ENG_SHUT_LATE e 0).raiseI ENG_IRQ_RAW_SHUT_LATE e
  (d.flagTick k ffEXP_LATE).onceTick k 0x048 (engPage e)

/-- Place an event whose pass begins at cycle `b`: it is armed, armed late, or discarded. An RST
fall that is due on SHUT's own cycle is late. (DEDUCED, log entry 55.) -/
def placeEvent (t k b now : Nat) (v : ShutEv) (d : Dev) : Dev :=
  let st := slotStart v.align (slotEnd b) v.slot v.dur v.offset
  if st ≤ now then
    let d := shutLate t k d
    if st + v.dur ≤ now then d else addEvent t { v with placed := true } d
  else addEvent t { v with placed := true } d

/-- B_i of the frame of start tick `k`, where it can be predicted (R176). (DEDUCED, log entry 51.) -/
def Dev.predStart (d : Dev) (k i : Nat) : Option Nat :=
  if k = d.ary.k then (if d.inFrame then some (d.passStart i) else none)
  else d.nextStart.map fun n => n + i * passCycles (d.a ARY_PASS_CFG_ROWS) (d.tRow + d.rowExt)

/-- Does the tile hold the event already (R177)? -/
def TileSt.holds (x : TileSt) (sub : Nat) (frame line : Option Nat) : Bool :=
  match frame with
  | some k => (x.eventOf sub k).isSome
  | none => x.events.any fun v => v.frame = none && v.line = line

/-- SLOTi in force at the last start tick (R176); before any, as it is active. -/
def Dev.slotTick (d : Dev) (i : Nat) : Nat := (d.ary.slots[i]?).getD (d.ak EXP_SLOT i)

/-- m of the same generation. -/
def Dev.mTick (d : Dev) : Nat := d.ary.nsub.getD (d.a EXP_EXP_CFG_NSUB) + 1

/-- Arm one sub-exposure of tile `t` from the context words `c`. (DEDUCED, log entry 55.) -/
def armOne (t : Nat) (c : List Word) (base : EBase) (hold : Bool) (now sub : Nat) (d : Dev) : Dev :=
  let e := t % 96
  let x := d.tile t
  let frame := match base with
    | .next => some (d.ary.k + 1)
    | .cur => some d.ary.k
    | .trig => none
  let line := if base = .trig then some (d.ai ENG_TRIG_CFG_LINE e 0) else none
  if 8 ≤ (x.events.filter fun v => !v.finished).length ∨ x.holds sub frame line then shutReject e d
  else
    let v : ShutEv :=
      { sub, frame, line, align := ctxAlign c, offset := ctxOffset c, slot := d.slotTick sub,
        dur := ctxDur c sub, gain := ctxG c sub, cg := (ctxCg c).testBit sub, hold,
        clamped := ctxDurRaw c sub < 300 }
    let d := durClamp v d
    match frame with
    | none => addEvent t v d
    | some k =>
      match d.predStart k sub with
      | some b => placeEvent t k b now v d
      | none => addEvent t { v with placed := false } d

/-- The sub-exposures a SHUT arms (R176, R190). -/
def shutSubs (c : List Word) (base : EBase) (sub m : Nat) : List Nat :=
  (List.range 4).filter fun i =>
    (ctxSub c).testBit i && decide (i < m) && (sub = 4 || sub = i) && (base != .trig || i = 0)

/-- SHUT, for the tile whose context is in C. (DEDUCED, log entry 55.) -/
def engShut (e : Nat) (base : EBase) (sub : Nat) (hold : Bool) (now : Nat) (d : Dev) : Dev :=
  let g := d.engine e
  if base = .trig ∧ sub ≠ 0 ∧ sub ≠ 4 then shutReject e d
  else if ctxRstHold g.c then d
  else (shutSubs g.c base sub d.mTick).foldl (fun d i => armOne (tileNo e g.cTy) g.c base hold now i d) d

/-- ENG_SHUT. -/
def execEngShut (e : Fin 96) (ph : Fin 3) (base : EBase) (sub : Fin 5) (hold : Bool) (dly : Fin 32)
    (s : State) : Out :=
  onDev (fun d => if d.engReady e (.shut base sub hold) dly then
      (engShut e base sub hold (d.cyc + ph) d).engDone e dly else d) s

/-- Events of a tile that waited for their start tick to be known are placed once it is requested, decided or
come (R176). (DEDUCED, log entry 55.) -/
def placeWaiting (t k now : Nat) (d : Dev) : Dev :=
  let x := d.tile t
  let ws := x.events.filter fun v => !v.placed && v.frame = some k
  let d := d.setTile t { x with events := x.events.filter fun v => v.placed || v.frame != some k }
  ws.foldl (fun d v => match d.predStart k v.sub with
    | some b => placeEvent t k b now v d
    | none => addEvent t v d) d

/-- The same for every tile. -/
def placeAll (k now : Nat) (d : Dev) : Dev :=
  ((d.ary.tiles.filter fun p => p.2.events.any fun v => !v.placed && v.frame = some k).map (·.1)).foldl
    (fun d t => placeWaiting t k now d) d

/-! ## Cancelling (R115, R160) -/

/-- Remove events of a tile. -/
def dropEvents (t : Nat) (p : ShutEv → Bool) (d : Dev) : Dev :=
  let x := d.tile t
  d.setTile t { x with events := x.events.filter fun v => !p v }

/-- An exposure lost while shutter control is suspended: its frame carries PIXEL_RAIL. (DEDUCED, log entry 114.) -/
def loseEvent (t : Nat) (v : ShutEv) (d : Dev) : Dev :=
  let d := dropEvents t (fun w => w = v) d
  match v.frame with
  | some k => d.flagTick k ffPIXEL_RAIL
  | none => d

/-- At a stop tick every event whose TX has not fallen is cancelled. -/
def cancelTile (t : Nat) (d : Dev) : Dev := dropEvents t (fun v => !v.finished) d

/-! ## RST falls (R128, R178) -/

/-- Replace an event of a tile. -/
def replaceEvent (t : Nat) (v w : ShutEv) (d : Dev) : Dev :=
  let x := d.tile t
  d.setTile t { x with events := x.events.map fun u => if u = v then w else u }

def ShutEv.live (v : ShutEv) : Bool :=
  match v.st with
  | .running _ => true
  | .held _ => true
  | _ => false

/-- The event of a sub-exposure whose RST is next to fall: of those placed, the one of the earliest frame. -/
def TileSt.nextArmed (x : TileSt) (sub : Nat) : Option ShutEv :=
  (x.events.filter fun v => v.sub = sub && v.st = .armed && v.placed && v.frame.isSome).foldl (fun m v =>
    match m with
    | some u => if v.frame.getD 0 < u.frame.getD 0 then some v else m
    | none => some v) none

/-- RST falls, at the earliest 150 cycles after the previous TX fall; a later fall is counted (R103). While another exposure of the
tile runs the event waits. -/
def rstFall (t sub now : Nat) (d : Dev) : Dev :=
  let x := d.tile t
  match x.nextArmed sub with
  | none => d
  | some v =>
    if d.pwr.suspended then loseEvent t v d
    else if x.events.any ShutEv.live then d
    else
      let rst := match x.lastTx with | some l => max now (l + 150) | none => now
      let d := if now < rst then d.bump ARY_PULSE_SHORT else d
      let d := replaceEvent t v { v with st := .running rst } d
      d.setTile t { d.tile t with cgs := v.cg }

/-- SHUTTER_RST_FALL. -/
def execShutterRstFall (t : Fin 6144) (sub : Fin 4) (ph : Fin 3) (s : State) : Out :=
  onDev (fun d => rstFall t sub (d.cyc + ph) d) s

/-! ## TX falls (R103, R105, R128, R129) -/

/-- Is a strobe of a bank one of an active row of the tile? -/
def Strobe.ofTile (s : Strobe) (bank t : Nat) : Bool := 24 ≤ s.row && tileOfRow s.stripe bank s.row = t

/-- Mark the row of a tile that is being converted: the last one strobed. -/
def markRow (t : Nat) : List StrobeRow → List StrobeRow
  | [] => []
  | w :: l =>
    if l.any fun v => v.segs.any fun s => s.ofTile v.bank t then w :: markRow t l
    else { w with segs := w.segs.map fun s => if s.ofTile w.bank t then { s with ovw := true } else s } :: l

/-- The same for a row whose conversion has ended since: the last one of the tile in a skid buffer. -/
def markSkid (t : Nat) : List SkidRow → List SkidRow
  | [] => []
  | w :: l =>
    let mine (s : Seg) : Bool := s.hd.ofTile s.bank t
    if l.any fun v => v.segs.any mine then w :: markSkid t l
    else { w with segs := w.segs.map fun s => if mine s then { s with hd := { s.hd with ovw := true } } else s } :: l

/-- Mark the row of a tile that is or was last under conversion. -/
def markConverted (t : Nat) (a : ArySt) : ArySt :=
  if a.waiting.any fun w => w.segs.any fun s => s.ofTile w.bank t then { a with waiting := markRow t a.waiting }
  else { a with skidT := markSkid t a.skidT, skidB := markSkid t a.skidB }

/-- A TX on a tile with unread rows (R105): they are marked, and the one under conversion as the pulse rises is.
(DEDUCED, log entry 56.) -/
def txOverwrite (t fall : Nat) (d : Dev) : Dev :=
  let x := d.tile t
  let d := d.setTile t { x with ovw := x.ovw ||| x.unread }
  let d := if x.convAt != 0 && decide (fall < x.convAt + 60) then d.onAry (markConverted t) else d
  let d := (d.bump ARY_TX_OVERWRITE).raise ARY_IRQ_RAW_TX_OVERWRITE
  d.onceTick d.ary.k 0x040 .ary (u16 t)

/-- The cycle at which an exposure that runs or is held began. -/
def ShutEv.beganAt (v : ShutEv) : Nat := match v.st with | .running r => r | .held r => r | _ => 0

/-- Must the TX be held, and does it meet unread rows where it is not: does a row of the tile await read as the pulse
rises, 60 cycles before its fall (R103, R105, R129)? -/
def Dev.txBlocked (d : Dev) (t now : Nat) : Bool :=
  let x := d.tile t
  d.readMask t && (x.unread != 0 || (x.convAt != 0 && decide (now < x.convAt + 60)))

/-- The exposure ends: the tile's rows await read with it. A strip event re-arms itself (R223). -/
def endExposure (t fall : Nat) (v : ShutEv) (dAct : Option Nat) (d : Dev) : Dev :=
  let d := if d.txBlocked t fall then txOverwrite t fall d else d
  let d := replaceEvent t v { v with st := .done } d
  let x := d.tile t
  let d := d.setTile t { x with unread := d.rowsToRead t, lastTx := some fall, dAct, strip := v.strip,
                                trt := v.trt, began := v.beganAt }
  if d.sched = schedSTRIP ∧ v.line.isSome ∧ v.lapsed = false then
    addEvent t { v with st := .armed, frame := none, startAt := none, strip := 0, trt := 0 } d
  else d

/-- An exposure must be held: its status (R129). -/
def txHeld (t : Nat) (v : ShutEv) (d : Dev) : Dev :=
  let d := (d.bump EXP_TX_HELD).raise EXP_IRQ_RAW_TX_HELD
  match v.frame with
  | some k => (d.flagTick k ffEXP_STRETCHED).onceTick k 0x045 .exp (u16 t)
  | none => d

/-- The event of a sub-exposure whose exposure runs. -/
def TileSt.runningEv (x : TileSt) (sub : Nat) : Option (ShutEv × Nat) :=
  x.events.findSome? fun v =>
    match v.st with
    | .running r => if v.sub = sub then some (v, r) else none
    | _ => none

/-- The cycle at which an exposure begun at `rst` ends: one below 300 cycles is carried out at 300 and counted (R103). -/
def txEnd (rst now : Nat) (d : Dev) : Nat × Dev :=
  let fall := max now (rst + 300)
  (fall, if now < fall then d.bump ARY_PULSE_SHORT else d)

/-- TX falls, or is held. (DEDUCED, log entry 56.) -/
def txFall (t sub now : Nat) (d : Dev) : Dev :=
  match (d.tile t).runningEv sub with
  | none => d
  | some (v, rst) =>
    if d.pwr.suspended then loseEvent t v d
    else if v.hold ∧ d.txBlocked t now then
      txHeld t v (replaceEvent t v { v with st := .held rst } d)
    else
      let (fall, d) := txEnd rst now d
      endExposure t fall v none d

/-- SHUTTER_TX_FALL. -/
def execShutterTxFall (t : Fin 6144) (sub : Fin 4) (ph : Fin 3) (s : State) : Out :=
  onDev (fun d => txFall t sub (d.cyc + ph) d) s

/-- A held TX falls, 60 cycles after the tile's last row has been converted; the actual duration is kept (R130).
(DEDUCED, log entry 56.) -/
def txRelease (t now : Nat) (d : Dev) : Dev :=
  match (d.tile t).events.findSome? fun v => match v.st with | .held r => some (v, r) | _ => none with
  | none => d
  | some (v, rst) =>
    if d.pwr.suspended then loseEvent t v d
    else if d.txBlocked t now then d
    else
      let (fall, d) := txEnd rst now d
      endExposure t fall v (some (fall - rst)) d

/-- TX_HOLD_RELEASE. -/
def execTxHoldRelease (t : Fin 6144) (ph : Fin 3) (s : State) : Out :=
  onDev (fun d => txRelease t (d.cyc + ph) d) s

/-! ## Trigger edges (R190, R223) -/

/-- Tiles that hold events, by number. -/
def Dev.eventTiles (d : Dev) : List Nat := (d.ary.tiles.filter fun p => !p.2.events.isEmpty).map (·.1)

def ShutEv.waitsFor (v : ShutEv) (line : Nat) : Bool :=
  v.line = some line && v.frame = none && v.st = .armed

/-- Has an edge begun this exposure, and has its TX not fallen? -/
def ShutEv.begun (v : ShutEv) : Bool := v.line.isSome && v.frame.isSome && !v.finished

/-- Has the previous strip of a tile not had its first row strobed: is it exposing, or wholly unread (R223)?
(DEDUCED, log entry 63.) -/
def Dev.stripUnread (d : Dev) (t : Nat) : Bool :=
  d.sched = schedSTRIP && d.rowsToRead t != 0 &&
    ((d.tile t).unread = d.rowsToRead t || (d.tile t).events.any ShutEv.begun)

/-- The frame an edge's exposures belong to: the one its start tick begins or, for a strip, the one being read. An edge
that requests no start tick gives the next frame too. (DESIGN CHOICE, log entry 116.) -/
def Dev.edgeFrame (d : Dev) : Nat := if d.sched = schedSTRIP then d.ary.k else d.ary.k + 1

/-- The events of a tile that an edge starts. -/
def startTile (line trt t : Nat) (d : Dev) : Dev :=
  let x := d.tile t
  let go (v : ShutEv) : ShutEv :=
    if v.waitsFor line then
      { v with frame := some d.edgeFrame, strip := d.ary.stripsBegun, trt := d.time.tick,
               startAt := some (trt + 12 + if v.align = 2 then v.offset else 0) }
    else v
  let cl := x.events.any fun v => v.waitsFor line && v.clamped
  let d := d.setTile t { x with events := x.events.map go }
  if cl then d.flagTick d.edgeFrame ffEXP_CLAMPED else d

/-- An edge at the shutter units: the tiles that start, and those that a strip edge skips. -/
def Dev.edgeTiles (d : Dev) (line : Nat) : List Nat × List Nat :=
  let w := d.eventTiles.filter fun t => (d.tile t).events.any fun v => v.line = some line
  (w.filter fun t => !d.stripUnread t && (d.tile t).events.any fun v => v.waitsFor line, w.filter d.stripUnread)

/-! ## Pixel rails (R115) -/

/-- Pixel rails leave regulation. (DEDUCED, log entry 114.) -/
def pumpFault (boost tgl : Bool) (d : Dev) : Dev :=
  let d := { d with pwr := { d.pwr with boostOut := d.pwr.boostOut || boost, tglOut := d.pwr.tglOut || tgl,
                                        suspended := true } }
  ((d.raise ARY_IRQ_RAW_PUMP_FAULT).bump ARY_PUMP_DROP).emit 0x042 .ary

/-- PUMP_RAIL_FAULT, with the rails that left regulation: one that is out already does not leave it again. -/
def execPumpRailFault (boost tgl : Bool) (s : State) : Out :=
  onDev (fun d => if (boost && !d.pwr.boostOut || tgl && !d.pwr.tglOut) && d.aon.level = 2 then pumpFault boost tgl d
    else d) s

/-- PUMP_RAIL_RECOVER: both rails are in regulation. (DEDUCED, log entry 114.) -/
def execPumpRailRecover (s : State) : Out :=
  onDev (fun d => if d.aon.level = 2 then { d with pwr := { d.pwr with boostOut := false, tglOut := false } } else d) s

/-- SHUTTER_RESUME: at a start tick, 100 µs after both rails came back. (DEDUCED, log entry 114.) -/
def execShutterResume (s : State) : Out :=
  onDev (fun d => if d.pwr.boostOut || d.pwr.tglOut then d else { d with pwr := { d.pwr with suspended := false } }) s

end Sys2Proof.Machine
end

