-- ==== Sys2Proof/Machine/RowClock.lean ====
section
/-! DEFINITION. The row clock, row strobes, the ADC front end and the skid buffer (R43, R112 to R124,
R163 to R165, R184, R185, R207, R221, R225). -/
namespace Sys2Proof.Machine

/-! ## Extension of the row time (R36, R43) -/

/-- The lowest capacity the rate monitors of the pipeline stages last measured, in Mpx/s. (DEDUCED, log entry 58.) -/
def Dev.minCap (d : Dev) : Nat :=
  min (d.f ING_CAP_MPXS) (min (d.f NRD_CAP_MPXS) (min (d.f PXC_CAP_MPXS)
    (min (d.f HDR_CAP_MPXS) (d.f GEO_CAP_MPXS))))

/-- The smallest extension at which `px` pixels per row fit a capacity in Mpx/s. (DEDUCED, log entry 58.) -/
def extFor (px cap trow : Nat) : Nat := (px * 750 + cap - 1) / cap - trow

/-- E_p: the larger of T_row and the smallest extension that fits the capacity measured; with none
measured, T_row. (DEDUCED, log entry 58.) -/
def Dev.pressureExt (d : Dev) : Nat :=
  if d.ary.pressure then
    if d.minCap = 0 then d.tRow else max d.tRow (extFor (d.a ARY_DEMAND_PX_ROW) d.minCap d.tRow)
  else 0

/-- The extension in force from this boundary on. (DEDUCED, log entry 58.) -/
def setRowExt (d : Dev) : Dev := d.setF THM_ROW_EXT_E (min 65535 (max d.thm.extThr d.pressureExt))

/-! ## Strobes (R111 to R113, R165, R185) -/

/-- A chain byte as it reaches the drivers, and whether it held a reserved code or bit. -/
def chainByte (b : Nat) : Nat × Bool := if b / 32 ≠ 0 ∨ 13 ≤ b % 16 then (0, true) else (b, false)

/-- A chain word as it reaches the drivers, and how many of its bytes were wrong. -/
def chainWord (w : Word) : Word × Nat :=
  let bs := (List.range 4).map fun i => chainByte (bitsOf w (8 * i + 7) (8 * i))
  (BitVec.ofNat 32 (natOfBytes (bs.map fun b => BitVec.ofNat 8 b.1)), bs.countP (·.2))

/-- The holding latch of a port moves to the drivers. -/
def toDrivers (e : Nat) (bot : Bool) (d : Dev) : Dev :=
  let g := d.engine e
  let c := g.chain bot
  match c.hold with
  | none => d
  | some ws =>
    let rs := ws.map chainWord
    let n := rs.foldl (fun n r => n + r.2) 0
    let d := d.setEngine e (g.setChain bot { c with hold := none, drv := rs.map (·.1) })
    if n = 0 then d
    else ((d.addI ENG_CHAIN_ERR e 0 n).raiseI ENG_IRQ_RAW_CHAIN_ERR e).onceTick d.ary.k 0x049 (engPage e)

/-- The minimum row time of a port (R113): the cycle at which the strobe is carried out. -/
def rowEarly (e : Nat) (bot : Bool) (now : Nat) (d : Dev) : Nat × Dev :=
  let g := d.engine e
  let last := if bot then g.lastB else g.lastT
  let t := match last with | some l => max now (l + d.tRow) | none => now
  let d := if now < t then d.bump ARY_ROW_EARLY else d
  (t, d.setEngine e (if bot then { g with lastB := some t } else { g with lastT := some t }))

/-- The pixel bucket takes a strobe of one stripe (R207). The pixels of a row count over its row period,
as R208 counts them. (DEDUCED, log entry 54.) -/
def bucketAdd (now : Nat) (d : Dev) : Dev :=
  let cap := (196608 + d.a ARY_DEMAND_PX_ROW) * d.tRow
  let lvl := d.ary.bucket - (now - d.ary.bucketAt) * d.a ARY_DEMAND_PX_ROW + 128 * d.tRow
  let d := d.onAry fun a => { a with bucket := min cap lvl, bucketAt := now }
  if cap < lvl then
    ((d.bump ARY_DEMAND_OVER).raise ARY_IRQ_RAW_DEMAND_OVER).onceTick d.ary.k 0x044 .ary
  else d

/-- Key of the dark-row table. -/
def darkKey (pass bank stripe : Nat) : Nat := (pass * 2 + bank) * 96 + stripe
def noDark : Nat → Nat × Bool := fun _ => (0, false)
def Dev.darkAt (d : Dev) (k : Nat) : Nat × Bool := SMap.get noDark d.ary.dark k
def Dev.setDark (d : Dev) (k : Nat) (v : Nat × Bool) : Dev :=
  d.onAry fun a => { a with dark := SMap.set noDark a.dark k v }

/-- A row of a tile is strobed: it no longer awaits read once converted. (DEDUCED, log entry 56.) -/
def tileRead (t y now : Nat) (d : Dev) : Dev :=
  let x := d.tile t
  let off (n : Nat) : Nat := if n.testBit (y % 128) then n - 2 ^ (y % 128) else n
  d.setTile t { x with unread := off x.unread, ovw := off x.ovw, convAt := now + d.tRow }

/-- The exposure of a tile in a pass of the frame being read, with the sub-exposures it takes; where the
tile takes none, as its context has it. (DEDUCED, log entry 56.) -/
def strobeExp (t pass : Nat) (d : Dev) (s : Strobe) : Strobe :=
  let x := d.tile t
  let mine := x.events.filter fun e => e.frame = some d.ary.k
  let subs := mine.foldl (fun n e => orBit n e.sub) 0
  let s := { s with dAct := x.dAct, subs }
  match (mine.find? fun e => e.sub = pass && e.strip = x.strip) <|> x.eventOf pass d.ary.k with
  | some e => { s with dur := e.dur, cg := e.cg, gain := e.gain }
  | none =>
    let c := match d.ary.cur with | some u => (d.frame u).ctxWords t | none => d.ctxWords d.ary.ctxBank t
    { s with dur := ctxDur c pass, cg := (ctxCg c).testBit pass, gain := ctxG c pass }

/-- A strobe of one port: what the selected row carries, if a row is selected. -/
def strobePort (e bank now : Nat) (d : Dev) : Option Strobe × Dev :=
  let bot := bank = 1
  let (now, d) := rowEarly e bot now d
  let d := toDrivers e bot d
  let g := d.engine e
  let r := if bot then g.rb else g.rt
  let s : Strobe := { stripe := e, row := r, pass := g.p, tag := g.tag, drv := (g.chain bot).drv }
  let key := darkKey g.p bank e
  if r = 0x1FFF then (none, d)
  else if 4120 ≤ r then
    (none, ((d.bump ARY_ROW_ADDR_ERR).raise ARY_IRQ_RAW_ROW_ADDR_ERR).onceTick d.ary.k 0x041 .ary)
  else if r < 24 then
    let (m, a) := d.darkAt key
    (some (strobeExp (tileOfRow e bank r) g.p d s), bucketAdd now (d.setDark key (orBit m r, a)))
  else
    let t := tileOfRow e bank r
    let x := d.tile t
    let y := rowY bank r
    if (x.eventOf g.p d.ary.k).isNone ∨ (d.sched = schedSTRIP ∧ ¬ x.unread.testBit (y % 128)) then (none, d)
    else
      (some { strobeExp t g.p d s with ovw := x.ovw.testBit (y % 128), strip := x.strip, trt := x.trt, began := x.began },
        bucketAdd now (tileRead t y now (d.setDark key ((d.darkAt key).1, true))))

/-- The strobes of one bank by the engines of a list. -/
def strobeBank (es : List Nat) (bank now : Nat) (d : Dev) : List Strobe × Dev :=
  es.foldl (fun (acc : List Strobe × Dev) e =>
    match (acc.2.engine e).stall with
    | .strobe t b _ _ =>
      if (if bank = 0 then t else b) then
        match strobePort e bank now acc.2 with
        | (some s, d) => (acc.1 ++ [s], d)
        | (none, d) => (acc.1, d)
      else acc
    | _ => acc) ([], d)

/-- After a strobe both increments apply, whichever ports it named, and the engine goes on (R164, R168). -/
def strobeDone (e : Nat) (d : Dev) : Dev :=
  let g := d.engine e
  match g.stall with
  | .strobe _ _ it ib =>
    let g := (g.setReg 3 (unsigned 13 ((g.rt : Int) + it))).setReg 4 (unsigned 13 ((g.rb : Int) + ib))
    (d.setEngine e g).engDone e (d.engDelay e)
  | _ => d

/-- The named engines strobe at a boundary of frame `u`. -/
def strobeAll (u : Nat) (es : List Nat) (now : Nat) (d : Dev) : Dev :=
  let (top, d) := strobeBank es 0 now d
  let (bot, d) := strobeBank es 1 now d
  let add (bank : Nat) (ss : List Strobe) (a : ArySt) : ArySt :=
    if ss.isEmpty then a else { a with waiting := a.waiting ++ [{ frame := u, bank, segs := ss }] }
  let d := d.onAry fun a => add 1 bot (add 0 top a)
  es.foldl (fun d e => strobeDone e d) d

/-! ## Dark rows (R124) -/

/-- Dark rows of a bank: the least count over every pass and stripe counted; 24 with none. -/
def Dev.darkLeast (d : Dev) (bank : Nat) : Nat :=
  d.ary.dark.foldl (fun n p =>
    if p.1 / 96 % 2 = bank ∧ p.2.2 then min n ((List.range 24).countP fun r => p.2.1.testBit r) else n) 24

/-- The frame's last row has been strobed. -/
def frameRead (u : Nat) (d : Dev) : Dev :=
  let t := d.darkLeast 0
  let b := d.darkLeast 1
  let d := (d.setF ARY_DARK_STAT_TOP t).setF ARY_DARK_STAT_BOT b
  let d := if t < 24 ∨ b < 24 then (d.flagFrame u ffDARK_SHORT).raise ARY_IRQ_RAW_DARK_SHORT else d
  let d := d.mapFrame u fun f => { f with reading := false }
  let d := d.onAry fun a => { a with complete := true, lastRead := some (d.frame u).k }
  if d.sched = schedSTRIP then placeAll (d.ary.k + 1) d.cyc d else d

/-! ## Boundaries (R163, R221) -/

/-- Engines that wait in STB for pass `p`. (DEDUCED, log entry 53.) -/
def Dev.strobing (d : Dev) (p : Nat) : List Nat :=
  (List.range 96).filter fun e => (d.engine e).state = engSTROBE && (d.engine e).p = p

/-- Rows of a pass that fall on the row clock: N, or the dark rows of a strip frame. -/
def Dev.clockedRows (d : Dev) (u : Nat) : Nat :=
  if (d.frame u).sched = schedSTRIP then 24 else (d.frame u).rows

/-- A frame any row of which is read under ingest pressure (R43). (DEDUCED, log entry 70.) -/
def markPressure (u : Nat) (d : Dev) : Dev := if d.ary.pressure then d.flagFrame u ffRATE_LIMITED else d

/-- The next boundary of the frame falls. -/
def clockBoundary (u pass offered now : Nat) (d : Dev) : Dev :=
  let d := setRowExt (markPressure u d)
  let per := rowCycles (d.frame u).tenBit + d.rowExt
  let d := d.onAry fun a => { a with pass, offered, lastB := now, rowPer := per }
  let d := strobeAll u (d.strobing pass) now d
  if (d.frame u).sched ≠ schedSTRIP ∧ (d.frame u).m ≤ pass + 1 ∧ d.clockedRows u ≤ offered then frameRead u d
  else d

/-- Strips begun whose rows are not all strobed. -/
def Dev.stripsOut (d : Dev) : List Nat :=
  d.ary.tiles.flatMap fun p =>
    (if p.2.unread = 0 then [] else [p.2.strip]) ++
      if d.rowsToRead p.1 = 0 then [] else (p.2.events.filter ShutEv.begun).map (·.strip)

/-- How many strips have been read (R225). -/
def stripsRead (d : Dev) : Nat := d.stripsOut.foldl min d.ary.stripsBegun

/-- Cycle from which the tile of a row may be strobed: two cycles after its latest TX fall; none
while an exposure runs and the row of the one before has been strobed. (DEDUCED, log entry 63.) -/
def Dev.stripFrom (d : Dev) (e bank : Nat) : Option Nat :=
  let g := d.engine e
  let r := if bank = 0 then g.rt else g.rb
  let last := if bank = 0 then g.lastT else g.lastB
  let port := match last with | some l => l + d.curPer | none => 0
  if r < 24 ∨ 4120 ≤ r then some (max port g.strobeFrom)
  else
    let x := d.tile (tileOfRow e bank r)
    if x.events.any ShutEv.live ∧ ¬ x.unread.testBit (rowY bank r % 128) then none
    else some (max (max port g.strobeFrom) (match x.lastTx with | some l => l + 2 | none => 0))

/-- Is an on-demand boundary of the engine due (R221)? (DEDUCED, log entry 63.) -/
def Dev.stripDue (d : Dev) (e now : Nat) : Bool :=
  let ok (named : Bool) (bank : Nat) : Bool :=
    !named || (match d.stripFrom e bank with | some c => decide (c ≤ now) | none => false)
  match (d.engine e).stall with
  | .strobe t b _ _ => ok t 0 && ok b 1
  | _ => false

/-- On-demand boundaries of a strip frame. (DEDUCED, log entry 63.) -/
def stripBoundary (u now : Nat) (d : Dev) : Dev :=
  let es := (d.strobing 0).filter fun e => d.stripDue e now
  let d := if es.isEmpty then d
    else
      let d := setRowExt (markPressure u d)
      let per := rowCycles (d.frame u).tenBit + d.rowExt
      strobeAll u es now (d.onAry fun a => { a with lastB := now, rowPer := per })
  let n := stripsRead d
  let d := d.onAry fun a => { a with stripsRead := n }
  if d.a TRG_STRIP_CFG_COUNT ≤ n then frameRead u d else d

/-- The row clock offers its next boundary. (DEDUCED, log entry 53.) -/
def rowBoundary (now : Nat) (d : Dev) : Dev :=
  match d.ary.cur with
  | none => d
  | some u =>
    let a := d.ary
    if a.complete then d
    else if a.offered < d.clockedRows u then clockBoundary u a.pass (a.offered + 1) now d
    else if (d.frame u).sched = schedSTRIP then stripBoundary u now d
    else if a.pass + 1 < (d.frame u).m then
      let d := d.onAry fun a => { a with passB := a.passB ++ [a.lastB + a.rowPer] }
      clockBoundary u (a.pass + 1) 1 now d
    else d

/-- In the frame of the first start tick the row clock runs with the same timing and offers no boundary to any engine
(R163); its boundaries fall with the timebase. (DEDUCED, log entry 53.) -/
def armClock (d : Dev) : Dev :=
  let b := d.nextBoundary
  if d.ary.armOnly = false ∨ d.ary.complete ∨ d.cyc < b then d
  else if d.ary.offered < d.curRows then
    let d := setRowExt d
    let last := d.curM ≤ d.ary.pass + 1 ∧ d.curRows ≤ d.ary.offered + 1
    d.onAry fun a => { a with offered := a.offered + 1, lastB := b, rowPer := d.curPer, complete := last }
  else d.onAry fun a => { a with passB := a.passB ++ [b], pass := a.pass + 1, offered := 0 }

/-- ROW_BOUNDARY. -/
def execRowBoundary (ph : Fin 3) (s : State) : Out := onDev (fun d => rowBoundary (d.cyc + ph) d) s

/-- STRIP_FRAME_TIMEOUT: the strip frame ends once no strip is exposing or unread (R225). (DEDUCED, log entry 63.) -/
def stripTimeout (d : Dev) : Dev :=
  match d.ary.cur with
  | some u =>
    if (d.frame u).sched = schedSTRIP ∧ d.ary.complete = false ∧ d.stripsOut = [] then frameRead u d else d
  | none => d

def execStripFrameTimeout (s : State) : Out := onDev stripTimeout s

/-! ## The front end (R117 to R120) -/

def noOfs : Nat → Rat := fun _ => 0
/-- o_col of an ADC, in 1/16 LSB of 12-bit. -/
def Dev.colOfs (d : Dev) (a : Nat) : Rat := SMap.get noOfs d.ary.ofs a

/-- The nearest whole number; a half goes up. (DEDUCED, log entry 59.) -/
def roundRat (q : Rat) : Int := (q + 1 / 2).floor

/-- Is a column's ADC powered down by its chain byte (R183)? (DEDUCED, log entry 59.) -/
def adcOff (drv : List Word) (c : Nat) : Bool := bitsOf ((drv[c / 4]?).getD 0#32) (8 * (c % 4) + 4) (8 * (c % 4) + 4) = 1

/-- An ADC's column offset after a preamble with m (R119). (DEDUCED, log entry 59.) -/
def ofsUpdate (fresh : Bool) (k : Nat) (o m : Rat) : Rat := if fresh then m else o + (m - o) / (2 ^ k : Nat)

/-- The drivers of an ADC's column. -/
def Dev.adcDrv (d : Dev) (a : Nat) : List Word := ((d.engine (a % 12288 / 128)).chain (12288 ≤ a)).drv

/-- The preamble's offsets: for each ADC its 16 pair differences, whose sum is m in 1/16 LSB. -/
def preamble (ds : List (Fin 24576 × List Int)) (d : Dev) : Dev :=
  if d.inFrame = false then d
  else
    let k := d.a ARY_COL_OFS_CFG_K
    let d := ds.foldl (fun d p =>
      if adcOff (d.adcDrv p.1) (p.1 % 128) then d
      else
        let v := ofsUpdate d.ary.fresh k (d.colOfs p.1) (p.2.foldl (· + ·) 0 : Int)
        d.onAry fun a => { a with ofs := SMap.set noOfs a.ofs p.1 v }) d
    d.onAry fun a => { a with freshUsed := a.fresh }

/-- PREAMBLE_DONE. -/
def execPreambleDone (ds : List (Fin 24576 × List Int)) (s : State) : Out := onDev (preamble ds) s

/-- The output code of a pixel (R117). (DEDUCED, log entry 70.) -/
def Dev.adcCode (d : Dev) (tenBit : Bool) (a : Nat) (off : Bool) (cr cs : Nat) : Nat :=
  let p := if tenBit then d.a ARY_ADC_CFG_PEDESTAL / 4 else d.a ARY_ADC_CFG_PEDESTAL
  let top : Int := if tenBit then 1023 else 4095
  if off then p
  else if d.a ARY_ADC_CFG_CDS_BYPASS = 1 then (clampInt 0 top cs).toNat
  else
    let o := if d.a ARY_ADC_CFG_COL_OFS_EN = 0 then 0
      else roundRat (d.colOfs a / (if tenBit then 64 else 16))
    (clampInt 0 top ((cr : Int) - cs - o + p)).toNat

/-- The codes of one stripe's row, from its conversion pairs (reset, signal). (DEDUCED, log entry 70.) -/
def Dev.segCodes (d : Dev) (bank : Nat) (tenBit : Bool) (s : Strobe) (cs : List (BitVec 12 × BitVec 12)) : List Nat :=
  (List.range 128).map fun c =>
    let v := (cs[c]?).getD (0, 0)
    d.adcCode tenBit (bank * 12288 + 128 * s.stripe + c) (adcOff s.drv c) v.1.toNat v.2.toNat

/-- Segments of a row in stripe order, each with its part of the conversions. -/
def Dev.rowSegs (d : Dev) (w : StrobeRow) : List Strobe → List (BitVec 12 × BitVec 12) → List Seg
  | [], _ => []
  | s :: t, cs =>
    { frame := w.frame, bank := w.bank, hd := s,
      codes := (d.asOf w.frame).segCodes w.bank (d.frame w.frame).tenBit s (cs.take 128) } :: d.rowSegs w t (cs.drop 128)

/-- Rows of the bank in the skid buffer. -/
def ArySt.skid (a : ArySt) (bank : Nat) : List SkidRow := if bank = 0 then a.skidT else a.skidB
def ArySt.setSkid (a : ArySt) (bank : Nat) (l : List SkidRow) : ArySt :=
  if bank = 0 then { a with skidT := l } else { a with skidB := l }

/-- Occupancy reaches 12 rows (R43). (DEDUCED, log entry 70.) -/
def skidPressure (u : Nat) (d : Dev) : Dev :=
  let d := d.onAry fun a => { a with pressure := true, heldAt := if a.pressure then a.heldAt else d.cyc }
  (markPressure u d).onceFrame u 0x060 .ing

/-- The result of the oldest row of a bank under conversion enters the skid buffer. (DEDUCED, log entry 70.) -/
def rowResult (bank : Nat) (cs : List (BitVec 12 × BitVec 12)) (d : Dev) : Dev :=
  match d.ary.waiting.find? fun w => w.bank = bank with
  | none => d
  | some w =>
    let r : SkidRow := { segs := d.rowSegs w w.segs cs }
    let l := d.ary.skid bank ++ [r]
    let d := d.onAry fun a => { (a.setSkid bank l) with waiting := a.waiting.erase w }
    let d := d.peakI ING_SKID_PEAK 0 0 l.length
    if l.length = 12 then skidPressure w.frame d else d

/-- ROW_RESULT. -/
def execRowResult (bank : Fin 2) (cs : List (BitVec 12 × BitVec 12)) (s : State) : Out :=
  onDev (rowResult bank cs) s

/-- OFS_VAL as it reads (R122). -/
def Dev.ofsVal (d : Dev) : Nat :=
  let a := d.f ARY_OFS_SEL_ADC
  if 24576 ≤ a then 0 else unsigned 16 (roundRat (d.colOfs a))

end Sys2Proof.Machine
end

