-- ==== Sys2Proof/Machine/Satellite.lean ====
section
/-! DEFINITION. The satellite ports: alignment, packets, frames, buffer, pause and credit (R256 to
R276, KL-08). A packet command takes the packet at the head of the port's stream, if that is of its
type. -/
namespace Sys2Proof.Machine

/-! ## Ports and virtual sensors -/

def spOFF : Nat := 0
def spDOWN : Nat := 1
def spALIGN : Nat := 2
def spUP : Nat := 3

def noSp : Nat → SpSt := fun _ => {}
def Dev.port (d : Dev) (p : Nat) : SpSt := SMap.get noSp d.sp p
def Dev.setPort (d : Dev) (p : Nat) (x : SpSt) : Dev := { d with sp := SMap.set noSp d.sp p x }
def Dev.mapPort (d : Dev) (p : Nat) (f : SpSt → SpSt) : Dev := d.setPort p (f (d.port p))

def noVs : Nat → VsSt := fun _ => {}
def Dev.vs (d : Dev) (p v : Nat) : VsSt := SMap.get noVs (d.port p).vs v
def Dev.setVs (d : Dev) (p v : Nat) (x : VsSt) : Dev :=
  d.mapPort p fun q => { q with vs := SMap.set noVs q.vs v x }
def Dev.mapVs (d : Dev) (p v : Nat) (f : VsSt → VsSt) : Dev := d.setVs p v (f (d.vs p v))

def spPage (p : Nat) : Page := .sp (Fin.ofNat 8 p)
def Dev.spState (d : Dev) (p : Nat) : Nat := d.fi SP_PORT_STAT_STATE p 0

/-- Member number of a virtual sensor (R29). -/
def spMember (p v : Nat) : Nat := 1 + 4 * p + v

/-! ## Packets (R260 to R262) -/

/-- A packet header, decoded. -/
structure SpHdr where
  typ : Nat
  vs : Nat
  line : Nat
  seg : Nat
  len : Nat
  fnum : Nat
  deriving DecidableEq, Repr

/-- Is LEN_W right for the type, of those a satellite sends? -/
def spLenOk (typ len : Nat) : Bool :=
  match typ with
  | 0 => len = 0 | 1 => len = 2 | 2 => decide (1 ≤ len) | 3 => len = 1 | 4 => len = 1 | 6 => len = 5
  | _ => false

/-- Decode the header at the head of a stream: none where it is not whole; `some none` where it fails. -/
def spHeader (bs : List Byte) : Option (Option SpHdr) :=
  if bs.length < 8 then none
  else
    let n := natOfBytes (bs.take 8)
    let h : SpHdr := { typ := n % 16, vs := n / 16 % 4, line := n / 2 ^ 16 % 65536, seg := n / 2 ^ 32 % 256,
                       len := n / 2 ^ 40 % 256, fnum := n / 2 ^ 48 % 256 }
    let crc := (crc8From 0#8 (bs.take 7)).toNat
    if crc = n / 2 ^ 56 ∧ n / 64 % 1024 = 0 ∧ spLenOk h.typ h.len ∧ (h.typ = 0 → n = 0) then some (some h)
    else some none

/-- The packet of a type at the head of a stream: header, payload and what follows. -/
def spPacket (typ : Nat) (bs : List Byte) : Option (SpHdr × List Byte × List Byte) :=
  match spHeader bs with
  | some (some h) =>
    if h.typ = typ ∧ 8 + 8 * h.len ≤ bs.length then
      some (h, (bs.drop 8).take (8 * h.len), bs.drop (8 + 8 * h.len))
    else none
  | _ => none

/-- Bytes of a packet the device sends. -/
def spSend (typ vs fnum : Nat) (payload : List Byte) : List Byte :=
  let h := u8 (typ + 16 * vs) ++ [0#8, 0#8, 0#8, 0#8] ++ u8 (payload.length / 8) ++ u8 fnum
  h ++ [crc8From 0#8 h] ++ payload

/-! ## Status of a frame (R270, R271) -/

def inTRUNC : Nat := 0
def inSHORT : Nat := 1
def inLONG : Nat := 2
def inCRC : Nat := 3
def inNOEND : Nat := 4
def inHDR : Nat := 5
def inCREDIT : Nat := 6

/-- Mark the open frame of a virtual sensor. -/
def spMark (p v bit : Nat) (d : Dev) : Dev :=
  match (d.vs p v).opened with
  | some u => if (d.vs p v).discard then d else d.mapFrame u fun f => { f with ingest := orBit f.ingest bit }
  | none => d

/-- Pixels of a line were filled or discarded: it does not count in LINES_VALID (R270). -/
def lineSpoilt (p v line : Nat) (d : Dev) : Dev :=
  let x := d.vs p v
  let d := match x.opened with
    | some u => if x.good.contains line then d.mapFrame u fun f => { f with linesValid := f.linesValid - 1 } else d
    | none => d
  d.mapVs p v fun x =>
    { x with good := x.good.filter (· != line), bad := if x.bad.contains line then x.bad else x.bad ++ [line] }

/-- Segments in a line of a frame. -/
def Frame.segs (f : Frame) : Nat := (f.w + 255) / 256
/-- Pixels of segment number `idx`. -/
def Frame.segPx (f : Frame) (idx : Nat) : Nat := min 256 (f.w - 256 * (idx % f.segs))

/-! ## Credit and pause (R272 to R274) -/

/-- LIMIT as it is sent. -/
def Dev.creditLimit (d : Dev) (p : Nat) : Nat :=
  if d.fi SP_PORT_CFG_CREDIT_EN p 0 = 1 then (d.port p).limit else 0xFFFFFFFF

/-- (DEDUCED, log entry 65.) -/
def Dev.pauseMask (d : Dev) (p : Nat) : Nat :=
  (List.range 4).foldl (fun n v => if (d.vs p v).paused.isSome then n + 2 ^ v else n) 0

/-- The pause state as the page reports it: 0 for a virtual sensor that is not paused. (DESIGN CHOICE, log entry 120.) -/
def pauseRegs (p : Nat) (d : Dev) : Dev :=
  let n := (List.range 4).foldl (fun n v => n + (((d.vs p v).paused).getD 0) * 256 ^ v) 0
  (d.setFi SP_PORT_STAT_PAUSED p 0 (d.pauseMask p)).setFi SP_PAUSE_FNUM p 0 n

/-- A CREDIT packet. (DESIGN CHOICE, log entry 120.) -/
def Dev.creditPacket (d : Dev) (p : Nat) : List Byte :=
  spSend 8 0 0 (u32 (d.creditLimit p) ++ u8 (d.pauseMask p) ++ [0#8, 0#8, 0#8] ++
    ((List.range 4).flatMap fun v => u8 (((d.vs p v).paused).getD 0)) ++ [0#8, 0#8, 0#8, 0#8])

/-- Packets leave on a port's control lane; FILL words complete their last block. -/
def spTransmit (p : Nat) (ps : List (List Byte)) (d : Dev) : Dev :=
  let n := ps.flatten.length
  txPackets (1 + p) (ps.flatten ++ List.replicate ((32 - n % 32) % 32) 0#8) (d.mapPort p fun q => { q with tx := ps })

/-- Send a CREDIT packet, after others of the same command. (DEDUCED, log entry 65.) -/
def sendCredit (p : Nat) (before : List (List Byte)) (d : Dev) : Dev :=
  let lim := d.creditLimit p
  let d := spTransmit p (before ++ [d.creditPacket p]) (d.mapPort p fun q => { q with limitSent := q.limit })
  d.setFi SP_CREDIT_STAT_LIMIT p 0 lim

/-- Bytes leave the buffer: LIMIT rises by 1 for each 256. -/
def spLeave (p n : Nat) (d : Dev) : Dev :=
  let q := d.port p
  let lvl := q.lvl - n
  let all := q.left + n
  let q := { q with lvl, left := all % 256, limit := (q.limit + all / 256) % 2 ^ 32 }
  let d := (d.setPort p q).setFi SP_BUF_STAT_LVL p 0 (lvl / 256)
  if d.fi SP_PORT_CFG_CREDIT_EN p 0 = 1 ∧ d.spState p = spUP ∧
      16 ≤ (q.limit + 2 ^ 32 - q.limitSent) % 2 ^ 32 then sendCredit p [] d
  else d

/-- Bytes enter the buffer. -/
def spEnter (p n : Nat) (d : Dev) : Dev :=
  let d := d.mapPort p fun q => { q with lvl := q.lvl + n }
  let l := (d.port p).lvl / 256
  (d.setFi SP_BUF_STAT_LVL p 0 l).peakI SP_BUF_PEAK p 0 l

/-- A packet has been received: its bytes count against the credit granted. Was it beyond the limit?
(DEDUCED, log entry 65.) -/
def spUse (p bytes : Nat) (d : Dev) : Dev × Bool :=
  let q := d.port p
  let s := q.received + bytes
  let d := d.setPort p { q with received := s }
  if d.fi SP_PORT_CFG_CREDIT_EN p 0 = 1 ∧ 2 ^ 31 ≤ (q.limit + 2 ^ 32 - (s + 255) / 256 % 2 ^ 32) % 2 ^ 32 then
    (d.bumpI SP_CREDIT_OVER p 0, true)
  else (d, false)

/-- A packet of a virtual sensor's frame has been received; beyond the limit it marks the frame. -/
def spCount (p v bytes : Nat) (d : Dev) : Dev :=
  let (d, beyond) := spUse p bytes d
  if beyond then spMark p v inCREDIT d else d

/-- SAT_CREDIT_TIMER (R274): at least every 100 µs. -/
def execSatCreditTimer (sp : Fin 8) (s : State) : Out :=
  onDev (fun d => if d.spState sp = spUP then sendCredit sp [] d else d) s

/-! ## Blocks that stop (R62) -/

/-- A block has stopped: ACTIVE falls. -/
def blockStopped (p : Page) (d : Dev) : Dev :=
  let d := d.setHf p HD_PAGE_STAT_ACTIVE 0
  let d := { d with com := { d.com with stopping := d.com.stopping.filter fun q => q != p } }
  if p = .nrd then { d with refs := [] } else d

/-- The end of a satellite's frame is a frame boundary for the blocks that frames pass through, while no frame of the
own array is being read. (DEDUCED, log entry 45.) -/
def satBoundary (d : Dev) : Dev :=
  if d.readingNow then d
  else (d.com.stopping.filter fun p => p.blk ≠ .sp && p.blk ≠ .ary && p.blk ≠ .exp).foldl (fun d p => blockStopped p d) d

/-! ## Leaving the buffer -/

/-- What is passed of a virtual sensor without a grant: starts, markers, and closes with nothing left
to fill. The arbiter stamps the generation (R34). (DEDUCED, log entries 65 and 66.) -/
def vsDrain : Nat → Nat → Nat → Dev → Dev
  | 0, _, _, d => d
  | n + 1, p, v, d =>
    let x := d.vs p v
    match x.q with
    | .start u b :: t =>
      let d := d.mapFrame u fun f => { f with gen := d.f SYS_GEN }
      vsDrain n p v (spLeave p b (d.setVs p v { x with q := t, leaving := some u, next := 0 }))
    | .mark b :: t => vsDrain n p v (spLeave p b (d.setVs p v { x with q := t }))
    | .close u b _ :: t =>
      if (d.frame u).h * (d.frame u).segs ≤ x.next then
        let d := d.mapFrame u fun f => { f with reading := false }
        vsDrain n p v (satBoundary ((spLeave p b (d.setVs p v { x with q := t, leaving := none })).bumpI SP_FRAMES p v))
      else d
    | _ => d

/-- Store an item of a virtual sensor. (DEDUCED, log entry 65.) -/
def spStore (p v bytes : Nat) (i : SpItem) (d : Dev) : Dev :=
  let d := spEnter p bytes (d.mapVs p v fun x => { x with q := x.q ++ [i] })
  vsDrain ((d.vs p v).q.length) p v d

/-! ## Closing a frame (R266, R267, R271) -/

/-- The line in progress ends: whole, or short. (DEDUCED, log entry 66.) -/
def lineClose (p v segs : Nat) (d : Dev) : Dev :=
  let x := d.vs p v
  if x.got < segs then spMark p v inSHORT d
  else match x.opened with
    | some u =>
      if x.bad.contains x.line then d
      else (d.mapFrame u fun f => { f with linesValid := f.linesValid + 1 }).mapVs p v fun x =>
        { x with good := x.good ++ [x.line] }
    | none => d

/-- The counters, interrupts and events of a closed frame; an event written once for each frame leads with FRAME
(R271, R586). -/
def spReport (p v u : Nat) (d : Dev) : Dev :=
  let f := d.frame u
  let pay := u64 f.fid ++ u8 (spMember p v) ++ u32 f.fid ++ u16 f.linesValid
  let one (bit code : Nat) (g : Dev → Dev) (d : Dev) : Dev :=
    if f.ingest.testBit bit then (g d).emit code (spPage p) pay else d
  let d := one inTRUNC 0x062 (fun d => (d.bumpI SP_TRUNC p v).raiseI SP_IRQ_RAW_TRUNC p) d
  let d := one inSHORT 0x063 (fun d => (d.bumpI SP_SHORT p v).raiseI SP_IRQ_RAW_SHORT p) d
  let d := one inLONG 0x064 (fun d => (d.bumpI SP_LONG p v).raiseI SP_IRQ_RAW_LONG p) d
  let d := one inCRC 0x065 (fun d => d.raiseI SP_IRQ_RAW_CRC_ERR p) d
  one inNOEND 0x066 id d

/-- The open frame closes, with the bytes its FRAME_END takes. (DEDUCED, log entry 66.) -/
def spClose (p v bytes : Nat) (noEnd : Bool) (d : Dev) : Dev :=
  let x := d.vs p v
  match x.opened with
  | none => d
  | some u =>
    if x.discard then pauseRegs p (d.setVs p v { x with opened := none, discard := false, paused := none })
    else
      let f := d.frame u
      let d := lineClose p v f.segs d
      let d := if x.total < f.h * f.segs then spMark p v inSHORT d else d
      let d := if noEnd then spMark p v inNOEND d else d
      let d := spReport p v u d
      spStore p v bytes (.close u bytes d.cyc) (d.mapVs p v fun x => { x with opened := none, trunc := false })

/-! ## FRAME_START (R266, R268, R269, R273) -/

/-- A frame opens, with the shape the port's active fields give. -/
def spOpen (p v fnum : Nat) (pay : List Byte) (d : Dev) : Dev :=
  let u := d.nextFrame
  let b := 10 + 2 * d.ai SP_VS_FMT_BITS p v
  let f : Frame :=
    { member := spMember p v, fid := natOfBytes (pay.take 4), stamp := d.stamp,
      w := d.ai SP_VS_GEO_WIDTH p v, h := d.ai SP_VS_GEO_HEIGHT p v, bits := b, cfa := d.ai SP_VS_FMT_CFA p v,
      pedestal := d.ai SP_VS_FILL_FILL p v, expUs := natOfBytes ((pay.drop 4).take 4),
      weight := d.ai SP_VS_FMT_WEIGHT p v, satTime := natOfBytes (pay.drop 8), gen := d.f SYS_GEN }
  let d := { d.setFrame u f with nextFrame := u + 1 }
  let x := d.vs p v
  let d := d.setVs p v
    { q := x.q, leaving := x.leaving, next := x.next, urgentUsed := x.urgentUsed,
      opened := some u, fnum, frameCrc := crc32From 0xFFFFFFFF#32 pay }
  spStore p v 24 (.start u 24) (pauseRegs p d)

/-- A FRAME_START packet. -/
def spStart (p : Nat) (h : SpHdr) (pay : List Byte) (d : Dev) : Dev :=
  let v := h.vs
  let d := spClose p v 0 true d
  if d.com.stopping.contains (spPage p) then (spUse p 24 d).1
  else if d.ai SP_VS_FMT_EN p v = 0 then (spUse p 24 (d.bumpI SP_ORPHAN p 0)).1
  else if (d.vs p v).paused = some h.fnum then
    let d := d.mapVs p v fun x => { x with opened := some 0, discard := true, fnum := h.fnum }
    let d := (spUse p 24 d).1
    ((d.bumpI SP_PAUSE_DROP p v).raiseI SP_IRQ_RAW_PAUSE_IGN p).emit 0x067 (spPage p)
  else spCount p v 24 (spOpen p v h.fnum pay d)

/-- Take the packet at the head of the port's stream, in UP, and act on it. -/
def spTake (p typ : Nat) (f : SpHdr → List Byte → Dev → Dev) (d : Dev) : Dev :=
  let q := d.port p
  if d.spState p ≠ spUP ∨ q.search then d
  else match spPacket typ q.strm with
    | some (h, pay, t) => f h pay (d.setPort p { q with strm := t })
    | none => d


/-! ## LINE (R264, R267, R272) -/

/-- Does a packet belong to the open frame? If not it is counted and discarded (R266). -/
def spOwn (p : Nat) (h : SpHdr) (f : Dev → Dev) (d : Dev) : Dev :=
  let x := d.vs p h.vs
  if x.opened.isSome ∧ x.fnum = h.fnum then f d else (spUse p (8 + 8 * h.len) (d.bumpI SP_ORPHAN p 0)).1

/-- Pixels of a payload, `b` bits each (R264). -/
def unpackPx (b n : Nat) (pay : List Byte) : List Nat :=
  let all := natOfBytes pay
  (List.range n).map fun k => all / 2 ^ (b * k) % 2 ^ b

def crcStart : Nat → BitVec 32 := fun _ => 0xFFFFFFFF#32

/-- The CRC register of its line takes a LINE payload (R265). -/
def lineCrcAdd (p : Nat) (h : SpHdr) (pay : List Byte) (d : Dev) : Dev :=
  d.mapVs p h.vs fun x =>
    { x with lineCrcs := SMap.set crcStart x.lineCrcs h.line (crc32From (SMap.get crcStart x.lineCrcs h.line) pay) }

/-- A LINE packet does not fit: the frame is truncated and its sensor paused. (DEDUCED, log entry 66.) -/
def spTruncate (p v : Nat) (d : Dev) : Dev :=
  let x := d.vs p v
  let n := (x.fnum + 1) % 256
  let d := spMark p v inTRUNC (d.setVs p v { x with trunc := true, paused := some n })
  let d := pauseRegs p d
  if d.ai SP_PORT_CFG_PAUSE_EN p 0 = 1 then
    spTransmit p [spSend 9 v n []] d
  else d

/-- A later line begins: the line in progress closes, and lines between are short. -/
def lineAdvance (p v segs line : Nat) (d : Dev) : Dev :=
  let x := d.vs p v
  if line = x.line then d
  else
    let d := lineClose p v segs d
    let d := if x.line + 1 < line then spMark p v inSHORT d else d
    d.mapVs p v fun x => { x with line, nextSeg := 0, got := 0 }

/-- An accepted segment is shaped and stored. -/
def spSegment (p u : Nat) (h : SpHdr) (pay : List Byte) (d : Dev) : Dev :=
  let v := h.vs
  let f := d.frame u
  let n := f.segPx h.seg
  let want := (n * f.bits + 63) / 64
  let keep := min h.len want
  let px := unpackPx f.bits (min n (keep * 64 / f.bits)) (pay.take (8 * keep))
  let d := lineAdvance p v f.segs h.line d
  if (d.vs p v).trunc then d
  else if 2093056 < (d.port p).lvl + 8 + 8 * keep then spTruncate p v d
  else
    let d := if want < h.len then spMark p v inLONG d else d
    let d := if h.len < want then spMark p v inSHORT d else d
    let d := d.mapVs p v fun x => { x with nextSeg := h.seg + 1, got := x.got + 1, total := x.total + 1 }
    let d := if h.len = want then d else lineSpoilt p v h.line d
    spStore p v (8 + 8 * keep) (.seg u (h.line * f.segs + h.seg) px (8 + 8 * keep) d.cyc) d

/-- A LINE packet of the open frame. -/
def spLine (p : Nat) (h : SpHdr) (pay : List Byte) (d : Dev) : Dev :=
  let v := h.vs
  let d := spCount p v (8 + 8 * h.len) (lineCrcAdd p h pay d)
  let x := d.vs p v
  match x.opened with
  | none => d
  | some u =>
    let f := d.frame u
    if x.discard then d
    else if f.h ≤ h.line then spMark p v inLONG d
    else if f.segs ≤ h.seg ∨ h.line < x.line ∨ (h.line = x.line ∧ h.seg < x.nextSeg) then
      spMark p v inLONG (lineSpoilt p v h.line d)
    else spSegment p u h pay d

/-- SAT_LINE. -/
def execSatLine (sp : Fin 8) (s : State) : Out :=
  onDev (spTake sp 2 fun h pay => spOwn sp h (spLine sp h pay)) s

/-! ## LINE_END and FRAME_END (R263, R265, R267) -/

/-- A LINE_END packet of the open frame. -/
def spLineEnd (p : Nat) (h : SpHdr) (pay : List Byte) (d : Dev) : Dev :=
  let v := h.vs
  let x := d.vs p v
  let crc := SMap.get crcStart x.lineCrcs h.line ^^^ 0xFFFFFFFF#32
  let d := spCount p v 16 d
  let d := d.mapVs p v fun x => { x with frameCrc := crc32From x.frameCrc pay }
  if x.discard then d
  else
    let d := if natOfBytes (pay.take 4) = crc.toNat then d
      else spMark p v inCRC (d.bumpSat SP_LINE_CRC_ERR p v)
    spStore p v 16 (.mark 16) d

/-- SAT_LINE_END. -/
def execSatLineEnd (sp : Fin 8) (s : State) : Out :=
  onDev (spTake sp 3 fun h pay => spOwn sp h (spLineEnd sp h pay)) s

/-- A FRAME_END packet of the open frame. -/
def spFrameEnd (p : Nat) (h : SpHdr) (pay : List Byte) (d : Dev) : Dev :=
  let v := h.vs
  let x := d.vs p v
  let d := spCount p v 16 d
  match x.opened with
  | none => d
  | some u =>
    if x.discard then spClose p v 0 false d
    else
      let crc := crc32From x.frameCrc (pay.take 4) ^^^ 0xFFFFFFFF#32
      let d := d.mapFrame u fun f => { f with linesSent := natOfBytes (pay.take 4) }
      let d := if natOfBytes (pay.drop 4) = crc.toNat then d
        else spMark p v inCRC (d.bumpSat SP_FRAME_CRC_ERR p v)
      spClose p v 16 false d


/-! ## HELLO, FILL and header errors (R261, R262, R276) -/

/-- A HELLO: header and payload are kept, and may be translated. (DEDUCED, log entry 67.) -/
def spHello (p : Nat) (hdr pay : List Byte) (d : Dev) : Dev :=
  let ws := wordsOf (hdr ++ pay)
  let d := (ws.zipIdx).foldl (fun d w => d.setFi SP_HELLO p w.2 w.1.toNat) d
  let d := d.setFi SP_HELLO_STAT_VALID p 0 1
  let d := (spUse p 48 d).1
  if d.fi SP_BASIC_PORT_AUTO p 0 = 1 ∧ d.hf (spPage p) HD_PAGE_CTRL_EXPERT = 0 then
    d.setHf (spPage p) HD_PAGE_STAT_XLATE_PEND 1
  else d

/-- SAT_HELLO. -/
def execSatHello (sp : Fin 8) (s : State) : Out :=
  onDev (fun d => spTake sp 6 (fun _ pay => spHello sp ((d.port sp).strm.take 8) pay) d) s

/-- SAT_FILL. -/
def execSatFill (sp : Fin 8) (s : State) : Out := onDev (spTake sp 0 fun _ _ d => d) s

/-- LEN_W of a word that passes HCRC with a TYPE that R262 defines; none where no whole word is there. -/
def spWord (bs : List Byte) : Option (Option Nat) :=
  if bs.length < 8 then none
  else
    let n := natOfBytes (bs.take 8)
    if (crc8From 0#8 (bs.take 7)).toNat = n / 2 ^ 56 ∧ [0, 1, 2, 3, 4, 6, 8, 9].contains (n % 16) then
      some (some (n / 2 ^ 40 % 256))
    else some none

/-- Is there a word at this place that resumes the packets, and does the header after its packet pass too (R261)?
(DEDUCED, log entry 65.) -/
def spResume (bs : List Byte) : Option Bool :=
  match spWord bs with
  | none => none
  | some none => some false
  | some (some len) =>
    match spWord (bs.drop (8 + 8 * len)) with
    | none => none
    | some r => some r.isSome

/-- Search 8-byte words for a place to resume: the stream from there, and whether it was found. -/
def spSearch : Nat → List Byte → List Byte × Bool
  | 0, bs => (bs, false)
  | n + 1, bs =>
    match spResume bs with
    | none => (bs, false)
    | some true => (bs, true)
    | some false => spSearch n (bs.drop 8)

/-- A header error, or the search after one going on. -/
def spHdrError (p : Nat) (d : Dev) : Dev :=
  let q := d.port p
  if d.spState p ≠ spUP then d
  else if q.search then
    let (bs, ok) := spSearch q.strm.length q.strm
    d.setPort p { q with strm := bs, search := !ok }
  else match spHeader q.strm with
    | some none =>
      let d := (d.bumpI SP_HDR_ERR p 0).raiseI SP_IRQ_RAW_HDR_ERR p
      let d := (List.range 4).foldl (fun d v => spMark p v inHDR d) d
      let (bs, ok) := spSearch q.strm.length (q.strm.drop 8)
      d.mapPort p fun q => { q with strm := bs, search := !ok }
    | _ => d

/-- SAT_HEADER_ERROR. -/
def execSatHeaderError (sp : Fin 8) (s : State) : Out := onDev (spHdrError sp) s

/-! ## Port states (R275) -/

def setSpState (p st : Nat) (d : Dev) : Dev := d.setFi SP_PORT_STAT_STATE p 0 st

/-- L0 and L1 of a port. -/
def spLane (p : Nat) (l1 : Bool) : Nat := 20 + 2 * p + b2n l1

/-- Both receive lanes report trained: the marker search begins. (DEDUCED, log entry 67.) -/
def spTrained (p : Nat) (d : Dev) : Dev :=
  if d.spState p = spDOWN ∧ d.laneTrained (spLane p false) ∧ d.laneTrained (spLane p true) then
    let d := d.mapPort p fun q =>
      { q with mk0 := none, mk1 := none, pairSeen := false, missed := (0, 0), strm := [], search := false }
    setSpState p spALIGN d
  else d

/-- A port leaves UP: frames close, pauses end; what is buffered drains. (DEDUCED, log entry 67.) -/
def spLeaveUp (p : Nat) (d : Dev) : Dev :=
  let d := (List.range 4).foldl (fun d v => spClose p v 0 true d) d
  let d := (List.range 4).foldl (fun d v => d.mapVs p v fun x => { x with paused := none }) d
  let d := pauseRegs p d
  d.mapPort p fun q => { q with strm := [], search := false }

/-- ALIGN or UP falls to DOWN. (DEDUCED, log entry 67.) -/
def spDown (p : Nat) (d : Dev) : Dev :=
  let d := if d.spState p = spUP then (spLeaveUp p d).raiseI SP_IRQ_RAW_PORT_DOWN p else d
  let d := (setSpState p spDOWN (d.bumpI SP_ALIGN_LOSS p 0)).emit 0x069 (spPage p)
  spTrained p d

/-- A lane of the port has left the trained state: a port that is UP goes down. In ALIGN the port waits for its
markers, or for its timeout (R275). -/
def spLaneLoss (p : Nat) (d : Dev) : Dev := if d.spState p = spUP then spDown p d else d

/-- SP_ALIGN_TIMEOUT. -/
def execSpAlignTimeout (sp : Fin 8) (s : State) : Out :=
  onDev (fun d => if d.spState sp = spALIGN then spDown sp (groupRetrain (1 + sp) 0 d) else d) s

/-- EN is set: DOWN, and a request for training. (DEDUCED, log entry 67.) -/
def spEnable (p : Nat) (d : Dev) : Dev :=
  if d.spState p = spOFF then spTrained p (groupRequest (1 + p) (setSpState p spDOWN d)) else d

/-- EN was cleared, at the frame boundary. -/
def spDisable (p : Nat) (d : Dev) : Dev :=
  let d := if d.spState p = spUP then (spLeaveUp p d).emit 0x069 (spPage p) else d
  setSpState p spOFF d

/-- Where a command closes a frame of a port that stops, the port stops: its next frame boundary (R62, R275).
(DEDUCED, log entry 45.) -/
def spEnds (p : Nat) (f : Dev → Dev) (d : Dev) : Dev :=
  let e := f d
  let closes (v : Nat) : Bool := (d.vs p v).opened.isSome && (e.vs p v).opened ≠ (d.vs p v).opened
  if e.com.stopping.contains (spPage p) && (List.range 4).any closes then
    blockStopped (spPage p) (spDisable p e)
  else e

/-- SAT_FRAME_START. -/
def execSatFrameStart (sp : Fin 8) (s : State) : Out := onDev (spEnds sp (spTake sp 1 (spStart sp))) s

/-- SAT_FRAME_END. -/
def execSatFrameEnd (sp : Fin 8) (s : State) : Out :=
  onDev (spEnds sp (spTake sp 4 fun h pay => spOwn sp h (spFrameEnd sp h pay))) s

/-- SAT_FRAME_TIMEOUT (R266). -/
def execSatFrameTimeout (sp : Fin 8) (vs : Fin 4) (s : State) : Out := onDev (spEnds sp (spClose sp vs 0 true)) s

/-- Both markers were confirmed: the port is UP. The delay of R269 is updated. -/
def spUp (p : Nat) (d : Dev) : Dev :=
  let d := d.mapPort p fun q => { q with limit := 8176, limitSent := 8176, received := 0, left := 0,
                                         strm := [], search := false, missed := (0, 0) }
  let d := ((setSpState p spUP d).raiseI SP_IRQ_RAW_PORT_UP p).emit 0x068 (spPage p)
  let (w, d) := d.free
  let d := (d.setFi SP_RX_DELAY_NS p 0 w.toNat).setFi SP_HELLO_STAT_VALID p 0 0
  let d := d.mapLane (spLane p false) fun x => { x with since := 0 }
  let d := d.mapLane (spLane p true) fun x => { x with since := 0 }
  let d := d.mapGrp (1 + p) fun g => { g with turn := false }
  let hello := spSend 6 0 0 (u16 1 ++ u8 p ++ u8 (d.fi SP_PORT_CFG_CREDIT_EN p 0) ++ [0#8, 0#8, 0#8, 0#8])
  sendCredit p [hello] d

/-! ## Markers and the port stream (R257 to R259) -/

/-- The 32 bytes of a block payload, byte 0 first. -/
def blockBytes (v : BitVec 256) : List Byte := bytesLE 32 v.toNat

/-- Count of a marker block of a lane. -/
def markerCount (l1 : Bool) (v : BitVec 256) : Option Nat :=
  let bs := blockBytes v
  if natOfBytes (bs.take 8) = 0x5341544D4B520001 ∧ natOfBytes (bs.drop 12) = b2n l1 then
    some (natOfBytes ((bs.drop 8).take 4))
  else none

/-- Blocks are taken from L0 and L1 in turn, up to the next marker slot. (DEDUCED, log entries 65 and 93.) -/
def spPump : Nat → Nat → Dev → Dev
  | 0, _, d => d
  | n + 1, p, d =>
    let l := spLane p (d.grp (1 + p)).turn
    let x := d.lane l
    match x.q with
    | .data v :: t =>
      if x.since < 1023 then
        let d := d.setLane l { x with q := t, since := x.since + 1 }
        let d := d.mapGrp (1 + p) fun g => { g with turn := !g.turn }
        spPump n p (d.mapPort p fun q => { q with strm := q.strm ++ blockBytes v })
      else d
    | _ => d

/-- A data block arrives on a receive lane of the port: the stream of an aligned port grows; while it
aligns, the block is kept for the marker search; otherwise it is discarded. -/
def spBlock (p l : Nat) (v : BitVec 256) (d : Dev) : Dev :=
  if d.spState p < spALIGN then d
  else
    let d := d.mapLane l fun x => { x with q := x.q ++ [.data v] }
    if d.spState p = spUP then
      spPump ((d.lane (spLane p false)).q.length + (d.lane (spLane p true)).q.length) p d
    else d

/-- The first marker among blocks, and the blocks after it. -/
def findMarker (l1 : Bool) : List LnItem → Option (Nat × List LnItem)
  | [] => none
  | .data v :: t => match markerCount l1 v with
    | some n => some (n, t)
    | none => findMarker l1 t
  | _ :: t => findMarker l1 t

def SpSt.setMk (q : SpSt) (l1 : Bool) (m : Option (Option Nat)) : SpSt :=
  if l1 then { q with mk1 := m } else { q with mk0 := m }

/-- Skew of the lanes of a port when a pair of markers has come: by the blocks that follow in each (R458). -/
def spSkew (p : Nat) (d : Dev) : Dev :=
  let n (l1 : Bool) : Nat := (d.lane (spLane p l1)).q.length
  (d.setFi LN_SKEW_BLOCKS (spLane p false) 0 (min 63 (n true - n false))).setFi
    LN_SKEW_BLOCKS (spLane p true) 0 (min 63 (n false - n true))

/-- Both lanes' markers of an interval are known. -/
def spPair (p : Nat) (d : Dev) : Dev :=
  let q := d.port p
  match q.mk0, q.mk1 with
  | some m0, some m1 =>
    let e := d.setPort p { q with mk0 := none, mk1 := none }
    match m0, m1 with
    | some a, some b =>
      if a = b then
        let e := spSkew p e
        if d.spState p = spALIGN then
          if q.pairSeen then spUp p e else e.mapPort p fun q => { q with pairSeen := true }
        else e
      else if d.spState p = spUP then spDown p e
      else if a < b then d.setPort p { q with mk0 := none, pairSeen := false }
      else d.setPort p { q with mk1 := none, pairSeen := false }
    | _, _ => e
  | _, _ => d

/-- A marker is taken while the port aligns. -/
def spFindMarker (p : Nat) (l1 : Bool) (d : Dev) : Dev :=
  let l := spLane p l1
  let x := d.lane l
  if (if l1 then (d.port p).mk1 else (d.port p).mk0).isSome then d
  else match findMarker l1 x.q with
    | none => d
    | some (n, t) => spPair p ((d.setLane l { x with q := t, since := 0 }).mapPort p fun q => q.setMk l1 (some (some n)))

/-- The block of a marker slot is taken while the port is UP. -/
def spSlotMarker (p : Nat) (l1 : Bool) (d : Dev) : Dev :=
  let l := spLane p l1
  let x := d.lane l
  match x.q with
  | .data v :: t =>
    if x.since < 1023 then d
    else
      let d := d.setLane l { x with q := t, since := 0 }
      let m := markerCount l1 v
      let (n0, n1) := (d.port p).missed
      let n := if m.isSome then 0 else (if l1 then n1 else n0) + 1
      let d := spPair p (d.mapPort p fun q =>
        { q.setMk l1 (some m) with missed := if l1 then (n0, n) else (n, n1) })
      if 2 ≤ n ∧ d.spState p = spUP then spDown p d
      else spPump ((d.lane (spLane p false)).q.length + (d.lane (spLane p true)).q.length) p d
  | _ => d

/-- SAT_MARKER_BLOCK (R258, R275): the next marker of a lane. -/
def execSatMarkerBlock (sp : Fin 8) (l1 : Bool) (s : State) : Out :=
  onDev (fun d =>
    if d.spState sp = spALIGN then spFindMarker sp l1 d
    else if d.spState sp = spUP then spSlotMarker sp l1 d
    else d) s

end Sys2Proof.Machine
end

