-- ==== Sys2Proof/Machine/Ingest.lean ====
section
/-! DEFINITION. Frames in the pipeline, and the ingest arbiter (R34, R43, R277 to R280). -/
namespace Sys2Proof.Machine

/-! ## Frames in the pipeline -/

def noPf : Nat → PFrame := fun _ => {}
def Dev.pf (d : Dev) (u : Nat) : PFrame := SMap.get noPf d.pipe u
def Dev.setPf (d : Dev) (u : Nat) (x : PFrame) : Dev := { d with pipe := SMap.set noPf d.pipe u x }
def Dev.mapPf (d : Dev) (u : Nat) (f : PFrame → PFrame) : Dev := d.setPf u (f (d.pf u))

/-- Row of the own array, top to bottom of the die with the dark rows, within a strip. -/
def ownRow (strip bank r : Nat) : Nat := strip * 8240 + (if bank = 0 then r else 8239 - r)

/-- Key of a row of a pass, and of one of its segments. -/
def rowKey (pass rk : Nat) : Nat := pass * 2 ^ 30 + rk
def segKey (pass rk seg : Nat) : Nat := rowKey pass rk * 128 + seg

def noSeg (α : Type) : Nat → Option (SegOf α) := fun _ => none
def segGet {α : Type} (m : SMap (Option (SegOf α))) (pass rk seg : Nat) : Option (SegOf α) :=
  SMap.get (noSeg α) m (segKey pass rk seg)

/-- Keys of a store's segments that belong to a row, in order. -/
def rowSegKeys {α : Type} (m : SMap (Option (SegOf α))) (pass rk : Nat) : List Nat :=
  (m.filter fun p => p.1 / 128 = rowKey pass rk).map (·.1)

/-- Rows of a pass of which a store holds something, in rising order. -/
def passRows {α : Type} (m : SMap (Option (SegOf α))) (pass : Nat) : List Nat :=
  ((m.filter fun p => p.1 / 128 / 2 ^ 30 = pass).map fun p => p.1 / 128 % 2 ^ 30).eraseDups

def Frame.own (f : Frame) : Bool := f.member = 0
/-- The header as it holds for one pixel of the segment: fill, or not (R267, R284). -/
def SegHdr.at (h : SegHdr) (i : Nat) : SegHdr :=
  match h.kept with
  | some n => { h with fill := h.fill || decide (n ≤ i) }
  | none => h

/-- Pixels of a segment, but for the last of a satellite line. -/
def Frame.segW (f : Frame) : Nat := if f.own then 128 else 256
/-- Passes of a frame. -/
def Frame.passes (f : Frame) : Nat := if f.own then f.m else 1
/-- Input depth b (R283). -/
def Frame.depth (f : Frame) : Nat := if f.own then (if f.tenBit then 10 else 12) else f.bits

/-! Stages, as bits of `acts`. -/
def stNRD : Nat := 0
def stPXC : Nat := 1
def stHDR : Nat := 2
def stGEO : Nat := 3
def stSTA : Nat := 4
def stVEW : Nat := 5
def stENC : Nat := 6

def stagePages : List Page := [.nrd, .pxc, .hdr, .geo, .sta, .vew, .enc]

/-- Which stages take a frame that enters now: those that are active and have not been told to stop
(R62). (DEDUCED, log entry 69.) -/
def Dev.stageMask (d : Dev) : Nat :=
  (stagePages.zipIdx).foldl (fun n (p : Page × Nat) =>
    if d.active p.1 ∧ d.enabled p.1 then n + 2 ^ p.2 else n) 0

def Dev.stage (d : Dev) (u st : Nat) : Bool := (d.pf u).acts.testBit st

/-- A segment passes the arbiter to stage P1. -/
def passSeg (u key : Nat) (g : SegOf Nat) (d : Dev) : Dev :=
  if (d.frame u).pipe = false ∧ (d.frame u).burst = false then d
  else
    let x := d.pf u
    let acts := if x.raw.isEmpty then d.stageMask else x.acts
    d.setPf u { x with acts, raw := SMap.set (noSeg Nat) x.raw key (some g) }

/-! ## Own-array segments (R41, R43, R277) -/

/-- The header that a strobe gives its segment. -/
def Strobe.hdr (s : Strobe) : SegHdr :=
  { dur := s.dAct.getD s.dur, cg := s.cg, gain := s.gain, subs := s.subs, ovw := s.ovw, trt := s.trt, began := s.began }

def passOwn (g : Seg) (d : Dev) : Dev :=
  passSeg g.frame (segKey g.hd.pass (ownRow g.hd.strip g.bank g.hd.row) g.hd.stripe)
    { hd := g.hd.hdr, px := g.codes } d

/-- The time in which satellites have been held so far is added up, in whole µs (R282). -/
def heldTime (d : Dev) : Dev :=
  if d.ary.pressure then
    let n := (d.cyc - d.ary.heldAt) / 750
    (d.add ING_SAT_HELD_US n).onAry fun a => { a with heldAt := a.heldAt + 750 * n }
  else d

/-- Satellites are let go when both banks hold fewer than 8 rows (R43). (DEDUCED, log entry 69.) -/
def skidRelease (d : Dev) : Dev :=
  if d.ary.pressure ∧ d.ary.skidT.length < 8 ∧ d.ary.skidB.length < 8 then
    (heldTime d).onAry fun a => { a with pressure := false }
  else d

/-- The next line segment of 256 pixels of a bank's oldest row: a pair of neighbouring stripes.
(DEDUCED, log entry 69.) -/
def grantOwn (bank : Nat) (d : Dev) : Dev :=
  match d.ary.skid bank with
  | [] => d
  | r :: t =>
    match r.segs with
    | [] => skidRelease (d.onAry fun a => a.setSkid bank t)
    | g :: _ =>
      let (now, later) := r.segs.partition fun s => s.hd.stripe / 2 = g.hd.stripe / 2
      let d := d.onAry fun a => a.setSkid bank (if later.isEmpty then t else { segs := later } :: t)
      skidRelease (now.foldl (fun d s => passOwn s d) d)

/-! ## Satellite segments (R267, R279, R280) -/

/-- The segment of a virtual sensor that waits, if one does: its frame, number, pixels where it is
stored, and when its packet, or the one that shows it missing, was stored. -/
def VsSt.waiting (x : VsSt) (d : Dev) : Option (Nat × Nat × Option (List Nat) × Nat) :=
  match x.leaving with
  | none => none
  | some u =>
    let next := x.next
    match x.q with
    | .seg u' n px _ at' :: _ =>
      if u' ≠ u then none else if n = next then some (u, next, some px, at') else some (u, next, none, at')
    | .close _ _ at' :: _ =>
      if next < (d.frame u).h * (d.frame u).segs then some (u, next, none, at') else none
    | _ => none

def memberPort (m : Nat) : Nat := (m - 1) / 4
def memberVs (m : Nat) : Nat := (m - 1) % 4
def Dev.vsOf (d : Dev) (m : Nat) : VsSt := d.vs (memberPort m) (memberVs m)

/-- Members with a waiting segment: member, size in pixels, and the cycle its age counts from. -/
def Dev.satWaiting (d : Dev) : List (Nat × Nat × Nat) :=
  ((List.range 32).map (· + 1)).filterMap fun m =>
    ((d.vsOf m).waiting d).map fun w => (m, (d.frame w.1).segPx w.2.1, w.2.2.2)

/-- q_v, with the weight of the frame that leaves (R268, R279). (DEDUCED, log entry 69.) -/
def Dev.satQuantum (d : Dev) (m : Nat) : Nat :=
  match (d.vsOf m).leaving with
  | some u => (d.frame u).weight * d.a ING_QUANTUM_PX
  | none => 0

/-- Age limit in engine cycles. -/
def Dev.satAge (d : Dev) : Nat := 750 * d.a ING_AGE_LIMIT_US

/-- Is the age of a member's oldest waiting segment at the limit or above? -/
def Dev.satOld (d : Dev) (m : Nat) : Bool :=
  match (d.vsOf m).waiting d with
  | some w => decide (d.satAge ≤ d.cyc - w.2.2.2)
  | none => false

/-- A virtual sensor whose age has fallen below the limit may be promoted again (R280). -/
def satRearm (m : Nat) (d : Dev) : Dev :=
  if (d.vsOf m).urgentUsed && !d.satOld m then
    d.mapVs (memberPort m) (memberVs m) fun x => { x with urgentUsed := false }
  else d

/-- The waiting segment of a member passes; fill carries the fill code (R267). -/
def passSat (m : Nat) (d : Dev) : Dev :=
  let p := memberPort m
  let v := memberVs m
  let x := d.vs p v
  match x.waiting d with
  | none => d
  | some (u, n, px, _) =>
    let f := d.frame u
    let key := segKey 0 (n / f.segs) (n % f.segs)
    let d := match px, x.q with
      | some px, .seg _ _ _ b _ :: t =>
        let px' := px ++ List.replicate (f.segPx n - px.length) f.pedestal
        let kept := if px.length < f.segPx n then some px.length else none
        spLeave p b ((passSeg u key { hd := { kept }, px := px' } d).setVs p v { x with q := t, next := n + 1 })
      | _, _ =>
        (passSeg u key { hd := { fill := true }, px := List.replicate (f.segPx n) f.pedestal } d).setVs p v
          { x with next := n + 1 }
    satRearm m (vsDrain ((d.vs p v).q.length) p v d)

/-- One urgent grant: whole segments from the head of the queue, up to q pixels, and at least one.
(DEDUCED, log entry 68.) -/
def satUrgent : Nat → Nat → Nat → Bool → Dev → Dev
  | 0, _, _, _, d => d
  | n + 1, m, left, first, d =>
    match d.satWaiting.find? fun w => w.1 = m with
    | none => d
    | some (_, size, _) =>
      if size ≤ left ∨ first then
        let r := d.ary.satDrr
        let v := max (-(d.satQuantum m : Int)) (r.deficit m - size)
        satUrgent n m (left - size) false (passSat m (d.onAry fun a => { a with satDrr := r.setDeficit m v }))
      else d

/-- The member with the greatest age over the limit that was not promoted yet; of several, the lowest. -/
def Dev.satOverdue (d : Dev) : Option Nat :=
  let l := d.satWaiting.filter fun w => d.satAge < d.cyc - w.2.2 && !(d.vsOf w.1).urgentUsed
  (l.foldl (fun b w => match b with
    | some (c : Nat × Nat × Nat) => if w.2.2 < c.2.2 then some w else some c
    | none => some w) none).map (·.1)

/-- Members with a waiting segment that the round robin serves: member, quantum and size. -/
def Dev.satTurns (d : Dev) : List (Nat × Nat × Nat) :=
  (d.satWaiting.filter fun w => d.satQuantum w.1 ≠ 0).map fun w => (w.1, d.satQuantum w.1, w.2.1)

/-- With nothing left to serve the loop of R279 goes round, and every deficit becomes 0. -/
def satIdle (d : Dev) : Dev :=
  if d.satTurns.isEmpty then d.onAry fun a => { a with satDrr := { a.satDrr with inTurn := false, defs := [] } } else d

/-- (DEDUCED, log entries 68 and 69.) -/
def grantSat (d : Dev) : Dev :=
  let d := ((List.range 32).map (· + 1)).foldl (fun d m => satRearm m d) d
  satIdle <| match d.satOverdue with
  | some m =>
    let d := (d.bump ING_URGENT_PROMOTIONS).raise ING_IRQ_RAW_URGENT
    let d := d.mapVs (memberPort m) (memberVs m) fun x => { x with urgentUsed := true }
    satUrgent 8192 m (d.satQuantum m) true d
  | none =>
    match drrNext 2048 d.satTurns d.ary.satDrr with
    | some (m, r) => passSat m (d.onAry fun a => { a with satDrr := r })
    | none => d

/-- The arbiter grants: own-array segments first, from the fuller bank. (DEDUCED, log entry 69.) -/
def ingestGrant (d : Dev) : Dev :=
  if d.active .ing = false then d
  else if d.ary.skidT.isEmpty && d.ary.skidB.isEmpty then (if d.ary.pressure then d else grantSat d)
  else grantOwn (if d.ary.skidT.length < d.ary.skidB.length then 1 else 0) d

/-- INGEST_GRANT. -/
def execIngestGrant (s : State) : Out := onDev ingestGrant s

end Sys2Proof.Machine
end

