-- ==== Sys2Proof/Machine/Noise.lean ====
section
/-! DEFINITION. Stage P1: impulse flags, the spatial and the temporal filter (R283 to R296, R311, R572,
R573). -/
namespace Sys2Proof.Machine

/-! ## Numbers -/

/-- The greatest number below `n + 2^b` that passes a test which holds up to some number. -/
def bitSearch (ok : Nat → Bool) : Nat → Nat → Nat
  | 0, n => n
  | b + 1, n => if ok (n + 2 ^ b) then bitSearch ok b (n + 2 ^ b) else bitSearch ok b n

/-- (DESIGN CHOICE, log entry 71.) -/
def ratPow2 (e : Int) : Rat := if 0 ≤ e then (2 ^ e.toNat : Nat) else 1 / (2 ^ (-e).toNat : Nat)

/-- 2^(k/4), its fraction to 36 places. (DESIGN CHOICE, log entry 71.) -/
def quarterPow (k : Int) : Rat :=
  let m : Rat := match (k % 4).toNat with
    | 0 => 1
    | 1 => 1189207115002721066717499970560475915 / 10 ^ 36
    | 2 => 1414213562373095048801688724209698079 / 10 ^ 36
    | _ => 1681792830507429086062250952466429790 / 10 ^ 36
  ratPow2 (k / 4) * m

/-- A square root, to 2^-40 below. -/
def ratSqrt (q : Rat) : Rat :=
  let t := (q * (2 ^ 80 : Nat)).floor.toNat
  (bitSearch (fun n => decide (n * n ≤ t)) 64 0 : Nat) / (2 ^ 40 : Nat)

/-- σ for a variance: the device's own figure, which lies within 1 %. (DESIGN CHOICE, log entry 71.) -/
def sigmaOf (var : Rat) : Rat :=
  if var ≤ 0 then 0
  else
    let c := Config.sigma var
    if 0 < c ∧ (99 / 100) ^ 2 * var ≤ c * c ∧ c * c ≤ (101 / 100) ^ 2 * var then c else ratSqrt var

/-! ## Positions and neighbours (R286, R287) -/

/-- A pixel's row and column. -/
structure Pos where
  rk : Nat
  x : Nat
  deriving DecidableEq, Repr

/-- Width of a frame's image. -/
def Frame.width (f : Frame) : Nat := if f.own then 12288 else f.w

/-- First and last row of the band a row lies in: dark rows of a bank, the active area, or the whole
satellite image. -/
def Frame.band (f : Frame) (rk : Nat) : Nat × Nat :=
  if f.own then
    let b := rk / 8240 * 8240
    let v := rk % 8240
    if v < 24 then (b, b + 23) else if v < 8216 then (b + 24, b + 8215) else (b + 8216, b + 8239)
  else (0, f.h - 1)

/-- Is the row a dark row? -/
def Frame.darkRow (f : Frame) (rk : Nat) : Bool := f.own && (rk % 8240 < 24 || 8216 ≤ rk % 8240)

/-- Reflect a coordinate about the edges of a range. (DEDUCED, log entry 72.) -/
def reflectIn (lo hi : Nat) (u : Int) : Nat :=
  (if u < lo then 2 * (lo : Int) - u else if (hi : Int) < u then 2 * (hi : Int) - u else u).toNat

/-- The nearest read row from a row toward the centre. (DEDUCED, log entry 72.) -/
def towardRead (isRead : Nat → Bool) : Nat → Nat → Nat → Nat
  | 0, _, c => c
  | n + 1, v, c =>
    if isRead v then v
    else if v < c then towardRead isRead n (v + 1) c
    else if c < v then towardRead isRead n (v - 1) c
    else c

/-- A row of the centre's stripe, unread rows reflected about the nearest read row. -/
def resolveRow (isRead : Nat → Bool) (lo hi c : Nat) : Nat → Nat → Option Nat
  | 0, _ => none
  | n + 1, v =>
    if isRead v then some v
    else resolveRow isRead lo hi c n (reflectIn lo hi (2 * (towardRead isRead 8 v c : Int) - v))

/-- The pixel a neighbour position resolves to (R287). (DEDUCED, log entry 72.) -/
def resolve (f : Frame) (has : Nat → Nat → Bool) (c : Pos) (o : Int × Int) : Option Pos :=
  let (lo, hi) := f.band c.rk
  let x := reflectIn 0 (f.width - 1) (c.x + o.1)
  let v := reflectIn lo hi (c.rk + o.2)
  let w := f.segW
  if f.own = false then (if has v (x / w) then some { rk := v, x } else none)
  else
    let s := c.x / w
    if x / w ≠ s ∧ has v (x / w) then some { rk := v, x }
    else
      let x := if x / w < s then 2 * (s * w) - x else if s < x / w then 2 * (s * w + w - 1) - x else x
      (resolveRow (fun r => has r s) lo hi c.rk 4 v).map fun r => { rk := r, x }

/-- CFA code of a frame (R97, R333). -/
def Frame.phase (f : Frame) : Nat := if f.own then 0 else f.cfa

/-- Colour of a pixel: 0 R, 1 Gr, 2 Gb, 3 B, 4 MONO. -/
def cfaColour (phase x y : Nat) : Nat := if 4 ≤ phase then 4 else Nat.xor (x % 2 + 2 * (y % 2)) phase
def Frame.colour (f : Frame) (p : Pos) : Nat := cfaColour f.phase p.x p.rk

/-- N8 of a colour. -/
def offsN8 (c : Nat) : List (Int × Int) :=
  if c = 4 then [(-1, -1), (0, -1), (1, -1), (-1, 0), (1, 0), (-1, 1), (0, 1), (1, 1)]
  else if c = 1 ∨ c = 2 then [(-1, -1), (1, -1), (-1, 1), (1, 1), (-2, 0), (2, 0), (0, -2), (0, 2)]
  else [(-2, 0), (2, 0), (0, -2), (0, 2), (-2, -2), (2, -2), (-2, 2), (2, 2)]

/-- The rest of S. -/
def offsOuter (c : Nat) : List (Int × Int) :=
  if c = 4 then
    (List.range 25).filterMap fun i =>
      let x : Int := (i % 5 : Nat) - 2
      let y : Int := (i / 5 : Nat) - 2
      if x.natAbs = 2 ∨ y.natAbs = 2 then some (x, y) else none
  else if c = 1 ∨ c = 2 then [(-2, -2), (2, -2), (-2, 2), (2, 2)]
  else []

/-! ## The noise model (R284, R285, R288) -/

/-- Saturation level of a depth. -/
def Dev.lsat (d : Dev) (b : Nat) : Nat := d.a NRD_SAT_CFG_LVL * 2 ^ b / 4096

/-- Pedestal in the frame's own LSB, or fill code (R117, R285). -/
def Dev.pedOf (d : Dev) (f : Frame) : Nat :=
  if f.own then (if f.tenBit then d.a ARY_ADC_CFG_PEDESTAL / 4 else d.a ARY_ADC_CFG_PEDESTAL) else f.pedestal

/-- σ² for a signal above the pedestal. -/
def Dev.noiseVar (d : Dev) (f : Frame) (h : SegHdr) (sig : Rat) : Rat :=
  let s := max sig 0
  if f.own then
    let k : Nat := if h.cg then d.a NRD_NOISE_HCG_K else d.a NRD_NOISE_LCG_K
    let r : Nat := if h.cg then d.a NRD_NOISE_HCG_RDV else d.a NRD_NOISE_LCG_RDV
    let k : Rat := (k : Rat) / 4096 / (if f.tenBit then 4 else 1)
    let r : Rat := (r : Rat) / 256 / (if f.tenBit then 16 else 1)
    k * quarterPow h.gain * s + r * quarterPow (2 * h.gain)
  else
    let p := memberPort f.member
    (d.ak NRD_SAT_NM_K p : Rat) / 4096 * s + (d.ak NRD_SAT_NM_RDV p : Rat) / 256

/-- σ of a code. -/
def Dev.sigmaAt (d : Dev) (f : Frame) (h : SegHdr) (v : Rat) : Rat :=
  sigmaOf (d.noiseVar f h (v - d.pedOf f))

def cgFactor (cg : Bool) : Nat := if cg then 4 else 1

/-- H of one exposure over H of another (R145). -/
def expRatio (a b : SegHdr) : Rat :=
  ((a.dur * cgFactor a.cg : Nat) : Rat) / (b.dur * cgFactor b.cg : Nat) * quarterPow ((a.gain : Int) - b.gain)

def ratioOk (r : Rat) : Bool := decide (1 / 64 ≤ r) && decide (r ≤ 64)

/-- The factor that takes a neighbour to the centre's exposure, if it is not excluded (R288).
(DESIGN CHOICE, log entry 71.) -/
def normFactor (f : Frame) (c n : SegHdr) : Option Rat :=
  if f.own then (let r := expRatio c n; if ratioOk r then some r else none) else some 1

/-- The median of a list. -/
def ratInsert (a : Rat) : List Rat → List Rat
  | [] => [a]
  | b :: t => if a ≤ b then a :: b :: t else b :: ratInsert a t
def ratSort (l : List Rat) : List Rat := l.foldr ratInsert []
def median (l : List Rat) : Rat :=
  let s := ratSort l
  let n := s.length
  if n % 2 = 1 then (s[n / 2]?).getD 0 else (((s[n / 2 - 1]?).getD 0) + ((s[n / 2]?).getD 0)) / 2

def absRat (q : Rat) : Rat := if q < 0 then -q else q
def clampRat (lo hi q : Rat) : Rat := if q < lo then lo else if hi < q then hi else q

/-! ## One pass of one frame, as stage P1 sees it -/

/-- The fields in force, the frame, what has arrived of the pass, and the temporal reference. -/
structure View1 where
  c : Dev
  f : Frame
  raw : SMap (Option (SegOf Nat))
  pass : Nat
  old : SMap (Option (SegOf Nat)) := []

def View1.cell (n : View1) (p : Pos) : Option (SegHdr × Nat) :=
  (segGet n.raw n.pass p.rk (p.x / n.f.segW)).map fun g => (g.hd.at (p.x % n.f.segW), (g.px[p.x % n.f.segW]?).getD 0)
def View1.has (n : View1) (rk seg : Nat) : Bool := (segGet n.raw n.pass rk seg).isSome

def View1.sat (n : View1) (v : Nat) : Bool := decide (n.c.lsat n.f.depth ≤ v)

/-- Usable neighbours of a set of offsets: position, factor and value at the centre's exposure. -/
def View1.nbs (n : View1) (p : Pos) (h : SegHdr) (os : List (Int × Int)) : List (Pos × Rat × Rat) :=
  let ped : Rat := n.c.pedOf n.f
  os.filterMap fun o =>
    match resolve n.f n.has p o with
    | none => none
    | some q => match n.cell q with
      | none => none
      | some (hj, v) =>
        if hj.fill ∨ n.sat v then none
        else (normFactor n.f h hj).map fun r => (q, r, ped + ((v : Rat) - ped) * r)

/-- Is a pixel flagged IMP (R289)? -/
def View1.imp (n : View1) (p : Pos) : Bool :=
  match n.cell p with
  | none => false
  | some (h, v) =>
    let thr := n.c.a NRD_IMP_THR
    if thr = 0 ∨ h.fill ∨ n.sat v then false
    else
      let l := (n.nbs p h (offsN8 (n.f.colour p))).map fun e => e.2.2
      match l with
      | a :: _ =>
        if l.length < 4 then false
        else
          let hi := l.foldl max a
          let lo := l.foldl min a
          let s := (thr : Rat) / 16 * n.c.sigmaAt n.f h (median l)
          decide (s < v - hi) || decide (s < lo - v)
      | [] => false

/-- Does the spatial filter take the pixel (R291)? -/
def View1.filtered (n : View1) (p : Pos) : Bool :=
  match n.cell p with
  | none => false
  | some (h, v) => !(n.f.darkRow p.rk) && !h.fill && !n.sat v && !n.imp p

/-- x_sp (R291). -/
def View1.spatial (n : View1) (p : Pos) : Rat :=
  match n.cell p with
  | none => 0
  | some (h, v) =>
    let str := n.c.a NRD_SPAT_STR
    if str = 0 ∨ n.filtered p = false then v
    else
      let x0 : Rat := v
      let lim := (n.c.a NRD_SPAT_THR : Rat) / 32 * n.c.sigmaAt n.f h x0
      let col := n.f.colour p
      let use (s : Rat) (acc : Rat × Rat) (e : Pos × Rat × Rat) : Rat × Rat :=
        if n.imp e.1 then acc
        else
          let df := absRat (e.2.2 - x0)
          let r := if lim = 0 then (if df = 0 then 1 else 0) else max 0 (1 - df / lim)
          (acc.1 + s * r, acc.2 + s * r * e.2.2)
      let acc := (n.nbs p h (offsN8 col)).foldl (use 2) (4, 4 * x0)
      let acc := (n.nbs p h (offsOuter col)).foldl (use 1) acc
      x0 + (acc.2 / acc.1 - x0) * str / 16

/-- The reference of a position: exposure and value. Strips share one place. -/
def View1.ref (n : View1) (p : Pos) : Option (SegHdr × Nat) :=
  let rk := if n.f.own then p.rk % 8240 else p.rk
  (segGet n.old 0 rk (p.x / n.f.segW)).map fun g => (g.hd, (g.px[p.x % n.f.segW]?).getD 0)

/-- ref' at a pixel of exposure `h`. -/
def View1.refNow (n : View1) (p : Pos) (h : SegHdr) : Option Rat :=
  let ped : Rat := n.c.pedOf n.f
  (n.ref p).map fun r => ped + ((r.2 : Rat) - ped) * (if n.f.own then expRatio h r.1 else 1)

/-- x_sp − ref' of a neighbour with a valid reference, at the centre's exposure: a row marked OVERWRITTEN has none
(R293, R294). -/
def View1.diff (n : View1) (e : Pos × Rat × Rat) : Option Rat :=
  if n.imp e.1 then none
  else match n.cell e.1 with
    | none => none
    | some (hj, _) =>
      if hj.ovw then none else (n.refNow e.1 hj).map fun r => (n.spatial e.1 - r) * e.2.1

/-- The pixel as it leaves stage P1 (R293); `on` where the reference is valid for its row. -/
def View1.out (n : View1) (on : Bool) (p : Pos) : Px1 :=
  match n.cell p with
  | none => { v := 0 }
  | some (h, v) =>
    if h.fill then { v }
    else if n.sat v then { v, sat := true }
    else if n.imp p then { v, imp := true }
    else if n.filtered p = false then { v }
    else
      let xs := n.spatial p
      let top : Int := 2 ^ n.f.depth - 1
      match (if on then n.refNow p h else none) with
      | none => { v := (clampInt 0 top (xs + 1 / 2).floor).toNat }
      | some r =>
        let ds := (xs - r) :: (n.nbs p h (offsN8 (n.f.colour p))).filterMap n.diff
        let avg := absRat (ds.foldl (· + ·) 0 / (ds.length : Nat))
        let s := n.c.sigmaAt n.f h xs
        let lo := (n.c.a NRD_TEMP_T_LO : Rat) / 32
        let hi := (n.c.a NRD_TEMP_T_HI : Rat) / 32
        let am := (n.c.a NRD_TEMP_A_MIN : Rat) / 256
        let g := if s = 0 then (if avg = 0 then clampRat 0 1 ((0 - lo) / (hi - lo)) else 1)
          else clampRat 0 1 ((avg / s - lo) / (hi - lo))
        let a := am + (1 - am) * g
        { v := (clampInt 0 top (r + a * (xs - r) + 1 / 2).floor).toNat }

/-- Stage P1 disabled (R311): SAT and nothing else. -/
def View1.plain (n : View1) (p : Pos) : Px1 :=
  match n.cell p with
  | none => { v := 0 }
  | some (h, v) => { v, sat := !h.fill && n.sat v }

/-! ## References (R292, R294 to R296, R371) -/

/-- (DEDUCED, log entry 73.) -/
def refKey (member pass : Nat) : Nat := member * 4 + pass

/-- Key of the reference that a pass of a frame uses: strips have a line store of their own (R295).
(DEDUCED, log entry 73.) -/
def Frame.refKey (f : Frame) (pass : Nat) : Nat :=
  if f.own ∧ f.sched = schedSTRIP then 4 * 33 + pass else Machine.refKey f.member pass
def noRef : Nat → RefSt := fun _ => {}
def Dev.ref (d : Dev) (k : Nat) : RefSt := SMap.get noRef d.refs k
def Dev.setRef (d : Dev) (k : Nat) (r : RefSt) : Dev := { d with refs := SMap.set noRef d.refs k r }

/-- An enabled entry of the allocation table, by use, member and index; its SIZE. -/
def Dev.alloc (d : Dev) (use member index : Nat) : Option (Nat × Nat) :=
  ((List.range 48).find? fun n =>
    d.ak FST_ALLOC0_EN n = 1 && d.ak FST_ALLOC0_USE n = use && d.ak FST_ALLOC0_MEMBER n = member &&
      d.ak FST_ALLOC0_INDEX n = index).map fun n => (d.ak FST_ALLOC1_BASE n, d.ak FST_ALLOC1_SIZE n)

/-- Units a reference needs (R371). -/
def refUnits (f : Frame) : Nat :=
  if f.own then (if f.tenBit then 121 else 145)
  else ((f.w * f.h * f.bits + 7) / 8 + (f.h + 7) / 8 + 1048575) / 1048576

def Dev.refAlloc (d : Dev) (f : Frame) (pass : Nat) : Bool :=
  d.active .fst && (match d.alloc 0 f.member pass with | some e => decide (refUnits f ≤ e.2) | none => false)

/-- What must not change between a reference and the frame that uses it. -/
def Frame.shape (f : Frame) : List Nat := [b2n f.tenBit, f.m, f.w, f.h, f.bits, f.cfa]

/-- The cause that applies to a pass of a frame, read with the frame's fields. (DEDUCED, log entry 73.) -/
def refCause (c : Dev) (f : Frame) (pass : Nat) (r : RefSt) : Nat :=
  if c.a NRD_TEMP_EN = 0 then 1
  else if f.own ∧ f.sched = schedSTRIP then
    if f.stripRateOff then 3
    else if r.tick = none ∨ r.shape ≠ f.shape then 4
    else if c.a NRD_TEMP_AGE_MAX_MS * 250000 < f.stamp.ticks - r.tick.getD 0 then 4
    else 0
  else if c.refAlloc f pass = false then 2
  else if r.tick = none ∨ r.shape ≠ f.shape then 4
  else if c.a NRD_TEMP_AGE_MAX_MS * 250000 < f.stamp.ticks - r.tick.getD 0 then 4
  else 0

/-- The cause of the own array's pass 0 is reported: each change with an event, one to a cause other than 0 with the
flag (R294). (DEDUCED, log entry 73.) -/
def reportCause (cause : Nat) (d : Dev) : Dev :=
  let was := d.f NRD_TNR_STAT_CAUSE
  let d := d.setF NRD_TNR_STAT_CAUSE cause
  if cause = was then d
  else (if cause = 0 then d else d.raise NRD_IRQ_RAW_TEMP_OFF).emit 0x071 .nrd (u8 cause)

/-- With its last pass begun, a frame that the filter is off for throughout is marked (R294). -/
def tnrOff (u pass : Nat) (d : Dev) : Dev :=
  let f := d.frame u
  let all := (List.range f.passes).all fun i => 2 ≤ SMap.get zeroNat (d.pf u).causes i
  if f.own ∧ pass + 1 = f.passes ∧ all then (d.flagFrame u ffTNR_OFF).bump NRD_TNR_OFF_FRAMES else d

/-- The first row of a pass with the stage disabled: the reference is invalid, and the filter off (R311).
(DEDUCED, log entry 73.) -/
def refOff (u pass : Nat) (d : Dev) : Dev :=
  let d := d.setRef ((d.frame u).refKey pass) {}
  if SMap.get zeroNat (d.pf u).causes pass ≠ 0 then d
  else tnrOff u pass (d.mapPf u fun x => { x with causes := SMap.set zeroNat x.causes pass 2 })

/-- The first row of a pass: the reference is judged, and made ready to be written: also where the strip rate turns the
filter off, since only cause 1 makes references invalid (R294, R572). (DEDUCED, log entry 73.) -/
def refBegin (u pass : Nat) (d : Dev) : Dev :=
  let x := d.pf u
  if SMap.get zeroNat x.causes pass ≠ 0 then d
  else
    let f := d.frame u
    let k := f.refKey pass
    let r := d.ref k
    let cause := refCause (d.asOf u) f pass r
    let d := d.setPf u { x with causes := SMap.set zeroNat x.causes pass (cause + 1) }
    let d := if cause = 2 then d.raise FST_IRQ_RAW_ALLOC_MISS else d
    let strip := f.own && f.sched = schedSTRIP
    let d := d.setRef k (
      if cause = 0 ∨ cause = 3 ∧ r.shape = f.shape then
        { tick := some f.stamp.ticks, shape := f.shape, old := if strip then [] else r.cur,
          cur := if strip then r.cur else [] }
      else if 3 ≤ cause then { tick := some f.stamp.ticks, shape := f.shape }
      else {})
    tnrOff u pass (if f.own ∧ pass = 0 then reportCause cause d else d)

/-- Is the temporal filter off for the strip of a row (R573)? -/
def Frame.stripOff (f : Frame) (rk : Nat) : Bool :=
  match f.fastFrom with
  | some n => f.own && f.sched = schedSTRIP && decide (n ≤ rk / 8240)
  | none => false

/-! ## The row (R289 to R294) -/

/-- Have all rows of a pass arrived at stage P1? -/
def Dev.rawDone (d : Dev) (u pass : Nat) : Bool :=
  let f := d.frame u
  if f.own then
    (f.reading = false || d.ary.cur ≠ some u || decide (pass < d.ary.pass) ||
      (f.sched ≠ schedSTRIP && decide (pass = d.ary.pass) && decide (d.clockedRows u ≤ d.ary.offered))) &&
      !(d.ary.waiting.any fun w => w.frame = u && w.segs.any fun s => s.pass = pass) &&
      !((d.ary.skidT ++ d.ary.skidB).any fun r => r.segs.any fun g => g.frame = u && g.hd.pass = pass)
  else f.reading = false

/-- Every segment of a row is here. -/
def PFrame.rowFull (x : PFrame) (f : Frame) (pass rk : Nat) : Bool :=
  decide ((if f.own then 96 else f.segs) ≤ (rowSegKeys x.raw pass rk).length)

/-- Do a strip's rows of the two banks reach one another across the bank boundary (R287)? -/
def Dev.stripNear (d : Dev) (u : Nat) : Bool :=
  decide (8233 ≤ (d.asOf u).a TRG_STRIP_ROW_TOP + (d.asOf u).a TRG_STRIP_ROW_BOT)

/-- The rows that are filtered together: in a strip frame, the strip's two rows of a bank, with those of the other bank
where they are near. (DEDUCED, log entry 72.) -/
def rowGroup (near : Bool) (f : Frame) (x : PFrame) (pass rk : Nat) : List Nat :=
  if f.own ∧ f.sched = schedSTRIP ∧ f.darkRow rk = false then
    (passRows x.raw pass).filter fun r =>
      r / 8240 = rk / 8240 && f.darkRow r = false && (near || decide (r % 8240 < 4120) = decide (rk % 8240 < 4120))
  else [rk]

/-- Segments that a row of a frame has: in a strip, those of the stripes that read strips (R222). -/
def Dev.rowWidth (d : Dev) (u rk : Nat) : Nat :=
  let f := d.frame u
  if f.own = false then f.segs
  else if f.sched = schedSTRIP ∧ f.darkRow rk = false then
    (List.range 96).countP fun s => ((d.asOf u).ak TRG_STRIP_EN (s / 32)).testBit (s % 32)
  else 96

/-- May a row be filtered: have the rows that its neighbourhoods reach arrived, or will they not?
(DEDUCED, log entry 72.) -/
def Dev.rowReady (d : Dev) (u pass rk : Nat) : Bool :=
  let f := d.frame u
  let x := d.pf u
  d.rawDone u pass ||
    (if f.own ∧ f.sched = schedSTRIP ∧ f.darkRow rk = false then
      let near := d.stripNear u
      let rows := rowGroup near f x pass rk
      decide ((if near then 4 else 2) ≤ rows.length) &&
        rows.all fun r => decide (d.rowWidth u r ≤ (rowSegKeys x.raw pass r).length)
    else
      let (lo, hi) := f.band rk
      (List.range 13).all fun i =>
        let r := rk + i - 6
        decide (rk + i < 6 + lo) || decide (hi < r) || x.rowFull f pass r)

/-- In strip mode, the strips of a bank are filtered in order. -/
def stripInOrder (f : Frame) (x : PFrame) (pass rk : Nat) : Bool :=
  !(f.own && f.sched = schedSTRIP) ||
    (x.raw.all fun p =>
      let r := p.1 / 128 % 2 ^ 30
      decide (p.1 / 128 / 2 ^ 30 ≠ pass) || f.darkRow r || decide (rk / 8240 ≤ r / 8240) ||
        decide (decide (r % 8240 < 4120) ≠ decide (rk % 8240 < 4120)) ||
        (SMap.get (noSeg Px1) x.p1 p.1).isSome)

/-- A fill line: a satellite line all of whose segments are fill. Its valid bit is one for the line (R292, R294).
(DEDUCED, log entry 73.) -/
def View1.fillLine (n : View1) (rk : Nat) : Bool :=
  (rowSegKeys n.raw n.pass rk).all fun k => match SMap.get (noSeg Nat) n.raw k with
    | some g => g.hd.fill
    | none => true

/-- One segment of a row goes through stage P1: what leaves, and whether its row had no reference. -/
def segP1 (n : View1) (nrd active : Bool) (rk seg : Nat) (g : SegOf Nat) : SegOf Px1 × Bool :=
  let at' (i : Nat) : Pos := { rk, x := seg * n.f.segW + i }
  let idx := List.range g.px.length
  if nrd then
    let has := (segGet n.old 0 (if n.f.own then rk % 8240 else rk) seg).isSome
    let on := active && has && !g.hd.ovw && !n.fillLine rk && !n.f.stripOff rk
    ({ hd := g.hd, px := idx.map fun i => n.out on (at' i) }, active && !on && !n.f.darkRow rk)
  else ({ hd := g.hd, px := idx.map fun i => n.plain (at' i) }, false)

/-- The count of impulses, and its alarm (R290). (DEDUCED, log entry 73.) -/
def countImps (u k : Nat) (d : Dev) : Dev :=
  let was := (d.pf u).imps
  let d := (d.mapPf u fun x => { x with imps := was + k }).add NRD_IMPULSES k
  let lim := (d.asOf u).a NRD_IMP_ALARM
  if (d.frame u).own ∧ lim ≠ 0 ∧ was ≤ lim ∧ lim < was + k then
    (d.raise NRD_IRQ_RAW_IMP_ALARM).emit 0x070 .nrd (u8 (d.frame u).member ++ u32 (was + k))
  else d

/-- The reference takes a segment, unless it was overwritten, dark or of a fill line. (DEDUCED, log entry 73.) -/
def refWrite (k rk seg : Nat) (fill : Bool) (f : Frame) (s : SegOf Px1) (d : Dev) : Dev :=
  if s.hd.ovw ∨ fill ∨ f.darkRow rk then
    if f.own ∧ f.sched = schedSTRIP ∧ f.darkRow rk = false then
      let r := d.ref k
      d.setRef k { r with cur := SMap.set (noSeg Nat) r.cur (segKey 0 (rk % 8240) seg) none }
    else d
  else
    let r := d.ref k
    let key := segKey 0 (if f.own then rk % 8240 else rk) seg
    d.setRef k { r with cur := SMap.set (noSeg Nat) r.cur key (some { hd := s.hd, px := s.px.map (·.v) }) }

/-- A row, or the two rows of a strip, goes through stage P1. -/
def nrdRow (u pass rk : Nat) (d : Dev) : Dev :=
  let f := d.frame u
  let x := d.pf u
  let rows := rowGroup (d.stripNear u) f x pass rk
  let todo := rows.flatMap fun r => (rowSegKeys x.raw pass r).filter fun k => (SMap.get (noSeg Px1) x.p1 k).isNone
  if f.pipe = false ∨ todo.isEmpty ∨ d.rowReady u pass rk = false ∨ stripInOrder f x pass rk = false then d
  else
    let nrd := d.stage u stNRD
    let k := f.refKey pass
    let d := if nrd then refBegin u pass d else refOff u pass d
    let cause := SMap.get zeroNat (d.pf u).causes pass
    let strip := f.own && f.sched = schedSTRIP
    let n : View1 := { c := d.asOf u, f, raw := x.raw, pass, old := if strip then (d.ref k).cur else (d.ref k).old }
    let done := todo.filterMap fun key => (SMap.get (noSeg Nat) x.raw key).map fun g =>
      (key, segP1 n nrd (cause = 1) (key / 128 % 2 ^ 30) (key % 128) g)
    let d := done.foldl (fun d e => d.mapPf u fun y => { y with p1 := SMap.set (noSeg Px1) y.p1 e.1 (some e.2.1) }) d
    let d := if cause = 1 ∨ 4 ≤ cause then
        done.foldl (fun d e => refWrite k (e.1 / 128 % 2 ^ 30) (e.1 % 128) (n.fillLine (e.1 / 128 % 2 ^ 30)) f e.2.1 d) d
      else d
    let bad := done.filter fun e => e.2.2
    let lost := if f.own then bad.length else (if bad.isEmpty then 0 else 1)
    let imps := done.foldl (fun n e => n + e.2.1.px.countP fun p => p.imp) 0
    (if imps = 0 then id else countImps u imps) (d.add NRD_REF_INVALID_ROWS lost)

end Sys2Proof.Machine
end

