-- ==== Sys2Proof/Machine/Correction.lean ====
section
/-! DEFINITION. Stage P2: defect substitution, black level and lens shading (R297 to R307). -/
namespace Sys2Proof.Machine

/-! ## The defect table (R298, R299) -/

/-- (DESIGN CHOICE, log entry 112.) -/
def zeroWord : Nat → Word := fun _ => 0#32
/-- A word of the defect table. (DESIGN CHOICE, log entry 112.) -/
def Dev.defWord (d : Dev) (a : Nat) : Word := SMap.get zeroWord d.defs a

/-- Is an active pixel of the own array named by an entry in force? -/
def Dev.mapDefect (d : Dev) (x y : Nat) : Bool :=
  d.a PXC_DEF_CFG_MAP_EN = 1 &&
    ((List.range (d.a PXC_DEF_COUNT_COUNT)).any (fun n =>
        let w := d.defWord n
        bitsOf w 13 0 = x && bitsOf w 26 14 = y) ||
      (List.range (d.a PXC_DEF_CFG_COL_COUNT)).any fun c =>
        let w := d.defWord (65537 + 2 * c)
        bitsOf (d.defWord (65536 + 2 * c)) 13 0 = x && decide (bitsOf w 12 0 ≤ y) && decide (y ≤ bitsOf w 28 16))

/-- An access to DEF_DATA: a write of a value, or a read. (DEDUCED, log entry 75.) -/
def defData (p : Port) (v : Option Word) (d : Dev) : Dev :=
  let a := d.f PXC_DEF_ADDR_ADDR
  let on := d.setF PXC_DEF_ADDR_ADDR (a + 1)
  match v with
  | some w =>
    gatePage p .pxc (fun d =>
      if d.enabled .pxc then d.reject .pxc p 0x9210C w 1
      else
        let d := d.setF PXC_DEF_ADDR_ADDR (a + 1)
        if a < 66048 then { d with defs := SMap.set zeroWord d.defs a w } else d) d
  | none =>
    if d.serves = false then d
    else if a < 66048 then on.output p [d.defWord a]
    else (let (w, d) := on.free; d.output p [w])

/-- PXC_DEF_DATA. -/
def execPxcDefData (p : Port) (v : Option Word) (s : State) : Out := onDev (defData p v) s

/-! ## The lens shading grid (R306, R307) -/

/-- (DESIGN CHOICE, log entry 112.) -/
def unityNode : Nat → Nat := fun _ => 0x2000
/-- (DEDUCED, log entry 75; DESIGN CHOICE, log entry 112.) -/
def Dev.lscNode (d : Dev) (bank a : Nat) : Nat := SMap.get unityNode d.lsc (bank * 25220 + a)

/-- Does an accepted commit of PXC name a bank to come active, other than the one that is (R307)? -/
def Dev.lscNamed (d : Dev) (bank : Nat) : Bool :=
  let a := PXC_LSC_CFG_BANK_SEL.addr 0 0
  let names (m : SMap Word) : Bool :=
    bitsOf (SMap.get resetWord m a) PXC_LSC_CFG_BANK_SEL.hi PXC_LSC_CFG_BANK_SEL.lo = bank
  bank != d.a PXC_LSC_CFG_BANK_SEL &&
    ((d.com.accepted.contains .pxc && d.com.pages.any fun e => e.1 = Page.pxc.code && names e.2.latched) ||
      ((d.com.gstate = .accepted || d.com.gstate = .pending) && names d.com.glob.latched))

/-- An access to LSC_DATA, which reaches the bank that is not active. (DEDUCED, log entry 75.) -/
def lscData (p : Port) (v : Option Word) (d : Dev) : Dev :=
  let a := d.f PXC_LSC_ADDR_ADDR
  let bank := 1 - d.a PXC_LSC_CFG_BANK_SEL
  match v with
  | some w =>
    gatePage p .pxc (fun d =>
      if d.lscNamed bank then d.reject .pxc p 0x92128 w 3
      else
        let d := d.setF PXC_LSC_ADDR_ADDR (a + 1)
        if a < 25220 then
          { d with lsc := SMap.set unityNode d.lsc (bank * 25220 + a) (w.toNat % 65536) }
        else d) d
  | none =>
    if d.serves = false then d
    else
      let d' := d.setF PXC_LSC_ADDR_ADDR (a + 1)
      if a < 25220 then d'.output p [BitVec.ofNat 32 (d.lscNode bank a)]
      else (let (w, d) := d'.free; d.output p [w &&& 0xFFFF#32])

/-- PXC_LSC_DATA. -/
def execPxcLscData (p : Port) (v : Option Word) (s : State) : Out := onDev (lscData p v) s

/-- The gain of a colour at a pixel (R306). -/
def Dev.lscGain (d : Dev) (col x y : Nat) : Rat :=
  if d.a PXC_LSC_CFG_EN = 0 then 1
  else
    let node (i j : Nat) : Rat := (d.lscNode (d.a PXC_LSC_CFG_BANK_SEL) (col * 6305 + 97 * j + i) : Rat) / 8192
    let i := x / 128
    let j := y / 128
    let fx : Rat := ((x % 128 : Nat) : Rat) / 128
    let fy : Rat := ((y % 128 : Nat) : Rat) / 128
    (1 - fx) * (1 - fy) * node i j + fx * (1 - fy) * node (i + 1) j +
      (1 - fx) * fy * node i (j + 1) + fx * fy * node (i + 1) (j + 1)

/-! ## Black levels (R302 to R305) -/

def noBl : Nat → Option BlSt := fun _ => none
/-- (DEDUCED, log entry 74.) -/
def blKey (stripe bank pass col : Nat) : Nat := ((stripe * 2 + bank) * 4 + pass) * 4 + col
def Dev.bl (d : Dev) (k : Nat) : Option BlSt := SMap.get noBl d.bls k

/-- Bank of a row of the own array. -/
def bankOf (rk : Nat) : Nat := if rk % 8240 < 4120 then 0 else 1

/-- The mean of a colour over a bank's dark rows, with how many pixels it has. (DEDUCED, log entry 74.) -/
def darkMean (f : Frame) (segs : List (Nat × SegOf Px1)) (stripe col : Nat) : Rat × Nat :=
  segs.foldl (fun (acc : Rat × Nat) e =>
    (e.2.px.zipIdx).foldl (fun (acc : Rat × Nat) (p : Px1 × Nat) =>
      if f.colour { rk := e.1, x := stripe * 128 + p.2 } = col ∧ p.1.sat = false ∧ p.1.imp = false then
        (acc.1 + p.1.v, acc.2 + 1)
      else acc) acc) (0, 0)

/-- The dark rows of a stripe, bank and pass that have left stage P1. -/
def darkSegs (x : PFrame) (pass bank stripe : Nat) : List (Nat × SegOf Px1) :=
  (List.range 24).filterMap fun r =>
    let rk := ownRow 0 bank r
    (segGet x.p1 pass rk stripe).map fun g => (rk, g)

/-- One colour's running value takes the mean. (DEDUCED, log entry 74.) -/
def blUpdate (u pass bank stripe : Nat) (segs : List (Nat × SegOf Px1)) (col : Nat) (d : Dev) : Dev :=
  let f := d.frame u
  let c := d.asOf u
  let (sum, n) := darkMean f segs stripe col
  if n < 384 then d
  else
    let m := sum / (n : Nat)
    let max' : Rat := (c.a PXC_BL_CFG_MAX : Rat) / (if f.tenBit then 4 else 1)
    if max' < absRat (m - c.pedOf f) then
      ((d.bump PXC_BL_RANGE).raise PXC_IRQ_RAW_BL_RANGE).onceFrame u 0x072 .pxc
    else
      let h := match segs with | e :: _ => e.2.hd | [] => {}
      let k := blKey stripe bank pass col
      let fresh : BlSt := { v := m, tenBit := f.tenBit, dur := h.dur, gain := h.gain, cg := h.cg }
      let b := match d.bl k with
        | some o =>
          if o.stale = false ∧ o.tenBit = f.tenBit ∧ o.dur = h.dur ∧ o.gain = h.gain ∧ o.cg = h.cg then
            { fresh with v := o.v + (m - o.v) / (2 ^ c.a PXC_BL_CFG_K : Nat) }
          else fresh
        | none => fresh
      let d := d.mapPf u fun x => { x with formed := x.formed ++ [k] }
      { d with bls := SMap.set noBl d.bls k (some b) }

/-- Stripes form their means, once in a pass, as all 24 dark rows have come: with fewer the level last formed stays
(R124, R304). (DEDUCED, log entry 74.) -/
def darkTaken (u pass bank : Nat) (stripes : List Nat) (d : Dev) : Dev :=
  stripes.foldl (fun d s =>
    let k := blKey s bank pass 0
    let segs := darkSegs (d.pf u) pass bank s
    if (d.pf u).judged.contains k ∨ segs.length < 24 then d
    else
      (List.range 4).foldl (fun d c => blUpdate u pass bank s segs c d)
        (d.mapPf u fun x => { x with judged := x.judged ++ [k] })) d

/-- The black level of a pixel of the own array (R303). (DEDUCED, log entry 74.) -/
def Dev.black (d : Dev) (c : Dev) (f : Frame) (h : SegHdr) (stripe bank pass col : Nat) : Rat :=
  let p : Rat := c.pedOf f
  if c.a PXC_BL_CFG_MODE = 0 then (c.a PXC_BL_FIXED_BL : Rat) / 16 / (if f.tenBit then 4 else 1)
  else match d.bl (blKey stripe bank pass col) with
    | none => p
    | some b =>
      let gains : Rat := (cgFactor h.cg : Rat) / (cgFactor b.cg : Nat) * quarterPow ((h.gain : Int) - b.gain)
      match c.a PXC_BL_CFG_MODE with
      | 1 => b.v
      | 2 => p + (b.v - p) * gains
      | _ => p + (b.v - p) * gains * ((h.dur : Rat) / b.dur)

/-! ## Substitution (R300, R301) -/

structure View2 where
  d : Dev
  c : Dev
  f : Frame
  x : PFrame
  pass : Nat

def View2.cell (n : View2) (p : Pos) : Option (SegHdr × Px1) :=
  (segGet n.x.p1 n.pass p.rk (p.x / n.f.segW)).map fun g =>
    (g.hd.at (p.x % n.f.segW), (g.px[p.x % n.f.segW]?).getD { v := 0 })

/-- Is a pixel a map defect? -/
def View2.bad (n : View2) (p : Pos) : Bool :=
  n.f.own && !(n.f.darkRow p.rk) && n.c.mapDefect p.x (p.rk % 8240 - 24)

/-- A neighbour usable for substitution: its value at the centre's exposure, and SAT. -/
def View2.nb (n : View2) (p : Pos) (h : SegHdr) (o : Int × Int) : Option (Rat × Bool) :=
  let ped : Rat := n.c.pedOf n.f
  match resolve n.f (fun rk s => (segGet n.x.raw n.pass rk s).isSome) p o with
  | none => none
  | some q => match n.cell q with
    | none => none
    | some (hj, v) =>
      if hj.fill ∨ v.imp ∨ n.bad q then none
      else (normFactor n.f h hj).map fun r => (ped + ((v.v : Rat) - ped) * r, v.sat)

/-- The directions H, V, D1 and D2 of a colour. -/
def directions (col : Nat) : List ((Int × Int) × (Int × Int)) :=
  if col = 4 then [((-1, 0), (1, 0)), ((0, -1), (0, 1)), ((-1, -1), (1, 1)), ((-1, 1), (1, -1))]
  else
    let k : Int := if col = 1 ∨ col = 2 then 1 else 2
    [((-2, 0), (2, 0)), ((0, -2), (0, 2)), ((-k, -k), (k, k)), ((-k, k), (k, -k))]

/-- The value of a substituted pixel, with SAT where a direction decides it. (DEDUCED, log entry 74.) -/
def View2.substitute (n : View2) (p : Pos) (h : SegHdr) : Option (Rat × Option Bool) :=
  let col := n.f.colour p
  let ds := (directions col).filterMap fun e =>
    match n.nb p h e.1, n.nb p h e.2 with
    | some a, some b => some (absRat (a.1 - b.1), (a.1 + b.1) / 2, a.2 && b.2)
    | _, _ => none
  match ds with
  | e :: t =>
    let best := t.foldl (fun (b e : Rat × Rat × Bool) => if e.1 < b.1 then e else b) e
    some (best.2.1, some best.2.2)
  | [] =>
    let l := (offsN8 col).filterMap fun o => (n.nb p h o).map (·.1)
    if l.isEmpty then none else some (median l, none)

/-- A pixel's output code (R283, R297). -/
def toP2 (c : Dev) (v : Rat) : Int :=
  let r := (v * 16 + 1 / 2).floor
  let r := if c.a PXC_OUT_CFG_CLAMP_NEG = 1 then max 0 r else r
  clampInt (-(2 ^ 20)) (2 ^ 20 - 1) r

/-- One pixel through stage P2; and 1 for a map defect, 2 for another substitution. -/
def View2.out (n : View2) (on : Bool) (h : SegHdr) (p : Pos) (v : Px1) : Px2 × Nat :=
  if h.fill then ({ v := 16 * (v.v : Int) }, 0)
  else
    let col := n.f.colour p
    let b : Rat :=
      if n.f.own ∧ on then n.d.black n.c n.f h (p.x / 128) (bankOf p.rk) n.pass col else n.c.pedOf n.f
    if on = false then
      ({ v := clampInt (-(2 ^ 20)) (2 ^ 20 - 1) (((v.v : Rat) - b) * 16 + 1 / 2).floor, sat := v.sat }, 0)
    else
      let g : Rat := if n.f.own then n.c.lscGain col p.x (p.rk % 8240 - 24) else 1
      let kind := if n.bad p then 1 else if v.imp && n.c.a PXC_DEF_CFG_DYN_EN = 1 then 2 else 0
      if kind = 0 then ({ v := toP2 n.c (((v.v : Rat) - b) * g), sat := v.sat }, 0)
      else match n.substitute p h with
        | some (w, s) => ({ v := toP2 n.c ((w - b) * g), sat := s.getD v.sat, subst := true }, kind)
        | none => ({ v := toP2 n.c 0, sat := v.sat, subst := true }, kind)

/-! ## The row -/

/-- All of a pass has left stage P1. -/
def Dev.p1Done (d : Dev) (u pass : Nat) : Bool :=
  let x := d.pf u
  d.rawDone u pass && x.raw.all fun p =>
    decide (p.1 / 128 / 2 ^ 30 ≠ pass) || (SMap.get (noSeg Px1) x.p1 p.1).isSome

/-- May stage P2 take a row: are the rows two below and two above it through stage P1? (DEDUCED, log entry 72.) -/
def Dev.p2Ready (d : Dev) (u pass rk : Nat) : Bool :=
  let f := d.frame u
  let x := d.pf u
  d.p1Done u pass || (f.own && f.sched = schedSTRIP && f.darkRow rk = false) ||
    (let (lo, hi) := f.band rk
     (List.range 5).all fun i =>
       let r := rk + i - 2
       decide (rk + i < 2 + lo) || decide (hi < r) ||
         (x.rowFull f pass r && decide ((rowSegKeys x.raw pass r).length ≤ (rowSegKeys x.p1 pass r).length)))

/-- An active row waits for the dark rows that came before it in its pass. -/
def darkPending (f : Frame) (x : PFrame) (pass : Nat) : Bool :=
  x.raw.any fun p =>
    decide (p.1 / 128 / 2 ^ 30 = pass) && f.darkRow (p.1 / 128 % 2 ^ 30) && (SMap.get (noSeg Px2) x.p2 p.1).isNone

/-- The frame uses an earlier black level (R304). -/
def blPrev (u : Nat) (d : Dev) : Dev :=
  if (d.frame u).flags.testBit ffBL_PREV then d
  else
    (((d.flagFrame u ffBL_PREV).raise PXC_IRQ_RAW_BL_PREV).bump PXC_BL_PREV_FRAMES).onceFrame u 0x073 .pxc

/-- A row goes through stage P2. -/
def pxcRow (u pass rk : Nat) (d : Dev) : Dev :=
  let f := d.frame u
  let x := d.pf u
  let todo := (rowSegKeys x.p1 pass rk).filter fun k => (SMap.get (noSeg Px2) x.p2 k).isNone
  let dark := f.darkRow rk
  if todo.isEmpty then d
  else if dark then
    let d := todo.foldl (fun d k =>
      d.mapPf u fun y => { y with p2 := SMap.set (noSeg Px2) y.p2 k (some { hd := {}, px := [] }) }) d
    if d.stage u stPXC then darkTaken u pass (bankOf rk) (todo.map fun k => k % 128) d else d
  else if d.p2Ready u pass rk = false ∨ darkPending f x pass then d
  else
    let on := d.stage u stPXC
    let n : View2 := { d, c := d.asOf u, f, x, pass }
    let done := todo.filterMap fun k => (SMap.get (noSeg Px1) x.p1 k).map fun g =>
      (k, g.hd, (g.px.zipIdx).map fun (p : Px1 × Nat) => n.out on (g.hd.at p.2) { rk, x := k % 128 * f.segW + p.2 } p.1)
    let d := done.foldl (fun d e =>
      d.mapPf u fun y => { y with p2 := SMap.set (noSeg Px2) y.p2 e.1 (some { hd := e.2.1, px := e.2.2.map (·.1) }) }) d
    let count (k : Nat) : Nat := done.foldl (fun n e => n + e.2.2.countP fun p => p.2 = k) 0
    let d := (d.add PXC_SUBST_MAP (count 1)).add PXC_SUBST_DYN (count 2)
    let prev := f.own && on && n.c.a PXC_BL_CFG_MODE != 0 && todo.any fun k =>
      (List.range 4).any fun col => col / 2 = rk % 2 && !(x.formed.contains (blKey (k % 128) (bankOf rk) pass col))
    if prev then blPrev u d else d

/-- PXC_ROW. -/
def execPxcRow (u pass rk : Nat) (s : State) : Out := onDev (pxcRow u pass rk) s

end Sys2Proof.Machine
end

