-- ==== Sys2Proof/Machine/Fusion.lean ====
section
/-! DEFINITION. Stage P3: the exposure scale, the merge of sub-exposures and the border treatment (R315 to
R325). The records of R318 are not stored on their own: they follow from the rows that stage P2 has given,
by the fold of `merge`, which rounds them as R318 says. -/
namespace Sys2Proof.Machine

/-! ## The exposure scale (R145, R315) -/

/-- H to the power 4, and to the power 256. -/
def SegHdr.h4 (h : SegHdr) : Nat := (h.dur * cgFactor h.cg) ^ 4 * 2 ^ h.gain
def SegHdr.h256 (h : SegHdr) : Nat := (h.dur * cgFactor h.cg) ^ 256 * 2 ^ (64 * h.gain)

/-- The factor whose 256th power is `t`: the device's own, which lies within 2^-16. -/
def factorOf (least : Rat) (t : Rat) : Rat :=
  let c := Config.factor t
  if 0 < c ∧ least ≤ c ∧ (1 - 1 / 65536) ^ 256 * t ≤ c ^ 256 ∧ c ^ 256 ≤ (1 + 1 / 65536) ^ 256 * t then c
  else
    let lim := (t * ((2 ^ 64) ^ 256 : Nat)).floor.toNat
    (bitSearch (fun n => decide (n ^ 256 ≤ lim)) 330 0 : Nat) / (2 ^ 64 : Nat)

/-- Tile of a pixel's segment, active rows. -/
def segTile (rk stripe : Nat) : Nat := tileNo stripe ((rk % 8240 - 24) / 128)

/-- E0 exposures of the tiles with rows in a frame: as read in pass 0, or as armed for it. (DEDUCED, log entry 76.) -/
def e0List (u : Nat) (d : Dev) : List SegHdr :=
  let f := d.frame u
  let read := ((d.pf u).raw.filterMap fun p =>
    if p.1 / 128 / 2 ^ 30 = 0 ∧ f.darkRow (p.1 / 128 % 2 ^ 30) = false then p.2.map (·.hd) else none)
  let armed := d.ary.tiles.filterMap fun p =>
    if d.readMask p.1 then
      (p.2.eventOf 0 f.k).map fun e => { dur := p.2.dAct.getD e.dur, cg := e.cg, gain := e.gain }
    else none
  read ++ (if d.ary.cur = some u ∧ d.ary.pass = 0 then armed else [])

/-- The exposure of greatest H. -/
def maxExp (l : List SegHdr) : SegHdr :=
  l.foldl (fun b h => if b.h4 < h.h4 then h else b) { dur := 0 }

/-- L_ref in 1/256 stop, to the nearest. (DEDUCED, log entry 76.) -/
def lrefCode (c : Dev) (f : Frame) (h : SegHdr) : Nat :=
  if f.own = false then 0
  else if c.a HDR_CFG_REF_MODE = 1 then c.a HDR_REF_H_LOG2H
  else Nat.log2 (2 * h.h256 ^ 2) / 2

/-- The frame reaches stage P3: its reference is fixed. (DEDUCED, log entry 76.) -/
def hdrBegin (u : Nat) (d : Dev) : Dev :=
  match (d.pf u).href with
  | some _ => d
  | none =>
    let f := d.frame u
    let h := if f.own then maxExp (e0List u d) else { dur := 1 }
    let d := d.mapPf u fun x => { x with href := some h }
    if f.own then d.setF HDR_REF_STAT_LOG2H (lrefCode (d.asOf u) f h) else d

/-- The factor of a pass's exposure in a frame. -/
def passFactor (c : Dev) (f : Frame) (ref h : SegHdr) : Rat :=
  if f.own = false then 1
  else if c.a HDR_CFG_REF_MODE = 1 then factorOf 0 (((2 ^ c.a HDR_REF_H_LOG2H : Nat) : Rat) / h.h256)
  else factorOf 1 ((ref.h256 : Rat) / h.h256)

/-! ## The merge (R316 to R319) -/

/-- A pass's pixel that takes part in the merge. -/
structure Take where
  v : Rat
  sat : Bool
  subst : Bool
  hd : SegHdr
  last : Bool

structure MergeAcc where
  acc : Rat := 0
  r : Rat := 1
  subst : Bool := false
  moved : Bool := false

/-- The record between passes (R318). -/
def MergeAcc.record (a : MergeAcc) (frac : Nat) : MergeAcc :=
  let n := clampInt (-(2 ^ 24)) (2 ^ 24) (a.acc * (2 ^ frac : Nat) + 1 / 2).floor
  { a with acc := (n : Rat) / (2 ^ frac : Nat), r := ((a.r * 32 + 1 / 2).floor : Rat) / 32 }

/-- One pass is merged (R317). -/
def mergeStep (c : Dev) (f : Frame) (ref : SegHdr) (a : MergeAcc) (p : Take) : MergeAcc :=
  if p.sat then a
  else
    let k := passFactor c f ref p.hd
    let n := p.v * k
    let sc : Rat := if f.tenBit then 4 else 1
    let kh := (c.a HDR_KNEE_HI : Rat) / sc
    let kl := (c.a HDR_KNEE_LO : Rat) / sc
    let lim := (c.a HDR_MOT_THR : Rat) / 16 * sigmaOf (c.noiseVar f p.hd p.v) * k
    let a := if c.a HDR_MOT_EN = 1 ∧ a.r < 1 ∧ lim < absRat (n - a.acc / (1 - a.r)) then
      { moved := true } else a
    let t := if p.last then 1 else clampRat 0 1 ((kh - p.v) / (kh - kl))
    { acc := a.acc + a.r * t * n, r := a.r * (1 - t), moved := a.moved,
      subst := a.subst || (p.subst && a.r * t != 0) }

/-- All passes that take part, longest first. The record is rounded after each of them but the tile's last
pass, which writes none (R318). -/
def merge (c : Dev) (f : Frame) (ref : SegHdr) : MergeAcc → List Take → MergeAcc
  | a, [] => a
  | a, p :: t =>
    let b := mergeStep c f ref a p
    merge c f ref (if p.last then b else b.record (c.a HDR_OUT_CFG_FRAC)) t

/-- The fused pixel. -/
def MergeAcc.px (a : MergeAcc) : Px3 :=
  if a.r < 1 then { e := a.acc / (1 - a.r), subst := a.subst } else { e := 0, unusable := true, subst := a.subst }

/-- What each pass that read a row gives a segment of it, with its index. -/
def readSegs (x : PFrame) (m rk stripe : Nat) : List (Nat × SegOf Px2) :=
  (List.range m).filterMap fun i => (segGet x.p2 i rk stripe).map fun g => (i, g)

/-- Those that take part in the merge, with the exclusions of R319. -/
def passSegs (f : Frame) (x : PFrame) (rk stripe : Nat) : List (Nat × SegOf Px2) :=
  let l := readSegs x f.m rk stripe
  if l.length = f.m ∧ l.all fun g => g.2.hd.ovw then l.drop (f.m - 1) else l.filter fun g => !g.2.hd.ovw

/-- The last pass in which the tile of a segment has rows. (DEDUCED, log entry 76.) -/
def tileLast (f : Frame) (x : PFrame) (rk stripe : Nat) : Option Nat :=
  ((List.range f.m).filter fun i => x.raw.any fun p =>
    let r := p.1 / 128 % 2 ^ 30
    decide (p.1 / 128 / 2 ^ 30 = i) && decide (p.1 % 128 = stripe) && !(f.darkRow r) &&
      decide (segTile r stripe = segTile rk stripe)).getLast?

/-- A segment of a fused row, and how many of its pixels were restarted. -/
def fuseSeg (c : Dev) (f : Frame) (x : PFrame) (ref : SegHdr) (rk stripe : Nat) : SegOf Px3 × Nat :=
  let gs := passSegs f x rk stripe
  let last := tileLast f x rk stripe
  let as := (List.range 128).map fun i =>
    merge c f ref {} (gs.map fun g =>
      let p := (g.2.px[i]?).getD { v := 0 }
      { v := (p.v : Rat) / 16, sat := p.sat, subst := p.subst, hd := g.2.hd, last := decide (some g.1 = last) })
  ({ hd := match (readSegs x f.m rk stripe).getLast? with | some g => g.2.hd | none => {}, px := as.map (·.px) },
    as.countP (·.moved))

/-- A segment of a pass that leaves as an image of its own, or of a satellite frame (R323 to R325). -/
def plainSeg (k : Rat) (g : SegOf Px2) : SegOf Px3 :=
  { hd := g.hd, px := g.px.map fun p => { e := (p.v : Rat) / 16 * k, unusable := p.sat, subst := p.subst } }

/-- Does the frame leave stage P3 fused? -/
def Dev.fuses (d : Dev) (u : Nat) : Bool :=
  (d.frame u).own && d.stage u stHDR && (d.asOf u).a HDR_CFG_MODE = 0

/-- Images that leave stage P3 for a frame: one, or one per pass. -/
def Dev.outPasses (d : Dev) (u : Nat) : Nat := if d.fuses u then 1 else (d.frame u).passes

/-- The output code of a pixel (R316), and whether a value was clamped. -/
def toY (c : Dev) (p : Px3) : PxY × Bool :=
  if p.unusable then ({ y := 2 ^ 24 - 1, sat := true, subst := p.subst }, false)
  else
    let n := (p.e * (2 ^ c.a HDR_OUT_CFG_FRAC : Nat) + 1 / 2).floor + c.a HDR_OUT_CFG_OFS
    let past := decide ((2 ^ 24 - 1 : Int) < n)
    ({ y := (clampInt 0 (2 ^ 24 - 1) n).toNat, sat := past, subst := p.subst }, past)

/-! ## Borders (R320, R321) -/

/-- The exposure of a tile in a pass, where it has rows in it. -/
def tileHdr (f : Frame) (x : PFrame) (pass t : Nat) : Option SegHdr :=
  (x.raw.find? fun p =>
    let rk := p.1 / 128 % 2 ^ 30
    decide (p.1 / 128 / 2 ^ 30 = pass) && !(f.darkRow rk) && segTile rk (p.1 % 128) = t).bind fun p => p.2.map (·.hd)

/-- All borders of the array, vertical ones first. -/
def allBorders : List Border :=
  ((List.range 6144).filterMap fun t => if t % 96 < 95 then some ⟨true, t, t + 1⟩ else none) ++
    (List.range 6048).map fun t => ⟨false, t, t + 96⟩

/-- Pixels of one side at distance d from a border, in all strips: position of each. -/
def Border.side (g : Border) (low : Bool) (dist : Nat) (rows : List Nat) : List Pos :=
  let t := if low then g.a else g.b
  let x0 := t % 96 * 128
  let y0 := t / 96 * 128 + 24
  if g.vert then
    let x := if low then x0 + 128 - dist else x0 + dist - 1
    (rows.filter fun rk => decide (y0 ≤ rk % 8240) && decide (rk % 8240 < y0 + 128)).map fun rk => ⟨rk, x⟩
  else
    let y := if low then y0 + 128 - dist else y0 + dist - 1
    (rows.filter fun rk => rk % 8240 = y).flatMap fun rk => (List.range 128).map fun i => ⟨rk, x0 + i⟩

/-- A pixel of an image before its border treatment. -/
def px3At (x : PFrame) (op : Nat) (p : Pos) : Option Px3 :=
  (segGet x.p3 op p.rk (p.x / 128)).bind fun g => g.px[p.x % 128]?

/-- Passes whose exposures an image's border treatment looks at. -/
def Dev.imagePasses (d : Dev) (u op : Nat) : List Nat :=
  if d.fuses u then List.range (d.frame u).m else [op]

/-- Do the durations of two tiles differ by more than 64:1 in some pass? -/
def durWide (f : Frame) (x : PFrame) (ps : List Nat) (g : Border) : Bool :=
  ps.any fun i => match tileHdr f x i g.a, tileHdr f x i g.b with
    | some a, some b => decide (64 * a.dur < b.dur) || decide (64 * b.dur < a.dur)
    | _, _ => false

/-- Side and distance of a pixel of one of a border's two tiles: whether it is the lower side, and d. -/
def Border.dist (g : Border) (p : Pos) : Option (Bool × Nat) :=
  let t := segTile p.rk (p.x / 128)
  let i := if g.vert then p.x % 128 else (p.rk % 8240 - 24) % 128
  if t = g.a then some (true, 128 - i) else if t = g.b then some (false, i + 1) else none

/-- Is a border corrected (R320): have both tiles rows, and do their H differ? Then whether the lower tile has the smaller
one. -/
def Border.sLow (g : Border) (f : Frame) (x : PFrame) (pass : Nat) : Option Bool :=
  match tileHdr f x pass g.a, tileHdr f x pass g.b with
  | some a, some b => if a.h4 = b.h4 then none else some (decide (a.h4 < b.h4))
  | _, _ => none

/-- The blend width in pixels. -/
def blendW (c : Dev) : Nat := match c.a HDR_BLEND_W with | 0 => 0 | 1 => 4 | 2 => 8 | _ => 16

/-- Is a border of an image corrected, with the blend on? -/
def Dev.corrects (d : Dev) (u op : Nat) (g : Border) : Bool :=
  blendW (d.asOf u) != 0 && (g.sLow (d.frame u) (d.pf u) (if d.fuses u then 0 else op)).isSome

/-- Is the band of a border of an image substituted (R321)? R320's condition on E0 bounds its correction alone (R571).
(DEDUCED, log entry 76.) -/
def Dev.bands (d : Dev) (u op : Nat) (g : Border) : Bool :=
  decide ((d.asOf u).a HDR_BLEND_BAND = 1) && durWide (d.frame u) (d.pf u) (d.imagePasses u op) g

/-- The four borders of a pixel's tile, vertical ones first. -/
def bordersOf (t : Nat) : List Border :=
  (if 0 < t % 96 then [⟨true, t - 1, t⟩] else []) ++ (if t % 96 < 95 then [⟨true, t, t + 1⟩] else []) ++
    (if 96 ≤ t then [⟨false, t - 96, t⟩] else []) ++ (if t < 6048 then [⟨false, t, t + 96⟩] else [])

/-- Is a pixel substituted in some band (R321)? -/
def Dev.inBand (d : Dev) (u op : Nat) (p : Pos) : Bool :=
  (bordersOf (segTile p.rk (p.x / 128))).any fun g => ((g.dist p).any fun s => s.2 = 1) && d.bands u op g

/-- Usable pixels of a colour at d = 3 to 6 on a side: their sum and count. -/
def sideMean (d : Dev) (u op : Nat) (g : Border) (low : Bool) (rows : List Nat) (col : Nat) : Rat × Nat :=
  let x := d.pf u
  ([3, 4, 5, 6].flatMap fun k => g.side low k rows).foldl (fun (acc : Rat × Nat) p =>
    match px3At x op p with
    | some v =>
      if (d.frame u).colour p = col ∧ v.unusable = false ∧ v.subst = false ∧ d.inBand u op p = false then
        (acc.1 + v.e, acc.2 + 1)
      else acc
    | none => acc) (0, 0)

/-- The factors of a border: for each colour that is corrected, M_L / M_S; and colours left alone. -/
def borderRatios (d : Dev) (u op : Nat) (g : Border) (sLow : Bool) (rows : List Nat) : List (Nat × Rat) × Nat :=
  (List.range 4).foldl (fun (acc : List (Nat × Rat) × Nat) col =>
    let s := sideMean d u op g sLow rows col
    let l := sideMean d u op g (!sLow) rows col
    let ms := s.1 / (s.2 : Nat)
    let ml := l.1 / (l.2 : Nat)
    if s.2 < 32 ∨ l.2 < 32 ∨ ms = 0 ∨ ((d.asOf u).a HDR_BLEND_MAXCORR : Rat) / 1024 < absRat (ml / ms - 1) then
      (acc.1, acc.2 + 1)
    else (acc.1 ++ [(col, ml / ms)], acc.2)) ([], 0)

/-- What the treatment of a border does: whether its band is substituted, the side of the smaller H, the
factor of each colour that is corrected, and the number of colours that are not. -/
structure BorderFix where
  g : Border
  band : Bool
  sLow : Bool
  ratios : List (Nat × Rat)
  skip : Nat

/-- The treatment of a border in an image. (DEDUCED, log entry 76.) -/
def Dev.borderFix (d : Dev) (u op : Nat) (g : Border) : Option BorderFix :=
  let x := d.pf u
  let sLow := ((g.sLow (d.frame u) x (if d.fuses u then 0 else op)).getD false)
  if d.corrects u op g then
    let r := borderRatios d u op g sLow (passRows x.p3 op)
    some { g, band := d.bands u op g, sLow, ratios := r.1, skip := r.2 }
  else if d.bands u op g then some { g, band := true, sLow, ratios := [], skip := 0 }
  else none

/-- The factor that a border gives a pixel (R320). -/
def BorderFix.factor (b : BorderFix) (w col : Nat) (p : Pos) : Rat :=
  match b.g.dist p, b.ratios.find? fun r => r.1 = col with
  | some (low, k), some r =>
    if low = b.sLow ∧ k ≤ w then 1 + (r.2 - 1) * ((w + 1 - k : Nat) : Rat) / (w + 1 : Nat) else 1
  | _, _ => 1

/-- A band pixel takes the mean of the two at offsets −2 and +2 across its border (R321). Where one of them
has no usable value, the result is open. (DEDUCED, log entry 76.) -/
def bandPixel (x : PFrame) (op : Nat) (g : Border) (p : Pos) (d : Dev) : Px3 × Dev :=
  let q (k : Int) : Pos := if g.vert then ⟨p.rk, (p.x + k).toNat⟩ else ⟨(p.rk + k).toNat, p.x⟩
  let d := (d.bump HDR_BAND_PX).raise HDR_IRQ_RAW_BAND
  match px3At x op (q (-2)), px3At x op (q 2) with
  | some a, some b =>
    if a.unusable ∨ b.unusable then (let (w, d) := d.free; ({ e := (w.toNat : Rat), subst := true }, d))
    else ({ e := (a.e + b.e) / 2, subst := true }, d)
  | _, _ => let (w, d) := d.free; ({ e := (w.toNat : Rat), subst := true }, d)

/-- The border treatment of a pixel: first the band, then the factors of the borders it is near. -/
def borderPixel (u op : Nat) (fs : List BorderFix) (p : Pos) (v : Px3) (d : Dev) : Px3 × Dev :=
  let (v, d) := match fs.find? fun b => b.band && ((b.g.dist p).any fun s => s.2 = 1) with
    | some b => bandPixel (d.pf u) op b.g p d
    | none => (v, d)
  let col := (d.frame u).colour p
  ({ v with e := fs.foldl (fun e b => e * b.factor (blendW (d.asOf u)) col p) v.e }, d)

/-- Colours left alone at borders are counted, once for each border of an image. -/
def borderSkips (u op : Nat) (fs : List BorderFix) (d : Dev) : Dev :=
  let new := fs.filter fun b => !((d.pf u).borders.contains (op, b.g))
  (d.add HDR_BORDER_SKIP (new.foldl (fun n b => n + b.skip) 0)).mapPf u fun x =>
    { x with borders := x.borders ++ new.map fun b => (op, b.g) }

/-! ## The row -/

/-- All of a pass has left stage P2. -/
def Dev.p2Done (d : Dev) (u pass : Nat) : Bool :=
  let x := d.pf u
  d.p1Done u pass && x.raw.all fun p =>
    decide (p.1 / 128 / 2 ^ 30 ≠ pass) || (SMap.get (noSeg Px2) x.p2 p.1).isSome

/-- Passes an image is made of have all left stage P2. -/
def Dev.imageIn (d : Dev) (u op : Nat) : Bool := (d.imagePasses u op).all fun i => d.p2Done u i

/-- Is an image treated at its borders? -/
def Dev.blends (d : Dev) (u : Nat) : Bool :=
  (d.frame u).own && d.stage u stHDR && (blendW (d.asOf u) != 0 || (d.asOf u).a HDR_BLEND_BAND = 1)

/-- An image is whole: every row has left stage P3. -/
def Dev.hdrDone (d : Dev) (u op : Nat) : Bool :=
  let f := d.frame u
  let x := d.pf u
  d.imageIn u op && x.p2.all fun p =>
      let rk := p.1 / 128 % 2 ^ 30
      !((d.imagePasses u op).contains (p.1 / 128 / 2 ^ 30)) || f.darkRow rk ||
        (segGet x.y op rk (p.1 % 128)).isSome

/-- Has a row of a pass fully left stage P2? -/
def Dev.rowIn (d : Dev) (u pass rk : Nat) : Bool :=
  let f := d.frame u
  let x := d.pf u
  x.rowFull f pass rk && decide ((rowSegKeys x.raw pass rk).length ≤ (rowSegKeys x.p2 pass rk).length)

/-- Segments of an image's row that stage P2 has given and stage P3 has not yet passed. -/
def Dev.hdrTodo (d : Dev) (u op rk : Nat) : List Nat :=
  let x := d.pf u
  (((d.imagePasses u op).flatMap fun i => (rowSegKeys x.p2 i rk).map fun k => k % 128).eraseDups).filter
    fun s => (segGet x.p3 op rk s).isNone

/-- Segments of an image's row leave stage P3: treated at their borders, then coded (R316, R320, R321). -/
def rowLeaves (u op rk : Nat) (d : Dev) : Dev :=
  let c := d.asOf u
  let keys := (rowSegKeys (d.pf u).p3 op rk).filter fun k => (SMap.get (noSeg PxY) (d.pf u).y k).isNone
  let gs := if d.blends u then ((keys.flatMap fun k => bordersOf (segTile rk (k % 128))).eraseDups).filter fun g =>
      g.vert || (d.pf u).p3.any fun e => decide (e.1 / 128 = rowKey op rk) &&
        ((g.dist ⟨rk, e.1 % 128 * 128⟩).any fun s => s.2 ≤ max 1 (blendW c))
    else []
  let fs := gs.filterMap (d.borderFix u op)
  let d := borderSkips u op fs d
  let d := keys.foldl (fun d k =>
    match SMap.get (noSeg Px3) (d.pf u).p3 k with
    | none => d
    | some g =>
      let (px, d) := g.px.zipIdx.foldl (fun (a : List Px3 × Dev) e =>
        let (v, d) := borderPixel u op fs ⟨rk, k % 128 * 128 + e.2⟩ e.1 a.2
        (a.1 ++ [v], d)) ([], d)
      let ys := px.map (toY c)
      let d := d.mapPf u fun x => { x with y := SMap.set (noSeg PxY) x.y k (some { hd := g.hd, px := ys.map (·.1) }) }
      let d := d.add HDR_SAT_OUT (ys.countP fun p => p.1.sat)
      if ys.any (·.2) then d.raise HDR_IRQ_RAW_SAT_OUT else d) d
  d.mapPf u fun x => if x.order.contains (rowKey op rk) then x else { x with order := x.order ++ [rowKey op rk] }

/-- Rows of its bank by which an image's rows are delayed (R322). -/
def Dev.hdrDelay (d : Dev) (u : Nat) : Nat :=
  if d.blends u then (if blendW (d.asOf u) = 0 then 2 else blendW (d.asOf u) + 6) else 0

/-- Is a border between two tiles of a tile row corrected in an image? -/
def Dev.vertCorrected (d : Dev) (u op rk : Nat) : Bool :=
  let t := segTile rk 0
  (List.range 95).any fun s => d.corrects u op ⟨true, t + s, t + s + 1⟩

/-- Rows at a horizontal border that a row near it reads, of those that have been read. -/
def Dev.hdrNeeds (d : Dev) (u op rk : Nat) : List Nat :=
  let x := d.pf u
  let y := rk % 8240 - 24
  let i := y % 128
  let near := max 1 (blendW (d.asOf u))
  let at' (k : Nat) : List Nat := (List.range 12).map fun j => k + j - 6
  ((if i < near ∧ 128 ≤ y then at' (rk - i) else []) ++ (if 128 ≤ i + near ∧ y < 8064 then at' (rk - i + 128) else [])).filter
    fun r => x.raw.any fun p => (d.imagePasses u op).contains (p.1 / 128 / 2 ^ 30) && p.1 / 128 % 2 ^ 30 = r

/-- May a row leave, with the rows of its bank that have come after it: R322's delay has passed, the rows near a horizontal
border are in and, where a vertical border of its tile row is corrected, the tile row is. (DESIGN CHOICE, log entry 118.) -/
def Dev.hdrMayLeave (d : Dev) (u op rk : Nat) (rows after : List Nat) : Bool :=
  decide (d.hdrDelay u ≤ after.length) && (d.blends u = false || ((d.hdrNeeds u op rk).all rows.contains &&
    (!d.vertCorrected u op rk || after.any fun r => segTile r 0 != segTile rk 0)))

/-- The bank of a row key. -/
def bankOfRow (rk : Nat) : Nat := if rk % 8240 < 4120 then 0 else 1

/-- Rows leave in the order in which they came, in each bank: when the delay of R322 has passed and the rows
that their treatment reads are in, or the image is whole. (DESIGN CHOICE, log entry 118.) -/
def hdrRelease (u op : Nat) (d : Dev) : Dev :=
  let x := d.pf u
  let whole := d.imageIn u op && ((d.imagePasses u op).flatMap (passRows x.p2)).all
    fun rk => (d.frame u).darkRow rk || (d.hdrTodo u op rk).isEmpty
  let rows := (x.entered.filter fun k => k / 2 ^ 30 = op).map fun k => k % 2 ^ 30
  let d := ((rows.zipIdx).foldl (fun (a : List Nat × Dev) e =>
    let (held, d) := a
    let (rk, i) := e
    let bank := if (d.frame u).own then bankOfRow rk else 0
    let after := (rows.drop (i + 1)).filter fun r => bankOfRow r = bank
    if whole ∨ (held.contains bank = false ∧ d.hdrMayLeave u op rk rows after) then
      (held, rowLeaves u op rk d)
    else (bank :: held, d)) ([], d)).2
  if whole ∧ d.blends u ∧ 0 < blendW (d.asOf u) then borderSkips u op (allBorders.filterMap (d.borderFix u op)) d else d

/-- A row of a pass goes through stage P3: without border treatment each segment that is there, else the whole row
(R322). (DESIGN CHOICE, log entry 118.) -/
def hdrRow (u pass rk : Nat) (d : Dev) : Dev :=
  let f := d.frame u
  let fuse := d.fuses u
  let op := if fuse then 0 else pass
  let ready := f.darkRow rk = false &&
    (d.imageIn u op || ((!d.blends u || d.rowIn u pass rk) &&
      (!fuse || (decide (pass + 1 = f.m) && (List.range (f.m - 1)).all fun i => d.p2Done u i))))
  let todo := (d.hdrTodo u op rk).filter fun s => d.imageIn u op || (segGet (d.pf u).p2 pass rk s).isSome
  if todo.isEmpty ∨ ready = false ∨ f.passes ≤ pass then hdrRelease u op d
  else
    let d := hdrBegin u d
    let x := d.pf u
    let c := d.asOf u
    let ref := x.href.getD {}
    let done := todo.map fun s =>
      if fuse then (s, fuseSeg c f x ref rk s)
      else match segGet x.p2 pass rk s with
        | some g => (s, plainSeg (if d.stage u stHDR then passFactor c f ref g.hd else 1) g, 0)
        | none => (s, { hd := {}, px := [] }, 0)
    let d := done.foldl (fun d e =>
      d.mapPf u fun y => { y with p3 := SMap.set (noSeg Px3) y.p3 (segKey op rk e.1) (some e.2.1) }) d
    let d := d.add HDR_MOTION_PX (done.foldl (fun n e => n + e.2.2) 0)
    let d := d.mapPf u fun y =>
      if y.entered.contains (rowKey op rk) then y else { y with entered := y.entered ++ [rowKey op rk] }
    hdrRelease u op d

end Sys2Proof.Machine
end

