-- ==== Sys2Proof/Machine/Geometry.lean ====
section
/-! DEFINITION. Stage P4: output descriptors, binning, scaling, flip, depth and the order of lines (R329 to
R335), and the frame header (R403). -/
namespace Sys2Proof.Machine

/-! ## Descriptors -/

/-- What an output descriptor does to a frame's image. -/
structure Geo where
  /-- Image of stage P3. -/
  op : Nat
  x0 : Nat
  y0 : Nat
  w : Nat
  h : Nat
  /-- Binning factor, and SUM. -/
  f : Nat
  sum : Bool
  scale : Bool
  ow : Nat
  oh : Nat
  flip : Nat
  bits : Nat
  shift : Nat
  mono : Bool
  strip : Bool
  cfa : Nat
  dest : Nat

def outBits : Nat → Nat
  | 0 => 8 | 1 => 10 | 2 => 12 | 3 => 14 | 4 => 16 | 5 => 20 | _ => 24

/-- Rows of a frame's image: lines of a satellite, of the active area, or of a strip frame. -/
def imageH (c : Dev) (f : Frame) : Nat :=
  if f.own then (if f.sched = schedSTRIP then 4 * c.a TRG_STRIP_CFG_COUNT else 8192) else f.h

def downTo (a n : Nat) : Nat := n / a * a
def upTo (a n : Nat) : Nat := (n + a - 1) / a * a

/-- The source rectangle of the kind SRC, aligned to `a`, in an image of W × H (R330). -/
def srcRect (c : Dev) (src win x0 y0 w h a iw ih : Nat) : Option (Nat × Nat × Nat × Nat) :=
  match src with
  | 0 => if x0 + w ≤ iw ∧ y0 + h ≤ ih then some (x0, y0, w, h) else none
  | 1 =>
    if c.ak WIN_DESC0_EN win = 0 then none
    else
      let l := downTo a (c.ak WIN_DESC0_X0 win)
      let t := downTo a (c.ak WIN_DESC0_Y0 win)
      let r := min (downTo a iw) (upTo a (c.ak WIN_DESC0_X0 win + c.ak WIN_DESC1_W win))
      let b := min (downTo a ih) (upTo a (c.ak WIN_DESC0_Y0 win + c.ak WIN_DESC1_H win))
      some (l, t, r - l, b - t)
  | _ => some (0, 0, downTo a iw, downTo a ih)

/-- What descriptor `n` makes of frame `u`, if it makes anything. -/
def Dev.geo (d : Dev) (u n : Nat) : Option Geo :=
  let c := d.asOf u
  let f := d.frame u
  let strip := f.own && f.sched = schedSTRIP
  let op := if d.fuses u then 0 else if f.own then c.ak GEO_OD0_PASS n else 0
  if c.ak GEO_OD0_EN n = 0 ∨ c.ak GEO_OD0_MEMBER n ≠ f.member ∨ d.stage u stGEO = false ∨
      f.pipe = false ∨ d.outPasses u ≤ op then none
  else
    let k := if strip then 1 else 2 ^ c.ak GEO_OD3_BIN n
    let scale := c.ak GEO_OD3_SCALE_EN n = 1
    let ih := imageH c f
    match srcRect c (c.ak GEO_OD0_SRC n) (c.ak GEO_OD0_WIN n) (c.ak GEO_OD1_X0 n) (if strip then 0 else c.ak GEO_OD1_Y0 n)
        (c.ak GEO_OD2_W n) (if strip then 0 else c.ak GEO_OD2_H n) (2 * k) f.width (if strip then 8192 else ih) with
    | none => none
    | some (x0, y0, w, h) =>
      let (y0, h) := if strip then (0, ih) else (y0, h)
      if w = 0 ∨ h = 0 then none
      else
        let ow := if scale then c.ak GEO_OD4_OUT_W n else w / k
        let oh := if scale then c.ak GEO_OD4_OUT_H n else h / k
        let flip := c.ak GEO_OD3_FLIP n
        some { op, x0, y0, w, h, f := k, sum := c.ak GEO_OD3_BIN_OP n = 1, scale, ow, oh, flip,
               bits := outBits (c.ak GEO_OD3_BITS n), shift := c.ak GEO_OD3_SHIFT n, mono := f.phase = 4, strip,
               cfa := if f.phase = 4 then 4 else Nat.xor f.phase flip, dest := c.ak GEO_OD3_DEST n }

/-- The offset of the output's values (R331, R403). -/
def Geo.ofs (g : Geo) (c : Dev) : Nat :=
  (if g.sum then g.f * g.f else 1) * c.a HDR_OUT_CFG_OFS

/-! ## Pixels -/

/-- A value on its way through stage P4: none where no input pixel was read. -/
structure PxG where
  v : Rat
  sat : Bool := false
  subst : Bool := false
  deriving DecidableEq, Repr

/-- Row key of an image row. -/
def Geo.rk (f : Frame) (y : Nat) : Nat := if f.own then y + 24 else y

/-- Row key that a strip line shows. (DEDUCED, log entry 78.) -/
def stripRk (c : Dev) (line : Nat) : Nat :=
  let bank := line % 4 / 2
  let r := (if bank = 0 then c.a TRG_STRIP_ROW_TOP else c.a TRG_STRIP_ROW_BOT) + line % 2
  ownRow (line / 4) bank r

/-- Row key of a row of the descriptor's image, which in a strip frame is made of its lines. -/
def Geo.rowAt (g : Geo) (c : Dev) (f : Frame) (y : Nat) : Nat := if g.strip then stripRk c y else Geo.rk f y

/-- The input pixel at a column and row key. -/
def Geo.input (g : Geo) (f : Frame) (x : PFrame) (col rk : Nat) : Option PxG :=
  ((segGet x.y g.op rk (col / f.segW)).bind fun s => s.px[col % f.segW]?).map fun p =>
    { v := p.y, sat := p.sat, subst := p.subst }

/-- The input pixels that a binned pixel combines (R331). -/
def Geo.block (g : Geo) (xb yb : Nat) : List (Nat × Nat) :=
  (List.range (g.f * g.f)).map fun i =>
    let dx := i % g.f
    let dy := i / g.f
    if g.mono then (g.x0 + xb * g.f + dx, g.y0 + yb * g.f + dy)
    else (g.x0 + xb / 2 * (2 * g.f) + xb % 2 + 2 * dx, g.y0 + yb / 2 * (2 * g.f) + yb % 2 + 2 * dy)

def Geo.binned (g : Geo) (c : Dev) (f : Frame) (x : PFrame) (xb yb : Nat) : Option PxG :=
  let ps := (g.block xb yb).filterMap fun q => g.input f x q.1 (g.rowAt c f q.2)
  match ps with
  | [] => none
  | _ =>
    let s := ps.foldl (fun n p => n + p.v) 0
    let sat := ps.any (·.sat)
    let subst := ps.any (·.subst)
    if g.sum then (if (16777215 : Rat) < s then some { v := 16777215, sat := true, subst } else some { v := s, sat, subst })
    else some { v := (s / (ps.length : Nat) + 1 / 2).floor, sat, subst }

/-- The cubic convolution kernel with a = −0.5 (R332). (DESIGN CHOICE, log entry 77.) -/
def cubic (t : Rat) : Rat :=
  let t := absRat t
  if t ≤ 1 then 3 / 2 * t ^ 3 - 5 / 2 * t ^ 2 + 1
  else if t < 2 then -(1 / 2) * t ^ 3 + 5 / 2 * t ^ 2 - 4 * t + 2
  else 0

/-- The taps of a phase at k = −1 to 2, in 1/256: the device's own where they sum to 1 and lie within one
unit of the kernel. (DESIGN CHOICE, log entry 77.) -/
def taps (ph : Nat) : List Int :=
  let exact := (List.range 4).map fun k => cubic ((ph : Rat) / 64 + 1 - (k : Nat)) * 256
  let own := (List.range 4).map (Config.cubicTap ph)
  let ok := (own.zip exact).all fun p => decide (absRat ((p.1 : Rat) - p.2) < 1)
  if ok ∧ own.foldl (· + ·) 0 = 256 then own
  else
    let r := exact.map fun q => (q + 1 / 2).floor
    let rest := 256 - r.foldl (· + ·) 0
    let k := if ph < 32 then 1 else 2
    setAt r k ((r[k]?).getD 0 + rest)

/-- First sample and phase of an output sample. -/
def scalePos (wp wq j : Nat) : Int × Nat :=
  let u : Rat := ((j : Rat) + 1 / 2) * ((wp : Rat) / wq) - 1 / 2
  let b := u.floor
  let q := (u - b) * 64
  let ph := q.floor.toNat + (if q ≠ q.floor ∧ Config.phaseUp (u - b) then 1 else 0)
  if ph = 64 then (b + 1, 0) else (b, ph)

/-- Samples and weights of an output sample along one axis of a plane. -/
def scaleTaps (wp wq j : Nat) : List (Nat × Int) :=
  let (b, ph) := scalePos wp wq j
  ((taps ph).zipIdx).map fun (t : Int × Nat) => (reflectIn 0 (wp - 1) (b + t.2 - 1), t.1)

/-- Planes per axis: 2, or 1 for MONO. -/
def Geo.planes (g : Geo) : Nat := if g.mono then 1 else 2

/-- Binned rows that an output row depends on, with weights. (DEDUCED, log entry 78.) -/
def Geo.rowTaps (g : Geo) (yo : Nat) : List (Nat × Int) :=
  if g.scale then
    let k := g.planes
    (scaleTaps (g.h / g.f / k) (g.oh / k) (yo / k)).map fun t => (t.1 * k + yo % k, t.2)
  else [(yo, 256)]
/-- (DEDUCED, log entry 78.) -/
def Geo.colTaps (g : Geo) (xo : Nat) : List (Nat × Int) :=
  if g.scale then
    let k := g.planes
    (scaleTaps (g.w / g.f / k) (g.ow / k) (xo / k)).map fun t => (t.1 * k + xo % k, t.2)
  else [(xo, 256)]

/-- An output pixel before the depth is set. Unread input counts as 0 in a resampled pixel.
(DEDUCED, log entry 78.) -/
def Geo.pixel (g : Geo) (c : Dev) (f : Frame) (x : PFrame) (xo yo : Nat) : Option PxG :=
  if g.scale then
    let ts := (g.rowTaps yo).flatMap fun r => (g.colTaps xo).map fun k => (k.1, r.1, k.2 * r.2)
    let ps := (ts.filter fun t => t.2.2 != 0).map fun t => (g.binned c f x t.1 t.2.1, t.2.2)
    if ps.all fun p => p.1.isNone then none
    else some { v := ps.foldl (fun (n : Rat) p => match p.1 with | some q => n + q.v * p.2 | none => n) 0 / 65536,
                sat := ps.any fun p => p.1.any (·.sat), subst := ps.any fun p => p.1.any (·.subst) }
  else g.binned c f x xo yo

/-- The output code (R334). -/
def Geo.code (g : Geo) (p : Option PxG) : PxY :=
  match p with
  | none => { y := 0 }
  | some p =>
    let top : Int := 2 ^ g.bits - 1
    let v := if g.shift = 0 then p.v.floor else ((p.v + (2 ^ (g.shift - 1) : Nat)) / (2 ^ g.shift : Nat)).floor
    { y := if p.sat then top.toNat else (clampInt 0 top v).toNat, sat := p.sat, subst := p.subst }

/-! ## Lines (R335, R404) -/

/-- Row keys of the image that an output row depends on. (DEDUCED, log entry 78.) -/
def Geo.rowsOf (g : Geo) (c : Dev) (f : Frame) (yo : Nat) : List Nat :=
  ((g.rowTaps yo).flatMap fun t => (List.range g.f).map fun j =>
    let y := if g.mono then g.y0 + t.1 * g.f + j else g.y0 + t.1 / 2 * (2 * g.f) + t.1 % 2 + 2 * j
    g.rowAt c f y).eraseDups

/-- Place of a row in the order in which rows left stage P3. -/
def arrival (x : PFrame) (op rk : Nat) : Option Nat :=
  let i := x.order.idxOf (rowKey op rk)
  if i < x.order.length then some i else none

/-- The pixels of an output row, in the order of x′, and how many had no input. -/
def Geo.row (g : Geo) (c : Dev) (f : Frame) (x : PFrame) (yo : Nat) : List PxY × Nat :=
  let ps := (List.range g.ow).map fun xo => g.pixel c f x xo yo
  let ls := ps.map g.code
  (if g.flip.testBit 0 then ls.reverse else ls, ps.countP (·.isNone))

/-- Output line number. -/
def Geo.line (g : Geo) (yo : Nat) : Nat := if g.flip.testBit 1 then g.oh - 1 - yo else yo

/-- When an output row is due: the place of its last input row; at the end of the image where it has
none. In a strip frame only the strips that were read have lines. (DEDUCED, log entry 78.) -/
def Geo.due (g : Geo) (c : Dev) (f : Frame) (x : PFrame) (whole : Bool) (yo : Nat) : Option Nat :=
  let as := (g.rowsOf c f yo).map (arrival x g.op)
  let got := as.filterMap id
  if as.all (·.isSome) then some (got.foldl max 0)
  else if whole then
    (if !got.isEmpty then some (got.foldl max 0) else if g.strip then none else some x.order.length)
  else none

/-- The next output row: of those due and not emitted, the one due first. -/
def Geo.next (g : Geo) (c : Dev) (f : Frame) (x : PFrame) (o : OutFr) (whole : Bool) : Option Nat :=
  let todo := (List.range g.oh).filter fun yo => !(o.lines.any fun l => l.1 = g.line yo)
  ((todo.filterMap fun yo => (g.due c f x whole yo).map fun t => (t, yo)).foldl (fun b (e : Nat × Nat) =>
    match b with
    | some (m : Nat × Nat) => if e.1 < m.1 then some e else some m
    | none => some e) none).map (·.2)

/-! ## The frame header (R403) -/

/-- The FRAME_START payload; DROPPED is filled in as it leaves. -/
def frameHeader (c : Dev) (f : Frame) (href : Option SegHdr) (source index pass height width bits cfa format shift ofs size : Nat) :
    List Byte :=
  let mode := pass % 4 + 4 * ((f.passes - 1) % 4) + 16 * b2n (f.own && f.tenBit) + 32 * b2n (f.own && f.bank = 1)
  let xs := (List.range 4).flatMap fun i => u32 (if f.own then (f.xs[i]?).getD 0 else 0)
  stampBlock f.stamp ++ u64 f.fid ++ u32 f.gen ++ u8 f.member ++ u8 source ++ u8 index ++ u8 mode ++
    u32 height ++ u16 width ++ u8 bits ++ u8 cfa ++ u8 format ++ u8 f.depth ++
    u16 (match href with | some h => lrefCode c f h | none => 0) ++ u8 (c.a HDR_OUT_CFG_FRAC) ++ u8 shift ++ u16 0 ++
    u32 ofs ++ u32 (if f.own then f.ctxSeq else 0) ++ xs ++ u32 f.expUs ++ u64 f.satTime ++ u32 size ++
    List.replicate 32 0#8

/-- A frame's stream on a queue. -/
def Dev.frameStream (d : Dev) (u q pass flags : Nat) (start : List Byte) : Nat × Dev :=
  let f := d.frame u
  d.openStream { frame := u, q, start, tag := frameTag f.member pass f.fid, aux := f.stamp.ticks % 2 ^ 32, flags }

/-! ## The output -/

def noOutFr : Nat → OutFr := fun _ => {}
def Dev.outFr (d : Dev) (u n : Nat) : OutFr := SMap.get noOutFr (d.pf u).outs n
def Dev.setOutFr (d : Dev) (u n : Nat) (o : OutFr) : Dev :=
  d.mapPf u fun x => { x with outs := SMap.set noOutFr x.outs n o }

/-- Flags of an output: SEPARATE, and OVERWRITTEN where a row it delivers was marked (R319, R323). -/
def Dev.outFlags (d : Dev) (u : Nat) (g : Geo) : Nat :=
  let f := d.frame u
  let c := d.asOf u
  let x := d.pf u
  let rows := (List.range g.oh).flatMap (g.rowsOf c f)
  let past := x.raw.any fun p =>
    (d.imagePasses u g.op).contains (p.1 / 128 / 2 ^ 30) && rows.contains (p.1 / 128 % 2 ^ 30) &&
      (match p.2 with | some s => s.hd.ovw | none => false)
  (if f.own ∧ d.fuses u = false then 2 ^ ffSEPARATE else 0) + (if f.own ∧ past then 2 ^ ffOVERWRITTEN else 0)

/-- Bytes of an image's packed pixels. -/
def packedSize (lines width bits : Nat) : Nat := lines * ((width * bits + 7) / 8)

/-- The output of a frame begins. -/
def geoOpen (u n : Nat) (g : Geo) (d : Dev) : Dev :=
  let c := d.asOf u
  let f := d.frame u
  let o := d.outFr u n
  if o.opened then d
  else
    let start := frameHeader c f (d.pf u).href 0 n g.op g.oh g.ow g.bits g.cfa (if g.strip then 3 else 0) g.shift (g.ofs c)
      (packedSize g.oh g.ow g.bits)
    if g.dest.testBit 3 then
      let (k, d) := d.frameStream u (c.ak DLV_BIND_GEO_QID n) g.op 0 start
      d.setOutFr u n { o with opened := true, dlv := some k }
    else d.setOutFr u n { o with opened := true }

/-- Tick count of a strip line's trigger; of a resampled line, that of the last strip it depends on.
(DEDUCED, log entry 78.) -/
def lineTrt (g : Geo) (c : Dev) (f : Frame) (x : PFrame) (yo : Nat) : Nat :=
  if g.strip then
    ((g.rowsOf c f yo).filterMap fun rk =>
      ((rowSegKeys x.y g.op rk).head?.bind fun k => SMap.get (noSeg PxY) x.y k).map (·.hd.trt)).foldl max 0
  else 0

/-- An output row leaves. -/
def geoEmit (u n : Nat) (g : Geo) (yo : Nat) (d : Dev) : Dev :=
  let c := d.asOf u
  let f := d.frame u
  let x := d.pf u
  let o := d.outFr u n
  let (ps, miss) := g.row c f x yo
  let keep := if g.dest % 8 = 0 then [] else ps
  let d := d.setOutFr u n { o with lines := o.lines ++ [(g.line yo, keep)], unread := o.unread + miss }
  let d := d.add GEO_UNREAD_PX miss
  match o.dlv with
  | some k => d.streamLine k (g.line yo) 0 (lineTrt g c f x yo) g.bits 1 1 (ps.map (·.y))
  | none => d

/-- The output of a frame ends. -/
def geoClose (u n : Nat) (g : Geo) (d : Dev) : Dev :=
  let o := d.outFr u n
  let fl := d.outFlags u g + (if 0 < o.unread then 2 ^ ffINCOMPLETE else 0)
  let d := if 0 < o.unread then d.raise GEO_IRQ_RAW_UNREAD else d
  let d := d.setOutFr u n { o with closed := true }
  match o.dlv with
  | some k => (d.setStream k { d.stream k with flags := fl }).closeStream k
  | none => d

/-- The oldest frame on which a descriptor has work left, of those that have reached stage P3. -/
def Dev.geoFrame (d : Dev) (n : Nat) : Option (Nat × Geo) :=
  d.pipe.findSome? fun p =>
    match d.geo p.1 n with
    | some g =>
      if (SMap.get noOutFr p.2.outs n).closed then none
      else if p.2.order.isEmpty && !(d.hdrDone p.1 g.op && !p.2.raw.isEmpty) then none
      else some (p.1, g)
    | none => none

/-- The next line of an output; after the last, the frame's end. -/
def geoLine (n : Nat) (d : Dev) : Dev :=
  match d.geoFrame n with
  | none => d
  | some (u, g) =>
    let d := geoOpen u n g d
    let whole := d.hdrDone u g.op
    let again (d : Dev) : Option Nat := g.next (d.asOf u) (d.frame u) (d.pf u) (d.outFr u n) whole
    match again d with
    | none => if whole then geoClose u n g d else d
    | some yo =>
      let d := geoEmit u n g yo d
      if whole ∧ (again d).isNone then geoClose u n g d else d

end Sys2Proof.Machine
end

