-- ==== Sys2Proof/Machine/Stats.lean ====
section
/-! DEFINITION. Stage P5: tile records, the frame AE histogram and histogram windows (R339 to R347). -/
namespace Sys2Proof.Machine

/-! ## Tile records (R340 to R343) -/

/-- A pixel at the NR tap, unless it is left out (R339). -/
def nrPixel (f : Frame) (x : PFrame) (pass rk col : Nat) : Option Px1 :=
  match segGet x.p1 pass rk (col / f.segW) with
  | some g =>
    if (g.hd.at (col % f.segW)).fill ∨ g.hd.ovw then none
    else match g.px[col % f.segW]? with
      | some p => if p.imp then none else some p
      | none => none
  | none => none

/-- Row keys of the rows of a tile that a pass read. -/
def tileRows (f : Frame) (x : PFrame) (pass t : Nat) : List Nat :=
  (passRows x.p1 pass).filter fun rk =>
    !(f.darkRow rk) && decide ((rk % 8240 - 24) / 128 = t / 96) && (segGet x.p1 pass rk (t % 96)).isSome

/-- The counted pixels of a tile, with their rows and columns. -/
def tilePixels (f : Frame) (x : PFrame) (pass t : Nat) : List (Nat × Nat × Px1) :=
  (tileRows f x pass t).flatMap fun rk => (List.range 128).filterMap fun i =>
    let col := t % 96 * 128 + i
    (nrPixel f x pass rk col).map fun p => (rk, col, p)

/-- Sharpness of a tile (R341), in quarters of an LSB in 10-bit mode. -/
def tileSharp (c : Dev) (f : Frame) (x : PFrame) (pass t : Nat) (green : List (Nat × Nat × Px1)) : Nat :=
  let q := if f.tenBit then 4 else 1
  let same (rk col : Nat) : Bool := col / 128 = t % 96 && (rk % 8240 - 24) / 128 = t / 96
  let e := green.foldl (fun n g =>
    let one (col : Nat) : Nat :=
      if same (g.1 + 1) col ∧ g.1 / 8240 = (g.1 + 1) / 8240 then
        match nrPixel f x pass (g.1 + 1) col with
        | some p =>
          let df := q * ((p.v : Int) - g.2.2.v).natAbs - c.a STA_TILE_CFG_CORE
          df * df
        | none => 0
      else 0
    n + one (g.2.1 + 1) + (if g.2.1 = 0 then 0 else one (g.2.1 - 1))) 0
  min (2 ^ 32 - 1) (e / (q * q * 2 ^ c.a STA_TILE_CFG_SHARP_SHIFT))

/-- The record of a tile in a pass. (DEDUCED, log entry 79.) -/
def tileRecord (c : Dev) (f : Frame) (x : PFrame) (pass t : Nat) : TileRec :=
  let px := tilePixels f x pass t
  let of (cs : List Nat) := px.filter fun p => cs.contains (f.colour { rk := p.1, x := p.2.1 })
  let green := of [1, 2]
  let red := of [0]
  let blue := of [3]
  let sum (l : List (Nat × Nat × Px1)) : Nat := l.foldl (fun n p => n + p.2.2.v) 0
  let bin (p : Nat × Nat × Px1) : Nat := min 15 (p.2.2.v * 16 / 2 ^ f.depth)
  let absent := (tileRows f x pass t).isEmpty
  { hist := (List.range 16).map fun k => green.countP fun p => bin p = k,
    sumG := sum green, nG := green.length, nSat := green.countP fun p => p.2.2.sat,
    sumR := sum red, sumB := sum blue, sharp := tileSharp c f x pass t green,
    nR := red.length, nB := blue.length, absent,
    excl := ctxExcl (f.ctxWords t) }

/-- A record as it is sent. -/
def TileRec.bytes (r : TileRec) (pass t : Nat) : List Byte :=
  r.hist.flatMap u16 ++ u32 r.sumG ++ u16 r.nG ++ u16 r.nSat ++ u32 r.sumR ++ u32 r.sumB ++ u32 r.sharp ++
    u16 r.nR ++ u16 r.nB ++ u8 pass ++ u8 (b2n r.absent + 2 * b2n r.excl) ++ u16 t ++ u32 0

/-- The frame AE histogram (R342). (DEDUCED, log entry 79.) -/
def aeHist (f : Frame) (x : PFrame) : List Nat :=
  let tiles := (List.range 6144).filter fun t => !(ctxExcl (f.ctxWords t))
  let vs := tiles.flatMap fun t => ((tilePixels f x 0 t).filter fun p =>
    let k := f.colour { rk := p.1, x := p.2.1 }
    k = 1 || k = 2).map fun p => p.2.2.v / 2 ^ (f.depth - 8)
  (List.range 256).map fun b => vs.countP fun v => v = b

/-- Hand a packet of statistics to delivery. -/
def Dev.sendStat (d : Dev) (q typ : Nat) (f : Frame) (pass : Nat) (pay : List Byte) : Dev :=
  { d with reqs := d.reqs ++ [.stat q typ (frameTag f.member pass f.fid) (f.stamp.ticks % 2 ^ 32) pay] }

/-- A histogram payload (R347). -/
def histPayload (f : Frame) (win tap flags : Nat) (bins : List Nat) : List Byte :=
  u64 f.fid ++ u8 f.member ++ u8 win ++ u8 tap ++ u8 flags ++ u32 (bins.foldl (· + ·) 0) ++ bins.flatMap u32

/-- Records in packets of up to 63 (R345). -/
def recPackets (f : Frame) (pass : Nat) (rs : List TileRec) : List (List Byte) :=
  ((chunksOf rs.length 63 rs).zipIdx).map fun (c : List TileRec × Nat) =>
    let t0 := 63 * c.2
    u64 f.fid ++ u8 0 ++ u8 pass ++ u16 t0 ++ u16 c.1.length ++ u16 0 ++
      (c.1.zipIdx).flatMap fun (r : TileRec × Nat) => r.1.bytes pass (t0 + r.2)

def noRecs : Nat → RecSet := fun _ => {}

/-- By tile, the cycle at which the first of its exposures that a pass read began. -/
def tileBegan (x : PFrame) (pass : Nat) : List (Option Nat) :=
  let l : List (Nat × Nat) := x.raw.filterMap fun p =>
    if p.1 / 128 / 2 ^ 30 = pass ∧ 24 ≤ p.1 / 128 % 2 ^ 30 % 8240 then
      p.2.map fun g => (segTile (p.1 / 128 % 2 ^ 30) (p.1 % 128), g.hd.began) else none
  (List.range 6144).map fun t => ((l.filter fun e => e.1 = t).map (·.2)).min?

/-- The records of a pass go to firmware, unless TILE_CFG.EN is 0 (R344), and to delivery. (DEDUCED, log entry 79.) -/
def handRecords (u pass : Nat) (d : Dev) : Dev :=
  let c := d.asOf u
  let f := d.frame u
  let x := d.pf u
  let d := d.setPf u { x with handed := x.handed ++ [pass] }
  if d.stage u stSTA = false then d
  else
    let on := c.a STA_TILE_CFG_EN = 1
    let formed := on && (c.a STA_TILE_CFG_PASSES).testBit pass
    let rs := if formed then (List.range 6144).map (tileRecord c f x pass) else []
    let ae := if pass = 0 then aeHist f x else []
    let d := if on then
      (let r : RecSet := { fid := f.fid, k := f.k, gen := f.gen, ped := c.pedOf f, bits := f.depth, bank := f.bank,
                           ctxs := f.ctxs, m := f.m, began := tileBegan x pass, recs := rs, ae }
       { d with recs := SMap.set noRecs d.recs pass r })
      else d
    if c.a STA_TILE_CFG_HOST = 0 then d
    else
      let d := (if formed then recPackets f pass rs else []).foldl
        (fun d p => d.sendStat (c.a STA_QID_TILE_QID) 0x05 f pass p) d
      if pass = 0 then d.sendStat (c.a STA_QID_HIST_QID) 0x06 f 0 (histPayload f 0xFF 0 0 ae) else d

/-! ## Histogram windows (R346, R347) -/

/-- A sample: four times its value over the offset, and SAT. -/
def winSample (f : Frame) (get : Nat → Nat → Option (Nat × Bool)) (ofs : Nat) (chan x y : Nat) : Option (Int × Bool) :=
  let one : Option (Int × Bool) := (get x y).map fun p => (4 * ((p.1 : Int) - ofs), p.2)
  if f.phase = 4 then one
  else if chan = 3 then
    if x % 2 = 1 ∨ y % 2 = 1 then none
    else match get x y, get (x + 1) y, get x (y + 1), get (x + 1) (y + 1) with
      | some a, some b, some c, some e =>
        some (((a.1 + b.1 + c.1 + e.1 : Nat) : Int) - 4 * ofs, a.2 || b.2 || c.2 || e.2)
      | _, _, _, _ => none
  else
    let k := cfaColour f.phase x y
    let mine : Bool := match chan with | 0 => k == 0 | 1 => k == 1 || k == 2 | _ => k == 3
    if mine then one else none

/-- The bin of a sample. -/
def winBin (log : Bool) (shift lmin : Nat) (s : Int × Bool) : Nat :=
  if s.2 then 255
  else if log then
    if s.1 ≤ 0 then 0
    else (clampInt 0 255 ((Nat.log2 (s.1.toNat ^ 16) : Int) - 32 - 16 * lmin)).toNat
  else (clampInt 0 255 (s.1 / (4 * (2 ^ shift : Nat) : Int))).toNat

/-- Rows of an image as row keys: of a strip frame, those read. -/
def imageRows (f : Frame) (x : PFrame) (y0 h : Nat) : List Nat :=
  if f.own ∧ f.sched = schedSTRIP then
    (((x.raw.map fun p => p.1 / 128 % 2 ^ 30).eraseDups).filter fun rk => !(f.darkRow rk))
  else (List.range h).map fun i => Geo.rk f (y0 + i)

/-- A pixel at the FUSED tap, unless it is left out. -/
def fusedPixel (d : Dev) (u : Nat) (f : Frame) (x : PFrame) (op rk col : Nat) : Option (Nat × Bool) :=
  match segGet x.y op rk (col / f.segW) with
  | some g =>
    let past := (d.imagePasses u op).any fun i => match segGet x.raw i rk (col / f.segW) with
      | some s => s.hd.ovw || (s.hd.at (col % f.segW)).fill
      | none => false
    if past then none else (g.px[col % f.segW]?).map fun p => (p.y, p.sat)
  | none => none

/-- The bins of a window over one image. (DEDUCED, log entry 79.) -/
def winBins (d : Dev) (u n op : Nat) (passes : List Nat) (rect : Nat × Nat × Nat × Nat) : List Nat :=
  let c := d.asOf u
  let f := d.frame u
  let x := d.pf u
  let fused := c.ak STA_HW0_TAP n = 1
  let ofs := if fused then c.a HDR_OUT_CFG_OFS else c.pedOf f
  let (x0, y0, w, h) := rect
  let get (i col y : Nat) : Option (Nat × Bool) :=
    if fused then fusedPixel d u f x op y col
    else (nrPixel f x i y col).map fun p => (p.v, p.sat)
  let ss := (if fused then [op] else passes).flatMap fun i => (imageRows f x y0 h).flatMap fun rk => (List.range w).filterMap fun k =>
    winSample f (get i) ofs (c.ak STA_HW0_CHAN n) (x0 + k) rk
  let bs := ss.map (winBin (c.ak STA_HW0_SCALE n = 1) (c.ak STA_HW0_SHIFT n) (c.ak STA_HW3_LMIN n))
  (List.range 256).map fun b => bs.countP fun v => v = b

/-- A window's histogram of an image is sent, once. -/
def winSend (u n op : Nat) (d : Dev) : Dev :=
  let c := d.asOf u
  let f := d.frame u
  let x := d.pf u
  let fused := c.ak STA_HW0_TAP n = 1
  let sep := f.own && !(d.fuses u)
  let passes := d.imagePasses u op
  let ready := if fused then d.hdrDone u op else passes.all fun i => d.p1Done u i
  let key := n * 4 + op
  if c.ak STA_HW0_EN n = 0 ∨ c.ak STA_HW0_MEMBER n ≠ f.member ∨ ready = false ∨ x.hists.contains key ∨ x.raw.isEmpty ∨
      d.stage u stSTA = false then d
  else
    let d := d.setPf u { x with hists := x.hists ++ [key] }
    let strip := f.own && f.sched = schedSTRIP
    match srcRect c (c.ak STA_HW0_SRC n) (c.ak STA_HW0_WIN n) (c.ak STA_HW1_X0 n) (if strip then 0 else c.ak STA_HW1_Y0 n)
        (c.ak STA_HW2_W n) (if strip then 0 else c.ak STA_HW2_H n) 2 f.width (if f.own then 8192 else f.h) with
    | none => d
    | some r =>
      let flags := if sep then 1 + 4 * op else 0
      d.sendStat (c.a STA_QID_HIST_QID) 0x06 f op
        (histPayload f n (b2n fused) flags (winBins d u n op passes r))

/-- Windows of a frame whose pixels have all passed their tap. (DEDUCED, log entry 79.) -/
def histSweep (u : Nat) (d : Dev) : Dev :=
  (List.range (d.outPasses u)).foldl (fun d op => (List.range 16).foldl (fun d n => winSend u n op d) d) d

/-! ## The commands -/

/-- The oldest own-array frame a pass of which has left stage P1, with its records still here. -/
def Dev.recordsOf (d : Dev) (pass : Nat) : Option Nat :=
  (d.pipe.find? fun p =>
    let f := d.frame p.1
    f.own && f.pipe && decide (pass < f.m) && !(p.2.handed.contains pass) && !p.2.raw.isEmpty && d.p1Done p.1 pass).map (·.1)

def recordsReady (pass : Nat) (d : Dev) : Dev :=
  let d := match d.recordsOf pass with
    | some u => handRecords u pass d
    | none => d
  d.pipe.foldl (fun d p => histSweep p.1 d) d

/-- STA_RECORDS_READY. -/
def execStaRecordsReady (pass : Fin 4) (s : State) : Out := onDev (recordsReady pass) s

/-- NRD_ROW. -/
def execNrdRow (u pass rk : Nat) (s : State) : Out := onDev (fun d => histSweep u (nrdRow u pass rk d)) s

/-- HDR_ROW. -/
def execHdrRow (u pass rk : Nat) (s : State) : Out := onDev (fun d => histSweep u (hdrRow u pass rk d)) s

end Sys2Proof.Machine
end

