-- ==== Sys2Proof/Machine/Encode.lean ====
section
/-! DEFINITION. Stage P7: streams, rate rule, budgets, guard, slices and drops (R358 to R366). The bytes of
a codestream are the encoder's own, within the budget that the rules give. -/
namespace Sys2Proof.Machine

def noEnc : Nat → EncSt := fun _ => {}
def Dev.enc (d : Dev) (n : Nat) : EncSt := SMap.get noEnc d.encs n
def Dev.setEnc (d : Dev) (n : Nat) (x : EncSt) : Dev := { d with encs := SMap.set noEnc d.encs n x }

/-! ## Accepting a frame (R352, R358, R361, R362) -/

/-- Does a rate ceiling admit a frame with this tick count after the last? 0 is no ceiling here. -/
def rateAdmits (cfps : Nat) (last : Option Nat) (ticks : Nat) : Bool :=
  cfps = 0 || (match last with | some l => decide (l + 25 * 10 ^ 9 / cfps ≤ ticks) | none => true)

/-- What a stream is set up with for a frame: a change of it makes the next frame the first after a change.
(DEDUCED, log entry 82.) -/
def encSig (c : Dev) (f : Frame) (n : Nat) (source : List Nat) : List Nat :=
  ((List.range 3).map fun w => (c.actWord (0x97200 + 16 * n + 4 * w)).toNat) ++ source ++
    (if f.own then [b2n f.tenBit, f.m, f.sched, f.rows] else [])

/-- A stream accepts a frame of its source. (DEDUCED, log entry 82.) -/
def encAccept (n u : Nat) (source : List Nat) (job : EncJob) (d : Dev) : Dev :=
  let c := d.asOf u
  let f := d.frame u
  let e := d.enc n
  let sig := encSig c f n source
  let first := decide (e.sig ≠ sig)
  let guard := first && c.a ENC_CFG_GUARD = 1
  let full := c.ak ENC_ES1_BPP n * (job.width * job.height) / 128
  let compand := c.ak ENC_ES0_COMPAND n = 1
  let flags := job.flags ||| (if guard then 2 ^ ffRATE_GUARDED else 0) ||| (if compand then 2 ^ ffCOMPANDED else 0)
  let j := { job with flags, full, first, budget := if guard then full * 25 / 28 else full,
                      sliceH := if c.ak ENC_ES1_SLICE n = 1 then 32 else 16 }
  let d := if guard then d.bump ENC_GUARDED else d
  d.setEnc n { e with last := some f.stamp.ticks, considered := some u, jobs := e.jobs ++ [j],
                       sig := if d.ak ENC_ES0_EN n = 1 then sig else [] }

/-- A frame of a source begins: a stream that takes it under its rate rule accepts it. -/
def encConsider (n u : Nat) (source : List Nat) (job : EncJob) (d : Dev) : Dev :=
  let e := d.enc n
  if e.considered = some u then d
  else if d.stage u stENC ∧ rateAdmits ((d.asOf u).ak ENC_ES2_RATE_LIM n) e.last (d.frame u).stamp.ticks then
    encAccept n u source job d
  else d.setEnc n { e with considered := some u }

/-! ## Slices arrive (R366) -/

/-- The companded code of a value (R360). -/
def compandCode (y : Nat) : Nat :=
  if y < 8192 then y
  else
    let k := Nat.log2 y - 12
    8192 + (k - 1) * 4096 + (y - 2 ^ (12 + k)) / 2 ^ k

def noLine : Nat → List Nat := fun _ => []

/-- Slices that wait in a stream's buffer. -/
def EncSt.waiting (e : EncSt) : Nat := e.jobs.foldl (fun k j => k + j.queue.length) 0

/-- Lines of a slice of a frame. -/
def EncJob.sliceLines (j : EncJob) (s : Nat) : Nat := min j.sliceH (j.height - s * j.sliceH)

/-- A stream falls behind: its frame is closed early. (DEDUCED, log entry 82.) -/
def encDrop (n u : Nat) (d : Dev) : Dev :=
  let e := d.enc n
  let d := d.setEnc n { e with jobs := e.jobs.map fun j =>
    if j.u = u then { j with dropped := true, flags := orBit j.flags ffENC_DROPPED } else j }
  ((d.bump ENC_DROP).raise ENC_IRQ_RAW_DROP).onceFrame u 0x074 .enc

/-- Change a stream's work on a frame. -/
def EncSt.mapJob (e : EncSt) (u : Nat) (f : EncJob → EncJob) : EncSt :=
  { e with jobs := e.jobs.map fun j => if j.u = u then f j else j }

/-- A line of the source arrives; with the last line of a slice the slice does. -/
def encLine (n u line : Nat) (px : List Nat) (d : Dev) : Dev :=
  let e := d.enc n
  match e.jobs.find? fun j => j.u = u with
  | none => d
  | some j =>
    if j.dropped then d
    else
      let j' := { j with lines := SMap.set noLine j.lines line px }
      let s := line / j.sliceH
      let have' := ((List.range (j.sliceLines s)).all fun i => j'.lines.any fun p => p.1 = s * j.sliceH + i)
      let d := d.setEnc n (e.mapJob u fun _ => j')
      if have' = false ∨ j.seen.contains s then d
      else if 64 ≤ e.waiting then encDrop n u d
      else
        let e := d.enc n
        d.setEnc n (e.mapJob u fun j => { j with queue := j.queue ++ [s], seen := j.seen ++ [s] })

/-- Flags of the source's frame, as far as they are known (R406). -/
def encFlags (n u flags : Nat) (d : Dev) : Dev :=
  d.setEnc n ((d.enc n).mapJob u fun j => { j with flags := j.flags ||| flags })

/-- The source's frame has ended. -/
def encEnd (n u flags : Nat) (d : Dev) : Dev :=
  let d := encFlags n u flags d
  d.setEnc n ((d.enc n).mapJob u fun j => { j with ended := true })

/-! ## Coding (R359, R361) -/

/-- The chunk of a codestream. -/
def encChunk (n : Nat) (j : EncJob) (start bytes : List Byte) (d : Dev) : ChunkReq :=
  let f := d.frame j.u
  let fl := b2n (j.flags.testBit ffRATE_GUARDED) + 2 * b2n (j.flags.testBit ffENC_DROPPED) +
    4 * b2n (j.flags.testBit ffCOMPANDED)
  { kind := 0, stream := n, member := f.member, flags := fl, frame := f.fid, stamp := f.stamp, gen := f.gen,
    payload := bytes, u := some j.u, start, pass := j.op, lines := j.doneLines,
    ingest := u8 f.ingest ++ u8 0 ++ u16 f.linesValid ++ u32 f.linesSent }

/-- The frame's codestream is complete: it goes to its queue, and with its end to the history writer.
(DESIGN CHOICE, log entry 81; DEDUCED, log entry 82.) -/
def encFinish (n : Nat) (j : EncJob) (d : Dev) : Dev :=
  let c := d.asOf j.u
  let f := d.frame j.u
  let bytes := j.coded.flatMap (·.2)
  let d := if j.full < bytes.length then (d.bump ENC_OVERSHOOT).raise ENC_IRQ_RAW_OVERSHOOT else d
  let start := frameHeader c f j.lref 2 n j.op j.height j.width j.bits j.cfa 2 j.shift j.ofs j.budget
  let (k, d) := d.frameStream j.u (c.ak ENC_ES0_QID n) j.op j.flags start
  let d := if c.ak ENC_ES0_HIST n = 1 then d.setStream k { d.stream k with chunk := some (encChunk n j start bytes d) }
    else d
  let d := (d.streamBytes k 0 j.doneLines bytes).closeStream k
  let e := d.enc n
  d.setEnc n { e with jobs := e.jobs.filter fun i => i.u != j.u }

/-- The first frame of a stream on which something is left to do: a slice waits, or it only has to end. -/
def EncSt.ready (e : EncSt) : Option EncJob :=
  e.jobs.find? fun j => !j.queue.isEmpty || j.ended || j.dropped

/-- The next slice of a stream is coded, within what the slices so far leave of the budget.
(DESIGN CHOICE, log entry 81; DEDUCED, log entry 82.) -/
def encSlice (n : Nat) (d : Dev) : Dev :=
  let e := d.enc n
  match e.ready with
  | none => d
  | some j =>
    match j.queue with
    | [] => encFinish n j d
    | s :: t =>
      let c := d.asOf j.u
      let ls := j.sliceLines s
      let top := if j.first ∧ c.a ENC_CFG_GUARD = 0 then j.full * 28 / 25 else j.full
      let share := (if j.first then top else j.budget) * (j.doneLines + ls) / j.height
      let rows := (List.range ls).map fun i =>
        let px := SMap.get noLine j.lines (s * j.sliceH + i)
        if j.flags.testBit ffCOMPANDED then px.map compandCode else px
      let pars := [j.budget, share - j.used, c.ak ENC_ES1_NLX n, c.ak ENC_ES1_NLY n, j.sliceH, j.bits, j.cfa, s]
      let bytes := (Config.jpegXs pars rows).take (share - j.used)
      let j := { j with queue := t, coded := SMap.set (noList Byte) j.coded s bytes,
                        doneLines := j.doneLines + ls, used := j.used + bytes.length }
      let d := d.setEnc n (e.mapJob j.u fun _ => j)
      if t.isEmpty ∧ (j.ended ∨ j.dropped) then encFinish n j d else d

/-- ENC_SLICE. -/
def execEncSlice (es : Fin 16) (s : State) : Out := onDev (encSlice es) s

/-! ## A geometry output feeds its streams -/

/-- Streams enabled in a frame's generation on a source. -/
def Dev.streamsOn (d : Dev) (u kind src : Nat) : List Nat :=
  let c := d.asOf u
  (List.range 16).filter fun n => c.ak ENC_ES0_EN n = 1 && c.ak ENC_ES0_KIND n = kind && c.ak ENC_ES0_SRC n = src

/-- The words of an output descriptor. -/
def odWords (c : Dev) (n : Nat) : List Nat := (List.range 5).map fun w => (c.actWord (0x94400 + 32 * n + 4 * w)).toNat

def encFeed (u n : Nat) (g : Geo) (d : Dev) : Dev :=
  let o := d.outFr u n
  let job : EncJob := { u, op := g.op, width := g.ow, height := g.oh, bits := g.bits, cfa := g.cfa, shift := g.shift,
                        ofs := g.ofs (d.asOf u), lref := (d.pf u).href, sliceH := 16, budget := 0, full := 0 }
  (d.streamsOn u 0 n).foldl (fun d es =>
    let flags := d.outFlags u g + (if 0 < o.unread then 2 ^ ffINCOMPLETE else 0)
    let d := encFlags es u flags (encConsider es u (odWords (d.asOf u) n) job d)
    let d := match o.lines.getLast? with
      | some l => if ((d.enc es).jobs.find? fun j => j.u = u).any fun j => j.lines.any fun p => p.1 = l.1 then d
                  else encLine es u l.1 (l.2.map (·.y)) d
      | none => d
    if o.closed then encEnd es u flags d else d) d

/-- GEO_LINE: a line leaves geometry, to delivery and to the streams that take it. -/
def geoLineFeed (n : Nat) (d : Dev) : Dev :=
  match d.geoFrame n with
  | none => d
  | some (u, g) =>
    let d := geoLine n d
    if g.dest.testBit 2 then encFeed u n g d else d

def execGeoLine (od : Fin 64) (s : State) : Out := onDev (geoLineFeed od) s

end Sys2Proof.Machine
end

