-- ==== Sys2Proof/Machine/Hash.lean ====
section
/-! DEFINITION. HMAC-SHA-256, the function R526 names for the authorised clear (FIPS 180-4 and RFC 2104; PRESUMED, log
entry 15). Words are numbers below 2^32. -/
namespace Sys2Proof.Machine

/-- The eight words of a SHA-256 state. -/
structure ShaWords where
  a : Nat
  b : Nat
  c : Nat
  d : Nat
  e : Nat
  f : Nat
  g : Nat
  h : Nat
  deriving DecidableEq, Repr

def shaStart : ShaWords :=
  ⟨0x6A09E667, 0xBB67AE85, 0x3C6EF372, 0xA54FF53A,
   0x510E527F, 0x9B05688C, 0x1F83D9AB, 0x5BE0CD19⟩

/-- The 64 round constants. -/
def shaRounds : List Nat :=
  [0x428A2F98, 0x71374491, 0xB5C0FBCF, 0xE9B5DBA5, 0x3956C25B, 0x59F111F1, 0x923F82A4, 0xAB1C5ED5,
   0xD807AA98, 0x12835B01, 0x243185BE, 0x550C7DC3, 0x72BE5D74, 0x80DEB1FE, 0x9BDC06A7, 0xC19BF174,
   0xE49B69C1, 0xEFBE4786, 0x0FC19DC6, 0x240CA1CC, 0x2DE92C6F, 0x4A7484AA, 0x5CB0A9DC, 0x76F988DA,
   0x983E5152, 0xA831C66D, 0xB00327C8, 0xBF597FC7, 0xC6E00BF3, 0xD5A79147, 0x06CA6351, 0x14292967,
   0x27B70A85, 0x2E1B2138, 0x4D2C6DFC, 0x53380D13, 0x650A7354, 0x766A0ABB, 0x81C2C92E, 0x92722C85,
   0xA2BFE8A1, 0xA81A664B, 0xC24B8B70, 0xC76C51A3, 0xD192E819, 0xD6990624, 0xF40E3585, 0x106AA070,
   0x19A4C116, 0x1E376C08, 0x2748774C, 0x34B0BCB5, 0x391C0CB3, 0x4ED8AA4A, 0x5B9CCA4F, 0x682E6FF3,
   0x748F82EE, 0x78A5636F, 0x84C87814, 0x8CC70208, 0x90BEFFFA, 0xA4506CEB, 0xBEF9A3F7, 0xC67178F2]

def shaMod (v : Nat) : Nat := v % 2 ^ 32

/-- Rotate right. -/
def shaRot (v n : Nat) : Nat := v / 2 ^ n + v % 2 ^ n * 2 ^ (32 - n)

/-- One round, with the next message word. -/
def shaRound (s : ShaWords) (k w : Nat) : ShaWords :=
  let big1 := shaRot s.e 6 ^^^ shaRot s.e 11 ^^^ shaRot s.e 25
  let choice := (s.e &&& s.f) ^^^ ((2 ^ 32 - 1 - s.e) &&& s.g)
  let t1 := s.h + big1 + choice + k + w
  let big0 := shaRot s.a 2 ^^^ shaRot s.a 13 ^^^ shaRot s.a 22
  let major := (s.a &&& s.b) ^^^ (s.a &&& s.c) ^^^ (s.b &&& s.c)
  ⟨shaMod (t1 + big0 + major), s.a, s.b, s.c, shaMod (s.d + t1), s.e, s.f, s.g⟩

/-- The word that follows sixteen words of the message schedule. -/
def shaNext (l : List Nat) : Nat :=
  let x := l.getD 1 0
  let y := l.getD 14 0
  shaMod (l.headD 0 + (shaRot x 7 ^^^ shaRot x 18 ^^^ x / 2 ^ 3) + l.getD 9 0 + (shaRot y 17 ^^^ shaRot y 19 ^^^ y / 2 ^ 10))

/-- The rounds of a block, over a window of sixteen words. -/
def shaBlock : List Nat → List Nat → ShaWords → ShaWords
  | [], _, s => s
  | k :: t, l, s => shaBlock t (l.tail ++ [shaNext l]) (shaRound s k (l.headD 0))

def ShaWords.plus (s r : ShaWords) : ShaWords :=
  ⟨shaMod (s.a + r.a), shaMod (s.b + r.b), shaMod (s.c + r.c), shaMod (s.d + r.d),
   shaMod (s.e + r.e), shaMod (s.f + r.f), shaMod (s.g + r.g), shaMod (s.h + r.h)⟩

/-- Big-endian words of a byte string of whole words. -/
def shaWordsOf : List Byte → List Nat
  | a :: b :: c :: d :: t => natOfBytes [d, c, b, a] :: shaWordsOf t
  | _ => []

/-- Every block of a padded message, `n` at most. -/
def shaBlocks : Nat → List Byte → ShaWords → ShaWords
  | 0, _, s => s
  | n + 1, l, s => if l = [] then s else shaBlocks n (l.drop 64) (s.plus (shaBlock shaRounds (shaWordsOf (l.take 64)) s))

/-- Four bytes of a word, most significant first. -/
def shaBytes (v : Nat) : List Byte := [BitVec.ofNat 8 (v / 2 ^ 24), BitVec.ofNat 8 (v / 2 ^ 16), BitVec.ofNat 8 (v / 2 ^ 8), BitVec.ofNat 8 v]

/-- The padding: a 1 bit, zeros, the length in bits. -/
def shaPad (n : Nat) : List Byte :=
  0x80#8 :: List.replicate ((119 - n % 64) % 64) 0#8 ++ (bytesLE 8 (8 * n)).reverse

/-- SHA-256 of a byte string: 32 bytes. (PRESUMED, log entry 15.) -/
def sha256 (l : List Byte) : List Byte :=
  let s := shaBlocks (l.length / 64 + 2) (l ++ shaPad l.length) shaStart
  shaBytes s.a ++ shaBytes s.b ++ shaBytes s.c ++ shaBytes s.d ++ shaBytes s.e ++ shaBytes s.f ++ shaBytes s.g ++ shaBytes s.h

/-- A key as a block of 64 bytes, each combined with a pad byte. -/
def hmacPad (key : List Byte) (b : Byte) : List Byte :=
  let k := if 64 < key.length then sha256 key else key
  (k ++ List.replicate (64 - k.length) 0#8).map fun x => x ^^^ b

/-- HMAC-SHA-256 under a key, of a message. (PRESUMED, log entry 15.) -/
def hmacSha256 (key msg : List Byte) : List Byte := sha256 (hmacPad key 0x5C#8 ++ sha256 (hmacPad key 0x36#8 ++ msg))

end Sys2Proof.Machine
end

