-- ==== Sys2Proof/Machine/Recorder.lean ====
section
/-! DEFINITION. The event recorder and the event log (R509 to R527, KL-03). -/
namespace Sys2Proof.Machine

/-! ## Records -/

/-- Payload bytes with the padding of R509. -/
def padded8 (l : List Byte) : List Byte := l ++ List.replicate ((8 - l.length % 8) % 8) 0#8

/-- Bytes of a record. -/
def Rec.size (r : Rec) : Nat := 32 + (padded8 r.payload).length

/-- A record as bytes (R509); `isOpen` says that it can still coalesce. -/
def Rec.bytes (r : Rec) (isOpen : Bool) : List Byte :=
  let b (x : Bool) (k : Nat) : Nat := if x then 2 ^ k else 0
  let w0 := r.size / 8 + r.code * 2 ^ 6 + r.sev * 2 ^ 16 + b r.inferred 19 + b r.coalesced 20 +
    b r.stepped 21 + b isOpen 22 + r.src * 2 ^ 24 + r.rep * 2 ^ 32 + r.stamp.epoch * 2 ^ 48
  u64 w0 ++ u64 r.seq ++ u64 r.stamp.ticks ++ u64 (r.stamp.ns % 2 ^ 30 + r.stamp.sec * 2 ^ 30) ++
    padded8 r.payload

def PageImg.used (p : PageImg) : Nat := (p.recs.map Rec.size).sum

def noPage : Nat → PageImg := fun _ => {}

/-- Every record of the event log. -/
def Recorder.logRecs (r : Recorder) : List Rec := r.log.flatMap fun p => p.2.recs

/-- Every record of the buffer. -/
def Recorder.bufRecs (r : Recorder) : List Rec := r.images.flatMap fun p => p.recs

/-- The records a read returns (R523, R524). (DEDUCED, log entry 28.) -/
def Recorder.readable (r : Recorder) : List Rec :=
  if r.frozen then r.logRecs else r.logRecs ++ r.bufRecs

/-- Put a record at its place in ascending sequence number. -/
def insertSeq (x : Rec) : List Rec → List Rec
  | [] => [x]
  | y :: t => if x.seq ≤ y.seq then x :: y :: t else y :: insertSeq x t

def sortSeq (l : List Rec) : List Rec := l.foldr insertSeq []

/-- The lowest readable sequence number; the next one where no record is readable (DESIGN CHOICE,
log entry 11). -/
def Recorder.oldestSeq (r : Recorder) : Nat :=
  r.readable.foldl (fun m x => min m x.seq) r.nextSeq

def Recorder.highestLogSeq (r : Recorder) : Option Nat :=
  r.logRecs.foldl (fun m x => match m with | none => some x.seq | some y => some (max x.seq y)) none

/-! ## Acceptance -/

/-- Engine cycles of a count of milliseconds. -/
def msCycles (ms : Nat) : Nat := ms * 750000

/-- Cycles of bucket refill one record takes, and a full bucket (R516). (DEDUCED, log entry 27.) -/
def tokenCost : Nat := 750000
/-- (DEDUCED, log entry 27.) -/
def bucketDepth : Nat := 1000 * tokenCost

/-- Does an event repeat the last record of its source (R514)? -/
def repeats (d : Dev) (r : Recorder) (e : Ev) (l : LastRec) : Bool :=
  l.valid && l.code = e.code && crc32 l.payload = crc32 e.payload &&
    e.cyc ≤ l.cyc + msCycles (d.f EVR_CFG_WINDOW_MS) &&
    r.bufRecs.any fun x => x.seq = l.seq && decide (x.rep < 65535)

/-- Increment REPEAT of a buffered record (R514, R515). -/
def coalesce (d : Dev) (seq : Nat) (r : Recorder) : Recorder :=
  { r with images := r.images.map fun p =>
      { p with recs := p.recs.map fun x =>
          if x.seq = seq then
            { x with rep := x.rep + 1, coalesced := true,
                     stepped := x.stepped || x.stamp.epoch != d.time.epoch }
          else x } }

/-- The open image of a severity, by its place in the buffer. -/
def openImage (l : List PageImg) (sev : Nat) : Option Nat :=
  l.findIdx? fun p => p.sev = sev && !p.sealed

/-- Seal the open image of a severity. -/
def sealImage (sev : Nat) (r : Recorder) : Recorder :=
  { r with images := r.images.map fun p =>
      if p.sev = sev ∧ p.sealed = false then { p with sealed := true } else p }

/-- Put a record into the buffer (R518, R519). -/
def placeRec (x : Rec) (dr : Dev × Recorder) : Dev × Recorder :=
  let (d, r) := dr
  let fits := match openImage r.images x.sev with
    | some n => match r.images[n]? with
      | some p => if p.used + x.size ≤ 256 then some n else none
      | none => none
    | none => none
  match fits with
  | some n =>
    let imgs := match r.images[n]? with
      | some p => setAt r.images n { p with recs := p.recs ++ [x] }
      | none => r.images
    (d, { r with images := imgs })
  | none =>
    let r := sealImage x.sev r
    let fresh : PageImg := { sev := x.sev, recs := [x] }
    if r.images.length < 1024 then (d, { r with images := r.images ++ [fresh] })
    else
      match r.images.findIdx? fun p => p.sealed && decide (p.sev ≤ x.sev) with
      | some n =>
        let lost := (r.images[n]?).getD {}
        let d := (d.add EVR_LOG_DROPPED lost.recs.length).raise EVR_IRQ_RAW_LOG_DROP
        let d := if lost.sev = 5 ∨ lost.sev = 6 then d.raise EVR_IRQ_RAW_CRIT_DROP else d
        (d, { r with images := r.images.eraseIdx n ++ [fresh] })
      | none => ((d.bump EVR_LOG_DROPPED).raise EVR_IRQ_RAW_LOG_DROP, r)

/-- The sequence number of a HIST_BURST_DONE record is copied into HMP.BURST_SEQ (R382). -/
def burstSeq (code seq : Nat) (d : Dev) : Dev :=
  if code = 0x086 then (d.setF HMP_BURST_SEQ_LO seq).setF HMP_BURST_SEQ_HI (seq / 2 ^ 32) else d

/-- Give a record its sequence number and stamp, and buffer it (R510, R38). -/
def acceptRec (e : Ev) (dr : Dev × Recorder) : Dev × Recorder :=
  let (d, r) := dr
  let x : Rec := { code := e.code, sev := e.sev, src := e.src, payload := e.payload,
                   seq := r.nextSeq, stamp := d.stamp, inferred := e.inferred }
  let r := { r with
    nextSeq := r.nextSeq + 1
    last := SMap.set (fun _ => {}) r.last e.src
      { code := e.code, payload := e.payload, seq := x.seq, cyc := e.cyc, valid := true } }
  placeRec x (burstSeq e.code x.seq (d.bump EVR_ACCEPTED), r)

/-- Drop a record for want of a token (R516). -/
def rateDrop (e : Ev) (dr : Dev × Recorder) : Dev × Recorder :=
  let (d, r) := dr
  let a := SMap.get (fun _ => {}) r.drops e.src
  let a' : DropAcc :=
    if a.n = 0 then { n := 1, first := d.time.tick, last := d.time.tick, code := e.code, sev := e.sev }
    else { a with n := a.n + 1, last := d.time.tick, sev := max a.sev e.sev }
  ((d.bump EVR_RATE_DROPPED).raise EVR_IRQ_RAW_RATE_DROP,
    { r with drops := SMap.set (fun _ => {}) r.drops e.src a' })

/-- The recorder handles one event: filter, coalesce, rate limit, accept. (DEDUCED, log entry 27.) -/
def handleEvent (e : Ev) (dr : Dev × Recorder) : Dev × Recorder :=
  let (d, r) := dr
  let l := SMap.get (fun _ => {}) r.last e.src
  if e.sev < d.f EVR_CFG_MIN_SEV then (d.bump EVR_FILTERED, r)
  else if repeats d r e l then
    (d.bump EVR_COALESCED,
      coalesce d l.seq { r with last := SMap.set (fun _ => {}) r.last e.src { l with cyc := e.cyc } })
  else if e.sev = 6 ∨ e.sev = 7 ∨ e.code = 0x001 then acceptRec e dr
  else
    let b := SMap.get (fun _ => {}) r.buckets e.src
    let taken := b.taken - (d.cyc - b.cyc)
    if taken + tokenCost ≤ bucketDepth then
      let b' : Bucket := { taken := taken + tokenCost, cyc := d.cyc }
      acceptRec e (d, { r with buckets := SMap.set (fun _ => {}) r.buckets e.src b' })
    else rateDrop e (d, r)

/-- The next event to handle: the earliest, and of one cycle the lowest source (R38, R517).
(DEDUCED, log entry 27.) -/
def nextEvent : List Ev → Option Ev
  | [] => none
  | e :: t =>
    match nextEvent t with
    | none => some e
    | some f => if f.cyc < e.cyc ∨ (f.cyc = e.cyc ∧ f.src < e.src) then some f else some e

/-- Does the recorder accept events? POWER_FAIL is the last before the restart (R520). (DEDUCED, log entry 27.) -/
def Dev.recOpen (d : Dev) : Bool := !d.aon.flushing && d.aon.waitFor != .pfail

/-- Take the next event from the recorder's input. -/
def acceptNext (dr : Dev × Recorder) : Dev × Recorder :=
  match if dr.1.recOpen then nextEvent dr.1.evq else none with
  | none => dr
  | some e => handleEvent e ({ dr.1 with evq := dr.1.evq.erase e }, dr.2)

/-- EVENT_ACCEPT (R510). -/
def execEventAccept (s : State) : Out := onRec acceptNext s

/-- EVR_DROPPED_RECORD (R516): the record for the drops of one source, unless its severity is filtered (R510). -/
def droppedRecord (src : Nat) (dr : Dev × Recorder) : Dev × Recorder :=
  let (d, r) := dr
  let a := SMap.get (fun _ => {}) r.drops src
  if a.n = 0 ∨ d.recOpen = false then dr
  else
    let r := { r with drops := SMap.set (fun _ => {}) r.drops src {} }
    if a.sev < d.f EVR_CFG_MIN_SEV then (d.bump EVR_FILTERED, r) else
    let pl := u32 a.n ++ u64 a.first ++ u64 a.last ++ u16 a.code
    acceptRec { code := 0x001, sev := a.sev, src, cyc := d.cyc, payload := pl } (d, r)

def execEvrDroppedRecord (src : Byte) (s : State) : Out := onRec (droppedRecord src.toNat) s

/-- EVR_IMAGE_SEAL (R518): the open image of a severity is sealed. -/
def execEvrImageSeal (sev : Fin 8) (s : State) : Out :=
  onRec (fun dr => (dr.1, sealImage sev dr.2)) s

/-! ## The event log (R522, R530) -/

def logPages : Nat := 65536

/-- The lowest-numbered free page of the log, from page `n` on, among programmed pages in rising
order and retired pages. (DESIGN CHOICE, log entry 17.) -/
def firstFree (retired : List Nat) : Nat → Nat → SMap PageImg → Option Nat
  | 0, _, _ => none
  | fuel + 1, n, log =>
    if logPages ≤ n then none
    else if log.any (fun p => p.1 = n) || retired.contains n then firstFree retired fuel (n + 1) log
    else some n

/-- The page that holds the oldest record of severity at most `s` (R522). -/
def oldestPage (s : Nat) (log : SMap PageImg) : Option Nat :=
  let best := log.foldl (fun (m : Option (Nat × Nat)) p =>
    if p.2.sev ≤ s then
      let q := p.2.recs.foldl (fun (m : Option Nat) x =>
        match m with | none => some x.seq | some y => some (min x.seq y)) none
      match q, m with
      | none, _ => m
      | some q, none => some (q, p.1)
      | some q, some (q', n) => if q < q' then some (q, p.1) else some (q', n)
    else m) none
  best.map (·.2)

/-- The page an image is programmed into, and whether it overwrites (R522). (DESIGN CHOICE, log entry 17.) -/
def targetPage (d : Dev) (r : Recorder) (sev : Nat) : Option (Nat × Bool) :=
  match firstFree d.nvm.retired (r.log.length + d.nvm.retired.length + 1) 0 r.log with
  | some n => some (n, false)
  | none => (oldestPage (min sev 4) r.log).map fun n => (n, true)

/-- A page of the log is programmed, over an older one or not. -/
def pageTaken (ovr : Bool) (d : Dev) : Dev :=
  let d := d.bump NVM_PAGE_PROG
  if ovr then
    let d := d.bump EVR_OVERWRITTEN
    if d.boot.logFull then d
    else { d.raise EVR_IRQ_RAW_LOG_FULL with boot := { d.boot with logFull := true } }
  else d

/-- Program an image into the log; `none` where no page qualifies. -/
def programImage (p : PageImg) (dr : Dev × Recorder) : Option (Dev × Recorder) :=
  let (d, r) := dr
  (targetPage d r p.sev).map fun (n, ovr) =>
    (pageTaken ovr d, { r with log := SMap.set noPage r.log n { p with sealed := true } })

/-- First sequence number of an image. -/
def PageImg.firstSeq (p : PageImg) : Nat := (p.recs.map (·.seq)).headD 0

/-- The sealed image with the lowest first sequence number of those that pass a test, by its place in the buffer
(R518). -/
def nextSealed (ok : PageImg → Bool) (l : List PageImg) : Option Nat :=
  let best := l.zipIdx.foldl (fun (m : Option (Nat × Nat)) q =>
    if q.1.sealed && ok q.1 then
      match m with
      | none => some (q.1.firstSeq, q.2)
      | some (f, n) => if q.1.firstSeq < f then some (q.1.firstSeq, q.2) else some (f, n)
    else m) none
  best.map (·.2)

/-- The next sealed image for which the log has a page (R518, R522). -/
def nextReady (d : Dev) (r : Recorder) : Option Nat :=
  nextSealed (fun p => (targetPage d r p.sev).isSome) r.images

/-- Program an image of the buffer. With `fail`, the read-back fails: the page is retired and the image stays for
another page (R530). -/
def programAt (fail : Bool) (k : Nat) (dr : Dev × Recorder) : Dev × Recorder :=
  let (d, r) := dr
  let img := (r.images[k]?).getD {}
  match targetPage d r img.sev with
  | none => dr
  | some (m, ovr) =>
    let d := pageTaken ovr d
    if fail then
      let d := { d with nvm := { d.nvm with retired := d.nvm.retired ++ [m] } }
      ((d.raise NVM_IRQ_RAW_PROG_FAIL).emit 0x009 .nvm, { r with log := SMap.set noPage r.log m {} })
    else (d, { r with images := r.images.eraseIdx k, log := SMap.set noPage r.log m { img with sealed := true } })

/-- The next sealed image is programmed (R522), at level ON, unless the log is frozen (R524) or shutdown pending holds
programs back (R501). -/
def pageProgram (fail : Bool) (dr : Dev × Recorder) : Dev × Recorder :=
  let (d, r) := dr
  if r.frozen ∨ d.aon.shutPending ∨ d.aon.level ≠ 2 then dr
  else match nextReady d r with
    | none => dr
    | some k => programAt fail k dr

/-- Seal and program every image, in order of first sequence number: the flush of a power failure
(R505, R520). An image that finds no page stays in the buffer. -/
def flushAll : Nat → Dev × Recorder → Dev × Recorder
  | 0, dr => dr
  | n + 1, (d, r) =>
    match nextReady d r with
    | none => (d, r)
    | some k => flushAll n (programAt false k (d, r))

def sealAll (r : Recorder) : Recorder :=
  { r with images := r.images.map fun p => { p with sealed := true } }

/-! ## Freeze (R524) -/

/-- EVR_FREEZE. -/
def evrFreeze (dr : Dev × Recorder) : Dev × Recorder :=
  let (d, r) := dr
  if r.frozen then (d.mbxDone resOK, r)
  else ((d.emitFw 0x004).mbxDone resOK, { r with frozen := true })

def execEvrFreeze (s : State) : Out := onRec (mbxServeRec 0x0031 (· = 0) evrFreeze) s

/-- EVR_THAW. -/
def evrThaw (dr : Dev × Recorder) : Dev × Recorder :=
  let (d, r) := dr
  if r.frozen then ((d.emitFw 0x005).mbxDone resOK, { r with frozen := false })
  else (d.mbxDone resOK, r)

def execEvrThaw (s : State) : Out := onRec (mbxServeRec 0x0032 (· = 0) evrThaw) s

/-- EVR_FREEZE_EXPIRE. -/
def freezeExpire (dr : Dev × Recorder) : Dev × Recorder :=
  let (d, r) := dr
  if r.frozen then ((d.raise EVR_IRQ_RAW_FREEZE_EXP).emit 0x006 .evr, { r with frozen := false })
  else dr

def execEvrFreezeExpire (s : State) : Out := onRec freezeExpire s

/-! ## Reading (R523) -/

/-- Can a record still coalesce? -/
def canGrow (d : Dev) (r : Recorder) (x : Rec) : Bool :=
  let l := SMap.get (fun _ => {}) r.last x.src
  l.valid && l.seq = x.seq && decide (x.rep < 65535) && r.bufRecs.any (fun y => y.seq = x.seq) &&
    decide (d.cyc ≤ l.cyc + msCycles (d.f EVR_CFG_WINDOW_MS))

/-- As many whole records as fit. -/
def takeFitting (d : Dev) (r : Recorder) : Nat → List Rec → List Byte
  | _, [] => []
  | room, x :: t =>
    if x.size ≤ room then x.bytes (canGrow d r x) ++ takeFitting d r (room - x.size) t else []

/-- EVR_READ. The limit lies from 256 to 1,024 (R95, R523). (DEDUCED, log entry 28.) -/
def evrRead (dr : Dev × Recorder) : Dev × Recorder :=
  let (d, r) := dr
  let first := d.cmdNat 0 8
  let limit := d.cmdNat 8 2
  if limit < 256 ∨ 1024 < limit then (d.mbxDone resBAD_PARAM, r)
  else
    let l := sortSeq (r.readable.filter fun x => decide (first ≤ x.seq))
    (d.mbxDone resOK (takeFitting d r limit l), r)

def execEvrRead (s : State) : Out := onRec (mbxServeRec 0x0030 (· = 3) evrRead) s

/-! ## Authorised clear (R525 to R527) -/

/-- EVR_CLEAR_NONCE: 16 bytes of the random source; a new nonce replaces the old one. -/
def clearNonce (dr : Dev × Recorder) : Dev × Recorder :=
  let (d, r) := dr
  let n := (List.range 16).map (Config.nonceByte d.freeCtr)
  (Dev.mbxDone { d with freeCtr := d.freeCtr + 1 } resOK n, { r with nonce := some n })

def execEvrClearNonce (s : State) : Out := onRec (mbxServeRec 0x0033 (· = 0) clearNonce) s

/-- NONCE_EXPIRE: 60 s after its issue a nonce lapses. -/
def execNonceExpire (s : State) : Out := onRec (fun dr => (dr.1, { dr.2 with nonce := none })) s

/-- Is a record removed by a clear of `first` to `last`? -/
def clears (first last : Nat) (x : Rec) : Bool :=
  decide (first ≤ x.seq) && decide (x.seq ≤ last) && x.sev != 7

/-- Remove the records of a clear from a page image. -/
def PageImg.clear (first last : Nat) (p : PageImg) : PageImg :=
  { p with recs := p.recs.filter fun x => !clears first last x }

/-- Remove records from log and buffer; a page or image left with none is free. -/
def clearRange (first last : Nat) (r : Recorder) : Recorder :=
  { r with
    log := (r.log.map fun p => (p.1, p.2.clear first last)).filter (fun p => p.2.recs != []),
    images := (r.images.map fun p => p.clear first last).filter (fun p => p.recs != []) }

/-- The 40-byte message of R526. (PRESUMED, log entry 15.) -/
def clearMessage (nonce : List Byte) (first last : Nat) : List Byte :=
  nonce ++ u64 Config.serial.toNat ++ u64 first ++ u64 last

/-- EVR_CLEAR. Authentication is checked first, then the range, then the freeze (DESIGN CHOICE, log
entry 12). The nonce is consumed in every case. -/
def evrClear (v : Vault) (dr : Dev × Recorder) : Dev × Recorder :=
  let (d, r) := dr
  let first := d.cmdNat 0 8
  let last := d.cmdNat 8 8
  let mac := d.cmdBytes 16 32
  let nonce := r.nonce
  let r := { r with nonce := none }
  let ok := match v.key, nonce with
    | some k, some n => hmacSha256 k (clearMessage n first last) == mac
    | _, _ => false
  if !ok then
    (((d.emitFw 0x003 (u64 first ++ u64 last)).bump SEC_CLEAR_DENIED).mbxDone resAUTH_FAIL, r)
  else if last < first ∨ r.nextSeq ≤ last then (d.mbxDone resBAD_PARAM, r)
  else if r.frozen then (d.mbxDone resBAD_STATE, r)
  else
    let n := ((r.logRecs ++ r.bufRecs).filter (clears first last)).length
    let r := clearRange first last r
    let pl := u64 first ++ u64 last ++ u32 n ++ nonce.getD []
    let dr := acceptRec
      { code := 0x002, sev := 7, src := Page.code .evr, cyc := d.cyc, payload := pl } (d, r)
    (dr.1.mbxDone resOK, dr.2)

def execEvrClear (s : State) : Out := onRec (mbxServeRec 0x0034 (· = 12) (evrClear s.vault)) s

end Sys2Proof.Machine
end

