-- ==== Sys2Proof/Machine/History.lean ====
section
/-! DEFINITION. The Hamper: ring, chunks, triggers, freeze, replay, and the memory channels (R376 to
R394). -/
namespace Sys2Proof.Machine

def Dev.onHmp (d : Dev) (f : HmpSt → HmpSt) : Dev := { d with hmp := f d.hmp }

/-! ## Layout (R376) -/

/-- Channels of a mask. -/
def maskCount (m : Nat) : Nat := (List.range 4).countP fun c => m.testBit c

/-- C and B. -/
def Dev.hmpCap (d : Dev) : Nat := maskCount (d.f HMP_MEM_CFG_CH_MASK) * (4 * 2 ^ d.f HMP_MEM_CFG_CAP) * 2 ^ 30
def Dev.hmpBurst (d : Dev) : Nat := d.f HMP_REGION_BURST_GIB * 2 ^ 30

/-- Bytes of the history ring; 0 where history is off. -/
def Dev.ringBytes (d : Dev) : Nat := if d.hmpBurst < d.hmpCap then d.hmpCap - 2 ^ 26 - d.hmpBurst else 0

/-- Is an enable of the page refused? -/
def Dev.hmpBadLayout (d : Dev) : Bool :=
  decide (d.hmpCap < d.hmpBurst) || (decide (d.hmpBurst < d.hmpCap) && decide (d.ringBytes < 2 ^ 30))

def hmpREADY : Nat := 2

/-- The Hamper is ready and keeps a ring. -/
def Dev.histOn (d : Dev) : Bool := d.f HMP_STAT_STATE = hmpREADY && d.hmpBurst != d.hmpCap

/-! ## Slots (R384 to R387) -/

def noTrigSlot : Nat → Option TrigSlot := fun _ => none
def HmpSt.slot (h : HmpSt) (k : Nat) : Option TrigSlot := SMap.get noTrigSlot h.slots k
def HmpSt.setSlot (h : HmpSt) (k : Nat) (x : Option TrigSlot) : HmpSt :=
  { h with slots := SMap.set noTrigSlot h.slots k x }

/-- Slots in use, in rising order. -/
def HmpSt.inUse (h : HmpSt) : List (Nat × TrigSlot) :=
  h.slots.filterMap fun p => p.2.map fun x => (p.1, x)

/-- Is a chunk protected by any slot? -/
def HmpSt.guarded (h : HmpSt) (n : Nat) : Bool := h.inUse.any fun p => p.2.prot.contains n

/-- Bytes of the chunks that satisfy a test. -/
def chunkBytes (f : Nat → Bool) (ring : List Chunk) : Nat :=
  ring.foldl (fun n (c : Chunk) => if f c.num then n + c.size else n) 0

def Dev.protLimit (d : Dev) : Nat := d.ringBytes * d.a HMP_PROT_PROT_MAX / 256

def HmpSt.replaying (h : HmpSt) (k : Nat) : Bool := h.replays.any fun r => r.src = .slot k

/-- A slot's registers follow the slot. -/
def slotRegs (k : Nat) (d : Dev) : Dev :=
  let put (lo hi cause st mib : Nat) (m c s : Bool) : Dev :=
    let d := (d.setFk HMP_TSLOT_SEQ_LO k lo).setFk HMP_TSLOT_SEQ_HI k hi
    let d := (d.setFk HMP_TSLOT_CAUSE k cause).setFk HMP_TSLOT_MERGED k (b2n m)
    let d := (d.setFk HMP_TSLOT_POST_CUT k (b2n c)).setFk HMP_TSLOT_PRE_SHORT k (b2n s)
    (d.setFk HMP_TSLOT_STATE k st).setFk HMP_TSLOT_PROT_MIB k mib
  match d.hmp.slot k with
  | none => put 0 0 0 0 0 false false false
  | some x =>
    let st := if d.hmp.replaying k then 3 else if x.capturing then 1 else 2
    put (x.trig.seq % 2 ^ 32) (x.trig.seq / 2 ^ 32) x.trig.cause st
      (chunkBytes x.prot.contains d.hmp.ring / 2 ^ 20) x.merged x.cut x.preShort

/-- (DEDUCED, log entry 83.) -/
def Dev.putSlot (d : Dev) (k : Nat) (x : Option TrigSlot) : Dev := slotRegs k (d.onHmp fun h => h.setSlot k x)

/-! ## The writer (R377 to R380) -/

/-- Bytes of a chunk with its header and padding. -/
def chunkSize (payload : Nat) : Nat := (64 + payload + 63) / 64 * 64

/-- Where `size` bytes go from offset `p` on, past protected chunks; where they would cross the end, the
offset of the gap that fills the ring's remainder. (DEDUCED, log entry 83.) -/
def findRoom (guard : Nat → Bool) (ring : List Chunk) (len size : Nat) : Nat → Nat → Option Nat → Option (Nat × Option Nat)
  | 0, _, _ => none
  | n + 1, p, gap =>
    match ring.find? fun c => guard c.num && decide (p < c.off + c.size) && decide (c.off < min len (p + size)) with
    | some c => findRoom guard ring len size n (c.off + c.size) gap
    | none =>
      if p + size ≤ len then some (p, gap)
      else if gap.isSome then none
      else findRoom guard ring len size n 0 (some p)

/-- Do bytes `off` to `off + size` overlap a chunk? -/
def Chunk.meets (c : Chunk) (off size : Nat) : Bool := decide (off < c.off + c.size) && decide (c.off < off + size)

/-- Payload bytes of a chunk as its header gives them: a gap fills the rest of the ring. -/
def ChunkReq.len (r : ChunkReq) (size : Nat) : Nat := if r.kind = 2 then size - 64 else r.payload.length

/-- The chunk header (R377). A gap's payload is zeros. (DEDUCED, log entry 83.) -/
def chunkHead (r : ChunkReq) (num size : Nat) : List Byte :=
  let pay := if r.kind = 2 then List.replicate (size - 64) 0#8 else r.payload
  let h := u32 0x48504D43 ++ u32 (r.len size) ++ u32 (crc32 pay).toNat ++ u8 r.kind ++ u8 r.stream ++ u8 r.member ++
    u8 r.flags ++ u64 r.frame ++ bytesLE 6 r.stamp.sec ++ u32 r.stamp.ns ++ u64 r.stamp.ticks ++ u16 r.stamp.epoch ++
    u32 r.gen ++ u64 num ++ u32 r.fflags
  h ++ u32 (crc32 h).toNat

/-- Does a header's HCRC hold? -/
def headGood (h : List Byte) : Bool := h.drop 60 = u32 (crc32 (h.take 60)).toNat

/-- A chunk with its header and index entry (R377, R378). -/
def mkChunk (req : ChunkReq) (num off size : Nat) : Chunk :=
  { req, num, off, size, head := chunkHead req num size,
    entry := { off64 := off / 64, ticks := req.stamp.ticks, len64 := (req.len size + 63) / 64, stream := req.stream } }

/-- The ring descriptor as the writer keeps it. Its CRC is the unit's own. (DEDUCED, log entry 83.) -/
def HmpSt.describe (h : HmpSt) : HmpSt :=
  { h with desc := h.desc.map fun x =>
      let o := h.ring.head?.map (·.num)
      { x with oldest := o, crc := Config.ringCrc x.serial x.gib x.mask (o.getD 0) } }

/-- Put a chunk at an offset: what it overwrites leaves the ring. (DEDUCED, log entry 83.) -/
def HmpSt.put (h : HmpSt) (req : ChunkReq) (off size : Nat) : HmpSt :=
  { h with ring := (h.ring.filter fun c => !c.meets off size) ++ [mkChunk req h.nextNum off size],
           nextNum := h.nextNum + 1, wp := off + size }

/-- The index holds 4,194,300 entries: past them the oldest chunk that no trigger protects goes, for each entry that
was added. (DEDUCED, log entry 83.) -/
def HmpSt.indexed (h : HmpSt) : Nat → HmpSt
  | 0 => h
  | n + 1 =>
    let h := if h.ring.length ≤ 4194300 then h else { h with ring := h.ring.eraseP fun c => !h.guarded c.num }
    h.indexed n

/-- Time from the oldest chunk to the newest. Gap chunks carry no time. -/
def spanReg (d : Dev) : Dev :=
  let ts := (d.hmp.ring.filter fun c => c.req.kind ≠ 2).map fun c => c.req.stamp.ticks
  d.setF HMP_SPAN_MS ((ts.getLastD 0 - ts.headD 0) / 250000)

/-- Does a trigger's window take in a chunk? -/
def Trig.covers (t : Trig) (c : ChunkReq) : Bool :=
  c.kind != 2 && decide (t.lo ≤ c.stamp.ticks) && decide (c.stamp.ticks ≤ t.hi)

/-- A chunk just written is protected by each slot that captures it, within the limit (R384, R385). -/
def captureChunk (c : Chunk) (d : Dev) : Dev :=
  d.hmp.inUse.foldl (fun d p =>
    let (k, x) := p
    if x.capturing && !x.full && x.trig.covers c.req then
      let used := chunkBytes d.hmp.guarded d.hmp.ring
      if d.hmp.guarded c.num || decide (used + c.size ≤ d.protLimit) then
        d.putSlot k (some { x with prot := x.prot ++ [c.num] })
      else (d.putSlot k (some { x with full := true, cut := true })).raise HMP_IRQ_RAW_PROT_FULL
    else d) d

/-- Write one chunk whole, or drop it. (DEDUCED, log entry 83.) -/
def writeChunk (req : ChunkReq) (d : Dev) : Dev :=
  let len := d.ringBytes
  let size := chunkSize req.payload.length
  let h := d.hmp
  match findRoom h.guarded h.ring len size (2 * h.ring.length + 3) h.wp none with
  | none => histDrop d
  | some (p, gap) =>
    let gapReq : ChunkReq := { kind := 2 }
    let (h, n) := match gap with
      | some g => if g < len then (h.put gapReq g (len - g), 2) else (h, 1)
      | none => (h, 1)
    let h := { ((h.put req p size).indexed n).describe with powerDown := 0 }
    let d := spanReg ({ d with hmp := h }.add HMP_CHUNKS n)
    match h.ring.getLast? with
    | some c => captureChunk c d
    | none => d

/-- HIST_CHUNK_WRITE: the writer takes the oldest chunk offered. It waits while channels train. -/
def chunkWrite (d : Dev) : Dev :=
  match d.hmp.offers with
  | [] => d
  | c :: t =>
    let next := d.onHmp fun h => { h with offers := t }
    let st := d.f HMP_STAT_STATE
    if st = 3 ∨ (st = hmpREADY ∧ (d.hmpBurst = d.hmpCap ∨ d.f HMP_CTRL_FREEZE = 1)) then histDrop next
    else if st = hmpREADY ∧ d.hmp.retrain = 0 then writeChunk c next
    else d

def execHistChunkWrite (s : State) : Out := onDev chunkWrite s

/-! ## Triggers (R383 to R386) -/

/-- Accept every event that waits, as the recorder would. -/
def acceptAll : Nat → Dev × Recorder → Dev × Recorder
  | 0, x => x
  | n + 1, x => acceptAll n (acceptNext x)

/-- Write an event and take its sequence number: that of the record it made or joined; open where the
recorder kept none. (DEDUCED, log entry 84.) -/
def emitSeq (code : Nat) (p : Page) (pay : List Byte) (x : Dev × Recorder) : Nat × (Dev × Recorder) :=
  let d := x.1.emit code p pay
  let (d, r) := acceptAll d.evq.length (d, x.2)
  let l := SMap.get (fun _ => {}) r.last p.code
  if l.valid ∧ l.code = code ∧ l.payload = pay then (l.seq, d, r)
  else
    let (w, d) := d.free
    (w.toNat, d, r)

/-- Protect the chunks of a window that are written already, newest first, as far as the limit lets.
(DEDUCED, log entry 84.) -/
def protectBack (t : Trig) (k : Nat) (d : Dev) : Dev :=
  match d.hmp.slot k with
  | none => d
  | some x =>
    let lim := d.protLimit
    let go := d.hmp.ring.reverse.foldl (fun (a : List Nat × Nat × Bool) (c : Chunk) =>
      if a.2.2 || !t.covers c.req then a
      else
        let add := if d.hmp.guarded c.num then 0 else c.size
        if a.2.1 + add ≤ lim then (c.num :: a.1, a.2.1 + add, false) else (a.1, a.2.1, true))
      ([], chunkBytes d.hmp.guarded d.hmp.ring, false)
    let short := match d.hmp.ring.find? fun c => c.req.kind ≠ 2 with
      | some c => decide (t.lo < c.req.stamp.ticks)
      | none => true
    let old := x.prot.filter fun n => !go.1.contains n
    d.putSlot k (some { x with prot := old ++ go.1, preShort := x.preShort || go.2.2 || short })

/-- The slot with the latest T. -/
def HmpSt.latest (h : HmpSt) : Option (Nat × TrigSlot) :=
  h.inUse.foldl (fun b (e : Nat × TrigSlot) => match b with
    | some (m : Nat × TrigSlot) => if m.2.trig.t < e.2.trig.t then some e else some m
    | none => some e) none

def HmpSt.freeSlot (h : HmpSt) : Option Nat := (List.range 16).find? fun k => (h.slot k).isNone

/-- A trigger takes a slot, or is merged; the answer is the sequence number of the slot. (DEDUCED, log entry 84.) -/
def takeSlot (t : Trig) (now : Nat) (held : Bool) (d : Dev) : Nat × Dev :=
  let capturing := !held && decide (now < t.hi + 25000000)
  match d.hmp.freeSlot with
  | some k =>
    let x : TrigSlot := { trig := t, capturing, cut := capturing && d.f HMP_CTRL_FREEZE = 1 }
    (t.seq, protectBack t k (d.putSlot k (some x)))
  | none =>
    match d.hmp.latest with
    | none => (t.seq, d)
    | some (k, x) =>
      let t' := { x.trig with hi := max x.trig.hi t.hi }
      let capturing := !held && (x.capturing || decide (now < t'.hi + 25000000))
      let x := { x with trig := t', merged := true, capturing, cut := x.cut || (capturing && d.f HMP_CTRL_FREEZE = 1) }
      (x.trig.seq, protectBack t' k (d.putSlot k (some x)))

/-- A trigger at tick `t`. The first answer is the sequence number that HIST_TRIGGER returns.
(DEDUCED, log entry 84.) -/
def histTrigger (t post cause : Nat) (x : Dev × Recorder) : Nat × (Dev × Recorder) :=
  let pay := u16 cause ++ u64 t
  let (seq, d, r) := emitSeq 0x080 .hmp pay x
  let tr : Trig := { seq, t, lo := t - d.a HMP_PRE_MS * 250000, hi := t + post * 250000, cause }
  let d := if d.hmp.freeSlot.isNone then (d.emit 0x081 .hmp (u16 cause)).bump HMP_MERGES else d
  let (n, d) := takeSlot tr d.time.tick false d
  let mark : ChunkReq := { kind := 1, stamp := d.stamp, gen := d.f SYS_GEN,
                           payload := Config.markPayload seq t cause, mark := some tr }
  (n, offer mark d, r)

/-- HIST_TRIGGER. -/
def histTriggerCmd (x : Dev × Recorder) : Dev × Recorder :=
  let d := x.1
  if d.histOn = false then (d.mbxDone resBAD_STATE, x.2)
  else
    let post := d.cmdNat 2 4
    let (n, d, r) := histTrigger d.time.tick (if post = 0 then d.a HMP_POST_MS else post) (d.cmdNat 0 2) x
    (d.mbxDone resOK (u64 n), r)

def execHistTrigger (s : State) : Out := onRec (mbxServeRec 0x0050 (· = 2) histTriggerCmd) s

/-- A pulse accepted on a trigger line at a tick (R383). -/
def histLine (line trt : Nat) (x : Dev × Recorder) : Dev × Recorder :=
  let d := x.1
  if d.boot.run = .running ∧ d.histOn ∧ d.a HMP_TRIG_CFG_LINE_EN = 1 ∧ d.a HMP_TRIG_CFG_LINE = line then
    (histTrigger trt (d.a HMP_POST_MS) (d.a HMP_TRIG_CFG_CAUSE) x).2
  else x

/-- HIST_CAPTURE_END: 100 ms after the window's end firmware holds the slot (R3). (DEDUCED, log entry 84.) -/
def captureEnd (k : Nat) (d : Dev) : Dev :=
  match d.hmp.slot k with
  | some x =>
    if d.boot.run = .running ∧ x.capturing ∧ x.trig.hi + 25000000 ≤ d.time.tick then
      (d.putSlot k (some { x with capturing := false })).raise HMP_IRQ_RAW_TRIG_DONE
    else d
  | none => d

def execHistCaptureEnd (k : Fin 16) (s : State) : Out := onDev (captureEnd k) s

/-- A write of 1 to RELEASE.GO. -/
def histRelease (p : Port) (k : Nat) (v : Word) (d : Dev) : Dev :=
  match d.hmp.slot k with
  | none => d.reject .hmp p (HMP_RELEASE_GO.addr 0 0) v 7
  | some x =>
    if d.hmp.replaying k then d.putSlot k (some { x with release := true, capturing := false })
    else d.putSlot k none

def execHistRelease (p : Port) (k : Fin 16) (s : State) : Out := onDev (gatePage p .hmp (histRelease p k (BitVec.ofNat 32 (16 + k)))) s

/-! ## Freeze (R388) -/

def setFreeze (on : Bool) (d : Dev) : Dev :=
  let d := (d.setF HMP_CTRL_FREEZE (b2n on)).setF HMP_STAT_FROZEN (b2n on)
  if on then
    d.hmp.inUse.foldl (fun d p => if p.2.capturing then d.putSlot p.1 (some { p.2 with cut := true }) else d) d
  else d

def execHmpCtrlFreeze (p : Port) (on : Bool) (s : State) : Out := onDev (gatePage p .hmp (setFreeze on)) s

/-- HIST_FREEZE. -/
def histFreezeCmd (d : Dev) : Dev :=
  if d.histOn = false then d.mbxDone resBAD_STATE
  else ((setFreeze true d).emit 0x083 .hmp).mbxDone resOK

def execHistFreeze (s : State) : Out := onDev (mbxServe 0x0051 (· = 0) histFreezeCmd) s

/-! ## Replay (R389) -/

/-- What a sequence number names. -/
def Dev.replaySrc (d : Dev) (seq : Nat) : Option ReplaySrc :=
  let st := d.f ARY_BURST_STAT_STATE
  match d.hmp.inUse.find? fun p => p.2.trig.seq = seq && !p.2.release with
  | some p => if d.histOn then some (.slot p.1) else none
  | none =>
    if (st = 3 ∨ st = 4) ∧ d.burst.stored ≠ [] ∧ seq = d.f HMP_BURST_SEQ_LO + 2 ^ 32 * d.f HMP_BURST_SEQ_HI ∧
        (d.burst.dest = 1 ∨ d.f HMP_STAT_STATE = hmpREADY) then some .burst
    else none

/-- The result of a replay command, and its source. (DEDUCED, log entry 31.) -/
def replayJudge (d : Dev) (seq q : Nat) : Nat × Option ReplaySrc :=
  if 8191 < q then (resBAD_PARAM, none)
  else if seq = 0 ∧ (d.histOn = false ∨ d.f HMP_CTRL_FREEZE = 0) then (resBAD_STATE, none)
  else
    match (if seq = 0 then some .ring else d.replaySrc seq) with
    | none =>
      let known := d.hmp.inUse.any fun p => p.2.trig.seq = seq && !p.2.release
      (if d.hmpBurst = d.hmpCap ∨ known then resBAD_STATE else resBAD_PARAM, none)
    | some r => if 2 ≤ d.hmp.replays.length then (resRESOURCE_BUSY, none) else (resOK, some r)

/-- A slot's registers again, if the replay has a slot. -/
def replayRegs (r : ReplaySrc) (d : Dev) : Dev := match r with | .slot k => slotRegs k d | _ => d

/-- HIST_REPLAY. -/
def histReplayCmd (d : Dev) : Dev :=
  let q := d.cmdNat 8 2
  match replayJudge d (d.cmdNat 0 8) q with
  | (res, some r) => (replayRegs r (d.onHmp fun h => { h with replays := h.replays ++ [{ src := r, qid := q }] })).mbxDone res
  | (res, none) => d.mbxDone res

def execHistReplay (s : State) : Out := onDev (mbxServe 0x0052 (· = 3) histReplayCmd) s

/-- A replay ends; a release that waited for it takes effect. (DEDUCED, log entry 85.) -/
def replayEnd (i : Nat) (d : Dev) : Dev :=
  match d.hmp.replays[i]? with
  | none => d
  | some r =>
    let d := d.onHmp fun h => { h with replays := h.replays.eraseIdx i }
    let d := match r.src with
      | .slot k => match d.hmp.slot k with
        | some x => if x.release ∧ d.hmp.replaying k = false then d.putSlot k none else slotRegs k d
        | none => d
      | _ => d
    (d.raise HMP_IRQ_RAW_REPLAY_DONE).emit 0x084 .hmp (u32 r.sent ++ u32 r.errs)

/-- CTRL.ABORT. (DEDUCED, log entry 85.) -/
def replayAbort (d : Dev) : Dev := (List.range d.hmp.replays.length).foldl (fun d _ => replayEnd 0 d) d

def execHmpCtrlAbort (p : Port) (s : State) : Out := onDev (gatePage p .hmp replayAbort) s

/-- The packets of a stored frame: FRAME_START, DATA and FRAME_END, each with the replay flag. -/
def replayPkts (d : Dev) (start : List Byte) (tag aux flags lines : Nat) (ingest : List Byte)
    (datas : List (List Byte × List Byte)) : List Pkt :=
  let mk (typ : Nat) (pay : List Byte) : Pkt :=
    { kind := .held, typ, payload := pay, tag, aux, replay := true, since := d.cyc }
  let pad (b : List Byte) : List Byte := b ++ List.replicate ((4 - b.length % 4) % 4) 0#8
  let fl := orBit flags ffREPLAY
  let bytes := datas.foldl (fun n (p : List Byte × List Byte) => n + p.2.length) 0
  [mk 0x02 start] ++ (datas.map fun p => mk 0x03 (p.1 ++ pad p.2)) ++
    [mk 0x04 (u32 fl ++ ingest ++ u32 lines ++ u32 datas.length ++ u32 0 ++ u32 bytes ++ u32 0)]

/-- DATA descriptors and bytes of a codestream. -/
def codeDatas (room : Nat) (bs : List Byte) : List (List Byte × List Byte) :=
  ((chunksOf bs.length room bs).zipIdx).map fun (c : List Byte × Nat) =>
    (u32 (c.2 * room) ++ u16 0 ++ u16 c.1.length ++ u64 0, c.1)

/-- DATA descriptors and bytes of a line of pixels. -/
def lineDatas (room b : Nat) (l : BurstLine) : List (List Byte × List Byte) :=
  let n := room * 8 / b
  ((chunksOf l.px.length n l.px).zipIdx).map fun (c : List Nat × Nat) =>
    (u32 l.line ++ u16 (l.x0 + c.2 * n) ++ u16 c.1.length ++ u64 l.trt, packPx b c.1)

/-- The next chunk of a replay, if one is there. -/
def Dev.replayNext (d : Dev) (r : Replay) : Option Chunk :=
  let want (c : Chunk) : Bool :=
    decide (r.next ≤ c.num) && (match r.src with
      | .slot k => (match d.hmp.slot k with | some x => x.prot.contains c.num | none => false)
      | _ => true)
  d.hmp.ring.find? want

/-- Will more chunks come? -/
def Dev.replayMore (d : Dev) (r : Replay) : Bool :=
  match r.src with
  | .slot k => (match d.hmp.slot k with | some x => x.capturing | none => false)
  | _ => false

def setReplay (i : Nat) (r : Replay) (d : Dev) : Dev :=
  d.onHmp fun h => { h with replays := setAt h.replays i r, powerDown := 0 }

/-- Send a chunk. Only codestreams make packets. (DEDUCED, log entry 85.) -/
def sendChunk (i : Nat) (r : Replay) (c : Chunk) (hOk pOk : Bool) (d : Dev) : Dev :=
  if (hOk && headGood c.head) = false then (setReplay i { r with next := c.num + 1, errs := r.errs + 1 } d).bump HMP_REPLAY_CRC_ERR
  else if c.req.kind ≠ 0 then setReplay i { r with next := c.num + 1 } d
  else if d.queueTakes r.qid c.req.start.length = false then d
  else
    let q := c.req
    let d := if pOk then d else d.bump HMP_REPLAY_CRC_ERR
    let d := setReplay i { r with next := c.num + 1, sent := r.sent + 1, errs := if pOk then r.errs else r.errs + 1 } d
    let fl := if pOk then q.fflags else orBit q.fflags ffREPLAY_ERR
    dlvPut r.qid (replayPkts d q.start (frameTag q.member q.pass q.frame) (q.stamp.ticks % 2 ^ 32) fl q.lines q.ingest
      (codeDatas (d.qMaxLen r.qid - 16) q.payload)) d

/-- Send a frame of the stored burst. (DEDUCED, log entry 85.) -/
def sendBurst (i : Nat) (r : Replay) (f : BurstFr) (d : Dev) : Dev :=
  if d.queueTakes r.qid f.start.length = false then d
  else
    let d := setReplay i { r with next := r.next + 1, sent := r.sent + 1 } d
    let lines := (f.lines.map (·.line)).eraseDups.length
    dlvPut r.qid (replayPkts d f.start (frameTag 0 f.pass f.fid) (f.ticks % 2 ^ 32) f.flags lines (List.replicate 8 0#8)
      (f.lines.flatMap (lineDatas (d.qMaxLen r.qid - 16) f.bits))) d

/-- HIST_REPLAY_SEND: replay `i` sends what comes next, or ends; `hOk` and `pOk` say whether the chunk's
CRCs hold. (DEDUCED, log entry 85.) -/
def replaySend (i : Nat) (hOk pOk : Bool) (d : Dev) : Dev :=
  match d.hmp.replays[i]? with
  | none => d
  | some r =>
    match r.src with
    | .burst => match d.burst.stored[r.next]? with
      | some f => sendBurst i r f d
      | none => replayEnd i d
    | _ => match d.replayNext r with
      | some c => sendChunk i r c hOk pOk d
      | none => if d.replayMore r then d else replayEnd i d

def execHistReplaySend (n : Fin 2) (hOk pOk : Bool) (s : State) : Out := onDev (replaySend n hOk pOk) s

/-! ## Channels (R390 to R394) -/

/-- EN is set: channels in self-refresh that are trained for this layout leave it, which one tracking step ends;
others train (R392, R394). (DEDUCED, log entry 86.) -/
def hmpEnable (d : Dev) : Dev :=
  let m := d.f HMP_MEM_CFG_CH_MASK
  let back := m != 0 && m &&& d.hmp.trained.1 = m && d.hmp.trained.2 = d.f HMP_MEM_CFG_RATE
  (d.onHmp fun h => { h with leaving := back }).setF HMP_STAT_STATE 1

/-- EN is cleared: replays end, what waits is dropped and counted, the channels enter self-refresh.
(DEDUCED, log entries 85 and 101.) -/
def hmpDisable (d : Dev) : Dev :=
  let d := replayAbort d
  let d := d.hmp.offers.foldl (fun d _ => histDrop d) d
  (d.onHmp fun h => { h with offers := [], retrain := 0, deferred := 0, powerDown := 0, leaving := false }).setF HMP_STAT_STATE 4

/-- Slots rebuilt from the trigger marks of a ring that was kept. (DEDUCED, log entry 86.) -/
def rebuildSlots (d : Dev) : Dev :=
  let d := (List.range 16).foldl (fun d k => d.putSlot k none) d
  (d.hmp.ring.filterMap fun c => c.req.mark).foldl (fun d t => (takeSlot t d.time.tick true d).2) d

/-- The ring as the channels become ready: kept where its descriptor matches, empty otherwise.
(DEDUCED, log entry 86.) -/
def ringStart (descOk : Bool) (d : Dev) : Dev :=
  let gib := d.f HMP_REGION_BURST_GIB
  let mask := d.f HMP_MEM_CFG_CH_MASK
  let serial := Config.serial.toNat
  let same := d.hmp.desc.any fun x => x.serial = serial && x.gib = gib && x.mask = mask &&
    x.crc = Config.ringCrc x.serial x.gib x.mask (x.oldest.getD 0)
  let d := (d.setF HMP_RING_MIB (d.ringBytes / 2 ^ 20)).setF HMP_STAT_RECOVERED 0
  if d.hmpBurst = d.hmpCap then
    let d := d.onHmp fun h => { h with ring := [], wp := 0, desc := none }
    spanReg ((List.range 16).foldl (fun d k => d.putSlot k none) d)
  else if descOk ∧ same then
    spanReg (((setFreeze true (rebuildSlots d)).setF HMP_STAT_RECOVERED 1).emit 0x085 .hmp)
  else
    let d := d.onHmp fun h => 
      { h with ring := [], wp := 0,
               desc := some { serial, gib, mask, oldest := none, crc := Config.ringCrc serial gib mask 0 } }
    spanReg ((List.range 16).foldl (fun d k => d.putSlot k none) d)

/-- HMP_TRAIN_DONE: which channels trained, and whether the descriptor's CRC holds. (DEDUCED, log entry 86.) -/
def trainDone (ok : Nat) (descOk : Bool) (d : Dev) : Dev :=
  let m := d.f HMP_MEM_CFG_CH_MASK
  if d.f HMP_STAT_STATE ≠ 1 ∨ d.hmp.leaving ∨ d.clk.memLock = false then d
  else
    let d := (d.setF HMP_STAT_CH_OK (ok &&& m)).onHmp fun h => { h with trained := (ok &&& m, d.f HMP_MEM_CFG_RATE) }
    if ok &&& m = m then
      ringStart descOk ((d.setF HMP_STAT_STATE hmpREADY).setF HMP_STAT_RATE_ACT (d.f HMP_MEM_CFG_RATE))
    else ((d.setF HMP_STAT_STATE 3).raise HMP_IRQ_RAW_TRAIN_FAIL).emit 0x087 .hmp

def execHmpTrainDone (ok : Fin 16) (descOk : Bool) (s : State) : Out := onDev (trainDone ok descOk) s

/-- Retraining of channels is wanted; a burst that records defers it. -/
def wantRetrain (m : Nat) (d : Dev) : Dev :=
  let m := m &&& d.f HMP_MEM_CFG_CH_MASK
  if d.f HMP_STAT_STATE ≠ hmpREADY then d
  else if d.f ARY_BURST_STAT_STATE = 2 then d.onHmp fun h => { h with deferred := h.deferred ||| m }
  else d.onHmp fun h => { h with retrain := h.retrain ||| m }

/-- Retraining that a burst deferred begins with its end. (DEDUCED, log entry 87.) -/
def retrainDeferred (d : Dev) : Dev :=
  d.onHmp fun h => { h with retrain := h.retrain ||| h.deferred, deferred := 0 }

def execHmpCtrlRetrain (p : Port) (s : State) : Out := onDev (gatePage p .hmp (wantRetrain 15)) s

/-- A tracking step: channels whose tracked delay has moved by more than 1/8 UI are retrained. The step that
follows self-refresh makes the channels ready first; what they held is kept (R394). (DEDUCED, log entry 86.) -/
def tracked (moved : Nat) (d : Dev) : Dev :=
  if d.hmp.leaving then
    let m := d.f HMP_MEM_CFG_CH_MASK
    let d := ((d.onHmp fun h => { h with leaving := false }).setF HMP_STAT_STATE hmpREADY).setF HMP_STAT_CH_OK m
    wantRetrain moved (ringStart true (d.setF HMP_STAT_RATE_ACT (d.f HMP_MEM_CFG_RATE)))
  else wantRetrain moved d

/-- HMP_TRACKING: the channels whose tracked delay has moved by more than 1/8 UI. -/
def execHmpTracking (moved : Fin 16) (s : State) : Out := onDev (tracked moved) s

/-- HMP_RETRAIN_DONE: a channel's retraining ends. -/
def retrainDone (c : Nat) (d : Dev) : Dev :=
  if d.hmp.retrain.testBit c then
    ((d.onHmp fun h => { h with retrain := h.retrain - 2 ^ c }).bump HMP_RETRAINS).raise HMP_IRQ_RAW_RETRAIN
  else d

def execHmpRetrainDone (c : Fin 4) (s : State) : Out := onDev (retrainDone c) s

/-- HMP_POWER_DOWN: a channel idle for 2 µs enters power-down; its contents stay. -/
def execHmpPowerDown (c : Fin 4) (s : State) : Out :=
  onDev (fun d => if d.f HMP_STAT_STATE = hmpREADY ∧ (d.f HMP_MEM_CFG_CH_MASK).testBit c then
    d.onHmp fun h => { h with powerDown := h.powerDown ||| 2 ^ c.val } else d) s

/-- CTRL.DSM: deep sleep, where EN is 0. The contents are lost. (DEDUCED, log entry 86.) -/
def deepSleep (d : Dev) : Dev :=
  if d.enabled .hmp then d
  else
    let d := if d.burst.dest = 0 then { d with burst := { d.burst with stored := [] } } else d
    let d := d.onHmp fun h => { h with ring := [], wp := 0, desc := none, trained := (0, 0) }
    spanReg (((List.range 16).foldl (fun d k => d.putSlot k none) d).setF HMP_STAT_STATE 5)

def execHmpCtrlDsm (p : Port) (s : State) : Out := onDev (gatePage p .hmp deepSleep) s

end Sys2Proof.Machine
end

