-- ==== Sys2Proof/Machine/Burst.lean ====
section
/-! DEFINITION. The raw burst (R227 to R229, R381, R382). -/
namespace Sys2Proof.Machine

def buIDLE : Nat := 0
def buARMED : Nat := 1
def buRECORDING : Nat := 2
def buDONE : Nat := 3
def buABORTED : Nat := 4

def Dev.onBurst (d : Dev) (f : BurstSt → BurstSt) : Dev := { d with burst := f d.burst }
def Dev.burstState (d : Dev) : Nat := d.f ARY_BURST_STAT_STATE
def Dev.burstCount (d : Dev) : Nat := d.f ARY_BURST_STAT_COUNT

/-! ## Sizes (R229, R381) -/

/-- Pixels a frame of the active set reads in one pass. -/
def Dev.framePx (d : Dev) : Nat :=
  if d.sched = schedSTRIP then
    let row (e b : Nat) : Nat :=
      let r := if b = 0 then d.a TRG_STRIP_ROW_TOP else d.a TRG_STRIP_ROW_BOT
      (List.range 2).countP fun j => d.readMask (tileOfRow e b (r + j))
    d.a TRG_STRIP_CFG_COUNT * 128 * (List.range 96).foldl (fun n e => n + row e 0 + row e 1) 0
  else 16384 * (List.range 6144).countP d.readMask

/-- S: bytes of a frame of the active set. -/
def Dev.burstFrameSize (d : Dev) : Nat :=
  d.framePx * d.mSub * (if d.a ARY_ADC_CFG_MODE = 1 then 10 else 12) / 8

/-- Size in bytes of the frame store's burst entry; 0 with none. -/
def Dev.fstBurst (d : Dev) : Nat :=
  match (List.range 48).find? fun n => d.ak FST_ALLOC0_EN n = 1 && d.ak FST_ALLOC0_USE n = 3 with
  | some n => d.ak FST_ALLOC1_SIZE n * 2 ^ 20
  | none => 0

/-- A: the capacity assigned to a burst. (DEDUCED, log entry 87.) -/
def Dev.burstRoom (d : Dev) : Nat :=
  if d.a ARY_BURST_CFG_DEST = 1 then (if d.active .fst then d.fstBurst else 0)
  else if d.f HMP_STAT_STATE = hmpREADY then d.hmpBurst else 0

/-- May a burst that has begun `n` frames begin another (R228)? -/
def Dev.burstFits (d : Dev) (n : Nat) : Bool :=
  (d.a ARY_BURST_CFG_FRAMES = 0 || decide (n < d.a ARY_BURST_CFG_FRAMES)) && decide (n < 65535) &&
    decide ((n + 1) * d.burstFrameSize ≤ d.burstRoom)

/-! ## Arming and ending (R227, R228) -/

/-- The burst ends. (DEDUCED, log entry 87.) -/
def burstEnd (d : Dev) : Dev :=
  let st := if d.burst.abort then buABORTED else buDONE
  retrainDeferred (((d.setF ARY_BURST_STAT_STATE st).raise ARY_IRQ_RAW_BURST_DONE).emit 0x086 .hmp)

/-- No frame more begins; the burst ends when those begun are written. -/
def burstClose (d : Dev) : Dev :=
  let d := d.onBurst fun b => { b with cutOff := true }
  if d.burst.begun = d.burstCount then burstEnd d else d

def Dev.burstReplayed (d : Dev) : Bool := d.hmp.replays.any fun r => r.src = .burst

/-- Arm a burst: what the last one stored is given up. (DEDUCED, log entry 87.) -/
def burstArm (d : Dev) : Dev :=
  let d := { d with frames := d.frames.map fun (p : Nat × Frame) => (p.1, { p.2 with burst := false }) }
  let d := d.onBurst fun _ => { armAt := some d.cyc, dest := d.a ARY_BURST_CFG_DEST }
  (d.setF ARY_BURST_STAT_STATE buARMED).setF ARY_BURST_STAT_COUNT 0

/-- BURST_ARM: a write of 1 to BURST_CTRL.ARM. -/
def burstArmWrite (p : Port) (v : Word) (d : Dev) : Dev :=
  if d.a ARY_BURST_CFG_EN = 0 ∨ d.burstReplayed then d.reject .ary p (ARY_BURST_CTRL_ARM.addr 0 0) v 7
  else burstArm d

def execBurstArm (p : Port) (s : State) : Out := onDev (gatePage p .ary (burstArmWrite p 1#32)) s

/-- BURST_ABORT: a write of 1 to BURST_CTRL.ABORT. -/
def burstAbort (d : Dev) : Dev :=
  if d.burstState = buARMED ∨ d.burstState = buRECORDING then burstClose (d.onBurst fun b => { b with abort := true })
  else d

def execBurstAbort (p : Port) (s : State) : Out := onDev (gatePage p .ary burstAbort) s

/-! ## At a start tick -/

/-- Frame `u` begins to be read: a burst takes it if one is armed for it or records. (DEDUCED, log entry 87.) -/
def burstStart (u : Nat) (d : Dev) : Dev :=
  let due : Bool := match d.burst.armAt with | some c => decide (c + 750 ≤ d.cyc) | none => false
  let d := if d.burstState = buARMED ∧ due then d.setF ARY_BURST_STAT_STATE buRECORDING else d
  if d.burstState ≠ buRECORDING ∨ d.burst.cutOff then d
  else if d.burstFits d.burst.begun = false then burstClose d
  else
    let d := d.mapFrame u fun f => { f with burst := true, pipe := d.a ARY_BURST_CFG_PIPE = 1 }
    let n := d.burst.begun + 1
    let d := d.onBurst fun b => { b with begun := n }
    if d.burstFits n then d else d.onBurst fun b => { b with cutOff := true }

/-- The stop tick ends a burst that records. -/
def burstStop (d : Dev) : Dev :=
  if d.burstState = buRECORDING ∧ d.burst.cutOff = false then burstClose d else d

/-! ## Writing a frame (R381) -/

/-- Segments of a row that touch, joined: first pixel and pixels. -/
def joinSegs : List (Nat × List Nat) → List (Nat × List Nat)
  | [] => []
  | (x, px) :: t =>
    match joinSegs t with
    | (x', px') :: t' => if x + px.length = x' then (x, px ++ px') :: t' else (x, px) :: (x', px') :: t'
    | [] => [(x, px)]

/-- Line that a row of a burst frame shows. -/
def burstLineNo (c : Dev) (f : Frame) (rk : Nat) : Nat :=
  if f.sched = schedSTRIP then
    let r := rk % 8240
    let bank := if r < 4120 then 0 else 1
    let row := if bank = 0 then r - c.a TRG_STRIP_ROW_TOP else 8239 - r - c.a TRG_STRIP_ROW_BOT
    4 * (rk / 8240) + 2 * bank + row
  else rk - 24

/-- Active rows of a pass of a frame, as lines. -/
def burstLines (c : Dev) (f : Frame) (x : PFrame) (pass : Nat) : List BurstLine :=
  ((passRows x.raw pass).filter fun rk => 24 ≤ rk % 8240 ∧ rk % 8240 < 8216).flatMap fun rk =>
    let segs := (rowSegKeys x.raw pass rk).filterMap fun k =>
      (SMap.get (noSeg Nat) x.raw k).map fun (s : SegOf Nat) => (k % 128 * 128, s)
    let trt := if f.sched = schedSTRIP then (match segs.head? with | some s => s.2.hd.trt | none => 0) else 0
    (joinSegs (segs.map fun s => (s.1, s.2.px))).map fun p => { line := burstLineNo c f rk, x0 := p.1, trt, px := p.2 }

/-- A pass of a frame as it is stored. (DEDUCED, log entry 87.) -/
def burstPass (c : Dev) (f : Frame) (x : PFrame) (pass : Nat) : BurstFr :=
  let strip := f.sched = schedSTRIP
  let bits := f.depth
  let lines := burstLines c f x pass
  let px := lines.foldl (fun n (l : BurstLine) => n + l.px.length) 0
  let h := frameHeader c f none 3 0 pass (if strip then 4 * c.a TRG_STRIP_CFG_COUNT else 8192) 12288 bits 0
    (if strip then 3 else 0) 0 0 (px * bits / 8)
  let marked := x.raw.any fun p => decide (p.1 / 128 / 2 ^ 30 = pass) && !(f.darkRow (p.1 / 128 % 2 ^ 30)) &&
    match p.2 with | some s => s.hd.ovw | none => false
  { start := setAt h 52 0#8, fid := f.fid, pass,
    ticks := f.stamp.ticks, bits, lines,
    flags := if lines.isEmpty = false ∧ marked then orBit f.flags ffOVERWRITTEN else f.flags }

/-- The oldest frame of the burst, once it has left ingest whole. -/
def Dev.burstReady (d : Dev) : Option Nat :=
  ((d.frames.find? fun p => p.2.burst).map (·.1)).filter fun u =>
    (List.range (d.frame u).m).all fun p => d.rawDone u p

/-- A frame is written whole. -/
def burstWrite (d : Dev) : Dev :=
  match d.burstReady with
  | none => d
  | some u =>
    let f := d.frame u
    let c := d.asOf u
    let fs := (List.range f.m).map (burstPass c f (d.pf u))
    let d := d.mapFrame u fun f => { f with burst := false }
    let d := d.onBurst fun b => { b with stored := b.stored ++ fs }
    let d := if d.burst.dest = 0 then { d with hmp := { d.hmp with powerDown := 0 } } else d
    let d := d.bump ARY_BURST_STAT_COUNT
    if d.burst.cutOff ∧ d.burst.begun = d.burstCount then burstEnd d else d

/-- BURST_FRAME_WRITE. -/
def execBurstFrameWrite (s : State) : Out := onDev burstWrite s

end Sys2Proof.Machine
end

