-- ==== Sys2Proof/Machine/Exposure.lean ====
section
/-! DEFINITION. The context table, its copy and snapshot, and what the auto-exposure loop reports
(R59, R134 to R146, R149 to R153). -/
namespace Sys2Proof.Machine

/-! ## Context table (R59, R142, R143) -/

/-- Context banks' register words: bank, tile and word of a table address. -/
def ctxAddr (b t i : Nat) : Nat := 0x100000 + (b * 6144 + t) * 16 + 4 * i

/-- Latched BANK_SEL of a commit. -/
def Commit.bankSel (c : Commit) : Nat := bitsOf (SMap.get resetWord c.latched 0x11120) 0 0

/-- States of COMMIT_STAT (R67). -/
def comIDLE : Nat := 0
def comCHECKING : Nat := 1
def comACCEPTED : Nat := 2
def comPENDING : Nat := 3
def comDONE : Nat := 4
def comFAILED : Nat := 5

def noCommit : Nat → Commit := fun _ => {}
def Dev.pageCom (d : Dev) (p : Page) : Commit := SMap.get noCommit d.com.pages p.code
def Dev.comState (d : Dev) (p : Page) : Nat := d.hf p HD_COMMIT_STAT_STATE

/-- Has a commit been accepted and neither applied nor failed? -/
def inForce (st : Nat) : Bool := st = comACCEPTED || st = comPENDING

/-- The bank that an accepted EXP or global commit protects (R142). -/
def Dev.bankHeld (d : Dev) (b : Nat) : Bool :=
  (d.com.accepted.contains .exp && (d.pageCom .exp).bankSel = b) ||
    ((d.com.gstate = .accepted || d.com.gstate = .pending) && d.com.glob.bankSel = b)

/-- The bits of a context's word that a field uses; the others read 0 (R13, R134). -/
def ctxMask (i : Nat) : Word :=
  match i with | 1 => 0xFFFFFFCF#32 | 2 => 0xFFFFCFFF#32 | 3 => 0xFFFFFF07#32 | _ => 0xFFFFFFFF#32

/-- A write to a word of the table. -/
def ctxWrite (p : Port) (a : Nat) (v : Word) (d : Dev) : Dev :=
  let b := (a - 0x100000) / 16 / 6144
  if d.f EXP_CTX_CTRL_COPY_BUSY = 1 ∨ b = d.activeBank ∨ d.bankHeld b then d.reject .exp p a v 3
  else d.putWord (a / 4 * 4) (v &&& ctxMask (a / 4 % 4))

/-- CTX_TABLE_WRITE (R59). A write elsewhere is not this command. -/
def execCtxTableWrite (p : Port) (a : BitVec 24) (v : Word) (s : State) : Out :=
  onDev (gatePage p .exp fun d =>
    match decodeAddr a.toNat with
    | .ctx _ _ => ctxWrite p a.toNat v d
    | _ => d) s

/-- A write of 1 to COPY. -/
def ctxCopy (p : Port) (v : Word) (d : Dev) : Dev :=
  if d.f EXP_CTX_CTRL_COPY_BUSY = 1 ∨ d.bankHeld (1 - d.activeBank) then
    d.reject .exp p 0x11120 v 3
  else d.setF EXP_CTX_CTRL_COPY_BUSY 1

/-- CTX_COPY (R143). -/
def execCtxCopy (p : Port) (s : State) : Out := onDev (gatePage p .exp (ctxCopy p 0x100#32)) s

/-- Every entry of the active bank, as the inactive bank's: what COPY leaves. -/
def copyBank (d : Dev) : Dev :=
  let size := 6144 * 16
  let src := 0x100000 + d.activeBank * size
  let dst := 0x100000 + (1 - d.activeBank) * size
  let rs := d.regs.filter fun p => src ≤ p.1 && p.1 < src + size
  let base := SMap.eraseRange d.regs dst (dst + size)
  { d with regs := rs.foldr (fun p m => SMap.set resetWord m (p.1 - src + dst) p.2) base }

/-- CTX_SNAPSHOT (R95, R146): entries of one bank. -/
def ctxSnapshot (d : Dev) : Dev :=
  let b := d.cmdNat 0 1
  let t := d.cmdNat 1 2
  let n := d.cmdNat 3 2
  if 2 ≤ b ∨ n = 0 ∨ 64 < n ∨ 6144 < t + n then d.mbxDone resBAD_PARAM
  else
    let word (w : Word) : List Byte := u32 w.toNat
    d.mbxDone resOK ((List.range n).flatMap fun i => (d.ctxWords b (t + i)).flatMap word)

def execCtxSnapshot (s : State) : Out := onDev (mbxServe 0x0020 (· = 2) ctxSnapshot) s

/-! ## Validity of a context (R135, R136, R138) -/

/-- Ratio code of a sub-exposure; E0's is 0. -/
def ctxQof (c : List Word) (i : Nat) : Nat := if i = 0 then 0 else ctxQ c i

/-- The sub-exposures of a context. -/
def ctxSubs (c : List Word) : List Nat := (List.range 4).filter fun i => (ctxSub c).testBit i

/-- Effective exposure of a sub-exposure to the fourth power (R145): exact in whole numbers. -/
def effH4 (dur : Nat) (hcg : Bool) (g : Nat) : Nat := (dur * if hcg then 4 else 1) ^ 4 * 2 ^ g
def ctxH4 (c : List Word) (i : Nat) : Nat := effH4 (ctxDur c i) ((ctxCg c).testBit i) (ctxG c i)

/-- The values never decrease. -/
def rising : List Nat → Bool
  | a :: b :: t => decide (a ≤ b) && rising (b :: t)
  | _ => true

/-- Conditions 1, 2, 3 and 5 of R138, for frames of `m` sub-exposures. (DEDUCED, log entry 68.) -/
def ctxValid (m : Nat) (c : List Word) : Bool :=
  let ss := ctxSubs c
  let hs := ss.map (ctxH4 c)
  (ctxSub c).testBit 0 && ss.all (fun i => decide (i < m)) && rising (ss.map (ctxQof c)) &&
    decide (300 ≤ ctxDur0 c) && ss.all (fun i => decide (ctxQof c i ≤ 48) && decide (ctxG c i ≤ 12)) &&
    ctxAlign c != 3 && hs.all fun h => hs.all fun l => decide (h ≤ 4096 ^ 4 * l)

/-- Condition 4 of R138, for slot lengths by sub-exposure. (DEDUCED, log entry 68.) -/
def ctxFits (slot : Nat → Nat) (c : List Word) : Bool :=
  (ctxSubs c).all fun i =>
    decide ((if ctxAlign c = 2 then ctxOffset c else 0) + ctxDur c i ≤ slot i)

/-- Condition 6 of R138, for a tile. -/
def ctxEdge (m t : Nat) (c : List Word) : Bool :=
  let ty := t / 96
  (ty != 0 && ty != 63) || ((List.range m).all (fun i => (ctxSub c).testBit i) && !ctxRstHold c)

/-! ## Reports of the auto-exposure loop (R149, R153) -/

/-- Should the loop be running? -/
def Dev.aeRuns (d : Dev) : Bool :=
  d.boot.run = .running && d.hf .exp HD_PAGE_CTRL_EN = 1 && d.hf .exp HD_PAGE_CTRL_EXPERT = 0 &&
    d.f EXP_BASIC_AE_MODE != 0

/-- An iteration has not committed within its limit, or its commit has failed. -/
def aeMissed (d : Dev) : Dev :=
  if d.aeRuns ∧ ¬ inForce (d.comState .exp) then
    (d.onAry fun a => { a with aePend := none }).bump EXP_AE_MISSED
  else d

/-- AE_MISSED (R153). -/
def execAeMissed (s : State) : Out := onDev aeMissed s

/-- Eight frames without a committed iteration. -/
def aeStale (d : Dev) : Dev :=
  if d.aeRuns ∧ 8 ≤ d.ary.aeIdle ∧ d.f EXP_AE_STAT_STALE = 0 then
    ((d.setF EXP_AE_STAT_STALE 1).raise EXP_IRQ_RAW_AE_STALE).emitFw 0x017
  else d

/-- AE_STALE (R153). -/
def execAeStale (s : State) : Out := onDev aeStale s

end Sys2Proof.Machine
end

