-- ==== Sys2Proof/Machine/Checks.lean ====
section
/-! DEFINITION. The consistency check of a commit: latched sets, what they demand, and every rule that
refuses one (R15, R50, R67, R144, R195, R210, R220, R222, R230, R299, R311, R325, R336, R351, R355, R364, R368,
R371, R372, R382, R426, R468). A check reads a candidate: the device with the latched sets as its active set. -/
namespace Sys2Proof.Machine

/-! ## Latched sets (R16, R66) -/

/-- Bits of a register that are of class SH. -/
def shMask (b : Blk) (off : Nat) : Word :=
  ((fieldsAt b off).filter fun f => f.acc = .sh).foldl (fun w f => setBits w f.hi f.lo (2 ^ 32 - 1)) 0#32

/-- The entries of a map that lie in a page. -/
def pageWords (p : Page) (m : SMap Word) : SMap Word :=
  m.filter fun e => decide (p.base ≤ e.1) && decide (e.1 < p.base + p.size)

/-- One word of a latched set becomes active. -/
def applyWord (p : Page) (l : SMap Word) (act : SMap Word) (a : Nat) : SMap Word :=
  let m := shMask p.blk (a - p.base)
  SMap.set resetWord act a ((SMap.get resetWord act a &&& ~~~m) ||| (SMap.get resetWord l a &&& m))

/-- A latched set becomes a page's active set. -/
def applySet (p : Page) (l act : SMap Word) : SMap Word :=
  ((pageWords p l ++ pageWords p act).map (·.1)).foldl (applyWord p l) act

/-- The shadow set of a page, or of every page. -/
def Dev.latchOf (d : Dev) : Option Page → SMap Word
  | some p => pageWords p d.regs
  | none => d.regs.filter fun e => decide (e.1 < 0x100000)

/-- Does a latched set differ from the page's active set? (DEDUCED, log entry 47.) -/
def Dev.differs (d : Dev) (l : SMap Word) (p : Page) : Bool := applySet p l d.act != d.act

/-- The device with latched sets applied to some pages. -/
def Dev.candidate (d : Dev) (l : SMap Word) (ps : List Page) : Dev :=
  { d with act := ps.foldl (fun a p => applySet p l a) d.act }

/-! ## Failures (R67) -/

/-- Why a page fails: reason, byte offset of the register named, and CTX_FAIL's check, tile and bank. -/
structure Fail where
  reason : Nat
  ofs : Nat
  ctx : Option (Nat × Nat × Nat) := none
  deriving DecidableEq, Repr

/-- The failure at the lowest offset; of several there, the first. (DEDUCED, log entry 47.) -/
def firstFail : List Fail → Option Fail
  | [] => none
  | f :: t => match firstFail t with
    | some g => if g.ofs < f.ofs then some g else some f
    | none => some f

def failIf (b : Bool) (reason ofs : Nat) : List Fail := if b then [{ reason, ofs }] else []

def reRANGE : Nat := 2
def reDISAGREE : Nat := 3
def reCROSS : Nat := 4
def reDEMAND : Nat := 5
def reGOV : Nat := 6
def reDRAIN : Nat := 7
def reMODE : Nat := 8
def reENGINE : Nat := 9
def reGROUP : Nat := 10
def reBUSY : Nat := 11
def reABORTED : Nat := 12

/-- Fields of class SH that hold a reserved code or a value outside their range (R15, R583). A GEO commit gives either
the reason RANGE (R336). -/
def fieldFails (c : Dev) (p : Page) : List Fail :=
  (pageWords p c.act).flatMap fun e =>
    ((fieldsAt p.blk (e.1 - p.base)).filter fun f => f.acc = .sh && !f.legal.ok (bitsOf e.2 f.hi f.lo)).map fun f =>
      { reason := if p = .geo then reRANGE else f.legal.commitReason, ofs := e.1 - p.base }

/-! ## Frame length and demand (R48, R49, R199, R201, R206, R278) -/

def Dev.passLen (d : Dev) : Nat := passCycles (d.a ARY_PASS_CFG_ROWS) d.tRow

/-- P′: P in whole timebase ticks. -/
def Dev.periodTicks (d : Dev) : Nat := (d.periodP + 2) / 3 * 3

/-- The row-time extension that a throttle value gives (R499). -/
def throttleExt (trow r : Nat) : Nat := (trow * r + (256 - r) - 1) / (256 - r)

/-- The extension under which the governor takes the demand: what the throttle's value gives, or what the
capacity under the cap asked for where that is more (R53, R499). -/
def Dev.demandExt (d : Dev) : Nat :=
  max (throttleExt d.tRow d.thm.rAct) d.thm.extThr

/-- Own-array peak demand in Mpx/s: at the extended row time while the throttle acts (R53, R499). -/
def Dev.ownDemand (d : Dev) : Rat :=
  ((d.a ARY_DEMAND_PX_ROW * 750 : Nat) : Rat) / ((d.tRow + d.demandExt : Nat) : Rat)

/-- Guaranteed capacity at a VCORE in mV, in Mpx/s: of the highest entry that the voltage reaches (R49).
(DEDUCED, log entry 48.) -/
def guaranteed (mv : Nat) : Nat :=
  if 850 ≤ mv then 88000 else if 800 ≤ mv then 80000 else if 750 ≤ mv then 72000 else if 700 ≤ mv then 62000
  else if 650 ≤ mv then 52000 else if 600 ≤ mv then 40000 else 0

/-- Declared satellite rate in Mpx/s: enabled sensors of enabled ports. -/
def Dev.satDeclared (d : Dev) : Nat :=
  (List.range 8).foldl (fun n p =>
    if d.hf (blkPage .sp p) HD_PAGE_CTRL_EN = 1 then
      (List.range 4).foldl (fun n v => if d.ai SP_VS_FMT_EN p v = 1 then n + d.ai SP_VS_RATE_RATE p v else n) n
    else n) 0

def Dev.margin (d : Dev) : Rat := 1 + (d.f PWR_GOV_MARGIN : Rat) / 100

/-- g, the satellite rate that enters the demand (R278). (DEDUCED, log entry 48.) -/
def Dev.satGrant (d : Dev) : Rat :=
  let cap := d.a ING_SAT_CAP_MPXS
  let decl : Rat := d.satDeclared
  let free := max 0 ((guaranteed d.pwr.vCeil : Rat) / d.margin - d.ownDemand)
  min (if cap = 0 then decl else min decl cap) free

/-- The demanded rate of R48, in Mpx/s. -/
def Dev.demand (d : Dev) : Rat := d.ownDemand + d.satGrant

/-! ## Outputs of geometry, and the encoder's load (R330, R332, R364) -/

/-- Width and height of a member's image. -/
def memberImage (c : Dev) (m : Nat) : Nat × Nat :=
  if m = 0 then (12288, 8192)
  else (c.ai SP_VS_GEO_WIDTH (memberPort m) (memberVs m), c.ai SP_VS_GEO_HEIGHT (memberPort m) (memberVs m))

/-- Is the descriptor's image a strip image? -/
def Dev.odStrip (c : Dev) (n : Nat) : Bool := c.ak GEO_OD0_MEMBER n = 0 && c.sched = schedSTRIP

def Dev.odBin (c : Dev) (n : Nat) : Nat := if c.odStrip n then 1 else 2 ^ c.ak GEO_OD3_BIN n

/-- Source rectangle's width and height of output `n`. -/
def Dev.odSrc (c : Dev) (n : Nat) : Option (Nat × Nat) :=
  let (iw, ih) := memberImage c (c.ak GEO_OD0_MEMBER n)
  let strip := c.odStrip n
  (srcRect c (c.ak GEO_OD0_SRC n) (c.ak GEO_OD0_WIN n) (c.ak GEO_OD1_X0 n) (if strip then 0 else c.ak GEO_OD1_Y0 n)
    (c.ak GEO_OD2_W n) (if strip then ih else c.ak GEO_OD2_H n) (2 * c.odBin n) iw ih).map fun r =>
      (r.2.2.1, if strip then 4 * c.a TRG_STRIP_CFG_COUNT else r.2.2.2)

/-- Size of the image that output `n` makes, where it is enabled and makes one. -/
def Dev.odSize (c : Dev) (n : Nat) : Option (Nat × Nat) :=
  if c.ak GEO_OD0_EN n = 0 then none
  else (c.odSrc n).map fun s =>
    if c.ak GEO_OD3_SCALE_EN n = 1 then (c.ak GEO_OD4_OUT_W n, c.ak GEO_OD4_OUT_H n)
    else (s.1 / c.odBin n, s.2 / c.odBin n)

/-- The enabled output that feeds a view. -/
def Dev.viewSource (c : Dev) (v : Nat) : Option Nat :=
  (List.range 64).find? fun n => c.ak GEO_OD0_EN n = 1 && (c.ak GEO_OD3_DEST n).testBit v

/-- Frames per second of a member, before limits (R364). -/
def Dev.memberRate (c : Dev) (m : Nat) : Rat :=
  if m = 0 then (750000000 : Rat) / (c.periodTicks : Nat)
  else
    let (w, h) := memberImage c m
    if w * h = 0 then 0
    else ((c.ai SP_VS_RATE_RATE (memberPort m) (memberVs m) * 1000000 : Nat) : Rat) / ((w * h : Nat) : Rat)

def limited (f : Rat) (cfps : Nat) : Rat := if cfps = 0 then f else min f ((cfps : Rat) / 100)

/-- Load of encoder stream `n` in units per second. -/
def Dev.streamLoad (c : Dev) (n : Nat) : Rat :=
  if c.ak ENC_ES0_EN n = 0 then 0
  else
    let src := c.ak ENC_ES0_SRC n
    let lim := c.ak ENC_ES2_RATE_LIM n
    if c.ak ENC_ES0_KIND n = 0 then
      match c.odSize src with
      | some (w, h) => ((w * h : Nat) : Rat) * limited (c.memberRate (c.ak GEO_OD0_MEMBER src)) lim
      | none => 0
    else
      match c.viewSource src with
      | some o =>
        let f := limited (c.memberRate (c.ak GEO_OD0_MEMBER o)) (c.ak VEW_RATE_LIM_CFPS src)
        ((2 * c.ak VEW_RASTER_OUT_W src * c.ak VEW_RASTER_OUT_H src : Nat) : Rat) * limited f lim
      | none => 0

/-- L_enc in Mpx/s (R364). -/
def Dev.encLoad (c : Dev) : Rat :=
  (List.range 16).foldl (fun n es => n + c.streamLoad es) (0 : Rat) / 1000000

def Dev.encOver (c : Dev) : Bool := decide ((17600 : Rat) < c.encLoad)

/-! ## Frame store (R371) -/

/-- Is there an enabled entry of a use, with an index where one counts, of at least a size in MiB?
(DEDUCED, log entry 113.) -/
def Dev.hasAlloc (c : Dev) (use : Nat) (index : Option Nat) (need : Nat) : Bool :=
  (List.range 48).any fun n =>
    c.ak FST_ALLOC0_EN n = 1 && c.ak FST_ALLOC0_USE n = use && decide (need ≤ c.ak FST_ALLOC1_SIZE n) &&
      match index with | some i => c.ak FST_ALLOC0_INDEX n = i | none => true

/-- Fusion without its allocation (R325). -/
def Dev.noFusion (c : Dev) : Bool := 2 ≤ c.mSub && c.a HDR_CFG_MODE = 0 && !c.hasAlloc 1 none 384

/-- Picture of a view: the image its output makes. -/
def Dev.picture (c : Dev) (v : Nat) : Option (Nat × Nat) := (c.viewSource v).bind c.odSize

/-- An enabled view without its allocation (R355). -/
def Dev.noView (c : Dev) (v : Nat) : Bool :=
  let need := match c.picture v with | some (w, h) => (8 * (w * h) + 2 ^ 20 - 1) / 2 ^ 20 | none => 1
  c.ak VEW_CFG_EN v = 1 && !c.hasAlloc 2 (some v) need

/-- A burst to the frame store without its allocation (R371). -/
def Dev.noBurst (c : Dev) : Bool := c.a ARY_BURST_CFG_EN = 1 && c.a ARY_BURST_CFG_DEST = 1 && !c.hasAlloc 3 none 1

/-- FREE.MIB: units in no enabled entry. -/
def Dev.freeUnits (c : Dev) : Nat :=
  8192 - (List.range 48).foldl (fun n k => if c.ak FST_ALLOC0_EN k = 1 then n + c.ak FST_ALLOC1_SIZE k else n) 0

/-- BW_DECL in MB/s: reads and writes of the committed uses at their peak, satellites within the pixel rate that the
own array leaves (R375). (DEDUCED, log entry 48.) -/
def Dev.declaredBw (c : Dev) : Rat :=
  let own : Rat := ((c.a ARY_DEMAND_PX_ROW * 750 : Nat) : Rat) / ((c.tRow : Nat) : Rat)
  let bits : Rat := if c.a ARY_ADC_CFG_MODE = 1 then 10 else 12
  let refs := if (c.alloc 0 0 0).isSome then own * bits / 4 else 0
  let rate (k : Nat) : Rat := if (c.alloc 0 (k + 1) 0).isSome then (c.ai SP_VS_RATE_RATE (k / 4) (k % 4) : Nat) else 0
  let bytes := (List.range 32).foldl (fun n k =>
    n + rate k * ((10 + 2 * c.ai SP_VS_FMT_BITS (k / 4) (k % 4) : Nat) : Rat) / 4) (0 : Rat)
  let sum := (List.range 32).foldl (fun n k => n + rate k) (0 : Rat)
  let left : Rat := if own < 88000 then 88000 - own else 0
  let sats := if left < sum then bytes * left / sum else bytes
  let fuse := if c.hasAlloc 1 none 384 then own * 8 else 0
  let burst : Rat :=
    if c.a ARY_BURST_CFG_EN = 1 ∧ c.a ARY_BURST_CFG_DEST = 1 then
      ((c.burstFrameSize * 750 : Nat) : Rat) / ((c.periodTicks : Nat) : Rat)
    else 0
  let views := (List.range 2).foldl (fun n v =>
    match c.picture v with
    | some (w, h) =>
      if c.ak VEW_CFG_EN v = 1 then n + ((8 * w * h * c.ak VEW_RATE_LIM_CFPS v : Nat) : Rat) / 100000000 else n
    | none => n) (0 : Rat)
  refs + sats + fuse + burst + views

/-! ## Contexts and slots (R138, R144, R220) -/

/-- Tiles of a bank with an entry listed. -/
def Dev.tilesListed (d : Dev) (b : Nat) : List Nat :=
  ((d.regs.filter fun e => decide (ctxAddr b 0 0 ≤ e.1) && decide (e.1 < ctxAddr b 6144 0)).map
    fun e => (e.1 - ctxAddr b 0 0) / 16).eraseDups

/-- The first tile of a bank whose context is bad, for a fault that depends on the context and on whether
the tile lies in tile row 0, in row 63 or between: listed tiles, and the first unlisted tile of each. -/
def Dev.firstBad (d : Dev) (b : Nat) (bad : Nat → List Word → Bool) : Option Nat :=
  let l := d.tilesListed b
  let rest := ([List.range 96, (List.range 5952).map (· + 96), (List.range 96).map (· + 6048)]).filterMap
    fun ts => ts.find? fun t => !l.contains t
  ((l ++ rest).filter fun t => bad t (d.ctxWords b t)).min?

/-- The bank that will be active. -/
def Dev.willBank (c : Dev) : Nat := c.a EXP_CTX_CTRL_BANK_SEL

/-- Checks 4 and 5, each with the first tile that breaks it. Both point to CTX_CTRL: where both fail, the commit
reports check 4, whichever tile is the lower. (DESIGN CHOICE, log entry 116: R144 does not say which.) -/
def contextFails (c : Dev) : List Fail :=
  let b := c.willBank
  let fail (k reason : Nat) (t : Option Nat) : List Fail :=
    match t with
    | some t => [{ reason, ofs := 0x120, ctx := some (k, t, b) }]
    | none => []
  fail 4 reRANGE (c.firstBad b fun _ w => !ctxValid c.mSub w) ++
    fail 5 reDISAGREE (c.firstBad b fun t w => !ctxFits (c.ak EXP_SLOT) w || !ctxEdge c.mSub t w)

/-- Check 1: sub-exposures whose slot is below 300. -/
def Dev.shortSlots (c : Dev) : List Nat := (List.range c.mSub).filter fun i => decide (c.ak EXP_SLOT i < 300)

/-- Check 2: sub-exposures whose slot outlasts a pass. -/
def Dev.longSlots (c : Dev) : List Nat :=
  ((List.range c.mSub).drop 1).filter fun i => decide (c.passLen < c.ak EXP_SLOT i + 150)

/-- Check 3. -/
def Dev.slot0Long (c : Dev) : Bool := decide (c.periodP < c.ak EXP_SLOT 0 + 150 + (c.mSub - 1) * c.passLen)

/-- Does a context break R220's bound? -/
def windowBroken (win : Nat) (w : List Word) : Bool :=
  decide (win < 12 + (if ctxAlign w = 2 then ctxOffset w else 0) + ctxDur0 w)

/-- R220: the first tile that breaks the bound on TRIG_WIN, for a page that names the register at `ofs`. -/
def windowFails (c : Dev) (ofs : Nat) : List Fail :=
  if c.sched = schedPERIODIC then []
  else
    match c.firstBad c.willBank fun _ w => windowBroken (c.a TRG_TRIG_WIN) w with
    | some t => [{ reason := reCROSS, ofs, ctx := some (6, t, c.willBank) }]
    | none => []

/-- Checks 2 and 3 as an ARY or ENG commit makes them, with the registers it names. (DEDUCED, log entry 113.) -/
def slotFails (c : Dev) (ofs2 ofs3 : Nat) : List Fail :=
  if c.sched ≠ schedPERIODIC then []
  else
    (if c.longSlots.isEmpty then [] else [{ reason := reCROSS, ofs := ofs2, ctx := some (2, 0, 0) }]) ++
      (if c.slot0Long then [{ reason := reCROSS, ofs := ofs3, ctx := some (3, 0, 0) }] else [])

/-- R230: a triggered or strip schedule with m > 1 or with a frame period. -/
def Dev.badMode (c : Dev) : Bool :=
  c.sched != schedPERIODIC && (decide (1 < c.mSub) || c.a ARY_FRAME_PERIOD != 0)

/-- R230: strip with a binned output of the own array; the first such output. -/
def Dev.stripBin (c : Dev) : Option Nat :=
  if c.sched = schedSTRIP then
    (List.range 64).find? fun n =>
      c.ak GEO_OD0_EN n = 1 && c.ak GEO_OD0_MEMBER n = 0 && c.ak GEO_OD3_BIN n != 0
  else none

/-! ## Pages -/

/-- Data rate of the Hamper by its code, MT/s (R392). -/
def memRate : Nat → Nat
  | 0 => 3200 | 1 => 4266 | 2 => 5500 | 3 => 6400 | 4 => 7500 | _ => 8533

/-- R382: a burst to the Hamper without room, or too fast for the writer. -/
def hamperFails (c : Dev) : List Fail :=
  if c.a ARY_BURST_CFG_EN = 1 ∧ c.a ARY_BURST_CFG_DEST = 0 then
    let rate := if c.f HMP_STAT_STATE = hmpREADY then memRate (c.f HMP_STAT_RATE_ACT) else memRate (c.f HMP_MEM_CFG_RATE)
    let ch := if c.f HMP_STAT_STATE = hmpREADY then maskCount (c.f HMP_STAT_CH_OK) else maskCount (c.f HMP_MEM_CFG_CH_MASK)
    failIf (c.f HMP_REGION_BURST_GIB = 0) reCROSS 0x1C0 ++
      failIf (decide (85 * 4 * rate * ch * c.periodTicks < 100 * 750 * c.burstFrameSize)) reCROSS 0x100
  else []

/-- (DEDUCED, log entry 113.) -/
def aryFails (c : Dev) : List Fail :=
  failIf (c.a ARY_ADC_CFG_CDS_BYPASS = 1 && c.a ARY_ADC_CFG_COL_OFS_EN = 1) reDISAGREE 0x100 ++
    failIf (decide ((88000 : Rat) < c.ownDemand)) reDEMAND 0x100 ++
    failIf (c.badMode || c.stripBin.isSome) reMODE 0x180 ++
    failIf (c.a ARY_FRAME_PERIOD != 0 && decide (c.a ARY_FRAME_PERIOD < c.mSub * c.passLen)) reRANGE 0x184 ++
    slotFails c 0x188 0x184 ++ windowFails c 0x180 ++ failIf c.noBurst reCROSS 0x1C0 ++ hamperFails c ++
    failIf c.encOver reCROSS (if c.a ARY_FRAME_PERIOD = 0 then 0x100 else 0x184)

def expFails (c : Dev) : List Fail :=
  let slots : List Fail :=
    if c.sched = schedPERIODIC then
      c.shortSlots.map (fun i => { reason := reRANGE, ofs := 0x110 + 4 * i, ctx := some (1, 0, 0) }) ++
        c.longSlots.map (fun i => { reason := reCROSS, ofs := 0x110 + 4 * i, ctx := some (2, 0, 0) }) ++
        (if c.slot0Long then [{ reason := reCROSS, ofs := 0x110, ctx := some (3, 0, 0) }] else [])
    else windowFails c 0x120
  failIf (c.sched != schedPERIODIC && decide (1 < c.mSub)) reMODE 0x100 ++
    failIf (c.a ARY_FRAME_PERIOD != 0 && decide (c.a ARY_FRAME_PERIOD < c.mSub * c.passLen)) reCROSS 0x100 ++
    failIf c.noFusion reCROSS 0x100 ++ slots ++ contextFails c

def winFails (c : Dev) : List Fail :=
  (List.range 256).flatMap fun n =>
    let x := c.ak WIN_DESC0_X0 n
    let y := c.ak WIN_DESC0_Y0 n
    let w := c.ak WIN_DESC1_W n
    let h := c.ak WIN_DESC1_H n
    if c.ak WIN_DESC0_EN n = 0 then []
    else
      failIf (x % 2 != 0 || y % 2 != 0 || decide (12288 < x + w) || decide (8192 < y + h)) reRANGE (0x400 + 8 * n) ++
        failIf (w % 2 != 0 || h % 2 != 0 || decide (w < 2) || decide (h < 2)) reRANGE (0x404 + 8 * n)

def stripRowBad (r : Nat) : Bool := r % 2 != 0 || decide (r < 24) || decide (4118 < r)

def trgFails (c : Dev) : List Fail :=
  windowFails c 0x124 ++
    failIf (stripRowBad (c.a TRG_STRIP_ROW_TOP) || stripRowBad (c.a TRG_STRIP_ROW_BOT)) reRANGE 0x134

/-- R195: words of the window that no engine runs. -/
def Dev.badWindow (d : Dev) (e bot top : Nat) : Bool :=
  (List.range (top + 1 - bot)).any fun i => (eDecode (d.word (0x180000 + 0x1000 * e + 4 * (bot + i)))).isNone

def engFails (c : Dev) (e : Nat) : List Fail :=
  let top := c.ai ENG_WRAP_TOP e 0
  let bot := c.ai ENG_WRAP_BOT e 0
  let n := c.ai ENG_DMA_CFG_COUNT e 0
  let first := c.ai ENG_DMA_CFG_FIRST e 0
  slotFails c 0x100 0x100 ++
    failIf (decide (1023 < top) || decide (1023 < bot) || decide (top < bot) || c.badWindow e bot top) reENGINE 0x104 ++
    failIf (if c.ai ENG_DMA_CFG_DIR e 0 = 0 then decide (63 < first + n - 1) else decide (first + 1 < n)) reRANGE 0x120

def nrdFails (c : Dev) : List Fail :=
  failIf (decide (c.a NRD_SPAT_THR < 8)) reRANGE 0x100 ++
    failIf (decide (c.a NRD_TEMP_T_HI ≤ c.a NRD_TEMP_T_LO)) reDISAGREE 0x104 ++
    failIf (c.a NRD_TEMP_AGE_MAX_MS = 0) reRANGE 0x108

/-- R299: the entries in force. -/
def pxcFails (c : Dev) : List Fail :=
  let n := c.a PXC_DEF_COUNT_COUNT
  let k := c.a PXC_DEF_CFG_COL_COUNT
  let xOf (w : Word) := bitsOf w 13 0
  let yOf (w : Word) := bitsOf w 26 14
  let far := (List.range n).any (fun i => decide (12287 < xOf (c.defWord i)) || decide (8191 < yOf (c.defWord i))) ||
    (List.range k).any fun i =>
      let w := c.defWord (65537 + 2 * i)
      decide (12287 < xOf (c.defWord (65536 + 2 * i))) || decide (8191 < bitsOf w 12 0) || decide (8191 < bitsOf w 28 16)
  let falls := (List.range (n - 1)).any fun i =>
    let a := c.defWord i
    let b := c.defWord (i + 1)
    decide (yOf b * 16384 + xOf b ≤ yOf a * 16384 + xOf a)
  let flips := (List.range k).any fun i =>
    let w := c.defWord (65537 + 2 * i)
    decide (bitsOf w 28 16 < bitsOf w 12 0)
  failIf far reRANGE 0x104 ++ failIf (falls || flips) reDISAGREE 0x104

def hdrFails (c : Dev) : List Fail :=
  failIf c.noFusion reCROSS 0x100 ++
    failIf (decide (c.a HDR_KNEE_HI ≤ c.a HDR_KNEE_LO)) reDISAGREE 0x108 ++
    failIf (c.a HDR_MOT_EN = 1 && c.a HDR_MOT_THR = 0) reRANGE 0x10C

/-- A ratio of R332: between 1 and 4. -/
def ratioBad (big small : Nat) : Bool := small = 0 || decide (big < small) || decide (4 * small < big)

/-- Rules of R330 and R332 that an enabled output breaks. -/
def odFails (c : Dev) (n : Nat) : List Fail :=
  let o := 0x400 + 32 * n
  let k := 2 * c.odBin n
  let (iw, ih) := memberImage c (c.ak GEO_OD0_MEMBER n)
  let x := c.ak GEO_OD1_X0 n
  let y := c.ak GEO_OD1_Y0 n
  let w := c.ak GEO_OD2_W n
  let h := c.ak GEO_OD2_H n
  if c.ak GEO_OD0_EN n = 0 then []
  else
    (if c.ak GEO_OD0_SRC n = 0 then
      failIf (decide (iw < x + w) || (!c.odStrip n && decide (ih < y + h))) reRANGE o ++
        failIf (x % k != 0 || (!c.odStrip n && y % k != 0)) reRANGE (o + 4) ++
        failIf (w % k != 0 || w = 0 || (!c.odStrip n && (h % k != 0 || h = 0))) reRANGE (o + 8)
    else []) ++
    (if c.ak GEO_OD3_SCALE_EN n = 1 then
      let ow := c.ak GEO_OD4_OUT_W n
      let oh := c.ak GEO_OD4_OUT_H n
      failIf (ow % 2 != 0 || oh % 2 != 0) reRANGE (o + 16) ++
        match c.odSrc n with
        | some (sw, sh) => failIf (ratioBad (sw / c.odBin n) ow || ratioBad (sh / c.odBin n) oh) reRANGE o
        | none => []
    else [])

def geoFails (c : Dev) : List Fail :=
  let on := (List.range 64).filter fun n => c.ak GEO_OD0_EN n = 1
  let views := (List.range 2).flatMap fun v =>
    match on.filter fun n => (c.ak GEO_OD3_DEST n).testBit v with
    | n :: _ :: _ => [{ reason := reDISAGREE, ofs := 0x40C + 32 * n }]
    | _ => []
  let scaled := match on.filter fun n => c.ak GEO_OD3_SCALE_EN n = 1 with
    | n :: l => failIf (decide (4 ≤ l.length)) reDISAGREE (0x40C + 32 * n)
    | [] => []
  let area (n : Nat) : Nat := match c.odSrc n with | some (w, h) => w * h | none => 0
  let areas := (List.range 33).flatMap fun m =>
    match on.filter fun n => c.ak GEO_OD0_MEMBER n = m with
    | [] => []
    | n :: l =>
      let (iw, ih) := memberImage c m
      let whole := iw * (if c.odStrip n then 4 * c.a TRG_STRIP_CFG_COUNT else ih)
      failIf (decide (2 * whole < (n :: l).foldl (fun s n => s + area n) 0)) reDISAGREE (0x400 + 32 * n)
  let bin := match c.stripBin with | some n => [{ reason := reMODE, ofs := 0x40C + 32 * n }] | none => []
  let load := if c.encOver then
      match on.find? fun n => (c.ak GEO_OD3_DEST n).testBit 2 || (c.ak GEO_OD3_DEST n) % 4 != 0 with
      | some n => [{ reason := reCROSS, ofs := 0x400 + 32 * n }]
      | none => [{ reason := reCROSS, ofs := 0x400 }]
    else []
  on.flatMap (odFails c) ++ views ++ scaled ++ areas ++ bin ++ load

def staFails (c : Dev) : List Fail :=
  (List.range 16).flatMap fun n =>
    let o := 0x200 + 16 * n
    let m := c.ak STA_HW0_MEMBER n
    let (iw, ih) := memberImage c m
    let x := c.ak STA_HW1_X0 n
    let y := c.ak STA_HW1_Y0 n
    let w := c.ak STA_HW2_W n
    let h := c.ak STA_HW2_H n
    let strip := m = 0 && c.sched = schedSTRIP
    if c.ak STA_HW0_EN n = 0 then []
    else if c.ak STA_HW0_SRC n = 0 then
      failIf (decide (iw < x + w) || (!strip && decide (ih < y + h))) reRANGE o ++
        failIf (x % 2 != 0 || (!strip && y % 2 != 0)) reRANGE (o + 4) ++
        failIf (w % 2 != 0 || (!strip && h % 2 != 0)) reRANGE (o + 8)
    else failIf (c.ak STA_HW0_SRC n = 1 && m != 0) reRANGE o

/-- (DEDUCED, log entry 113.) -/
def viewFails (c : Dev) (v : Nat) : List Fail :=
  let o := 0x100 + 0x80 * v
  let w := c.ak VEW_RASTER_OUT_W v
  let h := c.ak VEW_RASTER_OUT_H v
  let r := c.ak VEW_RATE_LIM_CFPS v
  let x := c.ak VEW_PLACE_X v
  let y := c.ak VEW_PLACE_Y v
  failIf (c.noView v) reCROSS o ++ failIf (r = 0 || decide (6000 < r)) reRANGE (o + 4) ++
    failIf (w % 2 != 0 || h % 2 != 0 || decide (3840 < w) || decide (2160 < h)) reRANGE (o + 8) ++
    (match c.picture v with
    | some (pw, ph) =>
      failIf (c.ak VEW_CFG_EN v = 1 && (decide (w < pw) || decide (h < ph))) reCROSS (o + 8) ++
        failIf (decide (w < x + pw) || decide (h < y + ph)) reRANGE (o + 8)
    | none => []) ++
    failIf (x % 2 != 0) reRANGE (o + 0xC)

def vewFails (c : Dev) : List Fail :=
  (List.range 2).flatMap (viewFails c) ++
    (if c.encOver then
      match (List.range 2).find? fun v => (c.ak VEW_CFG_DEST v).testBit 0 with
      | some v => [{ reason := reCROSS, ofs := 0x104 + 0x80 * v }]
      | none => [{ reason := reCROSS, ofs := 0x104 }]
    else [])

/-- Narrowest coded component of a stream's source, its depth, and whether the source names the encoder.
(DEDUCED, log entry 113.) -/
def Dev.esSource (c : Dev) (n : Nat) : Option Nat × Nat × Bool :=
  let src := c.ak ENC_ES0_SRC n
  if c.ak ENC_ES0_KIND n = 0 then
    let m := c.ak GEO_OD0_MEMBER src
    let mono := m != 0 && c.ai SP_VS_FMT_CFA (memberPort m) (memberVs m) = 4
    ((c.odSize src).map fun s => if mono then s.1 else s.1 / 2, outBits (c.ak GEO_OD3_BITS src),
      (c.ak GEO_OD3_DEST src).testBit 2)
  else (some (c.ak VEW_RASTER_OUT_W src / 2), 10, decide (src < 2) && (c.ak VEW_CFG_DEST src).testBit 0)

def esFails (c : Dev) (n : Nat) : List Fail :=
  let o := 0x200 + 16 * n
  let (narrow, bits, named) := c.esSource n
  let compand := c.ak ENC_ES0_COMPAND n = 1
  let bpp := c.ak ENC_ES1_BPP n
  let nlx := c.ak ENC_ES1_NLX n
  if c.ak ENC_ES0_EN n = 0 then []
  else
    failIf (!named || (decide (20 ≤ bits) && !compand) || (decide (bits ≤ 16) && compand) || bits = 8) reCROSS o ++
      failIf (match narrow with | some w => decide (w < 32) | none => false) reRANGE o ++
      failIf (decide (bpp < 16) || decide (128 < bpp) || nlx = 0 || decide (5 < nlx) ||
        decide (2 < c.ak ENC_ES1_NLY n)) reRANGE (o + 4)

/-- (DEDUCED, log entry 113.) -/
def encFails (c : Dev) : List Fail :=
  let on := (List.range 16).filter fun n => c.ak ENC_ES0_EN n = 1
  let key (n : Nat) : Nat := c.ak ENC_ES0_KIND n * 64 + c.ak ENC_ES0_SRC n
  let twice := on.flatMap fun n =>
    failIf (on.any fun k => decide (n < k) && key k = key n) reDISAGREE (0x200 + 16 * n)
  let load := if c.encOver then [{ reason := reCROSS, ofs := 0x200 + 16 * on.headD 0 }] else []
  on.flatMap (esFails c) ++ twice ++ load

/-- (DEDUCED, log entry 113.) -/
def fstFails (c : Dev) : List Fail :=
  let on := (List.range 48).filter fun n => c.ak FST_ALLOC0_EN n = 1
  let base := c.ak FST_ALLOC1_BASE
  let size := c.ak FST_ALLOC1_SIZE
  let role (n : Nat) : Nat × Nat × Nat := (c.ak FST_ALLOC0_USE n, c.ak FST_ALLOC0_MEMBER n, c.ak FST_ALLOC0_INDEX n)
  (on.flatMap fun n =>
    failIf (decide (3 < c.ak FST_ALLOC0_USE n) || decide (32 < c.ak FST_ALLOC0_MEMBER n)) reRANGE (0x200 + 8 * n) ++
      failIf (size n = 0 || decide (8192 < base n + size n)) reRANGE (0x204 + 8 * n) ++
      failIf (on.any fun k => decide (n < k) && role k = role n) reDISAGREE (0x200 + 8 * n) ++
      failIf (on.any fun k => decide (n < k) && decide (base n < base k + size k) && decide (base k < base n + size n))
        reDISAGREE (0x204 + 8 * n)) ++
    failIf (c.noFusion || c.noView 0 || c.noView 1 || c.noBurst) reCROSS 0x200

def clkFails (c : Dev) : List Fail :=
  (List.range 10).flatMap fun n =>
    let f := c.ak CLK_OUT_FREQ_FREQ n
    let top := if c.fk CLK_OUT_CFG_FMT n = 2 then 2000000000 else 4000000000
    failIf (decide (f < 10000000) || decide (top < f)) reRANGE (0x204 + 16 * n)

def spFails (c : Dev) (p : Nat) : List Fail :=
  let odd (v : Nat) : Bool := v % 2 != 0 || decide (v < 2) || decide (8192 < v)
  (List.range 4).flatMap fun v =>
    failIf (c.ai SP_VS_FMT_EN p v = 1 && (odd (c.ai SP_VS_GEO_WIDTH p v) || odd (c.ai SP_VS_GEO_HEIGHT p v))) reRANGE
        (0x110 + 16 * v) ++
      failIf (decide (2 ^ (10 + 2 * c.ai SP_VS_FMT_BITS p v) ≤ c.ai SP_VS_FILL_FILL p v)) reRANGE (0x118 + 16 * v)

/-- What a page's own chapter refuses. (DEDUCED, log entry 47.) -/
def ruleFails (c : Dev) : Page → List Fail
  | .ary => aryFails c
  | .exp => expFails c
  | .win => winFails c
  | .trg => trgFails c
  | .eng n => engFails c n
  | .nrd => nrdFails c
  | .pxc => pxcFails c
  | .hdr => hdrFails c
  | .geo => geoFails c
  | .sta => staFails c
  | .vew => vewFails c
  | .enc => encFails c
  | .dlv => failIf (decide (c.a DLV_QUANTUM_BYTES < 256)) reRANGE 0x10C
  | .fst => fstFails c
  | .clk => clkFails c
  | .sp n => spFails c n
  | _ => []

/-- The failed check of R144's table, or of R220, with the lowest number. (DESIGN CHOICE, log entry 116.) -/
def firstCtx : List Fail → Option (Nat × Nat × Nat)
  | [] => none
  | f :: t => match f.ctx, firstCtx t with
    | some a, some b => some (if b.1 < a.1 then b else a)
    | a, b => a <|> b

/-- The check of a page against a candidate: the failure that the page reports, with the failed check that CTX_FAIL
names, whichever failure the page reports (R144). (DEDUCED, log entry 47.) -/
def pageCheck (c : Dev) (p : Page) : Option Fail :=
  let l := fieldFails c p ++ ruleFails c p
  (firstFail l).map fun f => { f with ctx := firstCtx l }

/-- A failing context or slot check is named in CTX_FAIL (R144). (DEDUCED, log entry 47.) -/
def noteContext (f : Fail) (d : Dev) : Dev :=
  match f.ctx with
  | some (k, t, b) => ((d.setF EXP_CTX_FAIL_CHECK k).setF EXP_CTX_FAIL_TILE t).setF EXP_CTX_FAIL_BANK b
  | none => d

end Sys2Proof.Machine
end

