-- ==== Sys2Proof/Machine/Clock.lean ====
section
/-! DEFINITION. Timing PLL, clock outputs and ramps (R460 to R471, R577). -/
namespace Sys2Proof.Machine

/-! ## Timing PLL states (R466) -/
def clkACQUIRE : Nat := 0
def clkLOCKED : Nat := 1
def clkCOASTING : Nat := 2
def clkQUALIFY : Nat := 3
def clkLOST : Nat := 4

def Dev.setClk (d : Dev) (st : Nat) : Dev := { d with clk := { d.clk with state := st } }

def noOut : Nat → OutSt := fun _ => {}
def Dev.outN (d : Dev) (n : Nat) : OutSt := SMap.get noOut d.clk.outs n
def Dev.setOut (d : Dev) (n : Nat) (o : OutSt) : Dev :=
  { d with clk := { d.clk with outs := SMap.set noOut d.clk.outs n o } }

/-- Frequency of a clock output as committed, in units of 10^-10 Hz. -/
def Dev.outFreq (d : Dev) (n : Nat) : Nat := d.ak CLK_OUT_FREQ_FREQ n * 1000000000

/-- Change every clock output that is enabled. -/
def Dev.mapOuts (d : Dev) (f : OutSt → OutSt) : Dev :=
  (List.range 10).foldl
    (fun d n => if d.fk CLK_OUT_CFG_EN n = 1 then d.setOut n (f (d.outN n)) else d) d

/-- An enabled output runs once its OPLL has locked and the timing PLL has first locked (R468). -/
def OutSt.settle (ever : Bool) (o : OutSt) : OutSt := { o with running := o.lock && ever && !o.gated }

/-- An output stays gated until its OPLL has locked again (R471). -/
def OutSt.lost (o : OutSt) : OutSt := { o with lock := false, gated := true, running := false }

/-- STAT.XTAL_OK as it stands with a reference present: the crystal is the reference, or lies near it (R482).
(DESIGN CHOICE, log entry 124.) -/
def Dev.crystal (d : Dev) : Bool := d.f CLK_REF_CFG_SEL = 0 || Config.crystalGood d.cyc

/-! ## Lock (R462, R466) -/

/-- Lock of the timing PLL is declared. (DESIGN CHOICE, log entry 37; DEDUCED, log entry 109.) -/
def timingLock (d : Dev) : Dev :=
  let c := { d.clk with state := clkLOCKED, everLocked := true, refOk := true, xtalOk := d.crystal }
  if d.clk.state = clkACQUIRE then
    let d := { d with clk := c }
    (d.mapOuts (OutSt.settle true)).raise CLK_IRQ_RAW_LOCKED
  else if d.clk.state = clkLOST then
    Dev.mapOuts { d with clk := c } OutSt.lost
  else d

/-- Lock of an output's OPLL is declared: its gate opens, unless the timing PLL is lost (R471). -/
def opllLock (n : Nat) (d : Dev) : Dev :=
  if d.fk CLK_OUT_CFG_EN n = 1 then
    let o := d.outN n
    let o := { o with lock := true, relockFail := false, gated := d.clk.state = clkLOST }
    d.setOut n (o.settle d.clk.everLocked)
  else d

/-- True loss of lock of an output's OPLL (R471). -/
def opllLost (n : Nat) (d : Dev) : Dev :=
  if d.fk CLK_OUT_CFG_EN n = 1 then d.setOut n (d.outN n).lost else d

/-- Is a PLL locked? -/
def Dev.pllLocked (d : Dev) (p : Pll) : Bool :=
  match p with
  | .timing => d.clk.state = clkLOCKED
  | .opll n => d.fk CLK_OUT_CFG_EN n = 1 && (d.outN n).lock
  | .opllLoss _ => false
  | .mem => d.clk.memLock
  | .lane q => d.clk.laneLock.contains q.val

/-- The phase of a PLL has stayed in its window: lock is declared, or where it stands, an excursion has ended, which
is counted and changes nothing else (R462). An OPLL may also truly lose lock (R471). (DEDUCED, log entry 109.) -/
def pllLock (p : Pll) (d : Dev) : Dev :=
  if d.pllLocked p then d.bump CLK_PHASE_EXC else
  match p with
  | .timing => timingLock d
  | .opll n => opllLock n d
  | .opllLoss n => opllLost n d
  | .mem => { d with clk := { d.clk with memLock := true } }
  | .lane q => { d with clk := { d.clk with laneLock := d.clk.laneLock ++ [q.val] } }

/-- PLL_LOCK (R462). A PLL locks only at level ON. -/
def execPllLock (p : Pll) (s : State) : Out :=
  onDev (fun d => if d.aon.level = 2 then pllLock p d else d) s

/-! ## Reference (R463, R464) -/

/-- The loop opens for want of its reference. (DEDUCED, log entry 109.) -/
def coast (d : Dev) : Dev :=
  let d := { d with clk := { d.clk with refOk := false } }
  if d.clk.state = clkACQUIRE ∨ d.clk.state = clkLOCKED then
    (((d.setClk clkCOASTING).raise CLK_IRQ_RAW_COAST).bump CLK_COASTS).emit 0x020 .clk
  else if d.clk.state = clkQUALIFY then (d.setClk clkCOASTING).bump CLK_COASTS
  else d

/-- The reference is lost: where it is the crystal, that does not work either. (DEDUCED, log entry 109.) -/
def refLost (d : Dev) : Dev :=
  coast (if d.f CLK_REF_CFG_SEL = 0 then { d with clk := { d.clk with xtalOk := false } } else d)

/-- CLK_REF_LOST (R463). -/
def execClkRefLost (s : State) : Out := onDev refLost s

/-- CLK_REF_RETURN (R466). (DEDUCED, log entry 109.) -/
def refReturn (d : Dev) : Dev :=
  let d := { d with clk := { d.clk with refOk := true, xtalOk := d.crystal } }
  if d.clk.state = clkCOASTING then d.setClk clkQUALIFY else d

def execClkRefReturn (s : State) : Out := onDev refReturn s

/-- CLK_REF_QUALIFIED (R464), with the phase offset measured, in ps. (DEDUCED, log entry 109.) -/
def refQualified (ofs : BitVec 32) (d : Dev) : Dev :=
  if d.clk.state = clkQUALIFY then
    let d := d.setClk clkACQUIRE
    if ofs.toInt.natAbs ≤ d.f CLK_LOCK_CFG_LOCK_WIN then d
    else
      let d := d.setF CLK_BO_OFS ofs.toNat
      let d := (d.raise CLK_IRQ_RAW_PHASE_JUMP).bump CLK_BUILD_OUTS
      (d.emit 0x021 .clk (s32 ofs.toInt)).sendTime 2
  else d

def execClkRefQualified (ofs : BitVec 32) (s : State) : Out := onDev (refQualified ofs) s

/-- CLK_LOSS_OF_LOCK (R465): every output is gated until its OPLL locks again. Without a crystal the frequency is not
checked while coasting (R466). (DEDUCED, log entry 109.) -/
def lossOfLock (d : Dev) : Dev :=
  if d.clk.state = clkLOST ∨ (d.clk.xtalOk = false ∧ (d.clk.state = clkCOASTING ∨ d.clk.state = clkQUALIFY)) then d
  else
    let d := (d.setClk clkLOST).mapOuts OutSt.lost
    ((d.raise CLK_IRQ_RAW_LOL).bump CLK_LOL_EVENTS).emit 0x022 .clk

def execClkLossOfLock (s : State) : Out := onDev lossOfLock s

/-- A write of REF_CFG.SEL. A change is a loss of the old reference (R461); the new one's return is
a CLK_REF_RETURN. (DEDUCED, log entry 109.) -/
def refSelect (p : Port) (v : Word) (d : Dev) : Dev :=
  let sel := bitsOf v 1 0
  if sel = 3 then d.reject .clk p (CLK_REF_CFG_SEL.addr 0 0) v 2
  else if sel = d.f CLK_REF_CFG_SEL then d
  else coast (d.setF CLK_REF_CFG_SEL sel)

/-- CLK_REF_SELECT (R461). -/
def execClkRefSelect (p : Port) (v : Word) (s : State) : Out := onDev (gateWrite p (refSelect p v)) s

/-! ## Outputs (R468) -/

/-- A write of OUTn_CFG.EN. While the timing PLL is lost the output is gated too (R465). -/
def outEnable (n : Nat) (en : Bool) (d : Dev) : Dev :=
  if en then
    if d.fk CLK_OUT_CFG_EN n = 1 then d
    else
      let f := d.outFreq n
      (d.setFk CLK_OUT_CFG_EN n 1).setOut n { fAct := f, fRamp := f, fOld := f, fNew := f, gated := d.clk.state = clkLOST }
  else (d.setFk CLK_OUT_CFG_EN n 0).setOut n {}

/-- CLK_OUT_ENABLE (R468). -/
def execClkOutEnable (p : Port) (n : Fin 10) (en : Bool) (s : State) : Out :=
  onDev (gateWrite p (outEnable n en)) s

/-! ## Ramps (R469, R577) -/

/-- Do two frequencies fit one VCO range through one integer divider: 2.4 to 3.2 GHz (R460)? -/
def oneRange (f g : Nat) : Bool :=
  let lo := min f g
  let hi := max f g
  if lo = 0 then false
  else decide ((24000000000000000000 + lo - 1) / lo ≤ 32000000000000000000 / hi)

/-- A change made as a step: the output is gated until its OPLL relocks (R471). (DEDUCED, log entry 36.) -/
def OutSt.stepTo (o : OutSt) (f : Nat) : OutSt :=
  { o with fAct := f, ramping := false, lock := false, gated := true, running := false }

/-- Slope and duration of segment `j` of a profile. -/
def Dev.segment (d : Dev) (prof j : Nat) : Nat × Nat :=
  (d.ak CLK_PRF_SEG_SLOPE (16 * prof + j), d.ak CLK_PRF_SEG_DUR (16 * prof + j))

/-- Has a profile ended before segment `j`? -/
def Dev.profileOver (d : Dev) (prof j : Nat) : Bool := decide (16 ≤ j) || (d.segment prof j).2 = 0

/-- How far a segment moves the frequency in some engine cycles; slopes below 10 run flat (KL-06).
(DEDUCED, log entry 36.) -/
def segMoveIn (o : OutSt) (slope cycles : Nat) : Nat :=
  if slope < 10 then 0 else slope * cycles * o.fRamp / 750000000000

/-- How far a whole segment moves the frequency. -/
def segMove (o : OutSt) (slope dur : Nat) : Nat := segMoveIn o slope (750 * dur)

/-- The frequency after a move toward the target, never past it. -/
def toward (f target m : Nat) : Nat := if f ≤ target then min target (f + m) else max target (f - m)

/-- The present frequency of an output, within a segment too (R469). (DEDUCED, log entry 36.) -/
def Dev.outNow (d : Dev) (n : Nat) : Nat :=
  let o := d.outN n
  let g := d.segment (d.ak CLK_OUT_CFG_PROFILE n) o.seg
  if o.ramping then toward o.fAct o.fNew (segMoveIn o g.1 (min (750 * g.2) (d.cyc - o.segAt))) else o.fAct

/-- A committed frequency differs from the one before: the ramp begins from the present frequency (R469). -/
def rampStart (n now : Nat) (d : Dev) : Dev :=
  if d.fk CLK_OUT_CFG_EN n = 0 then d
  else
    let o := d.outN n
    let f := d.outFreq n
    let busy := o.ramping || o.gated
    let o := { o with fAct := now, fRamp := now, fOld := if busy then o.fOld else now, fNew := f, seg := 0,
                      segAt := d.cyc, guardSeen := false }
    if f = o.fAct then d.setOut n { o with ramping := false }
    else if !oneRange o.fAct f ∨ d.profileOver (d.ak CLK_OUT_CFG_PROFILE n) 0 then
      d.setOut n (o.stepTo f)
    else d.setOut n { o with ramping := true }

/-- Output cycles, by their frequencies, that lie above the guard frequency: max(f_old, f_new) × 1.002 of a ramp or a step that
has not ended, else FREQ × 1.002 (R470). -/
def Dev.overGuard (d : Dev) (n : Nat) (fs : List Nat) : Nat :=
  let o := d.outN n
  let f := if o.ramping || o.gated then max o.fOld o.fNew else d.outFreq n
  fs.countP fun g => decide (1002 * f < 1000 * g)

/-- Output cycles the guard suppressed (R470). -/
def guardCycles (n cycles : Nat) (d : Dev) : Dev :=
  if cycles = 0 then d
  else
    let d := d.add CLK_GUARD_GATED cycles
    let o := d.outN n
    if o.guardSeen then d
    else ((d.setOut n { o with guardSeen := true }).raise CLK_IRQ_RAW_GUARD).emit 0x023 .clk (u8 n)

/-- The present segment of an output's ramp ends. `guarded` holds the frequencies of output cycles in it, in the unit of
fAct, over which the guard acts; with no ramp under way the command is the guard's alone. (DEDUCED, log entry 36.) -/
def segmentEnd (n : Nat) (guarded : List Nat) (d : Dev) : Dev :=
  let d := if d.fk CLK_OUT_CFG_EN n = 1 then guardCycles n (d.overGuard n guarded) d else d
  let o := d.outN n
  if o.ramping = false then d
  else
    let prof := d.ak CLK_OUT_CFG_PROFILE n
    let (slope, dur) := d.segment prof o.seg
    let f := toward o.fAct o.fNew (segMove o slope dur)
    let o := { o with fAct := f, seg := o.seg + 1, segAt := o.segAt + 750 * dur }
    let o := if f = o.fNew then { o with ramping := false }
      else if d.profileOver prof o.seg then o.stepTo o.fNew
      else o
    d.setOut n o

/-- CLK_RAMP_SEGMENT_END (R469). -/
def execClkRampSegmentEnd (n : Fin 10) (guarded : List Nat) (s : State) : Out :=
  onDev (segmentEnd n guarded) s

/-- CLK_RAMP_TARGET_REACHED (R469): f_new is reached within the present segment. -/
def targetReached (n : Nat) (d : Dev) : Dev :=
  let o := d.outN n
  let (slope, dur) := d.segment (d.ak CLK_OUT_CFG_PROFILE n) o.seg
  if o.ramping ∧ toward o.fAct o.fNew (segMove o slope dur) = o.fNew then
    d.setOut n { o with fAct := o.fNew, ramping := false }
  else d

def execClkRampTargetReached (n : Fin 10) (s : State) : Out := onDev (targetReached n) s

/-- CLK_RELOCK_TIMEOUT (R471). -/
def relockTimeout (n : Nat) (d : Dev) : Dev :=
  let o := d.outN n
  if d.fk CLK_OUT_CFG_EN n = 1 ∧ o.gated ∧ o.lock = false ∧ o.relockFail = false then
    let d := d.setOut n { o with relockFail := true }
    ((d.raise CLK_IRQ_RAW_RELOCK_FAIL).bump CLK_RELOCK_FAILS).emit 0x024 .clk
  else d

def execClkRelockTimeout (n : Fin 10) (s : State) : Out := onDev (relockTimeout n) s

/-! ## PHASE_STEP (R467) -/

def phaseStep (d : Dev) : Dev :=
  let ofs := signed 32 (d.cmdNat 0 4)
  if d.clk.state ≠ clkLOCKED then d.mbxDone resBAD_STATE
  else if d.clk.slewing ∨ d.clk.slewReq.isSome then d.mbxDone resRESOURCE_BUSY
  else Dev.mbxDone { d with clk := { d.clk with slewReq := some ofs } } resOK

/-- PHASE_STEP. -/
def execPhaseStep (s : State) : Out := onDev (mbxServe 0x0061 (· = 1) phaseStep) s

/-- The move begins (at a start tick, or a tick while no frame is read). -/
def slewBegin (d : Dev) : Dev :=
  match d.clk.slewReq with
  | some ofs =>
    { d with clk := { d.clk with slewReq := none, slewing := true, slewLeft := ofs * 1000 } }
  | none => d

/-- One tick of a slew at SLEW_PPM; paused unless LOCKED. (DEDUCED, log entry 36.) -/
def slewTick (d : Dev) : Dev :=
  if d.clk.slewing ∧ d.clk.state = clkLOCKED then
    let m : Int := 4 * d.f CLK_PSTEP_CFG_SLEW_PPM
    let l := d.clk.slewLeft
    { d with clk := { d.clk with slewLeft := if 0 ≤ l then max 0 (l - m) else min 0 (l + m) } }
  else d

/-- PHASE_SLEW_DONE (R467): the offset has been consumed. -/
def slewDone (d : Dev) : Dev :=
  if d.clk.slewing ∧ d.clk.slewLeft = 0 then { d with clk := { d.clk with slewing := false } } else d

def execPhaseSlewDone (s : State) : Out := onDev slewDone s

end Sys2Proof.Machine
end

