-- ==== Sys2Proof/Machine/Display.lean ====
section
/-! DEFINITION. Stage P6: the view path (R352 to R354). Logarithms, powers and roots are taken to 2^-40. -/
namespace Sys2Proof.Machine

/-! ## Functions of R353 -/

def logBits : Nat → Nat → Rat → Rat
  | 0, _, _ => 0
  | k + 1, n, w =>
    let m := n * n / 2 ^ 62
    if 2 ^ 63 ≤ m then w + logBits k (m / 2) (w / 2) else logBits k m (w / 2)

/-- log2 of a number above 0. (DEDUCED, log entry 80.) -/
def log2Rat (q : Rat) : Rat :=
  let e : Int := (Nat.log2 q.num.toNat : Int) - Nat.log2 q.den
  let e := if q < ratPow2 e then e - 1 else e
  (e : Rat) + logBits 40 (q / ratPow2 e * (2 ^ 62 : Nat)).floor.toNat (1 / 2)

/-- The root of a number in 1/2^62. (DEDUCED, log entry 80.) -/
def rootNat (n : Nat) : Nat := bitSearch (fun k => decide (k * k ≤ n * 2 ^ 62)) 64 0

def powBits : Nat → Rat → Nat → Nat → Nat
  | 0, _, _, acc => acc
  | k + 1, f, c, acc =>
    let f2 := 2 * f
    if 1 ≤ f2 then powBits k (f2 - 1) (rootNat c) (acc * c / 2 ^ 62) else powBits k f2 (rootNat c) acc

/-- 2^x. (DEDUCED, log entry 80.) -/
def pow2Rat (x : Rat) : Rat :=
  let e := x.floor
  ratPow2 e * ((powBits 40 (x - e) (rootNat (2 ^ 63)) (2 ^ 62) : Nat) / (2 ^ 62 : Nat) : Rat)

/-- The BT.709 transfer function. -/
def oetf (l : Rat) : Rat :=
  if l < 18 / 1000 then 9 / 2 * l
  else
    let lim := (l ^ 9 * ((2 ^ 40) ^ 20 : Nat)).floor.toNat
    1099 / 1000 * ((bitSearch (fun n => decide (n ^ 20 ≤ lim)) 41 0 : Nat) / (2 ^ 40 : Nat) : Rat) - 99 / 1000

/-! ## The picture (R353 steps 1 to 3) -/

/-- A view's input image: code, SAT, at column and line; with its size, phase and offset. -/
structure Pic where
  w : Nat
  h : Nat
  cfa : Nat
  ofs : Rat
  lines : List (Nat × List PxY)

/-- The value at a position, edges reflected, and SAT. -/
def Pic.at' (p : Pic) (x y : Int) : Rat × Bool :=
  let c := reflectIn 0 (p.w - 1) x
  let r := reflectIn 0 (p.h - 1) y
  match p.lines.find? fun l => l.1 = r with
  | some l => (match l.2[c]? with | some v => ((v.y : Rat) - p.ofs, v.sat) | none => (0, false))
  | none => (0, false)

def Pic.colour (p : Pic) (x y : Int) : Nat :=
  cfaColour p.cfa (reflectIn 0 (p.w - 1) x) (reflectIn 0 (p.h - 1) y)

/-- Green at a position, and whether SAT is among its inputs. -/
def Pic.green (p : Pic) (x y : Int) : Rat × Bool :=
  let k := p.colour x y
  let c := p.at' x y
  if k = 1 ∨ k = 2 ∨ k = 4 then c
  else
    let l := p.at' (x - 1) y
    let r := p.at' (x + 1) y
    let t := p.at' x (y - 1)
    let b := p.at' x (y + 1)
    let l2 := p.at' (x - 2) y
    let r2 := p.at' (x + 2) y
    let t2 := p.at' x (y - 2)
    let b2 := p.at' x (y + 2)
    let dh := 2 * c.1 - l2.1 - r2.1
    let dv := 2 * c.1 - t2.1 - b2.1
    let gh := absRat (l.1 - r.1) + absRat dh
    let gv := absRat (t.1 - b.1) + absRat dv
    let vh := (l.1 + r.1) / 2 + dh / 4
    let vv := (t.1 + b.1) / 2 + dv / 4
    (if gh < gv then vh else if gv < gh then vv else (vh + vv) / 2,
      [c, l, r, t, b, l2, r2, t2, b2].any (·.2))

/-- R or B (colour `k`) at a position. -/
def Pic.chroma (p : Pic) (k : Nat) (x y : Int) : Rat × Bool :=
  let c := p.at' x y
  if p.cfa = 4 ∨ p.colour x y = k then c
  else
    let g := p.green x y
    let ns := [(-1, -1), (0, -1), (1, -1), (-1, 0), (1, 0), (-1, 1), (0, 1), (1, 1)].filterMap fun (o : Int × Int) =>
      if p.colour (x + o.1) (y + o.2) = k then
        let v := p.at' (x + o.1) (y + o.2)
        let h := p.green (x + o.1) (y + o.2)
        some (v.1 - h.1, v.2 || h.2)
      else none
    (g.1 + ns.foldl (fun n e => n + e.1) 0 / (ns.length : Nat), g.2 || ns.any (·.2))

/-- Balanced and matrixed R, G and B of a pixel, and SAT (steps 1 and 2). -/
def Pic.rgb (p : Pic) (c : Dev) (v : Nat) (x y : Nat) : (Rat × Rat × Rat) × Bool :=
  let r := p.chroma 0 x y
  let g := p.green x y
  let b := p.chroma 3 x y
  let q (n : Nat) : Rat := (signed 16 n : Rat) / 4096
  let hi (n : Nat) : Nat := n / 65536
  let r' := r.1 * (c.ak VEW_WB_R v : Rat) / 4096
  let g' := g.1 * (c.ak VEW_WB_G_G v : Rat) / 4096
  let b' := b.1 * (c.ak VEW_WB_B v : Rat) / 4096
  let m0 := c.ak VEW_CCM0 v
  let m1 := c.ak VEW_CCM1 v
  let m2 := c.ak VEW_CCM2 v
  let m3 := c.ak VEW_CCM3 v
  ((q m0 * r' + q (hi m0) * g' + q m1 * b',
    q (hi m1) * r' + q m2 * g' + q (hi m2) * b',
    q m3 * r' + q (hi m3) * g' + q (c.ak VEW_CCM4_C22 v) * b'), r.2 || g.2 || b.2)

def lumOf (t : Rat × Rat × Rat) : Rat := 2126 / 10000 * t.1 + 7152 / 10000 * t.2.1 + 722 / 10000 * t.2.2

/-- L of a luminance. -/
def logLum (y : Rat) : Rat := if 0 < y then log2Rat y else Config.darkLog y

/-- Means of L over 32 × 32 blocks, row by row, from the lines of L. -/
def blockMeans (w h : Nat) (l : List (List Rat)) : List (List Rat) :=
  (List.range ((h + 31) / 32)).map fun by' => (List.range ((w + 31) / 32)).map fun bx =>
    let vs := ((l.drop (32 * by')).take 32).flatMap fun r => (r.drop (32 * bx)).take 32
    vs.foldl (· + ·) 0 / (vs.length : Nat)

/-- Two block centres and the weight of the second, along one axis. -/
def between (n i : Nat) : Nat × Nat × Rat :=
  let u : Rat := ((i : Rat) + 1 / 2) / 32 - 1 / 2
  if u ≤ 0 then (0, 0, 0)
  else if ((n - 1 : Nat) : Rat) ≤ u then (n - 1, n - 1, 0)
  else (u.floor.toNat, u.floor.toNat + 1, u - u.floor)

/-- B_blk at a pixel. (DEDUCED, log entry 80.) -/
def blockAt (bs : List (List Rat)) (x y : Nat) : Rat :=
  let get (i j : Nat) : Rat := (((bs[j]?).getD [])[i]?).getD 0
  let (i0, i1, fx) := between ((bs[0]?).getD []).length x
  let (j0, j1, fy) := between bs.length y
  (1 - fy) * ((1 - fx) * get i0 j0 + fx * get i1 j0) + fy * ((1 - fx) * get i0 j1 + fx * get i1 j1)

/-- The tone-mapped picture: R, G and B from 0 to 1, line by line (step 3). (DEDUCED, log entry 80.) -/
def Pic.toned (p : Pic) (c : Dev) (v : Nat) : List (List (Rat × Rat × Rat)) :=
  let px := (List.range p.h).map fun y => (List.range p.w).map fun x => p.rgb c v x y
  let ls := px.map fun r => r.map fun q => logLum (lumOf q.1)
  let bs := blockMeans p.w p.h ls
  let flat := (List.range p.h).flatMap fun y => (List.range p.w).map fun x => blockAt bs x y
  let k := flat.foldl (· + ·) (0 : Rat) / ((flat.length : Nat) : Rat)
  let tgt := c.ak VEW_TONE_TARGET v
  (px.zipIdx).map fun (r : List ((Rat × Rat × Rat) × Bool) × Nat) =>
    (r.1.zipIdx).map fun (q : ((Rat × Rat × Rat) × Bool) × Nat) =>
    let yl := lumOf q.1.1
    if q.1.2 then (1, 1, 1)
    else if yl ≤ 0 ∨ tgt = 0 then (0, 0, 0)
    else
      let b := blockAt bs q.2 r.2
      let out := (b - k) * (c.ak VEW_TONE_COMPRESS v : Rat) / 128 + (log2Rat yl - b) * (c.ak VEW_TONE_DETAIL v : Rat) / 128 +
        log2Rat ((tgt : Rat) / 256)
      let s := min 1 (pow2Rat out) / yl
      let f (a : Rat) : Rat := clampRat 0 1 (a * s)
      (f q.1.1.1, f q.1.1.2.1, f q.1.1.2.2)

/-! ## Coding and raster (steps 4 and 5) -/

/-- Y′, Cb and Cr of a pixel, unrounded, Y′ from 0 to 1 and the others from −1/2 to 1/2. -/
def ycc (t : Rat × Rat × Rat) : Rat × Rat × Rat :=
  let r := oetf t.1
  let g := oetf t.2.1
  let b := oetf t.2.2
  let y := lumOf (r, g, b)
  (y, (b - y) / (18556 / 10000), (r - y) / (15748 / 10000))

def code10 (scale ofs lo hi : Int) (q : Rat) : Nat := (clampInt lo hi ((q * scale + ofs + 1 / 2).floor)).toNat
def codeY : Rat → Nat := code10 876 64 64 940
def codeC : Rat → Nat := code10 896 512 64 960

/-- The samples of a line, Cb, Y′0, Cr, Y′1 a pair (R404). (DEDUCED, log entry 80.) -/
def line422 : List (Rat × Rat × Rat) → List Nat
  | a :: b :: t =>
    [codeC ((a.2.1 + b.2.1) / 2), codeY a.1, codeC ((a.2.2 + b.2.2) / 2), codeY b.1] ++ line422 t
  | _ => []

/-- The raster of a view, line by line. -/
def raster (p : Pic) (c : Dev) (v : Nat) : List (List Nat) :=
  let w := c.ak VEW_RASTER_OUT_W v
  let x0 := c.ak VEW_PLACE_X v
  let y0 := c.ak VEW_PLACE_Y v
  let border (n : Nat) : List Nat :=
    (List.range (n / 2)).flatMap fun _ => [c.ak VEW_BORDER_CB v, c.ak VEW_BORDER_Y v, c.ak VEW_BORDER_CR v, c.ak VEW_BORDER_Y v]
  let pic := (p.toned c v).map fun l => line422 (l.map ycc)
  (List.range (c.ak VEW_RASTER_OUT_H v)).map fun y =>
    match (if y0 ≤ y then pic[y - y0]? else none) with
    | some l => border x0 ++ l ++ border (w - x0 - p.w)
    | none => border w

/-! ## The commands (R352, R354) -/

def noVew : Nat → VewSt := fun _ => {}
def Dev.view (d : Dev) (v : Nat) : VewSt := SMap.get noVew d.views v
def Dev.setView (d : Dev) (v : Nat) (x : VewSt) : Dev := { d with views := SMap.set noVew d.views v x }

/-- The oldest complete frame of the output that feeds a view, on which the view has not decided. -/
def Dev.viewFrame (d : Dev) (v : Nat) : Option (Nat × Nat × Geo) :=
  d.pipe.findSome? fun p =>
    (List.range 64).findSome? fun n =>
      let o := SMap.get noOutFr p.2.outs n
      if o.closed && !o.viewed.contains v then
        match d.geo p.1 n with
        | some g => if g.dest.testBit v ∧ (d.asOf p.1).ak VEW_CFG_EN v = 1 ∧ d.stage p.1 stVEW then some (p.1, n, g) else none
        | none => none
      else none

/-- A view takes or passes over a frame. (DEDUCED, log entry 80.) -/
def viewAccept (v : Nat) (d : Dev) : Dev :=
  match d.viewFrame v with
  | none => d
  | some (u, n, _) =>
    let d := d.setOutFr u n { d.outFr u n with viewed := (d.outFr u n).viewed ++ [v] }
    let x := d.view v
    let t := (d.frame u).stamp.ticks
    if rateAdmits ((d.asOf u).ak VEW_RATE_LIM_CFPS v) x.last t = false then d.bumpI VEW_SKIPPED 0 v
    else
      let x := { x with last := some t }
      match x.front, x.wait with
      | none, _ => d.setView v { x with front := some (u, n) }
      | some _, none => d.setView v { x with wait := some (u, n) }
      | some _, some _ =>
        (((d.setView v { x with wait := some (u, n) }).bumpI VEW_SKIPPED 0 v)).raiseBits .vew
          (BitVec.ofNat 32 (2 ^ (8 + v)))

/-- VIEW_FRAME_ACCEPT. -/
def execViewFrameAccept (v : Fin 2) (s : State) : Out := onDev (viewAccept v) s

/-- The words of a view's block. -/
def viewWords (c : Dev) (v : Nat) : List Nat := (List.range 13).map fun w => (c.actWord (0x96100 + 0x80 * v + 4 * w)).toNat

/-- A raster's lines enter a stream. The encoder codes while they leave, so that it falls behind only where its buffer was
full before (R366). (DESIGN CHOICE, log entry 123.) -/
def rasterLines (es u : Nat) (rs : List (List Nat)) (d : Dev) : Dev :=
  let behind := decide (64 ≤ (d.enc es).waiting)
  (rs.zipIdx).foldl (fun d (l : List Nat × Nat) =>
    encLine es u l.2 l.1 (if behind = false ∧ 64 ≤ (d.enc es).waiting then encSlice es d else d)) d

/-- The raster goes to delivery. SHIFT and OFS do not apply to a view, so its header has 0 there (R403). -/
def rasterOut (u n v flags : Nat) (g : Geo) (rs : List (List Nat)) (d : Dev) : Dev :=
  let c := d.asOf u
  let w := c.ak VEW_RASTER_OUT_W v
  let start := frameHeader c (d.frame u) (d.pf u).href 1 v g.op rs.length w 10 0xFF 1 0 0
    (packedSize rs.length (2 * w) 10)
  let d := if (c.ak VEW_CFG_DEST v).testBit 1 then
      (let (k, d) := d.frameStream u (c.ak DLV_BIND_VIEW v) g.op flags start
       let d := (rs.zipIdx).foldl (fun d (l : List Nat × Nat) => d.streamLine k l.2 0 0 10 4 2 l.1) d
       d.closeStream k)
    else d
  if (c.ak VEW_CFG_DEST v).testBit 0 then
    let job : EncJob := { u, op := g.op, width := w, height := rs.length, bits := 10, cfa := 0xFF, shift := 0,
                          ofs := 0, lref := (d.pf u).href, sliceH := 16, budget := 0, full := 0 }
    (d.streamsOn u 1 v).foldl (fun d es =>
      let d := encFlags es u flags (encConsider es u (viewWords c v ++ odWords c n) job d)
      encEnd es u flags (rasterLines es u rs d)) d
  else d

/-- A view outputs the frame at its front; the one that waits comes next. -/
def viewRaster (v : Nat) (d : Dev) : Dev :=
  let x := d.view v
  match x.front with
  | none => d
  | some (u, n) =>
    let d := d.setView v { x with front := x.wait, wait := none }
    match d.geo u n with
    | none => d
    | some g =>
      let o := d.outFr u n
      let c := d.asOf u
      let p : Pic := { w := g.ow, h := g.oh, cfa := g.cfa, ofs := (g.ofs c : Rat) / (2 ^ g.shift : Nat), lines := o.lines }
      let flags := d.outFlags u g + (if 0 < o.unread then 2 ^ ffINCOMPLETE else 0)
      rasterOut u n v flags g (raster p c v) d

/-- VIEW_RASTER_OUT. -/
def execViewRasterOut (v : Fin 2) (s : State) : Out := onDev (viewRaster v) s

end Sys2Proof.Machine
end

