-- ==== Sys2Proof/Machine/Follow.lean ====
section
/-! DEFINITION. What firmware writes of fields that other pages' sets decide, and keeps in step with them: the
frame store's table, the output descriptors and the encoder stream of VIEW0 (R72, R337, R367, R374). -/
namespace Sys2Proof.Machine

def Dev.onCom (d : Dev) (f : CommitSt → CommitSt) : Dev := { d with com := f d.com }

/-! ## Writes of fields -/

/-- A value for copy `k` of a field in instance `i`. -/
structure FWrite where
  F : Fld
  i : Nat := 0
  k : Nat := 0
  v : Nat

/-- Firmware writes a field; one of class LK only while its page is disabled. -/
def writeOne (p : Page) (w : FWrite) (d : Dev) : Dev :=
  if w.F.acc = .lk ∧ d.enabled p then d else d.setFi w.F w.i w.k w.v

def writeAll (p : Page) (l : List FWrite) (d : Dev) : Dev := l.foldl (fun d w => writeOne p w d) d

/-- Is translation of a page's fields in force? -/
def Dev.basicOn (d : Dev) (p : Page) : Bool := d.hf p HD_PAGE_CTRL_EXPERT = 0

/-! ## The encoder's streams (R367) -/

def encWrites (d : Dev) : List FWrite :=
  (if d.on ENC_BASIC_ENC_HIST_EN then
    [{ F := ENC_ES0_EN, v := 1 }, { F := ENC_ES0_KIND, v := 0 }, { F := ENC_ES0_SRC, v := 0 },
     { F := ENC_ES0_COMPAND, v := b2n (decide (5 ≤ d.f GEO_OD3_BITS)) }, { F := ENC_ES0_HIST, v := 1 },
     { F := ENC_ES1_BPP, v := max 16 (min 128 (d.f ENC_BASIC_ENC_HIST_BPP)) }, { F := ENC_ES2_RATE_LIM, v := 100 * d.f ENC_BASIC_ENC_HIST_FPS }]
  else [{ F := ENC_ES0_EN, v := 0 }]) ++
  if (d.f VEW_CFG_DEST).testBit 0 then
    [{ F := ENC_ES0_EN, k := 1, v := d.f VEW_CFG_EN }, { F := ENC_ES0_KIND, k := 1, v := 1 },
     { F := ENC_ES0_SRC, k := 1, v := 0 }, { F := ENC_ES1_BPP, k := 1, v := max 16 (min 128 (d.f ENC_BASIC_ENC_VIEW_BPP)) }]
  else [{ F := ENC_ES0_EN, k := 1, v := 0 }]

/-- (DEDUCED, log entry 44.) -/
def encTranslate (d : Dev) : Dev := if d.basicOn .enc then writeAll .enc (encWrites d) d else d

/-! ## The frame store's table (R374) -/

/-- Entries that firmware builds: use, member, index and size in MiB. -/
def fstBuild (d : Dev) : List (Nat × Nat × Nat × Nat) :=
  let m := d.f EXP_EXP_CFG_NSUB + 1
  let acc := if 2 ≤ m ∧ d.f HDR_CFG_MODE = 0 then [(1, 0, 0, 384)] else []
  let own := (List.range m).map fun i => (0, 0, i, 145)
  let views := ((List.range 2).filter fun v => d.fk VEW_CFG_EN v = 1).map fun v => (2, 0, v, 64)
  let sats := ((List.range 32).filter fun n => d.fi SP_VS_FMT_EN (n / 4) (n % 4) = 1).map fun n =>
    let w := d.fi SP_VS_GEO_WIDTH (n / 4) (n % 4)
    let h := d.fi SP_VS_GEO_HEIGHT (n / 4) (n % 4)
    let b := 10 + 2 * d.fi SP_VS_FMT_BITS (n / 4) (n % 4)
    (0, 1 + n, 0, ((w * h * b + 7) / 8 + (h + 7) / 8 + 2 ^ 20 - 1) / 2 ^ 20)
  let l := acc ++ own ++ views ++ sats
  let rest := 8192 - l.foldl (fun n (x : Nat × Nat × Nat × Nat) => n + x.2.2.2) 0 - d.f FST_BASIC_FST_RESERVE
  l ++ if d.f ARY_BURST_CFG_DEST = 1 ∧ rest ≠ 0 then [(3, 0, 0, rest)] else []

/-- Write the table from entry `n` on, at ascending units from `base`. -/
def fstWrite : Nat → Nat → List (Nat × Nat × Nat × Nat) → Dev → Dev
  | _, _, [], d => d
  | n, base, (use, mem, idx, size) :: t, d =>
    let d := (((d.setFk FST_ALLOC0_EN n 1).setFk FST_ALLOC0_USE n use).setFk FST_ALLOC0_MEMBER n mem).setFk FST_ALLOC0_INDEX n idx
    fstWrite (n + 1) (base + size) t ((d.setFk FST_ALLOC1_BASE n base).setFk FST_ALLOC1_SIZE n size)

/-- (DEDUCED, log entry 42.) -/
def fstTranslate (d : Dev) : Dev :=
  if d.basicOn .fst then
    let l := fstBuild d
    (List.range (48 - l.length)).foldl (fun d n => d.setFk FST_ALLOC0_EN (l.length + n) 0) (fstWrite 0 0 l d)
  else d

/-! ## Geometry (R337) -/

/-- Enabled windows of E0, by number. -/
def Dev.windows0 (d : Dev) : List Nat := (List.range 64).filter fun w => d.fk WIN_DESC0_EN w = 1

/-- Outputs in order: source and window of the own array's, members of the satellites'. -/
def geoOutputs (d : Dev) : List (Nat × Nat × Nat) :=
  (if d.f ARY_BASIC_MODE_MODE = 1 then d.windows0.map fun w => (0, 1, w) else [(0, 2, 0)]) ++
    ((List.range 32).filter fun n => d.fi SP_VS_FMT_EN (n / 4) (n % 4) = 1).map fun n => (1 + n, 2, 0)

def geoOne (n : Nat) (o : Nat × Nat × Nat) (d : Dev) : List FWrite :=
  let own := o.1 = 0
  let w (F : Fld) (v : Nat) : FWrite := { F, k := n, v }
  [w GEO_OD0_EN 1, w GEO_OD0_MEMBER o.1, w GEO_OD0_SRC o.2.1, w GEO_OD0_WIN o.2.2, w GEO_OD0_PASS 0, w GEO_OD3_SCALE_EN 0,
   w GEO_OD3_BIN (if own then d.f ARY_BASIC_MODE_BIN else 0), w GEO_OD3_FLIP (if own then d.f GEO_BASIC_GEO_FLIP else 0),
   w GEO_OD3_DEST (if own then d.f GEO_BASIC_GEO_DEST else 8), w GEO_OD3_SHIFT 0,
   w GEO_OD3_BITS (if own ∧ d.f EXP_EXP_CFG_NSUB ≠ 0 then 6 else 4)]

/-- (DEDUCED, log entry 42.) -/
def geoTranslate (d : Dev) : Dev :=
  if d.basicOn .geo then
    let os := geoOutputs d
    writeAll .geo ((List.range 64).flatMap fun n =>
      match os[n]? with
      | some o => geoOne n o d
      | none => [{ F := GEO_OD0_EN, k := n, v := 0 }]) d
  else d

/-! ## Translating again -/

/-- Addresses of a page's basic registers. -/
def basicWords (p : Page) : List Nat :=
  (((Blk.fields p.blk).filter fun f => 0x40 ≤ f.off && f.off < 0x100).flatMap fun f =>
    (List.range (max 1 f.cnt)).map fun k => f.addr p.inst k).eraseDups

/-- Firmware is to translate these basic registers of a page. -/
def xlateBegin (p : Page) (as : List Nat) (d : Dev) : Dev :=
  (d.setHf p HD_PAGE_STAT_XLATE_PEND 1).onCom fun s => { s with basic := s.basic ++ as.filter fun a => !s.basic.contains a }

/-- What a page's translation reads elsewhere has changed: firmware translates the page again.
(DEDUCED, log entry 42.) -/
def retranslate (p : Page) (d : Dev) : Dev :=
  if d.boot.run = .running ∧ d.basicOn p then xlateBegin p (basicWords p) d else d

/-- The fields that decide the frame store's table, as `g` reads them (R374). -/
def fstKeys (g : Fld → Nat → Nat → Nat) : List Nat :=
  [g EXP_EXP_CFG_NSUB 0 0, g HDR_CFG_MODE 0 0, g VEW_CFG_EN 0 0, g VEW_CFG_EN 0 1, g ARY_BURST_CFG_DEST 0 0,
   g ARY_BURST_CFG_EN 0 0, g ARY_BURST_CFG_PIPE 0 0, g ARY_BURST_CFG_FRAMES 0 0] ++
  (List.range 32).flatMap fun n =>
    [g SP_VS_GEO_WIDTH (n / 4) (n % 4), g SP_VS_GEO_HEIGHT (n / 4) (n % 4), g SP_VS_FMT_EN (n / 4) (n % 4),
     g SP_VS_FMT_BITS (n / 4) (n % 4), g SP_VS_FMT_CFA (n / 4) (n % 4), g SP_VS_FMT_WEIGHT (n / 4) (n % 4)]

/-- The enabled windows of E0, as `g` reads them (R337). -/
def winKeys (g : Fld → Nat → Nat → Nat) : List Nat := (List.range 64).map fun w => g WIN_DESC0_EN 0 w

/-- What the encoder's streams follow of VIEW0 and of OD0, as `g` reads it (R367). -/
def viewKeys (g : Fld → Nat → Nat → Nat) : List Nat := [g VEW_CFG_EN 0 0, g VEW_CFG_DEST 0 0, g GEO_OD3_BITS 0 0]

/-- What the mode's program and strips take from TRG, as `g` reads it (R588). -/
def trgKeys (g : Fld → Nat → Nat → Nat) : List Nat :=
  [g TRG_MODE_CFG_LINE 0 0, g TRG_STRIP_CFG_COUNT 0 0, g TRG_STRIP_ROW_TOP 0 0, g TRG_STRIP_ROW_BOT 0 0] ++ (List.range 3).map fun k => g TRG_STRIP_EN 0 k

/-- The line or the strips of a mode that reads by them have changed: firmware writes what the mode takes of them. -/
def followTrg (old d : Dev) : Dev :=
  if trgKeys old.ai ≠ trgKeys d.ai ∧ 2 ≤ d.f ARY_BASIC_MODE_MODE ∧ d.boot.run = .running ∧ d.basicOn .ary then
    (retranslate .ary d).onCom fun s => { s with readNew := true }
  else d

/-- A page is translated again where a new set changes what its translation reads, and the translation would
change a word. -/
def followOne (keys : (Fld → Nat → Nat → Nat) → List Nat) (f : Dev → Dev) (p : Page) (old d : Dev) : Dev :=
  if keys old.ai ≠ keys d.ai ∧ (f d).regs ≠ d.regs then retranslate p d else d

/-- Sets that have applied are followed by the table, the descriptors, ES1 and the mode's program. (DEDUCED, log entry 42.) -/
def followSets (old d : Dev) : Dev :=
  followTrg old (followOne viewKeys encTranslate .enc old
    (followOne winKeys geoTranslate .geo old (followOne fstKeys fstTranslate .fst old d)))

/-- A global commit that changes what the table depends on carries the table built for it (R374).
(DEDUCED, log entry 42.) -/
def fstBefore (d : Dev) : Dev :=
  if d.boot.run = .running ∧ fstKeys d.fi ≠ fstKeys d.ai then fstTranslate d else d

end Sys2Proof.Machine
end

