-- ==== Sys2Proof/Machine/Commit.lean ====
section
/-! DEFINITION. Commits: keys, checks, acceptance, holds, generations and what becomes of a block when its
set applies (R33 to R35, R51, R66 to R71, R140, R143, R194, R373). -/
namespace Sys2Proof.Machine

def Dev.setCom (d : Dev) (p : Page) (c : Commit) : Dev :=
  d.onCom fun s => { s with pages := SMap.set noCommit s.pages p.code c }

/-! ## Frames in flight (R34, R35) -/

/-- Does a stage still have work on a frame that ingest has passed to the pipeline? -/
def Dev.stageWork (d : Dev) (u : Nat) : Bool :=
  let f := d.frame u
  let x := d.pf u
  f.pipe && !x.raw.isEmpty &&
    ((List.range (d.outPasses u)).any (fun op => !d.hdrDone u op) ||
      (f.own && d.stage u stSTA && (List.range f.m).any fun i => !x.handed.contains i) ||
      (List.range 64).any fun n =>
        let o := SMap.get noOutFr x.outs n
        match d.geo u n with
        | some g => !o.closed || (d.stage u stVEW && (List.range 2).any fun v =>
            !o.viewed.contains v && g.dest.testBit v && (d.asOf u).ak VEW_CFG_EN v = 1)
        | none => false)

/-- Views, encoder streams, the history writer or delivery hold a frame. -/
def Dev.heldLate (d : Dev) (u : Nat) : Bool :=
  let front (x : Option (Nat × Nat)) : Bool := match x with | some (v, _) => v = u | none => false
  d.views.any (fun e => front e.2.front || front e.2.wait) ||
    d.encs.any (fun e => e.2.jobs.any fun j => j.u = u) ||
    d.hmp.offers.any (fun c => c.u = some u) ||
    d.dlv.streams.any (fun e => e.2.frame = u && (!e.2.dead || e.2.chunk.isSome)) ||
    d.dlv.queues.any fun e => e.2.grps.any fun g => g.frame = some u && !g.pkts.isEmpty

/-- Rows of an own-array frame that are strobed and not yet through ingest. -/
def Dev.rowsWait (d : Dev) (u : Nat) : Bool :=
  d.ary.waiting.any (fun w => w.frame = u) ||
    (d.ary.skidT ++ d.ary.skidB).any fun r => r.segs.any fun g => g.frame = u

/-- A satellite frame that ingest has not stamped yet: open at its port or waiting in its buffer. -/
def Dev.atPort (d : Dev) (u : Nat) : Bool :=
  d.sp.any fun e => e.2.vs.any fun v =>
    v.2.opened = some u || v.2.q.any fun i => match i with
      | .start w _ => w = u
      | _ => false

/-- A satellite frame that leaves its buffer. -/
def Dev.leavingPort (d : Dev) (u : Nat) : Bool := d.sp.any fun e => e.2.vs.any fun v => v.2.leaving = some u

/-- Is a frame in the pipeline, from its start marker at ingest to its end? -/
def Dev.inFlight (d : Dev) (u : Nat) : Bool :=
  let f := d.frame u
  (if f.member = 0 then f.reading || d.rowsWait u || f.burst else d.leavingPort u) || d.stageWork u || d.heldLate u

/-- Generations of the frames in flight. (DEDUCED, log entry 50.) -/
def Dev.liveGens (d : Dev) : List Nat :=
  ((d.frames.filter fun e => d.inFlight e.1).map fun e => e.2.gen).eraseDups

/-- Is a generation older than another: SYS.GEN wraps at 32 bits? -/
def genBefore (a b : Nat) : Bool := a != b && decide ((b + 2 ^ 32 - a) % 2 ^ 32 < 2 ^ 31)

/-- Frames that nothing holds any more are forgotten, with the sets of their generations. The first one to
leave of the generation that lowered the demand, or of a later one, lets VCORE fall (R52). (DEDUCED, log entry 50.) -/
def prune (d : Dev) : Dev :=
  let live := (d.frames.filter fun e => d.inFlight e.1 || d.atPort e.1).map (·.1)
  let keep (u : Nat) : Bool := live.contains u || d.ary.cur = some u
  let fs := d.frames.filter fun e => keep e.1
  let left := match d.pwr.lowerWait with
    | some g => d.frames.any fun e => !keep e.1 && !genBefore e.2.gen g
    | none => false
  { d with frames := fs, pipe := d.pipe.filter (fun e => keep e.1),
           gens := d.gens.filter (fun e => fs.any fun f => f.2.gen = e.1),
           pwr := { d.pwr with lowerWait := if left then none else d.pwr.lowerWait } }

/-! ## Status of a commit (R61, R67, R68) -/

def Dev.comStatus (d : Dev) (p : Page) (st reason ofs : Nat) : Dev :=
  ((d.setHf p HD_COMMIT_STAT_STATE st).setHf p HD_COMMIT_STAT_REASON reason).setHf p HD_COMMIT_STAT_FAIL_OFS (ofs / 4)

/-- A page's commit ends or starts again: it is pending no longer. -/
def Dev.unaccept (d : Dev) (p : Page) : Dev :=
  (d.setHf p HD_PAGE_STAT_COMMIT_PEND 0).onCom fun s => { s with accepted := s.accepted.filter fun q => q != p }

/-- A page reports a failed commit; its sets stay as they are (R69). -/
def failPage (p : Page) (reason ofs : Nat) (d : Dev) : Dev :=
  ((d.unaccept p).comStatus p comFAILED reason ofs).raiseBits p 2#32

/-- Report a failure found by a check. -/
def failCheck (p : Page) (f : Fail) (d : Dev) : Dev := failPage p f.reason f.ofs (noteContext f d)

/-- A page reports an applied commit. -/
def donePage (p : Page) (d : Dev) : Dev := ((d.unaccept p).comStatus p comDONE 0 0).raiseBits p 1#32

/-! ## What a block does when its set applies -/

/-- The exposure page: a swap of banks (R140), and an iteration of the loop that commits (R152, R153). -/
def expApplied (d : Dev) : Dev :=
  let b := d.a EXP_CTX_CTRL_BANK_SEL
  let d := if b = d.activeBank then d else (d.setF EXP_CTX_CTRL_ACTIVE b).bump EXP_CTX_SEQ
  match d.ary.aePend with
  | some tag =>
    let d := ((d.bump EXP_AE_STAT_ITER).setF EXP_AE_STAT_LAST_TAG tag).setF EXP_AE_STAT_STALE 0
    d.onAry fun a => { a with aePend := none, aeIdle := 0 }
  | none => d

/-- Enabled entries of the allocation table: role, base and size. -/
def Dev.fstEntries (d : Dev) : List ((Nat × Nat × Nat) × Nat × Nat) :=
  ((List.range 48).filter fun n => d.ak FST_ALLOC0_EN n = 1).map fun n =>
    ((d.ak FST_ALLOC0_USE n, d.ak FST_ALLOC0_MEMBER n, d.ak FST_ALLOC0_INDEX n), d.ak FST_ALLOC1_BASE n, d.ak FST_ALLOC1_SIZE n)

/-- Does a new table move an entry of the old one, or give a unit another role (R373)? -/
def fstMoves (old new : Dev) : Bool :=
  old.fstEntries.any fun a => new.fstEntries.any fun b =>
    if a.1 = b.1 then a.2.1 != b.2.1 else decide (a.2.1 < b.2.1 + b.2.2) && decide (b.2.1 < a.2.1 + a.2.2)

/-- Is the burst entry of the old table elsewhere in the new one? -/
def burstMoves (old new : Dev) : Bool :=
  old.fstEntries.any fun a => a.1.1 = 3 && !(new.fstEntries.any fun b => b.1.1 = 3 && b.2.1 = a.2.1)

/-- The frame store: references of entries that are new or have moved are void, and so is a burst whose
entry has moved (R373). -/
def fstApplied (old : Dev) (d : Dev) : Dev :=
  let fresh := d.fstEntries.filter fun b =>
    b.1.1 = 0 && !(old.fstEntries.any fun a => a.1 = b.1 && a.2.1 = b.2.1)
  let refs := d.refs.filter fun e => !(fresh.any fun b => refKey b.1.2.1 b.1.2.2 = e.1)
  let d := { d with refs }
  if burstMoves old d ∧ d.burst.dest = 1 then d.onBurst fun b => { b with stored := [] } else d

/-- Clock outputs whose frequency changed begin their ramps (R469); each output's first cycle that the guard
suppresses after the commit will be reported (R470). -/
def clkApplied (old : Dev) (d : Dev) : Dev :=
  (List.range 10).foldl (fun d n =>
    if old.outFreq n = d.outFreq n then d.setOut n { d.outN n with guardSeen := false }
    else rampStart n (old.outNow n) d) d

/-- The throttle's extension at the committed row time (R37, R499, R53): what R gives, and more where the capacity
measured with VCORE at its ceiling falls short. (DEDUCED, log entry 98.) -/
def Dev.throttleE (d : Dev) : Nat :=
  let e := throttleExt d.tRow d.thm.rAct
  let px : Rat := ((d.a ARY_DEMAND_PX_ROW * 750 : Nat) : Rat) * d.margin
  if d.minCap = 0 ∨ d.pwr.vSet < d.pwr.vCeil then e
  else max e ((px / (d.minCap : Nat)).ceil.toNat - d.tRow)

def setExtThr (d : Dev) : Dev := { d with thm := { d.thm with extThr := d.throttleE } }

/-- A stream that is no longer enabled forgets its set-up: its next frame is the first after a change (R361). -/
def encApplied (d : Dev) : Dev :=
  { d with encs := d.encs.map fun e => if d.ak ENC_ES0_EN e.1 = 1 then e else (e.1, { e.2 with sig := [] }) }

/-- What feeds a stream from a geometry output: its descriptor, the window or the satellite's size behind it, and of the
own array the ADC mode, m and the readout mode, which its programs and its schedule give. -/
def outConf (c : Dev) (n : Nat) : List Nat :=
  let m := c.ak GEO_OD0_MEMBER n
  let win := c.ak GEO_OD0_WIN n
  odWords c n ++
    (if c.ak GEO_OD0_SRC n = 1 then [(c.actWord (WIN_DESC0_EN.addr 0 win)).toNat, (c.actWord (WIN_DESC1_W.addr 0 win)).toNat]
     else []) ++
    (if m = 0 then [c.a ARY_ADC_CFG_MODE, c.mSub, c.sched, c.a ARY_PASS_CFG_ROWS] ++
       (List.range 96).map fun e => (c.actWord (ENG_WRAP_TOP.addr e 0)).toNat
     else [(memberImage c m).1, (memberImage c m).2])

/-- All that R361 names of a stream in the active sets. -/
def encConf (c : Dev) (n : Nat) : List Nat :=
  let src := c.ak ENC_ES0_SRC n
  ((List.range 3).map fun w => (c.actWord (0x97200 + 16 * n + 4 * w)).toNat) ++
    if c.ak ENC_ES0_KIND n = 0 then outConf c src
    else viewWords c src ++ (match c.viewSource src with | some o => outConf c o | none => [])

/-- A stream that a commit changes in one of these, also one that is changed back later, forgets its set-up: its next
frame is the first after a change (R361). (DEDUCED, log entry 82.) -/
def encChanged (old d : Dev) : Dev :=
  { d with encs := d.encs.map fun e => if encConf old e.1 = encConf d e.1 then e else (e.1, { e.2 with sig := [] }) }

/-- The declared sums that registers report (R278, R364, R371, R375). A g below the declared sum is reported as
either changes, and by an event as g does. (DEDUCED, log entry 48.) -/
def declared (d : Dev) : Dev :=
  let g := d.satGrant.floor.toNat
  let was := (d.f ING_SAT_GRANT, d.f ING_SAT_DECL)
  let d := ((d.setF ING_SAT_GRANT g).setF ING_SAT_DECL d.satDeclared).setF ENC_LOAD_DECL d.encLoad.floor.toNat
  let d := (d.setF FST_FREE_MIB d.freeUnits).setF FST_BW_DECL d.declaredBw.floor.toNat
  let d := if (g, d.satDeclared) ≠ was ∧ g < d.satDeclared then d.raise ING_IRQ_RAW_SAT_LIMITED else d
  if g ≠ was.1 ∧ g < d.satDeclared then d.emit 0x061 .ing else d

/-- A page's set has become active. -/
def applied (old : Dev) (p : Page) (d : Dev) : Dev :=
  match p with
  | .exp => expApplied d
  | .eng n => wrapApply n d
  | .clk => clkApplied old d
  | .fst => fstApplied old d
  | .pxc => d.setF PXC_LSC_CFG_ACTIVE (d.a PXC_LSC_CFG_BANK_SEL)
  | .enc => encApplied d
  | .ary => setExtThr d
  | _ => d

/-- A new generation: frames of the old one keep its active sets (R34). (DEDUCED, log entry 50.) -/
def newGeneration (act : SMap Word) (d : Dev) : Dev :=
  let g := d.f SYS_GEN
  let d := { d with gens := SMap.insertAt g d.act (SMap.erase d.gens g), act }
  prune (d.bump SYS_GEN)

/-- Latched sets of some pages become active, as one generation. (DEDUCED, log entry 50.) -/
def applyPages (l : SMap Word) (ps : List Page) (d : Dev) : Dev :=
  let new := newGeneration (d.candidate l ps).act d
  let new := if new.demand < d.demand then { new with pwr := { new.pwr with lowerWait := some (new.f SYS_GEN) } } else new
  followSets d (declared (encChanged d (ps.foldl (fun e p => applied d p e) new)))

/-- A page commit applies. -/
def applyCommit (p : Page) (d : Dev) : Dev := donePage p (applyPages (d.pageCom p).latched [p] d)

/-- The global commit applies (R70). -/
def applyGlobal (d : Dev) : Dev :=
  let l := d.com.glob.latched
  let d := applyPages l (allPages.filter (d.differs l)) d
  (allPages.foldl (fun d p => donePage p d) d).onCom fun s => { s with gstate := .idle, glob := {} }

/-! ## Keys (R66, R68, R70, R71, R143) -/

/-- Latch a page's shadow set and begin its check. -/
def latchPage (p : Page) (d : Dev) : Dev :=
  (d.setCom p { latched := d.latchOf (some p) }).setHf p HD_COMMIT_STAT_STATE comCHECKING

/-- An accepted commit gives way. (DEDUCED, log entry 49.) -/
def supersede (p : Page) (d : Dev) : Dev :=
  if inForce (d.comState p) then (d.unaccept p).bump SYS_SUPERSEDED else d

/-- The global commit latches every page's shadow set; accepted page commits give way. -/
def latchGlobal (d : Dev) : Dev :=
  let d := fstBefore (d.com.accepted.foldl (fun d p => supersede p d) d)
  let d := allPages.foldl (fun d p => d.setHf p HD_COMMIT_STAT_STATE comCHECKING) d
  d.onCom fun s => { s with gstate := .checking, glob := { latched := d.latchOf none } }

def Dev.anyChecking (d : Dev) : Bool := allPages.any fun p => d.comState p = comCHECKING

/-- The global commit that has passed its check gives way to a new key: no page is pending or checked for it any
longer. (DEDUCED, log entry 49.) -/
def dropGlobal (d : Dev) : Dev :=
  ((allPages.foldl (fun d p => (d.unaccept p).setHf p HD_COMMIT_STAT_STATE comIDLE) d).bump SYS_SUPERSEDED).onCom
    fun s => { s with gstate := .idle, glob := {} }

/-- A global commit that waits for its start tick gives way. -/
def supersedeGlobal (d : Dev) : Dev :=
  if d.com.gstate = .accepted ∨ d.com.gstate = .pending then dropGlobal d else d

/-- A global key takes effect now, or is held; an earlier global commit stands until it does. -/
def keyGlobal (d : Dev) : Dev :=
  if d.anyChecking ∨ d.f EXP_CTX_CTRL_COPY_BUSY = 1 then d.onCom fun s => { s with gHeld := true }
  else latchGlobal ((supersedeGlobal d).onCom fun s => { s with gHeld := false })

/-- What a held global key waited for has ended. -/
def releaseGlobal (d : Dev) : Dev := if d.com.gHeld then keyGlobal d else d

/-- A page key takes effect now, or is held. -/
def keyPage (p : Page) (d : Dev) : Dev :=
  let add (l : List Page) : List Page := if l.contains p then l else l ++ [p]
  match d.com.gstate with
  | .checking => d.onCom fun s => { s with behindGlobal := add s.behindGlobal }
  | .accepted | .pending => (d.comStatus p comFAILED reBUSY 0).raiseBits p 2#32
  | _ =>
    if p = .exp ∧ d.f EXP_CTX_CTRL_COPY_BUSY = 1 then d.onCom fun s => { s with behindCopy := true }
    else if d.comState p = comCHECKING then d.onCom fun s => { s with rekey := add s.rekey }
    else latchPage p (supersede p d)

/-- A page key is written while its translation pends, or not (R71). -/
def keyWritten (p : Page) (d : Dev) : Dev :=
  if d.hf p HD_PAGE_STAT_XLATE_PEND = 1 then
    d.onCom fun s => { s with behindXlate := if s.behindXlate.contains p then s.behindXlate else s.behindXlate ++ [p] }
  else keyPage p d

def pageCommit (port : Port) (p : Page) (key : Word) (d : Dev) : Dev :=
  if key = 0xC5#32 then keyWritten p d else d.reject p port (p.base + 0x1C) key 5

/-- PAGE_COMMIT. -/
def execPageCommit (p : Port) (pg : Page) (key : Word) (s : State) : Out :=
  onDev (gatePage p pg (pageCommit p pg key)) s

def gcommitKey (d : Dev) : Dev :=
  match d.com.gstate with
  | .checking => d.onCom fun s => { s with gRekey := true }
  | _ => keyGlobal d

def gcommit (port : Port) (key : Word) (d : Dev) : Dev :=
  if key = 0xC5#32 then gcommitKey d else d.reject .sys port (SYS_GCOMMIT_KEY.addr 0 0) key 5

/-- GCOMMIT. -/
def execGcommit (p : Port) (key : Word) (s : State) : Out := onDev (gateWrite p (gcommit p key)) s

/-- XLATE_PEND has cleared, or 200 µs have passed: a held key takes effect (R71). -/
def releaseXlate (p : Page) (d : Dev) : Dev :=
  if d.com.behindXlate.contains p then
    keyPage p (d.onCom fun s => { s with behindXlate := s.behindXlate.filter fun q => q != p })
  else d

/-- XLATE_HOLD_EXPIRE. -/
def execXlateHoldExpire (pg : Page) (s : State) : Out := onDev (releaseXlate pg) s

/-! ## Acceptance and holds (R33, R50 to R52, R365, R373) -/

/-- Does a candidate raise the demanded rate, the satellite grant or the encoder's load? -/
def raisesRate (old new : Dev) : Bool := decide (old.demand < new.demand) || decide (old.satGrant < new.satGrant)

/-- Do the monitors' capacities, measured at the settled voltage (R493), meet what a candidate asks more of?
(DEDUCED, log entry 49.) -/
def capacityMeets (old new : Dev) : Bool :=
  (!raisesRate old new || old.pwr.settled && decide (new.demand * new.margin ≤ ((old.minCap : Nat) : Rat))) &&
    (!decide (old.encLoad < new.encLoad) || old.pwr.settled && decide (new.encLoad * new.margin ≤ ((old.f ENC_CAP_MPXS : Nat) : Rat)))

/-- A commit that has passed its check is accepted: at once pending where capacity must rise first. -/
def Dev.accepting (d : Dev) (c : Commit) (new : Dev) : Commit :=
  { c with accept := d.cyc, hold := if capacityMeets d new then .none else .demand }

/-- (DEDUCED, log entry 49.) -/
def heldState (c : Commit) : Nat := if c.hold = .none then comACCEPTED else comPENDING

def acceptPage (p : Page) (d : Dev) : Dev :=
  if d.enabled p = false then applyCommit p d
  else
    let c := d.pageCom p
    let c := d.accepting c (d.candidate c.latched [p])
    let d := ((d.setCom p c).setHf p HD_COMMIT_STAT_STATE (heldState c)).setHf p HD_PAGE_STAT_COMMIT_PEND 1
    d.onCom fun s => { s with accepted := s.accepted ++ [p] }

def acceptGlobal (ps : List Page) (new : Dev) (d : Dev) : Dev :=
  if ps.all fun p => d.enabled p = false then applyGlobal d
  else
    let c := d.accepting d.com.glob new
    let d := allPages.foldl (fun d p =>
      (d.setHf p HD_COMMIT_STAT_STATE (heldState c)).setHf p HD_PAGE_STAT_COMMIT_PEND 1) d
    d.onCom fun s => { s with glob := c, gstate := if c.hold = .none then .accepted else .pending }

/-! ## The check ends (R67, R68, R70) -/

/-- Does a new table of the frame store wait for frames and a burst to drain (R373)? -/
def Dev.fstWaits (d new : Dev) : Bool :=
  fstMoves d new &&
    (d.liveGens.contains (d.f SYS_GEN) || (burstMoves d new && d.burstState = buRECORDING && d.burst.dest = 1))

/-- The device whose other sets a page's commit is checked against: an FST commit accepted before counts as
active, unless it will wait (R372). (DEDUCED, log entry 49.) -/
def Dev.checkedWith (d : Dev) (p : Page) : Dev :=
  let c := d.pageCom .fst
  if p ≠ .fst ∧ d.com.accepted.contains .fst ∧ c.hold ≠ .drain ∧ d.fstWaits (d.candidate c.latched [.fst]) = false then d.candidate c.latched [.fst] else d

def pageChecked (p : Page) (d : Dev) : Dev :=
  if d.comState p ≠ comCHECKING ∨ d.com.gstate = .checking then d
  else
    let again := d.com.rekey.contains p
    let d := match pageCheck ((d.checkedWith p).candidate (d.pageCom p).latched [p]) p with
      | some f => failCheck p f d
      | none => if again then d.bump SYS_SUPERSEDED else acceptPage p d
    let d := if again then latchPage p (d.onCom fun s => { s with rekey := s.rekey.filter fun q => q != p }) else d
    releaseGlobal d

/-- Failures of the pages whose latched set differs, checked as one set. (DEDUCED, log entry 49.) -/
def globalFails (d : Dev) : List (Page × Fail) :=
  let l := d.com.glob.latched
  let ps := allPages.filter (d.differs l)
  let c := d.candidate l ps
  ps.filterMap fun p => (pageCheck c p).map fun f => (p, f)

/-- Every page reports the failure of the global commit: those named their own, the rest one reason. -/
def failGlobal (own : List (Page × Fail)) (d : Dev) : Dev :=
  let ctx := firstCtx (own.map (·.2))
  let d := allPages.foldl (fun d p =>
    match own.find? fun e => e.1 = p with
    | some e => failCheck p { e.2 with ctx } d
    | none => failPage p reGROUP 0 d) d
  d.onCom fun s => { s with gstate := .idle, glob := {} }

def globalChecked (d : Dev) : Dev :=
  if d.com.gstate ≠ .checking then d
  else
    let fails := globalFails d
    let ps := allPages.filter (d.differs d.com.glob.latched)
    let again := d.com.gRekey
    let d := if fails.isEmpty then
        (if again then dropGlobal d else acceptGlobal ps (d.candidate d.com.glob.latched ps) d)
      else failGlobal fails d
    let d := if again then keyGlobal (d.onCom fun s => { s with gRekey := false }) else d
    let held := d.com.behindGlobal
    held.foldl (fun d p => keyPage p d) (d.onCom fun s => { s with behindGlobal := [] })

/-- COMMIT_CHECK_DONE: of a page's commit, or of the global one. -/
def execCommitCheckDone (pg : Option Page) (s : State) : Out :=
  onDev (match pg with | some p => pageChecked p | none => globalChecked) s

/-! ## Holds that end otherwise -/

/-- (DEDUCED, log entry 49.) -/
def holdReason (h : Hold) : Nat := if h = .drain then reDRAIN else reGOV

/-- A held commit passes its limit. FAIL_OFS reports 0. (DESIGN CHOICE, log entry 120.) -/
def holdTimeout (pg : Option Page) (d : Dev) : Dev :=
  match pg with
  | some p =>
    let c := d.pageCom p
    if d.comState p = comPENDING ∧ d.com.accepted.contains p ∧ c.hold ≠ .none then failPage p (holdReason c.hold) 0 d else d
  | none =>
    if d.com.gstate = .pending ∧ d.com.glob.hold ≠ .none then
      let r := holdReason d.com.glob.hold
      let own := (allPages.filter (d.differs d.com.glob.latched)).map fun p => (p, ({ reason := r, ofs := 0 } : Fail))
      failGlobal own d
    else d

/-- COMMIT_HOLD_TIMEOUT. -/
def execCommitHoldTimeout (pg : Option Page) (s : State) : Out := onDev (holdTimeout pg) s

/-- EN of a page is cleared while its commit waits (R68, R70). -/
def commitAborted (p : Page) (d : Dev) : Dev :=
  if d.com.accepted.contains p then failPage p reABORTED 0 d
  else if (d.com.gstate = .accepted ∨ d.com.gstate = .pending) ∧ d.differs d.com.glob.latched p then
    failGlobal [(p, { reason := reABORTED, ofs := 0 })] d
  else d

/-- A hold for capacity ends once the monitors meet the target (R51). (DEDUCED, log entry 98.) -/
def releaseDemand (d : Dev) : Dev :=
  let free (c : Commit) : Commit := { c with hold := .none, accept := d.cyc }
  let d := d.com.accepted.foldl (fun d p =>
    let c := d.pageCom p
    if c.hold = .demand ∧ capacityMeets d (d.candidate c.latched [p]) then d.setCom p (free c) else d) d
  let g := d.com.glob
  if d.com.gstate = .pending ∧ g.hold = .demand ∧
      capacityMeets d (d.candidate g.latched (allPages.filter (d.differs g.latched))) then
    d.onCom fun s => { s with glob := free s.glob }
  else d

/-! ## Frame boundaries (R33, R35, R373) -/

/-- Must a set wait for frames to drain: a third generation, or a move in the frame store? -/
def Dev.mustDrain (d : Dev) (l : SMap Word) (ps : List Page) : Bool :=
  let new := d.candidate l ps
  decide (2 ≤ d.liveGens.length) ||
    (ps.contains .fst && d.fstWaits new)

/-- Is a commit due at this instant: held by no demand, and accepted 750 cycles before unless no frame is
being read? -/
def Dev.comDue (d : Dev) (idle : Bool) (c : Commit) : Bool :=
  c.hold != .demand && (idle || decide (c.accept + 750 ≤ d.cyc))

def boundaryPage (idle : Bool) (p : Page) (d : Dev) : Dev :=
  let c := d.pageCom p
  if d.comDue idle c = false then d
  else if d.mustDrain c.latched [p] then
    (d.setCom p { c with hold := .drain }).setHf p HD_COMMIT_STAT_STATE comPENDING
  else applyCommit p d

def boundaryGlobal (idle : Bool) (d : Dev) : Dev :=
  let c := d.com.glob
  if (d.com.gstate = .accepted ∨ d.com.gstate = .pending) ∧ d.comDue idle c then
    if d.mustDrain c.latched (allPages.filter (d.differs c.latched)) then
      let d := allPages.foldl (fun d p => d.setHf p HD_COMMIT_STAT_STATE comPENDING) d
      d.onCom fun s => { s with glob := { s.glob with hold := .drain }, gstate := .pending }
    else applyGlobal d
  else d

/-- Accepted commits that are due apply, in the order of acceptance. -/
def boundary (idle : Bool) (d : Dev) : Dev :=
  d.com.accepted.foldl (fun d p => boundaryPage idle p d) (boundaryGlobal idle d)

/-- COPY ends: commits it held proceed (R70, R143). -/
def copyDone (d : Dev) : Dev :=
  if d.f EXP_CTX_CTRL_COPY_BUSY = 0 then d
  else
    let d := (copyBank d).setF EXP_CTX_CTRL_COPY_BUSY 0
    let d := if d.com.behindCopy then keyPage .exp (d.onCom fun s => { s with behindCopy := false }) else d
    releaseGlobal d

/-- CTX_COPY_DONE. -/
def execCtxCopyDone (s : State) : Out := onDev copyDone s

end Sys2Proof.Machine
end

