-- ==== Sys2Proof/Machine/Hlp.lean ====
section
/-! DEFINITION. The host link port: bring-up, HELLO, host packets and credit (R398 to R401, R410,
R419, R422 to R424). -/
namespace Sys2Proof.Machine

/-! ## States (R422, R423) -/

def hlOFF : Nat := 0
def hlTRAINING : Nat := 1
def hlINIT : Nat := 2
def hlUP : Nat := 3

def Dev.hlState (d : Dev) : Nat := d.f HLP_STAT_STATE

/-- A change of state writes one event: LINK_UP where the state rises, LINK_DOWN where it falls.
(DEDUCED, log entry 92.) -/
def hlTo (st : Nat) (d : Dev) : Dev :=
  if d.hlState = st then d
  else (d.setF HLP_STAT_STATE st).emit (if d.hlState < st then 0x094 else 0x095) .hlp

/-- The rate of a code in 0.1 GBd; the slowest rates are cut off (R424, R429). (DEDUCED, log entry 92.) -/
def rateDeci : Nat → Nat
  | 0 => 17 | 1 => 35 | 2 => 70 | 3 => 140 | 4 => 280 | 5 => 8 | _ => 4

/-- HELLO payload (R424). 1.75 GBd has no exact tenth; what stands there is open. (DEDUCED, log entry 92.) -/
def helloPayload (d : Dev) : List Byte × Dev :=
  let r := d.fi LN_STAT_RATE_ACT 0 0
  let (w, d) := if r = 0 then (let (w, d) := d.free; (17 + w.toNat % 2, d)) else (rateDeci r, d)
  (u16 1 ++ u8 (d.f HLP_STAT_TX_ACT) ++ u8 (d.f HLP_STAT_RX_ACT) ++ u16 w ++
    u8 (d.fi LN_STAT_FEC_ACT 0 0) ++ u8 0 ++ u32 (d.f HLP_STAT_UP_COUNT) ++ u64 Config.serial.toNat ++
    u32 16384 ++ u64 0, d)

/-- A HELLO enters queue 0. -/
def sendHello (d : Dev) : Dev :=
  let (pay, d) := helloPayload d
  dlvPut 0 [{ kind := .control, typ := 0x01, aux := d.tickLow, since := d.cyc, payload := pay }] d

/-- On leaving UP, held, IRQ and TIME packets stay; the frames of the others count as dropped.
(DEDUCED, log entry 92.) -/
def hlLeaveUp (d : Dev) : Dev :=
  let d := d.dlv.queues.foldl (fun d e =>
    e.2.grps.foldl (fun d g => if g.key = 0 then d else dropOn e.1 d) d) d
  let d := d.onDlv fun s => { s with streams := s.streams.map fun e =>
    (e.1, if e.2.begun then { e.2 with dead := true } else e.2) }
  let keep (p : Pkt) : Bool := p.kind = .control || p.kind = .held
  let trim (x : QueueSt) : QueueSt :=
    { x with grps := (x.grps.map fun g => { g with pkts := g.pkts.filter keep }).filter fun g => !g.pkts.isEmpty }
  let d := d.dlv.queues.foldl (fun d e => bufRegs e.1 (d.mapQueue e.1 trim)) d
  { d with hlp := { d.hlp with strm := [], search := false, unc := [] } }

/-- UP ends. -/
def hlDown (d : Dev) : Dev :=
  if d.hlState = hlUP then
    hlTo hlTRAINING (((hlLeaveUp d).raise HLP_IRQ_RAW_LINK_DOWN).bump HLP_RETRAIN)
  else d

/-- The largest of some group sizes whose lanes from `first` on have all trained. -/
def trainedRun (d : Dev) (first lim : Nat) (sizes : List Nat) : Nat :=
  sizes.foldl (fun b n =>
    if n ≤ lim ∧ ((List.range n).all fun j => d.laneTrained (first + j)) then max b n else b) 0

/-- The host group has trained: INIT, where enough lanes have. The transmit latency is that of this
link (R427 gives a typical figure only). -/
def hlTrained (d : Dev) : Dev :=
  if d.hlState ≠ hlTRAINING then d
  else
    let tx := trainedRun d 0 (d.f HLP_CFG_TX_LANES) [1, 2, 4, 8, 16]
    let rx := trainedRun d 16 (d.f HLP_CFG_RX_LANES) [1, 2, 4]
    let full := tx = d.f HLP_CFG_TX_LANES ∧ rx = d.f HLP_CFG_RX_LANES
    if full ∨ (d.on HLP_CFG_DEGRADE ∧ 0 < tx ∧ 0 < rx) then
      let d := (d.setF HLP_STAT_TX_ACT tx).setF HLP_STAT_RX_ACT rx
      let (w, d) := d.free
      hlTo hlINIT (d.setF HLP_TX_LAT_NS w.toNat)
    else d

/-- EN is set. -/
def hlEnable (d : Dev) : Dev :=
  if d.hlState = hlOFF then hlTrained (groupRequest 0 (hlTo hlTRAINING d)) else d

/-- EN is cleared: the lanes go to electrical idle. -/
def hlDisable (d : Dev) : Dev :=
  let d := if d.hlState = hlUP then hlLeaveUp d else d
  let d := (d.setF HLP_STAT_TX_ACT 0).setF HLP_STAT_RX_ACT 0
  groupOff 0 (hlTo hlOFF d)

/-- A valid host packet arrives in INIT: UP, and every enabled queue restarts. (DEDUCED, log entry 92.) -/
def hlUp (d : Dev) : Dev :=
  if d.hlState ≠ hlINIT then d
  else
    let qs := (d.regs.map (·.1)).filterMap fun a =>
      if 0x140000 ≤ a ∧ a < 0x180000 then some ((a - 0x140000) / 32) else none
    let d := qs.foldl (fun d q =>
      if d.qEn q then ((d.qSet q 1 31 0 0).qSet q 2 31 0 0).qSet q 3 15 0 0 else d) d
    let d := d.setF HLP_STAT_UP_COUNT (d.f HLP_STAT_UP_COUNT + 1)
    sendHello ((hlTo hlUP d).raise HLP_IRQ_RAW_LINK_UP)

/-- HLP_HELLO_TIMER. -/
def execHlpHelloTimer (s : State) : Out :=
  onDev (fun d => if d.hlState = hlINIT then sendHello d else d) s

/-- HLP_INIT_TIMEOUT. -/
def execHlpInitTimeout (s : State) : Out :=
  onDev (fun d => if d.hlState = hlINIT then
    groupRetrain 0 0 (hlTo hlTRAINING (d.bump HLP_RETRAIN)) else d) s

/-! ## Host packets (R398 to R401) -/

/-- A host packet's header. -/
structure HostHdr where
  typ : Nat
  qid : Nat
  len : Nat
  addr : Nat
  tag : Nat
  count : Nat
  fixed : Bool
  noAck : Bool
  deriving DecidableEq, Repr

/-- May a host packet of a type have this LEN? A REG_WR whose LEN and COUNT differ is left to R417. -/
def hostLenOk (typ len : Nat) : Bool :=
  decide (len % 4 = 0) && decide (len ≤ 4096) &&
    (if typ = 0x18 then decide (8 ≤ len) && decide (len % 8 = 0) else true)

/-- Decode 16 header bytes: none where they are no good header. -/
def hostDecode (bs : List Byte) : Option HostHdr :=
  let n := natOfBytes (bs.take 16)
  let f (lo k : Nat) : Nat := n / 2 ^ lo % 2 ^ k
  let crc := (crc8From 0#8 (bs.take 3 ++ (bs.take 16).drop 4)).toNat
  let h : HostHdr := { typ := f 0 6, qid := f 8 13, len := f 32 13, addr := f 64 24, tag := f 88 8,
                       count := f 96 11, fixed := f 112 1 = 1, noAck := f 113 1 = 1 }
  if crc = f 24 8 ∧ [0x10, 0x11, 0x18].contains h.typ ∧ f 23 1 = 0 ∧ f 45 3 = 0 ∧ hostLenOk h.typ h.len then
    some h
  else none

/-- The stream past its NULL words. -/
def skipNull : Nat → List Byte → List Byte
  | 0, bs => bs
  | n + 1, bs => if 4 ≤ bs.length ∧ natOfBytes (bs.take 4) = 0 then skipNull n (bs.drop 4) else bs

def Dev.hostStream (d : Dev) : List Byte := skipNull d.hlp.strm.length d.hlp.strm

/-- The whole packet at the head of the host stream: header, payload, whether its CRC passes, and what
follows. -/
def hostPacket (bs : List Byte) : Option (HostHdr × List Byte × Bool × List Byte) :=
  match hostDecode bs with
  | some h =>
    if h.len + 20 ≤ bs.length then
      let body := bs.take (h.len + 16)
      let ok := natOfBytes ((bs.drop (h.len + 16)).take 4) = (crc32 body).toNat
      some (h, body.drop 16, ok, bs.drop (h.len + 20))
    else none
  | none => none

/-- Does HLP take host packets: in INIT or UP, with its packet layer in step? -/
def Dev.hostListens (d : Dev) : Bool := (d.hlState = hlINIT || d.hlState = hlUP) && !d.hlp.search

def Dev.setStrm (d : Dev) (bs : List Byte) (search : Bool) : Dev :=
  { d with hlp := { d.hlp with strm := bs, search } }

/-- A good packet of a type at the head of the host stream, and the device that has taken it. -/
def hostFront (typ : Nat) (d : Dev) : Option (HostHdr × List Byte × Dev) :=
  if d.hostListens = false then none
  else match hostPacket d.hostStream with
    | some (h, pay, true, t) =>
      if h.typ = typ then some (h, pay, hlUp ((d.setStrm t false).bump HLP_RX_PKTS)) else none
    | _ => none

/-- Take a good packet of a type from the head of the host stream, and act on it. -/
def hostTake (typ : Nat) (f : HostHdr → List Byte → Dev → Dev) (d : Dev) : Dev :=
  match hostFront typ d with
  | some (h, pay, d) => f h pay d
  | none => d

/-- Do 16 bytes pass HCRC, with a host TYPE? The answer is their LEN. -/
def hostHeader (bs : List Byte) : Option Nat :=
  let n := natOfBytes (bs.take 16)
  if (crc8From 0#8 (bs.take 3 ++ (bs.take 16).drop 4)).toNat = n / 2 ^ 24 % 256 ∧ [0x10, 0x11, 0x18].contains (n % 64) then
    some (n / 2 ^ 32 % 2 ^ 13)
  else none

/-- Does a host packet resume here: does the header pass, and its successor, LEN + 20 bytes later, too? -/
def hostResume (bs : List Byte) : Option Bool :=
  if bs.length < 16 then none
  else match hostHeader bs with
    | none => some false
    | some len =>
      let t := bs.drop (len + 20)
      if t.length < 16 then none else some (hostHeader t).isSome

/-- Search 4-byte words for a place to resume. -/
def hostSearch : Nat → List Byte → List Byte × Bool
  | 0, bs => (bs, false)
  | n + 1, bs =>
    match hostResume bs with
    | none => (bs, false)
    | some true => (bs, true)
    | some false => hostSearch n (bs.drop 4)

/-- A host packet fails its checks; or the search after one goes on. -/
def hostError (d : Dev) : Dev :=
  if d.hlState ≠ hlINIT ∧ d.hlState ≠ hlUP then d
  else if d.hlp.search then
    let r := hostSearch d.hlp.strm.length d.hlp.strm
    d.setStrm r.1 (!r.2)
  else
    let bs := d.hostStream
    let bad (d : Dev) : Dev := (d.bump HLP_RX_ERR).raise HLP_IRQ_RAW_RX_ERR
    if bs.length < 16 then d
    else match hostDecode bs, hostPacket bs with
      | none, _ =>
        let r := hostSearch bs.length (bs.drop 4)
        (bad d).setStrm r.1 (!r.2)
      | some _, some (_, _, false, t) => (bad d).setStrm t false
      | _, _ => d

/-- HOST_PACKET_ERROR. -/
def execHostPacketError (s : State) : Out := onDev hostError s

/-! ## CREDIT (R410) -/

/-- One entry of a CREDIT packet: queue and new LIMIT. (DEDUCED, log entry 89.) -/
def creditEntry (q v : Nat) (d : Dev) : Dev :=
  if q = 0 then d
  else if 2 ^ 31 ≤ (v + 2 ^ 32 - d.qLimit q) % 2 ^ 32 then
    (d.bump DLV_CREDIT_BACK).raise DLV_IRQ_RAW_CREDIT_BACK
  else d.qSet q 1 31 0 v

/-- The entries of a CREDIT payload, in order. -/
def creditAll : Nat → List Byte → Dev → Dev
  | 0, _, d => d
  | n + 1, bs, d =>
    if bs.length < 8 then d
    else creditAll n (bs.drop 8) (creditEntry (natOfBytes (bs.take 2) % 8192) (natOfBytes ((bs.drop 4).take 4)) d)

/-- HOST_CREDIT. -/
def execHostCredit (s : State) : Out := onDev (hostTake 0x18 fun _ pay => creditAll 512 pay) s

end Sys2Proof.Machine
end

