-- ==== Sys2Proof/Machine/Lanes.lean ====
section
/-! DEFINITION. The serial lanes: training, blocks, FEC, deskew, equalisation and sleep (R430 to R456).
A block command carries a lane's block as received, still scrambled, and the bits by which its elastic buffer
has filled since the last; with FEC on it takes the block from the bits the decoder has delivered. -/
namespace Sys2Proof.Machine

/-! ## Leaving and entering ACTIVE (R275, R422) -/

/-- Change a group; the layer above learns whether it has left or entered ACTIVE. -/
def withGroup (g : Nat) (f : Dev → Dev) (d : Dev) : Dev :=
  let was := (d.grp g).state = lnACTIVE
  let d := f d
  let now := (d.grp g).state = lnACTIVE
  if was ∧ ¬ now then (if g = 0 then hlDown d else spLaneLoss (g - 1) d)
  else if ¬ was ∧ now then (if g = 0 then hlTrained d else spTrained (g - 1) d)
  else d

/-- A failure of a group, with what follows above it. -/
def laneFail (g cause : Nat) (d : Dev) : Dev := withGroup g (groupFail g cause) d

/-! ## An attempt begins (R429, R451, R452) -/

/-- An attempt starts in DETECT: the rates in force, and the check of the quad's rate. (DEDUCED, log entry 94.) -/
def groupAttempt (g : Nat) (d : Dev) : Dev :=
  let (tx, rx) := d.groupRates g
  let d := (d.laneField (txLanes g) LN_STAT_RATE_ACT tx).laneField (rxLanes g) LN_STAT_RATE_ACT rx
  let d := (d.laneField (txLanes g ++ rxLanes g) LN_STAT_FEC_ACT 0).laneField (txLanes g ++ rxLanes g) LN_STAT_PRECODE_ACT 0
  let d := groupTo g lnDETECT 0 d
  if d.rateConflict g then laneFail g lnCONFLICT d else txTrain g (txPlain g d)

/-- LANE_BACKOFF_END. -/
def execLaneBackoffEnd (g : Fin 9) (s : State) : Out :=
  onDev (fun d =>
    let x := d.grp g
    if d.boot.run = .running ∧ x.state = lnDEEP ∧ x.held = false ∧ d.loopsRun g then
      groupAttempt g (d.laneField (d.usedAll g) LN_BACKOFF_MS 0)
    else d) s

/-- LANE_FAIL_IDLE_END. -/
def execLaneFailIdleEnd (g : Fin 9) (s : State) : Out :=
  onDev (fun d =>
    let x := d.grp g
    if d.boot.run = .running ∧ x.txIdle then
      let d := d.setGrp g { x with txIdle := false }
      if x.state = lnDETECT then groupAttempt g d else d
    else d) s

/-- The settings as the page reports them: CTLE, VGA, PHASE, taps. -/
def eqRegs (l : Nat) (d : Dev) : Dev :=
  let e := (d.lane l).eq
  let v (i k : Nat) : Nat := unsigned k ((e[i]?).getD 0)
  let d := ((d.setFi LN_RX_EQ_CTLE l 0 (v 0 4)).setFi LN_RX_EQ_VGA l 0 (v 1 8)).setFi LN_RX_EQ_PHASE l 0 (v 2 8)
  (List.range 3).foldl (fun d w =>
    d.setFi LN_DFE l w ((List.range 4).foldl (fun n i => n + v (3 + 4 * w + i) 8 * 256 ^ i) 0)) d

/-- In ACQUIRE a receiver sets its CTLE and VGA coarsely, to what it finds: free values (R446).
(DEDUCED, log entry 95.) -/
def laneCoarse (l : Nat) (d : Dev) : Dev :=
  let (w, d) := d.free
  eqRegs l (d.mapLane l fun x =>
    { x with eq := [((w.toNat % 16 : Nat) : Int), ((w.toNat / 16 % 256 : Nat) : Int)] ++ x.eq.drop 2 })

/-- Receive lanes of a group with signal. -/
def Dev.signalled (d : Dev) (g : Nat) : List Nat := (d.partRx g).filter fun l => d.fi LN_STAT_SIGNAL l 0 = 1

/-- LANE_SIGNAL_DETECT. -/
def laneSignal (l : Nat) (d : Dev) : Dev :=
  let g := laneGroup l
  let x := d.grp g
  if laneRx l = false ∨ d.laneUsed l = false ∨ x.state ≤ lnDEEP then d
  else
    let d := d.setFi LN_STAT_SIGNAL l 0 1
    if x.state = lnDETECT ∧ x.txIdle = false then
      txTrain g (d.eachLane (d.signalled g) laneCoarse |> groupTo g lnACQUIRE 0)
    else if x.state = lnACQUIRE then laneCoarse l d
    else d

def execLaneSignalDetect (l : Fin 44) (s : State) : Out := onDev (laneSignal l) s

/-- LANE_CDR_LOCK. -/
def laneCdr (l : Nat) (d : Dev) : Dev :=
  let g := laneGroup l
  if laneRx l = false ∨ (d.grp g).state ≠ lnACQUIRE then d
  else
    let d := d.mapLane l fun x => { x with cdr := true }
    if (d.signalled g).all fun l => (d.lane l).cdr then txTrain g (groupTo g lnSYNC 0 d) else d

def execLaneCdrLock (l : Fin 44) (s : State) : Out := onDev (laneCdr l) s

/-! ## Block sync to ACTIVE (R436, R445, R451, R453) -/

def Dev.locked (d : Dev) (l : Nat) : Bool := d.fi LN_STAT_BLOCK_LOCK l 0 = 1

/-- Do the lanes that take part make an attempt succeed (R422, R453)? -/
def Dev.enoughLanes (d : Dev) (g : Nat) : Bool :=
  let ls := d.partAll g
  if g = 0 then
    if d.on HLP_CFG_DEGRADE then ls.contains 0 && ls.contains 16
    else (List.range (d.f HLP_CFG_TX_LANES)).all ls.contains &&
      (List.range (d.f HLP_CFG_RX_LANES)).all fun l => ls.contains (16 + l)
  else (txLanes g ++ rxLanes g).all ls.contains

/-- Taps of a transmit lane. -/
def setFir (l pre post : Nat) (d : Dev) : Dev :=
  ((d.setFi LN_TX_FIR_PRE l 0 pre).setFi LN_TX_FIR_POST l 0 post).setFi LN_TX_FIR_MAIN l 0 (64 - pre - post)

/-- EQUALISE begins with some of the group's receive lanes; the others are left out. -/
def groupEqualise (g : Nat) (ls : List Nat) (d : Dev) : Dev :=
  let d := d.eachLane (d.partRx g) fun l d => d.mapLane l fun x => { x with left := !ls.contains l }
  let d := d.eachLane (d.partTx g) fun l d =>
    if d.fi LN_TX_FIR_FIXED l 0 = 1 then d else setFir l 2 8 d
  txTrain g (groupTo g lnEQUALISE 0 d)

/-- Every receive lane with signal has block lock, and the far end is in BLOCK_SYNC or beyond. -/
def syncCheck (g : Nat) (d : Dev) : Dev :=
  let ls := d.signalled g
  if (d.grp g).state = lnSYNC ∧ lnSYNC ≤ (d.grp g).farState ∧ ls ≠ [] ∧ ls.all d.locked then
    groupEqualise g ls d
  else d

/-- Own and far RX_READY: CONFIG. -/
def readyCheck (g : Nat) (d : Dev) : Dev :=
  if (d.grp g).state = lnEQUALISE ∧ 8 ≤ (d.grp g).farReady ∧ (d.partRx g).all fun l => (d.lane l).eqDone then
    txTrain g (groupTo g lnCONFIG 0 (d.mapGrp g fun x => { x with farAck := 0 }))
  else d

/-- ACTIVE: FEC and precoding in force are settled, failures and back-off cleared. -/
def groupActive (g : Nat) (d : Dev) : Dev :=
  let x := d.grp g
  let tx := leadLane (txLanes g)
  let rx := leadLane (rxLanes g)
  let fec := (d.groupRates g).2 = 4 ∨ x.farFec ∨ d.fi LN_CFG_FEC_REQ tx 0 = 1 ∨ d.fi LN_CFG_FEC_REQ rx 0 = 1
  let d := d.laneField (d.partAll g) LN_STAT_FEC_ACT (b2n fec)
  let d := d.laneField (d.partTx g) LN_STAT_PRECODE_ACT (b2n x.farPre)
  let d := d.laneField (d.partRx g) LN_STAT_PRECODE_ACT (d.fi LN_CFG_PRECODE_REQ rx 0)
  let d := d.eachLane (d.partRx g) fun l d => d.mapLane l fun x => { x with clamped := false, hist := [] }
  let d := setBackoff g 0 (setFails g 0 d)
  txActive g (groupTo g lnACTIVE 0 (d.eachLane (d.partAll g) fun l d => d.raiseI LN_IRQ_RAW_TRAINED l))

/-- CONFIG_ACK has come in eight blocks in a row: ACTIVE, where the lanes left suffice; an attempt with too few
ends with CONFIG's timeout. (DEDUCED, log entry 94.) -/
def ackCheck (g : Nat) (d : Dev) : Dev :=
  if (d.grp g).state = lnCONFIG ∧ 8 ≤ (d.grp g).farAck ∧ d.enoughLanes g then withGroup g (groupActive g) d else d

/-- LANE_STATE_TIMEOUT. An attempt goes on without the lanes that have no lock at the end of BLOCK_SYNC.
(DEDUCED, log entry 94.) -/
def laneTimeout (g : Nat) (d : Dev) : Dev :=
  let st := (d.grp g).state
  if d.boot.run ≠ .running then d
  else if st = lnDETECT then (if (d.grp g).txIdle then d else laneFail g 1 d)
  else if st = lnACQUIRE then laneFail g 2 d
  else if st = lnSYNC then
    let ls := (d.signalled g).filter d.locked
    if lnSYNC ≤ (d.grp g).farState ∧ ls ≠ [] then groupEqualise g ls d else laneFail g 3 d
  else if st = lnEQUALISE then laneFail g 4 d
  else if st = lnCONFIG then laneFail g 5 d
  else d

def execLaneStateTimeout (g : Fin 9) (s : State) : Out := onDev (laneTimeout g) s

/-- LANE_LOS. -/
def laneLos (l : Nat) (d : Dev) : Dev :=
  let g := laneGroup l
  if laneRx l = false ∨ d.laneUsed l = false ∨ d.fi LN_STAT_SIGNAL l 0 = 0 then d
  else
    let d := (d.bumpI LN_LOS l 0).setFi LN_STAT_SIGNAL l 0 0
    if lnACQUIRE ≤ (d.grp g).state ∧ (d.lane l).left = false then laneFail g lnLOS d else d

def execLaneLos (l : Fin 44) (s : State) : Out := onDev (laneLos l) s

/-! ## Receiving blocks (R430, R433, R437 to R443) -/

/-- Descramble a payload: the payload, and the register after it (R433). (DEDUCED, log entry 93.) -/
def descramble (h : Nat) (v : BitVec 256) : BitVec 256 × Nat :=
  let full := h + 2 ^ 58 * v.toNat
  (v ^^^ BitVec.ofNat 256 (full / 2 ^ 19) ^^^ BitVec.ofNat 256 full, full / 2 ^ 256 % 2 ^ 58)

/-- With FEC on, take the next 260 decoded bits of a lane; they must spell this payload and header.
The answer is the kind to act on. -/
def takeBits (l : Nat) (k : BKind) (hdr : Option Nat) (v : BitVec 256) (d : Dev) : Option (BKind × Dev) :=
  let x := d.lane l
  if x.fec = false then some (k, d)
  else if x.bits.length < 260 then none
  else
    let b := x.bits.take 260
    let h := natOfBits ((b.take 4).map (·.1))
    let broken := b.any (·.2)
    let d := d.setLane l { x with bits := x.bits.drop 260 }
    if natOfBits ((b.drop 4).map (·.1)) ≠ v.toNat then none
    else if broken then (if k = .data then some (.bad, d) else none)
    else match hdr with
      | some c => if c = h then some (k, d) else none
      | none => if kindOf h = none then some (k, d) else none

/-- What a block adds to the stream in a DATA row: a lost one adds 32 bytes of 0xFF. -/
def LnItem.bytes : LnItem → List Byte
  | .data v => blockBytes v
  | .lost => List.replicate 32 0xFF#8
  | _ => []

/-- Kinds of queued blocks. -/
def LnItem.isData : LnItem → Bool | .data _ => true | _ => false
def LnItem.isIdle : LnItem → Bool | .idle => true | _ => false
def LnItem.align? : LnItem → Option Nat | .align n => some n | _ => none

/-- What was deskewed of the host stream: rows of DATA blocks, aligned by their ALIGN rows. A lost block belongs to
the row in which it stands. (DEDUCED, log entry 93.) -/
def hostPump : Nat → List Nat → Dev → Dev
  | 0, _, d => d
  | n + 1, ls, d =>
    let heads := ls.map fun l => (d.lane l).q.head?
    let pop (ls : List Nat) (d : Dev) : Dev := d.eachLane ls fun l d => d.mapLane l fun x => { x with q := x.q.tail }
    if ls.isEmpty ∨ heads.any (·.isNone) then d
    else
      let his := heads.filterMap id
      let are (f : LnItem → Bool) : List Nat := ls.filter fun l => ((d.lane l).q.head?).any f
      let rows := his.filterMap LnItem.align?
      if rows.isEmpty then
        if his.any LnItem.isIdle then
          hostPump n ls (pop (if his.any LnItem.isData then are LnItem.isIdle else ls) d)
        else
          let d := pop ls d
          hostPump n ls { d with hlp := { d.hlp with strm := d.hlp.strm ++ his.flatMap LnItem.bytes } }
      else if his.any fun i => i.isData || i.isIdle then
        hostPump n ls (pop (are fun i => i.isData || i.isIdle) d)
      else
        let m := rows.foldl max 0
        if rows.all fun r => r = m then hostPump n ls (pop ls d)
        else hostPump n ls (pop (are fun i => i.align?.any (· ≠ m)) d)

/-- Lanes of the host receive direction in use: the largest group of 1, 2 or 4 from LN16 (R422). -/
def Dev.hostRx (d : Dev) : List Nat := (List.range (trainedRun d 16 (d.f HLP_CFG_RX_LANES) [1, 2, 4])).map (16 + ·)

def hostSettle (d : Dev) : Dev :=
  let n := d.hostRx.foldl (fun n l => n + (d.lane l).q.length) 0
  hostPump n d.hostRx d

/-- A block of a host lane waits for those of the other lanes, up to 32 blocks (R434). (DEDUCED, log entry 93.) -/
def deskew (l : Nat) (i : LnItem) (d : Dev) : Dev :=
  if d.hostRx.contains l = false ∨ 32 ≤ (d.lane l).q.length then d
  else d.mapLane l fun x => { x with q := x.q ++ [i] }

/-- A block of a row reaches the packet layer; a satellite's stream takes DATA blocks, of which `v` is one. -/
def deliver (l : Nat) (i : LnItem) (v : Option (BitVec 256)) (d : Dev) : Dev :=
  let g := laneGroup l
  if (d.lane l).started = false then d
  else if g = 0 then hostSettle (deskew l i d)
  else match v with
    | some v => spBlock (g - 1) l v d
    | none => d

def allOnes256 : BitVec 256 := BitVec.ofNat 256 (2 ^ 256 - 1)

/-- An ALIGN block of the host direction: its row count, and the lane's skew. -/
def alignBlock (l : Nat) (v : BitVec 256) (d : Dev) : Dev :=
  if laneGroup l ≠ 0 ∨ (d.lane l).started = false then d
  else
    let n := natOfBytes ((blockBytes v).take 4)
    let d := deskew l (.align n) d
    let mine := (d.lane l).q.length
    let far := d.hostRx.foldl (fun m l => max m (d.lane l).q.length) 0
    hostSettle (d.setFi LN_SKEW_BLOCKS l 0 (min 63 (far - mine)))

/-! ## CTRL blocks (R449, R450, R455, R456) -/

/-- Move one tap under a request, with a status that is 0: taps and status after it. -/
def firTap (req now top : Nat) : Nat × Nat :=
  if req = 1 then (if top ≤ now then (now, 3) else (now + 1, 1))
  else if req = 2 then (if now = 0 then (0, 2) else (now - 1, 1))
  else (now, 0)

/-- A transmit lane answers the request for it. Where INIT and PRESET are both asked, which is applied
is open. (DEDUCED, log entry 95.) -/
def firRequest (l req : Nat) (d : Dev) : Dev :=
  let x := d.lane l
  let ask (v : Nat) (d : Dev) : Dev := d.setLane l { x with sts := v }
  let f (lo k : Nat) : Nat := req / 2 ^ lo % 2 ^ k
  if req % 64 = 0 then ask 0 d
  else if d.fi LN_TX_FIR_FIXED l 0 = 1 then d
  else if f 4 2 ≠ 0 then
    if x.sts ≠ 0 then d
    else
      let (w, d) := if f 4 2 = 3 then d.free else (0#32, d)
      let init := f 4 2 = 1 ∨ (f 4 2 = 3 ∧ w.getLsbD 0)
      ask 5 (if init then setFir l 2 8 d else setFir l 0 0 d)
  else
    let pre := d.fi LN_TX_FIR_PRE l 0
    let post := d.fi LN_TX_FIR_POST l 0
    let (pre', s0) := if x.sts % 4 = 0 ∨ f 0 2 = 0 then firTap (f 0 2) pre 12 else (pre, x.sts % 4)
    let (post', s1) := if x.sts / 4 = 0 ∨ f 2 2 = 0 then firTap (f 2 2) post 24 else (post, x.sts / 4)
    ask (s0 + 4 * s1) (setFir l pre' post' d)

/-- The request of a receive lane after the far end's status (R450): a field answered returns to hold, one not
answered stays; a lane that equalises asks again, for what is its own choice. (DEDUCED, log entry 95.) -/
def rxRequest (l sts : Nat) (d : Dev) : Dev :=
  let x := d.lane l
  let pre := if sts % 4 = 0 then x.req % 4 else 0
  let post := if sts / 4 % 4 = 0 then x.req / 4 % 4 else 0
  if pre = 0 ∧ post = 0 ∧ sts % 16 = 0 ∧ x.eqDone = false ∧ (d.grp (laneGroup l)).state = lnEQUALISE then
    let (w, d) := d.free
    d.setLane l { x with req := w.toNat % 3 + 4 * (w.toNat / 4 % 3) }
  else d.setLane l { x with req := pre + 4 * post }

/-- What a training block of the group's lead lane says. -/
def ctrlTrain (g : Nat) (bs : List Byte) (d : Dev) : Dev :=
  let byte (n : Nat) : Nat := natOfBytes ((bs.drop n).take 1)
  let fl := byte 2
  let d := d.mapGrp g fun x =>
    { x with farState := byte 1,
             farReady := if fl.testBit 3 then x.farReady + 1 else 0,
             farAck := if fl.testBit 4 then x.farAck + 1 else 0,
             farFec := if x.state = lnCONFIG then fl.testBit 1 else x.farFec,
             farPre := if x.state = lnCONFIG then fl.testBit 2 else x.farPre }
  let d := if lnSYNC ≤ (d.grp g).state ∧ (d.grp g).state < lnACTIVE then
      d.eachLane (d.partTx g) fun l d => firRequest l (byte (8 + laneIndex l)) d
    else d
  let d := d.eachLane (d.partRx g) fun l d => rxRequest l (byte (24 + laneIndex l / 2) / 16 ^ (laneIndex l % 2) % 16) d
  ackCheck g (txTrain g (readyCheck g (syncCheck g d)))

/-- A lane whose direction sleeps has not found its boundary by the START row. -/
def startMissed (l : Nat) (d : Dev) : Bool := d.fi LN_STAT_RX_SLEEP l 0 = 1 && decide ((d.lane l).good < 32)

/-- START: FEC codewords follow it where FEC is on. (DEDUCED, log entry 95.) -/
def ctrlStart (l : Nat) (d : Dev) : Dev :=
  if startMissed l d then laneFail (laneGroup l) lnLOCK d
  else
    let d := d.setFi LN_STAT_RX_SLEEP l 0 0
    d.mapLane l fun x =>
      { x with started := true, awake := true, fec := d.fi LN_STAT_FEC_ACT l 0 = 1, prev := 0, bits := [], uncRun := 0 }

/-- SLEEP: the direction stops, and a margin check with it; a WAKE row finds the boundary anew. -/
def ctrlSleep (l : Nat) (d : Dev) : Dev :=
  let d := (d.setFi LN_STAT_RX_SLEEP l 0 1).bumpI LN_SLEEPS l 0
  d.mapLane l fun x => { x with fec := false, awake := false, bits := [], good := 0, margin := false }

/-- A CTRL block; reserved codes say nothing. -/
def ctrlBlock (l : Nat) (v : BitVec 256) (d : Dev) : Dev :=
  let g := laneGroup l
  let bs := blockBytes v
  match natOfBytes (bs.take 1) with
  | 1 => if (d.partRx g).head? = some l then ctrlTrain g bs d else d
  | 2 => if (d.grp g).state = lnACTIVE then ctrlStart l d else d
  | 3 => if (d.grp g).state = lnACTIVE then ctrlSleep l d else d
  | 4 => if d.fi LN_STAT_RX_SLEEP l 0 = 1 then d.mapLane l fun x => { x with good := x.good + 1 } else d
  | _ => d

/-! ## One block (R438 to R443) -/

/-- The candidate boundary slips by one symbol, and two blocks are discarded while it settles. -/
def LaneSt.slip (x : LaneSt) : LaneSt := { x with good := 0, slips := x.slips + 1, discard := 2 }

/-- The search for the boundary (R438). -/
def syncBlock (l : Nat) (ok : Bool) (d : Dev) : Dev :=
  let x := d.lane l
  if 0 < x.discard then d.setLane l { x with discard := x.discard - 1 }
  else if ok = false then d.setLane l x.slip
  else if x.good + 1 < 64 then d.setLane l { x with good := x.good + 1 }
  else
    let d := (d.setLane l { x with good := 64 }).setFi LN_STAT_BLOCK_LOCK l 0 1
    syncCheck (laneGroup l) (d.setFi LN_EB_FILL_BITS l 0 520)

/-- Block lock is lost (R437, R439). -/
def lockLost (l : Nat) (d : Dev) : Dev :=
  let g := laneGroup l
  if (d.grp g).state = lnACTIVE then laneFail g lnLOCK d
  else (d.setFi LN_STAT_BLOCK_LOCK l 0 0).mapLane l fun x => { x with good := 0, hist := [] }

/-- Act on a block whose payload has been descrambled, as the elastic buffer gives it out. (DEDUCED, log entry 93.) -/
def blockOut (l : Nat) (k : BKind) (v : BitVec 256) (d : Dev) : Dev :=
  match k with
  | .data => deliver l (.data v) (some v) d
  | .bad => deliver l .lost (some allOnes256) d
  | .align => alignBlock l v d
  | .ctrl => ctrlBlock l v d
  | .idle => deliver l .idle none d
  | .skip => d

/-- Is the last packet of a stream a part of a long register request? One whose header has not come whole is judged by
its TYPE and LEN. (DEDUCED, log entry 93.) -/
def longTail : Nat → List Byte → Bool
  | 0, _ => false
  | n + 1, bs =>
    let w := natOfBytes (bs.take 8)
    if bs.length < 16 then
      decide (8 ≤ bs.length) && [0x10, 0x11].contains (w % 64) && decide (1024 < w / 2 ^ 32 % 2 ^ 13)
    else match hostDecode bs with
      | some h =>
        if bs.length < h.len + 20 then (h.typ = 0x10 || h.typ = 0x11) && decide (1024 < h.len)
        else longTail n (skipNull bs.length (bs.drop (h.len + 20)))
      | none => false

/-- The bytes of blocks that wait for those of other lanes, in the stream's order up to the first that is missing. -/
def queuedBytes : Nat → List (List LnItem) → List Byte
  | 0, _ => []
  | n + 1, qs =>
    let his := (qs.map fun q => q.head?).takeWhile Option.isSome
    let bs := (his.filterMap id).flatMap LnItem.bytes
    if his.length < qs.length then bs else bs ++ queuedBytes n (qs.map List.tail)

/-- Does the host stream, with the blocks that wait, hold part of a long register request (R443)? -/
def Dev.longRequest (d : Dev) : Bool :=
  let bs := d.hlp.strm ++ queuedBytes 33 (d.hostRx.map fun l => (d.lane l).q)
  let bs := skipNull bs.length bs
  longTail bs.length bs

/-- The fill of the elastic buffer moves by some bits, within its 1,040. -/
def ebMove (l : Nat) (n : Int) (d : Dev) : Dev :=
  d.setFi LN_EB_FILL_BITS l 0 (clampInt 0 1040 ((d.fi LN_EB_FILL_BITS l 0 : Int) + n)).toNat

/-- A SKIP block is taken out of the elastic buffer. -/
def skipDelete (l : Nat) (d : Dev) : Dev := ebMove l (-260) (d.bumpI LN_SKIP_DEL l 0)

/-- The elastic buffer's action on a SKIP block (R442, R443): one that a postponement names is deleted
whatever holds it. -/
def skipBlock (l fill : Nat) (d : Dev) : Dev :=
  let x := d.lane l
  if x.postponed then skipDelete l (d.setLane l { x with postponed := false })
  else if 650 ≤ fill then
    if laneGroup l = 0 ∧ d.longRequest then
      (d.setLane l { x with postponed := true }).bumpI LN_SKIP_POSTPONED l 0
    else skipDelete l d
  else if fill ≤ 390 then ebMove l 260 (d.bumpI LN_SKIP_INS l 0) else d

/-- The elastic buffer ran empty or full: a block is repeated or discarded. -/
def ebError (l : Nat) (d : Dev) : Dev := ((d.bumpI LN_EB_ERR l 0).raiseI LN_IRQ_RAW_EB_ERR l).emit 0x091 (lnPage l)

/-- The sliding count of invalid headers, without FEC (R439): is lock lost? -/
def headerHist (l : Nat) (bad : Bool) (d : Dev) : Bool × Dev :=
  let x := d.lane l
  if x.fec then (false, d)
  else
    let h := (bad :: x.hist).take 64
    (decide (16 ≤ (h.filter id).length), d.setLane l { x with hist := h })

/-- What is delivered where a slip has discarded a block of a kind: a DATA block of 0xFF in the place of one of a row,
so that the stream does not shift; SKIP and CTRL blocks have no place there, and on a satellite lane IDLE blocks
neither (R440, R575). (DEDUCED, log entry 93.) -/
def slipKind (l : Nat) : BKind → BKind
  | .data | .bad => .bad
  | .align | .idle => if laneGroup l = 0 then .bad else .skip
  | .skip | .ctrl => .skip

/-- Symbols as a lane's receiver takes them: inverted where RX_INV says so, and with the far end's precoding undone
from START on (R431, R432). -/
def Dev.rxSymbols (d : Dev) (l : Nat) (ss : List Nat) : List Nat × Nat :=
  let x := d.lane l
  let ss := if d.fi LN_CFG_RX_INV l 0 = 1 then ss.map fun s => 3 - s else ss
  if x.awake ∧ d.fi LN_STAT_PRECODE_ACT l 0 = 1 then unprecode x.prev ss else (ss, x.prev)

/-- A received block: header code and payload, and the symbol register after it. With FEC on, the block is one of
those that the decoder has given out. -/
def Dev.rxBlock (d : Dev) (l : Nat) (b : BitVec 260) : Nat × BitVec 256 × Nat :=
  let (bits, prev) := if (d.lane l).fec then (blockBits b, (d.lane l).prev)
    else (let r := d.rxSymbols l (blockLevels b); (bitsOfSymbols r.1, r.2))
  (natOfBits (bits.take 4), BitVec.ofNat 256 (natOfBits (bits.drop 4)), prev)

/-- What the elastic buffer makes of a block: at 1,040 bits it is discarded, at 0 it is given out twice. -/
def ebOut (l fill : Nat) (k : BKind) (v : BitVec 256) (d : Dev) : Dev :=
  if fill = 1040 then ebMove l (-260) (ebError l d)
  else if fill = 0 then ebMove l 260 (blockOut l k v (blockOut l k v (ebError l d)))
  else blockOut l k v d

/-- A block is received by a lane that has lock. (DEDUCED, log entry 93.) -/
def lockedBlock (l : Nat) (k : BKind) (hdr : Option Nat) (v : BitVec 256) (b : BitVec 260) (drift : Int) (d : Dev) : Dev :=
  match takeBits l k hdr v d with
  | none => d
  | some (k, d) =>
    let (lost, d) := headerHist l (hdr.isNone) d
    if lost then lockLost l d
    else
      let slipped := (d.lane l).slipped
      let d := if hdr.isNone ∨ slipped then d.bumpI LN_HDR_ERR l 0 else d
      let r := descramble (d.lane l).desc v
      let quiet := k = .idle ∨ k = .skip
      let d := d.mapLane l fun x =>
        { x with desc := r.2, idleOnly := decide quiet, slipped := false,
                 last := if k = .bad then none else some (decide (k = .ctrl), b) }
      let d := ebMove l drift d
      let fill := d.fi LN_EB_FILL_BITS l 0
      let d := if k = .skip ∧ slipped = false then skipBlock l fill d else d
      if slipped then blockOut l (slipKind l k) r.1 d else ebOut l fill k r.1 d

/-- Does a lane receive at all? -/
def Dev.laneHears (d : Dev) (l : Nat) : Bool :=
  laneRx l && d.laneUsed l && !(d.lane l).left && d.fi LN_STAT_SIGNAL l 0 = 1 &&
    decide (lnSYNC ≤ (d.grp (laneGroup l)).state)

/-- A block arrives on a lane: at the boundary under test, or at the locked one. It is the one the command names; a
sleeping direction hears CTRL blocks alone, and counts valid headers until 32 have come in a row (R456). (DEDUCED, log
entry 93.) -/
def laneBlock (l : Nat) (k : BKind) (b : BitVec 260) (drift : Int) (d : Dev) : Dev :=
  let (h, v, prev) := d.rxBlock l b
  if d.laneHears l = false ∨ (kindOf h).getD .bad ≠ k then d
  else if d.locked l = false then syncBlock l (kindOf h).isSome d
  else if d.fi LN_STAT_RX_SLEEP l 0 = 1 ∧ k ≠ .ctrl then
    if k = .bad ∧ (d.lane l).good < 32 then d.mapLane l fun x => { x with good := 0 } else d
  else lockedBlock l k ((kindOf h).map headerOf) v b drift (d.mapLane l fun x => { x with prev })

/-- LANE_DATA_BLOCK: the 260 bits that a lane receives before RX_INV and precoding are undone, and the bits by which
its elastic buffer has filled since the block before. -/
def execLaneDataBlock (l : Fin 44) (b : BitVec 260) (drift : Int) (s : State) : Out :=
  onDev (laneBlock l .data b drift) s
/-- LANE_IDLE_BLOCK. -/
def execLaneIdleBlock (l : Fin 44) (b : BitVec 260) (drift : Int) (s : State) : Out :=
  onDev (laneBlock l .idle b drift) s
/-- LANE_SKIP_BLOCK. -/
def execLaneSkipBlock (l : Fin 44) (b : BitVec 260) (drift : Int) (s : State) : Out :=
  onDev (laneBlock l .skip b drift) s
/-- LANE_ALIGN_ROW: the row's block on one lane. -/
def execLaneAlignRow (l : Fin 44) (b : BitVec 260) (drift : Int) (s : State) : Out :=
  onDev (laneBlock l .align b drift) s
/-- LANE_CTRL_BLOCK. -/
def execLaneCtrlBlock (l : Fin 44) (b : BitVec 260) (drift : Int) (s : State) : Out :=
  onDev (laneBlock l .ctrl b drift) s
/-- LANE_INVALID_HEADER. -/
def execLaneInvalidHeader (l : Fin 44) (b : BitVec 260) (drift : Int) (s : State) : Out :=
  onDev (laneBlock l .bad b drift) s

/-! ## FEC (R437) -/

/-- Uncorrectable codewords of the last 1 ms take the host link down when there are more than 16.
(DEDUCED, log entry 92.) -/
def hostUncorr (d : Dev) : Dev :=
  let u := (d.hlp.unc.filter fun c => decide (d.cyc < c + 750000)) ++ [d.cyc]
  let d := { d with hlp := { d.hlp with unc := u } }
  if d.hlState = hlUP ∧ 16 < u.length then groupRetrain 0 0 (hlDown d) else d

/-- A codeword of a lane, its symbols in the order received, before RX_INV and precoding are undone. -/
def fecWord (l : Nat) (w : List (BitVec 10)) (d : Dev) : Dev :=
  if (d.lane l).fec = false ∨ w.length ≠ 272 then d
  else
    let (ss, prev) := d.rxSymbols l (symbolsOf (w.flatMap fun s => symBits s.toNat))
    let w := symsOf 272 (bitsOfSymbols ss)
    let d := d.mapLane l fun x => { x with prev }
    match rsDecode w with
    | some (c, n) =>
      (d.addI LN_FEC_CORR l 0 n).mapLane l fun x =>
        { x with uncRun := 0, bits := x.bits ++ (rsMessage c).map fun b => (b, false) }
    | none =>
      let d := (d.bumpI LN_FEC_UNCORR l 0).mapLane l fun x =>
        { x with uncRun := x.uncRun + 1, bits := x.bits ++ (rsMessage w).map fun b => (b, true) }
      if 4 ≤ (d.lane l).uncRun then lockLost l d
      else if laneGroup l = 0 then hostUncorr d
      else d

/-- FEC_CODEWORD. -/
def execFecCodeword (l : Fin 44) (w : List (BitVec 10)) (s : State) : Out := onDev (fecWord l w) s

/-! ## Equalisation (R446 to R448) -/

/-- DFE taps of a receive lane. -/
def laneTaps (l : Nat) : Nat := if l < 20 then 10 else 4

/-- A setting within what its register holds. (DEDUCED, log entry 95.) -/
def eqClamp (i : Nat) (v : Int) : Int :=
  if i = 0 then clampInt 0 15 v else if i = 1 then clampInt 0 255 v else clampInt (-128) 127 v

/-- LANE_EQ_DONE: the settings reached, and RX_READY of the lane. -/
def laneEqDone (l : Nat) (eq : List Int) (d : Dev) : Dev :=
  let g := laneGroup l
  if (d.grp g).state ≠ lnEQUALISE ∨ !(d.partRx g).contains l then d
  else
    let e := ((eq ++ List.replicate 13 0).take (3 + laneTaps l)).zipIdx.map fun (p : Int × Nat) => eqClamp p.2 p.1
    readyCheck g (eqRegs l (d.mapLane l fun x => { x with eqDone := true, eq := e, eq0 := e, eqAt := [] }))

def execLaneEqDone (l : Fin 44) (eq : List Int) (s : State) : Out := onDev (laneEqDone l eq) s

/-- Level transitions and the rarest level of a block. -/
def transitions : List Nat → Nat
  | a :: b :: t => b2n (a != b) + transitions (b :: t)
  | _ => 0
def rarest (ls : List Nat) : Nat :=
  (List.range 4).foldl (fun m k => min m (ls.filter (· = k)).length) 130

/-- May the last block of a lane steer its equaliser? -/
def Dev.blockRich (d : Dev) (l : Nat) : Bool :=
  match (d.lane l).last with
  | some (false, b) =>
    let ls := blockLevels b
    decide (d.fi LN_RX_CFG_TD_MIN l 0 ≤ transitions ls) && decide (16 ≤ rarest ls)
  | _ => false

/-- One setting of an update: its new value, and whether it has reached its drift bound, where it stays.
(DEDUCED, log entry 95.) -/
def adaptOne (l i : Nat) (delta : Int) (d : Dev) : Dev :=
  let x := d.lane l
  let now := (x.eq[i]?).getD 0
  let base := (x.eq0[i]?).getD 0
  let step : Int := d.fi LN_RX_CFG_STEP_MAX l 0
  let drift : Int := d.fi LN_RX_CFG_DRIFT_MAX l 0
  let at' := SMap.get zeroNat x.eqAt i
  if delta = 0 ∨ now = base - drift ∨ now = base + drift ∨ (at' ≠ 0 ∧ d.cyc + 1 < at' + 7500) then d
  else
    let v := clampInt (now - step) (now + step)
      (clampInt (base - drift) (base + drift) (eqClamp i (now + clampInt (-step) step delta)))
    let d := d.setLane l { x with eq := setAt x.eq i v, eqAt := SMap.set zeroNat x.eqAt i (d.cyc + 1) }
    if v = now ∨ (v ≠ base - drift ∧ v ≠ base + drift) then d
    else
      let d := (d.bumpI LN_ADAPT_CLAMP l 0).raiseI LN_IRQ_RAW_ADAPT_CLAMP l
      if (d.lane l).clamped then d
      else (d.mapLane l fun x => { x with clamped := true }).emit 0x092 (lnPage l)

/-- An adaptation update: a change asked for each setting. (DEDUCED, log entry 95.) -/
def laneAdapt (l : Nat) (ds : List Int) (d : Dev) : Dev :=
  if d.laneTrained l = false ∨ laneRx l = false ∨ d.fi LN_RX_CFG_ADAPT_EN l 0 = 0 ∨
      d.fi LN_STAT_RX_SLEEP l 0 = 1 ∨ d.blockRich l = false then d
  else eqRegs l ((ds.take (3 + laneTaps l)).zipIdx.foldl (fun d (p : Int × Nat) => adaptOne l p.2 p.1 d) d)

/-- LANE_ADAPT_UPDATE. -/
def execLaneAdaptUpdate (l : Fin 44) (ds : List Int) (s : State) : Out := onDev (laneAdapt l ds) s

/-- LANE_MARGIN_CHECK. -/
def execLaneMarginCheck (l : Fin 44) (s : State) : Out :=
  onDev (fun d =>
    if d.laneTrained l ∧ laneRx l ∧ (d.lane l).idleOnly ∧ d.fi LN_STAT_RX_SLEEP l 0 = 0 then
      d.mapLane l fun x => { x with margin := true }
    else d) s

/-- LANE_MARGIN_DONE: the eye found. (DEDUCED, log entry 95.) -/
def laneMarginDone (l w h : Nat) (d : Dev) : Dev :=
  if (d.lane l).margin = false then d
  else
    let d := d.mapLane l fun x => { x with margin := false }
    let d := ((d.setFi LN_EYE_H l 0 h).setFi LN_EYE_W l 0 w).bumpI LN_MARGIN_CHECKS l 0
    if w < d.fi LN_MARGIN_CFG_MIN_W l 0 ∨ h < d.fi LN_MARGIN_CFG_MIN_H l 0 then
      (d.raiseI LN_IRQ_RAW_MARGIN_LOW l).emit 0x093 (lnPage l)
    else d

def execLaneMarginDone (l : Fin 44) (w h : BitVec 16) (s : State) : Out :=
  onDev (laneMarginDone l w.toNat h.toNat) s

/-! ## Sleep of a transmit direction (R455, R456) -/

/-- LANE_SLEEP: the IDLE rows have lasted for SLEEP_US. -/
def groupSleep (g : Nat) (d : Dev) : Dev :=
  let lead := leadLane (txLanes g)
  if (d.grp g).state ≠ lnACTIVE ∨ d.fi LN_PWR_CFG_SLEEP_US lead 0 = 0 ∨ d.fi LN_STAT_TX_SLEEP lead 0 = 1 ∨
      (d.txGrp g).idle = false ∨ (d.txGrp g).bytes ≠ [] then d
  else (txSleepRow g d).eachLane (d.partTx g) fun l d => (d.setFi LN_STAT_TX_SLEEP l 0 1).bumpI LN_SLEEPS l 0

def execLaneSleep (g : Fin 9) (s : State) : Out := onDev (groupSleep g) s

/-- A direction that sleeps wakes. -/
def groupWake (g : Nat) (d : Dev) : Dev :=
  if (d.partTx g).any fun l => d.fi LN_STAT_TX_SLEEP l 0 = 1 then
    txWake g (d.laneField (d.partTx g) LN_STAT_TX_SLEEP 0)
  else d

/-- LANE_WAKE. -/
def execLaneWake (g : Fin 9) (s : State) : Out := onDev (groupWake g) s

/-! ## Commands to lanes (R440, R451) -/

/-- One slip of a lane's boundary. -/
def laneSlip (l : Nat) (d : Dev) : Dev :=
  let st := (d.grp (laneGroup l)).state
  if st = lnSYNC then (d.setFi LN_STAT_BLOCK_LOCK l 0 0).mapLane l LaneSt.slip
  else if st = lnACTIVE then d.mapLane l fun x => { x with slipped := true }
  else d

/-- LANE_SLIP: a write of 1 to SYNC_CTRL.SLIP of a receive lane. -/
def execLaneSlip (p : Port) (l : Fin 44) (s : State) : Out :=
  onDev (gatePage p (.ln l) fun d => if laneRx l then laneSlip l d else d) s

/-- A write of 1 to PWR_CFG.DEEP_REQ. -/
def laneDeep (l : Nat) (d : Dev) : Dev :=
  let g := laneGroup l
  if (d.grp g).state = lnOFF then d else withGroup g (groupDeep g lnCOMMAND true) d

/-- LANE_DEEP_REQ. -/
def execLaneDeepReq (p : Port) (l : Fin 44) (s : State) : Out := onDev (gatePage p (.ln l) (laneDeep l)) s

/-- LINK_RETRAIN (R95, R428). -/
def linkRetrain (d : Dev) : Dev :=
  let m := d.cmdNat 0 2
  if 512 ≤ m then d.mbxDone resBAD_PARAM
  else
    let d := (List.range 9).foldl (fun d g =>
      if m.testBit g then withGroup g (groupRetrain g lnCOMMAND) d else d) d
    d.mbxDone resOK

def execLinkRetrain (s : State) : Out := onDev (mbxServe 0x0090 (· = 1) linkRetrain) s

end Sys2Proof.Machine
end

