-- ==== Sys2Proof/Machine/Reset.lean ====
section
/-! DEFINITION. What each kind of reset resets and keeps (R548, R550, R488). -/
namespace Sys2Proof.Machine

/-- Addresses of the always-on register words (R488). -/
def aonWords : List Nat := [0x3130, 0x3138, 0x4190]

/-- The pages a warm reset keeps (R548). -/
def keptWarm (p : Page) : Bool :=
  match p with
  | .clk | .tbs | .pwr | .thm | .evr | .nvm | .sec => true
  | _ => false

/-- The register words a warm reset keeps beside those pages: SYS 0x200 to 0x2FF, SYS.GEN and
ARY.FRAME_SEQ (R548). -/
def keptWarmWord (a : Nat) : Bool :=
  (0x200 ≤ a && a < 0x300) || a = 0x118 || a = 0x101A8 || a = 0x101AC

def keepWord (a : Nat) : Bool :=
  match decodeAddr a with
  | .page p _ => keptWarm p || keptWarmWord a
  | _ => false

/-- What the Hamper's memory keeps in self-refresh: the ring and its descriptor. With its supplies gone
nothing is kept (R390, R394). (DEDUCED, log entry 86.) -/
def HmpSt.kept (h : HmpSt) (toOff : Bool) : HmpSt :=
  if toOff then {} else { ring := h.ring, wp := h.wp, nextNum := h.nextNum, desc := h.desc, trained := h.trained }

/-- Frames of a burst already written: the Hamper keeps them in self-refresh, the frame store through a warm reset
alone (R390, R550). (DEDUCED, log entry 106.) -/
def BurstSt.kept (b : BurstSt) (held : Bool) : BurstSt := if held then { stored := b.stored, dest := b.dest } else {}

/-- Every page takes its reset values, except always-on fields; MRAM, the always-on domain and the
events already presented stay. (DEDUCED, log entries 22 and 111.) -/
def resetDev (d : Dev) : Dev :=
  let e : Dev := {}
  { e with
    cyc := d.cyc, freeCtr := d.freeCtr, evq := d.evq, out := d.out, nvm := d.nvm, aon := d.aon, pio := d.pio, pioF := d.pioF, pioAt := d.pioAt
    hmp := d.hmp.kept (d.aon.seq = .lowering true)
    burst := d.burst.kept (d.burst.dest = 0 && d.aon.seq != .lowering true)
    regs := d.regs.filter fun p => aonWords.contains p.1 }

/-- A commit of a page that keeps its registers is discarded: nothing is pending, no commit stands.
(DEDUCED, log entry 106.) -/
def commitGone (regs : SMap Word) (p : Page) : SMap Word :=
  let a := p.base + 0x20
  let w := SMap.get resetWord regs a
  let st := bitsOf w 3 0
  let b := p.base + 0x0C
  if st = 1 ∨ st = 2 ∨ st = 3 then
    SMap.set resetWord (SMap.set resetWord regs a (setBits w 3 0 0)) b (setBits (SMap.get resetWord regs b) 3 3 0)
  else regs

/-- A warm software reset (R548, R550). (DEDUCED, log entry 106.) -/
def warmDev (d : Dev) : Dev :=
  let e := resetDev d
  { e with
    burst := d.burst.kept true
    time := d.time, clk := { d.clk with laneLock := [] }, pwr := d.pwr, thm := d.thm, tap := d.tap
    regs := (allPages.filter keptWarm).foldl commitGone (d.regs.filter fun p => keepWord p.1)
    act := d.act.filter fun p => keepWord p.1
    boot := { e.boot with warm := true, logFull := d.boot.logFull, onAt := d.boot.onAt,
                          keyBusy := d.boot.keyBusy, keyWords := d.boot.keyWords, saving := d.boot.saving } }

/-- What resetting the EVR page does to the recorder: a freeze and a nonce end; the always-on
buffer and the numbering stay. (DEDUCED, log entry 18.) -/
def resetRecorder (r : Recorder) : Recorder := { r with frozen := false, nonce := none }

/-- Every reset that passes RETAIN or OFF with VAON kept. -/
def resetBoth (dr : Dev × Recorder) : Dev × Recorder := (resetDev dr.1, resetRecorder dr.2)

/-- The registers of a page, and its active set, take their reset values. -/
def Dev.clearPage (d : Dev) (p : Page) : Dev :=
  { d with regs := SMap.eraseRange d.regs p.base (p.base + p.size),
           act := SMap.eraseRange d.act p.base (p.base + p.size) }

end Sys2Proof.Machine
end

