-- ==== Sys2Proof/Machine/Trigger.lean ====
section
/-! DEFINITION. Trigger lines and what a pulse does, and starting and stopping the schedule (R190, R200,
R204, R216 to R225, R383, R572, R573). -/
namespace Sys2Proof.Machine

/-! ## What a pulse does -/

/-- Every engine records a pulse: its line's bit and TRT; one that is pending already is missed (R190). -/
def engTrig (line trt : Nat) (d : Dev) : Dev :=
  (List.range 96).foldl (fun d e =>
    let g := d.engine e
    if g.trig.testBit line then d.bumpI ENG_TRIG_MISS e 0
    else d.setEngine e { g with trig := orBit g.trig line, trts := SMap.set zeroNat g.trts line trt }) d

/-- An interval between strip pulses: while a strip frame is under way, one below 1,500 cycles counts for it and for its
strips from here on (R572, R573). (DEDUCED, log entry 63.) -/
def stripInterval (trt : Nat) (d : Dev) : Dev :=
  let fast := match d.ary.stripLast with | some l => decide (trt < l + 1500) | none => false
  let n := d.ary.stripsBegun
  let d := d.onAry fun a => { a with stripLast := some trt, stripFast := a.stripFast || (fast && a.cur.isSome) }
  match d.ary.cur, fast with
  | some u, true => d.mapFrame u fun f => { f with fastFrom := some (f.fastFrom.getD n) }
  | _, _ => d

/-- A strip edge finds tiles whose previous strip is unread (R223). -/
def stripSkip (d : Dev) : Dev :=
  ((d.bump TRG_STRIP_SKIP).raise TRG_IRQ_RAW_STRIP_SKIP).emit 0x046 .trg

def trigLost (d : Dev) : Dev := (d.bump TRG_TRIG_LOST).raise TRG_IRQ_RAW_TRIG_LOST

/-- In the triggered schedule an edge that starts events requests a start tick (R218, R219). -/
def startRequest (line trt : Nat) (started : Bool) (d : Dev) : Dev :=
  if started = false ∨ d.ary.request.isSome then trigLost d
  else
    let b := max trt (trt + d.a TRG_TRIG_WIN + 60 - 9000)
    placeAll (d.ary.k + 1) trt ((d.onAry fun a => { a with request := some b }).setF TRG_TRIG_STAT_PEND (2 ^ line))

/-- The pulse at the shutter units and at the schedule. -/
def pulseShutter (line trt : Nat) (d : Dev) : Dev :=
  let (go, skip) := d.edgeTiles line
  let mode := decide (line = d.a TRG_MODE_CFG_LINE)
  let d := if mode && d.sched = schedSTRIP then stripInterval trt d else d
  let d := go.foldl (fun d t => startTile line trt t d) d
  let d := if skip.isEmpty then d else stripSkip d
  if mode = false then d
  else if d.sched = schedSTRIP then
    if go.any fun t => d.rowsToRead t != 0 then d.onAry fun a => { a with stripsBegun := a.stripsBegun + 1 } else d
  else if d.sched = schedTRIGGERED ∧ d.runState = runRUNNING then startRequest line trt (!go.isEmpty) d
  else d

/-- The LINE start source sees its first edge (R200). -/
def pulseStart (line trt : Nat) (d : Dev) : Dev :=
  if d.runState = runARMED ∧ d.f ARY_START_CFG_SRC = 2 ∧ d.f ARY_START_CFG_LINE = line ∧ d.ary.startTrt.isNone then
    d.onAry fun a => { a with startTrt := some trt }
  else d

/-- A pulse of a line at a cycle: ignored where TRG is disabled or the spacing is short (R216).
(DESIGN CHOICE, log entry 62.) -/
def linePulse (line now : Nat) (x : Dev × Recorder) : Dev × Recorder :=
  let d := x.1
  let noLast : Nat → Option Nat := fun _ => none
  let early := match SMap.get noLast d.trg.last line with | some l => decide (now < l + 750) | none => false
  if d.enabled .trg = false then x
  else if early then (d.bump TRG_TRIG_FAST, x.2)
  else
    let d := { d with trg := { d.trg with last := SMap.set noLast d.trg.last line (some now) } }
    let d := engTrig line now (d.bumpI TRG_EDGES 0 line)
    let d := pulseStart line now (pulseShutter line now d)
    histLine line (d.time.tick + (now - d.cyc / 3 * 3) / 3) (peEvent (.line (Fin.ofNat 8 line)) d, x.2)

/-- The lines that satisfy a test pulse, in rising order. -/
def pulseLines (f : Dev → Nat → Bool) (now : Nat) (x : Dev × Recorder) : Dev × Recorder :=
  ((List.range 8).filter (f x.1)).foldl (fun x k => linePulse k now x) x

/-- A write that a port makes to a page's register, for commands that reach the recorder. -/
def gatePageRec (p : Port) (pg : Page) (f : Dev × Recorder → Dev × Recorder) (x : Dev × Recorder) : Dev × Recorder :=
  if x.1.serves = false then x
  else if x.1.portOpen p = false then (x.1.bump SYS_PORT_DENY, x.2)
  else if x.1.inReset pg then x
  else f x

/-- SW_TRIG: each bit of 7 to 0 that is 1 pulses its line. -/
def execSwTrig (p : Port) (v : Word) (s : State) : Out :=
  onRec (gatePageRec p .trg fun x => pulseLines (fun _ k => v.toNat.testBit k) x.1.cyc x) s

/-! ## Pins and pin engines (R216, R217, R237, R252) -/

/-- Does a line take this edge of a pin? -/
def Dev.lineTakes (d : Dev) (pin : Nat) (lvl : Bool) (k : Nat) : Bool :=
  d.ak TRG_LINE_CFG_SRC k = 1 && d.ak TRG_LINE_CFG_PIN k = pin &&
    (match d.ak TRG_LINE_CFG_EDGE k with | 0 => lvl | 1 => !lvl | _ => true)

/-- A pin changes level, as the trigger lines see it. -/
def pioLines (pin : Nat) (lvl : Bool) (now : Nat) (x : Dev × Recorder) : Dev × Recorder :=
  let d := x.1
  if d.pio.testBit pin = lvl then x
  else
    let d := { d with pio := if lvl then d.pio + 2 ^ pin else d.pio - 2 ^ pin, pioAt := SMap.set zeroNat d.pioAt pin now }
    if d.clocked then pulseLines (fun d k => d.lineTakes pin lvl k) now (d, x.2) else (d, x.2)

/-- PIO_EDGE. -/
def execPioEdge (rd : PioRd) (pin : Fin 16) (lvl : Bool) (ph : Fin 3) (s : State) : Out :=
  match rd with
  | .lines => onRec (fun x => pioLines pin lvl (x.1.cyc + ph) x) s
  | .pe e => onDev (fun d => pePinEdge e pin lvl (d.cyc + ph) d) s

/-- Does a line take the rising or the falling edge of an engine's trigger output? -/
def Dev.lineTakesPe (d : Dev) (e : Nat) (rise : Bool) (k : Nat) : Bool :=
  d.ak TRG_LINE_CFG_SRC k = 2 && d.ak TRG_LINE_CFG_PE k = e &&
    (match d.ak TRG_LINE_CFG_EDGE k with | 0 => rise | 1 => !rise | _ => true)

/-- TRIG pulses the engine's trigger output; its rising edge is recorded one cycle after issue.
(DESIGN CHOICE, log entry 62.) -/
def peTrig (e now dly : Nat) (x : Dev × Recorder) : Dev × Recorder :=
  if x.1.peReady e .trig dly then
    let x := pulseLines (fun d k => d.lineTakesPe e true k) (now + 1) ((x.1.peDone e dly).bumpI PE_TRIG_OUT e 0, x.2)
    pulseLines (fun d k => d.lineTakesPe e false k) (now + 1 + Config.trigPulse) x
  else x

/-- PE_TRIG. -/
def execPeTrig (e : Fin 8) (ph : Fin 3) (dly : Fin 16) (s : State) : Out :=
  onRec (fun x => peTrig e (x.1.cyc + ph) dly x) s

/-! ## Starting and stopping (R200, R204) -/

/-- ARY_START: a write of 1 to RUN_CTRL.START. -/
def aryStart (p : Port) (v : Word) (d : Dev) : Dev :=
  if d.runState ≠ runSTOPPED ∨ d.enabled .ary = false then d.reject .ary p (ARY_RUN_CTRL_START.addr 0 0) v 7
  else
    todArms true
      ((d.onAry fun a => { a with startAt := d.cyc, startTrt := none, startTa := none }).setF ARY_RUN_STAT_STATE runARMED)

def execAryStart (p : Port) (s : State) : Out := onDev (gatePage p .ary (aryStart p 1#32)) s

/-- STATE becomes STOPPED; a disabled block is active no longer. -/
def aryStopped (d : Dev) : Dev :=
  let d := d.setF ARY_RUN_STAT_STATE runSTOPPED
  if d.enabled .ary then d else d.setHf .ary HD_PAGE_STAT_ACTIVE 0

/-- STOP: from ARMED at once, from RUNNING at the next start tick. (DEDUCED, log entry 63.) -/
def aryStop (d : Dev) : Dev :=
  if d.runState = runARMED then aryStopped d
  else if d.runState = runRUNNING then
    ((d.onAry fun a => { a with request := none }).setF TRG_TRIG_STAT_PEND 0).setF ARY_RUN_STAT_STATE runSTOPPING
  else d

/-- ARY_STOP. -/
def execAryStop (p : Port) (s : State) : Out := onDev (gatePage p .ary aryStop) s

end Sys2Proof.Machine
end

