-- ==== Sys2Proof/Machine/Pages.lean ====
section
/-! DEFINITION. Pages: enable, disable, soft reset and the EXPERT bit (R61 to R63, R73, R246, R275, R376,
R390, R422, R451). -/
namespace Sys2Proof.Machine

/-! ## Enabling (R62) -/

/-- Do HLP or the port of a lane group ask for training (R451)? -/
def Dev.wantsTraining (d : Dev) (g : Nat) : Bool :=
  (d.grp g).req || (if g = 0 then d.hlState = hlTRAINING else d.spState (g - 1) = spDOWN)

/-- A satellite port's page changed: the grant and the declared sums may have (R278). (DEDUCED, log entry 45.) -/
def portsChanged (p : Page) (d : Dev) : Dev := if p.blk = .sp then declared d else d

/-- What a block does as its EN rises. -/
def pageStarted (p : Page) (d : Dev) : Dev :=
  match p with
  | .ary => d.onAry fun a => { a with fresh := true, freshUsed := false }
  | .pe e => peStart e d
  | .pxc => { d with bls := d.bls.map fun p => (p.1, p.2.map fun b => { b with stale := true }) }
  | .enc => { d with encs := d.encs.map fun e => (e.1, { e.2 with sig := [] }) }
  | .hmp => hmpEnable d
  | .sp n => spEnable n d
  | .hlp => withGroup 0 hlEnable d
  | .ln l =>
    let g := laneGroup l
    if d.wantsTraining g then withGroup g (groupRequest g) d else d
  | _ => d

/-- EN of a page is set. HLP stays disabled while the recovery loader runs (R546). -/
def pageEnable (port : Port) (p : Page) (v : Word) (d : Dev) : Dev :=
  if d.enabled p ∨ p = .hlp ∧ d.boot.run = .loader then d
  else if p = .hmp ∧ d.hmpBadLayout then d.reject p port (p.base + 8) v 7
  else
    let d := (d.setHf p HD_PAGE_CTRL_EN 1).setHf p HD_PAGE_STAT_ACTIVE 1
    let d := d.onCom fun s => { s with stopping := s.stopping.filter fun q => q != p }
    portsChanged p (pageStarted p d)

/-- PAGE_ENABLE. -/
def execPageEnable (p : Port) (pg : Page) (s : State) : Out := onDev (gatePage p pg (pageEnable p pg 1#32)) s

/-! ## Disabling (R62, R204, R246) -/

/-- A block has stopped: ACTIVE falls. -/
def pageStopped (p : Page) (d : Dev) : Dev :=
  let d := blockStopped p d
  match p with
  | .sp n => spDisable n d
  | _ => d

/-- Blocks that process stop at a frame boundary of the own array; a port has boundaries of its own.
(DEDUCED, log entry 45.) -/
def stopPages (d : Dev) : Dev := (d.com.stopping.filter fun p => p.blk ≠ .sp).foldl (fun d p => pageStopped p d) d

/-- Does a satellite frame leave its buffer through the pipeline? -/
def Dev.satPassing (d : Dev) : Bool := d.sp.any fun e => e.2.vs.any fun v => v.2.leaving.isSome

/-- Is a frame of a satellite port open at its receiver? -/
def Dev.portOpenFrame (d : Dev) (n : Nat) : Bool := (d.port n).vs.any fun v => v.2.opened.isSome

/-- Has the block of a page work of its own on frames that the read has left behind? -/
def Dev.pageWork (d : Dev) (p : Page) : Bool :=
  match p with
  | .nrd | .pxc | .hdr => d.frames.any fun e =>
      e.2.pipe && !(d.pf e.1).raw.isEmpty && (List.range (d.outPasses e.1)).any fun op => !d.hdrDone e.1 op
  | .geo | .sta => d.frames.any fun e => d.stageWork e.1
  | .vew => d.views.any fun e => e.2.front.isSome || e.2.wait.isSome
  | .enc => d.encs.any fun e => !e.2.jobs.isEmpty
  | .dlv => d.dlv.streams.any fun e => !e.2.dead || e.2.chunk.isSome
  | _ => false

/-- Is the page's block processing a frame, so that it stops at the next frame boundary? (DEDUCED, log entry 45.) -/
def Dev.processing (d : Dev) (p : Page) : Bool :=
  match p with
  | .ary | .exp => d.readingNow
  | .sp n => d.portOpenFrame n
  | .ing | .nrd | .pxc | .hdr | .geo | .sta | .vew | .enc | .dlv | .fst => d.readingNow || d.satPassing || d.pageWork p
  | _ => false

/-- Blocks that were told to stop and process nothing any more stop. -/
def stopIdle (d : Dev) : Dev :=
  (d.com.stopping.filter fun p => !d.processing p).foldl (fun d p => pageStopped p d) d

/-- PAGE_STAT.BUSY: a reset under way, or work of the block's own (R61). (DEDUCED, log entry 45.) -/
def Dev.busy (d : Dev) (p : Page) : Bool :=
  d.hf p HD_PAGE_STAT_BUSY = 1 || d.processing p ||
    match p with
    | .ary => d.runState != runSTOPPED
    | .exp => d.f EXP_CTX_CTRL_COPY_BUSY = 1
    | .eng e => (d.engine e).state != engSTOPPED
    | .pe e => (d.pin e).state != peSTOPPED
    | .mbx => d.f MBX_STAT_STATE = 2
    | .sec => d.boot.keyBusy.isSome
    | .nvm => d.boot.saving
    | .win | .trg => d.active p && d.readingNow
    | .hmp => !d.hmp.offers.isEmpty || !d.hmp.replays.isEmpty || d.hmp.retrain != 0 || d.f HMP_STAT_STATE = 1
    | .hlp => d.hlState != hlOFF
    | .ln l => decide (lnDEEP < (d.grp (laneGroup l)).state)
    | _ => false

/-- EN falls: each block stops at its own frame boundary. (DEDUCED, log entry 45.) -/
def pageStops (p : Page) (d : Dev) : Dev :=
  match p with
  | .ary => if d.runState = runSTOPPED then pageStopped p d else aryStop d
  | .eng e => if (d.engine e).state = engSTOPPED then pageStopped p d else d
  | .pe e => if (d.pin e).state = peSTOPPED then pageStopped p d else d
  | .hlp => pageStopped p (hlDisable d)
  | .hmp => pageStopped p (hmpDisable d)
  | .ln _ => pageStopped p d
  | _ =>
    if d.processing p then d.onCom fun s => { s with stopping := s.stopping ++ [p] } else pageStopped p d

/-- EN of a page is cleared. -/
def pageDisable (p : Page) (d : Dev) : Dev :=
  if p.alwaysOn ∨ d.enabled p = false then d
  else
    let d := match p with
      | .ln l => if d.laneUsed l then withGroup (laneGroup l) (groupOff (laneGroup l)) d else d
      | _ => d
    portsChanged p (pageStops p (commitAborted p (d.setHf p HD_PAGE_CTRL_EN 0)))

/-- PAGE_DISABLE. -/
def execPageDisable (p : Port) (pg : Page) (s : State) : Out := onDev (gatePage p pg (pageDisable pg)) s

/-! ## Soft reset (R62) -/

def pageSoftRst (port : Port) (p : Page) (v : Word) (d : Dev) : Dev :=
  if d.enabled p then d.reject p port (p.base + 8) v 4
  else (d.setHf p HD_PAGE_STAT_BUSY 1).onCom fun s => { s with resetting := s.resetting ++ [p.code] }

/-- PAGE_SOFT_RST. -/
def execPageSoftRst (p : Port) (pg : Page) (s : State) : Out := onDev (gatePage p pg (pageSoftRst p pg 2#32)) s

/-- Windows whose words take their reset values with a page (R137, R407). (DEDUCED, log entry 111.) -/
def pageWindow : Page → Option (Nat × Nat)
  | .exp => some (0x100000, 0x130000)
  | .dlv => some (0x140000, 0x180000)
  | _ => none

/-- A number without one of its bits. -/
def clearBit (n b : Nat) : Nat := if n.testBit b then n - 2 ^ b else n

/-- A block's internal state as its page is reset. (DEDUCED, log entries 46 and 111.) -/
def blockReset (p : Page) (d : Dev) : Dev :=
  match p with
  | .ary =>
    let h : ArySt := {}
    d.onAry fun a => { h with k := a.k, lastTick := a.lastTick, tiles := a.tiles, waiting := a.waiting, skidT := a.skidT,
                              skidB := a.skidB, pressure := a.pressure, heldAt := a.heldAt, satDrr := a.satDrr,
                              ctxBank := a.ctxBank, ctxSeq := a.ctxSeq, aeIdle := a.aeIdle,
                              lastRead := a.lastRead, aeFrom := a.aeFrom, aeSet := a.aeSet, aePend := a.aePend }
  | .exp => d.onAry fun a => { a with ctxBank := 0, ctxSeq := 0, aeIdle := 0, aeFrom := none, aeSet := none, aePend := none }
  | .trg => { d with trg := {} }
  | .eng e => { d with eng := SMap.erase d.eng e }
  | .pe e => { d with pe := SMap.erase d.pe e }
  | .ing => d.onAry fun a => { a with skidT := [], skidB := [], pressure := false, heldAt := 0, satDrr := {} }
  | .sta => { d with recs := [], pipe := d.pipe.map fun p => (p.1, { p.2 with acts := clearBit p.2.acts stSTA }) }
  | .nrd => { d with refs := [] }
  | .pxc => { d with bls := [], defs := [], lsc := [] }
  | .vew => { d with views := [] }
  | .enc => { d with encs := [] }
  | .dlv =>
    let d := d.dlv.streams.foldl (fun d e => match e.2.chunk with | some c => offer c d | none => d) d
    let mine : PktReq → Bool
      | .frameStart _ => true | .data _ _ _ _ => true | .frameEnd _ => true | _ => false
    { d with dlv := {}, reqs := d.reqs.filter fun r => !mine r, hlp := { d.hlp with held := d.hlp.held - freed d.allPkts } }
  | .fst => { d with refs := [] }
  | .hmp => { d with hmp := d.hmp.kept false }
  | .ln l => { d with lanes := SMap.erase d.lanes l }
  | .sp n => { d with sp := SMap.erase d.sp n }
  | .hlp => { d with hlp := {} }
  | _ => d

/-- The page's part of the commit engine's state. -/
def forgetCommit (p : Page) (s : CommitSt) : CommitSt :=
  let no (l : List Page) : List Page := l.filter fun q => q != p
  { s with pages := SMap.erase s.pages p.code, accepted := no s.accepted, rekey := no s.rekey,
           behindGlobal := no s.behindGlobal, behindXlate := no s.behindXlate, stopping := no s.stopping,
           behindCopy := s.behindCopy && p != .exp, modeNew := s.modeNew && p != .ary,
           readNew := s.readNew && p != .ary,
           basic := s.basic.filter fun a => !(decide (p.base ≤ a) && decide (a < p.base + p.size)),
           resetting := s.resetting.filter fun c => c != p.code }

/-- The soft reset of a page ends. FRAME_SEQ stays (R205). (DEDUCED, log entry 46.) -/
def softRstDone (p : Page) (d : Dev) : Dev :=
  if d.inReset p = false then d
  else
    let seq := (d.f ARY_FRAME_SEQ_LO, d.f ARY_FRAME_SEQ_HI)
    let d := blockReset p (d.clearPage p)
    let d := match pageWindow p with
      | some (lo, hi) => { d with regs := SMap.eraseRange d.regs lo hi }
      | none => d
    let d := if p = .ary then (d.setF ARY_FRAME_SEQ_LO seq.1).setF ARY_FRAME_SEQ_HI seq.2 else d
    portsChanged p (d.onCom (forgetCommit p))

/-- SOFT_RST_DONE. -/
def execSoftRstDone (pg : Page) (s : State) : Out := onDev (softRstDone pg) s

/-! ## The EXPERT bit (R72, R73) -/

/-- A page's translation pends no longer: a commit key held behind it takes effect. (DEDUCED, log entry 41.) -/
def xlateEnds (p : Page) (d : Dev) : Dev :=
  let d := d.setHf p HD_PAGE_STAT_XLATE_PEND 0
  let d := d.onCom fun s => { s with
    modeNew := s.modeNew && p != .ary
    readNew := s.readNew && p != .ary
    basic := s.basic.filter fun a => !(decide (p.base ≤ a) && decide (a < p.base + p.size)) }
  releaseXlate p d

def expertSet (p : Page) (d : Dev) : Dev := xlateEnds p (d.setHf p HD_PAGE_CTRL_EXPERT 1)

/-- EXPERT_SET. -/
def execExpertSet (p : Port) (pg : Page) (s : State) : Out := onDev (gatePage p pg (expertSet pg)) s

def expertClear (p : Page) (d : Dev) : Dev :=
  if d.hf p HD_PAGE_CTRL_EXPERT = 0 then d
  else
    let d := d.setHf p HD_PAGE_CTRL_EXPERT 0
    let as := basicWords p
    let d := if p = .ary then d.onCom fun s => { s with modeNew := true } else d
    if d.boot.run = .running ∧ as ≠ [] then xlateBegin p as d else d

/-- EXPERT_CLEAR. -/
def execExpertClear (p : Port) (pg : Page) (s : State) : Out := onDev (gatePage p pg (expertClear pg)) s

end Sys2Proof.Machine
end

