-- ==== Sys2Proof/Machine/Nvm.lean ====
section
/-! DEFINITION. Firmware images, their update commands, boot control, the operator key, and the restart of
firmware (R532 to R537, R544, R548). -/
namespace Sys2Proof.Machine

/-! ## Images (R532) -/

def zeroByte : Nat → Byte := fun _ => 0#8
/-- (DEDUCED, log entry 102.) -/
def FwImg.byte (m : FwImg) (i : Nat) : Byte := SMap.get zeroByte m.data i

/-- A number of `n` bytes in an image. -/
def FwImg.num (m : FwImg) (at' n : Nat) : Nat := natOfBytes ((List.range n).map fun i => m.byte (at' + i))

/-- Major, minor, patch and SVN of an image. -/
def FwImg.major (m : FwImg) : Nat := if m.shipped then 2 else m.num 4 2
def FwImg.minor (m : FwImg) : Nat := if m.shipped then Config.shippedMinor % 65536 else m.num 6 2
def FwImg.patch (m : FwImg) : Nat := if m.shipped then Config.shippedPatch % 65536 else m.num 8 2
def FwImg.svn (m : FwImg) : Nat := if m.shipped then Config.shippedSvn % 65536 else m.num 14 2

/-- The version as FW_VER gives it (R536). -/
def FwImg.version (m : FwImg) : Nat := m.major % 256 * 2 ^ 24 + m.minor % 256 * 2 ^ 16 + m.patch % 65536

def FwImg.bytes (m : FwImg) : List Byte := (List.range m.len).map m.byte

/-- Does the signature of an image verify? The image of a unit as shipped does (R25, R532). -/
def FwImg.verifies (m : FwImg) : Bool := m.shipped || Config.ed25519Ok m.bytes m.sig

def NvmSt.img (n : NvmSt) (b : Bool) : FwImg := if b then n.imgB else n.imgA
def NvmSt.setImg (n : NvmSt) (b : Bool) (m : FwImg) : NvmSt := if b then { n with imgB := m } else { n with imgA := m }

/-- Would the boot ROM run this image (R543)? -/
def NvmSt.boots (n : NvmSt) (b : Bool) : Bool :=
  (n.img b).valid && decide (n.svnMin ≤ (n.img b).svn) && (n.img b).verifies

def Dev.onNvm (d : Dev) (f : NvmSt → NvmSt) : Dev := { d with nvm := f d.nvm }
def Dev.onBoot (d : Dev) (f : BootSt → BootSt) : Dev := { d with boot := f d.boot }

/-! ### The out-of-place region (R529 to R531) -/

/-- Boot control as it stands. -/
def NvmSt.bootCtl (n : NvmSt) : BootCtl :=
  { conf := n.conf, trialPending := n.trialPending, trialSlot := n.trialSlot, onTrial := n.onTrial,
    bootSlot := n.bootSlot, bootPresetEn := n.bootPresetEn, bootAutostart := n.bootAutostart }

def NvmSt.setBootCtl (n : NvmSt) (b : BootCtl) : NvmSt :=
  { n with conf := b.conf, trialPending := b.trialPending, trialSlot := b.trialSlot, onTrial := b.onTrial,
           bootSlot := b.bootSlot, bootPresetEn := b.bootPresetEn, bootAutostart := b.bootAutostart }

/-- Are two copies of the same thing: of boot control, or of one slot? -/
def NvmCopy.same (a b : NvmCopy) : Bool :=
  a.boot.isSome = b.boot.isSome && (a.boot.isSome || a.slot = b.slot)

/-- The newest copy of each thing. -/
def newestCopies : List NvmCopy → List NvmCopy
  | [] => []
  | c :: t => c :: (newestCopies t).filter fun x => !c.same x

/-- A copy is written to the lowest pages of the region that hold none: older copies but the newest of each thing give
their pages up before, the one it replaces after. (DESIGN CHOICE, log entry 122.) -/
def NvmSt.writeCopy (n : NvmSt) (size : Nat) (c : NvmCopy) : NvmSt :=
  let old := newestCopies n.copies
  let used := old.flatMap (·.pages)
  let free := ((List.range (used.length + size)).map (49152 + ·)).filter fun p => !used.contains p
  { n with copies := { c with gen := n.gen, pages := free.take size } :: old, gen := n.gen + 1 }

/-- A copy's thing takes what the copy holds. -/
def NvmSt.restore (n : NvmSt) (c : NvmCopy) : NvmSt :=
  match c.boot with
  | some b => n.setBootCtl b
  | none => { n with presets := SMap.set (fun _ => none) n.presets c.slot (some c.image) }

/-- What a unit came with stands again for a copy's thing. (DESIGN CHOICE, log entry 122.) -/
def NvmSt.asShipped (n : NvmSt) (c : NvmCopy) : NvmSt :=
  match c.boot with
  | some _ => n.setBootCtl {}
  | none => { n with savedSlots := n.savedSlots.filter (· ≠ c.slot) }

/-- A page of the region is torn: the copy that it was part of is gone, and the one of the next highest generation
stands (R530). -/
def NvmSt.tornCopy (n : NvmSt) (page : Nat) : NvmSt :=
  match n.copies.find? fun c => c.pages.contains page with
  | none => n
  | some c =>
    let n := { n with copies := n.copies.erase c }
    if (n.copies.any fun x => c.same x && decide (c.gen < x.gen)) then n
    else match n.copies.find? c.same with
      | some x => n.restore x
      | none => n.asShipped c

/-- Boot control is written out of place, in an unstated number of page programs (R530, R534).
(DESIGN CHOICE, log entry 29.) -/
def bootControl (d : Dev) : Dev :=
  (d.free.2.add NVM_PAGE_PROG d.free.1.toNat).onNvm fun n => n.writeCopy 1 { boot := some n.bootCtl }

/-- A preset's image: a header page and pages of 32 pairs (R531). (DESIGN CHOICE, log entry 122.) -/
def presetPages (im : List (Nat × Word)) : Nat := 1 + (im.length + 31) / 32

/-- A power-fail flush or a shutdown is in progress: MRAM takes no other program (R501). -/
def Dev.presetBusy (d : Dev) : Bool := d.aon.flushing || d.aon.shutPending

/-- A command that programs MRAM answers RESOURCE_BUSY meanwhile. (DEDUCED, log entry 101.) -/
def unlessBusy (f : Dev → Dev) (d : Dev) : Dev := if d.presetBusy then d.mbxDone resRESOURCE_BUSY else f d

/-! ## Updating (R532) -/

/-- May a slot not be written: it is the confirmed image, or the one that runs? (DESIGN CHOICE, log entry 29.) -/
def Dev.slotKept (d : Dev) (b : Bool) : Bool := b == d.nvm.conf || (d.boot.run = .running && b == d.boot.image)

def fwBegin (d : Dev) : Dev :=
  let slot := d.cmdNat 0 1
  let len := d.cmdNat 1 4
  let b : Bool := slot = 1
  if 1 < slot ∨ len < 64 ∨ 4194048 < len then d.mbxDone resBAD_PARAM
  else if d.slotKept b then d.mbxDone resBAD_STATE
  else
    let d := d.onNvm fun n => n.setImg b { n.img b with len, valid := false, shipped := false, sig := [] }
    ((d.onBoot fun s => { s with xfer := some (b, len) }).bump NVM_PAGE_PROG).mbxDone resOK

/-- FW_BEGIN. -/
def execFwBegin (s : State) : Out := onDev (mbxServe 0x0040 (· = 2) (unlessBusy fwBegin)) s

/-- Pages that a run of bytes touches. -/
def pagesTouched (at' n : Nat) : Nat := if n = 0 then 0 else (at' + n - 1) / 256 - at' / 256 + 1

def FwImg.write (m : FwImg) (at' : Nat) (bs : List Byte) : FwImg :=
  { m with data := bs.zipIdx.foldl (fun t p => SMap.set zeroByte t (at' + p.2) p.1) m.data }

def fwData (d : Dev) : Dev :=
  let at' := d.cmdNat 0 4
  let n := 4 * (d.f MBX_CMD_LEN_W - 1)
  match d.boot.xfer with
  | none => d.mbxDone resBAD_STATE
  | some (b, len) =>
    if at' % 4 ≠ 0 ∨ len < at' + n then d.mbxDone resBAD_PARAM
    else
      let bs := d.cmdBytes 4 n
      let d := d.onNvm fun t => t.setImg b ((t.img b).write at' bs)
      (d.add NVM_PAGE_PROG (pagesTouched at' n)).mbxDone resOK

/-- FW_DATA. -/
def execFwData (s : State) : Out := onDev (mbxServe 0x0041 (fun n => 1 ≤ n && n ≤ 64) (unlessBusy fwData)) s

/-- (DEDUCED, log entry 102.) -/
def fwEnd (d : Dev) : Dev :=
  match d.boot.xfer with
  | none => d.mbxDone resBAD_STATE
  | some (b, _) =>
    let m := { d.nvm.img b with sig := d.cmdBytes 0 64 }
    let d := d.onBoot fun s => { s with xfer := none }
    if m.verifies ∧ d.nvm.svnMin ≤ m.svn then
      let d := (d.onNvm fun n => n.setImg b { m with valid := true }).bump NVM_PAGE_PROG
      (d.emitFw 0x012).mbxDone resOK
    else (d.bump SEC_SIG_FAIL).mbxDone resAUTH_FAIL

/-- FW_END. -/
def execFwEnd (s : State) : Out := onDev (mbxServe 0x0042 (· = 16) (unlessBusy fwEnd)) s

/-! ## Firmware restart (R93, R545, R548) -/

/-- Firmware ends what it was doing with a pin engine. -/
def focusFree (d : Dev) : Dev :=
  match d.mbx.focus with
  | some x => d.mapPin x.pe fun g => { g with fwOwn := false }
  | none => d

/-- Firmware restarts: 1 watchdog, 2 lockstep, 3 FW_ACTIVATE, 4 recovery exit. Hardware runs on.
(DEDUCED, log entry 103.) -/
def fwRestart (cause : Nat) (d : Dev) : Dev :=
  let d := focusFree d.mbxAbort
  let d := { d with mbx := {} }
  let d := (d.setF SYS_RST_CAUSE_FW cause).bump SYS_FW_RESTARTS_COUNT
  d.onBoot fun s => { s with run := .rom, scanned := false, verified := false, restart := some cause }

/-- WATCHDOG_TIMEOUT (R548). -/
def execWatchdogTimeout (s : State) : Out :=
  onDev (fun d => if d.boot.run = .running ∨ d.boot.run = .loader then fwRestart 1 d else d) s

/-- (DEDUCED, log entries 102 and 103.) -/
def fwActivate (d : Dev) : Dev :=
  let slot := d.cmdNat 0 1
  let b : Bool := slot = 1
  if 1 < slot ∨ (d.nvm.img b).valid = false then d.mbxDone resBAD_PARAM
  else
    let cause := if d.boot.run = .loader then 4 else 3
    let d := bootControl (d.onNvm fun n => { n with trialPending := true, trialSlot := b })
    fwRestart cause (d.onBoot fun s => { s with activate := some b })

/-- FW_ACTIVATE (R534, R547). -/
def execFwActivate (s : State) : Out := onDev (mbxServe 0x0043 (· = 1) (unlessBusy fwActivate)) s

/-- A write of 1 to FW_CTRL.CONFIRM: with no image on trial it has nothing to confirm. -/
def fwConfirm (d : Dev) : Dev :=
  if d.boot.run = .running ∧ d.boot.trial then
    let svn := max d.nvm.svnMin (d.nvm.img d.boot.image).svn
    let d := bootControl (d.onNvm fun n => { n with conf := d.boot.image, svnMin := svn, onTrial := false })
    (d.onBoot fun s => { s with trial := false }).emitFw 0x015
  else d

/-- FW_CONFIRM (R534). -/
def execFwConfirm (p : Port) (s : State) : Out := onDev (gateWrite p fwConfirm) s

/-! ## The operator key (R528, R537) -/

def zeroKey : Nat → Word := fun _ => 0#32
def Dev.keyWord (d : Dev) (k : Nat) : Word := SMap.get zeroKey d.boot.keyWords k
def Dev.keyBytes (d : Dev) : List Byte := (List.range 8).flatMap fun k => u32 (d.keyWord k).toNat

/-- A write of KEYk. -/
def keyWrite (k : Nat) (v : Word) (d : Dev) : Dev :=
  d.onBoot fun s => { s with keyWords := SMap.set zeroKey s.keyWords k v }

/-- A write of 1 to KEY_CTRL.PROG. (DEDUCED, log entry 105.) -/
def keyProg (v : Vault) (p : Port) (w : Word) (d : Dev) : Dev :=
  if v.key = none ∧ d.boot.keyBusy = none ∧ d.boot.keyWords ≠ [] then
    d.onBoot fun s => { s with keyBusy := some d.keyBytes }
  else d.reject .sec p (SEC_KEY_CTRL_PROG.addr 0 0) w 7

/-- KEY_PROG. -/
def execKeyProg (p : Port) (s : State) : Out := onDevR (fun _ v => gateWrite p (keyProg v p 1#32)) s

/-- The key is programmed: the words are cleared. (DEDUCED, log entry 105.) -/
def keyDone (d : Dev) : Dev :=
  ((d.onBoot fun s => { s with keyBusy := none, keyWords := [] }).raise SEC_IRQ_RAW_KEY_DONE).emit 0x00A .sec

/-- KEY_PROG_DONE. One-time storage never changes once it holds a key. -/
def execKeyProgDone (s : State) : Out :=
  match s.dev.boot.keyBusy with
  | some k => .next { s with dev := keyDone s.dev, vault := { key := some (s.vault.key.getD k) } }
  | none => .next s

/-! ## BOOT_CFG (R544, R553) -/

/-- A write of BOOT_CFG. While RUN is 0 it has no effect. -/
def bootCfgWrite (v : Word) (d : Dev) : Dev :=
  if d.boot.run = .running then
    let d := ((d.setF SYS_BOOT_CFG_AUTOSTART (bitsOf v 8 8)).setF SYS_BOOT_CFG_PRESET_EN (bitsOf v 7 7)).setF
      SYS_BOOT_CFG_SLOT (bitsOf v 4 0)
    if bitsOf v 16 16 = 1 then d.onBoot fun s => { s with saving := true } else d
  else d

/-- BOOT_CFG_SAVE: a write with SAVE set. -/
def execBootCfgSave (p : Port) (v : Word) (s : State) : Out :=
  onDev (gateWrite p (bootCfgWrite (setBits v 16 16 1))) s

/-- Firmware has stored the settings. (DEDUCED, log entry 105.) -/
def bootCfgSaved (d : Dev) : Dev :=
  if d.boot.saving ∧ d.boot.run = .running ∧ d.presetBusy = false then
    let d := d.onNvm fun n => { n with bootSlot := d.f SYS_BOOT_CFG_SLOT, bootPresetEn := d.on SYS_BOOT_CFG_PRESET_EN,
                                       bootAutostart := d.on SYS_BOOT_CFG_AUTOSTART }
    (bootControl d).onBoot fun s => { s with saving := false }
  else d

/-- BOOT_CFG_SAVE_DONE. -/
def execBootCfgSaveDone (s : State) : Out := onDev bootCfgSaved s

end Sys2Proof.Machine
end

