-- ==== Sys2Proof/Machine/Rails.lean ====
section
/-! DEFINITION. Rail sequencing, resets that pass RETAIN or OFF, cutoff and power failure
(R484 to R488, R500 to R506, R548, R549, R556). -/
namespace Sys2Proof.Machine

def Dev.setAon (d : Dev) (a : AonSt) : Dev := { d with aon := a }

/-- Bits of a rail mask. -/
def railBit (m i : Nat) : Bool := m.testBit i
def setRail (m i : Nat) : Nat := m ||| 2 ^ i
def clearRail (m i : Nat) : Nat := if m.testBit i then m - 2 ^ i else m

/-- The lowest rail whose enable is low. -/
def nextUp (en : Nat) : Option Nat := (List.range 6).find? fun i => !railBit en i

/-- The highest rail that a lowering still has to drop. -/
def nextDown (en : Nat) (toOff : Bool) : Option Nat :=
  (List.range 6).reverse.find? fun i => railBit en i && (toOff || decide (3 ≤ i))

/-- Begin raising rails toward ON, as the reset kind named. (DEDUCED, log entry 24.) -/
def AonSt.rise (a : AonSt) (kind : Nat) : AonSt :=
  { a with seq := .raising, level := 3, waitFor := .none, cause := kind }

/-- Begin lowering rails, and what to wait for afterwards. (DEDUCED, log entry 22.) -/
def AonSt.lower (a : AonSt) (toOff : Bool) (w : RiseOn) : AonSt :=
  { a with seq := .lowering toOff, level := 3, waitFor := w, coolFor := 0 }

/-- May a rise begin: VAON present, RESET_N high, no flush of a power failure? (DEDUCED, log entry 23.) -/
def AonSt.mayRise (a : AonSt) : Bool := a.vaon && a.resetN && !a.flushing && !a.shutPending

/-! ## Power-on (R548, R521) -/

/-- VAON_POWER_ON: a power-on reset, with RESET_N at the level given. MRAM and the one-time storage
stay; the buffer was lost; numbering resumes from the log (R521). (DEDUCED, log entry 20.) -/
def powerOn (resetN : Bool) (dr : Dev × Recorder) : Dev × Recorder :=
  let (d, r) := dr
  if d.aon.vaon then dr
  else
    let e : Dev := {}
    let a : AonSt := { resetN, seq := .steady, level := 0, en := 0, pg := 0, waitFor := .resetN,
                       cause := 1, vaonLost := true, logTop := r.highestLogSeq }
    ({ e with cyc := d.cyc, freeCtr := d.freeCtr, nvm := d.nvm, aon := a },
      { nextSeq := match r.highestLogSeq with | some q => q + 65536 | none => 0, log := r.log })

def execVaonPowerOn (resetN : Bool) (s : State) : Out := onRec (powerOn resetN) s

/-- VAON_LOSS (R556): the enables are no longer driven; what VAON held is lost. -/
def vaonLoss (dr : Dev × Recorder) : Dev × Recorder :=
  let (d, r) := dr
  if d.aon.vaon = false then dr
  else
    let e : Dev := {}
    let a : AonSt := { vaon := false, resetN := false, seq := .steady, level := 0, en := 0, pg := 0 }
    ({ e with cyc := d.cyc, freeCtr := d.freeCtr, nvm := d.nvm, aon := a },
      { nextSeq := r.nextSeq, log := r.log })

def execVaonLoss (s : State) : Out := onRec vaonLoss s

/-! ## RESET_N (R549, R486) -/

/-- RESET_N accepted low. At ON, or while rails are being raised, the level goes to RETAIN. -/
def resetAssert (dr : Dev × Recorder) : Dev × Recorder :=
  let (d, r) := dr
  let a := { d.aon with resetN := false }
  if a.vaon = false then dr
  else if a.shutPending ∨ a.flushing then (d.setAon a, r)
  else if a.level = 2 ∨ a.seq = .raising then
    resetBoth (d.setAon (({ a with cause := 2 } : AonSt).lower false .resetN), r)
  else
    let w := match a.waitFor with
      | .resetFallRise => RiseOn.resetN
      | .stuck => RiseOn.resetN
      | .released => RiseOn.resetN
      | x => x
    (d.setAon { a with waitFor := w }, r)

/-- RESET_N_ASSERT (R549). -/
def execResetNAssert (s : State) : Out := onRec resetAssert s

/-- RESET_N rises: straps are sampled (R538), and a rise to ON that waits for it is due. One before the
arrival at RETAIN after a shutdown does not count (R503). -/
def resetRelease (boot i2c : Nat) (d : Dev) : Dev :=
  let a := { d.aon with resetN := true, strapBoot := boot, strapI2c := i2c }
  if d.aon.vaon = false then d
  else if a.waitFor = .resetN then
    match a.seq with
    | .steady => if a.mayRise then d.setAon (a.rise a.cause) else d.setAon a
    | .lowering false => d.setAon { a with waitFor := if a.cause = 5 then .resetFallRise else .released }
    | _ => d.setAon { a with waitFor := .released }
  else d.setAon a

/-- RESET_N_RELEASE (R486). -/
def execResetNRelease (boot i2c : Fin 4) (s : State) : Out := onDev (resetRelease boot i2c) s

/-! ## Raising (R486) -/

/-- The transactions before RAIL_EN[3] (R490): VOUT_MODE is read; OPERATION, VOUT_TRANSITION_RATE, VOUT_MAX
and VOUT_COMMAND are written. (DEDUCED, log entry 96.) -/
def startupTx (d : Dev) : List PmbTx :=
  [{ code := 0x20 }, { code := 0x01, value := 0x80 }, { code := 0x27, value := 1000 },
   { code := 0x24, value := d.f PWR_GOV_V_V_MAX }, { code := 0x21, value := 750 }]

/-- While rails are raised, the PMBus master starts once VIO is good. (DEDUCED, log entry 96.) -/
def pmbStart (d : Dev) : Dev :=
  if d.aon.seq = .raising ∧ railBit d.aon.pg 0 ∧ d.pwr.pmbBegun = false then
    { d with pwr := { d.pwr with pmbQ := startupTx d, pmbBegun := true } }
  else d

/-- RAIL_EN_STEP: the next enable rises, once the rail before it is good; VCORE's, once the writes of R490
have ended. -/
def enStep (d : Dev) : Dev :=
  let a := d.aon
  if a.seq = .raising then
    match nextUp a.en with
    | none => d
    | some i =>
      if (i = 0 ∨ railBit a.pg (i - 1)) ∧ (i ≠ 3 ∨ (d.pwr.pmbBegun ∧ d.pwr.pmbQ = [])) then d.setAon { a with en := setRail a.en i }
      else d
  else d

def execRailEnStep (s : State) : Out := onDev (fun d => pmbStart (enStep d)) s

/-- Level ON is reached: faults no longer count as consecutive (R487; DEDUCED, log entry 21). -/
def reachOn (d : Dev) : Dev :=
  let d := { d with boot := { d.boot with onAt := d.cyc } }
  d.setAon { d.aon with seq := .steady, level := 2, waitFor := .none, faults := 0 }

/-- RAIL_PG_RISE: power-good of a rail whose enable is high. VIO's starts the PMBus master. -/
def pgRise (i : Nat) (d : Dev) : Dev :=
  let a := d.aon
  if a.vaon ∧ railBit a.en i then
    let a := { a with pg := setRail a.pg i }
    let d := pmbStart (d.setAon a)
    if a.seq = .raising ∧ a.en = 0x3F ∧ a.pg = 0x3F then reachOn d else d
  else d

def execRailPgRise (i : Fin 6) (s : State) : Out := onDev (pgRise i) s

/-! ## Lowering (R486) -/

/-- A lowering has ended: the level is reached, and a rise that waits for nothing else begins. -/
def lowered (toOff : Bool) (d : Dev) : Dev :=
  let a := { d.aon with seq := .steady, level := if toOff then 0 else 1 }
  if a.waitFor = .released ∧ a.mayRise then d.setAon (a.rise a.cause)
  else d.setAon (if a.waitFor = .released then { a with waitFor := .resetN } else a)

/-- RAIL_EN_LOWER_STEP: the next enable of a lowering falls. -/
def lowerStep (d : Dev) : Dev :=
  match d.aon.seq with
  | .lowering toOff =>
    let a := d.aon
    match nextDown a.en toOff with
    | none => lowered toOff d
    | some i =>
      let a := { a with en := clearRail a.en i, pg := clearRail a.pg i }
      let d := d.setAon a
      if (nextDown a.en toOff).isNone then lowered toOff d else d
  | _ => d

def execRailEnLowerStep (s : State) : Out := onDev lowerStep s

/-! ## Rail faults (R487) -/

/-- What the device waits for after shutdown or cutoff (R503). -/
def Dev.afterShutdown (d : Dev) : RiseOn :=
  if d.on PWR_SEQ_CFG_AUTO_RESTART then .auto
  else if d.aon.resetN then .resetFallRise
  else .resetN

/-- The wait under which a rail fault falls: that of a lowering, or of a shutdown that is pending. -/
def Dev.faultWait (d : Dev) : RiseOn :=
  if d.aon.shutPending then d.afterShutdown
  else match d.aon.seq with
    | .lowering _ => d.aon.waitFor
    | _ => .none

/-- What the next rise waits for where a rail fault meets a lowering: the wait of a shutdown, of RESET_N or of a power
failure stands. (DEDUCED, log entry 21.) -/
def waitAfter (was now : RiseOn) : RiseOn :=
  if was = .pfail ∨ now ≠ .stuck ∧ (was = .auto ∨ was = .resetN ∨ was = .resetFallRise) then was else now

/-- A rail fault: every rail goes to OFF; PWR.FAULT, the interrupt and the event record it. The
pages are reset with VCORE's removal, and the interrupt and the count stand after it. A shutdown that is pending ends
with it. (DEDUCED, log entries 21 and 24.) -/
def railFault (rail cause : Nat) (dr : Dev × Recorder) : Dev × Recorder :=
  let (d, r) := dr
  let n := d.aon.faults + 1
  let now := if 3 ≤ n then RiseOn.stuck else .railRetry
  let w := waitAfter d.faultWait now
  let kind := if w = now then 7 else if d.aon.shutPending then 5 else d.aon.cause
  let a := { d.aon with faults := n, cause := kind, shutPending := false }
  let a := a.lower true w
  let (d, r) := resetBoth (d.setAon a, r)
  let d := ((d.setF PWR_FAULT_VALID 1).setF PWR_FAULT_RAIL rail).setF PWR_FAULT_CAUSE cause
  (((d.raise PWR_IRQ_RAW_RAIL_FAULT).bump PWR_RAIL_FAULTS).emit 0x032 .pwr, r)

/-- RAIL_PG_TIMEOUT: an enabled rail has not become good, while raising or where the rise was broken off. In the
lowering of a rail fault the time of its rail is past. (DEDUCED, log entry 21.) -/
def pgTimeout (dr : Dev × Recorder) : Dev × Recorder :=
  let a := dr.1.aon
  if a.vaon ∧ ¬ (a.seq = .lowering true ∧ (a.waitFor = .railRetry ∨ a.waitFor = .stuck)) then
    match (List.range 6).find? fun i => railBit a.en i && !railBit a.pg i with
    | some i => railFault i 1 dr
    | none => dr
  else dr

def execRailPgTimeout (s : State) : Out := onRec pgTimeout s

/-- RAIL_PG_LOST: a power-good falls while its enable is high. (DEDUCED, log entry 21.) -/
def pgLost (i : Nat) (dr : Dev × Recorder) : Dev × Recorder :=
  let (d, r) := dr
  let a := d.aon
  if a.vaon ∧ railBit a.en i ∧ railBit a.pg i then
    railFault i 2 (d.setAon { a with pg := clearRail a.pg i }, r)
  else dr

def execRailPgLost (i : Fin 6) (s : State) : Out := onRec (pgLost i) s

/-- A rise that the sequencer itself begins, at a steady level. (DEDUCED, log entries 23 and 24.) -/
def selfRise (w : RiseOn) (kind : Nat) (d : Dev) : Dev :=
  let a := d.aon
  if a.waitFor = w ∧ a.seq = .steady ∧ a.vaon then
    if a.mayRise then d.setAon (a.rise kind)
    else if a.resetN = false then d.setAon { a with waitFor := .resetN } else d
  else d

/-- RAIL_FAULT_RETRY: 100 ms after the lowering. -/
def execRailFaultRetry (s : State) : Out := onDev (selfRise .railRetry 7) s

/-! ## Software resets (R548, R549) -/

/-- Is a write to RST_CTRL ignored: shutdown pending, power failure or another reset (R549)? -/
def Dev.resetBusy (d : Dev) : Bool := d.aon.level != 2 || d.aon.shutPending || d.aon.flushing

/-- (DEDUCED, log entry 22.) -/
def fullReset (dr : Dev × Recorder) : Dev × Recorder :=
  if dr.1.resetBusy then dr
  else resetBoth (dr.1.setAon (({ dr.1.aon with cause := 3 } : AonSt).lower false .fullReset), dr.2)

/-- A warm reset closes an open transfer with its slot invalid; EVR and its recorder stay. -/
def warmReset (d : Dev) : Dev :=
  if d.resetBusy then d else warmDev (d.setAon { d.aon with cause := 4 })

/-- Pass a write of a port, for a command that acts on the recorder as well. -/
def gateWriteRec (p : Port) (f : Dev × Recorder → Dev × Recorder) (dr : Dev × Recorder) :
    Dev × Recorder :=
  if !dr.1.serves then dr
  else if dr.1.portOpen p then f dr
  else (dr.1.bump SYS_PORT_DENY, dr.2)

/-- WARM_RESET (R550). -/
def execWarmReset (p : Port) (s : State) : Out := onDev (gateWrite p warmReset) s

/-- FULL_RESET (R548). -/
def execFullReset (p : Port) (s : State) : Out := onRec (gateWriteRec p fullReset) s

/-- SOFTWARE_RESET_RISE (R548). -/
def execSoftwareResetRise (s : State) : Out := onDev (selfRise .fullReset 3) s

/-! ## Shutdown pending and cutoff (R501 to R504) -/

/-- Record a cause in the THM latch (R501, R502). -/
def Dev.setLatch (d : Dev) (cause temp : Nat) : Dev :=
  ((d.setF THM_LATCH_CAUSE cause).setF THM_LATCH_TEMP temp).setF THM_LATCH_RECORD_DONE 0

/-- What a SHUTDOWN record carries: the latch (R503). (DESIGN CHOICE, log entry 25.) -/
def Dev.latchBytes (d : Dev) : List Byte := u8 (d.f THM_LATCH_CAUSE) ++ s16 (16 * (d.f THM_LATCH_TEMP : Int))

/-- The SHUTDOWN record as a page of its own (R520); where the log has no page for it, it waits in the buffer as an
image of its own (R522). (DEDUCED, log entries 28 and 101.) -/
def shutdownRecord (dr : Dev × Recorder) : Dev × Recorder :=
  let (d, r) := dr
  let x : Rec := { code := 0x031, sev := 6, src := Page.code .thm, payload := d.latchBytes,
                   seq := r.nextSeq, stamp := d.stamp }
  let r := { r with nextSeq := r.nextSeq + 1 }
  let d := d.bump EVR_ACCEPTED
  match programImage { sev := 6, recs := [x], sealed := true } (d, r) with
  | some (d, r) => ((d.setF THM_LATCH_RECORD_DONE 1).setAon { d.aon with shutDue := false }, r)
  | none =>
    let (d, r) := placeRec x (d, sealImage 6 r)
    (d.setAon { d.aon with shutDue := false }, sealImage 6 r)

/-- SHUTDOWN_RECORD_DONE (R501): the record is programmed and the rails go to RETAIN.
(DEDUCED, log entries 24 and 101.) -/
def shutdownDone (dr : Dev × Recorder) : Dev × Recorder :=
  let (d, _) := dr
  if d.aon.shutPending then
    let (d, r) := if d.aon.shutDue then shutdownRecord dr else dr
    let w := d.afterShutdown
    let a := ({ d.aon with shutPending := false, cause := 5 } : AonSt).lower false w
    resetBoth (d.setAon a, r)
  else dr

def execShutdownRecordDone (s : State) : Out := onRec shutdownDone s

/-- CUTOFF_TRIP (R502): the upper rails fall at once; the latch records the cause. The SHUTDOWN record that a
power failure then writes first is due (R504). On the way to OFF the lowering goes on; with the upper rails low
already, a latch that holds no cause records this one. (DEDUCED, log entries 24 and 101.) -/
def cutoff (pix : Bool) (temp : Nat) (dr : Dev × Recorder) : Dev × Recorder :=
  let (d, r) := dr
  let a := d.aon
  let latch (d : Dev) : Dev := d.setLatch (if pix then 3 else 4) temp
  if a.vaon = false then dr
  else if a.en < 8 ∧ a.level ≠ 2 ∧ a.seq ≠ .raising then
    (if d.f THM_LATCH_CAUSE = 0 then (latch d).setAon { a with shutDue := true } else d, r)
  else if a.seq = .lowering true then
    ((latch d).setAon { a with shutDue := true, en := a.en % 8, pg := a.pg % 8 }, r)
  else
    let d := latch d
    let w := d.afterShutdown
    let a := { a with shutPending := false, shutDue := true, en := a.en % 8, pg := a.pg % 8, level := 1,
                      seq := .steady, waitFor := w, cause := 5, coolFor := 0 }
    resetBoth (d.setAon a, r)

def execCutoffTrip (pix : Bool) (temp : Byte) (s : State) : Out := onRec (cutoff pix temp.toNat) s

/-- AUTO_RESTART_CHECK (R503): the two cutoff sensors, in 1/16 °C, every 10 ms; a rise follows when
both have stayed below WARN − HYST for 1 s. -/
def autoCheck (pix log : Int) (d : Dev) : Dev :=
  let a := d.aon
  if a.waitFor = .auto ∧ a.seq = .steady then
    let cool := pix < 16 * ((a.warnPix : Int) - a.hyst) ∧ log < 16 * ((a.warnLog : Int) - a.hyst)
    let n := if cool then a.coolFor + 1 else 0
    if 100 ≤ n ∧ a.mayRise then d.setAon (({ a with coolFor := 0 } : AonSt).rise 5)
    else d.setAon { a with coolFor := n }
  else d

def execAutoRestartCheck (pix log : BitVec 16) (s : State) : Out :=
  onDev (autoCheck pix.toInt log.toInt) s

/-! ## Power failure (R505, R506) -/

/-- Accept every event already presented. -/
def drainEvents : Nat → Dev × Recorder → Dev × Recorder
  | 0, dr => dr
  | n + 1, dr => drainEvents n (acceptNext dr)

/-- PFAIL_ACCEPT: a freeze ends, POWER_FAIL is the last record accepted, the rails go to OFF. -/
def pfailAccept (dr : Dev × Recorder) : Dev × Recorder :=
  let (d, r) := dr
  if d.aon.vaon = false ∨ d.aon.flushing then dr
  else
    let (d, r) := drainEvents d.evq.length (d, { r with frozen := false })
    let (d, r) := acceptRec { code := 0x030, sev := 6, src := Page.code .pwr, payload := [],
                              cyc := d.cyc } (d, r)
    let a := { d.aon with pfailN := false, flushing := true, shutPending := false,
                          pfailSeen := true, cause := 6 }
    let (d, r) := resetBoth (d.setAon (a.lower true .pfail), r)
    (((d.setF PWR_FAULT_VALID 1).setF PWR_FAULT_RAIL 0).setF PWR_FAULT_CAUSE 4, r)

def execPfailAccept (s : State) : Out := onRec pfailAccept s

/-- The image that the flush of a power failure programs next: the POWER_FAIL record's, then the others. -/
def flushPick (d : Dev) (r : Recorder) : Option Nat :=
  (nextSealed (fun p => (p.recs.any fun x => x.code = 0x030) && (targetPage d r p.sev).isSome) r.images) <|> nextReady d r

/-- One page of the flush of a power failure: the SHUTDOWN page if one is due, the POWER_FAIL record's image, then the
others (R505). -/
def flushStep (fail : Bool) (dr : Dev × Recorder) : Dev × Recorder :=
  let (d, r) := dr
  if d.aon.shutDue then shutdownRecord dr
  else
    let r := sealAll r
    match flushPick d r with
    | some k => programAt fail k (d, r)
    | none => (d, r)

/-- Pages of the flush, as many as there can be. -/
def flushRest : Nat → Dev × Recorder → Dev × Recorder
  | 0, dr => dr
  | n + 1, dr => flushRest n (flushStep false dr)

/-- EVR_PAGE_PROGRAM: a page of the event log is programmed, during the flush of a power failure in its order. -/
def execEvrPageProgram (fail : Bool) (s : State) : Out :=
  onRec (fun dr => if dr.1.aon.flushing then flushStep fail dr else pageProgram fail dr) s

/-- PFAIL_FLUSH_DONE: what is left of the flush is programmed. -/
def pfailFlush (dr : Dev × Recorder) : Dev × Recorder :=
  if dr.1.aon.flushing then
    let (d, r) := flushRest (dr.2.images.length + 2) dr
    (d.setAon { d.aon with flushing := false }, r)
  else dr

def execPfailFlushDone (s : State) : Out := onRec pfailFlush s

/-- PFAIL_RESTART (R506): PFAIL_N high for 100 ms with RESET_N high. -/
def pfailRestart (d : Dev) : Dev :=
  let d := if d.aon.vaon then d.setAon { d.aon with pfailN := true } else d
  if d.aon.resetN then selfRise .pfail 6 d else d

def execPfailRestart (s : State) : Out := onDev pfailRestart s

end Sys2Proof.Machine
end

