-- ==== Sys2Proof/Machine/Power.lean ====
section
/-! DEFINITION. Rate monitors, the rate governor, the PMBus master, gaits, thermal sensing and the throttle
(R47 to R53, R489 to R501, KL-10). -/
namespace Sys2Proof.Machine

def Dev.onPwr (d : Dev) (f : PwrSt → PwrSt) : Dev := { d with pwr := f d.pwr }
def Dev.onThm (d : Dev) (f : ThmSt → ThmSt) : Dev := { d with thm := f d.thm }

/-- Is the device at level ON, with no shutdown pending? -/
def Dev.isOn (d : Dev) : Bool := d.aon.level = 2 && !d.aon.shutPending

/-! ## Rate monitors (R47) -/

/-- Capacity and load registers of the monitors, in the order of their pages. -/
def monitors : List (Fld × Fld) :=
  [(ING_CAP_MPXS, ING_LOAD_MPXS), (NRD_CAP_MPXS, NRD_LOAD_MPXS), (PXC_CAP_MPXS, PXC_LOAD_MPXS),
   (HDR_CAP_MPXS, HDR_LOAD_MPXS), (GEO_CAP_MPXS, GEO_LOAD_MPXS), (STA_CAP_MPXS, STA_LOAD_MPXS),
   (VEW_CAP_MPXS, VEW_LOAD_MPXS), (ENC_CAP_MPXS, ENC_LOAD_MPXS), (DLV_CAP_MBITS, DLV_LOAD_MBITS),
   (FST_CAP_MBS, FST_LOAD_MBS), (HMP_CAP_MBS, HMP_LOAD_MBS)]

/-- Readings, capacity and load, in that order; a monitor with none keeps its registers. -/
def monitorWrite (l : List (Word × Word)) (d : Dev) : Dev :=
  (monitors.zip l).foldl (fun d (e : (Fld × Fld) × Word × Word) =>
    (d.setF e.1.1 e.2.1.toNat).setF e.1.2 e.2.2.toNat) d

/-- `whole`: the readings were taken wholly after the voltage last commanded had settled (R493). Held
commits go on once these meet their targets (R51). -/
def monitorUpdate (l : List (Word × Word)) (whole : Bool) (d : Dev) : Dev :=
  if d.aon.level ≠ 2 then d
  else
    let d := monitorWrite l d
    let d := d.onPwr fun w => { w with settled := w.settled || whole }
    if d.pwr.settled then releaseDemand d else d

/-- RATE_MONITOR_UPDATE. -/
def execRateMonitorUpdate (l : List (Word × Word)) (whole : Bool) (s : State) : Out :=
  onDev (monitorUpdate l whole) s

/-! ## PMBus (R489 to R492) -/

/-- Two to an integer power. (PRESUMED, log entry 97.) -/
def pow2 (n : Int) : Rat := if 0 ≤ n then ((2 ^ n.toNat : Nat) : Rat) else 1 / ((2 ^ (-n).toNat : Nat) : Rat)

/-- A voltage in mV as the regulator takes it: ULINEAR16 with the exponent of VOUT_MODE. (PRESUMED, log entry 97.) -/
def Dev.ulinear (d : Dev) (mv : Nat) : Nat := ((mv : Rat) / 1000 / pow2 (signed 5 d.pwr.vMode)).floor.toNat % 65536

/-- The bytes that a transaction writes after its command code: none, one or two. (PRESUMED, log entry 97.) -/
def Dev.pmbData (d : Dev) (t : PmbTx) : List Byte :=
  match t.code with
  | 0x01 => u8 t.value
  | 0x21 | 0x24 => u16 (d.ulinear t.value)
  | 0x27 => u16 1
  | _ => []

/-- How many bytes a transaction reads. -/
def pmbReads (code : Nat) : Nat := if code = 0x20 ∨ code = 0x7A then 1 else if [0x79, 0x8B, 0x8C].contains code then 2 else 0

/-- A transaction on the bus (R489): address, command code, what is written or read, and the packet error code
while PEC is 1. (PRESUMED, log entry 97.) -/
def pmbBytes (d : Dev) (t : PmbTx) (data : Nat) : List Byte :=
  let a := 2 * d.f PWR_PMB_CFG_ADDR
  let n := pmbReads t.code
  let msg := if n = 0 then u8 a ++ u8 t.code ++ d.pmbData t
    else u8 a ++ u8 t.code ++ u8 (a + 1) ++ (u16 data).take n
  msg ++ if d.on PWR_PMB_CFG_PEC then [crc8From 0#8 msg] else []

/-- Send a transaction. -/
def pmbSend (code value : Nat) (d : Dev) : Dev := d.onPwr fun w => { w with pmbQ := w.pmbQ ++ [{ code, value }] }

/-- The ceiling changes: it is written to the regulator as VOUT_MAX (R499). -/
def setCeil (mv : Nat) (d : Dev) : Dev :=
  if d.pwr.vCeil = mv then d
  else pmbSend 0x24 mv ((d.onPwr fun w => { w with vCeil := mv }).setF PWR_VCORE_STAT_V_CEIL mv)

/-- Send a transaction before all others. -/
def pmbNext (code value : Nat) (d : Dev) : Dev := d.onPwr fun w => { w with pmbQ := { code, value } :: w.pmbQ }

/-- Does the device master the PMBus: with VIO good, but not at RETAIN, where the bus is released (R486, R551)? -/
def Dev.pmbOn (d : Dev) : Bool := d.aon.vaon && railBit d.aon.pg 0 && d.aon.level != 1

/-- The status of an alert has been read: CLEAR_FAULTS follows it at once, with the interrupt and the event (R492). -/
def alertRead (st vout : Nat) (d : Dev) : Dev :=
  let d := (pmbNext 0x03 (st + 65536 * vout) (d.setF PWR_PMB_STAT_VOUT vout)).raise PWR_IRQ_RAW_VREG_ALERT
  d.emit 0x034 .pwr (u16 st ++ u8 vout)

/-- A transaction succeeded: VOUT_COMMAND has set the voltage; a read has its word. STATUS_WORD and STATUS_VOUT carry
what the regulator answered to the alert. -/
def pmbOk (t : PmbTx) (data : Nat) (d : Dev) : Dev :=
  match t.code with
  | 0x79 =>
    let st := t.value % 65536
    let d := d.setF PWR_PMB_STAT_STATUS st
    if st.testBit 15 then pmbNext 0x7A t.value d else alertRead st 0 d
  | 0x7A => alertRead (t.value % 65536) (t.value / 65536) d
  | 0x20 => d.onPwr fun w => { w with vMode := data }
  | 0x21 =>
    let d := (d.onPwr fun w => { w with vSet := t.value, settled := false }).setF PWR_VCORE_STAT_V_SET t.value
    if d.aon.level = 2 then d.bump PWR_VOUT_WRITES else d.onPwr fun w => { w with settled := true }
  | 0x03 => d.setF PWR_PMB_STAT_ALERT 0
  | 0x8B => d.onPwr fun w => { w with vOut := data }
  | 0x8C => d.onPwr fun w => { w with iOut := data }
  | _ => d

/-- The word a transaction returns on the bus: the status words of an alert come with the alert. -/
def PmbTx.word (t : PmbTx) (data : Nat) : Nat :=
  if t.code = 0x79 then t.value % 65536 else if t.code = 0x7A then t.value / 65536 else data

/-- The transaction under way ends: with the word a read returns, or not acknowledged or with a wrong
packet error code. (DEDUCED, log entry 96.) -/
def pmbEnd (ok : Bool) (data : Nat) (d : Dev) : Dev :=
  match d.pwr.pmbQ with
  | [] => d
  | t :: rest =>
    if ok then
      let data := t.word data
      pmbOk t data ((d.onPwr fun w => { w with pmbQ := rest, pmbStuck := false, bus := pmbBytes d t data }).setF PWR_PMB_STAT_OK 1)
    else
      let d := (d.bump PWR_PMB_ERR).setF PWR_PMB_STAT_OK 0
      if t.fails < 3 then d.onPwr fun w => { w with pmbQ := { t with fails := t.fails + 1 } :: rest }
      else
        let start := d.aon.level != 2 && [0x20, 0x01, 0x27, 0x24, 0x21].contains t.code
        let d := d.onPwr fun w =>
          { w with pmbQ := rest, pmbStuck := true, fixedByFault := w.fixedByFault || start }
        (d.raise PWR_IRQ_RAW_PMB_ERR).emit 0x033 .pwr

/-- Does a status mean a rail fault of VCORE (R492)? (DEDUCED, log entry 96.) -/
def vregFault (st vout : Nat) : Bool := st.testBit 6 || st.testBit 5 || vout.testBit 7 || vout.testBit 4

/-- Has the CLEAR_FAULTS of an alert that means a rail fault ended: sent, or given up? -/
def Dev.faultAfter (d : Dev) (ok : Bool) : Bool :=
  match d.pwr.pmbQ with
  | t :: _ => t.code = 0x03 && (ok || decide (3 ≤ t.fails)) && vregFault (t.value % 65536) (t.value / 65536)
  | [] => false

/-- The transaction under way ends, and with an alert's CLEAR_FAULTS its rail fault begins. -/
def pmbDone (ok : Bool) (data : Nat) (dr : Dev × Recorder) : Dev × Recorder :=
  let (d, r) := dr
  if d.pmbOn = false then dr
  else if d.faultAfter ok then railFault 3 3 (pmbEnd ok data d, r)
  else (pmbEnd ok data d, r)

/-- PMBUS_TRANSACTION_DONE. -/
def execPmbusTransactionDone (ok : Bool) (data : BitVec 16) (s : State) : Out := onRec (pmbDone ok data.toNat) s

/-- PMB_ALERT_N asserts, with the status words that the regulator will answer: STATUS_WORD is read.
(DEDUCED, log entry 96.) -/
def pmbAlert (st vout : Nat) (d : Dev) : Dev :=
  if d.pmbOn then pmbSend 0x79 (st + 65536 * vout) (d.setF PWR_PMB_STAT_ALERT 1) else d

/-- PMB_ALERT (R492). -/
def execPmbAlert (st : BitVec 16) (vout : Byte) (s : State) : Out := onDev (pmbAlert st.toNat vout.toNat) s

/-! ## The governor (R48, R51 to R53, R493) -/

/-- The sets of commits held for capacity. -/
def Dev.heldSets (d : Dev) : List Dev :=
  (d.com.accepted.filterMap fun p =>
    if (d.pageCom p).hold = .demand then some (d.candidate (d.pageCom p).latched [p]) else none) ++
  (if d.com.gstate = .pending ∧ d.com.glob.hold = .demand then
    [d.candidate d.com.glob.latched (allPages.filter (d.differs d.com.glob.latched))] else [])

/-- The targets: of the pipeline's stages, and of stage P7 (R365), those of held commits among them.
(DEDUCED, log entry 98.) -/
def Dev.target (d : Dev) : Rat :=
  d.heldSets.foldl (fun (m : Rat) e => max m (e.demand * e.margin)) (d.demand * d.margin)
def Dev.encTarget (d : Dev) : Rat :=
  d.heldSets.foldl (fun (m : Rat) e => max m (e.encLoad * e.margin)) (d.encLoad * d.margin)

/-- Do capacities meet the targets? (DEDUCED, log entry 98.) -/
def Dev.meets (d : Dev) (cap enc : Nat) : Bool :=
  decide (d.target ≤ (cap : Rat)) && decide (d.encTarget ≤ (enc : Rat))

/-- One step from `v` toward `goal`. (DEDUCED, log entry 98.) -/
def stepToward (v goal : Nat) : Nat := if v < goal then min goal (v + 10) else max goal (v - 10)

/-- The voltage a governor step asks for. `capLow` and `encLow` are the capacities at one step lower.
(DEDUCED, log entry 98.) -/
def governorGoal (capLow encLow : Nat) (d : Dev) : Nat :=
  let v := d.pwr.vSet
  let top := min 850 (min d.pwr.vCeil (d.f PWR_GOV_V_V_MAX))
  if top < v then stepToward v (max 600 (v - 10))
  else if d.pwr.fixedByFault ∨ d.on PWR_GOV_FIXED then
    stepToward v (min top (if d.pwr.fixedByFault then 750 else d.f PWR_GOV_V_V_FIX))
  else if d.meets d.minCap (d.f ENC_CAP_MPXS) = false then (if v + 10 ≤ top then v + 10 else v)
  else if d.meets capLow encLow ∧ d.pwr.lowerWait = none ∧ 610 ≤ v then v - 10
  else v

/-- A voltage has been commanded and has not been acknowledged yet. -/
def Dev.voutPending (d : Dev) : Bool := d.pwr.pmbQ.any fun t => t.code = 0x21

/-- The governor acts: nothing while a PMBus failure or an unsettled step stands in its way.
(DEDUCED, log entry 98.) -/
def governorStep (capLow encLow : Nat) (d : Dev) : Dev :=
  let d := prune d
  if d.isOn = false ∨ d.pwr.pmbStuck ∨ d.pwr.settled = false ∨ d.voutPending then d
  else
    let v := governorGoal capLow encLow d
    if v = d.pwr.vSet then d else pmbSend 0x21 v d

/-- GOVERNOR_STEP. -/
def execGovernorStep (capLow encLow : Word) (s : State) : Out := onDev (governorStep capLow.toNat encLow.toNat) s

/-! ## Gaits (R494 to R496) -/

/-- G: the selected gait, limited while a group is in WARN. (DEDUCED, log entry 99.) -/
def Dev.gait (d : Dev) : Nat :=
  if d.f THM_STAT_PIX = 1 ∨ d.f THM_STAT_LOG = 1 then min (d.f PWR_GAIT_SEL) (d.f PWR_GAIT_WARN_GAIT)
  else d.f PWR_GAIT_SEL

/-- G is formed again: a change is an event, with reason 0 host or 1 thermal warning. (DEDUCED, log entry 99.) -/
def gaitEval (reason : Nat) (d : Dev) : Dev :=
  let g := d.gait
  let was := d.f PWR_GAIT_ACTIVE
  if g = was then d
  else (d.setF PWR_GAIT_ACTIVE g).emit 0x036 .pwr (u8 was ++ u8 g ++ u8 reason)

/-- The cap of a gait, in mW. -/
def gaitCap (g : Nat) : Nat := if g = 0 then 8000 else if g = 1 then 16000 else if g = 2 then 28000 else 40000

/-- READ_VOUT in ULINEAR16 times READ_IOUT in LINEAR11, in mW. (PRESUMED, log entry 97.) -/
def Dev.vcorePower (d : Dev) : Nat :=
  let v : Rat := (d.pwr.vOut : Rat) * pow2 (signed 5 d.pwr.vMode)
  let i : Rat := (signed 11 d.pwr.iOut : Rat) * pow2 (signed 5 (d.pwr.iOut / 2048))
  (v * i * 1000).floor.toNat

/-- The mean of P_est over the last 100 ms. (DEDUCED, log entry 99.) -/
def pAverage (l : List Nat) : Rat := if l.isEmpty then 0 else ((l.sum : Nat) : Rat) / (l.length : Nat)

def Dev.rMax (d : Dev) : Rat := (d.f THM_THROTTLE_R_MAX : Rat) / 256

/-- r_gait moves by a quarter of the relative excess. -/
def gaitThrottle (d : Dev) : Rat :=
  let cap : Rat := gaitCap (d.f PWR_GAIT_ACTIVE)
  max 0 (min d.rMax (d.pwr.rGait + (pAverage d.pwr.pAvg - cap) / cap / 4))

/-- At R_MAX with p_avg above the cap: after 1 s the limit is reported, once. (DEDUCED, log entry 99.) -/
def gaitLimit (d : Dev) : Dev :=
  let past := d.pwr.rGait = d.rMax ∧ (gaitCap (d.f PWR_GAIT_ACTIVE) : Rat) < pAverage d.pwr.pAvg
  let d := d.onPwr fun w => { w with atMax := if past then w.atMax + 1 else 0 }
  if d.pwr.atMax = 101 then (d.raise PWR_IRQ_RAW_GAIT_LIMIT).emit 0x035 .pwr else d

/-- Every 10 ms, while firmware runs (R3); `other` is the power of the other rails in mW, from the activity counters.
(DEDUCED, log entry 99.) -/
def gaitUpdate (other : Nat) (d : Dev) : Dev :=
  if d.isOn = false ∨ d.boot.run ≠ .running then d
  else
    let p := d.vcorePower
    let d := (d.setF PWR_P_VCORE p).setF PWR_P_EST (p + other)
    let d := d.onPwr fun w => { w with pAvg := ((p + other) :: w.pAvg).take 10 }
    let d := d.onPwr fun w => { w with rGait := gaitThrottle d }
    let d := gaitLimit (d.setF PWR_R_GAIT_R (d.pwr.rGait * 256).floor.toNat)
    pmbSend 0x8C 0 (pmbSend 0x8B 0 d)

/-- GAIT_UPDATE. -/
def execGaitUpdate (other : Word) (s : State) : Out := onDev (gaitUpdate other.toNat) s

/-- GAIT_SET (R496). -/
def gaitSet (d : Dev) : Dev :=
  let g := d.cmdNat 0 1
  if 3 < g then d.mbxDone resBAD_PARAM
  else (gaitEval 0 (d.setF PWR_GAIT_SEL g)).mbxDone resOK

def execGaitSet (s : State) : Out := onDev (mbxServe 0x0070 (· = 1) gaitSet) s

/-! ## Thermal sensing and group states (R497, R500, R501) -/

/-- The mean of a sensor's last samples, to the nearest 1/16 °C. (DEDUCED, log entry 100.) -/
def meanOf (l : List Int) : Int := if l.isEmpty then 0 else (2 * l.sum + l.length) / (2 * l.length)

/-- The reading of a sensor. (DEDUCED, log entry 100.) -/
def reading (hist : List (List Int)) (n : Nat) : Int := meanOf (hist.map fun l => l.getD n 0)

/-- The highest of some readings. -/
def highest (hist : List (List Int)) (lo : Nat) : Int :=
  (List.range 15).foldl (fun m k => max m (reading hist (lo + 1 + k))) (reading hist lo)

/-- A group's registers and what names it in records. -/
structure TGroup where
  start : Fld
  span : Fld
  warn : Fld
  shut : Fld
  stat : Fld
  temp : Fld
  peak : Fld
  irq : Fld
  cause : Nat

def pixGroup : TGroup :=
  { start := THM_THR_PIX_START, span := THM_THR_PIX_SPAN, warn := THM_THR_PIX_WARN, shut := THM_THR_PIX_SHUT,
    stat := THM_STAT_PIX, temp := THM_GRP_TEMP_PIX, peak := THM_PEAK_PIX, irq := THM_IRQ_RAW_WARN_PIX, cause := 1 }
def logGroup : TGroup :=
  { start := THM_THR_LOG_START, span := THM_THR_LOG_SPAN, warn := THM_THR_LOG_WARN, shut := THM_THR_LOG_SHUT,
    stat := THM_STAT_LOG, temp := THM_GRP_TEMP_LOG, peak := THM_PEAK_LOG, irq := THM_IRQ_RAW_WARN_LOG, cause := 2 }

/-- T_d of a group, in 1/16 °C. -/
def Dev.groupTemp (d : Dev) (g : TGroup) : Int := signed 16 (d.f g.temp)

/-- Sensor registers, group temperatures and peaks. -/
def storeReadings (d : Dev) : Dev :=
  let h := d.thm.hist
  let d := (List.range 16).foldl (fun d k =>
    (d.setFk THM_SENS_EVEN k (unsigned 16 (reading h (2 * k)))).setFk THM_SENS_ODD k (unsigned 16 (reading h (2 * k + 1)))) d
  [(pixGroup, highest h 0), (logGroup, highest h 16)].foldl (fun d (e : TGroup × Int) =>
    let d := d.setF e.1.temp (unsigned 16 e.2)
    if h.length = 1 ∨ signed 16 (d.f e.1.peak) < e.2 then d.setF e.1.peak (unsigned 16 e.2) else d) d

/-- Samples in a row that a condition must hold. (DEDUCED, log entry 100.) -/
def Dev.dwell (d : Dev) : Nat := max 1 (d.f THM_DWELL_MS)

/-- A group's conditions on this sample. -/
def dwellNext (g : TGroup) (d : Dev) (w : Dwell) : Dwell :=
  let t := d.groupTemp g
  { up := if 16 * (d.f g.warn : Int) ≤ t then w.up + 1 else 0
    dn := if t < 16 * ((d.f g.warn : Int) - d.f THM_DWELL_HYST) then w.dn + 1 else 0
    sh := if 16 * (d.f g.shut : Int) ≤ t then w.sh + 1 else 0 }

/-- Shutdown pending: the latch is set, the Hamper goes into self-refresh, a SHUTDOWN record is due, the in-band
requests not yet executed are discarded (R585), and an open transfer of an image is closed (R532).
(DEDUCED, log entries 100 and 101.) -/
def shutdownPending (g : TGroup) (d : Dev) : Dev :=
  let d := (gaitEval 1 (d.setF g.stat 2)).setLatch g.cause (unsigned 8 (d.groupTemp g / 16))
  let d := if d.enabled .hmp then hmpDisable d else d
  { d with hlp := { d.hlp with strm := [] }, boot := { d.boot with xfer := none } }.setAon { d.aon with shutPending := true, shutDue := true }

/-- A group's state machine; a group that reaches PENDING on the sample of the other's only says so.
(DEDUCED, log entry 100.) -/
def groupStep (g : TGroup) (w : Dwell) (d : Dev) : Dev :=
  if d.dwell ≤ w.sh then
    if d.aon.shutPending then gaitEval 1 (d.setF g.stat 2) else shutdownPending g d
  else if d.f g.stat = 0 ∧ d.dwell ≤ w.up then
    gaitEval 1 ((((d.setF g.stat 1).raise g.irq).bump THM_WARN_ENTRIES).emit 0x037 .thm)
  else if d.f g.stat = 1 ∧ d.dwell ≤ w.dn then gaitEval 1 ((d.setF g.stat 0).emit 0x038 .thm)
  else d


/-- THERMAL_READ (R497). -/
def thermalRead (d : Dev) : Dev :=
  d.mbxDone resOK ((List.range 16).flatMap fun k => u16 (d.fk THM_SENS_EVEN k) ++ u16 (d.fk THM_SENS_ODD k))

def execThermalRead (s : State) : Out := onDev (mbxServe 0x0071 (· = 0) thermalRead) s

/-! ## The throttle (R499) -/

/-- r_d of a group. -/
def groupThrottle (g : TGroup) (d : Dev) : Rat :=
  let span : Rat := 16 * (d.f g.span : Rat)
  let x : Rat := ((d.groupTemp g - 16 * (d.f g.start : Int) : Int) : Rat) / span
  if span = 0 then 0 else max 0 (min 1 x) * d.rMax

/-- The value in force moves toward R. -/
def slew (was goal by_ : Nat) : Nat := if was < goal then min goal (was + by_) else max goal (was - by_)

/-- The ceiling: it follows VCORE down while R > 0, and returns to V_MAX after 10 ms with R = 0; after a PMBus failure
it stays until a transaction succeeds (R491). (DEDUCED, log entry 100.) -/
def ceiling (d : Dev) : Dev :=
  if d.pwr.pmbStuck then d
  else if 0 < d.thm.rAct then setCeil (min d.pwr.vCeil d.pwr.vSet) d
  else if 10 ≤ d.thm.zeroMs then setCeil (d.f PWR_GOV_V_V_MAX) d
  else d

/-- One computation of the throttle: every 10 ms, or at every sample while DWELL.MS is 0 (KL-10). -/
def throttleUpdate (d : Dev) : Dev :=
  if d.isOn = false then d
  else
    let ms := if d.f THM_DWELL_MS = 0 then 1 else 10
    let rp := groupThrottle pixGroup d
    let rl := groupThrottle logGroup d
    let was := d.thm.rAct
    let r := slew was ((max (max rp rl) d.pwr.rGait) * 256).floor.toNat (d.f THM_THROTTLE_R_SLEW)
    let d := d.onThm fun t => { t with rAct := r, zeroMs := if r = 0 then min 10 (t.zeroMs + ms) else 0 }
    let d := ((d.setF THM_R_ACT_R r).setF THM_R_ACT_R_PIX (rp * 256).floor.toNat).setF THM_R_ACT_R_LOG (rl * 256).floor.toNat
    let d := d.setF THM_STAT_THROTTLING (b2n (0 < r))
    let d := if was = 0 ∧ 0 < r then d.raise THM_IRQ_RAW_THROTTLE else d
    let d := if 0 < r then d.add THM_THROTTLE_MS ms else d
    let d := setExtThr (ceiling d)
    declared (if d.inFrame then d else setRowExt d)

/-- THROTTLE_UPDATE: the computation of every 10 ms, which the one of every sample replaces while DWELL.MS is 0. -/
def execThrottleUpdate (s : State) : Out := onDev (fun d => if d.f THM_DWELL_MS = 0 then d else throttleUpdate d) s

/-- A 1 kHz sample of the 32 sensors, in 1/16 °C; with DWELL.MS 0 the throttle follows it (R499, R581). -/
def thermalSample (l : List Int) (d : Dev) : Dev :=
  if d.isOn = false then d
  else
    let d := storeReadings (d.onThm fun t => { t with hist := (l :: t.hist).take 16 })
    let d := d.onThm fun t => { t with pix := dwellNext pixGroup d t.pix, log := dwellNext logGroup d t.log }
    let d := groupStep logGroup d.thm.log (groupStep pixGroup d.thm.pix d)
    if d.f THM_DWELL_MS = 0 then throttleUpdate d else d

/-- THERMAL_SAMPLE. -/
def execThermalSample (l : List (BitVec 16)) (s : State) : Out := onDev (thermalSample (l.map (·.toInt))) s

end Sys2Proof.Machine
end

