-- ==== Sys2Proof/Machine/Programs.lean ====
section
/-! DEFINITION. The programs that firmware loads: std_frame and the standard programs of the modes, and the
pin programs (R195, R199, R254, R588). -/
namespace Sys2Proof.Machine

/-! ## Assembling (R166, R168, R198) -/

def portCodeOf : EPort → Nat | .top => 1 | .bot => 2 | .both => 3
def incCodeOf : EInc → Nat | .none => 0 | .plus => 1 | .minus => 2
def baseCodeOf : EBase → Nat | .next => 0 | .cur => 1 | .trig => 2

/-- Opcode and operand bits of an instruction. -/
def eFields : EIns → Nat × Nat
  | .nop => (0x00, 0)
  | .set r v => (0x01, r.val * 2 ^ 18 + v.toNat)
  | .seth r v => (0x02, r.val * 2 ^ 18 + v.toNat)
  | .add r v => (0x03, r.val * 2 ^ 18 + v.toNat)
  | .mov r s o => (0x04, r.val * 2 ^ 18 + s.val * 2 ^ 14 + o.val * 2 ^ 12)
  | .jmp c a => (0x05, c.val * 2 ^ 18 + a.val)
  | .wait c v => (0x06, c.val * 2 ^ 18 + v.toNat)
  | .stb q t b => (0x07, portCodeOf q * 2 ^ 20 + incCodeOf t * 2 ^ 18 + incCodeOf b * 2 ^ 16)
  | .pull par nb => (0x08, b2n par * 2 ^ 21 + b2n nb * 2 ^ 20)
  | .push (.ctx n) nb => (0x09, n.val * 2 ^ 18 + 2 ^ 17 + b2n nb * 2 ^ 16)
  | .push (.reg r) nb => (0x09, r.val * 2 ^ 18 + b2n nb * 2 ^ 16)
  | .shut b s h => (0x0A, baseCodeOf b * 2 ^ 20 + s.val * 2 ^ 17 + b2n h * 2 ^ 16)
  | .shf b r => (0x0B, b2n b * 2 ^ 21 + r.val * 2 ^ 17)
  | .shg b m => (0x0C, b2n b * 2 ^ 21 + b2n m * 2 ^ 20)
  | .latch q => (0x0D, portCodeOf q * 2 ^ 20)
  | .sync g => (0x0E, g.val * 2 ^ 18)
  | .irq n => (0x0F, n.val * 2 ^ 20)
  | .stop => (0x10, 0)

/-- The word of an instruction with its DELAY. -/
def eEncode (i : EIns) (dly : Nat) : Word :=
  BitVec.ofNat 32 ((eFields i).1 * 2 ^ 27 + dly * 2 ^ 22 + (eFields i).2)

/-! The registers and conditions that the programs use, by their codes (R157, R169). -/
def eX : Fin 15 := 0
def eY : Fin 15 := 1
def eW : Fin 15 := 2
def eRT : Fin 15 := 3
def eRB : Fin 15 := 4
def eT : Fin 15 := 5
def eP : Fin 15 := 6
def eFC : Fin 15 := 8
def eSTAT : Fin 15 := 9
def eM : Fin 15 := 10
def eU0 : Fin 15 := 11
def eU1 : Fin 15 := 12
def eU2 : Fin 15 := 13
def eU3 : Fin 15 := 14

def eSet (r : Fin 15) (v : Nat) : EIns := .set r (BitVec.ofNat 16 v)
def eAdd (r : Fin 15) (v : Int) : EIns := .add r (BitVec.ofInt 12 v)
/-- A jump to an address of a program that begins at `b`. -/
def eJmp (b : Nat) (c : Fin 14) (a : Nat) : EIns := .jmp c (Fin.ofNat 1024 (b + a))
def jALWAYS : Fin 14 := 0
def jZ : Fin 14 := 1
def jNZ : Fin 14 := 2
def jXDEC : Fin 14 := 3
def jSTALE : Fin 14 := 5
def jXLTY : Fin 14 := 9
def jTLAST : Fin 14 := 10
def jFIRST : Fin 14 := 13

/-! ## std_frame -/

/-- std_frame: addresses 0 to 34, assembled from its listing. -/
def stdFrame : List Word :=
  [0x0800003F, 0x40000000, 0x50090000, 0x280C0001, 0x30000000, 0x0800003F, 0x40000000, 0x50090000,
   0x280C0006, 0x08180000, 0x080C0000, 0x08100000, 0x08140000, 0x60000000, 0x60300000, 0x68300000,
   0x08000097, 0x38350000] ++
  [0x280C0011, 0x0804001E, 0x18140001, 0x60000000, 0x60300000, 0x68300000, 0x0800007F, 0x38350000,
   0x280C0019, 0x28100014, 0x20028000, 0x18000FFF, 0x2001A000, 0x28040022, 0x18180001, 0x2800000A, 0x30000000]

/-! ## std_window and std_trig (R588)

The words are the model's own: R588 states what the programs do. U0 and U1 hold the tile rows of the top and the
bottom bank. While rows are read, T holds the tile row read in the top bank (63 once that bank has none left) and W
the number k of the tile row 63 − k read in the bottom bank (64 once it has none left). -/

/-- Arming: the tile rows of U0 and U1 and the edge tiles take their events from the sweep, which delivers tile rows
0 to 63. -/
def winArms (b e : Nat) (arm : EIns) : List EIns :=
  [eSet eW 1, .pull false false, .mov eX eU0 0, .mov eX eW 3, eJmp b jNZ 7, .mov eX eT 0, eJmp b jNZ 8, arm,
   .mov eW eW 1, eJmp b jNZ 1, eSet eW 1, .pull false false, .mov eX eU1 0, .mov eX eW 3, eJmp b jNZ 17,
   eJmp b jTLAST 17, eJmp b jALWAYS 18, arm, .mov eW eW 1, eJmp b jNZ 11, eJmp b jFIRST e, eSet eP 0]

/-- A pass begins: the gains of the edge tiles, the first tile row of each bank, and the dark rows. -/
def winPass (b : Nat) : List EIns :=
  [eSet eRT 0, eSet eRB 0, eSet eT 0, .shg false false, .shg true true, .latch .both, eSet eY 1, .mov eX eU0 0,
   .mov eX eY 3, eJmp b jNZ 36, eAdd eT 1, .mov eY eY 1, eJmp b jNZ 29, eSet eT 63, eSet eW 64, .mov eY eU1 0,
   eJmp b jZ 45, eSet eW 0, eAdd eW (-1), eAdd eW 1, .mov eX eY 0, .mov eY eY 1, eJmp b jXLTY 41, eSet eX 23,
   .stb .both .plus .plus, eJmp b jXDEC 46]

/-- During the last row before a tile row: its gain is shifted and latched, and the row indices are formed. -/
def winStep (b : Nat) : List EIns :=
  [eJmp b jTLAST 51, .shg false false, .latch .top, .mov eX eW 0, eAdd eX (-64), eJmp b jZ 59, .mov eY eT 0,
   .mov eT eW 0, .shg true true, .latch .bot, .mov eT eY 0, .mov eRT eT 0, .mov eRB eW 0, eSet eX 6, .mov eRT eRT 1,
   .mov eRB eRB 1, eJmp b jXDEC 62, eAdd eRT 24, eAdd eRB 24, .mov eX eW 0, eAdd eX (-64), eJmp b jZ 104,
   eJmp b jTLAST 112]

/-- The rows of a tile row where both banks read; the tile rows that follow are found in the last rows but one. -/
def winRows (b : Nat) : List EIns :=
  [eSet eX 125, .stb .both .plus .plus, eJmp b jXDEC 72, .mov eY eU1 0, .mov eX eW 0, .mov eY eY 1, eJmp b jXDEC 76,
   eJmp b jZ 84, eAdd eW 1, .mov eX eY 0, .mov eY eY 1, eJmp b jXLTY 79, eJmp b jALWAYS 85, eSet eW 64,
   .mov eX eRT 0, eJmp b jZ 117, .stb .both .plus .plus, eSet eY 1, .mov eX eT 0, .mov eY eY 1, eJmp b jXDEC 90,
   eJmp b jZ 99, eAdd eT 1, .mov eX eU0 0, .mov eX eY 3, eJmp b jNZ 100, .mov eY eY 1, eJmp b jNZ 93, eSet eT 63,
   .mov eX eRB 0, eJmp b jZ 110, .stb .both .plus .plus, eJmp b jALWAYS 48]

/-- The rows of a tile row where one bank alone still reads. -/
def winOneBank (b : Nat) : List EIns :=
  [eJmp b jTLAST 119, eSet eRB 0, eSet eX 126, .stb .top .plus .none, eJmp b jXDEC 107, eJmp b jALWAYS 88,
   .stb .top .plus .none, eJmp b jALWAYS 48, eSet eRT 0, eSet eX 126, .stb .bot .none .plus, eJmp b jXDEC 114,
   eJmp b jALWAYS 74, .stb .bot .none .plus, eJmp b jALWAYS 48]

/-- std_window and std_trig but for their ends: `e` is the address of the last word, from `b` on. -/
def winCore (b e : Nat) (arm : EIns) : List EIns :=
  winArms b e arm ++ winPass b ++ winStep b ++ winRows b ++ winOneBank b

/-- std_window: ALL, NEXT, with HOLD, in m passes. -/
def stdWindow (b : Nat) : List EIns :=
  winCore b 125 (.shut .next 4 true) ++
  [.mov eX eM 0, eAdd eX (-1), .mov eX eP 2, eJmp b jZ 125, eAdd eP 1, eJmp b jALWAYS 22, .wait 0 0#16]

/-- std_trig: E0, TRIG, with HOLD, in one pass. -/
def stdTrig (b : Nat) : List EIns := winCore b 119 (.shut .trig 0 true) ++ [.wait 0 0#16]

/-! ## std_strip (R588)

U0 holds the tile row of the top bank's strip and, from bit 8 on, the bit of the line as STAT shows it; U1 the tile row of
the bottom bank's strip and, from bit 7 on, TRG.STRIP_CFG.COUNT; U2 and U3 the first bank row index of each. In a stripe
that reads no strips the tile rows are 64 and U2 and U3 are 0. -/

/-- Arming and the dark rows. Y tells whether an edge of before the start tick is pending, whose strip is read after
the dark rows; one that is not of a strip is cleared before the strip tiles are armed. -/
def stripArms (b : Nat) : List EIns :=
  [eSet eY 0, eJmp b jFIRST 5, eSet eY 0xFF00, .mov eY eU0 3, .mov eY eSTAT 3, .pull false false, eJmp b jSTALE 54,
   eSet eX 127, .mov eX eU0 3, .mov eX eT 2, eJmp b jZ 19, eSet eX 127, .mov eX eU1 3, .mov eX eT 2, eJmp b jZ 19,
   .mov eX eT 0, eJmp b jZ 26, eJmp b jTLAST 26, eJmp b jALWAYS 5, .mov eY eY 0, eJmp b jNZ 26, eSet eX 0xFF00,
   .mov eX eU0 3, .mov eX eSTAT 3, eJmp b jNZ 66, eSet eY 1, .shut .trig 0 true, eJmp b jTLAST 29,
   eJmp b jALWAYS 5, eJmp b jFIRST 115, eSet eP 0, eSet eRT 0, eSet eRB 0, eSet eT 0, .shg false false,
   .shg true true, .latch .both, eSet eX 23, .stb .both .plus .plus, eJmp b jXDEC 38, .mov eX eU2 0, eJmp b jZ 115]

/-- The gain of the strip tiles, then COUNT strips: W counts them, and each takes a pending edge and both strip rows. A
count register FC below the last one seen tells a new start tick. -/
def stripRows (b : Nat) : List EIns :=
  [.mov eRT eU2 0, .mov eRB eU3 0, .mov eT eU0 0, .shg false false, eSet eT 63, .mov eT eU1 2, .shg true true,
   .latch .both, eSet eW 0xFF80, .seth 2 0xFFFF#16, .mov eW eU1 3, .mov eY eFC 0, eSet eX 0xFF00, .mov eX eU0 3,
   .mov eX eSTAT 3, eJmp b jNZ 62, .mov eX eFC 0, eJmp b jXLTY 0, .mov eY eX 0, eJmp b jALWAYS 54, .mov eX eFC 0,
   eJmp b jXLTY 0, .mov eY eX 0, .stb .both .plus .plus]

/-- The line's edge is cleared; the strip's second row; after COUNT strips, the wait for the start tick, which is the
frame's end unless a strip was counted that the device did not read. -/
def stripEnds (b : Nat) : List EIns :=
  [eSet eX 0x0F00, .mov eX eU0 3, eJmp b jZ 86, eSet eX 0x0300, .mov eX eU0 3, eJmp b jZ 79, eSet eX 0x0100, .mov eX eU0 3,
   eJmp b jZ 77, .wait 3 0#16, eJmp b jALWAYS 102, .wait 3 1#16, eJmp b jALWAYS 102, eSet eX 0x0400, .mov eX eU0 3,
   eJmp b jZ 84, .wait 3 2#16, eJmp b jALWAYS 102, .wait 3 3#16, eJmp b jALWAYS 102, eSet eX 0x3000, .mov eX eU0 3,
   eJmp b jZ 96, eSet eX 0x1000, .mov eX eU0 3, eJmp b jZ 94, .wait 3 4#16, eJmp b jALWAYS 102, .wait 3 5#16,
   eJmp b jALWAYS 102, eSet eX 0x4000, .mov eX eU0 3, eJmp b jZ 101, .wait 3 6#16, eJmp b jALWAYS 102, .wait 3 7#16,
   .mov eX eY 0, eJmp b jZ 25, .stb .both .minus .minus, eAdd eW (-128), eJmp b jNZ 54, eSet eW 14000,
   .mov eX eFC 0, eJmp b jXLTY 0, .mov eY eX 0, eAdd eW (-1), eJmp b jNZ 108, eSet eW 128, eJmp b jALWAYS 54,
   .wait 0 0#16]

/-! ## Standard programs -/

/-- Where the standard program of a mode lies. -/
def stdBase : Nat → Nat
  | 0 => 0 | 1 => 128 | 2 => 512 | _ => 384

/-- The standard program of a mode. (DESIGN CHOICE, log entry 43.) -/
def stdProgram (mode : Nat) : List Word :=
  match mode with
  | 0 => stdFrame
  | 1 => (stdWindow 128).map fun i => eEncode i 0
  | 2 => (stripArms 512 ++ stripRows 512 ++ stripEnds 512).map fun i => eEncode i 0
  | _ => (stdTrig 384).map fun i => eEncode i 0

/-- The wrap window of a mode's standard program: last and first address. -/
def stdWrap (mode : Nat) : Nat × Nat :=
  if mode = 0 then (34, 5) else (stdBase mode + (stdProgram mode).length - 1, stdBase mode)

/-- Load a program into an engine; words of the active wrap window of one that runs stay (R192, R199). -/
def loadProgram (e base : Nat) (ws : List Word) (d : Dev) : Dev :=
  ws.zipIdx.foldl (fun d w =>
    if (d.engine e).imemOpen (base + w.2) then d.putWord (imemAddr e (base + w.2)) w.1 else d) d

/-- odo_strip, strobe on a trigger line, and sync_out, assembled from their listings. -/
def pinProgram (fn line : Nat) : List Nat :=
  match fn with
  | 1 => [0x2040, 0xB001, 0x5021, 0x5069, 0x307F, 0x5041, 0xC000, 0x2040, 0x5001, 0x3041, 0x5001]
  | 2 => [0x6080 + 8 * min 7 line, 0x8011, 0x7080, 0x8010, 0x5000]
  | _ => [0x60C0, 0x8011, 0xD001, 0x7080, 0x8010, 0x5000]

def loadPin (e : Nat) (ws : List Nat) (d : Dev) : Dev :=
  ws.zipIdx.foldl (fun d w => d.setFi PE_IMEM_WORD e w.2 w.1) d

end Sys2Proof.Machine
end

