-- ==== Sys2Proof/Machine/FrameStart.lean ====
section
/-! DEFINITION. Start ticks: the first one, the ones that begin a frame and the stop tick, with all that
falls on them (R32, R33, R37, R140, R141, R158 to R160, R172, R200 to R205, R223, R225). -/
namespace Sys2Proof.Machine

/-! ## Engines and tiles at the tick -/

/-- Engines that stop at this tick, and the events of their stripes (R160, R161). -/
def enginesOff (off : Nat → Bool) (d : Dev) : Dev :=
  let d := ((List.range 96).filter off).foldl (fun d e =>
    let d := engStopTick e d
    if d.enabled (engPage e) then d else d.setHf (engPage e) HD_PAGE_STAT_ACTIVE 0) d
  (d.eventTiles.filter fun t => off (t % 96)).foldl (fun d t => cancelTile t d) d

/-- Is the engine's EN clear? -/
def Dev.engineOff (d : Dev) (e : Nat) : Bool := !d.enabled (engPage e)

/-- An event of tile `x` as it stands when start tick `k` begins a frame: what is done with is forgotten.
A strip that is exposing or unread belongs to the new frame; a strip event lapses, and one that is exposing
runs to its TX only. -/
def rollEvent (strip : Bool) (k read : Nat) (x : TileSt) (v : ShutEv) : Option ShutEv :=
  if strip && v.line.isSome then
    if v.frame.isNone then none
    else if !v.finished || (x.unread != 0 && v.strip = x.strip) then
      some { v with frame := some k, strip := v.strip - read, lapsed := true }
    else none
  else
    match v.frame with
    | some j => if v.finished && decide (j < k) then none else some v
    | none => some v

def rollTile (strip : Bool) (k read : Nat) (x : TileSt) : TileSt :=
  { x with events := x.events.filterMap (rollEvent strip k read x),
           strip := if strip then x.strip - read else x.strip }

def rollTiles (strip : Bool) (k read : Nat) (d : Dev) : Dev :=
  (d.ary.tiles.map (·.1)).foldl (fun d t => d.setTile t (rollTile strip k read (d.tile t))) d

/-- Engines that run on see a start tick that is not their first (R158), and their sweeps begin. -/
def notFirst (d : Dev) : Dev :=
  d.eng.foldl (fun d (e : Nat × EngSt) => d.setEngine e.1 { d.engine e.1 with first := false }) d
def sweepAll (d : Dev) : Dev := (List.range 96).foldl (fun d e => sweepStart e d) d

/-- An STB that waits for a pass that the frame now being read does not have ends (R164).
(DEDUCED, log entry 53.) -/
def strobesLost (d : Dev) : Dev :=
  (List.range 96).foldl (fun d e =>
    let g := d.engine e
    if g.state = engSTROBE ∧ d.curM ≤ g.p then rowLost e (d.engDelay e) d else d) d

/-! ## The schedule -/

/-- Grid points between the last start tick and this one (R202). (DEDUCED, log entry 51.) -/
def Dev.slotSkips (d : Dev) : Nat :=
  if d.sched = schedPERIODIC ∧ d.a ARY_FRAME_PERIOD ≠ 0 ∧ d.inFrame then
    (d.cyc - d.ary.lastTick - 1) / d.ary.period
  else 0

def slotSkip (d : Dev) : Dev := ((d.bump ARY_SLOT_SKIP).raise ARY_IRQ_RAW_SLOT_SKIP).emit 0x043 .ary

/-- Grid points passed over: each is counted, and the next frame is marked. -/
def slotSkipAll (d : Dev) : Dev :=
  let n := d.slotSkips
  if n = 0 then d
  else (List.range n).foldl (fun d _ => slotSkip d) (d.onAry fun a => { a with skipped := true })

/-- Commits apply at the tick; a change of P moves the anchor, and the throttle's extension follows (R37, R201). -/
def tickCommits (d : Dev) : Dev :=
  let p := d.periodP
  let d := boundary (!d.readingNow) d
  let d := if d.periodP = p then d else d.onAry fun a => { a with anchor := d.cyc }
  setRowExt (d.onAry fun a => { a with period := d.periodTicks })

/-- What every start tick does besides: a pin engine's START, a phase step, blocks that stop, the
request it serves. -/
def tickCommon (d : Dev) : Dev :=
  let d := stopPages (slewBegin (peStartTick d))
  (d.setF TRG_TRIG_STAT_PEND 0).onAry fun a => { a with request := none }

/-- The row clock begins at this tick: B_0. -/
def clockStart (cur : Option Nat) (armOnly : Bool) (d : Dev) : Dev :=
  d.onAry fun a => { a with k := a.k + 1, lastTick := d.cyc, cur, armOnly, pass := 0, offered := 0, passB := [d.cyc],
                            lastB := d.cyc, rowPer := d.tRow + d.rowExt, complete := false, dark := [], bucket := 0,
                            bucketAt := d.cyc, nsub := some (d.a EXP_EXP_CFG_NSUB), slots := (List.range 4).map (d.ak EXP_SLOT), ctxBank := d.activeBank, ctxSeq := d.f EXP_CTX_SEQ }

/-! ## The first start tick (R141, R159, R200) -/

def firstTick (d : Dev) : Dev :=
  let d := tickCommits d
  let d := (d.setF ARY_RUN_STAT_STATE runRUNNING).raise ARY_IRQ_RAW_STARTED
  let d := d.onAry fun a => { a with anchor := d.cyc, period := d.periodTicks }
  let d := enginesOff d.engineOff (notFirst d)
  let d := clockStart none true (tickCommon d)
  let d := (List.range 96).foldl (fun d e => engStart e d) d
  let d := rollTiles (d.sched = schedSTRIP) d.ary.k 0 d
  sweepAll (placeAll d.ary.k d.cyc d)

/-! ## A frame begins (R34, R39, R146, R205) -/

/-- The frame's record in the frame table. -/
def newFrame (u k : Nat) (d : Dev) : Dev :=
  let a := d.ary
  let strip := d.sched = schedSTRIP
  let flags := SMap.get zeroNat a.preFlags k
  let flags := if a.skipped then orBit flags ffSLOT_SKIPPED else flags
  let flags := if d.f EXP_AE_STAT_STALE = 1 then orBit flags ffAE_STALE else flags
  let f : Frame :=
    { fid := d.frameSeq, gen := d.f SYS_GEN, stamp := d.stamp, start := d.cyc, k, m := d.mSub,
      rows := d.a ARY_PASS_CFG_ROWS, tenBit := d.a ARY_ADC_CFG_MODE = 1, sched := d.sched, bank := a.ctxBank,
      ctxSeq := a.ctxSeq, ctxs := d.bankWords a.ctxBank, flags, once := SMap.get (noList Nat) a.preOnce k, stripRateOff := strip && a.stripFast }
  let d := { d.setFrame u f with nextFrame := u + 1 }
  d.onAry fun a => { a with preFlags := SMap.erase a.preFlags k, preOnce := SMap.erase a.preOnce k, skipped := false }

/-- What the array keeps from frame to frame: column offsets (R119), strips (R225, R572) and the count of
frames of the auto-exposure loop (R152, R153). -/
def nextAry (runs : Bool) (a : ArySt) : ArySt :=
  { a with fresh := a.fresh && !a.freshUsed, freshUsed := false,
           stripsBegun := a.stripsBegun - a.stripsRead, stripsRead := 0, stripFast := false,
           aeIdle := if runs then a.aeIdle + 1 else 0 }

def beginFrame (d : Dev) : Dev :=
  let u := d.nextFrame
  let k := d.ary.k + 1
  let read := d.ary.stripsRead
  let seq := d.frameSeq + 1
  let d := (d.setF ARY_FRAME_SEQ_LO seq).setF ARY_FRAME_SEQ_HI (seq / 2 ^ 32)
  let d := d.setF ARY_PERIOD_ACT (d.cyc - d.ary.lastTick)
  let d := newFrame u k d
  let runs := d.aeRuns
  let d := clockStart (some u) false (tickCommon (d.onAry (nextAry runs)))
  let d := d.mapFrame u fun f =>
    { f with xs := (List.range f.m).map fun i => slotEnd (d.passStart i) - d.cyc }
  let d := rollTiles (d.sched = schedSTRIP) k read d
  burstStart u (sweepAll (placeAll k d.cyc (strobesLost d)))

/-- A start tick on which a frame is read. -/
def frameTick (d : Dev) : Dev :=
  let d := tickCommits (slotSkipAll d)
  beginFrame (prune (enginesOff d.engineOff (notFirst d)))

/-! ## The stop tick (R160, R204, R228) -/

/-- The stop tick: commits apply first, a wrap pair among them while the engine still runs, and then the engines stop.
(DEDUCED, log entry 51; DESIGN CHOICE, log entry 116.) -/
def stopTick (d : Dev) : Dev :=
  let d := tickCommon (tickCommits (slotSkipAll d))
  let d := burstStop (sweepAll (enginesOff (fun _ => true) d))
  let d := d.onAry fun a => { a with cur := none, armOnly := false, preFlags := [], preOnce := [] }
  aryStopped d

/-! ## START_TICK -/

/-- May readout start at this tick (R200)? For TOD, the tick lies on the grid from T_a. (DEDUCED, log entry 51.) -/
def Dev.firstDue (d : Dev) : Bool :=
  let after := decide (d.ary.startAt + 750 ≤ d.cyc)
  match d.f ARY_START_CFG_SRC with
  | 0 => after
  | 1 => match d.ary.startTa with
    | some t => after && ((d.cyc : Int) - t) % (d.periodTicks : Int) = 0
    | none => false
  | _ => match d.ary.startTrt with
    | some t => decide (t ≤ d.cyc)
    | none => false

/-- Is this tick the stop tick (R204)? -/
def Dev.stopDue (d : Dev) : Bool :=
  if d.sched = schedPERIODIC then d.nextStart.any fun t => t ≤ d.cyc
  else d.ary.cur.isNone || decide (d.frameEnd ≤ d.cyc)

/-- Does the grid of a periodic schedule with a FRAME_PERIOD take in this tick (R201)? -/
def Dev.onGrid (d : Dev) : Bool :=
  d.sched != schedPERIODIC || d.a ARY_FRAME_PERIOD = 0 || (d.cyc - d.ary.anchor) % d.ary.period = 0

/-- Is a start tick due: the first one (R200); or, with the frame being read at its end, the schedule's next one or the
stop tick (R201, R202, R204, R218, R225)? (DEDUCED, log entry 51.) -/
def Dev.tickDue (d : Dev) : Bool :=
  if d.runState = runARMED then d.firstDue
  else if d.runState = runSTOPPED ∨ (d.ary.cur.isSome ∧ d.ary.complete = false) ∨ d.onGrid = false then false
  else if d.runState = runSTOPPING then d.stopDue
  else d.nextStart.any fun t => t ≤ d.cyc

/-- (DEDUCED, log entry 51.) -/
def startTick (d : Dev) : Dev :=
  if d.tickDue = false then d
  else if d.runState = runARMED then firstTick d
  else if d.runState = runSTOPPING then stopTick d
  else frameTick d

/-- START_TICK. -/
def execStartTick (s : State) : Out := onDev startTick s

end Sys2Proof.Machine
end

