-- ==== Sys2Proof/Machine/Tick.lean ====
section
/-! DEFINITION. A tick of the timebase with all that falls on it, and an iteration of the auto-exposure
loop (R33, R147, R149 to R152, R216, R242, R246, R467, R472, R473). -/
namespace Sys2Proof.Machine

/-! ## TIMEBASE_TICK -/

/-- The aligned PPS at the trigger lines and at the pin engines. -/
def alignedPps (x : Dev × Recorder) : Dev × Recorder :=
  let x := pulseLines (fun d k => d.ak TRG_LINE_CFG_SRC k = 4) x.1.cyc x
  (peEvent .pps x.1, x.2)

/-- What happens at every tick: pin engines whose EN was cleared stop, a phase step moves on, the row clock of the
first start tick runs, and T_a of a TOD start occurs. While no frame is being read, commits apply, blocks stop and a
phase step begins (R33). -/
def tickWork (d : Dev) : Dev :=
  let d := todArms false (armClock (peStopTick (slewTick d)))
  if d.readingNow then stopIdle d else slewBegin (stopIdle (boundary true d))

/-- (DESIGN CHOICE, log entries 4 and 37.) -/
def timebaseTick (x : Dev × Recorder) : Dev × Recorder :=
  let (d, pps) := tickTime x.1
  let x := if pps then alignedPps (d, x.2) else (d, x.2)
  (tickWork x.1, x.2)

/-- TIMEBASE_TICK. -/
def execTimebaseTick (s : State) : Out := onRec timebaseTick s

/-! ## Writing contexts -/

/-- Replace the words of a stretch of the register map; the words come in rising order of address. -/
def Dev.spliceWords (d : Dev) (lo hi : Nat) (ws : List (Nat × Word)) : Dev :=
  { d with regs := (d.regs.filter fun p => p.1 < lo) ++ ws.filter (fun p => p.2 != resetWord p.1) ++
                   (d.regs.filter fun p => hi ≤ p.1) }

/-- COPY, then every tile of the inactive bank as `f` makes it from its context; BANK_SEL names that bank. -/
def writeContexts (f : Nat → List Word → List Word) (d : Dev) : Dev :=
  let b := 1 - d.activeBank
  let lo := 0x100000 + b * 6144 * 16
  let ws := (List.range 6144).flatMap fun t =>
    (f t (d.ctxWords d.activeBank t)).zipIdx.map fun w => (lo + 16 * t + 4 * w.2, w.1)
  (d.spliceWords lo (lo + 6144 * 16) ws).setF EXP_CTX_CTRL_BANK_SEL b

/-- May firmware write the inactive bank now (R142, R143)? -/
def Dev.bankFree (d : Dev) : Bool := d.f EXP_CTX_CTRL_COPY_BUSY = 0 && !d.bankHeld (1 - d.activeBank)

/-! ## AE_ITERATION (R149 to R152) -/

/-- A context with the loop's values: DUR0, CG, gain codes and tag. -/
def aeContext (v : AeSet) (tag : BitVec 8) (ws : List Word) : List Word :=
  [v.dur0, (ws[1]?).getD 0#32, setBits ((ws[2]?).getD 0#32) 11 8 v.cg.toNat,
   setBits (setBits ((ws[3]?).getD 0#32) 15 8 tag.toNat) 31 16 v.gains.toNat]

/-- What firmware received last of pass 0. -/
def Dev.aeRecs (d : Dev) : RecSet := SMap.get noRecs d.recs 0

/-- A tile that the loop carries over: locked, in reset, or without statistics of pass 0 in the frame. -/
def Dev.aeCarried (d : Dev) (t : Nat) : Bool :=
  let c := d.ctxWords d.activeBank t
  ctxLock c || ctxRstHold c || match d.aeRecs.recs[t]? with | some r => r.absent | none => true

/-- Gain code of E`i` in a set. -/
def aeGain (v : AeSet) (i : Nat) : Nat := v.gains.toNat / 16 ^ i % 16

/-- Largest DUR0 and gain code that the loop uses. Order 2 uses no gain. (DESIGN CHOICE, log entry 117.) -/
def Dev.aeDurTop (d : Dev) : Nat := if d.f EXP_AE_DUR_MAX = 0 then d.ak EXP_SLOT 0 else d.f EXP_AE_DUR_MAX
def Dev.aeGainTop (d : Dev) : Nat := if d.f EXP_AE_POLICY_ORDER = 2 then 0 else d.f EXP_AE_POLICY_GAIN_MAX

/-- The limits on DUR0 and on the gain codes in use (R151). -/
def Dev.aeInLimits (d : Dev) (dur0 : Nat) (gains : List Nat) : Bool :=
  decide (d.f EXP_AE_DUR_MIN ≤ dur0) && decide (dur0 ≤ d.aeDurTop) && gains.all fun g => decide (g ≤ d.aeGainTop)

/-- Do two effective exposures, to the fourth power, differ by at most `n` quarter stops? -/
def within4 (n h k : Nat) : Bool := decide (h ≤ k * 2 ^ n) && decide (k ≤ h * 2 ^ n)

/-- H0 of a set, to the fourth power. -/
def aeH4 (v : AeSet) : Nat := effH4 v.dur0.toNat (v.cg.toNat.testBit 0) (aeGain v 0)

/-- Tiles beside a tile. -/
def tileNear (t : Nat) : List Nat :=
  (if t % 96 = 0 then [] else [t - 1]) ++ (if t % 96 = 95 then [] else [t + 1]) ++
    (if t < 96 then [] else [t - 96]) ++ if 6048 ≤ t then [] else [t + 96]

/-- Are the durations of two contexts within ADJ_MAX in each sub-exposure that both take? -/
def Dev.aeAdjacent (d : Dev) (c e : List Word) : Bool :=
  ((ctxSubs c).filter fun i => (ctxSub e).testBit i).all fun i =>
    within4 (d.f EXP_AE_CFG_ADJ_MAX) (ctxDur c i ^ 4) (ctxDur e i ^ 4)

/-- A duration a quarter stop longer. -/
def quarterUp (dur : Nat) : Nat := dur * 32768 / 27554 + 1

/-- What a tile or a frame shows: its mean green code, whether more than 1/256 of its pixels are at full scale, and the
least and the greatest H0 that exposed it, to the fourth power (R150). -/
structure AeSeen where
  mean : Rat
  sat : Bool
  low4 : Nat
  top4 : Nat

/-- The H0, to the fourth power, that puts the mean green level of what was exposed with `h4` at TARGET, within one step
from `old`, if there is an earlier one, and within the limits. The level counts from the pedestal.
(DEDUCED, log entry 64.) -/
def Dev.aeGoal (d : Dev) (old : Option Nat) (mean : Rat) (h4 : Nat) : Rat :=
  let r := d.aeRecs
  let target : Rat := max 0 (((d.f EXP_BASIC_AE_TARGET * 2 ^ r.bits : Nat) : Rat) / 256 - (r.ped : Nat))
  let step : Rat := ((2 ^ d.f EXP_AE_CFG_STEP_MAX : Nat) : Rat)
  let most : Rat := (effH4 d.aeDurTop true d.aeGainTop : Nat)
  let least : Rat := (effH4 (d.f EXP_AE_DUR_MIN) false 0 : Nat)
  let top : Rat := match old with | some o => min ((o : Nat) * step) most | none => most
  let low : Rat := match old with | some o => max ((o : Nat) / step) least | none => least
  let m := mean - (r.ped : Nat)
  let want := if m ≤ 0 then top else (h4 : Nat) * (target / m) ^ 4
  max low (min top want)

/-- Does a new H0 serve what is seen: within a quarter stop of the goal, above it where a limit holds it up, or below it
where one holds it down or where pixels at full scale ask for less? With such pixels it is lowered.
(DESIGN CHOICE, log entry 117.) -/
def Dev.aeServes (d : Dev) (old : Option Nat) (new : Nat) (up down : Bool) (s : AeSeen) : Bool :=
  (decide (((new : Nat) : Rat) ≤ 2 * d.aeGoal old s.mean s.top4) || up) &&
    (decide (d.aeGoal old s.mean s.low4 ≤ 2 * ((new : Nat) : Rat)) || down || s.sat) &&
    (!s.sat || up || decide (new < old.getD s.top4) || decide (new ≤ 2 * effH4 (d.f EXP_AE_DUR_MIN) false 0))

/-- Does a set use its means in the order of AE_POLICY.ORDER, where `may` says which DUR0 the limits allow? By order 0 HCG
is used where four times the duration is not allowed, by order 1 LCG where a quarter is not, and by both gain where HCG is
on and no longer duration is allowed (R148, R155). (DESIGN CHOICE, log entry 117.) -/
def Dev.aeOrdered (d : Dev) (may : Nat → Bool) (dur : Nat) (hcg : Bool) (gains : List (Bool × Nat)) : Bool :=
  let last := gains.all fun g => g.2 = 0 || (g.1 && !may (quarterUp dur))
  match d.f EXP_AE_POLICY_ORDER with
  | 0 => (!hcg || !may (4 * dur)) && last
  | 1 => (hcg || !may (dur / 4)) && last
  | _ => true

/-- Is a set at the most that the limits allow: no longer duration, HCG on and the gain at its top? -/
def Dev.aeAtTop (d : Dev) (may : Nat → Bool) (dur : Nat) (hcg : Bool) (gain : Nat) : Bool :=
  !may (quarterUp dur) && hcg && gain = d.aeGainTop

/-- What the record of a tile shows. -/
def Dev.aeTileSeen (d : Dev) (t : Nat) : Option AeSeen :=
  match d.aeRecs.recs[t]? with
  | some r =>
    if r.nG = 0 then none
    else
      let c := ({ bank := d.aeRecs.bank, ctxs := d.aeRecs.ctxs } : Frame).ctxWords t
      some { mean := ((r.sumG : Nat) : Rat) / (r.nG : Nat), sat := decide (r.nG < 256 * r.nSat), low4 := ctxH4 c 0,
             top4 := ctxH4 c 0 }
  | none => none

/-- A context with another DUR0. -/
def withDur0 (e : List Word) (dur : Nat) : List Word := BitVec.ofNat 32 dur :: e.drop 1

/-- Do the limits on DUR0 and the slots allow a context a duration? (DEDUCED, log entry 64.) -/
def Dev.aeDurOk (d : Dev) (e : List Word) (dur : Nat) : Bool :=
  decide (d.f EXP_AE_DUR_MIN ≤ dur) && decide (dur ≤ d.aeDurTop) && ctxValid d.mSub (withDur0 e dur) &&
    ctxFits (d.ak EXP_SLOT) (withDur0 e dur)

/-- CG and gain code of a context's sub-exposures. -/
def ctxGains (e : List Word) : List (Bool × Nat) := (ctxSubs e).map fun i => ((ctxCg e).testBit i, ctxG e i)

/-- Does a tile lie above its goal? -/
def Dev.aeOver (d : Dev) (new : Nat → List Word) (t : Nat) : Bool :=
  match d.aeTileSeen t with
  | some s => decide (d.aeGoal (some (ctxH4 (d.ctxWords d.activeBank t) 0)) s.mean s.top4 < (ctxH4 (new t) 0 : Nat))
  | none => false

/-- Does ADJ_MAX hold a tile above its goal: with LCG and no gain, a shorter duration would leave a neighbour behind that
the loop cannot shorten, because it is carried over or held so itself (R151)? (DEDUCED, log entry 64.) -/
def Dev.aeHeldUp (d : Dev) (new : Nat → List Word) (t : Nat) : Bool :=
  let e := new t
  let less := withDur0 e (ctxDur0 e * 27554 / 32768)
  !(ctxCg e).testBit 0 && ctxG e 0 = 0 &&
    (tileNear t).any fun n => !d.aeAdjacent less (new n) && (d.aeCarried n || d.aeOver new n)

/-- Does a tile that is not carried over keep the limits and the order of an iteration, and serve its statistics? -/
def Dev.aeTileOk (d : Dev) (new : Nat → List Word) (t : Nat) : Bool :=
  let c := d.ctxWords d.activeBank t
  let e := new t
  let near := (tileNear t).map new
  let may (dur : Nat) : Bool := d.aeDurOk e dur && near.all (d.aeAdjacent (withDur0 e dur))
  d.aeInLimits (ctxDur0 e) ((ctxSubs e).map (ctxG e)) && within4 (d.f EXP_AE_CFG_STEP_MAX) (ctxH4 e 0) (ctxH4 c 0) &&
    near.all (d.aeAdjacent e) && d.aeOrdered may (ctxDur0 e) ((ctxCg e).testBit 0) (ctxGains e) &&
    match d.aeTileSeen t with
    | some s =>
      d.aeServes (some (ctxH4 c 0)) (ctxH4 e 0) (d.aeHeldUp new t)
        (d.aeAtTop may (ctxDur0 e) ((ctxCg e).testBit 0) (ctxG e 0)) s
    | none => true

/-- Does a per-tile iteration keep its limits (R147, R150, R151)? Tiles it does not list keep their values, and are
held to the limits too. (DEDUCED, log entry 64.) -/
def Dev.aeTilesOk (d : Dev) (chs : List (Fin 6144 × AeSet)) : Bool :=
  let new (t : Nat) : List Word :=
    let c := d.ctxWords d.activeBank t
    match chs.find? fun p => p.1.val = t with
    | some p => aeContext p.2 0 c
    | none => c
  chs.all (fun p => !d.aeCarried p.1) &&
    (List.range d.aeRecs.recs.length).all fun t => d.aeCarried t || d.aeTileOk new t

/-- H0 of the exposures, to the fourth power, with which the frame's tiles were exposed that the loop sets and that the
frame AE histogram counts. -/
def Dev.aeFrameH4 (d : Dev) : List Nat :=
  let f : Frame := { bank := d.aeRecs.bank, ctxs := d.aeRecs.ctxs }
  (List.range d.aeRecs.recs.length).filterMap fun t =>
    if d.aeCarried t || ctxExcl (f.ctxWords t) then none else some (ctxH4 (f.ctxWords t) 0)

/-- What the frame AE histogram shows, with the exposures that exposed the frame. -/
def Dev.aeFrameSeen (d : Dev) : Option AeSeen :=
  let bins := d.aeRecs.ae
  let n := bins.foldl (· + ·) 0
  match d.aeFrameH4 with
  | [] => none
  | h :: hs =>
    if n = 0 then none
    else
      let sum := (bins.zipIdx).foldl (fun s b => s + b.1 * (2 * b.2 + 1)) 0
      some { mean := ((sum * 2 ^ d.aeRecs.bits : Nat) : Rat) / ((512 * n : Nat) : Rat), low4 := hs.foldl min h,
             top4 := hs.foldl max h, sat := decide (n < 256 * bins.getD 255 0) }

/-- H0 of the set of the iteration before, to the fourth power. -/
def Dev.aeOld (d : Dev) : Option Nat := d.ary.aeSet.map fun (dur, cg, g) => effH4 dur (cg.testBit 0) (g % 16)

/-- Does the set of a global iteration keep its limits and the order, and serve the frame's statistics (R150, R151)? Its
step counts from the set before, if there is one, and its goal from what exposed the frame. (DEDUCED, log entry 64.) -/
def Dev.aeGlobalOk (d : Dev) (v : AeSet) : Bool :=
  let dur := v.dur0.toNat
  let hcg := v.cg.toNat.testBit 0
  let es := ((List.range d.aeRecs.recs.length).filter fun t => !d.aeCarried t).map fun t =>
    aeContext v 0 (d.ctxWords d.activeBank t)
  let may (dur : Nat) : Bool :=
    decide (d.f EXP_AE_DUR_MIN ≤ dur) && decide (dur ≤ d.aeDurTop) && es.all fun e => d.aeDurOk e dur
  d.aeInLimits dur ((List.range d.mSub).map (aeGain v)) &&
    d.aeOrdered may dur hcg ((List.range d.mSub).map fun i => (v.cg.toNat.testBit i, aeGain v i)) &&
    (match d.aeOld with | some old => within4 (d.f EXP_AE_CFG_STEP_MAX) (aeH4 v) old | none => true) &&
    match d.aeFrameSeen with
    | some s => d.aeServes d.aeOld (aeH4 v) false (d.aeAtTop may dur hcg (aeGain v 0)) s
    | none => true

/-- May an iteration begin: the loop runs, the statistics of the frame last read have come, no iteration was computed
from it or from one of the PERIOD frames before it, and no commit of EXP is under way (R149, R152)? -/
def Dev.aeMayBegin (d : Dev) : Bool :=
  d.aeRuns && d.bankFree && d.ary.lastRead = some d.aeRecs.k &&
    (match d.ary.aeFrom with
      | some k => decide (k + d.f EXP_AE_CFG_PERIOD < d.aeRecs.k)
      | none => true) &&
    !(inForce (d.comState .exp) || d.comState .exp = comCHECKING)

/-- The result is written and its commit key is. (DEDUCED, log entry 64.) -/
def aeCommit (f : Nat → List Word → List Word) (tag : BitVec 8) (d : Dev) : Dev :=
  let d := (writeContexts f d).onAry fun a => { a with aePend := some tag.toNat, aeFrom := a.lastRead }
  keyWritten .exp d

/-- (DEDUCED, log entry 64.) -/
def aeIteration (r : AeResult) (tag : BitVec 8) (d : Dev) : Dev :=
  if d.aeMayBegin = false then d
  else match r with
    | .tiles chs =>
      if d.f EXP_BASIC_AE_MODE = 1 ∧ d.aeTilesOk chs then
        aeCommit (fun t c => match chs.find? fun p => p.1.val = t with
          | some p => aeContext p.2 tag c
          | none => c) tag d
      else d
    | .all v =>
      if d.f EXP_BASIC_AE_MODE = 2 ∧ d.aeGlobalOk v then
        let d := aeCommit (fun t c => if d.aeCarried t then c else aeContext v tag c) tag d
        d.onAry fun a => { a with aeSet := some (v.dur0.toNat, v.cg.toNat, v.gains.toNat) }
      else d

/-- AE_ITERATION, with what firmware computed. -/
def execAeIteration (r : AeResult) (tag : BitVec 8) (s : State) : Out := onDev (aeIteration r tag) s

end Sys2Proof.Machine
end

