-- ==== Sys2Proof/Machine/Translate.lean ====
section
/-! DEFINITION. Firmware's translation of basic fields into expert fields (R72 to R75, R156, R199, R212,
R231, R233, R254, R276, R310, R313, R327, R349, R356, R396, R425, R427, R459, R481,
R483, R507, R535, R584). A translation reads other pages as the host reads them: their shadow values. -/
namespace Sys2Proof.Machine

/-! ## Pages whose translation only writes fields -/

def trgWrites (d : Dev) : List FWrite :=
  if d.on TRG_BASIC_TRIG_EN then
    [{ F := TRG_LINE_CFG_SRC, v := 1 }, { F := TRG_LINE_CFG_PIN, v := d.f TRG_BASIC_TRIG_PIN },
     { F := TRG_LINE_CFG_EDGE, v := d.f TRG_BASIC_TRIG_FALL }, { F := TRG_MODE_CFG_LINE, v := 0 }]
  else [{ F := TRG_LINE_CFG_SRC, v := 0 }]

def nrdWrites (d : Dev) : List FWrite :=
  match d.f NRD_BASIC_NR_LEVEL with
  | 0 => [{ F := NRD_SPAT_STR, v := 0 }, { F := NRD_TEMP_EN, v := 0 }]
  | 1 => [{ F := NRD_SPAT_STR, v := 6 }, { F := NRD_TEMP_EN, v := 1 }, { F := NRD_TEMP_A_MIN, v := 0x80 }]
  | 2 => [{ F := NRD_SPAT_STR, v := 10 }, { F := NRD_TEMP_EN, v := 1 }, { F := NRD_TEMP_A_MIN, v := 0x40 }]
  | _ => [{ F := NRD_SPAT_STR, v := 16 }, { F := NRD_TEMP_EN, v := 1 }, { F := NRD_TEMP_A_MIN, v := 0x20 }]

def pxcWrites (d : Dev) : List FWrite :=
  [{ F := PXC_DEF_CFG_MAP_EN, v := d.f PXC_BASIC_PXC_DEF }, { F := PXC_DEF_CFG_DYN_EN, v := d.f PXC_BASIC_PXC_DEF },
   { F := PXC_LSC_CFG_EN, v := d.f PXC_BASIC_PXC_LSC }] ++
  if d.on PXC_BASIC_PXC_BL then [{ F := PXC_BL_CFG_MODE, v := 2 }]
  else [{ F := PXC_BL_CFG_MODE, v := 0 }, { F := PXC_BL_FIXED_BL, v := 16 * d.f ARY_ADC_CFG_PEDESTAL }]

def hdrWrites (d : Dev) : List FWrite :=
  [{ F := HDR_CFG_MODE, v := d.f HDR_BASIC_FUSE_SEPARATE }, { F := HDR_MOT_EN, v := d.f HDR_BASIC_FUSE_DEGHOST }]

def staWrites (d : Dev) : List FWrite :=
  let b := d.f STA_BASIC_STA_DELIVER
  [{ F := STA_TILE_CFG_HOST, v := b % 2 }, { F := STA_HW0_EN, v := b / 2 }] ++
  if b / 2 = 0 then []
  else [{ F := STA_HW0_SRC, v := 2 }, { F := STA_HW0_MEMBER, v := 0 }, { F := STA_HW0_TAP, v := 1 },
        { F := STA_HW0_CHAN, v := 3 }, { F := STA_HW0_SCALE, v := 1 }, { F := STA_HW3_LMIN, v := 0 }]

/-- COMPRESS and DETAIL of a tone preset. -/
def tonePreset : Nat → Nat × Nat
  | 0 => (0x80, 0x80) | 1 => (0x4D, 0x9A) | _ => (0x2D, 0xB3)

def vewWrites (d : Dev) : List FWrite :=
  (List.range 2).flatMap fun v =>
    let t := tonePreset (d.fk VEW_BASIC_VIEW_TONE v)
    let cal (F : Fld) (n : Nat) : FWrite := { F, k := v, v := Config.illuminant (d.fk VEW_BASIC_VIEW_PRESET v) n }
    [{ F := VEW_CFG_EN, k := v, v := d.fk VEW_BASIC_VIEW_EN v }, { F := VEW_TONE_COMPRESS, k := v, v := t.1 },
     { F := VEW_TONE_DETAIL, k := v, v := t.2 }, cal VEW_WB_R 0, cal VEW_WB_B 1, cal VEW_WB_G_G 2, cal VEW_CCM0 3,
     cal VEW_CCM1 4, cal VEW_CCM2 5, cal VEW_CCM3 6, cal VEW_CCM4_C22 7]

def hmpWrites (d : Dev) : List FWrite :=
  [{ F := HMP_PRE_MS, v := 1000 * d.f HMP_BASIC_HMP_PRE_S }, { F := HMP_POST_MS, v := 1000 * d.f HMP_BASIC_HMP_POST_S },
   { F := HMP_REGION_HIST_EN, v := d.f HMP_BASIC_HMP_HIST_EN }]

/-- The rate of a lane's basic field, or the highest that its group allows (R428). -/
def laneRate (l r : Nat) : Nat := if l < 20 then (if r = 2 ∨ r = 3 ∨ r = 4 then r else 4) else min r 2

def lnWrites (l : Nat) (d : Dev) : List FWrite :=
  [{ F := LN_CFG_RATE, i := l, v := laneRate l (d.fi LN_BASIC_LANE_RATE l 0) },
   { F := LN_CFG_FEC_REQ, i := l, v := d.fi LN_BASIC_LANE_FEC_REQ l 0 }] ++
  if d.fi LN_BASIC_LANE_SLEEP_EN l 0 = 0 then [{ F := LN_PWR_CFG_SLEEP_US, i := l, v := 0 }]
  else if laneTx l then [{ F := LN_PWR_CFG_SLEEP_US, i := l, v := 10 }]
  else []

/-! ## Clocks, delivery, links, pin engines -/

/-- SATCLK0 to SATCLK7 (R481). -/
def satClocks (f : Nat → Dev → Dev) (d : Dev) : Dev := (List.range 8).foldl (fun d n => f n d) d

def clkTranslate (d : Dev) : Dev :=
  let ref := d.f CLK_BASIC_CLK_REF
  let d := if ref = d.f CLK_REF_CFG_SEL then d else refLost (d.setF CLK_REF_CFG_SEL ref)
  let fmt := d.f CLK_BASIC_CLK_SAT_FMT
  let d := satClocks (fun n d =>
    if d.fk CLK_OUT_CFG_FMT n = fmt then d else (outEnable n false d).setFk CLK_OUT_CFG_FMT n fmt) d
  match d.f CLK_BASIC_CLK_SAT_FREQ with
  | 0 => satClocks (fun n d => outEnable n false d) d
  | v => satClocks (fun n d => outEnable n true (d.setFk CLK_OUT_FREQ_FREQ n (if v = 1 then 250000000 else 1000000000))) d

/-- Firmware writes word 0 of an entry: MAXLEN 4,096, WEIGHT 16, BUF_CAP 16, its class, and EN. -/
def fwQueue (q cls : Nat) (d : Dev) : Dev :=
  queueWrite .fw (BitVec.ofNat 24 (qAddr q 0)) (BitVec.ofNat 32 (2 ^ 20 + 2 ^ 12 + 8 * d.qGet q 0 3 3 + 2 * cls + 1)) d

/-- (DEDUCED, log entry 42.) -/
def dlvTranslate (d : Dev) : Dev :=
  let b := min 8124 (d.f DLV_BASIC_DLV_QBASE)
  let outs := (List.range 64).filter fun n => d.fk GEO_OD0_EN n = 1 && (d.fk GEO_OD3_DEST n).testBit 3
  let d := outs.foldl (fun d n => fwQueue (b + n) 1 (d.setFk DLV_BIND_GEO_QID n (b + n))) d
  let d := (List.range 2).foldl (fun d v => fwQueue (b + 64 + v) 1 (d.setFk DLV_BIND_VIEW v (b + 64 + v))) d
  let d := fwQueue (b + 66) 0 (d.setF DLV_BIND_IRQ_QID (b + 66))
  fwQueue (b + 67) 0 (d.setF DLV_BIND_TIME_QID (b + 67))

/-- Set EN of lane pages. -/
def enableLanes (ls : List Nat) (d : Dev) : Dev := ls.foldl (fun d l => pageEnable .fw (lnPage l) 1#32 d) d

/-- The lane count nearest to a basic value. -/
def laneCount (n : Nat) : Nat := if n ≤ 1 then 1 else if n ≤ 3 then 2 else if n ≤ 6 then 4 else if n ≤ 12 then 8 else 16

/-- (DEDUCED, log entry 44.) -/
def hlpTranslate (d : Dev) : Dev :=
  let n := laneCount (d.f HLP_BASIC_LINK_LANES)
  let d := writeOne .hlp { F := HLP_CFG_TX_LANES, v := n } d
  enableLanes (List.range n ++ (List.range (d.f HLP_CFG_RX_LANES)).map (16 + ·)) d

/-- Loading a pin program (R254); START_AT stays as it is but for FN 3. (DEDUCED, log entry 44.) -/
def peTranslate (e : Nat) (d : Dev) : Dev :=
  let fn := d.fi PE_BASIC_FN_FN e 0
  if fn = 0 ∨ d.enabled (pePage e) then d
  else
    let a := d.fi PE_BASIC_FN_PIN_A e 0
    let b := d.fi PE_BASIC_FN_PIN_B e 0
    let k := d.fi PE_BASIC_FN_PARAM e 0
    let d := (loadPin e (pinProgram fn b) d).setFi PE_PROG_ENTRY e 0 0
    let d := d.setFi PE_K e 0 k
    let out (d : Dev) : Dev :=
      (d.setFi PE_OUT_CFG_PINS e 0 (d.fi PE_OUT_CFG_PINS e 0 / 16 * 16 + a)).setFi PE_OUT_CFG_OEN e 0
        (orBit (d.fi PE_OUT_CFG_OEN e 0) 0)
    match fn with
    | 1 => (d.setFi PE_IN_CFG_QA e 0 a).setFi PE_IN_CFG_QB e 0 b
    | 2 => ((out d).setFi PE_OUT_GUARD_MASK e 0 (orBit (d.fi PE_OUT_GUARD_MASK e 0) 0)).setFi PE_OUT_GUARD_MAX_ON e 0
        ((k + 3 + 255) / 256)
    | _ => (out d).setFi PE_CFG_START_AT e 0 1

/-! ## Satellite ports (R276) -/

/-- Byte `i` of the HELLO payload a port holds, and a little-endian 16-bit field of it. -/
def Dev.helloByte (d : Dev) (p i : Nat) : Nat := d.fi SP_HELLO p ((8 + i) / 4) / 256 ^ (i % 4) % 256
def Dev.hello16 (d : Dev) (p i : Nat) : Nat := d.helloByte p i + 256 * d.helloByte p (i + 1)

/-- One announced virtual sensor: its fields, or an event where depth or CFA is reserved. -/
def helloVs (p v : Nat) (d : Dev) : Dev :=
  let o := 8 + 8 * v
  let w := d.hello16 p o
  let h := d.hello16 p (o + 2)
  let b := d.helloByte p (o + 4)
  let cfa := d.helloByte p (o + 5)
  let set (F : Fld) (x : Nat) (d : Dev) : Dev := d.setFi F p v x
  if w = 0 then set SP_VS_FMT_EN 0 d
  else if ¬ (b = 10 ∨ b = 12 ∨ b = 14) ∨ 4 < cfa then d.emitFw 0x018
  else
    let d := set SP_VS_GEO_HEIGHT h (set SP_VS_GEO_WIDTH w d)
    let d := set SP_VS_FMT_BITS ((b - 10) / 2) (set SP_VS_FMT_CFA cfa d)
    let d := set SP_VS_RATE_RATE (min 65535 ((w * h * d.hello16 p (o + 6) + 99999999) / 100000000)) d
    let d := set SP_VS_FILL_FILL (16 * 4 ^ ((b - 10) / 2)) d
    set SP_VS_FMT_EN (b2n ((d.fi SP_BASIC_PORT_VS_EN p 0).testBit v)) d

/-- (DEDUCED, log entry 44.) -/
def spTranslate (p : Nat) (d : Dev) : Dev :=
  let d := if d.fi SP_BASIC_PORT_VS_EN p 0 = 0 then d else enableLanes [20 + 2 * p, 21 + 2 * p, 36 + p] d
  if d.fi SP_BASIC_PORT_AUTO p 0 = 1 ∧ d.fi SP_HELLO_STAT_VALID p 0 = 1 then
    geoTranslate (fstTranslate ((List.range 4).foldl (fun d v => helloVs p v d) d))
  else d

/-! ## Exposure (R156) -/

/-- m at basic level: strip and triggered modes have one sub-exposure (R199). -/
def Dev.basicM (d : Dev) : Nat := if 2 ≤ d.f ARY_BASIC_MODE_MODE then 1 else d.f EXP_BASIC_HDR_NSUB + 1

/-- T_pass of the shadow set. -/
def Dev.shPass (d : Dev) : Nat := passCycles (d.f ARY_PASS_CFG_ROWS) (rowCycles (d.f ARY_ADC_CFG_MODE = 1))

/-- The largest SLOT0 that check 3 of R144 allows the shadow set, for `m`. -/
def Dev.slotMax (d : Dev) (m : Nat) : Nat :=
  let p := if d.f ARY_FRAME_PERIOD = 0 then m * d.shPass else d.f ARY_FRAME_PERIOD
  p - (m - 1) * d.shPass - 150

/-- A context with basic values: manual duration and gains where given, ratio codes and sub-exposures. -/
def basicContext (manual : Option (Nat × Nat × Nat)) (ratio m : Nat) (ws : List Word) : List Word :=
  let w (n : Nat) : Word := (ws[n]?).getD 0#32
  let q (i : Nat) (x : Word) : Word := if i < m then setBits x (13 + 6 * i) (8 + 6 * i) (min 48 (i * ratio)) else x
  let w2 := q 3 (q 2 (q 1 (w 2)))
  match manual with
  | some (dur, hcg, g) =>
    [BitVec.ofNat 32 dur, setBits (w 1) 3 0 (2 ^ m - 1), setBits w2 11 8 (if hcg = 1 then 15 else 0),
     setBits (w 3) 31 16 (g * 0x1111)]
  | none => [w 0, setBits (w 1) 3 0 (2 ^ m - 1), w2, w 3]

/-- Count the basic values that a limit changed. (DEDUCED, log entry 44.) -/
def countClamp (b : Bool) (d : Dev) : Dev := if b then d.bump EXP_DUR_CLAMP else d

/-- The longest DUR0 with which E`i` of ratio code `q` takes at most `s` cycles. -/
def durFor (s q i : Nat) : Nat := if i = 0 then s else ((s + 1) * 2 ^ (15 + q / 4) - 1) / ratioM (q % 4)

/-- The DUR0 nearest to `want` that fits a tile's slots and keeps its ratio within 4,096:1 (R138, R156). Where a ratio
code is 48, a DUR0 above 300 × 4,096 is a multiple of 4,096. (DEDUCED, log entry 44.) -/
def nearDur (slot : Nat → Nat) (ratio m want : Nat) (ws : List Word) : Nat :=
  let ofs := if ctxAlign ws = 2 then ctxOffset ws else 0
  let q (i : Nat) : Nat := min 48 (i * ratio)
  let top := (List.range m).foldl (fun n i => min n (durFor (slot i - ofs) (q i) i)) (slot 0 - ofs)
  let dur := max 300 (min top want)
  if q (m - 1) < 48 ∨ dur ≤ 300 * 4096 then dur
  else
    let low := dur / 4096 * 4096
    if low + 4096 ≤ top ∧ low + 4096 - dur < dur - low then low + 4096 else low

/-- The ratio nearest to `r` with which a tile's context is valid and fits its slots; `r` where none is.
(DEDUCED, log entry 44.) -/
def nearRatio (slot : Nat → Nat) (r m : Nat) (ws : List Word) : Nat :=
  let ok (n : Nat) : Bool :=
    let c := basicContext none n m ws
    ctxValid m c && ctxFits slot c
  let step (best : Option Nat) (n : Nat) : Option Nat :=
    match best with
    | some b => if (n : Int) - r < ((b : Int) - r).natAbs ∧ (r : Int) - n < ((b : Int) - r).natAbs then some n else some b
    | none => some n
  if ok r then r else (((List.range 49).filter ok).foldl step none).getD r

/-- A tile's context as the basic fields translate it, with what the fields ask taken to the nearest value that can be
carried out (R156). In manual mode the exposure gives way, else the ratio. -/
def basicTile (slot : Nat → Nat) (manual : Option (Nat × Nat × Nat)) (ratio m : Nat) (ws : List Word) : List Word :=
  match manual with
  | some (want, v) => basicContext (some (nearDur slot ratio m want ws, v)) ratio m ws
  | none => basicContext none (nearRatio slot ratio m ws) m ws

/-- Does a limit change what the basic fields ask of a tile? -/
def basicClamped (slot : Nat → Nat) (manual : Option (Nat × Nat × Nat)) (ratio m : Nat) (ws : List Word) : Bool :=
  match manual with
  | some (want, _) => nearDur slot ratio m want ws != want
  | none => decide (1 < m) && nearRatio slot ratio m ws != ratio

/-- Can `m` sub-exposures be carried out: FRAME_PERIOD and the slots meet R144's checks 1 to 3, where the schedule uses
slots at all? Firmware sets SLOT0 itself in manual mode. -/
def Dev.subsFit (d : Dev) (byHand : Bool) (m : Nat) : Bool :=
  decide (2 ≤ d.f ARY_BASIC_MODE_MODE) ||
    ((d.f ARY_FRAME_PERIOD = 0 || decide (m * d.shPass ≤ d.f ARY_FRAME_PERIOD)) && decide (300 ≤ d.slotMax m) &&
      (byHand || (decide (300 ≤ d.fk EXP_SLOT 0) && decide (d.fk EXP_SLOT 0 ≤ d.slotMax m))) &&
      (List.range (m - 1)).all fun i => decide (300 ≤ d.fk EXP_SLOT (i + 1)) && decide (d.fk EXP_SLOT (i + 1) + 150 ≤ d.shPass))

/-- The number of sub-exposures nearest to the one asked for that can be carried out, the lower of two; the one asked
for where none can (R156). (DEDUCED, log entry 44.) -/
def Dev.nearSubs (d : Dev) (byHand : Bool) (m : Nat) : Nat :=
  ([m, m - 1, m + 1, m - 2, m + 2, m - 3, m + 3].find? fun n =>
    decide (1 ≤ n) && decide (n ≤ 4) && d.subsFit byHand n).getD m

/-- (DEDUCED, log entries 42 and 44.) -/
def expTranslate (d : Dev) : Dev :=
  let byHand := d.f EXP_BASIC_AE_MODE = 0
  let m := d.nearSubs byHand d.basicM
  let ratio := d.f EXP_BASIC_HDR_RATIO
  let asked := d.basicM
  let d := d.setF EXP_EXP_CFG_NSUB (m - 1)
  let d := if byHand then d.setFk EXP_SLOT 0 (d.slotMax m) else d
  let manual := if byHand then
      some (750 * d.f EXP_BASIC_MANUAL_EXP_US, d.f EXP_BASIC_GAIN_HCG, d.f EXP_BASIC_GAIN_GAIN)
    else none
  let slot := d.fk EXP_SLOT
  let clamped := (d.firstBad d.activeBank fun _ w => basicClamped slot manual ratio m w).isSome
  let d := countClamp (decide (48 < (m - 1) * ratio) || clamped || m != asked) d
  geoTranslate (fstTranslate (writeContexts (fun _ c => basicTile slot manual ratio m c) d))

/-! ## Windows and modes (R199, R208, R211, R212, R214, R588) -/

/-- Does an enabled window of a sub-exposure in use read tile (`s`, `ty`)? -/
def Dev.windowReads (d : Dev) (s ty : Nat) : Bool :=
  let grp := ctxGrp (d.ctxWords d.activeBank (tileNo s ty))
  (List.range (64 * (d.f EXP_EXP_CFG_NSUB + 1))).any fun k =>
    let x := d.fk WIN_DESC0_X0 k
    let y := d.fk WIN_DESC0_Y0 k
    d.fk WIN_DESC0_EN k = 1 && grp.testBit (d.fk WIN_DESC0_GRP k) &&
      decide (x < 128 * s + 128) && decide (128 * s < x + d.fk WIN_DESC1_W k) &&
      decide (y < 128 * ty + 128) && decide (128 * ty < y + d.fk WIN_DESC1_H k)

/-- Tile rows of a half that a stripe reads, as a mask: bit k for row k of the top half or 32 + k. -/
def Dev.windowMask (d : Dev) (s half : Nat) : Nat :=
  (List.range 32).foldl (fun n k => if d.windowReads s (32 * half + k) then n + 2 ^ k else n) 0

/-- The read set of every stripe, top and bottom. -/
def Dev.readSets (d : Dev) : List (Nat × Nat) := (List.range 96).map fun s => (d.windowMask s 0, d.windowMask s 1)

def bitCount (n : Nat) : Nat := (List.range 32).countP fun k => n.testBit k

/-- The sweep of the standard programs. -/
def sweepAllRows (d : Dev) : Dev :=
  (List.range 96).foldl (fun d e =>
    (((d.setFi ENG_DMA_CFG_FIRST e 0 0).setFi ENG_DMA_CFG_COUNT e 0 64).setFi ENG_DMA_CFG_DIR e 0 0).setFi ENG_DMA_CFG_THR e 0 4) d

/-- Masks of a read set, rows per pass and demand. -/
def writeReadSets (sets : List (Nat × Nat)) (d : Dev) : Dev :=
  let d := sets.zipIdx.foldl (fun d x =>
    ((((d.setFi ENG_U x.2 0 x.1.1).setFi ENG_U x.2 1 x.1.2).setFi ENG_READ_MASK_LO x.2 0 x.1.1).setFi ENG_READ_MASK_HI x.2 0
      x.1.2)) d
  let h := sets.foldl (fun n x => max n (max (bitCount x.1) (bitCount x.2))) 0
  let b := sets.foldl (fun n x => n + (if x.1 = 0 then 0 else 128) + if x.2 = 0 then 0 else 128) 0
  (sweepAllRows (d.setF ARY_PASS_CFG_ROWS (24 + 128 * h))).setF ARY_DEMAND_PX_ROW (max 16384 b)

/-- Full read-out of every tile. -/
def fullRead (d : Dev) : Dev :=
  let all : Nat := 2 ^ 32 - 1
  let d := (List.range 96).foldl (fun d e => (d.setFi ENG_READ_MASK_LO e 0 all).setFi ENG_READ_MASK_HI e 0 all) d
  ((sweepAllRows d).setF ARY_PASS_CFG_ROWS 4120).setF ARY_DEMAND_PX_ROW 24576

/-- Does a stripe read strips? -/
def Dev.stripOn (d : Dev) (e : Nat) : Bool := (d.fk TRG_STRIP_EN (e / 32)).testBit (e % 32)

/-- PX_ROW of std_strip, a whole number, rounded up from R208's rate. (DESIGN CHOICE, log entry 43.) -/
def stripDemand (d : Dev) : Dev :=
  let n := (List.range 96).countP d.stripOn
  d.setF ARY_DEMAND_PX_ROW (max 16384 ((512 * n * rowCycles (d.f ARY_ADC_CFG_MODE = 1) + 749) / 750))

/-- The two strip tile rows of the stripes that read strips, and what std_strip takes from TRG.
(DEDUCED, log entry 44; DESIGN CHOICE, log entry 43.) -/
def stripRead (d : Dev) : Dev :=
  let row (bank : Nat) : Nat := rowY bank (d.f (if bank = 0 then TRG_STRIP_ROW_TOP else TRG_STRIP_ROW_BOT)) / 128
  let on := d.stripOn
  let line := 2 ^ (8 + d.f TRG_MODE_CFG_LINE)
  let count := 128 * d.f TRG_STRIP_CFG_COUNT
  let d := (List.range 96).foldl (fun d e =>
    let u (k v no : Nat) (d : Dev) : Dev := d.setFi ENG_U e k (if on e then v else no)
    let d := u 1 (count + row 1) (count + 64) (u 0 (line + row 0) (line + 64) d)
    let d := u 3 (d.f TRG_STRIP_ROW_BOT) 0 (u 2 (d.f TRG_STRIP_ROW_TOP) 0 d)
    (d.setFi ENG_READ_MASK_LO e 0 (if on e then 2 ^ (row 0 % 32) else 0)).setFi ENG_READ_MASK_HI e 0
      (if on e then 2 ^ (row 1 % 32) else 0)) d
  stripDemand (sweepAllRows d)

/-- Are windows enabled? -/
def Dev.windowsOn (d : Dev) : Bool :=
  (List.range (64 * (d.f EXP_EXP_CFG_NSUB + 1))).any fun k => d.fk WIN_DESC0_EN k = 1

/-- What a mode reads. -/
def modeRead (mode : Nat) (d : Dev) : Dev :=
  match mode with
  | 0 => fullRead d
  | 1 => writeReadSets d.readSets d
  | 2 => stripRead d
  | _ =>
    if d.windowsOn then writeReadSets d.readSets d
    else fullRead ((List.range 96).foldl (fun d e => (d.setFi ENG_U e 0 (2 ^ 32 - 1)).setFi ENG_U e 1 (2 ^ 32 - 1)) d)

/-- APPLY: the derivation of R212, while the EXPERT bits of ARY and WIN are 0; the outputs follow the windows
whatever ARY's is (R337). The triggered mode without windows reads every tile (R588), and the strip mode ignores the
descriptors (R230). Where EXPERT is cleared with APPLY 0, nothing is derived.
(DEDUCED, log entry 41; DESIGN CHOICE, log entry 116.) -/
def winTranslate (d : Dev) : Dev :=
  if d.on WIN_BASIC_WIN_APPLY then
    let mode := d.f ARY_BASIC_MODE_MODE
    let d := if d.basicOn .ary = false ∨ mode = 2 then d else if mode = 3 then modeRead 3 d else writeReadSets d.readSets d
    geoTranslate (d.setF WIN_BASIC_WIN_APPLY 0)
  else d

/-- The line of TRG in every engine (R588). -/
def modeLine (d : Dev) : Dev :=
  (List.range 96).foldl (fun d e => d.setFi ENG_TRIG_CFG_LINE e 0 (d.f TRG_MODE_CFG_LINE)) d

/-- A mode's standard program in every engine, with its entry and wrap pair. -/
def modePrograms (mode : Nat) (d : Dev) : Dev :=
  let w := stdWrap mode
  let d := (List.range 96).foldl (fun d e =>
    let d := loadProgram e (stdBase mode) (stdProgram mode) d
    ((d.setFi ENG_PROG_ENTRY e 0 (stdBase mode)).setFi ENG_WRAP_TOP e 0 w.1).setFi ENG_WRAP_BOT e 0 w.2) d
  if mode = 0 then d else modeLine d

def modeSched (mode : Nat) : Nat := if mode = 2 then schedSTRIP else if mode = 3 then schedTRIGGERED else schedPERIODIC

/-- A new selection of the mode (R199); one sub-exposure where the mode has one. (DEDUCED, log entry 44.) -/
def modeTranslate (d : Dev) : Dev :=
  let mode := d.f ARY_BASIC_MODE_MODE
  let d := (modePrograms mode d).setF ARY_SCHED_CFG_SCHED (modeSched mode)
  let d := if d.basicOn .exp ∧ d.basicM ≠ d.f EXP_EXP_CFG_NSUB + 1 then expTranslate d else d
  modeRead mode d

/-- FRAME_PERIOD from the basic rate: 0 in the triggered and strip modes, which take no other (R230, R584).
(DEDUCED, log entry 44.) -/
def rateTranslate (d : Dev) : Dev :=
  let f := d.f ARY_BASIC_RATE_FPS_C
  let least := (d.f EXP_EXP_CFG_NSUB + 1) * d.shPass
  d.setF ARY_FRAME_PERIOD (if f = 0 ∨ 2 ≤ d.f ARY_BASIC_MODE_MODE then 0 else min (2 ^ 32 - 1) (max least ((150000000000 + f) / (2 * f))))

/-- What a mode that stays selected takes anew: from TRG its line and its strips, and from ADC_CFG the demand of strips
(R208, R588). -/
def modeFollows (adcNew : Bool) (d : Dev) : Dev :=
  let mode := d.f ARY_BASIC_MODE_MODE
  if d.com.readNew ∧ 2 ≤ mode then (if mode = 2 then stripRead (modeLine d) else modeLine d)
  else if adcNew ∧ mode = 2 then stripDemand d
  else d

/-- The ARY page. BURST arms as BURST_CTRL.ARM does, whatever DEST says. (DEDUCED, log entry 44.) -/
def aryTranslate (d : Dev) : Dev :=
  let modeWord := d.com.basic.contains (ARY_BASIC_MODE_MODE.addr 0 0)
  let adcNew := d.f ARY_BASIC_ADC_BITS != d.f ARY_ADC_CFG_MODE
  let d := d.setF ARY_ADC_CFG_MODE (d.f ARY_BASIC_ADC_BITS)
  let d := if d.com.modeNew then modeTranslate d else modeFollows adcNew d
  let d := rateTranslate d
  let d := if modeWord then geoTranslate d else d
  if modeWord ∧ d.on ARY_BASIC_MODE_BURST then burstArmWrite .fw 1#32 d else d

/-! ## TRANSLATION_DONE (R72) -/

/-- Has a basic register of EXP been written that translates into expert fields: any but BASIC_AE, which the loop
reads itself? (DEDUCED, log entry 41.) -/
def Dev.expWritten (d : Dev) : Bool :=
  d.com.basic.any fun a => decide (0x11044 ≤ a) && decide (a < 0x11100)

/-- Firmware's translation of a page. (DEDUCED, log entries 41 and 42.) -/
def translate (p : Page) (d : Dev) : Dev :=
  match p with
  | .clk => clkTranslate d
  | .tbs => writeAll p [{ F := TBS_PPS_CFG_EN, v := d.f TBS_BASIC_TIME_PPS_EN }, { F := TBS_PPS_CFG_EDGE, v := d.f TBS_BASIC_TIME_PPS_FALL }] d
  | .pwr => gaitEval 0 (d.setF PWR_GAIT_SEL (d.f PWR_BASIC_PWR_GAIT))
  | .evr => d.setF EVR_CFG_MIN_SEV (min 4 (d.f EVR_BASIC_EVR_MIN_SEV))
  | .ary => aryTranslate d
  | .exp => if d.expWritten then expTranslate d else d
  | .win => winTranslate d
  | .trg => writeAll p (trgWrites d) d
  | .pe e => peTranslate e d
  | .nrd => writeAll p (nrdWrites d) d
  | .pxc => writeAll p (pxcWrites d) d
  | .hdr => fstTranslate (writeAll p (hdrWrites d) d)
  | .geo => geoTranslate d
  | .sta => writeAll p (staWrites d) d
  | .vew => encTranslate (fstTranslate (writeAll p (vewWrites d) d))
  | .enc => encTranslate d
  | .dlv => dlvTranslate d
  | .fst => fstTranslate d
  | .hmp => writeAll p (hmpWrites d) d
  | .ln l => writeAll p (lnWrites l d) d
  | .sp n => spTranslate n d
  | .hlp => hlpTranslate d
  | _ => d

/-- Does the translation of a page write shadowed fields? -/
def Dev.xlateShadowed (d : Dev) (p : Page) : Bool :=
  match p with
  | .tbs | .pwr | .evr | .ln _ | .hlp | .sys | .thm | .nvm | .mbx | .sec | .eng _ | .ing => false
  | .clk => d.f CLK_BASIC_CLK_SAT_FREQ != 0
  | .pe e => d.fi PE_BASIC_FN_FN e 0 != 0
  | .exp => d.expWritten
  | .win => d.on WIN_BASIC_WIN_APPLY
  | .sp n => d.fi SP_BASIC_PORT_AUTO n 0 = 1 && d.fi SP_HELLO_STAT_VALID n 0 = 1
  | _ => true

/-- Has a translation of `p` changed words of other pages that commits carry? -/
def xlateWide (p : Page) (old new : Dev) : Bool :=
  let other (m : SMap Word) : SMap Word := m.filter fun e =>
    (decide (e.1 < 0xB0000) || (decide (0xC0000 ≤ e.1) && decide (e.1 < 0x100000))) &&
      !(decide (p.base ≤ e.1) && decide (e.1 < p.base + p.size))
  p = .win || other old.regs != other new.regs

/-- Firmware commits what it has translated. (DEDUCED, log entry 42.) -/
def xlateCommit (p : Page) (wrote wide : Bool) (d : Dev) : Dev :=
  if d.on SYS_BASIC_CTRL_AUTOCOMMIT ∧ wrote then (if wide then gcommitKey d else keyWritten p d) else d

/-- Can firmware translate the page now: contexts are written only while the inactive bank is free? -/
def Dev.canTranslate (d : Dev) (p : Page) : Bool :=
  d.boot.run = .running && d.basicOn p && d.hf p HD_PAGE_STAT_XLATE_PEND = 1 && (!(p = .exp || p = .ary) || d.bankFree)

def translationDone (p : Page) (d : Dev) : Dev :=
  if d.canTranslate p = false then d
  else
    let n := translate p d
    let held := n.com.behindXlate.contains p
    let n := n.onCom fun s => { s with behindXlate := s.behindXlate.filter fun q => q != p }
    let n := xlateCommit p (d.xlateShadowed p) (xlateWide p d n) (xlateEnds p n)
    if held then keyPage p n else n

/-- TRANSLATION_DONE. -/
def execTranslationDone (pg : Page) (s : State) : Out := onDev (translationDone pg) s

/-! ## BASIC_FIELD_WRITE (R72 to R76, R584) -/

/-- Write one field of a basic register: any value but a reserved code; LK fields while the page is
disabled. The second part is the reason of a rejection. (DEDUCED, log entry 41.) -/
def basicField (en : Bool) (v : Word) (x : Word × Nat) (f : Fld) : Word × Nat :=
  let n := bitsOf v f.hi f.lo
  let no (r : Nat) : Word × Nat := (x.1, if x.2 = 0 then r else x.2)
  if f.acc = .ro then x
  else if f.acc = .lk ∧ en then no 1
  else match f.legal with
    | .codes m => if n ≤ m then (setBits x.1 f.hi f.lo n, x.2) else no 2
    | _ => (setBits x.1 f.hi f.lo n, x.2)

/-- A global set of the loop is forgotten when MODE leaves 2 (R151). -/
def aeModeLeft (d : Dev) : Dev :=
  if d.f EXP_BASIC_AE_MODE = 2 then d else d.onAry fun a => { a with aeSet := none }

/-- A new selection of the readout mode (R199). -/
def modeChosen (new : Bool) (d : Dev) : Dev := if new then d.onCom fun s => { s with modeNew := true } else d

/-- (DEDUCED, log entry 41.) -/
def basicWrite (port : Port) (p : Page) (off : Nat) (v : Word) (d : Dev) : Dev :=
  let fs := p.fieldsAt off
  if d.boot.run ≠ .running ∨ fs.isEmpty then d
  else
    let a := p.base + off
    let (w, r) := fs.foldl (basicField (d.enabled p) v) (d.word a, 0)
    let stored := r = 0 ∨ w ≠ d.word a
    let mode := d.f ARY_BASIC_MODE_MODE
    let d := d.putWord a w
    let d := if p = .exp then aeModeLeft d else d
    let d := if stored ∧ d.basicOn p then modeChosen (d.f ARY_BASIC_MODE_MODE != mode) (xlateBegin p [a] d) else d
    if r = 0 then d else d.reject p port a v r

/-- BASIC_FIELD_WRITE. A write elsewhere is not this command. -/
def execBasicFieldWrite (p : Port) (a : BitVec 24) (v : Word) (s : State) : Out :=
  onDev (gateWrite p fun d =>
    match decodeAddr a.toNat with
    | .page pg off => if 0x40 ≤ off ∧ off < 0x100 ∧ ¬ d.inReset pg then basicWrite p pg off v d else d
    | _ => d) s

/-- WIN_APPLY: a write of 1 to BASIC_WIN.APPLY. -/
def execWinApply (p : Port) (s : State) : Out := onDev (gatePage p .win (basicWrite p .win 0x40 1#32)) s

end Sys2Proof.Machine
end

