-- ==== Sys2Proof/Machine/Access.lean ====
section
/-! DEFINITION. The register access unit: one word written or read at an address, and the ports that ask for
it (R16, R55 to R65, R77 to R85, R583, R585, R587). -/
namespace Sys2Proof.Machine

/-! ## Writing fields -/

/-- One field of a write: the word, and the reason of the first field that refuses it (R16, R65, R583).
(DEDUCED, log entry 38.) -/
def writeField (locked : Bool) (v : Word) (x : Word × Nat) (f : Fld) : Word × Nat :=
  let n := bitsOf v f.hi f.lo
  let no (r : Nat) : Word × Nat := (x.1, if x.2 = 0 then r else x.2)
  match f.acc with
  | .ro | .rc | .wo => x
  | .w1c => (x.1 &&& ~~~(v &&& setBits 0#32 f.hi f.lo (2 ^ 32 - 1)), x.2)
  | .sh => (setBits x.1 f.hi f.lo n, x.2)
  | .rw => if f.legal.ok n then (setBits x.1 f.hi f.lo n, x.2) else no f.legal.reason
  | .lk =>
    if locked then no 1
    else if f.legal.ok n then (setBits x.1 f.hi f.lo n, x.2)
    else no f.legal.reason

/-- Store a word in a page's register, field by field. (DEDUCED, log entry 38.) -/
def storeWord (port : Port) (p : Page) (off : Nat) (locked : Bool) (v : Word) (d : Dev) : Dev :=
  let a := p.base + off
  let (w, r) := (p.fieldsAt off).foldl (writeField locked v) (d.word a, 0)
  let d := d.putWord a w
  if r = 0 then d else d.reject p port a v r

/-- Store a word whose fields are all legal; else the whole write is ignored. -/
def storeWhole (port : Port) (p : Page) (off : Nat) (locked ok : Bool) (v : Word) (d : Dev) : Dev :=
  if ok && (p.fieldsAt off).all fun f => f.acc = .ro || f.legal.ok (bitsOf v f.hi f.lo) then
    storeWord port p off locked v d
  else d.reject p port (p.base + off) v 8

/-- A field of a word that is being written. -/
def fieldOf (v : Word) (F : Fld) : Nat := bitsOf v F.hi F.lo

/-! ## Registers that do more than store -/

/-- PAGE_CTRL (R62, R63, R73). -/
def writeCtrl (port : Port) (p : Page) (v : Word) (d : Dev) : Dev :=
  if fieldOf v HD_PAGE_CTRL_SOFT_RST = 1 then pageSoftRst port p v d
  else
    let d := if fieldOf v HD_PAGE_CTRL_EXPERT = 1 then expertSet p d else expertClear p d
    if fieldOf v HD_PAGE_CTRL_EN = 1 then pageEnable port p v d else pageDisable p d

/-- (DEDUCED, log entry 38.) -/
def writeHeader (port : Port) (p : Page) (off : Nat) (v : Word) (d : Dev) : Dev :=
  if off = 0x08 then writeCtrl port p v d
  else if off = 0x14 then irqPackets [p.group] d (storeWord port p off false v d)
  else if off = 0x1C then pageCommit port p v d
  else storeWord port p off false v d

/-- SYS. A write that would clear every bit of PORT_CTRL is ignored (R85). -/
def writeSys (port : Port) (off : Nat) (v : Word) (d : Dev) : Dev :=
  match off with
  | 0x110 => gcommit port v d
  | 0x120 => if fieldOf v SYS_PORT_CTRL_WR_EN = 0 then d else storeWord port .sys off false v d
  | 0x134 | 0x138 => irqPackets (List.range 29) d (storeWord port .sys off false v d)
  | 0x210 => bootCfgWrite v d
  | _ => storeWord port .sys off false v d

/-- OUTn_CFG: its LK fields are locked by the output's own EN (R482). -/
def writeOutCfg (port : Port) (n : Nat) (v : Word) (d : Dev) : Dev :=
  let en := d.fk CLK_OUT_CFG_EN n
  let d := storeWord port .clk (0x200 + 16 * n) (en = 1) (setBits v 31 31 en) d
  outEnable n (fieldOf v CLK_OUT_CFG_EN = 1) d

def writeClk (port : Port) (off : Nat) (v : Word) (d : Dev) : Dev :=
  if off = 0x100 then refSelect port v d
  else if off = 0x104 ∨ off = 0x108 ∨ off = 0x110 then storeWhole port .clk off false true v d
  else if 0x200 ≤ off ∧ off < 0x2A0 ∧ off % 16 = 0 then writeOutCfg port ((off - 0x200) / 16) v d
  else storeWord port .clk off false v d

/-- PWR: the gait and what the governor declares follow a write at once (R493, R495). -/
def writePwr (port : Port) (off : Nat) (v : Word) (d : Dev) : Dev :=
  let d := storeWord port .pwr off false v d
  if off = 0x110 then gaitEval 0 d else if off = 0x100 then declared d else d

/-- May a threshold register take this value (R498)? -/
def thrOk (shut warn span start : Fld) (v : Word) : Bool :=
  let g (F : Fld) : Nat := fieldOf v F
  [shut, warn, span, start].all (fun F => decide (g F ≤ F.rst)) && g span != 0 &&
    decide (g start + g span ≤ g shut) && decide (g warn < g shut)

/-- THM: the always-on domain copies WARN and HYST (R488). -/
def writeThm (port : Port) (off : Nat) (v : Word) (d : Dev) : Dev :=
  let ok := if off = 0x100 then thrOk THM_THR_PIX_SHUT THM_THR_PIX_WARN THM_THR_PIX_SPAN THM_THR_PIX_START v
    else if off = 0x104 then thrOk THM_THR_LOG_SHUT THM_THR_LOG_WARN THM_THR_LOG_SPAN THM_THR_LOG_START v
    else true
  if ok then
    let d := storeWord port .thm off false v d
    d.setAon { d.aon with warnPix := d.f THM_THR_PIX_WARN, warnLog := d.f THM_THR_LOG_WARN, hyst := d.f THM_DWELL_HYST }
  else d.reject .thm port (Page.thm.base + off) v 8

/-- MBX (R91, R92). A write of 0 to GO or ACK has no effect and no status, whatever STATE is.
(DESIGN CHOICE, log entry 116.) -/
def writeMbx (port : Port) (off : Nat) (v : Word) (d : Dev) : Dev :=
  if off = 0x100 ∨ (0x200 ≤ off ∧ off < 0x300) then
    mbxBufWrite port (Page.mbx.base + off) v d
  else if off = 0x104 ∧ fieldOf v MBX_GO = 1 then mbxGo port v d
  else if off = 0x108 ∧ fieldOf v MBX_ACK = 1 then mbxAck port v d
  else d

/-- SEC (R537). -/
def writeSec (vt : Vault) (port : Port) (off : Nat) (v : Word) (d : Dev) : Dev :=
  if 0x100 ≤ off ∧ off < 0x120 then keyWrite ((off - 0x100) / 4) v d
  else if off = 0x120 ∧ fieldOf v SEC_KEY_CTRL_PROG = 1 then keyProg vt port v d
  else d

/-- ARY: START, STOP and the burst's commands. START is judged on the state the write finds.
(DEDUCED, log entry 38.) -/
def writeAry (port : Port) (off : Nat) (v : Word) (d : Dev) : Dev :=
  match off with
  | 0x1A0 =>
    let ran := d.runState ≠ runSTOPPED
    let d := if fieldOf v ARY_RUN_CTRL_START = 1 then aryStart port v d else d
    if fieldOf v ARY_RUN_CTRL_STOP = 1 ∧ ran then aryStop d else d
  | 0x1C4 =>
    let d := if fieldOf v ARY_BURST_CTRL_ABORT = 1 then burstAbort d else d
    if fieldOf v ARY_BURST_CTRL_ARM = 1 then burstArmWrite port v d else d
  | _ => storeWord port .ary off (d.enabled .ary) v d

def writeExp (port : Port) (off : Nat) (v : Word) (d : Dev) : Dev :=
  let d := storeWord port .exp off (d.enabled .exp) v d
  if off = 0x120 ∧ fieldOf v EXP_CTX_CTRL_COPY = 1 then ctxCopy port v d else d

/-- A write of ENGn.CTRL (R162): STEP = 1 with the engine at rest steps it once and does not resume
it, whatever HALT the same write gives; otherwise HALT = 1 halts and HALT = 0 resumes, but for a step under way.
(DEDUCED, log entry 57.) -/
def writeEngCtrl (e : Nat) (v : Word) (d : Dev) : Dev :=
  let halt := fieldOf v ENG_CTRL_HALT
  let step := fieldOf v ENG_CTRL_STEP
  let st := (d.engine e).state
  if step = 1 ∧ (st = engHALTED ∨ st = engILLEGAL) then
    engStep e (if halt = 1 then d.setFi ENG_CTRL_HALT e 0 1 else d)
  else if halt = 1 then engHalt e d
  else if step = 1 ∧ (d.engine e).stepping then d else engResume e d

/-- ENGn: HALT, STEP, SNAP_REQ and PARAM. -/
def writeEng (port : Port) (e : Nat) (off : Nat) (v : Word) (d : Dev) : Dev :=
  match off with
  | 0x108 => writeEngCtrl e v d
  | 0x114 => if fieldOf v ENG_SNAP_REQ_REQ = 1 then engSnap e d else d
  | 0x150 => engParam e v d
  | _ => storeWord port (engPage e) off (d.enabled (engPage e)) v d

/-- PEn: PARAM and FLUSH. -/
def writePe (port : Port) (e : Nat) (off : Nat) (v : Word) (d : Dev) : Dev :=
  match off with
  | 0x140 => peParam port e v d
  | 0x14C => if fieldOf v PE_CTRL_FLUSH = 1 then peFlush e d else d
  | _ => storeWord port (pePage e) off (d.enabled (pePage e)) v d

def writePxc (port : Port) (off : Nat) (v : Word) (d : Dev) : Dev :=
  match off with
  | 0x10C => defData port (some v) d
  | 0x128 => lscData port (some v) d
  | _ => storeWord port .pxc off (d.enabled .pxc) v d

def writeDlv (port : Port) (off : Nat) (v : Word) (d : Dev) : Dev :=
  let d := storeWord port .dlv off (d.enabled .dlv) v d
  if off = 0x230 ∧ fieldOf v DLV_TIME_CFG_SEND = 1 then d.sendTime 3 else d

/-- HMP: FREEZE, the commands beside it, and RELEASE. (DEDUCED, log entry 38.) -/
def writeHmp (port : Port) (off : Nat) (v : Word) (d : Dev) : Dev :=
  match off with
  | 0x120 =>
    let fz := fieldOf v HMP_CTRL_FREEZE
    let d := if fz = d.f HMP_CTRL_FREEZE then d else setFreeze (fz = 1) d
    let d := if fieldOf v HMP_CTRL_ABORT = 1 then replayAbort d else d
    let d := if fieldOf v HMP_CTRL_RETRAIN = 1 then wantRetrain 15 d else d
    if fieldOf v HMP_CTRL_DSM = 1 then deepSleep d else d
  | 0x124 => if fieldOf v HMP_RELEASE_GO = 1 then histRelease port (fieldOf v HMP_RELEASE_SLOT) v d else d
  | _ => storeWord port .hmp off (d.enabled .hmp) v d

/-- LNn: MAIN follows PRE and POST; DEEP_REQ and SLIP. -/
def writeLn (port : Port) (l : Nat) (off : Nat) (v : Word) (d : Dev) : Dev :=
  let d := storeWord port (lnPage l) off (d.enabled (lnPage l)) v d
  match off with
  | 0x108 => if laneRx l then d else setFir l (d.fi LN_TX_FIR_PRE l 0) (d.fi LN_TX_FIR_POST l 0) d
  | 0x114 => if fieldOf v LN_PWR_CFG_DEEP_REQ = 1 then laneDeep l d else d
  | 0x118 => if fieldOf v LN_SYNC_CTRL_SLIP = 1 ∧ laneRx l then laneSlip l d else d
  | _ => d

/-- HLP: a CFG with another lane count is ignored whole (R427). -/
def writeHlp (port : Port) (off : Nat) (v : Word) (d : Dev) : Dev :=
  if off = 0x100 then storeWhole port .hlp off (d.enabled .hlp) true v d
  else storeWord port .hlp off (d.enabled .hlp) v d

/-- A word written to a page, from offset 0x40 on. -/
def writeBlock (vt : Vault) (port : Port) (p : Page) (off : Nat) (v : Word) (d : Dev) : Dev :=
  match p with
  | .sys => writeSys port off v d
  | .clk => writeClk port off v d
  | .pwr => writePwr port off v d
  | .thm => writeThm port off v d
  | .nvm => if off = 0x110 ∧ fieldOf v NVM_FW_CTRL_CONFIRM = 1 then fwConfirm d else storeWord port p off false v d
  | .mbx => writeMbx port off v d
  | .sec => writeSec vt port off v d
  | .ary => writeAry port off v d
  | .exp => writeExp port off v d
  | .eng e => writeEng port e off v d
  | .pe e => writePe port e off v d
  | .pxc => writePxc port off v d
  | .dlv => writeDlv port off v d
  | .hmp => writeHmp port off v d
  | .ln l => writeLn port l off v d
  | .hlp => writeHlp port off v d
  | _ => storeWord port p off (!p.alwaysOn && d.enabled p) v d

/-- RST_CTRL (R553). -/
def writeReset (port : Port) (v : Word) (x : Dev × Recorder) : Dev × Recorder :=
  if v = 0xA5C35A01#32 then (warmReset x.1, x.2)
  else if v = 0xA5C35A02#32 then fullReset x
  else (x.1.reject .sys port (SYS_RST_CTRL_KEY.addr 0 0) v 5, x.2)

/-- A word written to a page. -/
def writePage (vt : Vault) (port : Port) (p : Page) (off : Nat) (v : Word) (x : Dev × Recorder) : Dev × Recorder :=
  if x.1.inReset p then x
  else if off < 0x40 then (writeHeader port p off v x.1, x.2)
  else if off < 0x100 then (basicWrite port p off v x.1, x.2)
  else if p = .sys ∧ off = 0x220 then writeReset port v x
  else if p = .trg ∧ off = 0x120 then pulseLines (fun _ k => v.toNat.testBit k) x.1.cyc x
  else (writeBlock vt port p off v x.1, x.2)

/-- A write to one of the windows. -/
def writeWindow (port : Port) (a : Nat) (v : Word) (d : Dev) : Dev :=
  match decodeAddr a with
  | .ctx _ _ => if d.inReset .exp then d else ctxWrite port a v d
  | .queue _ _ => queueWrite port (BitVec.ofNat 24 a) v d
  | .imem e i => if d.inReset (engPage e) then d else imemWrite port e i v d
  | .outside => d.bump SYS_ADDR_ERR
  | .page _ _ => d

/-- The register access unit serves one word written (R55, R84). -/
def writeServed (vt : Vault) (port : Port) (a : Nat) (v : Word) (x : Dev × Recorder) : Dev × Recorder :=
  match decodeAddr a with
  | .page p off => writePage vt port p off v x
  | _ => (writeWindow port a v x.1, x.2)

/-- A word that a port writes. (DEDUCED, log entry 38.) -/
def writeWord (vt : Vault) (port : Port) (a : Nat) (v : Word) (x : Dev × Recorder) : Dev × Recorder :=
  gateWriteRec port (writeServed vt port a v) x

/-! ## Reading -/

/-- One bit per page of a list: its IRQ_STAT is not 0. -/
def Dev.irqBits (d : Dev) (ps : List Page) : Nat :=
  (ps.zipIdx.map fun (p : Page × Nat) => if d.irqStat p.1 = 0#32 then 0 else 2 ^ p.2).sum

def Dev.sysLive (d : Dev) (off : Nat) : Option Nat :=
  match off with
  | 0x104 => some (Config.serial.toNat % 2 ^ 32)
  | 0x108 => some (Config.serial.toNat / 2 ^ 32)
  | 0x130 => some d.irqGrp
  | 0x140 => some (d.irqBits ((List.range 32).map engPage))
  | 0x144 => some (d.irqBits ((List.range 32).map fun n => engPage (32 + n)))
  | 0x148 => some (d.irqBits ((List.range 32).map fun n => engPage (64 + n)))
  | 0x14C => some (d.irqBits ((List.range 8).map pePage))
  | 0x150 => some (d.irqBits ((List.range 32).map lnPage))
  | 0x154 => some (d.irqBits ((List.range 12).map fun n => lnPage (32 + n)))
  | 0x158 => some (d.irqBits ((List.finRange 8).map Page.sp))
  | 0x164 => some (b2n (d.boot.run = .running) + 2 * b2n d.boot.image)
  | 0x200 => some (256 * d.f SYS_RST_CAUSE_FW + d.aon.cause)
  | 0x208 => some (16 * d.aon.strapI2c + d.aon.strapBoot)
  | 0x210 => some ((setBits (d.word 0x210) 17 17 (b2n d.boot.saving)).toNat)
  | _ => none

/-- CLK.STAT and the state of the outputs as they stand when read. (DEDUCED, log entry 36.) -/
def Dev.clkLive (d : Dev) (off : Nat) : Option Nat :=
  if off = 0x120 then
    some (2048 * b2n (d.clk.slewing || d.clk.slewReq.isSome) + 1024 * b2n d.clk.xtalOk + 512 * b2n d.clk.refOk +
      256 * b2n (d.clk.state = clkLOCKED) + d.clk.state)
  else if off = 0x128 then some (unsigned 32 (d.clk.slewReq.getD (d.clk.slewLeft / 1000)))
  else if 0x200 ≤ off ∧ off < 0x2A0 then
    let o := d.outN ((off - 0x200) / 16)
    if off % 16 = 8 then
      some (16 * b2n o.relockFail + 8 * b2n o.gated + 4 * b2n o.ramping + 2 * b2n o.lock + b2n o.running)
    else if off % 16 = 12 then some (d.outNow ((off - 0x200) / 16) / 1000000000)
    else none
  else none

/-- The servo's state: 0 never aligned, 1 holding its rate, 2 tracking. (DESIGN CHOICE, log entry 13.) -/
def TimeSt.servoState (t : TimeSt) : Nat := if t.ppsValid then 2 else if t.ppsEver then 1 else 0

/-- (DESIGN CHOICE, log entry 13.) -/
def Dev.tbsLive (d : Dev) (off : Nat) : Option Nat :=
  if off = 0x194 then
    some (64 * b2n d.time.stepPps.isSome + 32 * b2n d.time.todSet +
      16 * b2n d.time.ppsValid + d.time.servoState)
  else none

def evrLive (r : Recorder) (d : Dev) (off : Nat) : Option Nat :=
  match off with
  | 0x110 => some (2 * b2n r.nonce.isSome + b2n r.frozen)
  | 0x114 => some r.images.length
  | 0x118 => some (65536 - r.log.length - (d.nvm.retired.filter fun n => !r.log.any fun p => p.1 = n).length)
  | 0x120 => some (r.nextSeq % 2 ^ 32)
  | 0x124 => some (r.nextSeq / 2 ^ 32)
  | 0x128 => some (r.oldestSeq % 2 ^ 32)
  | 0x12C => some (r.oldestSeq / 2 ^ 32)
  | _ => none

/-- A preset slot that holds no image. -/
def noPreset : Nat → Option (List (Nat × Word)) := fun _ => none

/-- What a slot holds: what was saved, or the defaults it came with (R25, R531). (DESIGN CHOICE, log entry 5.) -/
def Dev.preset (d : Dev) (k : Nat) : Option (List (Nat × Word)) :=
  if d.nvm.savedSlots.contains k then SMap.get noPreset d.nvm.presets k else some (Config.shippedPreset k)

def Dev.presetMask (d : Dev) : Nat := ((List.range 32).map fun k => if (d.preset k).isSome then 2 ^ k else 0).sum

def Dev.nvmLive (d : Dev) (off : Nat) : Option Nat :=
  let n := d.nvm
  match off with
  | 0x100 => some (32 * b2n d.boot.xfer.isSome + 16 * b2n n.conf + 8 * b2n d.boot.trial + 4 * b2n d.boot.image +
      2 * b2n n.imgB.valid + b2n n.imgA.valid)
  | 0x104 => some n.imgA.version
  | 0x108 => some n.imgB.version
  | 0x10C => some (65536 * n.imgB.svn + n.imgA.svn)
  | 0x114 => some d.presetMask
  | 0x118 => some n.retired.length
  | _ => none

def secLive (v : Vault) (d : Dev) (off : Nat) : Option Nat :=
  match off with
  | 0x124 => some (65536 * d.nvm.svnMin + 2 * b2n d.boot.keyBusy.isSome + b2n v.key.isSome)
  | 0x128 => some Config.romKeyId.toNat
  | _ => none

/-- BL_VAL: the running black level that BL_SEL names, in 1/16 LSB. -/
def Dev.blLive (d : Dev) : Nat :=
  match d.bl (blKey (d.f PXC_BL_SEL_STRIPE) (d.f PXC_BL_SEL_BANK) (d.f PXC_BL_SEL_PASS) (d.f PXC_BL_SEL_COLOUR)) with
  | some b => 2 ^ 31 + unsigned 16 (roundRat (16 * b.v))
  | none => 0

/-- PUMP_STAT: the rails' levels as the last events gave them (R122). -/
def Dev.pumpStat (d : Dev) : Nat := 2 * b2n (!d.pwr.tglOut) + b2n (!d.pwr.boostOut)

/-- A word that a block forms as it is read, where it is not a stored one.
(DEDUCED, log entry 33; DESIGN CHOICE, log entry 35.) -/
def liveWord (r : Recorder) (v : Vault) (d : Dev) (p : Page) (off : Nat) : Option Nat :=
  if off = 0x18 then some (d.irqStat p).toNat
  else if off = 0x0C then
    let w := setBits (d.word (p.base + off)) HD_PAGE_STAT_BUSY.hi HD_PAGE_STAT_BUSY.lo (b2n (d.busy p))
    some (if p.alwaysOn then setBits w HD_PAGE_STAT_ACTIVE.hi HD_PAGE_STAT_ACTIVE.lo 1 else w).toNat
  else match p with
    | .sys => d.sysLive off
    | .clk => d.clkLive off
    | .tbs => d.tbsLive off
    | .pwr => if off = 0x134 then some (65536 * d.aon.level + 256 * d.aon.pg + d.aon.en) else none
    | .evr => evrLive r d off
    | .nvm => d.nvmLive off
    | .mbx => if off = 0x10C then some (256 * d.f MBX_STAT_RESULT + d.mbxState) else none
    | .sec => secLive v d off
    | .ary => if off = 0x110 then some d.pumpStat else if off = 0x124 then some d.ofsVal else none
    | .exp => if off = 0x160 then some (setBits (d.word 0x11160) 0 0 (b2n d.aeRuns)).toNat else none
    | .eng e => (d.engine e).pageWord off
    | .pe e => (d.pin e).pageWord off
    | .pxc => if off = 0x134 then some d.blLive else none
    | .ln l => if off = 0x198 then some (d.backoffLeft l) else none
    | _ => none

/-- Word 4 of a queue entry: the age of its head packet. -/
def Dev.qAge (d : Dev) (q : Nat) : Nat :=
  match (d.queue q).head with
  | some p => min (2 ^ 32 - 1) ((d.cyc - p.since) / 750)
  | none => 0

/-- What a port was last given. -/
def Dev.given (d : Dev) (p : Port) : List Word :=
  match p with | .inband => d.out.inband | .spi => d.out.spi | .i2c => d.out.i2c | .fw => d.out.fw

/-- The word an operation that answers a port gives it. -/
def taken (p : Port) (f : Dev → Dev) (d : Dev) : Word × Dev := (((f d).given p).headD 0#32, f d)

/-- Counters that a read clears (R16). -/
def clearRead (p : Page) (off : Nat) (d : Dev) : Dev :=
  let a := p.base + off
  d.putWord a ((p.fieldsAt off).foldl (fun w f => if f.acc = .rc then setBits w f.hi f.lo 0 else w) (d.word a))

/-- Counts that grow with time are brought up to date before they are read (R282). -/
def countsNow (p : Page) (d : Dev) : Dev := match p with | .ing => heldTime d | _ => d

/-- A peak starts again from what stands at the read (R281, R282, R426, R508). -/
def peaksNow (p : Page) (off : Nat) (d : Dev) : Dev :=
  match p with
  | .ing => d.peakI ING_SKID_PEAK 0 0 (max d.ary.skidT.length d.ary.skidB.length)
  | .sp n => d.peakI SP_BUF_PEAK n 0 (d.fi SP_BUF_STAT_LVL n 0)
  | .dlv => d.peakI DLV_BUF_PEAK 0 0 (d.f DLV_BUF_STAT_LVL)
  | .thm => if off = 0xF08 then (d.setF THM_PEAK_PIX (d.f THM_GRP_TEMP_PIX)).setF THM_PEAK_LOG (d.f THM_GRP_TEMP_LOG) else d
  | _ => d

/-- A word read from a page. -/
def readPage (r : Recorder) (v : Vault) (port : Port) (p : Page) (off : Nat) (d : Dev) : Word × Dev :=
  if p = .tbs ∧ off = 0x180 then (d.tickLo, latchTime d)
  else if p = .pxc ∧ off = 0x10C then taken port (defData port none) d
  else if p = .pxc ∧ off = 0x128 then taken port (lscData port none) d
  else match p, off with
    | .eng e, 0x10C => engStatRead e d
    | .eng e, 0x154 => engOutPop e d
    | .pe e, 0x144 => taken port (peOutRead port e) d
    | _, _ =>
      match liveWord r v d p off with
      | some n => (BitVec.ofNat 32 n, d)
      | none =>
        let d := countsNow p d
        (d.word (p.base + off), peaksNow p off (clearRead p off d))

/-- One word read, of a device that serves requests. (DESIGN CHOICE, log entry 110.) -/
def readServed (r : Recorder) (v : Vault) (port : Port) (a : Nat) (d : Dev) : Word × Dev :=
  match decodeAddr a with
  | .page p off => readPage r v port p off d
  | .queue q w => if w = 4 then (BitVec.ofNat 32 (d.qAge q), d) else (d.word (a / 4 * 4), d)
  | .outside => (0#32, d.bump SYS_ADDR_ERR)
  | _ => (d.word (a / 4 * 4), d)

/-! ## Bursts -/

/-- The address after a word (R78, R82). -/
def nextAddr (a : Nat) : Nat := (a + 4) % 2 ^ 24

/-- Words read from rising addresses. (DEDUCED, log entry 39.) -/
def readWords (r : Recorder) (v : Vault) (port : Port) (next : Nat → Nat) : Nat → Nat → Dev → List Word × Dev
  | 0, _, d => ([], d)
  | n + 1, a, d =>
    let (w, d) := readServed r v port a d
    let (ws, d) := readWords r v port next n (next a) d
    (w :: ws, d)

/-- Does this word begin a software reset, at which the words behind it are discarded (R585)?
(DEDUCED, log entry 40.) -/
def Dev.beginsReset (d : Dev) (port : Port) (a : Nat) (v : Word) : Bool :=
  a / 4 * 4 = 0x220 && (v = 0xA5C35A01#32 || v = 0xA5C35A02#32) && d.serves && d.portOpen port && !d.resetBusy

/-- Words written to rising addresses; and whether one of them has begun a reset. (DEDUCED, log entries 39 and 40.) -/
def writeWords (vt : Vault) (port : Port) (next : Nat → Nat) :
    Nat → List Word → Dev × Recorder → (Dev × Recorder) × Bool
  | _, [], x => (x, false)
  | a, w :: ws, x =>
    if x.1.beginsReset port a w then (writeWord vt port a w x, true)
    else writeWords vt port next (next a) ws (writeWord vt port a w x)

/-! ## The commands -/

/-- A command of a port that reaches the registers. -/
def onAccess (f : Vault → Dev × Recorder → Dev × Recorder) (s : State) : Out := onRec (f s.vault) s

/-- REG_WRITE (R55): one word. -/
def execRegWrite (p : Port) (a : BitVec 24) (v : Word) (s : State) : Out :=
  onAccess (fun vt => writeWord vt p a.toNat v) s

/-- The bits of a register that a written 1 clears. -/
def w1cBits (a : Nat) : Word :=
  match decodeAddr a with
  | .page p off =>
    ((p.fieldsAt off).filter fun f => f.acc = .w1c).foldl (fun w f => setBits w f.hi f.lo (2 ^ 32 - 1)) 0#32
  | _ => 0#32

/-- W1C_WRITE (R17): one word, to a register with bits that a 1 clears. `hw` names the bits that hardware sets in
the same cycle: of these, the ones set remain 1. (DESIGN CHOICE, log entry 8.) -/
def execW1cWrite (p : Port) (a : BitVec 24) (v : W1cWord) (s : State) : Out :=
  onAccess (fun vt => writeWord vt p a.toNat (v.v &&& ~~~(v.hw &&& w1cBits a.toNat))) s

/-- PORT_CTRL_WRITE (R85). -/
def execPortCtrlWrite (p : Port) (v : Word) (s : State) : Out :=
  onAccess (fun vt => writeWord vt p 0x120 v) s

/-- Is VIO, which the port pins need, good (R81, R551)? -/
def Dev.vioGood (d : Dev) : Bool := railBit d.aon.en 0 && railBit d.aon.pg 0

/-- What SPI_MISO carries for the words read (R77, R80): before each at most 15 wait bytes, as many as the free value
gives, and the marker. (DESIGN CHOICE, log entry 119.) -/
def spiBytes : List Word → Dev → List Byte × Dev
  | [], d => ([], d)
  | w :: t, d =>
    let (k, d) := d.free
    let (bs, d) := spiBytes t d
    (List.replicate (k.toNat % 16) 0xFF#8 ++ 0x5A#8 :: u32 w.toNat ++ bs, d)

/-- The words a port has read are given to it. -/
def portGive (p : Port) (ws : List Word) (d : Dev) : Dev :=
  let d := d.output p ws
  if p = .spi then
    let (bs, d) := spiBytes ws d
    { d with out := { d.out with miso := bs } }
  else d

/-- A read of `n` words: SPI and the link get nothing while the unit serves nothing. (DEDUCED, log entry 39.) -/
def readPort (r : Recorder) (v : Vault) (p : Port) (n a : Nat) (d : Dev) : Dev :=
  if d.serves then
    let (ws, d) := readWords r v p nextAddr n a d
    portGive p ws d
  else if p = .i2c ∧ d.vioGood then d.output p (List.replicate n 0xFFFFFFFF#32)
  else portGive p [] d

/-- RC_READ (R16): one word. -/
def execRcRead (p : Port) (a : BitVec 24) (s : State) : Out :=
  onDevR (fun r v => readPort r v p 1 a.toNat) s

/-- Words that an SPI command byte asks for: bits 5 to 0, plus 1 (R78). -/
def spiCount (cmd : Byte) : Nat := cmd.toNat % 64 + 1

/-- SPI_TRANSACTION (R78): up to 64 words, read where bit 7 of the command byte is 1, written where it is 0. Of a read
the host clocks `n` words before SPI_CS_N rises. (DESIGN CHOICE, log entry 119.) -/
def execSpiTransaction (cmd : Byte) (n : Nat) (a : BitVec 24) (ws : List Word) (s : State) : Out :=
  if cmd.getLsbD 7 then onDevR (fun r v => readPort r v .spi (min n (spiCount cmd)) a.toNat) s
  else onAccess (fun vt x => (writeWords vt .spi nextAddr a.toNat (ws.take (spiCount cmd)) x).1) s

/-- SPI_CS_ABORT (R79): the words before the partial one stand. -/
def execSpiCsAbort (a : BitVec 24) (ws : List Word) (_part : Fin 3) (s : State) : Out :=
  onAccess (fun vt x =>
    let x := (writeWords vt .spi nextAddr a.toNat (ws.take 63) x).1
    if x.1.serves then (x.1.bump SYS_SPI_ABORT, x.2) else x) s

/-- The I²C target acknowledges its own address while VIO is present (R81). -/
def i2cAddress (a7 : BitVec 7) (d : Dev) : Dev :=
  { d with out := { d.out with i2cAck := d.vioGood && a7.toNat = 0x38 + d.aon.strapI2c } }

/-- I2C_TRANSACTION (R81, R82): a transaction to another address, or without VIO, moves no word. -/
def execI2cTransaction (a7 : BitVec 7) (rd : Bool) (a : BitVec 24) (n : Nat) (ws : List Word) (s : State) : Out :=
  let go (d : Dev) : Bool := (i2cAddress a7 d).out.i2cAck
  if rd then onDevR (fun r v d => if go d then readPort r v .i2c n a.toNat (i2cAddress a7 d) else i2cAddress a7 d) s
  else onAccess (fun vt x =>
    let y := (i2cAddress a7 x.1, x.2)
    if go x.1 then (writeWords vt .i2c nextAddr a.toNat ws y).1 else y) s

end Sys2Proof.Machine
end

