-- ==== Sys2Proof/Machine/Preset.lean ====
section
/-! DEFINITION. Configuration presets (R531). -/
namespace Sys2Proof.Machine

/-! ## Saving -/


/-- Is a field of a class that presets store? -/
def Fld.stored (f : Fld) : Bool := f.acc = .rw || f.acc = .sh || f.acc = .lk

/-- The stored fields of a page's word, the others 0. -/
def storedBits (p : Page) (off : Nat) (w : Word) : Word :=
  ((p.fieldsAt off).filter Fld.stored).foldl (fun x f => setBits x f.hi f.lo (bitsOf w f.hi f.lo)) 0#32

/-- What a preset stores of the word at an address: none where no stored field differs from reset. -/
def presetWord (a : Nat) (w : Word) : Option Word :=
  match decodeAddr a with
  | .page p off =>
    if p = .mbx ∨ p = .sec then none
    else if storedBits p off w = storedBits p off (p.resetAt off) then none
    else some (storedBits p off w)
  | .queue _ k => if k ≤ 1 ∧ w ≠ queueResetWord k then some w else none
  | _ => none

/-- The image of the present configuration, in ascending address. -/
def Dev.presetImage (d : Dev) : List (Nat × Word) :=
  d.regs.filterMap fun (e : Nat × Word) => (presetWord e.1 e.2).map fun w => (e.1, w)

/-- (DESIGN CHOICE, log entry 29; DEDUCED, log entry 105.) -/
def presetSave (d : Dev) : Dev :=
  let k := d.cmdNat 0 1
  let im := d.presetImage
  if 31 < k ∨ 15072 < im.length then d.mbxDone resBAD_PARAM
  else if d.presetBusy then d.mbxDone resRESOURCE_BUSY
  else
    let d := d.onNvm fun n => { n.writeCopy (presetPages im) { slot := k, image := im } with
      presets := SMap.set noPreset n.presets k (some im)
      savedSlots := if n.savedSlots.contains k then n.savedSlots else n.savedSlots ++ [k] }
    (d.free.2.add NVM_PAGE_PROG d.free.1.toNat).mbxDone resOK

/-- PRESET_SAVE. -/
def execPresetSave (s : State) : Out := onDev (mbxServe 0x0011 (· = 1) presetSave) s

/-! ## Loading -/

/-- Does a pair of an image hold an LK field? -/
def pairLocked (e : Nat × Word) : Option Target :=
  match decodeAddr e.1 with
  | .page p off =>
    if (p.fieldsAt off).any fun f => f.acc = .lk && bitsOf e.2 f.hi f.lo != bitsOf (p.resetAt off) f.hi f.lo then
      some (.page p off)
    else none
  | _ => none

/-- Pages with an LK field in an image, that can be disabled. -/
def lockedPages (im : List (Nat × Word)) : List Page :=
  (im.filterMap fun e => match pairLocked e with
    | some (.page p _) => if p.alwaysOn then none else some p
    | _ => none).eraseDups

/-- Clock outputs with an LK field in an image. -/
def lockedOuts (im : List (Nat × Word)) : List Nat :=
  (im.filterMap fun e => match pairLocked e with
    | some (.page .clk off) => if 0x200 ≤ off ∧ off < 0x2A0 then some ((off - 0x200) / 16) else none
    | _ => none).eraseDups

/-- Is a pair written last: a PAGE_CTRL, or an OUTn_CFG? (DEDUCED, log entry 104.) -/
def writtenLast (e : Nat × Word) : Bool :=
  match decodeAddr e.1 with
  | .page .clk off => off = 8 || (decide (0x200 ≤ off) && decide (off < 0x2A0) && off % 16 = 0)
  | .page _ off => off = 8
  | _ => false

/-- Step 1: pages and outputs are disabled. -/
def loadStops (k : Nat) (im : List (Nat × Word)) (d : Dev) : Dev :=
  let ps := (lockedPages im).filter d.enabled
  let os := (lockedOuts im).filter fun n => d.fk CLK_OUT_CFG_EN n = 1
  let d := os.foldl (fun d n => outEnable n false d) (ps.foldl (fun d p => pageDisable p d) d)
  { d with mbx := { d.mbx with load := some { slot := k, pages := ps, outs := os } } }

/-- Has every page of the load stopped? -/
def Dev.loadStopped (d : Dev) : Bool :=
  match d.mbx.load with
  | some l => l.pages.all fun p => !d.active p
  | none => false

/-- Steps 2 and 3: the pairs are written, and the global commit. (DEDUCED, log entry 104.) -/
def loadWrites (vt : Vault) (im : List (Nat × Word)) (x : Dev × Recorder) : Dev × Recorder :=
  let order := im.filter (fun e => !writtenLast e) ++ im.filter writtenLast
  let x := order.foldl (fun x (e : Nat × Word) => writeServed vt .fw e.1 e.2 x) x
  (gcommitKey x.1, x.2)

/-- How the global commit of a load has gone: none while its check is not over. (DEDUCED, log entry 104.) -/
def Dev.loadResult (d : Dev) : Option Nat :=
  if d.com.gHeld then none
  else match d.com.gstate with
  | .accepted | .pending => some resOK
  | .idle => some (if d.comState .sys = comFAILED then resBAD_STATE else resOK)
  | .checking => none

/-- PRESET_LOAD ends, with an event. -/
def loadEnd (res : Nat) (d : Dev) : Dev :=
  Dev.mbxDone ({ d with mbx := { d.mbx with load := none } }.emitFw 0x019 (u8 res)) res

/-- PRESET_LOAD goes on as far as it can. -/
def loadGoes (vt : Vault) (im : List (Nat × Word)) (x : Dev × Recorder) : Dev × Recorder :=
  match x.1.mbx.load with
  | none => x
  | some l =>
    if l.committed then
      match x.1.loadResult with
      | some r => (loadEnd r x.1, x.2)
      | none => x
    else if x.1.loadStopped then
      let x := loadWrites vt im x
      ({ x.1 with mbx := { x.1.mbx with load := some { l with committed := true } } }, x.2)
    else x

/-- (DEDUCED, log entries 31 and 104.) -/
def presetLoad (vt : Vault) (x : Dev × Recorder) : Dev × Recorder :=
  let d := x.1
  match d.mbx.load with
  | some l => loadGoes vt ((d.preset l.slot).getD []) x
  | none =>
    let k := d.cmdNat 0 1
    match (if 31 < k then none else d.preset k) with
    | none => (loadEnd resBAD_PARAM d, x.2)
    | some im =>
      if d.presetBusy then (d.mbxDone resRESOURCE_BUSY, x.2)
      else loadGoes vt im (loadStops k im (d.setMbx mbxBUSY), x.2)

/-- PRESET_LOAD: sent again while the command is BUSY, it goes on where it waited. -/
def execPresetLoad (s : State) : Out := onAccess (fun vt => mbxServeRec 0x0010 (· = 1) (presetLoad vt)) s

/-- The pages and outputs of a load are enabled again. -/
def loadBack (l : LoadSt) (d : Dev) : Dev :=
  l.outs.foldl (fun d n => outEnable n true d) (l.pages.foldl (fun d p => pageEnable .fw p 1#32 d) d)

/-- PRESET_LOAD_TIMEOUT: a page has not stopped within 150 ms. -/
def loadTimeout (d : Dev) : Dev :=
  match d.mbx.load with
  | some l => if l.committed ∨ d.loadStopped then d else loadEnd resTIMEOUT (loadBack l d)
  | none => d

def execPresetLoadTimeout (s : State) : Out := onDev loadTimeout s

end Sys2Proof.Machine
end

