-- ==== Sys2Proof/Machine/Boot.lean ====
section
/-! DEFINITION. Boot ROM, image selection, the start of firmware and the recovery loader (R503, R521,
R533, R541 to R547). -/
namespace Sys2Proof.Machine

/-! ## Boot ROM (R541) -/

def bootNORMAL : Nat := 0
def bootSAFE : Nat := 1
def bootRECOVERY : Nat := 2
def bootHOLD : Nat := 3

/-- `BOOT_STAT.ROM_RESULT`. -/
def romResult (r : Nat) (d : Dev) : Dev := d.setF SYS_BOOT_STAT_ROM_RESULT r

/-- BOOT_ROM_START: with the PLL locked, and neither ROM nor firmware at work. (DEDUCED, log entry 103.) -/
def bootRomStart (d : Dev) : Dev :=
  if d.clocked = false ∨ d.boot.run ≠ .off then d
  else
    let m := d.aon.strapBoot
    let d := d.setF SYS_BOOT_STAT_MODE m
    if m = bootHOLD then romResult 4 d
    else d.onBoot fun s => { s with run := .rom, scanned := false, verified := false }

def execBootRomStart (s : State) : Out := onDev bootRomStart s

/-! ## The scan of MRAM (R520, R530) -/

/-- Region of an MRAM page (R529). -/
def regionOf (n : Nat) : Nat := if n < 16384 then 0 else if n < 32768 then 1 else if n < 49152 then 2 else if n < 65536 then 3 else 4

/-- An image loses a page: its descriptor, or one that holds its bytes. -/
def FwImg.torn (m : FwImg) (n : Nat) : FwImg :=
  if n = 16383 ∨ 256 * n < m.len ∨ m.shipped then { m with valid := false } else m

/-- A page whose tag fails its CRC is discarded. (DESIGN CHOICE, log entry 25; DEDUCED, log entry 102.) -/
def tornPage (x : Dev × Recorder) (n : Nat) : Dev × Recorder :=
  let (d, r) := x
  let d := (d.bump NVM_TORN_DISCARD).raise NVM_IRQ_RAW_TORN
  let d := d.emit 0x008 .nvm ([Config.regionCode (regionOf n)] ++ u32 n)
  if n < 16384 then (d.onNvm fun v => { v with imgA := v.imgA.torn n }, r)
  else if n < 32768 then (d.onNvm fun v => { v with imgB := v.imgB.torn (n - 16384) }, r)
  else if n < 65536 then (d.onNvm fun v => v.tornCopy n, r)
  else (d, { r with log := SMap.erase r.log (n - 65536) })

/-- After VAON was lost, torn pages do not count for the numbering (R521, R530): where no record has been accepted
since power-on, it resumes from what is left of the log. (DEDUCED, log entry 20.) -/
def renumber (torn : List Nat) (x : Dev × Recorder) : Dev × Recorder :=
  let (d, r) := x
  let next (q : Option Nat) : Nat := match q with | some q => q + 65536 | none => 0
  if torn.isEmpty ∨ d.aon.vaonLost = false then x
  else
    let top := r.highestLogSeq
    (d.setAon { d.aon with logTop := top },
      if r.bufRecs.isEmpty ∧ r.nextSeq = next d.aon.logTop then { r with nextSeq := next top } else r)

/-- Records left in the always-on buffer are programmed, unless the log is frozen. -/
def bootFlush (x : Dev × Recorder) : Dev × Recorder :=
  if x.2.frozen then x else flushAll x.2.images.length (x.1, sealAll x.2)

/-! ## The choice of an image (R534, R543, R545, R547) -/

/-- A trial that has not been confirmed is given up. -/
def rollback (d : Dev) : Dev :=
  ((d.onNvm fun n => { n with trialPending := false, onTrial := false }).raise NVM_IRQ_RAW_ROLLBACK).emitFw 0x014

/-- An image fails the boot ROM's tests. -/
def sigFail (d : Dev) : Dev := (d.bump SEC_SIG_FAIL).emitFw 0x013

/-- The image chosen: slot, and whether it is on trial. -/
def bootImage (b trial : Bool) (result : Nat) (d : Dev) : Dev :=
  let d := d.onNvm fun n => { n with onTrial := trial }
  (romResult result d).onBoot fun s => { s with image := b, trial, verified := true, activate := none }

/-- No image passes: the recovery loader is to start. -/
def noImage (d : Dev) : Dev := (romResult 3 d).onBoot fun s => { s with activate := none }

/-- Try a slot, then the other. -/
def tryImage (b trial : Bool) (d : Dev) : Dev :=
  if d.nvm.boots b then bootImage b trial (if trial then 1 else 0) d
  else
    let d := sigFail d
    if d.nvm.boots (!b) then bootImage (!b) false 2 d else noImage (sigFail d)

/-- A trial that boots clears its mark. -/
def tryTrial (b : Bool) (d : Dev) : Dev := tryImage b true (bootControl (d.onNvm fun n => { n with trialPending := false }))

/-- The confirmed image alone (SAFE). (DEDUCED, log entry 102.) -/
def trySafe (d : Dev) : Dev :=
  let d := if d.nvm.trialPending ∨ d.nvm.onTrial then rollback d else d
  if d.nvm.boots d.nvm.conf then bootImage d.nvm.conf false 0 d else noImage (sigFail d)

/-- (DEDUCED, log entry 102.) -/
def chooseImage (d : Dev) : Dev :=
  match d.boot.activate with
  | some b => tryTrial b d
  | none =>
    if d.aon.strapBoot = bootRECOVERY then romResult 5 d
    else if d.aon.strapBoot = bootSAFE then trySafe d
    else if d.nvm.trialPending then tryTrial d.nvm.trialSlot d
    else
      let d := if d.nvm.onTrial then rollback d else d
      tryImage d.nvm.conf false d

/-- MRAM_SCAN_DONE, with the pages whose tags are torn. -/
def scanDone (torn : List Nat) (x : Dev × Recorder) : Dev × Recorder :=
  if x.1.boot.run ≠ .rom ∨ x.1.boot.scanned then x
  else
    let x := bootFlush (renumber torn (torn.foldl tornPage x))
    (chooseImage (x.1.onBoot fun s => { s with scanned := true }), x.2)

def execMramScanDone (torn : List (Fin 131072)) (s : State) : Out := onRec (scanDone (torn.map (·.val))) s

/-! ## Records that firmware infers (R503, R521) -/

/-- Records of the log newer than its newest FW_BOOT. -/
def sinceBoot (rs : List Rec) : List Rec :=
  match (rs.filter fun x => x.code = 0x011).map (·.seq) with
  | [] => rs
  | l => rs.filter fun x => decide (l.foldl max 0 < x.seq)

/-- A SHUTDOWN record that the log lacks is inferred from the latch; none is due any more. -/
def inferShutdown (x : Dev × Recorder) : Dev × Recorder :=
  let (d, r) := x
  if d.f THM_LATCH_CAUSE = 0 then x
  else
    let d := if (sinceBoot r.logRecs).any fun y => y.code = 0x031 then d
      else (d.emitInferred 0x031 (Page.code .thm) d.latchBytes).raise THM_IRQ_RAW_SHUT_INFERRED
    let d := d.setAon { d.aon with shutDue := false }
    (((d.setF THM_LATCH_CAUSE 0).setF THM_LATCH_TEMP 0).setF THM_LATCH_RECORD_DONE 0, r)

/-- EVR_BUFFER_LOST, over the records that the log held at power-on. (DEDUCED, log entry 20.) -/
def inferLost (x : Dev × Recorder) : Dev × Recorder :=
  let (d, r) := x
  match d.aon.vaonLost, d.aon.logTop with
  | true, some top =>
    let old := r.logRecs.filter fun y => decide (y.seq ≤ top)
    let d := if (sinceBoot old).any fun y => y.code = 0x030 then d else d.emitInferred 0x007 fwSrc (u64 top)
    (d.setAon { d.aon with vaonLost := false, logTop := none }, r)
  | _, _ => (d.setAon { d.aon with vaonLost := false, logTop := none }, r)

/-! ## What firmware loads (R542) -/

/-- The unit's calibration. The lens shading grid goes to the bank that is active.
(DEDUCED, log entries 75 and 106.) -/
def calibrate (d : Dev) : Dev :=
  let d := (d.setF NRD_NOISE_LCG_K (Config.calNoise 0)).setF NRD_NOISE_LCG_RDV (Config.calNoise 1)
  let d := (d.setF NRD_NOISE_HCG_K (Config.calNoise 2)).setF NRD_NOISE_HCG_RDV (Config.calNoise 3)
  let n := Config.calDefects % 65537
  let c := Config.calColumns % 257
  let d := (d.setF PXC_DEF_COUNT_COUNT n).setF PXC_DEF_CFG_COL_COUNT c
  let as := List.range n ++ (List.range (2 * c)).map (65536 + ·)
  let bank := d.a PXC_LSC_CFG_BANK_SEL
  { d with
    defs := as.foldl (fun m a => SMap.set zeroWord m a (Config.calDefect a)) d.defs
    lsc := (List.range 25220).foldl (fun m a => SMap.set unityNode m (bank * 25220 + a) (Config.calLsc a % 65536)) d.lsc }

/-- Translate the basic fields of every page whose EXPERT is 0. -/
def translateAll (d : Dev) : Dev :=
  allPages.foldl (fun d p => xlateEnds p (if d.basicOn p then translate p (xlateBegin p (basicWords p) d) else d)) d

/-- Pages that firmware enables at boot. -/
def bootPages : List Page :=
  [.ary, .exp, .win, .trg] ++ (List.finRange 96).map .eng ++
    [.ing, .nrd, .pxc, .hdr, .geo, .sta, .dlv, .fst]

/-- The boot preset settings of boot control (R544); settings that are being saved stand. (DEDUCED, log entry 104.) -/
def bootCfgLoad (d : Dev) : Dev :=
  if d.boot.saving then d
  else ((d.setF SYS_BOOT_CFG_AUTOSTART (b2n d.nvm.bootAutostart)).setF SYS_BOOT_CFG_PRESET_EN (b2n d.nvm.bootPresetEn)).setF
    SYS_BOOT_CFG_SLOT d.nvm.bootSlot

/-- The boot preset, and whether it was loaded. A page that does not stop at once fails it; a load that fails leaves
the device as it was before it. (DEDUCED, log entry 104.) -/
def bootPreset (vt : Vault) (x : Dev × Recorder) : (Dev × Recorder) × Bool :=
  let d := x.1
  let k := d.nvm.bootSlot
  if d.nvm.bootPresetEn = false ∨ d.aon.strapBoot ≠ bootNORMAL then (x, false)
  else
    let past (res : Nat) (x : Dev × Recorder) : (Dev × Recorder) × Bool :=
      (({ x.1 with mbx := { x.1.mbx with load := none } }.emitFw 0x019 (u8 res), x.2), res = resOK)
    match d.preset k with
    | none => past resBAD_PARAM x
    | some im =>
      let e := loadStops k im d
      if d.presetBusy then past resRESOURCE_BUSY x
      else if e.loadStopped then
        let y := loadWrites vt im (e, x.2)
        let e := globalChecked y.1
        match e.loadResult with
        | some 0 => past resOK (e, y.2)
        | r => past (r.getD resBAD_STATE) ({ d with evq := e.evq, freeCtr := e.freeCtr }, y.2)
      else past resTIMEOUT x

/-- RUN is set and FW_BOOT written: image, version, RST_CAUSE and BOOT_STAT.
(DESIGN CHOICE, log entry 25; DEDUCED, log entry 104.) -/
def fwRuns (d : Dev) : Dev :=
  let d := d.onBoot fun s => { s with run := .running, restart := none, verified := false }
  d.emitFw 0x011 (u8 (b2n d.boot.image) ++ u32 (d.nvm.img d.boot.image).version ++
    u32 ((d.sysLive 0x200).getD 0) ++ u32 (d.word 0x20C).toNat)

/-! ## FIRMWARE_START and its like -/

/-- Steps 2 to 7 of R542. -/
def fwLoads (d : Dev) : Dev :=
  let d := if d.boot.warm then d else calibrate d
  let d := fullRead (modePrograms 0 d)
  let d := fstTranslate (translateAll d)
  let d := globalChecked (gcommitKey d)
  bootPages.foldl (fun d p => pageEnable .fw p 1#32 d) d

/-- FIRMWARE_START: the first start after a reset. (DEDUCED, log entry 106.) -/
def firmwareStart (vt : Vault) (x : Dev × Recorder) : Dev × Recorder :=
  let b := x.1.boot
  if b.run ≠ .rom ∨ b.verified = false ∨ b.restart.isSome then x
  else
    let x := inferLost (inferShutdown x)
    let d := bootCfgLoad (fwLoads x.1)
    let d := if d.aon.pfailSeen then (d.raise PWR_IRQ_RAW_PFAIL_SEEN).setAon { d.aon with pfailSeen := false } else d
    let (x, loaded) := bootPreset vt (d, x.2)
    let d := x.1.setF SYS_BOOT_STAT_BOOT_MS ((x.1.cyc - b.onAt) / 750000)
    let d := fwRuns d
    (if loaded ∧ d.nvm.bootAutostart then aryStart .fw 1#32 d else d, x.2)

def execFirmwareStart (s : State) : Out := onAccess firmwareStart s

/-- FIRMWARE_RESTART: firmware that restarts is back; while it runs, a mismatch of its cores restarts it. -/
def firmwareRestart (d : Dev) : Dev :=
  match d.boot.run with
  | .rom => if d.boot.verified ∧ d.boot.restart.isSome then fwRuns d else d
  | .running => fwRestart 2 d
  | .loader => fwRestart 2 d
  | .off => d

def execFirmwareRestart (s : State) : Out := onDev firmwareRestart s

/-- RECOVERY_LOADER_START: by strap, or with no image that passes. (DEDUCED, log entry 103.) -/
def loaderStart (d : Dev) : Dev :=
  let byStrap : Bool := d.aon.strapBoot = bootRECOVERY && d.boot.activate = none
  if d.boot.run = .rom ∧ d.boot.verified = false ∧ (byStrap ∨ (d.boot.scanned ∧ d.f SYS_BOOT_STAT_ROM_RESULT = 3)) then
    (if byStrap then romResult 5 d else d).onBoot fun s => { s with run := .loader, restart := none }
  else d

def execRecoveryLoaderStart (s : State) : Out := onDev loaderStart s

end Sys2Proof.Machine
end

