-- ==== Sys2Proof/Machine/Focus.lean ====
section
/-! DEFINITION. The focus search (R248, R253, R348). -/
namespace Sys2Proof.Machine

/-! ## Score -/

/-- Does a tile overlap a rectangle of the array? -/
def tileOverlaps (rect : Nat × Nat × Nat × Nat) (t : Nat) : Bool :=
  let (x0, y0, w, h) := rect
  let x := 128 * (t % 96)
  let y := 128 * (t / 96)
  decide (x0 < x + 128) && decide (x < x0 + w) && decide (y0 < y + 128) && decide (y < y0 + h)

/-- What a tile adds to the score. -/
def TileRec.focus (r : TileRec) (ped t : Nat) : Rat :=
  if r.nG = 0 then Config.focusNoGreen t
  else
    let m : Rat := (r.sumG : Rat) / (r.nG : Rat) - (ped : Rat)
    (r.sharp : Rat) / (m * m + 1)

/-- S of the last records of pass 0 over a rectangle. (DEDUCED, log entry 107.) -/
def Dev.focusScore (d : Dev) (rect : Nat × Nat × Nat × Nat) : Rat :=
  let x := SMap.get noRecs d.recs 0
  x.recs.zipIdx.foldl (fun (s : Rat) (p : TileRec × Nat) =>
    if p.1.absent || !tileOverlaps rect p.2 then s else s + p.1.focus x.ped p.2) 0

/-! ## Moves -/

def Dev.setFocus (d : Dev) (x : Option FocusSt) : Dev := { d with mbx := { d.mbx with focus := x } }

/-- Send a step count and wait for the position it gives. -/
def focusMove (x : FocusSt) (goal : Int) (d : Dev) : Dev :=
  let d := peParam .fw x.pe (BitVec.ofInt 32 (goal - x.pos)) d
  d.setFocus (some { x with goal, moving := true })

/-- The command ends, and firmware gives the pin engine back. -/
def focusEnd (x : FocusSt) (res : Nat) (resp : List Byte) (d : Dev) : Dev :=
  let d := d.mapPin x.pe fun g => { g with fwOwn := false }
  (d.setFocus none).mbxDone res resp

/-- The best position: where none was scored, the last one. -/
def FocusSt.bestPos (x : FocusSt) : Int := match x.best with | some b => b.1 | none => x.pos

/-- Step 6: the answer and the event. -/
def focusResult (x : FocusSt) (d : Dev) : Dev :=
  let s : Rat := match x.best with | some b => b.2 | none => 0
  let q := min (2 ^ 32 - 1) (roundRat (65536 * s)).toNat
  focusEnd x resOK (s32 x.bestPos ++ u32 q) (d.emitFw 0x016)

/-- A position word has come. -/
def focusArrive (x : FocusSt) (d : Dev) : Dev :=
  match x.stage with
  | 0 => focusMove { x with stage := 1, last := x.hi } x.lo d
  | 3 => focusMove { x with stage := 4 } x.bestPos d
  | 4 => focusResult x d
  | _ => d.setFocus (some x)

/-- The scan goes on to its next position, or to its next stage. (DEDUCED, log entry 107.) -/
def focusNext (x : FocusSt) (d : Dev) : Dev :=
  let aim := x.goal + if x.stage = 1 then x.coarse else x.fine
  if aim ≤ x.last then focusMove x aim d
  else if x.stage = 1 then
    focusMove { x with stage := 2, last := min x.hi (x.bestPos + x.coarse) } (max x.lo (x.bestPos - x.coarse)) d
  else focusMove { x with stage := 3 } (x.bestPos - x.coarse) d

/-- A frame exposed after the move is scored. (DEDUCED, log entry 107.) -/
def focusFrame (x : FocusSt) (d : Dev) : Dev :=
  let s := d.focusScore x.rect
  let better : Bool := match x.best with | some b => decide (b.2 < s) | none => true
  focusNext (if better then { x with best := some (x.pos, s) } else x) d

/-- Are the last records those of a frame in which every exposure of the window's tiles began after the
position word arrived? -/
def Dev.focusFresh (d : Dev) (x : FocusSt) : Bool :=
  let fid := (SMap.get noRecs d.recs 0).fid
  (List.range (SMap.get noRecs d.recs 0).m).all fun i =>
    let r := SMap.get noRecs d.recs i
    r.fid = fid && !r.began.isEmpty && r.began.zipIdx.all fun e =>
      !tileOverlaps x.rect e.2 || (match e.1 with | some b => decide (x.since < b) | none => true)

/-- A position word is taken where one is awaited and has come. -/
def focusWord (x : FocusSt) (d : Dev) : Dev :=
  let g := d.pin x.pe
  match x.moving, g.outF with
  | true, w :: t =>
    focusArrive { x with pos := w.toInt, moving := false, since := d.cyc } (d.setPin x.pe { g with outF := t })
  | _, _ => d

/-- The search goes on: it takes a position word, or the records of the first frame exposed after that word.
(DEDUCED, log entry 107.) -/
def focusStep (e : FocusEv) (x : FocusSt) (d : Dev) : Dev :=
  match e with
  | .go => d
  | .word => focusWord x d
  | .frame => if !x.moving && d.focusFresh x then focusFrame x d else d

/-- The command begins: what it reads once, and the start position. In strip mode the window limits x only (R330). (DEDUCED, log entry 31.) -/
def focusBegin (d : Dev) : Dev :=
  let e := d.cmdNat 0 1
  let n := d.cmdNat 1 1
  if 7 < e ∨ 15 < n ∨ d.ak STA_HW0_EN n = 0 ∨ d.ak STA_HW0_MEMBER n ≠ 0 then d.mbxDone resBAD_PARAM
  else if d.hf (pePage e) HD_PAGE_CTRL_EN = 0 ∨ d.runState ≠ runRUNNING then d.mbxDone resBAD_STATE
  else
    let strip := decide (d.sched = schedSTRIP)
    let rect := (srcRect d (d.ak STA_HW0_SRC n) (d.ak STA_HW0_WIN n) (d.ak STA_HW1_X0 n)
      (if strip then 0 else d.ak STA_HW1_Y0 n) (d.ak STA_HW2_W n) (if strip then 0 else d.ak STA_HW2_H n) 2 12288 8192).getD (0, 0, 0, 0)
    let rect := if strip then (rect.1, 0, rect.2.2.1, 8192) else rect
    let x : FocusSt := { pe := e, rect, coarse := d.f STA_FOCUS_CFG_COARSE, fine := d.f STA_FOCUS_CFG_FINE,
                         lo := signed 32 (d.f STA_FOCUS_MIN), hi := signed 32 (d.f STA_FOCUS_MAX) }
    focusMove x 0 ((d.mapPin e fun g => { g with fwOwn := true }).setMbx mbxBUSY)

def focusRun (e : FocusEv) (d : Dev) : Dev :=
  match d.mbx.focus with
  | some x => focusStep e x d
  | none => focusBegin d

/-- FOCUS_RUN: sent again while the command is BUSY, it takes the next word or frame. -/
def execFocusRun (e : FocusEv) (s : State) : Out := onDev (mbxServe 0x0080 (· = 1) (focusRun e)) s

/-- FOCUS_RUN_TIMEOUT: the lens stays where it is. -/
def execFocusRunTimeout (s : State) : Out :=
  onDev (fun d => match d.mbx.focus with | some x => focusEnd x resTIMEOUT [] d | none => d) s

end Sys2Proof.Machine
end

