-- ==== Sys2Proof/Machine/HostLink.lean ====
section
/-! DEFINITION. In-band register access (R417 to R419). -/
namespace Sys2Proof.Machine

/-! ## Response codes (R418) -/
def respOK : Nat := 0
def respDENIED : Nat := 1
def respMALFORMED : Nat := 2

/-- Is a request malformed? (DEDUCED, log entry 91.) -/
def HostHdr.malformed (h : HostHdr) (wr : Bool) : Bool :=
  h.count = 0 || decide (1024 < h.count) || decide (h.len ≠ if wr then 4 * h.count else 0) ||
    (!h.fixed && decide (0xFFFFFC < h.addr / 4 * 4 + 4 * (h.count - 1)))

/-- The address of the word after one. -/
def HostHdr.next (h : HostHdr) (a : Nat) : Nat := if h.fixed then a else nextAddr a

/-- Bytes of received requests that no waiting response stands for yet. -/
def Dev.unanswered (d : Dev) : Nat := d.hlp.held - freed (d.allPkts ++ d.dlv.resps.map (·.2))

/-- A response to a request, which frees the space of all requests up to it. -/
def respond (h : HostHdr) (status count : Nat) (ws : List Word) (d : Dev) : Dev :=
  let p : Pkt := { kind := .held, typ := 0x12, payload := ws.flatMap fun w => u32 w.toNat,
                   tag := h.addr + 2 ^ 24 * h.tag, aux := count + 65536 * status, since := d.cyc, frees := d.unanswered }
  dlvSettle (d.onDlv fun s => { s with resps := s.resps ++ [(h.qid, p)] })

/-- A malformed request executes no word; what COUNT its response gives is open. (DEDUCED, log entry 91.) -/
def respondBad (h : HostHdr) (d : Dev) : Dev :=
  let (w, d) := d.free
  respond h respMALFORMED (w.toNat % 2048) [] d

/-- A request takes its bytes of the 64 KiB, or is discarded where they are full. -/
def hostHold (h : HostHdr) (d : Dev) : Option Dev :=
  let n := d.hlp.held + h.len + 20
  if 65536 < n then none else some { d with hlp := { d.hlp with held := n } }

def hostOverflow (d : Dev) : Dev := (d.bump HLP_RX_OVF).raise HLP_IRQ_RAW_RX_OVF

/-- The words of a REG_WR. A software reset among them discards the link and with it the response.
(DEDUCED, log entries 40 and 91.) -/
def hostWrite (vt : Vault) (h : HostHdr) (pay : List Byte) (x : Dev × Recorder) : Dev × Recorder :=
  let ack (f : Dev → Dev) (d : Dev) : Dev := if h.noAck then d else f d
  if h.malformed true then (ack (respondBad h) x.1, x.2)
  else if x.1.portOpen .inband = false then
    (ack (respond h respDENIED 0 []) (x.1.add SYS_PORT_DENY h.count), x.2)
  else
    let (y, past) := writeWords vt .inband h.next h.addr (wordsOf pay) x
    if past then y else (ack (respond h respOK h.count []) y.1, y.2)

/-- HOST_REG_WR. Where the unit serves nothing, the request is discarded with no response (R585). -/
def execHostRegWr (s : State) : Out :=
  onAccess (fun vt x =>
    match hostFront 0x10 x.1 with
    | none => x
    | some (h, pay, d) =>
      if d.serves = false then (d, x.2)
      else match hostHold h d with
      | some d => hostWrite vt h pay (d, x.2)
      | none => (hostOverflow d, x.2)) s

/-- The words of a REG_RD. (DEDUCED, log entry 91.) -/
def hostRead (r : Recorder) (v : Vault) (h : HostHdr) (d : Dev) : Dev :=
  if h.malformed false then respondBad h d
  else
    let (ws, d) := readWords r v .inband h.next h.count h.addr d
    respond h respOK h.count ws (d.output .inband ws)

/-- HOST_REG_RD. -/
def execHostRegRd (s : State) : Out :=
  onDevR (fun r v d =>
    match hostFront 0x11 d with
    | none => d
    | some (h, _, d) =>
      if d.serves = false then d
      else match hostHold h d with
      | some d => hostRead r v h d
      | none => hostOverflow d) s

end Sys2Proof.Machine
end

