-- ==== Sys2Proof/Machine/PinStop.lean ====
section
/-! DEFINITION. STOP and illegal words of the pin engines, which clear EN themselves (R244, R246). -/
namespace Sys2Proof.Machine

/-- The engine stops itself: it clears EN, and a commit of its page that waits, or a global one that changes it, is aborted
(R68, R70, R246). -/
def peStopSelf (e cause : Nat) (d : Dev) : Dev :=
  peHalt e cause (if d.enabled (pePage e) then commitAborted (pePage e) d else d)

/-- PE_STOP. -/
def execPeStop (e : Fin 8) (dly : Fin 16) (s : State) : Out :=
  onDev (fun d => if d.peReady e .stop dly then peStopSelf e 2 d else d) s

/-- PE_ILLEGAL (R244). -/
def peIllegal (e : Nat) (d : Dev) : Dev :=
  let g := d.pin e
  if g.issues ∧ d.peIns e = none then
    let d := (peStopSelf e 3 d).raiseI PE_IRQ_RAW_ILLEGAL e
    d.emit 0x052 (pePage e) (u8 g.pc ++ u16 (d.fi PE_IMEM_WORD e g.pc))
  else d

def execPeIllegal (e : Fin 8) (s : State) : Out := onDev (peIllegal e) s

end Sys2Proof.Machine
end

