-- ==== Sys2Proof/Machine/Tap.lean ====
section
/-! DEFINITION. The boundary-scan TAP (R548, R552). -/
namespace Sys2Proof.Machine

/-- The instruction of a code: every code but those of the table acts as BYPASS. -/
def tapInstr (c : BitVec 4) : Tap :=
  match c.toNat with
  | 0 => .extest
  | 1 => .sample
  | 2 => .clamp
  | 3 => .highz
  | _ => .bypass

def TapSt.instr (t : TapSt) : Tap := tapInstr t.ir

/-- The TAP operates while the level is ON. -/
def onTap (f : TapSt → TapSt) (s : State) : Out :=
  onDev (fun d => if d.aon.level = 2 then { d with tap := f d.tap } else d) s

/-- What the TAP makes of a covered pin: the level of its cell under EXTEST and CLAMP, nothing driven under HIGHZ, and
otherwise `own`, what the device drives (R552). (DESIGN CHOICE, log entry 108.) -/
def Dev.scanned (d : Dev) (cell : Nat) (own : Option Bool) : Option Bool :=
  match d.tap.instr with
  | .extest | .clamp => some (d.tap.chain.getD (Config.scanCell cell) false)
  | .highz => none
  | _ => own

/-- What the device drives on a PIO pin (R236, R552). -/
def Dev.pioPin (d : Dev) (p : Nat) : Option Bool := d.scanned p ((d.pioDrive p).map (·.2))

/-- TAP_RESET: BYPASS is selected. (DESIGN CHOICE, log entry 108.) -/
def execTapReset (s : State) : Out := onTap (fun t => { t with ir := 0xF#4 }) s

/-- TAP_EXTEST, with the chain shifted in under it, if one is. (DESIGN CHOICE, log entry 108.) -/
def execTapExtest (bits : Option (List Bool)) (s : State) : Out :=
  onTap (fun t => { t with ir := 0x0#4, chain := bits.getD t.chain }) s

/-- TAP_SAMPLE_PRELOAD: the pins as sampled, or with `pre` the chain preloaded. -/
def execTapSamplePreload (pre : Bool) (bits : List Bool) (s : State) : Out :=
  onTap (fun t => if pre then { t with ir := 0x1#4, chain := bits } else { t with ir := 0x1#4, sample := bits }) s

/-- TAP_CLAMP. (DESIGN CHOICE, log entry 108.) -/
def execTapClamp (s : State) : Out := onTap (fun t => { t with ir := 0x2#4 }) s

/-- TAP_HIGHZ. -/
def execTapHighz (s : State) : Out := onTap (fun t => { t with ir := 0x3#4 }) s

/-- TAP_BYPASS, with a code that acts as BYPASS and the bit last shifted into the bypass register. -/
def execTapBypass (tdi : BypassScan) (s : State) : Out :=
  onTap (fun t => if tapInstr tdi.code = .bypass then { t with ir := tdi.code, bypassBit := tdi.tdi } else t) s

end Sys2Proof.Machine
end

