-- ==== Sys2Proof/Machine/Dispatch.lean ====
section
/-! DEFINITION. One arm per command: each calls its meaning. -/
namespace Sys2Proof.Machine

/-- The effect of a command on everything but the queue. -/
def exec (i : Instr) (s : State) : Host.Outcome State Fault Refusal :=
  match i with
  | .regWrite p a v => Sys2Proof.Machine.execRegWrite p a v s
  | .rcRead p a => Sys2Proof.Machine.execRcRead p a s
  | .w1cWrite p a v => Sys2Proof.Machine.execW1cWrite p a v s
  | .pageEnable p pg => Sys2Proof.Machine.execPageEnable p pg s
  | .pageDisable p pg => Sys2Proof.Machine.execPageDisable p pg s
  | .pageSoftRst p pg => Sys2Proof.Machine.execPageSoftRst p pg s
  | .softRstDone pg => Sys2Proof.Machine.execSoftRstDone pg s
  | .expertSet p pg => Sys2Proof.Machine.execExpertSet p pg s
  | .expertClear p pg => Sys2Proof.Machine.execExpertClear p pg s
  | .pageCommit p pg key => Sys2Proof.Machine.execPageCommit p pg key s
  | .gcommit p key => Sys2Proof.Machine.execGcommit p key s
  | .commitCheckDone pg => Sys2Proof.Machine.execCommitCheckDone pg s
  | .commitHoldTimeout pg => Sys2Proof.Machine.execCommitHoldTimeout pg s
  | .xlateHoldExpire pg => Sys2Proof.Machine.execXlateHoldExpire pg s
  | .basicFieldWrite p a v => Sys2Proof.Machine.execBasicFieldWrite p a v s
  | .translationDone pg => Sys2Proof.Machine.execTranslationDone pg s
  | .spiTransaction cmd n a ws => Sys2Proof.Machine.execSpiTransaction cmd n a ws s
  | .spiCsAbort a ws part => Sys2Proof.Machine.execSpiCsAbort a ws part s
  | .i2cTransaction a7 rd a n ws => Sys2Proof.Machine.execI2cTransaction a7 rd a n ws s
  | .portCtrlWrite p v => Sys2Proof.Machine.execPortCtrlWrite p v s
  | .mbxClaim p a v => Sys2Proof.Machine.execMbxClaim p a v s
  | .mbxGo p => Sys2Proof.Machine.execMbxGo p s
  | .mbxAck p => Sys2Proof.Machine.execMbxAck p s
  | .mbxLoadTimeout => Sys2Proof.Machine.execMbxLoadTimeout s
  | .identify => Sys2Proof.Machine.execIdentify s
  | .echo => Sys2Proof.Machine.execEcho s
  | .presetLoad => Sys2Proof.Machine.execPresetLoad s
  | .presetSave => Sys2Proof.Machine.execPresetSave s
  | .ctxSnapshot => Sys2Proof.Machine.execCtxSnapshot s
  | .evrRead => Sys2Proof.Machine.execEvrRead s
  | .evrFreeze => Sys2Proof.Machine.execEvrFreeze s
  | .evrThaw => Sys2Proof.Machine.execEvrThaw s
  | .evrClearNonce => Sys2Proof.Machine.execEvrClearNonce s
  | .evrClear => Sys2Proof.Machine.execEvrClear s
  | .fwBegin => Sys2Proof.Machine.execFwBegin s
  | .fwData => Sys2Proof.Machine.execFwData s
  | .fwEnd => Sys2Proof.Machine.execFwEnd s
  | .fwActivate => Sys2Proof.Machine.execFwActivate s
  | .histTrigger => Sys2Proof.Machine.execHistTrigger s
  | .histFreeze => Sys2Proof.Machine.execHistFreeze s
  | .histReplay => Sys2Proof.Machine.execHistReplay s
  | .timeStep => Sys2Proof.Machine.execTimeStep s
  | .phaseStep => Sys2Proof.Machine.execPhaseStep s
  | .gaitSet => Sys2Proof.Machine.execGaitSet s
  | .thermalRead => Sys2Proof.Machine.execThermalRead s
  | .focusRun e => Sys2Proof.Machine.execFocusRun e s
  | .linkRetrain => Sys2Proof.Machine.execLinkRetrain s
  | .startTick => Sys2Proof.Machine.execStartTick s
  | .preambleDone ds => Sys2Proof.Machine.execPreambleDone ds s
  | .rowBoundary ph => Sys2Proof.Machine.execRowBoundary ph s
  | .rowResult bank cs => Sys2Proof.Machine.execRowResult bank cs s
  | .pumpRailFault boost tgl => Sys2Proof.Machine.execPumpRailFault boost tgl s
  | .shutterResume => Sys2Proof.Machine.execShutterResume s
  | .shutterRstFall t sub ph => Sys2Proof.Machine.execShutterRstFall t sub ph s
  | .shutterTxFall t sub ph => Sys2Proof.Machine.execShutterTxFall t sub ph s
  | .txHoldRelease t ph => Sys2Proof.Machine.execTxHoldRelease t ph s
  | .ctxTableWrite p a v => Sys2Proof.Machine.execCtxTableWrite p a v s
  | .ctxCopy p => Sys2Proof.Machine.execCtxCopy p s
  | .ctxCopyDone => Sys2Proof.Machine.execCtxCopyDone s
  | .aeIteration r tag => Sys2Proof.Machine.execAeIteration r tag s
  | .aeMissed => Sys2Proof.Machine.execAeMissed s
  | .aeStale => Sys2Proof.Machine.execAeStale s
  | .ctxDmaEntry e => Sys2Proof.Machine.execCtxDmaEntry e s
  | .engHalt p e => Sys2Proof.Machine.execEngHalt p e s
  | .engResume p e => Sys2Proof.Machine.execEngResume p e s
  | .engStep p e => Sys2Proof.Machine.execEngStep p e s
  | .engSnapReq p e => Sys2Proof.Machine.execEngSnapReq p e s
  | .engImemWrite p a v => Sys2Proof.Machine.execEngImemWrite p a v s
  | .engParamWrite p e v => Sys2Proof.Machine.execEngParamWrite p e v s
  | .engOutRead p e => Sys2Proof.Machine.execEngOutRead p e s
  | .engNop e dly => Sys2Proof.Machine.execEngNop e dly s
  | .engSet e dst imm dly => Sys2Proof.Machine.execEngSet e dst imm dly s
  | .engSeth e dst imm dly => Sys2Proof.Machine.execEngSeth e dst imm dly s
  | .engAdd e ph dst imm dly => Sys2Proof.Machine.execEngAdd e ph dst imm dly s
  | .engMov e ph dst src op dly => Sys2Proof.Machine.execEngMov e ph dst src op dly s
  | .engJmp e cond addr dly => Sys2Proof.Machine.execEngJmp e cond addr dly s
  | .engWait e ph cond arg dly => Sys2Proof.Machine.execEngWait e ph cond arg dly s
  | .engStb e ph p it ib dly => Sys2Proof.Machine.execEngStb e ph p it ib dly s
  | .engPull e par nb dly => Sys2Proof.Machine.execEngPull e par nb dly s
  | .engPush e ph src nb dly => Sys2Proof.Machine.execEngPush e ph src nb dly s
  | .engShut e ph base sub hold dly => Sys2Proof.Machine.execEngShut e ph base sub hold dly s
  | .engShf e ph bot src dly => Sys2Proof.Machine.execEngShf e ph bot src dly s
  | .engShg e ph bot mirror dly => Sys2Proof.Machine.execEngShg e ph bot mirror dly s
  | .engLatch e p dly => Sys2Proof.Machine.execEngLatch e p dly s
  | .engSync e ph g dly => Sys2Proof.Machine.execEngSync e ph g dly s
  | .engIrq e n dly => Sys2Proof.Machine.execEngIrq e n dly s
  | .engStop e dly => Sys2Proof.Machine.execEngStop e dly s
  | .engIllegalOp e => Sys2Proof.Machine.execEngIllegalOp e s
  | .engWaitDone e ph => Sys2Proof.Machine.execEngWaitDone e ph s
  | .engPullDone e => Sys2Proof.Machine.execEngPullDone e s
  | .engPushDone e => Sys2Proof.Machine.execEngPushDone e s
  | .engShgDone e => Sys2Proof.Machine.execEngShgDone e s
  | .engDelayEnd e => Sys2Proof.Machine.execEngDelayEnd e s
  | .engSyncRelease g => Sys2Proof.Machine.execEngSyncRelease g s
  | .engSyncTimeout e => Sys2Proof.Machine.execEngSyncTimeout e s
  | .aryStart p => Sys2Proof.Machine.execAryStart p s
  | .aryStop p => Sys2Proof.Machine.execAryStop p s
  | .stripFrameTimeout => Sys2Proof.Machine.execStripFrameTimeout s
  | .swTrig p v => Sys2Proof.Machine.execSwTrig p v s
  | .winApply p => Sys2Proof.Machine.execWinApply p s
  | .burstArm p => Sys2Proof.Machine.execBurstArm p s
  | .burstAbort p => Sys2Proof.Machine.execBurstAbort p s
  | .burstFrameWrite => Sys2Proof.Machine.execBurstFrameWrite s
  | .pioEdge rd pin lvl ph => Sys2Proof.Machine.execPioEdge rd pin lvl ph s
  | .peNop e dly => Sys2Proof.Machine.execPeNop e dly s
  | .peLdi e r imm dly => Sys2Proof.Machine.execPeLdi e r imm dly s
  | .peLdk e r k dly => Sys2Proof.Machine.execPeLdk e r k dly s
  | .peAddi e r imm dly => Sys2Proof.Machine.execPeAddi e r imm dly s
  | .peMov e r q op dly => Sys2Proof.Machine.execPeMov e r q op dly s
  | .peJmp e cond addr dly => Sys2Proof.Machine.execPeJmp e cond addr dly s
  | .peWait e w dly => Sys2Proof.Machine.execPeWait e w dly s
  | .peDly e konst n dly => Sys2Proof.Machine.execPeDly e konst n dly s
  | .peSetp e mask value dly => Sys2Proof.Machine.execPeSetp e mask value dly s
  | .pePull e nb dly => Sys2Proof.Machine.execPePull e nb dly s
  | .pePush e r nb dly => Sys2Proof.Machine.execPePush e r nb dly s
  | .peQdec e blk dly => Sys2Proof.Machine.execPeQdec e blk dly s
  | .peTrig e ph dly => Sys2Proof.Machine.execPeTrig e ph dly s
  | .peStamp e nb dly => Sys2Proof.Machine.execPeStamp e nb dly s
  | .peIrq e n dly => Sys2Proof.Machine.execPeIrq e n dly s
  | .peStop e dly => Sys2Proof.Machine.execPeStop e dly s
  | .peIllegal e => Sys2Proof.Machine.execPeIllegal e s
  | .peWaitDone e => Sys2Proof.Machine.execPeWaitDone e s
  | .peDlyDone e => Sys2Proof.Machine.execPeDlyDone e s
  | .peDelayEnd e => Sys2Proof.Machine.execPeDelayEnd e s
  | .pePullDone e => Sys2Proof.Machine.execPePullDone e s
  | .pePushDone e => Sys2Proof.Machine.execPePushDone e s
  | .peQdecDone e => Sys2Proof.Machine.execPeQdecDone e s
  | .peParamWrite p e v => Sys2Proof.Machine.execPeParamWrite p e v s
  | .peOutRead p e => Sys2Proof.Machine.execPeOutRead p e s
  | .peFlush p e => Sys2Proof.Machine.execPeFlush p e s
  | .peDmaTimeout e => Sys2Proof.Machine.execPeDmaTimeout e s
  | .peGuardTrip e j => Sys2Proof.Machine.execPeGuardTrip e j s
  | .satMarkerBlock sp l1 => Sys2Proof.Machine.execSatMarkerBlock sp l1 s
  | .satFrameStart sp => Sys2Proof.Machine.execSatFrameStart sp s
  | .satLine sp => Sys2Proof.Machine.execSatLine sp s
  | .satLineEnd sp => Sys2Proof.Machine.execSatLineEnd sp s
  | .satFrameEnd sp => Sys2Proof.Machine.execSatFrameEnd sp s
  | .satHello sp => Sys2Proof.Machine.execSatHello sp s
  | .satFill sp => Sys2Proof.Machine.execSatFill sp s
  | .satHeaderError sp => Sys2Proof.Machine.execSatHeaderError sp s
  | .satCreditTimer sp => Sys2Proof.Machine.execSatCreditTimer sp s
  | .satFrameTimeout sp vs => Sys2Proof.Machine.execSatFrameTimeout sp vs s
  | .spAlignTimeout sp => Sys2Proof.Machine.execSpAlignTimeout sp s
  | .ingestGrant => Sys2Proof.Machine.execIngestGrant s
  | .nrdRow u pass rk => Sys2Proof.Machine.execNrdRow u pass rk s
  | .pxcRow u pass rk => Sys2Proof.Machine.execPxcRow u pass rk s
  | .pxcDefData p v => Sys2Proof.Machine.execPxcDefData p v s
  | .pxcLscData p v => Sys2Proof.Machine.execPxcLscData p v s
  | .hdrRow u pass rk => Sys2Proof.Machine.execHdrRow u pass rk s
  | .geoLine od => Sys2Proof.Machine.execGeoLine od s
  | .staRecordsReady pass => Sys2Proof.Machine.execStaRecordsReady pass s
  | .viewFrameAccept v => Sys2Proof.Machine.execViewFrameAccept v s
  | .viewRasterOut v => Sys2Proof.Machine.execViewRasterOut v s
  | .encSlice es => Sys2Proof.Machine.execEncSlice es s
  | .histChunkWrite => Sys2Proof.Machine.execHistChunkWrite s
  | .histCaptureEnd k => Sys2Proof.Machine.execHistCaptureEnd k s
  | .histRelease p k => Sys2Proof.Machine.execHistRelease p k s
  | .hmpCtrlFreeze p on => Sys2Proof.Machine.execHmpCtrlFreeze p on s
  | .hmpCtrlAbort p => Sys2Proof.Machine.execHmpCtrlAbort p s
  | .hmpCtrlRetrain p => Sys2Proof.Machine.execHmpCtrlRetrain p s
  | .hmpCtrlDsm p => Sys2Proof.Machine.execHmpCtrlDsm p s
  | .histReplaySend n hOk pOk => Sys2Proof.Machine.execHistReplaySend n hOk pOk s
  | .hmpTrainDone ok descOk => Sys2Proof.Machine.execHmpTrainDone ok descOk s
  | .hmpTracking moved => Sys2Proof.Machine.execHmpTracking moved s
  | .hmpRetrainDone c => Sys2Proof.Machine.execHmpRetrainDone c s
  | .hmpPowerDown c => Sys2Proof.Machine.execHmpPowerDown c s
  | .dlvEnqueue => Sys2Proof.Machine.execDlvEnqueue s
  | .dlvGrant => Sys2Proof.Machine.execDlvGrant s
  | .queueEntryWrite p a v => Sys2Proof.Machine.execQueueEntryWrite p a v s
  | .hostRegWr => Sys2Proof.Machine.execHostRegWr s
  | .hostRegRd => Sys2Proof.Machine.execHostRegRd s
  | .hostCredit => Sys2Proof.Machine.execHostCredit s
  | .hostPacketError => Sys2Proof.Machine.execHostPacketError s
  | .timePeriodic => Sys2Proof.Machine.execTimePeriodic s
  | .timeSend p => Sys2Proof.Machine.execTimeSend p s
  | .hlpHelloTimer => Sys2Proof.Machine.execHlpHelloTimer s
  | .hlpInitTimeout => Sys2Proof.Machine.execHlpInitTimeout s
  | .laneDataBlock l b drift => Sys2Proof.Machine.execLaneDataBlock l b drift s
  | .laneIdleBlock l b drift => Sys2Proof.Machine.execLaneIdleBlock l b drift s
  | .laneSkipBlock l b drift => Sys2Proof.Machine.execLaneSkipBlock l b drift s
  | .laneAlignRow l b drift => Sys2Proof.Machine.execLaneAlignRow l b drift s
  | .laneCtrlBlock l b drift => Sys2Proof.Machine.execLaneCtrlBlock l b drift s
  | .laneInvalidHeader l b drift => Sys2Proof.Machine.execLaneInvalidHeader l b drift s
  | .fecCodeword l w => Sys2Proof.Machine.execFecCodeword l w s
  | .laneSignalDetect l => Sys2Proof.Machine.execLaneSignalDetect l s
  | .laneCdrLock l => Sys2Proof.Machine.execLaneCdrLock l s
  | .laneEqDone l eq => Sys2Proof.Machine.execLaneEqDone l eq s
  | .laneLos l => Sys2Proof.Machine.execLaneLos l s
  | .laneStateTimeout g => Sys2Proof.Machine.execLaneStateTimeout g s
  | .laneFailIdleEnd g => Sys2Proof.Machine.execLaneFailIdleEnd g s
  | .laneBackoffEnd g => Sys2Proof.Machine.execLaneBackoffEnd g s
  | .laneAdaptUpdate l ds => Sys2Proof.Machine.execLaneAdaptUpdate l ds s
  | .laneMarginCheck l => Sys2Proof.Machine.execLaneMarginCheck l s
  | .laneMarginDone l w h => Sys2Proof.Machine.execLaneMarginDone l w h s
  | .laneSleep g => Sys2Proof.Machine.execLaneSleep g s
  | .laneWake g => Sys2Proof.Machine.execLaneWake g s
  | .laneSlip p l => Sys2Proof.Machine.execLaneSlip p l s
  | .laneDeepReq p l => Sys2Proof.Machine.execLaneDeepReq p l s
  | .pllLock p => Sys2Proof.Machine.execPllLock p s
  | .clkRefLost => Sys2Proof.Machine.execClkRefLost s
  | .clkRefReturn => Sys2Proof.Machine.execClkRefReturn s
  | .clkRefQualified ofs => Sys2Proof.Machine.execClkRefQualified ofs s
  | .clkLossOfLock => Sys2Proof.Machine.execClkLossOfLock s
  | .clkRefSelect p v => Sys2Proof.Machine.execClkRefSelect p v s
  | .clkOutEnable p n en => Sys2Proof.Machine.execClkOutEnable p n en s
  | .clkRampSegmentEnd n guarded => Sys2Proof.Machine.execClkRampSegmentEnd n guarded s
  | .clkRelockTimeout n => Sys2Proof.Machine.execClkRelockTimeout n s
  | .phaseSlewDone => Sys2Proof.Machine.execPhaseSlewDone s
  | .timebaseTick => Sys2Proof.Machine.execTimebaseTick s
  | .ppsEdge lvl ph => Sys2Proof.Machine.execPpsEdge lvl ph s
  | .ppsLost => Sys2Proof.Machine.execPpsLost s
  | .tbsTickLoRead p => Sys2Proof.Machine.execTbsTickLoRead p s
  | .vaonPowerOn resetN => Sys2Proof.Machine.execVaonPowerOn resetN s
  | .vaonLoss => Sys2Proof.Machine.execVaonLoss s
  | .resetNAssert => Sys2Proof.Machine.execResetNAssert s
  | .resetNRelease boot i2c => Sys2Proof.Machine.execResetNRelease boot i2c s
  | .railPgRise rail => Sys2Proof.Machine.execRailPgRise rail s
  | .railEnStep => Sys2Proof.Machine.execRailEnStep s
  | .railEnLowerStep => Sys2Proof.Machine.execRailEnLowerStep s
  | .railPgTimeout => Sys2Proof.Machine.execRailPgTimeout s
  | .railPgLost rail => Sys2Proof.Machine.execRailPgLost rail s
  | .railFaultRetry => Sys2Proof.Machine.execRailFaultRetry s
  | .pmbusTransactionDone ok data => Sys2Proof.Machine.execPmbusTransactionDone ok data s
  | .pmbAlert st vout => Sys2Proof.Machine.execPmbAlert st vout s
  | .governorStep capLow encLow => Sys2Proof.Machine.execGovernorStep capLow encLow s
  | .rateMonitorUpdate readings whole => Sys2Proof.Machine.execRateMonitorUpdate readings whole s
  | .gaitUpdate other => Sys2Proof.Machine.execGaitUpdate other s
  | .throttleUpdate => Sys2Proof.Machine.execThrottleUpdate s
  | .thermalSample samples => Sys2Proof.Machine.execThermalSample samples s
  | .shutdownRecordDone => Sys2Proof.Machine.execShutdownRecordDone s
  | .cutoffTrip pix temp => Sys2Proof.Machine.execCutoffTrip pix temp s
  | .autoRestartCheck pix log => Sys2Proof.Machine.execAutoRestartCheck pix log s
  | .pfailAccept => Sys2Proof.Machine.execPfailAccept s
  | .pfailFlushDone => Sys2Proof.Machine.execPfailFlushDone s
  | .pfailRestart => Sys2Proof.Machine.execPfailRestart s
  | .eventAccept => Sys2Proof.Machine.execEventAccept s
  | .evrDroppedRecord src => Sys2Proof.Machine.execEvrDroppedRecord src s
  | .evrImageSeal sev => Sys2Proof.Machine.execEvrImageSeal sev s
  | .evrPageProgram fail => Sys2Proof.Machine.execEvrPageProgram fail s
  | .evrFreezeExpire => Sys2Proof.Machine.execEvrFreezeExpire s
  | .nonceExpire => Sys2Proof.Machine.execNonceExpire s
  | .keyProg p => Sys2Proof.Machine.execKeyProg p s
  | .keyProgDone => Sys2Proof.Machine.execKeyProgDone s
  | .fwConfirm p => Sys2Proof.Machine.execFwConfirm p s
  | .bootRomStart => Sys2Proof.Machine.execBootRomStart s
  | .mramScanDone torn => Sys2Proof.Machine.execMramScanDone torn s
  | .firmwareStart => Sys2Proof.Machine.execFirmwareStart s
  | .firmwareRestart => Sys2Proof.Machine.execFirmwareRestart s
  | .watchdogTimeout => Sys2Proof.Machine.execWatchdogTimeout s
  | .recoveryLoaderStart => Sys2Proof.Machine.execRecoveryLoaderStart s
  | .warmReset p => Sys2Proof.Machine.execWarmReset p s
  | .fullReset p => Sys2Proof.Machine.execFullReset p s
  | .bootCfgSave p v => Sys2Proof.Machine.execBootCfgSave p v s
  | .tapReset => Sys2Proof.Machine.execTapReset s
  | .tapExtest bits => Sys2Proof.Machine.execTapExtest bits s
  | .tapSamplePreload pre bits => Sys2Proof.Machine.execTapSamplePreload pre bits s
  | .tapClamp => Sys2Proof.Machine.execTapClamp s
  | .tapHighz => Sys2Proof.Machine.execTapHighz s
  | .tapBypass tdi => Sys2Proof.Machine.execTapBypass tdi s
  | .pumpRailRecover => Sys2Proof.Machine.execPumpRailRecover s
  | .clkRampTargetReached n => Sys2Proof.Machine.execClkRampTargetReached n s
  | .bootCfgSaveDone => Sys2Proof.Machine.execBootCfgSaveDone s
  | .softwareResetRise => Sys2Proof.Machine.execSoftwareResetRise s
  | .focusRunTimeout => Sys2Proof.Machine.execFocusRunTimeout s
  | .presetLoadTimeout => Sys2Proof.Machine.execPresetLoadTimeout s
  | .engFlushDone e => Sys2Proof.Machine.execEngFlushDone e s

end Sys2Proof.Machine
end

