-- ==== Sys2Proof/Machine/Pins.lean ====
section
/-! DEFINITION. The state of every pin class in every condition (R551, R587). -/
namespace Sys2Proof.Machine

/-- The pin classes of R551. -/
inductive PinClass where
  | aonInput
  | railEn (i : Nat)
  | xtal
  | pio (p : Nat)
  | irqN
  | spiMiso
  | i2c (sda : Bool)
  | pmbus (sda : Bool)
  | ppsIn
  | refclk
  /-- A clock output's _P pin, or its _N pin. -/
  | clkOut (n : Nat) (neg : Bool)
  | laneTx (l : Nat)
  | laneRx (l : Nat)
  | lpddr
  | tdo
  | tapInput
  deriving DecidableEq, Repr

/-- What the device does at a pin. -/
inductive PinState where
  | highZ
  | input
  /-- Passive 100 kΩ to ground; a 50 kΩ pull-down; the TAP's own pulls. -/
  | passiveLow
  | pullDown
  | tapPulls
  | low
  | high
  | released
  | off
  | oscillating
  /-- The I²C target acknowledges, discards writes and returns 0xFF; it serves requests. -/
  | ackOnly
  | serving
  /-- The PMBus master, the memory controller, a lane or a clock output at work. -/
  | active
  /-- A lane transmitter that sleeps holds its common mode. -/
  | idleLevel
  | electricalIdle
  | terminated
  /-- The retention latches hold memory reset high and CS low; the memory is in self-refresh. -/
  | retention
  | selfRefresh
  /-- Driven in Shift-IR and Shift-DR alone. -/
  | shiftOnly
  deriving DecidableEq, Repr

/-- The columns of R551. -/
inductive PinColumn where
  | noVaon | off | retain | on
  deriving DecidableEq, Repr

/-- The column that holds: while rails are raised or lowered, VIO decides between OFF and RETAIN (R587). -/
def Dev.pinColumn (d : Dev) : PinColumn :=
  if d.aon.vaon = false then .noVaon
  else if d.aon.level = 2 then .on
  else if d.vioGood then .retain
  else .off

/-- Does a lane drive or terminate its pins? They do from DETECT (R457). -/
def Dev.laneOut (d : Dev) (l : Nat) : Bool := d.laneUsed l && decide (lnDETECT ≤ d.fi LN_STAT_STATE l 0)

/-- A pin with an open drain, as the TAP leaves it. -/
def Dev.openDrain (d : Dev) (cell : Nat) (own : PinState) : PinState :=
  match d.tap.instr with
  | .bypass | .sample => own
  | _ => if d.scanned cell none = some false then .low else .released

/-- A clock output's pin: off while EN is 0, at work or at its idle level; in format LVCMOS _N has high impedance (R468). -/
def Dev.clkPin (d : Dev) (n : Nat) (neg : Bool) : PinState :=
  let fmt := d.fk CLK_OUT_CFG_FMT n
  if d.fk CLK_OUT_CFG_EN n = 0 ∨ (neg ∧ fmt = 2) then .highZ
  else if (d.outN n).running then .active
  else if neg ∧ fmt = 0 then .high
  else .low

/-- A pin at level ON. -/
def Dev.pinOn (d : Dev) : PinClass → PinState
  | .aonInput => .input
  | .railEn i => if railBit d.aon.en i then .high else .low
  | .xtal => .oscillating
  | .pio p => match d.pioPin p with | some true => .high | some false => .low | none => .pullDown
  | .irqN => d.openDrain 17 (if d.irqLow then .low else .released)
  | .spiMiso => match d.scanned 16 none with | some true => .high | some false => .low | none => .highZ
  | .i2c sda => d.openDrain (18 + b2n sda) (if d.serves then .serving else .ackOnly)
  | .pmbus sda => d.openDrain (20 + b2n sda) .active
  | .ppsIn => .input
  | .refclk => .terminated
  | .clkOut n neg => d.clkPin n neg
  | .laneTx l =>
    if d.laneOut l = false ∨ (d.grp (laneGroup l)).txIdle then .electricalIdle
    else if d.fi LN_STAT_TX_SLEEP l 0 = 1 then .idleLevel
    else .active
  | .laneRx l => if d.laneOut l then .terminated else .highZ
  | .lpddr => if d.enabled .hmp then .active else .selfRefresh
  | .tdo => .shiftOnly
  | .tapInput => .tapPulls

/-- A pin in each condition (R551). -/
def Dev.pinState (d : Dev) (c : PinClass) : PinState :=
  match d.pinColumn with
  | .on => d.pinOn c
  | .noVaon =>
    match c with
    | .railEn _ => .passiveLow
    | .xtal => .off
    | .irqN | .i2c _ | .pmbus _ => .released
    | .laneTx _ => .electricalIdle
    | _ => .highZ
  | .off | .retain =>
    match c with
    | .aonInput => .input
    | .railEn i => if railBit d.aon.en i then .high else .low
    | .xtal => .oscillating
    | .pio _ => .pullDown
    | .irqN => .released
    | .i2c _ => if d.vioGood then .ackOnly else .released
    | .pmbus _ => if d.pwr.pmbBegun then .active else .released
    | .laneTx _ => .electricalIdle
    | .lpddr => if d.vioGood then .retention else .highZ
    | .tapInput => if d.vioGood then .tapPulls else .highZ
    | _ => .highZ

end Sys2Proof.Machine
end

