-- ==== Sys2Proof/Safety.lean ====
section
/-! DEFINITION. What counts as a safe run, and the terms in which claims about commands are made. -/
namespace Sys2Proof

/-- Every step of a run of `n` steps from `s` answers a next state. -/
def safeFor : Nat → Machine.State → Prop
  | 0, _ => True
  | n + 1, s => ∃ t, Machine.step s = .next t ∧ safeFor n t

/-- The port that asks for a write of one word, where the command is one. -/
def Instr.writesBy (c : Instr) : Option Port :=
  match c with
  | .regWrite p _ _ => some p
  | .rcRead _ _ => none
  | .w1cWrite p _ _ => some p
  | .pageEnable p _ => some p
  | .pageDisable p _ => some p
  | .pageSoftRst p _ => some p
  | .softRstDone _ => none
  | .expertSet p _ => some p
  | .expertClear p _ => some p
  | .pageCommit p _ _ => some p
  | .gcommit p _ => some p
  | .commitCheckDone _ => none
  | .commitHoldTimeout _ => none
  | .xlateHoldExpire _ => none
  | .basicFieldWrite p _ _ => some p
  | .translationDone _ => none
  | .spiTransaction _ _ _ _ => none
  | .spiCsAbort _ _ _ => none
  | .i2cTransaction _ _ _ _ _ => none
  | .portCtrlWrite p _ => some p
  | .mbxClaim p _ _ => some p
  | .mbxGo p => some p
  | .mbxAck p => some p
  | .mbxLoadTimeout => none
  | .identify => none
  | .echo => none
  | .presetLoad => none
  | .presetSave => none
  | .ctxSnapshot => none
  | .evrRead => none
  | .evrFreeze => none
  | .evrThaw => none
  | .evrClearNonce => none
  | .evrClear => none
  | .fwBegin => none
  | .fwData => none
  | .fwEnd => none
  | .fwActivate => none
  | .histTrigger => none
  | .histFreeze => none
  | .histReplay => none
  | .timeStep => none
  | .phaseStep => none
  | .gaitSet => none
  | .thermalRead => none
  | .focusRun _ => none
  | .linkRetrain => none
  | .startTick => none
  | .preambleDone _ => none
  | .rowBoundary _ => none
  | .rowResult _ _ => none
  | .pumpRailFault _ _ => none
  | .shutterResume => none
  | .shutterRstFall _ _ _ => none
  | .shutterTxFall _ _ _ => none
  | .txHoldRelease _ _ => none
  | .ctxTableWrite p _ _ => some p
  | .ctxCopy p => some p
  | .ctxCopyDone => none
  | .aeIteration _ _ => none
  | .aeMissed => none
  | .aeStale => none
  | .ctxDmaEntry _ => none
  | .engHalt p _ => some p
  | .engResume p _ => some p
  | .engStep p _ => some p
  | .engSnapReq p _ => some p
  | .engImemWrite p _ _ => some p
  | .engParamWrite p _ _ => some p
  | .engOutRead _ _ => none
  | .engNop _ _ => none
  | .engSet _ _ _ _ => none
  | .engSeth _ _ _ _ => none
  | .engAdd _ _ _ _ _ => none
  | .engMov _ _ _ _ _ _ => none
  | .engJmp _ _ _ _ => none
  | .engWait _ _ _ _ _ => none
  | .engStb _ _ _ _ _ _ => none
  | .engPull _ _ _ _ => none
  | .engPush _ _ _ _ _ => none
  | .engShut _ _ _ _ _ _ => none
  | .engShf _ _ _ _ _ => none
  | .engShg _ _ _ _ _ => none
  | .engLatch _ _ _ => none
  | .engSync _ _ _ _ => none
  | .engIrq _ _ _ => none
  | .engStop _ _ => none
  | .engIllegalOp _ => none
  | .engWaitDone _ _ => none
  | .engPullDone _ => none
  | .engPushDone _ => none
  | .engShgDone _ => none
  | .engDelayEnd _ => none
  | .engSyncRelease _ => none
  | .engSyncTimeout _ => none
  | .aryStart p => some p
  | .aryStop p => some p
  | .stripFrameTimeout => none
  | .swTrig p _ => some p
  | .winApply p => some p
  | .burstArm p => some p
  | .burstAbort p => some p
  | .burstFrameWrite => none
  | .pioEdge _ _ _ _ => none
  | .peNop _ _ => none
  | .peLdi _ _ _ _ => none
  | .peLdk _ _ _ _ => none
  | .peAddi _ _ _ _ => none
  | .peMov _ _ _ _ _ => none
  | .peJmp _ _ _ _ => none
  | .peWait _ _ _ => none
  | .peDly _ _ _ _ => none
  | .peSetp _ _ _ _ => none
  | .pePull _ _ _ => none
  | .pePush _ _ _ _ => none
  | .peQdec _ _ _ => none
  | .peTrig _ _ _ => none
  | .peStamp _ _ _ => none
  | .peIrq _ _ _ => none
  | .peStop _ _ => none
  | .peIllegal _ => none
  | .peWaitDone _ => none
  | .peDlyDone _ => none
  | .peDelayEnd _ => none
  | .pePullDone _ => none
  | .pePushDone _ => none
  | .peQdecDone _ => none
  | .peParamWrite p _ _ => some p
  | .peOutRead _ _ => none
  | .peFlush p _ => some p
  | .peDmaTimeout _ => none
  | .peGuardTrip _ _ => none
  | .satMarkerBlock _ _ => none
  | .satFrameStart _ => none
  | .satLine _ => none
  | .satLineEnd _ => none
  | .satFrameEnd _ => none
  | .satHello _ => none
  | .satFill _ => none
  | .satHeaderError _ => none
  | .satCreditTimer _ => none
  | .satFrameTimeout _ _ => none
  | .spAlignTimeout _ => none
  | .ingestGrant => none
  | .nrdRow _ _ _ => none
  | .pxcRow _ _ _ => none
  | .pxcDefData p v => v.map fun _ => p
  | .pxcLscData p v => v.map fun _ => p
  | .hdrRow _ _ _ => none
  | .geoLine _ => none
  | .staRecordsReady _ => none
  | .viewFrameAccept _ => none
  | .viewRasterOut _ => none
  | .encSlice _ => none
  | .histChunkWrite => none
  | .histCaptureEnd _ => none
  | .histRelease p _ => some p
  | .hmpCtrlFreeze p _ => some p
  | .hmpCtrlAbort p => some p
  | .hmpCtrlRetrain p => some p
  | .hmpCtrlDsm p => some p
  | .histReplaySend _ _ _ => none
  | .hmpTrainDone _ _ => none
  | .hmpTracking _ => none
  | .hmpRetrainDone _ => none
  | .hmpPowerDown _ => none
  | .dlvEnqueue => none
  | .dlvGrant => none
  | .queueEntryWrite p _ _ => some p
  | .hostRegWr => none
  | .hostRegRd => none
  | .hostCredit => none
  | .hostPacketError => none
  | .timePeriodic => none
  | .timeSend p => some p
  | .hlpHelloTimer => none
  | .hlpInitTimeout => none
  | .laneDataBlock _ _ _ => none
  | .laneIdleBlock _ _ _ => none
  | .laneSkipBlock _ _ _ => none
  | .laneAlignRow _ _ _ => none
  | .laneCtrlBlock _ _ _ => none
  | .laneInvalidHeader _ _ _ => none
  | .fecCodeword _ _ => none
  | .laneSignalDetect _ => none
  | .laneCdrLock _ => none
  | .laneEqDone _ _ => none
  | .laneLos _ => none
  | .laneStateTimeout _ => none
  | .laneFailIdleEnd _ => none
  | .laneBackoffEnd _ => none
  | .laneAdaptUpdate _ _ => none
  | .laneMarginCheck _ => none
  | .laneMarginDone _ _ _ => none
  | .laneSleep _ => none
  | .laneWake _ => none
  | .laneSlip p _ => some p
  | .laneDeepReq p _ => some p
  | .pllLock _ => none
  | .clkRefLost => none
  | .clkRefReturn => none
  | .clkRefQualified _ => none
  | .clkLossOfLock => none
  | .clkRefSelect p _ => some p
  | .clkOutEnable p _ _ => some p
  | .clkRampSegmentEnd _ _ => none
  | .clkRelockTimeout _ => none
  | .phaseSlewDone => none
  | .timebaseTick => none
  | .ppsEdge _ _ => none
  | .ppsLost => none
  | .tbsTickLoRead _ => none
  | .vaonPowerOn _ => none
  | .vaonLoss => none
  | .resetNAssert => none
  | .resetNRelease _ _ => none
  | .railPgRise _ => none
  | .railEnStep => none
  | .railEnLowerStep => none
  | .railPgTimeout => none
  | .railPgLost _ => none
  | .railFaultRetry => none
  | .pmbusTransactionDone _ _ => none
  | .pmbAlert _ _ => none
  | .governorStep _ _ => none
  | .rateMonitorUpdate _ _ => none
  | .gaitUpdate _ => none
  | .throttleUpdate => none
  | .thermalSample _ => none
  | .shutdownRecordDone => none
  | .cutoffTrip _ _ => none
  | .autoRestartCheck _ _ => none
  | .pfailAccept => none
  | .pfailFlushDone => none
  | .pfailRestart => none
  | .eventAccept => none
  | .evrDroppedRecord _ => none
  | .evrImageSeal _ => none
  | .evrPageProgram _ => none
  | .evrFreezeExpire => none
  | .nonceExpire => none
  | .keyProg p => some p
  | .keyProgDone => none
  | .fwConfirm p => some p
  | .bootRomStart => none
  | .mramScanDone _ => none
  | .firmwareStart => none
  | .firmwareRestart => none
  | .watchdogTimeout => none
  | .recoveryLoaderStart => none
  | .warmReset p => some p
  | .fullReset p => some p
  | .bootCfgSave p _ => some p
  | .tapReset => none
  | .tapExtest _ => none
  | .tapSamplePreload _ _ => none
  | .tapClamp => none
  | .tapHighz => none
  | .tapBypass _ => none
  | .pumpRailRecover => none
  | .clkRampTargetReached _ => none
  | .bootCfgSaveDone => none
  | .softwareResetRise => none
  | .focusRunTimeout => none
  | .presetLoadTimeout => none
  | .engFlushDone _ => none

namespace Machine

/-- The command answers a next state that differs from `s` in the device alone, which becomes `d`: the queue, the
recorder and the one-time storage stay. -/
def runs (c : Instr) (s : State) (d : Dev) : Prop := exec c s = .next { s with dev := d }

/-- The command answers a next state that differs from `s` in the device, which becomes `d`, and the recorder. -/
def runsRec (c : Instr) (s : State) (d : Dev) (r : Recorder) : Prop := exec c s = .next { s with dev := d, evr := r }

/-- A write from this port passes: the access unit serves requests (R587), and PORT_CTRL leaves the port open (R85). -/
abbrev State.admits (s : State) (p : Port) : Prop := s.dev.serves = true ∧ s.dev.portOpen p = true

/-- The same, at a page that is not in soft reset (R62). -/
abbrev State.admitsAt (s : State) (p : Port) (pg : Page) : Prop := s.admits p ∧ s.dev.inReset pg = false

/-- Firmware runs and finds a command of this opcode and length posted (R91, R93). -/
abbrev State.posted (s : State) (opc len : Nat) : Prop :=
  s.dev.boot.run = .running ∧ s.dev.f MBX_STAT_STATE = mbxPOSTED ∧ s.dev.f MBX_CMD_OPCODE = opc ∧ s.dev.f MBX_CMD_LEN_W = len

/-- Firmware answers a command it has taken from POSTED: BUSY, the response, DONE (R93). -/
abbrev Dev.answered (d : Dev) (result : Nat) (resp : List Byte := []) : Dev := (d.setMbx mbxBUSY).mbxDone result resp

/-- From `d` to `e` no register word changes but those listed. -/
def onlyWords (d e : Dev) (as : List Nat) : Prop := ∀ a, a ∉ as → e.word a = d.word a

/-- From `d` to `e` nothing changes but register words, and of those only the listed ones. -/
def onlyRegs (d e : Dev) (as : List Nat) : Prop := e = { d with regs := e.regs } ∧ onlyWords d e as

/-- From `d` to `e` nothing changes but readout engine `n`. -/
def onlyEngine (d e : Dev) (n : Nat) : Prop := e = { d with eng := e.eng } ∧ ∀ m, m ≠ n → e.engine m = d.engine m

/-- From `d` to `e` nothing changes but pin engine `n`. -/
def onlyPin (d e : Dev) (n : Nat) : Prop := e = { d with pe := e.pe } ∧ ∀ m, m ≠ n → e.pin m = d.pin m

/-- From `d` to `e` nothing changes but pin engine `n` and register words, and of those only the listed ones; interrupt
packets and events may be asked for. -/
def onlyPinWords (d e : Dev) (n : Nat) (as : List Nat) : Prop :=
  e = { d with pe := e.pe, regs := e.regs, reqs := e.reqs, evq := e.evq } ∧ (∀ m, m ≠ n → e.pin m = d.pin m) ∧ onlyWords d e as

/-- From `d` to `e` nothing changes but register words, and of those only the listed ones; interrupt packets and events
may be asked for. -/
def onlyRaised (d e : Dev) (as : List Nat) : Prop :=
  e = { d with regs := e.regs, reqs := e.reqs, evq := e.evq } ∧ onlyWords d e as

/-- From `d` to `e` nothing changes but tile `t` of the array. -/
def onlyTile (d e : Dev) (t : Nat) : Prop :=
  e = { d with ary := { d.ary with tiles := e.ary.tiles } } ∧ ∀ u, u ≠ t → e.tile u = d.tile u

/-- Two states of an engine agree in FIFOs, shift chains, context register and trigger lines. -/
def EngSt.sameBuffers (g h : EngSt) : Prop :=
  g.ctxF = h.ctxF ∧ g.parF = h.parF ∧ g.outF = h.outF ∧ g.top = h.top ∧ g.bot = h.bot ∧ g.c = h.c ∧ g.trig = h.trig

/-- What MOV computes: copy, add, subtract or AND (R168). -/
def movValue (op : Fin 4) (a b : Nat) : Int :=
  match op with
  | 0 => b
  | 1 => (a : Int) + b
  | 2 => (a : Int) - b
  | 3 => (a &&& b : Nat)

/-- The recorder's shape: the log in canonical form, at most 1,024 images in the buffer (R519), every image and page with
the records of one severity (R518, R522), and every record numbered before the next number (R510). -/
def Recorder.shaped (r : Recorder) : Prop :=
  SMap.wf noPage r.log = true ∧ r.images.length ≤ 1024 ∧ (∀ p ∈ r.images, ∀ x ∈ p.recs, x.sev = p.sev) ∧
  (∀ q ∈ r.log, ∀ x ∈ q.2.recs, x.sev = q.2.sev) ∧ ∀ x ∈ r.logRecs ++ r.bufRecs, x.seq < r.nextSeq

end Machine
end Sys2Proof
end

