-- ==== Sys2Proof/Certificates/Slice0/Obligations.lean ====
section
/-! DEFINITION. The statements for the provers, family by family. Each says which rules of the spec it states or rests
on; OBLIGATIONS.json lists them. -/

open Sys2Proof Sys2Proof.Machine

/-! ## The access unit and its ports (R16 to R18, R60, R77 to R85, R587) -/

/-- R85: a write from a port whose bit is 0 is ignored and counted; reads are served; PORT_CTRL takes no value that
closes every port. -/
def Obligations.ClosedPortIgnoresWrites : Prop :=
  (∀ (c : Instr) (p : Port) (s : State), c.writesBy = some p → s.dev.serves = true → s.dev.portOpen p = false →
    runs c s (s.dev.bump SYS_PORT_DENY)) ∧
  (∀ (p : Port) (a : BitVec 24) (s : State), s.dev.serves = true →
    ∃ d w, runs (.rcRead p a) s d ∧ d.given p = [w]) ∧
  (∀ (p : Port) (v : Word) (s : State), s.admitsAt p .sys →
    ∃ d, runs (.portCtrlWrite p v) s d ∧ onlyRegs s.dev d [0x120] ∧
      d.f SYS_PORT_CTRL_WR_EN = if fieldOf v SYS_PORT_CTRL_WR_EN = 0 then s.dev.f SYS_PORT_CTRL_WR_EN
        else fieldOf v SYS_PORT_CTRL_WR_EN) ∧
  (∀ (cmd : Byte) (n : Nat) (a : BitVec 24) (ws : List Word) (s : State), cmd.getLsbD 7 = false → s.dev.serves = true →
    s.dev.portOpen .spi = false →
    ∃ d, runs (.spiTransaction cmd n a ws) s d ∧ onlyRegs s.dev d [SYS_PORT_DENY.addr 0 0] ∧
      d.f SYS_PORT_DENY = (s.dev.f SYS_PORT_DENY + min (cmd.toNat % 64 + 1) ws.length) % 2 ^ 32) ∧
  (∀ (n : Nat) (a : BitVec 24) (ws : List Word) (a7 : BitVec 7) (s : State), a7.toNat = 0x38 + s.dev.aon.strapI2c →
    s.dev.vioGood = true → s.dev.serves = true → s.dev.portOpen .i2c = false →
    ∃ d, runs (.i2cTransaction a7 false a n ws) s d ∧
      onlyRegs { s.dev with out := { s.dev.out with i2cAck := true } } d [SYS_PORT_DENY.addr 0 0] ∧
      d.f SYS_PORT_DENY = (s.dev.f SYS_PORT_DENY + ws.length) % 2 ^ 32)

/-- R81, R587: while the access unit serves nothing, no write of any port changes anything; over I²C the device still
acknowledges its own address while VIO is present. -/
def Obligations.UnservedWritesChangeNothing : Prop :=
  (∀ (c : Instr) (p : Port) (s : State), c.writesBy = some p → s.dev.serves = false → exec c s = .next s) ∧
  (∀ (cmd : Byte) (n : Nat) (a : BitVec 24) (ws : List Word) (s : State), cmd.getLsbD 7 = false → s.dev.serves = false →
    exec (.spiTransaction cmd n a ws) s = .next s) ∧
  (∀ (a7 : BitVec 7) (n : Nat) (a : BitVec 24) (ws : List Word) (s : State), s.dev.serves = false →
    runs (.i2cTransaction a7 false a n ws) s { s.dev with out := { s.dev.out with
      i2cAck := s.dev.vioGood && decide (a7.toNat = 0x38 + s.dev.aon.strapI2c) } })

/-- R16 to R18: what a write to a shadowed field, a write to IRQ_RAW (where a bit that hardware sets in the same cycle
stays set) and a read of a counter do; an address that no register has counts in ADDR_ERR and does nothing else. Where
a clause rests on a reading of the model rather than on the rule's words, see log entries 38 and 110. -/
def Obligations.RegisterAccessByClass : Prop :=
  (∀ (F : Fld) (p : Port) (v : Word) (s : State), F ∈ Blk.fields .nrd → F.acc = .sh → F.stride = 0 → s.admitsAt p .nrd →
    ∃ d, runs (.regWrite p (BitVec.ofNat 24 (F.addr 0 0)) v) s d ∧ d.f F = fieldOf v F ∧
      onlyRegs s.dev d [F.addr 0 0]) ∧
  (∀ (p : Port) (a : BitVec 24) (v : Word) (s : State), s.admits p → decodeAddr a.toNat = .outside →
    runs (.regWrite p a v) s (s.dev.bump SYS_ADDR_ERR)) ∧
  (∀ (p : Port) (pg : Page) (v hw : Word) (s : State), s.admitsAt p pg →
    ∃ d, runs (.w1cWrite p (BitVec.ofNat 24 (pg.base + 0x10)) ⟨v, hw⟩) s d ∧ onlyRegs s.dev d [pg.base + 0x10] ∧
      d.word (pg.base + 0x10) = s.dev.word (pg.base + 0x10) &&& ~~~(v &&& 0xFFFFFF07#32 &&& ~~~hw)) ∧
  (∀ (F : Fld) (p : Port) (s : State), F ∈ Blk.fields .evr → F.acc = .rc → s.dev.serves = true →
    ∃ d, runs (.rcRead p (BitVec.ofNat 24 (F.addr 0 0))) s d ∧ d.given p = [s.dev.word (F.addr 0 0)] ∧
      d.f F = 0 ∧ onlyWords s.dev d [F.addr 0 0] ∧ d = { s.dev with regs := d.regs, out := d.out, freeCtr := d.freeCtr })

/-- R78 to R82: one word over SPI or I²C is one register access; the command byte's bit 7 tells a read from a write
and its bits 5 to 0 the words less 1; SPI_MISO carries the marker before a word read, and wait bytes before the
marker; a word cut short is discarded and counted; a transaction to another I²C address is not acknowledged and does
nothing. Where a clause rests on a reading of the model rather than on the rule's words, see log entry 119. -/
def Obligations.SerialPortsMoveWords : Prop :=
  (∀ (cmd : Byte) (n : Nat) (a : BitVec 24) (w : Word) (s : State), cmd.getLsbD 7 = false →
    ∃ t, exec (.regWrite .spi a w) s = .next t ∧ exec (.spiTransaction cmd n a [w]) s = .next t) ∧
  (∀ (cmd : Byte) (n : Nat) (a : BitVec 24) (w : Word) (ws : List Word) (s : State), cmd.getLsbD 7 = false →
    cmd.toNat % 64 ≠ 0 → s.dev.beginsReset .spi a.toNat w = false → ∃ t, exec (.regWrite .spi a w) s = .next t ∧
      exec (.spiTransaction cmd n a (w :: ws)) s = exec (.spiTransaction (cmd - 1#8) n (a + 4#24) ws) t) ∧
  (∀ (cmd : Byte) (n : Nat) (a : BitVec 24) (s : State), cmd.getLsbD 7 = true → s.dev.serves = true →
    ∃ d, runs (.spiTransaction cmd n a []) s d ∧ d.out.spi.length = min n (cmd.toNat % 64 + 1)) ∧
  (∀ (cmd : Byte) (n : Nat) (a : BitVec 24) (s : State), cmd.getLsbD 7 = true → cmd.toNat % 64 = 0 → n ≠ 0 → s.dev.serves = true →
    ∃ d k w, runs (.spiTransaction cmd n a []) s d ∧ d.out.spi = [w] ∧ k ≤ 15 ∧
      d.out.miso = List.replicate k 0xFF#8 ++ 0x5A#8 :: u32 w.toNat) ∧
  (∀ (n : Nat) (a : BitVec 24) (ws : List Word) (part : Fin 3) (s : State), ws.length ≤ 63 →
    ∃ t, exec (.spiTransaction 63#8 n a ws) s = .next t ∧ exec (.spiCsAbort a ws part) s =
      .next (if t.dev.serves then { t with dev := t.dev.bump SYS_SPI_ABORT } else t)) ∧
  (∀ (rd : Bool) (a : BitVec 24) (n : Nat) (ws : List Word) (a7 : BitVec 7) (s : State),
    a7.toNat ≠ 0x38 + s.dev.aon.strapI2c →
    runs (.i2cTransaction a7 rd a n ws) s { s.dev with out := { s.dev.out with i2cAck := false } }) ∧
  (∀ (a : BitVec 24) (n : Nat) (a7 : BitVec 7) (s : State), a7.toNat = 0x38 + s.dev.aon.strapI2c →
    s.dev.vioGood = true → s.dev.serves = true →
    ∃ d, runs (.i2cTransaction a7 true a n []) s d ∧ d.out.i2c.length = n) ∧
  (∀ (a : BitVec 24) (w : Word) (a7 : BitVec 7) (s : State), a7.toNat = 0x38 + s.dev.aon.strapI2c →
    s.dev.vioGood = true →
    ∃ t, exec (.regWrite .i2c a w) { s with dev := { s.dev with out := { s.dev.out with i2cAck := true } } } = .next t ∧
      exec (.i2cTransaction a7 false a 1 [w]) s = .next t)

/-! ## Pages (R62, R73) -/

/-- R62: EN rises and falls. The pages named have no start-up of their own; a page already in the state asked for
stays as it is; a window or trigger page stops at once, and another page at once while its block processes no frame.
Where a clause rests on a reading of the model rather than on the rule's words, see log entry 45. -/
def Obligations.PagesStartAndStop : Prop :=
  (∀ (p : Port) (pg : Page) (s : State), s.admitsAt p pg → s.dev.enabled pg = true → runs (.pageEnable p pg) s s.dev) ∧
  (∀ (p : Port) (pg : Page) (s : State), s.admitsAt p pg → s.dev.enabled pg = false →
    pg.blk ∈ [.win, .trg, .eng, .ing, .nrd, .hdr, .geo, .sta, .vew, .enc, .dlv, .fst] →
    ∃ d, runs (.pageEnable p pg) s d ∧ d.hf pg HD_PAGE_CTRL_EN = 1 ∧ d.hf pg HD_PAGE_STAT_ACTIVE = 1 ∧
      onlyWords s.dev d [pg.base + 8, pg.base + 0xC] ∧ (pg ≠ .enc → d.encs = s.dev.encs) ∧
      d = { s.dev with regs := d.regs, com := d.com, encs := d.encs }) ∧
  (∀ (p : Port) (pg : Page) (s : State), s.admitsAt p pg → pg.alwaysOn = true → runs (.pageDisable p pg) s s.dev) ∧
  (∀ (p : Port) (pg : Page) (s : State), s.admitsAt p pg → s.dev.enabled pg = true → s.dev.com.accepted = [] →
    s.dev.com.gstate = .idle → (pg.blk ∈ [.win, .trg] ∨
      pg.blk ∈ [.ing, .hdr, .geo, .sta, .vew, .enc, .dlv, .fst] ∧ s.dev.processing pg = false) →
    ∃ d, runs (.pageDisable p pg) s d ∧ d.hf pg HD_PAGE_CTRL_EN = 0 ∧ d.hf pg HD_PAGE_STAT_ACTIVE = 0 ∧
      onlyWords s.dev d [pg.base + 8, pg.base + 0xC] ∧ d = { s.dev with regs := d.regs, com := d.com })

/-- R62: SOFT_RST on an enabled page is ignored and sets WR_REJECT; on a disabled page it begins a reset, at whose end
every register of the page has its reset value (FRAME_SEQ excepted, R205). Where a clause rests on a reading of the
model rather than on the rule's words, see log entry 46. -/
def Obligations.SoftResetRestoresPage : Prop :=
  (∀ (p : Port) (pg : Page) (s : State), s.admitsAt p pg → s.dev.enabled pg = true →
    ∃ d, runs (.pageSoftRst p pg) s d ∧ d.hf pg HD_PAGE_STAT_WR_REJECT = 1 ∧
      d.hf pg HD_PAGE_STAT_BUSY = s.dev.hf pg HD_PAGE_STAT_BUSY ∧
      onlyWords s.dev d [pg.base + 0xC, pg.base + 0x10] ∧
      d = { s.dev with regs := d.regs, evq := d.evq, reqs := d.reqs }) ∧
  (∀ (p : Port) (pg : Page) (s : State), s.admitsAt p pg → s.dev.enabled pg = false →
    ∃ d, runs (.pageSoftRst p pg) s d ∧ d.hf pg HD_PAGE_STAT_BUSY = 1 ∧ d.inReset pg = true ∧
      onlyWords s.dev d [pg.base + 0xC] ∧ d = { s.dev with regs := d.regs, com := d.com }) ∧
  (∀ (pg : Page) (s : State), s.dev.inReset pg = true →
    ∃ d, runs (.softRstDone pg) s d ∧ d.inReset pg = false ∧
      ∀ a, pg.base ≤ a → a < pg.base + pg.size → a ≠ 0x101A8 → a ≠ 0x101AC → d.word a = resetWord a)

/-- R72, R73, R212, R310: EXPERT stops translation and, cleared, asks for all of it; a basic write asks for it while
firmware runs; APPLY is a basic write; levels 0 and 3 of noise reduction as firmware translates them where it commits
nothing itself; a page with no translation pending stays as it is. Where a clause rests on a reading of the model
rather than on the rule's words, see log entries 41 and 42. -/
def Obligations.TranslationIsAskedFor : Prop :=
  (∀ (p : Port) (pg : Page) (s : State), s.admitsAt p pg → pg ∉ s.dev.com.behindXlate →
    ∃ d, runs (.expertSet p pg) s d ∧ d.hf pg HD_PAGE_CTRL_EXPERT = 1 ∧ d.hf pg HD_PAGE_STAT_XLATE_PEND = 0 ∧
      onlyWords s.dev d [pg.base + 8, pg.base + 0xC] ∧ d = { s.dev with regs := d.regs, com := d.com }) ∧
  (∀ (p : Port) (pg : Page) (s : State), s.admitsAt p pg → s.dev.hf pg HD_PAGE_CTRL_EXPERT = 1 →
    s.dev.boot.run = .running → basicWords pg ≠ [] →
    ∃ d, runs (.expertClear p pg) s d ∧ d.hf pg HD_PAGE_CTRL_EXPERT = 0 ∧ d.hf pg HD_PAGE_STAT_XLATE_PEND = 1 ∧
      (∀ a ∈ basicWords pg, a ∈ d.com.basic) ∧
      onlyWords s.dev d [pg.base + 8, pg.base + 0xC] ∧ d = { s.dev with regs := d.regs, com := d.com }) ∧
  (∀ (p : Port) (v : Word) (s : State), s.admitsAt p .nrd → s.dev.boot.run = .running → s.dev.basicOn .nrd = true →
    ∃ d, runs (.basicFieldWrite p 0x91040#24 v) s d ∧ d.f NRD_BASIC_NR_LEVEL = fieldOf v NRD_BASIC_NR_LEVEL ∧
      d.hf .nrd HD_PAGE_STAT_XLATE_PEND = 1 ∧ 0x91040 ∈ d.com.basic ∧
      onlyWords s.dev d [0x91040, 0x9100C] ∧ d = { s.dev with regs := d.regs, com := d.com }) ∧
  (∀ (p : Port) (v : Word) (s : State), s.admitsAt p .nrd → s.dev.boot.run ≠ .running →
    runs (.basicFieldWrite p 0x91040#24 v) s s.dev) ∧
  (∀ (p : Port) (s : State), s.admitsAt p .win → s.dev.boot.run = .running → s.dev.basicOn .win = true →
    ∃ d, runs (.winApply p) s d ∧ d.f WIN_BASIC_WIN_APPLY = 1 ∧ d.hf .win HD_PAGE_STAT_XLATE_PEND = 1 ∧
      onlyWords s.dev d [0x12040, 0x1200C] ∧ d = { s.dev with regs := d.regs, com := d.com }) ∧
  (∀ (s : State), s.dev.canTranslate .nrd = true → s.dev.on SYS_BASIC_CTRL_AUTOCOMMIT = false →
    Page.nrd ∉ s.dev.com.behindXlate →
    ∃ d, runs (.translationDone .nrd) s d ∧ d.hf .nrd HD_PAGE_STAT_XLATE_PEND = 0 ∧
      (s.dev.f NRD_BASIC_NR_LEVEL = 0 → d.f NRD_SPAT_STR = 0 ∧ d.f NRD_TEMP_EN = 0) ∧
      (s.dev.f NRD_BASIC_NR_LEVEL = 3 → d.f NRD_SPAT_STR = 16 ∧ d.f NRD_TEMP_EN = 1 ∧ d.f NRD_TEMP_A_MIN = 0x20) ∧
      onlyWords s.dev d [0x91100, 0x91104, 0x9100C] ∧ d = { s.dev with regs := d.regs, com := d.com }) ∧
  (∀ (pg : Page) (s : State), s.dev.canTranslate pg = false → runs (.translationDone pg) s s.dev)

/-! ## Commits (R66 to R71) -/

/-- R66, R70, R71: the key latches a page's shadow set, or every page's, and begins the check; another value is
rejected; a key behind a translation takes effect when the hold ends. Where a clause rests on a reading of the model
rather than on the rule's words, see log entry 49. -/
def Obligations.CommitKeysLatch : Prop :=
  (∀ (p : Port) (pg : Page) (s : State), s.admitsAt p pg → s.dev.com.gstate = .idle →
    s.dev.comState pg ∈ [comIDLE, comDONE, comFAILED] →
    s.dev.hf pg HD_PAGE_STAT_XLATE_PEND = 0 → (pg = .exp → s.dev.f EXP_CTX_CTRL_COPY_BUSY = 0) →
    ∃ d, runs (.pageCommit p pg 0xC5#32) s d ∧ d.comState pg = comCHECKING ∧
      (d.pageCom pg).latched = pageWords pg s.dev.regs ∧
      onlyWords s.dev d [pg.base + 0x20] ∧ d = { s.dev with regs := d.regs, com := d.com }) ∧
  (∀ (p : Port) (pg : Page) (s : State), s.admitsAt p pg → s.dev.com.gstate = .idle →
    s.dev.comState pg ∈ [comACCEPTED, comPENDING] →
    s.dev.hf pg HD_PAGE_STAT_XLATE_PEND = 0 → (pg = .exp → s.dev.f EXP_CTX_CTRL_COPY_BUSY = 0) →
    ∃ d, runs (.pageCommit p pg 0xC5#32) s d ∧ d.comState pg = comCHECKING ∧ d.hf pg HD_PAGE_STAT_COMMIT_PEND = 0 ∧
      pg ∉ d.com.accepted ∧ (d.pageCom pg).latched = pageWords pg (supersede pg s.dev).regs ∧
      d.f SYS_SUPERSEDED = (s.dev.f SYS_SUPERSEDED + 1) % 2 ^ 32 ∧
      onlyWords s.dev d [pg.base + 0x20, pg.base + 0x0C, SYS_SUPERSEDED.addr 0 0] ∧
      d = { s.dev with regs := d.regs, com := d.com }) ∧
  (∀ (p : Port) (pg : Page) (s : State), s.admitsAt p pg → s.dev.com.gstate = .idle → s.dev.comState pg = comCHECKING →
    s.dev.hf pg HD_PAGE_STAT_XLATE_PEND = 0 → (pg = .exp → s.dev.f EXP_CTX_CTRL_COPY_BUSY = 0) →
    ∃ d, runs (.pageCommit p pg 0xC5#32) s d ∧ pg ∈ d.com.rekey ∧ d = { s.dev with com := d.com }) ∧
  (∀ (p : Port) (pg : Page) (s : State), s.admitsAt p pg → s.dev.hf pg HD_PAGE_STAT_XLATE_PEND = 1 →
    ∃ d, runs (.pageCommit p pg 0xC5#32) s d ∧ pg ∈ d.com.behindXlate ∧ d = { s.dev with com := d.com }) ∧
  (∀ (p : Port) (pg : Page) (s : State), s.admitsAt p pg → s.dev.com.gstate = .checking →
    s.dev.hf pg HD_PAGE_STAT_XLATE_PEND = 0 →
    ∃ d, runs (.pageCommit p pg 0xC5#32) s d ∧ pg ∈ d.com.behindGlobal ∧ d = { s.dev with com := d.com }) ∧
  (∀ (p : Port) (pg : Page) (s : State), s.admitsAt p pg → s.dev.com.gstate = .accepted ∨ s.dev.com.gstate = .pending →
    s.dev.hf pg HD_PAGE_STAT_XLATE_PEND = 0 →
    ∃ d, runs (.pageCommit p pg 0xC5#32) s d ∧ d.comState pg = comFAILED ∧ d.hf pg HD_COMMIT_STAT_REASON = reBUSY ∧
      d.com = s.dev.com ∧ d.act = s.dev.act) ∧
  (∀ (p : Port) (s : State), s.admitsAt p .exp → s.dev.com.gstate = .idle → s.dev.hf .exp HD_PAGE_STAT_XLATE_PEND = 0 →
    s.dev.f EXP_CTX_CTRL_COPY_BUSY = 1 →
    runs (.pageCommit p .exp 0xC5#32) s { s.dev with com := { s.dev.com with behindCopy := true } }) ∧
  (∀ (p : Port) (pg : Page) (key : Word) (s : State), s.admitsAt p pg → key ≠ 0xC5#32 →
    runs (.pageCommit p pg key) s (s.dev.reject pg p (pg.base + 0x1C) key 5)) ∧
  (∀ (p : Port) (s : State) (e : Dev), s.admits p → s.dev.com.gstate = .idle → s.dev.anyChecking = false →
    s.dev.f EXP_CTX_CTRL_COPY_BUSY = 0 → e = fstBefore (s.dev.com.accepted.foldl (fun d q => supersede q d) s.dev) →
    ∃ d, runs (.gcommit p 0xC5#32) s d ∧ d.com.gstate = .checking ∧ d.com.glob = { latched := d.latchOf none } ∧
      (∀ q ∈ allPages, d.comState q = comCHECKING) ∧ onlyWords e d (allPages.map fun q => q.base + 0x20) ∧
      d = { e with regs := d.regs, com := d.com }) ∧
  (∀ (p : Port) (s : State) (x e : Dev), s.admits p → s.dev.com.gstate = .accepted ∨ s.dev.com.gstate = .pending →
    s.dev.anyChecking = false → s.dev.f EXP_CTX_CTRL_COPY_BUSY = 0 → x = dropGlobal s.dev →
    e = fstBefore (x.com.accepted.foldl (fun d q => supersede q d) x) →
    ∃ d, runs (.gcommit p 0xC5#32) s d ∧ d.com.gstate = .checking ∧ d.com.glob = { latched := d.latchOf none } ∧
      x.f SYS_SUPERSEDED = (s.dev.f SYS_SUPERSEDED + 1) % 2 ^ 32 ∧
      (∀ q ∈ allPages, d.comState q = comCHECKING ∧ (q ∉ s.dev.com.accepted → d.hf q HD_PAGE_STAT_COMMIT_PEND = 0)) ∧
      onlyWords e d (allPages.map fun q => q.base + 0x20) ∧ d = { e with regs := d.regs, com := d.com }) ∧
  (∀ (p : Port) (s : State), s.admits p → s.dev.com.gstate = .checking →
    runs (.gcommit p 0xC5#32) s { s.dev with com := { s.dev.com with gRekey := true } }) ∧
  (∀ (p : Port) (s : State), s.admits p → s.dev.com.gstate ≠ .checking →
    s.dev.anyChecking = true ∨ s.dev.f EXP_CTX_CTRL_COPY_BUSY = 1 →
    runs (.gcommit p 0xC5#32) s { s.dev with com := { s.dev.com with gHeld := true } }) ∧
  (∀ (p : Port) (key : Word) (s : State), s.admits p → key ≠ 0xC5#32 →
    runs (.gcommit p key) s (s.dev.reject .sys p 0x110 key 5)) ∧
  (∀ (pg : Page) (s : State), pg ∈ s.dev.com.behindXlate → s.dev.com.gstate = .idle →
    s.dev.comState pg ∈ [comIDLE, comDONE, comFAILED] → (pg = .exp → s.dev.f EXP_CTX_CTRL_COPY_BUSY = 0) →
    ∃ d, runs (.xlateHoldExpire pg) s d ∧ d.comState pg = comCHECKING ∧ pg ∉ d.com.behindXlate ∧
      (d.pageCom pg).latched = pageWords pg s.dev.regs ∧
      onlyWords s.dev d [pg.base + 0x20] ∧ d = { s.dev with regs := d.regs, com := d.com }) ∧
  (∀ (pg : Page) (s : State), pg ∈ s.dev.com.behindXlate → s.dev.com.gstate = .idle →
    s.dev.comState pg ∈ [comACCEPTED, comPENDING] → (pg = .exp → s.dev.f EXP_CTX_CTRL_COPY_BUSY = 0) →
    ∃ d, runs (.xlateHoldExpire pg) s d ∧ d.comState pg = comCHECKING ∧ pg ∉ d.com.behindXlate ∧ pg ∉ d.com.accepted ∧
      d.f SYS_SUPERSEDED = (s.dev.f SYS_SUPERSEDED + 1) % 2 ^ 32 ∧
      (d.pageCom pg).latched = pageWords pg (supersede pg s.dev).regs ∧ d = { s.dev with regs := d.regs, com := d.com }) ∧
  (∀ (pg : Page) (s : State), pg ∉ s.dev.com.behindXlate → runs (.xlateHoldExpire pg) s s.dev)

/-- R67 to R69: a check that finds a fault fails the commit and leaves the active sets; one that finds none accepts
it, at once where no capacity must rise first; a held commit that passes its limit fails with its hold's reason. Where
a clause rests on a reading of the model rather than on the rule's words, see log entries 47 and 49. -/
def Obligations.ChecksAndHoldsEnd : Prop :=
  (∀ (pg : Page) (f : Fail) (s : State), s.dev.comState pg = comCHECKING → s.dev.com.gstate = .idle →
    pg ∉ s.dev.com.rekey → pageCheck (s.dev.candidate (s.dev.pageCom pg).latched [pg]) pg = some f → f.ctx = none →
    ∃ d, runs (.commitCheckDone (some pg)) s d ∧ d.comState pg = comFAILED ∧
      d.hf pg HD_COMMIT_STAT_REASON = f.reason % 256 ∧ d.act = s.dev.act ∧
      onlyWords s.dev d [pg.base + 0xC, pg.base + 0x10, pg.base + 0x20]) ∧
  (∀ (pg : Page) (s : State), s.dev.comState pg = comCHECKING → s.dev.com.gstate = .idle →
    pg ∉ s.dev.com.rekey → pageCheck (s.dev.candidate (s.dev.pageCom pg).latched [pg]) pg = none →
    s.dev.enabled pg = true → capacityMeets s.dev (s.dev.candidate (s.dev.pageCom pg).latched [pg]) = true →
    ∃ d, runs (.commitCheckDone (some pg)) s d ∧ d.comState pg = comACCEPTED ∧
      d.hf pg HD_PAGE_STAT_COMMIT_PEND = 1 ∧ d.com.accepted = s.dev.com.accepted ++ [pg] ∧ d.act = s.dev.act ∧
      onlyWords s.dev d [pg.base + 0xC, pg.base + 0x20]) ∧
  (∀ (pg : Page) (s : State), s.dev.comState pg = comPENDING → pg ∈ s.dev.com.accepted →
    (s.dev.pageCom pg).hold ≠ .none →
    ∃ d, runs (.commitHoldTimeout (some pg)) s d ∧ d.comState pg = comFAILED ∧
      d.hf pg HD_COMMIT_STAT_REASON = holdReason (s.dev.pageCom pg).hold ∧
      pg ∉ d.com.accepted ∧ d.act = s.dev.act ∧
      onlyWords s.dev d [pg.base + 0xC, pg.base + 0x10, pg.base + 0x20])

/-! ## The mailbox (R90 to R95) -/

/-- R92: claim, post, acknowledge and the 100 ms limit. Where a clause rests on a reading of the model rather than on
the rule's words, see log entries 30 and 103. -/
def Obligations.MailboxSlotIsClaimed : Prop :=
  (∀ (p : Port) (k : Fin 64) (v : Word) (s : State), s.admits p → p ≠ .fw → s.dev.mbxServed = true →
    s.dev.f MBX_STAT_STATE = mbxIDLE → (s.dev.boot.run = .loader → p ≠ .inband) →
    ∃ d, runs (.mbxClaim p (BitVec.ofNat 24 (0x7200 + 4 * k.val)) v) s d ∧ d.f MBX_STAT_STATE = mbxLOADING ∧
      d.f MBX_RESP_OWNER = portCode p ∧ d.word (0x7200 + 4 * k.val) = v ∧
      onlyRegs s.dev d [0x710C, 0x7110, 0x7200 + 4 * k.val]) ∧
  (∀ (p q : Port) (k : Fin 64) (v : Word) (s : State), s.admits q → q ≠ .fw → p ≠ q → s.dev.mbxServed = true →
    s.dev.f MBX_STAT_STATE = mbxLOADING → s.dev.f MBX_RESP_OWNER = portCode p →
    runs (.mbxClaim q (BitVec.ofNat 24 (0x7200 + 4 * k.val)) v) s (s.dev.reject .mbx q (0x7200 + 4 * k.val) v 6)) ∧
  (∀ (k : Fin 64) (v : Word) (s : State), s.admits .inband → s.dev.boot.run = .loader →
    runs (.mbxClaim .inband (BitVec.ofNat 24 (0x7200 + 4 * k.val)) v) s (s.dev.reject .mbx .inband (0x7200 + 4 * k.val) v 6)) ∧
  (∀ (p : Port) (s : State), s.admits p → s.dev.mbxServed = true → s.dev.mbxMayLoad p = true →
    s.dev.f MBX_CMD_OPCODE ∈ mbxOpcodes →
    ∃ d, runs (.mbxGo p) s d ∧ d.f MBX_STAT_STATE = mbxPOSTED ∧ onlyRegs s.dev d [0x710C, 0x7110]) ∧
  (∀ (p : Port) (s : State), s.admits p → s.dev.mbxServed = true → (s.dev.f MBX_STAT_STATE = mbxDONE ∨
      s.dev.f MBX_STAT_STATE = mbxLOADING ∧ s.dev.f MBX_RESP_OWNER = portCode p) →
    ∃ d, runs (.mbxAck p) s d ∧ d.f MBX_STAT_STATE = mbxIDLE ∧ onlyRegs s.dev d [0x710C]) ∧
  (∀ (s : State), s.dev.mbxServed = true → s.dev.f MBX_STAT_STATE = mbxLOADING →
    ∃ d, runs .mbxLoadTimeout s d ∧ d.f MBX_STAT_STATE = mbxIDLE ∧
      d.word 0x7010 = s.dev.word 0x7010 ||| BitVec.ofNat 32 (2 ^ MBX_IRQ_RAW_MBX_ABORT.lo) ∧
      onlyWords s.dev d [0x710C, 0x7010])

/-- R93, R94: firmware's answer sets the result, the tag and the length, then DONE; IDENTIFY and ECHO answer OK; a
length wrong for the opcode is answered BAD_LENGTH and nothing else happens. Where a clause rests on a reading of the
model rather than on the rule's words, see log entries 30 and 31. -/
def Obligations.MailboxAnswers : Prop :=
  (∀ (d : Dev) (result : Nat) (resp : List Byte), result < 256 → resp.length ≤ 1024 →
    (d.mbxDone result resp).f MBX_STAT_STATE = mbxDONE ∧ (d.mbxDone result resp).f MBX_STAT_RESULT = result ∧
    (d.mbxDone result resp).f MBX_RESP_TAG = d.f MBX_CMD_TAG ∧
    (d.mbxDone result resp).f MBX_RESP_LEN_W = (wordsOf resp).length) ∧
  (∀ (s : State), s.posted 0x0001 0 → ∃ b, b.length = 24 ∧ b.take 4 = [0x12#8, 0x96#8, 0xB0#8, u8 (b2n s.dev.boot.image) |>.headD 0#8] ∧
    runs .identify s (s.dev.answered resOK b)) ∧
  (∀ (s : State) (n : Nat), n ≤ 64 → s.posted 0x0002 n →
    runs .echo s (s.dev.answered resOK (s.dev.cmdBytes 0 (4 * n)))) ∧
  (∀ (c : Instr) (opc n : Nat) (s : State), (c, opc, n) ∈ [(.identify, 0x0001, 0), (.presetLoad, 0x0010, 1),
      (.presetSave, 0x0011, 1), (.ctxSnapshot, 0x0020, 2), (.evrRead, 0x0030, 3), (.evrFreeze, 0x0031, 0),
      (.evrThaw, 0x0032, 0), (.evrClearNonce, 0x0033, 0), (.evrClear, 0x0034, 12), (.fwBegin, 0x0040, 2),
      (.fwEnd, 0x0042, 16), (.fwActivate, 0x0043, 1), (.histTrigger, 0x0050, 2), (.histFreeze, 0x0051, 0),
      (.histReplay, 0x0052, 3), (.timeStep, 0x0060, 3), (.phaseStep, 0x0061, 1), (.gaitSet, 0x0070, 1),
      (.thermalRead, 0x0071, 0), (.focusRun .go, 0x0080, 1), (.focusRun .word, 0x0080, 1),
      (.focusRun .frame, 0x0080, 1), (.linkRetrain, 0x0090, 1)] →
    (∃ m, m ≠ n ∧ s.posted opc m) → runs c s (s.dev.mbxDone resBAD_LENGTH))

/-! ## Readout engines: instructions (R157 to R175, R182 to R189) -/

/-- R158, R168: SET, SETH, ADD, MOV and NOP change the destination alone, at its width, and ADD and MOV set Z by the
result; the read-only registers (codes 8 to 14) keep their values. Where a clause rests on a reading of the model
rather than on the rule's words, see log entry 10. -/
def Obligations.EngineArithmeticWritesDestination : Prop :=
  (∀ (e : Fin 96) (dly : Fin 32) (s : State), s.dev.engReady e .nop dly = true →
    ∃ d, runs (.engNop e dly) s d ∧ onlyEngine s.dev d e ∧ (d.engine e).sameBuffers (s.dev.engine e) ∧
      ∀ now r, r < 15 → d.engReg e now r = s.dev.engReg e now r) ∧
  (∀ (e : Fin 96) (dst : Fin 15) (imm : BitVec 16) (dly : Fin 32) (s : State), s.dev.engReady e (.set dst imm) dly = true →
    ∃ d, runs (.engSet e dst imm dly) s d ∧ onlyEngine s.dev d e ∧ (d.engine e).sameBuffers (s.dev.engine e) ∧
      ∀ now r, r < 15 → d.engReg e now r =
        if r = dst.val ∧ r < 8 then imm.toNat % 2 ^ regWidth r else s.dev.engReg e now r) ∧
  (∀ (e : Fin 96) (dst : Fin 3) (imm : BitVec 16) (dly : Fin 32) (s : State), s.dev.engReady e (.seth dst imm) dly = true →
    ∃ d, runs (.engSeth e dst imm dly) s d ∧ onlyEngine s.dev d e ∧ (d.engine e).sameBuffers (s.dev.engine e) ∧
      ∀ now r, r < 15 → d.engReg e now r =
        if r = dst.val then imm.toNat * 65536 + s.dev.engReg e now r % 65536 else s.dev.engReg e now r) ∧
  (∀ (e : Fin 96) (ph : Fin 3) (dst : Fin 15) (imm : BitVec 12) (dly : Fin 32) (s : State),
    s.dev.engReady e (.add dst imm) dly = true →
    ∃ d v, runs (.engAdd e ph dst imm dly) s d ∧ onlyEngine s.dev d e ∧ (d.engine e).sameBuffers (s.dev.engine e) ∧
      v = unsigned (regWidth dst) (s.dev.engReg e (s.dev.cyc + ph) dst + imm.toInt) ∧ (d.engine e).z = decide (v = 0) ∧
      ∀ now r, r < 15 → r ≠ 9 → d.engReg e now r = if r = dst.val ∧ r < 8 then v else s.dev.engReg e now r) ∧
  (∀ (e : Fin 96) (ph : Fin 3) (dst src : Fin 15) (op : Fin 4) (dly : Fin 32) (s : State),
    s.dev.engReady e (.mov dst src op) dly = true →
    ∃ d v, runs (.engMov e ph dst src op dly) s d ∧ onlyEngine s.dev d e ∧ (d.engine e).sameBuffers (s.dev.engine e) ∧
      v = unsigned (regWidth dst) (movValue op (s.dev.engReg e (s.dev.cyc + ph) dst) (s.dev.engReg e (s.dev.cyc + ph) src)) ∧
      (d.engine e).z = decide (v = 0) ∧
      ∀ now r, r < 15 → r ≠ 9 → d.engReg e now r = if r = dst.val ∧ r < 8 then v else s.dev.engReg e now r)

/-- R161, R168, R169, R193, R196: where JMP goes, with no DELAY and after it; IRQ n sets PROGn; STOP and an illegal
word stop the engine and say so. Where a clause rests on a reading of the model rather than on the rule's words, see
log entries 10 and 60. -/
def Obligations.EngineControlFlow : Prop :=
  (∀ (e : Fin 96) (cond : Fin 14) (addr : Fin 1024) (s : State), s.dev.engReady e (.jmp cond addr) 0 = true →
    (s.dev.engine e).pendWrap = none →
    ∃ d, runs (.engJmp e cond addr 0) s d ∧ onlyEngine s.dev d e ∧
      (d.engine e).pc = (if (s.dev.engine e).jmpHolds cond then addr.val
        else if (s.dev.engine e).pc = (s.dev.engine e).wrapTop then (s.dev.engine e).wrapBot % 1024
        else ((s.dev.engine e).pc + 1) % 1024) ∧
      (d.engine e).x = (if cond = 3 then ((s.dev.engine e).x + (2 ^ 32 - 1)) % 2 ^ 32 else (s.dev.engine e).x) ∧
      (d.engine e).y = (if cond = 4 then ((s.dev.engine e).y + (2 ^ 32 - 1)) % 2 ^ 32 else (s.dev.engine e).y)) ∧
  (∀ (e : Fin 96) (cond : Fin 14) (addr : Fin 1024) (dly : Fin 32) (s : State),
    s.dev.engReady e (.jmp cond addr) dly = true → dly ≠ 0 → (s.dev.engine e).stepping = false →
    ∃ d, runs (.engJmp e cond addr dly) s d ∧ onlyEngine s.dev d e ∧ (d.engine e).pc = (s.dev.engine e).pc ∧
      (d.engine e).idle = true ∧
      (d.engine e).jump = if (s.dev.engine e).jmpHolds cond then some addr.val else none) ∧
  (∀ (e : Fin 96) (s : State), (s.dev.engine e).state = engRUN → (s.dev.engine e).idle = true →
    (s.dev.engine e).pendWrap = none →
    ∃ d, runs (.engDelayEnd e) s d ∧ onlyEngine s.dev d e ∧ (d.engine e).idle = false ∧
      (d.engine e).pc = match (s.dev.engine e).jump with
        | some a => a
        | none => if (s.dev.engine e).pc = (s.dev.engine e).wrapTop then (s.dev.engine e).wrapBot % 1024
          else ((s.dev.engine e).pc + 1) % 1024) ∧
  (∀ (e : Fin 96) (n : Fin 4) (dly : Fin 32) (s : State), s.dev.engReady e (.irq n) dly = true →
    ∃ d, runs (.engIrq e n dly) s d ∧ onlyWords s.dev d [(Page.eng e).base + 0x10] ∧
      d.word ((Page.eng e).base + 0x10) = s.dev.word ((Page.eng e).base + 0x10) ||| BitVec.ofNat 32 (2 ^ (8 + n.val)) ∧
      ∀ now r, r < 15 → d.engReg e now r = s.dev.engReg e now r) ∧
  (∀ (e : Fin 96) (dly : Fin 32) (s : State), s.dev.engReady e .stop dly = true →
    ∃ d, runs (.engStop e dly) s d ∧ (d.engine e).state = engSTOPPED ∧ onlyWords s.dev d [(Page.eng e).base + 0x10] ∧
      d.word ((Page.eng e).base + 0x10) = s.dev.word ((Page.eng e).base + 0x10) ||| BitVec.ofNat 32 (2 ^ 12) ∧
      d.ary = s.dev.ary) ∧
  (∀ (e : Fin 96) (s : State), (s.dev.engine e).issues = true → s.dev.engIns e = none →
    ∃ d, runs (.engIllegalOp e) s d ∧ (d.engine e).state = engILLEGAL ∧ (d.engine e).pc = (s.dev.engine e).pc ∧
      onlyWords s.dev d [(Page.eng e).base + 0x10] ∧
      d.word ((Page.eng e).base + 0x10) = s.dev.word ((Page.eng e).base + 0x10) ||| BitVec.ofNat 32 (2 ^ 13) ∧
      ∃ x, d.evq = s.dev.evq ++ [x] ∧ x.code = 0x04B ∧
        x.payload = u16 (s.dev.engine e).pc ++ u32 (s.dev.imem e (s.dev.engine e).pc).toNat)

/-- R174, R175, R172: the FIFOs of an engine, from both ends. Where a clause rests on a reading of the model rather
than on the rule's words, see log entry 10. -/
def Obligations.EngineFifosMoveWords : Prop :=
  (∀ (e : Fin 96) (nb : Bool) (dly : Fin 32) (w : Word) (l : List Word) (s : State),
    s.dev.engReady e (.pull true nb) dly = true → (s.dev.engine e).parF = w :: l →
    ∃ d, runs (.engPull e true nb dly) s d ∧ onlyEngine s.dev d e ∧ (d.engine e).x = w.toNat ∧ (d.engine e).parF = l ∧
      (d.engine e).stale = false) ∧
  (∀ (e : Fin 96) (nb : Bool) (dly : Fin 32) (x : CtxEntry) (l : List CtxEntry) (s : State),
    s.dev.engReady e (.pull false nb) dly = true → (s.dev.engine e).ctxF = x :: l →
    ∃ d, runs (.engPull e false nb dly) s d ∧ onlyEngine s.dev d e ∧ (d.engine e).c = x.ws ∧ (d.engine e).t = x.ty ∧
      (d.engine e).ctxF = l ∧ (d.engine e).stale = false) ∧
  (∀ (e : Fin 96) (dly : Fin 32) (s : State), s.dev.engReady e (.pull true true) dly = true → (s.dev.engine e).parF = [] →
    ∃ d, runs (.engPull e true true dly) s d ∧ (d.engine e).x = (s.dev.engine e).x ∧ (d.engine e).stale = true ∧
      d.fi ENG_PULL_STALE e 0 = (s.dev.fi ENG_PULL_STALE e 0 + 1) % 2 ^ 32 ∧
      onlyWords s.dev d [ENG_PULL_STALE.addr e 0]) ∧
  (∀ (e : Fin 96) (dly : Fin 32) (s : State), s.dev.engReady e (.pull true false) dly = true → (s.dev.engine e).parF = [] →
    ∃ d, runs (.engPull e true false dly) s d ∧ onlyEngine s.dev d e ∧ (d.engine e).state = engFIFO ∧
      (d.engine e).stall = .pull true) ∧
  (∀ (e : Fin 96) (w : Word) (l : List Word) (s : State), (s.dev.engine e).stall = .pull true →
    (s.dev.engine e).parF = w :: l →
    ∃ d, runs (.engPullDone e) s d ∧ onlyEngine s.dev d e ∧ (d.engine e).x = w.toNat ∧ (d.engine e).parF = l ∧
      (d.engine e).stall = .none) ∧
  (∀ (e : Fin 96) (ph : Fin 3) (src : ESrc) (nb : Bool) (dly : Fin 32) (s : State),
    s.dev.engReady e (.push src nb) dly = true → (s.dev.engine e).outF.length < 16 →
    ∃ d, runs (.engPush e ph src nb dly) s d ∧ onlyEngine s.dev d e ∧
      (d.engine e).outF = (s.dev.engine e).outF ++ [s.dev.pushWord e (s.dev.cyc + ph) src] ∧ (d.engine e).drop = false) ∧
  (∀ (e : Fin 96) (ph : Fin 3) (src : ESrc) (dly : Fin 32) (s : State),
    s.dev.engReady e (.push src true) dly = true → 16 ≤ (s.dev.engine e).outF.length →
    ∃ d, runs (.engPush e ph src true dly) s d ∧ (d.engine e).outF = (s.dev.engine e).outF ∧ (d.engine e).drop = true ∧
      d.fi ENG_PUSH_DROP e 0 = (s.dev.fi ENG_PUSH_DROP e 0 + 1) % 2 ^ 32 ∧
      onlyWords s.dev d [ENG_PUSH_DROP.addr e 0]) ∧
  (∀ (e : Fin 96) (v : Word) (s : State), (s.dev.engine e).stall = .push v → (s.dev.engine e).outF.length < 16 →
    ∃ d, runs (.engPushDone e) s d ∧ onlyEngine s.dev d e ∧ (d.engine e).outF = (s.dev.engine e).outF ++ [v] ∧
      (d.engine e).stall = .none) ∧
  (∀ (p : Port) (e : Fin 96) (v : Word) (s : State), s.admitsAt p (.eng e) → (s.dev.engine e).parF.length < 8 →
    ∃ d, runs (.engParamWrite p e v) s d ∧ onlyEngine s.dev d e ∧ (d.engine e).parF = (s.dev.engine e).parF ++ [v]) ∧
  (∀ (p : Port) (e : Fin 96) (v : Word) (s : State), s.admitsAt p (.eng e) → 8 ≤ (s.dev.engine e).parF.length →
    ∃ d, runs (.engParamWrite p e v) s d ∧ d.eng = s.dev.eng ∧
      d.fi ENG_PARAM_OVF e 0 = (s.dev.fi ENG_PARAM_OVF e 0 + 1) % 2 ^ 32 ∧
      onlyWords s.dev d [ENG_PARAM_OVF.addr e 0, (Page.eng e).base + 0x10]) ∧
  (∀ (p : Port) (e : Fin 96) (s : State), s.dev.serves = true →
    ∃ d, runs (.engOutRead p e) s d ∧ d.given p = [(s.dev.engine e).outF.headD 0#32] ∧
      (d.engine e).outF = (s.dev.engine e).outF.tail ∧ d.regs = s.dev.regs) ∧
  (∀ (e : Fin 96) (s : State), (s.dev.engine e).swLeft ≠ 0 → (s.dev.engine e).swFill = true →
    (s.dev.engine e).ctxF.length < 8 →
    ∃ d, runs (.ctxDmaEntry e) s d ∧ onlyEngine s.dev d e ∧ (d.engine e).swLeft = (s.dev.engine e).swLeft - 1 ∧
      (d.engine e).ctxF = (s.dev.engine e).ctxF ++
        [⟨(s.dev.engine e).swNext, s.dev.ctxWords (s.dev.engine e).swBank (tileNo e (s.dev.engine e).swNext)⟩])

/-- R164, R170, R189: what makes an instruction wait, and what ends the wait. Where a clause rests on a reading of the
model rather than on the rule's words, see log entries 10 and 53. -/
def Obligations.EngineWaitsAndBarriers : Prop :=
  (∀ (e : Fin 96) (ph : Fin 3) (cond : Fin 9) (arg : BitVec 16) (dly : Fin 32) (s : State),
    s.dev.engReady e (.wait cond arg) dly = true → (s.dev.engine e).stepping = false →
    ∃ d, runs (.engWait e ph cond arg dly) s d ∧ (∀ m, m ≠ e.val → d.engine m = s.dev.engine m) ∧
      (d.engine e).state = (if s.dev.waitHolds e (s.dev.cyc + ph) cond arg.toNat (s.dev.cyc + ph)
          (if cond = 1 then s.dev.time.tick else s.dev.ary.k) then engRUN else engWAIT) ∧
      (cond ≠ 0 → d.regs = s.dev.regs)) ∧
  (∀ (e : Fin 96) (ph : Fin 3) (cond arg issue tick : Nat) (s : State), (s.dev.engine e).stall = .wait cond arg issue tick →
    s.dev.waitHolds e (s.dev.cyc + ph) cond arg issue tick = true →
    ∃ d, runs (.engWaitDone e ph) s d ∧ onlyEngine s.dev d e ∧ (d.engine e).stall = .none) ∧
  (∀ (e : Fin 96) (ph : Fin 3) (p : EPort) (it ib : EInc) (dly : Fin 32) (s : State),
    s.dev.engReady e (.stb p it ib) dly = true → s.dev.curM ≤ (s.dev.engine e).p ∨ s.dev.passOver (s.dev.engine e).p = true →
    ∃ d, runs (.engStb e ph p it ib dly) s d ∧ d.fi ENG_ROW_LOST e 0 = (s.dev.fi ENG_ROW_LOST e 0 + 1) % 2 ^ 32 ∧
      d.word ((Page.eng e).base + 0x10) = s.dev.word ((Page.eng e).base + 0x10) ||| BitVec.ofNat 32 (2 ^ 16) ∧
      (d.engine e).stall = .none ∧ d.ary = s.dev.ary ∧
      onlyWords s.dev d [ENG_ROW_LOST.addr e 0, (Page.eng e).base + 0x10]) ∧
  (∀ (e : Fin 96) (ph : Fin 3) (p : EPort) (it ib : EInc) (dly : Fin 32) (s : State),
    s.dev.engReady e (.stb p it ib) dly = true → (s.dev.engine e).p < s.dev.curM → s.dev.passOver (s.dev.engine e).p = false →
    ∃ d, runs (.engStb e ph p it ib dly) s d ∧ onlyEngine s.dev d e ∧ (d.engine e).state = engSTROBE ∧
      (d.engine e).pc = (s.dev.engine e).pc) ∧
  (∀ (e : Fin 96) (ph : Fin 3) (g : Fin 16) (dly : Fin 32) (s : State), s.dev.engReady e (.sync g) dly = true →
    ∃ d, runs (.engSync e ph g dly) s d ∧ onlyEngine s.dev d e ∧ (d.engine e).state = engSYNC ∧
      (d.engine e).atSync g = true) ∧
  (∀ (g : Fin 16) (s : State), (∀ e ∈ s.dev.syncMembers g, (s.dev.engine e).atSync g = true) →
    ∃ d, runs (.engSyncRelease g) s d ∧ (∀ e ∈ s.dev.syncMembers g, (d.engine e).stall = .none) ∧
      (∀ e, e ∉ s.dev.syncMembers g → d.engine e = s.dev.engine e) ∧ d = { s.dev with eng := d.eng }) ∧
  (∀ (e : Fin 96) (g issue : Nat) (s : State), (s.dev.engine e).stall = .sync g issue → s.dev.ai ENG_SYNC_CFG_TMO e 0 ≠ 0 →
    ∃ d, runs (.engSyncTimeout e) s d ∧ (d.engine e).stall = .none ∧
      (∀ m, m ≠ e.val → d.engine m = s.dev.engine m) ∧
      d.fi ENG_SYNC_TMO e 0 = (s.dev.fi ENG_SYNC_TMO e 0 + 1) % 2 ^ 32 ∧
      ∃ x, d.evq = s.dev.evq ++ [x] ∧ x.code = 0x04A)

/-- R182 to R187: the shift chains. Where a clause rests on a reading of the model rather than on the rule's words,
see log entries 10 and 57. -/
def Obligations.EngineShiftChains : Prop :=
  (∀ (e : Fin 96) (ph : Fin 3) (bot : Bool) (src : Fin 15) (dly : Fin 32) (s : State),
    s.dev.engReady e (.shf bot src) dly = true →
    ∃ d, runs (.engShf e ph bot src dly) s d ∧ onlyEngine s.dev d e ∧
      ((d.engine e).chain bot).shift =
        (BitVec.ofNat 32 (s.dev.engReg e (s.dev.cyc + ph) src) :: ((s.dev.engine e).chain bot).shift).take 32 ∧
      ((d.engine e).chain bot).hold = ((s.dev.engine e).chain bot).hold ∧
      (d.engine e).chain (!bot) = (s.dev.engine e).chain (!bot)) ∧
  (∀ (e : Fin 96) (ph : Fin 3) (bot mirror : Bool) (dly : Fin 32) (s : State),
    s.dev.engReady e (.shg bot mirror) dly = true →
    ∃ d, runs (.engShg e ph bot mirror dly) s d ∧ onlyEngine s.dev d e ∧ (d.engine e).stall =
      .shg bot (gainWord (s.dev.readGain (tileNo e (if mirror then 63 - (s.dev.engine e).t else (s.dev.engine e).t))
        (s.dev.engine e).p)) (s.dev.cyc + ph)) ∧
  (∀ (e : Fin 96) (bot : Bool) (w : Word) (issue : Nat) (s : State), (s.dev.engine e).stall = .shg bot w issue →
    ∃ d, runs (.engShgDone e) s d ∧ onlyEngine s.dev d e ∧ ((d.engine e).chain bot).shift = List.replicate 32 w ∧
      (d.engine e).chain (!bot) = (s.dev.engine e).chain (!bot) ∧ (d.engine e).stall = .none) ∧
  (∀ (e : Fin 96) (p : EPort) (dly : Fin 32) (s : State), s.dev.engReady e (.latch p) dly = true →
    ∃ d, runs (.engLatch e p dly) s d ∧ onlyEngine s.dev d e ∧
      (d.engine e).top.hold = (if p = .bot then (s.dev.engine e).top.hold else some (s.dev.engine e).top.shift) ∧
      (d.engine e).bot.hold = (if p = .top then (s.dev.engine e).bot.hold else some (s.dev.engine e).bot.shift) ∧
      (d.engine e).top.shift = (s.dev.engine e).top.shift ∧ (d.engine e).bot.shift = (s.dev.engine e).bot.shift) ∧
  (∀ (e : Fin 96) (s : State), (s.dev.engine e).state = engFLUSH →
    ∃ d, runs (.engFlushDone e) s d ∧ (d.engine e).state = engRUN ∧ (d.engine e).dirty = false ∧
      (d.engine e).top.shift = (s.dev.engine e).top.drv ∧ (d.engine e).bot.shift = (s.dev.engine e).bot.drv ∧
      (d.engine e).top.hold = none ∧ (d.engine e).bot.hold = none ∧
      (d.engine e).top.drv = (s.dev.engine e).top.drv ∧ (d.engine e).bot.drv = (s.dev.engine e).bot.drv ∧
      (d.engine e).pc = (s.dev.engine e).pc ∧
      d.fi ENG_CHAIN_FLUSH e 0 = (s.dev.fi ENG_CHAIN_FLUSH e 0 + 1) % 2 ^ 32 ∧
      onlyWords s.dev d [ENG_CHAIN_FLUSH.addr e 0])

/-- R162, R186, R191, R192: HALT, RESUME, STEP, SNAP_REQ and writes to the instruction memory. Where a clause rests on
a reading of the model rather than on the rule's words, see log entry 57. -/
def Obligations.EngineHostControl : Prop :=
  (∀ (p : Port) (e : Fin 96) (s : State), s.admitsAt p (.eng e) → (s.dev.engine e).running = true →
    (s.dev.engine e).stall = .none → (s.dev.engine e).idle = false →
    ∃ d, runs (.engHalt p e) s d ∧ (d.engine e).state = engHALTED ∧ (d.engine e).pc = (s.dev.engine e).pc ∧
      d.fi ENG_CTRL_HALT e 0 = 1 ∧ onlyWords s.dev d [ENG_CTRL_HALT.addr e 0] ∧
      (∀ m, m ≠ e.val → d.engine m = s.dev.engine m)) ∧
  (∀ (p : Port) (e : Fin 96) (s : State), s.admitsAt p (.eng e) → (s.dev.engine e).running = true →
    (∃ c a i k, (s.dev.engine e).stall = .wait c a i k) →
    ∃ d, runs (.engHalt p e) s d ∧ (d.engine e).state = engHALTED ∧ (d.engine e).stall = .none ∧
      (d.engine e).pc = (s.dev.engine e).pc) ∧
  (∀ (p : Port) (e : Fin 96) (s : State), s.admitsAt p (.eng e) → (s.dev.engine e).state = engHALTED →
    ∃ d, runs (.engResume p e) s d ∧ (d.engine e).state = (if (s.dev.engine e).dirty then engFLUSH else engRUN) ∧
      (d.engine e).pc = (s.dev.engine e).pc ∧ d.fi ENG_CTRL_HALT e 0 = 0 ∧
      onlyWords s.dev d [ENG_CTRL_HALT.addr e 0]) ∧
  (∀ (p : Port) (e : Fin 96) (s : State), s.admitsAt p (.eng e) →
    (s.dev.engine e).state = engHALTED ∨ (s.dev.engine e).state = engILLEGAL →
    ∃ d, runs (.engStep p e) s d ∧ onlyEngine s.dev d e ∧ (d.engine e).stepping = true ∧
      (d.engine e).state = (if (s.dev.engine e).dirty then engFLUSH else engRUN)) ∧
  (∀ (p : Port) (e : Fin 96) (s : State), s.admitsAt p (.eng e) →
    ∃ d, runs (.engSnapReq p e) s d ∧ d.fi ENG_PC_SNAP_PC e 0 = (s.dev.engine e).pc % 1024 ∧
      d.fi ENG_PC_SNAP_VALID e 0 = 1 ∧ onlyRegs s.dev d [ENG_PC_SNAP_PC.addr e 0]) ∧
  (∀ (p : Port) (e : Fin 96) (i : Fin 1024) (v : Word) (s : State), s.admitsAt p (.eng e) → (s.dev.engine e).running = false →
    ∃ d, runs (.engImemWrite p (BitVec.ofNat 24 (imemAddr e i)) v) s d ∧ d.imem e i = v ∧
      onlyRegs s.dev d [imemAddr e i]) ∧
  (∀ (p : Port) (e : Fin 96) (i : Fin 1024) (v : Word) (s : State), s.admitsAt p (.eng e) → (s.dev.engine e).running = true →
    inWindow (s.dev.engine e).wrapTop (s.dev.engine e).wrapBot i = true →
    runs (.engImemWrite p (BitVec.ofNat 24 (imemAddr e i)) v) s (s.dev.reject (.eng e) p (imemAddr e i) v 1))

/-! ## Pin engines and their pins (R234 to R255) -/

/-- R238, R240: NOP, LDI, LDK, ADDI and MOV write their destination and, ADDI and MOV, Z and N; the next instruction
follows where DELAY is 0. Where a clause rests on a reading of the model rather than on the rule's words, see log
entry 10. -/
def Obligations.PinArithmeticWritesDestination : Prop :=
  (∀ (e : Fin 8) (s : State), s.dev.peReady e .nop 0 = true →
    ∃ d, runs (.peNop e 0) s d ∧ onlyPin s.dev d e ∧ d.pin e = { s.dev.pin e with pc := ((s.dev.pin e).pc + 1) % 32, jump := none }) ∧
  (∀ (e : Fin 8) (dly : Fin 16) (s : State), s.dev.peReady e .nop dly = true → dly ≠ 0 →
    ∃ d, runs (.peNop e dly) s d ∧ onlyPin s.dev d e ∧ d.pin e = { s.dev.pin e with idle := true, jump := none }) ∧
  (∀ (e : Fin 8) (s : State), (s.dev.pin e).idle = true →
    ∃ d, runs (.peDelayEnd e) s d ∧ onlyPin s.dev d e ∧ (d.pin e).idle = false ∧
      (d.pin e).pc = ((s.dev.pin e).jump.getD (((s.dev.pin e).pc + 1) % 32))) ∧
  (∀ (e : Fin 8) (r : Fin 4) (imm : BitVec 6) (dly : Fin 16) (s : State), s.dev.peReady e (.ldi r imm) dly = true →
    ∃ d, runs (.peLdi e r imm dly) s d ∧ onlyPin s.dev d e ∧ (d.pin e).z = (s.dev.pin e).z ∧ (d.pin e).n = (s.dev.pin e).n ∧
      ∀ q < 4, (d.pin e).reg q = if q = r.val then imm.toNat else (s.dev.pin e).reg q) ∧
  (∀ (e : Fin 8) (r : Fin 4) (k : Fin 8) (dly : Fin 16) (s : State), s.dev.peReady e (.ldk r k) dly = true →
    ∃ d, runs (.peLdk e r k dly) s d ∧ onlyPin s.dev d e ∧ (d.pin e).z = (s.dev.pin e).z ∧ (d.pin e).n = (s.dev.pin e).n ∧
      ∀ q < 4, (d.pin e).reg q = if q = r.val then s.dev.ai PE_K e k % 2 ^ 32 else (s.dev.pin e).reg q) ∧
  (∀ (e : Fin 8) (r : Fin 4) (imm : BitVec 6) (dly : Fin 16) (s : State), s.dev.peReady e (.addi r imm) dly = true →
    ∃ d v, runs (.peAddi e r imm dly) s d ∧ onlyPin s.dev d e ∧ v = unsigned 32 ((s.dev.pin e).reg r + imm.toInt) ∧
      (d.pin e).z = decide (v = 0) ∧ (d.pin e).n = v.testBit 31 ∧
      ∀ q < 4, (d.pin e).reg q = if q = r.val then v else (s.dev.pin e).reg q) ∧
  (∀ (e : Fin 8) (r q : Fin 4) (op : Fin 4) (dly : Fin 16) (s : State), s.dev.peReady e (.mov r q op) dly = true →
    ∃ d v, runs (.peMov e r q op dly) s d ∧ onlyPin s.dev d e ∧
      v = unsigned 32 (movResult ((s.dev.pin e).reg r) ((s.dev.pin e).reg q) op) ∧
      (d.pin e).z = decide (v = 0) ∧ (d.pin e).n = v.testBit 31 ∧
      ∀ j < 4, (d.pin e).reg j = if j = r.val then v else (s.dev.pin e).reg j)

/-- R239, R241, R242, R243: where JMP goes; WAIT, DLY and QDEC complete at once or stall, and a stall ends when its
condition comes. Where a clause rests on a reading of the model rather than on the rule's words, see log entries 10
and 61. -/
def Obligations.PinControlFlowAndWaits : Prop :=
  (∀ (e : Fin 8) (cond : Fin 8) (addr : Fin 32) (dly : Fin 16) (s : State), s.dev.peReady e (.jmp cond addr) dly = true →
    ∃ d, runs (.peJmp e cond addr dly) s d ∧ onlyPin s.dev d e ∧
      (d.pin e).a = (if cond = 4 then unsigned 32 ((s.dev.pin e).a - 1) else (s.dev.pin e).a) ∧
      (dly = 0 → (d.pin e).pc = if s.dev.peCond e cond then addr.val else ((s.dev.pin e).pc + 1) % 32) ∧
      (dly ≠ 0 → (d.pin e).pc = (s.dev.pin e).pc ∧ (d.pin e).idle = true ∧
        (d.pin e).jump = if s.dev.peCond e cond then some addr.val else none)) ∧
  (∀ (e : Fin 8) (d : Dev), d.peCond e 0 = true ∧ d.peCond e 1 = (d.pin e).z ∧ d.peCond e 2 = !(d.pin e).z ∧
    d.peCond e 3 = (d.pin e).n ∧ d.peCond e 4 = decide ((d.pin e).a ≠ 0) ∧
    d.peCond e 5 = d.pinLevel e (d.fi PE_IN_CFG_JPIN e 0) ∧ d.peCond e 6 = (d.pin e).stale ∧
    d.peCond e 7 = decide ((d.pin e).parF = [])) ∧
  (∀ (e : Fin 8) (w : PWait) (dly : Fin 16) (s : State), s.dev.peReady e (.wait w) dly = true → s.dev.peLevel e w = true →
    ∃ d, runs (.peWait e w dly) s d ∧ onlyPin s.dev d e ∧ (d.pin e).stall = .none ∧ (d.pin e).state = peRUN) ∧
  (∀ (e : Fin 8) (w : PWait) (dly : Fin 16) (s : State), s.dev.peReady e (.wait w) dly = true → s.dev.peLevel e w = false →
    ∃ d, runs (.peWait e w dly) s d ∧ onlyPin s.dev d e ∧
      d.pin e = { s.dev.pin e with state := peWAIT, stall := .wait w false }) ∧
  (∀ (e : Fin 8) (w : PWait) (met : Bool) (s : State), (s.dev.pin e).stall = .wait w met →
    met = true ∨ s.dev.peLevel e w = true →
    ∃ d, runs (.peWaitDone e) s d ∧ onlyPin s.dev d e ∧ (d.pin e).stall = .none ∧ (d.pin e).state = peRUN ∧
      (s.dev.peDelay e = 0 → (d.pin e).pc = ((s.dev.pin e).pc + 1) % 32)) ∧
  (∀ (e : Fin 8) (konst : Bool) (n : Fin 8) (dly : Fin 16) (s : State), s.dev.peReady e (.dly konst n) dly = true →
    ∃ d, runs (.peDly e konst n dly) s d ∧ onlyPin s.dev d e ∧ (d.pin e).state = peRUN ∧
      (d.pin e).stall = if (if konst then s.dev.ai PE_K e n else (s.dev.pin e).reg n) = 0 then .none else .dly) ∧
  (∀ (e : Fin 8) (s : State), (s.dev.pin e).stall = .dly → s.dev.peDelay e = 0 →
    ∃ d, runs (.peDlyDone e) s d ∧ onlyPin s.dev d e ∧ (d.pin e).stall = .none ∧
      (d.pin e).pc = ((s.dev.pin e).pc + 1) % 32) ∧
  (∀ (e : Fin 8) (dly : Fin 16) (s : State), s.dev.peReady e (.qdec true) dly = true → s.dev.quadNow e = (s.dev.pin e).quad →
    ∃ d, runs (.peQdec e true dly) s d ∧ onlyPin s.dev d e ∧
      d.pin e = { s.dev.pin e with state := peWAIT, stall := .qdec }) ∧
  (∀ (e : Fin 8) (blk : Bool) (dly : Fin 16) (s : State), s.dev.peReady e (.qdec blk) dly = true →
    (quadPos (s.dev.quadNow e) + 4 - quadPos (s.dev.pin e).quad) % 4 = 1 →
    ∃ d, runs (.peQdec e blk dly) s d ∧ onlyPin s.dev d e ∧ (d.pin e).quad = s.dev.quadNow e ∧
      (d.pin e).d = ((s.dev.pin e).d + 1) % 2 ^ 32 ∧ (d.pin e).z = false ∧ (d.pin e).n = false) ∧
  (∀ (e : Fin 8) (s : State), (s.dev.pin e).stall = .qdec →
    (quadPos (s.dev.quadNow e) + 4 - quadPos (s.dev.pin e).quad) % 4 = 3 →
    ∃ d, runs (.peQdecDone e) s d ∧ onlyPin s.dev d e ∧ (d.pin e).quad = s.dev.quadNow e ∧ (d.pin e).stall = .none ∧
      (d.pin e).d = unsigned 32 ((s.dev.pin e).d - 1) ∧ (d.pin e).z = false ∧ (d.pin e).n = true) ∧
  (∀ (e : Fin 8) (s : State), (s.dev.pin e).stall = .qdec →
    (quadPos (s.dev.quadNow e) + 4 - quadPos (s.dev.pin e).quad) % 4 = 2 →
    ∃ d, runs (.peQdecDone e) s d ∧ (d.pin e).quad = s.dev.quadNow e ∧ (d.pin e).d = (s.dev.pin e).d ∧ (d.pin e).z = true ∧
      d.fi PE_QDEC_ERR e 0 = (s.dev.fi PE_QDEC_ERR e 0 + 1) % 2 ^ 32 ∧ (∃ x, d.evq = s.dev.evq ++ [x] ∧ x.code = 0x051) ∧
      onlyPinWords s.dev d e [PE_QDEC_ERR.addr e 0, (Page.pe e).base + 0x10])

/-- R249, R250: the FIFOs of a pin engine, from both ends, and its DMA. Where a clause rests on a reading of the model
rather than on the rule's words, see log entry 10. -/
def Obligations.PinFifosMoveWords : Prop :=
  (∀ (e : Fin 8) (nb : Bool) (dly : Fin 16) (w : Word) (l : List Word) (s : State),
    s.dev.peReady e (.pull nb) dly = true → (s.dev.pin e).parF = w :: l →
    ∃ d, runs (.pePull e nb dly) s d ∧ onlyPin s.dev d e ∧ (d.pin e).a = w.toNat ∧ (d.pin e).parF = l ∧
      (d.pin e).stale = false) ∧
  (∀ (e : Fin 8) (dly : Fin 16) (s : State), s.dev.peReady e (.pull true) dly = true → (s.dev.pin e).parF = [] →
    ∃ d, runs (.pePull e true dly) s d ∧ (d.pin e).a = (s.dev.pin e).a ∧ (d.pin e).stale = true ∧
      d.fi PE_PULL_STALE e 0 = (s.dev.fi PE_PULL_STALE e 0 + 1) % 2 ^ 32 ∧ onlyPinWords s.dev d e [PE_PULL_STALE.addr e 0]) ∧
  (∀ (e : Fin 8) (dly : Fin 16) (s : State), s.dev.peReady e (.pull false) dly = true → (s.dev.pin e).parF = [] →
    ∃ d, runs (.pePull e false dly) s d ∧ onlyPin s.dev d e ∧ d.pin e = { s.dev.pin e with state := peFIFO, stall := .pull }) ∧
  (∀ (e : Fin 8) (w : Word) (l : List Word) (s : State), (s.dev.pin e).stall = .pull → (s.dev.pin e).parF = w :: l →
    ∃ d, runs (.pePullDone e) s d ∧ onlyPin s.dev d e ∧ (d.pin e).a = w.toNat ∧ (d.pin e).parF = l ∧
      (d.pin e).stall = .none) ∧
  (∀ (e : Fin 8) (r : Fin 4) (nb : Bool) (dly : Fin 16) (s : State), s.dev.peReady e (.push r nb) dly = true →
    (s.dev.pin e).outF.length < 8 → s.dev.peDmaOn e = false →
    ∃ d, runs (.pePush e r nb dly) s d ∧ onlyPin s.dev d e ∧ (d.pin e).drop = false ∧
      (d.pin e).outF = (s.dev.pin e).outF ++ [BitVec.ofNat 32 ((s.dev.pin e).reg r)]) ∧
  (∀ (e : Fin 8) (r : Fin 4) (nb : Bool) (dly : Fin 16) (s : State) (n : Nat) (ws : List Word),
    s.dev.peReady e (.push r nb) dly = true → (s.dev.pin e).outF.length < 8 → s.dev.peDmaOn e = true →
    n = s.dev.fi PE_DMA_CFG_BATCH e 0 → ws = (s.dev.pin e).outF ++ [BitVec.ofNat 32 ((s.dev.pin e).reg r)] →
    n ≤ ws.length → s.dev.queueOpen (s.dev.fi PE_DMA_CFG_QID e 0) = true →
    ∃ d, runs (.pePush e r nb dly) s d ∧ (d.pin e).outF = ws.drop n ∧
      d.reqs = s.dev.reqs ++ [.peData e (s.dev.fi PE_DMA_CFG_QID e 0) (ws.take n)] ∧ onlyPinWords s.dev d e []) ∧
  (∀ (e : Fin 8) (r : Fin 4) (dly : Fin 16) (s : State), s.dev.peReady e (.push r true) dly = true →
    8 ≤ (s.dev.pin e).outF.length →
    ∃ d, runs (.pePush e r true dly) s d ∧ (d.pin e).outF = (s.dev.pin e).outF ∧ (d.pin e).drop = true ∧
      d.fi PE_PUSH_DROP e 0 = (s.dev.fi PE_PUSH_DROP e 0 + 1) % 2 ^ 32 ∧ onlyPinWords s.dev d e [PE_PUSH_DROP.addr e 0]) ∧
  (∀ (e : Fin 8) (r : Fin 4) (dly : Fin 16) (s : State), s.dev.peReady e (.push r false) dly = true →
    8 ≤ (s.dev.pin e).outF.length →
    ∃ d, runs (.pePush e r false dly) s d ∧ onlyPin s.dev d e ∧
      d.pin e = { s.dev.pin e with state := peFIFO, stall := .push [BitVec.ofNat 32 ((s.dev.pin e).reg r)] }) ∧
  (∀ (e : Fin 8) (ws : List Word) (s : State), (s.dev.pin e).stall = .push ws → (s.dev.pin e).outF.length + ws.length ≤ 8 →
    s.dev.peDmaOn e = false →
    ∃ d, runs (.pePushDone e) s d ∧ onlyPin s.dev d e ∧ (d.pin e).stall = .none ∧
      (d.pin e).outF = (s.dev.pin e).outF ++ ws) ∧
  (∀ (e : Fin 8) (nb : Bool) (dly : Fin 16) (s : State), s.dev.peReady e (.stamp nb) dly = true →
    (s.dev.pin e).outF.length ≤ 6 → s.dev.peDmaOn e = false →
    ∃ d, runs (.peStamp e nb dly) s d ∧ onlyPin s.dev d e ∧
      (d.pin e).outF = (s.dev.pin e).outF ++
        [BitVec.ofNat 32 s.dev.time.tick, BitVec.ofNat 32 (s.dev.time.tick / 2 ^ 32)]) ∧
  (∀ (e : Fin 8) (s : State), s.dev.peDmaOn e = true → s.dev.fi PE_DMA_TMO_TMO e 0 ≠ 0 → (s.dev.pin e).outF ≠ [] →
    s.dev.queueOpen (s.dev.fi PE_DMA_CFG_QID e 0) = true →
    ∃ d, runs (.peDmaTimeout e) s d ∧ (d.pin e).outF = (s.dev.pin e).outF.drop (s.dev.fi PE_DMA_CFG_BATCH e 0) ∧
      d.reqs = s.dev.reqs ++
        [.peData e (s.dev.fi PE_DMA_CFG_QID e 0) ((s.dev.pin e).outF.take (s.dev.fi PE_DMA_CFG_BATCH e 0))] ∧
      onlyPinWords s.dev d e [])

/-- R249, R251: PARAM, OUT and FLUSH from a port. -/
def Obligations.PinFifosServePorts : Prop :=
  (∀ (p : Port) (e : Fin 8) (v : Word) (s : State), s.admitsAt p (.pe e) → (s.dev.pin e).fwOwn = false →
    (s.dev.pin e).parF.length < 8 →
    ∃ d, runs (.peParamWrite p e v) s d ∧ onlyPin s.dev d e ∧ (d.pin e).parF = (s.dev.pin e).parF ++ [v]) ∧
  (∀ (p : Port) (e : Fin 8) (v : Word) (s : State), s.admitsAt p (.pe e) → (s.dev.pin e).fwOwn = false →
    8 ≤ (s.dev.pin e).parF.length →
    ∃ d, runs (.peParamWrite p e v) s d ∧ d.pe = s.dev.pe ∧
      d.fi PE_PARAM_OVF e 0 = (s.dev.fi PE_PARAM_OVF e 0 + 1) % 2 ^ 32 ∧
      onlyRaised s.dev d [PE_PARAM_OVF.addr e 0, (Page.pe e).base + 0x10]) ∧
  (∀ (p : Port) (e : Fin 8) (v : Word) (s : State), s.admitsAt p (.pe e) → (s.dev.pin e).fwOwn = true → p ≠ .fw →
    runs (.peParamWrite p e v) s (s.dev.reject (.pe e) p (PE_PARAM.addr e 0) v 6)) ∧
  (∀ (p : Port) (e : Fin 8) (w : Word) (l : List Word) (s : State), s.dev.serves = true → (s.dev.pin e).outF = w :: l →
    s.dev.fi PE_DMA_CFG_EN e 0 = 0 → (s.dev.pin e).fwOwn = false →
    ∃ d, runs (.peOutRead p e) s d ∧ d.given p = [w] ∧ (d.pin e).outF = l ∧ d = { s.dev with pe := d.pe, out := d.out } ∧
      ∀ m, m ≠ e.val → d.pin m = s.dev.pin m) ∧
  (∀ (p : Port) (e : Fin 8) (s : State), s.dev.serves = true →
    (s.dev.pin e).outF = [] ∨ s.dev.fi PE_DMA_CFG_EN e 0 = 1 ∧ (s.dev.pin e).fwOwn = false →
    ∃ d, runs (.peOutRead p e) s d ∧ d.given p = [0#32] ∧ d = { s.dev with out := d.out }) ∧
  (∀ (p : Port) (e : Fin 8) (s : State), s.admitsAt p (.pe e) → s.dev.hf (.pe e) HD_PAGE_CTRL_EN = 0 →
    ∃ d, runs (.peFlush p e) s d ∧ onlyPin s.dev d e ∧ d.pin e = { s.dev.pin e with parF := [], outF := [] }) ∧
  (∀ (p : Port) (e : Fin 8) (s : State), s.admitsAt p (.pe e) → s.dev.hf (.pe e) HD_PAGE_CTRL_EN ≠ 0 →
    runs (.peFlush p e) s s.dev)

/-- R246, R251, R252: the outputs as SETP sets them and the guard forces them; IRQ, STOP and an illegal word. Where a
clause rests on a reading of the model rather than on the rule's words, see log entries 10 and 61. -/
def Obligations.PinOutputsAndStops : Prop :=
  (∀ (e : Fin 8) (mask value : Fin 16) (dly : Fin 16) (s : State), s.dev.peReady e (.setp mask value) dly = true →
    ∃ d, runs (.peSetp e mask value dly) s d ∧ onlyPin s.dev d e ∧
      ∀ j < 4, (d.pin e).outs.testBit j = if mask.val.testBit j then value.val.testBit j else (s.dev.pin e).outs.testBit j) ∧
  (∀ (e : Fin 8) (j : Fin 4) (s : State), s.dev.fi PE_OUT_GUARD_MAX_ON e 0 ≠ 0 →
    (s.dev.fi PE_OUT_GUARD_MASK e 0).testBit j = true → s.dev.peOut e j ≠ (s.dev.peSafe e).testBit j →
    ∃ d, runs (.peGuardTrip e j) s d ∧ d.peOut e j = (d.peSafe e).testBit j ∧ (d.pin e).pc = (s.dev.pin e).pc ∧
      (d.pin e).state = (s.dev.pin e).state ∧ d.fi PE_GUARD_TRIP e 0 = (s.dev.fi PE_GUARD_TRIP e 0 + 1) % 2 ^ 32 ∧
      (∃ x, d.evq = s.dev.evq ++ [x] ∧ x.code = 0x053) ∧
      onlyPinWords s.dev d e [PE_GUARD_TRIP.addr e 0, (Page.pe e).base + 0x10]) ∧
  (∀ (e : Fin 8) (n : Fin 2) (dly : Fin 16) (s : State), s.dev.peReady e (.irq n) dly = true →
    ∃ d, runs (.peIrq e n dly) s d ∧ onlyPinWords s.dev d e [(Page.pe e).base + 0x10] ∧
      d.word ((Page.pe e).base + 0x10) = s.dev.word ((Page.pe e).base + 0x10) ||| BitVec.ofNat 32 (2 ^ (8 + n.val))) ∧
  (∀ (e : Fin 8) (dly : Fin 16) (s : State), s.dev.peReady e .stop dly = true → (.pe e) ∉ s.dev.com.accepted → s.dev.com.gstate ≠ .accepted →
    s.dev.com.gstate ≠ .pending →
    ∃ d, runs (.peStop e dly) s d ∧ (d.pin e).state = peSTOPPED ∧ (d.pin e).cause = 2 ∧ (d.pin e).outs = s.dev.peSafe e ∧
      (d.pin e).parF = (s.dev.pin e).parF ∧ (d.pin e).outF = (s.dev.pin e).outF ∧
      d.hf (.pe e) HD_PAGE_CTRL_EN = 0 ∧ d.hf (.pe e) HD_PAGE_STAT_ACTIVE = 0 ∧
      onlyPinWords s.dev d e [(Page.pe e).base + 8, (Page.pe e).base + 0xC, (Page.pe e).base + 0x10]) ∧
  (∀ (e : Fin 8) (dly : Fin 16) (s : State), s.dev.peReady e .stop dly = true → s.dev.enabled (.pe e) = true →
    (.pe e) ∈ s.dev.com.accepted →
    ∃ d, runs (.peStop e dly) s d ∧ (d.pin e).state = peSTOPPED ∧ d.hf (.pe e) HD_PAGE_CTRL_EN = 0 ∧
      (.pe e) ∉ d.com.accepted ∧ d.comState (.pe e) = comFAILED ∧ d.hf (.pe e) HD_COMMIT_STAT_REASON = 0xC) ∧
  (∀ (e : Fin 8) (s : State), (s.dev.pin e).issues = true → s.dev.peIns e = none → (.pe e) ∉ s.dev.com.accepted → s.dev.com.gstate ≠ .accepted →
    s.dev.com.gstate ≠ .pending →
    ∃ d, runs (.peIllegal e) s d ∧ (d.pin e).state = peSTOPPED ∧ (d.pin e).cause = 3 ∧ (d.pin e).pc = (s.dev.pin e).pc ∧
      (∃ x, d.evq = s.dev.evq ++ [x] ∧ x.code = 0x052) ∧
      onlyPinWords s.dev d e [(Page.pe e).base + 8, (Page.pe e).base + 0xC, (Page.pe e).base + 0x10])

/-! ## The array, its schedule and its shutters (R97 to R133, R176 to R181, R199 to R207) -/

/-- R141, R163, R200, R204: START and STOP of readout; at the first start tick the row clock begins with exposures
alone, at a later one with a frame that is read, and at the stop tick readout is STOPPED; where no start tick is
possible nothing happens. Where a clause rests on a reading of the model rather than on the rule's words, see log
entries 51 and 52. -/
def Obligations.ScheduleRunsFrames : Prop :=
  (∀ (p : Port) (s : State), s.admitsAt p .ary → s.dev.runState = runSTOPPED → s.dev.enabled .ary = true →
    ∃ d, runs (.aryStart p) s d ∧ d.runState = runARMED ∧
      d.ary = { s.dev.ary with startAt := s.dev.cyc, startTrt := none, startTa := d.ary.startTa } ∧
      (s.dev.f ARY_START_CFG_SRC ≠ 1 → d.ary.startTa = none) ∧
      d = { s.dev with regs := d.regs, ary := d.ary } ∧ onlyWords s.dev d [0x101A4]) ∧
  (∀ (p : Port) (s : State), s.admitsAt p .ary → s.dev.runState ≠ runSTOPPED ∨ s.dev.enabled .ary = false →
    runs (.aryStart p) s (s.dev.reject .ary p 0x101A0 1#32 7)) ∧
  (∀ (p : Port) (s : State), s.admitsAt p .ary → s.dev.runState = runARMED → s.dev.enabled .ary = true →
    ∃ d, runs (.aryStop p) s d ∧ d.runState = runSTOPPED ∧ onlyRegs s.dev d [0x101A4]) ∧
  (∀ (p : Port) (s : State), s.admitsAt p .ary → s.dev.runState = runRUNNING →
    ∃ d, runs (.aryStop p) s d ∧ d.runState = runSTOPPING ∧ d.f TRG_TRIG_STAT_PEND = 0 ∧ d.ary = { s.dev.ary with request := none } ∧
      d = { s.dev with regs := d.regs, ary := d.ary } ∧ onlyWords s.dev d [0x101A4, 0x13150]) ∧
  (∀ (p : Port) (s : State), s.admitsAt p .ary → s.dev.runState = runSTOPPED → runs (.aryStop p) s s.dev) ∧
  (∀ (s : State), s.dev.tickDue = true → s.dev.runState = runARMED →
    ∃ d, runs .startTick s d ∧ d.ary.cur = none ∧ d.ary.armOnly = true ∧ d.ary.pass = 0 ∧ d.ary.offered = 0 ∧
      d.ary.passB = [d.ary.lastTick] ∧ d.ary.complete = false) ∧
  (∀ (s : State), s.dev.tickDue = true → s.dev.runState = runRUNNING →
    ∃ d u, runs .startTick s d ∧ d.ary.cur = some u ∧ d.ary.armOnly = false ∧ d.ary.pass = 0 ∧ d.ary.offered = 0 ∧
      d.ary.passB = [d.ary.lastTick] ∧ d.ary.complete = false) ∧
  (∀ (s : State), s.dev.tickDue = true → s.dev.runState = runSTOPPING →
    ∃ d, runs .startTick s d ∧ d.ary.cur = none ∧ d.ary.armOnly = false ∧ d.runState = runSTOPPED) ∧
  (∀ (s : State), s.dev.tickDue = false → runs .startTick s s.dev)

/-- R117, R119, R163, R225: the row clock, the preamble, a conversion's result and the limit of a strip frame. Where a
clause rests on a reading of the model rather than on the rule's words, see log entries 53, 56, 63 and 70. -/
def Obligations.RowClockOffersBoundaries : Prop :=
  (∀ (ph : Fin 3) (u : Nat) (s : State), s.dev.ary.cur = some u → s.dev.ary.complete = false →
    s.dev.ary.offered < s.dev.clockedRows u →
    ∃ d, runs (.rowBoundary ph) s d ∧ d.ary.offered = s.dev.ary.offered + 1 ∧ d.ary.pass = s.dev.ary.pass ∧
      d.ary.lastB = s.dev.cyc + ph) ∧
  (∀ (ph : Fin 3) (s : State), s.dev.ary.cur = none ∨ s.dev.ary.complete = true → runs (.rowBoundary ph) s s.dev) ∧
  (∀ (u : Nat) (s : State), s.dev.ary.cur = some u → (s.dev.frame u).sched = schedSTRIP → s.dev.ary.complete = false →
    s.dev.stripsOut = [] →
    ∃ d, runs .stripFrameTimeout s d ∧ d.ary.complete = true ∧ (d.frame u).reading = false) ∧
  (∀ (a : Fin 24576) (ds : List Int) (s : State), s.dev.inFrame = true → adcOff (s.dev.adcDrv a) (a % 128) = false →
    ∃ d, runs (.preambleDone [(a, ds)]) s d ∧
      d.colOfs a = ofsUpdate s.dev.ary.fresh (s.dev.a ARY_COL_OFS_CFG_K) (s.dev.colOfs a) (ds.foldl (· + ·) 0 : Int) ∧
      (∀ b, b ≠ a.val → d.colOfs b = s.dev.colOfs b) ∧ d = { s.dev with ary := d.ary }) ∧
  (∀ (bank : Fin 2) (cs : List (BitVec 12 × BitVec 12)) (w : StrobeRow) (s : State),
    (s.dev.ary.waiting.find? fun w => w.bank = bank.val) = some w → (s.dev.ary.skid bank).length ≠ 11 →
    ∃ d, runs (.rowResult bank cs) s d ∧ d.ary.skid bank = s.dev.ary.skid bank ++ [⟨s.dev.rowSegs w w.segs cs⟩] ∧
      d.ary.skid (1 - bank.val) = s.dev.ary.skid (1 - bank.val) ∧ d.ary.waiting = s.dev.ary.waiting.erase w ∧
      d = { s.dev with regs := d.regs, ary := d.ary } ∧ onlyWords s.dev d [ING_SKID_PEAK.addr 0 0]) ∧
  (∀ (bank : Fin 2) (cs : List (BitVec 12 × BitVec 12)) (s : State),
    (s.dev.ary.waiting.find? fun w => w.bank = bank.val) = none → runs (.rowResult bank cs) s s.dev)

/-- R102 to R105, R128 to R130, R178: RST falls, and one that is too early falls at the earliest cycle and is counted;
TX falls; a TX on unread rows marks them; a held one waits for them. Where a clause rests on a reading of the model
rather than on the rule's words, see log entries 55 and 56. -/
def Obligations.ExposuresRunInTiles : Prop :=
  (∀ (t : Fin 6144) (sub : Fin 4) (ph : Fin 3) (v : ShutEv) (s : State), (s.dev.tile t).nextArmed sub = some v →
    s.dev.pwr.suspended = false → (s.dev.tile t).events.any ShutEv.live = false →
    ∃ d rst, runs (.shutterRstFall t sub ph) s d ∧ onlyTile { s.dev with regs := d.regs } d t ∧
      onlyWords s.dev d [ARY_PULSE_SHORT.addr 0 0] ∧
      d.f ARY_PULSE_SHORT = (s.dev.f ARY_PULSE_SHORT + if s.dev.cyc + ph < rst then 1 else 0) % 2 ^ 32 ∧
      rst = (match (s.dev.tile t).lastTx with | some l => max (s.dev.cyc + ph) (l + 150) | none => s.dev.cyc + ph) ∧
      d.tile t = { s.dev.tile t with
        events := (s.dev.tile t).events.map (fun u => if u = v then { v with st := .running rst } else u), cgs := v.cg }) ∧
  (∀ (t : Fin 6144) (sub : Fin 4) (ph : Fin 3) (v : ShutEv) (rst : Nat) (s : State),
    (s.dev.tile t).runningEv sub = some (v, rst) → s.dev.pwr.suspended = false → s.dev.sched ≠ schedSTRIP →
    rst + 300 ≤ s.dev.cyc + ph → s.dev.txBlocked t (s.dev.cyc + ph) = false →
    (v.hold = true → s.dev.txBlocked t (s.dev.cyc + ph) = false) →
    ∃ d, runs (.shutterTxFall t sub ph) s d ∧ onlyTile s.dev d t ∧ (d.tile t).unread = s.dev.rowsToRead t ∧
      (d.tile t).lastTx = some (s.dev.cyc + ph) ∧ (d.tile t).dAct = none ∧ (d.tile t).ovw = (s.dev.tile t).ovw ∧
      (d.tile t).began = rst ∧
      (d.tile t).events = (s.dev.tile t).events.map fun u => if u = v then { v with st := .done } else u) ∧
  (∀ (t : Fin 6144) (sub : Fin 4) (ph : Fin 3) (v : ShutEv) (rst : Nat) (s : State),
    (s.dev.tile t).runningEv sub = some (v, rst) → s.dev.pwr.suspended = false → v.hold = false →
    rst + 300 ≤ s.dev.cyc + ph → s.dev.txBlocked t (s.dev.cyc + ph) = true →
    ∃ d, runs (.shutterTxFall t sub ph) s d ∧ (d.tile t).ovw = (s.dev.tile t).ovw ||| (s.dev.tile t).unread ∧
      (d.tile t).lastTx = some (s.dev.cyc + ph) ∧
      d.f ARY_TX_OVERWRITE = (s.dev.f ARY_TX_OVERWRITE + 1) % 2 ^ 32 ∧ onlyWords s.dev d [0x10F08, 0x10010]) ∧
  (∀ (t : Fin 6144) (sub : Fin 4) (ph : Fin 3) (v : ShutEv) (rst : Nat) (s : State),
    (s.dev.tile t).runningEv sub = some (v, rst) → s.dev.pwr.suspended = false → v.hold = true →
    s.dev.txBlocked t (s.dev.cyc + ph) = true →
    ∃ d, runs (.shutterTxFall t sub ph) s d ∧
      d.tile t = { s.dev.tile t with
        events := (s.dev.tile t).events.map fun u => if u = v then { v with st := .held rst } else u } ∧
      d.f EXP_TX_HELD = (s.dev.f EXP_TX_HELD + 1) % 2 ^ 32 ∧ onlyWords s.dev d [0x11F04, 0x11010]) ∧
  (∀ (t : Fin 6144) (ph : Fin 3) (v : ShutEv) (rst : Nat) (s : State),
    ((s.dev.tile t).events.findSome? fun v => match v.st with | .held r => some (v, r) | _ => none) = some (v, rst) →
    s.dev.pwr.suspended = false → s.dev.sched ≠ schedSTRIP → s.dev.txBlocked t (s.dev.cyc + ph) = false →
    ∃ d fall, runs (.txHoldRelease t ph) s d ∧ fall = max (s.dev.cyc + ph) (rst + 300) ∧
      onlyTile { s.dev with regs := d.regs } d t ∧ onlyWords s.dev d [ARY_PULSE_SHORT.addr 0 0] ∧
      d.f ARY_PULSE_SHORT = (s.dev.f ARY_PULSE_SHORT + if s.dev.cyc + ph < fall then 1 else 0) % 2 ^ 32 ∧
      (d.tile t).dAct = some (fall - rst) ∧ (d.tile t).unread = s.dev.rowsToRead t ∧ (d.tile t).lastTx = some fall)

/-- R115, R122, R176, R177, R190: SHUT arms a sub-exposure as the context register has it, with base NEXT or CUR for
the next frame or the present one, with base TRIG for the frame an edge gives; it arms nothing for a tile held in
reset, and rejects base TRIG for E1 to E3; a pixel rail that leaves regulation suspends the shutters and is reported;
both rails back, the shutters resume at a start tick; an exposure that would fall meanwhile is lost and its frame is
marked. Where a clause rests on a reading of the model rather than on the rule's words, see log entries 55 and 114. -/
def Obligations.ShuttersAreArmedAndSuspended : Prop :=
  (∀ (e : Fin 96) (ph : Fin 3) (base : EBase) (sub : Fin 5) (hold : Bool) (dly : Fin 32) (s : State),
    s.dev.engReady e (.shut base sub hold) dly = true → ctxRstHold (s.dev.engine e).c = true →
    (base = .trig → sub = 0 ∨ sub = 4) →
    ∃ d, runs (.engShut e ph base sub hold dly) s d ∧ onlyEngine s.dev d e ∧ (d.engine e).sameBuffers (s.dev.engine e)) ∧
  (∀ (e : Fin 96) (ph : Fin 3) (sub : Fin 5) (hold : Bool) (dly : Fin 32) (s : State),
    s.dev.engReady e (.shut .trig sub hold) dly = true → sub ≠ 0 → sub ≠ 4 →
    ∃ d, runs (.engShut e ph .trig sub hold dly) s d ∧ d.ary = s.dev.ary ∧
      d.fi ENG_SHUT_REJECT e 0 = (s.dev.fi ENG_SHUT_REJECT e 0 + 1) % 2 ^ 32 ∧
      onlyWords s.dev d [ENG_SHUT_REJECT.addr e 0, (Page.eng e).base + 0x10]) ∧
  (∀ (e : Fin 96) (ph : Fin 3) (sub : Fin 5) (hold : Bool) (dly : Fin 32) (c : List Word) (t : Nat) (s : State),
    s.dev.engReady e (.shut .trig sub hold) dly = true → sub = 0 ∨ sub = 4 → c = (s.dev.engine e).c →
    t = tileNo e (s.dev.engine e).cTy → ctxRstHold c = false → (ctxSub c).testBit 0 = true →
    ((s.dev.tile t).events.filter fun v => !v.finished).length < 8 →
    (s.dev.tile t).holds 0 none (some (s.dev.ai ENG_TRIG_CFG_LINE (t % 96) 0)) = false →
    ∃ d v, runs (.engShut e ph .trig sub hold dly) s d ∧ (d.tile t).events = (s.dev.tile t).events ++ [v] ∧
      (∀ u, u ≠ t → d.tile u = s.dev.tile u) ∧ v.sub = 0 ∧ v.frame = none ∧
      v.line = some (s.dev.ai ENG_TRIG_CFG_LINE (t % 96) 0) ∧ v.dur = ctxDur c 0 ∧ v.gain = ctxG c 0 ∧
      v.cg = (ctxCg c).testBit 0 ∧ v.hold = hold ∧ v.st = .armed ∧ onlyWords s.dev d [EXP_DUR_CLAMP.addr 0 0, 0x11010]) ∧
  (∀ (e : Fin 96) (ph : Fin 3) (base : EBase) (i : Fin 4) (hold : Bool) (dly : Fin 32) (c : List Word) (t k : Nat) (s : State),
    s.dev.engReady e (.shut base i.castSucc hold) dly = true → base ≠ .trig →
    k = (if base = .next then s.dev.ary.k + 1 else s.dev.ary.k) → c = (s.dev.engine e).c →
    t = tileNo e (s.dev.engine e).cTy → ctxRstHold c = false → (ctxSub c).testBit i = true → i.val < s.dev.mTick →
    ((s.dev.tile t).events.filter fun v => !v.finished).length < 8 → (s.dev.tile t).holds i (some k) none = false →
    (∀ b, s.dev.predStart k i = some b → (s.dev.cyc + ph : Nat) <
      slotStart (ctxAlign c) (slotEnd b) (s.dev.slotTick i) (ctxDur c i) (ctxOffset c)) →
    ∃ d v, runs (.engShut e ph base i.castSucc hold dly) s d ∧ (d.tile t).events = (s.dev.tile t).events ++ [v] ∧
      (∀ u, u ≠ t → d.tile u = s.dev.tile u) ∧ v.sub = i.val ∧ v.frame = some k ∧ v.line = none ∧ v.dur = ctxDur c i ∧
      v.gain = ctxG c i ∧ v.cg = (ctxCg c).testBit i ∧ v.hold = hold ∧ v.st = .armed ∧
      v.placed = (s.dev.predStart k i).isSome ∧ onlyWords s.dev d [EXP_DUR_CLAMP.addr 0 0, 0x11010]) ∧
  (∀ (boost tgl : Bool) (s : State), (boost && !s.dev.pwr.boostOut || tgl && !s.dev.pwr.tglOut) = true →
    s.dev.aon.level = 2 →
    ∃ d, runs (.pumpRailFault boost tgl) s d ∧ d.pwr = { s.dev.pwr with
        boostOut := s.dev.pwr.boostOut || boost, tglOut := s.dev.pwr.tglOut || tgl, suspended := true } ∧
      d.f ARY_PUMP_DROP = (s.dev.f ARY_PUMP_DROP + 1) % 2 ^ 32 ∧
      (∃ x, d.evq = s.dev.evq ++ [x] ∧ x.code = 0x042) ∧
      onlyRaised { s.dev with pwr := d.pwr } d [0x10010, 0x10F0C]) ∧
  (∀ (boost tgl : Bool) (s : State), (boost && !s.dev.pwr.boostOut || tgl && !s.dev.pwr.tglOut) = false →
    runs (.pumpRailFault boost tgl) s s.dev) ∧
  (∀ (s : State), s.dev.aon.level = 2 →
    ∃ d, runs .pumpRailRecover s d ∧ d = { s.dev with pwr := { s.dev.pwr with boostOut := false, tglOut := false } } ∧
      d.pumpStat = 3) ∧
  (∀ (s : State), s.dev.pwr.boostOut = false → s.dev.pwr.tglOut = false →
    runs .shutterResume s { s.dev with pwr := { s.dev.pwr with suspended := false } }) ∧
  (∀ (s : State), (s.dev.pwr.boostOut || s.dev.pwr.tglOut) = true → runs .shutterResume s s.dev) ∧
  (∀ (t : Fin 6144) (sub : Fin 4) (ph : Fin 3) (v : ShutEv) (s : State), (s.dev.tile t).nextArmed sub = some v →
    s.dev.pwr.suspended = true →
    ∃ d, runs (.shutterRstFall t sub ph) s d ∧ (d.tile t).events = (s.dev.tile t).events.filter (fun w => w ≠ v) ∧
      (∀ k u, v.frame = some k → s.dev.frameOfTick k = some u → (d.frame u).flags.testBit ffPIXEL_RAIL = true) ∧
      d.regs = s.dev.regs ∧ d.evq = s.dev.evq)

/-! ## Exposure contexts and the auto-exposure loop (R134 to R153) -/

/-- R142, R143, R146, R149 to R153: writes to the inactive bank, COPY, CTX_SNAPSHOT and the loop. Where a clause rests
on a reading of the model rather than on the rule's words, see log entries 64 and 117. -/
def Obligations.ContextsAreWritten : Prop :=
  (∀ (p : Port) (b : Fin 2) (t : Fin 6144) (i : Fin 4) (v : Word) (s : State), s.admitsAt p .exp →
    s.dev.f EXP_CTX_CTRL_COPY_BUSY = 0 → b.val ≠ s.dev.activeBank → s.dev.bankHeld b = false →
    ∃ d, runs (.ctxTableWrite p (BitVec.ofNat 24 (ctxAddr b t i)) v) s d ∧ d.ctxWord b t i = v &&& ctxMask i ∧
      onlyRegs s.dev d [ctxAddr b t i]) ∧
  (∀ (p : Port) (t : Fin 6144) (i : Fin 4) (v : Word) (s : State), s.admitsAt p .exp →
    runs (.ctxTableWrite p (BitVec.ofNat 24 (ctxAddr s.dev.activeBank t i)) v) s
      (s.dev.reject .exp p (ctxAddr s.dev.activeBank t i) v 3)) ∧
  (∀ (p : Port) (s : State), s.admitsAt p .exp → s.dev.f EXP_CTX_CTRL_COPY_BUSY = 0 →
    s.dev.bankHeld (1 - s.dev.activeBank) = false →
    ∃ d, runs (.ctxCopy p) s d ∧ d.f EXP_CTX_CTRL_COPY_BUSY = 1 ∧ onlyRegs s.dev d [0x11120]) ∧
  (∀ (s : State), s.dev.f EXP_CTX_CTRL_COPY_BUSY = 1 → s.dev.com.behindCopy = false → s.dev.com.gHeld = false →
    ∃ d, runs .ctxCopyDone s d ∧ d.f EXP_CTX_CTRL_COPY_BUSY = 0 ∧ d.activeBank = s.dev.activeBank ∧
      (∀ t i, t < 6144 → i < 4 → d.ctxWord (1 - s.dev.activeBank) t i = s.dev.ctxWord s.dev.activeBank t i) ∧
      (∀ t i, t < 6144 → i < 4 → d.ctxWord s.dev.activeBank t i = s.dev.ctxWord s.dev.activeBank t i) ∧
      ∀ a, a < 0x100000 ∨ 0x130000 ≤ a → a ≠ 0x11120 → d.word a = s.dev.word a) ∧
  (∀ (b t n : Nat) (s : State), s.posted 0x0020 2 → s.dev.cmdNat 0 1 = b → s.dev.cmdNat 1 2 = t → s.dev.cmdNat 3 2 = n →
    b < 2 → n ≠ 0 → n ≤ 64 → t + n ≤ 6144 →
    ∃ r, r.length = 16 * n ∧ runs .ctxSnapshot s (s.dev.answered resOK r) ∧
      ∀ i j, i < n → j < 4 → natOfBytes ((r.drop (16 * i + 4 * j)).take 4) = (s.dev.ctxWord b (t + i) j).toNat) ∧
  (∀ (chs : List (Fin 6144 × AeSet)) (tag : BitVec 8) (s : State), s.dev.aeMayBegin = true → s.dev.f EXP_BASIC_AE_MODE = 1 →
    s.dev.aeTilesOk chs = true → s.dev.com.gstate = .idle → s.dev.hf .exp HD_PAGE_STAT_XLATE_PEND = 0 →
    ∃ d, runs (.aeIteration (.tiles chs) tag) s d ∧ d.f EXP_CTX_CTRL_BANK_SEL = 1 - s.dev.activeBank ∧
      d.comState .exp = comCHECKING ∧ d.ary = { s.dev.ary with aePend := some tag.toNat, aeFrom := s.dev.ary.lastRead } ∧
      (∀ t < 6144, d.ctxWords s.dev.activeBank t = s.dev.ctxWords s.dev.activeBank t) ∧
      ∀ t < 6144, d.ctxWords (1 - s.dev.activeBank) t = match chs.find? fun p => p.1.val = t with
        | some p => aeContext p.2 tag (s.dev.ctxWords s.dev.activeBank t)
        | none => s.dev.ctxWords s.dev.activeBank t) ∧
  (∀ (s : State), s.dev.aeRuns = true → inForce (s.dev.comState .exp) = false →
    ∃ d, runs .aeMissed s d ∧ d.f EXP_AE_MISSED = (s.dev.f EXP_AE_MISSED + 1) % 2 ^ 32 ∧
      d.ary = { s.dev.ary with aePend := none } ∧ onlyWords s.dev d [0x11F08]) ∧
  (∀ (s : State), s.dev.aeRuns = true → 8 ≤ s.dev.ary.aeIdle → s.dev.f EXP_AE_STAT_STALE = 0 →
    ∃ d, runs .aeStale s d ∧ d.f EXP_AE_STAT_STALE = 1 ∧ (∃ x, d.evq = s.dev.evq ++ [x] ∧ x.code = 0x017 ∧ x.src = fwSrc) ∧
      onlyRaised s.dev d [0x11160, 0x11010])

/-! ## Trigger lines and pins (R190, R216, R217, R237, R252) -/

/-- R190, R216: a pulse of a line is counted and recorded by every engine; one within 750 cycles of the last, or while
TRG is disabled, is not. Pins and the trigger outputs of pin engines pulse the lines set to them alone. Where a clause
rests on a reading of the model rather than on the rule's words, see log entry 62. -/
def Obligations.TriggerLinesPulse : Prop :=
  (∀ (p : Port) (k : Fin 8) (s : State), s.admitsAt p .trg → s.dev.enabled .trg = true →
    SMap.get (fun _ => none) s.dev.trg.last k = none →
    ∃ d r, runsRec (.swTrig p (BitVec.ofNat 32 (2 ^ k.val))) s d r ∧
      d.fi TRG_EDGES 0 k = (s.dev.fi TRG_EDGES 0 k + 1) % 2 ^ 32 ∧ (∀ e : Fin 96, (d.engine e).trig.testBit k = true)) ∧
  (∀ (p : Port) (k : Fin 8) (l : Nat) (s : State), s.admitsAt p .trg → s.dev.enabled .trg = true →
    SMap.get (fun _ => none) s.dev.trg.last k = some l → s.dev.cyc < l + 750 →
    runs (.swTrig p (BitVec.ofNat 32 (2 ^ k.val))) s (s.dev.bump TRG_TRIG_FAST)) ∧
  (∀ (p : Port) (v : Word) (s : State), s.admitsAt p .trg → s.dev.enabled .trg = false → runs (.swTrig p v) s s.dev) ∧
  (∀ (pin : Fin 16) (lvl : Bool) (ph : Fin 3) (s : State), s.dev.pio.testBit pin ≠ lvl →
    (∀ k < 8, s.dev.lineTakes pin lvl k = false) →
    ∃ d, runs (.pioEdge .lines pin lvl ph) s d ∧
      d = { s.dev with pio := d.pio, pioAt := SMap.set zeroNat s.dev.pioAt pin (s.dev.cyc + ph) } ∧ d.pio.testBit pin = lvl) ∧
  (∀ (e : Fin 8) (pin : Fin 16) (lvl : Bool) (ph : Fin 3) (s : State), s.dev.pinLevel e pin ≠ lvl →
    s.dev.filtered e pin lvl (s.dev.cyc + ph) = true →
    ∃ d, runs (.pioEdge (.pe e) pin lvl ph) s d ∧ d.pinLevel e pin = lvl ∧ d = { s.dev with pe := d.pe, pioF := d.pioF } ∧
      (∀ m, m ≠ e.val → d.pin m = s.dev.pin m) ∧ (d.pin e).pc = (s.dev.pin e).pc) ∧
  (∀ (e : Fin 8) (ph : Fin 3) (dly : Fin 16) (s : State), s.dev.peReady e .trig dly = true →
    (∀ k, k < 8 → s.dev.lineTakesPe e true k = false ∧ s.dev.lineTakesPe e false k = false) →
    ∃ d, runs (.peTrig e ph dly) s d ∧ d.fi PE_TRIG_OUT e 0 = (s.dev.fi PE_TRIG_OUT e 0 + 1) % 2 ^ 32 ∧
      onlyPinWords s.dev d e [PE_TRIG_OUT.addr e 0] ∧ d.evq = s.dev.evq)

/-! ## The raw burst (R227 to R229) -/

/-- R227, R228, R381: ARM, ABORT, and a frame written whole. Where a clause rests on a reading of the model rather
than on the rule's words, see log entry 87. -/
def Obligations.RawBurstRecords : Prop :=
  (∀ (p : Port) (s : State), s.admitsAt p .ary → s.dev.a ARY_BURST_CFG_EN = 1 → s.dev.burstReplayed = false →
    ∃ d, runs (.burstArm p) s d ∧ d.burstState = buARMED ∧ d.burstCount = 0 ∧ d.burst.stored = [] ∧ d.burst.begun = 0 ∧
      d.burst.armAt = some s.dev.cyc ∧ d = { s.dev with regs := d.regs, frames := d.frames, burst := d.burst } ∧
      onlyWords s.dev d [0x101C8]) ∧
  (∀ (p : Port) (s : State), s.admitsAt p .ary → s.dev.a ARY_BURST_CFG_EN = 0 ∨ s.dev.burstReplayed = true →
    runs (.burstArm p) s (s.dev.reject .ary p 0x101C4 1#32 7)) ∧
  (∀ (p : Port) (s : State), s.admitsAt p .ary → s.dev.burstState = buARMED ∨ s.dev.burstState = buRECORDING →
    s.dev.burst.begun = s.dev.burstCount →
    ∃ d, runs (.burstAbort p) s d ∧ d.burstState = buABORTED ∧ d.burstCount = s.dev.burstCount ∧
      d.burst.stored = s.dev.burst.stored ∧ (∃ x, d.evq = s.dev.evq ++ [x] ∧ x.code = 0x086) ∧
      onlyWords s.dev d [0x101C8, 0x10010]) ∧
  (∀ (p : Port) (s : State), s.admitsAt p .ary → s.dev.burstState ≠ buARMED → s.dev.burstState ≠ buRECORDING →
    runs (.burstAbort p) s s.dev) ∧
  (∀ (u : Nat) (s : State), s.dev.burstReady = some u →
    ∃ d l, runs .burstFrameWrite s d ∧ d.burstCount = (s.dev.burstCount + 1) % 65536 ∧
      d.burst.stored = s.dev.burst.stored ++ l ∧ l.length = (s.dev.frame u).m ∧ (d.frame u).burst = false ∧
      onlyWords s.dev d [0x101C8, 0x10010]) ∧
  (∀ (s : State), s.dev.burstReady = none → runs .burstFrameWrite s s.dev)

/-! ## Satellite ports (R256 to R276) -/

/-- R257 to R259, R274, R275: the markers of two lanes that agree, twice, bring an aligning port UP with a HELLO and a
credit packet; the limit of ALIGN takes it down; in UP the credit timer sends the port's limit. Where a clause rests
on a reading of the model rather than on the rule's words, see log entry 67. -/
def Obligations.SatellitePortsAlign : Prop :=
  (∀ (p : Fin 8) (l1 : Bool) (n : Nat) (t : List LnItem) (s : State), s.dev.spState p = spALIGN →
    findMarker l1 (s.dev.lane (spLane p l1)).q = some (n, t) → (s.dev.port p).mk0 = none → (s.dev.port p).mk1 = none →
    ∃ d, runs (.satMarkerBlock p l1) s d ∧ d.lane (spLane p l1) = { s.dev.lane (spLane p l1) with q := t, since := 0 } ∧
      d.port p = (s.dev.port p).setMk l1 (some (some n)) ∧ d = { s.dev with lanes := d.lanes, sp := d.sp }) ∧
  (∀ (p : Fin 8) (n : Nat) (t : List LnItem) (s : State), s.dev.spState p = spALIGN →
    findMarker true (s.dev.lane (spLane p true)).q = some (n, t) → (s.dev.port p).mk0 = some (some n) →
    (s.dev.port p).mk1 = none → (s.dev.port p).pairSeen = true →
    ∃ d, runs (.satMarkerBlock p true) s d ∧ d.spState p = spUP ∧ (d.port p).limit = 8176 ∧ (d.port p).tx.length = 2 ∧
      (∃ x, d.evq = s.dev.evq ++ [x] ∧ x.code = 0x068)) ∧
  (∀ (p : Fin 8) (s : State), s.dev.spState p = spALIGN →
    ∃ d, runs (.spAlignTimeout p) s d ∧ d.fi SP_ALIGN_LOSS p 0 = (s.dev.fi SP_ALIGN_LOSS p 0 + 1) % 2 ^ 32 ∧
      ∃ x ∈ d.evq, x.code = 0x069) ∧
  (∀ (p : Fin 8) (s : State), s.dev.spState p ≠ spALIGN → runs (.spAlignTimeout p) s s.dev) ∧
  (∀ (p : Fin 8) (s : State), s.dev.spState p = spUP →
    ∃ d, runs (.satCreditTimer p) s d ∧ (d.port p).tx = [s.dev.creditPacket p] ∧
      (d.port p).limitSent = (s.dev.port p).limit ∧ d = { s.dev with regs := d.regs, sp := d.sp, tx := d.tx } ∧
      onlyWords s.dev d [SP_CREDIT_STAT_LIMIT.addr p 0])

/-- R261, R262, R266, R267, R276: what a packet at the head of an aligned port's stream does. Where a clause rests on
a reading of the model rather than on the rule's words, see log entries 65, 66 and 68. -/
def Obligations.SatellitePacketsAct : Prop :=
  (∀ (p : Fin 8) (h : SpHdr) (pay t : List Byte) (s : State), s.dev.spState p = spUP → (s.dev.port p).search = false →
    spPacket 0 (s.dev.port p).strm = some (h, pay, t) →
    ∃ d, runs (.satFill p) s d ∧ d.port p = { s.dev.port p with strm := t } ∧ d = { s.dev with sp := d.sp }) ∧
  (∀ (p : Fin 8) (h : SpHdr) (pay t : List Byte) (s : State), s.dev.spState p = spUP → (s.dev.port p).search = false →
    spPacket 1 (s.dev.port p).strm = some (h, pay, t) → (s.dev.vs p h.vs).opened = none →
    spPage p ∉ s.dev.com.stopping → s.dev.ai SP_VS_FMT_EN p h.vs = 0 →
    ∃ d, runs (.satFrameStart p) s d ∧ d.frames = s.dev.frames ∧ (d.vs p h.vs).opened = none ∧
      d.fi SP_ORPHAN p 0 = (s.dev.fi SP_ORPHAN p 0 + 1) % 2 ^ 32 ∧ onlyWords s.dev d [SP_ORPHAN.addr p 0, SP_CREDIT_OVER.addr p 0]) ∧
  (∀ (p : Fin 8) (h : SpHdr) (pay t : List Byte) (s : State), s.dev.spState p = spUP → (s.dev.port p).search = false →
    spPacket 1 (s.dev.port p).strm = some (h, pay, t) → (s.dev.vs p h.vs).opened = none →
    spPage p ∉ s.dev.com.stopping → s.dev.ai SP_VS_FMT_EN p h.vs ≠ 0 →
    (s.dev.vs p h.vs).paused ≠ some h.fnum →
    ∃ d u, runs (.satFrameStart p) s d ∧ u = s.dev.nextFrame ∧ d.nextFrame = u + 1 ∧ (d.vs p h.vs).opened = some u ∧
      (d.vs p h.vs).fnum = h.fnum ∧ (d.vs p h.vs).total = 0 ∧ (d.frame u).member = spMember p h.vs ∧
      (d.frame u).fid = natOfBytes (pay.take 4) ∧ (d.frame u).w = s.dev.ai SP_VS_GEO_WIDTH p h.vs ∧
      (d.frame u).h = s.dev.ai SP_VS_GEO_HEIGHT p h.vs) ∧
  (∀ (p : Fin 8) (h : SpHdr) (pay t : List Byte) (s : State), s.dev.spState p = spUP → (s.dev.port p).search = false →
    spPacket 2 (s.dev.port p).strm = some (h, pay, t) →
    (s.dev.vs p h.vs).opened = none ∨ (s.dev.vs p h.vs).fnum ≠ h.fnum →
    ∃ d, runs (.satLine p) s d ∧ d.frames = s.dev.frames ∧ d.vs p h.vs = s.dev.vs p h.vs ∧
      d.fi SP_ORPHAN p 0 = (s.dev.fi SP_ORPHAN p 0 + 1) % 2 ^ 32 ∧ onlyWords s.dev d [SP_ORPHAN.addr p 0, SP_CREDIT_OVER.addr p 0]) ∧
  (∀ (p : Fin 8) (h : SpHdr) (pay t : List Byte) (u : Nat) (s : State), s.dev.spState p = spUP →
    (s.dev.port p).search = false → spPacket 2 (s.dev.port p).strm = some (h, pay, t) →
    (s.dev.vs p h.vs).opened = some u → (s.dev.vs p h.vs).fnum = h.fnum → (s.dev.vs p h.vs).discard = false →
    (s.dev.vs p h.vs).trunc = false → h.line = (s.dev.vs p h.vs).line → (s.dev.vs p h.vs).nextSeg ≤ h.seg →
    h.line < (s.dev.frame u).h → h.seg < (s.dev.frame u).segs →
    h.len = ((s.dev.frame u).segPx h.seg * (s.dev.frame u).bits + 63) / 64 → (s.dev.port p).lvl + 8 + 8 * h.len ≤ 2093056 →
    ∃ d, runs (.satLine p) s d ∧ (d.vs p h.vs).got = (s.dev.vs p h.vs).got + 1 ∧
      (d.vs p h.vs).total = (s.dev.vs p h.vs).total + 1 ∧ (d.vs p h.vs).nextSeg = h.seg + 1 ∧
      (d.vs p h.vs).opened = some u ∧ (d.vs p h.vs).trunc = false) ∧
  (∀ (p : Fin 8) (h : SpHdr) (pay t : List Byte) (u : Nat) (crc : BitVec 32) (s : State), s.dev.spState p = spUP →
    (s.dev.port p).search = false → spPacket 3 (s.dev.port p).strm = some (h, pay, t) →
    (s.dev.vs p h.vs).opened = some u → (s.dev.vs p h.vs).fnum = h.fnum → (s.dev.vs p h.vs).discard = false →
    crc = SMap.get crcStart (s.dev.vs p h.vs).lineCrcs h.line ^^^ 0xFFFFFFFF#32 →
    ∃ d, runs (.satLineEnd p) s d ∧ (d.vs p h.vs).frameCrc = crc32From (s.dev.vs p h.vs).frameCrc pay ∧
      (d.vs p h.vs).opened = some u ∧
      (natOfBytes (pay.take 4) = crc.toNat → d.fi SP_LINE_CRC_ERR p h.vs = s.dev.fi SP_LINE_CRC_ERR p h.vs) ∧
      (natOfBytes (pay.take 4) ≠ crc.toNat → (d.frame u).ingest.testBit inCRC = true)) ∧
  (∀ (p : Fin 8) (h : SpHdr) (pay t : List Byte) (u : Nat) (s : State), s.dev.spState p = spUP →
    (s.dev.port p).search = false → spPacket 4 (s.dev.port p).strm = some (h, pay, t) →
    (s.dev.vs p h.vs).opened = some u → (s.dev.vs p h.vs).fnum = h.fnum → (s.dev.vs p h.vs).discard = false →
    ∃ d, runs (.satFrameEnd p) s d ∧ (d.vs p h.vs).opened = none ∧ (d.vs p h.vs).trunc = false ∧
      (d.frame u).linesSent = natOfBytes (pay.take 4)) ∧
  (∀ (p : Fin 8) (v : Fin 4) (u : Nat) (s : State), (s.dev.vs p v).opened = some u → (s.dev.vs p v).discard = false →
    ∃ d, runs (.satFrameTimeout p v) s d ∧ (d.vs p v).opened = none ∧ (d.frame u).ingest.testBit inNOEND = true) ∧
  (∀ (p : Fin 8) (v : Fin 4) (s : State), (s.dev.vs p v).opened = none → runs (.satFrameTimeout p v) s s.dev) ∧
  (∀ (p : Fin 8) (h : SpHdr) (pay t : List Byte) (s : State), s.dev.spState p = spUP → (s.dev.port p).search = false →
    spPacket 6 (s.dev.port p).strm = some (h, pay, t) →
    ∃ d, runs (.satHello p) s d ∧ d.fi SP_HELLO_STAT_VALID p 0 = 1 ∧ (d.port p).strm = t ∧
      d.fi SP_HELLO p 0 = natOfBytes ((s.dev.port p).strm.take 4) ∧ d.vs p = s.dev.vs p) ∧
  (∀ (p : Fin 8) (s : State), s.dev.spState p = spUP → (s.dev.port p).search = false →
    spHeader (s.dev.port p).strm = some none →
    ∃ d, runs (.satHeaderError p) s d ∧ d.fi SP_HDR_ERR p 0 = (s.dev.fi SP_HDR_ERR p 0 + 1) % 2 ^ 32 ∧
      onlyWords s.dev d [SP_HDR_ERR.addr p 0, (Page.sp p).base + 0x10])

/-! ## The pipeline (R277 to R366) -/

/-- R277, R283: a row segment granted at ingest reaches stage P1 with its codes; P1, P2 and P3 take each row whose
input is there, pass on every segment of it that they have not passed yet, and leave what came before as it is. Where
a clause rests on a reading of the model rather than on the rule's words, see log entries 69, 72 and 118. -/
def Obligations.RowsPassTheStages : Prop :=
  (∀ (g : Seg) (s : State), s.dev.active .ing = true → s.dev.ary.skidT = [⟨[g]⟩] → s.dev.ary.skidB = [] → g.bank = 0 →
    (s.dev.frame g.frame).pipe = true →
    ∃ d, runs .ingestGrant s d ∧ d.ary.skidT = [] ∧ d.ary.skidB = [] ∧
      segGet (d.pf g.frame).raw g.hd.pass (ownRow g.hd.strip 0 g.hd.row) g.hd.stripe = some ⟨g.hd.hdr, g.codes⟩) ∧
  (∀ (s : State), s.dev.active .ing = false → runs .ingestGrant s s.dev) ∧
  (∀ (u pass rk k : Nat) (g : SegOf Nat) (s : State), (s.dev.frame u).pipe = true → s.dev.rowReady u pass rk = true →
    stripInOrder (s.dev.frame u) (s.dev.pf u) pass rk = true →
    (∃ r ∈ rowGroup (s.dev.stripNear u) (s.dev.frame u) (s.dev.pf u) pass rk, k ∈ rowSegKeys (s.dev.pf u).raw pass r) →
    SMap.get (noSeg Nat) (s.dev.pf u).raw k = some g → SMap.get (noSeg Px1) (s.dev.pf u).p1 k = none →
    ∃ d g1, runs (.nrdRow u pass rk) s d ∧ SMap.get (noSeg Px1) (d.pf u).p1 k = some g1 ∧ g1.hd = g.hd ∧
      g1.px.length = g.px.length ∧ (d.pf u).raw = (s.dev.pf u).raw ∧ (d.pf u).p2 = (s.dev.pf u).p2) ∧
  (∀ (u pass rk k : Nat) (g : SegOf Px1) (s : State), (s.dev.frame u).darkRow rk = true →
    k ∈ rowSegKeys (s.dev.pf u).p1 pass rk → SMap.get (noSeg Px1) (s.dev.pf u).p1 k = some g →
    SMap.get (noSeg Px2) (s.dev.pf u).p2 k = none →
    ∃ d, runs (.pxcRow u pass rk) s d ∧ SMap.get (noSeg Px2) (d.pf u).p2 k = some ⟨{}, []⟩ ∧
      (d.pf u).raw = (s.dev.pf u).raw ∧ (d.pf u).p1 = (s.dev.pf u).p1) ∧
  (∀ (u pass rk k : Nat) (g : SegOf Px1) (s : State), (s.dev.frame u).darkRow rk = false →
    s.dev.p2Ready u pass rk = true → darkPending (s.dev.frame u) (s.dev.pf u) pass = false →
    k ∈ rowSegKeys (s.dev.pf u).p1 pass rk → SMap.get (noSeg Px1) (s.dev.pf u).p1 k = some g →
    SMap.get (noSeg Px2) (s.dev.pf u).p2 k = none →
    ∃ d g2, runs (.pxcRow u pass rk) s d ∧ SMap.get (noSeg Px2) (d.pf u).p2 k = some g2 ∧ g2.hd = g.hd ∧
      g2.px.length = g.px.length ∧ (d.pf u).raw = (s.dev.pf u).raw ∧ (d.pf u).p1 = (s.dev.pf u).p1) ∧
  (∀ (u pass rk i : Nat) (s : State), s.dev.fuses u = false → (s.dev.frame u).darkRow rk = false →
    s.dev.imageIn u pass = true ∨ s.dev.rowIn u pass rk = true → pass < (s.dev.frame u).passes →
    i ∈ s.dev.hdrTodo u pass rk →
    ∃ d, runs (.hdrRow u pass rk) s d ∧ (segGet (d.pf u).p3 pass rk i).isSome = true ∧
      (d.pf u).raw = (s.dev.pf u).raw ∧ (d.pf u).p2 = (s.dev.pf u).p2)

/-- R298, R307: the data registers of the defect table and of the shading grid. Where a clause rests on a reading of
the model rather than on the rule's words, see log entry 75. -/
def Obligations.CorrectionTablesAreWritten : Prop :=
  (∀ (p : Port) (w : Word) (s : State), s.admitsAt p .pxc → s.dev.enabled .pxc = false → s.dev.f PXC_DEF_ADDR_ADDR < 66048 →
    ∃ d, runs (.pxcDefData p (some w)) s d ∧ d.defWord (s.dev.f PXC_DEF_ADDR_ADDR) = w ∧
      (∀ a, a ≠ s.dev.f PXC_DEF_ADDR_ADDR → d.defWord a = s.dev.defWord a) ∧
      d.f PXC_DEF_ADDR_ADDR = s.dev.f PXC_DEF_ADDR_ADDR + 1 ∧ d = { s.dev with regs := d.regs, defs := d.defs } ∧
      onlyWords s.dev d [PXC_DEF_ADDR_ADDR.addr 0 0]) ∧
  (∀ (p : Port) (w : Word) (s : State), s.admitsAt p .pxc → s.dev.enabled .pxc = true →
    runs (.pxcDefData p (some w)) s (s.dev.reject .pxc p 0x9210C w 1)) ∧
  (∀ (p : Port) (s : State), s.dev.serves = true → s.dev.f PXC_DEF_ADDR_ADDR < 66048 →
    ∃ d, runs (.pxcDefData p none) s d ∧ d.given p = [s.dev.defWord (s.dev.f PXC_DEF_ADDR_ADDR)] ∧
      d.f PXC_DEF_ADDR_ADDR = s.dev.f PXC_DEF_ADDR_ADDR + 1 ∧ d = { s.dev with regs := d.regs, out := d.out }) ∧
  (∀ (p : Port) (w : Word) (b a : Nat) (s : State), s.admitsAt p .pxc → b = 1 - s.dev.a PXC_LSC_CFG_BANK_SEL →
    s.dev.lscNamed b = false → a = s.dev.f PXC_LSC_ADDR_ADDR → a < 25220 →
    ∃ d, runs (.pxcLscData p (some w)) s d ∧ d.lscNode b a = w.toNat % 65536 ∧
      (∀ c < 25220, c ≠ a → d.lscNode b c = s.dev.lscNode b c) ∧
      (∀ c < 25220, d.lscNode (1 - b) c = s.dev.lscNode (1 - b) c) ∧ d.f PXC_LSC_ADDR_ADDR = a + 1 ∧
      d = { s.dev with regs := d.regs, lsc := d.lsc }) ∧
  (∀ (p : Port) (a : Nat) (s : State), s.dev.serves = true → a = s.dev.f PXC_LSC_ADDR_ADDR → a < 25220 →
    ∃ d, runs (.pxcLscData p none) s d ∧
      d.given p = [BitVec.ofNat 32 (s.dev.lscNode (1 - s.dev.a PXC_LSC_CFG_BANK_SEL) a)] ∧
      d.f PXC_LSC_ADDR_ADDR = a + 1 ∧ d.lsc = s.dev.lsc)

/-- R329, R335, R343, R352, R366: geometry emits one line at a time, records go to firmware, a view takes frames and
outputs them in order, and a slice is coded within its share of the budget. Where a clause rests on a reading of the
model rather than on the rule's words, see log entries 78, 79, 80 and 82. -/
def Obligations.FramesLeaveTheStages : Prop :=
  (∀ (n : Fin 64) (u : Nat) (g : Geo) (s : State), s.dev.geoFrame n = some (u, g) →
    ∃ d l, runs (.geoLine n) s d ∧ (d.outFr u n).opened = true ∧ (d.outFr u n).lines = (s.dev.outFr u n).lines ++ l ∧
      l.length ≤ 1 ∧ (d.pf u).raw = (s.dev.pf u).raw ∧ (d.pf u).y = (s.dev.pf u).y) ∧
  (∀ (n : Fin 64) (s : State), s.dev.geoFrame n = none → runs (.geoLine n) s s.dev) ∧
  (∀ (pass : Fin 4) (u : Nat) (s : State), s.dev.recordsOf pass = some u → s.dev.stage u stSTA = true →
    (s.dev.asOf u).a STA_TILE_CFG_EN = 1 →
    ∃ d, runs (.staRecordsReady pass) s d ∧ pass.val ∈ (d.pf u).handed ∧
      (SMap.get noRecs d.recs pass).fid = (s.dev.frame u).fid ∧ (SMap.get noRecs d.recs pass).k = (s.dev.frame u).k) ∧
  (∀ (v : Fin 2) (u n : Nat) (g : Geo) (s : State), s.dev.viewFrame v = some (u, n, g) → (s.dev.view v).front = none →
    rateAdmits ((s.dev.asOf u).ak VEW_RATE_LIM_CFPS v) (s.dev.view v).last (s.dev.frame u).stamp.ticks = true →
    ∃ d, runs (.viewFrameAccept v) s d ∧ (d.view v).front = some (u, n) ∧ v.val ∈ (d.outFr u n).viewed ∧
      (d.view v).last = some (s.dev.frame u).stamp.ticks ∧ d = { s.dev with views := d.views, pipe := d.pipe }) ∧
  (∀ (v : Fin 2) (u n : Nat) (g : Geo) (s : State), s.dev.viewFrame v = some (u, n, g) →
    rateAdmits ((s.dev.asOf u).ak VEW_RATE_LIM_CFPS v) (s.dev.view v).last (s.dev.frame u).stamp.ticks = false →
    ∃ d, runs (.viewFrameAccept v) s d ∧ d.views = s.dev.views ∧ v.val ∈ (d.outFr u n).viewed ∧
      d.fi VEW_SKIPPED 0 v = (s.dev.fi VEW_SKIPPED 0 v + 1) % 2 ^ 32) ∧
  (∀ (v : Fin 2) (x : Nat × Nat) (s : State), (s.dev.view v).front = some x →
    ∃ d, runs (.viewRasterOut v) s d ∧ (d.view v).front = (s.dev.view v).wait ∧ (d.view v).wait = none ∧
      (d.view v).last = (s.dev.view v).last) ∧
  (∀ (n : Fin 16) (j : EncJob) (i : Nat) (t : List Nat) (s : State), (s.dev.enc n).ready = some j → j.queue = i :: t → t ≠ [] →
    ∃ d, runs (.encSlice n) s d ∧ d = { s.dev with encs := d.encs } ∧ ∃ j' ∈ (d.enc n).jobs, j'.u = j.u ∧ j'.queue = t ∧
      j'.doneLines = j.doneLines + j.sliceLines i ∧
      (j.first = false → j'.used ≤ max j.used (j.budget * (j.doneLines + j.sliceLines i) / j.height)))

/-! ## The Hamper (R376 to R394) -/

/-- R377, R379, R383 to R388: the history writer, and the slots that triggers take. Where a clause rests on a reading
of the model rather than on the rule's words, see log entries 83 and 84. -/
def Obligations.HistoryKeepsTriggers : Prop :=
  (∀ (c : ChunkReq) (t : List ChunkReq) (s : State), s.dev.hmp.offers = c :: t →
    s.dev.f HMP_STAT_STATE = 3 ∨ s.dev.f HMP_STAT_STATE = hmpREADY ∧ s.dev.f HMP_CTRL_FREEZE = 1 →
    ∃ d, runs .histChunkWrite s d ∧ d.hmp = { s.dev.hmp with offers := t } ∧
      d.f HMP_HIST_DROP = (s.dev.f HMP_HIST_DROP + 1) % 2 ^ 32 ∧ (∃ x, d.evq = s.dev.evq ++ [x] ∧ x.code = 0x082) ∧
      onlyWords s.dev d [HMP_HIST_DROP.addr 0 0, Page.hmp.base + 0x10]) ∧
  (∀ (c : ChunkReq) (t : List ChunkReq) (p : Nat) (s : State), s.dev.hmp.offers = c :: t → s.dev.f HMP_STAT_STATE = hmpREADY →
    s.dev.hmpBurst ≠ s.dev.hmpCap → s.dev.f HMP_CTRL_FREEZE = 0 → s.dev.hmp.retrain = 0 →
    findRoom s.dev.hmp.guarded s.dev.hmp.ring s.dev.ringBytes (chunkSize c.payload.length)
      (2 * s.dev.hmp.ring.length + 3) s.dev.hmp.wp none = some (p, none) → s.dev.hmp.ring.length < 4194300 →
    ∃ d k, runs .histChunkWrite s d ∧ d.hmp.offers = t ∧ d.hmp.ring.getLast? = some k ∧ k.req = c ∧ k.off = p ∧
      k.num = s.dev.hmp.nextNum ∧ d.hmp.nextNum = s.dev.hmp.nextNum + 1 ∧
      k.head = chunkHead c k.num (chunkSize c.payload.length) ∧ k.head.length = 64 ∧ headGood k.head = true ∧
      ∀ x ∈ s.dev.hmp.ring, x ∈ d.hmp.ring ∨ x.meets p (chunkSize c.payload.length) = true) ∧
  (∀ (k : Fin 16) (x : TrigSlot) (s : State), s.dev.hmp.slot k = some x → x.capturing = true →
    s.dev.boot.run = .running → x.trig.hi + 25000000 ≤ s.dev.time.tick →
    ∃ d, runs (.histCaptureEnd k) s d ∧ d.hmp.slot k = some { x with capturing := false } ∧ d.hmp.ring = s.dev.hmp.ring ∧
      ∀ j, j ≠ k.val → d.hmp.slot j = s.dev.hmp.slot j) ∧
  (∀ (p : Port) (k : Fin 16) (s : State), s.admitsAt p .hmp → s.dev.hmp.slot k = none →
    ∃ d v, runs (.histRelease p k) s d ∧ d = s.dev.reject .hmp p (HMP_RELEASE_GO.addr 0 0) v 7) ∧
  (∀ (p : Port) (k : Fin 16) (x : TrigSlot) (s : State), s.admitsAt p .hmp → s.dev.hmp.slot k = some x →
    ∃ d, runs (.histRelease p k) s d ∧ d.hmp.ring = s.dev.hmp.ring ∧ d.hmp.slot k =
      if s.dev.hmp.replaying k then some { x with release := true, capturing := false } else none) ∧
  (∀ (p : Port) (s : State), s.admitsAt p .hmp →
    ∃ d, runs (.hmpCtrlFreeze p false) s d ∧ d.f HMP_CTRL_FREEZE = 0 ∧ d.f HMP_STAT_FROZEN = 0 ∧
      onlyRegs s.dev d [0xA1120, 0xA1130]) ∧
  (∀ (p : Port) (k : Nat) (x : TrigSlot) (s : State), s.admitsAt p .hmp → s.dev.hmp.slot k = some x → x.capturing = true →
    ∃ d y, runs (.hmpCtrlFreeze p true) s d ∧ d.hmp.slot k = some y ∧ y.cut = true ∧ d.hmp.ring = s.dev.hmp.ring) ∧
  (∀ (k : Nat) (s : State), s.posted 0x0050 2 → s.dev.histOn = true → s.dev.hmp.freeSlot = some k →
    ∃ d r x, runsRec .histTrigger s d r ∧ d.f MBX_STAT_RESULT = resOK ∧ d.hmp.ring = s.dev.hmp.ring ∧
      d.hmp.slot k = some x ∧ x.trig.t = s.dev.time.tick ∧ x.trig.cause = s.dev.cmdNat 0 2 ∧
      ∀ j, j ≠ k → d.hmp.slot j = s.dev.hmp.slot j) ∧
  (∀ (s : State), s.posted 0x0051 0 → s.dev.histOn = true →
    ∃ d, runs .histFreeze s d ∧ d.f HMP_CTRL_FREEZE = 1 ∧ d.f HMP_STAT_FROZEN = 1 ∧ d.f MBX_STAT_RESULT = resOK ∧
      (∃ x, d.evq = s.dev.evq ++ [x] ∧ x.code = 0x083) ∧ d.hmp.ring = s.dev.hmp.ring) ∧
  (∀ (c : Instr) (k n : Nat) (s : State), (c, k, n) ∈ [(.histTrigger, 0x0050, 2), (.histFreeze, 0x0051, 0)] →
    s.posted k n → s.dev.histOn = false → runs c s (s.dev.answered resBAD_STATE))

/-- R389 to R393: replays, and the memory channels. Where a clause rests on a reading of the model rather than on the
rule's words, see log entries 85 and 86. -/
def Obligations.HamperReplaysAndTrains : Prop :=
  (∀ (i : Fin 2) (hOk pOk : Bool) (r : Replay) (s : State), s.dev.hmp.replays[i.val]? = some r → r.src = .ring →
    s.dev.replayNext r = none →
    ∃ d, runs (.histReplaySend i hOk pOk) s d ∧ d.hmp = { s.dev.hmp with replays := s.dev.hmp.replays.eraseIdx i } ∧
      ∃ x, d.evq = s.dev.evq ++ [x] ∧ x.code = 0x084 ∧ x.payload = u32 r.sent ++ u32 r.errs) ∧
  (∀ (i : Fin 2) (pOk : Bool) (r : Replay) (c : Chunk) (s : State), s.dev.hmp.replays[i.val]? = some r → r.src = .ring →
    s.dev.replayNext r = some c →
    ∃ d, runs (.histReplaySend i false pOk) s d ∧ d.dlv = s.dev.dlv ∧
      d.hmp.replays[i.val]? = some { r with next := c.num + 1, errs := r.errs + 1 } ∧
      d.f HMP_REPLAY_CRC_ERR = (s.dev.f HMP_REPLAY_CRC_ERR + 1) % 2 ^ 32 ∧ onlyWords s.dev d [HMP_REPLAY_CRC_ERR.addr 0 0]) ∧
  (∀ (i : Fin 2) (r : Replay) (c : Chunk) (s : State), s.dev.hmp.replays[i.val]? = some r → r.src = .ring →
    s.dev.replayNext r = some c → c.req.kind = 0 → headGood c.head = true →
    s.dev.queueTakes r.qid c.req.start.length = true →
    ∃ d g, runs (.histReplaySend i true true) s d ∧
      d.hmp.replays[i.val]? = some { r with next := c.num + 1, sent := r.sent + 1 } ∧
      (d.queue r.qid).grps = (s.dev.queue r.qid).grps ++ [g] ∧ ∀ p ∈ g.pkts, p.replay = true) ∧
  (∀ (i : Fin 2) (hOk pOk : Bool) (s : State), s.dev.hmp.replays[i.val]? = none → runs (.histReplaySend i hOk pOk) s s.dev) ∧
  (∀ (s : State), s.posted 0x0052 3 → s.dev.cmdNat 0 8 = 0 → s.dev.cmdNat 8 2 ≤ 8191 → s.dev.histOn = true →
    s.dev.f HMP_CTRL_FREEZE = 1 → s.dev.hmp.replays.length < 2 →
    ∃ d r, runs .histReplay s d ∧ d.hmp = { s.dev.hmp with replays := s.dev.hmp.replays ++ [r] } ∧ r.src = .ring ∧
      r.qid = s.dev.cmdNat 8 2 ∧ d.f MBX_STAT_RESULT = resOK ∧ d.f MBX_STAT_STATE = mbxDONE) ∧
  (∀ (s : State), s.posted 0x0052 3 → 8191 < s.dev.cmdNat 8 2 → runs .histReplay s (s.dev.answered resBAD_PARAM)) ∧
  (∀ (p : Port) (s : State), s.admitsAt p .hmp → ∃ d, runs (.hmpCtrlAbort p) s d ∧ d.hmp.replays = []) ∧
  (∀ (c : Instr) (m : Fin 16) (p : Port) (s : State), c = .hmpTracking m ∧ s.dev.hmp.leaving = false ∨
      c = .hmpCtrlRetrain p ∧ m = 15 ∧ s.admitsAt p .hmp →
    s.dev.f HMP_STAT_STATE = hmpREADY →
    ∃ d, runs c s d ∧ d = { s.dev with hmp := d.hmp } ∧ d.hmp =
      if s.dev.f ARY_BURST_STAT_STATE = 2 then
        { s.dev.hmp with deferred := s.dev.hmp.deferred ||| (m.val &&& s.dev.f HMP_MEM_CFG_CH_MASK) }
      else { s.dev.hmp with retrain := s.dev.hmp.retrain ||| (m.val &&& s.dev.f HMP_MEM_CFG_CH_MASK) }) ∧
  (∀ (m : Fin 16) (s : State), s.dev.hmp.leaving = true →
    ∃ d, runs (.hmpTracking m) s d ∧ d.f HMP_STAT_STATE = hmpREADY ∧ d.hmp.leaving = false) ∧
  (∀ (c : Fin 4) (s : State), s.dev.hmp.retrain.testBit c = true →
    ∃ d, runs (.hmpRetrainDone c) s d ∧ d.hmp = { s.dev.hmp with retrain := s.dev.hmp.retrain - 2 ^ c.val } ∧
      d.f HMP_RETRAINS = (s.dev.f HMP_RETRAINS + 1) % 2 ^ 32 ∧ onlyRaised { s.dev with hmp := d.hmp } d
        [HMP_RETRAINS.addr 0 0, Page.hmp.base + 0x10]) ∧
  (∀ (c : Fin 4) (s : State), s.dev.f HMP_STAT_STATE = hmpREADY → (s.dev.f HMP_MEM_CFG_CH_MASK).testBit c = true →
    ∃ d, runs (.hmpPowerDown c) s d ∧ d = { s.dev with hmp := { s.dev.hmp with powerDown := s.dev.hmp.powerDown ||| 2 ^ c.val } }) ∧
  (∀ (p : Port) (s : State), s.admitsAt p .hmp → s.dev.enabled .hmp = false →
    ∃ d, runs (.hmpCtrlDsm p) s d ∧ d.f HMP_STAT_STATE = 5 ∧ d.hmp.ring = [] ∧ d.hmp.desc = none ∧
      (∀ k < 16, d.hmp.slot k = none) ∧ d.f HMP_SPAN_MS = 0 ∧
      ∀ a, a < Page.hmp.base ∨ Page.hmp.base + Page.hmp.size ≤ a → d.word a = s.dev.word a) ∧
  (∀ (p : Port) (s : State), s.admitsAt p .hmp → s.dev.enabled .hmp = true → runs (.hmpCtrlDsm p) s s.dev) ∧
  (∀ (ok : Fin 16) (s : State), s.dev.f HMP_STAT_STATE = 1 → s.dev.hmp.leaving = false → s.dev.clk.memLock = true →
    ok.val &&& s.dev.f HMP_MEM_CFG_CH_MASK = s.dev.f HMP_MEM_CFG_CH_MASK →
    ∃ d, runs (.hmpTrainDone ok false) s d ∧ d.f HMP_STAT_STATE = hmpREADY ∧ d.hmp.ring = [] ∧
      d.f HMP_STAT_CH_OK = s.dev.f HMP_MEM_CFG_CH_MASK ∧ d.f HMP_STAT_RATE_ACT = s.dev.f HMP_MEM_CFG_RATE) ∧
  (∀ (ok : Fin 16) (b : Bool) (s : State), s.dev.f HMP_STAT_STATE = 1 → s.dev.hmp.leaving = false → s.dev.clk.memLock = true →
    ok.val &&& s.dev.f HMP_MEM_CFG_CH_MASK ≠ s.dev.f HMP_MEM_CFG_CH_MASK →
    ∃ d, runs (.hmpTrainDone ok b) s d ∧ d.f HMP_STAT_STATE = 3 ∧
      d.hmp = { s.dev.hmp with trained := (ok.val &&& s.dev.f HMP_MEM_CFG_CH_MASK, s.dev.f HMP_MEM_CFG_RATE) } ∧
      (∃ x, d.evq = s.dev.evq ++ [x] ∧ x.code = 0x087) ∧
      onlyWords s.dev d [HMP_STAT_STATE.addr 0 0, Page.hmp.base + 0x10])

/-! ## Delivery and the host link (R398 to R427) -/

/-- R407 to R416: packets enter delivery in order, are kept where their queue takes them and dropped where it does
not; a grant sends the head packet and takes its credit; queue entries are written. Where a clause rests on a reading
of the model rather than on the rule's words, see log entries 88, 89 and 90. -/
def Obligations.DeliveryMovesPackets : Prop :=
  (∀ (s : State), s.dev.reqs = [] → runs .dlvEnqueue s s.dev) ∧
  (∀ (q typ tag aux : Nat) (pay : List Byte) (t : List PktReq) (s : State), s.dev.reqs = .stat q typ tag aux pay :: t →
    s.dev.queueTakes q pay.length = true →
    ∃ d p, runs .dlvEnqueue s d ∧ d.reqs = t ∧ (d.queue q).grps = (s.dev.queue q).grps ++ [{ pkts := [p] }] ∧
      p.typ = typ ∧ p.payload = pay ∧ ∀ r, r ≠ q → d.queue r = s.dev.queue r) ∧
  (∀ (q typ tag aux : Nat) (pay : List Byte) (t : List PktReq) (s : State), s.dev.reqs = .stat q typ tag aux pay :: t →
    s.dev.queueTakes q pay.length = false →
    ∃ d, runs .dlvEnqueue s d ∧ d.dlv = s.dev.dlv ∧ d.f STA_REC_DROP = (s.dev.f STA_REC_DROP + 1) % 2 ^ 32 ∧
      onlyWords s.dev d [STA_REC_DROP.addr 0 0, Page.sta.base + 0x10]) ∧
  (∀ (k : Nat) (t : List PktReq) (s : State), s.dev.reqs = .frameStart k :: t → s.dev.active .dlv = true →
    s.dev.bound (s.dev.stream k).q = false →
    ∃ d, runs .dlvEnqueue s d ∧ (d.stream k).dead = true ∧ d.dlv.queues = s.dev.dlv.queues ∧
      d.f DLV_UNBOUND = (s.dev.f DLV_UNBOUND + 1) % 2 ^ 32 ∧ onlyWords s.dev d [DLV_UNBOUND.addr 0 0, Page.dlv.base + 0x10]) ∧
  (∀ (k : Nat) (t : List PktReq) (s : State), s.dev.reqs = .frameStart k :: t → s.dev.active .dlv = true →
    s.dev.bound (s.dev.stream k).q = true → buffered s.dev.allPkts + 148 ≤ 2 ^ 24 →
    ∃ d g, runs .dlvEnqueue s d ∧ d.reqs = t ∧ (d.stream k).begun = true ∧ g.key = k ∧ g.closed = false ∧
      (d.queue (s.dev.stream k).q).grps = (s.dev.queue (s.dev.stream k).q).grps ++ [g]) ∧
  (∀ (q : Nat) (p : Pkt) (d0 : Dev) (s : State), s.dev.active .dlv = true → (∀ e, e < 8 → s.dev.peDmaOn e = false) →
    s.dev.dlv.irqW = none → s.dev.dlv.timeW = [] → s.dev.dlv.resps = [] → d0 = dlvRearm s.dev →
    oldest (d0.eligible.filter fun e => d0.qClass e.1 = 0) = some (q, p) → (d0.queue q).head = some p → p.time = none →
    p.typ ≠ 0x02 ∨ 56 ≤ p.payload.length →
    ∃ d, runs .dlvGrant s d ∧ d.dlv.busy = true ∧ d.dlv.last.length = p.len + 20 ∧
      d.qUsed q = (s.dev.qUsed q + credits p.len) % 2 ^ 32 ∧ d.hlp.strm = s.dev.hlp.strm) ∧
  (∀ (s : State), s.dev.active .dlv = false → runs .dlvGrant s s.dev) ∧
  (∀ (p : Port) (q : Fin 8192) (v : Word) (s : State), s.admits p → q ≠ 0 →
    ∃ d, runs (.queueEntryWrite p (BitVec.ofNat 24 (qAddr q 1)) v) s d ∧ d.qLimit q = v.toNat ∧ onlyRegs s.dev d [qAddr q 1]) ∧
  (∀ (p : Port) (q : Fin 8192) (v : Word) (s : State), s.admits p → q ≠ 0 → s.dev.qEn q = false → bitsOf v 0 0 = 1 →
    bitsOf v 24 16 ≤ 256 → bitsOf v 6 4 ≤ 4 →
    ∃ d, runs (.queueEntryWrite p (BitVec.ofNat 24 (qAddr q 0)) v) s d ∧ d.qEn q = true ∧ d.qUsed q = 0 ∧
      d.qCap q = bitsOf v 24 16 * 65536 ∧ d.qWeight q = bitsOf v 15 8 ∧ d.qClass q = bitsOf v 2 1 ∧
      onlyRegs s.dev d [qAddr q 0, qAddr q 2, qAddr q 3]) ∧
  (∀ (s : State), s.dev.active .dlv = true → s.dev.a DLV_TIME_CFG_PERIOD_MS ≠ 0 →
    runs .timePeriodic s { s.dev with reqs := s.dev.reqs ++ [.time 0 none] }) ∧
  (∀ (p : Port) (s : State), s.admitsAt p .dlv → runs (.timeSend p) s { s.dev with reqs := s.dev.reqs ++ [.time 3 none] })

/-- R401, R410, R417 to R419, R423, R424, R585: host packets, which nothing answers while the unit serves nothing,
their errors and the timers of bring-up. Where a clause rests on a reading of the model rather than on the rule's
words, see log entries 91 and 92. -/
def Obligations.HostPacketsAreServed : Prop :=
  (∀ (h : HostHdr) (pay : List Byte) (w : Word) (a : BitVec 24) (d1 : Dev) (s : State),
    hostFront 0x10 s.dev = some (h, pay, d1) → d1.serves = true → d1.hlp.held + h.len + 20 ≤ 65536 →
    h.malformed true = false →
    d1.portOpen .inband = true → h.noAck = true → h.addr = a.toNat → wordsOf pay = [w] →
    exec .hostRegWr s =
      exec (.regWrite .inband a w) { s with dev := { d1 with hlp := { d1.hlp with held := d1.hlp.held + h.len + 20 } } } ∧
      ∃ t, exec .hostRegWr s = .next t) ∧
  (∀ (h : HostHdr) (pay : List Byte) (d1 : Dev) (s : State), hostFront 0x10 s.dev = some (h, pay, d1) →
    d1.serves = true → 65536 < d1.hlp.held + h.len + 20 →
    ∃ d, runs .hostRegWr s d ∧ d.f HLP_RX_OVF = (d1.f HLP_RX_OVF + 1) % 2 ^ 32 ∧
      onlyRaised d1 d [HLP_RX_OVF.addr 0 0, Page.hlp.base + 0x10]) ∧
  (∀ (h : HostHdr) (pay : List Byte) (d1 : Dev) (s : State), hostFront 0x11 s.dev = some (h, pay, d1) →
    d1.serves = true → d1.hlp.held + h.len + 20 ≤ 65536 → h.malformed false = false →
    ∃ d, runs .hostRegRd s d ∧ (d.given .inband).length = h.count) ∧
  (∀ (c : Instr) (t : Nat) (h : HostHdr) (pay : List Byte) (d1 : Dev) (s : State),
    (c, t) ∈ [(.hostRegWr, 0x10), (.hostRegRd, 0x11)] → hostFront t s.dev = some (h, pay, d1) → d1.serves = false →
    runs c s d1) ∧
  (∀ (h : HostHdr) (pay : List Byte) (d1 : Dev) (q v : Nat) (s : State), hostFront 0x18 s.dev = some (h, pay, d1) →
    pay.length = 8 → q = natOfBytes (pay.take 2) % 8192 → v = natOfBytes ((pay.drop 4).take 4) → q ≠ 0 →
    ∃ d, runs .hostCredit s d ∧
      (if 2 ^ 31 ≤ (v + 2 ^ 32 - d1.qLimit q) % 2 ^ 32 then
        d.qLimit q = d1.qLimit q ∧ d.f DLV_CREDIT_BACK = (d1.f DLV_CREDIT_BACK + 1) % 2 ^ 32
       else d.qLimit q = v ∧ onlyRegs d1 d [qAddr q 1])) ∧
  (∀ (c : Instr) (t : Nat) (s : State), (c, t) ∈ [(.hostRegWr, 0x10), (.hostRegRd, 0x11), (.hostCredit, 0x18)] →
    hostFront t s.dev = none → runs c s s.dev) ∧
  (∀ (s : State), s.dev.hlState = hlUP → s.dev.hlp.search = false → 16 ≤ s.dev.hostStream.length →
    hostDecode s.dev.hostStream = none →
    ∃ d, runs .hostPacketError s d ∧ d.f HLP_RX_ERR = (s.dev.f HLP_RX_ERR + 1) % 2 ^ 32 ∧
      onlyWords s.dev d [HLP_RX_ERR.addr 0 0, Page.hlp.base + 0x10]) ∧
  (∀ (s : State), s.dev.hlState = hlINIT →
    ∃ d p, runs .hlpHelloTimer s d ∧ (d.queue 0).grps = (s.dev.queue 0).grps ++ [{ pkts := [p] }] ∧ p.typ = 1 ∧
      p.payload.length = 32 ∧ d.hlState = hlINIT) ∧
  (∀ (s : State), s.dev.hlState = hlINIT →
    ∃ d, runs .hlpInitTimeout s d ∧ d.hlState = hlTRAINING ∧ d.f HLP_RETRAIN = (s.dev.f HLP_RETRAIN + 1) % 2 ^ 32) ∧
  (∀ (c : Instr) (s : State), c ∈ [.hlpHelloTimer, .hlpInitTimeout] → s.dev.hlState ≠ hlINIT → runs c s s.dev)

/-! ## Serial lanes (R428 to R457) -/

/-- R440, R451 to R456: the states of a lane group. Where a clause rests on a reading of the model rather than on the
rule's words, see log entry 94. -/
def Obligations.LaneGroupsTrain : Prop :=
  (∀ (g : Fin 9) (s : State), s.dev.boot.run = .running → (s.dev.grp g).state = lnDEEP →
    (s.dev.grp g).held = false → s.dev.loopsRun g = true → s.dev.rateConflict g = false →
    ∃ d, runs (.laneBackoffEnd g) s d ∧ (d.grp g).state = lnDETECT ∧ ∀ h, h ≠ g.val → d.grp h = s.dev.grp h) ∧
  (∀ (g : Fin 9) (s : State), s.dev.boot.run = .running → (s.dev.grp g).txIdle = true → (s.dev.grp g).state = lnDETECT → s.dev.rateConflict g = false →
    ∃ d, runs (.laneFailIdleEnd g) s d ∧ (d.grp g).state = lnDETECT ∧ (d.grp g).txIdle = false) ∧
  (∀ (l : Fin 44) (s : State), laneRx l = true → s.dev.laneUsed l = true →
    (s.dev.grp (laneGroup l)).state = lnDETECT → (s.dev.grp (laneGroup l)).txIdle = false →
    ∃ d, runs (.laneSignalDetect l) s d ∧ d.fi LN_STAT_SIGNAL l 0 = 1 ∧ (d.grp (laneGroup l)).state = lnACQUIRE) ∧
  (∀ (l : Fin 44) (s : State), laneRx l = true → (s.dev.grp (laneGroup l)).state = lnACQUIRE →
    ∃ d, runs (.laneCdrLock l) s d ∧ (d.lane l).cdr = true ∧ ((d.grp (laneGroup l)).state = lnSYNC ↔
      ∀ m ∈ s.dev.signalled (laneGroup l), m = l.val ∨ (s.dev.lane m).cdr = true)) ∧
  (∀ (l : Fin 44) (eq : List Int) (s : State), (s.dev.grp (laneGroup l)).state = lnEQUALISE →
    l.val ∈ s.dev.partRx (laneGroup l) →
    ∃ d, runs (.laneEqDone l eq) s d ∧ (d.lane l).eqDone = true ∧ (d.lane l).eq0 = (d.lane l).eq ∧
      ∀ m, m ≠ l.val → d.lane m = s.dev.lane m) ∧
  (∀ (g : Fin 9) (st : Nat) (s : State), st = (s.dev.grp g).state → st ∈ [lnDETECT, lnACQUIRE, lnEQUALISE, lnCONFIG] →
    s.dev.boot.run = .running → (s.dev.grp g).txIdle = false →
    ∃ d, runs (.laneStateTimeout g) s d ∧ (d.grp g).fails = min 15 ((s.dev.grp g).fails + 1) ∧
      (d.grp g).state = if (s.dev.grp g).fails + 1 < 3 then lnDETECT else lnDEEP) ∧
  (∀ (l : Fin 44) (s : State), laneRx l = true → s.dev.laneUsed l = true → s.dev.fi LN_STAT_SIGNAL l 0 = 1 →
    (s.dev.lane l).left = true →
    ∃ d, runs (.laneLos l) s d ∧ d.fi LN_STAT_SIGNAL l 0 = 0 ∧ d.fi LN_LOS l 0 = (s.dev.fi LN_LOS l 0 + 1) % 2 ^ 32 ∧
      onlyRegs s.dev d [LN_LOS.addr l 0, LN_STAT_SIGNAL.addr l 0]) ∧
  (∀ (l : Fin 44) (s : State), laneRx l = true → s.dev.laneUsed l = true → s.dev.fi LN_STAT_SIGNAL l 0 = 1 →
    (s.dev.lane l).left = false → lnACQUIRE ≤ (s.dev.grp (laneGroup l)).state → s.dev.boot.run = .running →
    ∃ d, runs (.laneLos l) s d ∧ (d.grp (laneGroup l)).fails = min 15 ((s.dev.grp (laneGroup l)).fails + 1)) ∧
  (∀ (p : Port) (l : Fin 44) (s : State), s.admitsAt p (.ln l) → (s.dev.grp (laneGroup l)).state ≠ lnOFF →
    ∃ d, runs (.laneDeepReq p l) s d ∧ (d.grp (laneGroup l)).state = lnDEEP ∧ (d.grp (laneGroup l)).held = true) ∧
  (∀ (p : Port) (l : Fin 44) (s : State), s.admitsAt p (.ln l) → laneRx l = true →
    (s.dev.grp (laneGroup l)).state = lnSYNC →
    ∃ d, runs (.laneSlip p l) s d ∧ d = { s.dev with lanes := d.lanes, regs := d.regs } ∧ d.locked l = false ∧
      onlyWords s.dev d [LN_STAT_BLOCK_LOCK.addr l 0] ∧
      d.lane l = { s.dev.lane l with good := 0, slips := (s.dev.lane l).slips + 1, discard := 2 }) ∧
  (∀ (p : Port) (l : Fin 44) (s : State), s.admitsAt p (.ln l) → laneRx l = true →
    (s.dev.grp (laneGroup l)).state = lnACTIVE →
    ∃ d, runs (.laneSlip p l) s d ∧ d = { s.dev with lanes := d.lanes } ∧ d.lane l = { s.dev.lane l with slipped := true }) ∧
  (∀ (g : Fin 9) (l : Nat) (s : State), l = leadLane (txLanes g) → (s.dev.grp g).state = lnACTIVE →
    s.dev.fi LN_PWR_CFG_SLEEP_US l 0 ≠ 0 → s.dev.fi LN_STAT_TX_SLEEP l 0 = 0 →
    (s.dev.txGrp g).idle = true → (s.dev.txGrp g).bytes = [] →
    ∃ d, runs (.laneSleep g) s d ∧ (∀ m ∈ s.dev.partTx g, d.fi LN_STAT_TX_SLEEP m 0 = 1) ∧
      d = { s.dev with regs := d.regs, tx := d.tx }) ∧
  (∀ (g : Fin 9) (s : State),
    ∃ d, runs (.laneWake g) s d ∧ (∀ m ∈ s.dev.partTx g, d.fi LN_STAT_TX_SLEEP m 0 = 0) ∧
      d = { s.dev with regs := d.regs, tx := d.tx }) ∧
  (∀ (s : State), s.posted 0x0090 1 → s.dev.cmdNat 0 2 < 512 →
    ∃ d, runs .linkRetrain s d ∧ d.f MBX_STAT_STATE = mbxDONE ∧ d.f MBX_STAT_RESULT = resOK ∧
      ∀ g : Fin 9, (s.dev.cmdNat 0 2).testBit g = true → (d.grp g).state = lnDEEP ∨ (d.grp g).state = lnOFF) ∧
  (∀ (s : State), s.posted 0x0090 1 → 512 ≤ s.dev.cmdNat 0 2 → runs .linkRetrain s (s.dev.answered resBAD_PARAM))

/-- R430 to R434, R437 to R448, R455, R456: blocks and codewords of a lane, as its receiver reads them, its elastic
buffer, its equaliser and its margin check. Where a clause rests on a reading of the model rather than on the rule's
words, see log entries 93 and 95. -/
def Obligations.LaneBlocksAreReceived : Prop :=
  (∀ (c : Instr) (k : BKind) (l : Fin 44) (b : BitVec 260) (drift : Int) (s : State), (c, k) ∈ [(.laneDataBlock l b drift, .data),
      (.laneIdleBlock l b drift, .idle), (.laneSkipBlock l b drift, .skip), (.laneAlignRow l b drift, .align),
      (.laneCtrlBlock l b drift, .ctrl)] → kindOf (s.dev.rxBlock l b).1 = some k →
    s.dev.laneHears l = true → s.dev.locked l = false → (s.dev.lane l).discard = 0 → (s.dev.lane l).good + 1 < 64 →
    ∃ d, runs c s d ∧ d = { s.dev with lanes := d.lanes } ∧ d.lane l = { s.dev.lane l with good := (s.dev.lane l).good + 1 }) ∧
  (∀ (c : Instr) (l : Fin 44) (b : BitVec 260) (drift : Int) (s : State),
    c = .laneDataBlock l b drift ∧ kindOf (s.dev.rxBlock l b).1 = some .data ∨
      c = .laneInvalidHeader l b drift ∧ kindOf (s.dev.rxBlock l b).1 = none →
    s.dev.laneHears l = true → s.dev.locked l = false → (s.dev.lane l).discard ≠ 0 →
    ∃ d, runs c s d ∧ d = { s.dev with lanes := d.lanes } ∧ d.lane l = { s.dev.lane l with discard := (s.dev.lane l).discard - 1 }) ∧
  (∀ (l : Fin 44) (b : BitVec 260) (drift : Int) (s : State), kindOf (s.dev.rxBlock l b).1 = none →
    s.dev.laneHears l = true → s.dev.locked l = false → (s.dev.lane l).discard = 0 →
    ∃ d, runs (.laneInvalidHeader l b drift) s d ∧ d = { s.dev with lanes := d.lanes } ∧
      d.lane l = { s.dev.lane l with good := 0, slips := (s.dev.lane l).slips + 1, discard := 2 }) ∧
  (∀ (l : Fin 44) (b : BitVec 260) (drift : Int) (fill : Nat) (s : State), kindOf (s.dev.rxBlock l b).1 = some .idle →
    s.dev.laneHears l = true → s.dev.locked l = true → s.dev.fi LN_STAT_RX_SLEEP l 0 = 0 →
    (s.dev.lane l).fec = false → ((false :: (s.dev.lane l).hist).take 64).countP id < 16 →
    (fill : Int) = (s.dev.fi LN_EB_FILL_BITS l 0 : Int) + drift → 0 < fill → fill < 1040 →
    laneGroup l ≠ 0 ∨ (s.dev.lane l).started = false →
    ∃ d, runs (.laneIdleBlock l b drift) s d ∧
      (d.lane l).desc = (descramble (s.dev.lane l).desc (s.dev.rxBlock l b).2.1).2 ∧
      d.fi LN_EB_FILL_BITS l 0 = fill ∧ (d.lane l).idleOnly = true ∧ (d.lane l).q = (s.dev.lane l).q ∧
      d.fi LN_HDR_ERR l 0 = (s.dev.fi LN_HDR_ERR l 0 + b2n (s.dev.lane l).slipped) % 2 ^ 32 ∧
      onlyWords s.dev d [LN_EB_FILL_BITS.addr l 0, LN_HDR_ERR.addr l 0]) ∧
  (∀ (l : Fin 44) (b : BitVec 260) (drift : Int) (fill m : Nat) (s : State), kindOf (s.dev.rxBlock l b).1 = some .idle →
    s.dev.laneHears l = true → s.dev.locked l = true → s.dev.fi LN_STAT_RX_SLEEP l 0 = 0 →
    (s.dev.lane l).fec = false → ((false :: (s.dev.lane l).hist).take 64).countP id < 16 →
    (fill : Int) = (s.dev.fi LN_EB_FILL_BITS l 0 : Int) + drift → 0 < fill → fill < 1040 →
    laneGroup l = 0 → (s.dev.lane l).started = true → l.val ∈ s.dev.hostRx → m ∈ s.dev.hostRx → m ≠ l.val →
    (s.dev.lane m).q = [] → (s.dev.lane l).q.length < 32 →
    ∃ d, runs (.laneIdleBlock l b drift) s d ∧
      (d.lane l).q = (s.dev.lane l).q ++ [if (s.dev.lane l).slipped then .lost else .idle] ∧
      (∀ k, k ≠ l.val → d.lane k = s.dev.lane k) ∧ d.hlp = s.dev.hlp ∧
      d.fi LN_HDR_ERR l 0 = (s.dev.fi LN_HDR_ERR l 0 + b2n (s.dev.lane l).slipped) % 2 ^ 32 ∧
      onlyWords s.dev d [LN_EB_FILL_BITS.addr l 0, LN_HDR_ERR.addr l 0]) ∧
  (∀ (l : Fin 44) (b : BitVec 260) (drift : Int) (fill : Nat) (s : State), kindOf (s.dev.rxBlock l b).1 = some .skip →
    s.dev.laneHears l = true → s.dev.locked l = true → s.dev.fi LN_STAT_RX_SLEEP l 0 = 0 →
    (s.dev.lane l).fec = false → (s.dev.lane l).slipped = false → (s.dev.lane l).postponed = false →
    laneGroup l ≠ 0 ∨ s.dev.longRequest = false → ((false :: (s.dev.lane l).hist).take 64).countP id < 16 →
    (fill : Int) = (s.dev.fi LN_EB_FILL_BITS l 0 : Int) + drift → 0 < fill → fill < 1040 →
    ∃ d, runs (.laneSkipBlock l b drift) s d ∧
      d.fi LN_EB_FILL_BITS l 0 = (if 650 ≤ fill then fill - 260 else if fill ≤ 390 then fill + 260 else fill) ∧
      d.fi LN_SKIP_DEL l 0 = (s.dev.fi LN_SKIP_DEL l 0 + if 650 ≤ fill then 1 else 0) % 2 ^ 32 ∧
      d.fi LN_SKIP_INS l 0 = (s.dev.fi LN_SKIP_INS l 0 + if fill ≤ 390 then 1 else 0) % 2 ^ 32 ∧
      (d.lane l).idleOnly = true ∧ (d.lane l).q = (s.dev.lane l).q ∧
      onlyWords s.dev d [LN_EB_FILL_BITS.addr l 0, LN_SKIP_DEL.addr l 0, LN_SKIP_INS.addr l 0]) ∧
  (∀ (l : Fin 44) (b : BitVec 260) (drift : Int) (fill p : Nat) (s : State), kindOf (s.dev.rxBlock l b).1 = some .data →
    s.dev.laneHears l = true → s.dev.locked l = true →
    laneGroup l = 1 + p → s.dev.spState p = spALIGN → (s.dev.lane l).started = true → (s.dev.lane l).slipped = false →
    s.dev.fi LN_STAT_RX_SLEEP l 0 = 0 → (s.dev.lane l).fec = false →
    ((false :: (s.dev.lane l).hist).take 64).countP id < 16 →
    (fill : Int) = (s.dev.fi LN_EB_FILL_BITS l 0 : Int) + drift → 0 < fill → fill < 1040 →
    ∃ d, runs (.laneDataBlock l b drift) s d ∧
      (d.lane l).desc = (descramble (s.dev.lane l).desc (s.dev.rxBlock l b).2.1).2 ∧
      (d.lane l).q = (s.dev.lane l).q ++ [.data (descramble (s.dev.lane l).desc (s.dev.rxBlock l b).2.1).1] ∧
      d.fi LN_EB_FILL_BITS l 0 = fill ∧ onlyWords s.dev d [LN_EB_FILL_BITS.addr l 0]) ∧
  (∀ (l : Fin 44) (b : BitVec 260) (drift : Int) (fill : Nat) (s : State), kindOf (s.dev.rxBlock l b).1 = none →
    s.dev.laneHears l = true → s.dev.locked l = true →
    (s.dev.lane l).started = false → s.dev.fi LN_STAT_RX_SLEEP l 0 = 0 → (s.dev.lane l).fec = false →
    ((true :: (s.dev.lane l).hist).take 64).countP id < 16 →
    (fill : Int) = (s.dev.fi LN_EB_FILL_BITS l 0 : Int) + drift → 0 < fill → fill < 1040 →
    ∃ d, runs (.laneInvalidHeader l b drift) s d ∧ d.fi LN_HDR_ERR l 0 = (s.dev.fi LN_HDR_ERR l 0 + 1) % 2 ^ 32 ∧
      (d.lane l).desc = (descramble (s.dev.lane l).desc (s.dev.rxBlock l b).2.1).2 ∧
      onlyWords s.dev d [LN_EB_FILL_BITS.addr l 0, LN_HDR_ERR.addr l 0]) ∧
  (∀ (l : Fin 44) (w : List (BitVec 10)) (x : List Nat) (c : List Nat) (n : Nat) (s : State), (s.dev.lane l).fec = true →
    w.length = 272 →
    x = symsOf 272 (bitsOfSymbols (s.dev.rxSymbols l (symbolsOf (w.flatMap fun s => symBits s.toNat))).1) →
    rsDecode x = some (c, n) →
    ∃ d, runs (.fecCodeword l w) s d ∧ d.fi LN_FEC_CORR l 0 = (s.dev.fi LN_FEC_CORR l 0 + n) % 2 ^ 32 ∧
      (d.lane l).uncRun = 0 ∧ ((d.lane l).bits.map (·.1)) = ((s.dev.lane l).bits.map (·.1)) ++ rsMessage c ∧
      onlyWords s.dev d [LN_FEC_CORR.addr l 0]) ∧
  (∀ (l : Fin 44) (ds : List Int) (s : State), s.dev.laneTrained l = true → laneRx l = true →
    s.dev.fi LN_RX_CFG_ADAPT_EN l 0 = 1 → s.dev.fi LN_STAT_RX_SLEEP l 0 = 0 → s.dev.blockRich l = true →
    ∃ d, runs (.laneAdaptUpdate l ds) s d ∧ (d.lane l).eq0 = (s.dev.lane l).eq0 ∧ (d.lane l).q = (s.dev.lane l).q ∧
      ∀ (i : Nat) (v now lo hi : Int), (d.lane l).eq[i]? = some v → now = ((s.dev.lane l).eq[i]?).getD 0 →
        lo = ((s.dev.lane l).eq0[i]?).getD 0 - s.dev.fi LN_RX_CFG_DRIFT_MAX l 0 →
        hi = ((s.dev.lane l).eq0[i]?).getD 0 + s.dev.fi LN_RX_CFG_DRIFT_MAX l 0 →
        now - s.dev.fi LN_RX_CFG_STEP_MAX l 0 ≤ v ∧ v ≤ now + s.dev.fi LN_RX_CFG_STEP_MAX l 0 ∧
          (lo ≤ now → now ≤ hi → lo ≤ v ∧ v ≤ hi) ∧ (now = lo ∨ now = hi → v = now)) ∧
  (∀ (l : Fin 44) (s : State), s.dev.laneTrained l = true → laneRx l = true → (s.dev.lane l).idleOnly = true →
    s.dev.fi LN_STAT_RX_SLEEP l 0 = 0 →
    ∃ d, runs (.laneMarginCheck l) s d ∧ d = { s.dev with lanes := d.lanes } ∧ d.lane l = { s.dev.lane l with margin := true }) ∧
  (∀ (l : Fin 44) (w h : BitVec 16) (s : State), (s.dev.lane l).margin = true →
    ∃ d, runs (.laneMarginDone l w h) s d ∧ (d.lane l).margin = false ∧ d.fi LN_EYE_W l 0 = w.toNat ∧
      d.fi LN_EYE_H l 0 = h.toNat ∧ d.fi LN_MARGIN_CHECKS l 0 = (s.dev.fi LN_MARGIN_CHECKS l 0 + 1) % 2 ^ 32 ∧
      ((∃ x, d.evq = s.dev.evq ++ [x] ∧ x.code = 0x093) ↔
        w.toNat < s.dev.fi LN_MARGIN_CFG_MIN_W l 0 ∨ h.toNat < s.dev.fi LN_MARGIN_CFG_MIN_H l 0)) ∧
  (∀ (l : Fin 44) (b : BitVec 260) (drift : Int) (fill m : Nat) (v : BitVec 256) (s : State),
    kindOf (s.dev.rxBlock l b).1 = some .align →
    s.dev.laneHears l = true → s.dev.locked l = true → s.dev.fi LN_STAT_RX_SLEEP l 0 = 0 → (s.dev.lane l).fec = false →
    (s.dev.lane l).slipped = false → ((false :: (s.dev.lane l).hist).take 64).countP id < 16 →
    (fill : Int) = (s.dev.fi LN_EB_FILL_BITS l 0 : Int) + drift → 0 < fill → fill < 1040 →
    v = (descramble (s.dev.lane l).desc (s.dev.rxBlock l b).2.1).1 →
    laneGroup l = 0 → (s.dev.lane l).started = true → l.val ∈ s.dev.hostRx → m ∈ s.dev.hostRx → m ≠ l.val →
    (s.dev.lane m).q = [] → (s.dev.lane l).q.length < 32 →
    ∃ d, runs (.laneAlignRow l b drift) s d ∧
      (d.lane l).q = (s.dev.lane l).q ++ [.align (natOfBytes ((blockBytes v).take 4))] ∧
      (∀ k, k ≠ l.val → d.lane k = s.dev.lane k) ∧ d.hlp = s.dev.hlp ∧
      onlyWords s.dev d [LN_EB_FILL_BITS.addr l 0, LN_SKEW_BLOCKS.addr l 0]) ∧
  (∀ (l : Fin 44) (b : BitVec 260) (drift : Int) (fill : Nat) (v : BitVec 256) (s : State),
    kindOf (s.dev.rxBlock l b).1 = some .ctrl →
    s.dev.laneHears l = true → s.dev.locked l = true → s.dev.fi LN_STAT_RX_SLEEP l 0 = 0 → (s.dev.lane l).fec = false →
    (s.dev.lane l).slipped = false → ((false :: (s.dev.lane l).hist).take 64).countP id < 16 →
    (fill : Int) = (s.dev.fi LN_EB_FILL_BITS l 0 : Int) + drift → 0 < fill → fill < 1040 →
    v = (descramble (s.dev.lane l).desc (s.dev.rxBlock l b).2.1).1 →
    (s.dev.grp (laneGroup l)).state = lnACTIVE → natOfBytes ((blockBytes v).take 1) = 2 →
    ∃ d, runs (.laneCtrlBlock l b drift) s d ∧ (d.lane l).started = true ∧ (d.lane l).awake = true ∧ (d.lane l).prev = 0 ∧
      (d.lane l).fec = decide (s.dev.fi LN_STAT_FEC_ACT l 0 = 1) ∧ (d.lane l).q = (s.dev.lane l).q ∧
      (∀ k, k ≠ l.val → d.lane k = s.dev.lane k) ∧ onlyWords s.dev d [LN_EB_FILL_BITS.addr l 0]) ∧
  (∀ (l : Fin 44) (b : BitVec 260) (drift : Int) (fill : Nat) (v : BitVec 256) (s : State),
    kindOf (s.dev.rxBlock l b).1 = some .ctrl →
    s.dev.laneHears l = true → s.dev.locked l = true → s.dev.fi LN_STAT_RX_SLEEP l 0 = 0 → (s.dev.lane l).fec = false →
    (s.dev.lane l).slipped = false → ((false :: (s.dev.lane l).hist).take 64).countP id < 16 →
    (fill : Int) = (s.dev.fi LN_EB_FILL_BITS l 0 : Int) + drift → 0 < fill → fill < 1040 →
    v = (descramble (s.dev.lane l).desc (s.dev.rxBlock l b).2.1).1 →
    (s.dev.grp (laneGroup l)).state = lnACTIVE → natOfBytes ((blockBytes v).take 1) = 3 →
    ∃ d, runs (.laneCtrlBlock l b drift) s d ∧ d.fi LN_STAT_RX_SLEEP l 0 = 1 ∧
      d.fi LN_SLEEPS l 0 = (s.dev.fi LN_SLEEPS l 0 + 1) % 2 ^ 32 ∧ (d.lane l).awake = false ∧
      (∀ k, k ≠ l.val → d.lane k = s.dev.lane k) ∧
      onlyWords s.dev d [LN_EB_FILL_BITS.addr l 0, LN_STAT_RX_SLEEP.addr l 0, LN_SLEEPS.addr l 0])

/-! ## Clocks and time (R460 to R480) -/

/-- R461 to R466, R468: lock of the PLLs, loss and return of the reference, loss of lock, and the choice of a
reference. Where a clause rests on a reading of the model rather than on the rule's words, see log entries 109 and
124. -/
def Obligations.TimingPllLocksAndCoasts : Prop :=
  (∀ (s : State), s.dev.aon.level = 2 → s.dev.clk.state = clkACQUIRE →
    ∃ d, runs (.pllLock .timing) s d ∧ d.clk.state = clkLOCKED ∧ d.clk.everLocked = true ∧ d.serves = true ∧
      onlyRaised { s.dev with clk := d.clk } d [Page.clk.base + 0x10]) ∧
  (∀ (n : Fin 10) (s : State), s.dev.aon.level = 2 → s.dev.fk CLK_OUT_CFG_EN n = 1 → (s.dev.outN n).lock = false →
    ∃ d, runs (.pllLock (.opll n)) s d ∧ d = { s.dev with clk := d.clk } ∧ d.clk.state = s.dev.clk.state ∧
      (d.outN n).lock = true ∧
      (d.outN n).running = (s.dev.clk.everLocked && decide (s.dev.clk.state ≠ clkLOST)) ∧
      ∀ m, m ≠ n.val → d.outN m = s.dev.outN m) ∧
  (∀ (q : Fin 8) (s : State), s.dev.aon.level = 2 → q.val ∉ s.dev.clk.laneLock →
    ∃ d, runs (.pllLock (.lane q)) s d ∧ d = { s.dev with clk := { s.dev.clk with laneLock := d.clk.laneLock } } ∧
      ∀ m, m ∈ d.clk.laneLock ↔ m = q.val ∨ m ∈ s.dev.clk.laneLock) ∧
  (∀ (p : Pll) (s : State), s.dev.aon.level = 2 → s.dev.pllLocked p = true → runs (.pllLock p) s (s.dev.bump CLK_PHASE_EXC)) ∧
  (∀ (n : Fin 10) (s : State), s.dev.aon.level = 2 → s.dev.fk CLK_OUT_CFG_EN n = 1 →
    ∃ d, runs (.pllLock (.opllLoss n)) s d ∧ d = { s.dev with clk := d.clk } ∧ d.clk.state = s.dev.clk.state ∧
      d.outN n = { s.dev.outN n with lock := false, gated := true, running := false } ∧
      ∀ m, m ≠ n.val → d.outN m = s.dev.outN m) ∧
  (∀ (s : State), s.dev.aon.level = 2 → s.dev.clk.memLock = false →
    runs (.pllLock .mem) s { s.dev with clk := { s.dev.clk with memLock := true } }) ∧
  (∀ (p : Pll) (s : State), s.dev.aon.level ≠ 2 → runs (.pllLock p) s s.dev) ∧
  (∀ (s : State), s.dev.clk.state = clkACQUIRE ∨ s.dev.clk.state = clkLOCKED →
    ∃ d, runs .clkRefLost s d ∧ d.clk.xtalOk = (s.dev.clk.xtalOk && decide (s.dev.f CLK_REF_CFG_SEL ≠ 0)) ∧
      d.clk = { s.dev.clk with refOk := false, state := clkCOASTING, xtalOk := d.clk.xtalOk } ∧
      d.f CLK_COASTS = (s.dev.f CLK_COASTS + 1) % 2 ^ 32 ∧ (∃ x, d.evq = s.dev.evq ++ [x] ∧ x.code = 0x020) ∧
      onlyRaised { s.dev with clk := d.clk } d [CLK_COASTS.addr 0 0, Page.clk.base + 0x10]) ∧
  (∀ (s : State), s.dev.clk.state = clkCOASTING →
    runs .clkRefReturn s { s.dev with clk := { s.dev.clk with refOk := true, state := clkQUALIFY, xtalOk := s.dev.crystal } }) ∧
  (∀ (ofs : BitVec 32) (s : State), s.dev.clk.state = clkQUALIFY → ofs.toInt.natAbs ≤ s.dev.f CLK_LOCK_CFG_LOCK_WIN →
    runs (.clkRefQualified ofs) s { s.dev with clk := { s.dev.clk with state := clkACQUIRE } }) ∧
  (∀ (ofs : BitVec 32) (s : State), s.dev.clk.state = clkQUALIFY → s.dev.f CLK_LOCK_CFG_LOCK_WIN < ofs.toInt.natAbs →
    ∃ d, runs (.clkRefQualified ofs) s d ∧ d.clk = { s.dev.clk with state := clkACQUIRE } ∧
      d.f CLK_BO_OFS = ofs.toNat ∧ d.f CLK_BUILD_OUTS = (s.dev.f CLK_BUILD_OUTS + 1) % 2 ^ 32 ∧
      (∃ x, d.evq = s.dev.evq ++ [x] ∧ x.code = 0x021 ∧ x.payload = s32 ofs.toInt) ∧ PktReq.time 2 none ∈ d.reqs ∧
      onlyRaised { s.dev with clk := d.clk } d [CLK_BO_OFS.addr 0 0, CLK_BUILD_OUTS.addr 0 0, Page.clk.base + 0x10]) ∧
  (∀ (s : State), s.dev.clk.state = clkLOST ∨
    s.dev.clk.xtalOk = false ∧ (s.dev.clk.state = clkCOASTING ∨ s.dev.clk.state = clkQUALIFY) → runs .clkLossOfLock s s.dev) ∧
  (∀ (s : State), s.dev.clk.state ≠ clkLOST →
    s.dev.clk.xtalOk = true ∨ s.dev.clk.state ≠ clkCOASTING ∧ s.dev.clk.state ≠ clkQUALIFY →
    ∃ d, runs .clkLossOfLock s d ∧ d.clk.state = clkLOST ∧ d.f CLK_LOL_EVENTS = (s.dev.f CLK_LOL_EVENTS + 1) % 2 ^ 32 ∧
      (∃ x, d.evq = s.dev.evq ++ [x] ∧ x.code = 0x022) ∧
      (∀ n, n < 10 → s.dev.fk CLK_OUT_CFG_EN n = 1 → (d.outN n).gated = true ∧ (d.outN n).running = false ∧
        (d.outN n).lock = false) ∧
      onlyRaised { s.dev with clk := d.clk } d [CLK_LOL_EVENTS.addr 0 0, Page.clk.base + 0x10]) ∧
  (∀ (p : Port) (v : Word) (s : State), s.admits p → bitsOf v 1 0 ≠ 3 → bitsOf v 1 0 ≠ s.dev.f CLK_REF_CFG_SEL →
    ∃ d, runs (.clkRefSelect p v) s d ∧ d.f CLK_REF_CFG_SEL = bitsOf v 1 0 ∧ d.clk.refOk = false ∧
      (s.dev.clk.state = clkACQUIRE ∨ s.dev.clk.state = clkLOCKED → d.clk.state = clkCOASTING) ∧
      onlyRaised { s.dev with clk := d.clk } d
        [CLK_REF_CFG_SEL.addr 0 0, CLK_COASTS.addr 0 0, Page.clk.base + 0x10]) ∧
  (∀ (p : Port) (v : Word) (s : State), s.admits p → bitsOf v 1 0 = 3 →
    runs (.clkRefSelect p v) s (s.dev.reject .clk p (CLK_REF_CFG_SEL.addr 0 0) v 2))

/-- R467 to R471: outputs are enabled and disabled, ramps run by segments, and phase steps are asked for. Where a
clause rests on a reading of the model rather than on the rule's words, see log entries 36 and 109. -/
def Obligations.ClockOutputsRamp : Prop :=
  (∀ (p : Port) (n : Fin 10) (s : State), s.admits p → s.dev.fk CLK_OUT_CFG_EN n = 0 →
    ∃ d f, runs (.clkOutEnable p n true) s d ∧ f = s.dev.outFreq n ∧ d.fk CLK_OUT_CFG_EN n = 1 ∧
      d.outN n = { fAct := f, fRamp := f, fOld := f, fNew := f, gated := decide (s.dev.clk.state = clkLOST) } ∧ (∀ m, m ≠ n.val → d.outN m = s.dev.outN m) ∧
      onlyWords s.dev d [CLK_OUT_CFG_EN.addr 0 n] ∧ d = { s.dev with regs := d.regs, clk := d.clk }) ∧
  (∀ (p : Port) (n : Fin 10) (s : State), s.admits p →
    ∃ d, runs (.clkOutEnable p n false) s d ∧ d.fk CLK_OUT_CFG_EN n = 0 ∧ d.outN n = {} ∧
      (∀ m, m ≠ n.val → d.outN m = s.dev.outN m) ∧
      onlyWords s.dev d [CLK_OUT_CFG_EN.addr 0 n] ∧ d = { s.dev with regs := d.regs, clk := d.clk }) ∧
  (∀ (n : Fin 10) (o : OutSt) (prof f : Nat) (s : State), s.dev.outN n = o → o.ramping = true →
    prof = s.dev.ak CLK_OUT_CFG_PROFILE n →
    f = toward o.fAct o.fNew (segMove o (s.dev.segment prof o.seg).1 (s.dev.segment prof o.seg).2) →
    ∃ d, runs (.clkRampSegmentEnd n []) s d ∧ d = { s.dev with clk := d.clk } ∧
      (f = o.fNew → d.outN n = { o with fAct := f, ramping := false, seg := o.seg + 1, segAt := o.segAt + 750 * (s.dev.segment prof o.seg).2 }) ∧
      (f ≠ o.fNew → s.dev.profileOver prof (o.seg + 1) = false →
        d.outN n = { o with fAct := f, seg := o.seg + 1, segAt := o.segAt + 750 * (s.dev.segment prof o.seg).2 }) ∧
      (f ≠ o.fNew → s.dev.profileOver prof (o.seg + 1) = true →
        (d.outN n).fAct = o.fNew ∧ (d.outN n).gated = true ∧ (d.outN n).ramping = false) ∧
      ∀ m, m ≠ n.val → d.outN m = s.dev.outN m) ∧
  (∀ (n : Fin 10) (fs : List Nat) (c : Nat) (s : State), s.dev.fk CLK_OUT_CFG_EN n = 1 → (s.dev.outN n).guardSeen = false →
    c = s.dev.overGuard n fs → 0 < c →
    ∃ d, runs (.clkRampSegmentEnd n fs) s d ∧ d.f CLK_GUARD_GATED = (s.dev.f CLK_GUARD_GATED + c) % 2 ^ 32 ∧
      (d.outN n).guardSeen = true ∧ (∃ x, d.evq = s.dev.evq ++ [x] ∧ x.code = 0x023 ∧ x.payload = u8 n) ∧
      onlyRaised { s.dev with clk := d.clk } d [CLK_GUARD_GATED.addr 0 0, Page.clk.base + 0x10]) ∧
  (∀ (n : Fin 10) (g : List Nat) (s : State), (s.dev.outN n).ramping = false → s.dev.overGuard n g = 0 → runs (.clkRampSegmentEnd n g) s s.dev) ∧
  (∀ (n : Fin 10) (o : OutSt) (g : Nat × Nat) (s : State), s.dev.outN n = o → o.ramping = true →
    g = s.dev.segment (s.dev.ak CLK_OUT_CFG_PROFILE n) o.seg → toward o.fAct o.fNew (segMove o g.1 g.2) = o.fNew →
    ∃ d, runs (.clkRampTargetReached n) s d ∧ d = { s.dev with clk := d.clk } ∧
      d.outN n = { o with fAct := o.fNew, ramping := false } ∧ ∀ m, m ≠ n.val → d.outN m = s.dev.outN m) ∧
  (∀ (n : Fin 10) (s : State), s.dev.fk CLK_OUT_CFG_EN n = 1 → (s.dev.outN n).gated = true →
    (s.dev.outN n).lock = false → (s.dev.outN n).relockFail = false →
    ∃ d, runs (.clkRelockTimeout n) s d ∧ d.outN n = { s.dev.outN n with relockFail := true } ∧
      d.f CLK_RELOCK_FAILS = (s.dev.f CLK_RELOCK_FAILS + 1) % 2 ^ 32 ∧
      (∃ x, d.evq = s.dev.evq ++ [x] ∧ x.code = 0x024) ∧
      onlyRaised { s.dev with clk := d.clk } d [CLK_RELOCK_FAILS.addr 0 0, Page.clk.base + 0x10]) ∧
  (∀ (s : State), s.posted 0x0061 1 →
    runs .phaseStep s
      (if s.dev.clk.state ≠ clkLOCKED then s.dev.answered resBAD_STATE
        else if s.dev.clk.slewing = true ∨ s.dev.clk.slewReq.isSome = true then s.dev.answered resRESOURCE_BUSY
        else Dev.answered { s.dev with clk := { s.dev.clk with slewReq := some (signed 32 (s.dev.cmdNat 0 4)) } } resOK)) ∧
  (∀ (s : State), s.dev.clk.slewing = true → s.dev.clk.slewLeft = 0 →
    runs .phaseSlewDone s { s.dev with clk := { s.dev.clk with slewing := false } }) ∧
  (∀ (s : State), s.dev.clk.slewing = false ∨ s.dev.clk.slewLeft ≠ 0 → runs .phaseSlewDone s s.dev)

/-- R472 to R479: a tick advances the tick count and the time of day, a TIME_STEP takes effect at a tick, the servo
follows the PPS edges, and a read of TICK_LO latches the time. Where a clause rests on a reading of the model rather
than on the rule's words, see log entries 14, 32 and 37. -/
def Obligations.TimeIsKept : Prop :=
  (∀ (s : State), Dev.readingNow { s.dev with cyc := s.dev.cyc + 3 } = true ∨ s.dev.com.accepted = [] ∧ s.dev.com.gstate = .idle ∧ s.dev.com.stopping = [] →
    s.dev.time.stepNow = none → s.dev.time.advance.2 = false →
    ∃ d, runs .timebaseTick s d ∧ d.cyc = s.dev.cyc + 3 ∧ d.time = s.dev.time.advance.1 ∧
      d.time.tick = (s.dev.time.tick + 1) % 2 ^ 64) ∧
  (∀ (t : TimeSt), t.sec + 1 < 2 ^ 48 →
    t.advance.1.sec * secU + t.advance.1.sub = t.sec * secU + t.sub + tickAdd t) ∧
  (∀ (sec ns : Nat) (s : State),
    Dev.readingNow { s.dev with cyc := s.dev.cyc + 3 } = true ∨ s.dev.com.accepted = [] ∧ s.dev.com.gstate = .idle ∧ s.dev.com.stopping = [] →
    s.dev.time.stepNow = some (sec, ns) → s.dev.time.advance.2 = false →
    ∃ d, runs .timebaseTick s d ∧ d.time.sec = sec % 2 ^ 48 ∧ d.time.ns = ns ∧ d.time.frac = 0 ∧
      d.time.epoch = (s.dev.time.epoch + 1) % 65536 ∧ d.time.stepNow = none ∧ (∃ x ∈ d.evq, x.code = 0x026) ∧
      PktReq.time 1 (some s.dev.time.epoch) ∈ d.reqs) ∧
  (∀ (s : State), s.posted 0x0060 3 → 999999999 < s.dev.cmdNat 6 4 → runs .timeStep s (s.dev.answered resBAD_PARAM)) ∧
  (∀ (s : State), s.posted 0x0060 3 → s.dev.cmdNat 6 4 ≤ 999999999 → s.dev.on TBS_TIME_CFG_STEP_AT_PPS = false →
    runs .timeStep s (Dev.answered { s.dev with time := { s.dev.time with stepNow := some (s.dev.cmdNat 0 6, s.dev.cmdNat 6 4), stepPps := none } }
      resOK (u16 s.dev.time.epoch))) ∧
  (∀ (s : State), s.posted 0x0060 3 → s.dev.cmdNat 6 4 = 0 → s.dev.on TBS_TIME_CFG_STEP_AT_PPS = true →
    s.dev.time.ppsValid = true →
    runs .timeStep s (Dev.answered { s.dev with time := { s.dev.time with stepPps := some (s.dev.cmdNat 0 6), stepNow := none } }
      resOK (u16 s.dev.time.epoch))) ∧
  (∀ (lvl : Bool) (ph : Fin 3) (l : Nat) (s : State), s.dev.serves = true → s.dev.on TBS_PPS_CFG_EN = true →
    lvl ≠ s.dev.on TBS_PPS_CFG_EDGE → s.dev.time.ppsLast = some l → s.dev.time.ppsValid = true →
    l + 750000000 ≤ s.dev.cyc + ph + 3 * s.dev.f TBS_PPS_TOL_TICKS →
    s.dev.cyc + ph ≤ l + 750000000 + 3 * s.dev.f TBS_PPS_TOL_TICKS →
    (ppsError s.dev ph).natAbs ≤ 1000 * s.dev.f TBS_SERVO_CFG_STEP_THR * 2 ^ 32 →
    ∃ d, runs (.ppsEdge lvl ph) s d ∧ d.f TBS_PPS_ERR = unsigned 32 (ppsError s.dev ph / 2 ^ 32) ∧
      d.time.iU = s.dev.time.iU + ppsError s.dev ph ∧ d.time.nOver = 0 ∧ d.time.ppsLast = some (s.dev.cyc + ph) ∧
      d.time.sub = s.dev.time.sub ∧ d.time.sec = s.dev.time.sec ∧
      d.f TBS_PPS_EDGES = (s.dev.f TBS_PPS_EDGES + 1) % 2 ^ 32 ∧
      onlyWords s.dev d [TBS_PPS_ERR.addr 0 0, TBS_RATE.addr 0 0, TBS_PPS_EDGES.addr 0 0] ∧
      d = { s.dev with regs := d.regs, time := d.time }) ∧
  (∀ (lvl : Bool) (ph : Fin 3) (l : Nat) (s : State), s.dev.serves = true → s.dev.on TBS_PPS_CFG_EN = true →
    lvl ≠ s.dev.on TBS_PPS_CFG_EDGE → s.dev.time.ppsLast = some l →
    s.dev.cyc + ph + 3 * s.dev.f TBS_PPS_TOL_TICKS < l + 750000000 → s.dev.ppsFits (s.dev.cyc + ph) s.dev.time.ppsCand = false →
    ∃ d, runs (.ppsEdge lvl ph) s d ∧ d.time = { s.dev.time with ppsCand := some (s.dev.cyc + ph), ppsRun := 0 } ∧
      d.f TBS_PPS_REJECT = (s.dev.f TBS_PPS_REJECT + 1) % 2 ^ 32 ∧ onlyWords s.dev d [TBS_PPS_REJECT.addr 0 0] ∧
      d = { s.dev with regs := d.regs, time := d.time }) ∧
  (∀ (lvl : Bool) (ph : Fin 3) (c : Nat) (s : State), s.dev.serves = true → s.dev.on TBS_PPS_CFG_EN = true →
    lvl ≠ s.dev.on TBS_PPS_CFG_EDGE → s.dev.time.ppsCand = some c → s.dev.time.ppsValid = false → s.dev.time.ppsRun = 0 →
    s.dev.ppsFits (s.dev.cyc + ph) (some c) = true →
    ∃ d, runs (.ppsEdge lvl ph) s d ∧
      d.time = { s.dev.time with ppsLast := some (s.dev.cyc + ph), ppsCand := none, ppsRun := 1 } ∧
      d.f TBS_PPS_EDGES = (s.dev.f TBS_PPS_EDGES + 1) % 2 ^ 32 ∧ onlyWords s.dev d [TBS_PPS_EDGES.addr 0 0]) ∧
  (∀ (s : State), s.dev.time.ppsValid = true →
    ∃ d, runs .ppsLost s d ∧ d.time = { s.dev.time with ppsValid := false, ppsRun := 0 } ∧
      (∃ x, d.evq = s.dev.evq ++ [x] ∧ x.code = 0x025) ∧
      onlyRaised { s.dev with time := d.time } d [Page.tbs.base + 0x10]) ∧
  (∀ (p : Port) (s : State), s.dev.serves = true → s.dev.time.tick < 2 ^ 64 → s.dev.time.ns < 2 ^ 30 →
    ∃ d, runs (.tbsTickLoRead p) s d ∧ d.given p = [BitVec.ofNat 32 s.dev.time.tick] ∧
      d.f TBS_TICK_HI = s.dev.time.tick / 2 ^ 32 ∧ d.f TBS_TOD_NS_NS = s.dev.time.ns ∧
      d.f TBS_TOD_SEC_LO = s.dev.time.sec % 2 ^ 32 ∧ d.f TBS_TOD_SEC_HI_SEC = s.dev.time.sec / 2 ^ 32 % 2 ^ 16 ∧
      d.f TBS_TOD_SEC_HI_EPOCH = s.dev.time.epoch % 2 ^ 16 ∧
      onlyWords s.dev d [TBS_TICK_HI.addr 0 0, TBS_TOD_NS_NS.addr 0 0, TBS_TOD_SEC_LO.addr 0 0, TBS_TOD_SEC_HI_SEC.addr 0 0] ∧
      d = { s.dev with regs := d.regs, out := d.out })

/-! ## Rails and resets (R484 to R488, R501 to R506, R548 to R556) -/

/-- R486, R487, R503, R506: what begins a rise to ON, how the enables rise and fall one by one, and rail faults: every
rail is lowered to OFF, what the rails fed is reset, and PWR.FAULT says which rail and why. Where a clause rests on a
reading of the model rather than on the rule's words, see log entries 21, 22, 23 and 24. -/
def Obligations.RailsAreSequenced : Prop :=
  (∀ (b i : Fin 4) (s : State), s.dev.aon.vaon = true → s.dev.aon.waitFor = .resetN → s.dev.aon.seq = .steady →
    s.dev.aon.flushing = false → s.dev.aon.shutPending = false →
    ∃ d, runs (.resetNRelease b i) s d ∧ d = { s.dev with aon := d.aon } ∧ d.aon.seq = .raising ∧ d.aon.level = 3 ∧
      d.aon.resetN = true ∧ d.aon.strapBoot = b ∧ d.aon.strapI2c = i ∧ d.aon.en = s.dev.aon.en) ∧
  (∀ (c : Instr) (w : RiseOn) (k : Nat) (s : State),
    (c, w, k) ∈ [(.railFaultRetry, .railRetry, 7), (.softwareResetRise, .fullReset, 3), (.pfailRestart, .pfail, 6)] →
    s.dev.aon.waitFor = w → s.dev.aon.seq = .steady → s.dev.aon.mayRise = true →
    ∃ d, runs c s d ∧ d = { s.dev with aon := d.aon } ∧ d.aon.seq = .raising ∧ d.aon.level = 3 ∧ d.aon.cause = k ∧
      d.aon.en = s.dev.aon.en) ∧
  (∀ (pix log : BitVec 16) (s : State), s.dev.aon.waitFor = .auto → s.dev.aon.seq = .steady → s.dev.aon.mayRise = true →
    pix.toInt < 16 * ((s.dev.aon.warnPix : Int) - s.dev.aon.hyst) →
    log.toInt < 16 * ((s.dev.aon.warnLog : Int) - s.dev.aon.hyst) →
    ∃ d, runs (.autoRestartCheck pix log) s d ∧ d = { s.dev with aon := d.aon } ∧
      if 99 ≤ s.dev.aon.coolFor then d.aon.seq = .raising ∧ d.aon.cause = 5
      else d.aon = { s.dev.aon with coolFor := s.dev.aon.coolFor + 1 }) ∧
  (∀ (pix log : BitVec 16) (s : State), s.dev.aon.waitFor = .auto → s.dev.aon.seq = .steady →
    16 * ((s.dev.aon.warnPix : Int) - s.dev.aon.hyst) ≤ pix.toInt →
    runs (.autoRestartCheck pix log) s { s.dev with aon := { s.dev.aon with coolFor := 0 } }) ∧
  (∀ (i : Nat) (s : State), s.dev.aon.seq = .raising → nextUp s.dev.aon.en = some i →
    i = 0 ∨ railBit s.dev.aon.pg (i - 1) = true → i ≠ 3 ∨ s.dev.pwr.pmbBegun = true ∧ s.dev.pwr.pmbQ = [] →
    ∃ d, runs .railEnStep s d ∧ d.aon = { s.dev.aon with en := setRail s.dev.aon.en i } ∧
      d = { s.dev with aon := d.aon, pwr := d.pwr }) ∧
  (∀ (i : Nat) (s : State), s.dev.aon.seq = .raising → nextUp s.dev.aon.en = some i → i ≠ 0 →
    railBit s.dev.aon.pg (i - 1) = false → ∃ d, runs .railEnStep s d ∧ d.aon = s.dev.aon) ∧
  (∀ (i : Fin 6) (s : State), s.dev.aon.vaon = true → railBit s.dev.aon.en i = true →
    ∃ d, runs (.railPgRise i) s d ∧ d.aon.pg = setRail s.dev.aon.pg i ∧ d.aon.en = s.dev.aon.en ∧
      (s.dev.aon.seq = .raising → s.dev.aon.en = 0x3F → setRail s.dev.aon.pg i = 0x3F →
        d.aon.level = 2 ∧ d.aon.seq = .steady) ∧
      d = { s.dev with aon := d.aon, pwr := d.pwr, boot := d.boot }) ∧
  (∀ (o : Bool) (i : Nat) (s : State), s.dev.aon.seq = .lowering o → nextDown s.dev.aon.en o = some i →
    ∃ d, runs .railEnLowerStep s d ∧ d = { s.dev with aon := d.aon } ∧ d.aon.en = clearRail s.dev.aon.en i ∧
      (nextDown (clearRail s.dev.aon.en i) o = none → s.dev.aon.waitFor ≠ .released →
        d.aon.seq = .steady ∧ d.aon.level = if o then 0 else 1)) ∧
  (∀ (i : Fin 6) (s : State), s.dev.aon.vaon = true → s.dev.aon.seq = .raising ∨ s.dev.aon.seq = .steady →
    s.dev.aon.shutPending = false → (∀ j, j < i.val → railBit s.dev.aon.en j = true → railBit s.dev.aon.pg j = true) →
    railBit s.dev.aon.en i = true → railBit s.dev.aon.pg i = false →
    ∃ d r, runsRec .railPgTimeout s d r ∧ d.aon.seq = .lowering true ∧ d.aon.level = 3 ∧
      d.aon.waitFor = (if 2 ≤ s.dev.aon.faults then .stuck else .railRetry) ∧ d.aon.faults = s.dev.aon.faults + 1 ∧
      d.aon.cause = 7 ∧
      d.f PWR_FAULT_VALID = 1 ∧ d.f PWR_FAULT_RAIL = i ∧ d.f PWR_FAULT_CAUSE = 1 ∧
      (∃ x, d.evq = s.dev.evq ++ [x] ∧ x.code = 0x032) ∧ d.nvm = s.dev.nvm ∧ r = resetRecorder s.evr) ∧
  (∀ (i : Fin 6) (s : State), s.dev.aon.vaon = true → railBit s.dev.aon.en i = true → railBit s.dev.aon.pg i = true →
    ∃ d r, runsRec (.railPgLost i) s d r ∧ d.aon.seq = .lowering true ∧ d.aon.level = 3 ∧ d.aon.shutPending = false ∧
      (s.dev.aon.seq = .steady ∨ s.dev.aon.seq = .raising → s.dev.aon.shutPending = false →
        d.aon.waitFor = (if 2 ≤ s.dev.aon.faults then .stuck else .railRetry) ∧ d.aon.cause = 7) ∧
      (s.dev.aon.seq = .lowering true → s.dev.aon.shutPending = false → s.dev.aon.waitFor = .pfail → d.aon.waitFor = .pfail) ∧
      (s.dev.aon.seq = .lowering false → s.dev.aon.shutPending = false → s.dev.aon.waitFor = .auto → s.dev.aon.faults < 2 →
        d.aon.waitFor = .auto ∧ d.aon.cause = s.dev.aon.cause) ∧
      d.aon.pg = clearRail s.dev.aon.pg i ∧ d.f PWR_FAULT_VALID = 1 ∧ d.f PWR_FAULT_RAIL = i ∧ d.f PWR_FAULT_CAUSE = 2 ∧
      (∃ x, d.evq = s.dev.evq ++ [x] ∧ x.code = 0x032) ∧ d.nvm = s.dev.nvm ∧ r = resetRecorder s.evr)

/-- R488, R521, R548 to R550, R556: what each kind of reset resets and keeps. Where a clause rests on a reading of the
model rather than on the rule's words, see log entries 18, 20, 22, 24 and 106. -/
def Obligations.ResetsKeepTheirOwn : Prop :=
  (∀ (b : Bool) (s : State), s.dev.aon.vaon = false →
    ∃ d r, runsRec (.vaonPowerOn b) s d r ∧ d.regs = [] ∧ d.act = [] ∧ d.aon.vaon = true ∧ d.aon.level = 0 ∧
      d.aon.en = 0 ∧ d.aon.waitFor = .resetN ∧ d.nvm = s.dev.nvm ∧ r.log = s.evr.log ∧ r.images = [] ∧
      r.nextSeq = match s.evr.highestLogSeq with | some q => q + 65536 | none => 0) ∧
  (∀ (s : State), s.dev.aon.vaon = true →
    ∃ d r, runsRec .vaonLoss s d r ∧ d.aon.vaon = false ∧ d.aon.en = 0 ∧ d.nvm = s.dev.nvm ∧ r.log = s.evr.log ∧
      r.images = []) ∧
  (∀ (s : State), s.dev.aon.vaon = true → s.dev.aon.shutPending = false → s.dev.aon.flushing = false →
    s.dev.aon.level = 2 →
    ∃ d r, runsRec .resetNAssert s d r ∧ d.aon.seq = .lowering false ∧ d.aon.cause = 2 ∧ d.aon.waitFor = .resetN ∧
      (∀ a, a ∉ aonWords → d.word a = resetWord a) ∧ (∀ a ∈ aonWords, d.word a = s.dev.word a) ∧ d.act = [] ∧
      d.clk = {} ∧ d.time = {} ∧ d.nvm = s.dev.nvm ∧ d.hmp.ring = s.dev.hmp.ring ∧
      r = { s.evr with frozen := false, nonce := none }) ∧
  (∀ (p : Port) (s : State), s.admits p → s.dev.aon.shutPending = false → s.dev.aon.flushing = false →
    ∃ d r, runsRec (.fullReset p) s d r ∧ d.aon.seq = .lowering false ∧ d.aon.cause = 3 ∧ d.aon.waitFor = .fullReset ∧
      (∀ a, a ∉ aonWords → d.word a = resetWord a) ∧ (∀ a ∈ aonWords, d.word a = s.dev.word a) ∧ d.act = [] ∧
      d.nvm = s.dev.nvm ∧ d.hmp.ring = s.dev.hmp.ring ∧ r = { s.evr with frozen := false, nonce := none }) ∧
  (∀ (p : Port) (s : State), s.admits p → s.dev.aon.shutPending = false → s.dev.aon.flushing = false →
    s.dev.aon.seq = .steady →
    ∃ d, runs (.warmReset p) s d ∧ d.aon = { s.dev.aon with cause := 4 } ∧ d.time = s.dev.time ∧
      d.clk = { s.dev.clk with laneLock := [] } ∧
      d.pwr = s.dev.pwr ∧ d.thm = s.dev.thm ∧ d.tap = s.dev.tap ∧ d.nvm = s.dev.nvm ∧ d.ary = {} ∧ d.eng = [] ∧
      d.boot.run = .off ∧ d.boot.warm = true ∧ d.hmp.ring = s.dev.hmp.ring ∧
      (∀ a ∈ [0x118, 0x200, 0x20C, 0x101A8, 0x101AC, 0x1100, 0x2100, 0x3110, 0x4180], d.word a = s.dev.word a) ∧
      ∀ F ∈ Blk.fields .nrd ++ Blk.fields .exp ++ Blk.fields .dlv ++ Blk.fields .mbx, d.f F = bitsOf (resetWord (F.addr 0 0)) F.hi F.lo)

/-- R501 to R505: the SHUTDOWN record, the cutoff, and the flush of a power failure. Where a clause rests on a reading
of the model rather than on the rule's words, see log entries 24 and 101. -/
def Obligations.ShutdownsLeaveRecords : Prop :=
  (∀ (s : State), s.dev.aon.shutPending = true → s.dev.aon.shutDue = true → targetPage s.dev s.evr 6 ≠ none →
    ∃ d r, runsRec .shutdownRecordDone s d r ∧ d.aon.seq = .lowering false ∧ d.aon.cause = 5 ∧
      d.aon.shutPending = false ∧ d.f THM_LATCH_RECORD_DONE = 1 ∧ r.nextSeq = s.evr.nextSeq + 1 ∧
      ∃ n x, (SMap.get noPage r.log n).recs = [x] ∧ x.code = 0x031 ∧ x.seq = s.evr.nextSeq ∧ x.payload = s.dev.latchBytes) ∧
  (∀ (pix : Bool) (t : Byte) (s : State), s.dev.aon.vaon = true → s.dev.aon.level = 2 → s.dev.aon.seq = .steady →
    ∃ d r, runsRec (.cutoffTrip pix t) s d r ∧ d.aon.en = s.dev.aon.en % 8 ∧ d.aon.level = 1 ∧ d.aon.seq = .steady ∧
      d.f THM_LATCH_CAUSE = (if pix then 3 else 4) ∧ d.f THM_LATCH_TEMP = t.toNat ∧ d.f THM_LATCH_RECORD_DONE = 0 ∧
      d.nvm = s.dev.nvm ∧ r = resetRecorder s.evr) ∧
  (∀ (pix : Bool) (t : Byte) (s : State), s.dev.aon.vaon = true → s.dev.aon.level ≠ 2 → s.dev.aon.seq ≠ .raising →
    s.dev.aon.en < 8 → s.dev.f THM_LATCH_CAUSE = 0 →
    ∃ d, runs (.cutoffTrip pix t) s d ∧ d.aon = { s.dev.aon with shutDue := true } ∧
      d.f THM_LATCH_CAUSE = (if pix then 3 else 4) ∧ d.f THM_LATCH_TEMP = t.toNat ∧ onlyWords s.dev d aonWords ∧
      d = { s.dev with regs := d.regs, aon := d.aon }) ∧
  (∀ (s : State), s.dev.aon.vaon = true → s.dev.aon.flushing = false → s.dev.evq = [] → s.evr.images.length < 1024 →
    ∃ d r x, runsRec .pfailAccept s d r ∧ d.aon.flushing = true ∧ d.aon.seq = .lowering true ∧ d.aon.waitFor = .pfail ∧
      d.f PWR_FAULT_VALID = 1 ∧ d.f PWR_FAULT_CAUSE = 4 ∧ r.frozen = false ∧ r.log = s.evr.log ∧ x ∈ r.bufRecs ∧
      x.code = 0x030 ∧ x.seq = s.evr.nextSeq ∧ r.nextSeq = s.evr.nextSeq + 1) ∧
  (∀ (p : PageImg) (m : Nat) (o : Bool) (s : State), s.dev.aon.flushing = true → s.dev.aon.shutDue = false →
    s.evr.images = [p] → targetPage s.dev s.evr p.sev = some (m, o) →
    ∃ d r, runsRec .pfailFlushDone s d r ∧ d.aon = { s.dev.aon with flushing := false } ∧ r.images = [] ∧
      SMap.get noPage r.log m = { p with sealed := true } ∧ ∀ n, n ≠ m → SMap.get noPage r.log n = SMap.get noPage s.evr.log n) ∧
  (∀ (s : State), s.dev.aon.flushing = false → runs .pfailFlushDone s s.dev)

/-! ## Power and temperature (R47 to R53, R489 to R501) -/

/-- R47, R48, R489 to R493: the PMBus transactions, the alert, the governor's steps of 10 mV, and the rate monitors.
Where a clause rests on a reading of the model rather than on the rule's words, see log entries 96, 97 and 98. -/
def Obligations.RegulatorFollowsGovernor : Prop :=
  (∀ (data : BitVec 16) (t : PmbTx) (rest : List PmbTx) (s : State), s.dev.pmbOn = true → s.dev.pwr.pmbQ = t :: rest →
    t.code = 0x21 → s.dev.aon.level = 2 →
    ∃ d, runs (.pmbusTransactionDone true data) s d ∧
      d.pwr = { s.dev.pwr with pmbQ := rest, pmbStuck := false, vSet := t.value, settled := false,
                               bus := pmbBytes s.dev t data.toNat } ∧
      d.f PWR_VOUT_WRITES = (s.dev.f PWR_VOUT_WRITES + 1) % 2 ^ 32 ∧ d.f PWR_PMB_STAT_OK = 1 ∧
      onlyWords s.dev d [PWR_VOUT_WRITES.addr 0 0, PWR_PMB_STAT_OK.addr 0 0, PWR_VCORE_STAT_V_SET.addr 0 0] ∧
      d = { s.dev with regs := d.regs, pwr := d.pwr }) ∧
  (∀ (data : BitVec 16) (t : PmbTx) (rest : List PmbTx) (s : State), s.dev.pmbOn = true → s.dev.pwr.pmbQ = t :: rest →
    t.fails < 3 →
    ∃ d, runs (.pmbusTransactionDone false data) s d ∧
      d.pwr = { s.dev.pwr with pmbQ := { t with fails := t.fails + 1 } :: rest } ∧
      d.f PWR_PMB_ERR = (s.dev.f PWR_PMB_ERR + 1) % 2 ^ 32 ∧ d.f PWR_PMB_STAT_OK = 0 ∧
      onlyWords s.dev d [PWR_PMB_ERR.addr 0 0, PWR_PMB_STAT_OK.addr 0 0] ∧ d = { s.dev with regs := d.regs, pwr := d.pwr }) ∧
  (∀ (data : BitVec 16) (t : PmbTx) (rest : List PmbTx) (s : State), s.dev.pmbOn = true → s.dev.pwr.pmbQ = t :: rest →
    3 ≤ t.fails → t.code ≠ 0x03 →
    ∃ d, runs (.pmbusTransactionDone false data) s d ∧ d.pwr.pmbQ = rest ∧ d.pwr.pmbStuck = true ∧
      (∃ x, d.evq = s.dev.evq ++ [x] ∧ x.code = 0x033) ∧
      onlyRaised { s.dev with pwr := d.pwr } d [PWR_PMB_ERR.addr 0 0, PWR_PMB_STAT_OK.addr 0 0, Page.pwr.base + 0x10]) ∧
  (∀ (st : BitVec 16) (v : Byte) (s : State), s.dev.pmbOn = true →
    ∃ d, runs (.pmbAlert st v) s d ∧ d.f PWR_PMB_STAT_ALERT = 1 ∧
      d.pwr.pmbQ = s.dev.pwr.pmbQ ++ [{ code := 0x79, value := st.toNat + 65536 * v.toNat }] ∧
      onlyWords s.dev d [PWR_PMB_STAT_STATUS.addr 0 0] ∧ d = { s.dev with regs := d.regs, pwr := d.pwr }) ∧
  (∀ (data : BitVec 16) (t : PmbTx) (rest : List PmbTx) (s : State), s.dev.pmbOn = true → s.dev.pwr.pmbQ = t :: rest →
    t.code = 0x79 → t.value.testBit 15 = false →
    ∃ d, runs (.pmbusTransactionDone true data) s d ∧ d.f PWR_PMB_STAT_STATUS = t.value % 65536 ∧ d.f PWR_PMB_STAT_VOUT = 0 ∧
      d.f PWR_IRQ_RAW_VREG_ALERT = 1 ∧ d.pwr.pmbQ = { code := 0x03, value := t.value % 65536 } :: rest ∧
      ∃ x, d.evq = s.dev.evq ++ [x] ∧ x.code = 0x034 ∧ x.payload = u16 (t.value % 65536) ++ u8 0) ∧
  (∀ (data : BitVec 16) (t : PmbTx) (rest : List PmbTx) (s : State), s.dev.pmbOn = true → s.dev.pwr.pmbQ = t :: rest →
    t.code = 0x79 → t.value.testBit 15 = true →
    ∃ d, runs (.pmbusTransactionDone true data) s d ∧ d.f PWR_PMB_STAT_STATUS = t.value % 65536 ∧
      d.pwr.pmbQ = { code := 0x7A, value := t.value } :: rest ∧ d.evq = s.dev.evq) ∧
  (∀ (data : BitVec 16) (t : PmbTx) (rest : List PmbTx) (s : State), s.dev.pmbOn = true → s.dev.pwr.pmbQ = t :: rest →
    t.code = 0x7A → t.value < 2 ^ 24 →
    ∃ d, runs (.pmbusTransactionDone true data) s d ∧ d.f PWR_PMB_STAT_VOUT = t.value / 65536 ∧
      d.f PWR_IRQ_RAW_VREG_ALERT = 1 ∧ d.pwr.pmbQ = { code := 0x03, value := t.value } :: rest ∧
      ∃ x, d.evq = s.dev.evq ++ [x] ∧ x.code = 0x034 ∧ x.payload = u16 (t.value % 65536) ++ u8 (t.value / 65536)) ∧
  (∀ (data : BitVec 16) (t : PmbTx) (rest : List PmbTx) (s : State), s.dev.pmbOn = true → s.dev.pwr.pmbQ = t :: rest →
    t.code = 0x03 → vregFault (t.value % 65536) (t.value / 65536) = true →
    ∃ d r, runsRec (.pmbusTransactionDone true data) s d r ∧ d.aon.seq = .lowering true ∧ d.f PWR_FAULT_RAIL = 3 ∧
      d.f PWR_FAULT_CAUSE = 3 ∧ r = resetRecorder s.evr) ∧
  (∀ (cl el : Word) (g : Dev) (s : State), g = prune s.dev → s.dev.isOn = true → g.pwr.pmbStuck = false →
    g.pwr.settled = true → g.voutPending = false → g.pwr.fixedByFault = false → g.on PWR_GOV_FIXED = false →
    g.pwr.vSet + 10 ≤ min 850 (min g.pwr.vCeil (g.f PWR_GOV_V_V_MAX)) → g.meets g.minCap (g.f ENC_CAP_MPXS) = false →
    ∃ d, runs (.governorStep cl el) s d ∧ d.pwr = { g.pwr with pmbQ := g.pwr.pmbQ ++ [{ code := 0x21, value := g.pwr.vSet + 10 }] } ∧
      d = { g with pwr := d.pwr }) ∧
  (∀ (cl el : Word) (g : Dev) (s : State), g = prune s.dev → s.dev.isOn = true → g.pwr.pmbStuck = false →
    g.pwr.settled = true → g.voutPending = false → g.pwr.fixedByFault = false → g.on PWR_GOV_FIXED = false →
    g.pwr.vSet ≤ min 850 (min g.pwr.vCeil (g.f PWR_GOV_V_V_MAX)) → 610 ≤ g.pwr.vSet →
    g.meets g.minCap (g.f ENC_CAP_MPXS) = true → g.meets cl.toNat el.toNat = true → g.pwr.lowerWait = none →
    ∃ d, runs (.governorStep cl el) s d ∧ d.pwr = { g.pwr with pmbQ := g.pwr.pmbQ ++ [{ code := 0x21, value := g.pwr.vSet - 10 }] } ∧
      d = { g with pwr := d.pwr }) ∧
  (∀ (cl el : Word) (s : State), s.dev.pwr.settled = false →
    ∃ d, runs (.governorStep cl el) s d ∧ d.pwr.pmbQ = s.dev.pwr.pmbQ ∧ d.regs = s.dev.regs) ∧
  (∀ (l : List (Word × Word)) (s : State), s.dev.aon.level = 2 → l.length = 11 → s.dev.pwr.settled = false →
    ∃ d, runs (.rateMonitorUpdate l false) s d ∧
      (∀ (i : Nat) (m : Fld × Fld) (v : Word × Word), monitors[i]? = some m → l[i]? = some v →
        d.f m.1 = v.1.toNat ∧ d.f m.2 = v.2.toNat) ∧
      onlyRegs s.dev d (monitors.flatMap fun m => [m.1.addr 0 0, m.2.addr 0 0]))

/-- R494 to R501: the gait and its power average, the throttle, the sensors and shutdown pending. Where a clause rests
on a reading of the model rather than on the rule's words, see log entries 99 and 100. -/
def Obligations.HeatIsHeldBack : Prop :=
  (∀ (w : Word) (s : State), s.dev.isOn = true → s.dev.boot.run = .running →
    ∃ d, runs (.gaitUpdate w) s d ∧ d.f PWR_P_EST = (s.dev.vcorePower + w.toNat) % 2 ^ 32 ∧
      d.pwr.pAvg = ((s.dev.vcorePower + w.toNat) :: s.dev.pwr.pAvg).take 10 ∧ 0 ≤ d.pwr.rGait ∧ d.pwr.rGait ≤ s.dev.rMax ∧
      d.pwr.pmbQ = s.dev.pwr.pmbQ ++ [{ code := 0x8B, value := 0 }, { code := 0x8C, value := 0 }] ∧
      onlyRaised { s.dev with pwr := d.pwr } d [PWR_P_EST.addr 0 0, PWR_P_VCORE.addr 0 0, PWR_R_GAIT_R.addr 0 0, Page.pwr.base + 0x10]) ∧
  (∀ (s : State), s.posted 0x0070 1 → 3 < s.dev.cmdNat 0 1 → runs .gaitSet s (s.dev.answered resBAD_PARAM)) ∧
  (∀ (s : State), s.posted 0x0070 1 → s.dev.cmdNat 0 1 ≤ 3 →
    ∃ d, runs .gaitSet s d ∧ d.f PWR_GAIT_SEL = s.dev.cmdNat 0 1 ∧ d.f PWR_GAIT_ACTIVE = d.gait ∧
      d.f MBX_STAT_STATE = mbxDONE ∧ d.f MBX_STAT_RESULT = resOK) ∧
  (∀ (s : State), s.dev.isOn = true → s.dev.f THM_DWELL_MS ≠ 0 →
    ∃ d, runs .throttleUpdate s d ∧ d.thm.rAct ≤ s.dev.thm.rAct + s.dev.f THM_THROTTLE_R_SLEW ∧
      s.dev.thm.rAct ≤ d.thm.rAct + s.dev.f THM_THROTTLE_R_SLEW ∧ d.f THM_R_ACT_R = d.thm.rAct % 256 ∧
      d.f THM_STAT_THROTTLING = b2n (0 < d.thm.rAct) ∧ d.aon = s.dev.aon) ∧
  (∀ (c : Instr) (l : List (BitVec 16)) (w : Word) (s : State), c ∈ [.throttleUpdate, .thermalSample l, .gaitUpdate w] →
    s.dev.isOn = false → runs c s s.dev) ∧
  (∀ (l : List (BitVec 16)) (h : List (List Int)) (s : State), s.dev.isOn = true →
    h = (l.map (·.toInt) :: s.dev.thm.hist).take 16 →
    ∃ d, runs (.thermalSample l) s d ∧ d.thm.hist = h ∧
      ∀ k, k < 16 → d.fk THM_SENS_EVEN k = unsigned 16 (reading h (2 * k)) ∧
        d.fk THM_SENS_ODD k = unsigned 16 (reading h (2 * k + 1))) ∧
  (∀ (l : List (BitVec 16)) (h : List (List Int)) (s : State), s.dev.isOn = true →
    h = (l.map (·.toInt) :: s.dev.thm.hist).take 16 → highest h 0 < 2 ^ 15 →
    16 * (s.dev.f THM_THR_PIX_SHUT : Int) ≤ highest h 0 → s.dev.dwell ≤ s.dev.thm.pix.sh + 1 →
    ∃ d, runs (.thermalSample l) s d ∧ d.aon = { s.dev.aon with shutPending := true, shutDue := true } ∧
      d.f THM_LATCH_CAUSE = 1 ∧ d.f THM_LATCH_TEMP = unsigned 8 (highest h 0 / 16) ∧ d.f THM_LATCH_RECORD_DONE = 0) ∧
  (∀ (s : State), s.posted 0x0071 0 → ∃ b, b.length = 64 ∧ runs .thermalRead s (s.dev.answered resOK b))

/-! ## Events (R509 to R527, R537) -/

/-- R510, R514 to R518: an event is filtered, coalesced, dropped or made a record with the next sequence number. Where
a clause rests on a reading of the model rather than on the rule's words, see log entry 27. -/
def Obligations.RecorderAcceptsEvents : Prop :=
  (∀ (s : State), s.dev.evq = [] ∨ s.dev.recOpen = false → runs .eventAccept s s.dev) ∧
  (∀ (e : Ev) (s : State), s.dev.recOpen = true → nextEvent s.dev.evq = some e → e.sev < s.dev.f EVR_CFG_MIN_SEV →
    ∃ d, runs .eventAccept s d ∧ d.evq = s.dev.evq.erase e ∧ d.f EVR_FILTERED = (s.dev.f EVR_FILTERED + 1) % 2 ^ 32 ∧
      onlyRegs { s.dev with evq := d.evq } d [EVR_FILTERED.addr 0 0]) ∧
  (∀ (e : Ev) (l : LastRec) (s : State), s.dev.recOpen = true → nextEvent s.dev.evq = some e → s.dev.f EVR_CFG_MIN_SEV ≤ e.sev →
    l = SMap.get (fun _ => {}) s.evr.last e.src → repeats s.dev s.evr e l = true →
    ∃ d r, runsRec .eventAccept s d r ∧ d.f EVR_COALESCED = (s.dev.f EVR_COALESCED + 1) % 2 ^ 32 ∧
      r.nextSeq = s.evr.nextSeq ∧ r.log = s.evr.log ∧ r.bufRecs.map (·.seq) = s.evr.bufRecs.map (·.seq) ∧
      (∃ x ∈ r.bufRecs, x.seq = l.seq ∧ x.coalesced = true) ∧
      onlyRegs { s.dev with evq := d.evq } d [EVR_COALESCED.addr 0 0]) ∧
  (∀ (e : Ev) (l : LastRec) (b : Bucket) (s : State), s.dev.recOpen = true → nextEvent s.dev.evq = some e → s.dev.f EVR_CFG_MIN_SEV ≤ e.sev →
    l = SMap.get (fun _ => {}) s.evr.last e.src → repeats s.dev s.evr e l = false →
    b = SMap.get (fun _ => {}) s.evr.buckets e.src →
    e.sev = 6 ∨ e.sev = 7 ∨ e.code = 0x001 ∨ b.taken - (s.dev.cyc - b.cyc) + tokenCost ≤ bucketDepth →
    s.evr.images.length < 1024 →
    ∃ d r, runsRec .eventAccept s d r ∧ r.nextSeq = s.evr.nextSeq + 1 ∧ r.log = s.evr.log ∧
      d.f EVR_ACCEPTED = (s.dev.f EVR_ACCEPTED + 1) % 2 ^ 32 ∧ (∀ x ∈ s.evr.bufRecs, x ∈ r.bufRecs) ∧
      ∃ x ∈ r.bufRecs, x.seq = s.evr.nextSeq ∧ x.code = e.code ∧ x.sev = e.sev ∧ x.src = e.src ∧ x.payload = e.payload ∧
        x.stamp = s.dev.stamp) ∧
  (∀ (e : Ev) (l : LastRec) (b : Bucket) (s : State), s.dev.recOpen = true → nextEvent s.dev.evq = some e → s.dev.f EVR_CFG_MIN_SEV ≤ e.sev →
    l = SMap.get (fun _ => {}) s.evr.last e.src → repeats s.dev s.evr e l = false →
    b = SMap.get (fun _ => {}) s.evr.buckets e.src → e.sev ≠ 6 → e.sev ≠ 7 → e.code ≠ 0x001 →
    bucketDepth < b.taken - (s.dev.cyc - b.cyc) + tokenCost →
    ∃ d r, runsRec .eventAccept s d r ∧ d.f EVR_RATE_DROPPED = (s.dev.f EVR_RATE_DROPPED + 1) % 2 ^ 32 ∧
      r = { s.evr with drops := r.drops } ∧
      (SMap.get (fun _ => {}) r.drops e.src).n = (SMap.get (fun _ => ({} : DropAcc)) s.evr.drops e.src).n + 1) ∧
  (∀ (src : Byte) (s : State), (SMap.get (fun _ => ({} : DropAcc)) s.evr.drops src.toNat).n = 0 ∨ s.dev.recOpen = false →
    runs (.evrDroppedRecord src) s s.dev) ∧
  (∀ (src : Byte) (a : DropAcc) (s : State), a = SMap.get (fun _ => {}) s.evr.drops src.toNat → a.n ≠ 0 →
    s.dev.recOpen = true → s.dev.f EVR_CFG_MIN_SEV ≤ a.sev → s.evr.images.length < 1024 →
    ∃ d r, runsRec (.evrDroppedRecord src) s d r ∧ r.nextSeq = s.evr.nextSeq + 1 ∧
      SMap.get (fun _ => ({} : DropAcc)) r.drops src.toNat = {} ∧
      ∃ x ∈ r.bufRecs, x.seq = s.evr.nextSeq ∧ x.code = 0x001 ∧ x.sev = a.sev ∧
        x.payload = u32 a.n ++ u64 a.first ++ u64 a.last ++ u16 a.code)

/-- R518, R522, R524, R525: images are sealed and programmed into the log, a freeze holds programs back and expires,
and a nonce lapses. Where a clause rests on a reading of the model rather than on the rule's words, see log entries 17
and 18. -/
def Obligations.LogIsProgrammed : Prop :=
  (∀ (v : Fin 8) (s : State),
    ∃ r, runsRec (.evrImageSeal v) s s.dev r ∧ r = { s.evr with images := r.images } ∧ r.bufRecs = s.evr.bufRecs ∧
      ∀ p ∈ r.images, p.sev = v.val → p.sealed = true) ∧
  (∀ (n m : Nat) (o : Bool) (p : PageImg) (s : State), s.evr.frozen = false → s.dev.aon.shutPending = false →
    s.dev.aon.flushing = false → s.dev.aon.level = 2 → nextReady s.dev s.evr = some n → s.evr.images[n]? = some p →
    targetPage s.dev s.evr p.sev = some (m, o) →
    ∃ d r, runsRec (.evrPageProgram false) s d r ∧ r.images = s.evr.images.eraseIdx n ∧ r.nextSeq = s.evr.nextSeq ∧
      SMap.get noPage r.log m = { p with sealed := true } ∧
      (∀ k, k ≠ m → SMap.get noPage r.log k = SMap.get noPage s.evr.log k) ∧
      d.f NVM_PAGE_PROG = (s.dev.f NVM_PAGE_PROG + 1) % 2 ^ 32 ∧
      d.f EVR_OVERWRITTEN = (s.dev.f EVR_OVERWRITTEN + b2n o) % 2 ^ 32) ∧
  (∀ (n m : Nat) (o : Bool) (p : PageImg) (s : State), s.evr.frozen = false → s.dev.aon.shutPending = false →
    s.dev.aon.flushing = false → s.dev.aon.level = 2 → nextReady s.dev s.evr = some n → s.evr.images[n]? = some p →
    targetPage s.dev s.evr p.sev = some (m, o) →
    ∃ d r, runsRec (.evrPageProgram true) s d r ∧ r.images = s.evr.images ∧ d.nvm.retired = s.dev.nvm.retired ++ [m] ∧
      SMap.get noPage r.log m = {} ∧ (∃ x, d.evq = s.dev.evq ++ [x] ∧ x.code = 0x009)) ∧
  (∀ (f : Bool) (s : State), s.dev.aon.flushing = false →
    s.evr.frozen = true ∨ s.dev.aon.shutPending = true ∨ s.dev.aon.level ≠ 2 ∨ nextReady s.dev s.evr = none →
    runs (.evrPageProgram f) s s.dev) ∧
  (∀ (s : State), s.evr.frozen = true →
    ∃ d, runsRec .evrFreezeExpire s d { s.evr with frozen := false } ∧ (∃ x, d.evq = s.dev.evq ++ [x] ∧ x.code = 0x006) ∧
      onlyRaised s.dev d [Page.evr.base + 0x10]) ∧
  (∀ (s : State), s.evr.frozen = false → runs .evrFreezeExpire s s.dev) ∧
  (∀ (s : State), runsRec .nonceExpire s s.dev { s.evr with nonce := none })

/-- R523 to R528, R537: reading, freezing, thawing and the authorised clear; the operator key is programmed once and
later attempts are rejected. Where a clause rests on a reading of the model rather than on the rule's words, see log
entries 12, 15, 28 and 105. -/
def Obligations.LogAndKeyAreServed : Prop :=
  (∀ (s : State), s.posted 0x0030 3 → 256 ≤ s.dev.cmdNat 8 2 → s.dev.cmdNat 8 2 ≤ 1024 →
    ∃ b, runs .evrRead s (s.dev.answered resOK b) ∧ b.length ≤ s.dev.cmdNat 8 2) ∧
  (∀ (s : State), s.posted 0x0030 3 → s.dev.cmdNat 8 2 < 256 ∨ 1024 < s.dev.cmdNat 8 2 →
    runs .evrRead s (s.dev.answered resBAD_PARAM)) ∧
  (∀ (s : State), s.posted 0x0031 0 → s.evr.frozen = false →
    ∃ d, runsRec .evrFreeze s d { s.evr with frozen := true } ∧ d = ((s.dev.setMbx mbxBUSY).emitFw 0x004).mbxDone resOK) ∧
  (∀ (s : State), s.posted 0x0032 0 → s.evr.frozen = true →
    ∃ d, runsRec .evrThaw s d { s.evr with frozen := false } ∧ d = ((s.dev.setMbx mbxBUSY).emitFw 0x005).mbxDone resOK) ∧
  (∀ (c : Instr) (k : Nat) (b : Bool) (s : State), (c, k, b) ∈ [(.evrFreeze, 0x0031, true), (.evrThaw, 0x0032, false)] →
    s.posted k 0 → s.evr.frozen = b → runs c s (s.dev.answered resOK)) ∧
  (∀ (s : State), s.posted 0x0033 0 →
    ∃ d n, runsRec .evrClearNonce s d { s.evr with nonce := some n } ∧ n.length = 16 ∧
      d = Dev.answered { s.dev with freeCtr := s.dev.freeCtr + 1 } resOK n) ∧
  (∀ (s : State), s.posted 0x0034 12 → s.vault.key = none ∨ s.evr.nonce = none →
    ∃ d, runsRec .evrClear s d { s.evr with nonce := none } ∧ d.f MBX_STAT_RESULT = resAUTH_FAIL ∧
      d.f SEC_CLEAR_DENIED = (s.dev.f SEC_CLEAR_DENIED + 1) % 2 ^ 32 ∧ (∃ x, d.evq = s.dev.evq ++ [x] ∧ x.code = 0x003)) ∧
  (∀ (k n : List Byte) (first last : Nat) (s : State), s.posted 0x0034 12 → s.vault.key = some k → s.evr.nonce = some n →
    first = s.dev.cmdNat 0 8 → last = s.dev.cmdNat 8 8 →
    hmacSha256 k (clearMessage n first last) = s.dev.cmdBytes 16 32 → first ≤ last → last < s.evr.nextSeq →
    s.evr.frozen = false →
    ∃ d r, runsRec .evrClear s d r ∧ d.f MBX_STAT_RESULT = resOK ∧ r.nonce = none ∧ r.nextSeq = s.evr.nextSeq + 1 ∧
      (∀ x ∈ r.logRecs ++ r.bufRecs, first ≤ x.seq → x.seq ≤ last → x.sev = 7) ∧
      ∀ x ∈ s.evr.logRecs, x.sev = 7 ∨ x.seq < first ∨ last < x.seq → x ∈ r.logRecs) ∧
  (∀ (p : Port) (s : State), s.admits p → s.vault.key = none → s.dev.boot.keyBusy = none → s.dev.boot.keyWords ≠ [] →
    runs (.keyProg p) s { s.dev with boot := { s.dev.boot with keyBusy := some s.dev.keyBytes } }) ∧
  (∀ (p : Port) (k : List Byte) (s : State), s.admits p → s.vault.key = some k →
    runs (.keyProg p) s (s.dev.reject .sec p (SEC_KEY_CTRL_PROG.addr 0 0) 1#32 7)) ∧
  (∀ (k : List Byte) (s : State), s.dev.boot.keyBusy = some k →
    ∃ d v, exec .keyProgDone s = .next { s with dev := d, vault := v } ∧
      v.key = some (match s.vault.key with | some k' => k' | none => k) ∧
      d.boot = { s.dev.boot with keyBusy := none, keyWords := [] } ∧ (∃ x, d.evq = s.dev.evq ++ [x] ∧ x.code = 0x00A) ∧
      onlyRaised { s.dev with boot := d.boot } d [Page.sec.base + 0x10])


/-! ## Firmware, presets and the operator key (R528 to R547) -/

/-- R532, R534, R536, R544: firmware images are written, verified, activated and confirmed; boot settings are stored.
Where a clause rests on a reading of the model rather than on the rule's words, see log entries 29, 31, 101, 102 and
105. -/
def Obligations.FirmwareIsUpdated : Prop :=
  (∀ (s : State), s.posted 0x0040 2 → s.dev.presetBusy = false → 1 < s.dev.cmdNat 0 1 ∨ s.dev.cmdNat 1 4 < 64 ∨ 4194048 < s.dev.cmdNat 1 4 →
    runs .fwBegin s (s.dev.answered resBAD_PARAM)) ∧
  (∀ (b : Bool) (s : State), s.posted 0x0040 2 → s.dev.presetBusy = false → s.dev.cmdNat 0 1 = b2n b → 64 ≤ s.dev.cmdNat 1 4 →
    s.dev.cmdNat 1 4 ≤ 4194048 → s.dev.slotKept b = true → runs .fwBegin s (s.dev.answered resBAD_STATE)) ∧
  (∀ (b : Bool) (s : State), s.posted 0x0040 2 → s.dev.presetBusy = false → s.dev.cmdNat 0 1 = b2n b → 64 ≤ s.dev.cmdNat 1 4 →
    s.dev.cmdNat 1 4 ≤ 4194048 → s.dev.slotKept b = false →
    ∃ d, runs .fwBegin s d ∧ d.boot.xfer = some (b, s.dev.cmdNat 1 4) ∧ (d.nvm.img b).valid = false ∧
      d.nvm.img (!b) = s.dev.nvm.img (!b) ∧ d.f MBX_STAT_RESULT = resOK ∧ d.f MBX_STAT_STATE = mbxDONE) ∧
  (∀ (n len : Nat) (b : Bool) (s : State), 1 ≤ n → n ≤ 64 → s.posted 0x0041 n → s.dev.presetBusy = false → s.dev.boot.xfer = some (b, len) →
    s.dev.cmdNat 0 4 % 4 = 0 → s.dev.cmdNat 0 4 + 4 * (n - 1) ≤ len →
    ∃ d, runs .fwData s d ∧ (∀ i, i < 4 * (n - 1) → (d.nvm.img b).byte (s.dev.cmdNat 0 4 + i) = s.dev.cmdByte (4 + i)) ∧
      d.nvm.img (!b) = s.dev.nvm.img (!b) ∧ d.f MBX_STAT_RESULT = resOK ∧ d.f MBX_STAT_STATE = mbxDONE) ∧
  (∀ (n : Nat) (s : State), 1 ≤ n → n ≤ 64 → s.posted 0x0041 n → s.dev.presetBusy = false → s.dev.boot.xfer = none →
    runs .fwData s (s.dev.answered resBAD_STATE)) ∧
  (∀ (b : Bool) (len : Nat) (m : FwImg) (s : State), s.posted 0x0042 16 → s.dev.presetBusy = false → s.dev.boot.xfer = some (b, len) →
    m = { s.dev.nvm.img b with sig := s.dev.cmdBytes 0 64 } →
    ∃ d, runs .fwEnd s d ∧ d.boot.xfer = none ∧
      (m.verifies = true ∧ s.dev.nvm.svnMin ≤ m.svn → d.nvm.img b = { m with valid := true } ∧
        (∃ x, d.evq = s.dev.evq ++ [x] ∧ x.code = 0x012) ∧ d.f MBX_STAT_RESULT = resOK) ∧
      (m.verifies = false ∨ m.svn < s.dev.nvm.svnMin → d.nvm = s.dev.nvm ∧ d.f MBX_STAT_RESULT = resAUTH_FAIL ∧
        d.f SEC_SIG_FAIL = (s.dev.f SEC_SIG_FAIL + 1) % 2 ^ 32)) ∧
  (∀ (b : Bool) (s : State), s.posted 0x0043 1 → s.dev.presetBusy = false → s.dev.cmdNat 0 1 = b2n b → (s.dev.nvm.img b).valid = true →
    ∃ d, runs .fwActivate s d ∧ d.nvm.trialPending = true ∧ d.nvm.trialSlot = b ∧ d.boot.run = .rom ∧
      d.boot.activate = some b ∧ d.boot.restart = some 3 ∧ d.f SYS_RST_CAUSE_FW = 3) ∧
  (∀ (s : State), s.posted 0x0043 1 → s.dev.presetBusy = false → 1 < s.dev.cmdNat 0 1 → runs .fwActivate s (s.dev.answered resBAD_PARAM)) ∧
  (∀ (p : Port) (s : State), s.admits p → s.dev.boot.run = .running → s.dev.boot.trial = true →
    ∃ d, runs (.fwConfirm p) s d ∧ d.nvm.conf = s.dev.boot.image ∧ d.nvm.onTrial = false ∧ d.boot.trial = false ∧
      d.nvm.svnMin = max s.dev.nvm.svnMin (s.dev.nvm.img s.dev.boot.image).svn ∧
      ∃ x, d.evq = s.dev.evq ++ [x] ∧ x.code = 0x015) ∧
  (∀ (p : Port) (v : Word) (s : State), s.admits p → s.dev.boot.run = .running →
    ∃ d, runs (.bootCfgSave p v) s d ∧ d.f SYS_BOOT_CFG_AUTOSTART = bitsOf v 8 8 ∧
      d.f SYS_BOOT_CFG_PRESET_EN = bitsOf v 7 7 ∧ d.f SYS_BOOT_CFG_SLOT = bitsOf v 4 0 ∧ d.boot.saving = true ∧
      onlyWords s.dev d [0x210] ∧ d = { s.dev with regs := d.regs, boot := d.boot }) ∧
  (∀ (s : State), s.dev.boot.saving = true → s.dev.boot.run = .running → s.dev.presetBusy = false →
    ∃ d, runs .bootCfgSaveDone s d ∧ d.nvm.bootSlot = s.dev.f SYS_BOOT_CFG_SLOT ∧
      d.nvm.bootPresetEn = s.dev.on SYS_BOOT_CFG_PRESET_EN ∧ d.nvm.bootAutostart = s.dev.on SYS_BOOT_CFG_AUTOSTART ∧
      d.boot.saving = false)

/-- R521, R541 to R548: the boot ROM, the scan and the choice of an image, the start and restart of firmware, and the
recovery loader. Where a clause rests on a reading of the model rather than on the rule's words, see log entries 20,
103 and 104. -/
def Obligations.BootStartsFirmware : Prop :=
  (∀ (s : State), s.dev.serves = true → s.dev.boot.run = .off → s.dev.aon.strapBoot < 3 →
    ∃ d, runs .bootRomStart s d ∧ d.boot.run = .rom ∧ d.boot.scanned = false ∧ d.f SYS_BOOT_STAT_MODE = s.dev.aon.strapBoot ∧
      onlyWords s.dev d [0x20C] ∧ d = { s.dev with regs := d.regs, boot := d.boot }) ∧
  (∀ (s : State), s.dev.serves = true → s.dev.boot.run = .off → s.dev.aon.strapBoot = 3 →
    ∃ d, runs .bootRomStart s d ∧ onlyRegs s.dev d [0x20C] ∧ d.f SYS_BOOT_STAT_MODE = 3 ∧ d.f SYS_BOOT_STAT_ROM_RESULT = 4) ∧
  (∀ (s : State), s.dev.serves = false → runs .bootRomStart s s.dev) ∧
  (∀ (s : State), s.dev.boot.run = .rom → s.dev.boot.scanned = false → s.dev.boot.activate = none →
    s.dev.aon.strapBoot = bootNORMAL → s.dev.nvm.trialPending = false → s.dev.nvm.onTrial = false →
    s.dev.nvm.boots s.dev.nvm.conf = true → s.evr.images = [] →
    ∃ d, runs (.mramScanDone []) s d ∧ d.boot.image = s.dev.nvm.conf ∧ d.boot.verified = true ∧ d.boot.scanned = true ∧
      d.boot.trial = false ∧ d.f SYS_BOOT_STAT_ROM_RESULT = 0 ∧ onlyWords s.dev d [0x20C]) ∧
  (∀ (s : State), s.dev.boot.run = .rom → s.dev.boot.scanned = false → s.dev.boot.activate = none →
    s.dev.aon.strapBoot = bootNORMAL → s.dev.nvm.trialPending = false → s.dev.nvm.onTrial = false →
    s.dev.nvm.boots s.dev.nvm.conf = false → s.dev.nvm.boots (!s.dev.nvm.conf) = true → s.evr.images = [] →
    ∃ d, runs (.mramScanDone []) s d ∧ d.boot.image = (!s.dev.nvm.conf) ∧ d.boot.verified = true ∧
      d.f SYS_BOOT_STAT_ROM_RESULT = 2 ∧ ∃ x, d.evq = s.dev.evq ++ [x] ∧ x.code = 0x013) ∧
  (∀ (n : Fin 131072) (s : State), s.dev.boot.run = .rom → s.dev.boot.scanned = false → 65536 ≤ n.val →
    s.evr.images = [] →
    ∃ d r, runsRec (.mramScanDone [n]) s d r ∧ SMap.get noPage r.log (n.val - 65536) = {} ∧
      (∀ k, k ≠ n.val - 65536 → SMap.get noPage r.log k = SMap.get noPage s.evr.log k) ∧ ∃ x ∈ d.evq, x.code = 0x008) ∧
  (∀ (s : State), s.dev.boot.run = .rom → s.dev.boot.verified = true → s.dev.boot.restart = none →
    ∃ d r, runsRec .firmwareStart s d r ∧ d.boot.run = .running ∧ ∃ x ∈ d.evq, x.code = 0x011) ∧
  (∀ (k : Nat) (s : State), s.dev.boot.run = .rom → s.dev.boot.verified = true → s.dev.boot.restart = some k →
    ∃ d, runs .firmwareRestart s d ∧ d.boot.run = .running ∧ d.boot.restart = none ∧
      (∃ x, d.evq = s.dev.evq ++ [x] ∧ x.code = 0x011) ∧ d = { s.dev with boot := d.boot, evq := d.evq }) ∧
  (∀ (c : Instr) (k : Nat) (s : State), (c, k) ∈ [(.watchdogTimeout, 1), (.firmwareRestart, 2)] →
    s.dev.boot.run = .running →
    ∃ d, runs c s d ∧ d.boot.run = .rom ∧ d.boot.restart = some k ∧ d.f SYS_RST_CAUSE_FW = k ∧
      d.f SYS_FW_RESTARTS_COUNT = (s.dev.f SYS_FW_RESTARTS_COUNT + 1) % 2 ^ 16 ∧ d.mbx = {} ∧ d.ary = s.dev.ary ∧
      d.eng = s.dev.eng ∧ d.nvm = s.dev.nvm ∧ d.time = s.dev.time ∧ d.clk = s.dev.clk ∧
      (s.dev.f MBX_STAT_STATE = mbxPOSTED ∨ s.dev.f MBX_STAT_STATE = mbxBUSY → d.f MBX_STAT_STATE = mbxABORTED)) ∧
  (∀ (s : State), s.dev.boot.run = .rom → s.dev.boot.verified = false → s.dev.boot.activate = none →
    s.dev.aon.strapBoot = bootRECOVERY →
    ∃ d, runs .recoveryLoaderStart s d ∧ d.boot.run = .loader ∧ d.f SYS_BOOT_STAT_ROM_RESULT = 5 ∧ onlyWords s.dev d [0x20C]) ∧
  (∀ (s : State), s.dev.boot.run = .rom → s.dev.boot.verified = false → s.dev.boot.scanned = true →
    s.dev.f SYS_BOOT_STAT_ROM_RESULT = 3 → s.dev.aon.strapBoot ≠ bootRECOVERY →
    ∃ d, runs .recoveryLoaderStart s d ∧ d.boot.run = .loader ∧ d = { s.dev with boot := d.boot })

/-- R253, R531: presets are saved and loaded, and the focus search begins and ends. Where a clause rests on a reading
of the model rather than on the rule's words, see log entries 31, 105 and 107. -/
def Obligations.PresetsAndFocusAreServed : Prop :=
  (∀ (s : State), s.posted 0x0011 1 → s.dev.cmdNat 0 1 ≤ 31 → s.dev.presetImage.length ≤ 15072 →
    s.dev.presetBusy = false →
    ∃ d, runs .presetSave s d ∧ d.preset (s.dev.cmdNat 0 1) = some s.dev.presetImage ∧
      (∀ k, k ≠ s.dev.cmdNat 0 1 → d.preset k = s.dev.preset k) ∧ d.f MBX_STAT_RESULT = resOK ∧ d.f MBX_STAT_STATE = mbxDONE) ∧
  (∀ (s : State), s.posted 0x0011 1 → 31 < s.dev.cmdNat 0 1 → runs .presetSave s (s.dev.answered resBAD_PARAM)) ∧
  (∀ (s : State), s.posted 0x0010 1 → s.dev.mbx.load = none →
    31 < s.dev.cmdNat 0 1 ∨ s.dev.preset (s.dev.cmdNat 0 1) = none →
    ∃ d, runs .presetLoad s d ∧ d.f MBX_STAT_RESULT = resBAD_PARAM ∧ (∃ x, d.evq = s.dev.evq ++ [x] ∧ x.code = 0x019 ∧ x.payload = u8 3)) ∧
  (∀ (s : State), s.posted 0x0010 1 → s.dev.mbx.load = none → s.dev.cmdNat 0 1 ≤ 31 →
    s.dev.preset (s.dev.cmdNat 0 1) = some [] → s.dev.presetBusy = false → s.dev.com.gstate = .idle →
    s.dev.anyChecking = false → s.dev.f EXP_CTX_CTRL_COPY_BUSY = 0 →
    ∃ d, runs .presetLoad s d ∧ d.com.gstate = .checking ∧ d.f MBX_STAT_STATE = mbxBUSY ∧
      d.mbx.load = some { slot := s.dev.cmdNat 0 1, pages := [], outs := [], committed := true }) ∧
  (∀ (l : LoadSt) (s : State), s.dev.mbx.load = some l → l.committed = false → s.dev.loadStopped = false →
    ∃ d, runs .presetLoadTimeout s d ∧ d.mbx.load = none ∧ d.f MBX_STAT_STATE = mbxDONE ∧ d.f MBX_STAT_RESULT = resTIMEOUT) ∧
  (∀ (x : FocusSt) (s : State), s.dev.mbx.focus = some x → x.pe < 8 →
    ∃ d, runs .focusRunTimeout s d ∧ d.mbx.focus = none ∧ d.f MBX_STAT_STATE = mbxDONE ∧ d.f MBX_STAT_RESULT = resTIMEOUT ∧
      d.pin x.pe = { s.dev.pin x.pe with fwOwn := false } ∧ ∀ e, e ≠ x.pe → d.pin e = s.dev.pin e) ∧
  (∀ (v : FocusEv) (e n : Nat) (s : State), s.posted 0x0080 1 → s.dev.mbx.focus = none → s.dev.cmdNat 0 1 = e → s.dev.cmdNat 1 1 = n →
    e ≤ 7 → n ≤ 15 → s.dev.ak STA_HW0_EN n ≠ 0 → s.dev.ak STA_HW0_MEMBER n = 0 →
    s.dev.hf (pePage e) HD_PAGE_CTRL_EN = 1 → s.dev.runState = runRUNNING → (s.dev.pin e).parF = [] →
    ∃ d x, runs (.focusRun v) s d ∧ d.mbx.focus = some x ∧ x.pe = e ∧ x.stage = 0 ∧ x.moving = true ∧ x.goal = 0 ∧ x.pos = 0 ∧
      d.f MBX_STAT_STATE = mbxBUSY ∧ d.pin e = { s.dev.pin e with fwOwn := true, parF := [0#32] }) ∧
  (∀ (x : FocusSt) (w : Word) (t : List Word) (s : State), s.posted 0x0080 1 → s.dev.mbx.focus = some x →
    x.moving = true → x.stage = 1 → (s.dev.pin x.pe).outF = w :: t →
    ∃ d, runs (.focusRun .word) s d ∧ d.mbx.focus = some { x with pos := w.toInt, moving := false, since := s.dev.cyc } ∧
      d.pin x.pe = { s.dev.pin x.pe with outF := t } ∧ onlyWords s.dev d [0x710C] ∧ d.f MBX_STAT_STATE = mbxBUSY) ∧
  (∀ (x : FocusSt) (s : State), s.posted 0x0080 1 → s.dev.mbx.focus = some x → x.moving = false → x.stage = 1 →
    s.dev.focusFresh x = true → (x.best.all fun b => decide (b.2 < s.dev.focusScore x.rect)) = true → x.goal + x.coarse ≤ x.last →
    (s.dev.pin x.pe).parF = [] →
    ∃ d, runs (.focusRun .frame) s d ∧ d.mbx.focus = some { x with
        best := some (x.pos, s.dev.focusScore x.rect), goal := x.goal + x.coarse, moving := true } ∧
      (d.pin x.pe).parF = [BitVec.ofInt 32 (x.goal + x.coarse - x.pos)])

/-- R552: what the instructions of the boundary-scan TAP select; it operates at level ON. Where a clause rests on a
reading of the model rather than on the rule's words, see log entry 108. -/
def Obligations.TapSelectsRegisters : Prop :=
  (∀ (c : Instr) (i : BitVec 4) (s : State), (c, i) ∈ [(.tapReset, 0xF#4), (.tapClamp, 0x2#4), (.tapHighz, 0x3#4)] →
    s.dev.aon.level = 2 → runs c s { s.dev with tap := { s.dev.tap with ir := i } }) ∧
  (∀ (b : List Bool) (s : State), s.dev.aon.level = 2 →
    runs (.tapExtest (some b)) s { s.dev with tap := { s.dev.tap with ir := 0x0#4, chain := b } }) ∧
  (∀ (s : State), s.dev.aon.level = 2 →
    runs (.tapExtest none) s { s.dev with tap := { s.dev.tap with ir := 0x0#4 } }) ∧
  (∀ (b : List Bool) (s : State), s.dev.aon.level = 2 →
    runs (.tapSamplePreload true b) s { s.dev with tap := { s.dev.tap with ir := 0x1#4, chain := b } } ∧
    runs (.tapSamplePreload false b) s { s.dev with tap := { s.dev.tap with ir := 0x1#4, sample := b } }) ∧
  (∀ (b : BypassScan) (s : State), s.dev.aon.level = 2 → 4 ≤ b.code.toNat →
    runs (.tapBypass b) s { s.dev with tap := { s.dev.tap with ir := b.code, bypassBit := b.tdi } }) ∧
  (∀ (c : BitVec 4), tapInstr c = if c = 0x0#4 then .extest else if c = 0x1#4 then .sample else if c = 0x2#4 then .clamp
    else if c = 0x3#4 then .highz else .bypass) ∧
  (∀ (s t : State) (p : Nat), s.dev.aon.level = 2 → exec .tapHighz s = .next t →
    t.dev.pioPin p = none ∧ t.dev.pinState .irqN = .released ∧ t.dev.pinState .spiMiso = .highZ) ∧
  (∀ (c : Instr) (b : List Bool) (o : Option (List Bool)) (q : Bool) (r : BypassScan) (s : State),
    c ∈ [.tapReset, .tapClamp, .tapHighz, .tapExtest o, .tapSamplePreload q b, .tapBypass r] → s.dev.aon.level ≠ 2 →
    runs c s s.dev)

/-! ## The whole machine -/

/-- A command at the front of the queue is taken from it and has its effect; with no command waiting a step changes
nothing (the model's choice, log entry 1). -/
def Obligations.FrontCommandRuns : Prop :=
  (∀ (c : Instr) (rest : List Instr) (s : State), s.pending = c :: rest →
    step s = exec c { s with pending := rest }) ∧
  (∀ (s : State), s.pending = [] → step s = .next s)

/-- Every command of every form answers a next state and leaves the queue as it is, whatever the state and the
operands; so every step answers a next state, and takes at most the front of the queue from it. -/
def Obligations.EveryStepAnswers : Prop :=
  (∀ (c : Instr) (s : State), ∃ t, exec c s = .next t ∧ t.pending = s.pending) ∧
  (∀ (s : State), ∃ t, step s = .next t ∧ t.pending = s.pending.tail)

/-- R528: once the one-time storage holds an operator key, no step changes or removes it; a key gets there when
KEY_PROG_DONE ends the programming of the key words and by no other command; and no command but EVR_CLEAR, which
compares an HMAC, does anything that depends on the key's bytes. -/
def Obligations.OperatorKeyStays : Prop :=
  (∀ (k : List Byte) (s t : State), s.vault.key = some k → step s = .next t → t.vault.key = some k) ∧
  (∀ (s t : State), s.vault.key = none → step s = .next t → t.vault.key ≠ none →
    ∃ k rest, s.pending = .keyProgDone :: rest ∧ s.dev.boot.keyBusy = some k ∧ t.vault.key = some k) ∧
  (∀ (c : Instr) (k k' : List Byte) (s : State), c ≠ .evrClear →
    ∃ d r, exec c { s with vault := { key := some k } } = .next { s with dev := d, evr := r, vault := { key := some k } } ∧
      exec c { s with vault := { key := some k' } } = .next { s with dev := d, evr := r, vault := { key := some k' } })

/-- R510, R518, R522: whatever a step does, the recorder keeps its shape. -/
def Obligations.RecorderKeepsShape : Prop :=
  ∀ (s t : State), s.evr.shaped → step s = .next t → t.evr.shaped

/-- The state after reset: the recorder has its shape, every register reads as its table gives, the level is ON with
every rail good, firmware does not run, and no command waits. Where a clause rests on a reading of the model rather
than on the rule's words, see log entries 2 and 3. -/
def Obligations.ResetState : Prop :=
  State.reset.evr.shaped ∧ State.reset.pending = [] ∧ State.reset.vault.key = none ∧ State.reset.dev.act = [] ∧
  (∀ (F : Fld), F ∈ Blk.fields .sys ++ Blk.fields .clk ++ Blk.fields .tbs ++ Blk.fields .pwr ++ Blk.fields .thm ++ Blk.fields .ary ++
      Blk.fields .exp ++ Blk.fields .trg ++ Blk.fields .ing ++ Blk.fields .nrd ++ Blk.fields .pxc ++ Blk.fields .hmp ++ Blk.fields .hlp →
    F.stride = 0 → State.reset.dev.f F = F.rst) ∧
  State.reset.dev.aon.level = 2 ∧ State.reset.dev.aon.en = 0x3F ∧ State.reset.dev.aon.pg = 0x3F ∧
  State.reset.dev.boot.run = .off ∧ State.reset.dev.clk.state = clkACQUIRE ∧ State.reset.dev.serves = false
end

