-- ==== Sys2Proof/Laws/Sparse.lean ====
section
/-! SUPPORT. What reading and writing a sparse map do, once. -/
namespace Sys2Proof
variable {α : Type}

theorem SMap.get_insertAt_same (d : Nat → α) (m : SMap α) (k : Nat) (v : α)
    (h : ∀ p ∈ m, p.1 ≠ k) : SMap.get d (SMap.insertAt k v m) k = v := by
  induction m with
  | nil => simp [SMap.insertAt, SMap.get]
  | cons p t ih =>
    have hp : p.1 ≠ k := h p (by simp)
    have ht : ∀ q ∈ t, q.1 ≠ k := fun q hq => h q (by simp [hq])
    unfold SMap.insertAt
    split <;> simp_all [SMap.get]

theorem SMap.get_insertAt_ne (d : Nat → α) (m : SMap α) (k j : Nat) (v : α) (hj : j ≠ k) :
    SMap.get d (SMap.insertAt k v m) j = SMap.get d m j := by
  induction m with
  | nil => simp [SMap.insertAt, SMap.get, Ne.symm hj]
  | cons p t ih =>
    unfold SMap.insertAt
    split
    · simp [SMap.get, Ne.symm hj]
    · simp [SMap.get, ih]

theorem SMap.get_filter (d : Nat → α) (m : SMap α) (f : Nat → Bool) (k : Nat) :
    SMap.get d (m.filter fun p => f p.1) k = if f k then SMap.get d m k else d k := by
  induction m with
  | nil => simp [SMap.get]
  | cons p t ih =>
    rcases p with ⟨a, v⟩
    by_cases ha : f a <;> by_cases hk : a = k <;> simp_all [SMap.get]

@[simp] theorem SMap.get_erase (d : Nat → α) (m : SMap α) (k j : Nat) :
    SMap.get d (SMap.erase m k) j = if j = k then d j else SMap.get d m j := by
  have := SMap.get_filter d m (fun a => a != k) j
  simp only [SMap.erase, this]
  by_cases h : j = k <;> simp [h]

theorem SMap.erase_keys (m : SMap α) (k : Nat) : ∀ p ∈ SMap.erase m k, p.1 ≠ k := by
  intro p hp
  simp [SMap.erase] at hp
  exact hp.2

variable [DecidableEq α]

/-- Reading back the key just written. -/
@[simp] theorem SMap.get_set_same (d : Nat → α) (m : SMap α) (k : Nat) (v : α) :
    SMap.get d (SMap.set d m k v) k = v := by
  unfold SMap.set
  split
  · simp_all
  · exact SMap.get_insertAt_same d _ k v (SMap.erase_keys m k)

/-- A write leaves every other key as it was. -/
theorem SMap.get_set_ne (d : Nat → α) (m : SMap α) (k j : Nat) (v : α) (h : j ≠ k) :
    SMap.get d (SMap.set d m k v) j = SMap.get d m j := by
  unfold SMap.set
  split
  · simp [h]
  · rw [SMap.get_insertAt_ne d _ k j v h]; simp [h]

theorem SMap.get_set (d : Nat → α) (m : SMap α) (k j : Nat) (v : α) :
    SMap.get d (SMap.set d m k v) j = if j = k then v else SMap.get d m j := by
  by_cases h : j = k
  · subst h; simp
  · simp [h, SMap.get_set_ne d m k j v h]

omit [DecidableEq α] in
theorem SMap.get_eraseRange (d : Nat → α) (m : SMap α) (lo hi k : Nat) :
    SMap.get d (SMap.eraseRange m lo hi) k
      = if lo ≤ k ∧ k < hi then d k else SMap.get d m k := by
  have := SMap.get_filter d m (fun a => !(decide (lo ≤ a) && decide (a < hi))) k
  simp only [SMap.eraseRange, this]
  by_cases h : lo ≤ k ∧ k < hi <;> by_cases h1 : lo ≤ k <;> by_cases h2 : k < hi <;> simp_all

omit [DecidableEq α] in
theorem SMap.sorted_filter (m : SMap α) (f : Nat × α → Bool) (h : m.sorted = true) :
    SMap.sorted (m.filter f) = true := by
  induction m with
  | nil => rfl
  | cons p t ih =>
    rcases p with ⟨a, v⟩
    simp only [SMap.sorted, Bool.and_eq_true, List.all_eq_true, decide_eq_true_eq] at h
    by_cases hf : f (a, v)
    · simp only [List.filter_cons, hf, if_true, SMap.sorted, Bool.and_eq_true, List.all_eq_true,
        decide_eq_true_eq]
      exact ⟨fun q hq => h.1 q (List.mem_filter.mp hq).1, ih h.2⟩
    · simpa [List.filter_cons, hf] using ih h.2

omit [DecidableEq α] in
theorem SMap.mem_insertAt (m : SMap α) (k : Nat) (v : α) (p : Nat × α) :
    p ∈ SMap.insertAt k v m ↔ p = (k, v) ∨ p ∈ m := by
  induction m with
  | nil => simp [SMap.insertAt]
  | cons q t ih =>
    rcases q with ⟨a, w⟩
    unfold SMap.insertAt
    split
    · simp
    · simp [ih]; tauto

omit [DecidableEq α] in
theorem SMap.sorted_insertAt (m : SMap α) (k : Nat) (v : α) (h : m.sorted = true)
    (hk : ∀ p ∈ m, p.1 ≠ k) : SMap.sorted (SMap.insertAt k v m) = true := by
  induction m with
  | nil => rfl
  | cons q t ih =>
    rcases q with ⟨a, w⟩
    simp only [SMap.sorted, Bool.and_eq_true, List.all_eq_true, decide_eq_true_eq] at h
    have hne : a ≠ k := hk (a, w) (by simp)
    unfold SMap.insertAt
    split
    · rename_i hlt
      simp only [SMap.sorted, Bool.and_eq_true, List.all_eq_true, decide_eq_true_eq]
      refine ⟨fun p hp => ?_, h⟩
      rcases List.mem_cons.mp hp with rfl | hp
      · exact hlt
      · exact lt_trans hlt (h.1 p hp)
    · rename_i hge
      simp only [SMap.sorted, Bool.and_eq_true, List.all_eq_true, decide_eq_true_eq]
      refine ⟨fun p hp => ?_, ih h.2 fun p hp => hk p (by simp [hp])⟩
      rcases (SMap.mem_insertAt t k v p).mp hp with rfl | hp
      · simp; omega
      · exact h.1 p hp

/-- A write keeps the canonical form. -/
theorem SMap.wf_set (d : Nat → α) (m : SMap α) (k : Nat) (v : α) (h : SMap.wf d m = true) :
    SMap.wf d (SMap.set d m k v) = true := by
  simp only [SMap.wf, Bool.and_eq_true, List.all_eq_true, decide_eq_true_eq] at h ⊢
  have hs : SMap.sorted (SMap.erase m k) = true := SMap.sorted_filter m _ h.1
  have ha : ∀ p ∈ SMap.erase m k, p.2 ≠ d p.1 := fun p hp => h.2 p (List.mem_filter.mp hp).1
  unfold SMap.set
  split
  · exact ⟨hs, ha⟩
  · rename_i hv
    refine ⟨SMap.sorted_insertAt _ k v hs (SMap.erase_keys m k), fun p hp => ?_⟩
    rcases (SMap.mem_insertAt _ k v p).mp hp with rfl | hp
    · exact hv
    · exact ha p hp

/-- Erasing a range of keys keeps the canonical form. -/
theorem SMap.wf_eraseRange (d : Nat → α) (m : SMap α) (lo hi : Nat) (h : SMap.wf d m = true) :
    SMap.wf d (SMap.eraseRange m lo hi) = true := by
  simp only [SMap.wf, Bool.and_eq_true, List.all_eq_true, decide_eq_true_eq] at h ⊢
  exact ⟨SMap.sorted_filter m _ h.1, fun p hp => h.2 p (List.mem_filter.mp hp).1⟩

theorem SMap.wf_nil (d : Nat → α) : SMap.wf d ([] : SMap α) = true := rfl

end Sys2Proof
end

