-- ==== Sys2Proof/Laws/State.lean ====
section
/-! SUPPORT. What each update of the device does to each of its fields: one lemma for a field and an update, so that
no later proof unfolds a record update. -/
namespace Sys2Proof.Machine
variable (d : Dev)

/-! ## putWord -/

@[simp] theorem Dev.putWord_cyc (a : Nat) (w : Word) : (d.putWord a w).cyc = d.cyc := rfl
@[simp] theorem Dev.putWord_freeCtr (a : Nat) (w : Word) : (d.putWord a w).freeCtr = d.freeCtr := rfl
@[simp] theorem Dev.putWord_regs (a : Nat) (w : Word) : (d.putWord a w).regs = SMap.set resetWord d.regs a w := rfl
@[simp] theorem Dev.putWord_act (a : Nat) (w : Word) : (d.putWord a w).act = d.act := rfl
@[simp] theorem Dev.putWord_evq (a : Nat) (w : Word) : (d.putWord a w).evq = d.evq := rfl
@[simp] theorem Dev.putWord_com (a : Nat) (w : Word) : (d.putWord a w).com = d.com := rfl
@[simp] theorem Dev.putWord_out (a : Nat) (w : Word) : (d.putWord a w).out = d.out := rfl
@[simp] theorem Dev.putWord_mbx (a : Nat) (w : Word) : (d.putWord a w).mbx = d.mbx := rfl
@[simp] theorem Dev.putWord_time (a : Nat) (w : Word) : (d.putWord a w).time = d.time := rfl
@[simp] theorem Dev.putWord_clk (a : Nat) (w : Word) : (d.putWord a w).clk = d.clk := rfl
@[simp] theorem Dev.putWord_aon (a : Nat) (w : Word) : (d.putWord a w).aon = d.aon := rfl
@[simp] theorem Dev.putWord_pwr (a : Nat) (w : Word) : (d.putWord a w).pwr = d.pwr := rfl
@[simp] theorem Dev.putWord_thm (a : Nat) (w : Word) : (d.putWord a w).thm = d.thm := rfl
@[simp] theorem Dev.putWord_nvm (a : Nat) (w : Word) : (d.putWord a w).nvm = d.nvm := rfl
@[simp] theorem Dev.putWord_boot (a : Nat) (w : Word) : (d.putWord a w).boot = d.boot := rfl
@[simp] theorem Dev.putWord_tap (a : Nat) (w : Word) : (d.putWord a w).tap = d.tap := rfl
@[simp] theorem Dev.putWord_reqs (a : Nat) (w : Word) : (d.putWord a w).reqs = d.reqs := rfl
@[simp] theorem Dev.putWord_frames (a : Nat) (w : Word) : (d.putWord a w).frames = d.frames := rfl
@[simp] theorem Dev.putWord_nextFrame (a : Nat) (w : Word) : (d.putWord a w).nextFrame = d.nextFrame := rfl
@[simp] theorem Dev.putWord_gens (a : Nat) (w : Word) : (d.putWord a w).gens = d.gens := rfl
@[simp] theorem Dev.putWord_pipe (a : Nat) (w : Word) : (d.putWord a w).pipe = d.pipe := rfl
@[simp] theorem Dev.putWord_refs (a : Nat) (w : Word) : (d.putWord a w).refs = d.refs := rfl
@[simp] theorem Dev.putWord_bls (a : Nat) (w : Word) : (d.putWord a w).bls = d.bls := rfl
@[simp] theorem Dev.putWord_hmp (a : Nat) (w : Word) : (d.putWord a w).hmp = d.hmp := rfl
@[simp] theorem Dev.putWord_burst (a : Nat) (w : Word) : (d.putWord a w).burst = d.burst := rfl
@[simp] theorem Dev.putWord_views (a : Nat) (w : Word) : (d.putWord a w).views = d.views := rfl
@[simp] theorem Dev.putWord_encs (a : Nat) (w : Word) : (d.putWord a w).encs = d.encs := rfl
@[simp] theorem Dev.putWord_recs (a : Nat) (w : Word) : (d.putWord a w).recs = d.recs := rfl
@[simp] theorem Dev.putWord_defs (a : Nat) (w : Word) : (d.putWord a w).defs = d.defs := rfl
@[simp] theorem Dev.putWord_lsc (a : Nat) (w : Word) : (d.putWord a w).lsc = d.lsc := rfl
@[simp] theorem Dev.putWord_ary (a : Nat) (w : Word) : (d.putWord a w).ary = d.ary := rfl
@[simp] theorem Dev.putWord_eng (a : Nat) (w : Word) : (d.putWord a w).eng = d.eng := rfl
@[simp] theorem Dev.putWord_trg (a : Nat) (w : Word) : (d.putWord a w).trg = d.trg := rfl
@[simp] theorem Dev.putWord_pe (a : Nat) (w : Word) : (d.putWord a w).pe = d.pe := rfl
@[simp] theorem Dev.putWord_pio (a : Nat) (w : Word) : (d.putWord a w).pio = d.pio := rfl
@[simp] theorem Dev.putWord_pioF (a : Nat) (w : Word) : (d.putWord a w).pioF = d.pioF := rfl
@[simp] theorem Dev.putWord_pioAt (a : Nat) (w : Word) : (d.putWord a w).pioAt = d.pioAt := rfl
@[simp] theorem Dev.putWord_tx (a : Nat) (w : Word) : (d.putWord a w).tx = d.tx := rfl
@[simp] theorem Dev.putWord_lanes (a : Nat) (w : Word) : (d.putWord a w).lanes = d.lanes := rfl
@[simp] theorem Dev.putWord_grps (a : Nat) (w : Word) : (d.putWord a w).grps = d.grps := rfl
@[simp] theorem Dev.putWord_sp (a : Nat) (w : Word) : (d.putWord a w).sp = d.sp := rfl
@[simp] theorem Dev.putWord_dlv (a : Nat) (w : Word) : (d.putWord a w).dlv = d.dlv := rfl
@[simp] theorem Dev.putWord_hlp (a : Nat) (w : Word) : (d.putWord a w).hlp = d.hlp := rfl

/-! ## putAct -/

@[simp] theorem Dev.putAct_cyc (a : Nat) (w : Word) : (d.putAct a w).cyc = d.cyc := rfl
@[simp] theorem Dev.putAct_freeCtr (a : Nat) (w : Word) : (d.putAct a w).freeCtr = d.freeCtr := rfl
@[simp] theorem Dev.putAct_regs (a : Nat) (w : Word) : (d.putAct a w).regs = d.regs := rfl
@[simp] theorem Dev.putAct_act (a : Nat) (w : Word) : (d.putAct a w).act = SMap.set resetWord d.act a w := rfl
@[simp] theorem Dev.putAct_evq (a : Nat) (w : Word) : (d.putAct a w).evq = d.evq := rfl
@[simp] theorem Dev.putAct_com (a : Nat) (w : Word) : (d.putAct a w).com = d.com := rfl
@[simp] theorem Dev.putAct_out (a : Nat) (w : Word) : (d.putAct a w).out = d.out := rfl
@[simp] theorem Dev.putAct_mbx (a : Nat) (w : Word) : (d.putAct a w).mbx = d.mbx := rfl
@[simp] theorem Dev.putAct_time (a : Nat) (w : Word) : (d.putAct a w).time = d.time := rfl
@[simp] theorem Dev.putAct_clk (a : Nat) (w : Word) : (d.putAct a w).clk = d.clk := rfl
@[simp] theorem Dev.putAct_aon (a : Nat) (w : Word) : (d.putAct a w).aon = d.aon := rfl
@[simp] theorem Dev.putAct_pwr (a : Nat) (w : Word) : (d.putAct a w).pwr = d.pwr := rfl
@[simp] theorem Dev.putAct_thm (a : Nat) (w : Word) : (d.putAct a w).thm = d.thm := rfl
@[simp] theorem Dev.putAct_nvm (a : Nat) (w : Word) : (d.putAct a w).nvm = d.nvm := rfl
@[simp] theorem Dev.putAct_boot (a : Nat) (w : Word) : (d.putAct a w).boot = d.boot := rfl
@[simp] theorem Dev.putAct_tap (a : Nat) (w : Word) : (d.putAct a w).tap = d.tap := rfl
@[simp] theorem Dev.putAct_reqs (a : Nat) (w : Word) : (d.putAct a w).reqs = d.reqs := rfl
@[simp] theorem Dev.putAct_frames (a : Nat) (w : Word) : (d.putAct a w).frames = d.frames := rfl
@[simp] theorem Dev.putAct_nextFrame (a : Nat) (w : Word) : (d.putAct a w).nextFrame = d.nextFrame := rfl
@[simp] theorem Dev.putAct_gens (a : Nat) (w : Word) : (d.putAct a w).gens = d.gens := rfl
@[simp] theorem Dev.putAct_pipe (a : Nat) (w : Word) : (d.putAct a w).pipe = d.pipe := rfl
@[simp] theorem Dev.putAct_refs (a : Nat) (w : Word) : (d.putAct a w).refs = d.refs := rfl
@[simp] theorem Dev.putAct_bls (a : Nat) (w : Word) : (d.putAct a w).bls = d.bls := rfl
@[simp] theorem Dev.putAct_hmp (a : Nat) (w : Word) : (d.putAct a w).hmp = d.hmp := rfl
@[simp] theorem Dev.putAct_burst (a : Nat) (w : Word) : (d.putAct a w).burst = d.burst := rfl
@[simp] theorem Dev.putAct_views (a : Nat) (w : Word) : (d.putAct a w).views = d.views := rfl
@[simp] theorem Dev.putAct_encs (a : Nat) (w : Word) : (d.putAct a w).encs = d.encs := rfl
@[simp] theorem Dev.putAct_recs (a : Nat) (w : Word) : (d.putAct a w).recs = d.recs := rfl
@[simp] theorem Dev.putAct_defs (a : Nat) (w : Word) : (d.putAct a w).defs = d.defs := rfl
@[simp] theorem Dev.putAct_lsc (a : Nat) (w : Word) : (d.putAct a w).lsc = d.lsc := rfl
@[simp] theorem Dev.putAct_ary (a : Nat) (w : Word) : (d.putAct a w).ary = d.ary := rfl
@[simp] theorem Dev.putAct_eng (a : Nat) (w : Word) : (d.putAct a w).eng = d.eng := rfl
@[simp] theorem Dev.putAct_trg (a : Nat) (w : Word) : (d.putAct a w).trg = d.trg := rfl
@[simp] theorem Dev.putAct_pe (a : Nat) (w : Word) : (d.putAct a w).pe = d.pe := rfl
@[simp] theorem Dev.putAct_pio (a : Nat) (w : Word) : (d.putAct a w).pio = d.pio := rfl
@[simp] theorem Dev.putAct_pioF (a : Nat) (w : Word) : (d.putAct a w).pioF = d.pioF := rfl
@[simp] theorem Dev.putAct_pioAt (a : Nat) (w : Word) : (d.putAct a w).pioAt = d.pioAt := rfl
@[simp] theorem Dev.putAct_tx (a : Nat) (w : Word) : (d.putAct a w).tx = d.tx := rfl
@[simp] theorem Dev.putAct_lanes (a : Nat) (w : Word) : (d.putAct a w).lanes = d.lanes := rfl
@[simp] theorem Dev.putAct_grps (a : Nat) (w : Word) : (d.putAct a w).grps = d.grps := rfl
@[simp] theorem Dev.putAct_sp (a : Nat) (w : Word) : (d.putAct a w).sp = d.sp := rfl
@[simp] theorem Dev.putAct_dlv (a : Nat) (w : Word) : (d.putAct a w).dlv = d.dlv := rfl
@[simp] theorem Dev.putAct_hlp (a : Nat) (w : Word) : (d.putAct a w).hlp = d.hlp := rfl

/-! ## setFi -/

@[simp] theorem Dev.setFi_cyc (F : Fld) (i k v : Nat) : (d.setFi F i k v).cyc = d.cyc := rfl
@[simp] theorem Dev.setFi_freeCtr (F : Fld) (i k v : Nat) : (d.setFi F i k v).freeCtr = d.freeCtr := rfl
@[simp] theorem Dev.setFi_act (F : Fld) (i k v : Nat) : (d.setFi F i k v).act = d.act := rfl
@[simp] theorem Dev.setFi_evq (F : Fld) (i k v : Nat) : (d.setFi F i k v).evq = d.evq := rfl
@[simp] theorem Dev.setFi_com (F : Fld) (i k v : Nat) : (d.setFi F i k v).com = d.com := rfl
@[simp] theorem Dev.setFi_out (F : Fld) (i k v : Nat) : (d.setFi F i k v).out = d.out := rfl
@[simp] theorem Dev.setFi_mbx (F : Fld) (i k v : Nat) : (d.setFi F i k v).mbx = d.mbx := rfl
@[simp] theorem Dev.setFi_time (F : Fld) (i k v : Nat) : (d.setFi F i k v).time = d.time := rfl
@[simp] theorem Dev.setFi_clk (F : Fld) (i k v : Nat) : (d.setFi F i k v).clk = d.clk := rfl
@[simp] theorem Dev.setFi_aon (F : Fld) (i k v : Nat) : (d.setFi F i k v).aon = d.aon := rfl
@[simp] theorem Dev.setFi_pwr (F : Fld) (i k v : Nat) : (d.setFi F i k v).pwr = d.pwr := rfl
@[simp] theorem Dev.setFi_thm (F : Fld) (i k v : Nat) : (d.setFi F i k v).thm = d.thm := rfl
@[simp] theorem Dev.setFi_nvm (F : Fld) (i k v : Nat) : (d.setFi F i k v).nvm = d.nvm := rfl
@[simp] theorem Dev.setFi_boot (F : Fld) (i k v : Nat) : (d.setFi F i k v).boot = d.boot := rfl
@[simp] theorem Dev.setFi_tap (F : Fld) (i k v : Nat) : (d.setFi F i k v).tap = d.tap := rfl
@[simp] theorem Dev.setFi_reqs (F : Fld) (i k v : Nat) : (d.setFi F i k v).reqs = d.reqs := rfl
@[simp] theorem Dev.setFi_frames (F : Fld) (i k v : Nat) : (d.setFi F i k v).frames = d.frames := rfl
@[simp] theorem Dev.setFi_nextFrame (F : Fld) (i k v : Nat) : (d.setFi F i k v).nextFrame = d.nextFrame := rfl
@[simp] theorem Dev.setFi_gens (F : Fld) (i k v : Nat) : (d.setFi F i k v).gens = d.gens := rfl
@[simp] theorem Dev.setFi_pipe (F : Fld) (i k v : Nat) : (d.setFi F i k v).pipe = d.pipe := rfl
@[simp] theorem Dev.setFi_refs (F : Fld) (i k v : Nat) : (d.setFi F i k v).refs = d.refs := rfl
@[simp] theorem Dev.setFi_bls (F : Fld) (i k v : Nat) : (d.setFi F i k v).bls = d.bls := rfl
@[simp] theorem Dev.setFi_hmp (F : Fld) (i k v : Nat) : (d.setFi F i k v).hmp = d.hmp := rfl
@[simp] theorem Dev.setFi_burst (F : Fld) (i k v : Nat) : (d.setFi F i k v).burst = d.burst := rfl
@[simp] theorem Dev.setFi_views (F : Fld) (i k v : Nat) : (d.setFi F i k v).views = d.views := rfl
@[simp] theorem Dev.setFi_encs (F : Fld) (i k v : Nat) : (d.setFi F i k v).encs = d.encs := rfl
@[simp] theorem Dev.setFi_recs (F : Fld) (i k v : Nat) : (d.setFi F i k v).recs = d.recs := rfl
@[simp] theorem Dev.setFi_defs (F : Fld) (i k v : Nat) : (d.setFi F i k v).defs = d.defs := rfl
@[simp] theorem Dev.setFi_lsc (F : Fld) (i k v : Nat) : (d.setFi F i k v).lsc = d.lsc := rfl
@[simp] theorem Dev.setFi_ary (F : Fld) (i k v : Nat) : (d.setFi F i k v).ary = d.ary := rfl
@[simp] theorem Dev.setFi_eng (F : Fld) (i k v : Nat) : (d.setFi F i k v).eng = d.eng := rfl
@[simp] theorem Dev.setFi_trg (F : Fld) (i k v : Nat) : (d.setFi F i k v).trg = d.trg := rfl
@[simp] theorem Dev.setFi_pe (F : Fld) (i k v : Nat) : (d.setFi F i k v).pe = d.pe := rfl
@[simp] theorem Dev.setFi_pio (F : Fld) (i k v : Nat) : (d.setFi F i k v).pio = d.pio := rfl
@[simp] theorem Dev.setFi_pioF (F : Fld) (i k v : Nat) : (d.setFi F i k v).pioF = d.pioF := rfl
@[simp] theorem Dev.setFi_pioAt (F : Fld) (i k v : Nat) : (d.setFi F i k v).pioAt = d.pioAt := rfl
@[simp] theorem Dev.setFi_tx (F : Fld) (i k v : Nat) : (d.setFi F i k v).tx = d.tx := rfl
@[simp] theorem Dev.setFi_lanes (F : Fld) (i k v : Nat) : (d.setFi F i k v).lanes = d.lanes := rfl
@[simp] theorem Dev.setFi_grps (F : Fld) (i k v : Nat) : (d.setFi F i k v).grps = d.grps := rfl
@[simp] theorem Dev.setFi_sp (F : Fld) (i k v : Nat) : (d.setFi F i k v).sp = d.sp := rfl
@[simp] theorem Dev.setFi_dlv (F : Fld) (i k v : Nat) : (d.setFi F i k v).dlv = d.dlv := rfl
@[simp] theorem Dev.setFi_hlp (F : Fld) (i k v : Nat) : (d.setFi F i k v).hlp = d.hlp := rfl

/-! ## setHf -/

@[simp] theorem Dev.setHf_cyc (p : Page) (F : Fld) (v : Nat) : (d.setHf p F v).cyc = d.cyc := rfl
@[simp] theorem Dev.setHf_freeCtr (p : Page) (F : Fld) (v : Nat) : (d.setHf p F v).freeCtr = d.freeCtr := rfl
@[simp] theorem Dev.setHf_act (p : Page) (F : Fld) (v : Nat) : (d.setHf p F v).act = d.act := rfl
@[simp] theorem Dev.setHf_evq (p : Page) (F : Fld) (v : Nat) : (d.setHf p F v).evq = d.evq := rfl
@[simp] theorem Dev.setHf_com (p : Page) (F : Fld) (v : Nat) : (d.setHf p F v).com = d.com := rfl
@[simp] theorem Dev.setHf_out (p : Page) (F : Fld) (v : Nat) : (d.setHf p F v).out = d.out := rfl
@[simp] theorem Dev.setHf_mbx (p : Page) (F : Fld) (v : Nat) : (d.setHf p F v).mbx = d.mbx := rfl
@[simp] theorem Dev.setHf_time (p : Page) (F : Fld) (v : Nat) : (d.setHf p F v).time = d.time := rfl
@[simp] theorem Dev.setHf_clk (p : Page) (F : Fld) (v : Nat) : (d.setHf p F v).clk = d.clk := rfl
@[simp] theorem Dev.setHf_aon (p : Page) (F : Fld) (v : Nat) : (d.setHf p F v).aon = d.aon := rfl
@[simp] theorem Dev.setHf_pwr (p : Page) (F : Fld) (v : Nat) : (d.setHf p F v).pwr = d.pwr := rfl
@[simp] theorem Dev.setHf_thm (p : Page) (F : Fld) (v : Nat) : (d.setHf p F v).thm = d.thm := rfl
@[simp] theorem Dev.setHf_nvm (p : Page) (F : Fld) (v : Nat) : (d.setHf p F v).nvm = d.nvm := rfl
@[simp] theorem Dev.setHf_boot (p : Page) (F : Fld) (v : Nat) : (d.setHf p F v).boot = d.boot := rfl
@[simp] theorem Dev.setHf_tap (p : Page) (F : Fld) (v : Nat) : (d.setHf p F v).tap = d.tap := rfl
@[simp] theorem Dev.setHf_reqs (p : Page) (F : Fld) (v : Nat) : (d.setHf p F v).reqs = d.reqs := rfl
@[simp] theorem Dev.setHf_frames (p : Page) (F : Fld) (v : Nat) : (d.setHf p F v).frames = d.frames := rfl
@[simp] theorem Dev.setHf_nextFrame (p : Page) (F : Fld) (v : Nat) : (d.setHf p F v).nextFrame = d.nextFrame := rfl
@[simp] theorem Dev.setHf_gens (p : Page) (F : Fld) (v : Nat) : (d.setHf p F v).gens = d.gens := rfl
@[simp] theorem Dev.setHf_pipe (p : Page) (F : Fld) (v : Nat) : (d.setHf p F v).pipe = d.pipe := rfl
@[simp] theorem Dev.setHf_refs (p : Page) (F : Fld) (v : Nat) : (d.setHf p F v).refs = d.refs := rfl
@[simp] theorem Dev.setHf_bls (p : Page) (F : Fld) (v : Nat) : (d.setHf p F v).bls = d.bls := rfl
@[simp] theorem Dev.setHf_hmp (p : Page) (F : Fld) (v : Nat) : (d.setHf p F v).hmp = d.hmp := rfl
@[simp] theorem Dev.setHf_burst (p : Page) (F : Fld) (v : Nat) : (d.setHf p F v).burst = d.burst := rfl
@[simp] theorem Dev.setHf_views (p : Page) (F : Fld) (v : Nat) : (d.setHf p F v).views = d.views := rfl
@[simp] theorem Dev.setHf_encs (p : Page) (F : Fld) (v : Nat) : (d.setHf p F v).encs = d.encs := rfl
@[simp] theorem Dev.setHf_recs (p : Page) (F : Fld) (v : Nat) : (d.setHf p F v).recs = d.recs := rfl
@[simp] theorem Dev.setHf_defs (p : Page) (F : Fld) (v : Nat) : (d.setHf p F v).defs = d.defs := rfl
@[simp] theorem Dev.setHf_lsc (p : Page) (F : Fld) (v : Nat) : (d.setHf p F v).lsc = d.lsc := rfl
@[simp] theorem Dev.setHf_ary (p : Page) (F : Fld) (v : Nat) : (d.setHf p F v).ary = d.ary := rfl
@[simp] theorem Dev.setHf_eng (p : Page) (F : Fld) (v : Nat) : (d.setHf p F v).eng = d.eng := rfl
@[simp] theorem Dev.setHf_trg (p : Page) (F : Fld) (v : Nat) : (d.setHf p F v).trg = d.trg := rfl
@[simp] theorem Dev.setHf_pe (p : Page) (F : Fld) (v : Nat) : (d.setHf p F v).pe = d.pe := rfl
@[simp] theorem Dev.setHf_pio (p : Page) (F : Fld) (v : Nat) : (d.setHf p F v).pio = d.pio := rfl
@[simp] theorem Dev.setHf_pioF (p : Page) (F : Fld) (v : Nat) : (d.setHf p F v).pioF = d.pioF := rfl
@[simp] theorem Dev.setHf_pioAt (p : Page) (F : Fld) (v : Nat) : (d.setHf p F v).pioAt = d.pioAt := rfl
@[simp] theorem Dev.setHf_tx (p : Page) (F : Fld) (v : Nat) : (d.setHf p F v).tx = d.tx := rfl
@[simp] theorem Dev.setHf_lanes (p : Page) (F : Fld) (v : Nat) : (d.setHf p F v).lanes = d.lanes := rfl
@[simp] theorem Dev.setHf_grps (p : Page) (F : Fld) (v : Nat) : (d.setHf p F v).grps = d.grps := rfl
@[simp] theorem Dev.setHf_sp (p : Page) (F : Fld) (v : Nat) : (d.setHf p F v).sp = d.sp := rfl
@[simp] theorem Dev.setHf_dlv (p : Page) (F : Fld) (v : Nat) : (d.setHf p F v).dlv = d.dlv := rfl
@[simp] theorem Dev.setHf_hlp (p : Page) (F : Fld) (v : Nat) : (d.setHf p F v).hlp = d.hlp := rfl

/-! ## raiseBits -/

@[simp] theorem Dev.raiseBits_cyc (p : Page) (b : Word) : (d.raiseBits p b).cyc = d.cyc := by
  unfold Dev.raiseBits irqPackets; split <;> rfl
@[simp] theorem Dev.raiseBits_freeCtr (p : Page) (b : Word) : (d.raiseBits p b).freeCtr = d.freeCtr := by
  unfold Dev.raiseBits irqPackets; split <;> rfl
@[simp] theorem Dev.raiseBits_act (p : Page) (b : Word) : (d.raiseBits p b).act = d.act := by
  unfold Dev.raiseBits irqPackets; split <;> rfl
@[simp] theorem Dev.raiseBits_evq (p : Page) (b : Word) : (d.raiseBits p b).evq = d.evq := by
  unfold Dev.raiseBits irqPackets; split <;> rfl
@[simp] theorem Dev.raiseBits_com (p : Page) (b : Word) : (d.raiseBits p b).com = d.com := by
  unfold Dev.raiseBits irqPackets; split <;> rfl
@[simp] theorem Dev.raiseBits_out (p : Page) (b : Word) : (d.raiseBits p b).out = d.out := by
  unfold Dev.raiseBits irqPackets; split <;> rfl
@[simp] theorem Dev.raiseBits_mbx (p : Page) (b : Word) : (d.raiseBits p b).mbx = d.mbx := by
  unfold Dev.raiseBits irqPackets; split <;> rfl
@[simp] theorem Dev.raiseBits_time (p : Page) (b : Word) : (d.raiseBits p b).time = d.time := by
  unfold Dev.raiseBits irqPackets; split <;> rfl
@[simp] theorem Dev.raiseBits_clk (p : Page) (b : Word) : (d.raiseBits p b).clk = d.clk := by
  unfold Dev.raiseBits irqPackets; split <;> rfl
@[simp] theorem Dev.raiseBits_aon (p : Page) (b : Word) : (d.raiseBits p b).aon = d.aon := by
  unfold Dev.raiseBits irqPackets; split <;> rfl
@[simp] theorem Dev.raiseBits_pwr (p : Page) (b : Word) : (d.raiseBits p b).pwr = d.pwr := by
  unfold Dev.raiseBits irqPackets; split <;> rfl
@[simp] theorem Dev.raiseBits_thm (p : Page) (b : Word) : (d.raiseBits p b).thm = d.thm := by
  unfold Dev.raiseBits irqPackets; split <;> rfl
@[simp] theorem Dev.raiseBits_nvm (p : Page) (b : Word) : (d.raiseBits p b).nvm = d.nvm := by
  unfold Dev.raiseBits irqPackets; split <;> rfl
@[simp] theorem Dev.raiseBits_boot (p : Page) (b : Word) : (d.raiseBits p b).boot = d.boot := by
  unfold Dev.raiseBits irqPackets; split <;> rfl
@[simp] theorem Dev.raiseBits_tap (p : Page) (b : Word) : (d.raiseBits p b).tap = d.tap := by
  unfold Dev.raiseBits irqPackets; split <;> rfl
@[simp] theorem Dev.raiseBits_frames (p : Page) (b : Word) : (d.raiseBits p b).frames = d.frames := by
  unfold Dev.raiseBits irqPackets; split <;> rfl
@[simp] theorem Dev.raiseBits_nextFrame (p : Page) (b : Word) : (d.raiseBits p b).nextFrame = d.nextFrame := by
  unfold Dev.raiseBits irqPackets; split <;> rfl
@[simp] theorem Dev.raiseBits_gens (p : Page) (b : Word) : (d.raiseBits p b).gens = d.gens := by
  unfold Dev.raiseBits irqPackets; split <;> rfl
@[simp] theorem Dev.raiseBits_pipe (p : Page) (b : Word) : (d.raiseBits p b).pipe = d.pipe := by
  unfold Dev.raiseBits irqPackets; split <;> rfl
@[simp] theorem Dev.raiseBits_refs (p : Page) (b : Word) : (d.raiseBits p b).refs = d.refs := by
  unfold Dev.raiseBits irqPackets; split <;> rfl
@[simp] theorem Dev.raiseBits_bls (p : Page) (b : Word) : (d.raiseBits p b).bls = d.bls := by
  unfold Dev.raiseBits irqPackets; split <;> rfl
@[simp] theorem Dev.raiseBits_hmp (p : Page) (b : Word) : (d.raiseBits p b).hmp = d.hmp := by
  unfold Dev.raiseBits irqPackets; split <;> rfl
@[simp] theorem Dev.raiseBits_burst (p : Page) (b : Word) : (d.raiseBits p b).burst = d.burst := by
  unfold Dev.raiseBits irqPackets; split <;> rfl
@[simp] theorem Dev.raiseBits_views (p : Page) (b : Word) : (d.raiseBits p b).views = d.views := by
  unfold Dev.raiseBits irqPackets; split <;> rfl
@[simp] theorem Dev.raiseBits_encs (p : Page) (b : Word) : (d.raiseBits p b).encs = d.encs := by
  unfold Dev.raiseBits irqPackets; split <;> rfl
@[simp] theorem Dev.raiseBits_recs (p : Page) (b : Word) : (d.raiseBits p b).recs = d.recs := by
  unfold Dev.raiseBits irqPackets; split <;> rfl
@[simp] theorem Dev.raiseBits_defs (p : Page) (b : Word) : (d.raiseBits p b).defs = d.defs := by
  unfold Dev.raiseBits irqPackets; split <;> rfl
@[simp] theorem Dev.raiseBits_lsc (p : Page) (b : Word) : (d.raiseBits p b).lsc = d.lsc := by
  unfold Dev.raiseBits irqPackets; split <;> rfl
@[simp] theorem Dev.raiseBits_ary (p : Page) (b : Word) : (d.raiseBits p b).ary = d.ary := by
  unfold Dev.raiseBits irqPackets; split <;> rfl
@[simp] theorem Dev.raiseBits_eng (p : Page) (b : Word) : (d.raiseBits p b).eng = d.eng := by
  unfold Dev.raiseBits irqPackets; split <;> rfl
@[simp] theorem Dev.raiseBits_trg (p : Page) (b : Word) : (d.raiseBits p b).trg = d.trg := by
  unfold Dev.raiseBits irqPackets; split <;> rfl
@[simp] theorem Dev.raiseBits_pe (p : Page) (b : Word) : (d.raiseBits p b).pe = d.pe := by
  unfold Dev.raiseBits irqPackets; split <;> rfl
@[simp] theorem Dev.raiseBits_pio (p : Page) (b : Word) : (d.raiseBits p b).pio = d.pio := by
  unfold Dev.raiseBits irqPackets; split <;> rfl
@[simp] theorem Dev.raiseBits_pioF (p : Page) (b : Word) : (d.raiseBits p b).pioF = d.pioF := by
  unfold Dev.raiseBits irqPackets; split <;> rfl
@[simp] theorem Dev.raiseBits_pioAt (p : Page) (b : Word) : (d.raiseBits p b).pioAt = d.pioAt := by
  unfold Dev.raiseBits irqPackets; split <;> rfl
@[simp] theorem Dev.raiseBits_tx (p : Page) (b : Word) : (d.raiseBits p b).tx = d.tx := by
  unfold Dev.raiseBits irqPackets; split <;> rfl
@[simp] theorem Dev.raiseBits_lanes (p : Page) (b : Word) : (d.raiseBits p b).lanes = d.lanes := by
  unfold Dev.raiseBits irqPackets; split <;> rfl
@[simp] theorem Dev.raiseBits_grps (p : Page) (b : Word) : (d.raiseBits p b).grps = d.grps := by
  unfold Dev.raiseBits irqPackets; split <;> rfl
@[simp] theorem Dev.raiseBits_sp (p : Page) (b : Word) : (d.raiseBits p b).sp = d.sp := by
  unfold Dev.raiseBits irqPackets; split <;> rfl
@[simp] theorem Dev.raiseBits_dlv (p : Page) (b : Word) : (d.raiseBits p b).dlv = d.dlv := by
  unfold Dev.raiseBits irqPackets; split <;> rfl
@[simp] theorem Dev.raiseBits_hlp (p : Page) (b : Word) : (d.raiseBits p b).hlp = d.hlp := by
  unfold Dev.raiseBits irqPackets; split <;> rfl

/-! ## emitSrc -/

@[simp] theorem Dev.emitSrc_cyc (c src : Nat) (b : List Byte) : (d.emitSrc c src b).cyc = d.cyc := rfl
@[simp] theorem Dev.emitSrc_freeCtr (c src : Nat) (b : List Byte) : (d.emitSrc c src b).freeCtr = d.freeCtr := rfl
@[simp] theorem Dev.emitSrc_regs (c src : Nat) (b : List Byte) : (d.emitSrc c src b).regs = d.regs := rfl
@[simp] theorem Dev.emitSrc_act (c src : Nat) (b : List Byte) : (d.emitSrc c src b).act = d.act := rfl
@[simp] theorem Dev.emitSrc_com (c src : Nat) (b : List Byte) : (d.emitSrc c src b).com = d.com := rfl
@[simp] theorem Dev.emitSrc_out (c src : Nat) (b : List Byte) : (d.emitSrc c src b).out = d.out := rfl
@[simp] theorem Dev.emitSrc_mbx (c src : Nat) (b : List Byte) : (d.emitSrc c src b).mbx = d.mbx := rfl
@[simp] theorem Dev.emitSrc_time (c src : Nat) (b : List Byte) : (d.emitSrc c src b).time = d.time := rfl
@[simp] theorem Dev.emitSrc_clk (c src : Nat) (b : List Byte) : (d.emitSrc c src b).clk = d.clk := rfl
@[simp] theorem Dev.emitSrc_aon (c src : Nat) (b : List Byte) : (d.emitSrc c src b).aon = d.aon := rfl
@[simp] theorem Dev.emitSrc_pwr (c src : Nat) (b : List Byte) : (d.emitSrc c src b).pwr = d.pwr := rfl
@[simp] theorem Dev.emitSrc_thm (c src : Nat) (b : List Byte) : (d.emitSrc c src b).thm = d.thm := rfl
@[simp] theorem Dev.emitSrc_nvm (c src : Nat) (b : List Byte) : (d.emitSrc c src b).nvm = d.nvm := rfl
@[simp] theorem Dev.emitSrc_boot (c src : Nat) (b : List Byte) : (d.emitSrc c src b).boot = d.boot := rfl
@[simp] theorem Dev.emitSrc_tap (c src : Nat) (b : List Byte) : (d.emitSrc c src b).tap = d.tap := rfl
@[simp] theorem Dev.emitSrc_reqs (c src : Nat) (b : List Byte) : (d.emitSrc c src b).reqs = d.reqs := rfl
@[simp] theorem Dev.emitSrc_frames (c src : Nat) (b : List Byte) : (d.emitSrc c src b).frames = d.frames := rfl
@[simp] theorem Dev.emitSrc_nextFrame (c src : Nat) (b : List Byte) : (d.emitSrc c src b).nextFrame = d.nextFrame := rfl
@[simp] theorem Dev.emitSrc_gens (c src : Nat) (b : List Byte) : (d.emitSrc c src b).gens = d.gens := rfl
@[simp] theorem Dev.emitSrc_pipe (c src : Nat) (b : List Byte) : (d.emitSrc c src b).pipe = d.pipe := rfl
@[simp] theorem Dev.emitSrc_refs (c src : Nat) (b : List Byte) : (d.emitSrc c src b).refs = d.refs := rfl
@[simp] theorem Dev.emitSrc_bls (c src : Nat) (b : List Byte) : (d.emitSrc c src b).bls = d.bls := rfl
@[simp] theorem Dev.emitSrc_hmp (c src : Nat) (b : List Byte) : (d.emitSrc c src b).hmp = d.hmp := rfl
@[simp] theorem Dev.emitSrc_burst (c src : Nat) (b : List Byte) : (d.emitSrc c src b).burst = d.burst := rfl
@[simp] theorem Dev.emitSrc_views (c src : Nat) (b : List Byte) : (d.emitSrc c src b).views = d.views := rfl
@[simp] theorem Dev.emitSrc_encs (c src : Nat) (b : List Byte) : (d.emitSrc c src b).encs = d.encs := rfl
@[simp] theorem Dev.emitSrc_recs (c src : Nat) (b : List Byte) : (d.emitSrc c src b).recs = d.recs := rfl
@[simp] theorem Dev.emitSrc_defs (c src : Nat) (b : List Byte) : (d.emitSrc c src b).defs = d.defs := rfl
@[simp] theorem Dev.emitSrc_lsc (c src : Nat) (b : List Byte) : (d.emitSrc c src b).lsc = d.lsc := rfl
@[simp] theorem Dev.emitSrc_ary (c src : Nat) (b : List Byte) : (d.emitSrc c src b).ary = d.ary := rfl
@[simp] theorem Dev.emitSrc_eng (c src : Nat) (b : List Byte) : (d.emitSrc c src b).eng = d.eng := rfl
@[simp] theorem Dev.emitSrc_trg (c src : Nat) (b : List Byte) : (d.emitSrc c src b).trg = d.trg := rfl
@[simp] theorem Dev.emitSrc_pe (c src : Nat) (b : List Byte) : (d.emitSrc c src b).pe = d.pe := rfl
@[simp] theorem Dev.emitSrc_pio (c src : Nat) (b : List Byte) : (d.emitSrc c src b).pio = d.pio := rfl
@[simp] theorem Dev.emitSrc_pioF (c src : Nat) (b : List Byte) : (d.emitSrc c src b).pioF = d.pioF := rfl
@[simp] theorem Dev.emitSrc_pioAt (c src : Nat) (b : List Byte) : (d.emitSrc c src b).pioAt = d.pioAt := rfl
@[simp] theorem Dev.emitSrc_tx (c src : Nat) (b : List Byte) : (d.emitSrc c src b).tx = d.tx := rfl
@[simp] theorem Dev.emitSrc_lanes (c src : Nat) (b : List Byte) : (d.emitSrc c src b).lanes = d.lanes := rfl
@[simp] theorem Dev.emitSrc_grps (c src : Nat) (b : List Byte) : (d.emitSrc c src b).grps = d.grps := rfl
@[simp] theorem Dev.emitSrc_sp (c src : Nat) (b : List Byte) : (d.emitSrc c src b).sp = d.sp := rfl
@[simp] theorem Dev.emitSrc_dlv (c src : Nat) (b : List Byte) : (d.emitSrc c src b).dlv = d.dlv := rfl
@[simp] theorem Dev.emitSrc_hlp (c src : Nat) (b : List Byte) : (d.emitSrc c src b).hlp = d.hlp := rfl

/-! ## output -/

@[simp] theorem Dev.output_cyc (p : Port) (ws : List Word) : (d.output p ws).cyc = d.cyc := by cases p <;> rfl
@[simp] theorem Dev.output_freeCtr (p : Port) (ws : List Word) : (d.output p ws).freeCtr = d.freeCtr := by cases p <;> rfl
@[simp] theorem Dev.output_regs (p : Port) (ws : List Word) : (d.output p ws).regs = d.regs := by cases p <;> rfl
@[simp] theorem Dev.output_act (p : Port) (ws : List Word) : (d.output p ws).act = d.act := by cases p <;> rfl
@[simp] theorem Dev.output_evq (p : Port) (ws : List Word) : (d.output p ws).evq = d.evq := by cases p <;> rfl
@[simp] theorem Dev.output_com (p : Port) (ws : List Word) : (d.output p ws).com = d.com := by cases p <;> rfl
@[simp] theorem Dev.output_mbx (p : Port) (ws : List Word) : (d.output p ws).mbx = d.mbx := by cases p <;> rfl
@[simp] theorem Dev.output_time (p : Port) (ws : List Word) : (d.output p ws).time = d.time := by cases p <;> rfl
@[simp] theorem Dev.output_clk (p : Port) (ws : List Word) : (d.output p ws).clk = d.clk := by cases p <;> rfl
@[simp] theorem Dev.output_aon (p : Port) (ws : List Word) : (d.output p ws).aon = d.aon := by cases p <;> rfl
@[simp] theorem Dev.output_pwr (p : Port) (ws : List Word) : (d.output p ws).pwr = d.pwr := by cases p <;> rfl
@[simp] theorem Dev.output_thm (p : Port) (ws : List Word) : (d.output p ws).thm = d.thm := by cases p <;> rfl
@[simp] theorem Dev.output_nvm (p : Port) (ws : List Word) : (d.output p ws).nvm = d.nvm := by cases p <;> rfl
@[simp] theorem Dev.output_boot (p : Port) (ws : List Word) : (d.output p ws).boot = d.boot := by cases p <;> rfl
@[simp] theorem Dev.output_tap (p : Port) (ws : List Word) : (d.output p ws).tap = d.tap := by cases p <;> rfl
@[simp] theorem Dev.output_reqs (p : Port) (ws : List Word) : (d.output p ws).reqs = d.reqs := by cases p <;> rfl
@[simp] theorem Dev.output_frames (p : Port) (ws : List Word) : (d.output p ws).frames = d.frames := by cases p <;> rfl
@[simp] theorem Dev.output_nextFrame (p : Port) (ws : List Word) : (d.output p ws).nextFrame = d.nextFrame := by cases p <;> rfl
@[simp] theorem Dev.output_gens (p : Port) (ws : List Word) : (d.output p ws).gens = d.gens := by cases p <;> rfl
@[simp] theorem Dev.output_pipe (p : Port) (ws : List Word) : (d.output p ws).pipe = d.pipe := by cases p <;> rfl
@[simp] theorem Dev.output_refs (p : Port) (ws : List Word) : (d.output p ws).refs = d.refs := by cases p <;> rfl
@[simp] theorem Dev.output_bls (p : Port) (ws : List Word) : (d.output p ws).bls = d.bls := by cases p <;> rfl
@[simp] theorem Dev.output_hmp (p : Port) (ws : List Word) : (d.output p ws).hmp = d.hmp := by cases p <;> rfl
@[simp] theorem Dev.output_burst (p : Port) (ws : List Word) : (d.output p ws).burst = d.burst := by cases p <;> rfl
@[simp] theorem Dev.output_views (p : Port) (ws : List Word) : (d.output p ws).views = d.views := by cases p <;> rfl
@[simp] theorem Dev.output_encs (p : Port) (ws : List Word) : (d.output p ws).encs = d.encs := by cases p <;> rfl
@[simp] theorem Dev.output_recs (p : Port) (ws : List Word) : (d.output p ws).recs = d.recs := by cases p <;> rfl
@[simp] theorem Dev.output_defs (p : Port) (ws : List Word) : (d.output p ws).defs = d.defs := by cases p <;> rfl
@[simp] theorem Dev.output_lsc (p : Port) (ws : List Word) : (d.output p ws).lsc = d.lsc := by cases p <;> rfl
@[simp] theorem Dev.output_ary (p : Port) (ws : List Word) : (d.output p ws).ary = d.ary := by cases p <;> rfl
@[simp] theorem Dev.output_eng (p : Port) (ws : List Word) : (d.output p ws).eng = d.eng := by cases p <;> rfl
@[simp] theorem Dev.output_trg (p : Port) (ws : List Word) : (d.output p ws).trg = d.trg := by cases p <;> rfl
@[simp] theorem Dev.output_pe (p : Port) (ws : List Word) : (d.output p ws).pe = d.pe := by cases p <;> rfl
@[simp] theorem Dev.output_pio (p : Port) (ws : List Word) : (d.output p ws).pio = d.pio := by cases p <;> rfl
@[simp] theorem Dev.output_pioF (p : Port) (ws : List Word) : (d.output p ws).pioF = d.pioF := by cases p <;> rfl
@[simp] theorem Dev.output_pioAt (p : Port) (ws : List Word) : (d.output p ws).pioAt = d.pioAt := by cases p <;> rfl
@[simp] theorem Dev.output_tx (p : Port) (ws : List Word) : (d.output p ws).tx = d.tx := by cases p <;> rfl
@[simp] theorem Dev.output_lanes (p : Port) (ws : List Word) : (d.output p ws).lanes = d.lanes := by cases p <;> rfl
@[simp] theorem Dev.output_grps (p : Port) (ws : List Word) : (d.output p ws).grps = d.grps := by cases p <;> rfl
@[simp] theorem Dev.output_sp (p : Port) (ws : List Word) : (d.output p ws).sp = d.sp := by cases p <;> rfl
@[simp] theorem Dev.output_dlv (p : Port) (ws : List Word) : (d.output p ws).dlv = d.dlv := by cases p <;> rfl
@[simp] theorem Dev.output_hlp (p : Port) (ws : List Word) : (d.output p ws).hlp = d.hlp := by cases p <;> rfl

/-! ## onCom -/

@[simp] theorem Dev.onCom_cyc (f : CommitSt → CommitSt) : (d.onCom f).cyc = d.cyc := rfl
@[simp] theorem Dev.onCom_freeCtr (f : CommitSt → CommitSt) : (d.onCom f).freeCtr = d.freeCtr := rfl
@[simp] theorem Dev.onCom_regs (f : CommitSt → CommitSt) : (d.onCom f).regs = d.regs := rfl
@[simp] theorem Dev.onCom_act (f : CommitSt → CommitSt) : (d.onCom f).act = d.act := rfl
@[simp] theorem Dev.onCom_evq (f : CommitSt → CommitSt) : (d.onCom f).evq = d.evq := rfl
@[simp] theorem Dev.onCom_com (f : CommitSt → CommitSt) : (d.onCom f).com = f d.com := rfl
@[simp] theorem Dev.onCom_out (f : CommitSt → CommitSt) : (d.onCom f).out = d.out := rfl
@[simp] theorem Dev.onCom_mbx (f : CommitSt → CommitSt) : (d.onCom f).mbx = d.mbx := rfl
@[simp] theorem Dev.onCom_time (f : CommitSt → CommitSt) : (d.onCom f).time = d.time := rfl
@[simp] theorem Dev.onCom_clk (f : CommitSt → CommitSt) : (d.onCom f).clk = d.clk := rfl
@[simp] theorem Dev.onCom_aon (f : CommitSt → CommitSt) : (d.onCom f).aon = d.aon := rfl
@[simp] theorem Dev.onCom_pwr (f : CommitSt → CommitSt) : (d.onCom f).pwr = d.pwr := rfl
@[simp] theorem Dev.onCom_thm (f : CommitSt → CommitSt) : (d.onCom f).thm = d.thm := rfl
@[simp] theorem Dev.onCom_nvm (f : CommitSt → CommitSt) : (d.onCom f).nvm = d.nvm := rfl
@[simp] theorem Dev.onCom_boot (f : CommitSt → CommitSt) : (d.onCom f).boot = d.boot := rfl
@[simp] theorem Dev.onCom_tap (f : CommitSt → CommitSt) : (d.onCom f).tap = d.tap := rfl
@[simp] theorem Dev.onCom_reqs (f : CommitSt → CommitSt) : (d.onCom f).reqs = d.reqs := rfl
@[simp] theorem Dev.onCom_frames (f : CommitSt → CommitSt) : (d.onCom f).frames = d.frames := rfl
@[simp] theorem Dev.onCom_nextFrame (f : CommitSt → CommitSt) : (d.onCom f).nextFrame = d.nextFrame := rfl
@[simp] theorem Dev.onCom_gens (f : CommitSt → CommitSt) : (d.onCom f).gens = d.gens := rfl
@[simp] theorem Dev.onCom_pipe (f : CommitSt → CommitSt) : (d.onCom f).pipe = d.pipe := rfl
@[simp] theorem Dev.onCom_refs (f : CommitSt → CommitSt) : (d.onCom f).refs = d.refs := rfl
@[simp] theorem Dev.onCom_bls (f : CommitSt → CommitSt) : (d.onCom f).bls = d.bls := rfl
@[simp] theorem Dev.onCom_hmp (f : CommitSt → CommitSt) : (d.onCom f).hmp = d.hmp := rfl
@[simp] theorem Dev.onCom_burst (f : CommitSt → CommitSt) : (d.onCom f).burst = d.burst := rfl
@[simp] theorem Dev.onCom_views (f : CommitSt → CommitSt) : (d.onCom f).views = d.views := rfl
@[simp] theorem Dev.onCom_encs (f : CommitSt → CommitSt) : (d.onCom f).encs = d.encs := rfl
@[simp] theorem Dev.onCom_recs (f : CommitSt → CommitSt) : (d.onCom f).recs = d.recs := rfl
@[simp] theorem Dev.onCom_defs (f : CommitSt → CommitSt) : (d.onCom f).defs = d.defs := rfl
@[simp] theorem Dev.onCom_lsc (f : CommitSt → CommitSt) : (d.onCom f).lsc = d.lsc := rfl
@[simp] theorem Dev.onCom_ary (f : CommitSt → CommitSt) : (d.onCom f).ary = d.ary := rfl
@[simp] theorem Dev.onCom_eng (f : CommitSt → CommitSt) : (d.onCom f).eng = d.eng := rfl
@[simp] theorem Dev.onCom_trg (f : CommitSt → CommitSt) : (d.onCom f).trg = d.trg := rfl
@[simp] theorem Dev.onCom_pe (f : CommitSt → CommitSt) : (d.onCom f).pe = d.pe := rfl
@[simp] theorem Dev.onCom_pio (f : CommitSt → CommitSt) : (d.onCom f).pio = d.pio := rfl
@[simp] theorem Dev.onCom_pioF (f : CommitSt → CommitSt) : (d.onCom f).pioF = d.pioF := rfl
@[simp] theorem Dev.onCom_pioAt (f : CommitSt → CommitSt) : (d.onCom f).pioAt = d.pioAt := rfl
@[simp] theorem Dev.onCom_tx (f : CommitSt → CommitSt) : (d.onCom f).tx = d.tx := rfl
@[simp] theorem Dev.onCom_lanes (f : CommitSt → CommitSt) : (d.onCom f).lanes = d.lanes := rfl
@[simp] theorem Dev.onCom_grps (f : CommitSt → CommitSt) : (d.onCom f).grps = d.grps := rfl
@[simp] theorem Dev.onCom_sp (f : CommitSt → CommitSt) : (d.onCom f).sp = d.sp := rfl
@[simp] theorem Dev.onCom_dlv (f : CommitSt → CommitSt) : (d.onCom f).dlv = d.dlv := rfl
@[simp] theorem Dev.onCom_hlp (f : CommitSt → CommitSt) : (d.onCom f).hlp = d.hlp := rfl

/-! ## onAry -/

@[simp] theorem Dev.onAry_cyc (f : ArySt → ArySt) : (d.onAry f).cyc = d.cyc := rfl
@[simp] theorem Dev.onAry_freeCtr (f : ArySt → ArySt) : (d.onAry f).freeCtr = d.freeCtr := rfl
@[simp] theorem Dev.onAry_regs (f : ArySt → ArySt) : (d.onAry f).regs = d.regs := rfl
@[simp] theorem Dev.onAry_act (f : ArySt → ArySt) : (d.onAry f).act = d.act := rfl
@[simp] theorem Dev.onAry_evq (f : ArySt → ArySt) : (d.onAry f).evq = d.evq := rfl
@[simp] theorem Dev.onAry_com (f : ArySt → ArySt) : (d.onAry f).com = d.com := rfl
@[simp] theorem Dev.onAry_out (f : ArySt → ArySt) : (d.onAry f).out = d.out := rfl
@[simp] theorem Dev.onAry_mbx (f : ArySt → ArySt) : (d.onAry f).mbx = d.mbx := rfl
@[simp] theorem Dev.onAry_time (f : ArySt → ArySt) : (d.onAry f).time = d.time := rfl
@[simp] theorem Dev.onAry_clk (f : ArySt → ArySt) : (d.onAry f).clk = d.clk := rfl
@[simp] theorem Dev.onAry_aon (f : ArySt → ArySt) : (d.onAry f).aon = d.aon := rfl
@[simp] theorem Dev.onAry_pwr (f : ArySt → ArySt) : (d.onAry f).pwr = d.pwr := rfl
@[simp] theorem Dev.onAry_thm (f : ArySt → ArySt) : (d.onAry f).thm = d.thm := rfl
@[simp] theorem Dev.onAry_nvm (f : ArySt → ArySt) : (d.onAry f).nvm = d.nvm := rfl
@[simp] theorem Dev.onAry_boot (f : ArySt → ArySt) : (d.onAry f).boot = d.boot := rfl
@[simp] theorem Dev.onAry_tap (f : ArySt → ArySt) : (d.onAry f).tap = d.tap := rfl
@[simp] theorem Dev.onAry_reqs (f : ArySt → ArySt) : (d.onAry f).reqs = d.reqs := rfl
@[simp] theorem Dev.onAry_frames (f : ArySt → ArySt) : (d.onAry f).frames = d.frames := rfl
@[simp] theorem Dev.onAry_nextFrame (f : ArySt → ArySt) : (d.onAry f).nextFrame = d.nextFrame := rfl
@[simp] theorem Dev.onAry_gens (f : ArySt → ArySt) : (d.onAry f).gens = d.gens := rfl
@[simp] theorem Dev.onAry_pipe (f : ArySt → ArySt) : (d.onAry f).pipe = d.pipe := rfl
@[simp] theorem Dev.onAry_refs (f : ArySt → ArySt) : (d.onAry f).refs = d.refs := rfl
@[simp] theorem Dev.onAry_bls (f : ArySt → ArySt) : (d.onAry f).bls = d.bls := rfl
@[simp] theorem Dev.onAry_hmp (f : ArySt → ArySt) : (d.onAry f).hmp = d.hmp := rfl
@[simp] theorem Dev.onAry_burst (f : ArySt → ArySt) : (d.onAry f).burst = d.burst := rfl
@[simp] theorem Dev.onAry_views (f : ArySt → ArySt) : (d.onAry f).views = d.views := rfl
@[simp] theorem Dev.onAry_encs (f : ArySt → ArySt) : (d.onAry f).encs = d.encs := rfl
@[simp] theorem Dev.onAry_recs (f : ArySt → ArySt) : (d.onAry f).recs = d.recs := rfl
@[simp] theorem Dev.onAry_defs (f : ArySt → ArySt) : (d.onAry f).defs = d.defs := rfl
@[simp] theorem Dev.onAry_lsc (f : ArySt → ArySt) : (d.onAry f).lsc = d.lsc := rfl
@[simp] theorem Dev.onAry_ary (f : ArySt → ArySt) : (d.onAry f).ary = f d.ary := rfl
@[simp] theorem Dev.onAry_eng (f : ArySt → ArySt) : (d.onAry f).eng = d.eng := rfl
@[simp] theorem Dev.onAry_trg (f : ArySt → ArySt) : (d.onAry f).trg = d.trg := rfl
@[simp] theorem Dev.onAry_pe (f : ArySt → ArySt) : (d.onAry f).pe = d.pe := rfl
@[simp] theorem Dev.onAry_pio (f : ArySt → ArySt) : (d.onAry f).pio = d.pio := rfl
@[simp] theorem Dev.onAry_pioF (f : ArySt → ArySt) : (d.onAry f).pioF = d.pioF := rfl
@[simp] theorem Dev.onAry_pioAt (f : ArySt → ArySt) : (d.onAry f).pioAt = d.pioAt := rfl
@[simp] theorem Dev.onAry_tx (f : ArySt → ArySt) : (d.onAry f).tx = d.tx := rfl
@[simp] theorem Dev.onAry_lanes (f : ArySt → ArySt) : (d.onAry f).lanes = d.lanes := rfl
@[simp] theorem Dev.onAry_grps (f : ArySt → ArySt) : (d.onAry f).grps = d.grps := rfl
@[simp] theorem Dev.onAry_sp (f : ArySt → ArySt) : (d.onAry f).sp = d.sp := rfl
@[simp] theorem Dev.onAry_dlv (f : ArySt → ArySt) : (d.onAry f).dlv = d.dlv := rfl
@[simp] theorem Dev.onAry_hlp (f : ArySt → ArySt) : (d.onAry f).hlp = d.hlp := rfl

/-! ## onBurst -/

@[simp] theorem Dev.onBurst_cyc (f : BurstSt → BurstSt) : (d.onBurst f).cyc = d.cyc := rfl
@[simp] theorem Dev.onBurst_freeCtr (f : BurstSt → BurstSt) : (d.onBurst f).freeCtr = d.freeCtr := rfl
@[simp] theorem Dev.onBurst_regs (f : BurstSt → BurstSt) : (d.onBurst f).regs = d.regs := rfl
@[simp] theorem Dev.onBurst_act (f : BurstSt → BurstSt) : (d.onBurst f).act = d.act := rfl
@[simp] theorem Dev.onBurst_evq (f : BurstSt → BurstSt) : (d.onBurst f).evq = d.evq := rfl
@[simp] theorem Dev.onBurst_com (f : BurstSt → BurstSt) : (d.onBurst f).com = d.com := rfl
@[simp] theorem Dev.onBurst_out (f : BurstSt → BurstSt) : (d.onBurst f).out = d.out := rfl
@[simp] theorem Dev.onBurst_mbx (f : BurstSt → BurstSt) : (d.onBurst f).mbx = d.mbx := rfl
@[simp] theorem Dev.onBurst_time (f : BurstSt → BurstSt) : (d.onBurst f).time = d.time := rfl
@[simp] theorem Dev.onBurst_clk (f : BurstSt → BurstSt) : (d.onBurst f).clk = d.clk := rfl
@[simp] theorem Dev.onBurst_aon (f : BurstSt → BurstSt) : (d.onBurst f).aon = d.aon := rfl
@[simp] theorem Dev.onBurst_pwr (f : BurstSt → BurstSt) : (d.onBurst f).pwr = d.pwr := rfl
@[simp] theorem Dev.onBurst_thm (f : BurstSt → BurstSt) : (d.onBurst f).thm = d.thm := rfl
@[simp] theorem Dev.onBurst_nvm (f : BurstSt → BurstSt) : (d.onBurst f).nvm = d.nvm := rfl
@[simp] theorem Dev.onBurst_boot (f : BurstSt → BurstSt) : (d.onBurst f).boot = d.boot := rfl
@[simp] theorem Dev.onBurst_tap (f : BurstSt → BurstSt) : (d.onBurst f).tap = d.tap := rfl
@[simp] theorem Dev.onBurst_reqs (f : BurstSt → BurstSt) : (d.onBurst f).reqs = d.reqs := rfl
@[simp] theorem Dev.onBurst_frames (f : BurstSt → BurstSt) : (d.onBurst f).frames = d.frames := rfl
@[simp] theorem Dev.onBurst_nextFrame (f : BurstSt → BurstSt) : (d.onBurst f).nextFrame = d.nextFrame := rfl
@[simp] theorem Dev.onBurst_gens (f : BurstSt → BurstSt) : (d.onBurst f).gens = d.gens := rfl
@[simp] theorem Dev.onBurst_pipe (f : BurstSt → BurstSt) : (d.onBurst f).pipe = d.pipe := rfl
@[simp] theorem Dev.onBurst_refs (f : BurstSt → BurstSt) : (d.onBurst f).refs = d.refs := rfl
@[simp] theorem Dev.onBurst_bls (f : BurstSt → BurstSt) : (d.onBurst f).bls = d.bls := rfl
@[simp] theorem Dev.onBurst_hmp (f : BurstSt → BurstSt) : (d.onBurst f).hmp = d.hmp := rfl
@[simp] theorem Dev.onBurst_burst (f : BurstSt → BurstSt) : (d.onBurst f).burst = f d.burst := rfl
@[simp] theorem Dev.onBurst_views (f : BurstSt → BurstSt) : (d.onBurst f).views = d.views := rfl
@[simp] theorem Dev.onBurst_encs (f : BurstSt → BurstSt) : (d.onBurst f).encs = d.encs := rfl
@[simp] theorem Dev.onBurst_recs (f : BurstSt → BurstSt) : (d.onBurst f).recs = d.recs := rfl
@[simp] theorem Dev.onBurst_defs (f : BurstSt → BurstSt) : (d.onBurst f).defs = d.defs := rfl
@[simp] theorem Dev.onBurst_lsc (f : BurstSt → BurstSt) : (d.onBurst f).lsc = d.lsc := rfl
@[simp] theorem Dev.onBurst_ary (f : BurstSt → BurstSt) : (d.onBurst f).ary = d.ary := rfl
@[simp] theorem Dev.onBurst_eng (f : BurstSt → BurstSt) : (d.onBurst f).eng = d.eng := rfl
@[simp] theorem Dev.onBurst_trg (f : BurstSt → BurstSt) : (d.onBurst f).trg = d.trg := rfl
@[simp] theorem Dev.onBurst_pe (f : BurstSt → BurstSt) : (d.onBurst f).pe = d.pe := rfl
@[simp] theorem Dev.onBurst_pio (f : BurstSt → BurstSt) : (d.onBurst f).pio = d.pio := rfl
@[simp] theorem Dev.onBurst_pioF (f : BurstSt → BurstSt) : (d.onBurst f).pioF = d.pioF := rfl
@[simp] theorem Dev.onBurst_pioAt (f : BurstSt → BurstSt) : (d.onBurst f).pioAt = d.pioAt := rfl
@[simp] theorem Dev.onBurst_tx (f : BurstSt → BurstSt) : (d.onBurst f).tx = d.tx := rfl
@[simp] theorem Dev.onBurst_lanes (f : BurstSt → BurstSt) : (d.onBurst f).lanes = d.lanes := rfl
@[simp] theorem Dev.onBurst_grps (f : BurstSt → BurstSt) : (d.onBurst f).grps = d.grps := rfl
@[simp] theorem Dev.onBurst_sp (f : BurstSt → BurstSt) : (d.onBurst f).sp = d.sp := rfl
@[simp] theorem Dev.onBurst_dlv (f : BurstSt → BurstSt) : (d.onBurst f).dlv = d.dlv := rfl
@[simp] theorem Dev.onBurst_hlp (f : BurstSt → BurstSt) : (d.onBurst f).hlp = d.hlp := rfl

/-! ## onHmp -/

@[simp] theorem Dev.onHmp_cyc (f : HmpSt → HmpSt) : (d.onHmp f).cyc = d.cyc := rfl
@[simp] theorem Dev.onHmp_freeCtr (f : HmpSt → HmpSt) : (d.onHmp f).freeCtr = d.freeCtr := rfl
@[simp] theorem Dev.onHmp_regs (f : HmpSt → HmpSt) : (d.onHmp f).regs = d.regs := rfl
@[simp] theorem Dev.onHmp_act (f : HmpSt → HmpSt) : (d.onHmp f).act = d.act := rfl
@[simp] theorem Dev.onHmp_evq (f : HmpSt → HmpSt) : (d.onHmp f).evq = d.evq := rfl
@[simp] theorem Dev.onHmp_com (f : HmpSt → HmpSt) : (d.onHmp f).com = d.com := rfl
@[simp] theorem Dev.onHmp_out (f : HmpSt → HmpSt) : (d.onHmp f).out = d.out := rfl
@[simp] theorem Dev.onHmp_mbx (f : HmpSt → HmpSt) : (d.onHmp f).mbx = d.mbx := rfl
@[simp] theorem Dev.onHmp_time (f : HmpSt → HmpSt) : (d.onHmp f).time = d.time := rfl
@[simp] theorem Dev.onHmp_clk (f : HmpSt → HmpSt) : (d.onHmp f).clk = d.clk := rfl
@[simp] theorem Dev.onHmp_aon (f : HmpSt → HmpSt) : (d.onHmp f).aon = d.aon := rfl
@[simp] theorem Dev.onHmp_pwr (f : HmpSt → HmpSt) : (d.onHmp f).pwr = d.pwr := rfl
@[simp] theorem Dev.onHmp_thm (f : HmpSt → HmpSt) : (d.onHmp f).thm = d.thm := rfl
@[simp] theorem Dev.onHmp_nvm (f : HmpSt → HmpSt) : (d.onHmp f).nvm = d.nvm := rfl
@[simp] theorem Dev.onHmp_boot (f : HmpSt → HmpSt) : (d.onHmp f).boot = d.boot := rfl
@[simp] theorem Dev.onHmp_tap (f : HmpSt → HmpSt) : (d.onHmp f).tap = d.tap := rfl
@[simp] theorem Dev.onHmp_reqs (f : HmpSt → HmpSt) : (d.onHmp f).reqs = d.reqs := rfl
@[simp] theorem Dev.onHmp_frames (f : HmpSt → HmpSt) : (d.onHmp f).frames = d.frames := rfl
@[simp] theorem Dev.onHmp_nextFrame (f : HmpSt → HmpSt) : (d.onHmp f).nextFrame = d.nextFrame := rfl
@[simp] theorem Dev.onHmp_gens (f : HmpSt → HmpSt) : (d.onHmp f).gens = d.gens := rfl
@[simp] theorem Dev.onHmp_pipe (f : HmpSt → HmpSt) : (d.onHmp f).pipe = d.pipe := rfl
@[simp] theorem Dev.onHmp_refs (f : HmpSt → HmpSt) : (d.onHmp f).refs = d.refs := rfl
@[simp] theorem Dev.onHmp_bls (f : HmpSt → HmpSt) : (d.onHmp f).bls = d.bls := rfl
@[simp] theorem Dev.onHmp_hmp (f : HmpSt → HmpSt) : (d.onHmp f).hmp = f d.hmp := rfl
@[simp] theorem Dev.onHmp_burst (f : HmpSt → HmpSt) : (d.onHmp f).burst = d.burst := rfl
@[simp] theorem Dev.onHmp_views (f : HmpSt → HmpSt) : (d.onHmp f).views = d.views := rfl
@[simp] theorem Dev.onHmp_encs (f : HmpSt → HmpSt) : (d.onHmp f).encs = d.encs := rfl
@[simp] theorem Dev.onHmp_recs (f : HmpSt → HmpSt) : (d.onHmp f).recs = d.recs := rfl
@[simp] theorem Dev.onHmp_defs (f : HmpSt → HmpSt) : (d.onHmp f).defs = d.defs := rfl
@[simp] theorem Dev.onHmp_lsc (f : HmpSt → HmpSt) : (d.onHmp f).lsc = d.lsc := rfl
@[simp] theorem Dev.onHmp_ary (f : HmpSt → HmpSt) : (d.onHmp f).ary = d.ary := rfl
@[simp] theorem Dev.onHmp_eng (f : HmpSt → HmpSt) : (d.onHmp f).eng = d.eng := rfl
@[simp] theorem Dev.onHmp_trg (f : HmpSt → HmpSt) : (d.onHmp f).trg = d.trg := rfl
@[simp] theorem Dev.onHmp_pe (f : HmpSt → HmpSt) : (d.onHmp f).pe = d.pe := rfl
@[simp] theorem Dev.onHmp_pio (f : HmpSt → HmpSt) : (d.onHmp f).pio = d.pio := rfl
@[simp] theorem Dev.onHmp_pioF (f : HmpSt → HmpSt) : (d.onHmp f).pioF = d.pioF := rfl
@[simp] theorem Dev.onHmp_pioAt (f : HmpSt → HmpSt) : (d.onHmp f).pioAt = d.pioAt := rfl
@[simp] theorem Dev.onHmp_tx (f : HmpSt → HmpSt) : (d.onHmp f).tx = d.tx := rfl
@[simp] theorem Dev.onHmp_lanes (f : HmpSt → HmpSt) : (d.onHmp f).lanes = d.lanes := rfl
@[simp] theorem Dev.onHmp_grps (f : HmpSt → HmpSt) : (d.onHmp f).grps = d.grps := rfl
@[simp] theorem Dev.onHmp_sp (f : HmpSt → HmpSt) : (d.onHmp f).sp = d.sp := rfl
@[simp] theorem Dev.onHmp_dlv (f : HmpSt → HmpSt) : (d.onHmp f).dlv = d.dlv := rfl
@[simp] theorem Dev.onHmp_hlp (f : HmpSt → HmpSt) : (d.onHmp f).hlp = d.hlp := rfl

/-! ## onDlv -/

@[simp] theorem Dev.onDlv_cyc (f : DlvSt → DlvSt) : (d.onDlv f).cyc = d.cyc := rfl
@[simp] theorem Dev.onDlv_freeCtr (f : DlvSt → DlvSt) : (d.onDlv f).freeCtr = d.freeCtr := rfl
@[simp] theorem Dev.onDlv_regs (f : DlvSt → DlvSt) : (d.onDlv f).regs = d.regs := rfl
@[simp] theorem Dev.onDlv_act (f : DlvSt → DlvSt) : (d.onDlv f).act = d.act := rfl
@[simp] theorem Dev.onDlv_evq (f : DlvSt → DlvSt) : (d.onDlv f).evq = d.evq := rfl
@[simp] theorem Dev.onDlv_com (f : DlvSt → DlvSt) : (d.onDlv f).com = d.com := rfl
@[simp] theorem Dev.onDlv_out (f : DlvSt → DlvSt) : (d.onDlv f).out = d.out := rfl
@[simp] theorem Dev.onDlv_mbx (f : DlvSt → DlvSt) : (d.onDlv f).mbx = d.mbx := rfl
@[simp] theorem Dev.onDlv_time (f : DlvSt → DlvSt) : (d.onDlv f).time = d.time := rfl
@[simp] theorem Dev.onDlv_clk (f : DlvSt → DlvSt) : (d.onDlv f).clk = d.clk := rfl
@[simp] theorem Dev.onDlv_aon (f : DlvSt → DlvSt) : (d.onDlv f).aon = d.aon := rfl
@[simp] theorem Dev.onDlv_pwr (f : DlvSt → DlvSt) : (d.onDlv f).pwr = d.pwr := rfl
@[simp] theorem Dev.onDlv_thm (f : DlvSt → DlvSt) : (d.onDlv f).thm = d.thm := rfl
@[simp] theorem Dev.onDlv_nvm (f : DlvSt → DlvSt) : (d.onDlv f).nvm = d.nvm := rfl
@[simp] theorem Dev.onDlv_boot (f : DlvSt → DlvSt) : (d.onDlv f).boot = d.boot := rfl
@[simp] theorem Dev.onDlv_tap (f : DlvSt → DlvSt) : (d.onDlv f).tap = d.tap := rfl
@[simp] theorem Dev.onDlv_reqs (f : DlvSt → DlvSt) : (d.onDlv f).reqs = d.reqs := rfl
@[simp] theorem Dev.onDlv_frames (f : DlvSt → DlvSt) : (d.onDlv f).frames = d.frames := rfl
@[simp] theorem Dev.onDlv_nextFrame (f : DlvSt → DlvSt) : (d.onDlv f).nextFrame = d.nextFrame := rfl
@[simp] theorem Dev.onDlv_gens (f : DlvSt → DlvSt) : (d.onDlv f).gens = d.gens := rfl
@[simp] theorem Dev.onDlv_pipe (f : DlvSt → DlvSt) : (d.onDlv f).pipe = d.pipe := rfl
@[simp] theorem Dev.onDlv_refs (f : DlvSt → DlvSt) : (d.onDlv f).refs = d.refs := rfl
@[simp] theorem Dev.onDlv_bls (f : DlvSt → DlvSt) : (d.onDlv f).bls = d.bls := rfl
@[simp] theorem Dev.onDlv_hmp (f : DlvSt → DlvSt) : (d.onDlv f).hmp = d.hmp := rfl
@[simp] theorem Dev.onDlv_burst (f : DlvSt → DlvSt) : (d.onDlv f).burst = d.burst := rfl
@[simp] theorem Dev.onDlv_views (f : DlvSt → DlvSt) : (d.onDlv f).views = d.views := rfl
@[simp] theorem Dev.onDlv_encs (f : DlvSt → DlvSt) : (d.onDlv f).encs = d.encs := rfl
@[simp] theorem Dev.onDlv_recs (f : DlvSt → DlvSt) : (d.onDlv f).recs = d.recs := rfl
@[simp] theorem Dev.onDlv_defs (f : DlvSt → DlvSt) : (d.onDlv f).defs = d.defs := rfl
@[simp] theorem Dev.onDlv_lsc (f : DlvSt → DlvSt) : (d.onDlv f).lsc = d.lsc := rfl
@[simp] theorem Dev.onDlv_ary (f : DlvSt → DlvSt) : (d.onDlv f).ary = d.ary := rfl
@[simp] theorem Dev.onDlv_eng (f : DlvSt → DlvSt) : (d.onDlv f).eng = d.eng := rfl
@[simp] theorem Dev.onDlv_trg (f : DlvSt → DlvSt) : (d.onDlv f).trg = d.trg := rfl
@[simp] theorem Dev.onDlv_pe (f : DlvSt → DlvSt) : (d.onDlv f).pe = d.pe := rfl
@[simp] theorem Dev.onDlv_pio (f : DlvSt → DlvSt) : (d.onDlv f).pio = d.pio := rfl
@[simp] theorem Dev.onDlv_pioF (f : DlvSt → DlvSt) : (d.onDlv f).pioF = d.pioF := rfl
@[simp] theorem Dev.onDlv_pioAt (f : DlvSt → DlvSt) : (d.onDlv f).pioAt = d.pioAt := rfl
@[simp] theorem Dev.onDlv_tx (f : DlvSt → DlvSt) : (d.onDlv f).tx = d.tx := rfl
@[simp] theorem Dev.onDlv_lanes (f : DlvSt → DlvSt) : (d.onDlv f).lanes = d.lanes := rfl
@[simp] theorem Dev.onDlv_grps (f : DlvSt → DlvSt) : (d.onDlv f).grps = d.grps := rfl
@[simp] theorem Dev.onDlv_sp (f : DlvSt → DlvSt) : (d.onDlv f).sp = d.sp := rfl
@[simp] theorem Dev.onDlv_dlv (f : DlvSt → DlvSt) : (d.onDlv f).dlv = f d.dlv := rfl
@[simp] theorem Dev.onDlv_hlp (f : DlvSt → DlvSt) : (d.onDlv f).hlp = d.hlp := rfl

/-! ## onNvm -/

@[simp] theorem Dev.onNvm_cyc (f : NvmSt → NvmSt) : (d.onNvm f).cyc = d.cyc := rfl
@[simp] theorem Dev.onNvm_freeCtr (f : NvmSt → NvmSt) : (d.onNvm f).freeCtr = d.freeCtr := rfl
@[simp] theorem Dev.onNvm_regs (f : NvmSt → NvmSt) : (d.onNvm f).regs = d.regs := rfl
@[simp] theorem Dev.onNvm_act (f : NvmSt → NvmSt) : (d.onNvm f).act = d.act := rfl
@[simp] theorem Dev.onNvm_evq (f : NvmSt → NvmSt) : (d.onNvm f).evq = d.evq := rfl
@[simp] theorem Dev.onNvm_com (f : NvmSt → NvmSt) : (d.onNvm f).com = d.com := rfl
@[simp] theorem Dev.onNvm_out (f : NvmSt → NvmSt) : (d.onNvm f).out = d.out := rfl
@[simp] theorem Dev.onNvm_mbx (f : NvmSt → NvmSt) : (d.onNvm f).mbx = d.mbx := rfl
@[simp] theorem Dev.onNvm_time (f : NvmSt → NvmSt) : (d.onNvm f).time = d.time := rfl
@[simp] theorem Dev.onNvm_clk (f : NvmSt → NvmSt) : (d.onNvm f).clk = d.clk := rfl
@[simp] theorem Dev.onNvm_aon (f : NvmSt → NvmSt) : (d.onNvm f).aon = d.aon := rfl
@[simp] theorem Dev.onNvm_pwr (f : NvmSt → NvmSt) : (d.onNvm f).pwr = d.pwr := rfl
@[simp] theorem Dev.onNvm_thm (f : NvmSt → NvmSt) : (d.onNvm f).thm = d.thm := rfl
@[simp] theorem Dev.onNvm_nvm (f : NvmSt → NvmSt) : (d.onNvm f).nvm = f d.nvm := rfl
@[simp] theorem Dev.onNvm_boot (f : NvmSt → NvmSt) : (d.onNvm f).boot = d.boot := rfl
@[simp] theorem Dev.onNvm_tap (f : NvmSt → NvmSt) : (d.onNvm f).tap = d.tap := rfl
@[simp] theorem Dev.onNvm_reqs (f : NvmSt → NvmSt) : (d.onNvm f).reqs = d.reqs := rfl
@[simp] theorem Dev.onNvm_frames (f : NvmSt → NvmSt) : (d.onNvm f).frames = d.frames := rfl
@[simp] theorem Dev.onNvm_nextFrame (f : NvmSt → NvmSt) : (d.onNvm f).nextFrame = d.nextFrame := rfl
@[simp] theorem Dev.onNvm_gens (f : NvmSt → NvmSt) : (d.onNvm f).gens = d.gens := rfl
@[simp] theorem Dev.onNvm_pipe (f : NvmSt → NvmSt) : (d.onNvm f).pipe = d.pipe := rfl
@[simp] theorem Dev.onNvm_refs (f : NvmSt → NvmSt) : (d.onNvm f).refs = d.refs := rfl
@[simp] theorem Dev.onNvm_bls (f : NvmSt → NvmSt) : (d.onNvm f).bls = d.bls := rfl
@[simp] theorem Dev.onNvm_hmp (f : NvmSt → NvmSt) : (d.onNvm f).hmp = d.hmp := rfl
@[simp] theorem Dev.onNvm_burst (f : NvmSt → NvmSt) : (d.onNvm f).burst = d.burst := rfl
@[simp] theorem Dev.onNvm_views (f : NvmSt → NvmSt) : (d.onNvm f).views = d.views := rfl
@[simp] theorem Dev.onNvm_encs (f : NvmSt → NvmSt) : (d.onNvm f).encs = d.encs := rfl
@[simp] theorem Dev.onNvm_recs (f : NvmSt → NvmSt) : (d.onNvm f).recs = d.recs := rfl
@[simp] theorem Dev.onNvm_defs (f : NvmSt → NvmSt) : (d.onNvm f).defs = d.defs := rfl
@[simp] theorem Dev.onNvm_lsc (f : NvmSt → NvmSt) : (d.onNvm f).lsc = d.lsc := rfl
@[simp] theorem Dev.onNvm_ary (f : NvmSt → NvmSt) : (d.onNvm f).ary = d.ary := rfl
@[simp] theorem Dev.onNvm_eng (f : NvmSt → NvmSt) : (d.onNvm f).eng = d.eng := rfl
@[simp] theorem Dev.onNvm_trg (f : NvmSt → NvmSt) : (d.onNvm f).trg = d.trg := rfl
@[simp] theorem Dev.onNvm_pe (f : NvmSt → NvmSt) : (d.onNvm f).pe = d.pe := rfl
@[simp] theorem Dev.onNvm_pio (f : NvmSt → NvmSt) : (d.onNvm f).pio = d.pio := rfl
@[simp] theorem Dev.onNvm_pioF (f : NvmSt → NvmSt) : (d.onNvm f).pioF = d.pioF := rfl
@[simp] theorem Dev.onNvm_pioAt (f : NvmSt → NvmSt) : (d.onNvm f).pioAt = d.pioAt := rfl
@[simp] theorem Dev.onNvm_tx (f : NvmSt → NvmSt) : (d.onNvm f).tx = d.tx := rfl
@[simp] theorem Dev.onNvm_lanes (f : NvmSt → NvmSt) : (d.onNvm f).lanes = d.lanes := rfl
@[simp] theorem Dev.onNvm_grps (f : NvmSt → NvmSt) : (d.onNvm f).grps = d.grps := rfl
@[simp] theorem Dev.onNvm_sp (f : NvmSt → NvmSt) : (d.onNvm f).sp = d.sp := rfl
@[simp] theorem Dev.onNvm_dlv (f : NvmSt → NvmSt) : (d.onNvm f).dlv = d.dlv := rfl
@[simp] theorem Dev.onNvm_hlp (f : NvmSt → NvmSt) : (d.onNvm f).hlp = d.hlp := rfl

/-! ## onBoot -/

@[simp] theorem Dev.onBoot_cyc (f : BootSt → BootSt) : (d.onBoot f).cyc = d.cyc := rfl
@[simp] theorem Dev.onBoot_freeCtr (f : BootSt → BootSt) : (d.onBoot f).freeCtr = d.freeCtr := rfl
@[simp] theorem Dev.onBoot_regs (f : BootSt → BootSt) : (d.onBoot f).regs = d.regs := rfl
@[simp] theorem Dev.onBoot_act (f : BootSt → BootSt) : (d.onBoot f).act = d.act := rfl
@[simp] theorem Dev.onBoot_evq (f : BootSt → BootSt) : (d.onBoot f).evq = d.evq := rfl
@[simp] theorem Dev.onBoot_com (f : BootSt → BootSt) : (d.onBoot f).com = d.com := rfl
@[simp] theorem Dev.onBoot_out (f : BootSt → BootSt) : (d.onBoot f).out = d.out := rfl
@[simp] theorem Dev.onBoot_mbx (f : BootSt → BootSt) : (d.onBoot f).mbx = d.mbx := rfl
@[simp] theorem Dev.onBoot_time (f : BootSt → BootSt) : (d.onBoot f).time = d.time := rfl
@[simp] theorem Dev.onBoot_clk (f : BootSt → BootSt) : (d.onBoot f).clk = d.clk := rfl
@[simp] theorem Dev.onBoot_aon (f : BootSt → BootSt) : (d.onBoot f).aon = d.aon := rfl
@[simp] theorem Dev.onBoot_pwr (f : BootSt → BootSt) : (d.onBoot f).pwr = d.pwr := rfl
@[simp] theorem Dev.onBoot_thm (f : BootSt → BootSt) : (d.onBoot f).thm = d.thm := rfl
@[simp] theorem Dev.onBoot_nvm (f : BootSt → BootSt) : (d.onBoot f).nvm = d.nvm := rfl
@[simp] theorem Dev.onBoot_boot (f : BootSt → BootSt) : (d.onBoot f).boot = f d.boot := rfl
@[simp] theorem Dev.onBoot_tap (f : BootSt → BootSt) : (d.onBoot f).tap = d.tap := rfl
@[simp] theorem Dev.onBoot_reqs (f : BootSt → BootSt) : (d.onBoot f).reqs = d.reqs := rfl
@[simp] theorem Dev.onBoot_frames (f : BootSt → BootSt) : (d.onBoot f).frames = d.frames := rfl
@[simp] theorem Dev.onBoot_nextFrame (f : BootSt → BootSt) : (d.onBoot f).nextFrame = d.nextFrame := rfl
@[simp] theorem Dev.onBoot_gens (f : BootSt → BootSt) : (d.onBoot f).gens = d.gens := rfl
@[simp] theorem Dev.onBoot_pipe (f : BootSt → BootSt) : (d.onBoot f).pipe = d.pipe := rfl
@[simp] theorem Dev.onBoot_refs (f : BootSt → BootSt) : (d.onBoot f).refs = d.refs := rfl
@[simp] theorem Dev.onBoot_bls (f : BootSt → BootSt) : (d.onBoot f).bls = d.bls := rfl
@[simp] theorem Dev.onBoot_hmp (f : BootSt → BootSt) : (d.onBoot f).hmp = d.hmp := rfl
@[simp] theorem Dev.onBoot_burst (f : BootSt → BootSt) : (d.onBoot f).burst = d.burst := rfl
@[simp] theorem Dev.onBoot_views (f : BootSt → BootSt) : (d.onBoot f).views = d.views := rfl
@[simp] theorem Dev.onBoot_encs (f : BootSt → BootSt) : (d.onBoot f).encs = d.encs := rfl
@[simp] theorem Dev.onBoot_recs (f : BootSt → BootSt) : (d.onBoot f).recs = d.recs := rfl
@[simp] theorem Dev.onBoot_defs (f : BootSt → BootSt) : (d.onBoot f).defs = d.defs := rfl
@[simp] theorem Dev.onBoot_lsc (f : BootSt → BootSt) : (d.onBoot f).lsc = d.lsc := rfl
@[simp] theorem Dev.onBoot_ary (f : BootSt → BootSt) : (d.onBoot f).ary = d.ary := rfl
@[simp] theorem Dev.onBoot_eng (f : BootSt → BootSt) : (d.onBoot f).eng = d.eng := rfl
@[simp] theorem Dev.onBoot_trg (f : BootSt → BootSt) : (d.onBoot f).trg = d.trg := rfl
@[simp] theorem Dev.onBoot_pe (f : BootSt → BootSt) : (d.onBoot f).pe = d.pe := rfl
@[simp] theorem Dev.onBoot_pio (f : BootSt → BootSt) : (d.onBoot f).pio = d.pio := rfl
@[simp] theorem Dev.onBoot_pioF (f : BootSt → BootSt) : (d.onBoot f).pioF = d.pioF := rfl
@[simp] theorem Dev.onBoot_pioAt (f : BootSt → BootSt) : (d.onBoot f).pioAt = d.pioAt := rfl
@[simp] theorem Dev.onBoot_tx (f : BootSt → BootSt) : (d.onBoot f).tx = d.tx := rfl
@[simp] theorem Dev.onBoot_lanes (f : BootSt → BootSt) : (d.onBoot f).lanes = d.lanes := rfl
@[simp] theorem Dev.onBoot_grps (f : BootSt → BootSt) : (d.onBoot f).grps = d.grps := rfl
@[simp] theorem Dev.onBoot_sp (f : BootSt → BootSt) : (d.onBoot f).sp = d.sp := rfl
@[simp] theorem Dev.onBoot_dlv (f : BootSt → BootSt) : (d.onBoot f).dlv = d.dlv := rfl
@[simp] theorem Dev.onBoot_hlp (f : BootSt → BootSt) : (d.onBoot f).hlp = d.hlp := rfl

/-! ## onPwr -/

@[simp] theorem Dev.onPwr_cyc (f : PwrSt → PwrSt) : (d.onPwr f).cyc = d.cyc := rfl
@[simp] theorem Dev.onPwr_freeCtr (f : PwrSt → PwrSt) : (d.onPwr f).freeCtr = d.freeCtr := rfl
@[simp] theorem Dev.onPwr_regs (f : PwrSt → PwrSt) : (d.onPwr f).regs = d.regs := rfl
@[simp] theorem Dev.onPwr_act (f : PwrSt → PwrSt) : (d.onPwr f).act = d.act := rfl
@[simp] theorem Dev.onPwr_evq (f : PwrSt → PwrSt) : (d.onPwr f).evq = d.evq := rfl
@[simp] theorem Dev.onPwr_com (f : PwrSt → PwrSt) : (d.onPwr f).com = d.com := rfl
@[simp] theorem Dev.onPwr_out (f : PwrSt → PwrSt) : (d.onPwr f).out = d.out := rfl
@[simp] theorem Dev.onPwr_mbx (f : PwrSt → PwrSt) : (d.onPwr f).mbx = d.mbx := rfl
@[simp] theorem Dev.onPwr_time (f : PwrSt → PwrSt) : (d.onPwr f).time = d.time := rfl
@[simp] theorem Dev.onPwr_clk (f : PwrSt → PwrSt) : (d.onPwr f).clk = d.clk := rfl
@[simp] theorem Dev.onPwr_aon (f : PwrSt → PwrSt) : (d.onPwr f).aon = d.aon := rfl
@[simp] theorem Dev.onPwr_pwr (f : PwrSt → PwrSt) : (d.onPwr f).pwr = f d.pwr := rfl
@[simp] theorem Dev.onPwr_thm (f : PwrSt → PwrSt) : (d.onPwr f).thm = d.thm := rfl
@[simp] theorem Dev.onPwr_nvm (f : PwrSt → PwrSt) : (d.onPwr f).nvm = d.nvm := rfl
@[simp] theorem Dev.onPwr_boot (f : PwrSt → PwrSt) : (d.onPwr f).boot = d.boot := rfl
@[simp] theorem Dev.onPwr_tap (f : PwrSt → PwrSt) : (d.onPwr f).tap = d.tap := rfl
@[simp] theorem Dev.onPwr_reqs (f : PwrSt → PwrSt) : (d.onPwr f).reqs = d.reqs := rfl
@[simp] theorem Dev.onPwr_frames (f : PwrSt → PwrSt) : (d.onPwr f).frames = d.frames := rfl
@[simp] theorem Dev.onPwr_nextFrame (f : PwrSt → PwrSt) : (d.onPwr f).nextFrame = d.nextFrame := rfl
@[simp] theorem Dev.onPwr_gens (f : PwrSt → PwrSt) : (d.onPwr f).gens = d.gens := rfl
@[simp] theorem Dev.onPwr_pipe (f : PwrSt → PwrSt) : (d.onPwr f).pipe = d.pipe := rfl
@[simp] theorem Dev.onPwr_refs (f : PwrSt → PwrSt) : (d.onPwr f).refs = d.refs := rfl
@[simp] theorem Dev.onPwr_bls (f : PwrSt → PwrSt) : (d.onPwr f).bls = d.bls := rfl
@[simp] theorem Dev.onPwr_hmp (f : PwrSt → PwrSt) : (d.onPwr f).hmp = d.hmp := rfl
@[simp] theorem Dev.onPwr_burst (f : PwrSt → PwrSt) : (d.onPwr f).burst = d.burst := rfl
@[simp] theorem Dev.onPwr_views (f : PwrSt → PwrSt) : (d.onPwr f).views = d.views := rfl
@[simp] theorem Dev.onPwr_encs (f : PwrSt → PwrSt) : (d.onPwr f).encs = d.encs := rfl
@[simp] theorem Dev.onPwr_recs (f : PwrSt → PwrSt) : (d.onPwr f).recs = d.recs := rfl
@[simp] theorem Dev.onPwr_defs (f : PwrSt → PwrSt) : (d.onPwr f).defs = d.defs := rfl
@[simp] theorem Dev.onPwr_lsc (f : PwrSt → PwrSt) : (d.onPwr f).lsc = d.lsc := rfl
@[simp] theorem Dev.onPwr_ary (f : PwrSt → PwrSt) : (d.onPwr f).ary = d.ary := rfl
@[simp] theorem Dev.onPwr_eng (f : PwrSt → PwrSt) : (d.onPwr f).eng = d.eng := rfl
@[simp] theorem Dev.onPwr_trg (f : PwrSt → PwrSt) : (d.onPwr f).trg = d.trg := rfl
@[simp] theorem Dev.onPwr_pe (f : PwrSt → PwrSt) : (d.onPwr f).pe = d.pe := rfl
@[simp] theorem Dev.onPwr_pio (f : PwrSt → PwrSt) : (d.onPwr f).pio = d.pio := rfl
@[simp] theorem Dev.onPwr_pioF (f : PwrSt → PwrSt) : (d.onPwr f).pioF = d.pioF := rfl
@[simp] theorem Dev.onPwr_pioAt (f : PwrSt → PwrSt) : (d.onPwr f).pioAt = d.pioAt := rfl
@[simp] theorem Dev.onPwr_tx (f : PwrSt → PwrSt) : (d.onPwr f).tx = d.tx := rfl
@[simp] theorem Dev.onPwr_lanes (f : PwrSt → PwrSt) : (d.onPwr f).lanes = d.lanes := rfl
@[simp] theorem Dev.onPwr_grps (f : PwrSt → PwrSt) : (d.onPwr f).grps = d.grps := rfl
@[simp] theorem Dev.onPwr_sp (f : PwrSt → PwrSt) : (d.onPwr f).sp = d.sp := rfl
@[simp] theorem Dev.onPwr_dlv (f : PwrSt → PwrSt) : (d.onPwr f).dlv = d.dlv := rfl
@[simp] theorem Dev.onPwr_hlp (f : PwrSt → PwrSt) : (d.onPwr f).hlp = d.hlp := rfl

/-! ## onThm -/

@[simp] theorem Dev.onThm_cyc (f : ThmSt → ThmSt) : (d.onThm f).cyc = d.cyc := rfl
@[simp] theorem Dev.onThm_freeCtr (f : ThmSt → ThmSt) : (d.onThm f).freeCtr = d.freeCtr := rfl
@[simp] theorem Dev.onThm_regs (f : ThmSt → ThmSt) : (d.onThm f).regs = d.regs := rfl
@[simp] theorem Dev.onThm_act (f : ThmSt → ThmSt) : (d.onThm f).act = d.act := rfl
@[simp] theorem Dev.onThm_evq (f : ThmSt → ThmSt) : (d.onThm f).evq = d.evq := rfl
@[simp] theorem Dev.onThm_com (f : ThmSt → ThmSt) : (d.onThm f).com = d.com := rfl
@[simp] theorem Dev.onThm_out (f : ThmSt → ThmSt) : (d.onThm f).out = d.out := rfl
@[simp] theorem Dev.onThm_mbx (f : ThmSt → ThmSt) : (d.onThm f).mbx = d.mbx := rfl
@[simp] theorem Dev.onThm_time (f : ThmSt → ThmSt) : (d.onThm f).time = d.time := rfl
@[simp] theorem Dev.onThm_clk (f : ThmSt → ThmSt) : (d.onThm f).clk = d.clk := rfl
@[simp] theorem Dev.onThm_aon (f : ThmSt → ThmSt) : (d.onThm f).aon = d.aon := rfl
@[simp] theorem Dev.onThm_pwr (f : ThmSt → ThmSt) : (d.onThm f).pwr = d.pwr := rfl
@[simp] theorem Dev.onThm_thm (f : ThmSt → ThmSt) : (d.onThm f).thm = f d.thm := rfl
@[simp] theorem Dev.onThm_nvm (f : ThmSt → ThmSt) : (d.onThm f).nvm = d.nvm := rfl
@[simp] theorem Dev.onThm_boot (f : ThmSt → ThmSt) : (d.onThm f).boot = d.boot := rfl
@[simp] theorem Dev.onThm_tap (f : ThmSt → ThmSt) : (d.onThm f).tap = d.tap := rfl
@[simp] theorem Dev.onThm_reqs (f : ThmSt → ThmSt) : (d.onThm f).reqs = d.reqs := rfl
@[simp] theorem Dev.onThm_frames (f : ThmSt → ThmSt) : (d.onThm f).frames = d.frames := rfl
@[simp] theorem Dev.onThm_nextFrame (f : ThmSt → ThmSt) : (d.onThm f).nextFrame = d.nextFrame := rfl
@[simp] theorem Dev.onThm_gens (f : ThmSt → ThmSt) : (d.onThm f).gens = d.gens := rfl
@[simp] theorem Dev.onThm_pipe (f : ThmSt → ThmSt) : (d.onThm f).pipe = d.pipe := rfl
@[simp] theorem Dev.onThm_refs (f : ThmSt → ThmSt) : (d.onThm f).refs = d.refs := rfl
@[simp] theorem Dev.onThm_bls (f : ThmSt → ThmSt) : (d.onThm f).bls = d.bls := rfl
@[simp] theorem Dev.onThm_hmp (f : ThmSt → ThmSt) : (d.onThm f).hmp = d.hmp := rfl
@[simp] theorem Dev.onThm_burst (f : ThmSt → ThmSt) : (d.onThm f).burst = d.burst := rfl
@[simp] theorem Dev.onThm_views (f : ThmSt → ThmSt) : (d.onThm f).views = d.views := rfl
@[simp] theorem Dev.onThm_encs (f : ThmSt → ThmSt) : (d.onThm f).encs = d.encs := rfl
@[simp] theorem Dev.onThm_recs (f : ThmSt → ThmSt) : (d.onThm f).recs = d.recs := rfl
@[simp] theorem Dev.onThm_defs (f : ThmSt → ThmSt) : (d.onThm f).defs = d.defs := rfl
@[simp] theorem Dev.onThm_lsc (f : ThmSt → ThmSt) : (d.onThm f).lsc = d.lsc := rfl
@[simp] theorem Dev.onThm_ary (f : ThmSt → ThmSt) : (d.onThm f).ary = d.ary := rfl
@[simp] theorem Dev.onThm_eng (f : ThmSt → ThmSt) : (d.onThm f).eng = d.eng := rfl
@[simp] theorem Dev.onThm_trg (f : ThmSt → ThmSt) : (d.onThm f).trg = d.trg := rfl
@[simp] theorem Dev.onThm_pe (f : ThmSt → ThmSt) : (d.onThm f).pe = d.pe := rfl
@[simp] theorem Dev.onThm_pio (f : ThmSt → ThmSt) : (d.onThm f).pio = d.pio := rfl
@[simp] theorem Dev.onThm_pioF (f : ThmSt → ThmSt) : (d.onThm f).pioF = d.pioF := rfl
@[simp] theorem Dev.onThm_pioAt (f : ThmSt → ThmSt) : (d.onThm f).pioAt = d.pioAt := rfl
@[simp] theorem Dev.onThm_tx (f : ThmSt → ThmSt) : (d.onThm f).tx = d.tx := rfl
@[simp] theorem Dev.onThm_lanes (f : ThmSt → ThmSt) : (d.onThm f).lanes = d.lanes := rfl
@[simp] theorem Dev.onThm_grps (f : ThmSt → ThmSt) : (d.onThm f).grps = d.grps := rfl
@[simp] theorem Dev.onThm_sp (f : ThmSt → ThmSt) : (d.onThm f).sp = d.sp := rfl
@[simp] theorem Dev.onThm_dlv (f : ThmSt → ThmSt) : (d.onThm f).dlv = d.dlv := rfl
@[simp] theorem Dev.onThm_hlp (f : ThmSt → ThmSt) : (d.onThm f).hlp = d.hlp := rfl

/-! ## setAon -/

@[simp] theorem Dev.setAon_cyc (a : AonSt) : (d.setAon a).cyc = d.cyc := rfl
@[simp] theorem Dev.setAon_freeCtr (a : AonSt) : (d.setAon a).freeCtr = d.freeCtr := rfl
@[simp] theorem Dev.setAon_regs (a : AonSt) : (d.setAon a).regs = d.regs := rfl
@[simp] theorem Dev.setAon_act (a : AonSt) : (d.setAon a).act = d.act := rfl
@[simp] theorem Dev.setAon_evq (a : AonSt) : (d.setAon a).evq = d.evq := rfl
@[simp] theorem Dev.setAon_com (a : AonSt) : (d.setAon a).com = d.com := rfl
@[simp] theorem Dev.setAon_out (a : AonSt) : (d.setAon a).out = d.out := rfl
@[simp] theorem Dev.setAon_mbx (a : AonSt) : (d.setAon a).mbx = d.mbx := rfl
@[simp] theorem Dev.setAon_time (a : AonSt) : (d.setAon a).time = d.time := rfl
@[simp] theorem Dev.setAon_clk (a : AonSt) : (d.setAon a).clk = d.clk := rfl
@[simp] theorem Dev.setAon_aon (a : AonSt) : (d.setAon a).aon = a := rfl
@[simp] theorem Dev.setAon_pwr (a : AonSt) : (d.setAon a).pwr = d.pwr := rfl
@[simp] theorem Dev.setAon_thm (a : AonSt) : (d.setAon a).thm = d.thm := rfl
@[simp] theorem Dev.setAon_nvm (a : AonSt) : (d.setAon a).nvm = d.nvm := rfl
@[simp] theorem Dev.setAon_boot (a : AonSt) : (d.setAon a).boot = d.boot := rfl
@[simp] theorem Dev.setAon_tap (a : AonSt) : (d.setAon a).tap = d.tap := rfl
@[simp] theorem Dev.setAon_reqs (a : AonSt) : (d.setAon a).reqs = d.reqs := rfl
@[simp] theorem Dev.setAon_frames (a : AonSt) : (d.setAon a).frames = d.frames := rfl
@[simp] theorem Dev.setAon_nextFrame (a : AonSt) : (d.setAon a).nextFrame = d.nextFrame := rfl
@[simp] theorem Dev.setAon_gens (a : AonSt) : (d.setAon a).gens = d.gens := rfl
@[simp] theorem Dev.setAon_pipe (a : AonSt) : (d.setAon a).pipe = d.pipe := rfl
@[simp] theorem Dev.setAon_refs (a : AonSt) : (d.setAon a).refs = d.refs := rfl
@[simp] theorem Dev.setAon_bls (a : AonSt) : (d.setAon a).bls = d.bls := rfl
@[simp] theorem Dev.setAon_hmp (a : AonSt) : (d.setAon a).hmp = d.hmp := rfl
@[simp] theorem Dev.setAon_burst (a : AonSt) : (d.setAon a).burst = d.burst := rfl
@[simp] theorem Dev.setAon_views (a : AonSt) : (d.setAon a).views = d.views := rfl
@[simp] theorem Dev.setAon_encs (a : AonSt) : (d.setAon a).encs = d.encs := rfl
@[simp] theorem Dev.setAon_recs (a : AonSt) : (d.setAon a).recs = d.recs := rfl
@[simp] theorem Dev.setAon_defs (a : AonSt) : (d.setAon a).defs = d.defs := rfl
@[simp] theorem Dev.setAon_lsc (a : AonSt) : (d.setAon a).lsc = d.lsc := rfl
@[simp] theorem Dev.setAon_ary (a : AonSt) : (d.setAon a).ary = d.ary := rfl
@[simp] theorem Dev.setAon_eng (a : AonSt) : (d.setAon a).eng = d.eng := rfl
@[simp] theorem Dev.setAon_trg (a : AonSt) : (d.setAon a).trg = d.trg := rfl
@[simp] theorem Dev.setAon_pe (a : AonSt) : (d.setAon a).pe = d.pe := rfl
@[simp] theorem Dev.setAon_pio (a : AonSt) : (d.setAon a).pio = d.pio := rfl
@[simp] theorem Dev.setAon_pioF (a : AonSt) : (d.setAon a).pioF = d.pioF := rfl
@[simp] theorem Dev.setAon_pioAt (a : AonSt) : (d.setAon a).pioAt = d.pioAt := rfl
@[simp] theorem Dev.setAon_tx (a : AonSt) : (d.setAon a).tx = d.tx := rfl
@[simp] theorem Dev.setAon_lanes (a : AonSt) : (d.setAon a).lanes = d.lanes := rfl
@[simp] theorem Dev.setAon_grps (a : AonSt) : (d.setAon a).grps = d.grps := rfl
@[simp] theorem Dev.setAon_sp (a : AonSt) : (d.setAon a).sp = d.sp := rfl
@[simp] theorem Dev.setAon_dlv (a : AonSt) : (d.setAon a).dlv = d.dlv := rfl
@[simp] theorem Dev.setAon_hlp (a : AonSt) : (d.setAon a).hlp = d.hlp := rfl

/-! ## setClk -/

@[simp] theorem Dev.setClk_cyc (n : Nat) : (d.setClk n).cyc = d.cyc := rfl
@[simp] theorem Dev.setClk_freeCtr (n : Nat) : (d.setClk n).freeCtr = d.freeCtr := rfl
@[simp] theorem Dev.setClk_regs (n : Nat) : (d.setClk n).regs = d.regs := rfl
@[simp] theorem Dev.setClk_act (n : Nat) : (d.setClk n).act = d.act := rfl
@[simp] theorem Dev.setClk_evq (n : Nat) : (d.setClk n).evq = d.evq := rfl
@[simp] theorem Dev.setClk_com (n : Nat) : (d.setClk n).com = d.com := rfl
@[simp] theorem Dev.setClk_out (n : Nat) : (d.setClk n).out = d.out := rfl
@[simp] theorem Dev.setClk_mbx (n : Nat) : (d.setClk n).mbx = d.mbx := rfl
@[simp] theorem Dev.setClk_time (n : Nat) : (d.setClk n).time = d.time := rfl
@[simp] theorem Dev.setClk_aon (n : Nat) : (d.setClk n).aon = d.aon := rfl
@[simp] theorem Dev.setClk_pwr (n : Nat) : (d.setClk n).pwr = d.pwr := rfl
@[simp] theorem Dev.setClk_thm (n : Nat) : (d.setClk n).thm = d.thm := rfl
@[simp] theorem Dev.setClk_nvm (n : Nat) : (d.setClk n).nvm = d.nvm := rfl
@[simp] theorem Dev.setClk_boot (n : Nat) : (d.setClk n).boot = d.boot := rfl
@[simp] theorem Dev.setClk_tap (n : Nat) : (d.setClk n).tap = d.tap := rfl
@[simp] theorem Dev.setClk_reqs (n : Nat) : (d.setClk n).reqs = d.reqs := rfl
@[simp] theorem Dev.setClk_frames (n : Nat) : (d.setClk n).frames = d.frames := rfl
@[simp] theorem Dev.setClk_nextFrame (n : Nat) : (d.setClk n).nextFrame = d.nextFrame := rfl
@[simp] theorem Dev.setClk_gens (n : Nat) : (d.setClk n).gens = d.gens := rfl
@[simp] theorem Dev.setClk_pipe (n : Nat) : (d.setClk n).pipe = d.pipe := rfl
@[simp] theorem Dev.setClk_refs (n : Nat) : (d.setClk n).refs = d.refs := rfl
@[simp] theorem Dev.setClk_bls (n : Nat) : (d.setClk n).bls = d.bls := rfl
@[simp] theorem Dev.setClk_hmp (n : Nat) : (d.setClk n).hmp = d.hmp := rfl
@[simp] theorem Dev.setClk_burst (n : Nat) : (d.setClk n).burst = d.burst := rfl
@[simp] theorem Dev.setClk_views (n : Nat) : (d.setClk n).views = d.views := rfl
@[simp] theorem Dev.setClk_encs (n : Nat) : (d.setClk n).encs = d.encs := rfl
@[simp] theorem Dev.setClk_recs (n : Nat) : (d.setClk n).recs = d.recs := rfl
@[simp] theorem Dev.setClk_defs (n : Nat) : (d.setClk n).defs = d.defs := rfl
@[simp] theorem Dev.setClk_lsc (n : Nat) : (d.setClk n).lsc = d.lsc := rfl
@[simp] theorem Dev.setClk_ary (n : Nat) : (d.setClk n).ary = d.ary := rfl
@[simp] theorem Dev.setClk_eng (n : Nat) : (d.setClk n).eng = d.eng := rfl
@[simp] theorem Dev.setClk_trg (n : Nat) : (d.setClk n).trg = d.trg := rfl
@[simp] theorem Dev.setClk_pe (n : Nat) : (d.setClk n).pe = d.pe := rfl
@[simp] theorem Dev.setClk_pio (n : Nat) : (d.setClk n).pio = d.pio := rfl
@[simp] theorem Dev.setClk_pioF (n : Nat) : (d.setClk n).pioF = d.pioF := rfl
@[simp] theorem Dev.setClk_pioAt (n : Nat) : (d.setClk n).pioAt = d.pioAt := rfl
@[simp] theorem Dev.setClk_tx (n : Nat) : (d.setClk n).tx = d.tx := rfl
@[simp] theorem Dev.setClk_lanes (n : Nat) : (d.setClk n).lanes = d.lanes := rfl
@[simp] theorem Dev.setClk_grps (n : Nat) : (d.setClk n).grps = d.grps := rfl
@[simp] theorem Dev.setClk_sp (n : Nat) : (d.setClk n).sp = d.sp := rfl
@[simp] theorem Dev.setClk_dlv (n : Nat) : (d.setClk n).dlv = d.dlv := rfl
@[simp] theorem Dev.setClk_hlp (n : Nat) : (d.setClk n).hlp = d.hlp := rfl

/-! ## setOut -/

@[simp] theorem Dev.setOut_cyc (n : Nat) (o : OutSt) : (d.setOut n o).cyc = d.cyc := rfl
@[simp] theorem Dev.setOut_freeCtr (n : Nat) (o : OutSt) : (d.setOut n o).freeCtr = d.freeCtr := rfl
@[simp] theorem Dev.setOut_regs (n : Nat) (o : OutSt) : (d.setOut n o).regs = d.regs := rfl
@[simp] theorem Dev.setOut_act (n : Nat) (o : OutSt) : (d.setOut n o).act = d.act := rfl
@[simp] theorem Dev.setOut_evq (n : Nat) (o : OutSt) : (d.setOut n o).evq = d.evq := rfl
@[simp] theorem Dev.setOut_com (n : Nat) (o : OutSt) : (d.setOut n o).com = d.com := rfl
@[simp] theorem Dev.setOut_out (n : Nat) (o : OutSt) : (d.setOut n o).out = d.out := rfl
@[simp] theorem Dev.setOut_mbx (n : Nat) (o : OutSt) : (d.setOut n o).mbx = d.mbx := rfl
@[simp] theorem Dev.setOut_time (n : Nat) (o : OutSt) : (d.setOut n o).time = d.time := rfl
@[simp] theorem Dev.setOut_aon (n : Nat) (o : OutSt) : (d.setOut n o).aon = d.aon := rfl
@[simp] theorem Dev.setOut_pwr (n : Nat) (o : OutSt) : (d.setOut n o).pwr = d.pwr := rfl
@[simp] theorem Dev.setOut_thm (n : Nat) (o : OutSt) : (d.setOut n o).thm = d.thm := rfl
@[simp] theorem Dev.setOut_nvm (n : Nat) (o : OutSt) : (d.setOut n o).nvm = d.nvm := rfl
@[simp] theorem Dev.setOut_boot (n : Nat) (o : OutSt) : (d.setOut n o).boot = d.boot := rfl
@[simp] theorem Dev.setOut_tap (n : Nat) (o : OutSt) : (d.setOut n o).tap = d.tap := rfl
@[simp] theorem Dev.setOut_reqs (n : Nat) (o : OutSt) : (d.setOut n o).reqs = d.reqs := rfl
@[simp] theorem Dev.setOut_frames (n : Nat) (o : OutSt) : (d.setOut n o).frames = d.frames := rfl
@[simp] theorem Dev.setOut_nextFrame (n : Nat) (o : OutSt) : (d.setOut n o).nextFrame = d.nextFrame := rfl
@[simp] theorem Dev.setOut_gens (n : Nat) (o : OutSt) : (d.setOut n o).gens = d.gens := rfl
@[simp] theorem Dev.setOut_pipe (n : Nat) (o : OutSt) : (d.setOut n o).pipe = d.pipe := rfl
@[simp] theorem Dev.setOut_refs (n : Nat) (o : OutSt) : (d.setOut n o).refs = d.refs := rfl
@[simp] theorem Dev.setOut_bls (n : Nat) (o : OutSt) : (d.setOut n o).bls = d.bls := rfl
@[simp] theorem Dev.setOut_hmp (n : Nat) (o : OutSt) : (d.setOut n o).hmp = d.hmp := rfl
@[simp] theorem Dev.setOut_burst (n : Nat) (o : OutSt) : (d.setOut n o).burst = d.burst := rfl
@[simp] theorem Dev.setOut_views (n : Nat) (o : OutSt) : (d.setOut n o).views = d.views := rfl
@[simp] theorem Dev.setOut_encs (n : Nat) (o : OutSt) : (d.setOut n o).encs = d.encs := rfl
@[simp] theorem Dev.setOut_recs (n : Nat) (o : OutSt) : (d.setOut n o).recs = d.recs := rfl
@[simp] theorem Dev.setOut_defs (n : Nat) (o : OutSt) : (d.setOut n o).defs = d.defs := rfl
@[simp] theorem Dev.setOut_lsc (n : Nat) (o : OutSt) : (d.setOut n o).lsc = d.lsc := rfl
@[simp] theorem Dev.setOut_ary (n : Nat) (o : OutSt) : (d.setOut n o).ary = d.ary := rfl
@[simp] theorem Dev.setOut_eng (n : Nat) (o : OutSt) : (d.setOut n o).eng = d.eng := rfl
@[simp] theorem Dev.setOut_trg (n : Nat) (o : OutSt) : (d.setOut n o).trg = d.trg := rfl
@[simp] theorem Dev.setOut_pe (n : Nat) (o : OutSt) : (d.setOut n o).pe = d.pe := rfl
@[simp] theorem Dev.setOut_pio (n : Nat) (o : OutSt) : (d.setOut n o).pio = d.pio := rfl
@[simp] theorem Dev.setOut_pioF (n : Nat) (o : OutSt) : (d.setOut n o).pioF = d.pioF := rfl
@[simp] theorem Dev.setOut_pioAt (n : Nat) (o : OutSt) : (d.setOut n o).pioAt = d.pioAt := rfl
@[simp] theorem Dev.setOut_tx (n : Nat) (o : OutSt) : (d.setOut n o).tx = d.tx := rfl
@[simp] theorem Dev.setOut_lanes (n : Nat) (o : OutSt) : (d.setOut n o).lanes = d.lanes := rfl
@[simp] theorem Dev.setOut_grps (n : Nat) (o : OutSt) : (d.setOut n o).grps = d.grps := rfl
@[simp] theorem Dev.setOut_sp (n : Nat) (o : OutSt) : (d.setOut n o).sp = d.sp := rfl
@[simp] theorem Dev.setOut_dlv (n : Nat) (o : OutSt) : (d.setOut n o).dlv = d.dlv := rfl
@[simp] theorem Dev.setOut_hlp (n : Nat) (o : OutSt) : (d.setOut n o).hlp = d.hlp := rfl

/-! ## setEngine -/

@[simp] theorem Dev.setEngine_cyc (e : Nat) (g : EngSt) : (d.setEngine e g).cyc = d.cyc := rfl
@[simp] theorem Dev.setEngine_freeCtr (e : Nat) (g : EngSt) : (d.setEngine e g).freeCtr = d.freeCtr := rfl
@[simp] theorem Dev.setEngine_regs (e : Nat) (g : EngSt) : (d.setEngine e g).regs = d.regs := rfl
@[simp] theorem Dev.setEngine_act (e : Nat) (g : EngSt) : (d.setEngine e g).act = d.act := rfl
@[simp] theorem Dev.setEngine_evq (e : Nat) (g : EngSt) : (d.setEngine e g).evq = d.evq := rfl
@[simp] theorem Dev.setEngine_com (e : Nat) (g : EngSt) : (d.setEngine e g).com = d.com := rfl
@[simp] theorem Dev.setEngine_out (e : Nat) (g : EngSt) : (d.setEngine e g).out = d.out := rfl
@[simp] theorem Dev.setEngine_mbx (e : Nat) (g : EngSt) : (d.setEngine e g).mbx = d.mbx := rfl
@[simp] theorem Dev.setEngine_time (e : Nat) (g : EngSt) : (d.setEngine e g).time = d.time := rfl
@[simp] theorem Dev.setEngine_clk (e : Nat) (g : EngSt) : (d.setEngine e g).clk = d.clk := rfl
@[simp] theorem Dev.setEngine_aon (e : Nat) (g : EngSt) : (d.setEngine e g).aon = d.aon := rfl
@[simp] theorem Dev.setEngine_pwr (e : Nat) (g : EngSt) : (d.setEngine e g).pwr = d.pwr := rfl
@[simp] theorem Dev.setEngine_thm (e : Nat) (g : EngSt) : (d.setEngine e g).thm = d.thm := rfl
@[simp] theorem Dev.setEngine_nvm (e : Nat) (g : EngSt) : (d.setEngine e g).nvm = d.nvm := rfl
@[simp] theorem Dev.setEngine_boot (e : Nat) (g : EngSt) : (d.setEngine e g).boot = d.boot := rfl
@[simp] theorem Dev.setEngine_tap (e : Nat) (g : EngSt) : (d.setEngine e g).tap = d.tap := rfl
@[simp] theorem Dev.setEngine_reqs (e : Nat) (g : EngSt) : (d.setEngine e g).reqs = d.reqs := rfl
@[simp] theorem Dev.setEngine_frames (e : Nat) (g : EngSt) : (d.setEngine e g).frames = d.frames := rfl
@[simp] theorem Dev.setEngine_nextFrame (e : Nat) (g : EngSt) : (d.setEngine e g).nextFrame = d.nextFrame := rfl
@[simp] theorem Dev.setEngine_gens (e : Nat) (g : EngSt) : (d.setEngine e g).gens = d.gens := rfl
@[simp] theorem Dev.setEngine_pipe (e : Nat) (g : EngSt) : (d.setEngine e g).pipe = d.pipe := rfl
@[simp] theorem Dev.setEngine_refs (e : Nat) (g : EngSt) : (d.setEngine e g).refs = d.refs := rfl
@[simp] theorem Dev.setEngine_bls (e : Nat) (g : EngSt) : (d.setEngine e g).bls = d.bls := rfl
@[simp] theorem Dev.setEngine_hmp (e : Nat) (g : EngSt) : (d.setEngine e g).hmp = d.hmp := rfl
@[simp] theorem Dev.setEngine_burst (e : Nat) (g : EngSt) : (d.setEngine e g).burst = d.burst := rfl
@[simp] theorem Dev.setEngine_views (e : Nat) (g : EngSt) : (d.setEngine e g).views = d.views := rfl
@[simp] theorem Dev.setEngine_encs (e : Nat) (g : EngSt) : (d.setEngine e g).encs = d.encs := rfl
@[simp] theorem Dev.setEngine_recs (e : Nat) (g : EngSt) : (d.setEngine e g).recs = d.recs := rfl
@[simp] theorem Dev.setEngine_defs (e : Nat) (g : EngSt) : (d.setEngine e g).defs = d.defs := rfl
@[simp] theorem Dev.setEngine_lsc (e : Nat) (g : EngSt) : (d.setEngine e g).lsc = d.lsc := rfl
@[simp] theorem Dev.setEngine_ary (e : Nat) (g : EngSt) : (d.setEngine e g).ary = d.ary := rfl
@[simp] theorem Dev.setEngine_eng (e : Nat) (g : EngSt) : (d.setEngine e g).eng = SMap.set noEng d.eng e g := rfl
@[simp] theorem Dev.setEngine_trg (e : Nat) (g : EngSt) : (d.setEngine e g).trg = d.trg := rfl
@[simp] theorem Dev.setEngine_pe (e : Nat) (g : EngSt) : (d.setEngine e g).pe = d.pe := rfl
@[simp] theorem Dev.setEngine_pio (e : Nat) (g : EngSt) : (d.setEngine e g).pio = d.pio := rfl
@[simp] theorem Dev.setEngine_pioF (e : Nat) (g : EngSt) : (d.setEngine e g).pioF = d.pioF := rfl
@[simp] theorem Dev.setEngine_pioAt (e : Nat) (g : EngSt) : (d.setEngine e g).pioAt = d.pioAt := rfl
@[simp] theorem Dev.setEngine_tx (e : Nat) (g : EngSt) : (d.setEngine e g).tx = d.tx := rfl
@[simp] theorem Dev.setEngine_lanes (e : Nat) (g : EngSt) : (d.setEngine e g).lanes = d.lanes := rfl
@[simp] theorem Dev.setEngine_grps (e : Nat) (g : EngSt) : (d.setEngine e g).grps = d.grps := rfl
@[simp] theorem Dev.setEngine_sp (e : Nat) (g : EngSt) : (d.setEngine e g).sp = d.sp := rfl
@[simp] theorem Dev.setEngine_dlv (e : Nat) (g : EngSt) : (d.setEngine e g).dlv = d.dlv := rfl
@[simp] theorem Dev.setEngine_hlp (e : Nat) (g : EngSt) : (d.setEngine e g).hlp = d.hlp := rfl

/-! ## setPin -/

@[simp] theorem Dev.setPin_cyc (e : Nat) (g : PeSt) : (d.setPin e g).cyc = d.cyc := rfl
@[simp] theorem Dev.setPin_freeCtr (e : Nat) (g : PeSt) : (d.setPin e g).freeCtr = d.freeCtr := rfl
@[simp] theorem Dev.setPin_regs (e : Nat) (g : PeSt) : (d.setPin e g).regs = d.regs := rfl
@[simp] theorem Dev.setPin_act (e : Nat) (g : PeSt) : (d.setPin e g).act = d.act := rfl
@[simp] theorem Dev.setPin_evq (e : Nat) (g : PeSt) : (d.setPin e g).evq = d.evq := rfl
@[simp] theorem Dev.setPin_com (e : Nat) (g : PeSt) : (d.setPin e g).com = d.com := rfl
@[simp] theorem Dev.setPin_out (e : Nat) (g : PeSt) : (d.setPin e g).out = d.out := rfl
@[simp] theorem Dev.setPin_mbx (e : Nat) (g : PeSt) : (d.setPin e g).mbx = d.mbx := rfl
@[simp] theorem Dev.setPin_time (e : Nat) (g : PeSt) : (d.setPin e g).time = d.time := rfl
@[simp] theorem Dev.setPin_clk (e : Nat) (g : PeSt) : (d.setPin e g).clk = d.clk := rfl
@[simp] theorem Dev.setPin_aon (e : Nat) (g : PeSt) : (d.setPin e g).aon = d.aon := rfl
@[simp] theorem Dev.setPin_pwr (e : Nat) (g : PeSt) : (d.setPin e g).pwr = d.pwr := rfl
@[simp] theorem Dev.setPin_thm (e : Nat) (g : PeSt) : (d.setPin e g).thm = d.thm := rfl
@[simp] theorem Dev.setPin_nvm (e : Nat) (g : PeSt) : (d.setPin e g).nvm = d.nvm := rfl
@[simp] theorem Dev.setPin_boot (e : Nat) (g : PeSt) : (d.setPin e g).boot = d.boot := rfl
@[simp] theorem Dev.setPin_tap (e : Nat) (g : PeSt) : (d.setPin e g).tap = d.tap := rfl
@[simp] theorem Dev.setPin_reqs (e : Nat) (g : PeSt) : (d.setPin e g).reqs = d.reqs := rfl
@[simp] theorem Dev.setPin_frames (e : Nat) (g : PeSt) : (d.setPin e g).frames = d.frames := rfl
@[simp] theorem Dev.setPin_nextFrame (e : Nat) (g : PeSt) : (d.setPin e g).nextFrame = d.nextFrame := rfl
@[simp] theorem Dev.setPin_gens (e : Nat) (g : PeSt) : (d.setPin e g).gens = d.gens := rfl
@[simp] theorem Dev.setPin_pipe (e : Nat) (g : PeSt) : (d.setPin e g).pipe = d.pipe := rfl
@[simp] theorem Dev.setPin_refs (e : Nat) (g : PeSt) : (d.setPin e g).refs = d.refs := rfl
@[simp] theorem Dev.setPin_bls (e : Nat) (g : PeSt) : (d.setPin e g).bls = d.bls := rfl
@[simp] theorem Dev.setPin_hmp (e : Nat) (g : PeSt) : (d.setPin e g).hmp = d.hmp := rfl
@[simp] theorem Dev.setPin_burst (e : Nat) (g : PeSt) : (d.setPin e g).burst = d.burst := rfl
@[simp] theorem Dev.setPin_views (e : Nat) (g : PeSt) : (d.setPin e g).views = d.views := rfl
@[simp] theorem Dev.setPin_encs (e : Nat) (g : PeSt) : (d.setPin e g).encs = d.encs := rfl
@[simp] theorem Dev.setPin_recs (e : Nat) (g : PeSt) : (d.setPin e g).recs = d.recs := rfl
@[simp] theorem Dev.setPin_defs (e : Nat) (g : PeSt) : (d.setPin e g).defs = d.defs := rfl
@[simp] theorem Dev.setPin_lsc (e : Nat) (g : PeSt) : (d.setPin e g).lsc = d.lsc := rfl
@[simp] theorem Dev.setPin_ary (e : Nat) (g : PeSt) : (d.setPin e g).ary = d.ary := rfl
@[simp] theorem Dev.setPin_eng (e : Nat) (g : PeSt) : (d.setPin e g).eng = d.eng := rfl
@[simp] theorem Dev.setPin_trg (e : Nat) (g : PeSt) : (d.setPin e g).trg = d.trg := rfl
@[simp] theorem Dev.setPin_pe (e : Nat) (g : PeSt) : (d.setPin e g).pe = SMap.set noPe d.pe e g := rfl
@[simp] theorem Dev.setPin_pio (e : Nat) (g : PeSt) : (d.setPin e g).pio = d.pio := rfl
@[simp] theorem Dev.setPin_pioF (e : Nat) (g : PeSt) : (d.setPin e g).pioF = d.pioF := rfl
@[simp] theorem Dev.setPin_pioAt (e : Nat) (g : PeSt) : (d.setPin e g).pioAt = d.pioAt := rfl
@[simp] theorem Dev.setPin_tx (e : Nat) (g : PeSt) : (d.setPin e g).tx = d.tx := rfl
@[simp] theorem Dev.setPin_lanes (e : Nat) (g : PeSt) : (d.setPin e g).lanes = d.lanes := rfl
@[simp] theorem Dev.setPin_grps (e : Nat) (g : PeSt) : (d.setPin e g).grps = d.grps := rfl
@[simp] theorem Dev.setPin_sp (e : Nat) (g : PeSt) : (d.setPin e g).sp = d.sp := rfl
@[simp] theorem Dev.setPin_dlv (e : Nat) (g : PeSt) : (d.setPin e g).dlv = d.dlv := rfl
@[simp] theorem Dev.setPin_hlp (e : Nat) (g : PeSt) : (d.setPin e g).hlp = d.hlp := rfl

/-! ## setLane -/

@[simp] theorem Dev.setLane_cyc (l : Nat) (x : LaneSt) : (d.setLane l x).cyc = d.cyc := rfl
@[simp] theorem Dev.setLane_freeCtr (l : Nat) (x : LaneSt) : (d.setLane l x).freeCtr = d.freeCtr := rfl
@[simp] theorem Dev.setLane_regs (l : Nat) (x : LaneSt) : (d.setLane l x).regs = d.regs := rfl
@[simp] theorem Dev.setLane_act (l : Nat) (x : LaneSt) : (d.setLane l x).act = d.act := rfl
@[simp] theorem Dev.setLane_evq (l : Nat) (x : LaneSt) : (d.setLane l x).evq = d.evq := rfl
@[simp] theorem Dev.setLane_com (l : Nat) (x : LaneSt) : (d.setLane l x).com = d.com := rfl
@[simp] theorem Dev.setLane_out (l : Nat) (x : LaneSt) : (d.setLane l x).out = d.out := rfl
@[simp] theorem Dev.setLane_mbx (l : Nat) (x : LaneSt) : (d.setLane l x).mbx = d.mbx := rfl
@[simp] theorem Dev.setLane_time (l : Nat) (x : LaneSt) : (d.setLane l x).time = d.time := rfl
@[simp] theorem Dev.setLane_clk (l : Nat) (x : LaneSt) : (d.setLane l x).clk = d.clk := rfl
@[simp] theorem Dev.setLane_aon (l : Nat) (x : LaneSt) : (d.setLane l x).aon = d.aon := rfl
@[simp] theorem Dev.setLane_pwr (l : Nat) (x : LaneSt) : (d.setLane l x).pwr = d.pwr := rfl
@[simp] theorem Dev.setLane_thm (l : Nat) (x : LaneSt) : (d.setLane l x).thm = d.thm := rfl
@[simp] theorem Dev.setLane_nvm (l : Nat) (x : LaneSt) : (d.setLane l x).nvm = d.nvm := rfl
@[simp] theorem Dev.setLane_boot (l : Nat) (x : LaneSt) : (d.setLane l x).boot = d.boot := rfl
@[simp] theorem Dev.setLane_tap (l : Nat) (x : LaneSt) : (d.setLane l x).tap = d.tap := rfl
@[simp] theorem Dev.setLane_reqs (l : Nat) (x : LaneSt) : (d.setLane l x).reqs = d.reqs := rfl
@[simp] theorem Dev.setLane_frames (l : Nat) (x : LaneSt) : (d.setLane l x).frames = d.frames := rfl
@[simp] theorem Dev.setLane_nextFrame (l : Nat) (x : LaneSt) : (d.setLane l x).nextFrame = d.nextFrame := rfl
@[simp] theorem Dev.setLane_gens (l : Nat) (x : LaneSt) : (d.setLane l x).gens = d.gens := rfl
@[simp] theorem Dev.setLane_pipe (l : Nat) (x : LaneSt) : (d.setLane l x).pipe = d.pipe := rfl
@[simp] theorem Dev.setLane_refs (l : Nat) (x : LaneSt) : (d.setLane l x).refs = d.refs := rfl
@[simp] theorem Dev.setLane_bls (l : Nat) (x : LaneSt) : (d.setLane l x).bls = d.bls := rfl
@[simp] theorem Dev.setLane_hmp (l : Nat) (x : LaneSt) : (d.setLane l x).hmp = d.hmp := rfl
@[simp] theorem Dev.setLane_burst (l : Nat) (x : LaneSt) : (d.setLane l x).burst = d.burst := rfl
@[simp] theorem Dev.setLane_views (l : Nat) (x : LaneSt) : (d.setLane l x).views = d.views := rfl
@[simp] theorem Dev.setLane_encs (l : Nat) (x : LaneSt) : (d.setLane l x).encs = d.encs := rfl
@[simp] theorem Dev.setLane_recs (l : Nat) (x : LaneSt) : (d.setLane l x).recs = d.recs := rfl
@[simp] theorem Dev.setLane_defs (l : Nat) (x : LaneSt) : (d.setLane l x).defs = d.defs := rfl
@[simp] theorem Dev.setLane_lsc (l : Nat) (x : LaneSt) : (d.setLane l x).lsc = d.lsc := rfl
@[simp] theorem Dev.setLane_ary (l : Nat) (x : LaneSt) : (d.setLane l x).ary = d.ary := rfl
@[simp] theorem Dev.setLane_eng (l : Nat) (x : LaneSt) : (d.setLane l x).eng = d.eng := rfl
@[simp] theorem Dev.setLane_trg (l : Nat) (x : LaneSt) : (d.setLane l x).trg = d.trg := rfl
@[simp] theorem Dev.setLane_pe (l : Nat) (x : LaneSt) : (d.setLane l x).pe = d.pe := rfl
@[simp] theorem Dev.setLane_pio (l : Nat) (x : LaneSt) : (d.setLane l x).pio = d.pio := rfl
@[simp] theorem Dev.setLane_pioF (l : Nat) (x : LaneSt) : (d.setLane l x).pioF = d.pioF := rfl
@[simp] theorem Dev.setLane_pioAt (l : Nat) (x : LaneSt) : (d.setLane l x).pioAt = d.pioAt := rfl
@[simp] theorem Dev.setLane_tx (l : Nat) (x : LaneSt) : (d.setLane l x).tx = d.tx := rfl
@[simp] theorem Dev.setLane_lanes (l : Nat) (x : LaneSt) : (d.setLane l x).lanes = SMap.set noLane d.lanes l x := rfl
@[simp] theorem Dev.setLane_grps (l : Nat) (x : LaneSt) : (d.setLane l x).grps = d.grps := rfl
@[simp] theorem Dev.setLane_sp (l : Nat) (x : LaneSt) : (d.setLane l x).sp = d.sp := rfl
@[simp] theorem Dev.setLane_dlv (l : Nat) (x : LaneSt) : (d.setLane l x).dlv = d.dlv := rfl
@[simp] theorem Dev.setLane_hlp (l : Nat) (x : LaneSt) : (d.setLane l x).hlp = d.hlp := rfl

/-! ## setGrp -/

@[simp] theorem Dev.setGrp_cyc (g : Nat) (x : GrpSt) : (d.setGrp g x).cyc = d.cyc := rfl
@[simp] theorem Dev.setGrp_freeCtr (g : Nat) (x : GrpSt) : (d.setGrp g x).freeCtr = d.freeCtr := rfl
@[simp] theorem Dev.setGrp_regs (g : Nat) (x : GrpSt) : (d.setGrp g x).regs = d.regs := rfl
@[simp] theorem Dev.setGrp_act (g : Nat) (x : GrpSt) : (d.setGrp g x).act = d.act := rfl
@[simp] theorem Dev.setGrp_evq (g : Nat) (x : GrpSt) : (d.setGrp g x).evq = d.evq := rfl
@[simp] theorem Dev.setGrp_com (g : Nat) (x : GrpSt) : (d.setGrp g x).com = d.com := rfl
@[simp] theorem Dev.setGrp_out (g : Nat) (x : GrpSt) : (d.setGrp g x).out = d.out := rfl
@[simp] theorem Dev.setGrp_mbx (g : Nat) (x : GrpSt) : (d.setGrp g x).mbx = d.mbx := rfl
@[simp] theorem Dev.setGrp_time (g : Nat) (x : GrpSt) : (d.setGrp g x).time = d.time := rfl
@[simp] theorem Dev.setGrp_clk (g : Nat) (x : GrpSt) : (d.setGrp g x).clk = d.clk := rfl
@[simp] theorem Dev.setGrp_aon (g : Nat) (x : GrpSt) : (d.setGrp g x).aon = d.aon := rfl
@[simp] theorem Dev.setGrp_pwr (g : Nat) (x : GrpSt) : (d.setGrp g x).pwr = d.pwr := rfl
@[simp] theorem Dev.setGrp_thm (g : Nat) (x : GrpSt) : (d.setGrp g x).thm = d.thm := rfl
@[simp] theorem Dev.setGrp_nvm (g : Nat) (x : GrpSt) : (d.setGrp g x).nvm = d.nvm := rfl
@[simp] theorem Dev.setGrp_boot (g : Nat) (x : GrpSt) : (d.setGrp g x).boot = d.boot := rfl
@[simp] theorem Dev.setGrp_tap (g : Nat) (x : GrpSt) : (d.setGrp g x).tap = d.tap := rfl
@[simp] theorem Dev.setGrp_reqs (g : Nat) (x : GrpSt) : (d.setGrp g x).reqs = d.reqs := rfl
@[simp] theorem Dev.setGrp_frames (g : Nat) (x : GrpSt) : (d.setGrp g x).frames = d.frames := rfl
@[simp] theorem Dev.setGrp_nextFrame (g : Nat) (x : GrpSt) : (d.setGrp g x).nextFrame = d.nextFrame := rfl
@[simp] theorem Dev.setGrp_gens (g : Nat) (x : GrpSt) : (d.setGrp g x).gens = d.gens := rfl
@[simp] theorem Dev.setGrp_pipe (g : Nat) (x : GrpSt) : (d.setGrp g x).pipe = d.pipe := rfl
@[simp] theorem Dev.setGrp_refs (g : Nat) (x : GrpSt) : (d.setGrp g x).refs = d.refs := rfl
@[simp] theorem Dev.setGrp_bls (g : Nat) (x : GrpSt) : (d.setGrp g x).bls = d.bls := rfl
@[simp] theorem Dev.setGrp_hmp (g : Nat) (x : GrpSt) : (d.setGrp g x).hmp = d.hmp := rfl
@[simp] theorem Dev.setGrp_burst (g : Nat) (x : GrpSt) : (d.setGrp g x).burst = d.burst := rfl
@[simp] theorem Dev.setGrp_views (g : Nat) (x : GrpSt) : (d.setGrp g x).views = d.views := rfl
@[simp] theorem Dev.setGrp_encs (g : Nat) (x : GrpSt) : (d.setGrp g x).encs = d.encs := rfl
@[simp] theorem Dev.setGrp_recs (g : Nat) (x : GrpSt) : (d.setGrp g x).recs = d.recs := rfl
@[simp] theorem Dev.setGrp_defs (g : Nat) (x : GrpSt) : (d.setGrp g x).defs = d.defs := rfl
@[simp] theorem Dev.setGrp_lsc (g : Nat) (x : GrpSt) : (d.setGrp g x).lsc = d.lsc := rfl
@[simp] theorem Dev.setGrp_ary (g : Nat) (x : GrpSt) : (d.setGrp g x).ary = d.ary := rfl
@[simp] theorem Dev.setGrp_eng (g : Nat) (x : GrpSt) : (d.setGrp g x).eng = d.eng := rfl
@[simp] theorem Dev.setGrp_trg (g : Nat) (x : GrpSt) : (d.setGrp g x).trg = d.trg := rfl
@[simp] theorem Dev.setGrp_pe (g : Nat) (x : GrpSt) : (d.setGrp g x).pe = d.pe := rfl
@[simp] theorem Dev.setGrp_pio (g : Nat) (x : GrpSt) : (d.setGrp g x).pio = d.pio := rfl
@[simp] theorem Dev.setGrp_pioF (g : Nat) (x : GrpSt) : (d.setGrp g x).pioF = d.pioF := rfl
@[simp] theorem Dev.setGrp_pioAt (g : Nat) (x : GrpSt) : (d.setGrp g x).pioAt = d.pioAt := rfl
@[simp] theorem Dev.setGrp_tx (g : Nat) (x : GrpSt) : (d.setGrp g x).tx = d.tx := rfl
@[simp] theorem Dev.setGrp_lanes (g : Nat) (x : GrpSt) : (d.setGrp g x).lanes = d.lanes := rfl
@[simp] theorem Dev.setGrp_grps (g : Nat) (x : GrpSt) : (d.setGrp g x).grps = SMap.set noGrp d.grps g x := rfl
@[simp] theorem Dev.setGrp_sp (g : Nat) (x : GrpSt) : (d.setGrp g x).sp = d.sp := rfl
@[simp] theorem Dev.setGrp_dlv (g : Nat) (x : GrpSt) : (d.setGrp g x).dlv = d.dlv := rfl
@[simp] theorem Dev.setGrp_hlp (g : Nat) (x : GrpSt) : (d.setGrp g x).hlp = d.hlp := rfl

/-! ## setPort -/

@[simp] theorem Dev.setPort_cyc (p : Nat) (x : SpSt) : (d.setPort p x).cyc = d.cyc := rfl
@[simp] theorem Dev.setPort_freeCtr (p : Nat) (x : SpSt) : (d.setPort p x).freeCtr = d.freeCtr := rfl
@[simp] theorem Dev.setPort_regs (p : Nat) (x : SpSt) : (d.setPort p x).regs = d.regs := rfl
@[simp] theorem Dev.setPort_act (p : Nat) (x : SpSt) : (d.setPort p x).act = d.act := rfl
@[simp] theorem Dev.setPort_evq (p : Nat) (x : SpSt) : (d.setPort p x).evq = d.evq := rfl
@[simp] theorem Dev.setPort_com (p : Nat) (x : SpSt) : (d.setPort p x).com = d.com := rfl
@[simp] theorem Dev.setPort_out (p : Nat) (x : SpSt) : (d.setPort p x).out = d.out := rfl
@[simp] theorem Dev.setPort_mbx (p : Nat) (x : SpSt) : (d.setPort p x).mbx = d.mbx := rfl
@[simp] theorem Dev.setPort_time (p : Nat) (x : SpSt) : (d.setPort p x).time = d.time := rfl
@[simp] theorem Dev.setPort_clk (p : Nat) (x : SpSt) : (d.setPort p x).clk = d.clk := rfl
@[simp] theorem Dev.setPort_aon (p : Nat) (x : SpSt) : (d.setPort p x).aon = d.aon := rfl
@[simp] theorem Dev.setPort_pwr (p : Nat) (x : SpSt) : (d.setPort p x).pwr = d.pwr := rfl
@[simp] theorem Dev.setPort_thm (p : Nat) (x : SpSt) : (d.setPort p x).thm = d.thm := rfl
@[simp] theorem Dev.setPort_nvm (p : Nat) (x : SpSt) : (d.setPort p x).nvm = d.nvm := rfl
@[simp] theorem Dev.setPort_boot (p : Nat) (x : SpSt) : (d.setPort p x).boot = d.boot := rfl
@[simp] theorem Dev.setPort_tap (p : Nat) (x : SpSt) : (d.setPort p x).tap = d.tap := rfl
@[simp] theorem Dev.setPort_reqs (p : Nat) (x : SpSt) : (d.setPort p x).reqs = d.reqs := rfl
@[simp] theorem Dev.setPort_frames (p : Nat) (x : SpSt) : (d.setPort p x).frames = d.frames := rfl
@[simp] theorem Dev.setPort_nextFrame (p : Nat) (x : SpSt) : (d.setPort p x).nextFrame = d.nextFrame := rfl
@[simp] theorem Dev.setPort_gens (p : Nat) (x : SpSt) : (d.setPort p x).gens = d.gens := rfl
@[simp] theorem Dev.setPort_pipe (p : Nat) (x : SpSt) : (d.setPort p x).pipe = d.pipe := rfl
@[simp] theorem Dev.setPort_refs (p : Nat) (x : SpSt) : (d.setPort p x).refs = d.refs := rfl
@[simp] theorem Dev.setPort_bls (p : Nat) (x : SpSt) : (d.setPort p x).bls = d.bls := rfl
@[simp] theorem Dev.setPort_hmp (p : Nat) (x : SpSt) : (d.setPort p x).hmp = d.hmp := rfl
@[simp] theorem Dev.setPort_burst (p : Nat) (x : SpSt) : (d.setPort p x).burst = d.burst := rfl
@[simp] theorem Dev.setPort_views (p : Nat) (x : SpSt) : (d.setPort p x).views = d.views := rfl
@[simp] theorem Dev.setPort_encs (p : Nat) (x : SpSt) : (d.setPort p x).encs = d.encs := rfl
@[simp] theorem Dev.setPort_recs (p : Nat) (x : SpSt) : (d.setPort p x).recs = d.recs := rfl
@[simp] theorem Dev.setPort_defs (p : Nat) (x : SpSt) : (d.setPort p x).defs = d.defs := rfl
@[simp] theorem Dev.setPort_lsc (p : Nat) (x : SpSt) : (d.setPort p x).lsc = d.lsc := rfl
@[simp] theorem Dev.setPort_ary (p : Nat) (x : SpSt) : (d.setPort p x).ary = d.ary := rfl
@[simp] theorem Dev.setPort_eng (p : Nat) (x : SpSt) : (d.setPort p x).eng = d.eng := rfl
@[simp] theorem Dev.setPort_trg (p : Nat) (x : SpSt) : (d.setPort p x).trg = d.trg := rfl
@[simp] theorem Dev.setPort_pe (p : Nat) (x : SpSt) : (d.setPort p x).pe = d.pe := rfl
@[simp] theorem Dev.setPort_pio (p : Nat) (x : SpSt) : (d.setPort p x).pio = d.pio := rfl
@[simp] theorem Dev.setPort_pioF (p : Nat) (x : SpSt) : (d.setPort p x).pioF = d.pioF := rfl
@[simp] theorem Dev.setPort_pioAt (p : Nat) (x : SpSt) : (d.setPort p x).pioAt = d.pioAt := rfl
@[simp] theorem Dev.setPort_tx (p : Nat) (x : SpSt) : (d.setPort p x).tx = d.tx := rfl
@[simp] theorem Dev.setPort_lanes (p : Nat) (x : SpSt) : (d.setPort p x).lanes = d.lanes := rfl
@[simp] theorem Dev.setPort_grps (p : Nat) (x : SpSt) : (d.setPort p x).grps = d.grps := rfl
@[simp] theorem Dev.setPort_sp (p : Nat) (x : SpSt) : (d.setPort p x).sp = SMap.set noSp d.sp p x := rfl
@[simp] theorem Dev.setPort_dlv (p : Nat) (x : SpSt) : (d.setPort p x).dlv = d.dlv := rfl
@[simp] theorem Dev.setPort_hlp (p : Nat) (x : SpSt) : (d.setPort p x).hlp = d.hlp := rfl

/-! ## setEnc -/

@[simp] theorem Dev.setEnc_cyc (n : Nat) (x : EncSt) : (d.setEnc n x).cyc = d.cyc := rfl
@[simp] theorem Dev.setEnc_freeCtr (n : Nat) (x : EncSt) : (d.setEnc n x).freeCtr = d.freeCtr := rfl
@[simp] theorem Dev.setEnc_regs (n : Nat) (x : EncSt) : (d.setEnc n x).regs = d.regs := rfl
@[simp] theorem Dev.setEnc_act (n : Nat) (x : EncSt) : (d.setEnc n x).act = d.act := rfl
@[simp] theorem Dev.setEnc_evq (n : Nat) (x : EncSt) : (d.setEnc n x).evq = d.evq := rfl
@[simp] theorem Dev.setEnc_com (n : Nat) (x : EncSt) : (d.setEnc n x).com = d.com := rfl
@[simp] theorem Dev.setEnc_out (n : Nat) (x : EncSt) : (d.setEnc n x).out = d.out := rfl
@[simp] theorem Dev.setEnc_mbx (n : Nat) (x : EncSt) : (d.setEnc n x).mbx = d.mbx := rfl
@[simp] theorem Dev.setEnc_time (n : Nat) (x : EncSt) : (d.setEnc n x).time = d.time := rfl
@[simp] theorem Dev.setEnc_clk (n : Nat) (x : EncSt) : (d.setEnc n x).clk = d.clk := rfl
@[simp] theorem Dev.setEnc_aon (n : Nat) (x : EncSt) : (d.setEnc n x).aon = d.aon := rfl
@[simp] theorem Dev.setEnc_pwr (n : Nat) (x : EncSt) : (d.setEnc n x).pwr = d.pwr := rfl
@[simp] theorem Dev.setEnc_thm (n : Nat) (x : EncSt) : (d.setEnc n x).thm = d.thm := rfl
@[simp] theorem Dev.setEnc_nvm (n : Nat) (x : EncSt) : (d.setEnc n x).nvm = d.nvm := rfl
@[simp] theorem Dev.setEnc_boot (n : Nat) (x : EncSt) : (d.setEnc n x).boot = d.boot := rfl
@[simp] theorem Dev.setEnc_tap (n : Nat) (x : EncSt) : (d.setEnc n x).tap = d.tap := rfl
@[simp] theorem Dev.setEnc_reqs (n : Nat) (x : EncSt) : (d.setEnc n x).reqs = d.reqs := rfl
@[simp] theorem Dev.setEnc_frames (n : Nat) (x : EncSt) : (d.setEnc n x).frames = d.frames := rfl
@[simp] theorem Dev.setEnc_nextFrame (n : Nat) (x : EncSt) : (d.setEnc n x).nextFrame = d.nextFrame := rfl
@[simp] theorem Dev.setEnc_gens (n : Nat) (x : EncSt) : (d.setEnc n x).gens = d.gens := rfl
@[simp] theorem Dev.setEnc_pipe (n : Nat) (x : EncSt) : (d.setEnc n x).pipe = d.pipe := rfl
@[simp] theorem Dev.setEnc_refs (n : Nat) (x : EncSt) : (d.setEnc n x).refs = d.refs := rfl
@[simp] theorem Dev.setEnc_bls (n : Nat) (x : EncSt) : (d.setEnc n x).bls = d.bls := rfl
@[simp] theorem Dev.setEnc_hmp (n : Nat) (x : EncSt) : (d.setEnc n x).hmp = d.hmp := rfl
@[simp] theorem Dev.setEnc_burst (n : Nat) (x : EncSt) : (d.setEnc n x).burst = d.burst := rfl
@[simp] theorem Dev.setEnc_views (n : Nat) (x : EncSt) : (d.setEnc n x).views = d.views := rfl
@[simp] theorem Dev.setEnc_encs (n : Nat) (x : EncSt) : (d.setEnc n x).encs = SMap.set noEnc d.encs n x := rfl
@[simp] theorem Dev.setEnc_recs (n : Nat) (x : EncSt) : (d.setEnc n x).recs = d.recs := rfl
@[simp] theorem Dev.setEnc_defs (n : Nat) (x : EncSt) : (d.setEnc n x).defs = d.defs := rfl
@[simp] theorem Dev.setEnc_lsc (n : Nat) (x : EncSt) : (d.setEnc n x).lsc = d.lsc := rfl
@[simp] theorem Dev.setEnc_ary (n : Nat) (x : EncSt) : (d.setEnc n x).ary = d.ary := rfl
@[simp] theorem Dev.setEnc_eng (n : Nat) (x : EncSt) : (d.setEnc n x).eng = d.eng := rfl
@[simp] theorem Dev.setEnc_trg (n : Nat) (x : EncSt) : (d.setEnc n x).trg = d.trg := rfl
@[simp] theorem Dev.setEnc_pe (n : Nat) (x : EncSt) : (d.setEnc n x).pe = d.pe := rfl
@[simp] theorem Dev.setEnc_pio (n : Nat) (x : EncSt) : (d.setEnc n x).pio = d.pio := rfl
@[simp] theorem Dev.setEnc_pioF (n : Nat) (x : EncSt) : (d.setEnc n x).pioF = d.pioF := rfl
@[simp] theorem Dev.setEnc_pioAt (n : Nat) (x : EncSt) : (d.setEnc n x).pioAt = d.pioAt := rfl
@[simp] theorem Dev.setEnc_tx (n : Nat) (x : EncSt) : (d.setEnc n x).tx = d.tx := rfl
@[simp] theorem Dev.setEnc_lanes (n : Nat) (x : EncSt) : (d.setEnc n x).lanes = d.lanes := rfl
@[simp] theorem Dev.setEnc_grps (n : Nat) (x : EncSt) : (d.setEnc n x).grps = d.grps := rfl
@[simp] theorem Dev.setEnc_sp (n : Nat) (x : EncSt) : (d.setEnc n x).sp = d.sp := rfl
@[simp] theorem Dev.setEnc_dlv (n : Nat) (x : EncSt) : (d.setEnc n x).dlv = d.dlv := rfl
@[simp] theorem Dev.setEnc_hlp (n : Nat) (x : EncSt) : (d.setEnc n x).hlp = d.hlp := rfl

/-! ## setView -/

@[simp] theorem Dev.setView_cyc (v : Nat) (x : VewSt) : (d.setView v x).cyc = d.cyc := rfl
@[simp] theorem Dev.setView_freeCtr (v : Nat) (x : VewSt) : (d.setView v x).freeCtr = d.freeCtr := rfl
@[simp] theorem Dev.setView_regs (v : Nat) (x : VewSt) : (d.setView v x).regs = d.regs := rfl
@[simp] theorem Dev.setView_act (v : Nat) (x : VewSt) : (d.setView v x).act = d.act := rfl
@[simp] theorem Dev.setView_evq (v : Nat) (x : VewSt) : (d.setView v x).evq = d.evq := rfl
@[simp] theorem Dev.setView_com (v : Nat) (x : VewSt) : (d.setView v x).com = d.com := rfl
@[simp] theorem Dev.setView_out (v : Nat) (x : VewSt) : (d.setView v x).out = d.out := rfl
@[simp] theorem Dev.setView_mbx (v : Nat) (x : VewSt) : (d.setView v x).mbx = d.mbx := rfl
@[simp] theorem Dev.setView_time (v : Nat) (x : VewSt) : (d.setView v x).time = d.time := rfl
@[simp] theorem Dev.setView_clk (v : Nat) (x : VewSt) : (d.setView v x).clk = d.clk := rfl
@[simp] theorem Dev.setView_aon (v : Nat) (x : VewSt) : (d.setView v x).aon = d.aon := rfl
@[simp] theorem Dev.setView_pwr (v : Nat) (x : VewSt) : (d.setView v x).pwr = d.pwr := rfl
@[simp] theorem Dev.setView_thm (v : Nat) (x : VewSt) : (d.setView v x).thm = d.thm := rfl
@[simp] theorem Dev.setView_nvm (v : Nat) (x : VewSt) : (d.setView v x).nvm = d.nvm := rfl
@[simp] theorem Dev.setView_boot (v : Nat) (x : VewSt) : (d.setView v x).boot = d.boot := rfl
@[simp] theorem Dev.setView_tap (v : Nat) (x : VewSt) : (d.setView v x).tap = d.tap := rfl
@[simp] theorem Dev.setView_reqs (v : Nat) (x : VewSt) : (d.setView v x).reqs = d.reqs := rfl
@[simp] theorem Dev.setView_frames (v : Nat) (x : VewSt) : (d.setView v x).frames = d.frames := rfl
@[simp] theorem Dev.setView_nextFrame (v : Nat) (x : VewSt) : (d.setView v x).nextFrame = d.nextFrame := rfl
@[simp] theorem Dev.setView_gens (v : Nat) (x : VewSt) : (d.setView v x).gens = d.gens := rfl
@[simp] theorem Dev.setView_pipe (v : Nat) (x : VewSt) : (d.setView v x).pipe = d.pipe := rfl
@[simp] theorem Dev.setView_refs (v : Nat) (x : VewSt) : (d.setView v x).refs = d.refs := rfl
@[simp] theorem Dev.setView_bls (v : Nat) (x : VewSt) : (d.setView v x).bls = d.bls := rfl
@[simp] theorem Dev.setView_hmp (v : Nat) (x : VewSt) : (d.setView v x).hmp = d.hmp := rfl
@[simp] theorem Dev.setView_burst (v : Nat) (x : VewSt) : (d.setView v x).burst = d.burst := rfl
@[simp] theorem Dev.setView_views (v : Nat) (x : VewSt) : (d.setView v x).views = SMap.set noVew d.views v x := rfl
@[simp] theorem Dev.setView_encs (v : Nat) (x : VewSt) : (d.setView v x).encs = d.encs := rfl
@[simp] theorem Dev.setView_recs (v : Nat) (x : VewSt) : (d.setView v x).recs = d.recs := rfl
@[simp] theorem Dev.setView_defs (v : Nat) (x : VewSt) : (d.setView v x).defs = d.defs := rfl
@[simp] theorem Dev.setView_lsc (v : Nat) (x : VewSt) : (d.setView v x).lsc = d.lsc := rfl
@[simp] theorem Dev.setView_ary (v : Nat) (x : VewSt) : (d.setView v x).ary = d.ary := rfl
@[simp] theorem Dev.setView_eng (v : Nat) (x : VewSt) : (d.setView v x).eng = d.eng := rfl
@[simp] theorem Dev.setView_trg (v : Nat) (x : VewSt) : (d.setView v x).trg = d.trg := rfl
@[simp] theorem Dev.setView_pe (v : Nat) (x : VewSt) : (d.setView v x).pe = d.pe := rfl
@[simp] theorem Dev.setView_pio (v : Nat) (x : VewSt) : (d.setView v x).pio = d.pio := rfl
@[simp] theorem Dev.setView_pioF (v : Nat) (x : VewSt) : (d.setView v x).pioF = d.pioF := rfl
@[simp] theorem Dev.setView_pioAt (v : Nat) (x : VewSt) : (d.setView v x).pioAt = d.pioAt := rfl
@[simp] theorem Dev.setView_tx (v : Nat) (x : VewSt) : (d.setView v x).tx = d.tx := rfl
@[simp] theorem Dev.setView_lanes (v : Nat) (x : VewSt) : (d.setView v x).lanes = d.lanes := rfl
@[simp] theorem Dev.setView_grps (v : Nat) (x : VewSt) : (d.setView v x).grps = d.grps := rfl
@[simp] theorem Dev.setView_sp (v : Nat) (x : VewSt) : (d.setView v x).sp = d.sp := rfl
@[simp] theorem Dev.setView_dlv (v : Nat) (x : VewSt) : (d.setView v x).dlv = d.dlv := rfl
@[simp] theorem Dev.setView_hlp (v : Nat) (x : VewSt) : (d.setView v x).hlp = d.hlp := rfl

/-! ## setRef -/

@[simp] theorem Dev.setRef_cyc (k : Nat) (r : RefSt) : (d.setRef k r).cyc = d.cyc := rfl
@[simp] theorem Dev.setRef_freeCtr (k : Nat) (r : RefSt) : (d.setRef k r).freeCtr = d.freeCtr := rfl
@[simp] theorem Dev.setRef_regs (k : Nat) (r : RefSt) : (d.setRef k r).regs = d.regs := rfl
@[simp] theorem Dev.setRef_act (k : Nat) (r : RefSt) : (d.setRef k r).act = d.act := rfl
@[simp] theorem Dev.setRef_evq (k : Nat) (r : RefSt) : (d.setRef k r).evq = d.evq := rfl
@[simp] theorem Dev.setRef_com (k : Nat) (r : RefSt) : (d.setRef k r).com = d.com := rfl
@[simp] theorem Dev.setRef_out (k : Nat) (r : RefSt) : (d.setRef k r).out = d.out := rfl
@[simp] theorem Dev.setRef_mbx (k : Nat) (r : RefSt) : (d.setRef k r).mbx = d.mbx := rfl
@[simp] theorem Dev.setRef_time (k : Nat) (r : RefSt) : (d.setRef k r).time = d.time := rfl
@[simp] theorem Dev.setRef_clk (k : Nat) (r : RefSt) : (d.setRef k r).clk = d.clk := rfl
@[simp] theorem Dev.setRef_aon (k : Nat) (r : RefSt) : (d.setRef k r).aon = d.aon := rfl
@[simp] theorem Dev.setRef_pwr (k : Nat) (r : RefSt) : (d.setRef k r).pwr = d.pwr := rfl
@[simp] theorem Dev.setRef_thm (k : Nat) (r : RefSt) : (d.setRef k r).thm = d.thm := rfl
@[simp] theorem Dev.setRef_nvm (k : Nat) (r : RefSt) : (d.setRef k r).nvm = d.nvm := rfl
@[simp] theorem Dev.setRef_boot (k : Nat) (r : RefSt) : (d.setRef k r).boot = d.boot := rfl
@[simp] theorem Dev.setRef_tap (k : Nat) (r : RefSt) : (d.setRef k r).tap = d.tap := rfl
@[simp] theorem Dev.setRef_reqs (k : Nat) (r : RefSt) : (d.setRef k r).reqs = d.reqs := rfl
@[simp] theorem Dev.setRef_frames (k : Nat) (r : RefSt) : (d.setRef k r).frames = d.frames := rfl
@[simp] theorem Dev.setRef_nextFrame (k : Nat) (r : RefSt) : (d.setRef k r).nextFrame = d.nextFrame := rfl
@[simp] theorem Dev.setRef_gens (k : Nat) (r : RefSt) : (d.setRef k r).gens = d.gens := rfl
@[simp] theorem Dev.setRef_pipe (k : Nat) (r : RefSt) : (d.setRef k r).pipe = d.pipe := rfl
@[simp] theorem Dev.setRef_refs (k : Nat) (r : RefSt) : (d.setRef k r).refs = SMap.set noRef d.refs k r := rfl
@[simp] theorem Dev.setRef_bls (k : Nat) (r : RefSt) : (d.setRef k r).bls = d.bls := rfl
@[simp] theorem Dev.setRef_hmp (k : Nat) (r : RefSt) : (d.setRef k r).hmp = d.hmp := rfl
@[simp] theorem Dev.setRef_burst (k : Nat) (r : RefSt) : (d.setRef k r).burst = d.burst := rfl
@[simp] theorem Dev.setRef_views (k : Nat) (r : RefSt) : (d.setRef k r).views = d.views := rfl
@[simp] theorem Dev.setRef_encs (k : Nat) (r : RefSt) : (d.setRef k r).encs = d.encs := rfl
@[simp] theorem Dev.setRef_recs (k : Nat) (r : RefSt) : (d.setRef k r).recs = d.recs := rfl
@[simp] theorem Dev.setRef_defs (k : Nat) (r : RefSt) : (d.setRef k r).defs = d.defs := rfl
@[simp] theorem Dev.setRef_lsc (k : Nat) (r : RefSt) : (d.setRef k r).lsc = d.lsc := rfl
@[simp] theorem Dev.setRef_ary (k : Nat) (r : RefSt) : (d.setRef k r).ary = d.ary := rfl
@[simp] theorem Dev.setRef_eng (k : Nat) (r : RefSt) : (d.setRef k r).eng = d.eng := rfl
@[simp] theorem Dev.setRef_trg (k : Nat) (r : RefSt) : (d.setRef k r).trg = d.trg := rfl
@[simp] theorem Dev.setRef_pe (k : Nat) (r : RefSt) : (d.setRef k r).pe = d.pe := rfl
@[simp] theorem Dev.setRef_pio (k : Nat) (r : RefSt) : (d.setRef k r).pio = d.pio := rfl
@[simp] theorem Dev.setRef_pioF (k : Nat) (r : RefSt) : (d.setRef k r).pioF = d.pioF := rfl
@[simp] theorem Dev.setRef_pioAt (k : Nat) (r : RefSt) : (d.setRef k r).pioAt = d.pioAt := rfl
@[simp] theorem Dev.setRef_tx (k : Nat) (r : RefSt) : (d.setRef k r).tx = d.tx := rfl
@[simp] theorem Dev.setRef_lanes (k : Nat) (r : RefSt) : (d.setRef k r).lanes = d.lanes := rfl
@[simp] theorem Dev.setRef_grps (k : Nat) (r : RefSt) : (d.setRef k r).grps = d.grps := rfl
@[simp] theorem Dev.setRef_sp (k : Nat) (r : RefSt) : (d.setRef k r).sp = d.sp := rfl
@[simp] theorem Dev.setRef_dlv (k : Nat) (r : RefSt) : (d.setRef k r).dlv = d.dlv := rfl
@[simp] theorem Dev.setRef_hlp (k : Nat) (r : RefSt) : (d.setRef k r).hlp = d.hlp := rfl

/-! ## setPf -/

@[simp] theorem Dev.setPf_cyc (u : Nat) (x : PFrame) : (d.setPf u x).cyc = d.cyc := rfl
@[simp] theorem Dev.setPf_freeCtr (u : Nat) (x : PFrame) : (d.setPf u x).freeCtr = d.freeCtr := rfl
@[simp] theorem Dev.setPf_regs (u : Nat) (x : PFrame) : (d.setPf u x).regs = d.regs := rfl
@[simp] theorem Dev.setPf_act (u : Nat) (x : PFrame) : (d.setPf u x).act = d.act := rfl
@[simp] theorem Dev.setPf_evq (u : Nat) (x : PFrame) : (d.setPf u x).evq = d.evq := rfl
@[simp] theorem Dev.setPf_com (u : Nat) (x : PFrame) : (d.setPf u x).com = d.com := rfl
@[simp] theorem Dev.setPf_out (u : Nat) (x : PFrame) : (d.setPf u x).out = d.out := rfl
@[simp] theorem Dev.setPf_mbx (u : Nat) (x : PFrame) : (d.setPf u x).mbx = d.mbx := rfl
@[simp] theorem Dev.setPf_time (u : Nat) (x : PFrame) : (d.setPf u x).time = d.time := rfl
@[simp] theorem Dev.setPf_clk (u : Nat) (x : PFrame) : (d.setPf u x).clk = d.clk := rfl
@[simp] theorem Dev.setPf_aon (u : Nat) (x : PFrame) : (d.setPf u x).aon = d.aon := rfl
@[simp] theorem Dev.setPf_pwr (u : Nat) (x : PFrame) : (d.setPf u x).pwr = d.pwr := rfl
@[simp] theorem Dev.setPf_thm (u : Nat) (x : PFrame) : (d.setPf u x).thm = d.thm := rfl
@[simp] theorem Dev.setPf_nvm (u : Nat) (x : PFrame) : (d.setPf u x).nvm = d.nvm := rfl
@[simp] theorem Dev.setPf_boot (u : Nat) (x : PFrame) : (d.setPf u x).boot = d.boot := rfl
@[simp] theorem Dev.setPf_tap (u : Nat) (x : PFrame) : (d.setPf u x).tap = d.tap := rfl
@[simp] theorem Dev.setPf_reqs (u : Nat) (x : PFrame) : (d.setPf u x).reqs = d.reqs := rfl
@[simp] theorem Dev.setPf_frames (u : Nat) (x : PFrame) : (d.setPf u x).frames = d.frames := rfl
@[simp] theorem Dev.setPf_nextFrame (u : Nat) (x : PFrame) : (d.setPf u x).nextFrame = d.nextFrame := rfl
@[simp] theorem Dev.setPf_gens (u : Nat) (x : PFrame) : (d.setPf u x).gens = d.gens := rfl
@[simp] theorem Dev.setPf_pipe (u : Nat) (x : PFrame) : (d.setPf u x).pipe = SMap.set noPf d.pipe u x := rfl
@[simp] theorem Dev.setPf_refs (u : Nat) (x : PFrame) : (d.setPf u x).refs = d.refs := rfl
@[simp] theorem Dev.setPf_bls (u : Nat) (x : PFrame) : (d.setPf u x).bls = d.bls := rfl
@[simp] theorem Dev.setPf_hmp (u : Nat) (x : PFrame) : (d.setPf u x).hmp = d.hmp := rfl
@[simp] theorem Dev.setPf_burst (u : Nat) (x : PFrame) : (d.setPf u x).burst = d.burst := rfl
@[simp] theorem Dev.setPf_views (u : Nat) (x : PFrame) : (d.setPf u x).views = d.views := rfl
@[simp] theorem Dev.setPf_encs (u : Nat) (x : PFrame) : (d.setPf u x).encs = d.encs := rfl
@[simp] theorem Dev.setPf_recs (u : Nat) (x : PFrame) : (d.setPf u x).recs = d.recs := rfl
@[simp] theorem Dev.setPf_defs (u : Nat) (x : PFrame) : (d.setPf u x).defs = d.defs := rfl
@[simp] theorem Dev.setPf_lsc (u : Nat) (x : PFrame) : (d.setPf u x).lsc = d.lsc := rfl
@[simp] theorem Dev.setPf_ary (u : Nat) (x : PFrame) : (d.setPf u x).ary = d.ary := rfl
@[simp] theorem Dev.setPf_eng (u : Nat) (x : PFrame) : (d.setPf u x).eng = d.eng := rfl
@[simp] theorem Dev.setPf_trg (u : Nat) (x : PFrame) : (d.setPf u x).trg = d.trg := rfl
@[simp] theorem Dev.setPf_pe (u : Nat) (x : PFrame) : (d.setPf u x).pe = d.pe := rfl
@[simp] theorem Dev.setPf_pio (u : Nat) (x : PFrame) : (d.setPf u x).pio = d.pio := rfl
@[simp] theorem Dev.setPf_pioF (u : Nat) (x : PFrame) : (d.setPf u x).pioF = d.pioF := rfl
@[simp] theorem Dev.setPf_pioAt (u : Nat) (x : PFrame) : (d.setPf u x).pioAt = d.pioAt := rfl
@[simp] theorem Dev.setPf_tx (u : Nat) (x : PFrame) : (d.setPf u x).tx = d.tx := rfl
@[simp] theorem Dev.setPf_lanes (u : Nat) (x : PFrame) : (d.setPf u x).lanes = d.lanes := rfl
@[simp] theorem Dev.setPf_grps (u : Nat) (x : PFrame) : (d.setPf u x).grps = d.grps := rfl
@[simp] theorem Dev.setPf_sp (u : Nat) (x : PFrame) : (d.setPf u x).sp = d.sp := rfl
@[simp] theorem Dev.setPf_dlv (u : Nat) (x : PFrame) : (d.setPf u x).dlv = d.dlv := rfl
@[simp] theorem Dev.setPf_hlp (u : Nat) (x : PFrame) : (d.setPf u x).hlp = d.hlp := rfl

/-! ## setFrame -/

@[simp] theorem Dev.setFrame_cyc (u : Nat) (f : Frame) : (d.setFrame u f).cyc = d.cyc := rfl
@[simp] theorem Dev.setFrame_freeCtr (u : Nat) (f : Frame) : (d.setFrame u f).freeCtr = d.freeCtr := rfl
@[simp] theorem Dev.setFrame_regs (u : Nat) (f : Frame) : (d.setFrame u f).regs = d.regs := rfl
@[simp] theorem Dev.setFrame_act (u : Nat) (f : Frame) : (d.setFrame u f).act = d.act := rfl
@[simp] theorem Dev.setFrame_evq (u : Nat) (f : Frame) : (d.setFrame u f).evq = d.evq := rfl
@[simp] theorem Dev.setFrame_com (u : Nat) (f : Frame) : (d.setFrame u f).com = d.com := rfl
@[simp] theorem Dev.setFrame_out (u : Nat) (f : Frame) : (d.setFrame u f).out = d.out := rfl
@[simp] theorem Dev.setFrame_mbx (u : Nat) (f : Frame) : (d.setFrame u f).mbx = d.mbx := rfl
@[simp] theorem Dev.setFrame_time (u : Nat) (f : Frame) : (d.setFrame u f).time = d.time := rfl
@[simp] theorem Dev.setFrame_clk (u : Nat) (f : Frame) : (d.setFrame u f).clk = d.clk := rfl
@[simp] theorem Dev.setFrame_aon (u : Nat) (f : Frame) : (d.setFrame u f).aon = d.aon := rfl
@[simp] theorem Dev.setFrame_pwr (u : Nat) (f : Frame) : (d.setFrame u f).pwr = d.pwr := rfl
@[simp] theorem Dev.setFrame_thm (u : Nat) (f : Frame) : (d.setFrame u f).thm = d.thm := rfl
@[simp] theorem Dev.setFrame_nvm (u : Nat) (f : Frame) : (d.setFrame u f).nvm = d.nvm := rfl
@[simp] theorem Dev.setFrame_boot (u : Nat) (f : Frame) : (d.setFrame u f).boot = d.boot := rfl
@[simp] theorem Dev.setFrame_tap (u : Nat) (f : Frame) : (d.setFrame u f).tap = d.tap := rfl
@[simp] theorem Dev.setFrame_reqs (u : Nat) (f : Frame) : (d.setFrame u f).reqs = d.reqs := rfl
@[simp] theorem Dev.setFrame_nextFrame (u : Nat) (f : Frame) : (d.setFrame u f).nextFrame = d.nextFrame := rfl
@[simp] theorem Dev.setFrame_gens (u : Nat) (f : Frame) : (d.setFrame u f).gens = d.gens := rfl
@[simp] theorem Dev.setFrame_pipe (u : Nat) (f : Frame) : (d.setFrame u f).pipe = d.pipe := rfl
@[simp] theorem Dev.setFrame_refs (u : Nat) (f : Frame) : (d.setFrame u f).refs = d.refs := rfl
@[simp] theorem Dev.setFrame_bls (u : Nat) (f : Frame) : (d.setFrame u f).bls = d.bls := rfl
@[simp] theorem Dev.setFrame_hmp (u : Nat) (f : Frame) : (d.setFrame u f).hmp = d.hmp := rfl
@[simp] theorem Dev.setFrame_burst (u : Nat) (f : Frame) : (d.setFrame u f).burst = d.burst := rfl
@[simp] theorem Dev.setFrame_views (u : Nat) (f : Frame) : (d.setFrame u f).views = d.views := rfl
@[simp] theorem Dev.setFrame_encs (u : Nat) (f : Frame) : (d.setFrame u f).encs = d.encs := rfl
@[simp] theorem Dev.setFrame_recs (u : Nat) (f : Frame) : (d.setFrame u f).recs = d.recs := rfl
@[simp] theorem Dev.setFrame_defs (u : Nat) (f : Frame) : (d.setFrame u f).defs = d.defs := rfl
@[simp] theorem Dev.setFrame_lsc (u : Nat) (f : Frame) : (d.setFrame u f).lsc = d.lsc := rfl
@[simp] theorem Dev.setFrame_ary (u : Nat) (f : Frame) : (d.setFrame u f).ary = d.ary := rfl
@[simp] theorem Dev.setFrame_eng (u : Nat) (f : Frame) : (d.setFrame u f).eng = d.eng := rfl
@[simp] theorem Dev.setFrame_trg (u : Nat) (f : Frame) : (d.setFrame u f).trg = d.trg := rfl
@[simp] theorem Dev.setFrame_pe (u : Nat) (f : Frame) : (d.setFrame u f).pe = d.pe := rfl
@[simp] theorem Dev.setFrame_pio (u : Nat) (f : Frame) : (d.setFrame u f).pio = d.pio := rfl
@[simp] theorem Dev.setFrame_pioF (u : Nat) (f : Frame) : (d.setFrame u f).pioF = d.pioF := rfl
@[simp] theorem Dev.setFrame_pioAt (u : Nat) (f : Frame) : (d.setFrame u f).pioAt = d.pioAt := rfl
@[simp] theorem Dev.setFrame_tx (u : Nat) (f : Frame) : (d.setFrame u f).tx = d.tx := rfl
@[simp] theorem Dev.setFrame_lanes (u : Nat) (f : Frame) : (d.setFrame u f).lanes = d.lanes := rfl
@[simp] theorem Dev.setFrame_grps (u : Nat) (f : Frame) : (d.setFrame u f).grps = d.grps := rfl
@[simp] theorem Dev.setFrame_sp (u : Nat) (f : Frame) : (d.setFrame u f).sp = d.sp := rfl
@[simp] theorem Dev.setFrame_dlv (u : Nat) (f : Frame) : (d.setFrame u f).dlv = d.dlv := rfl
@[simp] theorem Dev.setFrame_hlp (u : Nat) (f : Frame) : (d.setFrame u f).hlp = d.hlp := rfl

/-! ## setTxLane -/

@[simp] theorem Dev.setTxLane_cyc (l : Nat) (x : TxLane) : (d.setTxLane l x).cyc = d.cyc := rfl
@[simp] theorem Dev.setTxLane_freeCtr (l : Nat) (x : TxLane) : (d.setTxLane l x).freeCtr = d.freeCtr := rfl
@[simp] theorem Dev.setTxLane_regs (l : Nat) (x : TxLane) : (d.setTxLane l x).regs = d.regs := rfl
@[simp] theorem Dev.setTxLane_act (l : Nat) (x : TxLane) : (d.setTxLane l x).act = d.act := rfl
@[simp] theorem Dev.setTxLane_evq (l : Nat) (x : TxLane) : (d.setTxLane l x).evq = d.evq := rfl
@[simp] theorem Dev.setTxLane_com (l : Nat) (x : TxLane) : (d.setTxLane l x).com = d.com := rfl
@[simp] theorem Dev.setTxLane_out (l : Nat) (x : TxLane) : (d.setTxLane l x).out = d.out := rfl
@[simp] theorem Dev.setTxLane_mbx (l : Nat) (x : TxLane) : (d.setTxLane l x).mbx = d.mbx := rfl
@[simp] theorem Dev.setTxLane_time (l : Nat) (x : TxLane) : (d.setTxLane l x).time = d.time := rfl
@[simp] theorem Dev.setTxLane_clk (l : Nat) (x : TxLane) : (d.setTxLane l x).clk = d.clk := rfl
@[simp] theorem Dev.setTxLane_aon (l : Nat) (x : TxLane) : (d.setTxLane l x).aon = d.aon := rfl
@[simp] theorem Dev.setTxLane_pwr (l : Nat) (x : TxLane) : (d.setTxLane l x).pwr = d.pwr := rfl
@[simp] theorem Dev.setTxLane_thm (l : Nat) (x : TxLane) : (d.setTxLane l x).thm = d.thm := rfl
@[simp] theorem Dev.setTxLane_nvm (l : Nat) (x : TxLane) : (d.setTxLane l x).nvm = d.nvm := rfl
@[simp] theorem Dev.setTxLane_boot (l : Nat) (x : TxLane) : (d.setTxLane l x).boot = d.boot := rfl
@[simp] theorem Dev.setTxLane_tap (l : Nat) (x : TxLane) : (d.setTxLane l x).tap = d.tap := rfl
@[simp] theorem Dev.setTxLane_reqs (l : Nat) (x : TxLane) : (d.setTxLane l x).reqs = d.reqs := rfl
@[simp] theorem Dev.setTxLane_nextFrame (l : Nat) (x : TxLane) : (d.setTxLane l x).nextFrame = d.nextFrame := rfl
@[simp] theorem Dev.setTxLane_gens (l : Nat) (x : TxLane) : (d.setTxLane l x).gens = d.gens := rfl
@[simp] theorem Dev.setTxLane_pipe (l : Nat) (x : TxLane) : (d.setTxLane l x).pipe = d.pipe := rfl
@[simp] theorem Dev.setTxLane_refs (l : Nat) (x : TxLane) : (d.setTxLane l x).refs = d.refs := rfl
@[simp] theorem Dev.setTxLane_bls (l : Nat) (x : TxLane) : (d.setTxLane l x).bls = d.bls := rfl
@[simp] theorem Dev.setTxLane_hmp (l : Nat) (x : TxLane) : (d.setTxLane l x).hmp = d.hmp := rfl
@[simp] theorem Dev.setTxLane_burst (l : Nat) (x : TxLane) : (d.setTxLane l x).burst = d.burst := rfl
@[simp] theorem Dev.setTxLane_views (l : Nat) (x : TxLane) : (d.setTxLane l x).views = d.views := rfl
@[simp] theorem Dev.setTxLane_encs (l : Nat) (x : TxLane) : (d.setTxLane l x).encs = d.encs := rfl
@[simp] theorem Dev.setTxLane_recs (l : Nat) (x : TxLane) : (d.setTxLane l x).recs = d.recs := rfl
@[simp] theorem Dev.setTxLane_defs (l : Nat) (x : TxLane) : (d.setTxLane l x).defs = d.defs := rfl
@[simp] theorem Dev.setTxLane_lsc (l : Nat) (x : TxLane) : (d.setTxLane l x).lsc = d.lsc := rfl
@[simp] theorem Dev.setTxLane_ary (l : Nat) (x : TxLane) : (d.setTxLane l x).ary = d.ary := rfl
@[simp] theorem Dev.setTxLane_eng (l : Nat) (x : TxLane) : (d.setTxLane l x).eng = d.eng := rfl
@[simp] theorem Dev.setTxLane_trg (l : Nat) (x : TxLane) : (d.setTxLane l x).trg = d.trg := rfl
@[simp] theorem Dev.setTxLane_pe (l : Nat) (x : TxLane) : (d.setTxLane l x).pe = d.pe := rfl
@[simp] theorem Dev.setTxLane_pio (l : Nat) (x : TxLane) : (d.setTxLane l x).pio = d.pio := rfl
@[simp] theorem Dev.setTxLane_pioF (l : Nat) (x : TxLane) : (d.setTxLane l x).pioF = d.pioF := rfl
@[simp] theorem Dev.setTxLane_pioAt (l : Nat) (x : TxLane) : (d.setTxLane l x).pioAt = d.pioAt := rfl
@[simp] theorem Dev.setTxLane_tx (l : Nat) (x : TxLane) : (d.setTxLane l x).tx = { d.tx with lanes := SMap.set noTxLane d.tx.lanes l x } := rfl
@[simp] theorem Dev.setTxLane_lanes (l : Nat) (x : TxLane) : (d.setTxLane l x).lanes = d.lanes := rfl
@[simp] theorem Dev.setTxLane_grps (l : Nat) (x : TxLane) : (d.setTxLane l x).grps = d.grps := rfl
@[simp] theorem Dev.setTxLane_sp (l : Nat) (x : TxLane) : (d.setTxLane l x).sp = d.sp := rfl
@[simp] theorem Dev.setTxLane_dlv (l : Nat) (x : TxLane) : (d.setTxLane l x).dlv = d.dlv := rfl
@[simp] theorem Dev.setTxLane_hlp (l : Nat) (x : TxLane) : (d.setTxLane l x).hlp = d.hlp := rfl
@[simp] theorem Dev.setTxLane_frames (l : Nat) (x : TxLane) : (d.setTxLane l x).frames = d.frames := rfl

/-! ## setTxGrp -/

@[simp] theorem Dev.setTxGrp_cyc (g : Nat) (x : TxGrp) : (d.setTxGrp g x).cyc = d.cyc := rfl
@[simp] theorem Dev.setTxGrp_freeCtr (g : Nat) (x : TxGrp) : (d.setTxGrp g x).freeCtr = d.freeCtr := rfl
@[simp] theorem Dev.setTxGrp_regs (g : Nat) (x : TxGrp) : (d.setTxGrp g x).regs = d.regs := rfl
@[simp] theorem Dev.setTxGrp_act (g : Nat) (x : TxGrp) : (d.setTxGrp g x).act = d.act := rfl
@[simp] theorem Dev.setTxGrp_evq (g : Nat) (x : TxGrp) : (d.setTxGrp g x).evq = d.evq := rfl
@[simp] theorem Dev.setTxGrp_com (g : Nat) (x : TxGrp) : (d.setTxGrp g x).com = d.com := rfl
@[simp] theorem Dev.setTxGrp_out (g : Nat) (x : TxGrp) : (d.setTxGrp g x).out = d.out := rfl
@[simp] theorem Dev.setTxGrp_mbx (g : Nat) (x : TxGrp) : (d.setTxGrp g x).mbx = d.mbx := rfl
@[simp] theorem Dev.setTxGrp_time (g : Nat) (x : TxGrp) : (d.setTxGrp g x).time = d.time := rfl
@[simp] theorem Dev.setTxGrp_clk (g : Nat) (x : TxGrp) : (d.setTxGrp g x).clk = d.clk := rfl
@[simp] theorem Dev.setTxGrp_aon (g : Nat) (x : TxGrp) : (d.setTxGrp g x).aon = d.aon := rfl
@[simp] theorem Dev.setTxGrp_pwr (g : Nat) (x : TxGrp) : (d.setTxGrp g x).pwr = d.pwr := rfl
@[simp] theorem Dev.setTxGrp_thm (g : Nat) (x : TxGrp) : (d.setTxGrp g x).thm = d.thm := rfl
@[simp] theorem Dev.setTxGrp_nvm (g : Nat) (x : TxGrp) : (d.setTxGrp g x).nvm = d.nvm := rfl
@[simp] theorem Dev.setTxGrp_boot (g : Nat) (x : TxGrp) : (d.setTxGrp g x).boot = d.boot := rfl
@[simp] theorem Dev.setTxGrp_tap (g : Nat) (x : TxGrp) : (d.setTxGrp g x).tap = d.tap := rfl
@[simp] theorem Dev.setTxGrp_reqs (g : Nat) (x : TxGrp) : (d.setTxGrp g x).reqs = d.reqs := rfl
@[simp] theorem Dev.setTxGrp_nextFrame (g : Nat) (x : TxGrp) : (d.setTxGrp g x).nextFrame = d.nextFrame := rfl
@[simp] theorem Dev.setTxGrp_gens (g : Nat) (x : TxGrp) : (d.setTxGrp g x).gens = d.gens := rfl
@[simp] theorem Dev.setTxGrp_pipe (g : Nat) (x : TxGrp) : (d.setTxGrp g x).pipe = d.pipe := rfl
@[simp] theorem Dev.setTxGrp_refs (g : Nat) (x : TxGrp) : (d.setTxGrp g x).refs = d.refs := rfl
@[simp] theorem Dev.setTxGrp_bls (g : Nat) (x : TxGrp) : (d.setTxGrp g x).bls = d.bls := rfl
@[simp] theorem Dev.setTxGrp_hmp (g : Nat) (x : TxGrp) : (d.setTxGrp g x).hmp = d.hmp := rfl
@[simp] theorem Dev.setTxGrp_burst (g : Nat) (x : TxGrp) : (d.setTxGrp g x).burst = d.burst := rfl
@[simp] theorem Dev.setTxGrp_views (g : Nat) (x : TxGrp) : (d.setTxGrp g x).views = d.views := rfl
@[simp] theorem Dev.setTxGrp_encs (g : Nat) (x : TxGrp) : (d.setTxGrp g x).encs = d.encs := rfl
@[simp] theorem Dev.setTxGrp_recs (g : Nat) (x : TxGrp) : (d.setTxGrp g x).recs = d.recs := rfl
@[simp] theorem Dev.setTxGrp_defs (g : Nat) (x : TxGrp) : (d.setTxGrp g x).defs = d.defs := rfl
@[simp] theorem Dev.setTxGrp_lsc (g : Nat) (x : TxGrp) : (d.setTxGrp g x).lsc = d.lsc := rfl
@[simp] theorem Dev.setTxGrp_ary (g : Nat) (x : TxGrp) : (d.setTxGrp g x).ary = d.ary := rfl
@[simp] theorem Dev.setTxGrp_eng (g : Nat) (x : TxGrp) : (d.setTxGrp g x).eng = d.eng := rfl
@[simp] theorem Dev.setTxGrp_trg (g : Nat) (x : TxGrp) : (d.setTxGrp g x).trg = d.trg := rfl
@[simp] theorem Dev.setTxGrp_pe (g : Nat) (x : TxGrp) : (d.setTxGrp g x).pe = d.pe := rfl
@[simp] theorem Dev.setTxGrp_pio (g : Nat) (x : TxGrp) : (d.setTxGrp g x).pio = d.pio := rfl
@[simp] theorem Dev.setTxGrp_pioF (g : Nat) (x : TxGrp) : (d.setTxGrp g x).pioF = d.pioF := rfl
@[simp] theorem Dev.setTxGrp_pioAt (g : Nat) (x : TxGrp) : (d.setTxGrp g x).pioAt = d.pioAt := rfl
@[simp] theorem Dev.setTxGrp_tx (g : Nat) (x : TxGrp) : (d.setTxGrp g x).tx = { d.tx with grps := SMap.set noTxGrp d.tx.grps g x } := rfl
@[simp] theorem Dev.setTxGrp_lanes (g : Nat) (x : TxGrp) : (d.setTxGrp g x).lanes = d.lanes := rfl
@[simp] theorem Dev.setTxGrp_grps (g : Nat) (x : TxGrp) : (d.setTxGrp g x).grps = d.grps := rfl
@[simp] theorem Dev.setTxGrp_sp (g : Nat) (x : TxGrp) : (d.setTxGrp g x).sp = d.sp := rfl
@[simp] theorem Dev.setTxGrp_dlv (g : Nat) (x : TxGrp) : (d.setTxGrp g x).dlv = d.dlv := rfl
@[simp] theorem Dev.setTxGrp_hlp (g : Nat) (x : TxGrp) : (d.setTxGrp g x).hlp = d.hlp := rfl
@[simp] theorem Dev.setTxGrp_frames (g : Nat) (x : TxGrp) : (d.setTxGrp g x).frames = d.frames := rfl

end Sys2Proof.Machine
end

