-- ==== Sys2Proof/Laws/Ops.lean ====
section
/-! SUPPORT. What the shared operations do, once each: bit fields, register words, the gate of the host ports, the
lifts of a command, interrupts and events. -/
namespace Sys2Proof

/-! ## Bit fields -/

theorem bitsOf_lt (w : Word) (hi lo : Nat) : bitsOf w hi lo < 2 ^ (hi - lo + 1) :=
  Nat.mod_lt _ (by positivity)

/-- The word that replacing a field makes, as a number. -/
theorem setBits_toNat (w : Word) (hi lo v : Nat) (h : lo ≤ hi) (h32 : hi < 32) :
    (setBits w hi lo v).toNat = w.toNat / 2 ^ (hi + 1) * 2 ^ (hi + 1) + v % 2 ^ (hi - lo + 1) * 2 ^ lo + w.toNat % 2 ^ lo := by
  have e : lo + (hi - lo + 1) = hi + 1 := by omega
  simp only [setBits, e, BitVec.toNat_ofNat]
  apply Nat.mod_eq_of_lt
  have h1 : w.toNat / 2 ^ (hi + 1) < 2 ^ (31 - hi) := by
    apply Nat.div_lt_of_lt_mul
    rw [← pow_add]
    have : hi + 1 + (31 - hi) = 32 := by omega
    rw [this]; exact w.isLt
  have h2 : v % 2 ^ (hi - lo + 1) < 2 ^ (hi - lo + 1) := Nat.mod_lt _ (by positivity)
  have h3 : w.toNat % 2 ^ lo < 2 ^ lo := Nat.mod_lt _ (by positivity)
  have h4 : v % 2 ^ (hi - lo + 1) * 2 ^ lo + w.toNat % 2 ^ lo < 2 ^ (hi + 1) := by
    calc v % 2 ^ (hi - lo + 1) * 2 ^ lo + w.toNat % 2 ^ lo
        < v % 2 ^ (hi - lo + 1) * 2 ^ lo + 2 ^ lo := by omega
      _ = (v % 2 ^ (hi - lo + 1) + 1) * 2 ^ lo := by ring
      _ ≤ 2 ^ (hi - lo + 1) * 2 ^ lo := Nat.mul_le_mul_right _ h2
      _ = 2 ^ (hi + 1) := by rw [← pow_add]; congr 1; omega
  calc w.toNat / 2 ^ (hi + 1) * 2 ^ (hi + 1) + v % 2 ^ (hi - lo + 1) * 2 ^ lo + w.toNat % 2 ^ lo
      < w.toNat / 2 ^ (hi + 1) * 2 ^ (hi + 1) + 2 ^ (hi + 1) := by omega
    _ = (w.toNat / 2 ^ (hi + 1) + 1) * 2 ^ (hi + 1) := by ring
    _ ≤ 2 ^ (31 - hi) * 2 ^ (hi + 1) := Nat.mul_le_mul_right _ h1
    _ = 2 ^ 32 := by rw [← pow_add]; congr 1; omega

/-- Bit `n` of the word that replacing a field makes. -/
theorem setBits_testBit (w : Word) (hi lo v n : Nat) (h : lo ≤ hi) (h32 : hi < 32) :
    (setBits w hi lo v).toNat.testBit n
      = if lo ≤ n ∧ n ≤ hi then v.testBit (n - lo) else w.toNat.testBit n := by
  rw [setBits_toNat w hi lo v h h32]
  have e : w.toNat / 2 ^ (hi + 1) * 2 ^ (hi + 1) + v % 2 ^ (hi - lo + 1) * 2 ^ lo + w.toNat % 2 ^ lo
      = 2 ^ (hi + 1) * (w.toNat / 2 ^ (hi + 1)) + (2 ^ lo * (v % 2 ^ (hi - lo + 1)) + w.toNat % 2 ^ lo) := by ring
  have h3 : w.toNat % 2 ^ lo < 2 ^ lo := Nat.mod_lt _ (by positivity)
  have h2 : v % 2 ^ (hi - lo + 1) < 2 ^ (hi - lo + 1) := Nat.mod_lt _ (by positivity)
  have h4 : 2 ^ lo * (v % 2 ^ (hi - lo + 1)) + w.toNat % 2 ^ lo < 2 ^ (hi + 1) := by
    calc 2 ^ lo * (v % 2 ^ (hi - lo + 1)) + w.toNat % 2 ^ lo
        < 2 ^ lo * (v % 2 ^ (hi - lo + 1)) + 2 ^ lo := by omega
      _ = 2 ^ lo * (v % 2 ^ (hi - lo + 1) + 1) := by ring
      _ ≤ 2 ^ lo * 2 ^ (hi - lo + 1) := Nat.mul_le_mul_left _ h2
      _ = 2 ^ (hi + 1) := by rw [← pow_add]; congr 1; omega
  rw [e, Nat.testBit_two_pow_mul_add _ h4, Nat.testBit_two_pow_mul_add _ h3]
  simp only [Nat.testBit_mod_two_pow, Nat.testBit_div_two_pow]
  by_cases a : n < lo
  · have : ¬ (lo ≤ n ∧ n ≤ hi) := by omega
    have b : n < hi + 1 := by omega
    simp [a, b, this]
  · by_cases b : n < hi + 1
    · have c : lo ≤ n ∧ n ≤ hi := by omega
      have g : n - lo < hi - lo + 1 := by omega
      simp [a, b, c, g]
    · have c : ¬ (lo ≤ n ∧ n ≤ hi) := by omega
      have g : hi + 1 + (n - (hi + 1)) = n := by omega
      have g' : n - (hi + 1) + (hi + 1) = n := by omega
      simp [b, c, g']

theorem bitsOf_testBit (w : Word) (hi lo n : Nat) :
    (bitsOf w hi lo).testBit n = (decide (n < hi - lo + 1) && w.toNat.testBit (lo + n)) := by
  simp [bitsOf, Nat.testBit_mod_two_pow, Nat.testBit_div_two_pow, Nat.add_comm]

/-- A field reads back what was written, modulo its width. -/
theorem bitsOf_setBits_same (w : Word) (hi lo v : Nat) (h : lo ≤ hi) (h32 : hi < 32) :
    bitsOf (setBits w hi lo v) hi lo = v % 2 ^ (hi - lo + 1) := by
  apply Nat.eq_of_testBit_eq
  intro n
  rw [bitsOf_testBit, setBits_testBit _ _ _ _ _ h h32, Nat.testBit_mod_two_pow]
  by_cases a : n < hi - lo + 1
  · have : lo ≤ lo + n ∧ lo + n ≤ hi := by omega
    simp [a, this]
  · simp [a]

/-- Writing a field leaves the disjoint ones of its word as they were. -/
theorem bitsOf_setBits_ne (w : Word) (hi lo hi' lo' v : Nat) (h : lo ≤ hi) (h32 : hi < 32)
    (hd : hi' < lo ∨ hi < lo') (h' : lo' ≤ hi') : bitsOf (setBits w hi lo v) hi' lo' = bitsOf w hi' lo' := by
  apply Nat.eq_of_testBit_eq
  intro n
  rw [bitsOf_testBit, bitsOf_testBit, setBits_testBit _ _ _ _ _ h h32]
  by_cases a : n < hi' - lo' + 1
  · have : ¬ (lo ≤ lo' + n ∧ lo' + n ≤ hi) := by omega
    simp [a, this]
  · simp [a]

/-! ## Addresses -/

theorem decodeAddr_single (n off : Nat) (p : Page) (hs : singlePage n = some p) (h : off < 0x1000)
    (hn : n < 0x14 ∨ 0x90 ≤ n ∧ n < 0xA2 ∨ n = 0xC8) : decodeAddr (n * 0x1000 + off) = .page p (off / 4 * 4) := by
  have e : (n * 0x1000 + off) / 4 * 4 = n * 0x1000 + off / 4 * 4 := by omega
  have h4 : off / 4 * 4 ≤ off := Nat.div_mul_le_self _ _
  have a : (n * 0x1000 + off / 4 * 4) / 0x1000 = n := by omega
  have b : (n * 0x1000 + off / 4 * 4) % 0x1000 = off / 4 * 4 := by omega
  unfold decodeAddr
  simp only [e, a, b, hs]
  rw [dif_neg (by omega), dif_neg (by omega), dif_neg (by omega), dif_neg (by omega), if_neg (by omega),
    if_neg (by omega), if_neg (by omega)]

/-- An offset in a page decodes to that page and offset, low bits dropped. -/
theorem decodeAddr_page (p : Page) (off : Nat) (h : off < p.size) :
    decodeAddr (p.base + off) = .page p (off / 4 * 4) := by
  have h4 : off / 4 * 4 ≤ off := Nat.div_mul_le_self _ _
  cases p
  case eng n =>
    have hn := n.isLt
    simp only [Page.base, Page.size, Page.blk, Page.inst, Blk.base, Blk.size] at h ⊢
    have e : (0x20000 + 0x1000 * n.val + off) / 4 * 4 = 0x20000 + 0x1000 * n.val + off / 4 * 4 := by omega
    unfold decodeAddr; simp only [e]
    rw [dif_pos (by omega)]
    have a : (0x20000 + 0x1000 * n.val + off / 4 * 4 - 0x20000) / 0x1000 = n.val := by omega
    have b : (0x20000 + 0x1000 * n.val + off / 4 * 4) % 0x1000 = off / 4 * 4 := by omega
    simp [a, b]
  case pe n =>
    have hn := n.isLt
    simp only [Page.base, Page.size, Page.blk, Page.inst, Blk.base, Blk.size] at h ⊢
    have e : (0x80000 + 0x1000 * n.val + off) / 4 * 4 = 0x80000 + 0x1000 * n.val + off / 4 * 4 := by omega
    unfold decodeAddr; simp only [e]
    rw [dif_neg (by omega), dif_pos (by omega)]
    have a : (0x80000 + 0x1000 * n.val + off / 4 * 4 - 0x80000) / 0x1000 = n.val := by omega
    have b : (0x80000 + 0x1000 * n.val + off / 4 * 4) % 0x1000 = off / 4 * 4 := by omega
    simp [a, b]
  case ln n =>
    have hn := n.isLt
    simp only [Page.base, Page.size, Page.blk, Page.inst, Blk.base, Blk.size] at h ⊢
    have e : (0xB0000 + 0x400 * n.val + off) / 4 * 4 = 0xB0000 + 0x400 * n.val + off / 4 * 4 := by omega
    unfold decodeAddr; simp only [e]
    rw [dif_neg (by omega), dif_neg (by omega), dif_pos (by omega)]
    have a : (0xB0000 + 0x400 * n.val + off / 4 * 4 - 0xB0000) / 0x400 = n.val := by omega
    have b : (0xB0000 + 0x400 * n.val + off / 4 * 4) % 0x400 = off / 4 * 4 := by omega
    simp [a, b]
  case sp n =>
    have hn := n.isLt
    simp only [Page.base, Page.size, Page.blk, Page.inst, Blk.base, Blk.size] at h ⊢
    have e : (0xC0000 + 0x1000 * n.val + off) / 4 * 4 = 0xC0000 + 0x1000 * n.val + off / 4 * 4 := by omega
    unfold decodeAddr; simp only [e]
    rw [dif_neg (by omega), dif_neg (by omega), dif_neg (by omega), dif_pos (by omega)]
    have a : (0xC0000 + 0x1000 * n.val + off / 4 * 4 - 0xC0000) / 0x1000 = n.val := by omega
    have b : (0xC0000 + 0x1000 * n.val + off / 4 * 4) % 0x1000 = off / 4 * 4 := by omega
    simp [a, b]
  all_goals
    simp only [Page.size, Page.blk, Blk.size] at h
    simp only [Page.base, Page.blk, Page.inst, Blk.base, Nat.mul_zero, Nat.add_zero]
  case sys => simpa using decodeAddr_single 0x00 off _ rfl h (by omega)
  case clk => exact decodeAddr_single 0x01 off _ rfl h (by omega)
  case tbs => exact decodeAddr_single 0x02 off _ rfl h (by omega)
  case pwr => exact decodeAddr_single 0x03 off _ rfl h (by omega)
  case thm => exact decodeAddr_single 0x04 off _ rfl h (by omega)
  case evr => exact decodeAddr_single 0x05 off _ rfl h (by omega)
  case nvm => exact decodeAddr_single 0x06 off _ rfl h (by omega)
  case mbx => exact decodeAddr_single 0x07 off _ rfl h (by omega)
  case sec => exact decodeAddr_single 0x08 off _ rfl h (by omega)
  case ary => exact decodeAddr_single 0x10 off _ rfl h (by omega)
  case exp => exact decodeAddr_single 0x11 off _ rfl h (by omega)
  case win => exact decodeAddr_single 0x12 off _ rfl h (by omega)
  case trg => exact decodeAddr_single 0x13 off _ rfl h (by omega)
  case ing => exact decodeAddr_single 0x90 off _ rfl h (by omega)
  case nrd => exact decodeAddr_single 0x91 off _ rfl h (by omega)
  case pxc => exact decodeAddr_single 0x92 off _ rfl h (by omega)
  case hdr => exact decodeAddr_single 0x93 off _ rfl h (by omega)
  case geo => exact decodeAddr_single 0x94 off _ rfl h (by omega)
  case sta => exact decodeAddr_single 0x95 off _ rfl h (by omega)
  case vew => exact decodeAddr_single 0x96 off _ rfl h (by omega)
  case enc => exact decodeAddr_single 0x97 off _ rfl h (by omega)
  case dlv => exact decodeAddr_single 0x98 off _ rfl h (by omega)
  case fst => exact decodeAddr_single 0xA0 off _ rfl h (by omega)
  case hmp => exact decodeAddr_single 0xA1 off _ rfl h (by omega)
  case hlp => exact decodeAddr_single 0xC8 off _ rfl h (by omega)

namespace Machine
variable (d : Dev)

/-! ## Register words -/

theorem Dev.word_putWord (a b : Nat) (w : Word) :
    (d.putWord a w).word b = if b = a then w else d.word b := by
  simp [Dev.word, SMap.get_set]

@[simp] theorem Dev.word_putWord_same (a : Nat) (w : Word) : (d.putWord a w).word a = w := by
  simp [Dev.word_putWord]

/-- A write keeps the canonical form of the registers. -/
theorem Dev.putWord_wf (a : Nat) (w : Word) (h : SMap.wf resetWord d.regs = true) :
    SMap.wf resetWord (d.putWord a w).regs = true := SMap.wf_set _ _ _ _ h

/-- Words depend on the register map alone. -/
theorem Dev.word_congr {d e : Dev} (h : e.regs = d.regs) (a : Nat) : e.word a = d.word a := by simp [Dev.word, h]
theorem Dev.fi_congr {d e : Dev} (h : e.regs = d.regs) (F : Fld) (i k : Nat) : e.fi F i k = d.fi F i k := by
  simp [Dev.fi, Dev.word, h]
theorem Dev.hf_congr {d e : Dev} (h : e.regs = d.regs) (p : Page) (F : Fld) : e.hf p F = d.hf p F := by
  simp [Dev.hf, Dev.word, h]

theorem Dev.word_setFi (F : Fld) (i k v b : Nat) :
    (d.setFi F i k v).word b = if b = F.addr i k then setBits (d.word b) F.hi F.lo v else d.word b := by
  unfold Dev.setFi; rw [Dev.word_putWord]; split <;> simp_all

theorem Dev.word_setHf (p : Page) (F : Fld) (v b : Nat) :
    (d.setHf p F v).word b = if b = p.base + F.off then setBits (d.word b) F.hi F.lo v else d.word b := by
  unfold Dev.setHf; rw [Dev.word_putWord]; split <;> simp_all

/-- A field reads back what was written, modulo its width. -/
theorem Dev.fi_setFi_same (F : Fld) (i k v : Nat) (h : F.lo ≤ F.hi) (h32 : F.hi < 32) :
    (d.setFi F i k v).fi F i k = v % 2 ^ (F.hi - F.lo + 1) := by
  simp [Dev.fi, Dev.word_setFi, bitsOf_setBits_same _ _ _ _ h h32]

/-- A field that lies in another word, or beside the one written, stays. -/
theorem Dev.fi_setFi_ne (F G : Fld) (i k j l v : Nat) (h : F.lo ≤ F.hi) (h32 : F.hi < 32) (hG : G.lo ≤ G.hi)
    (hd : G.addr j l ≠ F.addr i k ∨ G.hi < F.lo ∨ F.hi < G.lo) : (d.setFi F i k v).fi G j l = d.fi G j l := by
  simp only [Dev.fi, Dev.word_setFi]
  split
  · rename_i e
    rcases hd with hd | hd
    · exact absurd e hd
    · rw [bitsOf_setBits_ne _ _ _ _ _ _ h h32 hd hG]
  · rfl

theorem Dev.hf_setHf_same (p : Page) (F : Fld) (v : Nat) (h : F.lo ≤ F.hi) (h32 : F.hi < 32) :
    (d.setHf p F v).hf p F = v % 2 ^ (F.hi - F.lo + 1) := by
  simp [Dev.hf, Dev.word_setHf, bitsOf_setBits_same _ _ _ _ h h32]

@[simp] theorem Dev.setF_def (F : Fld) (v : Nat) : d.setF F v = d.setFi F 0 0 v := rfl
@[simp] theorem Dev.setFk_def (F : Fld) (k v : Nat) : d.setFk F k v = d.setFi F 0 k v := rfl
@[simp] theorem Dev.f_def (F : Fld) : d.f F = d.fi F 0 0 := rfl
@[simp] theorem Dev.fk_def (F : Fld) (k : Nat) : d.fk F k = d.fi F 0 k := rfl
@[simp] theorem Dev.on_def (F : Fld) : d.on F = (d.fi F 0 0 != 0) := rfl
@[simp] theorem Dev.bump_def (F : Fld) : d.bump F = d.setFi F 0 0 (d.fi F 0 0 + 1) := rfl
@[simp] theorem Dev.bumpI_def (F : Fld) (i k : Nat) : d.bumpI F i k = d.setFi F i k (d.fi F i k + 1) := rfl
@[simp] theorem Dev.add_def (F : Fld) (n : Nat) : d.add F n = d.setFi F 0 0 (d.fi F 0 0 + n) := rfl
@[simp] theorem Dev.addI_def (F : Fld) (i k n : Nat) : d.addI F i k n = d.setFi F i k (d.fi F i k + n) := rfl

/-! ## Interrupts and events -/

/-- Setting interrupt sources writes IRQ_RAW of the page alone. -/
theorem Dev.word_raiseBits (p : Page) (b : Word) (a : Nat) :
    (d.raiseBits p b).word a = if a = p.base + 0x10 then d.word a ||| b else d.word a := by
  have h : (d.raiseBits p b).regs = (d.putWord (p.base + 0x10) (d.word (p.base + 0x10) ||| b)).regs := by
    unfold Dev.raiseBits irqPackets; split <;> rfl
  rw [Dev.word_congr h, Dev.word_putWord]; split <;> simp_all

theorem Dev.raiseBits_regs (p : Page) (b : Word) :
    (d.raiseBits p b).regs = SMap.set resetWord d.regs (p.base + 0x10) (d.word (p.base + 0x10) ||| b) := by
  unfold Dev.raiseBits irqPackets; split <;> rfl

theorem Dev.fi_raiseBits (p : Page) (b : Word) (F : Fld) (i k : Nat) (h : F.addr i k ≠ p.base + 0x10) :
    (d.raiseBits p b).fi F i k = d.fi F i k := by
  simp [Dev.fi, Dev.word_raiseBits, h]

@[simp] theorem Dev.raise_def (F : Fld) : d.raise F = d.raiseBits (blkPage F.blk 0) (BitVec.ofNat 32 (2 ^ F.lo)) := rfl
@[simp] theorem Dev.raiseI_def (F : Fld) (i : Nat) :
    d.raiseI F i = d.raiseBits (blkPage F.blk i) (BitVec.ofNat 32 (2 ^ F.lo)) := rfl
@[simp] theorem Dev.emit_def (c : Nat) (p : Page) (b : List Byte) : d.emit c p b = d.emitSrc c p.code b := rfl
@[simp] theorem Dev.emitFw_def (c : Nat) (b : List Byte) : d.emitFw c b = d.emitSrc c fwSrc b := rfl

/-- An event goes to the end of the recorder's inputs. -/
theorem Dev.emitSrc_evq (c src : Nat) (b : List Byte) :
    (d.emitSrc c src b).evq = d.evq ++ [{ code := c, sev := evSev c, src, payload := b, cyc := d.cyc }] := rfl

/-- A field of a device that differs in other parts than the registers. -/
@[simp] theorem Dev.fi_emitSrc (c src : Nat) (b : List Byte) (F : Fld) (i k : Nat) :
    (d.emitSrc c src b).fi F i k = d.fi F i k := rfl

/-! ## The gate of the ports (R84, R85, R587) -/

/-- The unit serves nothing: a write is discarded. -/
theorem gateWrite_unserved (p : Port) (f : Dev → Dev) (h : d.serves = false) : gateWrite p f d = d := by
  simp [gateWrite, h]

/-- PORT_CTRL closes the port: the write is counted and ignored. -/
theorem gateWrite_closed (p : Port) (f : Dev → Dev) (h : d.serves = true) (ho : d.portOpen p = false) :
    gateWrite p f d = d.bump SYS_PORT_DENY := by
  simp [gateWrite, h, ho]

theorem gateWrite_open (p : Port) (f : Dev → Dev) (h : d.serves = true) (ho : d.portOpen p = true) :
    gateWrite p f d = f d := by
  simp [gateWrite, h, ho]

theorem gatePage_open (p : Port) (pg : Page) (f : Dev → Dev) (h : d.serves = true) (ho : d.portOpen p = true)
    (hr : d.inReset pg = false) : gatePage p pg f d = f d := by
  simp [gatePage, gateWrite, h, ho, hr]

/-! ## The lifts -/

variable (s : State)

/-- A command of the device changes nothing else. -/
theorem onDev_frame (f : Dev → Dev) : ∃ t, onDev f s = .next t ∧ t.pending = s.pending ∧ t.evr = s.evr ∧ t.vault = s.vault :=
  ⟨_, rfl, rfl, rfl, rfl⟩

theorem onDevR_frame (f : Recorder → Vault → Dev → Dev) :
    ∃ t, onDevR f s = .next t ∧ t.pending = s.pending ∧ t.evr = s.evr ∧ t.vault = s.vault :=
  ⟨_, rfl, rfl, rfl, rfl⟩

/-- A command of the device and the recorder changes neither the queue nor the one-time storage. -/
theorem onRec_frame (f : Dev × Recorder → Dev × Recorder) :
    ∃ t, onRec f s = .next t ∧ t.pending = s.pending ∧ t.vault = s.vault := ⟨_, rfl, rfl, rfl⟩

theorem onAccess_frame (f : Vault → Dev × Recorder → Dev × Recorder) :
    ∃ t, onAccess f s = .next t ∧ t.pending = s.pending ∧ t.vault = s.vault := ⟨_, rfl, rfl, rfl⟩

end Machine
end Sys2Proof
end

