-- ==== Sys2Proof/WellFormed.lean ====
section
/-! DEFINITION. Which commands are well formed: what the table's rows ask of their operands beyond the operands'
types (R17, R18, R59, R60, R72, R78, R79, R82, R92, R119, R120, R407, R436, R446, R497). -/
namespace Sys2Proof

/-- The register has a field of an access class. -/
def hasAcc (c : Acc) (a : BitVec 24) : Bool :=
  match decodeAddr a.toNat with
  | .page p off => (p.fieldsAt (off / 4 * 4)).any fun f => f.acc = c
  | _ => false

/-- A register of a page's basic part. -/
def isBasic (a : BitVec 24) : Bool :=
  match decodeAddr a.toNat with
  | .page _ off => 0x40 ≤ off && off < 0x100
  | _ => false

/-- CMD or a word of CMD_BUF. -/
def isBuffer (a : BitVec 24) : Bool :=
  match decodeAddr a.toNat with
  | .page .mbx off => off = 0x100 || (0x200 ≤ off && off < 0x300)
  | _ => false

/-- A word of the context table. -/
def isContext (a : BitVec 24) : Bool :=
  match decodeAddr a.toNat with
  | .ctx _ _ => true
  | _ => false

/-- A word of the queue table. -/
def isQueue (a : BitVec 24) : Bool :=
  match decodeAddr a.toNat with
  | .queue _ _ => true
  | _ => false

/-- An instruction word of a readout engine. -/
def isImem (a : BitVec 24) : Bool :=
  match decodeAddr a.toNat with
  | .imem _ _ => true
  | _ => false

/-- No item twice. -/
def noRepeat (l : List Nat) : Bool := decide l.Nodup

/-- Equaliser settings of a lane: CTLE, VGA, PHASE and its taps. -/
def settings (l : Fin 44) : Nat := if l.val < 20 then 13 else 7

/-- The command's operands are as its row asks. -/
def Instr.wf (c : Instr) : Bool :=
  match c with
  | .regWrite _ _ _ => true
  | .rcRead _ a => hasAcc .rc a
  | .w1cWrite _ a _ => hasAcc .w1c a
  | .pageEnable _ _ => true
  | .pageDisable _ _ => true
  | .pageSoftRst _ _ => true
  | .softRstDone _ => true
  | .expertSet _ _ => true
  | .expertClear _ _ => true
  | .pageCommit _ _ _ => true
  | .gcommit _ _ => true
  | .commitCheckDone _ => true
  | .commitHoldTimeout _ => true
  | .xlateHoldExpire _ => true
  | .basicFieldWrite _ a _ => isBasic a
  | .translationDone _ => true
  | .spiTransaction cmd n _ ws => !cmd.getLsbD 6 &&
    if cmd.getLsbD 7 then ws.isEmpty && decide (n ≤ cmd.toNat % 64 + 1) else n = ws.length && decide (n ≤ cmd.toNat % 64 + 1)
  | .spiCsAbort _ ws _ => ws.length < 64
  | .i2cTransaction _ rd _ n ws => if rd then ws.isEmpty else ws.length = n
  | .portCtrlWrite _ _ => true
  | .mbxClaim _ a _ => isBuffer a
  | .mbxGo _ => true
  | .mbxAck _ => true
  | .mbxLoadTimeout => true
  | .identify => true
  | .echo => true
  | .presetLoad => true
  | .presetSave => true
  | .ctxSnapshot => true
  | .evrRead => true
  | .evrFreeze => true
  | .evrThaw => true
  | .evrClearNonce => true
  | .evrClear => true
  | .fwBegin => true
  | .fwData => true
  | .fwEnd => true
  | .fwActivate => true
  | .histTrigger => true
  | .histFreeze => true
  | .histReplay => true
  | .timeStep => true
  | .phaseStep => true
  | .gaitSet => true
  | .thermalRead => true
  | .focusRun _ => true
  | .linkRetrain => true
  | .startTick => true
  | .preambleDone ds => (ds.all fun x => x.2.length = 16) && noRepeat (ds.map fun x => x.1.val)
  | .rowBoundary _ => true
  | .rowResult _ cs => cs.length % 128 = 0 && cs.length ≤ 12288
  | .pumpRailFault _ _ => true
  | .shutterResume => true
  | .shutterRstFall _ _ _ => true
  | .shutterTxFall _ _ _ => true
  | .txHoldRelease _ _ => true
  | .ctxTableWrite _ a _ => isContext a
  | .ctxCopy _ => true
  | .ctxCopyDone => true
  | .aeIteration r _ => match r with | .tiles l => noRepeat (l.map fun x => x.1.val) | .all _ => true
  | .aeMissed => true
  | .aeStale => true
  | .ctxDmaEntry _ => true
  | .engHalt _ _ => true
  | .engResume _ _ => true
  | .engStep _ _ => true
  | .engSnapReq _ _ => true
  | .engImemWrite _ a _ => isImem a
  | .engParamWrite _ _ _ => true
  | .engOutRead _ _ => true
  | .engNop _ _ => true
  | .engSet _ _ _ _ => true
  | .engSeth _ _ _ _ => true
  | .engAdd _ _ _ _ _ => true
  | .engMov _ _ _ _ _ _ => true
  | .engJmp _ _ _ _ => true
  | .engWait _ _ _ _ _ => true
  | .engStb _ _ _ _ _ _ => true
  | .engPull _ _ _ _ => true
  | .engPush _ _ _ _ _ => true
  | .engShut _ _ _ _ _ _ => true
  | .engShf _ _ _ _ _ => true
  | .engShg _ _ _ _ _ => true
  | .engLatch _ _ _ => true
  | .engSync _ _ _ _ => true
  | .engIrq _ _ _ => true
  | .engStop _ _ => true
  | .engIllegalOp _ => true
  | .engWaitDone _ _ => true
  | .engPullDone _ => true
  | .engPushDone _ => true
  | .engShgDone _ => true
  | .engDelayEnd _ => true
  | .engSyncRelease _ => true
  | .engSyncTimeout _ => true
  | .aryStart _ => true
  | .aryStop _ => true
  | .stripFrameTimeout => true
  | .swTrig _ _ => true
  | .winApply _ => true
  | .burstArm _ => true
  | .burstAbort _ => true
  | .burstFrameWrite => true
  | .pioEdge _ _ _ _ => true
  | .peNop _ _ => true
  | .peLdi _ _ _ _ => true
  | .peLdk _ _ _ _ => true
  | .peAddi _ _ _ _ => true
  | .peMov _ _ _ _ _ => true
  | .peJmp _ _ _ _ => true
  | .peWait _ _ _ => true
  | .peDly _ _ _ _ => true
  | .peSetp _ _ _ _ => true
  | .pePull _ _ _ => true
  | .pePush _ _ _ _ => true
  | .peQdec _ _ _ => true
  | .peTrig _ _ _ => true
  | .peStamp _ _ _ => true
  | .peIrq _ _ _ => true
  | .peStop _ _ => true
  | .peIllegal _ => true
  | .peWaitDone _ => true
  | .peDlyDone _ => true
  | .peDelayEnd _ => true
  | .pePullDone _ => true
  | .pePushDone _ => true
  | .peQdecDone _ => true
  | .peParamWrite _ _ _ => true
  | .peOutRead _ _ => true
  | .peFlush _ _ => true
  | .peDmaTimeout _ => true
  | .peGuardTrip _ _ => true
  | .satMarkerBlock _ _ => true
  | .satFrameStart _ => true
  | .satLine _ => true
  | .satLineEnd _ => true
  | .satFrameEnd _ => true
  | .satHello _ => true
  | .satFill _ => true
  | .satHeaderError _ => true
  | .satCreditTimer _ => true
  | .satFrameTimeout _ _ => true
  | .spAlignTimeout _ => true
  | .ingestGrant => true
  | .nrdRow _ pass _ => pass < 4
  | .pxcRow _ pass _ => pass < 4
  | .pxcDefData _ _ => true
  | .pxcLscData _ _ => true
  | .hdrRow _ pass _ => pass < 4
  | .geoLine _ => true
  | .staRecordsReady _ => true
  | .viewFrameAccept _ => true
  | .viewRasterOut _ => true
  | .encSlice _ => true
  | .histChunkWrite => true
  | .histCaptureEnd _ => true
  | .histRelease _ _ => true
  | .hmpCtrlFreeze _ _ => true
  | .hmpCtrlAbort _ => true
  | .hmpCtrlRetrain _ => true
  | .hmpCtrlDsm _ => true
  | .histReplaySend _ _ _ => true
  | .hmpTrainDone _ _ => true
  | .hmpTracking _ => true
  | .hmpRetrainDone _ => true
  | .hmpPowerDown _ => true
  | .dlvEnqueue => true
  | .dlvGrant => true
  | .queueEntryWrite _ a _ => isQueue a
  | .hostRegWr => true
  | .hostRegRd => true
  | .hostCredit => true
  | .hostPacketError => true
  | .timePeriodic => true
  | .timeSend _ => true
  | .hlpHelloTimer => true
  | .hlpInitTimeout => true
  | .laneDataBlock _ _ _ => true
  | .laneIdleBlock _ _ _ => true
  | .laneSkipBlock _ _ _ => true
  | .laneAlignRow _ _ _ => true
  | .laneCtrlBlock _ _ _ => true
  | .laneInvalidHeader _ _ _ => true
  | .fecCodeword _ w => w.length = 272
  | .laneSignalDetect _ => true
  | .laneCdrLock _ => true
  | .laneEqDone l eq => eq.length = settings l
  | .laneLos _ => true
  | .laneStateTimeout _ => true
  | .laneFailIdleEnd _ => true
  | .laneBackoffEnd _ => true
  | .laneAdaptUpdate l ds => ds.length = settings l
  | .laneMarginCheck _ => true
  | .laneMarginDone _ _ _ => true
  | .laneSleep _ => true
  | .laneWake _ => true
  | .laneSlip _ _ => true
  | .laneDeepReq _ _ => true
  | .pllLock _ => true
  | .clkRefLost => true
  | .clkRefReturn => true
  | .clkRefQualified _ => true
  | .clkLossOfLock => true
  | .clkRefSelect _ _ => true
  | .clkOutEnable _ _ _ => true
  | .clkRampSegmentEnd _ _ => true
  | .clkRelockTimeout _ => true
  | .phaseSlewDone => true
  | .timebaseTick => true
  | .ppsEdge _ _ => true
  | .ppsLost => true
  | .tbsTickLoRead _ => true
  | .vaonPowerOn _ => true
  | .vaonLoss => true
  | .resetNAssert => true
  | .resetNRelease _ _ => true
  | .railPgRise _ => true
  | .railEnStep => true
  | .railEnLowerStep => true
  | .railPgTimeout => true
  | .railPgLost _ => true
  | .railFaultRetry => true
  | .pmbusTransactionDone _ _ => true
  | .pmbAlert _ _ => true
  | .governorStep _ _ => true
  | .rateMonitorUpdate readings _ => readings.length = 11
  | .gaitUpdate _ => true
  | .throttleUpdate => true
  | .thermalSample samples => samples.length = 32
  | .shutdownRecordDone => true
  | .cutoffTrip _ _ => true
  | .autoRestartCheck _ _ => true
  | .pfailAccept => true
  | .pfailFlushDone => true
  | .pfailRestart => true
  | .eventAccept => true
  | .evrDroppedRecord _ => true
  | .evrImageSeal _ => true
  | .evrPageProgram _ => true
  | .evrFreezeExpire => true
  | .nonceExpire => true
  | .keyProg _ => true
  | .keyProgDone => true
  | .fwConfirm _ => true
  | .bootRomStart => true
  | .mramScanDone torn => noRepeat (torn.map fun x => x.val)
  | .firmwareStart => true
  | .firmwareRestart => true
  | .watchdogTimeout => true
  | .recoveryLoaderStart => true
  | .warmReset _ => true
  | .fullReset _ => true
  | .bootCfgSave _ _ => true
  | .tapReset => true
  | .tapExtest _ => true
  | .tapSamplePreload _ _ => true
  | .tapClamp => true
  | .tapHighz => true
  | .tapBypass _ => true
  | .pumpRailRecover => true
  | .clkRampTargetReached _ => true
  | .bootCfgSaveDone => true
  | .softwareResetRise => true
  | .focusRunTimeout => true
  | .presetLoadTimeout => true
  | .engFlushDone _ => true

end Sys2Proof
end

