-- ==== Sys2Proof/Tests/Slice0.lean ====
section
/-! SUPPORT. Tests: states that meet the hypotheses of every clause of every statement, ill-formed commands, engine
words written out from their encodings, and check values. -/

set_option maxRecDepth 20000

namespace Sys2Proof.Tests
open Sys2Proof Sys2Proof.Machine

/-! ## Small states -/

/-- A state with its device changed. -/
def dv (f : Dev → Dev) (s : State := State.reset) : State := { s with dev := f s.dev }

/-- A device that serves: the timing PLL has locked. -/
def up : State := dv fun d => { d with clk := { d.clk with state := 1, everLocked := true } }

/-- Firmware runs. -/
def fw (s : State := up) : State := dv (fun d => { d with boot := { d.boot with run := .running } }) s

/-- Fields set. -/
def sets (l : List (Fld × Nat)) (s : State := up) : State := dv (fun d => l.foldl (fun d p => d.setF p.1 p.2) d) s

/-- A page enabled and active. -/
def enabled (p : Page) (s : State := up) : State :=
  dv (fun d => (d.setHf p HD_PAGE_CTRL_EN 1).setHf p HD_PAGE_STAT_ACTIVE 1) s

/-- A command posted in the mailbox, with the words of its payload. -/
def post (opc len : Nat) (ws : List Nat := []) (s : State := fw) : State :=
  dv (fun d => ws.zipIdx.foldl (fun d p => d.setFk MBX_CMD_BUF p.2 p.1)
    (((d.setF MBX_STAT_STATE 1).setF MBX_CMD_OPCODE opc).setF MBX_CMD_LEN_W len)) s

/-- Readout engine 95 about to run a word, or in the state given. -/
def onE (w : Word) (g : EngSt := { state := engRUN }) (s : State := up) : State :=
  dv (fun d => { d with eng := [(95, g)] }.putWord (imemAddr 95 0) w) s

/-- A word of a readout engine: opcode, DELAY, operand. -/
def ew (op dly o : Nat) : Word := BitVec.ofNat 32 (op * 2 ^ 27 + dly * 2 ^ 22 + o)

/-- Pin engine 7 about to run a word, or in the state given. -/
def onP (w : Nat) (g : PeSt := { state := peRUN }) (s : State := up) : State :=
  dv (fun d => { d with pe := [(7, g)] }.setFi PE_IMEM_WORD 7 0 w) s

/-- A word of a pin engine: opcode, DELAY, operand. -/
def pw (op dly o : Nat) : Nat := op * 2 ^ 12 + dly * 2 ^ 8 + o

/-- The serving device changed. -/
def dw (f : Dev → Dev) (s : State := up) : State := dv f s

/-- Fields of an instance, and copy, set. -/
def seti (l : List (Fld × Nat × Nat × Nat)) (s : State := up) : State :=
  dv (fun d => l.foldl (fun d p => d.setFi p.1 p.2.1 p.2.2.1 p.2.2.2) d) s

/-- Active fields set. -/
def acts (l : List (Fld × Nat × Nat × Nat)) (s : State := up) : State :=
  dv (fun d => l.foldl (fun d p => d.putAct (p.1.addr p.2.1 p.2.2.1)
    (setBits (d.actWord (p.1.addr p.2.1 p.2.2.1)) p.1.hi p.1.lo p.2.2.2)) d) s

/-- A queue enabled with infinite credit, and delivery active. -/
def queue (q : Nat) (s : State := up) : State := dv (fun d => d.qSet q 0 3 0 9) (enabled .dlv s)

/-- The shift registers of the array and of engines changed. -/
def ar (a : ArySt) (s : State := up) : State := dv (fun d => { d with ary := a }) s

/-- Satellite port 7 with its stream, virtual sensor 3 and frame 5. -/
def sat (strm : List Byte) (v : VsSt := {}) (f : Frame := {}) : State :=
  dw (fun d => { d with sp := [(7, { strm, vs := [(3, v)] })], frames := [(5, f)] }) (seti [(SP_PORT_STAT_STATE, 7, 0, spUP)])

/-- A packet of a satellite. -/
def spPkt (typ vs line seg fnum : Nat) (pay : List Byte) : List Byte :=
  let h := (u64 (typ + 16 * vs + line * 2 ^ 16 + seg * 2 ^ 32 + pay.length / 8 * 2 ^ 40 + fnum * 2 ^ 48)).take 7
  h ++ [crc8From 0#8 h] ++ pay

/-- A packet of the host. -/
def hostPkt (typ addr tag count fl : Nat) (pay : List Byte) : List Byte :=
  let h := u64 (typ + pay.length * 2 ^ 32) ++ u64 (addr + tag * 2 ^ 24 + count * 2 ^ 32 + fl * 2 ^ 48)
  let b := setAt h 3 (crc8From 0#8 (h.take 3 ++ h.drop 4)) ++ pay
  b ++ u32 (crc32 b).toNat

/-- The host link UP with a stream. -/
def host (strm : List Byte) (held : Nat := 0) : State :=
  dw (fun d => { d with hlp := { strm, held } }) (sets [(HLP_STAT_STATE, hlUP)])

/-- Before the timing PLL first locks nothing is served. -/
def noClk (s : State) : State := dw (fun d => { d with clk := {} }) s

/-- A marker block's payload. -/
def marker (l1 : Bool) (n : Nat) : BitVec 256 := BitVec.ofNat 256 (0x5341544D4B520001 + n * 2 ^ 64 + b2n l1 * 2 ^ 96)

/-- A segment strobed in the top bank. -/
def seg0 : Seg := { frame := 0, bank := 0, hd := { stripe := 95, row := 4119, pass := 3, tag := 0, drv := [] }, codes := List.replicate 128 4095 }

/-- A frame of the own array with what the stages have of it. -/
def own (x : PFrame) (f : Frame := { reading := false }) : State := dw fun d => { d with frames := [(0, f)], pipe := [(0, x)] }

/-- A satellite frame of two lines of two pixels with output 63. -/
def satOut (o : OutFr := {}) (views : SMap VewSt := []) : State :=
  dw (fun d => { d with
    frames := [(0, { member := 32, w := 2, h := 2, bits := 16, cfa := 4, reading := false })],
    pipe := [(0, { acts := 40, raw := [(0, some ⟨{}, [1, 2]⟩)], p1 := [(0, some ⟨{}, []⟩)], p2 := [(0, some ⟨{}, []⟩)],
                   y := [(0, some ⟨{}, [⟨1, false, false⟩, ⟨2, false, false⟩]⟩)], order := [0], outs := [(63, o)] })],
    views })
    (acts [(GEO_OD0_EN, 0, 63, 1), (GEO_OD0_MEMBER, 0, 63, 32), (GEO_OD0_SRC, 0, 63, 2), (GEO_OD3_DEST, 0, 63, 2),
      (VEW_CFG_EN, 0, 1, 1)])

/-- What output 63 makes of it. -/
def outGeo : Geo :=
  { op := 0, x0 := 0, y0 := 0, w := 2, h := 2, f := 1, sum := false, scale := false, ow := 2, oh := 2, flip := 0, bits := 24,
    shift := 0, mono := true, strip := false, cfa := 4, dest := 2 }

/-- Every stage has capacity. -/
def capUp : State :=
  sets [(ING_CAP_MPXS, 100000), (NRD_CAP_MPXS, 100000), (PXC_CAP_MPXS, 100000), (HDR_CAP_MPXS, 100000), (GEO_CAP_MPXS, 100000),
    (ENC_CAP_MPXS, 100000)]

/-- Lane 35 enabled with a signal, its group 8 in a state. -/
def laneIn (st : Nat) (x : LaneSt := {}) (g : GrpSt := {}) (s : State := enabled (.ln 35)) : State :=
  seti [(LN_STAT_SIGNAL, 35, 0, 1), (LN_STAT_STATE, 35, 0, st)]
    (dw (fun d => { d with lanes := [(35, x)], grps := [(8, { g with state := st })] }) s)

/-- The same with block lock. -/
def laneLocked (x : LaneSt := {}) : State := seti [(LN_STAT_BLOCK_LOCK, 35, 0, 1)] (laneIn 7 x)

/-- A block of all four levels in turn. -/
def richBlock : BitVec 260 := 0xE4E4E4E4E4E4E4E4E4E4E4E4E4E4E4E4E4E4E4E4E4E4E4E4E4E4E4E4E4E4E4E4#260

/-- The timing PLL in a state. -/
def clk (c : ClkSt) (s : State := up) : State := dw (fun d => { d with clk := { c with everLocked := true } }) s

/-- The time of day and the rest of the timebase. -/
def tod (t : TimeSt) (s : State := up) : State := dw (fun d => { d with time := t }) s

/-- The always-on domain. -/
def aon (a : AonSt) (s : State := up) : State := dw (fun d => { d with aon := a }) s

/-- The regulator and the governor. -/
def pwr (p : PwrSt) (s : State := up) : State := dw (fun d => { d with pwr := p }) s

/-- The recorder. -/
def evr (r : Recorder) (s : State := up) : State := { s with evr := r }

/-- Events that wait. -/
def evs (l : List Ev) (s : State := up) : State := dw (fun d => { d with evq := l }) s

/-- The boot in progress. -/
def boot (b : BootSt) (s : State := up) : State := dw (fun d => { d with boot := b }) s

/-- EVR_CLEAR posted with these words after its range, under a key and a nonce. -/
def clearState (w : List Word) : State :=
  let s := dv (fun d => { d with regs := d.regs ++ w.zipIdx.map fun p => (MBX_CMD_BUF.addr 0 (4 + p.2), p.1) }) (post 0x34 12)
  { s with evr := { nextSeq := 1, nonce := some (List.replicate 16 2#8) }, vault := { key := some (List.replicate 32 1#8) } }

theorem byteOfWord (a b c e : Byte) :
    BitVec.ofNat 8 (bitsOf (BitVec.ofNat 32 (natOfBytes [a, b, c, e])) 31 0 / 2 ^ 0) = a ∧
      BitVec.ofNat 8 (bitsOf (BitVec.ofNat 32 (natOfBytes [a, b, c, e])) 31 0 / 2 ^ 8) = b ∧
      BitVec.ofNat 8 (bitsOf (BitVec.ofNat 32 (natOfBytes [a, b, c, e])) 31 0 / 2 ^ 16) = c ∧
      BitVec.ofNat 8 (bitsOf (BitVec.ofNat 32 (natOfBytes [a, b, c, e])) 31 0 / 2 ^ 24) = e := by
  have := a.isLt; have := b.isLt; have := c.isLt; have := e.isLt
  refine ⟨?_, ?_, ?_, ?_⟩ <;> apply BitVec.eq_of_toNat_eq <;> simp [bitsOf, natOfBytes] <;> omega

/-- The payload gives back the bytes that were put in its words. -/
theorem macBytes (b : List Byte) (h : b.length = 32) : (clearState (wordsOf b)).dev.cmdBytes 16 32 = b := by
  match b, h with
  | [b0, b1, b2, b3, b4, b5, b6, b7, b8, b9, b10, b11, b12, b13, b14, b15, b16, b17, b18, b19, b20, b21, b22, b23, b24, b25, b26,
      b27, b28, b29, b30, b31], _ =>
    obtain ⟨h0, h1, h2, h3⟩ := byteOfWord b0 b1 b2 b3
    obtain ⟨h4, h5, h6, h7⟩ := byteOfWord b4 b5 b6 b7
    obtain ⟨h8, h9, h10, h11⟩ := byteOfWord b8 b9 b10 b11
    obtain ⟨h12, h13, h14, h15⟩ := byteOfWord b12 b13 b14 b15
    obtain ⟨h16, h17, h18, h19⟩ := byteOfWord b16 b17 b18 b19
    obtain ⟨h20, h21, h22, h23⟩ := byteOfWord b20 b21 b22 b23
    obtain ⟨h24, h25, h26, h27⟩ := byteOfWord b24 b25 b26 b27
    obtain ⟨h28, h29, h30, h31⟩ := byteOfWord b28 b29 b30 b31
    exact congr (congrArg _ h0) (congr (congrArg _ h1) (congr (congrArg _ h2) (congr (congrArg _ h3) (congr (congrArg _ h4)
      (congr (congrArg _ h5) (congr (congrArg _ h6) (congr (congrArg _ h7) (congr (congrArg _ h8) (congr (congrArg _ h9)
      (congr (congrArg _ h10) (congr (congrArg _ h11) (congr (congrArg _ h12) (congr (congrArg _ h13) (congr (congrArg _ h14)
      (congr (congrArg _ h15) (congr (congrArg _ h16) (congr (congrArg _ h17) (congr (congrArg _ h18) (congr (congrArg _ h19)
      (congr (congrArg _ h20) (congr (congrArg _ h21) (congr (congrArg _ h22) (congr (congrArg _ h23) (congr (congrArg _ h24)
      (congr (congrArg _ h25) (congr (congrArg _ h26) (congr (congrArg _ h27) (congr (congrArg _ h28) (congr (congrArg _ h29)
      (congr (congrArg _ h30) (congr (congrArg _ h31) rfl)))))))))))))))))))))))))))))))

/-- An authorised clear of record 0. -/
def macState : State :=
  clearState (wordsOf (hmacSha256 (List.replicate 32 1#8) (clearMessage (List.replicate 16 2#8) 0 0)))

/-! ## Every clause of a statement has a state and operands that meet its hypotheses -/

theorem meets_ClosedPortIgnoresWrites :
    (∃ (c : Instr) (p : Port) (s : State), c.writesBy = some p ∧ s.dev.serves = true ∧ s.dev.portOpen p = false) ∧
    (∃ (s : State), s.dev.serves = true) ∧
    (∃ (p : Port) (s : State), s.admitsAt p .sys) ∧
    (∃ (cmd : Byte) (s : State), cmd.getLsbD 7 = false ∧ s.dev.serves = true ∧ s.dev.portOpen .spi = false) ∧
    (∃ (a7 : BitVec 7) (s : State), a7.toNat = 0x38 + s.dev.aon.strapI2c ∧ s.dev.vioGood = true ∧ s.dev.serves = true ∧
      s.dev.portOpen .i2c = false) :=
  ⟨⟨.clkOutEnable .i2c 9 true, .i2c, sets [(SYS_PORT_CTRL_WR_EN, 3)], by decide⟩,
   ⟨up, by decide⟩,
   ⟨.spi, up, by decide⟩,
   ⟨63, sets [(SYS_PORT_CTRL_WR_EN, 5), (SYS_PORT_DENY, 0xFFFFFFFF)], by decide⟩,
   ⟨0x38#7, sets [(SYS_PORT_CTRL_WR_EN, 3)], by decide⟩⟩

theorem meets_UnservedWritesChangeNothing :
    (∃ (c : Instr) (p : Port) (s : State), c.writesBy = some p ∧ s.dev.serves = false) ∧
    (∃ (cmd : Byte) (s : State), cmd.getLsbD 7 = false ∧ s.dev.serves = false) ∧
    (∃ (s : State), s.dev.serves = false) :=
  ⟨⟨.warmReset .inband, .inband, State.reset, by decide⟩,
   ⟨63, State.reset, by decide⟩,
   ⟨State.reset, by decide⟩⟩

theorem meets_RegisterAccessByClass :
    (∃ (F : Fld) (p : Port) (s : State), F ∈ Blk.fields .nrd ∧ F.acc = .sh ∧ F.stride = 0 ∧ s.admitsAt p .nrd) ∧
    (∃ (p : Port) (a : BitVec 24) (s : State), s.admits p ∧ decodeAddr a.toNat = .outside) ∧
    (∃ (p : Port) (pg : Page) (s : State), s.admitsAt p pg) ∧
    (∃ (F : Fld) (s : State), F ∈ Blk.fields .evr ∧ F.acc = .rc ∧ s.dev.serves = true) :=
  ⟨⟨NRD_SPAT_STR, .spi, up, by decide⟩,
   ⟨.fw, 0x0D0000#24, up, by decide⟩,
   ⟨.inband, .ln 43, up, by decide⟩,
   ⟨EVR_ACCEPTED, sets [(EVR_ACCEPTED, 0xFFFFFFFF)], by decide⟩⟩

theorem meets_SerialPortsMoveWords :
    (∃ (cmd : Byte), cmd.getLsbD 7 = false) ∧
    (∃ (cmd : Byte) (a : BitVec 24) (w : Word) (s : State), cmd.getLsbD 7 = false ∧ cmd.toNat % 64 ≠ 0 ∧ s.dev.beginsReset
      .spi a.toNat w = false) ∧
    (∃ (cmd : Byte) (s : State), cmd.getLsbD 7 = true ∧ s.dev.serves = true) ∧
    (∃ (cmd : Byte) (n : Nat) (s : State), cmd.getLsbD 7 = true ∧ cmd.toNat % 64 = 0 ∧ n ≠ 0 ∧ s.dev.serves = true) ∧
    (∃ (ws : List Word), ws.length ≤ 63) ∧
    (∃ (a7 : BitVec 7) (s : State), a7.toNat ≠ 0x38 + s.dev.aon.strapI2c) ∧
    (∃ (a7 : BitVec 7) (s : State), a7.toNat = 0x38 + s.dev.aon.strapI2c ∧ s.dev.vioGood = true ∧ s.dev.serves = true) ∧
    (∃ (a7 : BitVec 7) (s : State), a7.toNat = 0x38 + s.dev.aon.strapI2c ∧ s.dev.vioGood = true) :=
  ⟨⟨0#8, by decide⟩,
   ⟨63#8, 0xFFFFFC#24, 0#32, up, by decide⟩,
   ⟨0xBF#8, up, by decide⟩,
   ⟨0x80#8, 1, up, by decide⟩,
   ⟨[5#32, 2#32], by decide⟩,
   ⟨0x39#7, up, by decide⟩,
   ⟨0x38#7, up, by decide⟩,
   ⟨0x38#7, up, by decide⟩⟩

theorem meets_PagesStartAndStop :
    (∃ (p : Port) (pg : Page) (s : State), s.admitsAt p pg ∧ s.dev.enabled pg = true) ∧
    (∃ (p : Port) (pg : Page) (s : State), s.admitsAt p pg ∧ s.dev.enabled pg = false ∧ pg.blk ∈ [.win, .trg, .eng, .ing,
      .nrd, .hdr, .geo, .sta, .vew, .enc, .dlv, .fst]) ∧
    (∃ (p : Port) (pg : Page) (s : State), s.admitsAt p pg ∧ pg.alwaysOn = true) ∧
    (∃ (p : Port) (pg : Page) (s : State), s.admitsAt p pg ∧ s.dev.enabled pg = true ∧ s.dev.com.accepted = [] ∧
      s.dev.com.gstate = .idle ∧ (pg.blk ∈ [.win, .trg] ∨ pg.blk ∈ [.ing, .hdr, .geo, .sta, .vew, .enc, .dlv, .fst] ∧
        s.dev.processing pg = false)) :=
  ⟨⟨.spi, .sys, up, by decide⟩,
   ⟨.spi, .eng 95, up, by decide⟩,
   ⟨.spi, .sec, up, by decide⟩,
   ⟨.i2c, .fst, enabled .fst, by decide⟩⟩

theorem meets_SoftResetRestoresPage :
    (∃ (p : Port) (pg : Page) (s : State), s.admitsAt p pg ∧ s.dev.enabled pg = true) ∧
    (∃ (p : Port) (pg : Page) (s : State), s.admitsAt p pg ∧ s.dev.enabled pg = false) ∧
    (∃ (pg : Page) (s : State), s.dev.inReset pg = true) :=
  ⟨⟨.spi, .trg, enabled .trg, by decide⟩,
   ⟨.spi, .sp 7, up, by decide⟩,
   ⟨.ary, dv (fun d => { d with com := { d.com with resetting := [Page.code .ary] } }), by decide⟩⟩

theorem meets_TranslationIsAskedFor :
    (∃ (p : Port) (pg : Page) (s : State), s.admitsAt p pg ∧ pg ∉ s.dev.com.behindXlate) ∧
    (∃ (p : Port) (pg : Page) (s : State), s.admitsAt p pg ∧ s.dev.hf pg HD_PAGE_CTRL_EXPERT = 1 ∧ s.dev.boot.run = .running
      ∧ basicWords pg ≠ []) ∧
    (∃ (p : Port) (s : State), s.admitsAt p .nrd ∧ s.dev.boot.run = .running ∧ s.dev.basicOn .nrd = true) ∧
    (∃ (p : Port) (s : State), s.admitsAt p .nrd ∧ s.dev.boot.run ≠ .running) ∧
    (∃ (p : Port) (s : State), s.admitsAt p .win ∧ s.dev.boot.run = .running ∧ s.dev.basicOn .win = true) ∧
    (∃ (s : State), s.dev.canTranslate .nrd = true ∧ s.dev.on SYS_BASIC_CTRL_AUTOCOMMIT = false ∧ Page.nrd ∉
      s.dev.com.behindXlate) ∧
    (∃ (pg : Page) (s : State), s.dev.canTranslate pg = false) :=
  ⟨⟨.spi, .nrd, up, by decide⟩,
   ⟨.spi, .nrd, fw (dv (fun d => d.setHf .nrd HD_PAGE_CTRL_EXPERT 1) up), by decide⟩,
   ⟨.spi, fw, by decide⟩,
   ⟨.spi, up, by decide⟩,
   ⟨.inband, fw, by decide⟩,
   ⟨dv (fun d => (d.setHf .nrd HD_PAGE_STAT_XLATE_PEND 1).setF SYS_BASIC_CTRL_AUTOCOMMIT 0) fw, by decide⟩,
   ⟨.nrd, up, by decide⟩⟩

theorem meets_CommitKeysLatch :
    (∃ (p : Port) (pg : Page) (s : State), s.admitsAt p pg ∧ s.dev.com.gstate = .idle ∧ s.dev.comState pg ∈ [comIDLE,
      comDONE, comFAILED] ∧ s.dev.hf pg HD_PAGE_STAT_XLATE_PEND = 0 ∧ (pg = .exp → s.dev.f EXP_CTX_CTRL_COPY_BUSY = 0)) ∧
    (∃ (p : Port) (pg : Page) (s : State), s.admitsAt p pg ∧ s.dev.com.gstate = .idle ∧ s.dev.comState pg ∈ [comACCEPTED,
      comPENDING] ∧ s.dev.hf pg HD_PAGE_STAT_XLATE_PEND = 0 ∧ (pg = .exp → s.dev.f EXP_CTX_CTRL_COPY_BUSY = 0)) ∧
    (∃ (p : Port) (pg : Page) (s : State), s.admitsAt p pg ∧ s.dev.com.gstate = .idle ∧ s.dev.comState pg = comCHECKING ∧
      s.dev.hf pg HD_PAGE_STAT_XLATE_PEND = 0 ∧ (pg = .exp → s.dev.f EXP_CTX_CTRL_COPY_BUSY = 0)) ∧
    (∃ (p : Port) (pg : Page) (s : State), s.admitsAt p pg ∧ s.dev.hf pg HD_PAGE_STAT_XLATE_PEND = 1) ∧
    (∃ (p : Port) (pg : Page) (s : State), s.admitsAt p pg ∧ s.dev.com.gstate = .checking ∧ s.dev.hf pg
      HD_PAGE_STAT_XLATE_PEND = 0) ∧
    (∃ (p : Port) (pg : Page) (s : State), s.admitsAt p pg ∧ (s.dev.com.gstate = .accepted ∨ s.dev.com.gstate = .pending) ∧
      s.dev.hf pg HD_PAGE_STAT_XLATE_PEND = 0) ∧
    (∃ (p : Port) (s : State), s.admitsAt p .exp ∧ s.dev.com.gstate = .idle ∧ s.dev.hf .exp HD_PAGE_STAT_XLATE_PEND = 0 ∧
      s.dev.f EXP_CTX_CTRL_COPY_BUSY = 1) ∧
    (∃ (p : Port) (pg : Page) (key : Word) (s : State), s.admitsAt p pg ∧ key ≠ 0xC5#32) ∧
    (∃ (p : Port) (s : State) (e : Dev), s.admits p ∧ s.dev.com.gstate = .idle ∧ s.dev.anyChecking = false ∧ s.dev.f
      EXP_CTX_CTRL_COPY_BUSY = 0 ∧ e = fstBefore (s.dev.com.accepted.foldl (fun d q => supersede q d) s.dev)) ∧
    (∃ (p : Port) (s : State) (x : Dev) (e : Dev), s.admits p ∧ (s.dev.com.gstate = .accepted ∨ s.dev.com.gstate = .pending)
      ∧ s.dev.anyChecking = false ∧ s.dev.f EXP_CTX_CTRL_COPY_BUSY = 0 ∧ x = dropGlobal s.dev ∧ e = fstBefore
        (x.com.accepted.foldl (fun d q => supersede q d) x)) ∧
    (∃ (p : Port) (s : State), s.admits p ∧ s.dev.com.gstate = .checking) ∧
    (∃ (p : Port) (s : State), s.admits p ∧ s.dev.com.gstate ≠ .checking ∧ (s.dev.anyChecking = true ∨ s.dev.f
      EXP_CTX_CTRL_COPY_BUSY = 1)) ∧
    (∃ (p : Port) (key : Word) (s : State), s.admits p ∧ key ≠ 0xC5#32) ∧
    (∃ (pg : Page) (s : State), pg ∈ s.dev.com.behindXlate ∧ s.dev.com.gstate = .idle ∧ s.dev.comState pg ∈ [comIDLE,
      comDONE, comFAILED] ∧ (pg = .exp → s.dev.f EXP_CTX_CTRL_COPY_BUSY = 0)) ∧
    (∃ (pg : Page) (s : State), pg ∈ s.dev.com.behindXlate ∧ s.dev.com.gstate = .idle ∧ s.dev.comState pg ∈ [comACCEPTED,
      comPENDING] ∧ (pg = .exp → s.dev.f EXP_CTX_CTRL_COPY_BUSY = 0)) ∧
    (∃ (pg : Page) (s : State), pg ∉ s.dev.com.behindXlate) :=
  ⟨⟨.spi, .exp, up, by decide⟩,
   ⟨.spi, .nrd, dv (fun d => d.setHf .nrd HD_COMMIT_STAT_STATE comACCEPTED) up, by decide⟩,
   ⟨.spi, .nrd, dv (fun d => d.setHf .nrd HD_COMMIT_STAT_STATE comCHECKING) up, by decide⟩,
   ⟨.spi, .nrd, dv (fun d => d.setHf .nrd HD_PAGE_STAT_XLATE_PEND 1) up, by decide⟩,
   ⟨.spi, .nrd, dv (fun d => { d with com := { d.com with gstate := .checking } }) up, by decide⟩,
   ⟨.spi, .nrd, dv (fun d => { d with com := { d.com with gstate := .accepted } }) up, by decide⟩,
   ⟨.spi, sets [(EXP_CTX_CTRL_COPY_BUSY, 1)], by decide⟩,
   ⟨.spi, .nrd, 0#32, up, by decide⟩,
   ⟨.inband, up, fstBefore (up.dev.com.accepted.foldl (fun d q => supersede q d) up.dev), by decide +kernel, by decide,
     by decide +kernel, by decide, rfl⟩,
   ⟨.inband, dv (fun d => { d with com := { d.com with gstate := .accepted } }) up, dropGlobal (dv (fun d =>
     { d with com := { d.com with gstate := .accepted } }) up).dev, fstBefore ((dropGlobal (dv (fun d =>
       { d with com := { d.com with gstate := .accepted } }) up).dev).com.accepted.foldl (fun d q => supersede q d)
        (dropGlobal (dv (fun d => { d with com := { d.com with gstate := .accepted } }) up).dev)), by decide, by decide,
        by decide +kernel, by decide, rfl, rfl⟩,
   ⟨.inband, dv (fun d => { d with com := { d.com with gstate := .checking } }) up, by decide⟩,
   ⟨.inband, sets [(EXP_CTX_CTRL_COPY_BUSY, 1)], by decide⟩,
   ⟨.fw, 0xC6#32, up, by decide⟩,
   ⟨.nrd, dv (fun d => { d with com := { d.com with behindXlate := [.nrd] } }) up, by decide⟩,
   ⟨.nrd, dv (fun d => { d with com := { d.com with behindXlate := [.nrd] } }) (dv (fun d => d.setHf .nrd
     HD_COMMIT_STAT_STATE comACCEPTED) up), by decide⟩,
   ⟨.nrd, up, by decide⟩⟩

theorem meets_ChecksAndHoldsEnd :
    (∃ (pg : Page) (f : Fail) (s : State), s.dev.comState pg = comCHECKING ∧ s.dev.com.gstate = .idle ∧ pg ∉ s.dev.com.rekey
      ∧ pageCheck (s.dev.candidate (s.dev.pageCom pg).latched [pg]) pg = some f ∧ f.ctx = none) ∧
    (∃ (pg : Page) (s : State), s.dev.comState pg = comCHECKING ∧ s.dev.com.gstate = .idle ∧ pg ∉ s.dev.com.rekey ∧
      pageCheck (s.dev.candidate (s.dev.pageCom pg).latched [pg]) pg = none ∧ s.dev.enabled pg = true ∧ capacityMeets s.dev
        (s.dev.candidate (s.dev.pageCom pg).latched [pg]) = true) ∧
    (∃ (pg : Page) (s : State), s.dev.comState pg = comPENDING ∧ pg ∈ s.dev.com.accepted ∧ (s.dev.pageCom pg).hold ≠ .none)
      :=
  ⟨⟨.nrd, { reason := 2, ofs := 256 }, dv (fun d => (d.setHf .nrd HD_COMMIT_STAT_STATE comCHECKING).setCom .nrd
    { latched := [(0x91100, 0x1F#32)] }) up, by decide⟩,
   ⟨.nrd, dv (fun d => d.setHf .nrd HD_COMMIT_STAT_STATE comCHECKING) (enabled .nrd), by decide +kernel⟩,
   ⟨.nrd, dv (fun d =>
     { (d.setHf .nrd HD_COMMIT_STAT_STATE comPENDING).setCom .nrd { hold := .demand } with com := { (d.setCom .nrd { hold := .demand }).com with accepted := [.nrd] } })
       up, by decide⟩⟩

theorem meets_MailboxSlotIsClaimed :
    (∃ (p : Port) (s : State), s.admits p ∧ p ≠ .fw ∧ s.dev.mbxServed = true ∧ s.dev.f MBX_STAT_STATE = mbxIDLE ∧
      (s.dev.boot.run = .loader → p ≠ .inband)) ∧
    (∃ (p : Port) (q : Port) (s : State), s.admits q ∧ q ≠ .fw ∧ p ≠ q ∧ s.dev.mbxServed = true ∧ s.dev.f MBX_STAT_STATE =
      mbxLOADING ∧ s.dev.f MBX_RESP_OWNER = portCode p) ∧
    (∃ (s : State), s.admits .inband ∧ s.dev.boot.run = .loader) ∧
    (∃ (p : Port) (s : State), s.admits p ∧ s.dev.mbxServed = true ∧ s.dev.mbxMayLoad p = true ∧ s.dev.f MBX_CMD_OPCODE ∈
      mbxOpcodes) ∧
    (∃ (p : Port) (s : State), s.admits p ∧ s.dev.mbxServed = true ∧ (s.dev.f MBX_STAT_STATE = mbxDONE ∨ s.dev.f
      MBX_STAT_STATE = mbxLOADING ∧ s.dev.f MBX_RESP_OWNER = portCode p)) ∧
    (∃ (s : State), s.dev.mbxServed = true ∧ s.dev.f MBX_STAT_STATE = mbxLOADING) :=
  ⟨⟨.spi, fw, by decide⟩,
   ⟨.spi, .i2c, sets [(MBX_STAT_STATE, 6), (MBX_RESP_OWNER, 1)] fw, by decide⟩,
   ⟨boot { run := .loader }, by decide⟩,
   ⟨.i2c, sets [(MBX_CMD_OPCODE, 0x90)] fw, by decide⟩,
   ⟨.spi, sets [(MBX_STAT_STATE, 6), (MBX_RESP_OWNER, 1)] fw, by decide⟩,
   ⟨sets [(MBX_STAT_STATE, 6)] fw, by decide⟩⟩

theorem meets_MailboxAnswers :
    (∃ (result : Nat) (resp : List Byte), result < 256 ∧ resp.length ≤ 1024) ∧
    (∃ (s : State), s.posted 0x0001 0) ∧
    (∃ (s : State) (n : Nat), n ≤ 64 ∧ s.posted 0x0002 n) ∧
    (∃ (c : Instr) (opc : Nat) (n : Nat) (s : State), (c, opc, n) ∈ [(.identify, 0x0001, 0), (.presetLoad, 0x0010, 1),
      (.presetSave, 0x0011, 1), (.ctxSnapshot, 0x0020, 2), (.evrRead, 0x0030, 3), (.evrFreeze, 0x0031, 0), (.evrThaw,
        0x0032, 0), (.evrClearNonce, 0x0033, 0), (.evrClear, 0x0034, 12), (.fwBegin, 0x0040, 2), (.fwEnd, 0x0042, 16),
        (.fwActivate, 0x0043, 1), (.histTrigger, 0x0050, 2), (.histFreeze, 0x0051, 0), (.histReplay, 0x0052, 3), (.timeStep,
        0x0060, 3), (.phaseStep, 0x0061, 1), (.gaitSet, 0x0070, 1), (.thermalRead, 0x0071, 0), (.focusRun .go, 0x0080, 1),
        (.focusRun .word, 0x0080, 1), (.focusRun .frame, 0x0080, 1), (.linkRetrain, 0x0090, 1)] ∧ (∃ m, m ≠ n ∧ s.posted opc
        m)) :=
  ⟨⟨255, List.replicate 1024 0#8, by decide⟩,
   ⟨post 1 0, by decide⟩,
   ⟨post 2 64, 64, by decide⟩,
   ⟨.linkRetrain, 0x90, 1, post 0x90 2, by simp, 2, by decide, by decide⟩⟩

theorem meets_EngineArithmeticWritesDestination :
    (∃ (e : Fin 96) (dly : Fin 32) (s : State), s.dev.engReady e .nop dly = true) ∧
    (∃ (e : Fin 96) (dst : Fin 15) (imm : BitVec 16) (dly : Fin 32) (s : State), s.dev.engReady e (.set dst imm) dly = true)
      ∧
    (∃ (e : Fin 96) (dst : Fin 3) (imm : BitVec 16) (dly : Fin 32) (s : State), s.dev.engReady e (.seth dst imm) dly = true)
      ∧
    (∃ (e : Fin 96) (dst : Fin 15) (imm : BitVec 12) (dly : Fin 32) (s : State), s.dev.engReady e (.add dst imm) dly = true)
      ∧
    (∃ (e : Fin 96) (dst : Fin 15) (src : Fin 15) (op : Fin 4) (dly : Fin 32) (s : State), s.dev.engReady e (.mov dst src
      op) dly = true) :=
  ⟨⟨95, 31, onE (ew 0 31 0), by decide⟩,
   ⟨95, 14, 0xFFFF#16, 0, onE (ew 1 0 (14 * 2 ^ 18 + 0xFFFF)), by decide⟩,
   ⟨95, 2, 0x8000#16, 31, onE (ew 2 31 (2 * 2 ^ 18 + 0x8000)), by decide⟩,
   ⟨95, 14, 0xFFF#12, 0, onE (ew 3 0 (14 * 2 ^ 18 + 0xFFF)), by decide⟩,
   ⟨95, 0, 14, 3, 1, onE (ew 4 1 (14 * 2 ^ 14 + 3 * 2 ^ 12)), by decide⟩⟩

theorem meets_EngineControlFlow :
    (∃ (e : Fin 96) (cond : Fin 14) (addr : Fin 1024) (s : State), s.dev.engReady e (.jmp cond addr) 0 = true ∧
      (s.dev.engine e).pendWrap = none) ∧
    (∃ (e : Fin 96) (cond : Fin 14) (addr : Fin 1024) (dly : Fin 32) (s : State), s.dev.engReady e (.jmp cond addr) dly =
      true ∧ dly ≠ 0 ∧ (s.dev.engine e).stepping = false) ∧
    (∃ (e : Fin 96) (s : State), (s.dev.engine e).state = engRUN ∧ (s.dev.engine e).idle = true ∧ (s.dev.engine e).pendWrap
      = none) ∧
    (∃ (e : Fin 96) (n : Fin 4) (dly : Fin 32) (s : State), s.dev.engReady e (.irq n) dly = true) ∧
    (∃ (e : Fin 96) (dly : Fin 32) (s : State), s.dev.engReady e .stop dly = true) ∧
    (∃ (e : Fin 96) (s : State), (s.dev.engine e).issues = true ∧ s.dev.engIns e = none) :=
  ⟨⟨95, 13, 1023, onE (ew 5 0 (13 * 2 ^ 18 + 1023)), by decide⟩,
   ⟨95, 0, 1023, 31, onE (ew 5 31 1023), by decide⟩,
   ⟨95, onE 0#32 { state := engRUN, idle := true }, by decide⟩,
   ⟨95, 3, 0, onE (ew 15 0 (3 * 2 ^ 20)), by decide⟩,
   ⟨95, 31, onE (ew 16 31 0), by decide⟩,
   ⟨95, onE (ew 31 0 0), by decide⟩⟩

theorem meets_EngineFifosMoveWords :
    (∃ (e : Fin 96) (nb : Bool) (dly : Fin 32) (w : Word) (l : List Word) (s : State), s.dev.engReady e (.pull true nb) dly
      = true ∧ (s.dev.engine e).parF = w :: l) ∧
    (∃ (e : Fin 96) (nb : Bool) (dly : Fin 32) (x : CtxEntry) (l : List CtxEntry) (s : State), s.dev.engReady e (.pull false
      nb) dly = true ∧ (s.dev.engine e).ctxF = x :: l) ∧
    (∃ (e : Fin 96) (dly : Fin 32) (s : State), s.dev.engReady e (.pull true true) dly = true ∧ (s.dev.engine e).parF = [])
      ∧
    (∃ (e : Fin 96) (dly : Fin 32) (s : State), s.dev.engReady e (.pull true false) dly = true ∧ (s.dev.engine e).parF = [])
      ∧
    (∃ (e : Fin 96) (w : Word) (l : List Word) (s : State), (s.dev.engine e).stall = .pull true ∧ (s.dev.engine e).parF = w
      :: l) ∧
    (∃ (e : Fin 96) (src : ESrc) (nb : Bool) (dly : Fin 32) (s : State), s.dev.engReady e (.push src nb) dly = true ∧
      (s.dev.engine e).outF.length < 16) ∧
    (∃ (e : Fin 96) (src : ESrc) (dly : Fin 32) (s : State), s.dev.engReady e (.push src true) dly = true ∧ 16 ≤
      (s.dev.engine e).outF.length) ∧
    (∃ (e : Fin 96) (v : Word) (s : State), (s.dev.engine e).stall = .push v ∧ (s.dev.engine e).outF.length < 16) ∧
    (∃ (p : Port) (e : Fin 96) (s : State), s.admitsAt p (.eng e) ∧ (s.dev.engine e).parF.length < 8) ∧
    (∃ (p : Port) (e : Fin 96) (s : State), s.admitsAt p (.eng e) ∧ 8 ≤ (s.dev.engine e).parF.length) ∧
    (∃ (s : State), s.dev.serves = true) ∧
    (∃ (e : Fin 96) (s : State), (s.dev.engine e).swLeft ≠ 0 ∧ (s.dev.engine e).swFill = true ∧ (s.dev.engine e).ctxF.length
      < 8) :=
  ⟨⟨95, true, 0, 7#32, [], onE (ew 8 0 (2 ^ 21 + 2 ^ 20)) { state := engRUN, parF := [7#32] }, by decide⟩,
   ⟨95, false, 31, ⟨63, []⟩, [], onE (ew 8 31 0) { state := engRUN, ctxF := [⟨63, []⟩] }, by decide⟩,
   ⟨95, 0, onE (ew 8 0 (2 ^ 21 + 2 ^ 20)), by decide⟩,
   ⟨95, 0, onE (ew 8 0 (2 ^ 21)), by decide⟩,
   ⟨95, 7#32, [], onE 0#32 { state := engRUN, stall := .pull true, parF := [7#32] }, by decide⟩,
   ⟨95, .ctx 3, true, 0, onE (ew 9 0 (3 * 2 ^ 18 + 2 ^ 17 + 2 ^ 16)) { state := engRUN, outF := List.replicate 15 0#32 }, by
     decide⟩,
   ⟨95, .reg 14, 0, onE (ew 9 0 (14 * 2 ^ 18 + 2 ^ 16)) { state := engRUN, outF := List.replicate 16 0#32 }, by decide⟩,
   ⟨95, 7#32, onE 0#32 { state := engRUN, stall := .push 7#32, outF := List.replicate 15 0#32 }, by decide⟩,
   ⟨.spi, 95, onE 0#32 { parF := List.replicate 7 0#32 }, by decide⟩,
   ⟨.spi, 95, onE 0#32 { parF := List.replicate 8 0#32 }, by decide⟩,
   ⟨up, by decide⟩,
   ⟨95, onE 0#32 { swLeft := 1, swFill := true, ctxF := List.replicate 7 ⟨0, []⟩ }, by decide⟩⟩

theorem meets_EngineWaitsAndBarriers :
    (∃ (e : Fin 96) (cond : Fin 9) (arg : BitVec 16) (dly : Fin 32) (s : State), s.dev.engReady e (.wait cond arg) dly =
      true ∧ (s.dev.engine e).stepping = false) ∧
    (∃ (e : Fin 96) (ph : Fin 3) (cond : Nat) (arg : Nat) (issue : Nat) (tick : Nat) (s : State), (s.dev.engine e).stall =
      .wait cond arg issue tick ∧ s.dev.waitHolds e (s.dev.cyc + ph) cond arg issue tick = true) ∧
    (∃ (e : Fin 96) (p : EPort) (it : EInc) (ib : EInc) (dly : Fin 32) (s : State), s.dev.engReady e (.stb p it ib) dly =
      true ∧ (s.dev.curM ≤ (s.dev.engine e).p ∨ s.dev.passOver (s.dev.engine e).p = true)) ∧
    (∃ (e : Fin 96) (p : EPort) (it : EInc) (ib : EInc) (dly : Fin 32) (s : State), s.dev.engReady e (.stb p it ib) dly =
      true ∧ (s.dev.engine e).p < s.dev.curM ∧ s.dev.passOver (s.dev.engine e).p = false) ∧
    (∃ (e : Fin 96) (g : Fin 16) (dly : Fin 32) (s : State), s.dev.engReady e (.sync g) dly = true) ∧
    (∃ (g : Fin 16) (s : State), (∀ e ∈ s.dev.syncMembers g, (s.dev.engine e).atSync g = true)) ∧
    (∃ (e : Fin 96) (g : Nat) (issue : Nat) (s : State), (s.dev.engine e).stall = .sync g issue ∧ s.dev.ai ENG_SYNC_CFG_TMO
      e 0 ≠ 0) :=
  ⟨⟨95, 8, 0xFFFF#16, 0, onE (ew 6 0 (8 * 2 ^ 18 + 0xFFFF)), by decide⟩,
   ⟨95, 2, 2, 0, 0, 0, onE 0#32 { state := engRUN, stall := .wait 2 0 0 0 }, by decide⟩,
   ⟨95, .both, .none, .minus, 0, onE (ew 7 0 (3 * 2 ^ 20 + 2 * 2 ^ 16)) { state := engRUN, p := 4 }, by decide⟩,
   ⟨95, .top, .plus, .none, 0, onE (ew 7 0 (2 ^ 20 + 2 ^ 18)), by decide⟩,
   ⟨95, 15, 31, onE (ew 14 31 (15 * 2 ^ 18)), by decide⟩,
   ⟨15, up, by decide⟩,
   ⟨95, 15, 0, dv (fun d => d.putAct (ENG_SYNC_CFG_TMO.addr 95 0) 0xFFFFFFFF#32) (onE 0#32 { stall := .sync 15 0 }), by
     decide⟩⟩

theorem meets_EngineShiftChains :
    (∃ (e : Fin 96) (bot : Bool) (src : Fin 15) (dly : Fin 32) (s : State), s.dev.engReady e (.shf bot src) dly = true) ∧
    (∃ (e : Fin 96) (bot : Bool) (mirror : Bool) (dly : Fin 32) (s : State), s.dev.engReady e (.shg bot mirror) dly = true)
      ∧
    (∃ (e : Fin 96) (bot : Bool) (w : Word) (issue : Nat) (s : State), (s.dev.engine e).stall = .shg bot w issue) ∧
    (∃ (e : Fin 96) (p : EPort) (dly : Fin 32) (s : State), s.dev.engReady e (.latch p) dly = true) ∧
    (∃ (e : Fin 96) (s : State), (s.dev.engine e).state = engFLUSH) :=
  ⟨⟨95, true, 14, 0, onE (ew 11 0 (2 ^ 21 + 14 * 2 ^ 17)), by decide⟩,
   ⟨95, true, true, 0, onE (ew 12 0 (2 ^ 21 + 2 ^ 20)), by decide⟩,
   ⟨95, true, 0#32, 0, onE 0#32 { state := engRUN, stall := .shg true 0#32 0 }, by decide⟩,
   ⟨95, .both, 31, onE (ew 13 31 (3 * 2 ^ 20)), by decide⟩,
   ⟨95, onE 0#32 { state := engFLUSH }, by decide⟩⟩

theorem meets_EngineHostControl :
    (∃ (p : Port) (e : Fin 96) (s : State), s.admitsAt p (.eng e) ∧ (s.dev.engine e).running = true ∧ (s.dev.engine e).stall
      = .none ∧ (s.dev.engine e).idle = false) ∧
    (∃ (p : Port) (e : Fin 96) (s : State), s.admitsAt p (.eng e) ∧ (s.dev.engine e).running = true ∧ (∃ c a i k,
      (s.dev.engine e).stall = .wait c a i k)) ∧
    (∃ (p : Port) (e : Fin 96) (s : State), s.admitsAt p (.eng e) ∧ (s.dev.engine e).state = engHALTED) ∧
    (∃ (p : Port) (e : Fin 96) (s : State), s.admitsAt p (.eng e) ∧ ((s.dev.engine e).state = engHALTED ∨ (s.dev.engine
      e).state = engILLEGAL)) ∧
    (∃ (p : Port) (e : Fin 96) (s : State), s.admitsAt p (.eng e)) ∧
    (∃ (p : Port) (e : Fin 96) (s : State), s.admitsAt p (.eng e) ∧ (s.dev.engine e).running = false) ∧
    (∃ (p : Port) (e : Fin 96) (i : Fin 1024) (s : State), s.admitsAt p (.eng e) ∧ (s.dev.engine e).running = true ∧
      inWindow (s.dev.engine e).wrapTop (s.dev.engine e).wrapBot i = true) :=
  ⟨⟨.spi, 95, onE 0#32, by decide⟩,
   ⟨.spi, 95, onE 0#32 { state := engRUN, stall := .wait 0 1 2 3 }, by decide, by decide, 0, 1, 2, 3, by decide⟩,
   ⟨.spi, 95, onE 0#32 { state := engHALTED }, by decide⟩,
   ⟨.spi, 95, onE 0#32 { state := engILLEGAL }, by decide⟩,
   ⟨.spi, 95, up, by decide⟩,
   ⟨.spi, 95, onE 0#32 { state := engHALTED }, by decide⟩,
   ⟨.spi, 95, 1023, onE 0#32 { state := engRUN, wrapTop := 1023 }, by decide⟩⟩

theorem meets_PinArithmeticWritesDestination :
    (∃ (e : Fin 8) (s : State), s.dev.peReady e .nop 0 = true) ∧
    (∃ (e : Fin 8) (dly : Fin 16) (s : State), s.dev.peReady e .nop dly = true ∧ dly ≠ 0) ∧
    (∃ (e : Fin 8) (s : State), (s.dev.pin e).idle = true) ∧
    (∃ (e : Fin 8) (r : Fin 4) (imm : BitVec 6) (dly : Fin 16) (s : State), s.dev.peReady e (.ldi r imm) dly = true) ∧
    (∃ (e : Fin 8) (r : Fin 4) (k : Fin 8) (dly : Fin 16) (s : State), s.dev.peReady e (.ldk r k) dly = true) ∧
    (∃ (e : Fin 8) (r : Fin 4) (imm : BitVec 6) (dly : Fin 16) (s : State), s.dev.peReady e (.addi r imm) dly = true) ∧
    (∃ (e : Fin 8) (r : Fin 4) (q : Fin 4) (op : Fin 4) (dly : Fin 16) (s : State), s.dev.peReady e (.mov r q op) dly =
      true) :=
  ⟨⟨7, onP (pw 0 0 0), by decide⟩,
   ⟨7, 15, onP (pw 0 15 0), by decide⟩,
   ⟨7, onP 0 { state := peRUN, idle := true, jump := some 31 }, by decide⟩,
   ⟨7, 3, 0x3F#6, 0, onP (pw 1 0 0xFF), by decide⟩,
   ⟨7, 3, 7, 15, onP (pw 2 15 0xC7), by decide⟩,
   ⟨7, 3, 0x20#6, 0, onP (pw 3 0 0xE0), by decide⟩,
   ⟨7, 3, 2, 3, 0, onP (pw 4 0 0xE3), by decide⟩⟩

theorem meets_PinControlFlowAndWaits :
    (∃ (e : Fin 8) (cond : Fin 8) (addr : Fin 32) (dly : Fin 16) (s : State), s.dev.peReady e (.jmp cond addr) dly = true) ∧
    (∃ (e : Fin 8) (w : PWait) (dly : Fin 16) (s : State), s.dev.peReady e (.wait w) dly = true ∧ s.dev.peLevel e w = true)
      ∧
    (∃ (e : Fin 8) (w : PWait) (dly : Fin 16) (s : State), s.dev.peReady e (.wait w) dly = true ∧ s.dev.peLevel e w = false)
      ∧
    (∃ (e : Fin 8) (w : PWait) (met : Bool) (s : State), (s.dev.pin e).stall = .wait w met ∧ (met = true ∨ s.dev.peLevel e w
      = true)) ∧
    (∃ (e : Fin 8) (konst : Bool) (n : Fin 8) (dly : Fin 16) (s : State), s.dev.peReady e (.dly konst n) dly = true) ∧
    (∃ (e : Fin 8) (s : State), (s.dev.pin e).stall = .dly ∧ s.dev.peDelay e = 0) ∧
    (∃ (e : Fin 8) (dly : Fin 16) (s : State), s.dev.peReady e (.qdec true) dly = true ∧ s.dev.quadNow e = (s.dev.pin
      e).quad) ∧
    (∃ (e : Fin 8) (blk : Bool) (dly : Fin 16) (s : State), s.dev.peReady e (.qdec blk) dly = true ∧ (quadPos (s.dev.quadNow
      e) + 4 - quadPos (s.dev.pin e).quad) % 4 = 1) ∧
    (∃ (e : Fin 8) (s : State), (s.dev.pin e).stall = .qdec ∧ (quadPos (s.dev.quadNow e) + 4 - quadPos (s.dev.pin e).quad) %
      4 = 3) ∧
    (∃ (e : Fin 8) (s : State), (s.dev.pin e).stall = .qdec ∧ (quadPos (s.dev.quadNow e) + 4 - quadPos (s.dev.pin e).quad) %
      4 = 2) :=
  ⟨⟨7, 7, 31, 15, onP (pw 5 15 0xFF), by decide⟩,
   ⟨7, .pin 15 0, 0, onP (pw 6 0 0x78), by decide⟩,
   ⟨7, .line 7, 15, onP (pw 6 15 0xB8), by decide⟩,
   ⟨7, .start, true, onP 0 { state := peWAIT, stall := .wait .start true }, by decide, by decide⟩,
   ⟨7, true, 7, 0, onP (pw 7 0 0x87), by decide⟩,
   ⟨7, onP (pw 7 0 0x87) { state := peRUN, stall := .dly }, by decide⟩,
   ⟨7, 0, onP (pw 11 0 1), by decide⟩,
   ⟨7, true, 0, dw (fun d => { d with pioF := [(7, 1)] }) (seti [(PE_IN_CFG_QB, 7, 0, 1)] (onP (pw 11 0 1))), by decide⟩,
   ⟨7, dw (fun d => { d with pioF := [(7, 2)] }) (seti [(PE_IN_CFG_QB, 7, 0, 1)] (onP (pw 11 0 1)
     { state := peWAIT, stall := .qdec })), by decide⟩,
   ⟨7, dw (fun d => { d with pioF := [(7, 3)] }) (seti [(PE_IN_CFG_QB, 7, 0, 1)] (onP (pw 11 0 1)
     { state := peWAIT, stall := .qdec })), by decide⟩⟩

theorem meets_PinFifosMoveWords :
    (∃ (e : Fin 8) (nb : Bool) (dly : Fin 16) (w : Word) (l : List Word) (s : State), s.dev.peReady e (.pull nb) dly = true
      ∧ (s.dev.pin e).parF = w :: l) ∧
    (∃ (e : Fin 8) (dly : Fin 16) (s : State), s.dev.peReady e (.pull true) dly = true ∧ (s.dev.pin e).parF = []) ∧
    (∃ (e : Fin 8) (dly : Fin 16) (s : State), s.dev.peReady e (.pull false) dly = true ∧ (s.dev.pin e).parF = []) ∧
    (∃ (e : Fin 8) (w : Word) (l : List Word) (s : State), (s.dev.pin e).stall = .pull ∧ (s.dev.pin e).parF = w :: l) ∧
    (∃ (e : Fin 8) (r : Fin 4) (nb : Bool) (dly : Fin 16) (s : State), s.dev.peReady e (.push r nb) dly = true ∧ (s.dev.pin
      e).outF.length < 8 ∧ s.dev.peDmaOn e = false) ∧
    (∃ (e : Fin 8) (r : Fin 4) (nb : Bool) (dly : Fin 16) (s : State) (n : Nat) (ws : List Word), s.dev.peReady e (.push r
      nb) dly = true ∧ (s.dev.pin e).outF.length < 8 ∧ s.dev.peDmaOn e = true ∧ n = s.dev.fi PE_DMA_CFG_BATCH e 0 ∧ ws =
        (s.dev.pin e).outF ++ [BitVec.ofNat 32 ((s.dev.pin e).reg r)] ∧ n ≤ ws.length ∧ s.dev.queueOpen (s.dev.fi
        PE_DMA_CFG_QID e 0) = true) ∧
    (∃ (e : Fin 8) (r : Fin 4) (dly : Fin 16) (s : State), s.dev.peReady e (.push r true) dly = true ∧ 8 ≤ (s.dev.pin
      e).outF.length) ∧
    (∃ (e : Fin 8) (r : Fin 4) (dly : Fin 16) (s : State), s.dev.peReady e (.push r false) dly = true ∧ 8 ≤ (s.dev.pin
      e).outF.length) ∧
    (∃ (e : Fin 8) (ws : List Word) (s : State), (s.dev.pin e).stall = .push ws ∧ (s.dev.pin e).outF.length + ws.length ≤ 8
      ∧ s.dev.peDmaOn e = false) ∧
    (∃ (e : Fin 8) (nb : Bool) (dly : Fin 16) (s : State), s.dev.peReady e (.stamp nb) dly = true ∧ (s.dev.pin
      e).outF.length ≤ 6 ∧ s.dev.peDmaOn e = false) ∧
    (∃ (e : Fin 8) (s : State), s.dev.peDmaOn e = true ∧ s.dev.fi PE_DMA_TMO_TMO e 0 ≠ 0 ∧ (s.dev.pin e).outF ≠ [] ∧
      s.dev.queueOpen (s.dev.fi PE_DMA_CFG_QID e 0) = true) :=
  ⟨⟨7, true, 0, 7#32, [], onP (pw 9 0 1) { state := peRUN, parF := [7#32] }, by decide⟩,
   ⟨7, 15, onP (pw 9 15 1), by decide⟩,
   ⟨7, 0, onP (pw 9 0 0), by decide⟩,
   ⟨7, 7#32, [], onP (pw 9 0 0) { state := peFIFO, stall := .pull, parF := [7#32] }, by decide⟩,
   ⟨7, 3, false, 0, onP (pw 10 0 0xC0) { state := peRUN, outF := List.replicate 7 0#32 }, by decide⟩,
   ⟨7, 3, false, 0, queue 127 (seti [(PE_DMA_CFG_EN, 7, 0, 1), (PE_DMA_CFG_BATCH, 7, 0, 8), (PE_DMA_CFG_QID, 7, 0, 127)]
     (onP (pw 10 0 0xC0) { state := peRUN, outF := List.replicate 7 0#32 })), 8, List.replicate 8 0#32, by decide⟩,
   ⟨7, 3, 0, onP (pw 10 0 0xC1) { state := peRUN, outF := List.replicate 8 0#32 }, by decide⟩,
   ⟨7, 3, 0, onP (pw 10 0 0xC0) { state := peRUN, outF := List.replicate 8 0#32 }, by decide⟩,
   ⟨7, [1#32, 2#32], onP (pw 13 0 0) { state := peFIFO, outF := List.replicate 6 0#32, stall := .push [1#32, 2#32] }, by
     decide⟩,
   ⟨7, true, 0, onP (pw 13 0 1) { state := peRUN, outF := List.replicate 6 0#32 }, by decide⟩,
   ⟨7, queue 127 (seti [(PE_DMA_CFG_EN, 7, 0, 1), (PE_DMA_CFG_BATCH, 7, 0, 8), (PE_DMA_CFG_QID, 7, 0, 127), (PE_DMA_TMO_TMO,
     7, 0, 1)] (onP 0 { outF := [1#32] })), by decide⟩⟩

theorem meets_PinFifosServePorts :
    (∃ (p : Port) (e : Fin 8) (s : State), s.admitsAt p (.pe e) ∧ (s.dev.pin e).fwOwn = false ∧ (s.dev.pin e).parF.length <
      8) ∧
    (∃ (p : Port) (e : Fin 8) (s : State), s.admitsAt p (.pe e) ∧ (s.dev.pin e).fwOwn = false ∧ 8 ≤ (s.dev.pin
      e).parF.length) ∧
    (∃ (p : Port) (e : Fin 8) (s : State), s.admitsAt p (.pe e) ∧ (s.dev.pin e).fwOwn = true ∧ p ≠ .fw) ∧
    (∃ (e : Fin 8) (w : Word) (l : List Word) (s : State), s.dev.serves = true ∧ (s.dev.pin e).outF = w :: l ∧ s.dev.fi
      PE_DMA_CFG_EN e 0 = 0 ∧ (s.dev.pin e).fwOwn = false) ∧
    (∃ (e : Fin 8) (s : State), s.dev.serves = true ∧ ((s.dev.pin e).outF = [] ∨ s.dev.fi PE_DMA_CFG_EN e 0 = 1 ∧ (s.dev.pin
      e).fwOwn = false)) ∧
    (∃ (p : Port) (e : Fin 8) (s : State), s.admitsAt p (.pe e) ∧ s.dev.hf (.pe e) HD_PAGE_CTRL_EN = 0) ∧
    (∃ (p : Port) (e : Fin 8) (s : State), s.admitsAt p (.pe e) ∧ s.dev.hf (.pe e) HD_PAGE_CTRL_EN ≠ 0) :=
  ⟨⟨.spi, 7, onP 0 { parF := List.replicate 7 0#32 }, by decide⟩,
   ⟨.spi, 7, onP 0 { parF := List.replicate 8 0#32 }, by decide⟩,
   ⟨.spi, 7, onP 0 { fwOwn := true }, by decide⟩,
   ⟨7, 5#32, [], onP 0 { outF := [5#32] }, by decide⟩,
   ⟨7, seti [(PE_DMA_CFG_EN, 7, 0, 1)] (onP 0 { outF := [5#32] }), by decide⟩,
   ⟨.spi, 7, onP 0 { parF := [1#32], outF := [5#32] }, by decide⟩,
   ⟨.spi, 7, enabled (.pe 7) (onP 0 { parF := [1#32] }), by decide⟩⟩

theorem meets_PinOutputsAndStops :
    (∃ (e : Fin 8) (mask : Fin 16) (value : Fin 16) (dly : Fin 16) (s : State), s.dev.peReady e (.setp mask value) dly =
      true) ∧
    (∃ (e : Fin 8) (j : Fin 4) (s : State), s.dev.fi PE_OUT_GUARD_MAX_ON e 0 ≠ 0 ∧ (s.dev.fi PE_OUT_GUARD_MASK e 0).testBit
      j = true ∧ s.dev.peOut e j ≠ (s.dev.peSafe e).testBit j) ∧
    (∃ (e : Fin 8) (n : Fin 2) (dly : Fin 16) (s : State), s.dev.peReady e (.irq n) dly = true) ∧
    (∃ (e : Fin 8) (dly : Fin 16) (s : State), s.dev.peReady e .stop dly = true ∧ (.pe e) ∉ s.dev.com.accepted ∧
      s.dev.com.gstate ≠ .accepted ∧ s.dev.com.gstate ≠ .pending) ∧
    (∃ (e : Fin 8) (dly : Fin 16) (s : State), s.dev.peReady e .stop dly = true ∧ s.dev.enabled (.pe e) = true ∧ (.pe e) ∈
      s.dev.com.accepted) ∧
    (∃ (e : Fin 8) (s : State), (s.dev.pin e).issues = true ∧ s.dev.peIns e = none ∧ (.pe e) ∉ s.dev.com.accepted ∧
      s.dev.com.gstate ≠ .accepted ∧ s.dev.com.gstate ≠ .pending) :=
  ⟨⟨7, 15, 10, 0, onP (pw 8 0 0xFA), by decide⟩,
   ⟨7, 3, seti [(PE_OUT_GUARD_MAX_ON, 7, 0, 1), (PE_OUT_GUARD_MASK, 7, 0, 8)] (onP 0 { state := peRUN, outs := 8 }), by
     decide⟩,
   ⟨7, 1, 0, onP (pw 14 0 1), by decide⟩,
   ⟨7, 15, onP (pw 15 15 0), by decide⟩,
   ⟨7, 15, dv (fun d => { d with com := { d.com with accepted := [.pe 7] } }) (enabled (.pe 7) (onP (pw 15 15 0))), by
     decide⟩,
   ⟨7, onP (pw 15 0 1), by decide⟩⟩

theorem meets_ScheduleRunsFrames :
    (∃ (p : Port) (s : State), s.admitsAt p .ary ∧ s.dev.runState = runSTOPPED ∧ s.dev.enabled .ary = true) ∧
    (∃ (p : Port) (s : State), s.admitsAt p .ary ∧ (s.dev.runState ≠ runSTOPPED ∨ s.dev.enabled .ary = false)) ∧
    (∃ (p : Port) (s : State), s.admitsAt p .ary ∧ s.dev.runState = runARMED ∧ s.dev.enabled .ary = true) ∧
    (∃ (p : Port) (s : State), s.admitsAt p .ary ∧ s.dev.runState = runRUNNING) ∧
    (∃ (p : Port) (s : State), s.admitsAt p .ary ∧ s.dev.runState = runSTOPPED) ∧
    (∃ (s : State), s.dev.tickDue = true ∧ s.dev.runState = runARMED) ∧
    (∃ (s : State), s.dev.tickDue = true ∧ s.dev.runState = runRUNNING) ∧
    (∃ (s : State), s.dev.tickDue = true ∧ s.dev.runState = runSTOPPING) ∧
    (∃ (s : State), s.dev.tickDue = false) :=
  ⟨⟨.spi, enabled .ary, by decide⟩,
   ⟨.spi, up, by decide⟩,
   ⟨.spi, seti [(ARY_RUN_STAT_STATE, 0, 0, 1)] (enabled .ary), by decide⟩,
   ⟨.spi, seti [(ARY_RUN_STAT_STATE, 0, 0, 2)] (enabled .ary), by decide⟩,
   ⟨.spi, up, by decide⟩,
   ⟨dw (fun d => { d with cyc := 750 }) (seti [(ARY_RUN_STAT_STATE, 0, 0, 1)] (enabled .ary)), by decide⟩,
   ⟨dw (fun d => { d with cyc := 10 ^ 9, ary := { armOnly := true } }) (seti [(ARY_RUN_STAT_STATE, 0, 0, 2)] (enabled
     .ary)), by decide⟩,
   ⟨dw (fun d => { d with cyc := 10 ^ 9, ary := { armOnly := true } }) (seti [(ARY_RUN_STAT_STATE, 0, 0, 3)] (enabled
     .ary)), by decide⟩,
   ⟨up, by decide⟩⟩

theorem meets_RowClockOffersBoundaries :
    (∃ (u : Nat) (s : State), s.dev.ary.cur = some u ∧ s.dev.ary.complete = false ∧ s.dev.ary.offered < s.dev.clockedRows u)
      ∧
    (∃ (s : State), (s.dev.ary.cur = none ∨ s.dev.ary.complete = true)) ∧
    (∃ (u : Nat) (s : State), s.dev.ary.cur = some u ∧ (s.dev.frame u).sched = schedSTRIP ∧ s.dev.ary.complete = false ∧
      s.dev.stripsOut = []) ∧
    (∃ (a : Fin 24576) (s : State), s.dev.inFrame = true ∧ adcOff (s.dev.adcDrv a) (a % 128) = false) ∧
    (∃ (bank : Fin 2) (w : StrobeRow) (s : State), (s.dev.ary.waiting.find? fun w => w.bank = bank.val) = some w ∧
      (s.dev.ary.skid bank).length ≠ 11) ∧
    (∃ (bank : Fin 2) (s : State), (s.dev.ary.waiting.find? fun w => w.bank = bank.val) = none) :=
  ⟨⟨0, dw fun d => { d with ary := { cur := some 0 }, frames := [(0, { rows := 4120 })] }, by decide⟩,
   ⟨up, by decide⟩,
   ⟨0, dw fun d => { d with ary := { cur := some 0 }, frames := [(0, { sched := schedSTRIP })] }, by decide⟩,
   ⟨24575, dw fun d => { d with ary := { armOnly := true } }, by decide⟩,
   ⟨1, ⟨0, 1, []⟩, dw fun d => { d with ary := { waiting := [⟨0, 1, []⟩] } }, by decide⟩,
   ⟨1, up, by decide⟩⟩

theorem meets_ExposuresRunInTiles :
    (∃ (t : Fin 6144) (sub : Fin 4) (v : ShutEv) (s : State), (s.dev.tile t).nextArmed sub = some v ∧ s.dev.pwr.suspended =
      false ∧ (s.dev.tile t).events.any ShutEv.live = false) ∧
    (∃ (t : Fin 6144) (sub : Fin 4) (ph : Fin 3) (v : ShutEv) (rst : Nat) (s : State), (s.dev.tile t).runningEv sub = some
      (v, rst) ∧ s.dev.pwr.suspended = false ∧ s.dev.sched ≠ schedSTRIP ∧ rst + 300 ≤ s.dev.cyc + ph ∧ s.dev.txBlocked t
        (s.dev.cyc + ph) = false ∧ (v.hold = true → s.dev.txBlocked t (s.dev.cyc + ph) = false)) ∧
    (∃ (t : Fin 6144) (sub : Fin 4) (ph : Fin 3) (v : ShutEv) (rst : Nat) (s : State), (s.dev.tile t).runningEv sub = some
      (v, rst) ∧ s.dev.pwr.suspended = false ∧ v.hold = false ∧ rst + 300 ≤ s.dev.cyc + ph ∧ s.dev.txBlocked t (s.dev.cyc +
        ph) = true) ∧
    (∃ (t : Fin 6144) (sub : Fin 4) (ph : Fin 3) (v : ShutEv) (rst : Nat) (s : State), (s.dev.tile t).runningEv sub = some
      (v, rst) ∧ s.dev.pwr.suspended = false ∧ v.hold = true ∧ s.dev.txBlocked t (s.dev.cyc + ph) = true) ∧
    (∃ (t : Fin 6144) (ph : Fin 3) (v : ShutEv) (rst : Nat) (s : State), ((s.dev.tile t).events.findSome? fun v => match
      v.st with | .held r => some (v, r) | _ => none) = some (v, rst) ∧ s.dev.pwr.suspended = false ∧ s.dev.sched ≠
        schedSTRIP ∧ s.dev.txBlocked t (s.dev.cyc + ph) = false) :=
  ⟨⟨6143, 3, { sub := 3, frame := some 1, st := .armed }, dw fun d =>
    { d with cyc := 300, ary := { tiles := [(6143, { events := [{ sub := 3, frame := some 1, st := .armed }] })] } }, by
      decide⟩,
   ⟨6143, 3, 0, { sub := 3, frame := some 1, st := .running 0 }, 0, dw fun d =>
     { d with cyc := 300, ary := { tiles := [(6143, { events := [{ sub := 3, frame := some 1, st := .running 0 }] })] } },
       by decide⟩,
   ⟨6143, 3, 0, { sub := 3, frame := some 1, st := .running 0 }, 0, dw fun d =>
     { d with cyc := 300, ary := { tiles := [(6143, { events := [{ sub := 3, frame := some 1, st := .running 0 }], unread := 1 })] } },
       by decide⟩,
   ⟨6143, 3, 0, { sub := 3, frame := some 1, st := .running 0, hold := true }, 0, dw fun d =>
     { d with cyc := 300, ary := { tiles := [(6143, { events := [{ sub := 3, frame := some 1, st := .running 0, hold := true }], unread := 1 })] } },
       by decide⟩,
   ⟨6143, 2, { sub := 3, frame := some 1, st := .held 0, hold := true }, 0, dw fun d =>
     { d with cyc := 300, ary := { tiles := [(6143, { events := [{ sub := 3, frame := some 1, st := .held 0, hold := true }] })] } },
       by decide⟩⟩

theorem meets_ShuttersAreArmedAndSuspended :
    (∃ (e : Fin 96) (base : EBase) (sub : Fin 5) (hold : Bool) (dly : Fin 32) (s : State), s.dev.engReady e (.shut base sub
      hold) dly = true ∧ ctxRstHold (s.dev.engine e).c = true ∧ (base = .trig → sub = 0 ∨ sub = 4)) ∧
    (∃ (e : Fin 96) (sub : Fin 5) (hold : Bool) (dly : Fin 32) (s : State), s.dev.engReady e (.shut .trig sub hold) dly =
      true ∧ sub ≠ 0 ∧ sub ≠ 4) ∧
    (∃ (e : Fin 96) (sub : Fin 5) (hold : Bool) (dly : Fin 32) (c : List Word) (t : Nat) (s : State), s.dev.engReady e
      (.shut .trig sub hold) dly = true ∧ (sub = 0 ∨ sub = 4) ∧ c = (s.dev.engine e).c ∧ t = tileNo e (s.dev.engine e).cTy ∧
        ctxRstHold c = false ∧ (ctxSub c).testBit 0 = true ∧ ((s.dev.tile t).events.filter fun v => !v.finished).length < 8
        ∧ (s.dev.tile t).holds 0 none (some (s.dev.ai ENG_TRIG_CFG_LINE (t % 96) 0)) = false) ∧
    (∃ (e : Fin 96) (ph : Fin 3) (base : EBase) (i : Fin 4) (hold : Bool) (dly : Fin 32) (c : List Word) (t : Nat) (k : Nat)
      (s : State), s.dev.engReady e (.shut base i.castSucc hold) dly = true ∧ base ≠ .trig ∧ k = (if base = .next then
        s.dev.ary.k + 1 else s.dev.ary.k) ∧ c = (s.dev.engine e).c ∧ t = tileNo e (s.dev.engine e).cTy ∧ ctxRstHold c =
        false ∧ (ctxSub c).testBit i = true ∧ i.val < s.dev.mTick ∧ ((s.dev.tile t).events.filter fun v =>
        !v.finished).length < 8 ∧ (s.dev.tile t).holds i (some k) none = false ∧ (∀ b, s.dev.predStart k i = some b →
        (s.dev.cyc + ph : Nat) < slotStart (ctxAlign c) (slotEnd b) (s.dev.slotTick i) (ctxDur c i) (ctxOffset c))) ∧
    (∃ (boost : Bool) (tgl : Bool) (s : State), (boost && !s.dev.pwr.boostOut || tgl && !s.dev.pwr.tglOut) = true ∧
      s.dev.aon.level = 2) ∧
    (∃ (boost : Bool) (tgl : Bool) (s : State), (boost && !s.dev.pwr.boostOut || tgl && !s.dev.pwr.tglOut) = false) ∧
    (∃ (s : State), s.dev.aon.level = 2) ∧
    (∃ (s : State), s.dev.pwr.boostOut = false ∧ s.dev.pwr.tglOut = false) ∧
    (∃ (s : State), (s.dev.pwr.boostOut || s.dev.pwr.tglOut) = true) ∧
    (∃ (t : Fin 6144) (sub : Fin 4) (v : ShutEv) (s : State), (s.dev.tile t).nextArmed sub = some v ∧ s.dev.pwr.suspended =
      true) :=
  ⟨⟨95, .trig, 4, true, 31, onE (ew 0xA 31 (2 * 2 ^ 20 + 4 * 2 ^ 17 + 1 * 2 ^ 16))
    { state := engRUN, c := [0#32, 0#32, 0#32, 1#32] }, by decide⟩,
   ⟨95, 3, true, 0, onE (ew 0xA 0 (2 * 2 ^ 20 + 3 * 2 ^ 17 + 1 * 2 ^ 16)) { state := engRUN }, by decide⟩,
   ⟨95, 0, true, 0, [0#32, 1#32, 0#32, 0#32], 6143, onE (ew 0xA 0 (2 * 2 ^ 20 + 0 * 2 ^ 17 + 1 * 2 ^ 16))
     { state := engRUN, c := [0#32, 1#32, 0#32, 0#32], cTy := 63 }, by decide, by decide, by decide, by decide, by decide,
       by decide, by decide, by decide⟩,
   ⟨95, 2, .cur, 0, true, 31, [0#32, 1#32, 0#32, 0#32], 6143, 0, onE (ew 0xA 31 (1 * 2 ^ 20 + 0 * 2 ^ 17 + 1 * 2 ^ 16))
     { state := engRUN, c := [0#32, 1#32, 0#32, 0#32], cTy := 63 }, by decide, by decide, by decide, by decide, by decide,
       by decide, by decide, by decide, by decide, by decide, fun b h => nomatch (show none = some b from h)⟩,
   ⟨true, false, up, by decide⟩,
   ⟨true, false, dw (fun d => { d with pwr := { d.pwr with boostOut := true } }), by decide⟩,
   ⟨up, by decide⟩,
   ⟨up, by decide⟩,
   ⟨dw (fun d => { d with pwr := { d.pwr with boostOut := true } }), by decide⟩,
   ⟨6143, 3, { sub := 3, frame := some 1, st := .armed }, dw (fun d => { d with pwr := { d.pwr with suspended := true } })
     (dw fun d =>
       { d with cyc := 300, ary := { tiles := [(6143, { events := [{ sub := 3, frame := some 1, st := .armed }] })] } }), by
        decide⟩⟩

theorem meets_ContextsAreWritten :
    (∃ (p : Port) (b : Fin 2) (s : State), s.admitsAt p .exp ∧ s.dev.f EXP_CTX_CTRL_COPY_BUSY = 0 ∧ b.val ≠ s.dev.activeBank
      ∧ s.dev.bankHeld b = false) ∧
    (∃ (p : Port) (s : State), s.admitsAt p .exp) ∧
    (∃ (p : Port) (s : State), s.admitsAt p .exp ∧ s.dev.f EXP_CTX_CTRL_COPY_BUSY = 0 ∧ s.dev.bankHeld (1 -
      s.dev.activeBank) = false) ∧
    (∃ (s : State), s.dev.f EXP_CTX_CTRL_COPY_BUSY = 1 ∧ s.dev.com.behindCopy = false ∧ s.dev.com.gHeld = false) ∧
    (∃ (b : Nat) (t : Nat) (n : Nat) (s : State), s.posted 0x0020 2 ∧ s.dev.cmdNat 0 1 = b ∧ s.dev.cmdNat 1 2 = t ∧
      s.dev.cmdNat 3 2 = n ∧ b < 2 ∧ n ≠ 0 ∧ n ≤ 64 ∧ t + n ≤ 6144) ∧
    (∃ (chs : List (Fin 6144 × AeSet)) (s : State), s.dev.aeMayBegin = true ∧ s.dev.f EXP_BASIC_AE_MODE = 1 ∧
      s.dev.aeTilesOk chs = true ∧ s.dev.com.gstate = .idle ∧ s.dev.hf .exp HD_PAGE_STAT_XLATE_PEND = 0) ∧
    (∃ (s : State), s.dev.aeRuns = true ∧ inForce (s.dev.comState .exp) = false) ∧
    (∃ (s : State), s.dev.aeRuns = true ∧ 8 ≤ s.dev.ary.aeIdle ∧ s.dev.f EXP_AE_STAT_STALE = 0) :=
  ⟨⟨.spi, 1, up, by decide⟩,
   ⟨.spi, up, by decide⟩,
   ⟨.spi, up, by decide⟩,
   ⟨sets [(EXP_CTX_CTRL_COPY_BUSY, 1)], by decide⟩,
   ⟨1, 6080, 64, post 0x20 2 [1 + 6080 * 256 + 64 * 2 ^ 24], by decide⟩,
   ⟨[], dw (fun d => { d with ary := { lastRead := some 0 } }) (sets [(EXP_BASIC_AE_MODE, 1)] (fw (enabled .exp))), by
     decide⟩,
   ⟨dw (fun d => { d with ary := { lastRead := some 0 } }) (sets [(EXP_BASIC_AE_MODE, 1)] (fw (enabled .exp))), by decide⟩,
   ⟨dw (fun d => { d with ary := { aeIdle := 8 } }) (dw (fun d => { d with ary := { lastRead := some 0 } }) (sets
     [(EXP_BASIC_AE_MODE, 1)] (fw (enabled .exp)))), by decide⟩⟩

theorem meets_TriggerLinesPulse :
    (∃ (p : Port) (k : Fin 8) (s : State), s.admitsAt p .trg ∧ s.dev.enabled .trg = true ∧ SMap.get (fun _ => none)
      s.dev.trg.last k = none) ∧
    (∃ (p : Port) (k : Fin 8) (l : Nat) (s : State), s.admitsAt p .trg ∧ s.dev.enabled .trg = true ∧ SMap.get (fun _ =>
      none) s.dev.trg.last k = some l ∧ s.dev.cyc < l + 750) ∧
    (∃ (p : Port) (s : State), s.admitsAt p .trg ∧ s.dev.enabled .trg = false) ∧
    (∃ (pin : Fin 16) (lvl : Bool) (s : State), s.dev.pio.testBit pin ≠ lvl ∧ (∀ k < 8, s.dev.lineTakes pin lvl k = false))
      ∧
    (∃ (e : Fin 8) (pin : Fin 16) (lvl : Bool) (ph : Fin 3) (s : State), s.dev.pinLevel e pin ≠ lvl ∧ s.dev.filtered e pin
      lvl (s.dev.cyc + ph) = true) ∧
    (∃ (e : Fin 8) (dly : Fin 16) (s : State), s.dev.peReady e .trig dly = true ∧ (∀ k, k < 8 → s.dev.lineTakesPe e true k =
      false ∧ s.dev.lineTakesPe e false k = false)) :=
  ⟨⟨.spi, 7, enabled .trg, by decide⟩,
   ⟨.spi, 7, 0, dw (fun d => { d with cyc := 749, trg := { last := [(7, some 0)] } }) (enabled .trg), by decide⟩,
   ⟨.spi, up, by decide⟩,
   ⟨15, true, up, by decide⟩,
   ⟨7, 15, true, 2, dw fun d => { d with pio := 0x8000 }, by decide⟩,
   ⟨7, 15, onP (pw 12 15 0), by decide⟩⟩

theorem meets_RawBurstRecords :
    (∃ (p : Port) (s : State), s.admitsAt p .ary ∧ s.dev.a ARY_BURST_CFG_EN = 1 ∧ s.dev.burstReplayed = false) ∧
    (∃ (p : Port) (s : State), s.admitsAt p .ary ∧ (s.dev.a ARY_BURST_CFG_EN = 0 ∨ s.dev.burstReplayed = true)) ∧
    (∃ (p : Port) (s : State), s.admitsAt p .ary ∧ (s.dev.burstState = buARMED ∨ s.dev.burstState = buRECORDING) ∧
      s.dev.burst.begun = s.dev.burstCount) ∧
    (∃ (p : Port) (s : State), s.admitsAt p .ary ∧ s.dev.burstState ≠ buARMED ∧ s.dev.burstState ≠ buRECORDING) ∧
    (∃ (u : Nat) (s : State), s.dev.burstReady = some u) ∧
    (∃ (s : State), s.dev.burstReady = none) :=
  ⟨⟨.spi, acts [(ARY_BURST_CFG_EN, 0, 0, 1)], by decide⟩,
   ⟨.spi, up, by decide⟩,
   ⟨.spi, sets [(ARY_BURST_STAT_STATE, buRECORDING)], by decide⟩,
   ⟨.spi, up, by decide⟩,
   ⟨0, dw fun d => { d with frames := [(0, { burst := true, reading := false })] }, by decide⟩,
   ⟨up, by decide⟩⟩

theorem meets_SatellitePortsAlign :
    (∃ (p : Fin 8) (l1 : Bool) (n : Nat) (t : List LnItem) (s : State), s.dev.spState p = spALIGN ∧ findMarker l1
      (s.dev.lane (spLane p l1)).q = some (n, t) ∧ (s.dev.port p).mk0 = none ∧ (s.dev.port p).mk1 = none) ∧
    (∃ (p : Fin 8) (n : Nat) (t : List LnItem) (s : State), s.dev.spState p = spALIGN ∧ findMarker true (s.dev.lane (spLane
      p true)).q = some (n, t) ∧ (s.dev.port p).mk0 = some (some n) ∧ (s.dev.port p).mk1 = none ∧ (s.dev.port p).pairSeen =
        true) ∧
    (∃ (p : Fin 8) (s : State), s.dev.spState p = spALIGN) ∧
    (∃ (p : Fin 8) (s : State), s.dev.spState p ≠ spALIGN) ∧
    (∃ (p : Fin 8) (s : State), s.dev.spState p = spUP) :=
  ⟨⟨7, true, 0xFFFFFFFF, [], dw (fun d => { d with lanes := [(35, { q := [.align 3, .data (marker true 0xFFFFFFFF)] })] })
    (seti [(SP_PORT_STAT_STATE, 7, 0, spALIGN)]), by decide⟩,
   ⟨7, 9, [], dw (fun d =>
     { d with lanes := [(35, { q := [.data (marker true 9)] })], sp := [(7, { mk0 := some (some 9), pairSeen := true })] })
       (seti [(SP_PORT_STAT_STATE, 7, 0, spALIGN)]), by decide⟩,
   ⟨7, seti [(SP_PORT_STAT_STATE, 7, 0, spALIGN)], by decide⟩,
   ⟨7, up, by decide⟩,
   ⟨7, sat [], by decide⟩⟩

theorem meets_SatellitePacketsAct :
    (∃ (p : Fin 8) (h : SpHdr) (pay : List Byte) (t : List Byte) (s : State), s.dev.spState p = spUP ∧ (s.dev.port p).search
      = false ∧ spPacket 0 (s.dev.port p).strm = some (h, pay, t)) ∧
    (∃ (p : Fin 8) (h : SpHdr) (pay : List Byte) (t : List Byte) (s : State), s.dev.spState p = spUP ∧ (s.dev.port p).search
      = false ∧ spPacket 1 (s.dev.port p).strm = some (h, pay, t) ∧ (s.dev.vs p h.vs).opened = none ∧ spPage p ∉
        s.dev.com.stopping ∧ s.dev.ai SP_VS_FMT_EN p h.vs = 0) ∧
    (∃ (p : Fin 8) (h : SpHdr) (pay : List Byte) (t : List Byte) (s : State), s.dev.spState p = spUP ∧ (s.dev.port p).search
      = false ∧ spPacket 1 (s.dev.port p).strm = some (h, pay, t) ∧ (s.dev.vs p h.vs).opened = none ∧ spPage p ∉
        s.dev.com.stopping ∧ s.dev.ai SP_VS_FMT_EN p h.vs ≠ 0 ∧ (s.dev.vs p h.vs).paused ≠ some h.fnum) ∧
    (∃ (p : Fin 8) (h : SpHdr) (pay : List Byte) (t : List Byte) (s : State), s.dev.spState p = spUP ∧ (s.dev.port p).search
      = false ∧ spPacket 2 (s.dev.port p).strm = some (h, pay, t) ∧ ((s.dev.vs p h.vs).opened = none ∨ (s.dev.vs p
        h.vs).fnum ≠ h.fnum)) ∧
    (∃ (p : Fin 8) (h : SpHdr) (pay : List Byte) (t : List Byte) (u : Nat) (s : State), s.dev.spState p = spUP ∧ (s.dev.port
      p).search = false ∧ spPacket 2 (s.dev.port p).strm = some (h, pay, t) ∧ (s.dev.vs p h.vs).opened = some u ∧ (s.dev.vs
        p h.vs).fnum = h.fnum ∧ (s.dev.vs p h.vs).discard = false ∧ (s.dev.vs p h.vs).trunc = false ∧ h.line = (s.dev.vs p
        h.vs).line ∧ (s.dev.vs p h.vs).nextSeg ≤ h.seg ∧ h.line < (s.dev.frame u).h ∧ h.seg < (s.dev.frame u).segs ∧ h.len =
        ((s.dev.frame u).segPx h.seg * (s.dev.frame u).bits + 63) / 64 ∧ (s.dev.port p).lvl + 8 + 8 * h.len ≤ 2093056) ∧
    (∃ (p : Fin 8) (h : SpHdr) (pay : List Byte) (t : List Byte) (u : Nat) (crc : BitVec 32) (s : State), s.dev.spState p =
      spUP ∧ (s.dev.port p).search = false ∧ spPacket 3 (s.dev.port p).strm = some (h, pay, t) ∧ (s.dev.vs p h.vs).opened =
        some u ∧ (s.dev.vs p h.vs).fnum = h.fnum ∧ (s.dev.vs p h.vs).discard = false ∧ crc = SMap.get crcStart (s.dev.vs p
        h.vs).lineCrcs h.line ^^^ 0xFFFFFFFF#32) ∧
    (∃ (p : Fin 8) (h : SpHdr) (pay : List Byte) (t : List Byte) (u : Nat) (s : State), s.dev.spState p = spUP ∧ (s.dev.port
      p).search = false ∧ spPacket 4 (s.dev.port p).strm = some (h, pay, t) ∧ (s.dev.vs p h.vs).opened = some u ∧ (s.dev.vs
        p h.vs).fnum = h.fnum ∧ (s.dev.vs p h.vs).discard = false) ∧
    (∃ (p : Fin 8) (v : Fin 4) (u : Nat) (s : State), (s.dev.vs p v).opened = some u ∧ (s.dev.vs p v).discard = false) ∧
    (∃ (p : Fin 8) (v : Fin 4) (s : State), (s.dev.vs p v).opened = none) ∧
    (∃ (p : Fin 8) (h : SpHdr) (pay : List Byte) (t : List Byte) (s : State), s.dev.spState p = spUP ∧ (s.dev.port p).search
      = false ∧ spPacket 6 (s.dev.port p).strm = some (h, pay, t)) ∧
    (∃ (p : Fin 8) (s : State), s.dev.spState p = spUP ∧ (s.dev.port p).search = false ∧ spHeader (s.dev.port p).strm = some
      none) :=
  ⟨⟨7, ⟨0, 0, 0, 0, 0, 0⟩, [], [], sat (List.replicate 8 0#8), by decide⟩,
   ⟨7, ⟨1, 3, 0, 0, 2, 255⟩, List.replicate 16 0#8, [], sat (spPkt 1 3 0 0 255 (List.replicate 16 0#8)), by decide⟩,
   ⟨7, ⟨1, 3, 0, 0, 2, 255⟩, List.replicate 16 7#8, [1#8], acts [(SP_VS_FMT_EN, 7, 3, 1), (SP_VS_GEO_WIDTH, 7, 3, 256),
     (SP_VS_GEO_HEIGHT, 7, 3, 4)] (sat (spPkt 1 3 0 0 255 (List.replicate 16 7#8) ++ [1#8])), by decide⟩,
   ⟨7, ⟨2, 3, 0, 0, 1, 255⟩, List.replicate 8 0#8, [], sat (spPkt 2 3 0 0 255 (List.replicate 8 0#8))
     { opened := some 5, fnum := 254 }, by decide⟩,
   ⟨7, ⟨2, 3, 1, 0, 1, 255⟩, List.replicate 8 9#8, [], 5, sat (spPkt 2 3 1 0 255 (List.replicate 8 9#8))
     { opened := some 5, fnum := 255, line := 1 } { member := 32, w := 4, h := 2, bits := 16 }, by decide⟩,
   ⟨7, ⟨3, 3, 1, 0, 1, 255⟩, List.replicate 8 9#8, [], 5, 0#32, sat (spPkt 3 3 1 0 255 (List.replicate 8 9#8))
     { opened := some 5, fnum := 255, line := 1 } { member := 32, w := 4, h := 2, bits := 16 }, by decide⟩,
   ⟨7, ⟨4, 3, 0, 0, 1, 255⟩, List.replicate 8 2#8, [], 5, sat (spPkt 4 3 0 0 255 (List.replicate 8 2#8))
     { opened := some 5, fnum := 255 } { member := 32, w := 4, h := 2, bits := 16 }, by decide⟩,
   ⟨7, 3, 5, sat [] { opened := some 5 }, by decide⟩,
   ⟨7, 3, sat [], by decide⟩,
   ⟨7, ⟨6, 3, 0, 0, 5, 0⟩, List.replicate 40 1#8, [], sat (spPkt 6 3 0 0 0 (List.replicate 40 1#8)), by decide⟩,
   ⟨7, sat (List.replicate 8 1#8), by decide⟩⟩

theorem meets_RowsPassTheStages :
    (∃ (g : Seg) (s : State), s.dev.active .ing = true ∧ s.dev.ary.skidT = [⟨[g]⟩] ∧ s.dev.ary.skidB = [] ∧ g.bank = 0 ∧
      (s.dev.frame g.frame).pipe = true) ∧
    (∃ (s : State), s.dev.active .ing = false) ∧
    (∃ (u : Nat) (pass : Nat) (rk : Nat) (k : Nat) (g : SegOf Nat) (s : State), (s.dev.frame u).pipe = true ∧ s.dev.rowReady
      u pass rk = true ∧ stripInOrder (s.dev.frame u) (s.dev.pf u) pass rk = true ∧ (∃ r ∈ rowGroup (s.dev.stripNear u)
        (s.dev.frame u) (s.dev.pf u) pass rk, k ∈ rowSegKeys (s.dev.pf u).raw pass r) ∧ SMap.get (noSeg Nat) (s.dev.pf
        u).raw k = some g ∧ SMap.get (noSeg Px1) (s.dev.pf u).p1 k = none) ∧
    (∃ (u : Nat) (pass : Nat) (rk : Nat) (k : Nat) (g : SegOf Px1) (s : State), (s.dev.frame u).darkRow rk = true ∧ k ∈
      rowSegKeys (s.dev.pf u).p1 pass rk ∧ SMap.get (noSeg Px1) (s.dev.pf u).p1 k = some g ∧ SMap.get (noSeg Px2) (s.dev.pf
        u).p2 k = none) ∧
    (∃ (u : Nat) (pass : Nat) (rk : Nat) (k : Nat) (g : SegOf Px1) (s : State), (s.dev.frame u).darkRow rk = false ∧
      s.dev.p2Ready u pass rk = true ∧ darkPending (s.dev.frame u) (s.dev.pf u) pass = false ∧ k ∈ rowSegKeys (s.dev.pf
        u).p1 pass rk ∧ SMap.get (noSeg Px1) (s.dev.pf u).p1 k = some g ∧ SMap.get (noSeg Px2) (s.dev.pf u).p2 k = none) ∧
    (∃ (u : Nat) (pass : Nat) (rk : Nat) (i : Nat) (s : State), s.dev.fuses u = false ∧ (s.dev.frame u).darkRow rk = false ∧
      (s.dev.imageIn u pass = true ∨ s.dev.rowIn u pass rk = true) ∧ pass < (s.dev.frame u).passes ∧ i ∈ s.dev.hdrTodo u
        pass rk) :=
  ⟨⟨seg0, enabled .ing (ar { skidT := [⟨[seg0]⟩] }), by decide⟩,
   ⟨up, by decide⟩,
   ⟨0, 0, 24, 3167, ⟨{}, [1, 4095]⟩, own { raw := [(3167, some ⟨{}, [1, 4095]⟩)] }, by decide⟩,
   ⟨0, 0, 0, 95, ⟨{}, [⟨1, false, false⟩]⟩, own { p1 := [(95, some ⟨{}, [⟨1, false, false⟩]⟩)] }, by decide⟩,
   ⟨0, 0, 24, 3167, ⟨{}, [⟨1, false, false⟩]⟩, own
     { raw := [(3167, some ⟨{}, [1]⟩)], p1 := [(3167, some ⟨{}, [⟨1, false, false⟩]⟩)] }, by decide⟩,
   ⟨0, 0, 24, 95, own
     { raw := [(3167, some ⟨{}, [1]⟩)], p1 := [(3167, some ⟨{}, [⟨1, false, false⟩]⟩)], p2 := [(3167, some ⟨{}, [⟨16, false, false⟩]⟩)] },
       by decide⟩⟩

theorem meets_CorrectionTablesAreWritten :
    (∃ (p : Port) (s : State), s.admitsAt p .pxc ∧ s.dev.enabled .pxc = false ∧ s.dev.f PXC_DEF_ADDR_ADDR < 66048) ∧
    (∃ (p : Port) (s : State), s.admitsAt p .pxc ∧ s.dev.enabled .pxc = true) ∧
    (∃ (s : State), s.dev.serves = true ∧ s.dev.f PXC_DEF_ADDR_ADDR < 66048) ∧
    (∃ (p : Port) (b : Nat) (a : Nat) (s : State), s.admitsAt p .pxc ∧ b = 1 - s.dev.a PXC_LSC_CFG_BANK_SEL ∧ s.dev.lscNamed
      b = false ∧ a = s.dev.f PXC_LSC_ADDR_ADDR ∧ a < 25220) ∧
    (∃ (a : Nat) (s : State), s.dev.serves = true ∧ a = s.dev.f PXC_LSC_ADDR_ADDR ∧ a < 25220) :=
  ⟨⟨.spi, sets [(PXC_DEF_ADDR_ADDR, 66047)], by decide⟩,
   ⟨.spi, enabled .pxc, by decide⟩,
   ⟨sets [(PXC_DEF_ADDR_ADDR, 66047)], by decide⟩,
   ⟨.spi, 1, 25219, sets [(PXC_LSC_ADDR_ADDR, 25219)], by decide⟩,
   ⟨25219, sets [(PXC_LSC_ADDR_ADDR, 25219)], by decide⟩⟩

theorem meets_FramesLeaveTheStages :
    (∃ (n : Fin 64) (u : Nat) (g : Geo) (s : State), s.dev.geoFrame n = some (u, g)) ∧
    (∃ (n : Fin 64) (s : State), s.dev.geoFrame n = none) ∧
    (∃ (pass : Fin 4) (u : Nat) (s : State), s.dev.recordsOf pass = some u ∧ s.dev.stage u stSTA = true ∧ (s.dev.asOf u).a
      STA_TILE_CFG_EN = 1) ∧
    (∃ (v : Fin 2) (u : Nat) (n : Nat) (g : Geo) (s : State), s.dev.viewFrame v = some (u, n, g) ∧ (s.dev.view v).front =
      none ∧ rateAdmits ((s.dev.asOf u).ak VEW_RATE_LIM_CFPS v) (s.dev.view v).last (s.dev.frame u).stamp.ticks = true) ∧
    (∃ (v : Fin 2) (u : Nat) (n : Nat) (g : Geo) (s : State), s.dev.viewFrame v = some (u, n, g) ∧ rateAdmits ((s.dev.asOf
      u).ak VEW_RATE_LIM_CFPS v) (s.dev.view v).last (s.dev.frame u).stamp.ticks = false) ∧
    (∃ (v : Fin 2) (x : Nat × Nat) (s : State), (s.dev.view v).front = some x) ∧
    (∃ (n : Fin 16) (j : EncJob) (i : Nat) (t : List Nat) (s : State), (s.dev.enc n).ready = some j ∧ j.queue = i :: t ∧ t ≠
      []) :=
  ⟨⟨63, 0, outGeo, satOut, rfl⟩,
   ⟨63, up, by decide⟩,
   ⟨3, 0, acts [(STA_TILE_CFG_EN, 0, 0, 1)] (own
     { acts := 16, raw := [(3 * 2 ^ 37 + 3167, some ⟨{}, [1]⟩)], p1 := [(3 * 2 ^ 37 + 3167, some ⟨{}, [⟨1, false, false⟩]⟩)] }
       { reading := false, m := 4 }), by decide⟩,
   ⟨1, 0, 63, outGeo, satOut { closed := true }, rfl, rfl, by decide⟩,
   ⟨1, 0, 63, outGeo, satOut { closed := true } [(1, { last := some 0 })], rfl, by decide⟩,
   ⟨1, (0, 63), dw fun d => { d with views := [(1, { front := some (0, 63) })] }, by decide⟩,
   ⟨15, { u := 0, width := 2, height := 32, bits := 8, cfa := 0xFF, shift := 0, ofs := 0, sliceH := 16, budget := 100, full := 100, queue := [0, 1] },
     0, [1], dw fun d =>
       { d with encs := [(15, { jobs := [{ u := 0, width := 2, height := 32, bits := 8, cfa := 0xFF, shift := 0, ofs := 0, sliceH := 16, budget := 100, full := 100, queue := [0, 1] }] })] },
        rfl, rfl, by decide⟩⟩

theorem meets_HistoryKeepsTriggers :
    (∃ (c : ChunkReq) (t : List ChunkReq) (s : State), s.dev.hmp.offers = c :: t ∧ (s.dev.f HMP_STAT_STATE = 3 ∨ s.dev.f
      HMP_STAT_STATE = hmpREADY ∧ s.dev.f HMP_CTRL_FREEZE = 1)) ∧
    (∃ (c : ChunkReq) (t : List ChunkReq) (p : Nat) (s : State), s.dev.hmp.offers = c :: t ∧ s.dev.f HMP_STAT_STATE =
      hmpREADY ∧ s.dev.hmpBurst ≠ s.dev.hmpCap ∧ s.dev.f HMP_CTRL_FREEZE = 0 ∧ s.dev.hmp.retrain = 0 ∧ findRoom
        s.dev.hmp.guarded s.dev.hmp.ring s.dev.ringBytes (chunkSize c.payload.length) (2 * s.dev.hmp.ring.length + 3)
        s.dev.hmp.wp none = some (p, none) ∧ s.dev.hmp.ring.length < 4194300) ∧
    (∃ (k : Fin 16) (x : TrigSlot) (s : State), s.dev.hmp.slot k = some x ∧ x.capturing = true ∧ s.dev.boot.run = .running ∧
      x.trig.hi + 25000000 ≤ s.dev.time.tick) ∧
    (∃ (p : Port) (k : Fin 16) (s : State), s.admitsAt p .hmp ∧ s.dev.hmp.slot k = none) ∧
    (∃ (p : Port) (k : Fin 16) (x : TrigSlot) (s : State), s.admitsAt p .hmp ∧ s.dev.hmp.slot k = some x) ∧
    (∃ (p : Port) (s : State), s.admitsAt p .hmp) ∧
    (∃ (p : Port) (k : Nat) (x : TrigSlot) (s : State), s.admitsAt p .hmp ∧ s.dev.hmp.slot k = some x ∧ x.capturing = true)
      ∧
    (∃ (k : Nat) (s : State), s.posted 0x0050 2 ∧ s.dev.histOn = true ∧ s.dev.hmp.freeSlot = some k) ∧
    (∃ (s : State), s.posted 0x0051 0 ∧ s.dev.histOn = true) ∧
    (∃ (c : Instr) (k : Nat) (n : Nat) (s : State), (c, k, n) ∈ [(.histTrigger, 0x0050, 2), (.histFreeze, 0x0051, 0)] ∧
      s.posted k n ∧ s.dev.histOn = false) :=
  ⟨⟨{ kind := 0 }, [], dw (fun d => { d with hmp := { offers := [{ kind := 0 }] } }) (sets [(HMP_STAT_STATE, 3)]), by
    decide⟩,
   ⟨{ kind := 0 }, [], 0, dw (fun d => { d with hmp := { offers := [{ kind := 0 }] } }) (sets [(HMP_STAT_STATE, 2)]), by
     decide⟩,
   ⟨15, { trig := ⟨0, 0, 0, 0, 0⟩ }, dw (fun d =>
     { d with time := { tick := 25000000 }, hmp := { slots := [(15, some { trig := ⟨0, 0, 0, 0, 0⟩ })] } }) fw, by decide⟩,
   ⟨.spi, 15, up, by decide⟩,
   ⟨.spi, 15, { trig := ⟨0, 0, 0, 0, 0⟩ }, dw fun d =>
     { d with hmp := { slots := [(15, some { trig := ⟨0, 0, 0, 0, 0⟩ })] } }, by decide⟩,
   ⟨.spi, up, by decide⟩,
   ⟨.spi, 15, { trig := ⟨0, 0, 0, 0, 0⟩ }, dw fun d =>
     { d with hmp := { slots := [(15, some { trig := ⟨0, 0, 0, 0, 0⟩ })] } }, by decide⟩,
   ⟨0, post 0x50 2 [] (sets [(HMP_STAT_STATE, 2)] fw), by decide⟩,
   ⟨post 0x51 0 [] (sets [(HMP_STAT_STATE, 2)] fw), by decide⟩,
   ⟨.histFreeze, 0x51, 0, post 0x51 0, by simp, by decide, by decide⟩⟩

theorem meets_HamperReplaysAndTrains :
    (∃ (i : Fin 2) (r : Replay) (s : State), s.dev.hmp.replays[i.val]? = some r ∧ r.src = .ring ∧ s.dev.replayNext r = none)
      ∧
    (∃ (i : Fin 2) (r : Replay) (c : Chunk) (s : State), s.dev.hmp.replays[i.val]? = some r ∧ r.src = .ring ∧
      s.dev.replayNext r = some c) ∧
    (∃ (i : Fin 2) (r : Replay) (c : Chunk) (s : State), s.dev.hmp.replays[i.val]? = some r ∧ r.src = .ring ∧
      s.dev.replayNext r = some c ∧ c.req.kind = 0 ∧ headGood c.head = true ∧ s.dev.queueTakes r.qid c.req.start.length =
        true) ∧
    (∃ (i : Fin 2) (s : State), s.dev.hmp.replays[i.val]? = none) ∧
    (∃ (s : State), s.posted 0x0052 3 ∧ s.dev.cmdNat 0 8 = 0 ∧ s.dev.cmdNat 8 2 ≤ 8191 ∧ s.dev.histOn = true ∧ s.dev.f
      HMP_CTRL_FREEZE = 1 ∧ s.dev.hmp.replays.length < 2) ∧
    (∃ (s : State), s.posted 0x0052 3 ∧ 8191 < s.dev.cmdNat 8 2) ∧
    (∃ (p : Port) (s : State), s.admitsAt p .hmp) ∧
    (∃ (c : Instr) (m : Fin 16) (p : Port) (s : State), (c = .hmpTracking m ∧ s.dev.hmp.leaving = false ∨ c =
      .hmpCtrlRetrain p ∧ m = 15 ∧ s.admitsAt p .hmp) ∧ s.dev.f HMP_STAT_STATE = hmpREADY) ∧
    (∃ (s : State), s.dev.hmp.leaving = true) ∧
    (∃ (c : Fin 4) (s : State), s.dev.hmp.retrain.testBit c = true) ∧
    (∃ (c : Fin 4) (s : State), s.dev.f HMP_STAT_STATE = hmpREADY ∧ (s.dev.f HMP_MEM_CFG_CH_MASK).testBit c = true) ∧
    (∃ (p : Port) (s : State), s.admitsAt p .hmp ∧ s.dev.enabled .hmp = false) ∧
    (∃ (p : Port) (s : State), s.admitsAt p .hmp ∧ s.dev.enabled .hmp = true) ∧
    (∃ (ok : Fin 16) (s : State), s.dev.f HMP_STAT_STATE = 1 ∧ s.dev.hmp.leaving = false ∧ s.dev.clk.memLock = true ∧ ok.val
      &&& s.dev.f HMP_MEM_CFG_CH_MASK = s.dev.f HMP_MEM_CFG_CH_MASK) ∧
    (∃ (ok : Fin 16) (s : State), s.dev.f HMP_STAT_STATE = 1 ∧ s.dev.hmp.leaving = false ∧ s.dev.clk.memLock = true ∧ ok.val
      &&& s.dev.f HMP_MEM_CFG_CH_MASK ≠ s.dev.f HMP_MEM_CFG_CH_MASK) :=
  ⟨⟨1, { src := .ring, qid := 8191 }, dw fun d =>
    { d with hmp := { replays := [{ src := .burst, qid := 8191 }, { src := .ring, qid := 8191 }] } }, by decide⟩,
   ⟨1, { src := .ring, qid := 8191 }, mkChunk { kind := 0 } 5 0 64, dw fun d =>
     { d with hmp := { replays := [{ src := .burst, qid := 8191 }, { src := .ring, qid := 8191 }], ring := [mkChunk { kind := 0 } 5 0 64] } },
       by decide⟩,
   ⟨1, { src := .ring, qid := 8191 }, mkChunk { kind := 0 } 5 0 64, queue 8191 (dw fun d =>
     { d with hmp := { replays := [{ src := .burst, qid := 8191 }, { src := .ring, qid := 8191 }], ring := [mkChunk { kind := 0 } 5 0 64] } }),
       by decide +kernel⟩,
   ⟨1, up, by decide⟩,
   ⟨post 0x52 3 [0, 0, 8191] (sets [(HMP_STAT_STATE, 2), (HMP_CTRL_FREEZE, 1)] fw), by decide⟩,
   ⟨post 0x52 3 [0, 0, 8192], by decide⟩,
   ⟨.spi, up, by decide⟩,
   ⟨.hmpTracking 15, 15, .spi, sets [(HMP_STAT_STATE, 2)], .inl ⟨rfl, by decide⟩, by decide⟩,
   ⟨dw fun d => { d with hmp := { leaving := true } }, by decide⟩,
   ⟨3, dw fun d => { d with hmp := { retrain := 8 } }, by decide⟩,
   ⟨3, sets [(HMP_STAT_STATE, 2)], by decide⟩,
   ⟨.spi, up, by decide⟩,
   ⟨.spi, enabled .hmp, by decide⟩,
   ⟨15, dw (fun d => { d with clk := { d.clk with memLock := true } }) (sets [(HMP_STAT_STATE, 1)]), by decide⟩,
   ⟨0, dw (fun d => { d with clk := { d.clk with memLock := true } }) (sets [(HMP_STAT_STATE, 1)]), by decide⟩⟩

theorem meets_DeliveryMovesPackets :
    (∃ (s : State), s.dev.reqs = []) ∧
    (∃ (q : Nat) (typ : Nat) (tag : Nat) (aux : Nat) (pay : List Byte) (t : List PktReq) (s : State), s.dev.reqs = .stat q
      typ tag aux pay :: t ∧ s.dev.queueTakes q pay.length = true) ∧
    (∃ (q : Nat) (typ : Nat) (tag : Nat) (aux : Nat) (pay : List Byte) (t : List PktReq) (s : State), s.dev.reqs = .stat q
      typ tag aux pay :: t ∧ s.dev.queueTakes q pay.length = false) ∧
    (∃ (k : Nat) (t : List PktReq) (s : State), s.dev.reqs = .frameStart k :: t ∧ s.dev.active .dlv = true ∧ s.dev.bound
      (s.dev.stream k).q = false) ∧
    (∃ (k : Nat) (t : List PktReq) (s : State), s.dev.reqs = .frameStart k :: t ∧ s.dev.active .dlv = true ∧ s.dev.bound
      (s.dev.stream k).q = true ∧ buffered s.dev.allPkts + 148 ≤ 2 ^ 24) ∧
    (∃ (q : Nat) (p : Pkt) (d0 : Dev) (s : State), s.dev.active .dlv = true ∧ (∀ e, e < 8 → s.dev.peDmaOn e = false) ∧
      s.dev.dlv.irqW = none ∧ s.dev.dlv.timeW = [] ∧ s.dev.dlv.resps = [] ∧ d0 = dlvRearm s.dev ∧ oldest (d0.eligible.filter
        fun e => d0.qClass e.1 = 0) = some (q, p) ∧ (d0.queue q).head = some p ∧ p.time = none ∧ (p.typ ≠ 0x02 ∨ 56 ≤
        p.payload.length)) ∧
    (∃ (s : State), s.dev.active .dlv = false) ∧
    (∃ (p : Port) (q : Fin 8192) (s : State), s.admits p ∧ q ≠ 0) ∧
    (∃ (p : Port) (q : Fin 8192) (v : Word) (s : State), s.admits p ∧ q ≠ 0 ∧ s.dev.qEn q = false ∧ bitsOf v 0 0 = 1 ∧
      bitsOf v 24 16 ≤ 256 ∧ bitsOf v 6 4 ≤ 4) ∧
    (∃ (s : State), s.dev.active .dlv = true ∧ s.dev.a DLV_TIME_CFG_PERIOD_MS ≠ 0) ∧
    (∃ (p : Port) (s : State), s.admitsAt p .dlv) :=
  ⟨⟨up, by decide⟩,
   ⟨8191, 0x05, 1, 2, [3#8], [], dw (fun d => { d with reqs := [.stat 8191 0x05 1 2 [3#8]] }) (queue 8191), by decide⟩,
   ⟨8191, 0x05, 1, 2, [3#8], [], dw (fun d => { d with reqs := [.stat 8191 0x05 1 2 [3#8]] }), by decide⟩,
   ⟨1, [], dw (fun d => { d with reqs := [.frameStart 1] }) (enabled .dlv), by decide⟩,
   ⟨1, [], dw (fun d => { d with reqs := [.frameStart 1], dlv := { streams := [(1, { q := 8191 })] } }) (queue 8191), by
     decide⟩,
   ⟨0, { kind := .control, typ := 3 }, dlvRearm (sets [(HLP_STAT_STATE, hlUP)] (dw (fun d =>
     { d with dlv := { queues := [(0, { grps := [{ pkts := [{ kind := .control, typ := 3 }] }] })] } }) (enabled
       .dlv))).dev, sets [(HLP_STAT_STATE, hlUP)] (dw (fun d =>
        { d with dlv := { queues := [(0, { grps := [{ pkts := [{ kind := .control, typ := 3 }] }] })] } }) (enabled .dlv)),
        by decide⟩,
   ⟨up, by decide⟩,
   ⟨.i2c, 8191, up, by decide⟩,
   ⟨.i2c, 8191, 0x01000041#32, up, by decide⟩,
   ⟨acts [(DLV_TIME_CFG_PERIOD_MS, 0, 0, 1)] (enabled .dlv), by decide⟩,
   ⟨.spi, up, by decide⟩⟩

theorem meets_HostPacketsAreServed :
    (∃ (h : HostHdr) (pay : List Byte) (w : Word) (a : BitVec 24) (d1 : Dev) (s : State), hostFront 0x10 s.dev = some (h,
      pay, d1) ∧ d1.serves = true ∧ d1.hlp.held + h.len + 20 ≤ 65536 ∧ h.malformed true = false ∧ d1.portOpen .inband = true
        ∧ h.noAck = true ∧ h.addr = a.toNat ∧ wordsOf pay = [w]) ∧
    (∃ (h : HostHdr) (pay : List Byte) (d1 : Dev) (s : State), hostFront 0x10 s.dev = some (h, pay, d1) ∧ d1.serves = true ∧
      65536 < d1.hlp.held + h.len + 20) ∧
    (∃ (h : HostHdr) (pay : List Byte) (d1 : Dev) (s : State), hostFront 0x11 s.dev = some (h, pay, d1) ∧ d1.serves = true ∧
      d1.hlp.held + h.len + 20 ≤ 65536 ∧ h.malformed false = false) ∧
    (∃ (c : Instr) (t : Nat) (h : HostHdr) (pay : List Byte) (d1 : Dev) (s : State), (c, t) ∈ [(.hostRegWr, 0x10),
      (.hostRegRd, 0x11)] ∧ hostFront t s.dev = some (h, pay, d1) ∧ d1.serves = false) ∧
    (∃ (h : HostHdr) (pay : List Byte) (d1 : Dev) (q : Nat) (v : Nat) (s : State), hostFront 0x18 s.dev = some (h, pay, d1)
      ∧ pay.length = 8 ∧ q = natOfBytes (pay.take 2) % 8192 ∧ v = natOfBytes ((pay.drop 4).take 4) ∧ q ≠ 0) ∧
    (∃ (c : Instr) (t : Nat) (s : State), (c, t) ∈ [(.hostRegWr, 0x10), (.hostRegRd, 0x11), (.hostCredit, 0x18)] ∧ hostFront
      t s.dev = none) ∧
    (∃ (s : State), s.dev.hlState = hlUP ∧ s.dev.hlp.search = false ∧ 16 ≤ s.dev.hostStream.length ∧ hostDecode
      s.dev.hostStream = none) ∧
    (∃ (s : State), s.dev.hlState = hlINIT) ∧
    (∃ (s : State), s.dev.hlState = hlINIT) ∧
    (∃ (c : Instr) (s : State), c ∈ [.hlpHelloTimer, .hlpInitTimeout] ∧ s.dev.hlState ≠ hlINIT) :=
  ⟨⟨⟨0x10, 0, 4, 0x1230, 7, 1, false, true⟩, [4#8, 3#8, 2#8, 1#8], 0x01020304#32, 0x1230#24, hlUp (((host (hostPkt 0x10
    0x1230 7 1 2 [4#8, 3#8, 2#8, 1#8])).dev.setStrm [] false).bump HLP_RX_PKTS), host (hostPkt 0x10 0x1230 7 1 2 [4#8, 3#8,
      2#8, 1#8]), rfl, by decide⟩,
   ⟨⟨0x10, 0, 4, 0x1230, 7, 1, false, true⟩, [4#8, 3#8, 2#8, 1#8], hlUp (((host (hostPkt 0x10 0x1230 7 1 2 [4#8, 3#8, 2#8,
     1#8]) 65513).dev.setStrm [] false).bump HLP_RX_PKTS), host (hostPkt 0x10 0x1230 7 1 2 [4#8, 3#8, 2#8, 1#8]) 65513, rfl,
       by decide⟩,
   ⟨⟨0x11, 0, 0, 0, 7, 1, false, false⟩, [], hlUp (((host (hostPkt 0x11 0 7 1 0 [])).dev.setStrm [] false).bump
     HLP_RX_PKTS), host (hostPkt 0x11 0 7 1 0 []), rfl, by decide⟩,
   ⟨.hostRegRd, 0x11, ⟨0x11, 0, 0, 0, 7, 1, false, false⟩, [], hlUp (((noClk (host (hostPkt 0x11 0 7 1 0 []))).dev.setStrm
     [] false).bump HLP_RX_PKTS), noClk (host (hostPkt 0x11 0 7 1 0 [])), by simp, rfl, by decide⟩,
   ⟨⟨0x18, 0, 8, 0, 7, 0, false, false⟩, u32 8191 ++ u32 5, hlUp (((host (hostPkt 0x18 0 7 0 0 (u32 8191 ++ u32
     5))).dev.setStrm [] false).bump HLP_RX_PKTS), 8191, 5, host (hostPkt 0x18 0 7 0 0 (u32 8191 ++ u32 5)), rfl, by decide,
       by decide, by decide, by decide⟩,
   ⟨.hostCredit, 0x18, up, by simp, rfl⟩,
   ⟨host (List.replicate 16 1#8), by decide⟩,
   ⟨sets [(HLP_STAT_STATE, hlINIT)], by decide⟩,
   ⟨sets [(HLP_STAT_STATE, hlINIT)], by decide⟩,
   ⟨.hlpInitTimeout, up, by simp, by decide⟩⟩

theorem meets_LaneGroupsTrain :
    (∃ (g : Fin 9) (s : State), s.dev.boot.run = .running ∧ (s.dev.grp g).state = lnDEEP ∧ (s.dev.grp g).held = false ∧
      s.dev.loopsRun g = true ∧ s.dev.rateConflict g = false) ∧
    (∃ (g : Fin 9) (s : State), s.dev.boot.run = .running ∧ (s.dev.grp g).txIdle = true ∧ (s.dev.grp g).state = lnDETECT ∧
      s.dev.rateConflict g = false) ∧
    (∃ (l : Fin 44) (s : State), laneRx l = true ∧ s.dev.laneUsed l = true ∧ (s.dev.grp (laneGroup l)).state = lnDETECT ∧
      (s.dev.grp (laneGroup l)).txIdle = false) ∧
    (∃ (l : Fin 44) (s : State), laneRx l = true ∧ (s.dev.grp (laneGroup l)).state = lnACQUIRE) ∧
    (∃ (l : Fin 44) (s : State), (s.dev.grp (laneGroup l)).state = lnEQUALISE ∧ l.val ∈ s.dev.partRx (laneGroup l)) ∧
    (∃ (g : Fin 9) (st : Nat) (s : State), st = (s.dev.grp g).state ∧ st ∈ [lnDETECT, lnACQUIRE, lnEQUALISE, lnCONFIG] ∧
      s.dev.boot.run = .running ∧ (s.dev.grp g).txIdle = false) ∧
    (∃ (l : Fin 44) (s : State), laneRx l = true ∧ s.dev.laneUsed l = true ∧ s.dev.fi LN_STAT_SIGNAL l 0 = 1 ∧ (s.dev.lane
      l).left = true) ∧
    (∃ (l : Fin 44) (s : State), laneRx l = true ∧ s.dev.laneUsed l = true ∧ s.dev.fi LN_STAT_SIGNAL l 0 = 1 ∧ (s.dev.lane
      l).left = false ∧ lnACQUIRE ≤ (s.dev.grp (laneGroup l)).state ∧ s.dev.boot.run = .running) ∧
    (∃ (p : Port) (l : Fin 44) (s : State), s.admitsAt p (.ln l) ∧ (s.dev.grp (laneGroup l)).state ≠ lnOFF) ∧
    (∃ (p : Port) (l : Fin 44) (s : State), s.admitsAt p (.ln l) ∧ laneRx l = true ∧ (s.dev.grp (laneGroup l)).state =
      lnSYNC) ∧
    (∃ (p : Port) (l : Fin 44) (s : State), s.admitsAt p (.ln l) ∧ laneRx l = true ∧ (s.dev.grp (laneGroup l)).state =
      lnACTIVE) ∧
    (∃ (g : Fin 9) (l : Nat) (s : State), l = leadLane (txLanes g) ∧ (s.dev.grp g).state = lnACTIVE ∧ s.dev.fi
      LN_PWR_CFG_SLEEP_US l 0 ≠ 0 ∧ s.dev.fi LN_STAT_TX_SLEEP l 0 = 0 ∧ (s.dev.txGrp g).idle = true ∧ (s.dev.txGrp g).bytes
        = []) ∧
    (∃ (s : State), s.posted 0x0090 1 ∧ s.dev.cmdNat 0 2 < 512) ∧
    (∃ (s : State), s.posted 0x0090 1 ∧ 512 ≤ s.dev.cmdNat 0 2) :=
  ⟨⟨8, dw (fun d => { d with grps := [(8, { state := lnDEEP })] }) fw, by decide⟩,
   ⟨8, dw (fun d => { d with grps := [(8, { state := lnDETECT, txIdle := true })] }) fw, by decide⟩,
   ⟨35, dw (fun d => { d with grps := [(8, { state := lnDETECT })] }) (enabled (.ln 35)), by decide⟩,
   ⟨35, laneIn 3, by decide⟩,
   ⟨35, laneIn 5, by decide⟩,
   ⟨8, lnCONFIG, dw (fun d => { d with grps := [(8, { state := lnCONFIG, fails := 2 })] }) fw, by decide⟩,
   ⟨35, laneIn 4 { left := true }, by decide⟩,
   ⟨35, laneIn 3 (s := enabled (.ln 35) fw), by decide⟩,
   ⟨.spi, 43, dw (fun d => { d with grps := [(8, { state := lnACTIVE })] }), by decide⟩,
   ⟨.spi, 35, laneIn 4, by decide⟩,
   ⟨.spi, 35, laneIn lnACTIVE, by decide⟩,
   ⟨8, 43, seti [(LN_PWR_CFG_SLEEP_US, 43, 0, 1)] (dw (fun d =>
     { d with grps := [(8, { state := lnACTIVE })], tx := { grps := [(8, { idle := true })] } }) (enabled (.ln 43))), by
       decide⟩,
   ⟨post 0x90 1 [511], by decide⟩,
   ⟨post 0x90 1 [512], by decide⟩⟩

theorem meets_LaneBlocksAreReceived :
    (∃ (c : Instr) (k : BKind) (l : Fin 44) (b : BitVec 260) (drift : Int) (s : State), (c, k) ∈ [(.laneDataBlock l b drift,
      .data), (.laneIdleBlock l b drift, .idle), (.laneSkipBlock l b drift, .skip), (.laneAlignRow l b drift, .align),
        (.laneCtrlBlock l b drift, .ctrl)] ∧ kindOf (s.dev.rxBlock l b).1 = some k ∧ s.dev.laneHears l = true ∧ s.dev.locked
        l = false ∧ (s.dev.lane l).discard = 0 ∧ (s.dev.lane l).good + 1 < 64) ∧
    (∃ (c : Instr) (l : Fin 44) (b : BitVec 260) (drift : Int) (s : State), (c = .laneDataBlock l b drift ∧ kindOf
      (s.dev.rxBlock l b).1 = some .data ∨ c = .laneInvalidHeader l b drift ∧ kindOf (s.dev.rxBlock l b).1 = none) ∧
        s.dev.laneHears l = true ∧ s.dev.locked l = false ∧ (s.dev.lane l).discard ≠ 0) ∧
    (∃ (l : Fin 44) (b : BitVec 260) (s : State), kindOf (s.dev.rxBlock l b).1 = none ∧ s.dev.laneHears l = true ∧
      s.dev.locked l = false ∧ (s.dev.lane l).discard = 0) ∧
    (∃ (l : Fin 44) (b : BitVec 260) (drift : Int) (fill : Nat) (s : State), kindOf (s.dev.rxBlock l b).1 = some .idle ∧
      s.dev.laneHears l = true ∧ s.dev.locked l = true ∧ s.dev.fi LN_STAT_RX_SLEEP l 0 = 0 ∧ (s.dev.lane l).fec = false ∧
        ((false :: (s.dev.lane l).hist).take 64).countP id < 16 ∧ (fill : Int) = (s.dev.fi LN_EB_FILL_BITS l 0 : Int) +
        drift ∧ 0 < fill ∧ fill < 1040 ∧ (laneGroup l ≠ 0 ∨ (s.dev.lane l).started = false)) ∧
    (∃ (l : Fin 44) (b : BitVec 260) (drift : Int) (fill : Nat) (m : Nat) (s : State), kindOf (s.dev.rxBlock l b).1 = some
      .idle ∧ s.dev.laneHears l = true ∧ s.dev.locked l = true ∧ s.dev.fi LN_STAT_RX_SLEEP l 0 = 0 ∧ (s.dev.lane l).fec =
        false ∧ ((false :: (s.dev.lane l).hist).take 64).countP id < 16 ∧ (fill : Int) = (s.dev.fi LN_EB_FILL_BITS l 0 :
        Int) + drift ∧ 0 < fill ∧ fill < 1040 ∧ laneGroup l = 0 ∧ (s.dev.lane l).started = true ∧ l.val ∈ s.dev.hostRx ∧ m ∈
        s.dev.hostRx ∧ m ≠ l.val ∧ (s.dev.lane m).q = [] ∧ (s.dev.lane l).q.length < 32) ∧
    (∃ (l : Fin 44) (b : BitVec 260) (drift : Int) (fill : Nat) (s : State), kindOf (s.dev.rxBlock l b).1 = some .skip ∧
      s.dev.laneHears l = true ∧ s.dev.locked l = true ∧ s.dev.fi LN_STAT_RX_SLEEP l 0 = 0 ∧ (s.dev.lane l).fec = false ∧
        (s.dev.lane l).slipped = false ∧ (s.dev.lane l).postponed = false ∧ (laneGroup l ≠ 0 ∨ s.dev.longRequest = false) ∧
        ((false :: (s.dev.lane l).hist).take 64).countP id < 16 ∧ (fill : Int) = (s.dev.fi LN_EB_FILL_BITS l 0 : Int) +
        drift ∧ 0 < fill ∧ fill < 1040) ∧
    (∃ (l : Fin 44) (b : BitVec 260) (drift : Int) (fill : Nat) (p : Nat) (s : State), kindOf (s.dev.rxBlock l b).1 = some
      .data ∧ s.dev.laneHears l = true ∧ s.dev.locked l = true ∧ laneGroup l = 1 + p ∧ s.dev.spState p = spALIGN ∧
        (s.dev.lane l).started = true ∧ (s.dev.lane l).slipped = false ∧ s.dev.fi LN_STAT_RX_SLEEP l 0 = 0 ∧ (s.dev.lane
        l).fec = false ∧ ((false :: (s.dev.lane l).hist).take 64).countP id < 16 ∧ (fill : Int) = (s.dev.fi LN_EB_FILL_BITS
        l 0 : Int) + drift ∧ 0 < fill ∧ fill < 1040) ∧
    (∃ (l : Fin 44) (b : BitVec 260) (drift : Int) (fill : Nat) (s : State), kindOf (s.dev.rxBlock l b).1 = none ∧
      s.dev.laneHears l = true ∧ s.dev.locked l = true ∧ (s.dev.lane l).started = false ∧ s.dev.fi LN_STAT_RX_SLEEP l 0 = 0
        ∧ (s.dev.lane l).fec = false ∧ ((true :: (s.dev.lane l).hist).take 64).countP id < 16 ∧ (fill : Int) = (s.dev.fi
        LN_EB_FILL_BITS l 0 : Int) + drift ∧ 0 < fill ∧ fill < 1040) ∧
    (∃ (l : Fin 44) (w : List (BitVec 10)) (x : List Nat) (c : List Nat) (n : Nat) (s : State), (s.dev.lane l).fec = true ∧
      w.length = 272 ∧ x = symsOf 272 (bitsOfSymbols (s.dev.rxSymbols l (symbolsOf (w.flatMap fun s => symBits s.toNat))).1)
        ∧ rsDecode x = some (c, n)) ∧
    (∃ (l : Fin 44) (s : State), s.dev.laneTrained l = true ∧ laneRx l = true ∧ s.dev.fi LN_RX_CFG_ADAPT_EN l 0 = 1 ∧
      s.dev.fi LN_STAT_RX_SLEEP l 0 = 0 ∧ s.dev.blockRich l = true) ∧
    (∃ (l : Fin 44) (s : State), s.dev.laneTrained l = true ∧ laneRx l = true ∧ (s.dev.lane l).idleOnly = true ∧ s.dev.fi
      LN_STAT_RX_SLEEP l 0 = 0) ∧
    (∃ (l : Fin 44) (s : State), (s.dev.lane l).margin = true) ∧
    (∃ (l : Fin 44) (b : BitVec 260) (drift : Int) (fill : Nat) (m : Nat) (v : BitVec 256) (s : State), kindOf
      (s.dev.rxBlock l b).1 = some .align ∧ s.dev.laneHears l = true ∧ s.dev.locked l = true ∧ s.dev.fi LN_STAT_RX_SLEEP l 0
        = 0 ∧ (s.dev.lane l).fec = false ∧ (s.dev.lane l).slipped = false ∧ ((false :: (s.dev.lane l).hist).take 64).countP
        id < 16 ∧ (fill : Int) = (s.dev.fi LN_EB_FILL_BITS l 0 : Int) + drift ∧ 0 < fill ∧ fill < 1040 ∧ v = (descramble
        (s.dev.lane l).desc (s.dev.rxBlock l b).2.1).1 ∧ laneGroup l = 0 ∧ (s.dev.lane l).started = true ∧ l.val ∈
        s.dev.hostRx ∧ m ∈ s.dev.hostRx ∧ m ≠ l.val ∧ (s.dev.lane m).q = [] ∧ (s.dev.lane l).q.length < 32) ∧
    (∃ (l : Fin 44) (b : BitVec 260) (drift : Int) (fill : Nat) (v : BitVec 256) (s : State), kindOf (s.dev.rxBlock l b).1 =
      some .ctrl ∧ s.dev.laneHears l = true ∧ s.dev.locked l = true ∧ s.dev.fi LN_STAT_RX_SLEEP l 0 = 0 ∧ (s.dev.lane l).fec
        = false ∧ (s.dev.lane l).slipped = false ∧ ((false :: (s.dev.lane l).hist).take 64).countP id < 16 ∧ (fill : Int) =
        (s.dev.fi LN_EB_FILL_BITS l 0 : Int) + drift ∧ 0 < fill ∧ fill < 1040 ∧ v = (descramble (s.dev.lane l).desc
        (s.dev.rxBlock l b).2.1).1 ∧ (s.dev.grp (laneGroup l)).state = lnACTIVE ∧ natOfBytes ((blockBytes v).take 1) = 2) ∧
    (∃ (l : Fin 44) (b : BitVec 260) (drift : Int) (fill : Nat) (v : BitVec 256) (s : State), kindOf (s.dev.rxBlock l b).1 =
      some .ctrl ∧ s.dev.laneHears l = true ∧ s.dev.locked l = true ∧ s.dev.fi LN_STAT_RX_SLEEP l 0 = 0 ∧ (s.dev.lane l).fec
        = false ∧ (s.dev.lane l).slipped = false ∧ ((false :: (s.dev.lane l).hist).take 64).countP id < 16 ∧ (fill : Int) =
        (s.dev.fi LN_EB_FILL_BITS l 0 : Int) + drift ∧ 0 < fill ∧ fill < 1040 ∧ v = (descramble (s.dev.lane l).desc
        (s.dev.rxBlock l b).2.1).1 ∧ (s.dev.grp (laneGroup l)).state = lnACTIVE ∧ natOfBytes ((blockBytes v).take 1) = 3) :=
  ⟨⟨.laneCtrlBlock 35 3#260 0, .ctrl, 35, 3#260, 0, laneIn 4 { good := 62 }, by simp, by decide +kernel⟩,
   ⟨.laneInvalidHeader 35 0#260 0, 35, 0#260, 0, laneIn 4 { discard := 1 }, .inr ⟨rfl, by decide +kernel⟩, by decide⟩,
   ⟨35, 0#260, laneIn 4 { good := 62 }, by decide +kernel⟩,
   ⟨35, 9#260, 1, 521, seti [(LN_EB_FILL_BITS, 35, 0, 520)] (laneLocked), by decide +kernel⟩,
   ⟨16, 9#260, 1, 521, 17, seti [(LN_EB_FILL_BITS, 16, 0, 520), (LN_STAT_SIGNAL, 16, 0, 1), (LN_STAT_BLOCK_LOCK, 16, 0, 1),
     (LN_STAT_STATE, 16, 0, lnACTIVE), (LN_STAT_STATE, 17, 0, lnACTIVE), (HLP_CFG_RX_LANES, 0, 0, 2)] (dw (fun d =>
       { d with lanes := [(16, { started := true })], grps := [(0, { state := lnACTIVE })] }) (enabled (.ln 16))),
        by decide +kernel⟩,
   ⟨35, 5#260, -1, 1039, seti [(LN_EB_FILL_BITS, 35, 0, 1040)] (laneLocked), by decide +kernel⟩,
   ⟨35, 6#260, 1, 521, 7, seti [(LN_EB_FILL_BITS, 35, 0, 520)] (dw (fun d => d.setFi SP_PORT_STAT_STATE 7 0 spALIGN)
     (laneLocked { started := true })), by decide +kernel⟩,
   ⟨35, 0#260, -519, 1, seti [(LN_EB_FILL_BITS, 35, 0, 520)] (laneLocked { hist := List.replicate 14 true }),
     by decide +kernel⟩,
   ⟨35, List.replicate 272 0#10, List.replicate 272 0, List.replicate 272 0, 0, laneLocked { fec := true },
     by decide +kernel⟩,
   ⟨35, seti [(LN_RX_CFG_ADAPT_EN, 35, 0, 1)] (laneLocked { eq := [5, 6], eq0 := [5, 6], last := some (false, richBlock) }),
     by decide +kernel⟩,
   ⟨35, laneLocked { idleOnly := true }, by decide⟩,
   ⟨35, laneLocked { margin := true }, by decide⟩,
   ⟨16, 122#260, 1, 521, 17, (descramble 0 (7#256)).1, seti [(LN_EB_FILL_BITS, 16, 0, 520), (LN_STAT_SIGNAL, 16, 0, 1),
     (LN_STAT_BLOCK_LOCK, 16, 0, 1), (LN_STAT_STATE, 16, 0, lnACTIVE), (LN_STAT_STATE, 17, 0, lnACTIVE), (HLP_CFG_RX_LANES,
       0, 0, 2)] (dw (fun d => { d with lanes := [(16, { started := true })], grps := [(0, { state := lnACTIVE })] })
        (enabled (.ln 16))), by decide +kernel⟩,
   ⟨35, 35#260, 1, 521, (descramble 0 (2#256)).1, seti [(LN_EB_FILL_BITS, 35, 0, 520)] (laneLocked), by decide +kernel⟩,
   ⟨35, 51#260, 1, 521, (descramble 0 (3#256)).1, seti [(LN_EB_FILL_BITS, 35, 0, 520)] (laneLocked), by decide +kernel⟩⟩

theorem meets_TimingPllLocksAndCoasts :
    (∃ (s : State), s.dev.aon.level = 2 ∧ s.dev.clk.state = clkACQUIRE) ∧
    (∃ (n : Fin 10) (s : State), s.dev.aon.level = 2 ∧ s.dev.fk CLK_OUT_CFG_EN n = 1 ∧ (s.dev.outN n).lock = false) ∧
    (∃ (q : Fin 8) (s : State), s.dev.aon.level = 2 ∧ q.val ∉ s.dev.clk.laneLock) ∧
    (∃ (p : Pll) (s : State), s.dev.aon.level = 2 ∧ s.dev.pllLocked p = true) ∧
    (∃ (n : Fin 10) (s : State), s.dev.aon.level = 2 ∧ s.dev.fk CLK_OUT_CFG_EN n = 1) ∧
    (∃ (s : State), s.dev.aon.level = 2 ∧ s.dev.clk.memLock = false) ∧
    (∃ (s : State), s.dev.aon.level ≠ 2) ∧
    (∃ (s : State), (s.dev.clk.state = clkACQUIRE ∨ s.dev.clk.state = clkLOCKED)) ∧
    (∃ (s : State), s.dev.clk.state = clkCOASTING) ∧
    (∃ (ofs : BitVec 32) (s : State), s.dev.clk.state = clkQUALIFY ∧ ofs.toInt.natAbs ≤ s.dev.f CLK_LOCK_CFG_LOCK_WIN) ∧
    (∃ (ofs : BitVec 32) (s : State), s.dev.clk.state = clkQUALIFY ∧ s.dev.f CLK_LOCK_CFG_LOCK_WIN < ofs.toInt.natAbs) ∧
    (∃ (s : State), (s.dev.clk.state = clkLOST ∨ s.dev.clk.xtalOk = false ∧ (s.dev.clk.state = clkCOASTING ∨ s.dev.clk.state
      = clkQUALIFY))) ∧
    (∃ (s : State), s.dev.clk.state ≠ clkLOST ∧ (s.dev.clk.xtalOk = true ∨ s.dev.clk.state ≠ clkCOASTING ∧ s.dev.clk.state ≠
      clkQUALIFY)) ∧
    (∃ (p : Port) (v : Word) (s : State), s.admits p ∧ bitsOf v 1 0 ≠ 3 ∧ bitsOf v 1 0 ≠ s.dev.f CLK_REF_CFG_SEL) ∧
    (∃ (p : Port) (v : Word) (s : State), s.admits p ∧ bitsOf v 1 0 = 3) :=
  ⟨⟨State.reset, by decide⟩,
   ⟨9, seti [(CLK_OUT_CFG_EN, 0, 9, 1)], by decide⟩,
   ⟨7, up, by decide⟩,
   ⟨.timing, clk { state := clkLOCKED }, by decide⟩,
   ⟨9, seti [(CLK_OUT_CFG_EN, 0, 9, 1)], by decide⟩,
   ⟨up, by decide⟩,
   ⟨aon { level := 1 }, by decide⟩,
   ⟨clk { state := clkLOCKED }, by decide⟩,
   ⟨clk { state := clkCOASTING, refOk := false }, by decide⟩,
   ⟨0#32, clk { state := clkQUALIFY }, by decide⟩,
   ⟨0x80000000#32, clk { state := clkQUALIFY }, by decide⟩,
   ⟨clk { state := clkLOST }, by decide⟩,
   ⟨clk { state := clkLOCKED, xtalOk := true }, by decide⟩,
   ⟨.spi, 2#32, up, by decide⟩,
   ⟨.spi, 3#32, up, by decide⟩⟩

theorem meets_ClockOutputsRamp :
    (∃ (p : Port) (n : Fin 10) (s : State), s.admits p ∧ s.dev.fk CLK_OUT_CFG_EN n = 0) ∧
    (∃ (p : Port) (s : State), s.admits p) ∧
    (∃ (n : Fin 10) (o : OutSt) (prof : Nat) (f : Nat) (s : State), s.dev.outN n = o ∧ o.ramping = true ∧ prof = s.dev.ak
      CLK_OUT_CFG_PROFILE n ∧ f = toward o.fAct o.fNew (segMove o (s.dev.segment prof o.seg).1 (s.dev.segment prof
        o.seg).2)) ∧
    (∃ (n : Fin 10) (fs : List Nat) (c : Nat) (s : State), s.dev.fk CLK_OUT_CFG_EN n = 1 ∧ (s.dev.outN n).guardSeen = false
      ∧ c = s.dev.overGuard n fs ∧ 0 < c) ∧
    (∃ (n : Fin 10) (g : List Nat) (s : State), (s.dev.outN n).ramping = false ∧ s.dev.overGuard n g = 0) ∧
    (∃ (n : Fin 10) (o : OutSt) (g : Nat × Nat) (s : State), s.dev.outN n = o ∧ o.ramping = true ∧ g = s.dev.segment
      (s.dev.ak CLK_OUT_CFG_PROFILE n) o.seg ∧ toward o.fAct o.fNew (segMove o g.1 g.2) = o.fNew) ∧
    (∃ (n : Fin 10) (s : State), s.dev.fk CLK_OUT_CFG_EN n = 1 ∧ (s.dev.outN n).gated = true ∧ (s.dev.outN n).lock = false ∧
      (s.dev.outN n).relockFail = false) ∧
    (∃ (s : State), s.posted 0x0061 1) ∧
    (∃ (s : State), s.dev.clk.slewing = true ∧ s.dev.clk.slewLeft = 0) ∧
    (∃ (s : State), (s.dev.clk.slewing = false ∨ s.dev.clk.slewLeft ≠ 0)) :=
  ⟨⟨.spi, 9, up, by decide⟩,
   ⟨.spi, up, by decide⟩,
   ⟨9, { ramping := true, fAct := 5, fRamp := 5, fNew := 9 }, 0, 5, clk
     { outs := [(9, { ramping := true, fAct := 5, fRamp := 5, fNew := 9 })] }, by decide⟩,
   ⟨9, [10 ^ 30], 1, seti [(CLK_OUT_CFG_EN, 0, 9, 1)] up, by decide +kernel⟩,
   ⟨9, [], up, by decide⟩,
   ⟨9, { ramping := true, fAct := 9, fRamp := 9, fNew := 9 }, up.dev.segment (up.dev.ak CLK_OUT_CFG_PROFILE 9) 0, clk
     { outs := [(9, { ramping := true, fAct := 9, fRamp := 9, fNew := 9 })] }, by decide⟩,
   ⟨9, seti [(CLK_OUT_CFG_EN, 0, 9, 1)] (clk { outs := [(9, { gated := true })] }), by decide⟩,
   ⟨post 0x61 1, by decide⟩,
   ⟨clk { slewing := true }, by decide⟩,
   ⟨clk { slewing := true, slewLeft := 1 }, by decide⟩⟩

theorem meets_TimeIsKept :
    (∃ (s : State), (Dev.readingNow { s.dev with cyc := s.dev.cyc + 3 } = true ∨ s.dev.com.accepted = [] ∧ s.dev.com.gstate
      = .idle ∧ s.dev.com.stopping = []) ∧ s.dev.time.stepNow = none ∧ s.dev.time.advance.2 = false) ∧
    (∃ (t : TimeSt), t.sec + 1 < 2 ^ 48) ∧
    (∃ (sec : Nat) (ns : Nat) (s : State), (Dev.readingNow { s.dev with cyc := s.dev.cyc + 3 } = true ∨ s.dev.com.accepted =
      [] ∧ s.dev.com.gstate = .idle ∧ s.dev.com.stopping = []) ∧ s.dev.time.stepNow = some (sec, ns) ∧ s.dev.time.advance.2
        = false) ∧
    (∃ (s : State), s.posted 0x0060 3 ∧ 999999999 < s.dev.cmdNat 6 4) ∧
    (∃ (s : State), s.posted 0x0060 3 ∧ s.dev.cmdNat 6 4 ≤ 999999999 ∧ s.dev.on TBS_TIME_CFG_STEP_AT_PPS = false) ∧
    (∃ (s : State), s.posted 0x0060 3 ∧ s.dev.cmdNat 6 4 = 0 ∧ s.dev.on TBS_TIME_CFG_STEP_AT_PPS = true ∧
      s.dev.time.ppsValid = true) ∧
    (∃ (lvl : Bool) (ph : Fin 3) (l : Nat) (s : State), s.dev.serves = true ∧ s.dev.on TBS_PPS_CFG_EN = true ∧ lvl ≠
      s.dev.on TBS_PPS_CFG_EDGE ∧ s.dev.time.ppsLast = some l ∧ s.dev.time.ppsValid = true ∧ l + 750000000 ≤ s.dev.cyc + ph
        + 3 * s.dev.f TBS_PPS_TOL_TICKS ∧ s.dev.cyc + ph ≤ l + 750000000 + 3 * s.dev.f TBS_PPS_TOL_TICKS ∧ (ppsError s.dev
        ph).natAbs ≤ 1000 * s.dev.f TBS_SERVO_CFG_STEP_THR * 2 ^ 32) ∧
    (∃ (lvl : Bool) (ph : Fin 3) (l : Nat) (s : State), s.dev.serves = true ∧ s.dev.on TBS_PPS_CFG_EN = true ∧ lvl ≠
      s.dev.on TBS_PPS_CFG_EDGE ∧ s.dev.time.ppsLast = some l ∧ s.dev.cyc + ph + 3 * s.dev.f TBS_PPS_TOL_TICKS < l +
        750000000 ∧ s.dev.ppsFits (s.dev.cyc + ph) s.dev.time.ppsCand = false) ∧
    (∃ (lvl : Bool) (ph : Fin 3) (c : Nat) (s : State), s.dev.serves = true ∧ s.dev.on TBS_PPS_CFG_EN = true ∧ lvl ≠
      s.dev.on TBS_PPS_CFG_EDGE ∧ s.dev.time.ppsCand = some c ∧ s.dev.time.ppsValid = false ∧ s.dev.time.ppsRun = 0 ∧
        s.dev.ppsFits (s.dev.cyc + ph) (some c) = true) ∧
    (∃ (s : State), s.dev.time.ppsValid = true) ∧
    (∃ (s : State), s.dev.serves = true ∧ s.dev.time.tick < 2 ^ 64 ∧ s.dev.time.ns < 2 ^ 30) :=
  ⟨⟨up, by decide⟩,
   ⟨{ sec := 2 ^ 48 - 2, ns := 999999999 }, by decide⟩,
   ⟨2 ^ 48 - 1, 999999999, tod { stepNow := some (2 ^ 48 - 1, 999999999) }, by decide⟩,
   ⟨post 0x60 3 [0, 1000000000 % 65536 * 65536, 1000000000 / 65536], by decide⟩,
   ⟨post 0x60 3 [0, 999999999 % 65536 * 65536, 999999999 / 65536] (sets [(TBS_TIME_CFG_STEP_AT_PPS, 0)] fw), by decide⟩,
   ⟨post 0x60 3 [] (sets [(TBS_TIME_CFG_STEP_AT_PPS, 1)] (fw (tod { ppsValid := true }))), by decide⟩,
   ⟨true, 0, 0, dw (fun d => { d with cyc := 750000000 }) (sets [(TBS_PPS_CFG_EN, 1)] (tod
     { ppsLast := some 0, ppsValid := true })), by decide⟩,
   ⟨true, 0, 0, dw (fun d => { d with cyc := 1000 }) (sets [(TBS_PPS_CFG_EN, 1)] (tod { ppsLast := some 0 })), by decide⟩,
   ⟨true, 0, 0, dw (fun d => { d with cyc := 750000000 }) (sets [(TBS_PPS_CFG_EN, 1)] (tod { ppsCand := some 0 })), by
     decide⟩,
   ⟨tod { ppsValid := true }, by decide⟩,
   ⟨tod { tick := 2 ^ 64 - 1, ns := 999999999 }, by decide⟩⟩

theorem meets_RailsAreSequenced :
    (∃ (s : State), s.dev.aon.vaon = true ∧ s.dev.aon.waitFor = .resetN ∧ s.dev.aon.seq = .steady ∧ s.dev.aon.flushing =
      false ∧ s.dev.aon.shutPending = false) ∧
    (∃ (c : Instr) (w : RiseOn) (k : Nat) (s : State), (c, w, k) ∈ [(.railFaultRetry, .railRetry, 7), (.softwareResetRise,
      .fullReset, 3), (.pfailRestart, .pfail, 6)] ∧ s.dev.aon.waitFor = w ∧ s.dev.aon.seq = .steady ∧ s.dev.aon.mayRise =
        true) ∧
    (∃ (pix : BitVec 16) (log : BitVec 16) (s : State), s.dev.aon.waitFor = .auto ∧ s.dev.aon.seq = .steady ∧
      s.dev.aon.mayRise = true ∧ pix.toInt < 16 * ((s.dev.aon.warnPix : Int) - s.dev.aon.hyst) ∧ log.toInt < 16 *
        ((s.dev.aon.warnLog : Int) - s.dev.aon.hyst)) ∧
    (∃ (pix : BitVec 16) (s : State), s.dev.aon.waitFor = .auto ∧ s.dev.aon.seq = .steady ∧ 16 * ((s.dev.aon.warnPix : Int)
      - s.dev.aon.hyst) ≤ pix.toInt) ∧
    (∃ (i : Nat) (s : State), s.dev.aon.seq = .raising ∧ nextUp s.dev.aon.en = some i ∧ (i = 0 ∨ railBit s.dev.aon.pg (i -
      1) = true) ∧ (i ≠ 3 ∨ s.dev.pwr.pmbBegun = true ∧ s.dev.pwr.pmbQ = [])) ∧
    (∃ (i : Nat) (s : State), s.dev.aon.seq = .raising ∧ nextUp s.dev.aon.en = some i ∧ i ≠ 0 ∧ railBit s.dev.aon.pg (i - 1)
      = false) ∧
    (∃ (i : Fin 6) (s : State), s.dev.aon.vaon = true ∧ railBit s.dev.aon.en i = true) ∧
    (∃ (o : Bool) (i : Nat) (s : State), s.dev.aon.seq = .lowering o ∧ nextDown s.dev.aon.en o = some i) ∧
    (∃ (i : Fin 6) (s : State), s.dev.aon.vaon = true ∧ (s.dev.aon.seq = .raising ∨ s.dev.aon.seq = .steady) ∧
      s.dev.aon.shutPending = false ∧ (∀ j, j < i.val → railBit s.dev.aon.en j = true → railBit s.dev.aon.pg j = true) ∧
        railBit s.dev.aon.en i = true ∧ railBit s.dev.aon.pg i = false) ∧
    (∃ (i : Fin 6) (s : State), s.dev.aon.vaon = true ∧ railBit s.dev.aon.en i = true ∧ railBit s.dev.aon.pg i = true) :=
  ⟨⟨aon { waitFor := .resetN, level := 0, en := 0, pg := 0, resetN := false }, by decide⟩,
   ⟨.pfailRestart, .pfail, 6, aon { waitFor := .pfail, level := 0, en := 0, pg := 0 }, by simp, by decide⟩,
   ⟨0#16, 0#16, aon { waitFor := .auto, level := 1, en := 7, pg := 7, coolFor := 99 }, by decide⟩,
   ⟨0x7FFF#16, aon { waitFor := .auto, level := 1, en := 7, pg := 7, coolFor := 99 }, by decide⟩,
   ⟨5, aon { seq := .raising, level := 3, en := 0x1F, pg := 0x1F }, by decide⟩,
   ⟨3, aon { seq := .raising, level := 3, en := 7, pg := 3 }, by decide⟩,
   ⟨5, aon { seq := .raising, level := 3, pg := 0x1F }, by decide⟩,
   ⟨true, 3, aon { seq := .lowering true, level := 3, en := 0xF, pg := 0xF }, by decide⟩,
   ⟨5, aon { seq := .raising, level := 3, pg := 0x1F }, by decide⟩,
   ⟨5, up, by decide⟩⟩

theorem meets_ResetsKeepTheirOwn :
    (∃ (s : State), s.dev.aon.vaon = false) ∧
    (∃ (s : State), s.dev.aon.vaon = true) ∧
    (∃ (s : State), s.dev.aon.vaon = true ∧ s.dev.aon.shutPending = false ∧ s.dev.aon.flushing = false ∧ s.dev.aon.level =
      2) ∧
    (∃ (p : Port) (s : State), s.admits p ∧ s.dev.aon.shutPending = false ∧ s.dev.aon.flushing = false) ∧
    (∃ (p : Port) (s : State), s.admits p ∧ s.dev.aon.shutPending = false ∧ s.dev.aon.flushing = false ∧ s.dev.aon.seq =
      .steady) :=
  ⟨⟨aon { vaon := false }, by decide⟩,
   ⟨up, by decide⟩,
   ⟨up, by decide⟩,
   ⟨.spi, up, by decide⟩,
   ⟨.spi, up, by decide⟩⟩

theorem meets_ShutdownsLeaveRecords :
    (∃ (s : State), s.dev.aon.shutPending = true ∧ s.dev.aon.shutDue = true ∧ targetPage s.dev s.evr 6 ≠ none) ∧
    (∃ (s : State), s.dev.aon.vaon = true ∧ s.dev.aon.level = 2 ∧ s.dev.aon.seq = .steady) ∧
    (∃ (s : State), s.dev.aon.vaon = true ∧ s.dev.aon.level ≠ 2 ∧ s.dev.aon.seq ≠ .raising ∧ s.dev.aon.en < 8 ∧ s.dev.f
      THM_LATCH_CAUSE = 0) ∧
    (∃ (s : State), s.dev.aon.vaon = true ∧ s.dev.aon.flushing = false ∧ s.dev.evq = [] ∧ s.evr.images.length < 1024) ∧
    (∃ (p : PageImg) (m : Nat) (o : Bool) (s : State), s.dev.aon.flushing = true ∧ s.dev.aon.shutDue = false ∧ s.evr.images
      = [p] ∧ targetPage s.dev s.evr p.sev = some (m, o)) ∧
    (∃ (s : State), s.dev.aon.flushing = false) :=
  ⟨⟨aon { shutPending := true, shutDue := true }, by decide⟩,
   ⟨up, by decide⟩,
   ⟨aon { level := 1, en := 7 }, by decide⟩,
   ⟨up, by decide⟩,
   ⟨{ sev := 6 }, 0, false, evr { images := [{ sev := 6 }] } (aon { flushing := true }), by decide⟩,
   ⟨up, by decide⟩⟩

theorem meets_RegulatorFollowsGovernor :
    (∃ (t : PmbTx) (rest : List PmbTx) (s : State), s.dev.pmbOn = true ∧ s.dev.pwr.pmbQ = t :: rest ∧ t.code = 0x21 ∧
      s.dev.aon.level = 2) ∧
    (∃ (t : PmbTx) (rest : List PmbTx) (s : State), s.dev.pmbOn = true ∧ s.dev.pwr.pmbQ = t :: rest ∧ t.fails < 3) ∧
    (∃ (t : PmbTx) (rest : List PmbTx) (s : State), s.dev.pmbOn = true ∧ s.dev.pwr.pmbQ = t :: rest ∧ 3 ≤ t.fails ∧ t.code ≠
      0x03) ∧
    (∃ (s : State), s.dev.pmbOn = true) ∧
    (∃ (t : PmbTx) (rest : List PmbTx) (s : State), s.dev.pmbOn = true ∧ s.dev.pwr.pmbQ = t :: rest ∧ t.code = 0x79 ∧
      t.value.testBit 15 = false) ∧
    (∃ (t : PmbTx) (rest : List PmbTx) (s : State), s.dev.pmbOn = true ∧ s.dev.pwr.pmbQ = t :: rest ∧ t.code = 0x79 ∧
      t.value.testBit 15 = true) ∧
    (∃ (t : PmbTx) (rest : List PmbTx) (s : State), s.dev.pmbOn = true ∧ s.dev.pwr.pmbQ = t :: rest ∧ t.code = 0x7A ∧
      t.value < 2 ^ 24) ∧
    (∃ (t : PmbTx) (rest : List PmbTx) (s : State), s.dev.pmbOn = true ∧ s.dev.pwr.pmbQ = t :: rest ∧ t.code = 0x03 ∧
      vregFault (t.value % 65536) (t.value / 65536) = true) ∧
    (∃ (g : Dev) (s : State), g = prune s.dev ∧ s.dev.isOn = true ∧ g.pwr.pmbStuck = false ∧ g.pwr.settled = true ∧
      g.voutPending = false ∧ g.pwr.fixedByFault = false ∧ g.on PWR_GOV_FIXED = false ∧ g.pwr.vSet + 10 ≤ min 850 (min
        g.pwr.vCeil (g.f PWR_GOV_V_V_MAX)) ∧ g.meets g.minCap (g.f ENC_CAP_MPXS) = false) ∧
    (∃ (cl : Word) (el : Word) (g : Dev) (s : State), g = prune s.dev ∧ s.dev.isOn = true ∧ g.pwr.pmbStuck = false ∧
      g.pwr.settled = true ∧ g.voutPending = false ∧ g.pwr.fixedByFault = false ∧ g.on PWR_GOV_FIXED = false ∧ g.pwr.vSet ≤
        min 850 (min g.pwr.vCeil (g.f PWR_GOV_V_V_MAX)) ∧ 610 ≤ g.pwr.vSet ∧ g.meets g.minCap (g.f ENC_CAP_MPXS) = true ∧
        g.meets cl.toNat el.toNat = true ∧ g.pwr.lowerWait = none) ∧
    (∃ (s : State), s.dev.pwr.settled = false) ∧
    (∃ (l : List (Word × Word)) (s : State), s.dev.aon.level = 2 ∧ l.length = 11 ∧ s.dev.pwr.settled = false) :=
  ⟨⟨{ code := 0x21, value := 760 }, [], pwr { pmbQ := [{ code := 0x21, value := 760 }] }, by decide⟩,
   ⟨{ code := 0x21, fails := 2 }, [], pwr { pmbQ := [{ code := 0x21, fails := 2 }] }, by decide⟩,
   ⟨{ code := 0x21, fails := 3 }, [], pwr { pmbQ := [{ code := 0x21, fails := 3 }] }, by decide⟩,
   ⟨up, by decide⟩,
   ⟨{ code := 0x79, value := 0x7FFF }, [], pwr { pmbQ := [{ code := 0x79, value := 0x7FFF }] }, by decide⟩,
   ⟨{ code := 0x79, value := 0x8000 }, [], pwr { pmbQ := [{ code := 0x79, value := 0x8000 }] }, by decide⟩,
   ⟨{ code := 0x7A, value := 0xFFFFFF }, [], pwr { pmbQ := [{ code := 0x7A, value := 0xFFFFFF }] }, by decide⟩,
   ⟨{ code := 0x03, value := 0x20 }, [], pwr { pmbQ := [{ code := 0x03, value := 0x20 }] }, by decide⟩,
   ⟨prune up.dev, up, rfl, by decide +kernel⟩,
   ⟨0xFFFFFF#32, 0xFFFFFF#32, prune capUp.dev, capUp, rfl, by decide +kernel⟩,
   ⟨pwr { settled := false }, by decide⟩,
   ⟨List.replicate 11 (0#32, 0#32), pwr { settled := false }, by decide⟩⟩

theorem meets_HeatIsHeldBack :
    (∃ (s : State), s.dev.isOn = true ∧ s.dev.boot.run = .running) ∧
    (∃ (s : State), s.posted 0x0070 1 ∧ 3 < s.dev.cmdNat 0 1) ∧
    (∃ (s : State), s.posted 0x0070 1 ∧ s.dev.cmdNat 0 1 ≤ 3) ∧
    (∃ (s : State), s.dev.isOn = true ∧ s.dev.f THM_DWELL_MS ≠ 0) ∧
    (∃ (c : Instr) (l : List (BitVec 16)) (w : Word) (s : State), c ∈ [.throttleUpdate, .thermalSample l, .gaitUpdate w] ∧
      s.dev.isOn = false) ∧
    (∃ (l : List (BitVec 16)) (h : List (List Int)) (s : State), s.dev.isOn = true ∧ h = (l.map (·.toInt) ::
      s.dev.thm.hist).take 16) ∧
    (∃ (l : List (BitVec 16)) (h : List (List Int)) (s : State), s.dev.isOn = true ∧ h = (l.map (·.toInt) ::
      s.dev.thm.hist).take 16 ∧ highest h 0 < 2 ^ 15 ∧ 16 * (s.dev.f THM_THR_PIX_SHUT : Int) ≤ highest h 0 ∧ s.dev.dwell ≤
        s.dev.thm.pix.sh + 1) ∧
    (∃ (s : State), s.posted 0x0071 0) :=
  ⟨⟨fw, by decide⟩,
   ⟨post 0x70 1 [4], by decide⟩,
   ⟨post 0x70 1 [3], by decide⟩,
   ⟨up, by decide⟩,
   ⟨.throttleUpdate, [], 0#32, aon { level := 1 }, by simp, by decide⟩,
   ⟨List.replicate 32 0xF000#16, [List.replicate 32 (-4096)], up, by decide⟩,
   ⟨List.replicate 32 0x7FFF#16, [List.replicate 32 32767], sets [(THM_DWELL_MS, 1)], by decide⟩,
   ⟨post 0x71 0, by decide⟩⟩

theorem meets_RecorderAcceptsEvents :
    (∃ (s : State), (s.dev.evq = [] ∨ s.dev.recOpen = false)) ∧
    (∃ (e : Ev) (s : State), s.dev.recOpen = true ∧ nextEvent s.dev.evq = some e ∧ e.sev < s.dev.f EVR_CFG_MIN_SEV) ∧
    (∃ (e : Ev) (l : LastRec) (s : State), s.dev.recOpen = true ∧ nextEvent s.dev.evq = some e ∧ s.dev.f EVR_CFG_MIN_SEV ≤
      e.sev ∧ l = SMap.get (fun _ => {}) s.evr.last e.src ∧ repeats s.dev s.evr e l = true) ∧
    (∃ (e : Ev) (l : LastRec) (b : Bucket) (s : State), s.dev.recOpen = true ∧ nextEvent s.dev.evq = some e ∧ s.dev.f
      EVR_CFG_MIN_SEV ≤ e.sev ∧ l = SMap.get (fun _ => {}) s.evr.last e.src ∧ repeats s.dev s.evr e l = false ∧ b = SMap.get
        (fun _ => {}) s.evr.buckets e.src ∧ (e.sev = 6 ∨ e.sev = 7 ∨ e.code = 0x001 ∨ b.taken - (s.dev.cyc - b.cyc) +
        tokenCost ≤ bucketDepth) ∧ s.evr.images.length < 1024) ∧
    (∃ (e : Ev) (l : LastRec) (b : Bucket) (s : State), s.dev.recOpen = true ∧ nextEvent s.dev.evq = some e ∧ s.dev.f
      EVR_CFG_MIN_SEV ≤ e.sev ∧ l = SMap.get (fun _ => {}) s.evr.last e.src ∧ repeats s.dev s.evr e l = false ∧ b = SMap.get
        (fun _ => {}) s.evr.buckets e.src ∧ e.sev ≠ 6 ∧ e.sev ≠ 7 ∧ e.code ≠ 0x001 ∧ bucketDepth < b.taken - (s.dev.cyc -
        b.cyc) + tokenCost) ∧
    (∃ (src : Byte) (s : State), ((SMap.get (fun _ => ({} : DropAcc)) s.evr.drops src.toNat).n = 0 ∨ s.dev.recOpen = false))
      ∧
    (∃ (src : Byte) (a : DropAcc) (s : State), a = SMap.get (fun _ => {}) s.evr.drops src.toNat ∧ a.n ≠ 0 ∧ s.dev.recOpen =
      true ∧ s.dev.f EVR_CFG_MIN_SEV ≤ a.sev ∧ s.evr.images.length < 1024) :=
  ⟨⟨up, by decide⟩,
   ⟨{ code := 0x011, sev := 1, src := 0, payload := [] }, sets [(EVR_CFG_MIN_SEV, 2)] (evs
     [{ code := 0x011, sev := 1, src := 0, payload := [] }]), by decide⟩,
   ⟨{ code := 0x011, sev := 2, src := 0, payload := [] }, { code := 0x011, valid := true }, evr
     { last := [(0, { code := 0x011, valid := true })], nextSeq := 1, images := [{ sev := 2, recs := [{ code := 0x011, sev := 2, src := 0, payload := [], seq := 0, stamp := {} }] }] }
       (evs [{ code := 0x011, sev := 2, src := 0, payload := [] }]), by decide⟩,
   ⟨{ code := 0x011, sev := 6, src := 0, payload := [] }, {}, {}, evs
     [{ code := 0x011, sev := 6, src := 0, payload := [] }], by decide⟩,
   ⟨{ code := 0x011, sev := 2, src := 0, payload := [] }, {}, { taken := 10 ^ 30 }, evr
     { buckets := [(0, { taken := 10 ^ 30 })] } (evs [{ code := 0x011, sev := 2, src := 0, payload := [] }]), by decide⟩,
   ⟨255#8, up, by decide⟩,
   ⟨255#8, { n := 1, sev := 6 }, evr { drops := [(255, { n := 1, sev := 6 })] }, by decide⟩⟩

theorem meets_LogIsProgrammed :
    (∃ (n : Nat) (m : Nat) (o : Bool) (p : PageImg) (s : State), s.evr.frozen = false ∧ s.dev.aon.shutPending = false ∧
      s.dev.aon.flushing = false ∧ s.dev.aon.level = 2 ∧ nextReady s.dev s.evr = some n ∧ s.evr.images[n]? = some p ∧
        targetPage s.dev s.evr p.sev = some (m, o)) ∧
    (∃ (n : Nat) (m : Nat) (o : Bool) (p : PageImg) (s : State), s.evr.frozen = false ∧ s.dev.aon.shutPending = false ∧
      s.dev.aon.flushing = false ∧ s.dev.aon.level = 2 ∧ nextReady s.dev s.evr = some n ∧ s.evr.images[n]? = some p ∧
        targetPage s.dev s.evr p.sev = some (m, o)) ∧
    (∃ (s : State), s.dev.aon.flushing = false ∧ (s.evr.frozen = true ∨ s.dev.aon.shutPending = true ∨ s.dev.aon.level ≠ 2 ∨
      nextReady s.dev s.evr = none)) ∧
    (∃ (s : State), s.evr.frozen = true) ∧
    (∃ (s : State), s.evr.frozen = false) :=
  ⟨⟨0, 0, false, { sev := 2, recs := [], sealed := true }, evr { images := [{ sev := 2, recs := [], sealed := true }] }, by
    decide⟩,
   ⟨0, 0, false, { sev := 2, recs := [], sealed := true }, evr { images := [{ sev := 2, recs := [], sealed := true }] }, by
     decide⟩,
   ⟨evr { frozen := true }, by decide⟩,
   ⟨evr { frozen := true }, by decide⟩,
   ⟨up, by decide⟩⟩

theorem meets_LogAndKeyAreServed :
    (∃ (s : State), s.posted 0x0030 3 ∧ 256 ≤ s.dev.cmdNat 8 2 ∧ s.dev.cmdNat 8 2 ≤ 1024) ∧
    (∃ (s : State), s.posted 0x0030 3 ∧ (s.dev.cmdNat 8 2 < 256 ∨ 1024 < s.dev.cmdNat 8 2)) ∧
    (∃ (s : State), s.posted 0x0031 0 ∧ s.evr.frozen = false) ∧
    (∃ (s : State), s.posted 0x0032 0 ∧ s.evr.frozen = true) ∧
    (∃ (c : Instr) (k : Nat) (b : Bool) (s : State), (c, k, b) ∈ [(.evrFreeze, 0x0031, true), (.evrThaw, 0x0032, false)] ∧
      s.posted k 0 ∧ s.evr.frozen = b) ∧
    (∃ (s : State), s.posted 0x0033 0) ∧
    (∃ (s : State), s.posted 0x0034 12 ∧ (s.vault.key = none ∨ s.evr.nonce = none)) ∧
    (∃ (k : List Byte) (n : List Byte) (first : Nat) (last : Nat) (s : State), s.posted 0x0034 12 ∧ s.vault.key = some k ∧
      s.evr.nonce = some n ∧ first = s.dev.cmdNat 0 8 ∧ last = s.dev.cmdNat 8 8 ∧ hmacSha256 k (clearMessage n first last) =
        s.dev.cmdBytes 16 32 ∧ first ≤ last ∧ last < s.evr.nextSeq ∧ s.evr.frozen = false) ∧
    (∃ (p : Port) (s : State), s.admits p ∧ s.vault.key = none ∧ s.dev.boot.keyBusy = none ∧ s.dev.boot.keyWords ≠ []) ∧
    (∃ (p : Port) (k : List Byte) (s : State), s.admits p ∧ s.vault.key = some k) ∧
    (∃ (k : List Byte) (s : State), s.dev.boot.keyBusy = some k) :=
  ⟨⟨post 0x30 3 [0, 0, 256], by decide⟩,
   ⟨post 0x30 3 [0, 0, 1025], by decide⟩,
   ⟨post 0x31 0, by decide⟩,
   ⟨evr { frozen := true } (post 0x32 0), by decide⟩,
   ⟨.evrThaw, 0x32, false, post 0x32 0, by simp, by decide⟩,
   ⟨post 0x33 0, by decide⟩,
   ⟨post 0x34 12, by decide⟩,
   ⟨List.replicate 32 1#8, List.replicate 16 2#8, 0, 0, macState, ⟨rfl, rfl, rfl, rfl⟩, rfl, rfl, rfl, rfl, (macBytes _
     rfl).symm, by decide, by decide, rfl⟩,
   ⟨.spi, boot { keyWords := [(0, 1#32)] }, by decide⟩,
   ⟨.spi, List.replicate 32 1#8, { up with vault := { key := some (List.replicate 32 1#8) } }, by decide⟩,
   ⟨[1#8], boot { keyBusy := some [1#8] }, by decide⟩⟩

theorem meets_FirmwareIsUpdated :
    (∃ (s : State), s.posted 0x0040 2 ∧ s.dev.presetBusy = false ∧ (1 < s.dev.cmdNat 0 1 ∨ s.dev.cmdNat 1 4 < 64 ∨ 4194048 <
      s.dev.cmdNat 1 4)) ∧
    (∃ (b : Bool) (s : State), s.posted 0x0040 2 ∧ s.dev.presetBusy = false ∧ s.dev.cmdNat 0 1 = b2n b ∧ 64 ≤ s.dev.cmdNat 1
      4 ∧ s.dev.cmdNat 1 4 ≤ 4194048 ∧ s.dev.slotKept b = true) ∧
    (∃ (b : Bool) (s : State), s.posted 0x0040 2 ∧ s.dev.presetBusy = false ∧ s.dev.cmdNat 0 1 = b2n b ∧ 64 ≤ s.dev.cmdNat 1
      4 ∧ s.dev.cmdNat 1 4 ≤ 4194048 ∧ s.dev.slotKept b = false) ∧
    (∃ (n : Nat) (len : Nat) (b : Bool) (s : State), 1 ≤ n ∧ n ≤ 64 ∧ s.posted 0x0041 n ∧ s.dev.presetBusy = false ∧
      s.dev.boot.xfer = some (b, len) ∧ s.dev.cmdNat 0 4 % 4 = 0 ∧ s.dev.cmdNat 0 4 + 4 * (n - 1) ≤ len) ∧
    (∃ (n : Nat) (s : State), 1 ≤ n ∧ n ≤ 64 ∧ s.posted 0x0041 n ∧ s.dev.presetBusy = false ∧ s.dev.boot.xfer = none) ∧
    (∃ (b : Bool) (len : Nat) (m : FwImg) (s : State), s.posted 0x0042 16 ∧ s.dev.presetBusy = false ∧ s.dev.boot.xfer =
      some (b, len) ∧ m = { s.dev.nvm.img b with sig := s.dev.cmdBytes 0 64 }) ∧
    (∃ (b : Bool) (s : State), s.posted 0x0043 1 ∧ s.dev.presetBusy = false ∧ s.dev.cmdNat 0 1 = b2n b ∧ (s.dev.nvm.img
      b).valid = true) ∧
    (∃ (s : State), s.posted 0x0043 1 ∧ s.dev.presetBusy = false ∧ 1 < s.dev.cmdNat 0 1) ∧
    (∃ (p : Port) (s : State), s.admits p ∧ s.dev.boot.run = .running ∧ s.dev.boot.trial = true) ∧
    (∃ (p : Port) (s : State), s.admits p ∧ s.dev.boot.run = .running) ∧
    (∃ (s : State), s.dev.boot.saving = true ∧ s.dev.boot.run = .running ∧ s.dev.presetBusy = false) :=
  ⟨⟨post 0x40 2 [63 * 256], by decide⟩,
   ⟨false, post 0x40 2 [64 * 256], by decide⟩,
   ⟨true, post 0x40 2 [1 + 4194048 % 2 ^ 24 * 256], by decide⟩,
   ⟨64, 252, true, post 0x41 64 [] (boot { xfer := some (true, 252), run := .running }), by decide⟩,
   ⟨64, post 0x41 64, by decide⟩,
   ⟨true, 64, { sig := List.replicate 64 0#8 }, post 0x42 16 [] (boot { xfer := some (true, 64), run := .running }), by
     decide⟩,
   ⟨false, post 0x43 1 [0], by decide⟩,
   ⟨post 0x43 1 [2], by decide⟩,
   ⟨.spi, boot { run := .running, trial := true }, by decide⟩,
   ⟨.spi, fw, by decide⟩,
   ⟨boot { run := .running, saving := true }, by decide⟩⟩

theorem meets_BootStartsFirmware :
    (∃ (s : State), s.dev.serves = true ∧ s.dev.boot.run = .off ∧ s.dev.aon.strapBoot < 3) ∧
    (∃ (s : State), s.dev.serves = true ∧ s.dev.boot.run = .off ∧ s.dev.aon.strapBoot = 3) ∧
    (∃ (s : State), s.dev.serves = false) ∧
    (∃ (s : State), s.dev.boot.run = .rom ∧ s.dev.boot.scanned = false ∧ s.dev.boot.activate = none ∧ s.dev.aon.strapBoot =
      bootNORMAL ∧ s.dev.nvm.trialPending = false ∧ s.dev.nvm.onTrial = false ∧ s.dev.nvm.boots s.dev.nvm.conf = true ∧
        s.evr.images = []) ∧
    (∃ (s : State), s.dev.boot.run = .rom ∧ s.dev.boot.scanned = false ∧ s.dev.boot.activate = none ∧ s.dev.aon.strapBoot =
      bootNORMAL ∧ s.dev.nvm.trialPending = false ∧ s.dev.nvm.onTrial = false ∧ s.dev.nvm.boots s.dev.nvm.conf = false ∧
        s.dev.nvm.boots (!s.dev.nvm.conf) = true ∧ s.evr.images = []) ∧
    (∃ (n : Fin 131072) (s : State), s.dev.boot.run = .rom ∧ s.dev.boot.scanned = false ∧ 65536 ≤ n.val ∧ s.evr.images = [])
      ∧
    (∃ (s : State), s.dev.boot.run = .rom ∧ s.dev.boot.verified = true ∧ s.dev.boot.restart = none) ∧
    (∃ (k : Nat) (s : State), s.dev.boot.run = .rom ∧ s.dev.boot.verified = true ∧ s.dev.boot.restart = some k) ∧
    (∃ (c : Instr) (k : Nat) (s : State), (c, k) ∈ [(.watchdogTimeout, 1), (.firmwareRestart, 2)] ∧ s.dev.boot.run =
      .running) ∧
    (∃ (s : State), s.dev.boot.run = .rom ∧ s.dev.boot.verified = false ∧ s.dev.boot.activate = none ∧ s.dev.aon.strapBoot =
      bootRECOVERY) ∧
    (∃ (s : State), s.dev.boot.run = .rom ∧ s.dev.boot.verified = false ∧ s.dev.boot.scanned = true ∧ s.dev.f
      SYS_BOOT_STAT_ROM_RESULT = 3 ∧ s.dev.aon.strapBoot ≠ bootRECOVERY) :=
  ⟨⟨up, by decide⟩,
   ⟨aon { strapBoot := 3 }, by decide⟩,
   ⟨State.reset, by decide⟩,
   ⟨boot { run := .rom }, by decide⟩,
   ⟨dw (fun d => { d with nvm := { d.nvm with conf := true } }) (boot { run := .rom }), by decide⟩,
   ⟨131071, boot { run := .rom }, by decide⟩,
   ⟨boot { run := .rom, verified := true }, by decide⟩,
   ⟨2, boot { run := .rom, verified := true, restart := some 2 }, by decide⟩,
   ⟨.firmwareRestart, 2, fw, by simp, by decide⟩,
   ⟨aon { strapBoot := bootRECOVERY } (boot { run := .rom }), by decide⟩,
   ⟨sets [(SYS_BOOT_STAT_ROM_RESULT, 3)] (boot { run := .rom, scanned := true }), by decide⟩⟩

theorem meets_PresetsAndFocusAreServed :
    (∃ (s : State), s.posted 0x0011 1 ∧ s.dev.cmdNat 0 1 ≤ 31 ∧ s.dev.presetImage.length ≤ 15072 ∧ s.dev.presetBusy = false)
      ∧
    (∃ (s : State), s.posted 0x0011 1 ∧ 31 < s.dev.cmdNat 0 1) ∧
    (∃ (s : State), s.posted 0x0010 1 ∧ s.dev.mbx.load = none ∧ (31 < s.dev.cmdNat 0 1 ∨ s.dev.preset (s.dev.cmdNat 0 1) =
      none)) ∧
    (∃ (s : State), s.posted 0x0010 1 ∧ s.dev.mbx.load = none ∧ s.dev.cmdNat 0 1 ≤ 31 ∧ s.dev.preset (s.dev.cmdNat 0 1) =
      some [] ∧ s.dev.presetBusy = false ∧ s.dev.com.gstate = .idle ∧ s.dev.anyChecking = false ∧ s.dev.f
        EXP_CTX_CTRL_COPY_BUSY = 0) ∧
    (∃ (l : LoadSt) (s : State), s.dev.mbx.load = some l ∧ l.committed = false ∧ s.dev.loadStopped = false) ∧
    (∃ (x : FocusSt) (s : State), s.dev.mbx.focus = some x ∧ x.pe < 8) ∧
    (∃ (e : Nat) (n : Nat) (s : State), s.posted 0x0080 1 ∧ s.dev.mbx.focus = none ∧ s.dev.cmdNat 0 1 = e ∧ s.dev.cmdNat 1 1
      = n ∧ e ≤ 7 ∧ n ≤ 15 ∧ s.dev.ak STA_HW0_EN n ≠ 0 ∧ s.dev.ak STA_HW0_MEMBER n = 0 ∧ s.dev.hf (pePage e) HD_PAGE_CTRL_EN
        = 1 ∧ s.dev.runState = runRUNNING ∧ (s.dev.pin e).parF = []) ∧
    (∃ (x : FocusSt) (w : Word) (t : List Word) (s : State), s.posted 0x0080 1 ∧ s.dev.mbx.focus = some x ∧ x.moving = true
      ∧ x.stage = 1 ∧ (s.dev.pin x.pe).outF = w :: t) ∧
    (∃ (x : FocusSt) (s : State), s.posted 0x0080 1 ∧ s.dev.mbx.focus = some x ∧ x.moving = false ∧ x.stage = 1 ∧
      s.dev.focusFresh x = true ∧ (x.best.all fun b => decide (b.2 < s.dev.focusScore x.rect)) = true ∧ x.goal + x.coarse ≤
        x.last ∧ (s.dev.pin x.pe).parF = []) :=
  ⟨⟨post 0x11 1 [31], by decide⟩,
   ⟨post 0x11 1 [32], by decide⟩,
   ⟨post 0x10 1 [32], by decide⟩,
   ⟨dw (fun d => { d with nvm := { d.nvm with presets := [(31, some [])], savedSlots := [31] } }) (post 0x10 1 [31]), by
     decide⟩,
   ⟨{ slot := 31, pages := [.ary] }, dw (fun d => { d with mbx := { load := some { slot := 31, pages := [.ary] } } })
     (enabled .ary fw), by decide⟩,
   ⟨{ pe := 7, rect := (0, 0, 0, 0), coarse := 1, fine := 1, lo := 0, hi := 1 }, dw (fun d =>
     { d with mbx := { focus := some { pe := 7, rect := (0, 0, 0, 0), coarse := 1, fine := 1, lo := 0, hi := 1 } } }) fw, by
       decide⟩,
   ⟨7, 15, acts [(STA_HW0_EN, 0, 15, 1)] (enabled (.pe 7) (sets [(ARY_RUN_STAT_STATE, 2)] (post 0x80 1 [7 + 15 * 256]))), by
     decide⟩,
   ⟨{ pe := 7, rect := (0, 0, 0, 0), coarse := 1, fine := 1, lo := 0, hi := 1, stage := 1 }, 0xFFFFFFFF#32, [], dw (fun d =>
     { d with mbx := { focus := some { pe := 7, rect := (0, 0, 0, 0), coarse := 1, fine := 1, lo := 0, hi := 1, stage := 1 } }, pe := [(7, { fwOwn := true, outF := [0xFFFFFFFF#32] })] })
       (post 0x80 1), by decide⟩,
   ⟨{ pe := 7, rect := (0, 0, 1, 1), coarse := 1, fine := 1, lo := 0, hi := 1, stage := 1, last := 1, moving := false }, dw
     (fun d => { d with mbx := { focus := some { pe := 7, rect := (0, 0, 1, 1), coarse := 1, fine := 1, lo := 0, hi := 1, stage := 1, last := 1, moving := false } }, recs := [(0, { began := [some 5] })] })
       (post 0x80 1), by decide +kernel, rfl, rfl, rfl, by decide +kernel, rfl, by decide, rfl⟩⟩

theorem meets_TapSelectsRegisters :
    (∃ (c : Instr) (i : BitVec 4) (s : State), (c, i) ∈ [(.tapReset, 0xF#4), (.tapClamp, 0x2#4), (.tapHighz, 0x3#4)] ∧
      s.dev.aon.level = 2) ∧
    (∃ (s : State), s.dev.aon.level = 2) ∧
    (∃ (s : State), s.dev.aon.level = 2) ∧
    (∃ (s : State), s.dev.aon.level = 2) ∧
    (∃ (b : BypassScan) (s : State), s.dev.aon.level = 2 ∧ 4 ≤ b.code.toNat) ∧
    (∃ (s : State), s.dev.aon.level = 2) ∧
    (∃ (c : Instr) (b : List Bool) (o : Option (List Bool)) (q : Bool) (r : BypassScan) (s : State), c ∈ [.tapReset,
      .tapClamp, .tapHighz, .tapExtest o, .tapSamplePreload q b, .tapBypass r] ∧ s.dev.aon.level ≠ 2) :=
  ⟨⟨.tapHighz, 0x3#4, up, by simp, rfl⟩,
   ⟨up, by decide⟩,
   ⟨up, by decide⟩,
   ⟨up, by decide⟩,
   ⟨{ code := 15, tdi := true }, up, by decide⟩,
   ⟨up, by decide⟩,
   ⟨.tapReset, [], none, true, { tdi := true }, aon { level := 1 }, by simp, by decide⟩⟩

theorem meets_FrontCommandRuns :
    (∃ (c : Instr) (rest : List Instr) (s : State), s.pending = c :: rest) ∧
    (∃ (s : State), s.pending = []) :=
  ⟨⟨.echo, [.identify], { up with pending := [.echo, .identify] }, rfl⟩,
   ⟨up, by decide⟩⟩

theorem meets_OperatorKeyStays :
    (∃ (k : List Byte) (s : State) (t : State), s.vault.key = some k ∧ step s = .next t) ∧
    (∃ (s : State) (t : State), s.vault.key = none ∧ step s = .next t ∧ t.vault.key ≠ none) ∧
    (∃ (c : Instr), c ≠ .evrClear) :=
  ⟨⟨[1#8], { up with vault := { key := some [1#8] } }, { up with vault := { key := some [1#8] } }, rfl, rfl⟩,
   ⟨{ dw (fun d => { d with boot := { d.boot with keyBusy := some [1#8] } }) up with pending := [.keyProgDone] },
     { dw (fun d => keyDone { d with boot := { d.boot with keyBusy := some [1#8] } }) up with vault := { key := some [1#8] } },
       rfl, rfl, nofun⟩,
   ⟨.evrFreeze, nofun⟩⟩

theorem meets_RecorderKeepsShape :
    (∃ (s : State) (t : State), s.evr.shaped ∧ step s = .next t) :=
  ⟨up, up, (by refine ⟨rfl, by decide, ?_, ?_, ?_⟩ <;> intro p h <;> cases h), rfl⟩

/-! ## Well-formed commands: an ill-formed one for each check -/

theorem test_wf_rcRead : (Instr.rcRead .spi (BitVec.ofNat 24 (NRD_SPAT_STR.addr 0 0))).wf = false := by decide
theorem test_wf_w1cWrite : (Instr.w1cWrite .spi (BitVec.ofNat 24 (EVR_ACCEPTED.addr 0 0)) ⟨1#32, 0#32⟩).wf = false := by decide
theorem test_wf_basicFieldWrite : (Instr.basicFieldWrite .spi 0x010100#24 0#32).wf = false := by decide
theorem test_wf_spiTransaction : (Instr.spiTransaction 0x00#8 2 0#24 [0#32, 0#32]).wf = false ∧
    (Instr.spiTransaction 0x80#8 1 0#24 [0#32]).wf = false ∧ (Instr.spiTransaction 0x40#8 1 0#24 [0#32]).wf = false := by decide
theorem test_wf_spiCsAbort : (Instr.spiCsAbort 0#24 (List.replicate 64 0#32) 0).wf = false := by decide
theorem test_wf_i2cTransaction : (Instr.i2cTransaction 0x38#7 false 0#24 2 [0#32]).wf = false := by decide
theorem test_wf_mbxClaim : (Instr.mbxClaim .spi 0x000000#24 0#32).wf = false := by decide
theorem test_wf_preambleDone : (Instr.preambleDone [(0, [])]).wf = false := by decide
theorem test_wf_rowResult : (Instr.rowResult 0 [(0#12, 0#12)]).wf = false := by decide
theorem test_wf_ctxTableWrite : (Instr.ctxTableWrite .spi 0x130000#24 0#32).wf = false := by decide
theorem test_wf_aeIteration : (Instr.aeIteration (.tiles [(0, ⟨0#32, 0#4, 0#16⟩), (0, ⟨0#32, 0#4, 0#16⟩)]) 0#8).wf = false := by decide
theorem test_wf_engImemWrite : (Instr.engImemWrite .spi 0x000000#24 0#32).wf = false := by decide
theorem test_wf_nrdRow : (Instr.nrdRow 0 4 0).wf = false := by decide
theorem test_wf_pxcRow : (Instr.pxcRow 0 4 0).wf = false := by decide
theorem test_wf_hdrRow : (Instr.hdrRow 0 4 0).wf = false := by decide
theorem test_wf_queueEntryWrite : (Instr.queueEntryWrite .spi 0x180000#24 0#32).wf = false := by decide
theorem test_wf_fecCodeword : (Instr.fecCodeword 0 (List.replicate 271 0#10)).wf = false := by decide
theorem test_wf_laneEqDone : (Instr.laneEqDone 20 (List.replicate 13 0)).wf = false := by decide
theorem test_wf_laneAdaptUpdate : (Instr.laneAdaptUpdate 19 (List.replicate 7 0)).wf = false := by decide
theorem test_wf_rateMonitorUpdate : (Instr.rateMonitorUpdate [] true).wf = false := by decide
theorem test_wf_thermalSample : (Instr.thermalSample (List.replicate 31 0#16)).wf = false := by decide
theorem test_wf_mramScanDone : (Instr.mramScanDone [5, 5]).wf = false := by decide

/-! ## Words of the engines, written out from R166 to R170 and from R239 to R244 -/

/-- ADD W, -1 with DELAY 3: opcode 00011, DELAY 00011, Rd 0010, six bits of 0, immediate of twelve ones. -/
theorem test_word_add : eDecode 0b00011_00011_0010_000000_111111111111#32 = some (.add 2 0xFFF#12, 3) := by decide
/-- JMP 13 to 1023: opcode 00101, DELAY 0, condition 1101, eight bits of 0, address. -/
theorem test_word_jmp : eDecode 0b00101_00000_1101_00000000_1111111111#32 = some (.jmp 13 1023, 0) := by decide
/-- STB to both ports: opcode 00111, DELAY 0, ports 11, increments 01 and 10, sixteen bits of 0. -/
theorem test_word_stb : eDecode 0b00111_00000_11_01_10_0000000000000000#32 = some (.stb .both .plus .minus, 0) := by decide
/-- A reserved bit that is not 0 makes an illegal word. -/
theorem test_word_reserved : eDecode 1#32 = none := by decide
/-- A pin engine's SETP of OUT3 and OUT1 to 1: opcode 1000, DELAY 0000, mask 1010, values 1010. -/
theorem test_word_setp : pDecode 0b1000_0000_1010_1010#32 = some (.setp 10 10, 0) := by decide
/-- A pin engine's ADDI to D of -32 with DELAY 15. -/
theorem test_word_addi : pDecode 0b0011_1111_11_100000#32 = some (.addi 3 0x20#6, 15) := by decide

/-! ## Check values -/

/-- SHA-256 of "abc": the example of FIPS 180-4. -/
theorem test_sha256_abc : (sha256 [0x61#8, 0x62#8, 0x63#8]).take 4 = [0xBA#8, 0x78#8, 0x16#8, 0xBF#8] := by decide +kernel
/-- CRC-32 of "123456789": the usual check value of this polynomial. -/
theorem test_crc32_check : crc32 ((List.range 9).map fun i => BitVec.ofNat 8 (0x31 + i)) = 0xCBF43926#32 := by decide +kernel

/-! ## Steps -/

/-- An idle block stays as it is. -/
theorem test_idle : step State.reset = .next State.reset := rfl
/-- A taken ADEC jump wraps A below 0 (R241). -/
theorem test_adec_wraps : ((peJmp 7 4 0 0 (onP 0 { state := peRUN }).dev).pin 7).a = 2 ^ 32 - 1 := by decide
/-- A write from a closed port counts in PORT_DENY (R85). -/
theorem test_port_deny : (match execRegWrite .i2c 0x0D0000#24 0#32 (sets [(SYS_PORT_CTRL_WR_EN, 3)]) with
    | .next t => t.dev.f SYS_PORT_DENY | _ => 0) = 1 := by decide

end Sys2Proof.Tests
end

section
/-! SUPPORT. Proofs about the register access unit and its ports (R16, R55, R77 to R85): the gate that every write of
a port passes, what a read gives its port, what a burst of writes does where the port is closed, and the SPI and I²C
transactions as accesses of single words. -/
namespace Sys2Proof.Machine

/-! ## The gate of the ports (R84, R85, R587) -/

/-- The gate at a page is the gate of the port, with R62's condition behind it. -/
theorem gatePageRec_eq (p : Port) (pg : Page) (f : Dev × Recorder → Dev × Recorder) :
    gatePageRec p pg f = gateWriteRec p fun x => if x.1.inReset pg then x else f x := by
  funext x
  unfold gatePageRec gateWriteRec
  cases x.1.serves <;> cases x.1.portOpen p <;> rfl

/-- A change of the device behind the gate is a change of device and recorder behind the gate. -/
theorem onDev_eq_gated {p : Port} {s : State} {F f : Dev → Dev} (h : F s.dev = gateWrite p f s.dev) :
    ∃ g, onDev F s = onRec (gateWriteRec p g) s := by
  refine ⟨fun x => (f x.1, x.2), ?_⟩
  unfold onDev onRec gateWriteRec
  rw [h, gateWrite]
  cases s.dev.serves <;> cases s.dev.portOpen p <;> rfl

/-- The same for a page's register. -/
theorem onDev_eq_gatedPage {p : Port} {pg : Page} {s : State} {F f : Dev → Dev} (h : F s.dev = gatePage p pg f s.dev) :
    ∃ g, onDev F s = onRec (gateWriteRec p g) s :=
  onDev_eq_gated h

/-- Whatever a port asks to write, the command is one function of device and recorder behind the gate. -/
theorem exec_eq_gated {c : Instr} {p : Port} (h : c.writesBy = some p) (s : State) :
    ∃ f, exec c s = onRec (gateWriteRec p f) s := by
  cases c
  case regWrite | w1cWrite | portCtrlWrite | fullReset =>
    obtain rfl := Option.some.inj h
    exact ⟨_, rfl⟩
  case swTrig =>
    obtain rfl := Option.some.inj h
    exact ⟨_, congrArg (onRec · s) (gatePageRec_eq ..)⟩
  case gcommit | basicFieldWrite | mbxClaim | mbxGo | mbxAck | engImemWrite | queueEntryWrite | clkRefSelect
      | clkOutEnable | keyProg | fwConfirm | warmReset | bootCfgSave =>
    obtain rfl := Option.some.inj h
    exact onDev_eq_gated rfl
  case pageEnable | pageDisable | pageSoftRst | expertSet | expertClear | pageCommit | ctxTableWrite | ctxCopy
      | engHalt | engResume | engStep | engSnapReq | engParamWrite | aryStart | aryStop | winApply | burstArm
      | burstAbort | peParamWrite | peFlush | histRelease | hmpCtrlFreeze | hmpCtrlAbort | hmpCtrlRetrain
      | hmpCtrlDsm | timeSend | laneSlip | laneDeepReq =>
    obtain rfl := Option.some.inj h
    exact onDev_eq_gatedPage rfl
  case pxcDefData v | pxcLscData v =>
    obtain ⟨w, rfl, rfl⟩ := Option.map_eq_some_iff.mp h
    exact onDev_eq_gatedPage rfl
  -- no other command is a write of one word
  all_goals cases h

/-- A command that leaves the recorder as it is answers the state with the new device. -/
theorem onRec_eq {f : Dev × Recorder → Dev × Recorder} {s : State} {d : Dev} (h : f (s.dev, s.evr) = (d, s.evr)) :
    onRec f s = .next { s with dev := d } := by
  simp only [onRec, h]

/-- PORT_CTRL closes the port: the write is counted and ignored. -/
theorem gateWriteRec_closed {p : Port} {x : Dev × Recorder} (f : Dev × Recorder → Dev × Recorder)
    (h : x.1.serves = true) (ho : x.1.portOpen p = false) : gateWriteRec p f x = (x.1.bump SYS_PORT_DENY, x.2) := by
  simp [gateWriteRec, h, ho]

theorem gateWriteRec_open {p : Port} {x : Dev × Recorder} (f : Dev × Recorder → Dev × Recorder)
    (h : x.1.serves = true) (ho : x.1.portOpen p = true) : gateWriteRec p f x = f x := by
  simp [gateWriteRec, h, ho]

/-! ## Words that stay -/

theorem onlyRegs_refl (d : Dev) (as : List Nat) : onlyRegs d d as := ⟨rfl, fun _ _ => rfl⟩

theorem onlyRegs_trans {d e g : Dev} {as : List Nat} (h : onlyRegs d e as) (h' : onlyRegs e g as) : onlyRegs d g as := by
  obtain ⟨hde, hw⟩ := h
  obtain ⟨heg, hw'⟩ := h'
  refine ⟨?_, fun a ha => (hw' a ha).trans (hw a ha)⟩
  calc g = { e with regs := g.regs } := heg
    _ = { d with regs := g.regs } := congrArg (fun x : Dev => { x with regs := g.regs }) hde

/-- Writing a field touches the word that holds it. -/
theorem onlyRegs_setFi (d : Dev) (F : Fld) (i k v : Nat) : onlyRegs d (d.setFi F i k v) [F.addr i k] :=
  ⟨rfl, fun a ha => by rw [Dev.word_setFi, if_neg (by simpa using ha)]⟩

/-! ## PORT_CTRL (R85) -/

/-- A register of one RW field without reserved codes takes that field of the word, and no write is rejected. -/
theorem storeWord_rw_any {pg : Page} {off : Nat} {F : Fld} (hF : pg.fieldsAt off = [F]) (hrw : F.acc = .rw)
    (hany : F.legal = .any) (p : Port) (locked : Bool) (v : Word) (d : Dev) : storeWord p pg off locked v d =
      d.putWord (pg.base + off) (setBits (d.word (pg.base + off)) F.hi F.lo (fieldOf v F)) := by
  simp [storeWord, hF, writeField, hrw, hany, Legal.ok, fieldOf]

/-- A write of PORT_CTRL that passes the gate; one that would close every port has no effect. -/
theorem writeServed_portCtrl (vt : Vault) (p : Port) (v : Word) {x : Dev × Recorder} (hr : x.1.inReset .sys = false) :
    writeServed vt p 0x120 v x = (if fieldOf v SYS_PORT_CTRL_WR_EN = 0 then x.1
      else x.1.setF SYS_PORT_CTRL_WR_EN (fieldOf v SYS_PORT_CTRL_WR_EN), x.2) := by
  have ha : decodeAddr 0x120 = .page .sys 0x120 := decodeAddr_page .sys 0x120 (by decide)
  have hs := storeWord_rw_any (pg := .sys) (off := 0x120) (F := SYS_PORT_CTRL_WR_EN) (by decide) rfl rfl p false v x.1
  have hw : writeSys p 0x120 v x.1 =
      if fieldOf v SYS_PORT_CTRL_WR_EN = 0 then x.1 else storeWord p .sys 0x120 false v x.1 := rfl
  simp only [writeServed, ha, writePage, hr, writeBlock, hw, hs]
  rfl

/-! ## Bursts of writes -/

theorem writeWords_one (vt : Vault) (p : Port) (next : Nat → Nat) (a : Nat) (w : Word) (x : Dev × Recorder) :
    (writeWords vt p next a [w] x).1 = writeWord vt p a w x := by
  unfold writeWords
  split <;> rfl

/-- A word that begins no reset is written, and the burst goes on behind it. -/
theorem writeWords_cons (vt : Vault) {p : Port} (next : Nat → Nat) {a : Nat} {w : Word} (ws : List Word)
    {x : Dev × Recorder} (h : x.1.beginsReset p a w = false) :
    writeWords vt p next a (w :: ws) x = writeWords vt p next (next a) ws (writeWord vt p a w x) := by
  simp [writeWords, h]

/-! ## Writes from a closed port (R85) -/

/-- Whether the unit serves depends on the always-on domain and the clocks alone. -/
theorem serves_congr {d e : Dev} (ha : e.aon = d.aon) (hc : e.clk = d.clk) : e.serves = d.serves := by
  simp only [Dev.serves, Dev.clocked, ha, hc]

/-- Counting a denial changes neither whether the unit serves nor which ports are open. -/
theorem serves_bump_portDeny (d : Dev) : (d.bump SYS_PORT_DENY).serves = d.serves :=
  serves_congr (Dev.setFi_aon ..) (Dev.setFi_clk ..)

theorem portOpen_bump_portDeny (d : Dev) (p : Port) : (d.bump SYS_PORT_DENY).portOpen p = d.portOpen p := by
  have h : (d.bump SYS_PORT_DENY).fi SYS_PORT_CTRL_WR_EN 0 0 = d.fi SYS_PORT_CTRL_WR_EN 0 0 :=
    Dev.fi_setFi_ne d _ _ _ _ _ _ _ (by decide) (by decide) (by decide) (by decide)
  cases p <;> simp only [Dev.portOpen, Dev.f_def, h]

/-- Every word of a burst from a closed port is counted and ignored; none begins a software reset. -/
theorem writeWords_closed (vt : Vault) {p : Port} (next : Nat → Nat) (ws : List Word) (a : Nat) (x : Dev × Recorder)
    (h : x.1.serves = true) (ho : x.1.portOpen p = false) :
    ∃ d, writeWords vt p next a ws x = ((d, x.2), false) ∧ onlyRegs x.1 d [SYS_PORT_DENY.addr 0 0] ∧
      d.f SYS_PORT_DENY = (x.1.f SYS_PORT_DENY + ws.length) % 2 ^ 32 := by
  induction ws generalizing a x with
  | nil => exact ⟨x.1, rfl, onlyRegs_refl .., (Nat.mod_eq_of_lt (bitsOf_lt _ 31 0)).symm⟩
  | cons w ws ih =>
    have hb : x.1.beginsReset p a w = false := by simp [Dev.beginsReset, ho]
    obtain ⟨d, hd, hreg, hf⟩ := ih (next a) (x.1.bump SYS_PORT_DENY, x.2)
      ((serves_bump_portDeny _).trans h) ((portOpen_bump_portDeny ..).trans ho)
    have hn : (x.1.bump SYS_PORT_DENY).f SYS_PORT_DENY = (x.1.f SYS_PORT_DENY + 1) % 2 ^ 32 :=
      Dev.fi_setFi_same _ _ _ _ _ (by decide) (by decide)
    refine ⟨d, ?_, onlyRegs_trans (onlyRegs_setFi ..) hreg, ?_⟩
    · rw [writeWords_cons vt next ws hb, writeWord, gateWriteRec_closed _ h ho, hd]
    · rw [hf, hn, List.length_cons]; omega

/-! ## Reads -/

theorem readWords_length (r : Recorder) (v : Vault) (p : Port) (next : Nat → Nat) (n a : Nat) (d : Dev) :
    (readWords r v p next n a d).1.length = n := by
  induction n generalizing a d with
  | zero => rfl
  | succ n ih => simp [readWords, ih]

/-- The wait bytes take free values and touch no output of a port. -/
theorem spiBytes_out (ws : List Word) (d : Dev) : (spiBytes ws d).2.out = d.out := by
  induction ws generalizing d with
  | nil => rfl
  | cons w ws ih => exact ih d.free.2

theorem portGive_given (p : Port) (ws : List Word) (d : Dev) : (portGive p ws d).given p = ws := by
  cases p with
  | spi => exact congrArg PortOut.spi (spiBytes_out ws _)
  | inband | i2c | fw => rfl

/-- One word read over SPI: wait bytes, as many as the next free value gives, the marker, the word. -/
theorem portGive_miso (w : Word) (d : Dev) : (portGive .spi [w] d).out.miso =
    List.replicate ((Config.freeWord d.freeCtr).toNat % 16) 0xFF#8 ++ 0x5A#8 :: u32 w.toNat := by
  simp [portGive, spiBytes, Dev.free]

theorem readPort_serves (r : Recorder) (v : Vault) (p : Port) (n a : Nat) {d : Dev} (h : d.serves = true) :
    readPort r v p n a d = portGive p (readWords r v p nextAddr n a d).1 (readWords r v p nextAddr n a d).2 := by
  simp [readPort, h]

/-- A device that serves gives its port as many words as asked for. -/
theorem readPort_given_length (r : Recorder) (v : Vault) (p : Port) (n a : Nat) {d : Dev} (h : d.serves = true) :
    ((readPort r v p n a d).given p).length = n := by
  rw [readPort_serves _ _ _ _ _ h, portGive_given, readWords_length]

/-- A read of one word over SPI: what the port is given, and what SPI_MISO carries before and with it (R80). -/
theorem readPort_spi_one (r : Recorder) (v : Vault) (a : Nat) {d : Dev} (h : d.serves = true) :
    ∃ k w, (readPort r v .spi 1 a d).out.spi = [w] ∧ k ≤ 15 ∧
      (readPort r v .spi 1 a d).out.miso = List.replicate k 0xFF#8 ++ 0x5A#8 :: u32 w.toNat := by
  obtain ⟨w, hw⟩ := List.length_eq_one_iff.mp (readWords_length r v .spi nextAddr 1 a d)
  rw [readPort_serves _ _ _ _ _ h, hw]
  exact ⟨_, w, portGive_given .spi [w] _, Nat.le_of_lt_succ (Nat.mod_lt _ (by decide)), portGive_miso w _⟩

/-! ## SPI transactions (R78 to R80) -/

/-- Bit 7 of the command byte is 1: a read of as many words as it asks for and the host clocks. -/
theorem exec_spi_read {cmd : Byte} (h : cmd.getLsbD 7 = true) (n : Nat) (a : BitVec 24) (ws : List Word) (s : State) :
    exec (.spiTransaction cmd n a ws) s = onDevR (fun r v => readPort r v .spi (min n (spiCount cmd)) a.toNat) s :=
  if_pos h

/-- Bit 7 of the command byte is 0: a burst of writes, of no more words than the byte asks for. -/
theorem exec_spi_write {cmd : Byte} (h : cmd.getLsbD 7 = false) (n : Nat) (a : BitVec 24) (ws : List Word) (s : State) :
    exec (.spiTransaction cmd n a ws) s =
      onAccess (fun vt x => (writeWords vt .spi nextAddr a.toNat (ws.take (spiCount cmd)) x).1) s :=
  if_neg (Bool.eq_false_iff.mp h)

theorem nextAddr_toNat (a : BitVec 24) : nextAddr a.toNat = (a + 4#24).toNat := by
  simp [nextAddr, BitVec.toNat_add]

/-- A command byte that asks for more than one word, less 1, asks for one word fewer in the same direction. -/
theorem spiCount_pred {cmd : Byte} (h : cmd.toNat % 64 ≠ 0) : spiCount cmd = spiCount (cmd - 1#8) + 1 := by
  have := cmd.isLt
  simp only [spiCount, BitVec.toNat_sub, BitVec.toNat_ofNat]
  omega

theorem spiWrites_pred {cmd : Byte} (h : cmd.toNat % 64 ≠ 0) (hw : cmd.getLsbD 7 = false) :
    (cmd - 1#8).getLsbD 7 = false := by
  have hlt : ∀ c : Byte, c.getLsbD 7 = false ↔ c.toNat < 128 := fun c => by
    rw [← BitVec.msb_eq_getLsbD_last c, BitVec.msb_eq_decide]; simp
  rw [hlt] at hw ⊢
  simp only [BitVec.toNat_sub, BitVec.toNat_ofNat]
  omega

/-! ## I²C transactions (R81, R82) -/

/-- With VIO present the target acknowledges its own address. -/
theorem i2cAddress_own {a7 : BitVec 7} {d : Dev} (h : a7.toNat = 0x38 + d.aon.strapI2c) (hv : d.vioGood = true) :
    i2cAddress a7 d = { d with out := { d.out with i2cAck := true } } := by
  simp [i2cAddress, h, hv]

theorem i2cAddress_other {a7 : BitVec 7} {d : Dev} (h : a7.toNat ≠ 0x38 + d.aon.strapI2c) :
    i2cAddress a7 d = { d with out := { d.out with i2cAck := false } } := by
  simp [i2cAddress, h]

/-- A transaction that is not acknowledged moves no word. -/
theorem exec_i2c_unacked {a7 : BitVec 7} {s : State} (h : (i2cAddress a7 s.dev).out.i2cAck = false) (rd : Bool)
    (a : BitVec 24) (n : Nat) (ws : List Word) : runs (.i2cTransaction a7 rd a n ws) s (i2cAddress a7 s.dev) := by
  cases rd <;> simp [runs, exec, execI2cTransaction, onDevR, onAccess, onRec, h]

theorem exec_i2c_read {a7 : BitVec 7} {s : State} (h : (i2cAddress a7 s.dev).out.i2cAck = true) (a : BitVec 24) (n : Nat)
    (ws : List Word) : runs (.i2cTransaction a7 true a n ws) s
      (readPort s.evr s.vault .i2c n a.toNat (i2cAddress a7 s.dev)) := by
  simp [runs, exec, execI2cTransaction, onDevR, h]

theorem exec_i2c_write {a7 : BitVec 7} {s : State} (h : (i2cAddress a7 s.dev).out.i2cAck = true) (a : BitVec 24) (n : Nat)
    (ws : List Word) : exec (.i2cTransaction a7 false a n ws) s =
      onAccess (fun vt x => (writeWords vt .i2c nextAddr a.toNat ws x).1) { s with dev := i2cAddress a7 s.dev } := by
  simp [exec, execI2cTransaction, onAccess, onRec, h]

/-! ## One word written (R85) -/

/-- A write command of a closed port is counted and does nothing else. -/
theorem runs_portDeny_of_closed {c : Instr} {p : Port} {s : State} (hc : c.writesBy = some p) (h : s.dev.serves = true)
    (ho : s.dev.portOpen p = false) : runs c s (s.dev.bump SYS_PORT_DENY) := by
  obtain ⟨f, hf⟩ := exec_eq_gated hc s
  exact hf.trans (onRec_eq (gateWriteRec_closed f h ho))

/-- PORT_CTRL takes the field written, unless that would close every port. -/
theorem runs_portCtrlWrite {p : Port} {s : State} (h : s.admitsAt p .sys) (v : Word) :
    runs (.portCtrlWrite p v) s (if fieldOf v SYS_PORT_CTRL_WR_EN = 0 then s.dev
      else s.dev.setF SYS_PORT_CTRL_WR_EN (fieldOf v SYS_PORT_CTRL_WR_EN)) := by
  obtain ⟨⟨hs, ho⟩, hr⟩ := h
  have hw := gateWriteRec_open (x := (s.dev, s.evr)) (writeServed s.vault p 0x120 v) hs ho
  rw [writeServed_portCtrl _ _ _ hr] at hw
  exact onRec_eq hw

end Sys2Proof.Machine

open Sys2Proof Sys2Proof.Machine

/-- Settles O1: every write command of a port is a function behind one gate, and a burst passes it word by word. -/
theorem closedPortIgnoresWrites : Obligations.ClosedPortIgnoresWrites := by
  refine ⟨fun c p s hc hs ho => runs_portDeny_of_closed hc hs ho, fun p a s hs => ?read, fun p v s h => ?portCtrl,
    fun cmd n a ws s hcmd hs ho => ?spiBurst, fun n a ws a7 s ha hv hs ho => ?i2cBurst⟩
  case read =>
    obtain ⟨w, hw⟩ := List.length_eq_one_iff.mp (readPort_given_length s.evr s.vault p 1 a.toNat hs)
    exact ⟨_, w, rfl, hw⟩
  case portCtrl =>
    refine ⟨_, runs_portCtrlWrite h v, ?_⟩
    split
    · exact ⟨onlyRegs_refl .., rfl⟩
    · exact ⟨onlyRegs_setFi .., (Dev.fi_setFi_same _ _ _ _ _ (by decide) (by decide)).trans
        (Nat.mod_eq_of_lt (bitsOf_lt v 2 0))⟩
  case spiBurst =>
    obtain ⟨d, hd, hreg, hf⟩ := writeWords_closed s.vault nextAddr (ws.take (spiCount cmd)) a.toNat (s.dev, s.evr) hs ho
    rw [List.length_take] at hf
    exact ⟨d, (exec_spi_write hcmd ..).trans (onRec_eq (congrArg Prod.fst hd)), hreg, hf⟩
  case i2cBurst =>
    have hown := i2cAddress_own ha hv
    obtain ⟨d, hd, hreg, hf⟩ :=
      writeWords_closed s.vault (p := .i2c) nextAddr ws a.toNat (i2cAddress a7 s.dev, s.evr) hs ho
    exact ⟨d, (exec_i2c_write (by rw [hown]) ..).trans (onRec_eq (congrArg Prod.fst hd)), hown ▸ hreg, hf⟩

/-- Settles O4: each transaction is the accesses of its words, one after the other. -/
theorem serialPortsMoveWords : Obligations.SerialPortsMoveWords := by
  refine ⟨fun cmd n a w s hcmd => ?spiWord, fun cmd n a w ws s hcmd hmore hb => ?spiNextWord,
    fun cmd n a s hcmd hs => ?spiRead, fun cmd n a s hcmd hone hn hs => ?spiMarker, fun n a ws part s hlen => ?spiAbort,
    fun rd a n ws a7 s ha => ?i2cOther, fun a n a7 s ha hv hs => ?i2cRead, fun a w a7 s ha hv => ?i2cWord⟩
  case spiWord =>
    refine ⟨_, rfl, ?_⟩
    rw [exec_spi_write hcmd, spiCount, List.take_succ_cons, List.take_nil]
    simp only [onAccess, onRec, writeWords_one]
  case spiNextWord =>
    refine ⟨_, rfl, ?_⟩
    rw [exec_spi_write hcmd, exec_spi_write (spiWrites_pred hmore hcmd), spiCount_pred hmore, List.take_succ_cons]
    simp only [onAccess, onRec, ← nextAddr_toNat, writeWords_cons (x := (s.dev, s.evr)) _ nextAddr _ hb]
  case spiRead =>
    refine ⟨_, exec_spi_read hcmd n a [] s, ?_⟩
    exact readPort_given_length s.evr s.vault .spi (min n (spiCount cmd)) a.toNat hs
  case spiMarker =>
    have h1 : min n (spiCount cmd) = 1 := by simp only [spiCount]; omega
    obtain ⟨k, w, hw, hk, hmiso⟩ := readPort_spi_one s.evr s.vault a.toNat hs
    exact ⟨_, k, w, by rw [runs, exec_spi_read hcmd, h1, onDevR], hw, hk, hmiso⟩
  case spiAbort =>
    have hall : ws.take (spiCount 63#8) = ws := List.take_of_length_le (Nat.le_succ_of_le hlen)
    refine ⟨_, exec_spi_write (by decide) n a ws s, ?_⟩
    simp only [exec, execSpiCsAbort, onAccess, onRec, hall, List.take_of_length_le hlen]
    split <;> rfl
  case i2cOther =>
    have hother := i2cAddress_other ha
    exact hother ▸ exec_i2c_unacked (by rw [hother]) rd a n ws
  case i2cRead =>
    refine ⟨_, exec_i2c_read (by rw [i2cAddress_own ha hv]) a n [], ?_⟩
    exact readPort_given_length s.evr s.vault .i2c n a.toNat hs
  case i2cWord =>
    have hown := i2cAddress_own ha hv
    refine ⟨_, rfl, ?_⟩
    rw [exec_i2c_write (by rw [hown]), hown]
    simp only [onAccess, onRec, writeWords_one]
end

section
/-! SUPPORT. Proofs about the pin engines (R238 to R243): what changing one engine leaves unchanged, how an
instruction completes, and the jumps, waits and quadrature steps built from that. -/
namespace Sys2Proof.Machine

/-! ## The state of one pin engine -/

@[simp] theorem Dev.pin_setPin_same (d : Dev) (e : Nat) (g : PeSt) : (d.setPin e g).pin e = g :=
  SMap.get_set_same ..

@[simp] theorem Dev.pin_mapPin_same (d : Dev) (e : Nat) (f : PeSt → PeSt) : (d.mapPin e f).pin e = f (d.pin e) :=
  Dev.pin_setPin_same ..

/-- Engines depend on their own map alone. -/
theorem Dev.pin_congr {d x : Dev} (h : x.pe = d.pe) (e : Nat) : x.pin e = d.pin e := by simp only [Dev.pin, h]

/-- A command of the device runs to what its function gives. -/
theorem runs_onDev {c : Instr} {s : State} {f : Dev → Dev} {d : Dev} (hc : exec c s = onDev f s) (h : f s.dev = d) :
    runs c s d := h ▸ hc

/-! ## What a change of one pin engine leaves unchanged -/

theorem onlyPin_setPin (d : Dev) (e : Nat) (g : PeSt) : onlyPin d (d.setPin e g) e :=
  ⟨rfl, fun _ hm => SMap.get_set_ne _ _ _ _ _ hm⟩

theorem onlyPin_mapPin (d : Dev) (e : Nat) (f : PeSt → PeSt) : onlyPin d (d.mapPin e f) e := onlyPin_setPin ..

theorem onlyPin_trans {d x y : Dev} {e : Nat} (h : onlyPin d x e) (h' : onlyPin x y e) : onlyPin d y e := by
  obtain ⟨hx, hpin⟩ := h
  obtain ⟨hy, hpin'⟩ := h'
  refine ⟨?_, fun m hm => (hpin' m hm).trans (hpin m hm)⟩
  calc y = { x with pe := y.pe } := hy
    _ = { d with pe := y.pe } := congrArg (fun u : Dev => { u with pe := y.pe }) hx

/-- The end of an instruction belongs to its engine alone. -/
theorem onlyPin_peDone {d x : Dev} {e : Nat} (h : onlyPin d x e) (dly : Nat) (j : Option Nat) :
    onlyPin d (x.peDone e dly j) e := onlyPin_trans h (onlyPin_mapPin ..)

theorem onlyPin.words {d x : Dev} {e : Nat} (h : onlyPin d x e) (as : List Nat) : onlyPinWords d x e as := by
  obtain ⟨hx, hpin⟩ := h
  rw [hx]
  exact ⟨rfl, fun m hm => (Dev.pin_congr rfl m).trans (hpin m hm), fun _ _ => rfl⟩

theorem onlyPinWords_trans {d x y : Dev} {e : Nat} {as : List Nat} (h : onlyPinWords d x e as)
    (h' : onlyPinWords x y e as) : onlyPinWords d y e as := by
  obtain ⟨hx, hpin, hw⟩ := h
  obtain ⟨hy, hpin', hw'⟩ := h'
  refine ⟨?_, fun m hm => (hpin' m hm).trans (hpin m hm), fun a ha => (hw' a ha).trans (hw a ha)⟩
  calc y = { x with pe := y.pe, regs := y.regs, reqs := y.reqs, evq := y.evq } := hy
    _ = { d with pe := y.pe, regs := y.regs, reqs := y.reqs, evq := y.evq } :=
      congrArg (fun u : Dev => { u with pe := y.pe, regs := y.regs, reqs := y.reqs, evq := y.evq }) hx

theorem onlyPinWords_setFi (d : Dev) (e : Nat) {as : List Nat} {F : Fld} {i k : Nat} (h : F.addr i k ∈ as) (v : Nat) :
    onlyPinWords d (d.setFi F i k v) e as :=
  ⟨rfl, fun _ _ => rfl, fun _ ha => by rw [Dev.word_setFi, if_neg (ne_of_mem_of_not_mem h ha).symm]⟩

theorem onlyPinWords_raiseBits (d : Dev) (e : Nat) {as : List Nat} {p : Page} (h : p.base + 0x10 ∈ as) (b : Word) :
    onlyPinWords d (d.raiseBits p b) e as := by
  refine ⟨?_, fun m _ => Dev.pin_congr (Dev.raiseBits_pe ..) m, fun _ ha => ?_⟩
  · unfold Dev.raiseBits irqPackets
    split <;> rfl
  · rw [Dev.word_raiseBits, if_neg (ne_of_mem_of_not_mem h ha).symm]

theorem onlyPinWords_emitSrc (d : Dev) (e : Nat) (as : List Nat) (c src : Nat) (b : List Byte) :
    onlyPinWords d (d.emitSrc c src b) e as :=
  ⟨rfl, fun _ _ => rfl, fun _ _ => rfl⟩

/-! ## Errors of a pin engine -/

/-- Count an error of an engine, raise its interrupt and present its event. -/
def pinReport (F G : Fld) (c e : Nat) (d : Dev) : Dev := ((d.bumpI F e 0).raiseI G e).emit c (pePage e)

@[simp] theorem pin_pinReport (F G : Fld) (c e m : Nat) (d : Dev) : (pinReport F G c e d).pin m = d.pin m :=
  Dev.pin_congr (Dev.raiseBits_pe ..) m

/-- A report changes the counter and IRQ_RAW. -/
theorem onlyPinWords_pinReport (F : Fld) {G : Fld} (hG : G.blk = .pe) (c : Nat) (e : Fin 8) (d : Dev) :
    onlyPinWords d (pinReport F G c e d) e [F.addr e 0, (Page.pe e).base + 0x10] := by
  have hcount := onlyPinWords_setFi d e (as := [F.addr e 0, (Page.pe e).base + 0x10]) (List.mem_cons_self ..)
    (d.fi F e 0 + 1)
  refine onlyPinWords_trans (onlyPinWords_trans hcount (onlyPinWords_raiseBits _ _ ?_ _)) (onlyPinWords_emitSrc ..)
  simp [hG, blkPage]

/-- A report counts one, in a counter of 32 bits. -/
theorem fi_pinReport {F G : Fld} {e : Nat} (hlo : F.lo = 0) (hhi : F.hi = 31)
    (haddr : F.addr e 0 ≠ (blkPage G.blk e).base + 0x10) (c : Nat) (d : Dev) :
    (pinReport F G c e d).fi F e 0 = (d.fi F e 0 + 1) % 2 ^ 32 := by
  rw [pinReport, Dev.emit_def, Dev.fi_emitSrc, Dev.raiseI_def, Dev.fi_raiseBits _ _ _ _ _ _ haddr, Dev.bumpI_def,
    Dev.fi_setFi_same _ _ _ _ _ (by omega) (by omega), hlo, hhi]

/-- A report presents one event. -/
theorem evq_pinReport (F G : Fld) (c e : Nat) (d : Dev) :
    ∃ x, (pinReport F G c e d).evq = d.evq ++ [x] ∧ x.code = c := by
  rw [pinReport, Dev.emit_def, Dev.emitSrc_evq, Dev.raiseI_def, Dev.raiseBits_evq]
  exact ⟨_, rfl, rfl⟩

/-! ## The end of an instruction (R239) -/

/-- With DELAY 0 the engine goes to the jump's target, or else to the next word; else it keeps both until its DELAY
has passed. -/
theorem PeSt.complete_eq (g : PeSt) (dly : Nat) (j : Option Nat) : g.complete dly j =
    { g with pc := if dly = 0 then j.getD ((g.pc + 1) % 32) else g.pc, idle := decide (dly ≠ 0),
             jump := if dly = 0 then none else j, stall := .none, state := peRUN } := by
  unfold PeSt.complete
  by_cases h : dly = 0
  · cases j <;> simp [h, PeSt.advance]
  · simp [h]

@[simp] theorem Dev.pin_peDone (d : Dev) (e dly : Nat) (j : Option Nat) :
    (d.peDone e dly j).pin e = (d.pin e).complete dly j := Dev.pin_mapPin_same ..

@[simp] theorem Dev.pin_peStall (d : Dev) (e st : Nat) (x : PStall) :
    (d.peStall e st x).pin e = { d.pin e with state := st, stall := x } := Dev.pin_mapPin_same ..

theorem onlyPin_peStall (d : Dev) (e st : Nat) (x : PStall) : onlyPin d (d.peStall e st x) e := onlyPin_mapPin ..

/-! ## JMP (R241) -/

theorem unsigned_lt (k : Nat) (v : Int) : unsigned k v < 2 ^ k := by
  have hpos : 0 < ((2 ^ k : Nat) : Int) := by positivity
  have hlt := Int.emod_lt_of_pos v hpos
  unfold unsigned
  omega

/-- Conditions 0 to 7 of JMP. -/
theorem peCond_cases (d : Dev) (e : Nat) : d.peCond e 0 = true ∧ d.peCond e 1 = (d.pin e).z ∧
    d.peCond e 2 = !(d.pin e).z ∧ d.peCond e 3 = (d.pin e).n ∧ d.peCond e 4 = decide ((d.pin e).a ≠ 0) ∧
    d.peCond e 5 = d.pinLevel e (d.fi PE_IN_CFG_JPIN e 0) ∧ d.peCond e 6 = (d.pin e).stale ∧
    d.peCond e 7 = decide ((d.pin e).parF = []) :=
  ⟨rfl, rfl, rfl, rfl, by rw [Bool.eq_iff_iff]; simp [Dev.peCond], rfl, rfl,
    by rw [Bool.eq_iff_iff]; simp [Dev.peCond]⟩

/-- JMP completes with its target where the condition holds; ADEC alone changes a register, A. -/
theorem pin_peJmp (d : Dev) (e c a dly : Nat) : (peJmp e c a dly d).pin e =
    { d.pin e with a := if c = 4 then unsigned 32 ((d.pin e).a - 1) else (d.pin e).a }.complete dly
      (if d.peCond e c then some a else none) := by
  unfold peJmp
  by_cases hc : c = 4
  · simp only [hc, if_true, Dev.pin_peDone, Dev.pin_mapPin_same, PeSt.setReg, Nat.mod_eq_of_lt (unsigned_lt 32 _)]
  · simp only [hc, if_false, Dev.pin_peDone]

theorem onlyPin_peJmp (d : Dev) (e c a dly : Nat) : onlyPin d (peJmp e c a dly d) e := by
  unfold peJmp
  dsimp only
  split
  · exact onlyPin_peDone (onlyPin_mapPin ..) ..
  · exact onlyPin_mapPin ..

theorem runs_peJmp {e : Fin 8} {cond : Fin 8} {addr : Fin 32} {dly : Fin 16} {s : State}
    (h : s.dev.peReady e (.jmp cond addr) dly = true) :
    runs (.peJmp e cond addr dly) s (peJmp e cond addr dly s.dev) := runs_onDev rfl (if_pos h)

/-! ## WAIT (R242) -/

theorem runs_peWait_met {e : Fin 8} {w : PWait} {dly : Fin 16} {s : State} (h : s.dev.peReady e (.wait w) dly = true)
    (hw : s.dev.peLevel e w = true) : runs (.peWait e w dly) s (s.dev.peDone e dly) :=
  runs_onDev rfl ((if_pos h).trans (if_pos hw))

theorem runs_peWait_stall {e : Fin 8} {w : PWait} {dly : Fin 16} {s : State} (h : s.dev.peReady e (.wait w) dly = true)
    (hw : s.dev.peLevel e w = false) : runs (.peWait e w dly) s (s.dev.peStall e peWAIT (.wait w false)) :=
  runs_onDev rfl ((if_pos h).trans (if_neg (Bool.eq_false_iff.mp hw)))

theorem runs_peWaitDone {e : Fin 8} {w : PWait} {met : Bool} {s : State} (h : (s.dev.pin e).stall = .wait w met)
    (hmet : met = true ∨ s.dev.peLevel e w = true) : runs (.peWaitDone e) s (s.dev.peDone e (s.dev.peDelay e)) :=
  runs_onDev rfl (by simp [peWaitDone, h, hmet])

/-! ## DLY (R240) -/

/-- What DLY counts: a constant of the active generation, or a register. -/
def Dev.dlyCount (d : Dev) (e : Nat) (konst : Bool) (n : Nat) : Nat := if konst then d.ai PE_K e n else (d.pin e).reg n

theorem runs_peDly_zero {e : Fin 8} {konst : Bool} {n : Fin 8} {dly : Fin 16} {s : State}
    (h : s.dev.peReady e (.dly konst n) dly = true) (hv : s.dev.dlyCount e konst n = 0) :
    runs (.peDly e konst n dly) s (s.dev.peDone e dly) := runs_onDev rfl ((if_pos h).trans (if_pos hv))

theorem runs_peDly_stall {e : Fin 8} {konst : Bool} {n : Fin 8} {dly : Fin 16} {s : State}
    (h : s.dev.peReady e (.dly konst n) dly = true) (hv : s.dev.dlyCount e konst n ≠ 0) :
    runs (.peDly e konst n dly) s (s.dev.peStall e peRUN .dly) := runs_onDev rfl ((if_pos h).trans (if_neg hv))

theorem runs_peDlyDone {e : Fin 8} {s : State} (h : (s.dev.pin e).stall = .dly) :
    runs (.peDlyDone e) s (s.dev.peDone e (s.dev.peDelay e)) := runs_onDev rfl (if_pos h)

/-! ## QDEC (R243) -/

/-- Steps of the forward sequence from the stored quadrature state to the one the inputs have, modulo 4. -/
abbrev Dev.quadStep (d : Dev) (e : Nat) : Nat := (quadPos (d.quadNow e) + 4 - quadPos (d.pin e).quad) % 4

theorem quadNow_ne_of_quadStep {d : Dev} {e : Nat} (h : d.quadStep e ≠ 0) : d.quadNow e ≠ (d.pin e).quad :=
  fun heq => h (by simp [Dev.quadStep, heq])

/-- One step forward: D counts up. -/
theorem peQuad_forward {d : Dev} {e : Nat} (h : d.quadStep e = 1) : peQuad e d =
    d.setPin e { d.pin e with quad := d.quadNow e, d := ((d.pin e).d + 1) % 2 ^ 32, z := false, n := false } := by
  simp only [peQuad, h, PeSt.setReg]

/-- One step back: D counts down. -/
theorem peQuad_back {d : Dev} {e : Nat} (h : d.quadStep e = 3) : peQuad e d =
    d.setPin e { d.pin e with quad := d.quadNow e, d := unsigned 32 ((d.pin e).d - 1), z := false, n := true } := by
  simp only [peQuad, h, PeSt.setReg, Nat.mod_eq_of_lt (unsigned_lt 32 _)]

/-- Two steps at once: D stays, and the error is counted, raised and recorded. -/
theorem peQuad_skip {d : Dev} {e : Nat} (h : d.quadStep e = 2) : peQuad e d =
    pinReport PE_QDEC_ERR PE_IRQ_RAW_QDEC_ERR 0x051 e
      (d.setPin e { d.pin e with quad := d.quadNow e, z := true, n := false }) := by
  simp only [peQuad, h, pinReport]

theorem pin_peQuad_skip {d : Dev} {e : Nat} (h : d.quadStep e = 2) :
    (peQuad e d).pin e = { d.pin e with quad := d.quadNow e, z := true, n := false } := by
  rw [peQuad_skip h, pin_pinReport, Dev.pin_setPin_same]

theorem onlyPinWords_peQuad_skip {d : Dev} {e : Fin 8} (h : d.quadStep e = 2) :
    onlyPinWords d (peQuad e d) e [PE_QDEC_ERR.addr e 0, (Page.pe e).base + 0x10] := by
  rw [peQuad_skip h]
  exact onlyPinWords_trans ((onlyPin_setPin ..).words _) (onlyPinWords_pinReport _ rfl ..)

theorem fi_peQuad_skip {d : Dev} {e : Nat} (h : d.quadStep e = 2) :
    (peQuad e d).fi PE_QDEC_ERR e 0 = (d.fi PE_QDEC_ERR e 0 + 1) % 2 ^ 32 := by
  have haddr : PE_QDEC_ERR.addr e 0 ≠ (blkPage PE_IRQ_RAW_QDEC_ERR.blk e).base + 0x10 := by
    simp only [PE_QDEC_ERR, PE_IRQ_RAW_QDEC_ERR, Fld.addr, blkPage, Page.base, Page.blk, Page.inst, Blk.base, Blk.size,
      Fin.val_ofNat]
    omega
  rw [peQuad_skip h, fi_pinReport rfl rfl haddr, Dev.fi_congr (Dev.setPin_regs ..)]

theorem evq_peQuad_skip {d : Dev} {e : Nat} (h : d.quadStep e = 2) :
    ∃ x, (peQuad e d).evq = d.evq ++ [x] ∧ x.code = 0x051 := by
  rw [peQuad_skip h]
  exact evq_pinReport ..

theorem runs_peQdec_stall {e : Fin 8} {dly : Fin 16} {s : State} (h : s.dev.peReady e (.qdec true) dly = true)
    (hq : s.dev.quadNow e = (s.dev.pin e).quad) : runs (.peQdec e true dly) s (s.dev.peStall e peWAIT .qdec) :=
  runs_onDev rfl ((if_pos h).trans (if_pos ⟨rfl, hq⟩))

theorem runs_peQdec_step {e : Fin 8} {blk : Bool} {dly : Fin 16} {s : State}
    (h : s.dev.peReady e (.qdec blk) dly = true) (hq : s.dev.quadStep e ≠ 0) : runs (.peQdec e blk dly) s ((peQuad e s.dev).peDone e dly) :=
  runs_onDev rfl ((if_pos h).trans (if_neg fun ⟨_, hsame⟩ => quadNow_ne_of_quadStep hq hsame))

theorem runs_peQdecDone {e : Fin 8} {s : State} (h : (s.dev.pin e).stall = .qdec) (hq : s.dev.quadStep e ≠ 0) :
    runs (.peQdecDone e) s ((peQuad e s.dev).peDone e (s.dev.peDelay e)) :=
  runs_onDev rfl (if_pos ⟨h, quadNow_ne_of_quadStep hq⟩)

end Sys2Proof.Machine

open Sys2Proof Sys2Proof.Machine

/-- Settles O19: a case per clause, each from the rule of its instruction and from what completing or stalling does. -/
theorem pinControlFlowAndWaits : Obligations.PinControlFlowAndWaits := by
  refine ⟨fun e cond addr dly s h => ?jmp, fun e d => peCond_cases d e, fun e w dly s h hw => ?waitMet,
    fun e w dly s h hw => ?waitStall, fun e w met s h hmet => ?waitDone, fun e konst n dly s h => ?dly,
    fun e s h hdelay => ?dlyDone, fun e dly s h hq => ?qdecStall, fun e blk dly s h hq => ?forward,
    fun e s h hq => ?back, fun e s h hq => ?skip⟩
  case jmp =>
    refine ⟨_, runs_peJmp h, onlyPin_peJmp .., ?_⟩
    rw [pin_peJmp, PeSt.complete_eq]
    have hcond : (cond.val = 4) = (cond = 4) := by rw [Fin.ext_iff]; rfl
    refine ⟨by simp only [hcond], fun hz => ?_, fun hnz => ?_⟩
    · cases s.dev.peCond e cond <;> simp [hz]
    · simp [hnz]
  case waitMet =>
    refine ⟨_, runs_peWait_met h hw, onlyPin_mapPin .., ?_⟩
    simp [PeSt.complete_eq]
  case waitStall =>
    exact ⟨_, runs_peWait_stall h hw, onlyPin_peStall .., Dev.pin_peStall ..⟩
  case waitDone =>
    refine ⟨_, runs_peWaitDone h hmet, onlyPin_mapPin .., ?_⟩
    simp +contextual [PeSt.complete_eq]
  case dly =>
    by_cases hv : s.dev.dlyCount e konst n = 0
    · refine ⟨_, runs_peDly_zero h hv, onlyPin_mapPin .., ?_⟩
      rw [Dev.pin_peDone, PeSt.complete_eq]
      exact ⟨rfl, (if_pos hv).symm⟩
    · refine ⟨_, runs_peDly_stall h hv, onlyPin_peStall .., ?_⟩
      rw [Dev.pin_peStall]
      exact ⟨rfl, (if_neg hv).symm⟩
  case dlyDone =>
    refine ⟨_, runs_peDlyDone h, onlyPin_mapPin .., ?_⟩
    simp [PeSt.complete_eq, hdelay]
  case qdecStall =>
    exact ⟨_, runs_peQdec_stall h hq, onlyPin_peStall .., Dev.pin_peStall ..⟩
  case forward =>
    refine ⟨_, runs_peQdec_step h (ne_of_eq_of_ne hq (by decide)), ?_⟩
    rw [peQuad_forward hq]
    refine ⟨onlyPin_peDone (onlyPin_setPin ..) .., ?_⟩
    simp [PeSt.complete_eq]
  case back =>
    refine ⟨_, runs_peQdecDone h (ne_of_eq_of_ne hq (by decide)), ?_⟩
    rw [peQuad_back hq]
    refine ⟨onlyPin_peDone (onlyPin_setPin ..) .., ?_⟩
    simp [PeSt.complete_eq]
  case skip =>
    refine ⟨_, runs_peQdecDone h (ne_of_eq_of_ne hq (by decide)), ?_⟩
    have hdone := onlyPin_mapPin (peQuad e s.dev) e fun g => g.complete (s.dev.peDelay e)
    rw [Dev.pin_peDone, pin_peQuad_skip hq, PeSt.complete_eq]
    exact ⟨rfl, rfl, rfl, fi_peQuad_skip hq, evq_peQuad_skip hq,
      onlyPinWords_trans (onlyPinWords_peQuad_skip hq) (hdone.words _)⟩
end

section
/-! SUPPORT. Proofs about the operator key (R528): the one-time storage changes at KEY_PROG_DONE alone, and all that a
command other than EVR_CLEAR can tell of it is whether it holds a key. -/
namespace Sys2Proof.Machine

/-! ## What the register access unit sees of the key (R537): whether there is one -/

section
variable {v w : Vault} (h : v.key.isSome = w.key.isSome)
include h

/-- A write of PROG is judged on whether there is a key. -/
theorem keyProg_congr : keyProg v = keyProg w := by
  have hnone : (v.key = none) = (w.key = none) := by
    rw [← Option.not_isSome_iff_eq_none, h, Option.not_isSome_iff_eq_none]
  funext p x d
  simp only [keyProg, hnone]

/-- A read of KEY_STAT shows whether there is a key. -/
theorem secLive_congr : secLive v = secLive w := by
  funext d off
  simp only [secLive, h]

theorem writePage_congr : writePage v = writePage w := by
  funext port p off x y
  simp only [writePage, writeBlock, writeSec, keyProg_congr h]

theorem writeServed_congr : writeServed v = writeServed w := by
  funext port a x y
  simp only [writeServed, writePage_congr h]

theorem writeWord_congr : writeWord v = writeWord w := by
  funext port a x y
  simp only [writeWord, writeServed_congr h]

theorem writeWords_congr : writeWords v = writeWords w := by
  funext port next a ws x
  induction ws generalizing a x with
  | nil => rfl
  | cons u us ih => simp only [writeWords, writeWord_congr h, ih]

theorem readPage_congr (r : Recorder) : readPage r v = readPage r w := by
  funext port p off d
  simp only [readPage, liveWord, secLive_congr h]

theorem readWords_congr (r : Recorder) : readWords r v = readWords r w := by
  funext port next n a d
  induction n generalizing a d with
  | zero => rfl
  | succ n ih => simp only [readWords, readServed, readPage_congr h, ih]

theorem readPort_congr (r : Recorder) : readPort r v = readPort r w := by
  funext p n a d
  simp only [readPort, readWords_congr h]

/-! ## What loads a preset, starts firmware or serves the host goes through that unit -/

theorem loadWrites_congr : loadWrites v = loadWrites w := by
  funext im x
  simp only [loadWrites, writeServed_congr h]

theorem presetLoad_congr : presetLoad v = presetLoad w := by
  funext x
  simp only [presetLoad, loadGoes, loadWrites_congr h]

theorem bootPreset_congr : bootPreset v = bootPreset w := by
  funext x
  simp only [bootPreset, loadWrites_congr h]

theorem firmwareStart_congr : firmwareStart v = firmwareStart w := by
  funext x
  rw [firmwareStart, firmwareStart, bootPreset_congr h]

theorem hostWrite_congr : hostWrite v = hostWrite w := by
  funext hd pay x
  simp only [hostWrite, writeWords_congr h]

theorem hostRead_congr (r : Recorder) : hostRead r v = hostRead r w := by
  funext hd d
  simp only [hostRead, readWords_congr h]

end

/-! ## Commands that do not depend on the key's bytes -/

/-- An effect on device and recorder that reads the one-time storage and sees no more of it than whether it holds a
key. -/
def KeyBlind (f : Vault → Dev × Recorder → Dev × Recorder) : Prop :=
  ∀ v w : Vault, v.key.isSome = w.key.isSome → f v = f w

/-- A command with such an effect, which leaves the one-time storage as it is. -/
def RunsKeyBlind (F : State → Out) : Prop := ∃ f, KeyBlind f ∧ ∀ s, F s = onAccess f s

theorem runsKeyBlind_onAccess {f : Vault → Dev × Recorder → Dev × Recorder} (h : KeyBlind f) :
    RunsKeyBlind (onAccess f) := ⟨f, h, fun _ => rfl⟩

theorem runsKeyBlind_onDevR {f : Recorder → Vault → Dev → Dev}
    (h : ∀ v w : Vault, v.key.isSome = w.key.isSome → ∀ r, f r v = f r w) : RunsKeyBlind (onDevR f) :=
  ⟨fun v x => (f x.2 v x.1, x.2), fun v w hvw => funext fun x => congrArg (fun g => (g x.1, x.2)) (h v w hvw x.2),
    fun _ => rfl⟩

theorem runsKeyBlind_onRec (f : Dev × Recorder → Dev × Recorder) : RunsKeyBlind (onRec f) :=
  ⟨fun _ => f, fun _ _ _ => rfl, fun _ => rfl⟩

theorem runsKeyBlind_onDev (f : Dev → Dev) : RunsKeyBlind (onDev f) :=
  ⟨fun _ x => (f x.1, x.2), fun _ _ _ => rfl, fun _ => rfl⟩

theorem runsKeyBlind_onTap (f : TapSt → TapSt) : RunsKeyBlind (onTap f) := runsKeyBlind_onDev _

theorem runsKeyBlind_ite {p : Prop} [Decidable p] {F G : State → Out} (hF : RunsKeyBlind F) (hG : RunsKeyBlind G) :
    RunsKeyBlind fun s => if p then F s else G s := by
  by_cases hp : p
  · simpa only [hp, if_true] using hF
  · simpa only [hp, if_false] using hG

/-- No command but EVR_CLEAR depends on the key's bytes, and none but KEY_PROG_DONE changes the one-time storage. -/
theorem runsKeyBlind_exec {c : Instr} (hclear : c ≠ .evrClear) (hdone : c ≠ .keyProgDone) :
    RunsKeyBlind fun s => exec c s := by
  cases c
  case evrClear => exact absurd rfl hclear
  case keyProgDone => exact absurd rfl hdone
  all_goals dsimp only [exec]
  -- writes of registers, by a port, a preset or the host
  case regWrite | w1cWrite | portCtrlWrite =>
    exact runsKeyBlind_onAccess fun v w h => by simp only [writeWord_congr h]
  case spiCsAbort => exact runsKeyBlind_onAccess fun v w h => by simp only [writeWords_congr h]
  case presetLoad => exact runsKeyBlind_onAccess fun v w h => by simp only [presetLoad_congr h]
  case firmwareStart => exact runsKeyBlind_onAccess fun v w h => firmwareStart_congr h
  case hostRegWr => exact runsKeyBlind_onAccess fun v w h => by simp only [hostWrite_congr h]
  case keyProg => exact runsKeyBlind_onDevR fun v w h _ => by simp only [keyProg_congr h]
  -- reads of registers
  case rcRead => exact runsKeyBlind_onDevR fun v w h _ => by simp only [readPort_congr h]
  case hostRegRd => exact runsKeyBlind_onDevR fun v w h _ => by simp only [hostRead_congr h]
  -- transactions that read or write
  case spiTransaction =>
    exact runsKeyBlind_ite (runsKeyBlind_onDevR fun v w h _ => by simp only [readPort_congr h])
      (runsKeyBlind_onAccess fun v w h => by simp only [writeWords_congr h])
  case i2cTransaction =>
    dsimp only [execI2cTransaction]
    exact runsKeyBlind_ite (runsKeyBlind_onDevR fun v w h _ => by simp only [readPort_congr h])
      (runsKeyBlind_onAccess fun v w h => by simp only [writeWords_congr h])
  -- changes of device and recorder that do not read the one-time storage
  case evrRead | evrFreeze | evrThaw | evrClearNonce | histTrigger | swTrig | peTrig | timebaseTick | vaonPowerOn
      | vaonLoss | resetNAssert | railPgTimeout | railPgLost | pmbusTransactionDone | shutdownRecordDone | cutoffTrip
      | pfailAccept | pfailFlushDone | eventAccept | evrDroppedRecord | evrImageSeal | evrPageProgram
      | evrFreezeExpire | nonceExpire | mramScanDone | fullReset =>
    exact runsKeyBlind_onRec _
  case pioEdge rd _ _ _ =>
    cases rd <;> dsimp only [execPioEdge]
    · exact runsKeyBlind_onRec _
    · exact runsKeyBlind_onDev _
  case tapReset | tapExtest | tapSamplePreload | tapClamp | tapHighz | tapBypass => exact runsKeyBlind_onTap _
  -- all other commands change the device alone
  all_goals exact runsKeyBlind_onDev _

/-! ## What a step does to the one-time storage -/

/-- Every command but KEY_PROG_DONE changes device and recorder alone. EVR_CLEAR, which reads the key, is one of them. -/
theorem exec_eq_onAccess_of_ne {c : Instr} (hc : c ≠ .keyProgDone) : ∃ f, ∀ s, exec c s = onAccess f s := by
  by_cases hclear : c = .evrClear
  · subst hclear
    exact ⟨fun v => mbxServeRec 0x0034 (· = 12) (evrClear v), fun _ => rfl⟩
  · obtain ⟨f, -, hf⟩ := runsKeyBlind_exec hclear hc
    exact ⟨f, hf⟩

/-- KEY_PROG_DONE where key words are being programmed: they become the key, unless there is one already. -/
theorem exec_keyProgDone_busy {s : State} {k : List Byte} (h : s.dev.boot.keyBusy = some k) : exec .keyProgDone s =
    .next { s with dev := keyDone s.dev, vault := { key := some (s.vault.key.getD k) } } := by
  simp only [exec, execKeyProgDone, h]

theorem exec_keyProgDone_idle {s : State} (h : s.dev.boot.keyBusy = none) : exec .keyProgDone s = .next s := by
  simp only [exec, execKeyProgDone, h]

/-- A command leaves the one-time storage as it is, or it is KEY_PROG_DONE and ends the programming of the key words. -/
theorem exec_vault {c : Instr} {s t : State} (h : exec c s = .next t) : t.vault = s.vault ∨
    ∃ k, c = .keyProgDone ∧ s.dev.boot.keyBusy = some k ∧ t.vault.key = some (s.vault.key.getD k) := by
  by_cases hc : c = .keyProgDone
  · subst hc
    cases hb : s.dev.boot.keyBusy with
    | none =>
      obtain rfl := Host.Outcome.next.inj ((exec_keyProgDone_idle hb).symm.trans h)
      exact .inl rfl
    | some k =>
      obtain rfl := Host.Outcome.next.inj ((exec_keyProgDone_busy hb).symm.trans h)
      exact .inr ⟨k, rfl, rfl, rfl⟩
  · obtain ⟨f, hf⟩ := exec_eq_onAccess_of_ne hc
    obtain ⟨u, hu, -, hv⟩ := onAccess_frame s f
    obtain rfl : u = t := Host.Outcome.next.inj (hu.symm.trans ((hf s).symm.trans h))
    exact .inl hv

/-- The same of a step, for the command at the front of the queue. -/
theorem step_vault {s t : State} (h : step s = .next t) : t.vault = s.vault ∨
    ∃ k rest, s.pending = .keyProgDone :: rest ∧ s.dev.boot.keyBusy = some k ∧
      t.vault.key = some (s.vault.key.getD k) := by
  unfold step at h
  split at h
  case h_1 => exact .inl (congrArg State.vault (Host.Outcome.next.inj h)).symm
  case h_2 c rest hp =>
    obtain hv | ⟨k, rfl, hb, hv⟩ := exec_vault h
    · exact .inl hv
    · exact .inr ⟨k, rest, hp, hb, hv⟩

/-- The key's bytes make no difference to a command but EVR_CLEAR. -/
theorem exec_two_keys {c : Instr} (hc : c ≠ .evrClear) (k k' : List Byte) (s : State) :
    ∃ d r,
      exec c { s with vault := { key := some k } } = .next { s with dev := d, evr := r, vault := { key := some k } } ∧
      exec c { s with vault := { key := some k' } } =
        .next { s with dev := d, evr := r, vault := { key := some k' } } := by
  by_cases hdone : c = .keyProgDone
  · subst hdone
    cases hb : s.dev.boot.keyBusy with
    | none => exact ⟨s.dev, s.evr, exec_keyProgDone_idle hb, exec_keyProgDone_idle hb⟩
    | some j => exact ⟨keyDone s.dev, s.evr, exec_keyProgDone_busy hb, exec_keyProgDone_busy hb⟩
  · obtain ⟨f, hblind, hf⟩ := runsKeyBlind_exec hc hdone
    have hsame : f { key := some k' } = f { key := some k } := hblind _ _ rfl
    refine ⟨(f { key := some k } (s.dev, s.evr)).1, (f { key := some k } (s.dev, s.evr)).2, hf _, (hf _).trans ?_⟩
    simp only [onAccess, onRec, hsame]

end Sys2Proof.Machine

open Sys2Proof Sys2Proof.Machine

/-- Settles O58: a step changes the one-time storage at KEY_PROG_DONE alone, which keeps a key that is there; and every
command but EVR_CLEAR sees of the key only whether there is one. -/
theorem operatorKeyStays : Obligations.OperatorKeyStays := by
  refine ⟨fun k s t hk h => ?stays, fun s t hk h hnew => ?getsIn, fun c k k' s hc => exec_two_keys hc k k' s⟩
  case stays =>
    rcases step_vault h with hv | ⟨j, _, _, _, hv⟩
    · rw [hv, hk]
    · rw [hv, hk, Option.getD_some]
  case getsIn =>
    rcases step_vault h with hv | ⟨k, rest, hp, hb, hv⟩
    · exact absurd (hv ▸ hk) hnew
    · exact ⟨k, rest, hp, hb, by rw [hv, hk, Option.getD_none]⟩
end

section
/-! SUPPORT. Proofs about a step of the whole machine: what it answers, and what it leaves of the queue. -/
namespace Sys2Proof.Machine

/-- Every command answers a next state and leaves the queue as it is. -/
theorem exec_answers (c : Instr) (s : State) : ∃ t, exec c s = .next t ∧ t.pending = s.pending := by
  by_cases hc : c = .keyProgDone
  · subst hc
    cases hb : s.dev.boot.keyBusy with
    | none => exact ⟨s, exec_keyProgDone_idle hb, rfl⟩
    | some k => exact ⟨_, exec_keyProgDone_busy hb, rfl⟩
  · obtain ⟨f, hf⟩ := exec_eq_onAccess_of_ne hc
    obtain ⟨t, ht, hp, -⟩ := onAccess_frame s f
    exact ⟨t, (hf s).trans ht, hp⟩

theorem step_of_pending_nil {s : State} (h : s.pending = []) : step s = .next s := by
  simp only [step, h]

theorem step_of_pending_cons {s : State} {c : Instr} {rest : List Instr} (h : s.pending = c :: rest) :
    step s = exec c { s with pending := rest } := by
  simp only [step, h]

end Sys2Proof.Machine

open Sys2Proof Sys2Proof.Machine

/-- Settles O56: the two cases of the queue. -/
theorem frontCommandRuns : Obligations.FrontCommandRuns :=
  ⟨fun _ _ _ h => step_of_pending_cons h, fun _ h => step_of_pending_nil h⟩

/-- Settles O57: every command is a lift that keeps the queue, and a step takes the front command away first. -/
theorem everyStepAnswers : Obligations.EveryStepAnswers := by
  refine ⟨exec_answers, fun s => ?_⟩
  cases hp : s.pending with
  | nil => exact ⟨s, step_of_pending_nil hp, hp⟩
  | cons c rest =>
    obtain ⟨t, ht, hq⟩ := exec_answers c { s with pending := rest }
    exact ⟨t, (step_of_pending_cons hp).trans ht, hq⟩
end

section
/-! SUPPORT. Proofs about the recorder's shape (R510, R518, R519, R522): each operation on buffer and log keeps it, and so
does every command. -/
namespace Sys2Proof.Machine

/-! ## The shape, image by image -/

/-- The records of an image have its severity and numbers below `n`. -/
def PageImg.within (n : Nat) (p : PageImg) : Prop := ∀ x ∈ p.recs, x.sev = p.sev ∧ x.seq < n

theorem shaped_iff (r : Recorder) : r.shaped ↔ SMap.wf noPage r.log = true ∧ r.images.length ≤ 1024 ∧
    (∀ p ∈ r.images, p.within r.nextSeq) ∧ ∀ q ∈ r.log, q.2.within r.nextSeq := by
  simp only [Recorder.shaped, PageImg.within, Recorder.logRecs, Recorder.bufRecs, List.mem_append, List.mem_flatMap]
  constructor
  · rintro ⟨hwf, hlen, hi, hl, hseq⟩
    exact ⟨hwf, hlen, fun p hp x hx => ⟨hi p hp x hx, hseq x (.inr ⟨p, hp, hx⟩)⟩,
      fun q hq x hx => ⟨hl q hq x hx, hseq x (.inl ⟨q, hq, hx⟩)⟩⟩
  · rintro ⟨hwf, hlen, hi, hl⟩
    refine ⟨hwf, hlen, fun p hp x hx => (hi p hp x hx).1, fun q hq x hx => (hl q hq x hx).1, ?_⟩
    rintro x (⟨q, hq, hx⟩ | ⟨p, hp, hx⟩)
    · exact (hl q hq x hx).2
    · exact (hi p hp x hx).2

theorem PageImg.within_mono {n m : Nat} {p : PageImg} (h : p.within n) (hnm : n ≤ m) : p.within m :=
  fun x hx => ⟨(h x hx).1, lt_of_lt_of_le (h x hx).2 hnm⟩

theorem PageImg.within_nil {n : Nat} {p : PageImg} (h : p.recs = []) : p.within n := fun x hx => by simp [h] at hx

theorem PageImg.within_getD {n k : Nat} {l : List PageImg} (h : ∀ p ∈ l, p.within n) : ((l[k]?).getD {}).within n := by
  cases hk : l[k]? with
  | none => exact PageImg.within_nil rfl
  | some p => exact h p (List.mem_of_getElem? hk)

/-- Buffer, log and numbering alone make the shape. -/
theorem shaped_congr {r q : Recorder} (h : r.shaped) (hi : q.images = r.images) (hl : q.log = r.log)
    (hn : q.nextSeq = r.nextSeq) : q.shaped := by
  rw [shaped_iff] at h ⊢
  rwa [hi, hl, hn]

/-- Numbers may be left out. -/
theorem shaped_nextSeq {r q : Recorder} (h : r.shaped) (hi : q.images = r.images) (hl : q.log = r.log)
    (hn : r.nextSeq ≤ q.nextSeq) : q.shaped := by
  rw [shaped_iff] at h ⊢
  obtain ⟨hwf, hlen, him, hlog⟩ := h
  rw [hi, hl]
  exact ⟨hwf, hlen, fun p hp => PageImg.within_mono (him p hp) hn, fun p hp => PageImg.within_mono (hlog p hp) hn⟩

/-- The buffer may be replaced by images that hold such records. -/
theorem shaped_images {r q : Recorder} (h : r.shaped) (hl : q.log = r.log) (hn : q.nextSeq = r.nextSeq)
    (hlen : q.images.length ≤ 1024) (hi : ∀ p ∈ q.images, p.within r.nextSeq) : q.shaped := by
  rw [shaped_iff] at h ⊢
  rw [hl, hn]
  exact ⟨h.1, hlen, hi, h.2.2.2⟩

/-- Images may be changed one by one, where the new records have severity and number of old ones. -/
theorem shaped_mapImages {r q : Recorder} (h : r.shaped) (f : PageImg → PageImg) (hq : q.images = r.images.map f)
    (hl : q.log = r.log) (hn : q.nextSeq = r.nextSeq)
    (hf : ∀ (p : PageImg) (x : Rec), x ∈ (f p).recs → ∃ y ∈ p.recs, x.sev = y.sev ∧ x.seq = y.seq)
    (hs : ∀ p, (f p).sev = p.sev) : q.shaped := by
  obtain ⟨-, hlen, hi, -⟩ := (shaped_iff r).mp h
  refine shaped_images h hl hn (by rw [hq, List.length_map]; exact hlen) fun p' hp' x hx => ?_
  obtain ⟨p, hp, rfl⟩ := List.mem_map.mp (hq ▸ hp')
  obtain ⟨y, hy, hsev, hseq⟩ := hf p x hx
  rw [hs, hsev, hseq]
  exact hi p hp y hy

/-- An entry of a sparse map after a write is the one written or an old one. -/
theorem SMap.mem_set {α : Type} [DecidableEq α] {d : Nat → α} {m : SMap α} {k : Nat} {v : α} {q : Nat × α}
    (h : q ∈ SMap.set d m k v) : q = (k, v) ∨ q ∈ m := by
  unfold SMap.set at h
  split at h
  · exact .inr (List.mem_filter.mp h).1
  · exact ((SMap.mem_insertAt ..).mp h).imp_right fun hq => (List.mem_filter.mp hq).1

/-- A page of the log may be programmed with such records. -/
theorem shaped_setPage {r q : Recorder} (h : r.shaped) (n : Nat) {p : PageImg} (hp : p.within r.nextSeq)
    (hl : q.log = SMap.set noPage r.log n p) (hi : q.images = r.images) (hn : q.nextSeq = r.nextSeq) : q.shaped := by
  rw [shaped_iff] at h ⊢
  obtain ⟨hwf, hlen, him, hlog⟩ := h
  rw [hl, hi, hn]
  refine ⟨SMap.wf_set _ _ _ _ hwf, hlen, him, fun e he => ?_⟩
  rcases SMap.mem_set he with rfl | he
  · exact hp
  · exact hlog e he

/-! ## Sealing and coalescing -/

theorem shaped_sealImage (sev : Nat) {r : Recorder} (h : r.shaped) : (sealImage sev r).shaped :=
  shaped_mapImages h _ rfl rfl rfl (fun p x hx => ⟨x, by split at hx <;> exact hx, rfl, rfl⟩)
    fun p => by split <;> rfl

theorem shaped_sealAll {r : Recorder} (h : r.shaped) : (sealAll r).shaped :=
  shaped_mapImages h _ rfl rfl rfl (fun _ x hx => ⟨x, hx, rfl, rfl⟩) fun _ => rfl

theorem shaped_coalesce (d : Dev) (seq : Nat) {r : Recorder} (h : r.shaped) : (coalesce d seq r).shaped := by
  refine shaped_mapImages h _ rfl rfl rfl (fun p x hx => ?_) fun _ => rfl
  obtain ⟨y, hy, rfl⟩ := List.mem_map.mp hx
  exact ⟨y, hy, by split <;> rfl, by split <;> rfl⟩

/-! ## Records enter the buffer (R510, R518, R519) -/

theorem length_setAt {α : Type} (l : List α) (n : Nat) (b : α) : (setAt l n b).length = l.length := by
  induction l generalizing n with
  | nil => rfl
  | cons a t ih => cases n <;> simp [setAt, ih]

theorem mem_setAt {α : Type} {l : List α} {n : Nat} {a b : α} (h : a ∈ setAt l n b) : a = b ∨ a ∈ l := by
  induction l generalizing n with
  | nil => exact .inr h
  | cons c t ih =>
    cases n with
    | zero => exact (List.mem_cons.mp h).imp_right (List.mem_cons_of_mem _)
    | succ n =>
      rcases List.mem_cons.mp h with rfl | h
      · exact .inr (List.mem_cons_self ..)
      · exact (ih h).imp_right (List.mem_cons_of_mem _)

/-- An open image of a severity has that severity. -/
theorem sev_of_openImage {l : List PageImg} {sev n : Nat} {p : PageImg} (h : openImage l sev = some n)
    (hp : l[n]? = some p) : p.sev = sev := by
  obtain ⟨hn, hsev, -⟩ := List.findIdx?_eq_some_iff_getElem.mp h
  obtain ⟨hn', rfl⟩ := List.getElem?_eq_some_iff.mp hp
  simp only [Bool.and_eq_true, decide_eq_true_eq] at hsev
  exact hsev.1

/-- A record of a number given already finds its place in the image of its severity, or in a new one. -/
theorem shaped_placeRec {x : Rec} {d : Dev} {r : Recorder} (h : r.shaped) (hx : x.seq < r.nextSeq) :
    (placeRec x (d, r)).2.shaped := by
  obtain ⟨-, hlen, hi, -⟩ := (shaped_iff r).mp h
  have hseal := shaped_sealImage x.sev h
  obtain ⟨-, hlen', hi', -⟩ := (shaped_iff _).mp hseal
  have hfresh : PageImg.within r.nextSeq { sev := x.sev, recs := [x] } := fun y hy => by
    obtain rfl := List.mem_singleton.mp hy
    exact ⟨rfl, hx⟩
  have happend : ∀ l : List PageImg, (∀ p ∈ l, p.within r.nextSeq) →
      ∀ p ∈ l ++ [{ sev := x.sev, recs := [x] }], p.within r.nextSeq := fun l hl p hp => by
    rcases List.mem_append.mp hp with hp | hp
    · exact hl p hp
    · exact List.mem_singleton.mp hp ▸ hfresh
  unfold placeRec
  dsimp only
  split
  · rename_i n hfits
    -- the open image takes the record
    split at hfits
    · rename_i m ho
      split at hfits
      · rename_i p hp
        split at hfits
        · obtain rfl := Option.some.inj hfits
          simp only [hp]
          refine shaped_images h rfl rfl (by rw [length_setAt]; exact hlen) fun q hq => ?_
          rcases mem_setAt hq with rfl | hq
          · intro y hy
            rcases List.mem_append.mp hy with hy | hy
            · exact hi p (List.mem_of_getElem? hp) y hy
            · obtain rfl := List.mem_singleton.mp hy
              exact ⟨(sev_of_openImage ho hp).symm, hx⟩
          · exact hi q hq
        · cases hfits
      · cases hfits
    · cases hfits
  · split
    · rename_i hroom
      exact shaped_images hseal rfl rfl (by simpa using hroom) (happend _ hi')
    · split
      · rename_i n hn
        -- a full buffer gives up an image for the new one
        obtain ⟨hlt, -⟩ := List.findIdx?_eq_some_iff_getElem.mp hn
        refine shaped_images hseal rfl rfl ?_ (happend _ fun p hp => hi' p (List.mem_of_mem_eraseIdx hp))
        simp only [List.length_append, List.length_eraseIdx, hlt, if_true, List.length_singleton]
        omega
      · exact hseal

theorem shaped_acceptRec (e : Ev) {d : Dev} {r : Recorder} (h : r.shaped) : (acceptRec e (d, r)).2.shaped :=
  shaped_placeRec (shaped_nextSeq h rfl rfl (Nat.le_succ _)) (Nat.lt_succ_self _)

theorem shaped_handleEvent (e : Ev) {d : Dev} {r : Recorder} (h : r.shaped) : (handleEvent e (d, r)).2.shaped := by
  unfold handleEvent
  dsimp only
  split
  · exact h
  split
  · exact shaped_coalesce _ _ (shaped_congr h rfl rfl rfl)
  split
  · exact shaped_acceptRec e h
  split
  · exact shaped_acceptRec e (shaped_congr h rfl rfl rfl)
  · exact shaped_congr h rfl rfl rfl

theorem shaped_acceptNext {d : Dev} {r : Recorder} (h : r.shaped) : (acceptNext (d, r)).2.shaped := by
  unfold acceptNext
  split
  · exact h
  · exact shaped_handleEvent _ h

theorem shaped_droppedRecord (src : Nat) {d : Dev} {r : Recorder} (h : r.shaped) : (droppedRecord src (d, r)).2.shaped := by
  unfold droppedRecord
  dsimp only
  split
  · exact h
  split
  · exact shaped_congr h rfl rfl rfl
  · exact shaped_acceptRec _ (shaped_congr h rfl rfl rfl)

/-! ## Images enter the log (R522, R530) -/

/-- An image of records that the recorder may hold is programmed. -/
theorem shaped_programImage {p : PageImg} {d : Dev} {r : Recorder} {y : Dev × Recorder} (h : r.shaped)
    (hp : p.within r.nextSeq) (hy : programImage p (d, r) = some y) : y.2.shaped := by
  obtain ⟨⟨n, ovr⟩, -, rfl⟩ := Option.map_eq_some_iff.mp hy
  exact shaped_setPage h n (p := { p with sealed := true }) hp rfl rfl rfl

theorem shaped_programAt (fail : Bool) (k : Nat) {d : Dev} {r : Recorder} (h : r.shaped) :
    (programAt fail k (d, r)).2.shaped := by
  obtain ⟨-, hlen, hi, -⟩ := (shaped_iff _).mp h
  have hpage (m : Nat) (p : PageImg) (hp : p.within r.nextSeq) :
      Recorder.shaped { r with log := SMap.set noPage r.log m p } := shaped_setPage h m hp rfl rfl rfl
  unfold programAt
  dsimp only
  split
  · exact h
  · rename_i m ovr _
    split
    · exact hpage m {} (PageImg.within_nil rfl)
    · exact shaped_images (hpage m { (r.images[k]?).getD {} with sealed := true } (PageImg.within_getD hi)) rfl rfl
        ((List.length_eraseIdx_le ..).trans hlen) fun p hp => hi p (List.mem_of_mem_eraseIdx hp)

theorem shaped_pageProgram (fail : Bool) {d : Dev} {r : Recorder} (h : r.shaped) : (pageProgram fail (d, r)).2.shaped := by
  unfold pageProgram
  dsimp only
  split
  · exact h
  split
  · exact h
  · exact shaped_programAt _ _ h

theorem shaped_flushAll (n : Nat) {d : Dev} {r : Recorder} (h : r.shaped) : (flushAll n (d, r)).2.shaped := by
  induction n generalizing d r with
  | zero => exact h
  | succ n ih =>
    unfold flushAll
    split
    · exact h
    · exact ih (shaped_programAt _ _ h)

/-! ## Records leave (R525 to R527, R530) -/

theorem SMap.sorted_mapSnd {α β : Type} (f : α → β) (m : SMap α) (h : m.sorted = true) :
    SMap.sorted (m.map fun p => (p.1, f p.2)) = true := by
  induction m with
  | nil => rfl
  | cons p t ih =>
    obtain ⟨k, v⟩ := p
    simp only [SMap.sorted, Bool.and_eq_true, List.all_eq_true, decide_eq_true_eq] at h
    simp only [List.map_cons, SMap.sorted, Bool.and_eq_true, List.all_eq_true, decide_eq_true_eq, List.mem_map]
    refine ⟨?_, ih h.2⟩
    rintro _ ⟨q, hq, rfl⟩
    exact h.1 q hq

theorem PageImg.within_clear {n : Nat} {p : PageImg} (h : p.within n) (first last : Nat) :
    (p.clear first last).within n := fun x hx => h x (List.mem_filter.mp hx).1

theorem shaped_clearRange (first last : Nat) {r : Recorder} (h : r.shaped) : (clearRange first last r).shaped := by
  obtain ⟨hwf, hlen, hi, hl⟩ := (shaped_iff r).mp h
  simp only [SMap.wf, Bool.and_eq_true] at hwf
  refine (shaped_iff _).mpr ⟨?_, ?_, fun p hp => ?_, fun q hq => ?_⟩
  · simp only [clearRange, SMap.wf, Bool.and_eq_true, List.all_eq_true, decide_eq_true_eq]
    refine ⟨SMap.sorted_filter _ _ (SMap.sorted_mapSnd _ _ hwf.1), fun q hq hnone => ?_⟩
    have hne := (List.mem_filter.mp hq).2
    simp [hnone, noPage] at hne
  · exact (List.length_filter_le ..).trans ((List.length_map ..).le.trans hlen)
  · obtain ⟨p, hold, rfl⟩ := List.mem_map.mp (List.mem_filter.mp hp).1
    exact PageImg.within_clear (hi p hold) first last
  · obtain ⟨q, hold, rfl⟩ := List.mem_map.mp (List.mem_filter.mp hq).1
    exact PageImg.within_clear (hl q hold) first last

theorem shaped_evrClear (v : Vault) {d : Dev} {r : Recorder} (h : r.shaped) : (evrClear v (d, r)).2.shaped := by
  have hnonce : Recorder.shaped { r with nonce := none } := shaped_congr h rfl rfl rfl
  unfold evrClear
  dsimp only
  split
  · split
    · exact hnonce
    split
    · exact hnonce
    split
    · exact hnonce
    · exact shaped_acceptRec _ (shaped_clearRange _ _ hnonce)
  · exact hnonce

/-- A page of the log may be lost. -/
theorem shaped_erasePage {r q : Recorder} (h : r.shaped) (n : Nat) (hl : q.log = SMap.erase r.log n)
    (hi : q.images = r.images) (hn : q.nextSeq = r.nextSeq) : q.shaped := by
  rw [shaped_iff] at h ⊢
  obtain ⟨hwf, hlen, him, hlog⟩ := h
  simp only [SMap.wf, Bool.and_eq_true, List.all_eq_true] at hwf
  rw [hl, hi, hn]
  refine ⟨?_, hlen, him, fun p hp => hlog p (List.mem_filter.mp hp).1⟩
  simp only [SMap.wf, Bool.and_eq_true, List.all_eq_true]
  exact ⟨SMap.sorted_filter _ _ hwf.1, fun p hp => hwf.2 p (List.mem_filter.mp hp).1⟩

theorem shaped_tornPage {d : Dev} {r : Recorder} (h : r.shaped) (n : Nat) : (tornPage (d, r) n).2.shaped := by
  unfold tornPage
  dsimp only
  split
  · exact h
  split
  · exact h
  split
  · exact h
  · exact shaped_erasePage h (n - 65536) rfl rfl rfl

/-! ## Numbering resumes from the log (R521) -/

/-- No record of the log has a number above the highest. -/
theorem seq_le_highestLogSeq {r : Recorder} {x : Rec} (h : x ∈ r.logRecs) : ∃ q, r.highestLogSeq = some q ∧ x.seq ≤ q := by
  have key : ∀ (l : List Rec) (m : Option Nat), (∀ y ∈ l, ∃ q, l.foldl (fun m x => match m with
      | none => some x.seq | some y => some (max x.seq y)) m = some q ∧ y.seq ≤ q) ∧
      ∀ k, m = some k → ∃ q, l.foldl (fun m x => match m with
        | none => some x.seq | some y => some (max x.seq y)) m = some q ∧ k ≤ q := by
    intro l
    induction l with
    | nil => exact fun m => ⟨by simp, fun k hk => ⟨k, hk, le_rfl⟩⟩
    | cons a t ih =>
      intro m
      obtain ⟨hmem, hstart⟩ := ih (match m with | none => some a.seq | some y => some (max a.seq y))
      have hfirst : ∃ k, (match m with | none => some a.seq | some y => some (max a.seq y)) = some k ∧ a.seq ≤ k := by
        cases m with
        | none => exact ⟨_, rfl, le_rfl⟩
        | some y => exact ⟨_, rfl, le_max_left ..⟩
      obtain ⟨k, hk, hak⟩ := hfirst
      obtain ⟨q, hq, hkq⟩ := hstart k hk
      refine ⟨fun y hy => ?_, fun k' hk' => ?_⟩
      · rcases List.mem_cons.mp hy with rfl | hy
        · exact ⟨q, hq, hak.trans hkq⟩
        · exact hmem y hy
      · subst hk'
        obtain ⟨q, hq, hle⟩ := hstart _ rfl
        exact ⟨q, hq, (le_max_right ..).trans hle⟩
  exact (key r.logRecs none).1 x h

/-- The number from which numbering resumes. -/
def resumeSeq (q : Option Nat) : Nat := match q with | some q => q + 65536 | none => 0

/-- With an empty buffer, numbering may resume above the log. -/
theorem shaped_resume {r q : Recorder} (h : r.shaped) (hl : q.log = r.log) (hi : ∀ p ∈ q.images, p.recs = [])
    (hlen : q.images.length ≤ 1024) (hn : q.nextSeq = resumeSeq r.highestLogSeq) : q.shaped := by
  obtain ⟨hwf, -, -, hlog⟩ := (shaped_iff r).mp h
  refine (shaped_iff q).mpr ⟨hl ▸ hwf, hlen, fun p hp => PageImg.within_nil (hi p hp), fun p hp x hx => ?_⟩
  rw [hl] at hp
  obtain ⟨k, hk, hle⟩ := seq_le_highestLogSeq (List.mem_flatMap.mpr ⟨p, hp, hx⟩ : x ∈ r.logRecs)
  rw [hn, hk]
  exact ⟨(hlog p hp x hx).1, lt_of_le_of_lt hle (Nat.lt_add_of_pos_right (by decide))⟩

theorem shaped_powerOn (resetN : Bool) {d : Dev} {r : Recorder} (h : r.shaped) : (powerOn resetN (d, r)).2.shaped := by
  unfold powerOn
  dsimp only
  split
  · exact h
  · exact shaped_resume h rfl (by simp) (by simp) rfl

theorem shaped_renumber (torn : List Nat) {d : Dev} {r : Recorder} (h : r.shaped) : (renumber torn (d, r)).2.shaped := by
  unfold renumber
  dsimp only
  split
  · exact h
  split
  · rename_i hbuf
    refine shaped_resume h rfl (fun p hp => ?_) ((shaped_iff _).mp h).2.1 rfl
    exact List.flatMap_eq_nil_iff.mp (List.isEmpty_iff.mp hbuf.1) p hp
  · exact h

/-! ## Resets, shutdowns and power failure -/

theorem shaped_resetBoth {d : Dev} {r : Recorder} (h : r.shaped) : (resetBoth (d, r)).2.shaped := shaped_congr h rfl rfl rfl

theorem shaped_vaonLoss {d : Dev} {r : Recorder} (h : r.shaped) : (vaonLoss (d, r)).2.shaped := by
  unfold vaonLoss
  dsimp only
  split
  · exact h
  · exact shaped_images h rfl rfl (Nat.zero_le _) (by simp)

theorem shaped_railFault (rail cause : Nat) {d : Dev} {r : Recorder} (h : r.shaped) : (railFault rail cause (d, r)).2.shaped :=
  shaped_congr h rfl rfl rfl

theorem shaped_pgTimeout {d : Dev} {r : Recorder} (h : r.shaped) : (pgTimeout (d, r)).2.shaped := by
  unfold pgTimeout
  dsimp only
  split
  · split
    · exact shaped_railFault _ _ h
    · exact h
  · exact h

theorem shaped_pgLost (i : Nat) {d : Dev} {r : Recorder} (h : r.shaped) : (pgLost i (d, r)).2.shaped := by
  unfold pgLost
  dsimp only
  split
  · exact shaped_railFault _ _ h
  · exact h

theorem shaped_resetAssert {d : Dev} {r : Recorder} (h : r.shaped) : (resetAssert (d, r)).2.shaped := by
  unfold resetAssert
  dsimp only
  split
  · exact h
  split
  · exact h
  split
  · exact shaped_resetBoth h
  · exact h

theorem shaped_fullReset {d : Dev} {r : Recorder} (h : r.shaped) : (fullReset (d, r)).2.shaped := by
  unfold fullReset
  split
  · exact h
  · exact shaped_resetBoth h

theorem shaped_shutdownRecord {d : Dev} {r : Recorder} (h : r.shaped) : (shutdownRecord (d, r)).2.shaped := by
  have hnext : Recorder.shaped { r with nextSeq := r.nextSeq + 1 } := shaped_nextSeq h rfl rfl (Nat.le_succ _)
  unfold shutdownRecord
  dsimp only
  split
  · rename_i e q hp
    refine shaped_programImage (y := (e, q)) hnext (fun y hy => ?_) hp
    obtain rfl := List.mem_singleton.mp hy
    exact ⟨rfl, Nat.lt_succ_self _⟩
  · dsimp only
    exact shaped_sealImage _ (shaped_placeRec (shaped_sealImage _ hnext) (Nat.lt_succ_self _))

theorem shaped_shutdownDone {d : Dev} {r : Recorder} (h : r.shaped) : (shutdownDone (d, r)).2.shaped := by
  unfold shutdownDone
  dsimp only
  split
  · split
    · exact shaped_resetBoth (shaped_shutdownRecord h)
    · exact shaped_resetBoth h
  · exact h

theorem shaped_cutoff (pix : Bool) (temp : Nat) {d : Dev} {r : Recorder} (h : r.shaped) : (cutoff pix temp (d, r)).2.shaped := by
  unfold cutoff
  dsimp only
  split
  · exact h
  split
  · exact h
  split
  · exact h
  · exact shaped_resetBoth h

theorem shaped_drainEvents (n : Nat) {d : Dev} {r : Recorder} (h : r.shaped) : (drainEvents n (d, r)).2.shaped := by
  induction n generalizing d r with
  | zero => exact h
  | succ n ih => exact ih (shaped_acceptNext h)

theorem shaped_pfailAccept {d : Dev} {r : Recorder} (h : r.shaped) : (pfailAccept (d, r)).2.shaped := by
  unfold pfailAccept
  dsimp only
  split
  · exact h
  · dsimp only
    exact shaped_resetBoth (shaped_acceptRec _ (shaped_drainEvents _ (shaped_congr h rfl rfl rfl)))

theorem shaped_flushStep (fail : Bool) {d : Dev} {r : Recorder} (h : r.shaped) : (flushStep fail (d, r)).2.shaped := by
  unfold flushStep
  dsimp only
  split
  · exact shaped_shutdownRecord h
  split
  · exact shaped_programAt _ _ (shaped_sealAll h)
  · exact shaped_sealAll h

theorem shaped_flushRest (n : Nat) {d : Dev} {r : Recorder} (h : r.shaped) : (flushRest n (d, r)).2.shaped := by
  induction n generalizing d r with
  | zero => exact h
  | succ n ih => exact ih (shaped_flushStep _ h)

theorem shaped_pfailFlush {d : Dev} {r : Recorder} (h : r.shaped) : (pfailFlush (d, r)).2.shaped := by
  unfold pfailFlush
  split
  · exact shaped_flushRest _ h
  · exact h

theorem shaped_tornPages (torn : List Nat) {d : Dev} {r : Recorder} (h : r.shaped) :
    (torn.foldl tornPage (d, r)).2.shaped := by
  induction torn generalizing d r with
  | nil => exact h
  | cons n torn ih => exact ih (shaped_tornPage h n)

theorem shaped_bootFlush {d : Dev} {r : Recorder} (h : r.shaped) : (bootFlush (d, r)).2.shaped := by
  unfold bootFlush
  split
  · exact h
  · exact shaped_flushAll _ (shaped_sealAll h)

theorem shaped_scanDone (torn : List Nat) {d : Dev} {r : Recorder} (h : r.shaped) : (scanDone torn (d, r)).2.shaped := by
  unfold scanDone
  split
  · exact h
  · exact shaped_bootFlush (shaped_renumber torn (shaped_tornPages torn h))

/-! ## Triggers of the history (R383, R384) -/

theorem shaped_acceptAll (n : Nat) {d : Dev} {r : Recorder} (h : r.shaped) : (acceptAll n (d, r)).2.shaped := by
  induction n generalizing d r with
  | zero => exact h
  | succ n ih => exact ih (shaped_acceptNext h)

theorem shaped_emitSeq (code : Nat) (p : Page) (pay : List Byte) {d : Dev} {r : Recorder} (h : r.shaped) :
    (emitSeq code p pay (d, r)).2.2.shaped := by
  unfold emitSeq
  dsimp only
  split <;> exact shaped_acceptAll _ h

theorem shaped_histTrigger (t post cause : Nat) {d : Dev} {r : Recorder} (h : r.shaped) :
    (histTrigger t post cause (d, r)).2.2.shaped := shaped_emitSeq _ _ _ h

theorem shaped_histTriggerCmd {d : Dev} {r : Recorder} (h : r.shaped) : (histTriggerCmd (d, r)).2.shaped := by
  unfold histTriggerCmd
  dsimp only
  split
  · exact h
  · dsimp only
    exact shaped_histTrigger _ _ _ h

theorem shaped_histLine (line trt : Nat) {d : Dev} {r : Recorder} (h : r.shaped) : (histLine line trt (d, r)).2.shaped := by
  unfold histLine
  dsimp only
  split
  · exact shaped_histTrigger _ _ _ h
  · exact h

theorem shaped_linePulse (line now : Nat) {d : Dev} {r : Recorder} (h : r.shaped) : (linePulse line now (d, r)).2.shaped := by
  unfold linePulse
  dsimp only
  split
  · exact h
  split
  · split
    · exact h
    · exact shaped_histLine line _ h
  · rw [if_neg Bool.false_ne_true]
    exact shaped_histLine line _ h

theorem shaped_pulseLines (f : Dev → Nat → Bool) (now : Nat) {x : Dev × Recorder} (h : x.2.shaped) :
    (pulseLines f now x).2.shaped := by
  unfold pulseLines
  generalize (List.range 8).filter (f x.1) = l
  induction l generalizing x with
  | nil => exact h
  | cons k l ih => exact ih (shaped_linePulse k now h)

theorem shaped_pioLines (pin : Nat) (lvl : Bool) (now : Nat) {d : Dev} {r : Recorder} (h : r.shaped) :
    (pioLines pin lvl now (d, r)).2.shaped := by
  unfold pioLines
  extract_lets d' e
  split
  · exact h
  split
  · exact shaped_pulseLines _ _ h
  · exact h

theorem shaped_peTrig (e now dly : Nat) {d : Dev} {r : Recorder} (h : r.shaped) : (peTrig e now dly (d, r)).2.shaped := by
  unfold peTrig
  split
  · dsimp only
    exact shaped_pulseLines _ _ (shaped_pulseLines _ _ h)
  · exact h

theorem shaped_alignedPps {d : Dev} {r : Recorder} (h : r.shaped) : (alignedPps (d, r)).2.shaped := by
  unfold alignedPps
  dsimp only
  exact shaped_pulseLines _ _ h

/-- The body of `timebaseTick` over any tick, PPS and further work: the recorder is the PPS's or as it was. -/
theorem tick_keeps_recorder (P : Recorder → Prop) (tick : Dev → Dev × Bool) (atPps : Dev × Recorder → Dev × Recorder)
    (work : Dev → Dev) (x : Dev × Recorder) (hpps : ∀ d, P (atPps (d, x.2)).2) (hx : P x.2) :
    P ((fun x : Dev × Recorder =>
      let (d, pps) := tick x.1
      let x := if pps then atPps (d, x.2) else (d, x.2)
      ((work x.1, x.2) : Dev × Recorder)) x).2 := by
  dsimp only
  rcases tick x.1 with ⟨e, pps⟩
  dsimp only
  split
  · exact hpps _
  · exact hx

theorem shaped_timebaseTick {d : Dev} {r : Recorder} (h : r.shaped) : (timebaseTick (d, r)).2.shaped := by
  have hdef : timebaseTick = fun x =>
      let (d, pps) := tickTime x.1
      let x := if pps then alignedPps (d, x.2) else (d, x.2)
      (tickWork x.1, x.2) := rfl
  exact hdef ▸ tick_keeps_recorder Recorder.shaped tickTime alignedPps tickWork (d, r) (fun _ => shaped_alignedPps h) h

theorem shaped_pmbDone (ok : Bool) (data : Nat) {d : Dev} {r : Recorder} (h : r.shaped) : (pmbDone ok data (d, r)).2.shaped := by
  unfold pmbDone
  dsimp only
  split
  · exact h
  split
  · exact shaped_railFault _ _ h
  · exact h

/-! ## Writes of registers -/

theorem shaped_gateWriteRec {p : Port} {f : Dev × Recorder → Dev × Recorder}
    (hf : ∀ (d : Dev) (r : Recorder), r.shaped → (f (d, r)).2.shaped) {d : Dev} {r : Recorder} (h : r.shaped) :
    (gateWriteRec p f (d, r)).2.shaped := by
  unfold gateWriteRec
  split
  · exact h
  split
  · exact hf d r h
  · exact h

theorem shaped_mbxServeRec {opc : Nat} {lenOk : Nat → Bool} {f : Dev × Recorder → Dev × Recorder}
    (hf : ∀ (d : Dev) (r : Recorder), r.shaped → (f (d, r)).2.shaped) {d : Dev} {r : Recorder} (h : r.shaped) :
    (mbxServeRec opc lenOk f (d, r)).2.shaped := by
  unfold mbxServeRec
  split
  · split
    · exact h
    · exact hf _ r h
  · exact h

theorem shaped_writeReset (port : Port) (v : Word) {d : Dev} {r : Recorder} (h : r.shaped) :
    (writeReset port v (d, r)).2.shaped := by
  unfold writeReset
  split
  · exact h
  split
  · exact shaped_fullReset h
  · exact h

theorem shaped_writePage (vt : Vault) (port : Port) (p : Page) (off : Nat) (v : Word) {d : Dev} {r : Recorder}
    (h : r.shaped) : (writePage vt port p off v (d, r)).2.shaped := by
  unfold writePage
  split
  · exact h
  split
  · exact h
  split
  · exact h
  split
  · exact shaped_writeReset _ _ h
  split
  · exact shaped_pulseLines _ _ h
  · exact h

theorem shaped_writeServed (vt : Vault) (port : Port) (a : Nat) (v : Word) {d : Dev} {r : Recorder} (h : r.shaped) :
    (writeServed vt port a v (d, r)).2.shaped := by
  unfold writeServed
  split
  · exact shaped_writePage _ _ _ _ _ h
  · exact h

theorem shaped_writeWord (vt : Vault) (port : Port) (a : Nat) (v : Word) {d : Dev} {r : Recorder} (h : r.shaped) :
    (writeWord vt port a v (d, r)).2.shaped := shaped_gateWriteRec (fun _ _ hx => shaped_writeServed _ _ _ _ hx) h

theorem shaped_writeWords (vt : Vault) (port : Port) (next : Nat → Nat) (a : Nat) (ws : List Word) {d : Dev} {r : Recorder}
    (h : r.shaped) : (writeWords vt port next a ws (d, r)).1.2.shaped := by
  induction ws generalizing a d r with
  | nil => exact h
  | cons w ws ih =>
    unfold writeWords
    split
    · exact shaped_writeWord _ _ _ _ h
    · exact ih _ (shaped_writeWord _ _ _ _ h)

theorem shaped_hostWrite (vt : Vault) (hd : HostHdr) (pay : List Byte) {d : Dev} {r : Recorder} (h : r.shaped) :
    (hostWrite vt hd pay (d, r)).2.shaped := by
  unfold hostWrite
  dsimp only
  split
  · exact h
  split
  · exact h
  split
  · exact shaped_writeWords _ _ _ _ _ h
  · exact shaped_writeWords _ _ _ _ _ h

/-! ## Presets and the start of firmware -/

theorem shaped_loadWrites (vt : Vault) (im : List (Nat × Word)) {d : Dev} {r : Recorder} (h : r.shaped) :
    (loadWrites vt im (d, r)).2.shaped := by
  unfold loadWrites
  dsimp only
  generalize im.filter (fun e => !writtenLast e) ++ im.filter writtenLast = l
  induction l generalizing d r with
  | nil => exact h
  | cons e l ih => exact ih (shaped_writeServed vt .fw e.1 e.2 h)

theorem shaped_loadGoes (vt : Vault) (im : List (Nat × Word)) {d : Dev} {r : Recorder} (h : r.shaped) :
    (loadGoes vt im (d, r)).2.shaped := by
  unfold loadGoes
  split
  · exact h
  split
  · split <;> exact h
  split
  · exact shaped_loadWrites vt im h
  · exact h

theorem shaped_presetLoad (vt : Vault) {d : Dev} {r : Recorder} (h : r.shaped) : (presetLoad vt (d, r)).2.shaped := by
  unfold presetLoad
  dsimp only
  split
  · exact shaped_loadGoes vt _ h
  split
  · exact h
  split
  · exact h
  · exact shaped_loadGoes vt _ h

theorem shaped_bootPreset (vt : Vault) {x : Dev × Recorder} (h : x.2.shaped) : (bootPreset vt x).1.2.shaped := by
  obtain ⟨d, r⟩ := x
  replace h : r.shaped := h
  unfold bootPreset
  dsimp only
  split
  · exact h
  split
  · exact h
  split
  · exact h
  split
  · split <;> exact shaped_loadWrites vt _ h
  · exact h

theorem shaped_inferShutdown {x : Dev × Recorder} (h : x.2.shaped) : (inferShutdown x).2.shaped := by
  obtain ⟨d, r⟩ := x
  replace h : r.shaped := h
  unfold inferShutdown
  dsimp only
  split <;> exact h

theorem shaped_inferLost {x : Dev × Recorder} (h : x.2.shaped) : (inferLost x).2.shaped := by
  obtain ⟨d, r⟩ := x
  replace h : r.shaped := h
  unfold inferLost
  dsimp only
  split <;> exact h

/-- The body of `firmwareStart` over any inference and preset: the recorder is the preset's or as it was. -/
theorem start_keeps_recorder (P : Recorder → Prop) (lost shut : Dev × Recorder → Dev × Recorder)
    (preset : Dev × Recorder → (Dev × Recorder) × Bool) (x : Dev × Recorder) (hx : P x.2)
    (hpreset : ∀ d, P (preset (d, (lost (shut x)).2)).1.2) :
    P ((fun x : Dev × Recorder =>
      let b := x.1.boot
      if b.run ≠ .rom ∨ b.verified = false ∨ b.restart.isSome then x
      else
        let x := lost (shut x)
        let d := bootCfgLoad (fwLoads x.1)
        let d := if d.aon.pfailSeen then (d.raise PWR_IRQ_RAW_PFAIL_SEEN).setAon { d.aon with pfailSeen := false } else d
        let (x, loaded) := preset (d, x.2)
        let d := x.1.setF SYS_BOOT_STAT_BOOT_MS ((x.1.cyc - b.onAt) / 750000)
        let d := fwRuns d
        ((if loaded ∧ d.nvm.bootAutostart then aryStart .fw 1#32 d else d, x.2) : Dev × Recorder)) x).2 := by
  beta_reduce
  extract_lets b y e a e'
  split
  · exact hx
  · have h := hpreset e'
    change P (preset (e', y.2)).1.2 at h
    revert h
    rcases preset (e', y.2) with ⟨z, loaded⟩
    exact id

theorem shaped_firmwareStart (vt : Vault) {d : Dev} {r : Recorder} (h : r.shaped) : (firmwareStart vt (d, r)).2.shaped := by
  have hinfer : (inferLost (inferShutdown (d, r))).2.shaped := shaped_inferLost (shaped_inferShutdown (x := (d, r)) h)
  have hdef : firmwareStart = fun vt x =>
      let b := x.1.boot
      if b.run ≠ .rom ∨ b.verified = false ∨ b.restart.isSome then x
      else
        let x := inferLost (inferShutdown x)
        let d := bootCfgLoad (fwLoads x.1)
        let d := if d.aon.pfailSeen then (d.raise PWR_IRQ_RAW_PFAIL_SEEN).setAon { d.aon with pfailSeen := false } else d
        let (x, loaded) := bootPreset vt (d, x.2)
        let d := x.1.setF SYS_BOOT_STAT_BOOT_MS ((x.1.cyc - b.onAt) / 750000)
        let d := fwRuns d
        (if loaded ∧ d.nvm.bootAutostart then aryStart .fw 1#32 d else d, x.2) := rfl
  exact hdef ▸ start_keeps_recorder Recorder.shaped inferLost inferShutdown (bootPreset vt) (d, r) h
    fun _ => shaped_bootPreset vt hinfer

/-! ## Commands -/

/-- A command that keeps the recorder's shape. -/
def KeepsShape (F : State → Out) : Prop := ∀ s t : State, s.evr.shaped → F s = .next t → t.evr.shaped

theorem keepsShape_onDev (f : Dev → Dev) : KeepsShape (onDev f) := fun _ _ hs h => Host.Outcome.next.inj h ▸ hs

theorem keepsShape_onTap (f : TapSt → TapSt) : KeepsShape (onTap f) := keepsShape_onDev _

theorem keepsShape_onDevR (f : Recorder → Vault → Dev → Dev) : KeepsShape (onDevR f) :=
  fun _ _ hs h => Host.Outcome.next.inj h ▸ hs

theorem keepsShape_onAccess {f : Vault → Dev × Recorder → Dev × Recorder}
    (hf : ∀ (v : Vault) (d : Dev) (r : Recorder), r.shaped → (f v (d, r)).2.shaped) : KeepsShape (onAccess f) :=
  fun s _ hs h => Host.Outcome.next.inj h ▸ hf s.vault s.dev s.evr hs

theorem keepsShape_onRec {f : Dev × Recorder → Dev × Recorder}
    (hf : ∀ (d : Dev) (r : Recorder), r.shaped → (f (d, r)).2.shaped) : KeepsShape (onRec f) :=
  fun s _ hs h => Host.Outcome.next.inj h ▸ hf s.dev s.evr hs

theorem keepsShape_ite {p : Prop} [Decidable p] {F G : State → Out} (hF : KeepsShape F) (hG : KeepsShape G) :
    KeepsShape fun s => if p then F s else G s := by
  by_cases hp : p
  · simpa only [hp, if_true] using hF
  · simpa only [hp, if_false] using hG

/-- EVR_CLEAR reads the one-time storage, and serves the mailbox as the others do. -/
theorem keepsShape_evrClear : KeepsShape fun s => exec .evrClear s :=
  fun s _ hs h => Host.Outcome.next.inj h ▸ shaped_mbxServeRec (fun _ _ hx => shaped_evrClear s.vault hx) hs

theorem keepsShape_keyProgDone : KeepsShape fun s => exec .keyProgDone s := by
  intro s t hs h
  dsimp only at h
  cases hb : s.dev.boot.keyBusy with
  | none => exact Host.Outcome.next.inj ((exec_keyProgDone_idle hb).symm.trans h) ▸ hs
  | some k => exact Host.Outcome.next.inj ((exec_keyProgDone_busy hb).symm.trans h) ▸ hs

theorem keepsShape_exec (c : Instr) : KeepsShape fun s => exec c s := by
  cases c
  case evrClear => exact keepsShape_evrClear
  case keyProgDone => exact keepsShape_keyProgDone
  all_goals dsimp only [exec]
  -- writes of registers, by a port, a preset or the host
  case regWrite | w1cWrite | portCtrlWrite => exact keepsShape_onAccess fun _ _ _ hx => shaped_writeWord _ _ _ _ hx
  case spiCsAbort =>
    refine keepsShape_onAccess fun v d r hx => ?_
    dsimp only
    split <;> exact shaped_writeWords v _ _ _ _ hx
  case presetLoad =>
    exact keepsShape_onAccess fun v _ _ hx => shaped_mbxServeRec (fun _ _ hy => shaped_presetLoad v hy) hx
  case firmwareStart => exact keepsShape_onAccess fun v _ _ hx => shaped_firmwareStart v hx
  case hostRegWr =>
    refine keepsShape_onAccess fun v d r hx => ?_
    split
    · exact hx
    split
    · exact hx
    split
    · exact shaped_hostWrite v _ _ hx
    · exact hx
  case fullReset => exact keepsShape_onRec fun _ _ hx => shaped_gateWriteRec (fun _ _ hy => shaped_fullReset hy) hx
  -- transactions that read or write
  case spiTransaction =>
    exact keepsShape_ite (keepsShape_onDevR _) (keepsShape_onAccess fun v _ _ hx => shaped_writeWords v _ _ _ _ hx)
  case i2cTransaction =>
    refine keepsShape_ite (keepsShape_onDevR _) (keepsShape_onAccess fun v d r hx => ?_)
    dsimp only
    split
    · exact shaped_writeWords v _ _ _ _ hx
    · exact hx
  -- mailbox commands that reach the recorder
  case evrRead =>
    exact keepsShape_onRec fun _ _ hx => shaped_mbxServeRec (fun _ _ hy => by unfold evrRead; dsimp only; split <;> exact hy) hx
  case evrFreeze =>
    exact keepsShape_onRec fun _ _ hx => shaped_mbxServeRec
      (fun _ _ hy => by unfold evrFreeze; dsimp only; split <;> exact shaped_congr hy rfl rfl rfl) hx
  case evrThaw =>
    exact keepsShape_onRec fun _ _ hx => shaped_mbxServeRec
      (fun _ _ hy => by unfold evrThaw; dsimp only; split <;> exact shaped_congr hy rfl rfl rfl) hx
  case evrClearNonce =>
    exact keepsShape_onRec fun _ _ hx => shaped_mbxServeRec (f := clearNonce) (fun _ _ hy => shaped_congr hy rfl rfl rfl) hx
  case histTrigger => exact keepsShape_onRec fun _ _ hx => shaped_mbxServeRec (fun _ _ hy => shaped_histTriggerCmd hy) hx
  -- pulses of the trigger lines
  case swTrig =>
    refine keepsShape_onRec fun d r hx => ?_
    rw [gatePageRec_eq]
    refine shaped_gateWriteRec (fun d r hy => ?_) hx
    dsimp only
    split
    · exact hy
    · exact shaped_pulseLines _ _ hy
  case peTrig => exact keepsShape_onRec fun _ _ hx => shaped_peTrig _ _ _ hx
  case pioEdge rd _ _ _ =>
    cases rd <;> dsimp only [execPioEdge]
    · exact keepsShape_onRec fun _ _ hx => shaped_pioLines _ _ _ hx
    · exact keepsShape_onDev _
  case timebaseTick => exact keepsShape_onRec fun _ _ hx => shaped_timebaseTick hx
  -- power and resets
  case vaonPowerOn => exact keepsShape_onRec fun _ _ hx => shaped_powerOn _ hx
  case vaonLoss => exact keepsShape_onRec fun _ _ hx => shaped_vaonLoss hx
  case resetNAssert => exact keepsShape_onRec fun _ _ hx => shaped_resetAssert hx
  case railPgTimeout => exact keepsShape_onRec fun _ _ hx => shaped_pgTimeout hx
  case railPgLost => exact keepsShape_onRec fun _ _ hx => shaped_pgLost _ hx
  case pmbusTransactionDone => exact keepsShape_onRec fun _ _ hx => shaped_pmbDone _ _ hx
  case shutdownRecordDone => exact keepsShape_onRec fun _ _ hx => shaped_shutdownDone hx
  case cutoffTrip => exact keepsShape_onRec fun _ _ hx => shaped_cutoff _ _ hx
  case pfailAccept => exact keepsShape_onRec fun _ _ hx => shaped_pfailAccept hx
  case pfailFlushDone => exact keepsShape_onRec fun _ _ hx => shaped_pfailFlush hx
  case mramScanDone => exact keepsShape_onRec fun _ _ hx => shaped_scanDone _ hx
  -- the recorder's own
  case eventAccept => exact keepsShape_onRec fun _ _ hx => shaped_acceptNext hx
  case evrDroppedRecord => exact keepsShape_onRec fun _ _ hx => shaped_droppedRecord _ hx
  case evrImageSeal => exact keepsShape_onRec fun _ _ hx => shaped_sealImage _ hx
  case evrPageProgram =>
    refine keepsShape_onRec fun d r hx => ?_
    split
    · exact shaped_flushStep _ hx
    · exact shaped_pageProgram _ hx
  case evrFreezeExpire =>
    exact keepsShape_onRec fun _ _ hx => by unfold freezeExpire; dsimp only; split <;> exact shaped_congr hx rfl rfl rfl
  case nonceExpire => exact keepsShape_onRec fun _ _ hx => shaped_congr hx rfl rfl rfl
  -- reads of registers
  case rcRead | hostRegRd | keyProg => exact keepsShape_onDevR _
  case tapReset | tapExtest | tapSamplePreload | tapClamp | tapHighz | tapBypass => exact keepsShape_onTap _
  -- all other commands change the device alone
  all_goals exact keepsShape_onDev _

end Sys2Proof.Machine

open Sys2Proof Sys2Proof.Machine

/-- Settles O59: every operation on buffer and log keeps the shape, so every command does, and a step is the command at
the front of the queue. -/
theorem recorderKeepsShape : Obligations.RecorderKeepsShape := by
  intro s t hs h
  cases hp : s.pending with
  | nil => exact Host.Outcome.next.inj ((step_of_pending_nil hp).symm.trans h) ▸ hs
  | cons c rest => exact keepsShape_exec c { s with pending := rest } t hs ((step_of_pending_cons hp).symm.trans h)
end

section
/-! SUPPORT. Proofs about the access unit while it serves nothing (R81, R587): the gate discards the write, and every
word of a burst with it. -/
namespace Sys2Proof.Machine

theorem gateWriteRec_unserved {p : Port} {x : Dev × Recorder} (f : Dev × Recorder → Dev × Recorder)
    (h : x.1.serves = false) : gateWriteRec p f x = x := by
  simp [gateWriteRec, h]

/-- Every word of a burst is discarded; a word that would begin a reset ends the burst all the same. -/
theorem writeWords_unserved (vt : Vault) (p : Port) (next : Nat → Nat) (ws : List Word) (a : Nat) {x : Dev × Recorder}
    (h : x.1.serves = false) : (writeWords vt p next a ws x).1 = x := by
  induction ws generalizing a with
  | nil => rfl
  | cons w ws ih =>
    have hw : writeWord vt p a w x = x := gateWriteRec_unserved _ h
    unfold writeWords
    split
    · exact hw
    · rw [hw]
      exact ih (next a)

end Sys2Proof.Machine

open Sys2Proof Sys2Proof.Machine

/-- Settles O2: behind the closed gate a write of one word, and so each word of a burst, has no effect. -/
theorem unservedWritesChangeNothing : Obligations.UnservedWritesChangeNothing := by
  refine ⟨fun c p s hc hs => ?word, fun cmd n a ws s hcmd hs => ?spi, fun a7 n a ws s hs => ?i2c⟩
  case word =>
    obtain ⟨f, hf⟩ := exec_eq_gated hc s
    exact hf.trans (onRec_eq (gateWriteRec_unserved f hs))
  case spi => exact (exec_spi_write hcmd ..).trans (onRec_eq (writeWords_unserved _ _ _ _ _ hs))
  case i2c =>
    cases hack : (i2cAddress a7 s.dev).out.i2cAck with
    | false => exact exec_i2c_unacked hack false a n ws
    | true =>
      have hs' : (i2cAddress a7 s.dev).serves = false := hs
      exact (exec_i2c_write hack ..).trans (onRec_eq (writeWords_unserved _ _ _ _ _ hs'))
end

section
/-! SUPPORT. Proofs about the arithmetic of the pin engines (R238, R240): the registers and flags that an instruction
writes, and how one that completes on its issue cycle ends. -/
namespace Sys2Proof.Machine

/-! ## Registers and flags -/

/-- A register written reads back, modulo its 32 bits; the others keep their values. -/
theorem PeSt.reg_setReg (g : PeSt) {r q : Nat} (hr : r < 4) (hq : q < 4) (v : Nat) :
    (g.setReg r v).reg q = if q = r then v % 2 ^ 32 else g.reg q := by
  interval_cases r <;> interval_cases q <;> rfl

theorem PeSt.setReg_z (g : PeSt) (r v : Nat) : (g.setReg r v).z = g.z := by
  unfold PeSt.setReg
  split <;> rfl

theorem PeSt.setReg_n (g : PeSt) (r v : Nat) : (g.setReg r v).n = g.n := by
  unfold PeSt.setReg
  split <;> rfl

/-- A result is a register written, and the flags. -/
theorem PeSt.reg_setResult (g : PeSt) {r q : Nat} (hr : r < 4) (hq : q < 4) (v : Int) :
    (g.setResult r v).reg q = if q = r then unsigned 32 v else g.reg q := by
  have hreg := g.reg_setReg hr hq (unsigned 32 v)
  rw [Nat.mod_eq_of_lt (unsigned_lt 32 v)] at hreg
  rw [← hreg]
  unfold PeSt.setResult PeSt.reg
  split <;> rfl

/-- Completing an instruction changes no register. -/
@[simp] theorem PeSt.reg_complete (g : PeSt) (dly : Nat) (j : Option Nat) (q : Nat) :
    (g.complete dly j).reg q = g.reg q := by
  rw [PeSt.complete_eq]
  unfold PeSt.reg
  split <;> rfl

@[simp] theorem PeSt.complete_z (g : PeSt) (dly : Nat) (j : Option Nat) : (g.complete dly j).z = g.z := by
  rw [PeSt.complete_eq]

@[simp] theorem PeSt.complete_n (g : PeSt) (dly : Nat) (j : Option Nat) : (g.complete dly j).n = g.n := by
  rw [PeSt.complete_eq]

/-! ## Instructions that complete on their issue cycle -/

/-- An engine about to issue an instruction is running, with no stall and no DELAY under way. -/
theorem Dev.peReady_issues {d : Dev} {e : Nat} {i : PIns} {dly : Nat} (h : d.peReady e i dly = true) :
    (d.pin e).state = peRUN ∧ (d.pin e).idle = false ∧ (d.pin e).stall = .none := by
  simpa [Dev.peReady, PeSt.issues, and_assoc] using (Bool.and_eq_true_iff.mp h).1

/-- Such an instruction runs to its effect and the end of the instruction. -/
theorem runs_peRun {c : Instr} {s : State} {e : Nat} {i : PIns} {dly : Nat} {f : Dev → Dev}
    (hc : exec c s = onDev (peRun e i dly f) s) (h : s.dev.peReady e i dly = true) :
    runs c s ((f s.dev).peDone e dly) := runs_onDev hc (if_pos h)

/-- A change of the engine's own state that completes. -/
theorem onlyPin_mapPin_peDone (d : Dev) (e dly : Nat) (f : PeSt → PeSt) : onlyPin d ((d.mapPin e f).peDone e dly) e :=
  onlyPin_peDone (onlyPin_mapPin ..) ..

/-- What an instruction that writes a result leaves: the register, the flags and every other register. -/
theorem setResult_peDone (d : Dev) (e dly : Nat) (r : Fin 4) (f : PeSt → Int) {v : Int} (hv : f (d.pin e) = v) :
    let y := ((d.mapPin e fun g => g.setResult r (f g)).peDone e dly).pin e
    y.z = decide (unsigned 32 v = 0) ∧ y.n = (unsigned 32 v).testBit 31 ∧
      ∀ q < 4, y.reg q = if q = r.val then unsigned 32 v else (d.pin e).reg q := by
  rw [Dev.pin_peDone, Dev.pin_mapPin_same, hv]
  refine ⟨?_, ?_, fun q hq => ?_⟩
  · simp [PeSt.setResult]
  · simp [PeSt.setResult]
  · rw [PeSt.reg_complete, PeSt.reg_setResult _ r.isLt hq]

end Sys2Proof.Machine

open Sys2Proof Sys2Proof.Machine

/-- Settles O18: each instruction is a change of the engine's own registers, and then its end. -/
theorem pinArithmeticWritesDestination : Obligations.PinArithmeticWritesDestination := by
  refine ⟨fun e s h => ?nop, fun e dly s h hdly => ?nopDelay, fun e s h => ?delayEnd, fun e r imm dly s h => ?ldi,
    fun e r k dly s h => ?ldk, fun e r imm dly s h => ?addi, fun e r q op dly s h => ?mov⟩
  case nop =>
    obtain ⟨hstate, hidle, hstall⟩ := Dev.peReady_issues h
    refine ⟨_, runs_peRun rfl h, onlyPin_mapPin .., ?_⟩
    simp [PeSt.complete_eq, ← hstate, ← hidle, ← hstall]
  case nopDelay =>
    obtain ⟨hstate, hidle, hstall⟩ := Dev.peReady_issues h
    have hne : dly.val ≠ 0 := fun h0 => hdly (Fin.ext h0)
    refine ⟨_, runs_peRun rfl h, onlyPin_mapPin .., ?_⟩
    simp [PeSt.complete_eq, hne, ← hstate, ← hstall]
  case delayEnd =>
    refine ⟨_, runs_onDev rfl (if_pos h), onlyPin_mapPin .., ?_⟩
    rw [Dev.pin_mapPin_same]
    refine ⟨rfl, ?_⟩
    cases hj : (s.dev.pin e).jump <;> simp [PeSt.advance, hj]
  case ldi =>
    refine ⟨_, runs_peRun rfl h, onlyPin_mapPin_peDone .., ?_⟩
    have himm : imm.toNat % 2 ^ 32 = imm.toNat := Nat.mod_eq_of_lt (imm.isLt.trans (by decide))
    rw [Dev.pin_peDone, Dev.pin_mapPin_same]
    refine ⟨?_, ?_, fun q hq => ?_⟩
    · rw [PeSt.complete_z, PeSt.setReg_z]
    · rw [PeSt.complete_n, PeSt.setReg_n]
    · rw [PeSt.reg_complete, PeSt.reg_setReg _ r.isLt hq, himm]
  case ldk =>
    refine ⟨_, runs_peRun rfl h, onlyPin_mapPin_peDone .., ?_⟩
    rw [Dev.pin_peDone, Dev.pin_mapPin_same]
    refine ⟨?_, ?_, fun q hq => ?_⟩
    · rw [PeSt.complete_z, PeSt.setReg_z]
    · rw [PeSt.complete_n, PeSt.setReg_n]
    · rw [PeSt.reg_complete, PeSt.reg_setReg _ r.isLt hq]
  case addi =>
    exact ⟨_, _, runs_peRun rfl h, onlyPin_mapPin_peDone .., rfl,
      setResult_peDone s.dev e dly r (fun g => g.reg r + imm.toInt) rfl⟩
  case mov =>
    exact ⟨_, _, runs_peRun rfl h, onlyPin_mapPin_peDone .., rfl,
      setResult_peDone s.dev e dly r (fun g => movResult (g.reg r) (g.reg q) op) rfl⟩
end

section
/-! SUPPORT. Proofs about the FIFOs of the pin engines (R249 to R251): taking a word, putting words, the batches that
the DMA sends, and what a port writes and reads. -/
namespace Sys2Proof.Machine

/-! ## The gate, for a command of the device -/

/-- A write of a port that passes the gate of a page runs to its effect. -/
theorem runs_gatePage {c : Instr} {p : Port} {pg : Page} {s : State} {f : Dev → Dev}
    (hc : exec c s = onDev (gatePage p pg f) s) (h : s.admitsAt p pg) : runs c s (f s.dev) := by
  obtain ⟨⟨hs, ho⟩, hr⟩ := h
  exact runs_onDev hc (gatePage_open _ p pg f hs ho hr)

/-- The same for a register that soft reset does not guard. -/
theorem runs_gateWrite {c : Instr} {p : Port} {s : State} {f : Dev → Dev}
    (hc : exec c s = onDev (gateWrite p f) s) (h : s.admits p) : runs c s (f s.dev) := by
  obtain ⟨hs, ho⟩ := h
  exact runs_onDev hc (gateWrite_open _ p f hs ho)

/-! ## Counters -/

/-- A counter of 32 bits counts one. -/
theorem Dev.fi_bumpI_same (d : Dev) {F : Fld} (hlo : F.lo = 0) (hhi : F.hi = 31) (i k : Nat) :
    (d.bumpI F i k).fi F i k = (d.fi F i k + 1) % 2 ^ 32 := by
  rw [Dev.bumpI_def, Dev.fi_setFi_same _ _ _ _ _ (by omega) (by omega), hlo, hhi]

theorem onlyPinWords_bumpI (d : Dev) (e : Nat) (F : Fld) (i k : Nat) :
    onlyPinWords d (d.bumpI F i k) e [F.addr i k] := onlyPinWords_setFi d e (List.mem_singleton.mpr rfl) _

@[simp] theorem Dev.pin_setFi (d : Dev) (F : Fld) (i k v m : Nat) : (d.setFi F i k v).pin m = d.pin m :=
  Dev.pin_congr (Dev.setFi_pe ..) m

/-- A change of an engine's own state reads no register differently. -/
@[simp] theorem Dev.fi_mapPin (d : Dev) (e : Nat) (f : PeSt → PeSt) (F : Fld) (i k : Nat) :
    (d.mapPin e f).fi F i k = d.fi F i k :=
  Dev.fi_congr (Dev.setPin_regs ..) ..

@[simp] theorem Dev.fi_peDone (d : Dev) (e dly : Nat) (j : Option Nat) (F : Fld) (i k : Nat) :
    (d.peDone e dly j).fi F i k = d.fi F i k := Dev.fi_congr (Dev.setPin_regs ..) ..

/-- An error counted, noted in the engine and its instruction ended. -/
theorem onlyPinWords_miss (d : Dev) (F : Fld) (e : Nat) (f : PeSt → PeSt) (dly : Nat) :
    onlyPinWords d (((d.bumpI F e 0).mapPin e f).peDone e dly) e [F.addr e 0] :=
  onlyPinWords_trans (onlyPinWords_bumpI ..) ((onlyPin_mapPin_peDone ..).words _)

/-! ## The parameter FIFO -/

/-- The oldest word goes to A. -/
theorem peTake_eq {d : Dev} {e : Nat} {w : Word} {l : List Word} (h : (d.pin e).parF = w :: l) :
    peTake e d = d.mapPin e fun g => { g with parF := l, a := w.toNat, stale := false } := by
  simp only [peTake, h]

/-- A word taken, and the end of the instruction. -/
theorem peTake_peDone {d : Dev} {e : Nat} {w : Word} {l : List Word} (h : (d.pin e).parF = w :: l) (dly : Nat) :
    onlyPin d ((peTake e d).peDone e dly) e ∧ (((peTake e d).peDone e dly).pin e).a = w.toNat ∧
      (((peTake e d).peDone e dly).pin e).parF = l ∧ (((peTake e d).peDone e dly).pin e).stale = false ∧
      (((peTake e d).peDone e dly).pin e).stall = .none := by
  rw [peTake_eq h]
  refine ⟨onlyPin_mapPin_peDone .., ?_⟩
  simp [PeSt.complete_eq]

theorem runs_pePull_take {e : Fin 8} {nb : Bool} {dly : Fin 16} {s : State} (h : s.dev.peReady e (.pull nb) dly = true)
    (hne : (s.dev.pin e).parF ≠ []) : runs (.pePull e nb dly) s ((peTake e s.dev).peDone e dly) :=
  runs_onDev rfl ((if_pos h).trans (if_pos (by simpa using hne)))

theorem runs_pePull_stale {e : Fin 8} {dly : Fin 16} {s : State} (h : s.dev.peReady e (.pull true) dly = true)
    (hnil : (s.dev.pin e).parF = []) : runs (.pePull e true dly) s
      (((s.dev.bumpI PE_PULL_STALE e 0).mapPin e fun g => { g with stale := true }).peDone e dly) :=
  runs_onDev rfl ((if_pos h).trans (if_neg (by simp [hnil])))

theorem runs_pePull_stall {e : Fin 8} {dly : Fin 16} {s : State} (h : s.dev.peReady e (.pull false) dly = true)
    (hnil : (s.dev.pin e).parF = []) : runs (.pePull e false dly) s (s.dev.peStall e peFIFO .pull) :=
  runs_onDev rfl ((if_pos h).trans (if_neg (by simp [hnil])))

theorem runs_pePullDone {e : Fin 8} {s : State} (h : (s.dev.pin e).stall = .pull) (hne : (s.dev.pin e).parF ≠ []) :
    runs (.pePullDone e) s ((peTake e s.dev).peDone e (s.dev.peDelay e)) :=
  runs_onDev rfl (if_pos ⟨h, by simpa using hne⟩)

/-! ## The output FIFO and its DMA -/

/-- The words of a tick count, low word first. -/
theorem wordsOf_u64 (n : Nat) : wordsOf (u64 n) = [BitVec.ofNat 32 n, BitVec.ofNat 32 (n / 2 ^ 32)] := by
  simp only [u64, bytesLE, wordsOf, natOfBytes, BitVec.toNat_ofNat, List.cons.injEq, and_true]
  constructor <;> apply BitVec.eq_of_toNat_eq <;> simp only [BitVec.toNat_ofNat] <;> omega

/-- Whether the DMA works depends on the registers and the engine's owner. -/
theorem peDmaOn_mapPin (d : Dev) (e : Nat) {f : PeSt → PeSt} (hf : ∀ g, (f g).fwOwn = g.fwOwn) :
    (d.mapPin e f).peDmaOn e = d.peDmaOn e := by
  rw [Dev.peDmaOn, Dev.pin_mapPin_same, hf, Dev.fi_mapPin]
  rfl

/-- Without its DMA, words that find space enter the FIFO and stay there. -/
theorem pePut_eq {d : Dev} {e : Nat} (h : d.peDmaOn e = false) (ws : List Word) :
    pePut e ws d = d.mapPin e fun g => { g with outF := g.outF ++ ws, drop := false } := by
  have hoff : (d.mapPin e fun g => { g with outF := g.outF ++ ws, drop := false }).peDmaOn e = false :=
    (peDmaOn_mapPin d e (f := fun g => { g with outF := g.outF ++ ws, drop := false }) fun _ => rfl).trans h
  simp [pePut, peBatch, hoff]

/-- Words sent leave the front of the FIFO, in one packet. -/
theorem pin_peDmaSend (d : Dev) (e n : Nat) :
    (peDmaSend e n d).pin e = { d.pin e with outF := (d.pin e).outF.drop n } := Dev.pin_setPin_same ..

theorem onlyPinWords_peDmaSend (d : Dev) (e n : Nat) : onlyPinWords d (peDmaSend e n d) e [] :=
  ⟨rfl, fun m hm => (onlyPin_setPin d e _).2 m hm, fun _ _ => rfl⟩

theorem reqs_peDmaSend (d : Dev) (e n : Nat) : (peDmaSend e n d).reqs =
    d.reqs ++ [.peData e (d.fi PE_DMA_CFG_QID e 0) ((d.pin e).outF.take n)] := rfl

/-- With BATCH words in the FIFO the DMA sends them where the queue has credit. -/
theorem pePut_send {d : Dev} {e : Nat} {ws : List Word} (h : d.peDmaOn e = true)
    (hn : d.fi PE_DMA_CFG_BATCH e 0 ≤ ((d.pin e).outF ++ ws).length)
    (hq : d.queueOpen (d.fi PE_DMA_CFG_QID e 0) = true) :
    pePut e ws d = peDmaSend e (d.fi PE_DMA_CFG_BATCH e 0)
      (d.mapPin e fun g => { g with outF := g.outF ++ ws, drop := false }) := by
  have hon : (d.mapPin e fun g => { g with outF := g.outF ++ ws, drop := false }).peDmaOn e = true :=
    (peDmaOn_mapPin d e (f := fun g => { g with outF := g.outF ++ ws, drop := false }) fun _ => rfl).trans h
  refine if_pos ⟨hon, ?_, hq⟩
  rw [Dev.pin_mapPin_same]
  exact hn

/-- PUSH and STAMP with space in the FIFO. -/
theorem pePush_space {d : Dev} {e : Nat} {ws : List Word} (h : (d.pin e).outF.length + ws.length ≤ 8) (nb : Bool)
    (dly : Nat) : pePush e ws nb dly d = (pePut e ws d).peDone e dly := if_pos h

/-- Without the DMA, words that find space are what changes. -/
theorem pePut_peDone {d : Dev} {e : Nat} (h : d.peDmaOn e = false) (ws : List Word) (dly : Nat) :
    onlyPin d ((pePut e ws d).peDone e dly) e ∧ (((pePut e ws d).peDone e dly).pin e).drop = false ∧
      (((pePut e ws d).peDone e dly).pin e).outF = (d.pin e).outF ++ ws ∧
      (((pePut e ws d).peDone e dly).pin e).stall = .none := by
  rw [pePut_eq h]
  refine ⟨onlyPin_mapPin_peDone .., ?_⟩
  simp [PeSt.complete_eq]

theorem runs_pePush {e : Fin 8} {r : Fin 4} {nb : Bool} {dly : Fin 16} {s : State}
    (h : s.dev.peReady e (.push r nb) dly = true) :
    runs (.pePush e r nb dly) s (pePush e [BitVec.ofNat 32 ((s.dev.pin e).reg r)] nb dly s.dev) :=
  runs_onDev rfl (if_pos h)

theorem runs_peStamp {e : Fin 8} {nb : Bool} {dly : Fin 16} {s : State} (h : s.dev.peReady e (.stamp nb) dly = true) :
    runs (.peStamp e nb dly) s (pePush e (wordsOf (u64 s.dev.time.tick)) nb dly s.dev) :=
  runs_onDev rfl (if_pos h)

theorem runs_pePushDone {e : Fin 8} {ws : List Word} {s : State} (h : (s.dev.pin e).stall = .push ws)
    (hlen : (s.dev.pin e).outF.length + ws.length ≤ 8) :
    runs (.pePushDone e) s ((pePut e ws s.dev).peDone e (s.dev.peDelay e)) :=
  runs_onDev rfl (by simp [pePushDone, h, hlen])

/-! ## What a port writes and reads -/

@[simp] theorem pePage_val (e : Fin 8) : pePage e = .pe e := by simp [pePage]

theorem onlyRaised_setFi (d : Dev) {as : List Nat} {F : Fld} {i k : Nat} (h : F.addr i k ∈ as) (v : Nat) :
    onlyRaised d (d.setFi F i k v) as :=
  ⟨rfl, fun _ ha => by rw [Dev.word_setFi, if_neg (ne_of_mem_of_not_mem h ha).symm]⟩

theorem onlyRaised_raiseBits (d : Dev) {as : List Nat} {p : Page} (h : p.base + 0x10 ∈ as) (b : Word) :
    onlyRaised d (d.raiseBits p b) as := by
  refine ⟨?_, fun _ ha => by rw [Dev.word_raiseBits, if_neg (ne_of_mem_of_not_mem h ha).symm]⟩
  unfold Dev.raiseBits irqPackets
  split <;> rfl

theorem onlyRaised_emitSrc (d : Dev) (as : List Nat) (c src : Nat) (b : List Byte) :
    onlyRaised d (d.emitSrc c src b) as := ⟨rfl, fun _ _ => rfl⟩

theorem onlyRaised_trans {d x y : Dev} {as : List Nat} (h : onlyRaised d x as) (h' : onlyRaised x y as) :
    onlyRaised d y as := by
  obtain ⟨hx, hw⟩ := h
  obtain ⟨hy, hw'⟩ := h'
  refine ⟨?_, fun a ha => (hw' a ha).trans (hw a ha)⟩
  calc y = { x with regs := y.regs, reqs := y.reqs, evq := y.evq } := hy
    _ = { d with regs := y.regs, reqs := y.reqs, evq := y.evq } :=
      congrArg (fun u : Dev => { u with regs := y.regs, reqs := y.reqs, evq := y.evq }) hx

/-- A counter lies beside IRQ_RAW in a pin engine's page. -/
theorem peCounter_ne_irqRaw {F : Fld} (hblk : F.blk = .pe) (hstride : F.stride = 0) (hoff : F.off ≠ 0x10) (e : Fin 8) :
    F.addr e 0 ≠ (Page.pe e).base + 0x10 := by
  simp [Fld.addr, hblk, hstride, Page.base, Page.blk, Page.inst, hoff]

theorem runs_peOutRead {p : Port} {e : Fin 8} {s : State} (h : s.dev.serves = true) :
    runs (.peOutRead p e) s (peOutRead p e s.dev) := runs_onDev rfl (if_pos h)

theorem Dev.output_given (d : Dev) (p : Port) (ws : List Word) : (d.output p ws).given p = ws := by cases p <;> rfl

theorem Dev.output_eq (d : Dev) (p : Port) (ws : List Word) : d.output p ws = { d with out := (d.output p ws).out } := by
  cases p <;> rfl

end Sys2Proof.Machine

open Sys2Proof Sys2Proof.Machine

/-- Settles O20: what each instruction does to the FIFOs where there is a word or space, and where there is none. -/
theorem pinFifosMoveWords : Obligations.PinFifosMoveWords := by
  refine ⟨fun e nb dly w l s h hf => ?take, fun e dly s h hf => ?stale, fun e dly s h hf => ?stall,
    fun e w l s h hf => ?takeDone, fun e r nb dly s h hlen hoff => ?push, fun e r nb dly s n ws h hlen hon hn hws hle hq => ?send,
    fun e r dly s h hlen => ?drop, fun e r dly s h hlen => ?pushStall, fun e ws s h hlen hoff => ?pushDone,
    fun e nb dly s h hlen hoff => ?stamp, fun e s hon htmo hne hq => ?timeout⟩
  case take =>
    obtain ⟨honly, ha, hpar, hstale, -⟩ := peTake_peDone hf dly
    exact ⟨_, runs_pePull_take h (by simp [hf]), honly, ha, hpar, hstale⟩
  case stale =>
    refine ⟨_, runs_pePull_stale h hf, ?_, ?_, ?_, onlyPinWords_miss ..⟩
    · simp [PeSt.complete_eq]
    · simp [PeSt.complete_eq]
    · rw [Dev.fi_peDone, Dev.fi_mapPin, Dev.fi_bumpI_same _ rfl rfl]
  case stall => exact ⟨_, runs_pePull_stall h hf, onlyPin_peStall .., Dev.pin_peStall ..⟩
  case takeDone =>
    obtain ⟨honly, ha, hpar, -, hstall⟩ := peTake_peDone hf (s.dev.peDelay e)
    exact ⟨_, runs_pePullDone h (by simp [hf]), honly, ha, hpar, hstall⟩
  case push =>
    obtain ⟨honly, hdrop, hout, -⟩ := pePut_peDone hoff [BitVec.ofNat 32 ((s.dev.pin e).reg r)] dly
    refine ⟨_, runs_pePush h, ?_⟩
    rw [pePush_space (by simpa using hlen)]
    exact ⟨honly, hdrop, hout⟩
  case send =>
    subst hn hws
    refine ⟨_, runs_pePush h, ?_⟩
    rw [pePush_space (by simpa using hlen), pePut_send hon hle hq]
    refine ⟨?_, ?_, ?_⟩
    · simp [PeSt.complete_eq, pin_peDmaSend]
    · rw [Dev.peDone, Dev.mapPin, Dev.setPin, reqs_peDmaSend, Dev.pin_mapPin_same, Dev.fi_mapPin]
      rfl
    · exact onlyPinWords_trans ((onlyPin_mapPin ..).words _)
        (onlyPinWords_trans (onlyPinWords_peDmaSend ..) ((onlyPin_mapPin ..).words _))
  case drop =>
    have hfull : pePush e [BitVec.ofNat 32 ((s.dev.pin e).reg r)] true dly s.dev =
        ((s.dev.bumpI PE_PUSH_DROP e 0).mapPin e fun g => { g with drop := true }).peDone e dly :=
      if_neg (by simpa using hlen)
    refine ⟨_, runs_pePush h, ?_⟩
    rw [hfull]
    refine ⟨?_, ?_, ?_, onlyPinWords_miss ..⟩
    · simp [PeSt.complete_eq]
    · simp [PeSt.complete_eq]
    · rw [Dev.fi_peDone, Dev.fi_mapPin, Dev.fi_bumpI_same _ rfl rfl]
  case pushStall =>
    have hfull : pePush e [BitVec.ofNat 32 ((s.dev.pin e).reg r)] false dly s.dev =
        s.dev.peStall e peFIFO (.push [BitVec.ofNat 32 ((s.dev.pin e).reg r)]) :=
      if_neg (by simpa using hlen)
    exact ⟨_, runs_pePush h, hfull ▸ onlyPin_peStall .., hfull ▸ Dev.pin_peStall ..⟩
  case pushDone =>
    obtain ⟨honly, -, hout, hstall⟩ := pePut_peDone hoff ws (s.dev.peDelay e)
    exact ⟨_, runs_pePushDone h hlen, honly, hstall, hout⟩
  case stamp =>
    obtain ⟨honly, -, hout, -⟩ := pePut_peDone hoff (wordsOf (u64 s.dev.time.tick)) dly
    refine ⟨_, runs_peStamp h, ?_⟩
    rw [pePush_space (by rw [wordsOf_u64]; exact Nat.add_le_add_right hlen 2)]
    exact ⟨honly, by rw [hout, wordsOf_u64]⟩
  case timeout =>
    refine ⟨_, runs_onDev rfl (if_pos ⟨hon, htmo, hne, hq⟩), ?_, reqs_peDmaSend .., onlyPinWords_peDmaSend ..⟩
    rw [pin_peDmaSend]

/-- Settles O21: PARAM and FLUSH behind the gate of the engine's page, OUT as a read. -/
theorem pinFifosServePorts : Obligations.PinFifosServePorts := by
  refine ⟨fun p e v s h hown hlen => ?param, fun p e v s h hown hlen => ?overflow, fun p e v s h hown hp => ?owned,
    fun p e w l s h hout hdma hown => ?out, fun p e s h hnone => ?outNone, fun p e s h hen => ?flush,
    fun p e s h hen => ?flushEnabled⟩
  case param =>
    have hp : peParam p e v s.dev = s.dev.setPin e { s.dev.pin e with parF := (s.dev.pin e).parF ++ [v] } := by
      simp [peParam, hown, Nat.not_le.mpr hlen]
    refine ⟨_, runs_gatePage rfl h, hp ▸ onlyPin_setPin .., ?_⟩
    rw [hp, Dev.pin_setPin_same]
  case overflow =>
    have hp : peParam p e v s.dev = (s.dev.bumpI PE_PARAM_OVF e 0).raiseI PE_IRQ_RAW_PARAM_OVF e := by
      simp only [peParam, hown, Bool.false_eq_true, false_and, if_false, if_pos hlen]
    have hraw : (blkPage PE_IRQ_RAW_PARAM_OVF.blk e).base + 0x10 = (Page.pe e).base + 0x10 := by
      simp [PE_IRQ_RAW_PARAM_OVF, blkPage]
    refine ⟨_, runs_gatePage rfl h, ?_⟩
    rw [hp]
    refine ⟨(Dev.raiseBits_pe ..).trans (Dev.setFi_pe ..), ?_, ?_⟩
    · rw [Dev.raiseI_def, Dev.fi_raiseBits, Dev.fi_bumpI_same _ rfl rfl]
      exact hraw ▸ peCounter_ne_irqRaw rfl rfl (by decide) e
    · exact onlyRaised_trans (onlyRaised_setFi _ (List.mem_cons_self ..) _)
        (onlyRaised_raiseBits _ (List.mem_cons_of_mem _ (List.mem_singleton.mpr hraw)) _)
  case owned =>
    have hp' : peParam p e v s.dev = s.dev.reject (.pe e) p (PE_PARAM.addr e 0) v 6 := by
      simp [peParam, hown, hp]
    exact hp' ▸ runs_gatePage rfl h
  case out =>
    have hread : peOutRead p e s.dev = (s.dev.setPin e { s.dev.pin e with outF := l }).output p [w] := by
      simp [peOutRead, hout, hdma, hown]
    refine ⟨_, runs_peOutRead h, ?_⟩
    have hset := onlyPin_setPin s.dev e { s.dev.pin e with outF := l }
    rw [hread, Dev.output_eq]
    exact ⟨Dev.output_given .., (congrArg PeSt.outF (Dev.pin_setPin_same ..)), rfl, fun m hm => hset.2 m hm⟩
  case outNone =>
    have hread : peOutRead p e s.dev = s.dev.output p [0#32] := by
      obtain hnil | ⟨hdma, hown⟩ := hnone
      · simp [peOutRead, hnil]
      · cases hout : (s.dev.pin e).outF <;> simp [peOutRead, hout, hdma, hown]
    exact ⟨_, runs_peOutRead h, by rw [hread]; exact ⟨Dev.output_given .., Dev.output_eq ..⟩⟩
  case flush =>
    have hf : peFlush e s.dev = s.dev.mapPin e fun g => { g with parF := [], outF := [] } := by
      simp [peFlush, hen]
    exact ⟨_, runs_gatePage rfl h, hf ▸ onlyPin_mapPin .., hf ▸ Dev.pin_mapPin_same ..⟩
  case flushEnabled =>
    have hf : peFlush e s.dev = s.dev := by simp [peFlush, hen]
    have hrun := runs_gatePage (c := .peFlush p e) (f := peFlush e) rfl h
    rwa [hf] at hrun
end

section
/-! SUPPORT. Rules about the registers that the proofs behind share (R56, R61, R69): where two header words differ, what
a change of one field leaves of the others, and how changes one after another leave the rest of the device. -/
namespace Sys2Proof.Machine

/-! ## Words of different pages -/

theorem pageSize_ge (p : Page) : 0x400 ≤ p.size := by
  have h : ∀ b : Blk, 0x400 ≤ b.size := fun b => by cases b <;> decide
  exact h p.blk

/-- Two words in the first 0x400 bytes of pages have the same address only in the same page. -/
theorem pageAddr_inj {p q : Page} {a b : Nat} (ha : a < 0x400) (hb : b < 0x400) (h : p.base + a = q.base + b) :
    p = q ∧ a = b := by
  have hp := decodeAddr_page p a (ha.trans_le (pageSize_ge p))
  have hq := decodeAddr_page q b (hb.trans_le (pageSize_ge q))
  rw [h, hq] at hp
  obtain rfl : q = p := (Target.page.inj hp).1
  exact ⟨rfl, by omega⟩

/-- Fields of the common header lie in its first words. -/
theorem pageAddr_ne {p q : Page} {a b : Nat} (ha : a < 0x400) (hb : b < 0x400) (h : p ≠ q ∨ a ≠ b) :
    p.base + a ≠ q.base + b := fun heq => by
  obtain ⟨hpq, hab⟩ := pageAddr_inj ha hb heq
  exact h.elim (· hpq) (· hab)

/-! ## Header fields -/

/-- A header field in another word, or beside the one written, stays. -/
theorem Dev.hf_setHf_ne (d : Dev) {p q : Page} {F G : Fld} (v : Nat) (h : F.lo ≤ F.hi) (h32 : F.hi < 32) (hG : G.lo ≤ G.hi)
    (hd : q.base + G.off ≠ p.base + F.off ∨ G.hi < F.lo ∨ F.hi < G.lo) : (d.setHf p F v).hf q G = d.hf q G := by
  simp only [Dev.hf, Dev.word_setHf]
  split
  case isTrue heq => rw [bitsOf_setBits_ne _ _ _ _ _ _ h h32 (hd.resolve_left (absurd heq)) hG]
  case isFalse => rfl

theorem Dev.hf_raiseBits (d : Dev) {p q : Page} (b : Word) (G : Fld) (h : q.base + G.off ≠ p.base + 0x10) :
    (d.raiseBits p b).hf q G = d.hf q G := by
  simp only [Dev.hf, Dev.word_raiseBits, if_neg h]

theorem Dev.hf_setFi (d : Dev) {F : Fld} {i k : Nat} (v : Nat) {q : Page} {G : Fld} (h : q.base + G.off ≠ F.addr i k) :
    (d.setFi F i k v).hf q G = d.hf q G := by
  simp only [Dev.hf, Dev.word_setFi, if_neg h]

theorem Dev.fi_setHf (d : Dev) {p : Page} {F : Fld} (v : Nat) {G : Fld} {i k : Nat} (h : G.addr i k ≠ p.base + F.off) :
    (d.setHf p F v).fi G i k = d.fi G i k := by
  simp only [Dev.fi, Dev.word_setHf, if_neg h]

/-! ## Words that stay -/

theorem onlyWords_refl (d : Dev) (as : List Nat) : onlyWords d d as := fun _ _ => rfl

theorem onlyWords_trans {d e g : Dev} {as : List Nat} (h : onlyWords d e as) (h' : onlyWords e g as) : onlyWords d g as :=
  fun a ha => (h' a ha).trans (h a ha)

theorem onlyWords_mono {d e : Dev} {as bs : List Nat} (h : onlyWords d e as) (hsub : ∀ a ∈ as, a ∈ bs) :
    onlyWords d e bs := fun a ha => h a fun hmem => ha (hsub a hmem)

/-- With the same registers, every word stays. -/
theorem onlyWords_of_regs {d e : Dev} (h : e.regs = d.regs) (as : List Nat) : onlyWords d e as :=
  fun a _ => Dev.word_congr h a

/-- What a change of other parts than the registers adds to a change of words. -/
theorem onlyWords_regs {d e g : Dev} {as : List Nat} (h : onlyWords d e as) (hg : g.regs = e.regs) : onlyWords d g as :=
  onlyWords_trans h (onlyWords_of_regs hg as)

theorem onlyWords_putWord (d : Dev) {a : Nat} {as : List Nat} (h : a ∈ as) (w : Word) : onlyWords d (d.putWord a w) as :=
  fun _ hb => by rw [Dev.word_putWord, if_neg (ne_of_mem_of_not_mem h hb).symm]

theorem onlyWords_setFi (d : Dev) {F : Fld} {i k : Nat} {as : List Nat} (h : F.addr i k ∈ as) (v : Nat) :
    onlyWords d (d.setFi F i k v) as := onlyWords_putWord d h _

theorem onlyWords_setHf (d : Dev) {p : Page} {F : Fld} {as : List Nat} (h : p.base + F.off ∈ as) (v : Nat) :
    onlyWords d (d.setHf p F v) as := onlyWords_putWord d h _

theorem onlyWords_raiseBits (d : Dev) {p : Page} {as : List Nat} (h : p.base + 0x10 ∈ as) (b : Word) :
    onlyWords d (d.raiseBits p b) as := (onlyRaised_raiseBits d h b).2

/-! ## Parts of the device that stay -/

/-- Two changes that take their parts alone from the later device do so one after the other. `part x d` is `d` with those
parts from `x`. -/
theorem frame_trans (part : Dev → Dev → Dev) (hpart : ∀ x y z, part x (part y z) = part x z) {d e g : Dev}
    (h : e = part e d) (h' : g = part g e) : g = part g d :=
  calc g = part g e := h'
    _ = part g (part e d) := congrArg (part g) h
    _ = part g d := hpart g e d

/-- A change of fewer parts is a change of more. -/
theorem frame_mono (part more : Dev → Dev → Dev) (hmore : ∀ x y, more (part x y) y = part x y) {d e : Dev}
    (h : e = part e d) : e = more e d := by
  conv_rhs => rw [h, hmore]
  exact h

/-- `d` with the registers of `x`. -/
abbrev takeRegs (x d : Dev) : Dev := { d with regs := x.regs }

/-- `d` with the registers and the commit unit of `x`. -/
abbrev takeRegsCom (x d : Dev) : Dev := { d with regs := x.regs, com := x.com }

/-- `d` with the registers, the asked-for packets and the presented events of `x`. -/
abbrev takeRaised (x d : Dev) : Dev := { d with regs := x.regs, reqs := x.reqs, evq := x.evq }

theorem takeRaised_trans {d e g : Dev} (h : e = takeRaised e d) (h' : g = takeRaised g e) : g = takeRaised g d :=
  frame_trans takeRaised (fun _ _ _ => rfl) h h'

theorem takeRegsCom_trans {d e g : Dev} (h : e = takeRegsCom e d) (h' : g = takeRegsCom g e) : g = takeRegsCom g d :=
  frame_trans takeRegsCom (fun _ _ _ => rfl) h h'

theorem takeRegsCom_of_regs {d e : Dev} (h : e = takeRegs e d) : e = takeRegsCom e d :=
  frame_mono takeRegs takeRegsCom (fun _ _ => rfl) h

theorem takeRaised_of_regs {d e : Dev} (h : e = takeRegs e d) : e = takeRaised e d :=
  frame_mono takeRegs takeRaised (fun _ _ => rfl) h

theorem takeRegs_putWord (d : Dev) (a : Nat) (w : Word) : d.putWord a w = takeRegs (d.putWord a w) d := rfl

theorem takeRegs_setHf (d : Dev) (p : Page) (F : Fld) (v : Nat) : d.setHf p F v = takeRegs (d.setHf p F v) d := rfl

theorem takeRegs_setFi (d : Dev) (F : Fld) (i k v : Nat) : d.setFi F i k v = takeRegs (d.setFi F i k v) d := rfl

theorem takeRegsCom_onCom (d : Dev) (f : CommitSt → CommitSt) : d.onCom f = takeRegsCom (d.onCom f) d := rfl

theorem takeRaised_raiseBits (d : Dev) (p : Page) (b : Word) : d.raiseBits p b = takeRaised (d.raiseBits p b) d :=
  (onlyRaised_raiseBits d (as := [p.base + 0x10]) (List.mem_singleton.mpr rfl) b).1

/-- An interrupt source of 32 bits that is set adds its bit to IRQ_RAW. -/
theorem Dev.word_raiseBits_same (d : Dev) (p : Page) (b : Word) :
    (d.raiseBits p b).word (p.base + 0x10) = d.word (p.base + 0x10) ||| b := by
  rw [Dev.word_raiseBits, if_pos rfl]

end Sys2Proof.Machine
end

section
/-! SUPPORT. Proofs about commits that fail (R61, R69) and about the outputs, interrupts and stops of the pin engines
(R240, R244, R246, R251), which may abort a commit. -/
namespace Sys2Proof.Machine

/-! ## Status of a commit -/

theorem comState_comStatus (d : Dev) (p : Page) {st : Nat} (hst : st < 16) (reason ofs : Nat) :
    (d.comStatus p st reason ofs).comState p = st := by
  unfold Dev.comStatus Dev.comState
  rw [Dev.hf_setHf_ne _ _ (by decide) (by decide) (by decide) (.inr (by decide)),
    Dev.hf_setHf_ne _ _ (by decide) (by decide) (by decide) (.inr (by decide)), Dev.hf_setHf_same _ _ _ _ (by decide) (by decide)]
  exact Nat.mod_eq_of_lt hst

theorem reason_comStatus (d : Dev) (p : Page) (st ofs : Nat) {reason : Nat} (hr : reason < 256) :
    (d.comStatus p st reason ofs).hf p HD_COMMIT_STAT_REASON = reason := by
  unfold Dev.comStatus
  rw [Dev.hf_setHf_ne _ _ (by decide) (by decide) (by decide) (.inr (by decide)), Dev.hf_setHf_same _ _ _ _ (by decide) (by decide)]
  exact Nat.mod_eq_of_lt hr

/-- A word other than a page's status word reads the same header fields. -/
theorem hf_of_onlyWords {d e : Dev} {as : List Nat} (h : onlyWords d e as) {p : Page} {F : Fld} (ha : p.base + F.off ∉ as) :
    e.hf p F = d.hf p F := by
  simp only [Dev.hf, h _ ha]

theorem fi_of_onlyWords {d e : Dev} {as : List Nat} (h : onlyWords d e as) {F : Fld} {i k : Nat} (ha : F.addr i k ∉ as) :
    e.fi F i k = d.fi F i k := by
  simp only [Dev.fi, h _ ha]

/-! ## A commit that fails -/

theorem not_mem_accepted_failPage (d : Dev) (p : Page) (reason ofs : Nat) : p ∉ (failPage p reason ofs d).com.accepted := by
  have hcom : (failPage p reason ofs d).com.accepted = d.com.accepted.filter fun q => q != p :=
    congrArg CommitSt.accepted (Dev.raiseBits_com ..)
  simp [hcom]

theorem comState_failPage (d : Dev) (p : Page) (reason ofs : Nat) : (failPage p reason ofs d).comState p = comFAILED := by
  unfold failPage
  rw [Dev.comState, Dev.hf_raiseBits _ _ _ (pageAddr_ne (by decide) (by decide) (.inr (by decide)))]
  exact comState_comStatus _ _ (by decide) ..

theorem reason_failPage (d : Dev) (p : Page) {reason : Nat} (hr : reason < 256) (ofs : Nat) :
    (failPage p reason ofs d).hf p HD_COMMIT_STAT_REASON = reason := by
  unfold failPage
  rw [Dev.hf_raiseBits _ _ _ (pageAddr_ne (by decide) (by decide) (.inr (by decide)))]
  exact reason_comStatus _ _ _ _ hr

theorem pe_failPage (d : Dev) (p : Page) (reason ofs : Nat) : (failPage p reason ofs d).pe = d.pe := by
  rw [failPage, Dev.raiseBits_pe, Dev.comStatus, Dev.setHf_pe, Dev.setHf_pe, Dev.setHf_pe, Dev.unaccept, Dev.onCom_pe,
    Dev.setHf_pe]

theorem pin_failPage (d : Dev) (p : Page) (reason ofs m : Nat) : (failPage p reason ofs d).pin m = d.pin m :=
  Dev.pin_congr (pe_failPage ..) m

/-- A commit that is not accepted, nor a global one, is not aborted. -/
theorem commitAborted_none {d : Dev} {p : Page} (hp : p ∉ d.com.accepted) (ha : d.com.gstate ≠ .accepted)
    (hpend : d.com.gstate ≠ .pending) : commitAborted p d = d := by
  simp [commitAborted, hp, ha, hpend]

theorem commitAborted_accepted {d : Dev} {p : Page} (hp : p ∈ d.com.accepted) :
    commitAborted p d = failPage p reABORTED 0 d := by
  simp [commitAborted, hp]

/-! ## SETP and the guard (R251) -/

theorem testBit_maskIn (n m v : Nat) {j : Nat} (hj : j < 4) :
    (maskIn n m v).testBit j = if m.testBit j then v.testBit j else n.testBit j := by
  have hbits : ∀ a b c d : Bool, ∀ i < 4, (((((0 + if a then 1 else 0) + if b then 2 else 0) + if c then 4 else 0) +
      if d then 8 else 0) : Nat).testBit i = [a, b, c, d].getD i false := by decide
  have hmask : ∀ x : Nat → Bool, (List.range 4).foldl (fun a j => if x j then a + 2 ^ j else a) 0 =
      ((((0 + if x 0 then 1 else 0) + if x 1 then 2 else 0) + if x 2 then 4 else 0) + if x 3 then 8 else 0) := by
    intro x
    simp only [List.range, List.range.loop, List.foldl]
    cases x 0 <;> cases x 1 <;> cases x 2 <;> cases x 3 <;> rfl
  have hget : ∀ x : Nat → Bool, [x 0, x 1, x 2, x 3].getD j false = x j := by
    intro x
    interval_cases j <;> rfl
  unfold maskIn
  rw [hmask fun j => if m.testBit j then v.testBit j else n.testBit j, hbits _ _ _ _ _ hj,
    hget fun j => if m.testBit j then v.testBit j else n.testBit j]

theorem testBit_orBit_same (n b : Nat) : (orBit n b).testBit b = true := by
  unfold orBit
  split
  case isTrue h => exact h
  case isFalse h => rw [Nat.add_comm, Nat.testBit_two_pow_add_eq, Bool.eq_false_iff.mpr h, Bool.not_false]

/-- An output that has been forced has its SAFE level. -/
theorem peOut_forced {d : Dev} {e j : Nat} (h : (d.pin e).forced.testBit j = true) :
    d.peOut e j = (d.peSafe e).testBit j := if_pos (.inr h)

/-- The guard that trips forces its output, and reports. -/
theorem peGuard_trip {d : Dev} {e j : Nat} (hmax : d.fi PE_OUT_GUARD_MAX_ON e 0 ≠ 0)
    (hmask : (d.fi PE_OUT_GUARD_MASK e 0).testBit j = true) (hout : d.peOut e j ≠ (d.peSafe e).testBit j) :
    peGuard e j d = pinReport PE_GUARD_TRIP PE_IRQ_RAW_GUARD 0x053 e
      (d.mapPin e fun g => { g with forced := orBit g.forced j }) := if_pos ⟨hmax, hmask, hout⟩

/-! ## STOP (R246) -/

/-- The state of an engine that has stopped. -/
def PeSt.halted (g : PeSt) (safe cause : Nat) : PeSt :=
  { g with state := peSTOPPED, stall := .none, idle := false, jump := none, outs := safe, cause }

/-- The registers of a page whose block stops by itself: EN and ACTIVE fall. -/
def Dev.disabled (d : Dev) (p : Page) : Dev := (d.setHf p HD_PAGE_CTRL_EN 0).setHf p HD_PAGE_STAT_ACTIVE 0

theorem peHalt_eq {d : Dev} {e : Nat} (h : (d.pin e).state ≠ peSTOPPED) (cause : Nat) : peHalt e cause d =
    ((d.setPin e ((d.pin e).halted (d.peSafe e) cause)).disabled (pePage e)).raiseBits (pePage e)
      (BitVec.ofNat 32 (2 ^ PE_IRQ_RAW_STOPPED.lo)) := if_neg h

theorem hf_disabled_en (d : Dev) (p : Page) : (d.disabled p).hf p HD_PAGE_CTRL_EN = 0 := by
  unfold Dev.disabled
  rw [Dev.hf_setHf_ne _ _ (by decide) (by decide) (by decide) (.inl (pageAddr_ne (by decide) (by decide) (.inr (by decide)))),
    Dev.hf_setHf_same _ _ _ _ (by decide) (by decide), Nat.zero_mod]

theorem hf_disabled_active (d : Dev) (p : Page) : (d.disabled p).hf p HD_PAGE_STAT_ACTIVE = 0 := by
  unfold Dev.disabled
  rw [Dev.hf_setHf_same _ _ _ _ (by decide) (by decide), Nat.zero_mod]

theorem onlyWords_disabled (d : Dev) {p : Page} {as : List Nat} (h8 : p.base + 8 ∈ as) (hC : p.base + 0xC ∈ as) :
    onlyWords d (d.disabled p) as := onlyWords_trans (onlyWords_setHf _ h8 _) (onlyWords_setHf _ hC _)

theorem onlyPinWords_disabled (d : Dev) (e : Nat) {p : Page} {as : List Nat} (h8 : p.base + 8 ∈ as)
    (hC : p.base + 0xC ∈ as) : onlyPinWords d (d.disabled p) e as :=
  ⟨rfl, fun _ _ => rfl, onlyWords_disabled d h8 hC⟩

section
variable {d : Dev} {e : Fin 8} (h : (d.pin e).state ≠ peSTOPPED) (cause : Nat)
include h

theorem pin_peHalt : (peHalt e cause d).pin e = (d.pin e).halted (d.peSafe e) cause := by
  rw [peHalt_eq h, Dev.pin_congr (Dev.raiseBits_pe ..)]
  exact Dev.pin_setPin_same d e _

theorem hf_peHalt_en : (peHalt e cause d).hf (.pe e) HD_PAGE_CTRL_EN = 0 := by
  rw [peHalt_eq h, pePage_val, Dev.hf_raiseBits _ _ _ (pageAddr_ne (by decide) (by decide) (.inr (by decide))), hf_disabled_en]

theorem hf_peHalt_active : (peHalt e cause d).hf (.pe e) HD_PAGE_STAT_ACTIVE = 0 := by
  rw [peHalt_eq h, pePage_val, Dev.hf_raiseBits _ _ _ (pageAddr_ne (by decide) (by decide) (.inr (by decide))), hf_disabled_active]

theorem onlyWords_peHalt :
    onlyWords d (peHalt e cause d) [(Page.pe e).base + 8, (Page.pe e).base + 0xC, (Page.pe e).base + 0x10] := by
  rw [peHalt_eq h, pePage_val]
  refine onlyWords_trans (onlyWords_of_regs (Dev.setPin_regs ..) _)
    (onlyWords_trans (onlyWords_disabled _ ?_ ?_) (onlyWords_raiseBits _ ?_ _)) <;> simp

theorem onlyPinWords_peHalt : onlyPinWords d (peHalt e cause d) e
    [(Page.pe e).base + 8, (Page.pe e).base + 0xC, (Page.pe e).base + 0x10] := by
  rw [peHalt_eq h, pePage_val]
  have hset := (onlyPin_setPin d e ((d.pin e).halted (d.peSafe e) cause)).words
    [(Page.pe e).base + 8, (Page.pe e).base + 0xC, (Page.pe e).base + 0x10]
  exact onlyPinWords_trans (onlyPinWords_trans hset (onlyPinWords_disabled _ _ (by simp) (by simp)))
    (onlyPinWords_raiseBits _ _ (by simp) _)

theorem com_peHalt : (peHalt e cause d).com = d.com := by
  rw [peHalt_eq h, Dev.raiseBits_com]
  rfl

theorem evq_peHalt : (peHalt e cause d).evq = d.evq := by
  rw [peHalt_eq h, Dev.raiseBits_evq]
  rfl

end

/-- An engine about to issue is not stopped. -/
theorem PeSt.state_ne_stopped_of_issues {g : PeSt} (h : g.issues = true) : g.state ≠ peSTOPPED := by
  have hrun : g.state = peRUN := by
    simp only [PeSt.issues, Bool.and_eq_true, decide_eq_true_eq] at h
    exact h.1.1
  rw [hrun]
  decide

theorem Dev.peReady_running {d : Dev} {e : Nat} {i : PIns} {dly : Nat} (h : d.peReady e i dly = true) :
    (d.pin e).state ≠ peSTOPPED := PeSt.state_ne_stopped_of_issues (Bool.and_eq_true_iff.mp h).1

/-- With no commit to abort, an engine that stops itself halts. -/
theorem peStopSelf_none {d : Dev} {e : Fin 8} (hp : (Page.pe e) ∉ d.com.accepted) (ha : d.com.gstate ≠ .accepted)
    (hpend : d.com.gstate ≠ .pending) (cause : Nat) : peStopSelf e cause d = peHalt e cause d := by
  rw [peStopSelf, pePage_val, commitAborted_none hp ha hpend, ite_self]

/-- An engine that stops itself while a commit of its page waits fails that commit. -/
theorem peStopSelf_accepted {d : Dev} {e : Fin 8} (hen : d.enabled (.pe e) = true) (hp : (Page.pe e) ∈ d.com.accepted)
    (cause : Nat) : peStopSelf e cause d = peHalt e cause (failPage (.pe e) reABORTED 0 d) := by
  rw [peStopSelf, pePage_val, if_pos hen, commitAborted_accepted hp]

/-- An illegal word stops the engine, and its event tells where it lies. -/
theorem peIllegal_eq {d : Dev} {e : Nat} (h : (d.pin e).issues = true) (hi : d.peIns e = none) : ∃ b, peIllegal e d =
    ((peStopSelf e 3 d).raiseI PE_IRQ_RAW_ILLEGAL e).emit 0x052 (pePage e) b := ⟨_, if_pos ⟨h, hi⟩⟩

end Sys2Proof.Machine

open Sys2Proof Sys2Proof.Machine

/-- Settles O22: SETP and the guard change the engine's outputs; IRQ raises; STOP and an illegal word halt the engine,
after they have aborted a commit that waits. -/
theorem pinOutputsAndStops : Obligations.PinOutputsAndStops := by
  refine ⟨fun e mask value dly s h => ?setp, fun e j s hmax hmask hout => ?guard, fun e n dly s h => ?irq,
    fun e dly s h hacc hga hgp => ?stop, fun e dly s h hen hacc => ?stopAborts, fun e s h hins hacc hga hgp => ?illegal⟩
  case setp =>
    refine ⟨_, runs_peRun rfl h, onlyPin_mapPin_peDone .., fun j hj => ?_⟩
    rw [Dev.pin_peDone, peSetp, Dev.pin_mapPin_same, PeSt.complete_eq]
    exact testBit_maskIn _ _ _ hj
  case guard =>
    have hforced : ((s.dev.mapPin e fun g => { g with forced := orBit g.forced j }).pin e).forced.testBit j = true := by
      rw [Dev.pin_mapPin_same]
      exact testBit_orBit_same ..
    have haddr : PE_GUARD_TRIP.addr e 0 ≠ (blkPage PE_IRQ_RAW_GUARD.blk e).base + 0x10 := by
      simpa [blkPage, PE_IRQ_RAW_GUARD] using peCounter_ne_irqRaw (F := PE_GUARD_TRIP) rfl rfl (by decide) e
    refine ⟨_, runs_onDev rfl (peGuard_trip hmax hmask hout), ?_, ?_, ?_, ?_, ?_, ?_⟩
    · exact peOut_forced (by rw [pin_pinReport]; exact hforced)
    · rw [pin_pinReport, Dev.pin_mapPin_same]
    · rw [pin_pinReport, Dev.pin_mapPin_same]
    · rw [fi_pinReport rfl rfl haddr, Dev.fi_mapPin]
    · exact evq_pinReport ..
    · exact onlyPinWords_trans ((onlyPin_mapPin ..).words _) (onlyPinWords_pinReport _ rfl ..)
  case irq =>
    refine ⟨_, runs_peRun rfl h, ?_, ?_⟩
    · exact onlyPinWords_trans (onlyPinWords_raiseBits _ _ (by simp) _) ((onlyPin_mapPin ..).words _)
    · exact (Dev.word_congr (Dev.setPin_regs ..) _).trans (Dev.word_raiseBits_same ..)
  case stop =>
    have hst := Dev.peReady_running h
    refine ⟨_, runs_onDev rfl ((if_pos h).trans (peStopSelf_none hacc hga hgp 2)), ?_⟩
    rw [pin_peHalt hst]
    exact ⟨rfl, rfl, rfl, rfl, rfl, hf_peHalt_en hst 2, hf_peHalt_active hst 2, onlyPinWords_peHalt hst 2⟩
  case stopAborts =>
    have hst : ((failPage (.pe e) reABORTED 0 s.dev).pin e).state ≠ peSTOPPED := by
      rw [pin_failPage]
      exact Dev.peReady_running h
    have hwords := onlyWords_peHalt hst 2
    have hstat : (Page.pe e).base + 0x20 ∉ [(Page.pe e).base + 8, (Page.pe e).base + 0xC, (Page.pe e).base + 0x10] := by
      simp
    refine ⟨_, runs_onDev rfl ((if_pos h).trans (peStopSelf_accepted hen hacc 2)), ?_, hf_peHalt_en hst 2, ?_, ?_, ?_⟩
    · rw [pin_peHalt hst]
      rfl
    · rw [com_peHalt hst 2]
      exact not_mem_accepted_failPage _ _ _ _
    · exact (hf_of_onlyWords hwords hstat).trans (comState_failPage ..)
    · exact (hf_of_onlyWords hwords hstat).trans (reason_failPage _ _ (by decide) _)
  case illegal =>
    have hst := PeSt.state_ne_stopped_of_issues h
    obtain ⟨b, hb⟩ := peIllegal_eq h hins
    rw [peStopSelf_none hacc hga hgp] at hb
    have hpin : ∀ m, (((peHalt e 3 s.dev).raiseI PE_IRQ_RAW_ILLEGAL e).emit 0x052 (pePage e) b).pin m =
        (peHalt e 3 s.dev).pin m := fun m => Dev.pin_congr (Dev.raiseBits_pe ..) m
    refine ⟨_, runs_onDev rfl hb, ?_, ?_, ?_, ?_, ?_⟩
    · rw [hpin, pin_peHalt hst]
      rfl
    · rw [hpin, pin_peHalt hst]
      rfl
    · rw [hpin, pin_peHalt hst]
      rfl
    · rw [Dev.emit_def, Dev.emitSrc_evq, Dev.raiseI_def, Dev.raiseBits_evq, evq_peHalt hst]
      exact ⟨_, rfl, rfl⟩
    · refine onlyPinWords_trans (onlyPinWords_peHalt hst 3) (onlyPinWords_trans (onlyPinWords_raiseBits _ _ ?_ _)
        (onlyPinWords_emitSrc ..))
      simp [blkPage, PE_IRQ_RAW_ILLEGAL]
end

section
/-! SUPPORT. Rules about one readout engine (R157, R158, R167, R168): what a change of it leaves unchanged, what the end
of an instruction changes, its register file, and the plain instructions built from that. -/
namespace Sys2Proof.Machine

/-! ## The state of one engine -/

@[simp] theorem Dev.engine_setEngine_same (d : Dev) (e : Nat) (g : EngSt) : (d.setEngine e g).engine e = g :=
  SMap.get_set_same ..

theorem Dev.engine_setEngine_ne (d : Dev) {e m : Nat} (g : EngSt) (h : m ≠ e) : (d.setEngine e g).engine m = d.engine m :=
  SMap.get_set_ne _ _ _ _ _ h

/-- Engines depend on their own map alone. -/
theorem Dev.engine_congr {d x : Dev} (h : x.eng = d.eng) (e : Nat) : x.engine e = d.engine e := by simp only [Dev.engine, h]

@[simp] theorem Dev.engine_setFi (d : Dev) (F : Fld) (i k v m : Nat) : (d.setFi F i k v).engine m = d.engine m :=
  Dev.engine_congr (Dev.setFi_eng ..) m

@[simp] theorem Dev.engine_raiseBits (d : Dev) (p : Page) (b : Word) (m : Nat) : (d.raiseBits p b).engine m = d.engine m :=
  Dev.engine_congr (Dev.raiseBits_eng ..) m

theorem onlyEngine_setEngine (d : Dev) (e : Nat) (g : EngSt) : onlyEngine d (d.setEngine e g) e :=
  ⟨rfl, fun _ hm => Dev.engine_setEngine_ne _ _ hm⟩

theorem onlyEngine_trans {d x y : Dev} {e : Nat} (h : onlyEngine d x e) (h' : onlyEngine x y e) : onlyEngine d y e := by
  obtain ⟨hx, heng⟩ := h
  obtain ⟨hy, heng'⟩ := h'
  exact ⟨frame_trans (fun x d => { d with eng := x.eng }) (fun _ _ _ => rfl) hx hy,
    fun m hm => (heng' m hm).trans (heng m hm)⟩

theorem onlyEngine.regs {d x : Dev} {e : Nat} (h : onlyEngine d x e) : x.regs = d.regs := (congrArg Dev.regs h.1).trans rfl

theorem onlyEngine.ary {d x : Dev} {e : Nat} (h : onlyEngine d x e) : x.ary = d.ary := (congrArg Dev.ary h.1).trans rfl

/-! ## The end of an instruction (R162, R167, R193) -/

/-- What the end of an instruction can change: PC and the wrap pair, and how the engine goes on. -/
theorem EngSt.advance_frame (g : EngSt) : g.advance =
    { g with past := g.advance.past, pc := g.advance.pc, wrapTop := g.advance.wrapTop, wrapBot := g.advance.wrapBot,
             pendWrap := g.advance.pendWrap, idle := false, jump := none, stall := .none,
             state := if g.stepping then engHALTED else engRUN, dirty := g.advance.dirty, stepping := false } := by
  cases hj : g.jump with
  | some a => simp [EngSt.advance, hj]
  | none =>
    by_cases hpc : g.pc = g.wrapTop
    · cases hp : g.pendWrap <;> simp [EngSt.advance, hj, hpc, hp]
    · simp [EngSt.advance, hj, hpc]

/-- The same of an instruction that completes. -/
theorem EngSt.complete_frame (g : EngSt) (dly : Nat) (j : Option Nat) : g.complete dly j =
    { g with past := (g.complete dly j).past, pc := (g.complete dly j).pc, wrapTop := (g.complete dly j).wrapTop,
             wrapBot := (g.complete dly j).wrapBot, pendWrap := (g.complete dly j).pendWrap,
             idle := (g.complete dly j).idle, jump := (g.complete dly j).jump, stall := .none,
             state := (g.complete dly j).state, dirty := (g.complete dly j).dirty,
             stepping := (g.complete dly j).stepping } := by
  unfold EngSt.complete
  dsimp only
  split
  · rw [EngSt.advance_frame]
  · rfl

section
variable (g : EngSt) (dly : Nat) (j : Option Nat)

@[simp] theorem EngSt.complete_x : (g.complete dly j).x = g.x :=
  (congrArg EngSt.x (g.complete_frame dly j)).trans rfl
@[simp] theorem EngSt.complete_y : (g.complete dly j).y = g.y :=
  (congrArg EngSt.y (g.complete_frame dly j)).trans rfl
@[simp] theorem EngSt.complete_t : (g.complete dly j).t = g.t :=
  (congrArg EngSt.t (g.complete_frame dly j)).trans rfl
@[simp] theorem EngSt.complete_p : (g.complete dly j).p = g.p :=
  (congrArg EngSt.p (g.complete_frame dly j)).trans rfl
@[simp] theorem EngSt.complete_z : (g.complete dly j).z = g.z :=
  (congrArg EngSt.z (g.complete_frame dly j)).trans rfl
@[simp] theorem EngSt.complete_stale : (g.complete dly j).stale = g.stale :=
  (congrArg EngSt.stale (g.complete_frame dly j)).trans rfl
@[simp] theorem EngSt.complete_drop : (g.complete dly j).drop = g.drop :=
  (congrArg EngSt.drop (g.complete_frame dly j)).trans rfl
@[simp] theorem EngSt.complete_c : (g.complete dly j).c = g.c :=
  (congrArg EngSt.c (g.complete_frame dly j)).trans rfl
@[simp] theorem EngSt.complete_ctxF : (g.complete dly j).ctxF = g.ctxF :=
  (congrArg EngSt.ctxF (g.complete_frame dly j)).trans rfl
@[simp] theorem EngSt.complete_parF : (g.complete dly j).parF = g.parF :=
  (congrArg EngSt.parF (g.complete_frame dly j)).trans rfl
@[simp] theorem EngSt.complete_outF : (g.complete dly j).outF = g.outF :=
  (congrArg EngSt.outF (g.complete_frame dly j)).trans rfl
@[simp] theorem EngSt.complete_top : (g.complete dly j).top = g.top :=
  (congrArg EngSt.top (g.complete_frame dly j)).trans rfl
@[simp] theorem EngSt.complete_bot : (g.complete dly j).bot = g.bot :=
  (congrArg EngSt.bot (g.complete_frame dly j)).trans rfl
@[simp] theorem EngSt.complete_stall : (g.complete dly j).stall = .none :=
  (congrArg EngSt.stall (g.complete_frame dly j)).trans rfl

@[simp] theorem EngSt.statReg_complete : (g.complete dly j).statReg = g.statReg := by rw [EngSt.complete_frame]; rfl

/-- The end of an instruction changes no FIFO, chain, context register or trigger line. -/
theorem EngSt.sameBuffers_complete : (g.complete dly j).sameBuffers g := by
  rw [EngSt.complete_frame]
  exact ⟨rfl, rfl, rfl, rfl, rfl, rfl, rfl⟩

end

/-- An engine that is not stepped runs on after an instruction. -/
theorem EngSt.complete_state (g : EngSt) (h : g.stepping = false) (dly : Nat) (j : Option Nat) :
    (g.complete dly j).state = engRUN := by
  unfold EngSt.complete
  dsimp only
  split
  · rw [EngSt.advance_frame]
    simp [h]
  · rfl

theorem EngSt.sameBuffers_trans {g h i : EngSt} (hgh : g.sameBuffers h) (hhi : h.sameBuffers i) : g.sameBuffers i := by
  obtain ⟨a1, a2, a3, a4, a5, a6, a7⟩ := hgh
  obtain ⟨b1, b2, b3, b4, b5, b6, b7⟩ := hhi
  exact ⟨a1.trans b1, a2.trans b2, a3.trans b3, a4.trans b4, a5.trans b5, a6.trans b6, a7.trans b7⟩

@[simp] theorem Dev.engine_engDone (d : Dev) (e dly : Nat) (j : Option Nat) :
    (d.engDone e dly j).engine e = (d.engine e).complete dly j := Dev.engine_setEngine_same ..

theorem onlyEngine_engDone {d x : Dev} {e : Nat} (h : onlyEngine d x e) (dly : Nat) (j : Option Nat) :
    onlyEngine d (x.engDone e dly j) e := onlyEngine_trans h (onlyEngine_setEngine ..)

/-- A change of the engine's own state that completes. -/
theorem onlyEngine_setEngine_engDone (d : Dev) (e : Nat) (g : EngSt) (dly : Nat) (j : Option Nat) :
    onlyEngine d ((d.setEngine e g).engDone e dly j) e := onlyEngine_engDone (onlyEngine_setEngine ..) ..

theorem engine_setEngine_engDone (d : Dev) (e : Nat) (g : EngSt) (dly : Nat) (j : Option Nat) :
    ((d.setEngine e g).engDone e dly j).engine e = g.complete dly j := by
  rw [Dev.engine_engDone, Dev.engine_setEngine_same]

/-! ## The register file (R158) -/

/-- Registers 0 to 7, which instructions write. -/
def EngSt.file (g : EngSt) : Nat → Nat
  | 0 => g.x | 1 => g.y | 2 => g.w | 3 => g.rt | 4 => g.rb | 5 => g.t | 6 => g.p | _ => g.tag

theorem engReg_file (d : Dev) (e now : Nat) {r : Nat} (h : r < 8) : d.engReg e now r = (d.engine e).file r := by
  interval_cases r <;> rfl

/-- The other registers but STAT are not the engine's own. -/
theorem engReg_other {d y : Dev} {e : Nat} (h : onlyEngine d y e) (now : Nat) {r : Nat} (h8 : 8 ≤ r) (h9 : r ≠ 9) (h15 : r < 15) :
    y.engReg e now r = d.engReg e now r := by
  rw [h.1]
  interval_cases r
  · rfl
  · exact absurd rfl h9
  all_goals rfl

theorem EngSt.file_complete (g : EngSt) (dly : Nat) (j : Option Nat) (r : Nat) : (g.complete dly j).file r = g.file r := by
  rw [EngSt.complete_frame]
  unfold EngSt.file
  split <;> rfl

/-- A register of the file reads what was written, at its width; the others keep their values. -/
theorem EngSt.file_setReg (g : EngSt) {r q : Nat} (hr : r < 15) (hq : q < 8) (v : Nat) :
    (g.setReg r v).file q = if q = r ∧ q < 8 then v % 2 ^ regWidth r else g.file q := by
  by_cases h8 : r < 8
  · interval_cases r <;> interval_cases q <;> rfl
  · have hset : g.setReg r v = g := by
      have hge : 8 ≤ r := Nat.le_of_not_lt h8
      interval_cases r <;> rfl
    rw [hset, if_neg fun h : q = r ∧ q < 8 => h8 (h.1 ▸ h.2)]

/-- A result is a register written at its width, and Z. -/
theorem EngSt.file_setResult (g : EngSt) {r q : Nat} (hr : r < 15) (hq : q < 8) (v : Int) :
    (g.setResult r v).file q = if q = r ∧ q < 8 then unsigned (regWidth r) v else g.file q := by
  have hset := g.file_setReg hr hq (unsigned (regWidth r) v)
  rw [Nat.mod_eq_of_lt (unsigned_lt _ v)] at hset
  rw [← hset]
  unfold EngSt.setResult EngSt.file
  split <;> rfl

/-- Registers written change no buffer. -/
theorem EngSt.sameBuffers_setReg (g : EngSt) (r v : Nat) : (g.setReg r v).sameBuffers g := by
  unfold EngSt.setReg
  split <;> exact ⟨rfl, rfl, rfl, rfl, rfl, rfl, rfl⟩

theorem EngSt.statReg_setReg (g : EngSt) (r v : Nat) : (g.setReg r v).statReg = g.statReg := by
  unfold EngSt.setReg
  split <;> rfl

/-- The end of an instruction changes no register. -/
theorem engReg_engDone (d : Dev) (e now dly : Nat) (j : Option Nat) {r : Nat} (hr : r < 15) :
    (d.engDone e dly j).engReg e now r = d.engReg e now r := by
  by_cases h8 : r < 8
  · rw [engReg_file _ _ _ h8, engReg_file _ _ _ h8, Dev.engine_engDone, EngSt.file_complete]
  · by_cases h9 : r = 9
    · subst h9
      change ((d.engDone e dly j).engine e).statReg = (d.engine e).statReg
      rw [Dev.engine_engDone, EngSt.statReg_complete]
    · exact engReg_other (onlyEngine_setEngine ..) now (by omega) h9 hr

/-- The registers of an engine whose state changes but for STAT: those of the file as the new state has them. -/
theorem engReg_setEngine (d : Dev) (e now : Nat) {g : EngSt} (hstat : g.statReg = (d.engine e).statReg) {r : Nat}
    (hr : r < 15) : (d.setEngine e g).engReg e now r = if r < 8 then g.file r else d.engReg e now r := by
  split
  case isTrue h => rw [engReg_file _ _ _ h, Dev.engine_setEngine_same]
  case isFalse h =>
    by_cases h9 : r = 9
    · subst h9
      change ((d.setEngine e g).engine e).statReg = (d.engine e).statReg
      rw [Dev.engine_setEngine_same, hstat]
    · exact engReg_other (onlyEngine_setEngine ..) now (by omega) h9 hr

/-- The registers but STAT after an instruction that writes a result. -/
theorem engReg_setResult_engDone (d : Dev) (e now dly : Nat) {q r : Nat} (hq : q < 15) (v : Int) (hr : r < 15) (h9 : r ≠ 9) :
    ((d.setEngine e ((d.engine e).setResult q v)).engDone e dly).engReg e now r =
      if r = q ∧ r < 8 then unsigned (regWidth q) v else d.engReg e now r := by
  by_cases h : r < 8
  · rw [engReg_file _ _ _ h, engReg_file _ _ _ h, engine_setEngine_engDone, EngSt.file_complete, EngSt.file_setResult _ hq h]
  · rw [engReg_other (onlyEngine_setEngine_engDone ..) now (by omega) h9 hr, if_neg fun hr' => h hr'.2]

theorem sameBuffers_setResult_engDone (d : Dev) (e dly : Nat) (g : EngSt) (q : Nat) (v : Int) :
    (((d.setEngine e (g.setResult q v)).engDone e dly).engine e).sameBuffers g := by
  rw [engine_setEngine_engDone]
  exact EngSt.sameBuffers_trans (EngSt.sameBuffers_complete ..) (EngSt.sameBuffers_setReg g q (unsigned (regWidth q) v))

theorem z_setResult_engDone (d : Dev) (e dly : Nat) (g : EngSt) (q : Nat) (v : Int) :
    (((d.setEngine e (g.setResult q v)).engDone e dly).engine e).z = decide (unsigned (regWidth q) v = 0) := by
  rw [engine_setEngine_engDone, EngSt.complete_z]
  rfl

/-! ## Plain instructions (R168) -/

/-- An instruction that completes on its issue cycle runs to its effect and its end. -/
theorem runs_engRun {c : Instr} {s : State} {e : Nat} {i : EIns} {dly : Nat} {f : EngSt → EngSt}
    (hc : exec c s = onDev (engRun e i dly f) s) (h : s.dev.engReady e i dly = true) :
    runs c s ((s.dev.setEngine e (f (s.dev.engine e))).engDone e dly) := runs_onDev hc (if_pos h)

/-- SETH replaces the high half of its register. -/
theorem EngSt.setHigh_eq (g : EngSt) {r : Nat} (hr : r < 3) (imm : Nat) :
    g.setHigh r imm = g.setReg r (imm * 65536 + g.file r % 65536) := by
  interval_cases r <;> rfl

theorem regWidth_lt_three {r : Nat} (hr : r < 3) : regWidth r = 32 := by interval_cases r <;> rfl

/-- A half word above a half word makes a word. -/
theorem halves_lt (imm : BitVec 16) (v : Nat) : imm.toNat * 65536 + v % 65536 < 2 ^ 32 := by
  have := imm.isLt
  omega

theorem engMov_eq (d : Dev) (e dst src now : Nat) (op : Fin 4) (g : EngSt) : engMov e dst src op now d g =
    g.setResult dst (movValue op (d.engReg e now dst) (d.engReg e now src)) := by
  obtain rfl | rfl | rfl | rfl : op = 0 ∨ op = 1 ∨ op = 2 ∨ op = 3 := by omega
  all_goals rfl

end Sys2Proof.Machine

open Sys2Proof Sys2Proof.Machine

/-- Settles O12: each plain instruction writes a register of the file, and Z, and then ends. -/
theorem engineArithmeticWritesDestination : Obligations.EngineArithmeticWritesDestination := by
  refine ⟨fun e dly s h => ?nop, fun e dst imm dly s h => ?set, fun e dst imm dly s h => ?seth,
    fun e ph dst imm dly s h => ?add, fun e ph dst src op dly s h => ?mov⟩
  case nop =>
    refine ⟨_, runs_engRun rfl h, onlyEngine_setEngine_engDone .., ?_, fun now r hr => ?_⟩
    · rw [engine_setEngine_engDone]
      exact EngSt.sameBuffers_complete ..
    · rw [engReg_engDone _ _ _ _ _ hr, engReg_setEngine (g := id (s.dev.engine e)) _ _ _ rfl hr]
      exact ite_eq_right_iff.mpr fun h8 => (engReg_file _ _ _ h8).symm
  case set =>
    refine ⟨_, runs_engRun rfl h, onlyEngine_setEngine_engDone .., ?_, fun now r hr => ?_⟩
    · rw [engine_setEngine_engDone]
      exact EngSt.sameBuffers_trans (EngSt.sameBuffers_complete ..) (EngSt.sameBuffers_setReg ..)
    · rw [engReg_engDone _ _ _ _ _ hr, engReg_setEngine _ _ _ (EngSt.statReg_setReg ..) hr]
      by_cases h8 : r < 8
      · rw [if_pos h8, EngSt.file_setReg _ dst.isLt h8, ← engReg_file s.dev e now h8]
        by_cases hrd : r = dst.val
        · rw [if_pos ⟨hrd, h8⟩, if_pos ⟨hrd, h8⟩, hrd]
        · rw [if_neg fun hd => hrd hd.1, if_neg fun hd => hrd hd.1]
      · rw [if_neg h8, if_neg fun hd => h8 hd.2]
  case seth =>
    have hdst : dst.val < 15 := dst.isLt.trans (by decide)
    refine ⟨_, runs_engRun rfl h, onlyEngine_setEngine_engDone .., ?_, fun now r hr => ?_⟩
    · rw [engine_setEngine_engDone, EngSt.setHigh_eq _ dst.isLt]
      exact EngSt.sameBuffers_trans (EngSt.sameBuffers_complete ..) (EngSt.sameBuffers_setReg ..)
    · rw [EngSt.setHigh_eq _ dst.isLt, engReg_engDone _ _ _ _ _ hr, engReg_setEngine _ _ _ (EngSt.statReg_setReg ..) hr]
      by_cases h8 : r < 8
      · rw [if_pos h8, EngSt.file_setReg _ hdst h8, ← engReg_file s.dev e now h8, regWidth_lt_three dst.isLt,
          Nat.mod_eq_of_lt (halves_lt ..)]
        by_cases hrd : r = dst.val
        · subst hrd
          rw [if_pos ⟨rfl, h8⟩, if_pos rfl, engReg_file s.dev e now h8]
        · rw [if_neg fun hd => hrd hd.1, if_neg hrd]
      · rw [if_neg h8, if_neg fun hd : r = dst.val => h8 (hd ▸ dst.isLt.trans (by decide))]
  case add =>
    exact ⟨_, _, runs_engRun rfl h, onlyEngine_setEngine_engDone .., sameBuffers_setResult_engDone .., rfl,
      z_setResult_engDone .., fun now r hr h9 => engReg_setResult_engDone _ _ _ _ dst.isLt _ hr h9⟩
  case mov =>
    have hrun : runs (.engMov e ph dst src op dly) s _ :=
      runs_engRun (f := engMov e dst src op (s.dev.cyc + ph) s.dev) rfl h
    rw [engMov_eq] at hrun
    exact ⟨_, _, hrun, onlyEngine_setEngine_engDone .., sameBuffers_setResult_engDone .., rfl,
      z_setResult_engDone .., fun now r hr h9 => engReg_setResult_engDone _ _ _ _ dst.isLt _ hr h9⟩
end

section
/-! SUPPORT. Proofs about how a readout engine goes on (R161, R167, R169, R193, R196): the PC behind an instruction, the
jumps, and what stops it. -/
namespace Sys2Proof.Machine

/-! ## The next PC (R193) -/

/-- The PC behind an instruction that takes no jump, where no wrap pair is pending. -/
def EngSt.follow (g : EngSt) : Nat := if g.pc = g.wrapTop then g.wrapBot % 1024 else (g.pc + 1) % 1024

theorem EngSt.advance_pc {g : EngSt} (h : g.pendWrap = none) : g.advance.pc = g.jump.getD g.follow := by
  cases hj : g.jump with
  | some a => simp [EngSt.advance, hj]
  | none => by_cases hpc : g.pc = g.wrapTop <;> simp [EngSt.advance, EngSt.follow, hj, hpc, h]

@[simp] theorem EngSt.advance_idle (g : EngSt) : g.advance.idle = false := by rw [EngSt.advance_frame]

/-- An instruction with DELAY 0 goes on at once. -/
theorem EngSt.complete_zero (g : EngSt) (j : Option Nat) :
    g.complete 0 j = { g with jump := j, stall := .none, state := engRUN }.advance := by
  simp [EngSt.complete]

/-- With a DELAY the engine keeps PC and the jump until it has passed. -/
theorem EngSt.complete_delay {g : EngSt} (h : g.stepping = false) {dly : Nat} (hdly : dly ≠ 0) (j : Option Nat) :
    g.complete dly j = { g with jump := j, stall := .none, state := engRUN, idle := true } := by
  simp [EngSt.complete, hdly, h]

/-! ## JMP (R169) -/

theorem setReg_zero (g : EngSt) (v : Nat) : g.setReg 0 v = { g with x := v % 2 ^ 32 } := rfl

theorem setReg_one (g : EngSt) (v : Nat) : g.setReg 1 v = { g with y := v % 2 ^ 32 } := rfl

/-- XDEC and YDEC count down; no other condition changes a register. -/
theorem EngSt.jmpEffect_frame (g : EngSt) (cond : Nat) :
    g.jmpEffect cond = { g with x := if cond = 3 then (g.x + (2 ^ 32 - 1)) % 2 ^ 32 else g.x,
                                y := if cond = 4 then (g.y + (2 ^ 32 - 1)) % 2 ^ 32 else g.y } := by
  unfold EngSt.jmpEffect
  split
  case h_1 => rw [setReg_zero, Nat.add_sub_assoc (by decide), if_pos rfl, if_neg (by decide)]
  case h_2 => rw [setReg_one, Nat.add_sub_assoc (by decide), if_neg (by decide), if_pos rfl]
  case h_3 h3 h4 => rw [if_neg h3, if_neg h4]

theorem runs_engJmp {e : Fin 96} {cond : Fin 14} {addr : Fin 1024} {dly : Fin 32} {s : State}
    (h : s.dev.engReady e (.jmp cond addr) dly = true) :
    runs (.engJmp e cond addr dly) s (engJmp e cond addr dly s.dev) := runs_onDev rfl (if_pos h)

theorem engine_engJmp (d : Dev) (e cond addr dly : Nat) : (engJmp e cond addr dly d).engine e =
    ((d.engine e).jmpEffect cond).complete dly (if (d.engine e).jmpHolds cond then some addr else none) :=
  engine_setEngine_engDone ..

/-! ## Interrupts and stops -/

@[simp] theorem engPage_val (e : Fin 96) : engPage e = .eng e := by simp [engPage]

@[simp] theorem blkPage_eng (e : Fin 96) : blkPage .eng e = .eng e := by simp [blkPage]

/-- An engine's state changed and an interrupt of its page set. -/
theorem onlyWords_setEngine_raiseBits (d : Dev) (e : Nat) (g : EngSt) {p : Page} {as : List Nat} (h : p.base + 0x10 ∈ as)
    (b : Word) : onlyWords d ((d.setEngine e g).raiseBits p b) as :=
  onlyWords_trans (onlyWords_of_regs (Dev.setEngine_regs ..) _) (onlyWords_raiseBits _ h b)

theorem word_setEngine_raiseBits (d : Dev) (e : Nat) (g : EngSt) (p : Page) (b : Word) :
    ((d.setEngine e g).raiseBits p b).word (p.base + 0x10) = d.word (p.base + 0x10) ||| b := by
  rw [Dev.word_raiseBits_same, Dev.word_congr (Dev.setEngine_regs ..)]

theorem engine_setEngine_raiseBits (d : Dev) (e : Nat) (g : EngSt) (p : Page) (b : Word) :
    ((d.setEngine e g).raiseBits p b).engine e = g := by
  rw [Dev.engine_raiseBits, Dev.engine_setEngine_same]

/-- No register of an engine depends on what raising an interrupt changes. -/
theorem engReg_raiseBits (d : Dev) (p : Page) (b : Word) (e now r : Nat) :
    (d.raiseBits p b).engReg e now r = d.engReg e now r := by
  have hsame : ∀ x : Dev, (takeRaised x d).engReg e now r = d.engReg e now r := fun _ => rfl
  rw [takeRaised_raiseBits]
  exact hsame _

/-- STOP leaves PC and all else of the engine but its state and the mark of a shifted chain. -/
theorem engStopSelf_eq (e : Fin 96) (d : Dev) : engStopSelf e d =
    (d.setEngine e { d.engine e with state := engSTOPPED, dirty := (d.engine e).dirty || (d.engine e).shifted,
                                     stepping := false }).raiseBits (.eng e) (BitVec.ofNat 32 (2 ^ 12)) := by
  rw [engStopSelf, Dev.raiseI_def]
  simp only [ENG_IRQ_RAW_STOPPED, blkPage_eng]

theorem engIllegal_eq {d : Dev} {e : Fin 96} (h : (d.engine e).issues = true) (hi : d.engIns e = none) : engIllegal e d =
    ((d.setEngine e { d.engine e with state := engILLEGAL, dirty := (d.engine e).dirty || (d.engine e).shifted,
                                      stepping := false }).raiseBits (.eng e) (BitVec.ofNat 32 (2 ^ 13))).emitSrc
      0x04B (Page.eng e).code (u16 (d.engine e).pc ++ u32 (d.imem e (d.engine e).pc).toNat) := by
  refine (if_pos ⟨h, hi⟩).trans ?_
  rw [Dev.raiseI_def, engPage_val, Dev.emit_def]
  have himem : ∀ g : EngSt, (d.setEngine e g).imem e (d.engine e).pc = d.imem e (d.engine e).pc :=
    fun _ => Dev.word_congr (Dev.setEngine_regs ..) _
  simp only [ENG_IRQ_RAW_ILLEGAL, blkPage_eng, himem]

end Sys2Proof.Machine

open Sys2Proof Sys2Proof.Machine

/-- Settles O13: PC behind each instruction, from what its end changes; IRQ, STOP and an illegal word set one bit of
IRQ_RAW. -/
theorem engineControlFlow : Obligations.EngineControlFlow := by
  refine ⟨fun e cond addr s h hpend => ?jmp, fun e cond addr dly s h hdly hstep => ?jmpDelay,
    fun e s hrun hidle hpend => ?delayEnd, fun e n dly s h => ?irq, fun e dly s h => ?stop, fun e s h hi => ?illegal⟩
  case jmp =>
    have h3 : (cond.val = 3) = (cond = 3) := by rw [Fin.ext_iff]; rfl
    have h4 : (cond.val = 4) = (cond = 4) := by rw [Fin.ext_iff]; rfl
    refine ⟨_, runs_engJmp h, onlyEngine_setEngine_engDone .., ?_, ?_, ?_⟩
    · rw [engine_engJmp, Fin.val_zero, EngSt.complete_zero, EngSt.jmpEffect_frame, EngSt.advance_pc (by exact hpend)]
      cases (s.dev.engine e).jmpHolds cond <;> rfl
    · rw [engine_engJmp, EngSt.complete_x, EngSt.jmpEffect_frame]
      simp only [h3]
    · rw [engine_engJmp, EngSt.complete_y, EngSt.jmpEffect_frame]
      simp only [h4]
  case jmpDelay =>
    have hne : dly.val ≠ 0 := fun h0 => hdly (Fin.ext h0)
    have hend := engine_engJmp s.dev e cond addr dly
    rw [EngSt.complete_delay (by rw [EngSt.jmpEffect_frame]; exact hstep) hne, EngSt.jmpEffect_frame] at hend
    exact ⟨_, runs_engJmp h, onlyEngine_setEngine_engDone .., by rw [hend], by rw [hend], by rw [hend]⟩
  case delayEnd =>
    refine ⟨_, runs_onDev rfl (if_pos ⟨hrun, hidle⟩), onlyEngine_setEngine .., ?_⟩
    rw [Dev.engine_setEngine_same]
    refine ⟨EngSt.advance_idle _, ?_⟩
    rw [EngSt.advance_pc hpend]
    cases (s.dev.engine e).jump <;> rfl
  case irq =>
    refine ⟨_, runs_onDev rfl (if_pos h), ?_, ?_, fun now r hr => ?_⟩
    · exact onlyWords_trans (onlyWords_raiseBits _ (by simp) _) (onlyWords_of_regs (Dev.setEngine_regs ..) _)
    · exact (Dev.word_congr (Dev.setEngine_regs ..) _).trans (Dev.word_raiseBits_same ..)
    · rw [engReg_engDone _ _ _ _ _ hr, engReg_raiseBits]
  case stop =>
    have hstop := engStopSelf_eq e s.dev
    refine ⟨_, runs_onDev rfl ((if_pos h).trans hstop), ?_, ?_, ?_, ?_⟩
    · rw [engine_setEngine_raiseBits]
    · exact onlyWords_setEngine_raiseBits _ _ _ (by simp) _
    · exact word_setEngine_raiseBits ..
    · rw [Dev.raiseBits_ary, Dev.setEngine_ary]
  case illegal =>
    refine ⟨_, runs_onDev rfl (engIllegal_eq h hi), ?_, ?_, ?_, ?_, ?_⟩
    · rw [Dev.engine_congr (Dev.emitSrc_eng ..), engine_setEngine_raiseBits]
    · rw [Dev.engine_congr (Dev.emitSrc_eng ..), engine_setEngine_raiseBits]
    · exact onlyWords_regs (onlyWords_setEngine_raiseBits _ _ _ (by simp) _) (Dev.emitSrc_regs ..)
    · rw [Dev.word_congr (Dev.emitSrc_regs ..), word_setEngine_raiseBits]
    · rw [Dev.emitSrc_evq, Dev.raiseBits_evq, Dev.setEngine_evq]
      exact ⟨_, rfl, rfl, rfl⟩
end

section
/-! SUPPORT. Proofs about the FIFOs of a readout engine (R172 to R175): what a PULL takes, what a PUSH adds, and the
parameter, output and context FIFOs from the other end. -/
namespace Sys2Proof.Machine

/-! ## An error counted between a change of the engine and the end of its instruction -/

theorem engine_setEngine_bumpI_engDone (d : Dev) (e : Nat) (g : EngSt) (F : Fld) (dly : Nat) :
    (((d.setEngine e g).bumpI F e 0).engDone e dly).engine e = g.complete dly := by
  rw [Dev.engine_engDone, Dev.bumpI_def, Dev.engine_setFi, Dev.engine_setEngine_same]

theorem fi_setEngine (d : Dev) (e : Nat) (g : EngSt) (F : Fld) (i k : Nat) : (d.setEngine e g).fi F i k = d.fi F i k :=
  Dev.fi_congr (Dev.setEngine_regs ..) ..

theorem fi_engDone (d : Dev) (e dly : Nat) (j : Option Nat) (F : Fld) (i k : Nat) : (d.engDone e dly j).fi F i k = d.fi F i k :=
  fi_setEngine ..

theorem fi_setEngine_bumpI_engDone (d : Dev) (e : Nat) (g : EngSt) {F : Fld} (hlo : F.lo = 0) (hhi : F.hi = 31) (dly : Nat) :
    (((d.setEngine e g).bumpI F e 0).engDone e dly).fi F e 0 = (d.fi F e 0 + 1) % 2 ^ 32 := by
  rw [fi_engDone, Dev.fi_bumpI_same _ hlo hhi, fi_setEngine]

theorem onlyWords_setEngine (d : Dev) (e : Nat) (g : EngSt) (as : List Nat) : onlyWords d (d.setEngine e g) as :=
  onlyWords_of_regs (Dev.setEngine_regs ..) as

theorem onlyWords_engDone (d : Dev) (e dly : Nat) (j : Option Nat) (as : List Nat) : onlyWords d (d.engDone e dly j) as :=
  onlyWords_setEngine _ _ _ _

theorem onlyWords_bumpI (d : Dev) {F : Fld} {i k : Nat} {as : List Nat} (h : F.addr i k ∈ as) :
    onlyWords d (d.bumpI F i k) as := onlyWords_setFi d h _

theorem onlyWords_setEngine_bumpI_engDone (d : Dev) (e : Nat) (g : EngSt) (F : Fld) (dly : Nat) :
    onlyWords d (((d.setEngine e g).bumpI F e 0).engDone e dly) [F.addr e 0] :=
  onlyWords_trans (onlyWords_trans (onlyWords_setEngine _ _ _ _) (onlyWords_bumpI _ (List.mem_singleton.mpr rfl)))
    (onlyWords_engDone _ _ _ _ _)

/-! ## PULL (R174) -/

/-- The request for entries changes nothing that an instruction sees. -/
theorem EngSt.refill_frame (g : EngSt) (thr : Nat) : g.refill thr = { g with swFill := (g.refill thr).swFill } := by
  unfold EngSt.refill
  split
  · rfl
  · split <;> rfl

section
variable (g : EngSt) (thr : Nat)
theorem EngSt.refill_x : (g.refill thr).x = g.x := by rw [EngSt.refill_frame]
theorem EngSt.refill_t : (g.refill thr).t = g.t := by rw [EngSt.refill_frame]
theorem EngSt.refill_c : (g.refill thr).c = g.c := by rw [EngSt.refill_frame]
theorem EngSt.refill_parF : (g.refill thr).parF = g.parF := by rw [EngSt.refill_frame]
theorem EngSt.refill_ctxF : (g.refill thr).ctxF = g.ctxF := by rw [EngSt.refill_frame]
theorem EngSt.refill_stale : (g.refill thr).stale = g.stale := by rw [EngSt.refill_frame]
theorem EngSt.refill_swLeft : (g.refill thr).swLeft = g.swLeft := by rw [EngSt.refill_frame]
end

theorem EngSt.pulled_par {g : EngSt} {w : Word} {l : List Word} (h : g.parF = w :: l) :
    g.pulled true = some { g with x := w.toNat, parF := l, stale := false } := by
  simp [EngSt.pulled, h]

theorem EngSt.pulled_ctx {g : EngSt} {x : CtxEntry} {l : List CtxEntry} (h : g.ctxF = x :: l) :
    g.pulled false = some { g with c := x.ws, cTy := x.ty, t := x.ty, ctxF := l, stale := false } := by
  simp [EngSt.pulled, h]

theorem EngSt.pulled_none {g : EngSt} (h : g.parF = []) : g.pulled true = none := by simp [EngSt.pulled, h]

/-- What a PULL that finds its data does. -/
theorem runs_engPull {e : Fin 96} {par nb : Bool} {dly : Fin 32} {s : State} {g : EngSt}
    (h : s.dev.engReady e (.pull par nb) dly = true) (hg : (s.dev.engine e).pulled par = some g) :
    runs (.engPull e par nb dly) s ((s.dev.setEngine e (g.refill (s.dev.ai ENG_DMA_CFG_THR e 0))).engDone e dly) := by
  refine runs_onDev rfl ((if_pos h).trans ?_)
  simp only [engPull, hg]

theorem runs_engPull_stale {e : Fin 96} {dly : Fin 32} {s : State} (h : s.dev.engReady e (.pull true true) dly = true)
    (hnil : (s.dev.engine e).parF = []) : runs (.engPull e true true dly) s
      (((s.dev.setEngine e { s.dev.engine e with stale := true }).bumpI ENG_PULL_STALE e 0).engDone e dly) := by
  refine runs_onDev rfl ((if_pos h).trans ?_)
  simp only [engPull, EngSt.pulled_none hnil, true_or, if_true]

theorem runs_engPull_stall {e : Fin 96} {dly : Fin 32} {s : State} (h : s.dev.engReady e (.pull true false) dly = true)
    (hnil : (s.dev.engine e).parF = []) : runs (.engPull e true false dly) s
      (s.dev.setEngine e { s.dev.engine e with state := engFIFO, stall := .pull true }) := by
  refine runs_onDev rfl ((if_pos h).trans ?_)
  simp only [engPull, EngSt.pulled_none hnil, Bool.false_eq_true, Bool.true_eq_false, false_and, or_self, if_false]

theorem runs_engPullDone {e : Fin 96} {par : Bool} {s : State} {g : EngSt} (h : (s.dev.engine e).stall = .pull par)
    (hg : (s.dev.engine e).pulled par = some g) : runs (.engPullDone e) s
      ((s.dev.setEngine e (g.refill (s.dev.ai ENG_DMA_CFG_THR e 0))).engDone e (s.dev.engDelay e)) := by
  refine runs_onDev rfl ?_
  simp only [engPullDone, h, hg]

/-- The engine behind a PULL that found its data. -/
theorem engine_pulled (d : Dev) (e dly thr : Nat) (g : EngSt) :
    let y := ((d.setEngine e (g.refill thr)).engDone e dly).engine e
    y.x = g.x ∧ y.parF = g.parF ∧ y.c = g.c ∧ y.t = g.t ∧ y.ctxF = g.ctxF ∧ y.stale = g.stale ∧ y.stall = .none := by
  dsimp only
  rw [engine_setEngine_engDone, EngSt.complete_x, EngSt.complete_parF, EngSt.complete_c, EngSt.complete_t,
    EngSt.complete_ctxF, EngSt.complete_stale, EngSt.complete_stall, EngSt.refill_x, EngSt.refill_parF, EngSt.refill_c,
    EngSt.refill_t, EngSt.refill_ctxF, EngSt.refill_stale]
  exact ⟨rfl, rfl, rfl, rfl, rfl, rfl, rfl⟩

/-! ## PUSH (R175) -/

theorem runs_engPush {e : Fin 96} {ph : Fin 3} {src : ESrc} {nb : Bool} {dly : Fin 32} {s : State}
    (h : s.dev.engReady e (.push src nb) dly = true) :
    runs (.engPush e ph src nb dly) s (engPush e (s.dev.pushWord e (s.dev.cyc + ph) src) nb dly s.dev) :=
  runs_onDev rfl (if_pos h)

theorem engPush_space {d : Dev} {e : Nat} (h : (d.engine e).outF.length < 16) (v : Word) (nb : Bool) (dly : Nat) :
    engPush e v nb dly d =
      (d.setEngine e { d.engine e with outF := (d.engine e).outF ++ [v], drop := false }).engDone e dly := if_pos h

theorem engPush_full {d : Dev} {e : Nat} (h : 16 ≤ (d.engine e).outF.length) (v : Word) (dly : Nat) :
    engPush e v true dly d =
      ((d.setEngine e { d.engine e with drop := true }).bumpI ENG_PUSH_DROP e 0).engDone e dly :=
  (if_neg (Nat.not_lt.mpr h)).trans (if_pos rfl)

theorem runs_engPushDone {e : Fin 96} {v : Word} {s : State} (h : (s.dev.engine e).stall = .push v)
    (hlen : (s.dev.engine e).outF.length < 16) : runs (.engPushDone e) s
      ((s.dev.setEngine e { s.dev.engine e with outF := (s.dev.engine e).outF ++ [v], drop := false }).engDone e
        (s.dev.engDelay e)) := by
  refine runs_onDev rfl ?_
  simp only [engPushDone, h, if_pos hlen]

/-! ## The FIFOs from a port and the sweep -/

theorem engParam_space {d : Dev} {e : Nat} (h : (d.engine e).parF.length < 8) (v : Word) :
    engParam e v d = d.setEngine e { d.engine e with parF := (d.engine e).parF ++ [v] } := if_pos h

theorem engParam_full {d : Dev} {e : Fin 96} (h : 8 ≤ (d.engine e).parF.length) (v : Word) : engParam e v d =
    (d.bumpI ENG_PARAM_OVF e 0).raiseBits (.eng e) (BitVec.ofNat 32 (2 ^ ENG_IRQ_RAW_PARAM_OVF.lo)) := by
  refine (if_neg (Nat.not_lt.mpr h)).trans ?_
  rw [Dev.raiseI_def]
  exact congrArg (fun p => Dev.raiseBits _ p _) (blkPage_eng e)

/-- A counter lies beside IRQ_RAW in a readout engine's page. -/
theorem engCounter_ne_irqRaw {F : Fld} (hblk : F.blk = .eng) (hstride : F.stride = 0) (hoff : F.off ≠ 0x10) (e : Fin 96) :
    F.addr e 0 ≠ (Page.eng e).base + 0x10 := by
  simp [Fld.addr, hblk, hstride, Page.base, Page.blk, Page.inst, hoff]

theorem runs_engOutRead_nil {p : Port} {e : Fin 96} {s : State} (h : s.dev.serves = true)
    (hout : (s.dev.engine e).outF = []) : runs (.engOutRead p e) s (s.dev.output p [0#32]) := by
  refine runs_onDev rfl ((if_pos h).trans ?_)
  simp only [engOutPop, hout]

theorem runs_engOutRead_cons {p : Port} {e : Fin 96} {w : Word} {l : List Word} {s : State} (h : s.dev.serves = true)
    (hout : (s.dev.engine e).outF = w :: l) :
    runs (.engOutRead p e) s ((s.dev.setEngine e { s.dev.engine e with outF := l }).output p [w]) := by
  refine runs_onDev rfl ((if_pos h).trans ?_)
  simp only [engOutPop, hout]

/-- A sweep that requests entries and finds space delivers one. -/
theorem engine_ctxDma {d : Dev} {e : Nat} (hleft : (d.engine e).swLeft ≠ 0) (hfill : (d.engine e).swFill = true)
    (hlen : (d.engine e).ctxF.length < 8) : onlyEngine d (ctxDma e d) e ∧
      ((ctxDma e d).engine e).swLeft = (d.engine e).swLeft - 1 ∧
      ((ctxDma e d).engine e).ctxF = (d.engine e).ctxF ++
        [⟨(d.engine e).swNext, d.ctxWords (d.engine e).swBank (tileNo e (d.engine e).swNext)⟩] := by
  have hrefill : (d.engine e).refill (d.ai ENG_DMA_CFG_THR e 0) = d.engine e := by
    unfold EngSt.refill
    rw [if_neg (Nat.not_le.mpr hlen)]
    split
    · rw [← hfill]
    · rfl
  unfold ctxDma
  rw [hrefill]
  dsimp only
  rw [if_neg (by simp [hleft, hfill, hlen])]
  refine ⟨onlyEngine_setEngine .., ?_, ?_⟩
  · rw [Dev.engine_setEngine_same, EngSt.refill_swLeft]
  · rw [Dev.engine_setEngine_same, EngSt.refill_ctxF]

end Sys2Proof.Machine

open Sys2Proof Sys2Proof.Machine

/-- Settles O14: an instruction finds its word or its space, or says that it does not; the other end of each FIFO is a
port's or the sweep's. -/
theorem engineFifosMoveWords : Obligations.EngineFifosMoveWords := by
  refine ⟨fun e nb dly w l s h hf => ?pullPar, fun e nb dly x l s h hf => ?pullCtx, fun e dly s h hf => ?stale,
    fun e dly s h hf => ?stall, fun e w l s h hf => ?pullDone, fun e ph src nb dly s h hlen => ?push,
    fun e ph src dly s h hlen => ?drop, fun e v s h hlen => ?pushDone, fun p e v s h hlen => ?param,
    fun p e v s h hlen => ?paramFull, fun p e s h => ?out, fun e s hleft hfill hlen => ?sweep⟩
  case pullPar =>
    obtain ⟨hx, hpar, -, -, -, hstale, -⟩ := engine_pulled s.dev e dly (s.dev.ai ENG_DMA_CFG_THR e 0)
      { s.dev.engine e with x := w.toNat, parF := l, stale := false }
    exact ⟨_, runs_engPull h (EngSt.pulled_par hf), onlyEngine_setEngine_engDone .., hx, hpar, hstale⟩
  case pullCtx =>
    obtain ⟨-, -, hc, ht, hctx, hstale, -⟩ := engine_pulled s.dev e dly (s.dev.ai ENG_DMA_CFG_THR e 0)
      { s.dev.engine e with c := x.ws, cTy := x.ty, t := x.ty, ctxF := l, stale := false }
    exact ⟨_, runs_engPull h (EngSt.pulled_ctx hf), onlyEngine_setEngine_engDone .., hc, ht, hctx, hstale⟩
  case stale =>
    refine ⟨_, runs_engPull_stale h hf, ?_, ?_, fi_setEngine_bumpI_engDone _ _ _ rfl rfl _,
      onlyWords_setEngine_bumpI_engDone _ _ _ _ _⟩
    · rw [engine_setEngine_bumpI_engDone, EngSt.complete_x]
    · rw [engine_setEngine_bumpI_engDone, EngSt.complete_stale]
  case stall =>
    refine ⟨_, runs_engPull_stall h hf, onlyEngine_setEngine .., ?_⟩
    rw [Dev.engine_setEngine_same]
    exact ⟨rfl, rfl⟩
  case pullDone =>
    obtain ⟨hx, hpar, -, -, -, -, hstall⟩ := engine_pulled s.dev e (s.dev.engDelay e) (s.dev.ai ENG_DMA_CFG_THR e 0)
      { s.dev.engine e with x := w.toNat, parF := l, stale := false }
    exact ⟨_, runs_engPullDone h (EngSt.pulled_par hf), onlyEngine_setEngine_engDone .., hx, hpar, hstall⟩
  case push =>
    have hrun := runs_engPush (ph := ph) h
    rw [engPush_space hlen] at hrun
    refine ⟨_, hrun, onlyEngine_setEngine_engDone .., ?_, ?_⟩
    · rw [engine_setEngine_engDone, EngSt.complete_outF]
    · rw [engine_setEngine_engDone, EngSt.complete_drop]
  case drop =>
    have hrun := runs_engPush (ph := ph) h
    rw [engPush_full hlen] at hrun
    refine ⟨_, hrun, ?_, ?_, fi_setEngine_bumpI_engDone _ _ _ rfl rfl _, onlyWords_setEngine_bumpI_engDone _ _ _ _ _⟩
    · rw [engine_setEngine_bumpI_engDone, EngSt.complete_outF]
    · rw [engine_setEngine_bumpI_engDone, EngSt.complete_drop]
  case pushDone =>
    refine ⟨_, runs_engPushDone h hlen, onlyEngine_setEngine_engDone .., ?_, ?_⟩
    · rw [engine_setEngine_engDone, EngSt.complete_outF]
    · rw [engine_setEngine_engDone, EngSt.complete_stall]
  case param =>
    have hrun := runs_gatePage (c := .engParamWrite p e v) (f := engParam e v) rfl h
    rw [engParam_space hlen] at hrun
    exact ⟨_, hrun, onlyEngine_setEngine .., by rw [Dev.engine_setEngine_same]⟩
  case paramFull =>
    have hrun := runs_gatePage (c := .engParamWrite p e v) (f := engParam e v) rfl h
    rw [engParam_full hlen] at hrun
    refine ⟨_, hrun, (Dev.raiseBits_eng ..).trans (Dev.setFi_eng ..), ?_, ?_⟩
    · rw [Dev.fi_raiseBits _ _ _ _ _ _ (engCounter_ne_irqRaw rfl rfl (by decide) e), Dev.fi_bumpI_same _ rfl rfl]
    · exact onlyWords_trans (onlyWords_bumpI _ (by simp)) (onlyWords_raiseBits _ (by simp) _)
  case out =>
    cases hout : (s.dev.engine e).outF with
    | nil =>
      refine ⟨_, runs_engOutRead_nil h hout, Dev.output_given .., ?_, Dev.output_regs ..⟩
      rw [Dev.engine_congr (Dev.output_eng ..), hout, List.tail_nil]
    | cons w l =>
      refine ⟨_, runs_engOutRead_cons h hout, Dev.output_given .., ?_, (Dev.output_regs ..).trans (Dev.setEngine_regs ..)⟩
      rw [Dev.engine_congr (Dev.output_eng ..), Dev.engine_setEngine_same, List.tail_cons]
  case sweep =>
    obtain ⟨honly, hleft', hctx⟩ := engine_ctxDma hleft hfill hlen
    exact ⟨_, runs_onDev rfl rfl, honly, hleft', hctx⟩
end

section
/-! SUPPORT. Proofs about waiting (R164, R170, R171, R189): WAIT and the start tick it misses, STB and the row it loses,
and the barriers of SYNC. -/
namespace Sys2Proof.Machine

/-! ## WAIT (R170, R171) -/

/-- What a WAIT that completes changes of its engine: the trigger line it takes, or the tick it meets. -/
theorem EngSt.waitEffect_frame (g : EngSt) (cond arg k : Nat) : g.waitEffect cond arg k =
    { g with tickSeen := (g.waitEffect cond arg k).tickSeen, trig := (g.waitEffect cond arg k).trig } := by
  unfold EngSt.waitEffect
  split
  · rfl
  · split <;> rfl
  · rfl

theorem EngSt.waitEffect_stepping (g : EngSt) (cond arg k : Nat) : (g.waitEffect cond arg k).stepping = g.stepping := by
  rw [EngSt.waitEffect_frame]

/-- An event said once a frame changes no engine. -/
theorem onceFrame_eng (d : Dev) (u code : Nat) (p : Page) (b : List Byte) : (d.onceFrame u code p b).eng = d.eng := by
  unfold Dev.onceFrame
  dsimp only
  split
  · rfl
  · rw [Dev.emit_def, Dev.emitSrc_eng]
    rfl

theorem onceTick_eng (d : Dev) (k code : Nat) (p : Page) (b : List Byte) : (d.onceTick k code p b).eng = d.eng := by
  unfold Dev.onceTick
  split
  · exact onceFrame_eng ..
  · dsimp only
    split
    · rfl
    · rw [Dev.emit_def, Dev.emitSrc_eng, Dev.onAry_eng]

/-- A WAIT START that comes too late says so; of the engines it changes its own. -/
theorem engine_startMiss (d : Dev) {e m : Nat} (h : m ≠ e) : (startMiss e d).engine m = d.engine m := by
  unfold startMiss
  dsimp only
  split
  · rfl
  · rw [Dev.engine_congr (onceTick_eng ..), Dev.raiseI_def, Dev.engine_raiseBits, Dev.bumpI_def, Dev.engine_setFi,
      Dev.engine_setEngine_ne _ _ h]

theorem runs_engWait {e : Fin 96} {ph : Fin 3} {cond : Fin 9} {arg : BitVec 16} {dly : Fin 32} {s : State}
    (h : s.dev.engReady e (.wait cond arg) dly = true) :
    runs (.engWait e ph cond arg dly) s (engWait e cond arg.toNat (s.dev.cyc + ph) dly s.dev) := runs_onDev rfl (if_pos h)

/-- The count a WAIT notes: ticks of the timebase for TICK, start ticks else. -/
def Dev.waitTick (d : Dev) (cond : Nat) : Nat := if cond = 1 then d.time.tick else d.ary.k

/-- A WAIT whose condition holds completes. -/
theorem engWait_holds {d : Dev} {e cond arg now : Nat} (h : d.waitHolds e now cond arg now (d.waitTick cond) = true)
    (dly : Nat) : engWait e cond arg now dly d =
      (d.setEngine e ((d.engine e).waitEffect cond arg d.ary.k)).engDone e dly := if_pos h

/-- A WAIT whose condition does not hold stalls, after the tick it has missed. -/
theorem engWait_stalls {d : Dev} {e cond arg now : Nat} (h : d.waitHolds e now cond arg now (d.waitTick cond) = false)
    (dly : Nat) : ∃ (x : Dev) (g : EngSt), engWait e cond arg now dly d = x.setEngine e g ∧ g.state = engWAIT ∧
      (∀ m, m ≠ e → x.engine m = d.engine m) ∧ (cond ≠ 0 → x.regs = d.regs) := by
  refine ⟨_, _, if_neg (Bool.eq_false_iff.mp h), rfl, fun m hm => ?_, fun hc => ?_⟩
  · by_cases hc : cond = 0
    · rw [if_pos hc]
      exact engine_startMiss d hm
    · rw [if_neg hc]
  · rw [if_neg hc]

theorem runs_engWaitDone {e : Fin 96} {ph : Fin 3} {cond arg issue tick : Nat} {s : State}
    (h : (s.dev.engine e).stall = .wait cond arg issue tick)
    (hw : s.dev.waitHolds e (s.dev.cyc + ph) cond arg issue tick = true) : runs (.engWaitDone e ph) s
      ((s.dev.setEngine e ((s.dev.engine e).waitEffect cond arg s.dev.ary.k)).engDone e (s.dev.engDelay e)) := by
  refine runs_onDev rfl ?_
  simp only [engWaitDone, h, hw, if_true]

/-! ## STB (R164) -/

theorem runs_engStb {e : Fin 96} {ph : Fin 3} {p : EPort} {it ib : EInc} {dly : Fin 32} {s : State}
    (h : s.dev.engReady e (.stb p it ib) dly = true) :
    runs (.engStb e ph p it ib dly) s (engStb e p it ib (s.dev.cyc + ph) dly s.dev) := runs_onDev rfl (if_pos h)

/-- An engine that waits at STB for its strobe. -/
def atStrobe (g : EngSt) (p : EPort) (it ib : EInc) (now : Nat) : EngSt :=
  { g with state := engSTROBE, stall := .strobe (p != .bot) (p != .top) (incOf it) (incOf ib), strobeFrom := now + 1 }

/-- A row lost: counted, an interrupt, and the end of the instruction. -/
theorem rowLost_eq (e : Fin 96) (dly : Nat) (d : Dev) : rowLost e dly d =
    ((d.bumpI ENG_ROW_LOST e 0).raiseBits (.eng e) (BitVec.ofNat 32 (2 ^ 16))).engDone e dly := by
  rw [rowLost, Dev.raiseI_def]
  simp only [ENG_IRQ_RAW_ROW_LOST, blkPage_eng]

theorem fi_rowLost (d : Dev) (e : Fin 96) (dly : Nat) :
    (rowLost e dly d).fi ENG_ROW_LOST e 0 = (d.fi ENG_ROW_LOST e 0 + 1) % 2 ^ 32 := by
  rw [rowLost_eq, fi_engDone, Dev.fi_raiseBits _ _ _ _ _ _ (engCounter_ne_irqRaw rfl rfl (by decide) e),
    Dev.fi_bumpI_same _ rfl rfl]

theorem word_rowLost (d : Dev) (e : Fin 96) (dly : Nat) : (rowLost e dly d).word ((Page.eng e).base + 0x10) =
    d.word ((Page.eng e).base + 0x10) ||| BitVec.ofNat 32 (2 ^ 16) := by
  rw [rowLost_eq, Dev.engDone, Dev.word_congr (Dev.setEngine_regs ..), Dev.word_raiseBits_same, Dev.bumpI_def,
    Dev.word_setFi, if_neg (engCounter_ne_irqRaw (F := ENG_ROW_LOST) rfl rfl (by decide) e).symm]

theorem onlyWords_rowLost (d : Dev) (e : Fin 96) (dly : Nat) :
    onlyWords d (rowLost e dly d) [ENG_ROW_LOST.addr e 0, (Page.eng e).base + 0x10] := by
  rw [rowLost_eq]
  exact onlyWords_trans (onlyWords_trans (onlyWords_bumpI _ (by simp)) (onlyWords_raiseBits _ (by simp) _))
    (onlyWords_engDone _ _ _ _ _)

/-! ## SYNC (R189) -/

theorem onlyEngine.engine_ne {d x : Dev} {e m : Nat} (h : onlyEngine d x e) (hm : m ≠ e) : x.engine m = d.engine m :=
  h.2 m hm

/-- Engines that end their instructions one after the other: each of them stalls no longer, the others stay. -/
theorem engDone_all (ms : List Nat) (d : Dev) :
    let y := ms.foldl (fun d e => d.engDone e (d.engDelay e)) d
    (∀ e ∈ ms, (y.engine e).stall = .none) ∧ (∀ e, e ∉ ms → y.engine e = d.engine e) ∧ y = { d with eng := y.eng } := by
  induction ms generalizing d with
  | nil => exact ⟨fun _ h => absurd h (List.not_mem_nil), fun _ _ => rfl, rfl⟩
  | cons n ns ih =>
    obtain ⟨hin, hout, hframe⟩ := ih (d.engDone n (d.engDelay n))
    have hone : onlyEngine d (d.engDone n (d.engDelay n)) n := onlyEngine_setEngine ..
    refine ⟨fun e he => ?_, fun e he => ?_, frame_trans (fun x d => { d with eng := x.eng }) (fun _ _ _ => rfl) hone.1 hframe⟩
    · by_cases hns : e ∈ ns
      · exact hin e hns
      · obtain rfl := (List.mem_cons.mp he).resolve_right hns
        rw [List.foldl_cons, hout e hns, Dev.engine_engDone, EngSt.complete_stall]
    · obtain ⟨hne, hns⟩ := not_or.mp (fun h => he (List.mem_cons.mpr h))
      rw [List.foldl_cons, hout e hns, hone.engine_ne hne]

theorem syncRelease_all {d : Dev} {g : Nat} (h : ∀ e ∈ d.syncMembers g, (d.engine e).atSync g = true) :
    syncRelease g d = (d.syncMembers g).foldl (fun d e => d.engDone e (d.engDelay e)) d :=
  if_pos (List.all_eq_true.mpr h)

theorem syncTimeout_eq {d : Dev} {e : Fin 96} {g issue : Nat} (h : (d.engine e).stall = .sync g issue)
    (htmo : d.ai ENG_SYNC_CFG_TMO e 0 ≠ 0) : syncTimeout e d =
      (((d.engDone e (d.engDelay e)).bumpI ENG_SYNC_TMO e 0).raiseBits (.eng e)
        (BitVec.ofNat 32 (2 ^ ENG_IRQ_RAW_SYNC_TMO.lo))).emitSrc 0x04A (Page.eng e).code [] := by
  simp only [syncTimeout, h, if_neg htmo, Dev.raiseI_def, Dev.emit_def, engPage_val]
  exact congrArg (fun p => Dev.emitSrc (Dev.raiseBits _ p _) _ _ _) (blkPage_eng e)

end Sys2Proof.Machine

open Sys2Proof Sys2Proof.Machine

/-- Settles O15: WAIT, STB and SYNC complete or stall, and a stall ends by its condition, its barrier or its limit. -/
theorem engineWaitsAndBarriers : Obligations.EngineWaitsAndBarriers := by
  refine ⟨fun e ph cond arg dly s h hstep => ?wait, fun e ph cond arg issue tick s h hw => ?waitDone,
    fun e ph p it ib dly s h hover => ?stbLost, fun e ph p it ib dly s h hp hover => ?stb, fun e ph g dly s h => ?sync,
    fun g s h => ?release, fun e g issue s h htmo => ?timeout⟩
  case wait =>
    have hcond : (if cond = 1 then s.dev.time.tick else s.dev.ary.k) = s.dev.waitTick cond.val :=
      if_congr Fin.ext_iff rfl rfl
    have hzero : cond ≠ 0 → cond.val ≠ 0 := fun hc h0 => hc (Fin.ext h0)
    rw [hcond]
    cases hw : s.dev.waitHolds e (s.dev.cyc + ph) cond arg.toNat (s.dev.cyc + ph) (s.dev.waitTick cond) with
    | true =>
      have hend := engWait_holds hw dly
      have honly := onlyEngine_setEngine_engDone s.dev e ((s.dev.engine e).waitEffect cond arg.toNat s.dev.ary.k) dly none
      refine ⟨_, runs_engWait h, ?_⟩
      rw [hend, engine_setEngine_engDone, EngSt.complete_state _ (by rw [EngSt.waitEffect_stepping, hstep])]
      exact ⟨honly.2, rfl, fun _ => honly.regs⟩
    | false =>
      obtain ⟨x, g, hend, hst, hothers, hregs⟩ := engWait_stalls hw dly
      refine ⟨_, runs_engWait h, ?_⟩
      rw [hend, Dev.engine_setEngine_same]
      exact ⟨fun m hm => (Dev.engine_setEngine_ne _ _ hm).trans (hothers m hm), hst,
        fun hc => (Dev.setEngine_regs ..).trans (hregs (hzero hc))⟩
  case waitDone =>
    refine ⟨_, runs_engWaitDone h hw, onlyEngine_setEngine_engDone .., ?_⟩
    rw [engine_setEngine_engDone, EngSt.complete_stall]
  case stbLost =>
    have hlost : engStb e p it ib (s.dev.cyc + ph) dly s.dev = rowLost e dly s.dev := if_pos hover
    have hrun := runs_engStb (ph := ph) h
    rw [hlost] at hrun
    refine ⟨_, hrun, fi_rowLost .., word_rowLost .., ?_, ?_, onlyWords_rowLost _ _ _⟩
    · rw [rowLost_eq, Dev.engine_engDone, EngSt.complete_stall]
    · rw [rowLost_eq, Dev.engDone, Dev.setEngine_ary, Dev.raiseBits_ary, Dev.bumpI_def, Dev.setFi_ary]
  case stb =>
    have hgo : engStb e p it ib (s.dev.cyc + ph) dly s.dev = s.dev.setEngine e (atStrobe (s.dev.engine e) p it ib
        (s.dev.cyc + ph)) := if_neg (by simp [hp, hover])
    refine ⟨_, runs_onDev rfl ((if_pos h).trans hgo), onlyEngine_setEngine .., ?_⟩
    rw [Dev.engine_setEngine_same]
    exact ⟨rfl, rfl⟩
  case sync =>
    refine ⟨_, runs_onDev rfl (if_pos h), onlyEngine_setEngine .., ?_⟩
    rw [Dev.engine_setEngine_same]
    exact ⟨rfl, by simp [EngSt.atSync]⟩
  case release =>
    obtain ⟨hin, hout, hframe⟩ := engDone_all (s.dev.syncMembers g) s.dev
    exact ⟨_, runs_onDev rfl (syncRelease_all h), hin, hout, hframe⟩
  case timeout =>
    have honly : onlyEngine s.dev (s.dev.engDone e (s.dev.engDelay e)) e := onlyEngine_setEngine ..
    have hcounter := engCounter_ne_irqRaw (F := ENG_SYNC_TMO) rfl rfl (by decide) e
    refine ⟨_, runs_onDev rfl (syncTimeout_eq h htmo), ?_, fun m hm => ?_, ?_, ?_⟩
    · rw [Dev.engine_congr (Dev.emitSrc_eng ..), Dev.engine_raiseBits, Dev.bumpI_def, Dev.engine_setFi, Dev.engine_engDone,
        EngSt.complete_stall]
    · rw [Dev.engine_congr (Dev.emitSrc_eng ..), Dev.engine_raiseBits, Dev.bumpI_def, Dev.engine_setFi, honly.engine_ne hm]
    · rw [Dev.fi_emitSrc, Dev.fi_raiseBits _ _ _ _ _ _ hcounter, Dev.fi_bumpI_same _ rfl rfl, fi_engDone]
    · rw [Dev.emitSrc_evq, Dev.raiseBits_evq, Dev.bumpI_def, Dev.setFi_evq, Dev.engDone, Dev.setEngine_evq]
      exact ⟨_, rfl, rfl⟩
end

section
/-! SUPPORT. Proofs about the shift chains (R182 to R187) and the host's control of a readout engine (R162, R186, R191,
R192). -/
namespace Sys2Proof.Machine

/-! ## Chains -/

@[simp] theorem EngSt.chain_setChain_same (g : EngSt) (bot : Bool) (c : Chain) : (g.setChain bot c).chain bot = c := by
  cases bot <;> rfl

@[simp] theorem EngSt.chain_setChain_other (g : EngSt) (bot : Bool) (c : Chain) :
    (g.setChain bot c).chain (!bot) = g.chain (!bot) := by
  cases bot <;> rfl

@[simp] theorem EngSt.chain_shf_same (g : EngSt) (bot : Bool) (w : Word) : (g.shf bot w).chain bot = (g.chain bot).push w := by
  cases bot <;> rfl

@[simp] theorem EngSt.chain_shf_other (g : EngSt) (bot : Bool) (w : Word) : (g.shf bot w).chain (!bot) = g.chain (!bot) := by
  cases bot <;> rfl

@[simp] theorem EngSt.chain_complete (g : EngSt) (dly : Nat) (j : Option Nat) (bot : Bool) :
    (g.complete dly j).chain bot = g.chain bot := by
  cases bot
  · exact g.complete_top dly j
  · exact g.complete_bot dly j

/-- Words of a chain that go behind others are cut off with them. -/
theorem take_append_take {α : Type} (n : Nat) (l m : List α) : (l ++ m.take n).take n = (l ++ m).take n := by
  simp only [List.take_append, List.take_take, Nat.min_eq_left (Nat.sub_le ..)]

/-- The same word shifted in more than once. -/
theorem EngSt.shift_shiftMany (g : EngSt) (bot : Bool) (w : Word) (n : Nat) :
    ((g.shiftMany bot w (n + 1)).chain bot).shift = (List.replicate (n + 1) w ++ (g.chain bot).shift).take 32 := by
  induction n generalizing g with
  | zero => rw [EngSt.shiftMany, EngSt.shiftMany, EngSt.chain_shf_same]; rfl
  | succ n ih =>
    rw [EngSt.shiftMany, ih, EngSt.chain_shf_same, Chain.push, take_append_take, List.replicate_succ' (n := n + 1),
      List.append_assoc, List.singleton_append]

theorem EngSt.chain_shiftMany_other (g : EngSt) (bot : Bool) (w : Word) (n : Nat) :
    (g.shiftMany bot w n).chain (!bot) = g.chain (!bot) := by
  induction n generalizing g with
  | zero => rfl
  | succ n ih => rw [EngSt.shiftMany, ih, EngSt.chain_shf_other]

theorem runs_engShgDone {e : Fin 96} {bot : Bool} {w : Word} {issue : Nat} {s : State}
    (h : (s.dev.engine e).stall = .shg bot w issue) : runs (.engShgDone e) s
      ((s.dev.setEngine e ((s.dev.engine e).shiftMany bot w 32)).engDone e (s.dev.engDelay e)) := by
  refine runs_onDev rfl ?_
  simp only [engShgDone, h]

/-- LATCH copies the shift registers of the named chains. -/
theorem EngSt.latch_chains (g : EngSt) (p : EPort) :
    (g.latch p).top.hold = (if p = .bot then g.top.hold else some g.top.shift) ∧
    (g.latch p).bot.hold = (if p = .top then g.bot.hold else some g.bot.shift) ∧
    (g.latch p).top.shift = g.top.shift ∧ (g.latch p).bot.shift = g.bot.shift := by
  cases p <;> exact ⟨rfl, rfl, rfl, rfl⟩

/-- An engine whose chains have been flushed runs. -/
def EngSt.flushed (g : EngSt) : EngSt :=
  { g with top := g.top.flush, bot := g.bot.flush, dirty := false, shifted := false, state := engRUN }

theorem runs_engFlushDone {e : Fin 96} {s : State} (h : (s.dev.engine e).state = engFLUSH) : runs (.engFlushDone e) s
    ((s.dev.setEngine e (s.dev.engine e).flushed).bumpI ENG_CHAIN_FLUSH e 0) := runs_onDev rfl (if_pos h)

/-! ## HALT, RESUME and STEP (R162) -/

/-- HALT of a running engine. -/
theorem engHalt_running {d : Dev} {e : Nat} (h : (d.engine e).running = true) : engHalt e d =
    (d.setFi ENG_CTRL_HALT e 0 1).setEngine e
      { (d.engine e).abandon d.cyc with
        state := engHALTED, stepping := false,
        dirty := ((d.engine e).abandon d.cyc).dirty || ((d.engine e).abandon d.cyc).shifted } := by
  unfold engHalt
  dsimp only
  rw [Dev.engine_setFi, Dev.setFi_cyc]
  exact if_pos h

/-- With nothing under way, nothing is abandoned. -/
theorem EngSt.abandon_none {g : EngSt} (h : g.stall = .none) (hidle : g.idle = false) (now : Nat) : g.abandon now = g := by
  simp [EngSt.abandon, h, hidle]

theorem EngSt.abandon_wait {g : EngSt} {c a i k : Nat} (h : g.stall = .wait c a i k) (now : Nat) :
    g.abandon now = { g with stall := .none } := by
  simp [EngSt.abandon, h]

/-- An engine that has halted goes on at RESUME. -/
theorem engResume_halted {d : Dev} {e : Nat} (h : (d.engine e).state = engHALTED) : engResume e d =
    (d.setFi ENG_CTRL_HALT e 0 0).setEngine e ({ d.engine e with stepping := false } : EngSt).goOn := by
  unfold engResume
  dsimp only
  rw [Dev.engine_setFi]
  exact if_pos (.inl h)

theorem engStep_halted {d : Dev} {e : Nat} (h : (d.engine e).state = engHALTED ∨ (d.engine e).state = engILLEGAL) :
    engStep e d = d.setEngine e ({ d.engine e with stepping := true } : EngSt).goOn := if_pos h

/-- The field written, with an engine changed behind it. -/
theorem fi_setFi_setEngine (d : Dev) (F : Fld) (i k v e : Nat) (g : EngSt) (h : F.lo ≤ F.hi) (h32 : F.hi < 32) :
    ((d.setFi F i k v).setEngine e g).fi F i k = v % 2 ^ (F.hi - F.lo + 1) := by
  rw [fi_setEngine, Dev.fi_setFi_same _ _ _ _ _ h h32]

theorem onlyWords_setFi_setEngine (d : Dev) (F : Fld) (i k v e : Nat) (g : EngSt) :
    onlyWords d ((d.setFi F i k v).setEngine e g) [F.addr i k] :=
  onlyWords_trans (onlyWords_setFi _ (List.mem_singleton.mpr rfl) _) (onlyWords_setEngine _ _ _ _)

/-! ## The instruction memory (R59, R192) -/

/-- The address of an instruction word names it. -/
theorem decodeAddr_imem (e : Fin 96) (i : Fin 1024) : decodeAddr (imemAddr e i) = .imem e i := by
  have he := e.isLt
  have hi := i.isLt
  unfold decodeAddr imemAddr
  dsimp only
  rw [dif_neg (by omega), dif_neg (by omega), dif_neg (by omega), dif_neg (by omega), if_neg (by omega), if_neg (by omega),
    if_pos (by omega)]
  exact congrArg₂ Target.imem (by omega) (by omega)

theorem imemAddr_toNat (e : Fin 96) (i : Fin 1024) : (BitVec.ofNat 24 (imemAddr e i)).toNat = imemAddr e i := by
  have he := e.isLt
  have hi := i.isLt
  rw [BitVec.toNat_ofNat]
  apply Nat.mod_eq_of_lt
  simp only [imemAddr]
  omega

/-- A write of an instruction word that passes the gates. -/
theorem runs_engImemWrite {p : Port} {e : Fin 96} (i : Fin 1024) (v : Word) {s : State} (h : s.admitsAt p (.eng e)) :
    runs (.engImemWrite p (BitVec.ofNat 24 (imemAddr e i)) v) s (imemWrite p e i v s.dev) := by
  obtain ⟨hadm, hr⟩ := h
  have hr' : s.dev.inReset (engPage e) = false := by rw [engPage_val]; exact hr
  have hrun := runs_gateWrite (c := .engImemWrite p (BitVec.ofNat 24 (imemAddr e i)) v) rfl hadm
  rw [imemAddr_toNat, decodeAddr_imem] at hrun
  dsimp only at hrun
  rwa [hr'] at hrun

end Sys2Proof.Machine

open Sys2Proof Sys2Proof.Machine

/-- Settles O16: what each instruction of the chains leaves in both of them. -/
theorem engineShiftChains : Obligations.EngineShiftChains := by
  refine ⟨fun e ph bot src dly s h => ?shf, fun e ph bot mirror dly s h => ?shg, fun e bot w issue s h => ?shgDone,
    fun e p dly s h => ?latch, fun e s h => ?flush⟩
  case shf =>
    refine ⟨_, runs_engRun rfl h, onlyEngine_setEngine_engDone .., ?_⟩
    rw [engine_setEngine_engDone, EngSt.chain_complete, EngSt.chain_complete, EngSt.chain_shf_same, EngSt.chain_shf_other]
    exact ⟨rfl, rfl, rfl⟩
  case shg =>
    refine ⟨_, runs_onDev rfl (if_pos h), onlyEngine_setEngine .., ?_⟩
    rw [engShg, Dev.engine_setEngine_same]
  case shgDone =>
    refine ⟨_, runs_engShgDone h, onlyEngine_setEngine_engDone .., ?_⟩
    rw [engine_setEngine_engDone, EngSt.chain_complete, EngSt.chain_complete, EngSt.shift_shiftMany,
      EngSt.chain_shiftMany_other, EngSt.complete_stall]
    exact ⟨List.take_left' (List.length_replicate), rfl, rfl⟩
  case latch =>
    refine ⟨_, runs_engRun rfl h, onlyEngine_setEngine_engDone .., ?_⟩
    rw [engine_setEngine_engDone, EngSt.complete_top, EngSt.complete_bot]
    exact EngSt.latch_chains ..
  case flush =>
    have heng : ((s.dev.setEngine e (s.dev.engine e).flushed).bumpI ENG_CHAIN_FLUSH e 0).engine e =
        (s.dev.engine e).flushed := by
      rw [Dev.bumpI_def, Dev.engine_setFi, Dev.engine_setEngine_same]
    refine ⟨_, runs_engFlushDone h, ?_⟩
    rw [heng]
    refine ⟨rfl, rfl, rfl, rfl, rfl, rfl, rfl, rfl, rfl, ?_, ?_⟩
    · rw [Dev.fi_bumpI_same _ rfl rfl, fi_setEngine]
    · exact onlyWords_trans (onlyWords_setEngine _ _ _ _) (onlyWords_bumpI _ (List.mem_singleton.mpr rfl))

/-- Settles O17: HALT, RESUME, STEP and SNAP_REQ behind the gate of the engine's page; instruction words are open where
the engine does not run. -/
theorem engineHostControl : Obligations.EngineHostControl := by
  refine ⟨fun p e s h hrun hstall hidle => ?halt, fun p e s h hrun hstall => ?haltWait, fun p e s h hst => ?resume,
    fun p e s h hst => ?step, fun p e s h => ?snap, fun p e i v s h hrun => ?imem, fun p e i v s h hrun hwin => ?imemClosed⟩
  case halt =>
    have hgo := runs_gatePage (c := .engHalt p e) (f := engHalt e) rfl h
    rw [engHalt_running hrun, EngSt.abandon_none hstall hidle] at hgo
    refine ⟨_, hgo, ?_, ?_, fi_setFi_setEngine _ _ _ _ _ _ _ (by decide) (by decide), onlyWords_setFi_setEngine _ _ _ _ _ _ _,
      fun m hm => ?_⟩
    · rw [Dev.engine_setEngine_same]
    · rw [Dev.engine_setEngine_same]
    · rw [Dev.engine_setEngine_ne _ _ hm, Dev.engine_setFi]
  case haltWait =>
    obtain ⟨c, a, i, k, hw⟩ := hstall
    have hgo := runs_gatePage (c := .engHalt p e) (f := engHalt e) rfl h
    rw [engHalt_running hrun, EngSt.abandon_wait hw] at hgo
    refine ⟨_, hgo, ?_⟩
    rw [Dev.engine_setEngine_same]
    exact ⟨rfl, rfl, rfl⟩
  case resume =>
    have hgo := runs_gatePage (c := .engResume p e) (f := engResume e) rfl h
    rw [engResume_halted hst] at hgo
    refine ⟨_, hgo, ?_, ?_, fi_setFi_setEngine _ _ _ _ _ _ _ (by decide) (by decide), onlyWords_setFi_setEngine _ _ _ _ _ _ _⟩
    · rw [Dev.engine_setEngine_same]
      rfl
    · rw [Dev.engine_setEngine_same]
      rfl
  case step =>
    have hgo := runs_gatePage (c := .engStep p e) (f := engStep e) rfl h
    rw [engStep_halted hst] at hgo
    refine ⟨_, hgo, onlyEngine_setEngine .., ?_⟩
    rw [Dev.engine_setEngine_same]
    exact ⟨rfl, rfl⟩
  case snap =>
    have haddr : ENG_PC_SNAP_VALID.addr e 0 = ENG_PC_SNAP_PC.addr e 0 := rfl
    refine ⟨_, runs_gatePage (f := engSnap e) rfl h, ?_, ?_, ?_⟩
    · rw [engSnap, Dev.fi_setFi_ne _ _ _ _ _ _ _ _ (by decide) (by decide) (by decide) (.inr (by decide)),
        Dev.fi_setFi_same _ _ _ _ _ (by decide) (by decide)]
      rfl
    · rw [engSnap, Dev.fi_setFi_same _ _ _ _ _ (by decide) (by decide)]
      rfl
    · exact onlyRegs_trans (onlyRegs_setFi ..) (haddr ▸ onlyRegs_setFi ..)
  case imem =>
    have hw : imemWrite p e i v s.dev = s.dev.putWord (imemAddr e i) v := if_pos (by simp [EngSt.imemOpen, hrun])
    refine ⟨_, runs_engImemWrite i v h, ?_⟩
    rw [hw]
    exact ⟨Dev.word_putWord_same .., rfl, onlyWords_putWord _ (List.mem_singleton.mpr rfl) _⟩
  case imemClosed =>
    have hw : imemWrite p e i v s.dev = s.dev.reject (engPage e) p (imemAddr e i) v 1 :=
      if_neg (by simp [EngSt.imemOpen, hrun, hwin])
    have hgo := runs_engImemWrite i v h
    rwa [hw, engPage_val] at hgo
end

section
/-! SUPPORT. The registers after reset (R20): every field that is no table reads as its row of the register tables says,
checked block by block over the tables. -/
namespace Sys2Proof.Machine

/-- Every field of a list that is no table reads, in the word that its register resets to, as its row says. -/
def readsReset (l : List Fld) : Bool :=
  l.all fun F => F.stride != 0 || bitsOf (resetWord (F.addr 0 0)) F.hi F.lo == F.rst

theorem readsReset_append {l m : List Fld} (hl : readsReset l = true) (hm : readsReset m = true) :
    readsReset (l ++ m) = true := by
  simp only [readsReset, List.all_append, Bool.and_eq_true]
  exact ⟨hl, hm⟩

theorem readsReset_mem {l : List Fld} (h : readsReset l = true) {F : Fld} (hF : F ∈ l) (hs : F.stride = 0) :
    State.reset.dev.f F = F.rst := by
  have hall := List.all_eq_true.mp h F hF
  have hword : bitsOf (resetWord (F.addr 0 0)) F.hi F.lo = F.rst := by simpa [hs] using hall
  exact hword

theorem readsReset_sys : readsReset (Blk.fields .sys) = true := by decide
theorem readsReset_clk : readsReset (Blk.fields .clk) = true := by decide
theorem readsReset_tbs : readsReset (Blk.fields .tbs) = true := by decide
theorem readsReset_pwr : readsReset (Blk.fields .pwr) = true := by decide
theorem readsReset_thm : readsReset (Blk.fields .thm) = true := by decide
theorem readsReset_ary : readsReset (Blk.fields .ary) = true := by decide
theorem readsReset_exp : readsReset (Blk.fields .exp) = true := by decide
theorem readsReset_trg : readsReset (Blk.fields .trg) = true := by decide
theorem readsReset_ing : readsReset (Blk.fields .ing) = true := by decide
theorem readsReset_nrd : readsReset (Blk.fields .nrd) = true := by decide
theorem readsReset_pxc : readsReset (Blk.fields .pxc) = true := by decide
theorem readsReset_hmp : readsReset (Blk.fields .hmp) = true := by decide
theorem readsReset_hlp : readsReset (Blk.fields .hlp) = true := by decide

/-- The empty recorder has its shape. -/
theorem shaped_reset : State.reset.evr.shaped := by
  refine ⟨rfl, Nat.zero_le _, ?_, ?_, ?_⟩ <;> intro x hx <;> exact absurd hx (List.not_mem_nil)

end Sys2Proof.Machine

open Sys2Proof Sys2Proof.Machine

/-- Settles O60: no register is stored after reset, so each reads the word of its table. -/
theorem resetState : Obligations.ResetState := by
  refine ⟨shaped_reset, rfl, rfl, rfl, fun F hF hs => readsReset_mem ?_ hF hs, rfl, rfl, rfl, rfl, rfl, rfl⟩
  have h := readsReset_append readsReset_sys readsReset_clk
  have h := readsReset_append h readsReset_tbs
  have h := readsReset_append h readsReset_pwr
  have h := readsReset_append h readsReset_thm
  have h := readsReset_append h readsReset_ary
  have h := readsReset_append h readsReset_exp
  have h := readsReset_append h readsReset_trg
  have h := readsReset_append h readsReset_ing
  have h := readsReset_append h readsReset_nrd
  have h := readsReset_append h readsReset_pxc
  have h := readsReset_append h readsReset_hmp
  exact readsReset_append h readsReset_hlp
end

section
/-! SUPPORT. Proofs about the boundary-scan TAP (R552): what an instruction selects at level ON, and what HIGHZ makes of
the pins it covers. -/
namespace Sys2Proof.Machine

/-- At level ON the TAP takes the instruction. -/
theorem runs_onTap {c : Instr} {s : State} {f : TapSt → TapSt} (hc : exec c s = onTap f s) (h : s.dev.aon.level = 2) :
    runs c s { s.dev with tap := f s.dev.tap } := runs_onDev hc (if_pos h)

/-- At any other level it does not. -/
theorem onTap_off {s : State} (h : s.dev.aon.level ≠ 2) (f : TapSt → TapSt) : onTap f s = .next s := by
  simp only [onTap, onDev, if_neg h]

/-- What each code selects. -/
theorem tapInstr_eq (c : BitVec 4) : tapInstr c = if c = 0x0#4 then .extest else if c = 0x1#4 then .sample
    else if c = 0x2#4 then .clamp else if c = 0x3#4 then .highz else .bypass := by
  revert c
  decide

/-- Codes from 4 on act as BYPASS. -/
theorem tapInstr_bypass {c : BitVec 4} (h : 4 ≤ c.toNat) : tapInstr c = .bypass := by
  have hall : ∀ c : BitVec 4, 4 ≤ c.toNat → tapInstr c = .bypass := by decide
  exact hall c h

theorem runs_tapBypass {b : BypassScan} {s : State} (h : s.dev.aon.level = 2) (hb : 4 ≤ b.code.toNat) :
    runs (.tapBypass b) s { s.dev with tap := { s.dev.tap with ir := b.code, bypassBit := b.tdi } } := by
  have hrun := runs_onTap (c := .tapBypass b)
    (f := fun t => if tapInstr b.code = .bypass then { t with ir := b.code, bypassBit := b.tdi } else t) rfl h
  rwa [if_pos (tapInstr_bypass hb)] at hrun

section
variable {d : Dev} (h : d.tap.instr = .highz)
include h

/-- HIGHZ drives no covered pin. -/
theorem scanned_highz (cell : Nat) (own : Option Bool) : d.scanned cell own = none := by simp [Dev.scanned, h]

theorem openDrain_highz (cell : Nat) (own : PinState) : d.openDrain cell own = .released := by
  simp [Dev.openDrain, h, scanned_highz h]

omit h in
/-- At level ON a pin is as that level has it, or VAON is absent. -/
theorem pinColumn_on (hl : d.aon.level = 2) : d.pinColumn = .noVaon ∨ d.pinColumn = .on := by
  cases hv : d.aon.vaon with
  | false => exact .inl (if_pos hv)
  | true => exact .inr ((if_neg (by simp [hv])).trans (if_pos hl))

theorem pinState_irqN_highz (hl : d.aon.level = 2) : d.pinState .irqN = .released := by
  unfold Dev.pinState
  obtain hcol | hcol := pinColumn_on hl <;> rw [hcol]
  exact openDrain_highz h ..

theorem pinState_spiMiso_highz (hl : d.aon.level = 2) : d.pinState .spiMiso = .highZ := by
  unfold Dev.pinState
  obtain hcol | hcol := pinColumn_on hl <;> rw [hcol]
  simp only [Dev.pinOn, scanned_highz h]

end

end Sys2Proof.Machine

open Sys2Proof Sys2Proof.Machine

/-- Settles O55: at level ON each instruction is selected, and at no other level. -/
theorem tapSelectsRegisters : Obligations.TapSelectsRegisters := by
  refine ⟨fun c i s hc hl => ?plain, fun b s hl => runs_onTap (f := fun t => { t with ir := 0x0#4, chain := b }) rfl hl,
    fun s hl => runs_onTap (f := fun t => { t with ir := 0x0#4 }) rfl hl,
    fun b s hl => ⟨runs_onTap (f := fun t => { t with ir := 0x1#4, chain := b }) rfl hl,
      runs_onTap (f := fun t => { t with ir := 0x1#4, sample := b }) rfl hl⟩,
    fun b s hl hb => runs_tapBypass hl hb, tapInstr_eq,
    fun s t p hl ht => ?highz, fun c b o q r s hc hl => ?off⟩
  case plain =>
    simp only [List.mem_cons, Prod.mk.injEq, List.not_mem_nil, or_false] at hc
    obtain ⟨rfl, rfl⟩ | ⟨rfl, rfl⟩ | ⟨rfl, rfl⟩ := hc
    · exact runs_onTap (f := fun t => { t with ir := 0xF#4 }) rfl hl
    · exact runs_onTap (f := fun t => { t with ir := 0x2#4 }) rfl hl
    · exact runs_onTap (f := fun t => { t with ir := 0x3#4 }) rfl hl
  case highz =>
    have hrun := runs_onTap (c := .tapHighz) (f := fun t => { t with ir := 0x3#4 }) rfl hl
    obtain rfl := Host.Outcome.next.inj (hrun.symm.trans ht)
    exact ⟨scanned_highz rfl .., pinState_irqN_highz rfl hl, pinState_spiMiso_highz rfl hl⟩
  case off =>
    simp only [List.mem_cons, List.not_mem_nil, or_false] at hc
    obtain rfl | rfl | rfl | rfl | rfl | rfl := hc <;> dsimp only [runs, exec, execTapReset, execTapClamp, execTapHighz,
      execTapExtest, execTapSamplePreload, execTapBypass] <;> exact onTap_off hl _
end

section
/-! SUPPORT. Rules about the mailbox (R90 to R95): what an answer leaves in the slot, how a posted command is served, and
who may load the slot. -/
namespace Sys2Proof.Machine

/-! ## Serving a posted command (R93, R94) -/

section
variable {s : State} {opc len : Nat} (h : s.posted opc len) (lenOk : Nat → Bool)
include h

theorem mbxReady_posted : s.dev.mbxReady opc = true := by
  obtain ⟨hrun, hst, hopc, -⟩ := h
  simp [Dev.mbxReady, Dev.mbxServed, hrun, hst, hopc, -Dev.f_def]

theorem mbxRefuse_posted : s.dev.mbxRefuse opc lenOk = if lenOk len then none else some resBAD_LENGTH := by
  obtain ⟨hrun, -, -, hlen⟩ := h
  simp [Dev.mbxRefuse, hrun, hlen, -Dev.f_def]

/-- A command of the right length is carried out, with STATE at BUSY. -/
theorem mbxServe_posted (hlen : lenOk len = true) (f : Dev → Dev) :
    mbxServe opc lenOk f s.dev = f (s.dev.setMbx mbxBUSY) := by
  unfold mbxServe
  rw [if_pos (mbxReady_posted h), mbxRefuse_posted h lenOk, if_pos hlen]

theorem mbxServeRec_posted (hlen : lenOk len = true) (f : Dev × Recorder → Dev × Recorder) :
    mbxServeRec opc lenOk f (s.dev, s.evr) = f (s.dev.setMbx mbxBUSY, s.evr) := by
  unfold mbxServeRec
  dsimp only
  rw [if_pos (mbxReady_posted h), mbxRefuse_posted h lenOk, if_pos hlen]

theorem mbxServeRec_badLength (hlen : lenOk len = false) (f : Dev × Recorder → Dev × Recorder) :
    mbxServeRec opc lenOk f (s.dev, s.evr) = (s.dev.mbxDone resBAD_LENGTH, s.evr) := by
  unfold mbxServeRec
  dsimp only
  rw [if_pos (mbxReady_posted h), mbxRefuse_posted h lenOk, if_neg (Bool.eq_false_iff.mp hlen)]

/-- The command behind the mailbox runs to its effect. -/
theorem runs_mbxServe {c : Instr} {f : Dev → Dev} (hc : exec c s = onDev (mbxServe opc lenOk f) s)
    (hlen : lenOk len = true) : runs c s (f (s.dev.setMbx mbxBUSY)) :=
  runs_onDev hc (mbxServe_posted h lenOk hlen f)

theorem runs_mbxServeRec_badLength {c : Instr} {f : Dev × Recorder → Dev × Recorder}
    (hc : exec c s = onRec (mbxServeRec opc lenOk f) s) (hlen : lenOk len = false) :
    runs c s (s.dev.mbxDone resBAD_LENGTH) :=
  hc.trans (onRec_eq (mbxServeRec_badLength h lenOk hlen f))

end

/-! ## Answers (R93) -/

/-- `writeResp` over any way to store a response word. -/
def writeRespWith {D : Type} (put : Nat → Nat → D → D) : List Word → Nat → D → D
  | [], _, d => d
  | w :: t, k, d => writeRespWith put t (k + 1) (put k w.toNat d)

theorem writeResp_eq : writeResp = writeRespWith fun k v d => d.setFk MBX_RESP_BUF k v := by
  delta writeResp writeRespWith
  rfl

/-- What every stored word keeps, the response keeps. -/
theorem writeResp_keeps {P : Dev → Prop} (h : ∀ (k v : Nat) (d : Dev), P d → P (d.setFi MBX_RESP_BUF 0 k v))
    (ws : List Word) (k : Nat) {d : Dev} (hd : P d) : P (writeResp ws k d) := by
  have hwith : ∀ (put : Nat → Nat → Dev → Dev), (∀ (k v : Nat) (d : Dev), P d → P (put k v d)) →
      P (writeRespWith put ws k d) := by
    intro put hput
    induction ws generalizing k d with
    | nil => exact hd
    | cons w ws ih => exact ih (k + 1) (hput k w.toNat d hd)
  rw [writeResp_eq]
  exact hwith _ h

/-- A field below the response buffer is not written with it. -/
theorem fi_writeResp (ws : List Word) (k : Nat) (d : Dev) {F : Fld} (h : F.addr 0 0 < 0x7400) :
    (writeResp ws k d).fi F 0 0 = d.fi F 0 0 := by
  have haddr : ∀ k, MBX_RESP_BUF.addr 0 k = 0x7400 + 4 * k := fun _ => rfl
  refine writeResp_keeps (P := fun x => x.fi F 0 0 = d.fi F 0 0) (fun k v x hx => ?_) ws k rfl
  rw [Dev.fi, Dev.word_setFi, haddr, if_neg (by omega)]
  exact hx

/-- Four bytes make a word, and what is left of them one more. -/
theorem wordsOf_length (b : List Byte) : (wordsOf b).length = (b.length + 3) / 4 := by
  induction b using wordsOf.induct with
  | case1 a b c d t ih => simp only [wordsOf, List.length_cons, ih]; omega
  | case2 => rfl
  | case3 l hne hfour =>
    obtain _ | ⟨a, _ | ⟨b, _ | ⟨c, _ | ⟨e, t⟩⟩⟩⟩ := l
    · exact absurd rfl hfour
    · simp [wordsOf]
    · simp [wordsOf]
    · simp [wordsOf]
    · exact (hne a b c e t rfl).elim

/-- What an answer leaves in STAT and RESP. -/
theorem mbxDone_fields (d : Dev) {result : Nat} {resp : List Byte} (hr : result < 256) (hb : resp.length ≤ 1024) :
    (d.mbxDone result resp).f MBX_STAT_STATE = mbxDONE ∧ (d.mbxDone result resp).f MBX_STAT_RESULT = result ∧
      (d.mbxDone result resp).f MBX_RESP_TAG = d.f MBX_CMD_TAG ∧
      (d.mbxDone result resp).f MBX_RESP_LEN_W = (wordsOf resp).length := by
  have hlen := wordsOf_length resp
  unfold Dev.mbxDone Dev.setMbx
  simp only [Dev.f_def, Dev.setF_def, Dev.raise_def]
  refine ⟨?_, ?_, ?_, ?_⟩
  · rw [Dev.fi_raiseBits _ _ _ _ _ _ (by decide), Dev.fi_setFi_same _ _ _ _ _ (by decide) (by decide)]
    rfl
  · rw [Dev.fi_raiseBits _ _ _ _ _ _ (by decide),
      Dev.fi_setFi_ne _ _ _ _ _ _ _ _ (by decide) (by decide) (by decide) (by decide),
      Dev.fi_setFi_same _ _ _ _ _ (by decide) (by decide)]
    exact Nat.mod_eq_of_lt hr
  · rw [Dev.fi_raiseBits _ _ _ _ _ _ (by decide),
      Dev.fi_setFi_ne _ _ _ _ _ _ _ _ (by decide) (by decide) (by decide) (by decide),
      Dev.fi_setFi_ne _ _ _ _ _ _ _ _ (by decide) (by decide) (by decide) (by decide),
      Dev.fi_setFi_same _ _ _ _ _ (by decide) (by decide),
      Dev.fi_setFi_ne _ _ _ _ _ _ _ _ (by decide) (by decide) (by decide) (by decide), fi_writeResp _ _ _ (by decide)]
    exact Nat.mod_eq_of_lt (bitsOf_lt _ 15 8)
  · rw [Dev.fi_raiseBits _ _ _ _ _ _ (by decide),
      Dev.fi_setFi_ne _ _ _ _ _ _ _ _ (by decide) (by decide) (by decide) (by decide),
      Dev.fi_setFi_ne _ _ _ _ _ _ _ _ (by decide) (by decide) (by decide) (by decide),
      Dev.fi_setFi_ne _ _ _ _ _ _ _ _ (by decide) (by decide) (by decide) (by decide),
      Dev.fi_setFi_same _ _ _ _ _ (by decide) (by decide)]
    exact Nat.mod_eq_of_lt (show _ < 512 by omega)

/-- What IDENTIFY answers. -/
def identity (d : Dev) : List Byte :=
  u16 0x9612 ++ u8 0xB0 ++ u8 (if d.boot.image then 1 else 0) ++ u64 Config.serial.toNat ++ u16 d.fwVersion.1 ++
    u16 d.fwVersion.2.1 ++ u16 d.fwVersion.2.2.1 ++ u32 d.fwVersion.2.2.2 ++ [0#8, 0#8]

theorem identify_eq (d : Dev) : identify d = d.mbxDone resOK (identity d) := rfl

theorem identity_setMbx (d : Dev) (st : Nat) : identity (d.setMbx st) = identity d := rfl

/-! ## The length that a command is checked for (R94) -/

/-- A mailbox command of this opcode, carried out where its length is `n`. -/
def Checks (c : Instr) (opc n : Nat) : Prop :=
  ∃ f : Vault → Dev × Recorder → Dev × Recorder, ∀ s, exec c s = onAccess (fun vt => mbxServeRec opc (· = n) (f vt)) s

theorem checks_dev {c : Instr} {opc n : Nat} {f : Dev → Dev} (h : ∀ s, exec c s = onDev (mbxServe opc (· = n) f) s) :
    Checks c opc n := by
  refine ⟨fun _ x => (f x.1, x.2), fun s => (h s).trans ?_⟩
  unfold onDev onAccess onRec mbxServe mbxServeRec
  dsimp only
  split
  · split <;> rfl
  · rfl

theorem checks_rec {c : Instr} {opc n : Nat} {f : Dev × Recorder → Dev × Recorder}
    (h : ∀ s, exec c s = onRec (mbxServeRec opc (· = n) f) s) : Checks c opc n := ⟨fun _ => f, h⟩

theorem checks_access {c : Instr} {opc n : Nat} {f : Vault → Dev × Recorder → Dev × Recorder}
    (h : ∀ s, exec c s = onAccess (fun vt => mbxServeRec opc (· = n) (f vt)) s) : Checks c opc n := ⟨f, h⟩

theorem runs_of_checks {c : Instr} {opc n m : Nat} {s : State} (hc : Checks c opc n) (hm : m ≠ n) (h : s.posted opc m) :
    runs c s (s.dev.mbxDone resBAD_LENGTH) := by
  obtain ⟨f, hf⟩ := hc
  exact runs_mbxServeRec_badLength h (· = n) (hf s) (decide_eq_false hm)

/-! ## What STATE written leaves of the slot -/

theorem fi_setMbx (d : Dev) (st : Nat) {F : Fld} {i k : Nat} (h : F.addr i k ≠ 0x710C) :
    (d.setMbx st).fi F i k = d.fi F i k := by
  have haddr : MBX_STAT_STATE.addr 0 0 = 0x710C := rfl
  rw [Dev.setMbx, Dev.setF_def, Dev.fi, Dev.fi, Dev.word_setFi, haddr, if_neg h]

theorem f_setMbx (d : Dev) {st : Nat} (h : st < 16) : (d.setMbx st).f MBX_STAT_STATE = st := by
  rw [Dev.setMbx, Dev.setF_def, Dev.f_def, Dev.fi_setFi_same _ _ _ _ _ (by decide) (by decide)]
  exact Nat.mod_eq_of_lt h

theorem onlyRegs_setMbx (d : Dev) (st : Nat) : onlyRegs d (d.setMbx st) [0x710C] := onlyRegs_setFi d MBX_STAT_STATE 0 0 st

theorem onlyRegs_mono {d e : Dev} {as bs : List Nat} (h : onlyRegs d e as) (hsub : ∀ a ∈ as, a ∈ bs) : onlyRegs d e bs :=
  ⟨h.1, onlyWords_mono h.2 hsub⟩

theorem cmdBytes_setMbx (d : Dev) (st start n : Nat) : (d.setMbx st).cmdBytes start n = d.cmdBytes start n := by
  have hword : ∀ k, (d.setMbx st).fk MBX_CMD_BUF k = d.fk MBX_CMD_BUF k := fun k => by
    have haddr : MBX_CMD_BUF.addr 0 k = 0x7200 + 4 * k := rfl
    exact fi_setMbx d st (by omega)
  simp only [Dev.cmdBytes, Dev.cmdByte, hword]

/-! ## The slot of a port (R91, R92) -/

theorem onlyRegs_putWord (d : Dev) (a : Nat) (w : Word) : onlyRegs d (d.putWord a w) [a] :=
  ⟨rfl, onlyWords_putWord d (List.mem_singleton.mpr rfl) w⟩

/-- An IDLE slot that a port takes. -/
theorem mbxTake_idle {d : Dev} (h : d.f MBX_STAT_STATE = mbxIDLE) (p : Port) :
    d.mbxTake p = (d.setF MBX_RESP_OWNER (portCode p)).setMbx mbxLOADING := if_pos h

theorem mbxTake_taken {d : Dev} (h : d.f MBX_STAT_STATE ≠ mbxIDLE) (p : Port) : d.mbxTake p = d := if_neg h

/-- Taking the slot writes STATE and OWNER. -/
theorem onlyRegs_mbxTake (d : Dev) (p : Port) : onlyRegs d (d.mbxTake p) [0x710C, 0x7110] := by
  by_cases h : d.f MBX_STAT_STATE = mbxIDLE
  · rw [mbxTake_idle h]
    exact onlyRegs_trans (onlyRegs_mono (onlyRegs_setFi d MBX_RESP_OWNER 0 0 _) (by decide))
      (onlyRegs_mono (onlyRegs_setMbx ..) (by decide))
  · rw [mbxTake_taken h]
    exact onlyRegs_refl ..

/-- The address of a word of CMD_BUF. -/
theorem mbxBuf_toNat (k : Fin 64) : (BitVec.ofNat 24 (0x7200 + 4 * k.val)).toNat = 0x7200 + 4 * k.val := by
  have := k.isLt
  rw [BitVec.toNat_ofNat]
  omega

/-- A write to CMD_BUF that passes the gate. -/
theorem runs_mbxClaim (p : Port) (k : Fin 64) (v : Word) {s : State} (h : s.admits p) :
    runs (.mbxClaim p (BitVec.ofNat 24 (0x7200 + 4 * k.val)) v) s (mbxBufWrite p (0x7200 + 4 * k.val) v s.dev) := by
  have hrun := runs_gateWrite (c := .mbxClaim p (BitVec.ofNat 24 (0x7200 + 4 * k.val)) v) rfl h
  have hbuf : isMbxBuf (0x7200 + 4 * k.val) = true := by
    have := k.isLt
    simp [isMbxBuf]
    omega
  rw [mbxBuf_toNat] at hrun
  rwa [if_pos hbuf] at hrun

/-- A word of CMD_BUF is stored as it is. -/
theorem mbxStore_buf (p : Port) (k : Nat) (v : Word) (d : Dev) :
    mbxStore p (0x7200 + 4 * k) v d = d.putWord (0x7200 + 4 * k) v := if_neg (by omega)

theorem mbxBufWrite_may {p : Port} (k : Nat) (v : Word) {d : Dev} (hp : p ≠ .fw) (hs : d.mbxServed = true)
    (hm : d.mbxMayLoad p = true) :
    mbxBufWrite p (0x7200 + 4 * k) v d = (d.mbxTake p).putWord (0x7200 + 4 * k) v := by
  have haddr : (0x7200 + 4 * k) / 4 * 4 = 0x7200 + 4 * k := by omega
  unfold mbxBufWrite
  dsimp only
  rw [if_neg (by simp [hp, hs]), if_pos hm, haddr, mbxStore_buf]

theorem mbxBufWrite_mayNot {p : Port} (k : Nat) (v : Word) {d : Dev} (hp : p ≠ .fw) (hs : d.mbxServed = true)
    (hm : d.mbxMayLoad p = false) : mbxBufWrite p (0x7200 + 4 * k) v d = d.reject .mbx p (0x7200 + 4 * k) v 6 := by
  unfold mbxBufWrite
  dsimp only
  rw [if_neg (by simp [hp, hs]), if_neg (by simp [hm])]

theorem mbxMayLoad_idle {d : Dev} {p : Port} (hst : d.f MBX_STAT_STATE = mbxIDLE) (hp : d.boot.run = .loader → p ≠ .inband) :
    d.mbxMayLoad p = true := by
  by_cases hl : d.boot.run = .loader
  · simp [Dev.mbxMayLoad, hst, hp hl, -Dev.f_def]
  · simp [Dev.mbxMayLoad, hst, hl, -Dev.f_def]

theorem portCode_inj {p q : Port} (h : portCode p = portCode q) : p = q := by
  cases p <;> cases q <;> simp_all [portCode]

theorem portCode_lt (p : Port) : portCode p < 4 := by cases p <;> decide

theorem mbxMayLoad_other {d : Dev} {p q : Port} (hst : d.f MBX_STAT_STATE = mbxLOADING)
    (hown : d.f MBX_RESP_OWNER = portCode p) (hpq : p ≠ q) : d.mbxMayLoad q = false := by
  have hne : portCode p ≠ portCode q := fun h => hpq (portCode_inj h)
  simp [Dev.mbxMayLoad, hst, hown, hne, mbxIDLE, mbxLOADING, -Dev.f_def]

theorem mbxMayLoad_loader {d : Dev} (h : d.boot.run = .loader) : d.mbxMayLoad .inband = false := by
  simp [Dev.mbxMayLoad, h]

/-- A GO of the slot's port, with an opcode that is known, posts the command. -/
theorem mbxGo_posts {p : Port} {d : Dev} (hs : d.mbxServed = true) (hm : d.mbxMayLoad p = true)
    (hopc : d.f MBX_CMD_OPCODE ∈ mbxOpcodes) (v : Word) : mbxGo p v d = (d.mbxTake p).setMbx mbxPOSTED := by
  have hkeep : ((d.mbxTake p).setMbx mbxPOSTED).f MBX_CMD_OPCODE = d.f MBX_CMD_OPCODE := by
    rw [Dev.f_def, fi_setMbx _ _ (by decide)]
    exact fi_of_onlyWords (onlyRegs_mbxTake d p).2 (by decide)
  unfold mbxGo
  dsimp only
  rw [if_neg (by simp [hs]), if_pos hm, hkeep, if_pos (List.elem_eq_true_of_mem hopc)]

/-- The commands of the mailbox that have one length each. -/
theorem checks_commands : ∀ x ∈ ([(.identify, 0x0001, 0), (.presetLoad, 0x0010, 1),
      (.presetSave, 0x0011, 1), (.ctxSnapshot, 0x0020, 2), (.evrRead, 0x0030, 3), (.evrFreeze, 0x0031, 0),
      (.evrThaw, 0x0032, 0), (.evrClearNonce, 0x0033, 0), (.evrClear, 0x0034, 12), (.fwBegin, 0x0040, 2),
      (.fwEnd, 0x0042, 16), (.fwActivate, 0x0043, 1), (.histTrigger, 0x0050, 2), (.histFreeze, 0x0051, 0),
      (.histReplay, 0x0052, 3), (.timeStep, 0x0060, 3), (.phaseStep, 0x0061, 1), (.gaitSet, 0x0070, 1),
      (.thermalRead, 0x0071, 0), (.focusRun .go, 0x0080, 1), (.focusRun .word, 0x0080, 1),
      (.focusRun .frame, 0x0080, 1), (.linkRetrain, 0x0090, 1)] : List (Instr × Nat × Nat)),
    Checks x.1 x.2.1 x.2.2 := by
  simp only [List.forall_mem_cons, List.not_mem_nil, false_implies, implies_true, and_true]
  exact ⟨checks_dev fun _ => rfl, checks_access fun _ => rfl, checks_dev fun _ => rfl, checks_dev fun _ => rfl,
    checks_rec fun _ => rfl, checks_rec fun _ => rfl, checks_rec fun _ => rfl, checks_rec fun _ => rfl,
    ⟨evrClear, fun _ => rfl⟩, checks_dev fun _ => rfl, checks_dev fun _ => rfl, checks_dev fun _ => rfl,
    checks_rec fun _ => rfl, checks_dev fun _ => rfl, checks_dev fun _ => rfl, checks_dev fun _ => rfl,
    checks_dev fun _ => rfl, checks_dev fun _ => rfl, checks_dev fun _ => rfl, checks_dev fun _ => rfl,
    checks_dev fun _ => rfl, checks_dev fun _ => rfl, checks_dev fun _ => rfl⟩

end Sys2Proof.Machine

open Sys2Proof Sys2Proof.Machine

/-- Settles O10: an IDLE slot is its port's from the first write on; GO, ACK and the limit move STATE. -/
theorem mailboxSlotIsClaimed : Obligations.MailboxSlotIsClaimed := by
  refine ⟨fun p k v s h hp hs hst hl => ?claim, fun p q k v s h hq hpq hs hst hown => ?other, fun k v s h hl => ?loader,
    fun p s h hs hm hopc => ?go, fun p s h hs hst => ?ack, fun s hs hst => ?limit⟩
  case claim =>
    have hrun := runs_mbxClaim p k v h
    rw [mbxBufWrite_may k.val v hp hs (mbxMayLoad_idle hst hl), mbxTake_idle hst] at hrun
    have hbuf : ∀ F : Fld, F.addr 0 0 < 0x7200 → F.addr 0 0 ∉ [0x7200 + 4 * k.val] := fun F hF => by simp; omega
    have hput := onlyRegs_putWord ((s.dev.setF MBX_RESP_OWNER (portCode p)).setMbx mbxLOADING) (0x7200 + 4 * k.val) v
    refine ⟨_, hrun, ?_, ?_, Dev.word_putWord_same .., ?_⟩
    · exact (fi_of_onlyWords hput.2 (hbuf _ (by decide))).trans (f_setMbx _ (by decide))
    · refine (fi_of_onlyWords hput.2 (hbuf _ (by decide))).trans ?_
      rw [fi_setMbx _ _ (by decide), Dev.setF_def, Dev.fi_setFi_same _ _ _ _ _ (by decide) (by decide)]
      exact Nat.mod_eq_of_lt (portCode_lt p)
    · refine onlyRegs_trans (onlyRegs_mono (mbxTake_idle hst p ▸ onlyRegs_mbxTake s.dev p) ?_) (onlyRegs_mono hput ?_) <;>
        simp +contextual
  case other =>
    have hrun := runs_mbxClaim q k v h
    rwa [mbxBufWrite_mayNot k.val v hq hs (mbxMayLoad_other hst hown hpq)] at hrun
  case loader =>
    have hrun := runs_mbxClaim .inband k v h
    rwa [mbxBufWrite_mayNot k.val v (by decide) (by simp [Dev.mbxServed, hl]) (mbxMayLoad_loader hl)] at hrun
  case go =>
    have hrun := runs_gateWrite (c := .mbxGo p) (f := mbxGo p 1#32) rfl h
    rw [mbxGo_posts hs hm hopc] at hrun
    exact ⟨_, hrun, f_setMbx _ (by decide), onlyRegs_trans (onlyRegs_mbxTake ..) (onlyRegs_mono (onlyRegs_setMbx ..) (by decide))⟩
  case ack =>
    have hack : mbxAck p 1#32 s.dev = s.dev.setMbx mbxIDLE := by
      obtain hdone | ⟨hload, hown⟩ := hst
      · simp [mbxAck, hs, hdone, -Dev.f_def]
      · simp [mbxAck, hs, hload, hown, -Dev.f_def, mbxLOADING, mbxDONE, mbxABORTED]
    have hrun := runs_gateWrite (c := .mbxAck p) (f := mbxAck p 1#32) rfl h
    rw [hack] at hrun
    exact ⟨_, hrun, f_setMbx _ (by decide), onlyRegs_setMbx ..⟩
  case limit =>
    refine ⟨_, runs_onDev rfl (if_pos ⟨hs, hst⟩), ?_, ?_, ?_⟩
    · rw [Dev.raise_def, Dev.f_def, Dev.fi_raiseBits _ _ _ _ _ _ (by decide)]
      exact f_setMbx _ (by decide)
    · rw [Dev.raise_def]
      exact (Dev.word_raiseBits_same ..).trans
        (congrArg (· ||| _) ((onlyRegs_setMbx s.dev mbxIDLE).2 0x7010 (by decide)))
    · exact onlyWords_trans (onlyWords_mono (onlyRegs_setMbx ..).2 (by decide)) (onlyWords_raiseBits _ (by decide) _)

/-- Settles O11: an answer's fields, the commands that answer at once, and the length that every command is checked for. -/
theorem mailboxAnswers : Obligations.MailboxAnswers := by
  refine ⟨fun d result resp hr hb => mbxDone_fields d hr hb, fun s h => ?identify, fun s n hn h => ?echo,
    fun c opc n s hc hm => ?badLength⟩
  case identify =>
    have hrun := runs_mbxServe h (c := .identify) (lenOk := (· = 0)) (f := identify) rfl rfl
    exact ⟨identity s.dev, rfl, rfl, by rwa [identify_eq, identity_setMbx] at hrun⟩
  case echo =>
    have hrun := runs_mbxServe h (c := .echo) (lenOk := (· ≤ 64)) (f := echo) rfl (by simpa using hn)
    have hlen : (s.dev.setMbx mbxBUSY).f MBX_CMD_LEN_W = n := (fi_setMbx _ _ (by decide)).trans h.2.2.2
    rwa [echo, hlen, cmdBytes_setMbx] at hrun
  case badLength =>
    obtain ⟨m, hne, h⟩ := hm
    exact runs_of_checks (checks_commands (c, opc, n) hc) hne h
end

section
/-! SUPPORT. Proofs about register access by class (R16 to R18): what a word written stores where its register's fields
are all shadowed or all cleared by ones, and what a read of a counter clears. -/
namespace Sys2Proof.Machine

/-! ## A register of shadowed fields -/

/-- Each field of a list stored from one word. -/
def storeAll (v : Word) (fs : List Fld) (w : Word) : Word := fs.foldl (fun w f => setBits w f.hi f.lo (bitsOf v f.hi f.lo)) w

theorem writeField_sh {fs : List Fld} (h : ∀ f ∈ fs, f.acc = .sh) (locked : Bool) (v w : Word) (r : Nat) :
    fs.foldl (writeField locked v) (w, r) = (storeAll v fs w, r) := by
  induction fs generalizing w with
  | nil => rfl
  | cons f fs ih =>
    have hf : writeField locked v (w, r) f = (setBits w f.hi f.lo (bitsOf v f.hi f.lo), r) := by
      simp only [writeField, h f (List.mem_cons_self ..)]
    rw [List.foldl_cons, hf, ih fun g hg => h g (List.mem_cons_of_mem _ hg)]
    rfl

/-- A bit of some field of the list is the bit of the word stored. -/
theorem testBit_storeAll {fs : List Fld} (h : ∀ f ∈ fs, f.lo ≤ f.hi ∧ f.hi < 32) (v w : Word) {n : Nat}
    (hn : (∃ f ∈ fs, f.lo ≤ n ∧ n ≤ f.hi) ∨ w.toNat.testBit n = v.toNat.testBit n) :
    (storeAll v fs w).toNat.testBit n = v.toNat.testBit n := by
  induction fs generalizing w with
  | nil => exact hn.resolve_left fun ⟨_, hf, _⟩ => absurd hf (List.not_mem_nil)
  | cons f fs ih =>
    obtain ⟨hle, h32⟩ := h f (List.mem_cons_self ..)
    refine ih (fun g hg => h g (List.mem_cons_of_mem _ hg)) _ ?_
    by_cases hin : f.lo ≤ n ∧ n ≤ f.hi
    · refine .inr ?_
      rw [setBits_testBit _ _ _ _ _ hle h32, if_pos hin, bitsOf_testBit,
        Nat.add_sub_cancel' hin.1, decide_eq_true (by omega), Bool.true_and]
    · rw [setBits_testBit _ _ _ _ _ hle h32, if_neg hin]
      refine hn.imp_left ?_
      rintro ⟨g, hg, hgn⟩
      obtain rfl | hg := List.mem_cons.mp hg
      · exact absurd hgn hin
      · exact ⟨g, hg, hgn⟩

/-- A field of the list reads as the word stored has it. -/
theorem bitsOf_storeAll {fs : List Fld} (h : ∀ f ∈ fs, f.lo ≤ f.hi ∧ f.hi < 32) (v w : Word) {F : Fld} (hF : F ∈ fs) :
    bitsOf (storeAll v fs w) F.hi F.lo = fieldOf v F := by
  obtain ⟨hle, -⟩ := h F hF
  apply Nat.eq_of_testBit_eq
  intro i
  rw [fieldOf, bitsOf_testBit, bitsOf_testBit]
  by_cases hi : i < F.hi - F.lo + 1
  · rw [testBit_storeAll h v w (.inl ⟨F, hF, by omega, by omega⟩)]
  · simp only [hi, decide_false, Bool.false_and]

/-- A word stored whose fields reject nothing. -/
theorem storeWord_of_fold {p : Page} {off : Nat} (port : Port) {locked : Bool} {v w : Word} {d : Dev}
    (h : (p.fieldsAt off).foldl (writeField locked v) (d.word (p.base + off), 0) = (w, 0)) :
    storeWord port p off locked v d = d.putWord (p.base + off) w := by
  unfold storeWord
  dsimp only
  rw [h]
  exact if_pos rfl

/-- A word stored in a register whose fields are all shadowed. -/
theorem storeWord_sh {p : Page} {off : Nat} (h : ∀ f ∈ p.fieldsAt off, f.acc = .sh) (port : Port) (locked : Bool) (v : Word)
    (d : Dev) : storeWord port p off locked v d =
      d.putWord (p.base + off) (storeAll v (p.fieldsAt off) (d.word (p.base + off))) :=
  storeWord_of_fold port (writeField_sh h ..)

/-- The shadowed registers of the NRD page, checked over its table. -/
theorem nrd_shadowed : ∀ F ∈ Blk.fields .nrd, F.acc = .sh → F.stride = 0 →
    F ∈ Page.nrd.fieldsAt F.off ∧ (∀ f ∈ Page.nrd.fieldsAt F.off, f.acc = .sh ∧ f.lo ≤ f.hi ∧ f.hi < 32) ∧
      0x100 ≤ F.off ∧ F.off < 0x1000 ∧ F.off / 4 * 4 = F.off ∧ F.addr 0 0 = Page.nrd.base + F.off := by
  decide

/-- A word written to a register of the NRD page, where no soft reset runs. -/
theorem writeServed_nrd (vt : Vault) (p : Port) {off : Nat} (h100 : 0x100 ≤ off) (hlt : off < 0x1000) (h4 : off / 4 * 4 = off)
    (v : Word) {x : Dev × Recorder} (hr : x.1.inReset .nrd = false) : writeServed vt p (Page.nrd.base + off) v x =
      (storeWord p .nrd off (x.1.enabled .nrd) v x.1, x.2) := by
  have ha : decodeAddr (Page.nrd.base + off) = .page .nrd off := by
    rw [decodeAddr_page _ _ (show off < Page.nrd.size from hlt), h4]
  unfold writeServed
  rw [ha]
  dsimp only
  unfold writePage
  rw [if_neg (by simp [hr]), if_neg (by omega), if_neg (by omega), if_neg (by simp), if_neg (by simp)]
  rfl

/-! ## Bits that a 1 clears -/

/-- All bits of the fields of a list. -/
def maskOf (fs : List Fld) : Word := fs.foldl (fun w f => w ||| setBits 0#32 f.hi f.lo (2 ^ 32 - 1)) 0#32

theorem writeField_w1c {fs : List Fld} (h : ∀ f ∈ fs, f.acc = .w1c) (locked : Bool) (v w m : Word) (r : Nat) :
    fs.foldl (writeField locked v) (w &&& ~~~(v &&& m), r) =
      (w &&& ~~~(v &&& fs.foldl (fun w f => w ||| setBits 0#32 f.hi f.lo (2 ^ 32 - 1)) m), r) := by
  induction fs generalizing m with
  | nil => rfl
  | cons f fs ih =>
    have hf : writeField locked v (w &&& ~~~(v &&& m), r) f =
        (w &&& ~~~(v &&& (m ||| setBits 0#32 f.hi f.lo (2 ^ 32 - 1))), r) := by
      simp only [writeField, h f (List.mem_cons_self ..)]
      congr 1
      ext i
      simp only [BitVec.getElem_and, BitVec.getElem_not, BitVec.getElem_or]
      cases w[i] <;> cases v[i] <;> cases m[i] <;> simp
    rw [List.foldl_cons, hf, ih fun g hg => h g (List.mem_cons_of_mem _ hg)]
    rfl

/-- A word stored in a register whose bits are all cleared by ones. -/
theorem storeWord_w1c {p : Page} {off : Nat} (h : ∀ f ∈ p.fieldsAt off, f.acc = .w1c) (port : Port) (locked : Bool) (v : Word)
    (d : Dev) : storeWord port p off locked v d =
      d.putWord (p.base + off) (d.word (p.base + off) &&& ~~~(v &&& maskOf (p.fieldsAt off))) := by
  have hfold := writeField_w1c h locked v (d.word (p.base + off)) 0#32 0
  have hzero : d.word (p.base + off) &&& ~~~(v &&& 0#32) = d.word (p.base + off) := by
    rw [BitVec.and_zero, BitVec.not_zero, BitVec.and_allOnes]
  rw [hzero] at hfold
  exact storeWord_of_fold port hfold

/-- The bits that ones clear, as the model names them for the bits hardware sets. -/
def clearedBits (fs : List Fld) : Word :=
  (fs.filter fun f => f.acc = .w1c).foldl (fun w f => setBits w f.hi f.lo (2 ^ 32 - 1)) 0#32

/-- Every source of IRQ_RAW is cleared by a 1, and no other bit is: bits 31 to 8 and 2 to 0. -/
def clearsSources (fs : List Fld) : Prop :=
  (∀ f ∈ fs, f.acc = .w1c) ∧ maskOf fs = 0xFFFFFF07#32 ∧ clearedBits fs = 0xFFFFFF07#32

theorem clearsSources_blk : ∀ b : Blk, clearsSources (fieldsAt b 0x10) := by
  intro b
  unfold clearsSources
  cases b <;> decide

/-- A lane page has the sources of its own direction. -/
theorem clearsSources_lane (rx : Bool) : clearsSources
    ((fieldsAt .ln 0x10).filter fun f => !(if rx then lnTxFields else lnRxFields).contains f) := by
  unfold clearsSources
  cases rx <;> decide

theorem clearsSources_page (p : Page) : clearsSources (p.fieldsAt 0x10) := by
  unfold Page.fieldsAt
  dsimp only
  split
  case isTrue h =>
    rw [h]
    exact clearsSources_lane (laneRx p.inst)
  case isFalse => exact clearsSources_blk p.blk

/-- The address of a header word. -/
theorem pageAddr_toNat (p : Page) {off : Nat} (h : off < 0x400) : (BitVec.ofNat 24 (p.base + off)).toNat = p.base + off := by
  have hbase : p.base < 0x100000 := by
    cases p
    case eng n => have := n.isLt; simp only [Page.base, Page.blk, Page.inst, Blk.base, Blk.size]; omega
    case pe n => have := n.isLt; simp only [Page.base, Page.blk, Page.inst, Blk.base, Blk.size]; omega
    case ln n => have := n.isLt; simp only [Page.base, Page.blk, Page.inst, Blk.base, Blk.size]; omega
    case sp n => have := n.isLt; simp only [Page.base, Page.blk, Page.inst, Blk.base, Blk.size]; omega
    all_goals decide
  rw [BitVec.toNat_ofNat]
  omega

theorem decodeAddr_irqRaw (p : Page) : decodeAddr (p.base + 0x10) = .page p 0x10 :=
  decodeAddr_page p 0x10 (Nat.lt_of_lt_of_le (by decide) (pageSize_ge p))

theorem w1cBits_irqRaw (p : Page) : w1cBits (p.base + 0x10) = 0xFFFFFF07#32 := by
  unfold w1cBits
  rw [decodeAddr_irqRaw]
  exact (clearsSources_page p).2.2

/-- Bits that hardware sets are left out of those a write clears, whether masked before or after. -/
theorem and_not_and_same (v hw m : Word) : v &&& ~~~(hw &&& m) &&& m = v &&& m &&& ~~~hw := by
  ext i
  simp only [BitVec.getElem_and, BitVec.getElem_not]
  cases v[i] <;> cases hw[i] <;> simp

/-- A word written to a page's IRQ_RAW. -/
theorem writeServed_irqRaw (vt : Vault) (port : Port) (p : Page) (v : Word) {x : Dev × Recorder}
    (hr : x.1.inReset p = false) : writeServed vt port (p.base + 0x10) v x =
      (x.1.putWord (p.base + 0x10) (x.1.word (p.base + 0x10) &&& ~~~(v &&& 0xFFFFFF07#32)), x.2) := by
  obtain ⟨hacc, hmask, -⟩ := clearsSources_page p
  unfold writeServed
  rw [decodeAddr_irqRaw]
  dsimp only
  unfold writePage
  rw [if_neg (by simp [hr]), if_pos (by decide)]
  unfold writeHeader
  rw [if_neg (by decide), if_neg (by decide), if_neg (by decide), storeWord_w1c hacc, hmask]

/-! ## A counter that a read clears -/

/-- The counters of the recorder's page, checked over its table. -/
theorem evr_counters : ∀ F ∈ Blk.fields .evr, F.acc = .rc → Page.evr.fieldsAt F.off = [F] ∧ F.hi = 31 ∧ F.lo = 0 ∧
    0xF00 ≤ F.off ∧ F.off < 0x1000 ∧ F.off / 4 * 4 = F.off ∧ F.addr 0 0 = Page.evr.base + F.off := by
  decide

theorem evrLive_counter (r : Recorder) (d : Dev) {off : Nat} (h : 0xF00 ≤ off) : evrLive r d off = none := by
  obtain ⟨n, rfl⟩ := Nat.exists_eq_add_of_le h
  rw [Nat.add_comm]
  rfl

/-- A read of a counter gives its word and clears it. -/
theorem readPage_counter (r : Recorder) (vt : Vault) (port : Port) {off : Nat} (h : 0xF00 ≤ off) (d : Dev) :
    readPage r vt port .evr off d = (d.word (Page.evr.base + off), clearRead .evr off d) := by
  have hlive : liveWord r vt d .evr off = none := by
    unfold liveWord
    rw [if_neg (by omega), if_neg (by omega)]
    exact evrLive_counter r d h
  unfold readPage
  rw [if_neg (by simp), if_neg (by simp), if_neg (by simp), hlive]
  rfl

theorem clearRead_counter {F : Fld} (h : Page.evr.fieldsAt F.off = [F]) (hacc : F.acc = .rc) (d : Dev) :
    clearRead .evr F.off d =
      d.putWord (Page.evr.base + F.off) (setBits (d.word (Page.evr.base + F.off)) F.hi F.lo 0) := by
  unfold clearRead
  dsimp only
  rw [h, List.foldl_cons, List.foldl_nil, if_pos hacc]

theorem runs_rcRead {p : Port} {a : BitVec 24} {s : State} {n : Nat} {d : Dev} (ha : a.toNat = n)
    (h : readPort s.evr s.vault p 1 n s.dev = d) : runs (.rcRead p a) s d := by
  subst ha h
  rfl

/-- What a port is given touches its outputs and the free values it takes. -/
theorem portGive_frame (p : Port) (w : Word) (d : Dev) :
    portGive p [w] d = { d with out := (portGive p [w] d).out, freeCtr := (portGive p [w] d).freeCtr } := by
  cases p <;> rfl

theorem regs_portGive (p : Port) (w : Word) (d : Dev) : (portGive p [w] d).regs = d.regs :=
  (congrArg Dev.regs (portGive_frame p w d)).trans rfl

/-- A read of one counter through a port: its word is given, and its field reads 0 behind. -/
theorem readPort_counter {F : Fld} (hF : F ∈ Blk.fields .evr) (hacc : F.acc = .rc) (p : Port) {s : State}
    (h : s.dev.serves = true) :
    readPort s.evr s.vault p 1 (Page.evr.base + F.off) s.dev = portGive p [s.dev.word (Page.evr.base + F.off)]
      (s.dev.putWord (Page.evr.base + F.off) (setBits (s.dev.word (Page.evr.base + F.off)) F.hi F.lo 0)) := by
  obtain ⟨hfs, -, -, hF00, hlt, h4, -⟩ := evr_counters F hF hacc
  have hread : readServed s.evr s.vault p (Page.evr.base + F.off) s.dev =
      (s.dev.word (Page.evr.base + F.off), clearRead .evr F.off s.dev) := by
    unfold readServed
    rw [decodeAddr_page _ _ (show F.off < Page.evr.size from hlt), h4]
    exact readPage_counter _ _ _ hF00 _
  have hgive := readPort_serves s.evr s.vault p 1 (Page.evr.base + F.off) h
  rwa [readWords, hread, clearRead_counter hfs hacc] at hgive

end Sys2Proof.Machine

open Sys2Proof Sys2Proof.Machine

/-- Settles O3: the word stored or cleared is that of the register's fields, from the tables. -/
theorem registerAccessByClass : Obligations.RegisterAccessByClass := by
  refine ⟨fun F p v s hF hacc hstride h => ?shadowed, fun p a v s h ha => ?outside, fun p pg v hw s h => ?w1c,
    fun F p s hF hacc h => ?counter⟩
  case shadowed =>
    obtain ⟨hmem, hall, h100, hlt, h4, haddr⟩ := nrd_shadowed F hF hacc hstride
    obtain ⟨⟨hs, ho⟩, hr⟩ := h
    have hto : (BitVec.ofNat 24 (Page.nrd.base + F.off)).toNat = Page.nrd.base + F.off := by
      rw [BitVec.toNat_ofNat]
      exact Nat.mod_eq_of_lt (show 0x91000 + F.off < _ by omega)
    have hw := gateWriteRec_open (x := (s.dev, s.evr)) (writeServed s.vault p (Page.nrd.base + F.off) v) hs ho
    rw [writeServed_nrd _ _ h100 hlt h4 _ hr, storeWord_sh fun f hf => (hall f hf).1] at hw
    rw [haddr]
    refine ⟨_, onRec_eq (by rw [hto]; exact hw), ?_, onlyRegs_putWord ..⟩
    rw [Dev.f_def, Dev.fi, haddr, Dev.word_putWord_same]
    exact bitsOf_storeAll (fun f hf => (hall f hf).2) _ _ hmem
  case outside =>
    obtain ⟨hs, ho⟩ := h
    have hout : writeServed s.vault p a.toNat v (s.dev, s.evr) = (s.dev.bump SYS_ADDR_ERR, s.evr) := by
      simp only [writeServed, writeWindow, ha]
    have hw := gateWriteRec_open (x := (s.dev, s.evr)) (writeServed s.vault p a.toNat v) hs ho
    rw [hout] at hw
    exact onRec_eq hw
  case w1c =>
    obtain ⟨⟨hs, ho⟩, hr⟩ := h
    have hto := pageAddr_toNat pg (off := 0x10) (by decide)
    have hwr := writeServed_irqRaw s.vault p pg (v &&& ~~~(hw &&& 0xFFFFFF07#32)) (x := (s.dev, s.evr)) hr
    have hopen := gateWriteRec_open (x := (s.dev, s.evr))
      (writeServed s.vault p (pg.base + 0x10) (v &&& ~~~(hw &&& 0xFFFFFF07#32))) hs ho
    rw [hwr] at hopen
    refine ⟨_, onRec_eq (by rw [hto, w1cBits_irqRaw]; exact hopen), onlyRegs_putWord .., ?_⟩
    · rw [Dev.word_putWord_same]
      exact congrArg _ (congrArg _ (and_not_and_same ..))
  case counter =>
    obtain ⟨hfs, hhi, hlo, hF00, hlt, h4, haddr⟩ := evr_counters F hF hacc
    have hto : (BitVec.ofNat 24 (Page.evr.base + F.off)).toNat = Page.evr.base + F.off := by
      rw [BitVec.toNat_ofNat]
      exact Nat.mod_eq_of_lt (show 0x5000 + F.off < _ by omega)
    have hrd := readPort_counter hF hacc p h
    have hregs := regs_portGive p (s.dev.word (Page.evr.base + F.off))
      (s.dev.putWord (Page.evr.base + F.off) (setBits (s.dev.word (Page.evr.base + F.off)) F.hi F.lo 0))
    rw [haddr]
    refine ⟨_, runs_rcRead hto hrd, portGive_given .., ?_, ?_, ?_⟩
    · rw [Dev.f_def, Dev.fi, haddr, Dev.word_congr hregs, Dev.word_putWord_same,
        bitsOf_setBits_same _ _ _ _ (by omega) (by omega), Nat.zero_mod]
    · exact onlyWords_regs (onlyWords_putWord _ (List.mem_singleton.mpr rfl) _) hregs
    · exact (portGive_frame ..).trans (by rw [hregs]; rfl)
end

section
/-! SUPPORT. Proofs about pages (R62, R65): what a rejected write leaves, how EN rises and falls where a block has no
start or stop of its own, and what a soft reset restores. -/
namespace Sys2Proof.Machine

/-! ## A rejected write -/

section
variable (d : Dev) (p : Page) (port : Port) (addr : Nat) (v : Word) (reason : Nat)

theorem onlyWords_reject {as : List Nat} (hC : p.base + 0xC ∈ as) (h10 : p.base + 0x10 ∈ as) :
    onlyWords d (d.reject p port addr v reason) as :=
  onlyWords_regs (onlyWords_trans (onlyWords_setHf _ hC _) (onlyWords_raiseBits _ h10 _)) rfl

theorem takeRaised_reject : d.reject p port addr v reason = takeRaised (d.reject p port addr v reason) d :=
  takeRaised_trans (takeRaised_trans (takeRaised_of_regs (takeRegs_setHf d p HD_PAGE_STAT_WR_REJECT 1))
    (takeRaised_raiseBits _ p 4#32)) rfl

/-- A header field of another word than IRQ_RAW, as the rejection leaves it. -/
theorem hf_reject {q : Page} {F : Fld} (h : q.base + F.off ≠ p.base + 0x10) :
    (d.reject p port addr v reason).hf q F = (d.setHf p HD_PAGE_STAT_WR_REJECT 1).hf q F :=
  Dev.hf_raiseBits _ _ _ h

theorem hf_reject_wrReject : (d.reject p port addr v reason).hf p HD_PAGE_STAT_WR_REJECT = 1 := by
  rw [hf_reject _ _ _ _ _ _ (pageAddr_ne (by decide) (by decide) (.inr (by decide))),
    Dev.hf_setHf_same _ _ _ _ (by decide) (by decide)]
  rfl

theorem hf_reject_busy : (d.reject p port addr v reason).hf p HD_PAGE_STAT_BUSY = d.hf p HD_PAGE_STAT_BUSY := by
  rw [hf_reject _ _ _ _ _ _ (pageAddr_ne (by decide) (by decide) (.inr (by decide))),
    Dev.hf_setHf_ne _ _ (by decide) (by decide) (by decide) (.inr (by decide))]

end

/-! ## EN rises -/

/-- The device as EN and ACTIVE of a page are set. -/
def Dev.started (d : Dev) (p : Page) : Dev :=
  ((d.setHf p HD_PAGE_CTRL_EN 1).setHf p HD_PAGE_STAT_ACTIVE 1).onCom fun s =>
    { s with stopping := s.stopping.filter fun q => q != p }

theorem hf_started_en (d : Dev) (p : Page) : (d.started p).hf p HD_PAGE_CTRL_EN = 1 := by
  rw [Dev.started, Dev.hf_congr (Dev.onCom_regs ..),
    Dev.hf_setHf_ne _ _ (by decide) (by decide) (by decide) (.inl (pageAddr_ne (by decide) (by decide) (.inr (by decide)))),
    Dev.hf_setHf_same _ _ _ _ (by decide) (by decide)]
  rfl

theorem hf_started_active (d : Dev) (p : Page) : (d.started p).hf p HD_PAGE_STAT_ACTIVE = 1 := by
  rw [Dev.started, Dev.hf_congr (Dev.onCom_regs ..), Dev.hf_setHf_same _ _ _ _ (by decide) (by decide)]
  rfl

theorem onlyWords_started (d : Dev) (p : Page) : onlyWords d (d.started p) [p.base + 8, p.base + 0xC] :=
  onlyWords_regs (onlyWords_trans (onlyWords_setHf _ (by simp [HD_PAGE_CTRL_EN]) _)
    (onlyWords_setHf _ (by simp [HD_PAGE_STAT_ACTIVE]) _)) (Dev.onCom_regs ..)

/-- The blocks with no start-up of their own; the encoder forgets its streams' set-ups. -/
theorem pageStarted_plain {p : Page} (h : p.blk ∈ [.win, .trg, .eng, .ing, .nrd, .hdr, .geo, .sta, .vew, .enc, .dlv, .fst])
    (d : Dev) : pageStarted p d = { d with encs := (pageStarted p d).encs } ∧ (p ≠ .enc → pageStarted p d = d) := by
  cases p
  case enc => exact ⟨rfl, fun hne => absurd rfl hne⟩
  case win | trg | eng | ing | nrd | hdr | geo | sta | vew | dlv | fst => exact ⟨rfl, fun _ => rfl⟩
  all_goals exact absurd h (by simp [Page.blk])

/-- `d` with what a plain start changes of `x`. -/
abbrev takeStarted (x d : Dev) : Dev := { d with regs := x.regs, com := x.com, encs := x.encs }

theorem takeStarted_pageStarted {p : Page}
    (h : p.blk ∈ [.win, .trg, .eng, .ing, .nrd, .hdr, .geo, .sta, .vew, .enc, .dlv, .fst]) (d : Dev) :
    pageStarted p (d.started p) = takeStarted (pageStarted p (d.started p)) d := by
  have hd : d.started p = takeStarted (d.started p) d :=
    frame_mono takeRegsCom takeStarted (fun _ _ => rfl)
      (takeRegsCom_trans (takeRegsCom_of_regs (takeRegs_setHf ..))
        (takeRegsCom_trans (takeRegsCom_of_regs (takeRegs_setHf ..)) (takeRegsCom_onCom ..)))
  have hs : pageStarted p (d.started p) = takeStarted (pageStarted p (d.started p)) (d.started p) :=
    frame_mono (fun x d => { d with encs := x.encs }) takeStarted (fun _ _ => rfl) (pageStarted_plain h _).1
  exact frame_trans takeStarted (fun _ _ _ => rfl) hd hs

theorem processing_windows {p : Page} (h : p.blk ∈ [.win, .trg]) (d : Dev) : d.processing p = false := by
  cases p
  case win | trg => rfl
  all_goals exact absurd h (by simp [Page.blk])

theorem portsChanged_of_ne {p : Page} (h : p.blk ≠ .sp) (d : Dev) : portsChanged p d = d := if_neg h

theorem pageEnable_plain {p : Page} (h : p.blk ∈ [.win, .trg, .eng, .ing, .nrd, .hdr, .geo, .sta, .vew, .enc, .dlv, .fst])
    {d : Dev} (hen : d.enabled p = false) (port : Port) (v : Word) :
    pageEnable port p v d = pageStarted p (d.started p) := by
  have hhlp : p ≠ .hlp := by rintro rfl; simp [Page.blk] at h
  have hhmp : p ≠ .hmp := by rintro rfl; simp [Page.blk] at h
  have hsp : p.blk ≠ .sp := by intro hp; simp [hp] at h
  unfold pageEnable
  rw [if_neg (by simp [hen, hhlp]), if_neg (by simp [hhmp])]
  exact portsChanged_of_ne hsp _

/-! ## EN falls -/

theorem blockStopped_of_ne {p : Page} (h : p ≠ .nrd) (d : Dev) : blockStopped p d =
    (d.setHf p HD_PAGE_STAT_ACTIVE 0).onCom fun s => { s with stopping := s.stopping.filter fun q => q != p } := if_neg h

/-! ### Work on frames does not read the registers -/

section
variable (d : Dev) (r : SMap Word) (u n : Nat)

/-- `d` with other registers. -/
abbrev Dev.withRegs (d : Dev) (r : SMap Word) : Dev := { d with regs := r }

theorem asOf_withRegs : (d.withRegs r).asOf u = (d.asOf u).withRegs r := by
  have hframe : (d.withRegs r).frame u = d.frame u := rfl
  simp only [Dev.asOf, hframe]
  split <;> rfl

theorem fuses_withRegs : (d.withRegs r).fuses u = d.fuses u := by
  unfold Dev.fuses
  rw [asOf_withRegs]
  rfl

theorem outPasses_withRegs : (d.withRegs r).outPasses u = d.outPasses u := by
  unfold Dev.outPasses
  rw [fuses_withRegs]
  rfl

theorem imagePasses_withRegs : (d.withRegs r).imagePasses u n = d.imagePasses u n := by
  unfold Dev.imagePasses
  rw [fuses_withRegs]
  rfl

theorem hdrDone_withRegs : (d.withRegs r).hdrDone u n = d.hdrDone u n := by
  unfold Dev.hdrDone Dev.imageIn
  rw [imagePasses_withRegs]
  rfl

theorem geo_withRegs : (d.withRegs r).geo u n = d.geo u n := by
  unfold Dev.geo
  rw [asOf_withRegs, fuses_withRegs, outPasses_withRegs]
  rfl

theorem stageWork_withRegs : (d.withRegs r).stageWork u = d.stageWork u := by
  unfold Dev.stageWork
  rw [outPasses_withRegs, asOf_withRegs]
  simp only [hdrDone_withRegs, geo_withRegs]
  rfl

theorem pageWork_withRegs (p : Page) : (d.withRegs r).pageWork p = d.pageWork p := by
  unfold Dev.pageWork
  simp only [outPasses_withRegs, hdrDone_withRegs, stageWork_withRegs]
  rfl

theorem passStart_withRegs (h : (d.withRegs r).rowExt = d.rowExt) : (d.withRegs r).passStart n = d.passStart n := by
  unfold Dev.passStart Dev.curPer
  rw [h]
  rfl

theorem readingNow_withRegs (hrun : (d.withRegs r).runState = d.runState) (hext : (d.withRegs r).rowExt = d.rowExt) :
    (d.withRegs r).readingNow = d.readingNow := by
  have hend : (d.withRegs r).frameEnd = d.frameEnd := passStart_withRegs d r d.curM hext
  unfold Dev.readingNow
  rw [hrun, hend]
  rfl

end

/-- Blocks that frames pass through process as before where EN falls, and those of windows and triggers process none. -/
theorem processing_setHf_en {p : Page} (h : p.blk ∈ [.win, .trg, .ing, .hdr, .geo, .sta, .vew, .enc, .dlv, .fst]) (d : Dev)
    (v : Nat) : (d.setHf p HD_PAGE_CTRL_EN v).processing p = d.processing p := by
  have hary : p ≠ .ary := by rintro rfl; simp [Page.blk] at h
  have hthm : p ≠ .thm := by rintro rfl; simp [Page.blk] at h
  have hrun : (d.setHf p HD_PAGE_CTRL_EN v).runState = d.runState :=
    Dev.fi_setHf _ _ (pageAddr_ne (p := .ary) (a := 0x1A4) (b := 8) (by decide) (by decide) (.inl hary.symm))
  have hext : (d.setHf p HD_PAGE_CTRL_EN v).rowExt = d.rowExt :=
    Dev.fi_setHf _ _ (pageAddr_ne (p := .thm) (a := THM_ROW_EXT_E.off) (b := 8) (by decide) (by decide) (.inl hthm.symm))
  have hread : (d.setHf p HD_PAGE_CTRL_EN v).readingNow = d.readingNow := readingNow_withRegs d _ hrun hext
  have hwork : (d.setHf p HD_PAGE_CTRL_EN v).pageWork p = d.pageWork p := pageWork_withRegs d _ p
  unfold Dev.processing
  rw [hread, hwork]
  cases p <;> rfl

theorem pageDisable_alwaysOn {p : Page} (h : p.alwaysOn = true) (d : Dev) : pageDisable p d = d := if_pos (.inl h)

theorem pageDisable_of_ne {p : Page} (h : p.blk ≠ .ln) (d : Dev) : pageDisable p d =
    if p.alwaysOn ∨ d.enabled p = false then d
    else portsChanged p (pageStops p (commitAborted p (d.setHf p HD_PAGE_CTRL_EN 0))) := by
  cases p
  case ln => exact absurd rfl h
  all_goals rfl

theorem pageStops_idle {p : Page} (h : p.blk ∈ [.win, .trg, .ing, .hdr, .geo, .sta, .vew, .enc, .dlv, .fst]) {d : Dev}
    (hproc : d.processing p = false) : pageStops p d = blockStopped p d := by
  cases p
  case win | trg => rfl
  case ing | hdr | geo | sta | vew | enc | dlv | fst => exact if_neg (by simp [hproc])
  all_goals exact absurd h (by simp [Page.blk])

/-- A page with no commit to abort stops at once where its block processes no frame. -/
theorem pageDisable_idle {p : Page} (h : p.blk ∈ [.win, .trg, .ing, .hdr, .geo, .sta, .vew, .enc, .dlv, .fst]) {d : Dev}
    (hen : d.enabled p = true) (hacc : d.com.accepted = []) (hg : d.com.gstate = .idle) (hproc : d.processing p = false) :
    pageDisable p d = (((d.setHf p HD_PAGE_CTRL_EN 0).setHf p HD_PAGE_STAT_ACTIVE 0).onCom fun s =>
      { s with stopping := s.stopping.filter fun q => q != p }) := by
  have hon : p.alwaysOn = false := by
    cases p
    case win | trg | ing | hdr | geo | sta | vew | enc | dlv | fst => rfl
    all_goals exact absurd h (by simp [Page.blk])
  have hln : p.blk ≠ .ln := by intro hp; simp [hp] at h
  have hsp : p.blk ≠ .sp := by intro hp; simp [hp] at h
  have hnrd : p ≠ .nrd := by rintro rfl; simp [Page.blk] at h
  have habort : commitAborted p (d.setHf p HD_PAGE_CTRL_EN 0) = d.setHf p HD_PAGE_CTRL_EN 0 :=
    commitAborted_none (by simp [hacc]) (by simp [hg]) (by simp [hg])
  rw [pageDisable_of_ne hln, if_neg (by simp [hon, hen]), habort,
    pageStops_idle h ((processing_setHf_en h d 0).trans hproc), portsChanged_of_ne hsp, blockStopped_of_ne hnrd]

end Sys2Proof.Machine

open Sys2Proof Sys2Proof.Machine

/-- Settles O5: the pages named change EN and ACTIVE alone, and the encoder forgets its streams' set-ups. -/
theorem pagesStartAndStop : Obligations.PagesStartAndStop := by
  refine ⟨fun p pg s h hen => ?already, fun p pg s h hen hblk => ?rises, fun p pg s h hon => ?always,
    fun p pg s h hen hacc hg hblk => ?falls⟩
  case already =>
    have hr := runs_gatePage (c := .pageEnable p pg) (f := pageEnable p pg 1#32) rfl h
    rwa [pageEnable, if_pos (.inl hen)] at hr
  case rises =>
    have hr := runs_gatePage (c := .pageEnable p pg) (f := pageEnable p pg 1#32) rfl h
    rw [pageEnable_plain hblk hen] at hr
    obtain ⟨hencs, hsame⟩ := pageStarted_plain hblk (s.dev.started pg)
    have hregs : (pageStarted pg (s.dev.started pg)).regs = (s.dev.started pg).regs := (congrArg Dev.regs hencs).trans rfl
    refine ⟨_, hr, ?_, ?_, onlyWords_regs (onlyWords_started _ _) hregs, fun hne => ?_, ?_⟩
    · rw [Dev.hf_congr hregs, hf_started_en]
    · rw [Dev.hf_congr hregs, hf_started_active]
    · exact (congrArg Dev.encs (hsame hne)).trans rfl
    · exact takeStarted_pageStarted hblk s.dev
  case always =>
    have hr := runs_gatePage (c := .pageDisable p pg) (f := pageDisable pg) rfl h
    rwa [pageDisable_alwaysOn hon] at hr
  case falls =>
    have hproc : s.dev.processing pg = false := by
      obtain hb | ⟨-, hproc⟩ := hblk
      · exact processing_windows hb _
      · exact hproc
    have hr := runs_gatePage (c := .pageDisable p pg) (f := pageDisable pg) rfl h
    rw [pageDisable_idle (hblk.elim (by grind) (by grind)) hen hacc hg hproc] at hr
    refine ⟨_, hr, ?_, ?_, onlyWords_regs (onlyWords_disabled _ (by simp) (by simp)) (Dev.onCom_regs ..), ?_⟩
    · exact (Dev.hf_congr (Dev.onCom_regs ..) _ _).trans (hf_disabled_en ..)
    · exact (Dev.hf_congr (Dev.onCom_regs ..) _ _).trans (hf_disabled_active ..)
    · exact takeRegsCom_trans (takeRegsCom_of_regs (takeRegs_setHf ..)) (takeRegsCom_trans (takeRegsCom_of_regs (takeRegs_setHf ..)) (takeRegsCom_onCom ..))
end

section
/-! SUPPORT. Proofs about the soft reset of a page (R62): what it restores, whatever its block's state was. -/
namespace Sys2Proof.Machine

theorem onlyWords_foldl {α : Type} {f : Dev → α → Dev} {as : List Nat} (h : ∀ d x, onlyWords d (f d x) as) (l : List α)
    (d : Dev) : onlyWords d (l.foldl f d) as := by
  induction l generalizing d with
  | nil => exact onlyWords_refl d as
  | cons x l ih => exact onlyWords_trans (h d x) (ih _)

/-- A change made only where a condition holds. -/
theorem onlyWords_ite {c : Prop} [Decidable c] {d x y : Dev} {as : List Nat} (h : onlyWords d x as)
    (hy : onlyWords x y as) : onlyWords d (if c then y else x) as := by
  split
  · exact onlyWords_trans h hy
  · exact h

theorem onlyWords_either {c : Prop} [Decidable c] {d x y : Dev} {as : List Nat} (hx : onlyWords d x as)
    (hy : onlyWords d y as) : onlyWords d (if c then x else y) as := by
  split
  · exact hx
  · exact hy

theorem onlyWords_emit {d e : Dev} {as : List Nat} (h : onlyWords d e as) (c : Nat) (p : Page) (b : List Byte) :
    onlyWords d (e.emit c p b) as := onlyWords_regs h (Dev.emitSrc_regs ..)

theorem onlyWords_histDrop (d : Dev) : onlyWords d (histDrop d) [0xA1F0C, 0xA1010] := by
  unfold histDrop
  exact onlyWords_emit (onlyWords_trans (onlyWords_setFi d (F := HMP_HIST_DROP) (i := 0) (k := 0) (by decide) _)
    (onlyWords_raiseBits _ (p := .hmp) (by decide) _)) _ _ _

/-- Offering a chunk may count a drop in HMP. -/
theorem onlyWords_offer (c : ChunkReq) (d : Dev) : onlyWords d (offer c d) [0xA1F0C, 0xA1010] :=
  onlyWords_either (onlyWords_refl d _) (onlyWords_either (onlyWords_histDrop d) (onlyWords_of_regs rfl _))

/-- The internal state of a block is no register of its page. -/
theorem word_blockReset (p : Page) (d : Dev) {a : Nat} (hlo : p.base ≤ a) (hhi : a < p.base + p.size) :
    (blockReset p d).word a = d.word a := by
  cases p
  case dlv =>
    have hfold := onlyWords_foldl (as := [0xA1F0C, 0xA1010]) (f := fun d (e : Nat × StreamSt) =>
      match e.2.chunk with | some c => offer c d | none => d) (fun d e => by
        split
        · exact onlyWords_offer _ d
        · exact onlyWords_refl d _) d.dlv.streams d
    have ha : a < 0x99000 := hhi
    exact hfold a (by simp only [List.mem_cons, List.not_mem_nil, or_false, not_or]; omega)
  all_goals rfl

/-- The declared sums stand in ING, ENC and FST. -/
theorem onlyWords_declared (d : Dev) :
    onlyWords d (declared d) [0x90110, 0x90114, 0x90010, 0x97104, 0xA0100, 0xA0104] := by
  unfold declared
  refine onlyWords_ite (onlyWords_ite ?_ (onlyWords_raiseBits _ (p := .ing) (by decide) _)) (onlyWords_of_regs rfl _)
  have hset : ∀ (e : Dev) (F : Fld) (v : Nat), F.addr 0 0 ∈ [0x90110, 0x90114, 0x90010, 0x97104, 0xA0100, 0xA0104] →
      onlyWords d e [0x90110, 0x90114, 0x90010, 0x97104, 0xA0100, 0xA0104] →
      onlyWords d (e.setF F v) [0x90110, 0x90114, 0x90010, 0x97104, 0xA0100, 0xA0104] :=
    fun e F v hF he => onlyWords_trans he (onlyWords_setFi e hF v)
  exact hset _ FST_BW_DECL _ (by decide) (hset _ FST_FREE_MIB _ (by decide) (hset _ ENC_LOAD_DECL _ (by decide)
    (hset _ ING_SAT_DECL _ (by decide) (hset _ ING_SAT_GRANT _ (by decide) (onlyWords_refl d _)))))

theorem com_ite {c : Prop} [Decidable c] {d x y : Dev} (hx : x.com = d.com) (hy : y.com = x.com) :
    (if c then y else x).com = d.com := by
  split
  · exact hy.trans hx
  · exact hx

theorem com_declared (d : Dev) : (declared d).com = d.com := by
  unfold declared
  have hset : ∀ (e : Dev) (F : Fld) (v : Nat), e.com = d.com → (e.setF F v).com = d.com :=
    fun e F v he => (Dev.setFi_com e F 0 0 v).trans he
  exact com_ite (com_ite (hset _ _ _ (hset _ _ _ (hset _ _ _ (hset _ _ _ (hset d _ _ rfl))))) (Dev.raiseBits_com ..))
    (Dev.emitSrc_com ..)

/-- What a change of a satellite port's page adds lies in other pages. -/
theorem word_portsChanged (p : Page) (d : Dev) {a : Nat} (hlo : p.base ≤ a) (_hhi : a < p.base + p.size) :
    (portsChanged p d).word a = d.word a := by
  unfold portsChanged
  split
  case isFalse => rfl
  case isTrue h =>
    have ha : 0xC0000 ≤ a := by
      have hbase : p.base = 0xC0000 + 0x1000 * p.inst := by rw [Page.base, h]; rfl
      omega
    exact onlyWords_declared d a (by simp only [List.mem_cons, List.not_mem_nil, or_false, not_or]; omega)

theorem com_portsChanged (p : Page) (d : Dev) : (portsChanged p d).com = d.com := by
  unfold portsChanged
  split
  · exact com_declared d
  · rfl

theorem word_clearPage (d : Dev) (p : Page) {a : Nat} (hlo : p.base ≤ a) (hhi : a < p.base + p.size) :
    (d.clearPage p).word a = resetWord a := by
  unfold Dev.word Dev.clearPage
  rw [SMap.get_eraseRange, if_pos ⟨hlo, hhi⟩]

theorem inReset_softRstDone {p : Page} {d : Dev} (h : d.inReset p = true) : (softRstDone p d).inReset p = false := by
  unfold softRstDone
  rw [if_neg (by simp [h]), Dev.inReset]
  dsimp only
  rw [com_portsChanged]
  simp [forgetCommit]

theorem word_softRstDone {p : Page} {d : Dev} (h : d.inReset p = true) {a : Nat} (hlo : p.base ≤ a)
    (hhi : a < p.base + p.size) (hseq : a ≠ 0x101A8) (hseq' : a ≠ 0x101AC) : (softRstDone p d).word a = resetWord a := by
  have hblock := (word_blockReset p (d.clearPage p) hlo hhi).trans (word_clearPage d p hlo hhi)
  have hwindow : (match pageWindow p with
      | some (lo, hi) => { blockReset p (d.clearPage p) with regs := SMap.eraseRange (blockReset p (d.clearPage p)).regs lo hi }
      | none => blockReset p (d.clearPage p)).word a = resetWord a := by
    split
    · unfold Dev.word
      rw [SMap.get_eraseRange]
      split
      · rfl
      · exact hblock
    · exact hblock
  unfold softRstDone
  rw [if_neg (by simp [h])]
  dsimp only
  rw [word_portsChanged _ _ hlo hhi, Dev.word_congr (Dev.onCom_regs ..)]
  split
  · exact (onlyWords_trans (onlyWords_setFi _ (F := ARY_FRAME_SEQ_LO) (i := 0) (k := 0) (by decide) _)
      (onlyWords_setFi _ (F := ARY_FRAME_SEQ_HI) (i := 0) (k := 0) (as := [0x101A8, 0x101AC]) (by decide) _) a
      (by simp [hseq, hseq'])).trans hwindow
  · exact hwindow

end Sys2Proof.Machine

open Sys2Proof Sys2Proof.Machine

/-- Settles O6: a soft reset unlists every word of the page, and no block's state is one of them. -/
theorem softResetRestoresPage : Obligations.SoftResetRestoresPage := by
  refine ⟨fun p pg s h hen => ?enabled, fun p pg s h hen => ?begins, fun pg s h => ?ends⟩
  case enabled =>
    have hr := runs_gatePage (c := .pageSoftRst p pg) (f := pageSoftRst p pg 2#32) rfl h
    rw [pageSoftRst, if_pos hen] at hr
    exact ⟨_, hr, hf_reject_wrReject .., hf_reject_busy .., onlyWords_reject _ _ _ _ _ _ (by simp) (by simp),
      takeRaised_reject ..⟩
  case begins =>
    have hr := runs_gatePage (c := .pageSoftRst p pg) (f := pageSoftRst p pg 2#32) rfl h
    rw [pageSoftRst, if_neg (by simp [hen])] at hr
    refine ⟨_, hr, ?_, ?_, onlyWords_regs (onlyWords_setHf _ (by simp [HD_PAGE_STAT_BUSY]) _) (Dev.onCom_regs ..), ?_⟩
    · rw [Dev.hf_congr (Dev.onCom_regs ..), Dev.hf_setHf_same _ _ _ _ (by decide) (by decide)]
      rfl
    · simp [Dev.inReset]
    · exact takeRegsCom_trans (takeRegsCom_of_regs (takeRegs_setHf ..)) (takeRegsCom_onCom ..)
  case ends =>
    exact ⟨_, runs_onDev (f := softRstDone pg) rfl rfl, inReset_softRstDone h,
      fun a hlo hhi hseq hseq' => word_softRstDone h hlo hhi hseq hseq'⟩
end

section
/-! SUPPORT. Proofs about the EXPERT bit and firmware's translation of basic fields (R72, R73, R212, R310), and changes of
the registers and the commit unit alone. -/
namespace Sys2Proof.Machine

/-! ## Changes of words and of the commit unit -/

/-- From `d` to `e` nothing changes but words of `as` and the commit unit. -/
def onlyCommit (d e : Dev) (as : List Nat) : Prop := onlyWords d e as ∧ e = takeRegsCom e d

namespace onlyCommit
variable {d e : Dev} {as : List Nat}

theorem refl (d : Dev) (as : List Nat) : onlyCommit d d as := ⟨onlyWords_refl d as, rfl⟩

theorem trans {g : Dev} (h : onlyCommit d e as) (h' : onlyCommit e g as) : onlyCommit d g as :=
  ⟨onlyWords_trans h.1 h'.1, takeRegsCom_trans h.2 h'.2⟩

theorem putWord (h : onlyCommit d e as) {a : Nat} (ha : a ∈ as) (w : Word) : onlyCommit d (e.putWord a w) as :=
  h.trans ⟨onlyWords_putWord e ha w, takeRegsCom_of_regs (takeRegs_putWord e a w)⟩

theorem setFi (h : onlyCommit d e as) {F : Fld} {i k : Nat} (ha : F.addr i k ∈ as) (v : Nat) :
    onlyCommit d (e.setFi F i k v) as := h.putWord ha _

theorem setHf (h : onlyCommit d e as) {p : Page} {F : Fld} (ha : p.base + F.off ∈ as) (v : Nat) :
    onlyCommit d (e.setHf p F v) as := h.putWord ha _

theorem onCom (h : onlyCommit d e as) (f : CommitSt → CommitSt) : onlyCommit d (e.onCom f) as :=
  h.trans ⟨onlyWords_of_regs (Dev.onCom_regs ..) as, takeRegsCom_onCom e f⟩

theorem mono {bs : List Nat} (h : onlyCommit d e as) (hsub : ∀ a ∈ as, a ∈ bs) : onlyCommit d e bs :=
  ⟨onlyWords_mono h.1 hsub, h.2⟩

theorem boot (h : onlyCommit d e as) : e.boot = d.boot := (congrArg Dev.boot h.2).trans rfl

end onlyCommit

/-! ## Translation pends, and pends no longer -/

theorem hf_onCom (d : Dev) (f : CommitSt → CommitSt) (p : Page) (F : Fld) : (d.onCom f).hf p F = d.hf p F :=
  Dev.hf_congr (Dev.onCom_regs ..) p F

/-- What the commit unit forgets of a page as its translation ends. -/
def forgetXlate (p : Page) (s : CommitSt) : CommitSt :=
  { s with
    modeNew := s.modeNew && p != .ary
    readNew := s.readNew && p != .ary
    basic := s.basic.filter fun a => !(decide (p.base ≤ a) && decide (a < p.base + p.size)) }

/-- With no key held behind it, a translation ends alone. -/
theorem xlateEnds_free {p : Page} {d : Dev} (h : p ∉ d.com.behindXlate) :
    xlateEnds p d = (d.setHf p HD_PAGE_STAT_XLATE_PEND 0).onCom (forgetXlate p) :=
  if_neg (by simpa using h)

theorem onlyCommit_xlateBegin (p : Page) (l : List Nat) (d : Dev) : onlyCommit d (xlateBegin p l d) [p.base + 0xC] :=
  ((onlyCommit.refl d _).setHf (by simp [HD_PAGE_STAT_XLATE_PEND]) 1).onCom _

theorem xlatePend_xlateBegin (p : Page) (l : List Nat) (d : Dev) :
    (xlateBegin p l d).hf p HD_PAGE_STAT_XLATE_PEND = 1 := by
  rw [xlateBegin, hf_onCom, Dev.hf_setHf_same _ _ _ _ (by decide) (by decide)]
  rfl

theorem hf_xlateBegin (p : Page) (l : List Nat) (d : Dev) {q : Page} {F : Fld} (h : q.base + F.off ≠ p.base + 0xC) :
    (xlateBegin p l d).hf q F = d.hf q F :=
  hf_of_onlyWords (onlyCommit_xlateBegin p l d).1 (by simpa using h)

theorem mem_basic_xlateBegin (p : Page) {l : List Nat} (d : Dev) {a : Nat} (h : a ∈ l) :
    a ∈ (xlateBegin p l d).com.basic := by
  have hcom : (xlateBegin p l d).com.basic = d.com.basic ++ l.filter fun a => !d.com.basic.contains a := rfl
  rw [hcom, List.mem_append, List.mem_filter]
  by_cases hb : a ∈ d.com.basic
  · exact .inl hb
  · exact .inr ⟨h, by simpa using hb⟩

/-- A page as EXPERT is cleared: the mode is translated anew. -/
def expertOff (p : Page) (d : Dev) : Dev :=
  if p = .ary then (d.setHf p HD_PAGE_CTRL_EXPERT 0).onCom fun s => { s with modeNew := true }
  else d.setHf p HD_PAGE_CTRL_EXPERT 0

theorem onlyCommit_expertOff (p : Page) (d : Dev) : onlyCommit d (expertOff p d) [p.base + 8] := by
  have hset : onlyCommit d (d.setHf p HD_PAGE_CTRL_EXPERT 0) [p.base + 8] :=
    (onlyCommit.refl d _).setHf (by simp [HD_PAGE_CTRL_EXPERT]) 0
  unfold expertOff
  split
  · exact hset.onCom _
  · exact hset

theorem hf_expertOff (p : Page) (d : Dev) : (expertOff p d).hf p HD_PAGE_CTRL_EXPERT = 0 := by
  have hset := Dev.hf_setHf_same d p HD_PAGE_CTRL_EXPERT 0 (by decide) (by decide)
  unfold expertOff
  split
  · rw [hf_onCom, hset, Nat.zero_mod]
  · rw [hset, Nat.zero_mod]

theorem expertClear_running {p : Page} {d : Dev} (hex : d.hf p HD_PAGE_CTRL_EXPERT = 1) (hrun : d.boot.run = .running)
    (hne : basicWords p ≠ []) : expertClear p d = xlateBegin p (basicWords p) (expertOff p d) := by
  have hboot := (onlyCommit_expertOff p d).boot
  unfold expertClear
  rw [if_neg (by simp [hex])]
  exact if_pos ⟨(congrArg BootSt.run hboot).trans hrun, hne⟩

/-! ## A write to a basic register -/

/-- A register of one field that takes any value, while firmware runs and translation is in force. -/
theorem basicWrite_any {p : Page} {off : Nat} {F : Fld} (hfs : p.fieldsAt off = [F]) (hacc : F.acc = .rw)
    (hlegal : F.legal = .any) (port : Port) (v : Word) {d : Dev} (hrun : d.boot.run = .running)
    (hbasic : d.basicOn p = true) (hp : p ≠ .exp) (hoff : off ≠ 8) (hmode : p.base + off ≠ ARY_BASIC_MODE_MODE.addr 0 0) :
    basicWrite port p off v d = xlateBegin p [p.base + off]
      (d.putWord (p.base + off) (setBits (d.word (p.base + off)) F.hi F.lo (bitsOf v F.hi F.lo))) := by
  have hfold : (p.fieldsAt off).foldl (basicField (d.enabled p) v) (d.word (p.base + off), 0) =
      (setBits (d.word (p.base + off)) F.hi F.lo (bitsOf v F.hi F.lo), 0) := by
    rw [hfs, List.foldl_cons, List.foldl_nil]
    simp [basicField, hacc, hlegal]
  have hbasic' : ∀ w, (d.putWord (p.base + off) w).basicOn p = true := by
    intro w
    have hne : p.base + HD_PAGE_CTRL_EXPERT.off ≠ p.base + off := by simp [HD_PAGE_CTRL_EXPERT, hoff.symm]
    rw [← hbasic, Dev.basicOn, Dev.hf, Dev.word_putWord, if_neg hne]
    rfl
  have hkeep : ∀ w, (d.putWord (p.base + off) w).f ARY_BASIC_MODE_MODE = d.f ARY_BASIC_MODE_MODE := by
    intro w
    rw [Dev.f_def, Dev.fi, Dev.word_putWord, if_neg hmode.symm]
    rfl
  unfold basicWrite
  dsimp only
  rw [if_neg (by simp [hrun, hfs]), hfold]
  dsimp only
  rw [if_neg hp, hkeep, hbasic', if_pos (by simp), if_pos ⟨.inl rfl, rfl⟩]
  simp [modeChosen]

/-- Before firmware runs, a basic write has no effect. -/
theorem basicWrite_stopped (port : Port) (p : Page) (off : Nat) (v : Word) {d : Dev} (h : d.boot.run ≠ .running) :
    basicWrite port p off v d = d := if_pos (.inl h)

/-- The field of a basic register reads as the word written has it. -/
theorem fi_basicStored {F : Fld} {a : Nat} (ha : F.addr 0 0 = a) (h : F.lo ≤ F.hi) (h32 : F.hi < 32) (v : Word) (d : Dev) :
    (d.putWord a (setBits (d.word a) F.hi F.lo (bitsOf v F.hi F.lo))).fi F 0 0 = fieldOf v F := by
  rw [Dev.fi, ha, Dev.word_putWord_same, bitsOf_setBits_same _ _ _ _ h h32]
  exact Nat.mod_eq_of_lt (Nat.mod_lt _ (Nat.two_pow_pos _))

theorem runs_basicFieldWrite_nrd (p : Port) (v : Word) {s : State} (h : s.admitsAt p .nrd) :
    runs (.basicFieldWrite p 0x91040#24 v) s (basicWrite p .nrd 0x40 v s.dev) := by
  obtain ⟨⟨hs, ho⟩, hr⟩ := h
  have hopen := gateWrite_open s.dev p (fun d =>
    match decodeAddr (0x91040#24 : BitVec 24).toNat with
    | .page pg off => if 0x40 ≤ off ∧ off < 0x100 ∧ ¬ d.inReset pg then basicWrite p pg off v d else d
    | _ => d) hs ho
  have hpage : decodeAddr (0x91040#24 : BitVec 24).toNat = .page .nrd 0x40 := by decide
  refine runs_onDev rfl (hopen.trans ?_)
  rw [hpage]
  exact if_pos ⟨by decide, by decide, by simp [hr]⟩

/-! ## Noise reduction's levels -/

theorem onlyRegs_writeOne (p : Page) (w : FWrite) (d : Dev) : onlyRegs d (writeOne p w d) [w.F.addr w.i w.k] := by
  unfold writeOne
  split
  · exact onlyRegs_refl d _
  · exact onlyRegs_setFi d ..

theorem onlyRegs_writeAll {p : Page} {l : List FWrite} {as : List Nat} (hl : ∀ w ∈ l, w.F.addr w.i w.k ∈ as) (d : Dev) :
    onlyRegs d (writeAll p l d) as := by
  induction l generalizing d with
  | nil => exact onlyRegs_refl d as
  | cons w l ih =>
    have hw := onlyRegs_mono (onlyRegs_writeOne p w d) (bs := as) (by simpa using hl w (List.mem_cons_self ..))
    exact onlyRegs_trans hw (ih (fun x hx => hl x (List.mem_cons_of_mem _ hx)) _)

theorem onlyRegs.commit {d e : Dev} {as : List Nat} (h : onlyRegs d e as) : onlyCommit d e as :=
  ⟨h.2, takeRegsCom_of_regs h.1⟩

theorem writeAll_cons {p : Page} {w : FWrite} (h : w.F.acc ≠ .lk) (l : List FWrite) (d : Dev) :
    writeAll p (w :: l) d = writeAll p l (d.setFi w.F w.i w.k w.v) :=
  congrArg (writeAll p l) (if_neg fun hc => h hc.1)

theorem nrdWrites_addr (d : Dev) : ∀ w ∈ nrdWrites d, w.F.addr w.i w.k ∈ [0x91100, 0x91104] := by
  unfold nrdWrites
  split <;> decide

theorem translate_nrd (d : Dev) : translate .nrd d = writeAll .nrd (nrdWrites d) d := rfl

/-- Level 0 turns noise reduction off. -/
theorem nrd_off {d : Dev} (h : d.f NRD_BASIC_NR_LEVEL = 0) :
    (translate .nrd d).f NRD_SPAT_STR = 0 ∧ (translate .nrd d).f NRD_TEMP_EN = 0 := by
  have ht : translate .nrd d = (d.setFi NRD_SPAT_STR 0 0 0).setFi NRD_TEMP_EN 0 0 0 := by
    have hw : nrdWrites d = [{ F := NRD_SPAT_STR, v := 0 }, { F := NRD_TEMP_EN, v := 0 }] := by
      rw [nrdWrites, h]
      rfl
    rw [translate_nrd, hw, writeAll_cons (by decide), writeAll_cons (by decide)]
    rfl
  rw [ht, Dev.f_def, Dev.f_def]
  simp (disch := decide) only [Dev.fi_setFi_ne, Dev.fi_setFi_same]
  decide

/-- Level 3 is the strongest. -/
theorem nrd_strongest {d : Dev} (h : d.f NRD_BASIC_NR_LEVEL = 3) :
    (translate .nrd d).f NRD_SPAT_STR = 16 ∧ (translate .nrd d).f NRD_TEMP_EN = 1 ∧
      (translate .nrd d).f NRD_TEMP_A_MIN = 0x20 := by
  have ht : translate .nrd d =
      ((d.setFi NRD_SPAT_STR 0 0 16).setFi NRD_TEMP_EN 0 0 1).setFi NRD_TEMP_A_MIN 0 0 0x20 := by
    have hw : nrdWrites d = [{ F := NRD_SPAT_STR, v := 16 }, { F := NRD_TEMP_EN, v := 1 },
        { F := NRD_TEMP_A_MIN, v := 0x20 }] := by
      rw [nrdWrites, h]
      rfl
    rw [translate_nrd, hw, writeAll_cons (by decide), writeAll_cons (by decide), writeAll_cons (by decide)]
    rfl
  rw [ht, Dev.f_def, Dev.f_def, Dev.f_def]
  simp (disch := decide) only [Dev.fi_setFi_ne, Dev.fi_setFi_same]
  decide

/-- A page's translation without the key that waits for it. -/
def translated (p : Page) (d : Dev) : Dev :=
  (translate p d).onCom fun s => { s with behindXlate := s.behindXlate.filter fun q => q != p }

/-- A translation that no key waits for, where firmware commits nothing itself. -/
theorem translationDone_free {p : Page} {d : Dev} (hcan : d.canTranslate p = true)
    (hkey : p ∉ (translate p d).com.behindXlate) (hauto : (xlateEnds p (translated p d)).on SYS_BASIC_CTRL_AUTOCOMMIT = false) :
    translationDone p d = xlateEnds p (translated p d) := by
  have hcommit : ∀ wrote wide, xlateCommit p wrote wide (xlateEnds p (translated p d)) = xlateEnds p (translated p d) :=
    fun _ _ => if_neg fun hc => absurd (hauto.symm.trans hc.1) (by decide)
  unfold translationDone
  rw [if_neg (by simp [hcan])]
  dsimp only
  rw [if_neg (by simpa using hkey)]
  exact hcommit ..

/-- The end of the translation of noise reduction. -/
theorem onlyCommit_translated_nrd (d : Dev) :
    onlyCommit d (xlateEnds .nrd (translated .nrd d)) [0x91100, 0x91104, 0x9100C] := by
  have ht := onlyRegs_mono (onlyRegs_writeAll (p := .nrd) (nrdWrites_addr d) d) (bs := [0x91100, 0x91104, 0x9100C]) (by simp)
  rw [xlateEnds_free (by simp [translated])]
  exact ((ht.commit.onCom _).setHf (by decide) 0).onCom _

end Sys2Proof.Machine

open Sys2Proof Sys2Proof.Machine

/-- Settles O7: each of these changes words of the page's header or its fields and the commit unit alone. -/
theorem translationIsAskedFor : Obligations.TranslationIsAskedFor := by
  refine ⟨fun p pg s h hkey => ?expertSet, fun p pg s h hex hrun hne => ?expertClear, fun p v s h hrun hb => ?basic,
    fun p v s h hrun => ?stopped, fun p s h hrun hb => ?apply, fun s hcan hauto hkey => ?levels,
    fun pg s hcan => ?idle⟩
  case expertSet =>
    have hr := runs_gatePage (c := .expertSet p pg) (f := expertSet pg) rfl h
    rw [expertSet, xlateEnds_free (by simpa using hkey)] at hr
    have hc := ((((onlyCommit.refl s.dev [pg.base + 8, pg.base + 0xC]).setHf (p := pg) (F := HD_PAGE_CTRL_EXPERT)
      (by simp [HD_PAGE_CTRL_EXPERT]) 1).setHf (p := pg) (F := HD_PAGE_STAT_XLATE_PEND)
      (by simp [HD_PAGE_STAT_XLATE_PEND]) 0).onCom (forgetXlate pg))
    refine ⟨_, hr, ?_, ?_, hc⟩
    · rw [hf_onCom, Dev.hf_setHf_ne _ _ (by decide) (by decide) (by decide)
        (.inl (pageAddr_ne (by decide) (by decide) (.inr (by decide)))), Dev.hf_setHf_same _ _ _ _ (by decide) (by decide)]
      rfl
    · rw [hf_onCom, Dev.hf_setHf_same _ _ _ _ (by decide) (by decide)]
      rfl
  case expertClear =>
    have hr := runs_gatePage (c := .expertClear p pg) (f := expertClear pg) rfl h
    rw [expertClear_running hex hrun hne] at hr
    refine ⟨_, hr, ?_, xlatePend_xlateBegin .., fun a ha => mem_basic_xlateBegin _ _ ha, ?_⟩
    · rw [hf_xlateBegin _ _ _ (pageAddr_ne (by decide) (by decide) (.inr (by decide))), hf_expertOff]
    · exact ((onlyCommit_expertOff pg s.dev).mono (by simp)).trans ((onlyCommit_xlateBegin pg _ _).mono (by simp))
  case basic =>
    have hr := runs_basicFieldWrite_nrd p v h
    rw [basicWrite_any (F := NRD_BASIC_NR_LEVEL) (by decide) rfl rfl p v hrun hb (by decide) (by decide) (by decide)] at hr
    refine ⟨_, hr, ?_, xlatePend_xlateBegin .., mem_basic_xlateBegin _ _ (List.mem_singleton.mpr rfl), ?_⟩
    · exact (fi_of_onlyWords (onlyCommit_xlateBegin ..).1 (by decide)).trans
        (fi_basicStored (F := NRD_BASIC_NR_LEVEL) rfl (by decide) (by decide) v s.dev)
    · exact ((onlyCommit.refl s.dev _).putWord (by decide) _).trans ((onlyCommit_xlateBegin .nrd _ _).mono (by decide))
  case stopped =>
    have hr := runs_basicFieldWrite_nrd p v h
    rwa [basicWrite_stopped _ _ _ _ hrun] at hr
  case apply =>
    have hr := runs_gatePage (c := .winApply p) (f := basicWrite p .win 0x40 1#32) rfl h
    rw [basicWrite_any (F := WIN_BASIC_WIN_APPLY) (by decide) rfl rfl p _ hrun hb (by decide) (by decide) (by decide)] at hr
    refine ⟨_, hr, ?_, xlatePend_xlateBegin .., ?_⟩
    · exact (fi_of_onlyWords (onlyCommit_xlateBegin ..).1 (by decide)).trans
        (fi_basicStored (F := WIN_BASIC_WIN_APPLY) rfl (by decide) (by decide) 1#32 s.dev)
    · exact ((onlyCommit.refl s.dev _).putWord (by decide) _).trans ((onlyCommit_xlateBegin .win _ _).mono (by decide))
  case levels =>
    have hc := onlyCommit_translated_nrd s.dev
    have ht := onlyRegs_writeAll (p := .nrd) (nrdWrites_addr s.dev) s.dev
    have hcom : (translate .nrd s.dev).com = s.dev.com := (congrArg Dev.com ht.1).trans rfl
    have hkept : ∀ {F : Fld} {k : Nat}, F.addr 0 k ≠ 0x9100C →
        (xlateEnds .nrd (translated .nrd s.dev)).fi F 0 k = (translate .nrd s.dev).fi F 0 k := fun hF => by
      rw [xlateEnds_free (by simp [translated]), Dev.fi_congr (Dev.onCom_regs ..), Dev.fi_setHf _ _ hF, translated,
        Dev.fi_congr (Dev.onCom_regs ..)]
    have hr := runs_onDev (c := .translationDone .nrd) rfl (translationDone_free hcan (by rwa [hcom]) (by
      rw [← hauto, Dev.on_def, Dev.on_def, fi_of_onlyWords hc.1 (by decide)]))
    refine ⟨_, hr, ?_, fun h0 => ?_, fun h3 => ?_, hc⟩
    · rw [xlateEnds_free (by simp [translated]), hf_onCom, Dev.hf_setHf_same _ _ _ _ (by decide) (by decide), Nat.zero_mod]
    · rw [Dev.f_def, Dev.f_def, hkept (by decide), hkept (by decide)]
      exact nrd_off h0
    · rw [Dev.f_def, Dev.f_def, Dev.f_def, hkept (by decide), hkept (by decide), hkept (by decide)]
      exact nrd_strongest h3
  case idle => exact runs_onDev (f := translationDone pg) rfl (if_pos hcan)
end

section
/-! SUPPORT. Proofs about commit keys (R66, R70, R71): what a key latches, what gives way to it, and what holds it. -/
namespace Sys2Proof.Machine

/-! ## Every page -/

theorem mem_allPages (p : Page) : p ∈ allPages := by
  cases p <;> simp [allPages]

theorem pageBase_sys_or (p : Page) : p = .sys ∨ 0x1000 ≤ p.base := by
  cases p
  case sys => exact .inl rfl
  case eng n => exact .inr (by simp only [Page.base, Page.blk, Page.inst, Blk.base]; omega)
  case pe n => exact .inr (by simp only [Page.base, Page.blk, Page.inst, Blk.base]; omega)
  case ln n => exact .inr (by simp only [Page.base, Page.blk, Page.inst, Blk.base]; omega)
  case sp n => exact .inr (by simp only [Page.base, Page.blk, Page.inst, Blk.base]; omega)
  all_goals exact .inr (by decide)

/-- The counter of commits that gave way is no header word. -/
theorem superseded_ne_header (p : Page) {b : Nat} (hb : b < 0x400) : SYS_SUPERSEDED.addr 0 0 ≠ p.base + b := by
  show 0xF04 ≠ p.base + b
  obtain rfl | h := pageBase_sys_or p
  · simp only [Page.base, Page.blk, Page.inst, Blk.base]
    omega
  · omega

/-! ## A header field of every page -/

/-- `F` of the pages of a list set to one value. -/
theorem hf_foldl_setHf {F : Fld} (hF : F.lo ≤ F.hi) (h32 : F.hi < 32) (hoff : F.off < 0x400) (v : Nat) {l : List Page} {q : Page}
    {d : Dev} (h : q ∈ l ∨ d.hf q F = v % 2 ^ (F.hi - F.lo + 1)) :
    (l.foldl (fun d p => d.setHf p F v) d).hf q F = v % 2 ^ (F.hi - F.lo + 1) := by
  induction l generalizing d with
  | nil => exact h.resolve_left List.not_mem_nil
  | cons p l ih =>
    refine ih (or_iff_not_imp_left.mpr fun hl => ?_)
    by_cases hp : q = p
    · rw [hp, Dev.hf_setHf_same _ _ _ _ hF h32]
    · rw [Dev.hf_setHf_ne _ _ hF h32 hF (.inl (pageAddr_ne hoff hoff (.inl hp)))]
      exact h.resolve_left fun hm => (List.mem_cons.mp hm).elim hp hl

theorem onlyWords_foldl_setHf (F : Fld) (v : Nat) {l : List Page} {as : List Nat} (h : ∀ p ∈ l, p.base + F.off ∈ as) (d : Dev) :
    onlyCommit d (l.foldl (fun d p => d.setHf p F v) d) as := by
  induction l generalizing d with
  | nil => exact .refl d as
  | cons p l ih =>
    exact ((onlyCommit.refl d as).setHf (h p (List.mem_cons_self ..)) v).trans
      (ih (fun q hq => h q (List.mem_cons_of_mem _ hq)) _)

/-! ## A key of a page -/

theorem onlyCommit_latchPage (p : Page) (d : Dev) : onlyCommit d (latchPage p d) [p.base + 0x20] :=
  ((onlyCommit.refl d _).onCom _).setHf (by simp [HD_COMMIT_STAT_STATE]) _

theorem comState_latchPage (p : Page) (d : Dev) : (latchPage p d).comState p = comCHECKING :=
  Dev.hf_setHf_same _ _ _ _ (by decide) (by decide)

theorem latched_latchPage (p : Page) (d : Dev) : ((latchPage p d).pageCom p).latched = pageWords p d.regs := by
  have hset : (latchPage p d).pageCom p = { latched := d.latchOf (some p) } := SMap.get_set_same ..
  rw [hset]
  rfl

/-- A commit in force gives way to a new key, and is counted. -/
theorem supersede_inForce {p : Page} {d : Dev} (h : d.comState p ∈ [comACCEPTED, comPENDING]) :
    supersede p d = (d.unaccept p).bump SYS_SUPERSEDED :=
  if_pos (by simpa [inForce] using h)

theorem supersede_notInForce {p : Page} {d : Dev} (h : d.comState p ∉ [comACCEPTED, comPENDING]) : supersede p d = d :=
  if_neg (by simpa [inForce] using h)

theorem onlyCommit_unaccept (p : Page) (d : Dev) : onlyCommit d (d.unaccept p) [p.base + 0xC] :=
  ((onlyCommit.refl d _).setHf (by simp [HD_PAGE_STAT_COMMIT_PEND]) _).onCom _

theorem onlyCommit_supersede (p : Page) (d : Dev) :
    onlyCommit d (supersede p d) [p.base + 0xC, SYS_SUPERSEDED.addr 0 0] := by
  unfold supersede
  split
  · exact ((onlyCommit_unaccept p d).mono (by simp)).setFi (by simp) _
  · exact .refl d _

theorem fi_superseded_supersede {p : Page} {d : Dev} (h : d.comState p ∈ [comACCEPTED, comPENDING]) :
    (supersede p d).f SYS_SUPERSEDED = (d.f SYS_SUPERSEDED + 1) % 2 ^ 32 := by
  have hkeep : (d.unaccept p).fi SYS_SUPERSEDED 0 0 = d.fi SYS_SUPERSEDED 0 0 :=
    fi_of_onlyWords (onlyCommit_unaccept p d).1 (by simpa using superseded_ne_header p (by decide))
  rw [supersede_inForce h, Dev.bump_def, hkeep]
  exact Dev.fi_setFi_same _ _ _ _ _ (by decide) (by decide)

theorem hf_commitPend_unaccept (p : Page) (d : Dev) : (d.unaccept p).hf p HD_PAGE_STAT_COMMIT_PEND = 0 := by
  rw [Dev.unaccept, hf_onCom, Dev.hf_setHf_same _ _ _ _ (by decide) (by decide), Nat.zero_mod]

theorem hf_commitPend_supersede {p : Page} {d : Dev} (h : d.comState p ∈ [comACCEPTED, comPENDING]) :
    (supersede p d).hf p HD_PAGE_STAT_COMMIT_PEND = 0 := by
  rw [supersede_inForce h, Dev.bump_def, Dev.hf_setFi _ _ (superseded_ne_header p (by decide)).symm, hf_commitPend_unaccept]

theorem not_mem_accepted_supersede {p : Page} {d : Dev} (h : d.comState p ∈ [comACCEPTED, comPENDING]) :
    p ∉ (supersede p d).com.accepted := by
  have hcom : (supersede p d).com.accepted = d.com.accepted.filter fun q => q != p := by
    rw [supersede_inForce h]
    rfl
  simp [hcom]

theorem ended_states {st : Nat} (h : st ∈ [comIDLE, comDONE, comFAILED]) :
    st ≠ comCHECKING ∧ st ∉ [comACCEPTED, comPENDING] := by
  simp only [List.mem_cons, List.not_mem_nil, or_false, comIDLE, comDONE, comFAILED, comACCEPTED, comPENDING,
    comCHECKING] at h ⊢
  omega

theorem inForce_states {st : Nat} (h : st ∈ [comACCEPTED, comPENDING]) : st ≠ comCHECKING := by
  simp only [List.mem_cons, List.not_mem_nil, or_false, comACCEPTED, comPENDING, comCHECKING] at h ⊢
  omega

/-- A key that nothing holds latches its page's shadow set. -/
theorem keyPage_idle {p : Page} {d : Dev} (hg : d.com.gstate = .idle) (hst : d.comState p ≠ comCHECKING)
    (hcopy : p = .exp → d.f EXP_CTX_CTRL_COPY_BUSY = 0) : keyPage p d = latchPage p (supersede p d) := by
  have hbusy : ¬(p = .exp ∧ d.f EXP_CTX_CTRL_COPY_BUSY = 1) := fun h => by
    have h0 := hcopy h.1
    omega
  unfold keyPage
  rw [hg]
  dsimp only
  rw [if_neg hbusy, if_neg hst]

theorem keyWritten_free {p : Page} {d : Dev} (h : d.hf p HD_PAGE_STAT_XLATE_PEND = 0) : keyWritten p d = keyPage p d :=
  if_neg (by omega)

theorem runs_pageCommit {p : Port} {pg : Page} {s : State} (h : s.admitsAt p pg) :
    runs (.pageCommit p pg 0xC5#32) s (keyWritten pg s.dev) := by
  have hr := runs_gatePage (c := .pageCommit p pg 0xC5#32) (f := pageCommit p pg 0xC5#32) rfl h
  rwa [pageCommit, if_pos rfl] at hr

/-- A key of a page, put behind what holds it. -/
theorem mem_held (p : Page) (l : List Page) : p ∈ if l.contains p then l else l ++ [p] := by
  split
  case isTrue h => simpa using h
  case isFalse => simp

theorem accepted_latchPage (p : Page) (d : Dev) : (latchPage p d).com.accepted = d.com.accepted := rfl

theorem behindXlate_latchPage (p : Page) (d : Dev) : (latchPage p d).com.behindXlate = d.com.behindXlate := rfl

theorem behindXlate_supersede (p : Page) (d : Dev) : (supersede p d).com.behindXlate = d.com.behindXlate := by
  unfold supersede
  split
  · rw [Dev.bump_def, Dev.setFi_com]
    rfl
  · rfl

/-- The device as a page's key waits for its translation no longer. -/
def keyTaken (p : Page) (d : Dev) : Dev :=
  d.onCom fun s => { s with behindXlate := s.behindXlate.filter fun q => q != p }

theorem comState_keyTaken (p q : Page) (d : Dev) : (keyTaken p d).comState q = d.comState q := hf_onCom ..

theorem not_mem_keyTaken (p : Page) (d : Dev) : p ∉ (keyTaken p d).com.behindXlate := by
  simp [keyTaken]

theorem regs_supersede_keyTaken (p q : Page) (d : Dev) : (supersede q (keyTaken p d)).regs = (supersede q d).regs := by
  unfold supersede
  rw [comState_keyTaken]
  split <;> rfl

/-- A key held behind a translation takes effect as the hold ends. -/
theorem releaseXlate_held {p : Page} {d : Dev} (h : p ∈ d.com.behindXlate) :
    releaseXlate p d = keyPage p (keyTaken p d) :=
  if_pos (by simpa using h)

/-! ## The global key -/

/-- The global key is held no longer. -/
def unheld (s : CommitSt) : CommitSt := { s with gHeld := false }

theorem setFi_onCom (d : Dev) (f : CommitSt → CommitSt) (F : Fld) (i k v : Nat) :
    (d.onCom f).setFi F i k v = (d.setFi F i k v).onCom f := rfl

theorem supersede_unheld (p : Page) (d : Dev) : supersede p (d.onCom unheld) = (supersede p d).onCom unheld := by
  have hst : (d.onCom unheld).comState p = d.comState p := hf_onCom ..
  have hun : (d.onCom unheld).unaccept p = (d.unaccept p).onCom unheld := rfl
  unfold supersede
  rw [hst]
  split
  · rw [hun, Dev.bump_def, Dev.fi_congr (Dev.onCom_regs ..), setFi_onCom, Dev.bump_def]
  · rfl

theorem foldl_supersede_unheld (l : List Page) (d : Dev) :
    l.foldl (fun d p => supersede p d) (d.onCom unheld) = (l.foldl (fun d p => supersede p d) d).onCom unheld := by
  induction l generalizing d with
  | nil => rfl
  | cons p l ih => rw [List.foldl_cons, supersede_unheld, ih, List.foldl_cons]

/-! ### The frame store's table, as firmware builds it before a global commit -/

theorem fstWrite_onCom (f : CommitSt → CommitSt) (l : List (Nat × Nat × Nat × Nat)) (n base : Nat) (d : Dev) :
    fstWrite n base l (d.onCom f) = (fstWrite n base l d).onCom f := by
  induction l generalizing n base d with
  | nil => rfl
  | cons x l ih =>
    have hset : ∀ (e : Dev) (F : Fld) (v : Nat), (e.onCom f).setFk F n v = (e.setFk F n v).onCom f :=
      fun e F v => setFi_onCom e f F 0 n v
    unfold fstWrite
    rw [hset, hset, hset, hset]
    dsimp only
    rw [hset, hset, ih]

theorem fstTranslate_onCom (f : CommitSt → CommitSt) (d : Dev) :
    fstTranslate (d.onCom f) = (fstTranslate d).onCom f := by
  have hon : (d.onCom f).basicOn .fst = d.basicOn .fst := by rw [Dev.basicOn, hf_onCom, Dev.basicOn]
  have hbuild : fstBuild (d.onCom f) = fstBuild d := rfl
  have hclear : ∀ (m : Nat) (l : List Nat) (e : Dev), l.foldl (fun d n => d.setFk FST_ALLOC0_EN (m + n) 0) (e.onCom f) =
      (l.foldl (fun d n => d.setFk FST_ALLOC0_EN (m + n) 0) e).onCom f := by
    intro m l e
    induction l generalizing e with
    | nil => rfl
    | cons n l ih => rw [List.foldl_cons, List.foldl_cons, Dev.setFk_def, setFi_onCom, ih, Dev.setFk_def]
  unfold fstTranslate
  rw [hon, hbuild]
  split
  · dsimp only
    rw [fstWrite_onCom, hclear]
  · rfl

theorem fstBefore_onCom (f : CommitSt → CommitSt) (d : Dev) : fstBefore (d.onCom f) = (fstBefore d).onCom f := by
  have hkeys : fstKeys (d.onCom f).fi = fstKeys d.fi := rfl
  have hkeys' : fstKeys (d.onCom f).ai = fstKeys d.ai := rfl
  have hboot : (d.onCom f).boot = d.boot := Dev.onCom_boot ..
  unfold fstBefore
  rw [hkeys, hkeys', hboot]
  split
  · exact fstTranslate_onCom f d
  · rfl

theorem length_fstBuild (d : Dev) : (fstBuild d).length ≤ 48 := by
  have hnsub : d.f EXP_EXP_CFG_NSUB < 4 := Nat.mod_lt _ (by decide)
  have hviews := List.length_filter_le (fun v => d.fk VEW_CFG_EN v = 1) (List.range 2)
  have hsats := List.length_filter_le (fun n => d.fi SP_VS_FMT_EN (n / 4) (n % 4) = 1) (List.range 32)
  rw [List.length_range] at hviews hsats
  unfold fstBuild
  dsimp only
  split <;> split <;>
    simp only [List.length_append, List.length_map, List.length_range, List.length_cons, List.length_nil] <;> omega

section
variable {a : Nat} (ha : a < 0xA0200 ∨ 0xA0380 ≤ a)
include ha

theorem word_fstWrite (l : List (Nat × Nat × Nat × Nat)) (n base : Nat) (hn : n + l.length ≤ 48) (d : Dev) :
    (fstWrite n base l d).word a = d.word a := by
  induction l generalizing n base d with
  | nil => rfl
  | cons x l ih =>
    have h0 : a ≠ 0xA0200 + 0x1000 * 0 + 8 * n := by simp only [List.length_cons] at hn; omega
    have h4 : a ≠ 0xA0204 + 0x1000 * 0 + 8 * n := by simp only [List.length_cons] at hn; omega
    have hset : ∀ (e : Dev) {F : Fld} (v : Nat), a ≠ F.addr 0 n → (e.setFk F n v).word a = e.word a :=
      fun e F v hF => by rw [Dev.setFk_def, Dev.word_setFi, if_neg hF]
    unfold fstWrite
    rw [ih _ _ (by simp only [List.length_cons] at hn; omega), hset (F := FST_ALLOC1_SIZE) _ _ h4,
      hset (F := FST_ALLOC1_BASE) _ _ h4, hset (F := FST_ALLOC0_INDEX) _ _ h0, hset (F := FST_ALLOC0_MEMBER) _ _ h0,
      hset (F := FST_ALLOC0_USE) _ _ h0, hset (F := FST_ALLOC0_EN) _ _ h0]

theorem word_fstTranslate (d : Dev) : (fstTranslate d).word a = d.word a := by
  have hclear : ∀ (m : Nat) (l : List Nat) (e : Dev), (∀ n ∈ l, m + n < 48) →
      (l.foldl (fun d n => d.setFk FST_ALLOC0_EN (m + n) 0) e).word a = e.word a := by
    intro m l e hl
    induction l generalizing e with
    | nil => rfl
    | cons n l ih =>
      have h0 : a ≠ 0xA0200 + 0x1000 * 0 + 8 * (m + n) := by
        have := hl n (List.mem_cons_self ..)
        omega
      rw [List.foldl_cons, ih _ fun k hk => hl k (List.mem_cons_of_mem _ hk), Dev.setFk_def, Dev.word_setFi]
      exact if_neg h0
  unfold fstTranslate
  split
  · dsimp only
    rw [hclear _ _ _ (by simp only [List.mem_range]; omega), word_fstWrite ha _ _ _ (by simpa using length_fstBuild d)]
  · rfl

theorem word_fstBefore (d : Dev) : (fstBefore d).word a = d.word a := by
  unfold fstBefore
  split
  · exact word_fstTranslate ha d
  · rfl

end

/-! ### What the global key latches -/

theorem hf_fstBefore {F : Fld} (h : F.off < 0x200) (d : Dev) (p : Page) : (fstBefore d).hf p F = d.hf p F := by
  have hbase : p.base + F.off < 0xA0200 ∨ 0xA0380 ≤ p.base + F.off := by
    cases p
    case eng n => simp only [Page.base, Page.blk, Page.inst, Blk.base, Blk.size]; omega
    case pe n => simp only [Page.base, Page.blk, Page.inst, Blk.base, Blk.size]; omega
    case ln n => simp only [Page.base, Page.blk, Page.inst, Blk.base, Blk.size]; omega
    case sp n => simp only [Page.base, Page.blk, Page.inst, Blk.base, Blk.size]; omega
    all_goals simp only [Page.base, Page.blk, Page.inst, Blk.base, Blk.size]; omega
  simp only [Dev.hf, word_fstBefore hbase]

section
variable (y : Dev)

/-- The device that a global key latches: what was in force has given way, and the frame store's table is built. -/
def globalBase : Dev := fstBefore (y.com.accepted.foldl (fun d q => supersede q d) y)

theorem latchGlobal_unheld : latchGlobal (y.onCom unheld) =
    (allPages.foldl (fun d p => d.setHf p HD_COMMIT_STAT_STATE comCHECKING) ((globalBase y).onCom unheld)).onCom fun s =>
      { s with
        gstate := .checking
        glob := { latched := (allPages.foldl (fun d p => d.setHf p HD_COMMIT_STAT_STATE comCHECKING)
          ((globalBase y).onCom unheld)).latchOf none } } := by
  unfold latchGlobal globalBase
  have hacc : (y.onCom unheld).com.accepted = y.com.accepted := rfl
  dsimp only
  rw [hacc, foldl_supersede_unheld, fstBefore_onCom]

theorem onlyCommit_latchGlobal :
    onlyCommit (globalBase y) (latchGlobal (y.onCom unheld)) (allPages.map fun q => q.base + 0x20) := by
  rw [latchGlobal_unheld]
  exact ((((onlyCommit.refl _ _).onCom unheld).trans (onlyWords_foldl_setHf HD_COMMIT_STAT_STATE comCHECKING
    (fun p hp => List.mem_map_of_mem (f := fun q : Page => q.base + 0x20) hp) _)).onCom _)

theorem comState_latchGlobal (q : Page) : (latchGlobal (y.onCom unheld)).comState q = comCHECKING := by
  rw [latchGlobal_unheld, Dev.comState, hf_onCom]
  exact hf_foldl_setHf (by decide) (by decide) (by decide) _ (.inl (mem_allPages q))

/-- The global check of what is latched. -/
theorem com_checking (x : Dev) :
    (x.onCom fun s => { s with gstate := .checking, glob := { latched := x.latchOf none } }).com.gstate = .checking ∧
      (x.onCom fun s => { s with gstate := .checking, glob := { latched := x.latchOf none } }).com.glob =
        { latched := (x.onCom fun s => { s with gstate := .checking, glob := { latched := x.latchOf none } }).latchOf none } :=
  ⟨rfl, rfl⟩

theorem com_latchGlobal : (latchGlobal (y.onCom unheld)).com.gstate = .checking ∧
    (latchGlobal (y.onCom unheld)).com.glob = { latched := (latchGlobal (y.onCom unheld)).latchOf none } := by
  rw [latchGlobal_unheld]
  exact com_checking _

end

/-! ### A global commit that gives way -/

/-- A page is pending or checked for the global commit no longer. -/
def Dev.unpend (d : Dev) (p : Page) : Dev := (d.unaccept p).setHf p HD_COMMIT_STAT_STATE comIDLE

theorem dropGlobal_eq (d : Dev) : dropGlobal d = ((allPages.foldl Dev.unpend d).bump SYS_SUPERSEDED).onCom fun s =>
    { s with gstate := .idle, glob := {} } := rfl

theorem hf_commitPend_unpend (d : Dev) (p q : Page) (h : p = q ∨ d.hf q HD_PAGE_STAT_COMMIT_PEND = 0) :
    (d.unpend p).hf q HD_PAGE_STAT_COMMIT_PEND = 0 := by
  have hstate : (d.unpend p).hf q HD_PAGE_STAT_COMMIT_PEND = (d.unaccept p).hf q HD_PAGE_STAT_COMMIT_PEND :=
    Dev.hf_setHf_ne _ _ (by decide) (by decide) (by decide) (.inl (pageAddr_ne (by decide) (by decide) (.inr (by decide))))
  rw [hstate]
  by_cases hp : p = q
  · rw [hp, hf_commitPend_unaccept]
  · rw [hf_of_onlyWords (onlyCommit_unaccept p d).1 (by
      simpa using pageAddr_ne (p := q) (q := p) (by decide) (by decide) (.inl fun h => hp h.symm))]
    exact h.resolve_left hp

theorem hf_commitPend_foldl_unpend {l : List Page} {d : Dev} {q : Page}
    (h : q ∈ l ∨ d.hf q HD_PAGE_STAT_COMMIT_PEND = 0) : (l.foldl Dev.unpend d).hf q HD_PAGE_STAT_COMMIT_PEND = 0 := by
  induction l generalizing d with
  | nil => exact h.resolve_left List.not_mem_nil
  | cons p l ih =>
    refine ih (or_iff_not_imp_left.mpr fun hl => hf_commitPend_unpend d p q ?_)
    exact h.imp_left fun hm => ((List.mem_cons.mp hm).resolve_right hl).symm

theorem not_mem_accepted_foldl_unpend {l : List Page} {d : Dev} {q : Page} (h : q ∈ l ∨ q ∉ d.com.accepted) :
    q ∉ (l.foldl Dev.unpend d).com.accepted := by
  induction l generalizing d with
  | nil => exact h.resolve_left List.not_mem_nil
  | cons p l ih =>
    have hacc : (d.unpend p).com.accepted = d.com.accepted.filter fun r => r != p := rfl
    refine ih (or_iff_not_imp_left.mpr fun hl => ?_)
    rw [hacc, List.mem_filter]
    rintro ⟨hq, hne⟩
    obtain hm | hn := h
    · exact absurd ((List.mem_cons.mp hm).resolve_right hl) (by simpa using hne)
    · exact hn hq

theorem fi_superseded_foldl_unpend (l : List Page) (d : Dev) :
    (l.foldl Dev.unpend d).fi SYS_SUPERSEDED 0 0 = d.fi SYS_SUPERSEDED 0 0 := by
  induction l generalizing d with
  | nil => rfl
  | cons p l ih =>
    have hset : (d.unpend p).fi SYS_SUPERSEDED 0 0 = (d.unaccept p).fi SYS_SUPERSEDED 0 0 :=
      Dev.fi_setHf _ _ (superseded_ne_header p (by decide))
    rw [List.foldl_cons, ih, hset]
    exact fi_of_onlyWords (onlyCommit_unaccept p d).1 (by simpa using superseded_ne_header p (by decide))

theorem hf_commitPend_dropGlobal (d : Dev) (q : Page) : (dropGlobal d).hf q HD_PAGE_STAT_COMMIT_PEND = 0 := by
  rw [dropGlobal_eq, hf_onCom, Dev.bump_def, Dev.hf_setFi _ _ (superseded_ne_header q (by decide)).symm]
  exact hf_commitPend_foldl_unpend (.inl (mem_allPages q))

theorem accepted_dropGlobal (d : Dev) : (dropGlobal d).com.accepted = [] := by
  have hidle : ∀ x : Dev, (x.onCom fun s => { s with gstate := .idle, glob := {} }).com.accepted = x.com.accepted :=
    fun _ => rfl
  rw [dropGlobal_eq, hidle, Dev.bump_def, Dev.setFi_com, List.eq_nil_iff_forall_not_mem]
  exact fun q => not_mem_accepted_foldl_unpend (.inl (mem_allPages q))

theorem fi_superseded_dropGlobal (d : Dev) :
    (dropGlobal d).f SYS_SUPERSEDED = (d.f SYS_SUPERSEDED + 1) % 2 ^ 32 := by
  rw [dropGlobal_eq, Dev.f_def, Dev.fi_congr (Dev.onCom_regs ..), Dev.bump_def,
    Dev.fi_setFi_same _ _ _ _ _ (by decide) (by decide), fi_superseded_foldl_unpend]
  rfl

/-- After a global key took effect over one that gave way, no page is pending. -/
theorem hf_commitPend_latchGlobal (d : Dev) (q : Page) :
    (latchGlobal ((dropGlobal d).onCom unheld)).hf q HD_PAGE_STAT_COMMIT_PEND = 0 := by
  have hne : q.base + HD_PAGE_STAT_COMMIT_PEND.off ∉ allPages.map fun p => p.base + 0x20 := by
    simp only [List.mem_map, not_exists, not_and]
    exact fun p _ => (pageAddr_ne (by decide) (by decide) (.inr (by decide))).symm
  rw [hf_of_onlyWords (onlyCommit_latchGlobal _).1 hne, globalBase, accepted_dropGlobal, List.foldl_nil,
    hf_fstBefore (by decide), hf_commitPend_dropGlobal]

theorem keyGlobal_free {d : Dev} (hc : d.anyChecking = false) (hb : d.f EXP_CTX_CTRL_COPY_BUSY = 0) :
    keyGlobal d = latchGlobal ((supersedeGlobal d).onCom unheld) :=
  if_neg (by simp only [hc, hb]; decide)

theorem runs_gcommit {p : Port} {s : State} (h : s.admits p) : runs (.gcommit p 0xC5#32) s (gcommitKey s.dev) := by
  have hr := runs_gateWrite (c := .gcommit p 0xC5#32) (f := gcommit p 0xC5#32) rfl h
  rwa [gcommit, if_pos rfl] at hr

theorem gcommitKey_of_ne {d : Dev} (h : d.com.gstate ≠ .checking) : gcommitKey d = keyGlobal d := by
  unfold gcommitKey
  cases hg : d.com.gstate
  case checking => exact absurd hg h
  all_goals rfl

end Sys2Proof.Machine

open Sys2Proof Sys2Proof.Machine

/-- Settles O8: each key's effect is that of `keyPage` or `keyGlobal`, held or at once. -/
theorem commitKeysLatch : Obligations.CommitKeysLatch := by
  refine ⟨fun p pg s h hg hst hx hcopy => ?latches, fun p pg s h hg hst hx hcopy => ?supersedes,
    fun p pg s h hg hst hx hcopy => ?again, fun p pg s h hx => ?translating, fun p pg s h hg hx => ?behindGlobal,
    fun p pg s h hg hx => ?refused, fun p s h hg hx hcopy => ?copying, fun p pg key s h hkey => ?wrong,
    fun p s e h hg hc hb he => ?global, fun p s x e h hg hc hb hx he => ?globalAgain, fun p s h hg => ?globalRekey,
    fun p s h hg hc => ?globalHeld, fun p key s h hkey => ?globalWrong, fun pg s hmem hg hst hcopy => ?expires,
    fun pg s hmem hg hst hcopy => ?expiresOver, fun pg s hmem => ?none⟩
  case latches =>
    obtain ⟨hne, hnf⟩ := ended_states hst
    have hr := runs_pageCommit h
    rw [keyWritten_free hx, keyPage_idle hg hne hcopy, supersede_notInForce hnf] at hr
    exact ⟨_, hr, comState_latchPage .., latched_latchPage .., onlyCommit_latchPage ..⟩
  case supersedes =>
    have hr := runs_pageCommit h
    rw [keyWritten_free hx, keyPage_idle hg (inForce_states hst) hcopy] at hr
    have hlatch := (onlyCommit_latchPage pg (supersede pg s.dev)).1
    refine ⟨_, hr, comState_latchPage .., ?_, ?_, latched_latchPage .., ?_, ?_⟩
    · rw [hf_of_onlyWords hlatch (by simp [HD_PAGE_STAT_COMMIT_PEND]),
        hf_commitPend_supersede hst]
    · rw [accepted_latchPage]
      exact not_mem_accepted_supersede hst
    · exact (fi_of_onlyWords hlatch (by simpa using superseded_ne_header pg (by decide))).trans
        (fi_superseded_supersede hst)
    · exact ((onlyCommit_supersede pg s.dev).mono (by simp)).trans ((onlyCommit_latchPage pg _).mono (by simp))
  case again =>
    have hbusy : ¬(pg = .exp ∧ s.dev.f EXP_CTX_CTRL_COPY_BUSY = 1) := fun hb => by
      have h0 := hcopy hb.1
      omega
    have hr := runs_pageCommit h
    rw [keyWritten_free hx, keyPage, hg] at hr
    dsimp only at hr
    rw [if_neg hbusy, if_pos hst] at hr
    exact ⟨_, hr, mem_held .., rfl⟩
  case translating =>
    have hr := runs_pageCommit h
    rw [keyWritten, if_pos hx] at hr
    exact ⟨_, hr, mem_held .., rfl⟩
  case behindGlobal =>
    have hr := runs_pageCommit h
    rw [keyWritten_free hx, keyPage, hg] at hr
    exact ⟨_, hr, mem_held .., rfl⟩
  case refused =>
    have hkey : keyPage pg s.dev = (s.dev.comStatus pg comFAILED reBUSY 0).raiseBits pg 2#32 := by
      unfold keyPage
      obtain hg | hg := hg
      · rw [hg]
      · rw [hg]
    have hr := runs_pageCommit h
    rw [keyWritten_free hx, hkey] at hr
    have hword : ∀ {F : Fld}, F.off = 0x20 → ((s.dev.comStatus pg comFAILED reBUSY 0).raiseBits pg 2#32).hf pg F =
        (s.dev.comStatus pg comFAILED reBUSY 0).hf pg F := fun hF =>
      Dev.hf_raiseBits _ _ _ (pageAddr_ne (by rw [hF]; decide) (by decide) (.inr (by rw [hF]; decide)))
    refine ⟨_, hr, (hword rfl).trans (comState_comStatus _ _ (by decide) ..),
      (hword rfl).trans (reason_comStatus _ _ _ _ (by decide)), ?_, ?_⟩
    · rw [Dev.raiseBits_com, Dev.comStatus, Dev.setHf_com, Dev.setHf_com, Dev.setHf_com]
    · rw [Dev.raiseBits_act, Dev.comStatus, Dev.setHf_act, Dev.setHf_act, Dev.setHf_act]
  case copying =>
    have hr := runs_pageCommit h
    rw [keyWritten_free hx, keyPage, hg] at hr
    dsimp only at hr
    rwa [if_pos ⟨rfl, hcopy⟩] at hr
  case wrong =>
    have hr := runs_gatePage (c := .pageCommit p pg key) (f := pageCommit p pg key) rfl h
    rwa [pageCommit, if_neg hkey] at hr
  case global =>
    have hkey : gcommitKey s.dev = latchGlobal (s.dev.onCom unheld) := by
      rw [gcommitKey_of_ne (by simp [hg]), keyGlobal_free hc hb, supersedeGlobal, if_neg (by simp [hg])]
    have hr := runs_gcommit h
    rw [hkey] at hr
    subst he
    obtain ⟨hstate, hglob⟩ := com_latchGlobal s.dev
    exact ⟨_, hr, hstate, hglob, fun q _ => comState_latchGlobal _ q, onlyCommit_latchGlobal _⟩
  case globalAgain =>
    have hkey : gcommitKey s.dev = latchGlobal ((dropGlobal s.dev).onCom unheld) := by
      rw [gcommitKey_of_ne (by rintro hn; simp [hn] at hg), keyGlobal_free hc hb, supersedeGlobal, if_pos hg]
    have hr := runs_gcommit h
    rw [hkey] at hr
    have hbase : e = globalBase (dropGlobal s.dev) := by
      rw [he, hx]
      rfl
    obtain ⟨hstate, hglob⟩ := com_latchGlobal (dropGlobal s.dev)
    refine ⟨_, hr, hstate, hglob, ?_, ?_, ?_⟩
    · rw [hx]
      exact fi_superseded_dropGlobal s.dev
    · exact fun q _ => ⟨comState_latchGlobal (dropGlobal s.dev) q, fun _ => hf_commitPend_latchGlobal s.dev q⟩
    · rw [hbase]
      exact onlyCommit_latchGlobal (dropGlobal s.dev)
  case globalRekey =>
    have hr := runs_gcommit h
    rwa [gcommitKey, hg] at hr
  case globalHeld =>
    have hr := runs_gcommit h
    rwa [gcommitKey_of_ne hg, keyGlobal, if_pos hc] at hr
  case globalWrong =>
    have hr := runs_gateWrite (c := .gcommit p key) (f := gcommit p key) rfl h
    have haddr : SYS_GCOMMIT_KEY.addr 0 0 = 0x110 := rfl
    rwa [gcommit, if_neg hkey, haddr] at hr
  case expires =>
    obtain ⟨hne, hnf⟩ := ended_states hst
    have hr := runs_onDev (c := .xlateHoldExpire pg) rfl (releaseXlate_held hmem)
    rw [← comState_keyTaken pg] at hne hnf
    rw [keyPage_idle (d := keyTaken pg s.dev) hg hne hcopy, supersede_notInForce hnf] at hr
    refine ⟨_, hr, comState_latchPage .., ?_, latched_latchPage .., ?_⟩
    · rw [behindXlate_latchPage]
      exact not_mem_keyTaken pg s.dev
    · exact ((onlyCommit.refl _ _).onCom _).trans (onlyCommit_latchPage ..)
  case expiresOver =>
    have hr := runs_onDev (c := .xlateHoldExpire pg) rfl (releaseXlate_held hmem)
    rw [← comState_keyTaken pg] at hst
    rw [keyPage_idle (d := keyTaken pg s.dev) hg (inForce_states hst) hcopy] at hr
    have hlatch := (onlyCommit_latchPage pg (supersede pg (keyTaken pg s.dev)))
    refine ⟨_, hr, comState_latchPage .., ?_, ?_, ?_, ?_, ?_⟩
    · rw [behindXlate_latchPage, behindXlate_supersede]
      exact not_mem_keyTaken pg s.dev
    · rw [accepted_latchPage]
      exact not_mem_accepted_supersede hst
    · exact (fi_of_onlyWords hlatch.1 (by simpa using superseded_ne_header pg (by decide))).trans
        (fi_superseded_supersede hst)
    · rw [latched_latchPage, regs_supersede_keyTaken]
    · exact ((((onlyCommit.refl s.dev _).onCom _).trans ((onlyCommit_supersede pg _).mono
        (bs := [pg.base + 0xC, SYS_SUPERSEDED.addr 0 0, pg.base + 0x20]) (by simp))).trans (hlatch.mono (by simp))).2
  case none => exact runs_onDev (f := releaseXlate pg) rfl (if_neg (by simpa using hmem))
end

section
/-! SUPPORT. Proofs about START and STOP of readout and about start ticks (R141, R163, R200, R204): the row clock stands
where the tick puts it, whatever else falls on the tick. -/
namespace Sys2Proof.Machine

/-! ## What a fold keeps -/

/-- A part of the device that each step of a fold keeps. -/
theorem foldl_keeps {α β : Type} (g : Dev → β) {f : Dev → α → Dev} (h : ∀ d x, g (f d x) = g d) (l : List α) (d : Dev) :
    g (l.foldl f d) = g d := by
  induction l generalizing d with
  | nil => rfl
  | cons x l ih => exact (ih _).trans (h d x)

/-- A part of the device that both branches keep. -/
theorem ite_keeps {β : Type} (g : Dev → β) {c : Prop} [Decidable c] {d x y : Dev} (hx : g x = g d) (hy : g y = g d) :
    g (if c then x else y) = g d := by
  split
  · exact hx
  · exact hy

/-! ## The row clock's own state -/

/-- Where the row clock stands: the frame being read, its pass and row, its boundaries and its start tick. -/
def Dev.clock (d : Dev) : Option Nat × Bool × Nat × Nat × List Nat × Nat × Nat × Bool :=
  (d.ary.cur, d.ary.armOnly, d.ary.pass, d.ary.offered, d.ary.passB, d.ary.lastTick, d.ary.lastB, d.ary.complete)

theorem clock_of_ary {d e : Dev} (h : e.ary = d.ary) : e.clock = d.clock := by rw [Dev.clock, h, Dev.clock]

theorem clock_setTile (d : Dev) (t : Nat) (x : TileSt) : (d.setTile t x).clock = d.clock := rfl

theorem clock_mapFrame (d : Dev) (u : Nat) (g : Frame → Frame) : (d.mapFrame u g).clock = d.clock :=
  clock_of_ary (Dev.setFrame_ary ..)

theorem clock_flagTick (d : Dev) (k b : Nat) : (d.flagTick k b).clock = d.clock := by
  unfold Dev.flagTick
  split
  · exact clock_mapFrame ..
  · split
    · rfl
    · rfl

theorem ary_onceFrame (d : Dev) (u code : Nat) (p : Page) (b : List Byte) : (d.onceFrame u code p b).ary = d.ary := by
  unfold Dev.onceFrame
  dsimp only
  split
  · rfl
  · rw [Dev.emit_def, Dev.emitSrc_ary, Dev.setFrame_ary]

theorem clock_onceTick (d : Dev) (k code : Nat) (p : Page) (b : List Byte) : (d.onceTick k code p b).clock = d.clock := by
  unfold Dev.onceTick
  split
  · exact clock_of_ary (ary_onceFrame ..)
  · dsimp only
    split
    · rfl
    · exact (clock_of_ary (Dev.emitSrc_ary ..)).trans rfl

/-! ### Events that are placed -/

/-- A part of the device that no step of placing an event changes. -/
structure KeptByPlacing {β : Type} (g : Dev → β) : Prop where
  tile : ∀ (d : Dev) (t : Nat) (x : TileSt), g (d.setTile t x) = g d
  flag : ∀ (d : Dev) (k b : Nat), g (d.flagTick k b) = g d
  once : ∀ (d : Dev) (k code : Nat) (p : Page) (b : List Byte), g (d.onceTick k code p b) = g d
  count : ∀ (d : Dev) (t v : Nat), g (d.setFi ENG_SHUT_LATE (t % 96) 0 v) = g d
  raise : ∀ (d : Dev) (t : Nat) (b : Word), g (d.raiseBits (blkPage .eng (t % 96)) b) = g d

section
variable {β : Type} {g : Dev → β} (h : KeptByPlacing g)
include h

theorem shutLate_keeps (t k : Nat) (d : Dev) : g (shutLate t k d) = g d := by
  unfold shutLate
  dsimp only
  rw [h.once, h.flag]
  exact (h.raise ..).trans (h.count ..)

theorem placeEvent_keeps (t k b now : Nat) (v : ShutEv) (d : Dev) : g (placeEvent t k b now v d) = g d := by
  unfold placeEvent
  dsimp only
  split
  · split
    · exact shutLate_keeps h t k d
    · exact (h.tile ..).trans (shutLate_keeps h t k d)
  · exact h.tile ..

theorem placeWaiting_keeps (t k now : Nat) (d : Dev) : g (placeWaiting t k now d) = g d := by
  unfold placeWaiting
  refine (foldl_keeps g (fun e v => ?_) _ _).trans (h.tile ..)
  split
  · exact placeEvent_keeps h ..
  · exact h.tile ..

theorem placeAll_keeps (k now : Nat) (d : Dev) : g (placeAll k now d) = g d :=
  foldl_keeps g (fun e t => placeWaiting_keeps h t k now e) _ d

end

theorem clock_kept : KeptByPlacing Dev.clock where
  tile := clock_setTile
  flag := clock_flagTick
  once := clock_onceTick
  count _ _ _ := clock_of_ary (Dev.setFi_ary ..)
  raise _ _ _ := clock_of_ary (Dev.raiseBits_ary ..)

theorem clock_rollTiles (strip : Bool) (k read : Nat) (d : Dev) : (rollTiles strip k read d).clock = d.clock :=
  foldl_keeps Dev.clock (fun _ _ => clock_setTile ..) _ d

theorem ary_sweepStart (e : Nat) (d : Dev) : (sweepStart e d).ary = d.ary := by
  unfold sweepStart
  dsimp only
  split
  · exact Dev.setEngine_ary ..
  · exact (Dev.setEngine_ary ..).trans (Dev.setFi_ary ..)

theorem clock_sweepAll (d : Dev) : (sweepAll d).clock = d.clock :=
  foldl_keeps Dev.clock (fun e x => clock_of_ary (ary_sweepStart x e)) _ d

theorem ary_engStart (e : Nat) (d : Dev) : (engStart e d).ary = d.ary := by
  unfold engStart
  dsimp only
  split
  · exact Dev.setEngine_ary ..
  · rfl

theorem ary_rowLost (e dly : Nat) (d : Dev) : (rowLost e dly d).ary = d.ary :=
  (Dev.setEngine_ary ..).trans ((Dev.raiseBits_ary ..).trans (Dev.setFi_ary ..))

theorem clock_strobesLost (d : Dev) : (strobesLost d).clock = d.clock := by
  refine foldl_keeps Dev.clock (fun e x => ?_) _ d
  dsimp only
  split
  · exact clock_of_ary (ary_rowLost ..)
  · rfl

theorem ary_burstEnd (d : Dev) : (burstEnd d).ary = d.ary :=
  (Dev.onHmp_ary ..).trans ((Dev.emitSrc_ary ..).trans ((Dev.raiseBits_ary ..).trans (Dev.setFi_ary ..)))

theorem ary_burstClose (d : Dev) : (burstClose d).ary = d.ary := by
  unfold burstClose
  dsimp only
  split
  · rw [ary_burstEnd, Dev.onBurst_ary]
  · exact Dev.onBurst_ary ..

theorem ary_burstStart (u : Nat) (d : Dev) : (burstStart u d).ary = d.ary := by
  have hrec : ∀ (c : Prop) [Decidable c], (if c then d.setF ARY_BURST_STAT_STATE buRECORDING else d).ary = d.ary :=
    fun c _ => ite_keeps Dev.ary (Dev.setFi_ary ..) rfl
  unfold burstStart
  dsimp only
  refine (ite_keeps Dev.ary rfl (ite_keeps Dev.ary (ary_burstClose _) (ite_keeps Dev.ary ?_ ?_))).trans (hrec _)
  · rw [Dev.onBurst_ary, Dev.mapFrame, Dev.setFrame_ary]
  · rw [Dev.onBurst_ary, Dev.onBurst_ary, Dev.mapFrame, Dev.setFrame_ary]

/-! ## Start ticks -/

/-- The row clock stands at a start tick: nothing is offered of the first pass. -/
def Dev.atTick (d : Dev) (cur : Option Nat) (armOnly : Bool) : Prop :=
  d.ary.cur = cur ∧ d.ary.armOnly = armOnly ∧ d.ary.pass = 0 ∧ d.ary.offered = 0 ∧ d.ary.passB = [d.ary.lastTick] ∧
    d.ary.complete = false

theorem atTick_congr {d e : Dev} (h : e.clock = d.clock) {cur : Option Nat} {armOnly : Bool} (hd : d.atTick cur armOnly) :
    e.atTick cur armOnly := by
  obtain ⟨hcur, harm, hpass, hoff, hB, hlast, -, hcompl⟩ : _ ∧ _ ∧ _ ∧ _ ∧ _ ∧ _ ∧ _ ∧ _ := by
    simpa only [Dev.clock, Prod.mk.injEq] using h
  unfold Dev.atTick at hd ⊢
  rwa [hcur, harm, hpass, hoff, hB, hlast, hcompl]

theorem atTick_clockStart (cur : Option Nat) (armOnly : Bool) (d : Dev) : (clockStart cur armOnly d).atTick cur armOnly :=
  ⟨rfl, rfl, rfl, rfl, rfl, rfl⟩

theorem atTick_firstTick (d : Dev) : (firstTick d).atTick none true := by
  unfold firstTick
  dsimp only
  exact atTick_congr (clock_sweepAll _) (atTick_congr (placeAll_keeps clock_kept ..) (atTick_congr (clock_rollTiles ..)
    (atTick_congr (foldl_keeps Dev.clock (fun e x => clock_of_ary (ary_engStart x e)) _ _) (atTick_clockStart ..))))

theorem atTick_beginFrame (d : Dev) : (beginFrame d).atTick (some d.nextFrame) false := by
  unfold beginFrame
  dsimp only
  exact atTick_congr (clock_of_ary (ary_burstStart ..)) (atTick_congr (clock_sweepAll _) (atTick_congr (placeAll_keeps clock_kept ..)
    (atTick_congr (clock_strobesLost _) (atTick_congr (clock_rollTiles ..) (atTick_congr (clock_mapFrame ..)
      (atTick_clockStart ..))))))

theorem startTick_due {d : Dev} (h : d.tickDue = true) : startTick d =
    if d.runState = runARMED then firstTick d else if d.runState = runSTOPPING then stopTick d else frameTick d :=
  if_neg (by simp [h])

/-! ## Readout stops -/

theorem ary_aryStopped (d : Dev) : (aryStopped d).ary = d.ary :=
  (ite_keeps Dev.ary rfl (Dev.setHf_ary ..)).trans (Dev.setFi_ary ..)

theorem ary_stopTick (d : Dev) : (stopTick d).ary.cur = none ∧ (stopTick d).ary.armOnly = false := by
  unfold stopTick
  dsimp only
  rw [ary_aryStopped]
  exact ⟨rfl, rfl⟩

theorem enabled_setF_runState (d : Dev) (v : Nat) : (d.setF ARY_RUN_STAT_STATE v).enabled .ary = d.enabled .ary := by
  rw [Dev.enabled, Dev.setF_def, Dev.hf_setFi _ _ (by decide), Dev.enabled]

/-- While ARY is enabled, its state alone changes. -/
theorem aryStopped_enabled {d : Dev} (h : d.enabled .ary = true) : aryStopped d = d.setF ARY_RUN_STAT_STATE runSTOPPED :=
  if_pos ((enabled_setF_runState ..).trans h)

theorem runState_aryStopped (d : Dev) : (aryStopped d).runState = runSTOPPED := by
  have hset : (d.setF ARY_RUN_STAT_STATE runSTOPPED).runState = runSTOPPED :=
    Dev.fi_setFi_same _ _ _ _ _ (by decide) (by decide)
  unfold aryStopped
  dsimp only
  split
  · exact hset
  · rw [Dev.runState, Dev.f_def, Dev.fi_setHf _ _ (by decide)]
    exact hset

/-- `d` with the registers and the array of `x`. -/
abbrev takeRegsAry (x d : Dev) : Dev := { d with regs := x.regs, ary := x.ary }

theorem takeRegsAry_trans {d e g : Dev} (h : e = takeRegsAry e d) (h' : g = takeRegsAry g e) : g = takeRegsAry g d :=
  frame_trans takeRegsAry (fun _ _ _ => rfl) h h'

theorem takeRegsAry_onAry (d : Dev) (f : ArySt → ArySt) : d.onAry f = takeRegsAry (d.onAry f) d := rfl

theorem takeRegsAry_of_regs {d e : Dev} (h : e = takeRegs e d) : e = takeRegsAry e d :=
  frame_mono takeRegs takeRegsAry (fun _ _ => rfl) h

/-- While ARMED for a time of day that has come, START is so many ticks ago. -/
theorem todArms_startTa (b : Bool) (d : Dev) :
    (todArms b d).regs = d.regs ∧ (todArms b d).ary = { d.ary with startTa := (todArms b d).ary.startTa } ∧
      todArms b d = { d with ary := (todArms b d).ary } ∧ (d.f ARY_START_CFG_SRC ≠ 1 → todArms b d = d) := by
  unfold todArms
  dsimp only
  split
  case isTrue h => exact ⟨rfl, rfl, rfl, fun hne => absurd h.2.1 hne⟩
  case isFalse => exact ⟨rfl, rfl, rfl, fun _ => rfl⟩

theorem aryStart_stopped {d : Dev} (hst : d.runState = runSTOPPED) (hen : d.enabled .ary = true) (p : Port) (v : Word) :
    aryStart p v d = todArms true
      ((d.onAry fun a => { a with startAt := d.cyc, startTrt := none, startTa := none }).setF ARY_RUN_STAT_STATE runARMED) :=
  if_neg (by simp only [hst, hen]; decide)

end Sys2Proof.Machine

open Sys2Proof Sys2Proof.Machine

/-- Settles O23: a start tick puts the row clock at its first row, and nothing that falls on the tick moves it. -/
theorem scheduleRunsFrames : Obligations.ScheduleRunsFrames := by
  refine ⟨fun p s h hst hen => ?starts, fun p s h hst => ?refused, fun p s h hst hen => ?stopsArmed,
    fun p s h hst => ?stops, fun p s h hst => ?stopped, fun s hdue hst => ?first, fun s hdue hst => ?frame,
    fun s hdue hst => ?stopTick, fun s hdue => ?none⟩
  case starts =>
    have hr := runs_gatePage (c := .aryStart p) (f := aryStart p 1#32) rfl h
    rw [aryStart_stopped hst hen] at hr
    obtain ⟨hregs, hary, hall, hsrc⟩ := todArms_startTa true
      ((s.dev.onAry fun a => { a with startAt := s.dev.cyc, startTrt := none, startTa := none }).setF
        ARY_RUN_STAT_STATE runARMED)
    refine ⟨_, hr, ?_, hary, fun hne => ?_, ?_, ?_⟩
    · rw [Dev.runState, Dev.f_def, Dev.fi_congr hregs]
      exact Dev.fi_setFi_same _ _ _ _ _ (by decide) (by decide)
    · rw [hsrc (by
        rwa [Dev.f_def, Dev.setF_def, Dev.fi_setFi_ne _ _ _ _ _ _ _ _ (by decide) (by decide) (by decide) (by decide)])]
      rfl
    · exact takeRegsAry_trans (takeRegsAry_onAry ..) (takeRegsAry_trans (takeRegsAry_of_regs (takeRegs_setFi ..))
        (frame_mono (fun x d => { d with ary := x.ary }) takeRegsAry (fun _ _ => rfl) hall))
    · exact onlyWords_regs (onlyWords_setFi _ (by decide) _) hregs
  case refused =>
    have hr := runs_gatePage (c := .aryStart p) (f := aryStart p 1#32) rfl h
    rwa [aryStart, if_pos hst] at hr
  case stopsArmed =>
    have hr := runs_gatePage (c := .aryStop p) (f := aryStop) rfl h
    rw [aryStop, if_pos hst, aryStopped_enabled hen] at hr
    exact ⟨_, hr, Dev.fi_setFi_same _ _ _ _ _ (by decide) (by decide), onlyRegs_setFi ..⟩
  case stops =>
    have hr := runs_gatePage (c := .aryStop p) (f := aryStop) rfl h
    rw [aryStop, if_neg (by rw [hst]; decide), if_pos hst] at hr
    refine ⟨_, hr, Dev.fi_setFi_same _ _ _ _ _ (by decide) (by decide), ?_, ?_, ?_, ?_⟩
    · simp (disch := decide) only [Dev.f_def, Dev.setF_def, Dev.fi_setFi_ne, Dev.fi_setFi_same]
      decide
    · rw [Dev.setF_def, Dev.setFi_ary, Dev.setF_def, Dev.setFi_ary, Dev.onAry_ary]
    · exact takeRegsAry_trans (takeRegsAry_onAry ..) (takeRegsAry_trans (takeRegsAry_of_regs (takeRegs_setFi ..))
        (takeRegsAry_of_regs (takeRegs_setFi ..)))
    · exact onlyWords_trans (onlyWords_of_regs (Dev.onAry_regs ..) _) (onlyWords_trans
        (onlyWords_setFi _ (F := TRG_TRIG_STAT_PEND) (i := 0) (k := 0) (by decide) _)
        (onlyWords_setFi _ (F := ARY_RUN_STAT_STATE) (i := 0) (k := 0) (by decide) _))
  case stopped =>
    have hr := runs_gatePage (c := .aryStop p) (f := aryStop) rfl h
    rwa [aryStop, if_neg (by rw [hst]; decide), if_neg (by rw [hst]; decide)] at hr
  case first =>
    have hr := runs_onDev (c := .startTick) (s := s) rfl (startTick_due hdue)
    rw [if_pos hst] at hr
    exact ⟨_, hr, atTick_firstTick s.dev⟩
  case frame =>
    have hr := runs_onDev (c := .startTick) (s := s) rfl (startTick_due hdue)
    rw [if_neg (by rw [hst]; decide), if_neg (by rw [hst]; decide)] at hr
    exact ⟨_, _, hr, atTick_beginFrame _⟩
  case stopTick =>
    have hr := runs_onDev (c := .startTick) (s := s) rfl (startTick_due hdue)
    rw [if_neg (by rw [hst]; decide), if_pos hst] at hr
    obtain ⟨hcur, harm⟩ := ary_stopTick s.dev
    exact ⟨_, hr, hcur, harm, runState_aryStopped _⟩
  case none => exact runs_onDev (f := startTick) rfl (if_pos hdue)
end

section
/-! SUPPORT. Proofs about the row clock, the preamble and the skid buffer (R117, R119, R163, R225): strobes change
engines, tiles and queues of rows, not where the row clock stands. -/
namespace Sys2Proof.Machine

/-! ## A strobe -/

theorem clock_rowEarly (e : Nat) (bot : Bool) (now : Nat) (d : Dev) : (rowEarly e bot now d).2.clock = d.clock := by
  unfold rowEarly
  exact (clock_of_ary (Dev.setEngine_ary ..)).trans
    (ite_keeps Dev.clock (clock_of_ary (Dev.setFi_ary ..)) rfl)

theorem clock_toDrivers (e : Nat) (bot : Bool) (d : Dev) : (toDrivers e bot d).clock = d.clock := by
  unfold toDrivers
  dsimp only
  split
  · rfl
  · refine ite_keeps Dev.clock (clock_of_ary (Dev.setEngine_ary ..)) ?_
    rw [clock_onceTick]
    exact clock_of_ary ((Dev.raiseBits_ary ..).trans ((Dev.setFi_ary ..).trans (Dev.setEngine_ary ..)))

theorem clock_bucketAdd (now : Nat) (d : Dev) : (bucketAdd now d).clock = d.clock := by
  unfold bucketAdd
  dsimp only
  refine ite_keeps Dev.clock ?_ rfl
  rw [clock_onceTick]
  exact (clock_of_ary ((Dev.raiseBits_ary ..).trans (Dev.setFi_ary ..))).trans rfl

theorem clock_setDark (d : Dev) (k : Nat) (v : Nat × Bool) : (d.setDark k v).clock = d.clock := rfl

theorem clock_tileRead (t y now : Nat) (d : Dev) : (tileRead t y now d).clock = d.clock := clock_setTile ..

theorem ite_snd_keeps {α β : Type} (g : Dev → β) {c : Prop} [Decidable c] {x y : α × Dev} {b : β} (hx : g x.2 = b)
    (hy : g y.2 = b) : g (if c then x else y).2 = b := by
  split
  · exact hx
  · exact hy

theorem clock_strobePort (e bank now : Nat) (d : Dev) : (strobePort e bank now d).2.clock = d.clock := by
  have hearly := clock_rowEarly e (bank = 1) now d
  unfold strobePort
  dsimp only
  generalize rowEarly e (bank = 1) now d = r at hearly
  obtain ⟨t, x⟩ := r
  have hx : (toDrivers e (bank = 1) x).clock = d.clock := (clock_toDrivers ..).trans hearly
  generalize toDrivers e (bank = 1) x = y at hx
  dsimp only
  refine ite_snd_keeps Dev.clock hx (ite_snd_keeps Dev.clock ?_ (ite_snd_keeps Dev.clock ?_ (ite_snd_keeps Dev.clock hx ?_)))
  · exact (clock_onceTick ..).trans ((clock_of_ary ((Dev.raiseBits_ary ..).trans (Dev.setFi_ary ..))).trans hx)
  · exact (clock_bucketAdd ..).trans ((clock_setDark ..).trans hx)
  · exact (clock_bucketAdd ..).trans ((clock_tileRead ..).trans ((clock_setDark ..).trans hx))

theorem clock_strobeBank (es : List Nat) (bank now : Nat) (d : Dev) : (strobeBank es bank now d).2.clock = d.clock := by
  have hstep : ∀ (l : List Nat) (acc : List Strobe × Dev), (l.foldl (fun (acc : List Strobe × Dev) e =>
      match (acc.2.engine e).stall with
      | .strobe t b _ _ =>
        if (if bank = 0 then t else b) then
          match strobePort e bank now acc.2 with
          | (some s, d) => (acc.1 ++ [s], d)
          | (none, d) => (acc.1, d)
        else acc
      | _ => acc) acc).2.clock = acc.2.clock := by
    intro l
    induction l with
    | nil => exact fun _ => rfl
    | cons e l ih =>
      intro acc
      have hport := clock_strobePort e bank now acc.2
      refine (ih _).trans ?_
      dsimp only
      split
      · refine ite_snd_keeps Dev.clock ?_ rfl
        generalize strobePort e bank now acc.2 = r at hport
        obtain ⟨_ | s, x⟩ := r
        · exact hport
        · exact hport
      · rfl
  exact hstep es ([], d)

theorem ary_strobeDone (e : Nat) (d : Dev) : (strobeDone e d).ary = d.ary := by
  unfold strobeDone
  dsimp only
  split
  · exact (Dev.setEngine_ary ..).trans (Dev.setEngine_ary ..)
  · rfl

theorem clock_strobeAll (u : Nat) (es : List Nat) (now : Nat) (d : Dev) : (strobeAll u es now d).clock = d.clock := by
  have htop := clock_strobeBank es 0 now d
  unfold strobeAll
  generalize strobeBank es 0 now d = r at htop
  obtain ⟨top, x⟩ := r
  have hbot := (clock_strobeBank es 1 now x).trans htop
  dsimp only
  generalize strobeBank es 1 now x = r at hbot
  obtain ⟨bot, y⟩ := r
  refine (foldl_keeps Dev.clock (fun z e => clock_of_ary (ary_strobeDone e z)) _ _).trans (Eq.trans ?_ hbot)
  unfold Dev.clock
  rw [Dev.onAry_ary]
  dsimp only
  split
  · split
    · rfl
    · rfl
  · split
    · rfl
    · rfl

/-! ## The frame's last row -/

/-- The row that the row clock offers, and when its boundary fell. -/
def Dev.rowAt (d : Dev) : Nat × Nat × Nat := (d.ary.pass, d.ary.offered, d.ary.lastB)

theorem rowAt_of_clock {d e : Dev} (h : e.clock = d.clock) : e.rowAt = d.rowAt := by
  obtain ⟨-, -, hpass, hoff, -, -, hlast, -⟩ : _ ∧ _ ∧ _ ∧ _ ∧ _ ∧ _ ∧ _ ∧ _ := by
    simpa only [Dev.clock, Prod.mk.injEq] using h
  rw [Dev.rowAt, hpass, hoff, hlast, Dev.rowAt]

theorem complete_of_clock {d e : Dev} (h : e.clock = d.clock) : e.ary.complete = d.ary.complete :=
  congrArg (fun c => c.2.2.2.2.2.2.2) h

theorem rowAt_kept : KeptByPlacing Dev.rowAt where
  tile _ _ _ := rowAt_of_clock (clock_setTile ..)
  flag _ _ _ := rowAt_of_clock (clock_flagTick ..)
  once _ _ _ _ _ := rowAt_of_clock (clock_onceTick ..)
  count _ _ _ := rowAt_of_clock (clock_kept.count ..)
  raise _ _ _ := rowAt_of_clock (clock_kept.raise ..)

theorem frame_setFrame (d : Dev) (u w : Nat) (f : Frame) : (d.setFrame w f).frame u = if u = w then f else d.frame u :=
  SMap.get_set ..

/-- A frame that is changed in another part than `reading`. -/
theorem reading_setFrame (d : Dev) (u w : Nat) {f : Frame} (h : f.reading = (d.frame w).reading) :
    ((d.setFrame w f).frame u).reading = (d.frame u).reading := by
  rw [frame_setFrame]
  split
  case isTrue hu => rw [h, hu]
  case isFalse => rfl

theorem reading_onceFrame (d : Dev) (u w code : Nat) (p : Page) (b : List Byte) :
    ((d.onceFrame w code p b).frame u).reading = (d.frame u).reading := by
  unfold Dev.onceFrame
  dsimp only
  split
  · rfl
  · have hemit : ∀ (e : Dev) (b : List Byte), (e.emit code p b).frame u = e.frame u := fun _ _ => rfl
    rw [hemit, reading_setFrame d u w]
    rfl

theorem frame_setFi (d : Dev) (F : Fld) (i k v u : Nat) : (d.setFi F i k v).frame u = d.frame u := rfl

theorem frame_raiseBits (d : Dev) (p : Page) (b : Word) (u : Nat) : (d.raiseBits p b).frame u = d.frame u := by
  rw [Dev.frame, Dev.raiseBits_frames, Dev.frame]

theorem reading_kept (u : Nat) : KeptByPlacing fun d => (d.frame u).reading where
  tile _ _ _ := rfl
  flag d k b := by
    unfold Dev.flagTick
    split
    · exact reading_setFrame d u _ rfl
    · split
      · rfl
      · rfl
  once d k code p b := by
    unfold Dev.onceTick
    split
    · exact reading_onceFrame ..
    · dsimp only
      split
      · rfl
      · rfl
  count _ _ _ := congrArg Frame.reading (frame_setFi ..)
  raise _ _ _ := congrArg Frame.reading (frame_raiseBits ..)

section
variable (u : Nat) (d : Dev)

/-- The registers and the flags of a frame whose last row has been strobed. -/
def darkCounted : Dev :=
  let e := (d.setF ARY_DARK_STAT_TOP (d.darkLeast 0)).setF ARY_DARK_STAT_BOT (d.darkLeast 1)
  if d.darkLeast 0 < 24 ∨ d.darkLeast 1 < 24 then (e.flagFrame u ffDARK_SHORT).raise ARY_IRQ_RAW_DARK_SHORT else e

/-- The frame is read. -/
def readOut (e : Dev) : Dev :=
  (e.mapFrame u fun f => { f with reading := false }).onAry fun a =>
    { a with complete := true, lastRead := some ((e.mapFrame u fun f => { f with reading := false }).frame u).k }

theorem frameRead_eq : frameRead u d = if (readOut u (darkCounted u d)).sched = schedSTRIP then
    placeAll ((readOut u (darkCounted u d)).ary.k + 1) (readOut u (darkCounted u d)).cyc (readOut u (darkCounted u d))
    else readOut u (darkCounted u d) := rfl

theorem ary_darkCounted : (darkCounted u d).ary = d.ary := by
  have hset : ((d.setF ARY_DARK_STAT_TOP (d.darkLeast 0)).setF ARY_DARK_STAT_BOT (d.darkLeast 1)).ary = d.ary := rfl
  exact ite_keeps Dev.ary ((Dev.raiseBits_ary ..).trans ((Dev.setFrame_ary ..).trans hset)) hset

theorem rowAt_frameRead : (frameRead u d).rowAt = d.rowAt := by
  have hread : (readOut u (darkCounted u d)).rowAt = d.rowAt := by
    have hrow : (readOut u (darkCounted u d)).rowAt = (darkCounted u d).rowAt := rfl
    rw [hrow, Dev.rowAt, ary_darkCounted, Dev.rowAt]
  rw [frameRead_eq]
  exact ite_keeps Dev.rowAt ((placeAll_keeps rowAt_kept ..).trans hread) hread

theorem complete_frameRead : (frameRead u d).ary.complete = true := by
  rw [frameRead_eq]
  split
  · exact complete_of_clock (placeAll_keeps clock_kept ..)
  · rfl

theorem reading_frameRead : ((frameRead u d).frame u).reading = false := by
  have hread : ((readOut u (darkCounted u d)).frame u).reading = false := by
    have hframe : (readOut u (darkCounted u d)).frame u = ((darkCounted u d).mapFrame u fun f =>
      { f with reading := false }).frame u := rfl
    rw [hframe, Dev.mapFrame, frame_setFrame, if_pos rfl]
  rw [frameRead_eq]
  split
  · exact (placeAll_keeps (reading_kept u) ..).trans hread
  · exact hread

end

theorem rowAt_clockBoundary (u pass offered now : Nat) (d : Dev) :
    (clockBoundary u pass offered now d).rowAt = (pass, offered, now) := by
  unfold clockBoundary
  dsimp only
  have hall : ∀ (es : List Nat) (e : Dev) (f : ArySt → ArySt), (f e.ary).pass = pass → (f e.ary).offered = offered →
      (f e.ary).lastB = now → (strobeAll u es now (e.onAry f)).rowAt = (pass, offered, now) := by
    intro es e f hpass hoff hlast
    rw [rowAt_of_clock (clock_strobeAll ..), Dev.rowAt, Dev.onAry_ary, hpass, hoff, hlast]
  split
  · exact (rowAt_frameRead ..).trans (hall _ _ _ rfl rfl rfl)
  · exact hall _ _ _ rfl rfl rfl

theorem rowBoundary_next {d : Dev} {u : Nat} (now : Nat) (hcur : d.ary.cur = some u) (hcomp : d.ary.complete = false)
    (hoff : d.ary.offered < d.clockedRows u) :
    rowBoundary now d = clockBoundary u d.ary.pass (d.ary.offered + 1) now d := by
  simp only [rowBoundary, hcur, hcomp, hoff, Bool.false_eq_true, if_true, if_false]

theorem rowBoundary_none {d : Dev} (now : Nat) (h : d.ary.cur = none ∨ d.ary.complete = true) : rowBoundary now d = d := by
  unfold rowBoundary
  split
  · rfl
  next u hcur => rw [hcur] at h; exact if_pos (h.resolve_left nofun)

theorem stripTimeout_ends {d : Dev} {u : Nat} (hcur : d.ary.cur = some u) (hs : (d.frame u).sched = schedSTRIP)
    (hcomp : d.ary.complete = false) (hout : d.stripsOut = []) : stripTimeout d = frameRead u d := by
  unfold stripTimeout
  rw [hcur]
  exact if_pos ⟨hs, hcomp, hout⟩

/-! ## The preamble -/

/-- An ADC's column offset is replaced. -/
def Dev.setOfs (d : Dev) (a : Nat) (v : Rat) : Dev := d.onAry fun x => { x with ofs := SMap.set noOfs x.ofs a v }

theorem colOfs_setOfs (d : Dev) (a b : Nat) (v : Rat) : (d.setOfs a v).colOfs b = if b = a then v else d.colOfs b :=
  SMap.get_set ..

/-- The preamble of one ADC. -/
theorem preamble_one {d : Dev} {a : Fin 24576} (ds : List Int) (hframe : d.inFrame = true)
    (hon : adcOff (d.adcDrv a) (a % 128) = false) :
    preamble [(a, ds)] d = (d.setOfs a (ofsUpdate d.ary.fresh (d.a ARY_COL_OFS_CFG_K) (d.colOfs a)
      (ds.foldl (· + ·) 0 : Int))).onAry fun x => { x with freshUsed := x.fresh } := by
  simp only [preamble, hframe, Bool.true_eq_false, if_false, List.foldl_cons, List.foldl_nil, hon, Bool.false_eq_true,
    Dev.setOfs]

/-! ## The skid buffer -/

theorem skid_setSkid_same (a : ArySt) (bank : Fin 2) (l : List SkidRow) : (a.setSkid bank l).skid bank = l := by
  fin_cases bank
  · rfl
  · rfl

theorem skid_setSkid_other (a : ArySt) (bank : Fin 2) (l : List SkidRow) :
    (a.setSkid bank l).skid (1 - bank.val) = a.skid (1 - bank.val) := by
  fin_cases bank
  · rfl
  · rfl

theorem ary_peakI (d : Dev) (F : Fld) (i k v : Nat) : (d.peakI F i k v).ary = d.ary :=
  ite_keeps Dev.ary (Dev.setFi_ary ..) rfl

theorem takeRegs_peakI (d : Dev) (F : Fld) (i k v : Nat) : d.peakI F i k v = takeRegs (d.peakI F i k v) d := by
  unfold Dev.peakI
  split
  · exact takeRegs_setFi ..
  · rfl

theorem onlyWords_peakI (d : Dev) {F : Fld} {i k : Nat} {as : List Nat} (h : F.addr i k ∈ as) (v : Nat) :
    onlyWords d (d.peakI F i k v) as := by
  unfold Dev.peakI
  split
  · exact onlyWords_setFi _ h _
  · exact onlyWords_refl _ _

/-- The codes of the row that a strobe in flight awaits enter the skid buffer of its bank. -/
def Dev.skidEnters (d : Dev) (w : StrobeRow) (bank : Nat) (cs : List (BitVec 12 × BitVec 12)) : Dev :=
  let r : SkidRow := ⟨d.rowSegs w w.segs cs⟩
  d.onAry fun a => { (a.setSkid bank (d.ary.skid bank ++ [r])) with waiting := a.waiting.erase w }

theorem skid_skidEnters_same (d : Dev) (w : StrobeRow) (bank : Fin 2) (cs : List (BitVec 12 × BitVec 12)) :
    (d.skidEnters w bank cs).ary.skid bank = d.ary.skid bank ++ [⟨d.rowSegs w w.segs cs⟩] :=
  skid_setSkid_same ..

theorem skid_skidEnters_other (d : Dev) (w : StrobeRow) (bank : Fin 2) (cs : List (BitVec 12 × BitVec 12)) :
    (d.skidEnters w bank cs).ary.skid (1 - bank.val) = d.ary.skid (1 - bank.val) :=
  skid_setSkid_other ..

/-- A row that enters a skid buffer below its twelfth row. -/
theorem rowResult_enters {d : Dev} {bank : Nat} {w : StrobeRow} (cs : List (BitVec 12 × BitVec 12))
    (hw : (d.ary.waiting.find? fun w => w.bank = bank) = some w) (hlen : (d.ary.skid bank).length ≠ 11) :
    rowResult bank cs d = (d.skidEnters w bank cs).peakI ING_SKID_PEAK 0 0
      (d.ary.skid bank ++ [(⟨d.rowSegs w w.segs cs⟩ : SkidRow)]).length := by
  unfold rowResult
  rw [hw]
  refine if_neg ?_
  rw [List.length_append]
  simpa using hlen

theorem rowResult_none {d : Dev} {bank : Nat} (cs : List (BitVec 12 × BitVec 12))
    (hw : (d.ary.waiting.find? fun w => w.bank = bank) = none) : rowResult bank cs d = d := by
  unfold rowResult
  rw [hw]

end Sys2Proof.Machine

open Sys2Proof Sys2Proof.Machine

/-- Settles O24: a strobe changes nothing of the row clock's place, so a boundary leaves the place it offers. -/
theorem rowClockOffersBoundaries : Obligations.RowClockOffersBoundaries := by
  unfold Obligations.RowClockOffersBoundaries
  refine ⟨?next, ?idle, ?timeout, ?preamble, ?result, ?noRow⟩
  case next =>
    intro ph u s hcur hcomp hoff
    refine ⟨_, runs_onDev (c := .rowBoundary ph) (f := fun d => rowBoundary (d.cyc + ph) d) rfl rfl, ?_⟩
    have hat : (rowBoundary (s.dev.cyc + ph) s.dev).rowAt = (s.dev.ary.pass, s.dev.ary.offered + 1, s.dev.cyc + ph) := by
      rw [rowBoundary_next _ hcur hcomp hoff, rowAt_clockBoundary]
    simp only [Dev.rowAt, Prod.mk.injEq] at hat
    obtain ⟨hpass, hoffered, hlast⟩ := hat
    exact ⟨hoffered, hpass, hlast⟩
  case idle =>
    intro ph s h
    have hrun := runs_onDev (c := .rowBoundary ph) (f := fun d => rowBoundary (d.cyc + ph) d) (s := s) rfl rfl
    rwa [rowBoundary_none _ h] at hrun
  case timeout =>
    intro u s hcur hs hcomp hout
    refine ⟨_, runs_onDev (c := .stripFrameTimeout) (f := stripTimeout) rfl rfl, ?_⟩
    rw [stripTimeout_ends hcur hs hcomp hout]
    exact ⟨complete_frameRead .., reading_frameRead ..⟩
  case preamble =>
    intro a ds s hframe hon
    refine ⟨_, runs_onDev (c := .preambleDone [(a, ds)]) (f := preamble [(a, ds)]) rfl rfl, ?_⟩
    rw [preamble_one ds hframe hon]
    have hofs : ∀ (e : Dev) (b : Nat), (e.onAry fun x => { x with freshUsed := x.fresh }).colOfs b = e.colOfs b :=
      fun _ _ => rfl
    refine ⟨?_, fun b hb => ?_, rfl⟩
    · rw [hofs, colOfs_setOfs, if_pos rfl]
    · rw [hofs, colOfs_setOfs, if_neg hb]
  case result =>
    intro bank cs w s hw hlen
    refine ⟨_, runs_onDev (c := .rowResult bank cs) (f := rowResult bank cs) rfl rfl, ?_⟩
    rw [rowResult_enters cs hw hlen]
    refine ⟨?_, ?_, ?_, ?_, ?_⟩
    · rw [ary_peakI, skid_skidEnters_same]
    · rw [ary_peakI, skid_skidEnters_other]
    · exact congrArg ArySt.waiting (ary_peakI ..)
    · exact takeRegsAry_trans (takeRegsAry_onAry ..) (takeRegsAry_of_regs (takeRegs_peakI ..))
    · exact onlyWords_trans (onlyWords_of_regs (Dev.onAry_regs ..) _) (onlyWords_peakI _ (List.mem_singleton.mpr rfl) _)
  case noRow =>
    intro bank cs s hw
    have hrun := runs_onDev (c := .rowResult bank cs) (f := rowResult bank cs) (s := s) rfl rfl
    rwa [rowResult_none cs hw] at hrun

end

section
/-! SUPPORT. Proofs about the falls of RST and TX (R102 to R105, R128 to R130, R178): what the shutter of a tile changes
of the array, and what it counts. -/
namespace Sys2Proof.Machine

/-! ## Tiles -/

theorem tile_setTile (d : Dev) (t u : Nat) (x : TileSt) : (d.setTile t x).tile u = if u = t then x else d.tile u :=
  SMap.get_set ..

@[simp] theorem tile_setTile_same (d : Dev) (t : Nat) (x : TileSt) : (d.setTile t x).tile t = x :=
  (tile_setTile ..).trans (if_pos rfl)

theorem tile_setTile_ne (d : Dev) {t u : Nat} (h : u ≠ t) (x : TileSt) : (d.setTile t x).tile u = d.tile u :=
  (tile_setTile ..).trans (if_neg h)

theorem tile_of_tiles {d e : Dev} (h : e.ary.tiles = d.ary.tiles) (t : Nat) : e.tile t = d.tile t := by
  rw [Dev.tile, h, Dev.tile]

theorem tile_of_ary {d e : Dev} (h : e.ary = d.ary) (t : Nat) : e.tile t = d.tile t :=
  tile_of_tiles (congrArg ArySt.tiles h) t

/-! ### What a shutter writes of frames and events reaches no tile, no active field and no register -/

/-- The tiles, the active fields and the registers. -/
def Dev.shutters (d : Dev) : SMap TileSt × SMap Word × SMap Word := (d.ary.tiles, d.act, d.regs)

theorem shutters_flagTick (d : Dev) (k b : Nat) : (d.flagTick k b).shutters = d.shutters := by
  unfold Dev.flagTick
  split
  · rfl
  · exact ite_keeps Dev.shutters rfl rfl

theorem shutters_onceTick (d : Dev) (k code : Nat) (p : Page) (b : List Byte) :
    (d.onceTick k code p b).shutters = d.shutters := by
  have hemit : ∀ (e : Dev) (bs : List Byte), (e.emit code p bs).shutters = e.shutters := fun _ _ => rfl
  unfold Dev.onceTick
  split
  · exact ite_keeps Dev.shutters rfl ((hemit ..).trans rfl)
  · dsimp only
    exact ite_keeps Dev.shutters rfl ((hemit ..).trans rfl)

theorem tiles_of_shutters {d e : Dev} (h : e.shutters = d.shutters) : e.ary.tiles = d.ary.tiles := congrArg Prod.fst h
theorem regs_of_shutters {d e : Dev} (h : e.shutters = d.shutters) : e.regs = d.regs := congrArg (fun p => p.2.2) h

/-! ### Active fields -/

theorem ai_congr {d e : Dev} (h : e.act = d.act) (F : Fld) (i k : Nat) : e.ai F i k = d.ai F i k := by
  rw [Dev.ai, Dev.actWord, h, Dev.ai, Dev.actWord]

theorem sched_congr {d e : Dev} (h : e.act = d.act) : e.sched = d.sched := ai_congr h ..

theorem readMask_congr {d e : Dev} (h : e.act = d.act) (t : Nat) : e.readMask t = d.readMask t := by
  simp only [Dev.readMask, ai_congr h]

theorem rowsToRead_congr {d e : Dev} (h : e.act = d.act) (t : Nat) : e.rowsToRead t = d.rowsToRead t := by
  have ha : e.a = d.a := funext fun F => ai_congr h F 0 0
  rw [Dev.rowsToRead, readMask_congr h, sched_congr h, ha, Dev.rowsToRead]

theorem txBlocked_congr {d e : Dev} (h : e.act = d.act) (ht : e.ary.tiles = d.ary.tiles) (t now : Nat) :
    e.txBlocked t now = d.txBlocked t now := by
  simp only [Dev.txBlocked, readMask_congr h, tile_of_tiles ht]

/-! ### One tile alone -/

theorem onlyTile_setTile (d : Dev) (t : Nat) (x : TileSt) : onlyTile d (d.setTile t x) t :=
  ⟨rfl, fun _ hu => tile_setTile_ne d hu x⟩

theorem onlyTile_trans {d e g : Dev} {t : Nat} (h : onlyTile d e t) (h' : onlyTile e g t) : onlyTile d g t :=
  ⟨frame_trans (fun x d => { d with ary := { d.ary with tiles := x.ary.tiles } }) (fun _ _ _ => rfl) h.1 h'.1,
    fun u hu => (h'.2 u hu).trans (h.2 u hu)⟩

theorem regs_of_onlyTile {d e : Dev} {t : Nat} (h : onlyTile d e t) : e.regs = d.regs :=
  (congrArg Dev.regs h.1).trans rfl

theorem act_of_onlyTile {d e : Dev} {t : Nat} (h : onlyTile d e t) : e.act = d.act := (congrArg Dev.act h.1).trans rfl

/-- One tile, after register words. -/
theorem onlyTile_withRegs {d e g : Dev} {t : Nat} (h : e = takeRegs e d) (h' : onlyTile e g t) :
    onlyTile { d with regs := g.regs } g t := by
  rw [regs_of_onlyTile h']
  rwa [h] at h'

/-! ## A pulse that is too short (R103) -/

/-- A pulse that is carried out later than it was asked for is counted. -/
def shortened (now fall : Nat) (d : Dev) : Dev := if now < fall then d.bump ARY_PULSE_SHORT else d

theorem takeRegs_shortened (now fall : Nat) (d : Dev) : shortened now fall d = takeRegs (shortened now fall d) d := by
  unfold shortened
  split
  · exact takeRegs_setFi ..
  · rfl

theorem onlyWords_shortened (now fall : Nat) (d : Dev) :
    onlyWords d (shortened now fall d) [ARY_PULSE_SHORT.addr 0 0] := by
  unfold shortened
  split
  · exact onlyWords_bumpI d (List.mem_singleton.mpr rfl)
  · exact onlyWords_refl _ _

theorem f_shortened (now fall : Nat) (d : Dev) :
    (shortened now fall d).f ARY_PULSE_SHORT = (d.f ARY_PULSE_SHORT + if now < fall then 1 else 0) % 2 ^ 32 := by
  unfold shortened
  split
  · exact Dev.fi_bumpI_same d rfl rfl 0 0
  · exact (Nat.mod_eq_of_lt (bitsOf_lt ..)).symm

theorem ary_shortened (now fall : Nat) (d : Dev) : (shortened now fall d).ary = d.ary :=
  ite_keeps Dev.ary (Dev.setFi_ary ..) rfl

theorem act_shortened (now fall : Nat) (d : Dev) : (shortened now fall d).act = d.act :=
  ite_keeps Dev.act (Dev.setFi_act ..) rfl

theorem txEnd_eq (rst now : Nat) (d : Dev) :
    txEnd rst now d = (max now (rst + 300), shortened now (max now (rst + 300)) d) := rfl

/-- A fall that is not too early is counted nowhere. -/
theorem txEnd_late {rst now : Nat} (h : rst + 300 ≤ now) (d : Dev) : txEnd rst now d = (now, d) := by
  rw [txEnd_eq, Nat.max_eq_left h, shortened, if_neg (Nat.lt_irrefl _)]

/-! ## RST -/

/-- The events of a tile with one replaced. -/
def TileSt.exchange (x : TileSt) (v w : ShutEv) : TileSt :=
  { x with events := x.events.map fun u => if u = v then w else u }

theorem tile_replaceEvent (t : Nat) (v w : ShutEv) (d : Dev) : (replaceEvent t v w d).tile t = (d.tile t).exchange v w :=
  tile_setTile_same ..

theorem onlyTile_replaceEvent (t : Nat) (v w : ShutEv) (d : Dev) : onlyTile d (replaceEvent t v w d) t :=
  onlyTile_setTile ..

/-- The earliest cycle at which RST may fall. -/
def TileSt.rstAt (x : TileSt) (now : Nat) : Nat := match x.lastTx with | some l => max now (l + 150) | none => now

/-- RST of an exposure has fallen. -/
def exposureBegins (t rst : Nat) (v : ShutEv) (d : Dev) : Dev :=
  (replaceEvent t v { v with st := .running rst } d).setTile t
    { (replaceEvent t v { v with st := .running rst } d).tile t with cgs := v.cg }

theorem rstFall_begins {d : Dev} {t sub : Nat} {v : ShutEv} (now : Nat) (hv : (d.tile t).nextArmed sub = some v)
    (hs : d.pwr.suspended = false) (hl : (d.tile t).events.any ShutEv.live = false) :
    rstFall t sub now d = exposureBegins t ((d.tile t).rstAt now) v (shortened now ((d.tile t).rstAt now) d) := by
  unfold rstFall
  dsimp only
  rw [hv]
  dsimp only
  rw [hs, hl]
  rfl

theorem onlyTile_exposureBegins (t rst : Nat) (v : ShutEv) (d : Dev) : onlyTile d (exposureBegins t rst v d) t :=
  onlyTile_trans (onlyTile_replaceEvent ..) (onlyTile_setTile ..)

theorem tile_exposureBegins (t rst : Nat) (v : ShutEv) (d : Dev) :
    (exposureBegins t rst v d).tile t = { (d.tile t).exchange v { v with st := .running rst } with cgs := v.cg } := by
  rw [exposureBegins, tile_setTile_same, tile_replaceEvent]

/-! ## TX -/

/-- What the end of an exposure leaves of its tile. -/
def TileSt.exposed (x : TileSt) (fall rows : Nat) (v : ShutEv) (dAct : Option Nat) : TileSt :=
  { x.exchange v { v with st := .done } with
    unread := rows, lastTx := some fall, dAct, strip := v.strip, trt := v.trt, began := v.beganAt }

/-- The exposure ends on a tile that takes it. -/
def exposureEnds (t fall : Nat) (v : ShutEv) (dAct : Option Nat) (d : Dev) : Dev :=
  let e := replaceEvent t v { v with st := .done } d
  e.setTile t { e.tile t with unread := e.rowsToRead t, lastTx := some fall, dAct, strip := v.strip,
                              trt := v.trt, began := v.beganAt }

theorem tile_exposureEnds (t fall : Nat) (v : ShutEv) (dAct : Option Nat) (d : Dev) :
    (exposureEnds t fall v dAct d).tile t = (d.tile t).exposed fall (d.rowsToRead t) v dAct := by
  have hact : (replaceEvent t v { v with st := .done } d).act = d.act := rfl
  rw [exposureEnds, tile_setTile_same, tile_replaceEvent, rowsToRead_congr hact, TileSt.exposed]

theorem onlyTile_exposureEnds (t fall : Nat) (v : ShutEv) (dAct : Option Nat) (d : Dev) :
    onlyTile d (exposureEnds t fall v dAct d) t :=
  onlyTile_trans (onlyTile_replaceEvent ..) (onlyTile_setTile ..)

/-- A strip event re-arms itself (R223). -/
def rearm (t : Nat) (v : ShutEv) (d : Dev) : Dev :=
  if d.sched = schedSTRIP ∧ v.line.isSome ∧ v.lapsed = false then
    addEvent t { v with st := .armed, frame := none, startAt := none, strip := 0, trt := 0 } d
  else d

theorem endExposure_eq (t fall : Nat) (v : ShutEv) (dAct : Option Nat) (d : Dev) : endExposure t fall v dAct d =
    rearm t v (exposureEnds t fall v dAct (if d.txBlocked t fall then txOverwrite t fall d else d)) := rfl

/-- No strip: the exposure ends and no event re-arms itself. -/
theorem endExposure_free {d : Dev} {t fall : Nat} (hb : d.txBlocked t fall = false) (hs : d.sched ≠ schedSTRIP) (v : ShutEv)
    (dAct : Option Nat) : endExposure t fall v dAct d = exposureEnds t fall v dAct d := by
  have hs' : (exposureEnds t fall v dAct d).sched ≠ schedSTRIP := by
    rwa [sched_congr (d := d) (act_of_onlyTile (onlyTile_exposureEnds ..))]
  rw [endExposure_eq, hb, if_neg (by decide)]
  exact if_neg fun h => hs' h.1

/-- The exposure ends on rows that await read: what it re-arms is added to the events alone. -/
theorem endExposure_blocked {d : Dev} {t fall : Nat} (hb : d.txBlocked t fall = true) (v : ShutEv) (dAct : Option Nat) :
    endExposure t fall v dAct d = exposureEnds t fall v dAct (txOverwrite t fall d) ∨
    ∃ w, endExposure t fall v dAct d = addEvent t w (exposureEnds t fall v dAct (txOverwrite t fall d)) := by
  rw [endExposure_eq, hb, if_pos rfl, rearm]
  split
  · exact .inr ⟨_, rfl⟩
  · exact .inl rfl

theorem tile_addEvent (t : Nat) (v : ShutEv) (d : Dev) :
    (addEvent t v d).tile t = { d.tile t with events := (d.tile t).events ++ [v] } := tile_setTile_same ..

theorem onlyTile_addEvent (t : Nat) (v : ShutEv) (d : Dev) : onlyTile d (addEvent t v d) t := onlyTile_setTile ..

theorem beganAt_running {x : TileSt} {sub : Nat} {v : ShutEv} {rst : Nat} (h : x.runningEv sub = some (v, rst)) :
    v.beganAt = rst := by
  obtain ⟨w, -, hw⟩ := List.exists_of_findSome?_eq_some h
  split at hw
  next r hr =>
    split at hw
    · obtain ⟨rfl, rfl⟩ : w = v ∧ r = rst := by simpa using hw
      rw [ShutEv.beganAt, hr]
    · cases hw
  · cases hw

theorem txFall_ends {d : Dev} {t sub now rst : Nat} {v : ShutEv} (hv : (d.tile t).runningEv sub = some (v, rst))
    (hs : d.pwr.suspended = false) (hh : v.hold = true → d.txBlocked t now = false) :
    txFall t sub now d = endExposure t (txEnd rst now d).1 v none (txEnd rst now d).2 := by
  unfold txFall
  rw [hv]
  dsimp only
  rw [hs, if_neg (by decide), if_neg fun h => by rw [hh h.1] at h; exact absurd h.2 (by decide)]

theorem txFall_held {d : Dev} {t sub now rst : Nat} {v : ShutEv} (hv : (d.tile t).runningEv sub = some (v, rst))
    (hs : d.pwr.suspended = false) (hh : v.hold = true) (hb : d.txBlocked t now = true) :
    txFall t sub now d = txHeld t v (replaceEvent t v { v with st := .held rst } d) := by
  unfold txFall
  rw [hv]
  dsimp only
  rw [hs, if_neg (by decide), if_pos ⟨hh, hb⟩]

/-! ### Rows that a TX overwrites -/

theorem ary_counted (d : Dev) (F G : Fld) : ((d.bump F).raise G).ary = d.ary :=
  (Dev.raiseBits_ary ..).trans (Dev.setFi_ary ..)

theorem tiles_markConverted (t : Nat) (a : ArySt) : (markConverted t a).tiles = a.tiles := by
  unfold markConverted
  split
  · rfl
  · rfl

/-- The tile whose rows a TX marks, and the row under conversion. -/
def overwritten (t fall : Nat) (d : Dev) : Dev :=
  let x := d.tile t
  let d := d.setTile t { x with ovw := x.ovw ||| x.unread }
  if x.convAt != 0 && decide (fall < x.convAt + 60) then d.onAry (markConverted t) else d

theorem txOverwrite_eq (t fall : Nat) (d : Dev) : txOverwrite t fall d =
    ((((overwritten t fall d).bump ARY_TX_OVERWRITE).raise ARY_IRQ_RAW_TX_OVERWRITE).onceTick
      (((overwritten t fall d).bump ARY_TX_OVERWRITE).raise ARY_IRQ_RAW_TX_OVERWRITE).ary.k 0x040 .ary (u16 t)) := rfl

theorem tile_overwritten (t fall : Nat) (d : Dev) :
    (overwritten t fall d).tile t = { d.tile t with ovw := (d.tile t).ovw ||| (d.tile t).unread } := by
  unfold overwritten
  dsimp only
  split
  · rw [tile_of_tiles (d := d.setTile t _) (tiles_markConverted ..), tile_setTile_same]
  · exact tile_setTile_same ..

theorem regs_overwritten (t fall : Nat) (d : Dev) : (overwritten t fall d).regs = d.regs :=
  ite_keeps Dev.regs rfl rfl

theorem tile_txOverwrite (t fall : Nat) (d : Dev) :
    (txOverwrite t fall d).tile t = { d.tile t with ovw := (d.tile t).ovw ||| (d.tile t).unread } := by
  rw [txOverwrite_eq, tile_of_tiles (tiles_of_shutters (shutters_onceTick ..)),
    tile_of_ary (ary_counted ..), tile_overwritten]

theorem f_txOverwrite (t fall : Nat) (d : Dev) :
    (txOverwrite t fall d).f ARY_TX_OVERWRITE = (d.f ARY_TX_OVERWRITE + 1) % 2 ^ 32 := by
  have hraise : ∀ e : Dev, (e.raise ARY_IRQ_RAW_TX_OVERWRITE).f ARY_TX_OVERWRITE = e.f ARY_TX_OVERWRITE :=
    fun e => Dev.fi_raiseBits _ _ _ _ _ _ (by decide)
  rw [txOverwrite_eq, Dev.f, Dev.fi_congr (regs_of_shutters (shutters_onceTick ..)), ← Dev.f, hraise, Dev.f, Dev.bump,
    Dev.fi_bumpI_same _ rfl rfl, Dev.fi_congr (regs_overwritten ..), Dev.f]

theorem onlyWords_txOverwrite (t fall : Nat) (d : Dev) : onlyWords d (txOverwrite t fall d) [0x10F08, 0x10010] := by
  rw [txOverwrite_eq]
  refine onlyWords_regs ?_ (regs_of_shutters (shutters_onceTick ..))
  exact onlyWords_trans (onlyWords_of_regs (regs_overwritten ..) _) (onlyWords_trans
    (onlyWords_bumpI _ (F := ARY_TX_OVERWRITE) (i := 0) (k := 0) (by decide)) (onlyWords_raiseBits _ (by decide) _))

/-! ### Exposures that are held -/

/-- The status of an exposure that is held. -/
theorem txHeld_rules (t : Nat) (v : ShutEv) (d : Dev) :
    (txHeld t v d).tile t = d.tile t ∧ (txHeld t v d).f EXP_TX_HELD = (d.f EXP_TX_HELD + 1) % 2 ^ 32 ∧
      onlyWords d (txHeld t v d) [0x11F04, 0x11010] := by
  have hkeep : (txHeld t v d).shutters = ((d.bump EXP_TX_HELD).raise EXP_IRQ_RAW_TX_HELD).shutters := by
    unfold txHeld
    dsimp only
    split
    · exact (shutters_onceTick ..).trans (shutters_flagTick ..)
    · rfl
  have hraise : ∀ e : Dev, (e.raise EXP_IRQ_RAW_TX_HELD).f EXP_TX_HELD = e.f EXP_TX_HELD :=
    fun e => Dev.fi_raiseBits _ _ _ _ _ _ (by decide)
  refine ⟨?_, ?_, ?_⟩
  · rw [tile_of_tiles (tiles_of_shutters hkeep), tile_of_ary (ary_counted ..)]
  · rw [Dev.f, Dev.fi_congr (regs_of_shutters hkeep), ← Dev.f, hraise, Dev.f, Dev.bump, Dev.fi_bumpI_same _ rfl rfl, Dev.f]
  · exact onlyWords_regs (onlyWords_trans (onlyWords_bumpI _ (F := EXP_TX_HELD) (i := 0) (k := 0) (by decide))
      (onlyWords_raiseBits _ (by decide) _)) (regs_of_shutters hkeep)

theorem txRelease_ends {d : Dev} {t now rst : Nat} {v : ShutEv}
    (hv : ((d.tile t).events.findSome? fun v => match v.st with | .held r => some (v, r) | _ => none) = some (v, rst))
    (hs : d.pwr.suspended = false) (hb : d.txBlocked t now = false) :
    txRelease t now d = endExposure t (txEnd rst now d).1 v (some ((txEnd rst now d).1 - rst)) (txEnd rst now d).2 := by
  unfold txRelease
  split
  next hn => exact nomatch hn.symm.trans hv
  next w r hw =>
    obtain ⟨rfl, rfl⟩ : w = v ∧ r = rst := by simpa using hw.symm.trans hv
    rw [hs, if_neg (by decide), hb, if_neg (by decide)]

/-- A tile that takes an exposure takes it later too. -/
theorem txBlocked_later {d : Dev} {t now later : Nat} (h : d.txBlocked t now = false) (hle : now ≤ later) :
    d.txBlocked t later = false := by
  simp only [Dev.txBlocked, Bool.and_eq_false_iff, Bool.or_eq_false_iff, decide_eq_false_iff_not] at h ⊢
  exact h.imp_right fun ⟨hu, hc⟩ => ⟨hu, hc.imp_right fun hc => by omega⟩

end Sys2Proof.Machine

open Sys2Proof Sys2Proof.Machine

/-- Settles O25: each fall changes its tile alone, but for the words that count it. -/
theorem exposuresRunInTiles : Obligations.ExposuresRunInTiles := by
  unfold Obligations.ExposuresRunInTiles
  refine ⟨?rst, ?tx, ?overwrite, ?held, ?release⟩
  case rst =>
    intro t sub ph v s hv hs hl
    have hbegin := rstFall_begins (s.dev.cyc + ph) hv hs hl
    refine ⟨_, (s.dev.tile t).rstAt (s.dev.cyc + ph),
      runs_onDev (c := .shutterRstFall t sub ph) (f := fun d => rstFall t sub (d.cyc + ph) d) rfl hbegin, ?_, ?_, ?_, rfl, ?_⟩
    · exact onlyTile_withRegs (takeRegs_shortened ..) (onlyTile_exposureBegins ..)
    · exact onlyWords_regs (onlyWords_shortened _ _ _) (regs_of_onlyTile (onlyTile_exposureBegins ..))
    · rw [Dev.f, Dev.fi_congr (regs_of_onlyTile (onlyTile_exposureBegins ..)), ← Dev.f, f_shortened]
    · rw [tile_exposureBegins, tile_of_ary (ary_shortened ..)]
      rfl
  case tx =>
    intro t sub ph v rst s hv hs hstrip hrst hb hh
    have hend := txFall_ends hv hs hh
    rw [txEnd_late hrst, endExposure_free hb hstrip] at hend
    refine ⟨_, runs_onDev (c := .shutterTxFall t sub ph) (f := fun d => txFall t sub (d.cyc + ph) d) rfl hend,
      onlyTile_exposureEnds .., ?_⟩
    rw [tile_exposureEnds]
    exact ⟨rfl, rfl, rfl, rfl, beganAt_running hv, rfl⟩
  case overwrite =>
    intro t sub ph v rst s hv hs hh hrst hb
    have hend := txFall_ends (now := s.dev.cyc + ph) hv hs fun h => by rw [hh] at h; cases h
    rw [txEnd_late hrst] at hend
    refine ⟨_, runs_onDev (c := .shutterTxFall t sub ph) (f := fun d => txFall t sub (d.cyc + ph) d) rfl hend, ?_⟩
    dsimp only
    have hregs : (endExposure t (s.dev.cyc + ph) v none s.dev).regs = (txOverwrite t (s.dev.cyc + ph) s.dev).regs := by
      obtain h | ⟨w, h⟩ := endExposure_blocked hb v none
      · rw [h, regs_of_onlyTile (onlyTile_exposureEnds ..)]
      · rw [h, regs_of_onlyTile (onlyTile_addEvent ..), regs_of_onlyTile (onlyTile_exposureEnds ..)]
    have htile : ((endExposure t (s.dev.cyc + ph) v none s.dev).tile t).ovw = (s.dev.tile t).ovw ||| (s.dev.tile t).unread ∧
        ((endExposure t (s.dev.cyc + ph) v none s.dev).tile t).lastTx = some (s.dev.cyc + ph) := by
      obtain h | ⟨w, h⟩ := endExposure_blocked hb v none
      · rw [h, tile_exposureEnds, tile_txOverwrite]
        exact ⟨rfl, rfl⟩
      · rw [h, tile_addEvent, tile_exposureEnds, tile_txOverwrite]
        exact ⟨rfl, rfl⟩
    refine ⟨htile.1, htile.2, ?_, onlyWords_regs (onlyWords_txOverwrite _ _ _) hregs⟩
    rw [Dev.f, Dev.fi_congr hregs, ← Dev.f, f_txOverwrite]
  case held =>
    intro t sub ph v rst s hv hs hh hb
    refine ⟨_, runs_onDev (c := .shutterTxFall t sub ph) (f := fun d => txFall t sub (d.cyc + ph) d) rfl
      (txFall_held hv hs hh hb), ?_⟩
    obtain ⟨htile, hf, hwords⟩ := txHeld_rules t v (replaceEvent t v { v with st := .held rst } s.dev)
    refine ⟨?_, ?_, ?_⟩
    · rw [htile, tile_replaceEvent]
      rfl
    · rw [hf, Dev.f, Dev.fi_congr (regs_of_onlyTile (onlyTile_replaceEvent ..)), Dev.f]
    · exact onlyWords_trans (onlyWords_of_regs (regs_of_onlyTile (onlyTile_replaceEvent ..)) _) hwords
  case release =>
    intro t ph v rst s hv hs hstrip hb
    have hend := txRelease_ends hv hs hb
    have hb' : (shortened (s.dev.cyc + ph) (max (s.dev.cyc + ph) (rst + 300)) s.dev).txBlocked t
        (max (s.dev.cyc + ph) (rst + 300)) = false := by
      rw [txBlocked_congr (act_shortened ..) (congrArg ArySt.tiles (ary_shortened ..))]
      exact txBlocked_later hb (Nat.le_max_left ..)
    rw [txEnd_eq, endExposure_free hb' (by rwa [sched_congr (act_shortened ..)])] at hend
    refine ⟨_, max (s.dev.cyc + ph) (rst + 300),
      runs_onDev (c := .txHoldRelease t ph) (f := fun d => txRelease t (d.cyc + ph) d) rfl hend, rfl, ?_, ?_, ?_, ?_⟩
    · exact onlyTile_withRegs (takeRegs_shortened ..) (onlyTile_exposureEnds ..)
    · exact onlyWords_regs (onlyWords_shortened _ _ _) (regs_of_onlyTile (onlyTile_exposureEnds ..))
    · rw [Dev.f, Dev.fi_congr (regs_of_onlyTile (onlyTile_exposureEnds ..)), ← Dev.f, f_shortened]
    · rw [tile_exposureEnds, rowsToRead_congr (act_shortened ..)]
      exact ⟨rfl, rfl, rfl⟩

end

section
/-! SUPPORT. Proofs about SHUT and the pixel rails (R115, R122, R176, R177, R190): arming a sub-exposure writes its tile
and the words of a raised duration, and leaves the timing that places it. -/
namespace Sys2Proof.Machine

/-! ## What places a pass -/

/-- Two devices time their frames alike: they differ in flags of frames, in flags kept for later frames, and in registers
other than the row extension. -/
structure SameTiming (d e : Dev) : Prop where
  act : e.act = d.act
  ext : e.rowExt = d.rowExt
  ary : ∃ pf, e.ary = { d.ary with preFlags := pf }
  frame : ∀ u, ∃ fl, e.frame u = { d.frame u with flags := fl }

theorem SameTiming.refl (d : Dev) : SameTiming d d := ⟨rfl, rfl, ⟨_, rfl⟩, fun _ => ⟨_, rfl⟩⟩

theorem SameTiming.trans {d e g : Dev} (h : SameTiming d e) (h' : SameTiming e g) : SameTiming d g where
  act := h'.act.trans h.act
  ext := h'.ext.trans h.ext
  ary := by
    obtain ⟨pf, hary⟩ := h.ary
    obtain ⟨pf', hary'⟩ := h'.ary
    exact ⟨pf', by rw [hary', hary]⟩
  frame u := by
    obtain ⟨fl, hframe⟩ := h.frame u
    obtain ⟨fl', hframe'⟩ := h'.frame u
    exact ⟨fl', by rw [hframe', hframe]⟩

theorem SameTiming.setFi (d : Dev) {F : Fld} {i k : Nat} (hF : F.lo ≤ F.hi) (h32 : F.hi < 32) (hne : THM_ROW_EXT_E.addr 0 0 ≠ F.addr i k) (v : Nat) :
    SameTiming d (d.setFi F i k v) :=
  ⟨Dev.setFi_act .., Dev.fi_setFi_ne _ _ _ _ _ _ _ _ hF h32 (by decide) (.inl hne), ⟨_, Dev.setFi_ary ..⟩, fun _ => ⟨_, rfl⟩⟩

theorem SameTiming.raiseBits (d : Dev) {p : Page} (hne : THM_ROW_EXT_E.addr 0 0 ≠ p.base + 0x10) (b : Word) :
    SameTiming d (d.raiseBits p b) where
  act := Dev.raiseBits_act ..
  ext := Dev.fi_raiseBits _ _ _ _ _ _ hne
  ary := ⟨_, Dev.raiseBits_ary ..⟩
  frame u := ⟨_, by rw [Dev.frame, Dev.raiseBits_frames, Dev.frame]⟩

theorem SameTiming.flagTick (d : Dev) (k b : Nat) : SameTiming d (d.flagTick k b) := by
  unfold Dev.flagTick
  split
  case h_1 u _ =>
    refine ⟨rfl, rfl, ⟨_, rfl⟩, fun w => ?_⟩
    rw [Dev.flagFrame, Dev.mapFrame, frame_setFrame]
    split
    case isTrue h => exact ⟨_, by rw [h, Frame.flag]⟩
    case isFalse => exact ⟨_, rfl⟩
  case h_2 =>
    split
    · exact .refl d
    · exact ⟨rfl, rfl, ⟨_, rfl⟩, fun _ => ⟨_, rfl⟩⟩

section
variable {d e : Dev} (h : SameTiming d e)
include h

theorem SameTiming.a (F : Fld) : e.a F = d.a F := ai_congr h.act ..

theorem SameTiming.k : e.ary.k = d.ary.k := by obtain ⟨_, hary⟩ := h.ary; rw [hary]

theorem SameTiming.inFrame : e.inFrame = d.inFrame := by
  obtain ⟨_, hary⟩ := h.ary
  rw [Dev.inFrame, hary, Dev.inFrame]

theorem SameTiming.tRow : e.tRow = d.tRow := by rw [Dev.tRow, h.a, Dev.tRow]

theorem SameTiming.curRows : e.curRows = d.curRows := by
  obtain ⟨_, hary⟩ := h.ary
  unfold Dev.curRows
  rw [hary, sched_congr h.act, h.a]
  dsimp only
  split
  next u _ =>
    obtain ⟨_, hframe⟩ := h.frame u
    rw [hframe]
  · rfl

theorem SameTiming.curM : e.curM = d.curM := by
  obtain ⟨_, hary⟩ := h.ary
  unfold Dev.curM Dev.mSub
  rw [hary, h.a]
  dsimp only
  split
  next u _ =>
    obtain ⟨_, hframe⟩ := h.frame u
    rw [hframe]
  · rfl

theorem SameTiming.curPer : e.curPer = d.curPer := by
  obtain ⟨_, hary⟩ := h.ary
  unfold Dev.curPer
  rw [hary, h.tRow, h.ext]
  dsimp only
  split
  next u _ =>
    obtain ⟨_, hframe⟩ := h.frame u
    rw [hframe]
  · rfl

theorem SameTiming.passStart (i : Nat) : e.passStart i = d.passStart i := by
  obtain ⟨_, hary⟩ := h.ary
  unfold Dev.passStart Dev.nextBoundary
  rw [h.curRows, h.curPer, hary]

theorem SameTiming.nextStart : e.nextStart = d.nextStart := by
  obtain ⟨_, hary⟩ := h.ary
  unfold Dev.nextStart Dev.frameEnd
  rw [h.inFrame, sched_congr h.act, h.a, h.passStart, h.curM, hary]

theorem SameTiming.predStart (k i : Nat) : e.predStart k i = d.predStart k i := by
  unfold Dev.predStart
  rw [h.k, h.inFrame, h.passStart, h.nextStart, h.a, h.tRow, h.ext]

end

/-! ## Durations that are raised -/

/-- What a raised duration leaves: the timing, the tiles, and every word but those that report it. -/
theorem durClamp_rules (v : ShutEv) (d : Dev) : SameTiming d (durClamp v d) ∧ (durClamp v d).ary.tiles = d.ary.tiles ∧
    onlyWords d (durClamp v d) [EXP_DUR_CLAMP.addr 0 0, 0x11010] := by
  have hcount : SameTiming d ((d.bump EXP_DUR_CLAMP).raise EXP_IRQ_RAW_DUR_CLAMP) ∧
      ((d.bump EXP_DUR_CLAMP).raise EXP_IRQ_RAW_DUR_CLAMP).ary.tiles = d.ary.tiles ∧
      onlyWords d ((d.bump EXP_DUR_CLAMP).raise EXP_IRQ_RAW_DUR_CLAMP) [EXP_DUR_CLAMP.addr 0 0, 0x11010] :=
    ⟨(SameTiming.setFi d (by decide) (by decide) (by decide) _).trans (.raiseBits _ (by decide) _), congrArg ArySt.tiles (ary_counted ..),
      onlyWords_trans (onlyWords_bumpI _ (F := EXP_DUR_CLAMP) (i := 0) (k := 0) (by decide))
        (onlyWords_raiseBits _ (by decide) _)⟩
  unfold durClamp
  generalize (d.bump EXP_DUR_CLAMP).raise EXP_IRQ_RAW_DUR_CLAMP = e at hcount
  obtain ⟨htime, htiles, hwords⟩ := hcount
  dsimp only
  split
  · split
    · exact ⟨htime.trans (.flagTick ..), (tiles_of_shutters (shutters_flagTick ..)).trans htiles,
        onlyWords_regs hwords (regs_of_shutters (shutters_flagTick ..))⟩
    · exact ⟨htime, htiles, hwords⟩
  · exact ⟨.refl d, rfl, onlyWords_refl _ _⟩

/-! ## Arming -/

/-- The event that SHUT makes of a sub-exposure. -/
def Dev.shutEvent (d : Dev) (c : List Word) (sub : Nat) (frame line : Option Nat) (hold : Bool) : ShutEv :=
  { sub, frame, line, align := ctxAlign c, offset := ctxOffset c, slot := d.slotTick sub, dur := ctxDur c sub,
    gain := ctxG c sub, cg := (ctxCg c).testBit sub, hold, clamped := ctxDurRaw c sub < 300 }

/-- The frame that a base names. -/
def Dev.shutFrame (d : Dev) (base : EBase) : Nat := if base = .next then d.ary.k + 1 else d.ary.k

/-- Arm one sub-exposure for a frame or for a line. -/
def armAs (t : Nat) (c : List Word) (frame line : Option Nat) (hold : Bool) (now sub : Nat) (d : Dev) : Dev :=
  if 8 ≤ ((d.tile t).events.filter fun v => !v.finished).length ∨ (d.tile t).holds sub frame line then
    shutReject (t % 96) d
  else
    let v := d.shutEvent c sub frame line hold
    let d := durClamp v d
    match frame with
    | none => addEvent t v d
    | some k =>
      match d.predStart k sub with
      | some b => placeEvent t k b now v d
      | none => addEvent t { v with placed := false } d

theorem armOne_eq_trig (t : Nat) (c : List Word) (hold : Bool) (now sub : Nat) (d : Dev) :
    armOne t c .trig hold now sub d = armAs t c none (some (d.ai ENG_TRIG_CFG_LINE (t % 96) 0)) hold now sub d := rfl

theorem armOne_eq_frame {base : EBase} (h : base ≠ .trig) (t : Nat) (c : List Word) (hold : Bool) (now sub : Nat) (d : Dev) :
    armOne t c base hold now sub d = armAs t c (some (d.shutFrame base)) none hold now sub d := by
  cases base with
  | next => rfl
  | cur => rfl
  | trig => exact absurd rfl h

theorem armOne_trig {d : Dev} {t sub : Nat} (hroom : ((d.tile t).events.filter fun v => !v.finished).length < 8)
    (hnew : (d.tile t).holds sub none (some (d.ai ENG_TRIG_CFG_LINE (t % 96) 0)) = false) (c : List Word) (hold : Bool)
    (now : Nat) : armOne t c .trig hold now sub d =
      addEvent t (d.shutEvent c sub none (some (d.ai ENG_TRIG_CFG_LINE (t % 96) 0)) hold)
        (durClamp (d.shutEvent c sub none (some (d.ai ENG_TRIG_CFG_LINE (t % 96) 0)) hold) d) := by
  rw [armOne_eq_trig, armAs, if_neg fun h => h.elim (Nat.not_le.mpr hroom) (by rw [hnew]; decide)]

/-- A sub-exposure of a frame, before its fall is due. -/
theorem armOne_frame {d : Dev} {t sub now : Nat} {c : List Word} {base : EBase} (hbase : base ≠ .trig)
    (hroom : ((d.tile t).events.filter fun v => !v.finished).length < 8)
    (hnew : (d.tile t).holds sub (some (d.shutFrame base)) none = false)
    (hearly : ∀ b, d.predStart (d.shutFrame base) sub = some b →
      now < slotStart (ctxAlign c) (slotEnd b) (d.slotTick sub) (ctxDur c sub) (ctxOffset c)) (hold : Bool) :
    armOne t c base hold now sub d = addEvent t
      { d.shutEvent c sub (some (d.shutFrame base)) none hold with
        placed := (d.predStart (d.shutFrame base) sub).isSome }
      (durClamp (d.shutEvent c sub (some (d.shutFrame base)) none hold) d) := by
  have htime := (durClamp_rules (d.shutEvent c sub (some (d.shutFrame base)) none hold) d).1.predStart
    (d.shutFrame base) sub
  rw [armOne_eq_frame hbase, armAs, if_neg fun h => h.elim (Nat.not_le.mpr hroom) (by rw [hnew]; decide)]
  dsimp only
  rw [htime]
  cases hb : d.predStart (d.shutFrame base) sub with
  | none => rfl
  | some b => exact if_neg (not_le.mpr (hearly b hb))

/-- SHUT arms one sub-exposure alone. -/
theorem shutSubs_single {c : List Word} {base : EBase} {sub m : Nat} (i : Fin 4) (hbit : (ctxSub c).testBit i = true)
    (hm : i.val < m) (hsub : sub = 4 ∨ sub = i) (hbase : base = .trig → i = 0)
    (honly : ∀ j : Fin 4, j ≠ i → ¬ ((sub = 4 ∨ sub = j) ∧ (base ≠ .trig ∨ j = 0))) : shutSubs c base sub m = [i.val] := by
  have hpick : shutSubs c base sub m = (List.range 4).filter fun j => decide (j = i.val) := by
    refine List.filter_congr fun j hj => ?_
    have hj : j < 4 := List.mem_range.mp hj
    by_cases hji : j = i.val
    · subst hji
      have hlast : base ≠ .trig ∨ i.val = 0 := by
        by_cases hb : base = .trig
        · exact .inr (congrArg Fin.val (hbase hb))
        · exact .inl hb
      simpa [hbit, hm, hsub] using hlast
    · have hno := honly ⟨j, hj⟩ fun h => hji (congrArg Fin.val h)
      rw [decide_eq_false hji, Bool.eq_false_iff]
      intro hall
      simp only [Bool.and_eq_true, Bool.or_eq_true, decide_eq_true_eq, bne_iff_ne] at hall
      exact hno ⟨hall.1.2, hall.2.imp_right fun h0 => Fin.ext h0⟩
  rw [hpick]
  fin_cases i
  · rfl
  · rfl
  · rfl
  · rfl

theorem runs_engShut {e : Fin 96} {base : EBase} {sub : Fin 5} {hold : Bool} {dly : Fin 32} {s : State} (ph : Fin 3)
    (h : s.dev.engReady e (.shut base sub hold) dly = true) : runs (.engShut e ph base sub hold dly) s
      ((engShut e base sub hold (s.dev.cyc + ph) s.dev).engDone e dly) := runs_onDev rfl (if_pos h)

theorem engShut_held {d : Dev} {e : Nat} {base : EBase} {sub : Nat} (hheld : ctxRstHold (d.engine e).c = true)
    (hsub : base = .trig → sub = 0 ∨ sub = 4) (hold : Bool) (now : Nat) : engShut e base sub hold now d = d := by
  unfold engShut
  dsimp only
  rw [if_neg fun h => (hsub h.1).elim h.2.1 h.2.2, if_pos hheld]

theorem engShut_arms {d : Dev} {e i : Nat} {base : EBase} {sub : Nat} (hheld : ctxRstHold (d.engine e).c = false)
    (hsub : base = .trig → sub = 0 ∨ sub = 4) (hsubs : shutSubs (d.engine e).c base sub d.mTick = [i]) (hold : Bool)
    (now : Nat) : engShut e base sub hold now d =
      armOne (tileNo e (d.engine e).cTy) (d.engine e).c base hold now i d := by
  unfold engShut
  dsimp only
  rw [if_neg fun h => (hsub h.1).elim h.2.1 h.2.2, hheld, if_neg (by decide), hsubs, List.foldl_cons, List.foldl_nil]

theorem engShut_rejects {d : Dev} (e : Nat) {sub : Nat} (h0 : sub ≠ 0) (h4 : sub ≠ 4) (hold : Bool) (now : Nat) :
    engShut e .trig sub hold now d = shutReject e d := if_pos ⟨rfl, h0, h4⟩

/-- An event added after a raised duration, and the engine done. -/
theorem armed_rules (t e dly : Nat) (v w : ShutEv) (d : Dev) :
    (((addEvent t v (durClamp w d)).engDone e dly).tile t).events = (d.tile t).events ++ [v] ∧
    (∀ u, u ≠ t → ((addEvent t v (durClamp w d)).engDone e dly).tile u = d.tile u) ∧
    onlyWords d ((addEvent t v (durClamp w d)).engDone e dly) [EXP_DUR_CLAMP.addr 0 0, 0x11010] := by
  obtain ⟨-, htiles, hwords⟩ := durClamp_rules w d
  have hary : ((addEvent t v (durClamp w d)).engDone e dly).ary = (addEvent t v (durClamp w d)).ary := Dev.setEngine_ary ..
  refine ⟨?_, fun u hu => ?_, ?_⟩
  · rw [tile_of_ary hary, tile_addEvent, tile_of_tiles htiles]
  · rw [tile_of_ary hary, (onlyTile_addEvent ..).2 u hu, tile_of_tiles htiles]
  · exact onlyWords_trans (onlyWords_regs hwords (regs_of_onlyTile (onlyTile_addEvent ..))) (onlyWords_engDone _ _ _ _ _)

/-! ## Rails -/

theorem evq_emit (d : Dev) (code : Nat) (p : Page) (b : List Byte) :
    ∃ x, (d.emit code p b).evq = d.evq ++ [x] ∧ x.code = code := ⟨_, rfl, rfl⟩

theorem pumpFault_rules (boost tgl : Bool) (d : Dev) :
    (pumpFault boost tgl d).pwr = { d.pwr with boostOut := d.pwr.boostOut || boost, tglOut := d.pwr.tglOut || tgl,
                                               suspended := true } ∧
    (pumpFault boost tgl d).f ARY_PUMP_DROP = (d.f ARY_PUMP_DROP + 1) % 2 ^ 32 ∧
    (∃ x, (pumpFault boost tgl d).evq = d.evq ++ [x] ∧ x.code = 0x042) ∧
    onlyRaised { d with pwr := (pumpFault boost tgl d).pwr } (pumpFault boost tgl d) [0x10010, 0x10F0C] := by
  unfold pumpFault
  dsimp only
  generalize hp : ({ d.pwr with boostOut := d.pwr.boostOut || boost, tglOut := d.pwr.tglOut || tgl, suspended := true } : PwrSt) = p
  have hpwr : (((({ d with pwr := p } : Dev).raise ARY_IRQ_RAW_PUMP_FAULT).bump ARY_PUMP_DROP).emit 0x042 .ary).pwr = p :=
    (Dev.emitSrc_pwr ..).trans ((Dev.setFi_pwr ..).trans (Dev.raiseBits_pwr ..))
  have hevq : ((({ d with pwr := p } : Dev).raise ARY_IRQ_RAW_PUMP_FAULT).bump ARY_PUMP_DROP).evq = d.evq :=
    (Dev.setFi_evq ..).trans (Dev.raiseBits_evq ..)
  have hemit := evq_emit ((({ d with pwr := p } : Dev).raise ARY_IRQ_RAW_PUMP_FAULT).bump ARY_PUMP_DROP) 0x042 .ary []
  rw [hevq] at hemit
  refine ⟨hpwr, ?_, hemit, ?_⟩
  · have hregs : ∀ e : Dev, (e.emit 0x042 .ary).f ARY_PUMP_DROP = e.f ARY_PUMP_DROP := fun _ => rfl
    rw [hregs, Dev.f, Dev.bump, Dev.fi_bumpI_same _ rfl rfl]
    have hraise : (({ d with pwr := p } : Dev).raise ARY_IRQ_RAW_PUMP_FAULT).fi ARY_PUMP_DROP 0 0 =
        ({ d with pwr := p } : Dev).fi ARY_PUMP_DROP 0 0 := Dev.fi_raiseBits _ _ _ _ _ _ (by decide)
    rw [hraise]
    rfl
  · rw [hpwr]
    exact onlyRaised_trans (onlyRaised_raiseBits _ (by decide) _) (onlyRaised_trans
      (onlyRaised_setFi _ (F := ARY_PUMP_DROP) (i := 0) (k := 0) (by decide) _) (onlyRaised_emitSrc ..))

/-- The shutters resume unless a rail is out. -/
def shuttersResume (d : Dev) : Dev :=
  if d.pwr.boostOut || d.pwr.tglOut then d else { d with pwr := { d.pwr with suspended := false } }

/-! ## Exposures that are lost -/

theorem flags_flagFrame (d : Dev) (u b : Nat) : ((d.flagFrame u b).frame u).flags.testBit b = true := by
  rw [Dev.flagFrame, Dev.mapFrame, frame_setFrame, if_pos rfl, Frame.flag, testBit_orBit_same]

theorem flagTick_table {d : Dev} {k u : Nat} (h : d.frameOfTick k = some u) (b : Nat) : d.flagTick k b = d.flagFrame u b := by
  unfold Dev.flagTick
  rw [h]

theorem tile_dropEvents (t : Nat) (p : ShutEv → Bool) (d : Dev) :
    (dropEvents t p d).tile t = { d.tile t with events := (d.tile t).events.filter fun v => !p v } := tile_setTile_same ..

/-- An exposure that is lost is marked in its frame. -/
theorem loseEvent_rules (t : Nat) (v : ShutEv) (d : Dev) :
    ((loseEvent t v d).tile t).events = (d.tile t).events.filter (fun w => w ≠ v) ∧
    (∀ k u, v.frame = some k → d.frameOfTick k = some u → ((loseEvent t v d).frame u).flags.testBit ffPIXEL_RAIL = true) ∧
    (loseEvent t v d).regs = d.regs ∧ (loseEvent t v d).evq = d.evq := by
  have hdrop : ((dropEvents t (fun w => w = v) d).tile t).events = (d.tile t).events.filter (fun w => w ≠ v) := by
    rw [tile_dropEvents]
    exact List.filter_congr fun w _ => by simp
  cases hv : v.frame with
  | none =>
    have hlose : loseEvent t v d = dropEvents t (fun w => w = v) d := by unfold loseEvent; rw [hv]
    rw [hlose]
    exact ⟨hdrop, nofun, rfl, rfl⟩
  | some k =>
    have hlose : loseEvent t v d = (dropEvents t (fun w => w = v) d).flagTick k ffPIXEL_RAIL := by
      unfold loseEvent; rw [hv]
    rw [hlose]
    refine ⟨?_, ?_, (regs_of_shutters (shutters_flagTick ..)).trans rfl, ?_⟩
    · rw [tile_of_tiles (tiles_of_shutters (shutters_flagTick ..)), hdrop]
    · intro k' u hk hu
      obtain rfl : k = k' := by simpa using hk
      rw [flagTick_table (d := dropEvents t (fun w => w = v) d) hu, flags_flagFrame]
    · unfold Dev.flagTick
      split
      · rfl
      · exact ite_keeps Dev.evq rfl rfl

theorem rstFall_suspended {d : Dev} {t sub : Nat} {v : ShutEv} (now : Nat) (hv : (d.tile t).nextArmed sub = some v)
    (hs : d.pwr.suspended = true) : rstFall t sub now d = loseEvent t v d := by
  unfold rstFall
  dsimp only
  rw [hv]
  exact if_pos hs

end Sys2Proof.Machine

open Sys2Proof Sys2Proof.Machine

/-- Settles O26. -/
theorem shuttersAreArmedAndSuspended : Obligations.ShuttersAreArmedAndSuspended := by
  unfold Obligations.ShuttersAreArmedAndSuspended
  refine ⟨?inReset, ?reject, ?edge, ?frame, ?fault, ?faultAgain, ?recover, ?resume, ?stays, ?lost⟩
  case inReset =>
    intro e ph base sub hold dly s h hheld hsub
    refine ⟨_, runs_engShut ph h, ?_⟩
    rw [engShut_held hheld (fun hb => (hsub hb).imp (congrArg Fin.val) (congrArg Fin.val))]
    refine ⟨onlyEngine_engDone ⟨rfl, fun _ _ => rfl⟩ .., ?_⟩
    rw [Dev.engine_engDone]
    exact EngSt.sameBuffers_complete ..
  case reject =>
    intro e ph sub hold dly s h h0 h4
    refine ⟨_, runs_engShut ph h, ?_⟩
    rw [engShut_rejects e (fun hv => h0 (Fin.ext hv)) (fun hv => h4 (Fin.ext hv))]
    have hcounter := engCounter_ne_irqRaw (F := ENG_SHUT_REJECT) rfl rfl (by decide) e
    have hpage : blkPage ENG_IRQ_RAW_SHUT_REJECT.blk e = .eng e := blkPage_eng e
    refine ⟨?_, ?_, ?_⟩
    · exact (Dev.setEngine_ary ..).trans ((Dev.raiseBits_ary ..).trans (Dev.setFi_ary ..))
    · rw [fi_engDone, shutReject, Dev.raiseI_def, hpage, Dev.fi_raiseBits _ _ _ _ _ _ hcounter, Dev.fi_bumpI_same _ rfl rfl]
    · refine onlyWords_trans (onlyWords_trans (onlyWords_bumpI _ (by simp)) (onlyWords_raiseBits _ ?_ _)) (onlyWords_engDone _ _ _ _ _)
      rw [hpage]
      simp
  case edge =>
    intro e ph sub hold dly c t s h hsub hc ht hheld hbit hroom hnew
    subst hc ht
    have hsub' : sub.val = 0 ∨ sub.val = 4 := hsub.imp (congrArg Fin.val) (congrArg Fin.val)
    have hsubs : shutSubs (s.dev.engine e).c .trig sub s.dev.mTick = [0] := shutSubs_single 0 hbit (Nat.succ_pos _)
      hsub'.symm (fun _ => rfl) fun j hj hall => hall.2.elim (fun hne => hne rfl) hj
    have hrun := runs_engShut ph h
    rw [engShut_arms hheld (fun _ => hsub') hsubs, armOne_trig hroom hnew] at hrun
    obtain ⟨htile, hother, hwords⟩ := armed_rules (tileNo e (s.dev.engine e).cTy) e dly
      (s.dev.shutEvent (s.dev.engine e).c 0 none (some (s.dev.ai ENG_TRIG_CFG_LINE (tileNo e (s.dev.engine e).cTy % 96) 0)) hold)
      (s.dev.shutEvent (s.dev.engine e).c 0 none (some (s.dev.ai ENG_TRIG_CFG_LINE (tileNo e (s.dev.engine e).cTy % 96) 0)) hold)
      s.dev
    exact ⟨_, _, hrun, htile, hother, rfl, rfl, rfl, rfl, rfl, rfl, rfl, rfl, hwords⟩
  case frame =>
    intro e ph base i hold dly c t k s h hbase hk hc ht hheld hbit hm hroom hnew hearly
    subst hc ht hk
    have hrun := runs_engShut ph h
    rw [Fin.val_castSucc, engShut_arms hheld (fun hb => absurd hb hbase) (shutSubs_single i hbit hm (.inr rfl) (fun hb => absurd hb hbase)
      fun j hj hall => hall.1.elim (fun h4 => absurd i.isLt (by omega))
        fun hij => hj (Fin.ext hij.symm)), armOne_frame hbase hroom hnew hearly] at hrun
    obtain ⟨htile, hother, hwords⟩ := armed_rules (tileNo e (s.dev.engine e).cTy) e dly
      { s.dev.shutEvent (s.dev.engine e).c i (some (s.dev.shutFrame base)) none hold with
        placed := (s.dev.predStart (s.dev.shutFrame base) i).isSome }
      (s.dev.shutEvent (s.dev.engine e).c i (some (s.dev.shutFrame base)) none hold) s.dev
    exact ⟨_, _, hrun, htile, hother, rfl, rfl, rfl, rfl, rfl, rfl, rfl, rfl, rfl, hwords⟩
  case fault =>
    intro boost tgl s hout hlevel
    refine ⟨_, runs_onDev rfl (if_pos ?_), pumpFault_rules boost tgl s.dev⟩
    rw [hout, hlevel]
    rfl
  case faultAgain =>
    intro boost tgl s hout
    refine runs_onDev rfl (if_neg ?_)
    rw [hout, Bool.false_and]
    decide
  case recover =>
    intro s hlevel
    exact ⟨_, runs_onDev rfl (if_pos hlevel), rfl, rfl⟩
  case resume =>
    intro s hb ht
    refine runs_onDev (c := .shutterResume) (f := shuttersResume) rfl (if_neg ?_)
    rw [hb, ht]
    decide
  case stays =>
    intro s h
    exact runs_onDev (c := .shutterResume) (f := shuttersResume) rfl (if_pos h)
  case lost =>
    intro t sub ph v s hv hs
    exact ⟨_, runs_onDev (c := .shutterRstFall t sub ph) (f := fun d => rstFall t sub (d.cyc + ph) d) rfl
      (rstFall_suspended _ hv hs), loseEvent_rules t v s.dev⟩

end

section
/-! SUPPORT. Proofs about the context table, its copy and its snapshot, and the auto-exposure loop (R142 to R153). -/
namespace Sys2Proof

/-! ## Sparse maps, joined and moved -/

theorem SMap.get_congr {α : Type} {d e : Nat → α} (m : SMap α) {k : Nat} (h : d k = e k) : SMap.get d m k = SMap.get e m k := by
  induction m with
  | nil => exact h
  | cons p m ih => rw [SMap.get, SMap.get, ih]

theorem SMap.get_append {α : Type} (d : Nat → α) (m n : SMap α) (k : Nat) :
    SMap.get d (m ++ n) k = SMap.get (SMap.get d n) m k := by
  induction m with
  | nil => rfl
  | cons p m ih => rw [List.cons_append, SMap.get, SMap.get, ih]

theorem SMap.get_absent {α : Type} (d : Nat → α) {m : SMap α} {k : Nat} (h : ∀ p ∈ m, p.1 ≠ k) : SMap.get d m k = d k := by
  induction m with
  | nil => rfl
  | cons p m ih =>
    rw [SMap.get, if_neg (h p List.mem_cons_self), ih fun q hq => h q (List.mem_cons_of_mem _ hq)]

/-- A list that gives a key one value reads it, though the entries that read as unlisted ones are left out. -/
theorem SMap.get_listed {α : Type} [DecidableEq α] (d : Nat → α) {m : SMap α} {k : Nat} {v : α}
    (hv : ∀ p ∈ m, p.1 = k → p.2 = v) (hk : (∃ p ∈ m, p.1 = k) ∨ v = d k) :
    SMap.get d (m.filter fun p => p.2 != d p.1) k = v := by
  induction m with
  | nil => exact (hk.resolve_left fun ⟨_, h, _⟩ => nomatch h).symm
  | cons p m ih =>
    have ih := ih fun q hq => hv q (List.mem_cons_of_mem _ hq)
    by_cases hp : p.1 = k
    · have hpv : p.2 = v := hv p List.mem_cons_self hp
      by_cases hd : v = d k
      · rw [List.filter_cons_of_neg (by simp [hpv, hp, hd]), ih (.inr hd)]
      · rw [List.filter_cons_of_pos (by simp [hpv, hp, hd]), SMap.get, if_pos hp, hpv]
    · have hk' : (∃ q ∈ m, q.1 = k) ∨ v = d k := hk.imp_left fun ⟨q, hq, hqk⟩ =>
        ⟨q, (List.mem_cons.mp hq).resolve_left fun he => hp (he ▸ hqk), hqk⟩
      by_cases hd : p.2 = d p.1
      · rw [List.filter_cons_of_neg (by simp [hd]), ih hk']
      · rw [List.filter_cons_of_pos (by simp [hd]), SMap.get, if_neg hp, ih hk']

/-- Entries moved from `src` on to `dst` on. -/
def SMap.moved {α : Type} [DecidableEq α] (d : Nat → α) (src dst : Nat) (rs base : SMap α) : SMap α :=
  rs.foldr (fun p m => SMap.set d m (p.1 - src + dst) p.2) base

theorem SMap.get_moved {α : Type} [DecidableEq α] (d : Nat → α) {src : Nat} (dst j : Nat) {rs : SMap α} (base : SMap α)
    (h : ∀ p ∈ rs, src ≤ p.1) :
    SMap.get d (SMap.moved d src dst rs base) (dst + j) = SMap.get (fun _ => SMap.get d base (dst + j)) rs (src + j) := by
  induction rs with
  | nil => rfl
  | cons p rs ih =>
    have hp := h p List.mem_cons_self
    rw [SMap.moved, List.foldr_cons, SMap.get_set, SMap.get, ← SMap.moved, ih fun q hq => h q (List.mem_cons_of_mem _ hq)]
    exact if_congr (by omega) rfl rfl

theorem SMap.get_moved_out {α : Type} [DecidableEq α] (d : Nat → α) {src dst size k : Nat} {rs : SMap α} (base : SMap α)
    (h : ∀ p ∈ rs, src ≤ p.1 ∧ p.1 < src + size) (hk : k < dst ∨ dst + size ≤ k) :
    SMap.get d (SMap.moved d src dst rs base) k = SMap.get d base k := by
  induction rs with
  | nil => rfl
  | cons p rs ih =>
    have hp := h p List.mem_cons_self
    rw [SMap.moved, List.foldr_cons, SMap.get_set, if_neg (by omega), ← SMap.moved,
      ih fun q hq => h q (List.mem_cons_of_mem _ hq)]

end Sys2Proof

namespace Sys2Proof.Machine

/-! ## Words of the table -/

theorem decodeAddr_ctx {b t i : Nat} (hb : b < 2) (ht : t < 6144) (hi : i < 4) :
    decodeAddr (ctxAddr b t i) = .ctx (b * 6144 + t) i := by
  unfold decodeAddr ctxAddr
  dsimp only
  rw [dif_neg (by omega), dif_neg (by omega), dif_neg (by omega), dif_neg (by omega), if_pos (by omega)]
  exact congrArg₂ Target.ctx (by omega) (by omega)

theorem resetWord_ctx {b t i : Nat} (hb : b < 2) (ht : t < 6144) (hi : i < 4) : resetWord (ctxAddr b t i) = ctxResetWord i := by
  rw [resetWord, decodeAddr_ctx hb ht hi]

theorem ctxAddr_toNat {b t i : Nat} (hb : b < 2) (ht : t < 6144) (hi : i < 4) :
    (BitVec.ofNat 24 (ctxAddr b t i)).toNat = ctxAddr b t i := by
  rw [BitVec.toNat_ofNat, Nat.mod_eq_of_lt]
  unfold ctxAddr
  omega

theorem ctxWord_eq (d : Dev) (b t i : Nat) : d.ctxWord b t i = d.word (ctxAddr b t i) := rfl

theorem activeBank_lt (d : Dev) : d.activeBank < 2 := bitsOf_lt ..

theorem ctxWrite_free {d : Dev} {b t i : Nat} (hcopy : d.f EXP_CTX_CTRL_COPY_BUSY = 0) (ht : t < 6144) (hi : i < 4)
    (hact : b ≠ d.activeBank) (hheld : d.bankHeld b = false) (p : Port) (v : Word) :
    ctxWrite p (ctxAddr b t i) v d = d.putWord (ctxAddr b t i) (v &&& ctxMask i) := by
  have hbank : (ctxAddr b t i - 0x100000) / 16 / 6144 = b := by unfold ctxAddr; omega
  have haddr : ctxAddr b t i / 4 * 4 = ctxAddr b t i := by unfold ctxAddr; omega
  have hword : ctxAddr b t i / 4 % 4 = i := by unfold ctxAddr; omega
  unfold ctxWrite
  dsimp only
  rw [hbank, haddr, hword, if_neg]
  rintro (h | h | h)
  · omega
  · exact hact h
  · rw [hheld] at h
    cases h

theorem ctxWrite_active {d : Dev} {t i : Nat} (ht : t < 6144) (hi : i < 4) (p : Port) (v : Word) :
    ctxWrite p (ctxAddr d.activeBank t i) v d = d.reject .exp p (ctxAddr d.activeBank t i) v 3 := by
  have hbank : (ctxAddr d.activeBank t i - 0x100000) / 16 / 6144 = d.activeBank := by unfold ctxAddr; omega
  exact if_pos (.inr (.inl hbank))

theorem runs_ctxTableWrite {p : Port} {b t i : Nat} {s : State} (h : s.admitsAt p .exp) (hb : b < 2) (ht : t < 6144)
    (hi : i < 4) (v : Word) :
    runs (.ctxTableWrite p (BitVec.ofNat 24 (ctxAddr b t i)) v) s (ctxWrite p (ctxAddr b t i) v s.dev) := by
  have hrun := runs_gatePage (c := .ctxTableWrite p (BitVec.ofNat 24 (ctxAddr b t i)) v)
    (f := fun d => match decodeAddr (BitVec.ofNat 24 (ctxAddr b t i)).toNat with
      | .ctx _ _ => ctxWrite p (BitVec.ofNat 24 (ctxAddr b t i)).toNat v d
      | _ => d) rfl h
  rwa [ctxAddr_toNat hb ht hi, decodeAddr_ctx hb ht hi] at hrun

/-! ## COPY -/

theorem copyBank_regs (d : Dev) : (copyBank d).regs =
    SMap.moved resetWord (ctxAddr d.activeBank 0 0) (ctxAddr (1 - d.activeBank) 0 0)
      (d.regs.filter fun p => decide (ctxAddr d.activeBank 0 0 ≤ p.1) && decide (p.1 < ctxAddr d.activeBank 0 0 + 98304))
      (SMap.eraseRange d.regs (ctxAddr (1 - d.activeBank) 0 0) (ctxAddr (1 - d.activeBank) 0 0 + 98304)) := by
  simp only [copyBank, SMap.moved, ctxAddr, Nat.add_zero, Nat.mul_zero, Nat.mul_assoc, Nat.reduceMul]

/-- A word outside the bank that COPY writes. -/
theorem word_copyBank_out (d : Dev) {a : Nat} (h : a < ctxAddr (1 - d.activeBank) 0 0 ∨ ctxAddr (1 - d.activeBank) 0 0 + 98304 ≤ a) :
    (copyBank d).word a = d.word a := by
  rw [Dev.word, copyBank_regs, SMap.get_moved_out _ _ (size := 98304) ?_ h, SMap.get_eraseRange, if_neg (by omega), Dev.word]
  intro p hp
  simpa using (List.mem_filter.mp hp).2

/-- Each word of the bank that COPY writes. -/
theorem word_copyBank_in (d : Dev) {t i : Nat} (ht : t < 6144) (hi : i < 4) :
    (copyBank d).ctxWord (1 - d.activeBank) t i = d.ctxWord d.activeBank t i := by
  have hact := activeBank_lt d
  have hsrc : ctxAddr d.activeBank t i = ctxAddr d.activeBank 0 0 + (16 * t + 4 * i) := by unfold ctxAddr; omega
  have hdst : ctxAddr (1 - d.activeBank) t i = ctxAddr (1 - d.activeBank) 0 0 + (16 * t + 4 * i) := by unfold ctxAddr; omega
  have hreset : resetWord (ctxAddr (1 - d.activeBank) t i) = resetWord (ctxAddr d.activeBank t i) := by
    rw [resetWord_ctx (by omega) ht hi, resetWord_ctx hact ht hi]
  rw [ctxWord_eq, ctxWord_eq, Dev.word, copyBank_regs, hdst, SMap.get_moved, SMap.get_eraseRange, if_pos (by omega),
    SMap.get_filter _ _ (fun a => decide (ctxAddr d.activeBank 0 0 ≤ a) && decide (a < ctxAddr d.activeBank 0 0 + 98304)),
    if_pos (by simp; omega), ← hsrc, ← hdst, Dev.word]
  · exact SMap.get_congr _ hreset
  · intro p hp
    have hin := (List.mem_filter.mp hp).2
    simp only [Bool.and_eq_true, decide_eq_true_eq] at hin
    exact hin.1

/-- COPY ends with no commit behind it. -/
theorem copyDone_free {d : Dev} (hbusy : d.f EXP_CTX_CTRL_COPY_BUSY = 1) (hbehind : d.com.behindCopy = false)
    (hg : d.com.gHeld = false) : copyDone d = (copyBank d).setF EXP_CTX_CTRL_COPY_BUSY 0 := by
  have hcom : ((copyBank d).setF EXP_CTX_CTRL_COPY_BUSY 0).com = d.com := Dev.setFi_com ..
  unfold copyDone
  rw [if_neg (by omega)]
  dsimp only
  rw [hcom, hbehind, if_neg (by decide), releaseGlobal, hcom, hg, if_neg (by decide)]

/-! ## CTX_SNAPSHOT -/

/-- Piece `i` of pieces of one length, joined. -/
theorem take_drop_flatMap {α β : Type} {f : α → List β} {n : Nat} (hf : ∀ x, (f x).length = n) (l : List α) {i : Nat}
    (hi : i < l.length) : ((l.flatMap f).drop (n * i)).take n = f l[i] := by
  induction l generalizing i with
  | nil => cases hi
  | cons x l ih =>
    rw [List.flatMap_cons]
    cases i with
    | zero => rw [Nat.mul_zero, List.drop_zero, List.take_left' (hf x), List.getElem_cons_zero]
    | succ i =>
      rw [Nat.mul_succ, Nat.add_comm, ← List.drop_drop, List.drop_left' (hf x), ih (Nat.lt_of_succ_lt_succ hi),
        List.getElem_cons_succ]

theorem length_flatMap_of_length {α β : Type} {f : α → List β} {n : Nat} (hf : ∀ x, (f x).length = n) (l : List α) :
    (l.flatMap f).length = n * l.length := by
  rw [List.length_flatMap, List.map_congr_left fun x _ => hf x, List.map_const', List.sum_replicate, smul_eq_mul, Nat.mul_comm]

theorem natOfBytes_bytesLE (n v : Nat) : natOfBytes (bytesLE n v) = v % 256 ^ n := by
  induction n generalizing v with
  | zero => rw [bytesLE, natOfBytes, Nat.pow_zero, Nat.mod_one]
  | succ n ih =>
    rw [bytesLE, natOfBytes, ih, Nat.pow_succ', Nat.mod_mul (x := v) (a := 256) (b := 256 ^ n)]
    rfl

theorem length_bytesLE (n v : Nat) : (bytesLE n v).length = n := by
  induction n generalizing v with
  | zero => rfl
  | succ n ih => rw [bytesLE, List.length_cons, ih]

/-- The bytes of a word. -/
def wordBytes (w : Word) : List Byte := u32 w.toNat

theorem length_wordBytes (w : Word) : (wordBytes w).length = 4 := length_bytesLE ..

theorem natOfBytes_wordBytes (w : Word) : natOfBytes (wordBytes w) = w.toNat :=
  (natOfBytes_bytesLE ..).trans (Nat.mod_eq_of_lt w.isLt)

theorem length_ctxWords (d : Dev) (b t : Nat) : (d.ctxWords b t).length = 4 := by rw [Dev.ctxWords, List.length_map, List.length_range]

/-- The bytes of entries `t` on, as CTX_SNAPSHOT answers them. -/
def Dev.ctxBytes (d : Dev) (b t n : Nat) : List Byte := (List.range n).flatMap fun i => (d.ctxWords b (t + i)).flatMap wordBytes

theorem length_entryBytes (d : Dev) (b t : Nat) : ((d.ctxWords b t).flatMap wordBytes).length = 16 := by
  rw [length_flatMap_of_length length_wordBytes, length_ctxWords]

theorem length_ctxBytes (d : Dev) (b t n : Nat) : (d.ctxBytes b t n).length = 16 * n := by
  rw [Dev.ctxBytes, length_flatMap_of_length fun i => length_entryBytes d b (t + i), List.length_range]

theorem ctxBytes_word (d : Dev) (b t : Nat) {n i j : Nat} (hi : i < n) (hj : j < 4) :
    natOfBytes (((d.ctxBytes b t n).drop (16 * i + 4 * j)).take 4) = (d.ctxWord b (t + i) j).toNat := by
  have hentry : ((d.ctxBytes b t n).drop (16 * i)).take 16 = (d.ctxWords b (t + i)).flatMap wordBytes := by
    have h := take_drop_flatMap (fun i => length_entryBytes d b (t + i)) (List.range n) (i := i)
      (by rwa [List.length_range])
    rwa [List.getElem_range] at h
  have hcut : ((d.ctxBytes b t n).drop (16 * i + 4 * j)).take 4 =
      ((((d.ctxBytes b t n).drop (16 * i)).take 16).drop (4 * j)).take 4 := by
    rw [List.drop_take, List.take_take, List.drop_drop, Nat.min_eq_left (by omega)]
  rw [hcut, hentry, take_drop_flatMap length_wordBytes _ (by rwa [length_ctxWords]), natOfBytes_wordBytes]
  simp only [Dev.ctxWords, List.getElem_map, List.getElem_range]

theorem ctxWord_of_onlyWords {d e : Dev} {as : List Nat} (h : onlyWords d e as) (has : ∀ a ∈ as, a < 0x100000) (b t i : Nat) :
    e.ctxWord b t i = d.ctxWord b t i :=
  h _ fun hmem => absurd (has _ hmem) (by omega)

theorem ctxWords_of_onlyWords {d e : Dev} {as : List Nat} (h : onlyWords d e as) (has : ∀ a ∈ as, a < 0x100000) (b t : Nat) :
    e.ctxWords b t = d.ctxWords b t := by
  rw [Dev.ctxWords, funext (ctxWord_of_onlyWords h has b t), Dev.ctxWords]

theorem ctxSnapshot_ok {d : Dev} (hb : d.cmdNat 0 1 < 2) (hn : d.cmdNat 3 2 ≠ 0) (hn' : d.cmdNat 3 2 ≤ 64)
    (ht : d.cmdNat 1 2 + d.cmdNat 3 2 ≤ 6144) :
    ctxSnapshot d = d.mbxDone resOK (d.ctxBytes (d.cmdNat 0 1) (d.cmdNat 1 2) (d.cmdNat 3 2)) := by
  unfold ctxSnapshot
  exact if_neg (by omega)

/-! ## What firmware writes in a bank -/

/-- Every word of a bank, with its address. -/
def bankList (lo : Nat) (f : Nat → List Word) : List (Nat × Word) :=
  (List.range 6144).flatMap fun t => (f t).zipIdx.map fun w => (lo + 16 * t + 4 * w.2, w.1)

theorem mem_bankList {lo : Nat} {f : Nat → List Word} {p : Nat × Word} :
    p ∈ bankList lo f ↔ ∃ t i, t < 6144 ∧ p.1 = lo + 16 * t + 4 * i ∧ (f t)[i]? = some p.2 := by
  simp only [bankList, List.mem_flatMap, List.mem_range, List.mem_map, Prod.exists, List.mem_zipIdx_iff_getElem?]
  constructor
  · rintro ⟨t, ht, w, i, hw, rfl⟩
    exact ⟨t, i, ht, rfl, hw⟩
  · rintro ⟨t, i, ht, hp, hw⟩
    exact ⟨t, ht, p.2, i, hw, Prod.ext hp.symm rfl⟩

section
variable {d : Dev} {lo : Nat} {f : Nat → List Word} (hf : ∀ t, (f t).length = 4)
include hf

theorem bankList_range {p : Nat × Word} (hp : p ∈ bankList lo f) : lo ≤ p.1 ∧ p.1 < lo + 98304 := by
  obtain ⟨t, i, ht, haddr, hw⟩ := mem_bankList.mp hp
  have hi : i < 4 := hf t ▸ (List.getElem?_eq_some_iff.mp hw).1
  omega

/-- The entries of a bank are replaced, and no other word is. -/
theorem word_splice_out {a : Nat} (h : a < lo ∨ lo + 98304 ≤ a) :
    (d.spliceWords lo (lo + 98304) (bankList lo f)).word a = d.word a := by
  have hbank : ∀ e : Nat → Word, SMap.get e ((bankList lo f).filter fun p => p.2 != resetWord p.1) a = e a := fun e =>
    SMap.get_absent e fun p hp => by
      have hin := bankList_range hf (List.mem_filter.mp hp).1
      omega
  rw [Dev.word, Dev.spliceWords, SMap.get_append, SMap.get_append, Dev.word]
  have hlow := SMap.get_filter (SMap.get (SMap.get resetWord (d.regs.filter fun p => lo + 98304 ≤ p.1))
    ((bankList lo f).filter fun p => p.2 != resetWord p.1)) d.regs (fun a => decide (a < lo)) a
  have hhigh := SMap.get_filter resetWord d.regs (fun a => decide (lo + 98304 ≤ a)) a
  rw [hlow, hbank, hhigh]
  by_cases hlo : a < lo
  · rw [if_pos (by simpa using hlo)]
    refine SMap.get_congr _ ?_
    rw [hbank, hhigh, if_neg (by simp; omega)]
  · rw [if_neg (by simpa using hlo), if_pos (by simp; omega)]

theorem word_splice_in {t i : Nat} (ht : t < 6144) (hi : i < 4) :
    (d.spliceWords lo (lo + 98304) (bankList lo f)).word (lo + 16 * t + 4 * i) = (f t)[i]'(by rw [hf]; exact hi) := by
  have hlow := SMap.get_filter (SMap.get (SMap.get resetWord (d.regs.filter fun p => lo + 98304 ≤ p.1))
    ((bankList lo f).filter fun p => p.2 != resetWord p.1)) d.regs (fun a => decide (a < lo)) (lo + 16 * t + 4 * i)
  have hhigh := SMap.get_filter resetWord d.regs (fun a => decide (lo + 98304 ≤ a)) (lo + 16 * t + 4 * i)
  rw [Dev.word, Dev.spliceWords, SMap.get_append, SMap.get_append, hlow, if_neg (by simp; omega),
    SMap.get_congr (e := resetWord) _ (by rw [hhigh, if_neg (by simp; omega)])]
  refine SMap.get_listed _ (fun p hp hk => ?_) (.inl ⟨(lo + 16 * t + 4 * i, _), mem_bankList.mpr
    ⟨t, i, ht, rfl, List.getElem?_eq_getElem (by rw [hf]; exact hi)⟩, rfl⟩)
  obtain ⟨u, j, hu, haddr, hw⟩ := mem_bankList.mp hp
  have hj : j < 4 := hf u ▸ (List.getElem?_eq_some_iff.mp hw).1
  obtain rfl : u = t := by omega
  obtain rfl : j = i := by omega
  exact (List.getElem?_eq_some_iff.mp hw).2.symm

end

theorem writeContexts_eq (f : Nat → List Word → List Word) (d : Dev) :
    writeContexts f d = (d.spliceWords (ctxAddr (1 - d.activeBank) 0 0)
      (ctxAddr (1 - d.activeBank) 0 0 + 98304) (bankList (ctxAddr (1 - d.activeBank) 0 0) fun t => f t
        (d.ctxWords d.activeBank t))).setF EXP_CTX_CTRL_BANK_SEL (1 - d.activeBank) := by
  simp only [writeContexts, bankList, ctxAddr, Nat.add_zero, Nat.mul_zero, Nat.mul_assoc, Nat.reduceMul]

theorem word_writeContexts {f : Nat → List Word → List Word} {d : Dev} {a : Nat} (h : a ≠ 0x11120) :
    (writeContexts f d).word a = (d.spliceWords (ctxAddr (1 - d.activeBank) 0 0) (ctxAddr (1 - d.activeBank) 0 0 + 98304)
      (bankList (ctxAddr (1 - d.activeBank) 0 0) fun t => f t (d.ctxWords d.activeBank t))).word a := by
  have haddr : EXP_CTX_CTRL_BANK_SEL.addr 0 0 = 0x11120 := rfl
  rw [writeContexts_eq, Dev.setF_def, Dev.word_setFi, haddr, if_neg h]

theorem f_bankSel_writeContexts (f : Nat → List Word → List Word) (d : Dev) :
    (writeContexts f d).f EXP_CTX_CTRL_BANK_SEL = 1 - d.activeBank := by
  have hact := activeBank_lt d
  rw [writeContexts_eq, Dev.f_def, Dev.setF_def, Dev.fi_setFi_same _ _ _ _ _ (by decide) (by decide)]
  exact Nat.mod_eq_of_lt (show 1 - d.activeBank < 2 by omega)

section
variable {d : Dev} {f : Nat → List Word → List Word} (hf : ∀ t, (f t (d.ctxWords d.activeBank t)).length = 4)
include hf

theorem word_writeContexts_out {a : Nat} (h : a < 0x100000) (hsel : a ≠ 0x11120) : (writeContexts f d).word a = d.word a := by
  rw [word_writeContexts hsel, word_splice_out hf (.inl (by unfold ctxAddr; omega))]

/-- The bank that is in use keeps its contexts. -/
theorem ctxWords_writeContexts_active {t : Nat} (ht : t < 6144) :
    (writeContexts f d).ctxWords d.activeBank t = d.ctxWords d.activeBank t := by
  have hact := activeBank_lt d
  unfold Dev.ctxWords
  refine List.map_congr_left fun i hi => ?_
  have hi := List.mem_range.mp hi
  rw [ctxWord_eq, word_writeContexts (by unfold ctxAddr; omega), word_splice_out hf (by unfold ctxAddr; omega), ctxWord_eq]

/-- The other bank takes what firmware makes of each. -/
theorem ctxWords_writeContexts_other {t : Nat} (ht : t < 6144) :
    (writeContexts f d).ctxWords (1 - d.activeBank) t = f t (d.ctxWords d.activeBank t) := by
  refine List.ext_getElem (by rw [length_ctxWords, hf]) fun i hi hi' => ?_
  have hi : i < 4 := by rwa [length_ctxWords] at hi
  have hword : (writeContexts f d).ctxWord (1 - d.activeBank) t i = (f t (d.ctxWords d.activeBank t))[i] := by
    have haddr : ctxAddr (1 - d.activeBank) t i = ctxAddr (1 - d.activeBank) 0 0 + 16 * t + 4 * i := by unfold ctxAddr; omega
    rw [ctxWord_eq, word_writeContexts (by unfold ctxAddr; omega), haddr, word_splice_in hf ht hi]
  rw [← hword]
  simp only [Dev.ctxWords, List.getElem_map, List.getElem_range]

end

/-! ## The loop -/

/-- The contexts of an iteration for each tile. -/
def aeTiles (chs : List (Fin 6144 × AeSet)) (tag : BitVec 8) (t : Nat) (c : List Word) : List Word :=
  match chs.find? fun p => p.1.val = t with
  | some p => aeContext p.2 tag c
  | none => c

theorem length_aeTiles (chs : List (Fin 6144 × AeSet)) (tag : BitVec 8) (t : Nat) {c : List Word} (h : c.length = 4) :
    (aeTiles chs tag t c).length = 4 := by
  unfold aeTiles
  split
  · rfl
  · exact h

/-- The device with an iteration's contexts, before its key is written. -/
def aeWritten (chs : List (Fin 6144 × AeSet)) (tag : BitVec 8) (d : Dev) : Dev :=
  (writeContexts (aeTiles chs tag) d).onAry fun a => { a with aePend := some tag.toNat, aeFrom := a.lastRead }

theorem aeIteration_tiles {d : Dev} {chs : List (Fin 6144 × AeSet)} (hmay : d.aeMayBegin = true)
    (hmode : d.f EXP_BASIC_AE_MODE = 1) (hok : d.aeTilesOk chs = true) (tag : BitVec 8) :
    aeIteration (.tiles chs) tag d = keyWritten .exp (aeWritten chs tag d) := by
  unfold aeIteration
  rw [hmay, if_neg (by decide)]
  exact if_pos ⟨hmode, hok⟩

theorem word_aeWritten (chs : List (Fin 6144 × AeSet)) (tag : BitVec 8) (d : Dev) {a : Nat} (h : a < 0x100000) (hsel : a ≠ 0x11120) :
    (aeWritten chs tag d).word a = d.word a := by
  rw [aeWritten, Dev.word_congr (Dev.onAry_regs ..), word_writeContexts_out (fun t => length_aeTiles chs tag t
    (length_ctxWords ..)) h hsel]

theorem evq_emitFw (d : Dev) (code : Nat) (b : List Byte) :
    ∃ x, (d.emitFw code b).evq = d.evq ++ [x] ∧ x.code = code ∧ x.src = fwSrc := ⟨_, rfl, rfl, rfl⟩

theorem f_bankSel_aeWritten (chs : List (Fin 6144 × AeSet)) (tag : BitVec 8) (d : Dev) :
    (aeWritten chs tag d).f EXP_CTX_CTRL_BANK_SEL = 1 - d.activeBank := by
  rw [aeWritten, Dev.f_def, Dev.fi_congr (Dev.onAry_regs ..), ← Dev.f_def, f_bankSel_writeContexts]

theorem f_copyBusy_aeWritten (chs : List (Fin 6144 × AeSet)) (tag : BitVec 8) (d : Dev) :
    (aeWritten chs tag d).f EXP_CTX_CTRL_COPY_BUSY = d.f EXP_CTX_CTRL_COPY_BUSY := by
  have hbank : EXP_CTX_CTRL_COPY_BUSY.addr 0 0 < ctxAddr (1 - d.activeBank) 0 0 :=
    Nat.lt_of_lt_of_le (by decide : _ < 0x100000) (by unfold ctxAddr; omega)
  have hlen : ∀ t, (aeTiles chs tag t (d.ctxWords d.activeBank t)).length = 4 :=
    fun t => length_aeTiles chs tag t (length_ctxWords ..)
  rw [aeWritten, Dev.f_def, Dev.fi_congr (Dev.onAry_regs ..), writeContexts_eq, Dev.setF_def,
    Dev.fi_setFi_ne _ _ _ _ _ _ _ _ (by decide) (by decide) (by decide) (.inr (by decide)), Dev.fi,
    word_splice_out hlen (.inl hbank), Dev.f_def, Dev.fi]

/-- An iteration's key latches, where nothing holds it. -/
theorem keyWritten_aeWritten {d : Dev} (chs : List (Fin 6144 × AeSet)) (tag : BitVec 8) (hmay : d.aeMayBegin = true)
    (hg : d.com.gstate = .idle) (hx : d.hf .exp HD_PAGE_STAT_XLATE_PEND = 0) :
    keyWritten .exp (aeWritten chs tag d) = latchPage .exp (aeWritten chs tag d) := by
  simp only [Dev.aeMayBegin, Dev.bankFree, Bool.and_eq_true, Bool.not_eq_true', Bool.or_eq_false_iff, decide_eq_true_eq,
    decide_eq_false_iff_not, inForce] at hmay
  obtain ⟨⟨⟨⟨-, hcopy, -⟩, -⟩, -⟩, ⟨hacc, hpend⟩, hcheck⟩ := hmay
  have hhf : ∀ F : Fld, Page.exp.base + F.off < 0x11120 → (aeWritten chs tag d).hf .exp F = d.hf .exp F := fun F h => by
    rw [Dev.hf, word_aeWritten chs tag d (by omega) (by omega), Dev.hf]
  have hstate : (aeWritten chs tag d).comState .exp = d.comState .exp := hhf HD_COMMIT_STAT_STATE (by decide)
  have hx' := (hhf HD_PAGE_STAT_XLATE_PEND (by decide)).trans hx
  have hg' : (aeWritten chs tag d).com.gstate = .idle := hg
  have hcopy' := (f_copyBusy_aeWritten chs tag d).trans hcopy
  rw [keyWritten_free hx', keyPage_idle hg' (by rw [hstate]; exact hcheck) fun _ => hcopy', supersede_notInForce]
  rw [hstate]
  simpa using ⟨hacc, hpend⟩

end Sys2Proof.Machine

open Sys2Proof Sys2Proof.Machine

/-- Settles O27: banks of contexts are words of the register map, which COPY and the loop replace as a stretch. -/
theorem contextsAreWritten : Obligations.ContextsAreWritten := by
  unfold Obligations.ContextsAreWritten
  refine ⟨?write, ?active, ?copy, ?copyDone, ?snapshot, ?iteration, ?missed, ?stale⟩
  case write =>
    intro p b t i v s h hcopy hact hheld
    have hrun := runs_ctxTableWrite h b.isLt t.isLt i.isLt v
    rw [ctxWrite_free hcopy t.isLt i.isLt hact hheld] at hrun
    exact ⟨_, hrun, by rw [ctxWord_eq, Dev.word_putWord, if_pos rfl], onlyRegs_putWord ..⟩
  case active =>
    intro p t i v s h
    have hrun := runs_ctxTableWrite h (activeBank_lt s.dev) t.isLt i.isLt v
    rwa [ctxWrite_active t.isLt i.isLt] at hrun
  case copy =>
    intro p s h hcopy hheld
    have hrun := runs_gatePage (c := .ctxCopy p) (f := ctxCopy p 0x100#32) rfl h
    rw [ctxCopy, if_neg fun hor => hor.elim (by omega) (by rw [hheld]; decide)] at hrun
    exact ⟨_, hrun, Dev.fi_setFi_same _ _ _ _ _ (by decide) (by decide), onlyRegs_setFi ..⟩
  case copyDone =>
    intro s hbusy hbehind hg
    have hact := activeBank_lt s.dev
    refine ⟨_, runs_onDev (c := .ctxCopyDone) (f := copyDone) rfl (copyDone_free hbusy hbehind hg), ?_⟩
    have hbank : EXP_CTX_CTRL_ACTIVE.addr 0 0 < ctxAddr (1 - s.dev.activeBank) 0 0 :=
      Nat.lt_of_lt_of_le (by decide : _ < 0x100000) (by unfold ctxAddr; omega)
    have hset : ∀ {a : Nat}, a ≠ 0x11120 → ((copyBank s.dev).setF EXP_CTX_CTRL_COPY_BUSY 0).word a = (copyBank s.dev).word a :=
      fun h => onlyWords_setFi _ (F := EXP_CTX_CTRL_COPY_BUSY) (as := [0x11120]) (by decide) _ _ (by simpa using h)
    refine ⟨Dev.fi_setFi_same _ _ _ _ _ (by decide) (by decide), ?_, fun t i ht hi => ?_, fun t i ht hi => ?_, fun a ha hne => ?_⟩
    · rw [Dev.activeBank, Dev.f_def, Dev.setF_def,
        Dev.fi_setFi_ne _ _ _ _ _ _ _ _ (by decide) (by decide) (by decide) (.inr (by decide)), Dev.fi,
        word_copyBank_out _ (.inl hbank), Dev.activeBank, Dev.f_def, Dev.fi]
    · rw [ctxWord_eq, hset (by unfold ctxAddr; omega), ← ctxWord_eq, word_copyBank_in _ ht hi]
    · rw [ctxWord_eq, hset (by unfold ctxAddr; omega), word_copyBank_out _ (by unfold ctxAddr; omega), ctxWord_eq]
    · rw [hset hne, word_copyBank_out _ (by unfold ctxAddr; omega)]
  case snapshot =>
    intro b t n s h hb ht hn hb2 hn0 hn64 htn
    have hcmd : ∀ st k, (s.dev.setMbx mbxBUSY).cmdNat st k = s.dev.cmdNat st k := fun st k => by
      rw [Dev.cmdNat, cmdBytes_setMbx, Dev.cmdNat]
    have hrun := runs_mbxServe h (c := .ctxSnapshot) (lenOk := (· = 2)) (f := ctxSnapshot) rfl rfl
    rw [ctxSnapshot_ok (by rw [hcmd, hb]; exact hb2) (by rw [hcmd, hn]; exact hn0) (by rw [hcmd, hn]; exact hn64)
      (by rw [hcmd, hcmd, ht, hn]; exact htn), hcmd, hcmd, hcmd, hb, ht, hn] at hrun
    refine ⟨_, length_ctxBytes .., hrun, fun i j hi hj => ?_⟩
    rw [ctxBytes_word _ _ _ hi hj, ctxWord_of_onlyWords (onlyRegs_setMbx ..).2 (by decide)]
  case iteration =>
    intro chs tag s hmay hmode hok hg hx
    have hrun := aeIteration_tiles hmay hmode hok tag
    rw [keyWritten_aeWritten chs tag hmay hg hx] at hrun
    have hlatch := onlyCommit_latchPage .exp (aeWritten chs tag s.dev)
    have hlen : ∀ t, (aeTiles chs tag t (s.dev.ctxWords s.dev.activeBank t)).length = 4 :=
      fun t => length_aeTiles chs tag t (length_ctxWords ..)
    have hctx : ∀ b t, (latchPage .exp (aeWritten chs tag s.dev)).ctxWords b t =
        (writeContexts (aeTiles chs tag) s.dev).ctxWords b t := fun b t => ctxWords_of_onlyWords hlatch.1 (by decide) b t
    refine ⟨_, runs_onDev (c := .aeIteration (.tiles chs) tag) (f := aeIteration (.tiles chs) tag) rfl hrun, ?_,
      comState_latchPage .., (congrArg Dev.ary hlatch.2).trans ?_, fun t ht => ?_, fun t ht => ?_⟩
    · have hsel : (latchPage .exp (aeWritten chs tag s.dev)).f EXP_CTX_CTRL_BANK_SEL =
          (aeWritten chs tag s.dev).f EXP_CTX_CTRL_BANK_SEL := by
        rw [Dev.f_def, Dev.fi, hlatch.1 _ (by decide), Dev.f_def, Dev.fi]
      exact hsel.trans (f_bankSel_aeWritten ..)
    · rfl
    · rw [hctx, ctxWords_writeContexts_active hlen ht]
    · rw [hctx, ctxWords_writeContexts_other hlen ht]
      rfl
  case missed =>
    intro s hruns hforce
    refine ⟨_, runs_onDev (c := .aeMissed) (f := aeMissed) rfl (if_pos ⟨hruns, by rw [hforce]; decide⟩), ?_, ?_, ?_⟩
    · rw [Dev.f_def, Dev.bump, Dev.fi_bumpI_same _ rfl rfl]
      rfl
    · exact (Dev.setFi_ary ..).trans rfl
    · exact onlyWords_trans (onlyWords_of_regs (Dev.onAry_regs ..) _)
        (onlyWords_bumpI _ (F := EXP_AE_MISSED) (i := 0) (k := 0) (by decide))
  case stale =>
    intro s hruns hidle hstale
    refine ⟨_, runs_onDev (c := .aeStale) (f := aeStale) rfl (if_pos ⟨hruns, hidle, hstale⟩), ?_, ?_, ?_⟩
    · have hemit : ∀ e : Dev, (e.emitFw 0x017).f EXP_AE_STAT_STALE = e.f EXP_AE_STAT_STALE := fun _ => rfl
      rw [hemit, Dev.raise_def, Dev.f_def, Dev.fi_raiseBits _ _ _ _ _ _ (by decide), Dev.setF_def,
        Dev.fi_setFi_same _ _ _ _ _ (by decide) (by decide)]
      rfl
    · have hevq : ((s.dev.setF EXP_AE_STAT_STALE 1).raise EXP_IRQ_RAW_AE_STALE).evq = s.dev.evq :=
        (Dev.raiseBits_evq ..).trans (Dev.setFi_evq ..)
      have hemit := evq_emitFw ((s.dev.setF EXP_AE_STAT_STALE 1).raise EXP_IRQ_RAW_AE_STALE) 0x017 []
      rwa [hevq] at hemit
    · exact onlyRaised_trans (onlyRaised_setFi _ (F := EXP_AE_STAT_STALE) (i := 0) (k := 0) (by decide) _) (onlyRaised_trans
        (onlyRaised_raiseBits _ (by decide) _) (onlyRaised_emitSrc ..))

end

section
/-! SUPPORT. Proofs about trigger lines and pins (R190, R216, R217, R237, R252): what follows a pulse leaves the lines'
counters and the engines' records of it. -/
namespace Sys2Proof.Machine

/-! ## What the recorder changes of the device -/

/-- The words in which the recorder reports. -/
def recWords : List Nat := [EVR_LOG_DROPPED.addr 0 0, Page.evr.base + 0x10, EVR_ACCEPTED.addr 0 0, EVR_RATE_DROPPED.addr 0 0,
  EVR_FILTERED.addr 0 0, EVR_COALESCED.addr 0 0, HMP_BURST_SEQ_LO.addr 0 0, HMP_BURST_SEQ_HI.addr 0 0]

theorem onlyRaised_refl (d : Dev) (as : List Nat) : onlyRaised d d as := ⟨rfl, fun _ _ => rfl⟩

theorem onlyRaised_ite {c : Prop} [Decidable c] {d x y : Dev} {as : List Nat} (hx : onlyRaised d x as)
    (hy : onlyRaised d y as) : onlyRaised d (if c then x else y) as := by
  split
  · exact hx
  · exact hy

/-- A counter of the recorder. -/
theorem onlyRaised_bump_rec (d : Dev) {F : Fld} (h : F.addr 0 0 ∈ recWords) : onlyRaised d (d.bump F) recWords :=
  onlyRaised_setFi d h _

theorem onlyRaised_raise_rec (d : Dev) (b : Word) : onlyRaised d (d.raiseBits .evr b) recWords :=
  onlyRaised_raiseBits d (by decide) b

theorem onlyRaised_placeRec (x : Rec) (d : Dev) (r : Recorder) : onlyRaised d (placeRec x (d, r)).1 recWords := by
  unfold placeRec
  dsimp only
  split
  · exact onlyRaised_refl d _
  · split
    · exact onlyRaised_refl d _
    · split
      · have hdrop : ∀ n, onlyRaised d ((d.add EVR_LOG_DROPPED n).raise EVR_IRQ_RAW_LOG_DROP) recWords := fun n =>
          onlyRaised_trans (onlyRaised_setFi d (F := EVR_LOG_DROPPED) (i := 0) (k := 0) (by decide) _)
            (onlyRaised_raise_rec ..)
        exact onlyRaised_ite (onlyRaised_trans (hdrop _) (onlyRaised_raise_rec ..)) (hdrop _)
      · exact onlyRaised_trans (onlyRaised_bump_rec d (by decide)) (onlyRaised_raise_rec ..)

theorem onlyRaised_burstSeq (code seq : Nat) (d : Dev) : onlyRaised d (burstSeq code seq d) recWords :=
  onlyRaised_ite (onlyRaised_trans (onlyRaised_setFi d (F := HMP_BURST_SEQ_LO) (i := 0) (k := 0) (by decide) _)
    (onlyRaised_setFi _ (F := HMP_BURST_SEQ_HI) (i := 0) (k := 0) (by decide) _)) (onlyRaised_refl d _)

theorem onlyRaised_acceptRec (e : Ev) (d : Dev) (r : Recorder) : onlyRaised d (acceptRec e (d, r)).1 recWords :=
  onlyRaised_trans (onlyRaised_trans (onlyRaised_bump_rec d (by decide)) (onlyRaised_burstSeq ..)) (onlyRaised_placeRec ..)

theorem onlyRaised_handleEvent (e : Ev) (d : Dev) (r : Recorder) : onlyRaised d (handleEvent e (d, r)).1 recWords := by
  unfold handleEvent
  dsimp only
  split
  · exact onlyRaised_bump_rec d (by decide)
  split
  · exact onlyRaised_bump_rec d (by decide)
  split
  · exact onlyRaised_acceptRec ..
  split
  · exact onlyRaised_acceptRec ..
  · exact onlyRaised_trans (onlyRaised_bump_rec d (F := EVR_RATE_DROPPED) (by decide)) (onlyRaised_raise_rec ..)

theorem onlyRaised_dropEvq (d : Dev) (l : List Ev) (as : List Nat) : onlyRaised d { d with evq := l } as :=
  ⟨rfl, fun _ _ => rfl⟩

theorem onlyRaised_acceptNext (d : Dev) (r : Recorder) : onlyRaised d (acceptNext (d, r)).1 recWords := by
  unfold acceptNext
  dsimp only
  split
  · exact onlyRaised_refl d _
  next e _ => exact onlyRaised_trans (onlyRaised_dropEvq d _ _) (onlyRaised_handleEvent ..)

theorem onlyRaised_acceptAll (n : Nat) (d : Dev) (r : Recorder) : onlyRaised d (acceptAll n (d, r)).1 recWords := by
  induction n generalizing d r with
  | zero => exact onlyRaised_refl d _
  | succ n ih => exact onlyRaised_trans (onlyRaised_acceptNext d r) (ih ..)

/-! ## What a pulse leaves -/

/-- The engines, and the counter of a line's edges. -/
def Dev.edges (k : Nat) (d : Dev) : SMap EngSt × Word := (d.eng, d.word (TRG_EDGES.addr 0 k))

theorem edges_of {k : Nat} {d e : Dev} (heng : e.eng = d.eng) (hword : e.word (TRG_EDGES.addr 0 k) = d.word (TRG_EDGES.addr 0 k)) :
    e.edges k = d.edges k := Prod.ext heng hword

theorem fi_of_edges {k : Nat} {d e : Dev} (h : e.edges k = d.edges k) : e.fi TRG_EDGES 0 k = d.fi TRG_EDGES 0 k :=
  congrArg (fun p : SMap EngSt × Word => bitsOf p.2 TRG_EDGES.hi TRG_EDGES.lo) h

theorem engine_of_edges {k : Nat} {d e : Dev} (h : e.edges k = d.edges k) (m : Nat) : e.engine m = d.engine m :=
  Dev.engine_congr (congrArg Prod.fst h) m

theorem edges_of_regs {k : Nat} {d e : Dev} (heng : e.eng = d.eng) (hregs : e.regs = d.regs) : e.edges k = d.edges k :=
  edges_of heng (Dev.word_congr hregs _)

theorem edges_setFi {k : Nat} {F : Fld} {i j : Nat} (h : F.addr i j ≠ TRG_EDGES.addr 0 k) (d : Dev) (v : Nat) :
    (d.setFi F i j v).edges k = d.edges k :=
  edges_of (Dev.setFi_eng ..) ((Dev.word_setFi ..).trans (if_neg h.symm))

theorem edges_raiseBits {k : Nat} {p : Page} (h : p.base + 0x10 ≠ TRG_EDGES.addr 0 k) (d : Dev) (b : Word) :
    (d.raiseBits p b).edges k = d.edges k :=
  edges_of (Dev.raiseBits_eng ..) ((Dev.word_raiseBits ..).trans (if_neg h.symm))

/-- The counters of edges lie behind the page's other words, and below the pages of engines. -/
theorem edges_addr {k : Nat} (hk : k < 8) : 0x13F00 ≤ TRG_EDGES.addr 0 k ∧ TRG_EDGES.addr 0 k < 0x13F20 := by
  have haddr : TRG_EDGES.addr 0 k = 0x13F00 + 4 * k := rfl
  omega

theorem edges_of_onlyRaised {k : Nat} {d e : Dev} {as : List Nat} (h : onlyRaised d e as) (hk : TRG_EDGES.addr 0 k ∉ as) :
    e.edges k = d.edges k := edges_of ((congrArg Dev.eng h.1).trans rfl) (h.2 _ hk)

/-- Addresses beside the counters of edges. -/
abbrev besideEdges (a : Nat) : Prop := a < 0x13F00 ∨ 0x13F20 ≤ a

theorem edges_flagTick (k : Nat) (d : Dev) (j b : Nat) : (d.flagTick j b).edges k = d.edges k := by
  refine edges_of_regs ?_ (regs_of_shutters (shutters_flagTick ..))
  unfold Dev.flagTick
  split
  · rfl
  · exact ite_keeps Dev.eng rfl rfl

theorem edges_stripInterval (k trt : Nat) (d : Dev) : (stripInterval trt d).edges k = d.edges k := by
  unfold stripInterval
  dsimp only
  split
  · rfl
  · rfl

theorem edges_pulseStart (k line trt : Nat) (d : Dev) : (pulseStart line trt d).edges k = d.edges k :=
  ite_keeps (Dev.edges k) rfl rfl

theorem eng_histDrop (d : Dev) : (histDrop d).eng = d.eng :=
  (Dev.emitSrc_eng ..).trans ((Dev.raiseBits_eng ..).trans (Dev.setFi_eng ..))

theorem eng_offer (c : ChunkReq) (d : Dev) : (offer c d).eng = d.eng :=
  ite_keeps Dev.eng rfl (ite_keeps Dev.eng (eng_histDrop d) rfl)

/-- A pulse at the shutter units: the tiles that it starts, and those that it skips. -/
def pulseTiles (line trt : Nat) (d : Dev) : Dev :=
  let e := (d.edgeTiles line).1.foldl (fun d t => startTile line trt t d)
    (if decide (line = d.a TRG_MODE_CFG_LINE) && d.sched = schedSTRIP then stripInterval trt d else d)
  if (d.edgeTiles line).2.isEmpty then e else stripSkip e

theorem pulseShutter_eq (line trt : Nat) (d : Dev) : pulseShutter line trt d =
    if decide (line = d.a TRG_MODE_CFG_LINE) = false then pulseTiles line trt d
    else if (pulseTiles line trt d).sched = schedSTRIP then
      if (d.edgeTiles line).1.any fun t => (pulseTiles line trt d).rowsToRead t != 0 then
        (pulseTiles line trt d).onAry fun a => { a with stripsBegun := a.stripsBegun + 1 }
      else pulseTiles line trt d
    else if (pulseTiles line trt d).sched = schedTRIGGERED ∧ (pulseTiles line trt d).runState = runRUNNING then
      startRequest line trt (!(d.edgeTiles line).1.isEmpty) (pulseTiles line trt d)
    else pulseTiles line trt d := rfl

theorem edges_startTile (k line trt t : Nat) (d : Dev) : (startTile line trt t d).edges k = d.edges k :=
  ite_keeps (Dev.edges k) ((edges_flagTick ..).trans rfl) rfl

section
variable {k : Nat} (hk : k < 8)
include hk

theorem edges_ne {a : Nat} (h : besideEdges a) : a ≠ TRG_EDGES.addr 0 k := by
  have hedges := edges_addr hk
  rcases h with h | h
  · omega
  · omega

theorem edges_acceptAll (n : Nat) (d : Dev) (r : Recorder) : (acceptAll n (d, r)).1.edges k = d.edges k := by
  refine edges_of_onlyRaised (onlyRaised_acceptAll n d r) fun hmem => ?_
  have hbeside : ∀ a ∈ recWords, a < 0x13F00 ∨ 0x13F20 ≤ a := by decide
  exact edges_ne hk (hbeside _ hmem) rfl

theorem edges_kept : KeptByPlacing (Dev.edges k) where
  tile _ _ _ := rfl
  flag := edges_flagTick k
  once _ _ _ _ _ := edges_of_regs (onceTick_eng ..) (regs_of_shutters (shutters_onceTick ..))
  count d t v := edges_setFi (edges_ne hk (.inr (by
    have haddr : ENG_SHUT_LATE.addr (t % 96) 0 = 0x20000 + 0x1000 * (t % 96) + ENG_SHUT_LATE.off + 0 := rfl
    omega))) d v
  raise d t b := edges_raiseBits (edges_ne hk (.inr (by
    have hbase : (blkPage .eng (t % 96)).base = 0x20000 + 0x1000 * (t % 96 % 96) := rfl
    omega))) d b

theorem edges_counted {F G : Fld} (hF : besideEdges (F.addr 0 0)) (hG : besideEdges ((blkPage G.blk 0).base + 0x10)) (d : Dev) :
    ((d.bump F).raise G).edges k = d.edges k :=
  (edges_raiseBits (edges_ne hk hG) ..).trans (edges_setFi (edges_ne hk hF) ..)

theorem edges_startRequest (line trt : Nat) (b : Bool) (d : Dev) : (startRequest line trt b d).edges k = d.edges k := by
  refine ite_keeps (Dev.edges k) (edges_counted hk (by decide) (by decide) d) ?_
  exact (placeAll_keeps (edges_kept hk) ..).trans ((edges_setFi (edges_ne hk (.inl (by decide))) ..).trans rfl)

theorem edges_stripSkip (d : Dev) : (stripSkip d).edges k = d.edges k := by
  have hemit : ∀ e : Dev, (e.emit 0x046 .trg).edges k = e.edges k := fun _ => rfl
  exact (hemit _).trans (edges_counted hk (by decide) (by decide) d)

theorem edges_pulseTiles (line trt : Nat) (d : Dev) : (pulseTiles line trt d).edges k = d.edges k := by
  have hfold : ∀ e : Dev, ((d.edgeTiles line).1.foldl (fun d t => startTile line trt t d) e).edges k = e.edges k := fun e =>
    foldl_keeps (Dev.edges k) (fun e t => edges_startTile k line trt t e) _ e
  have hbase : ((d.edgeTiles line).1.foldl (fun d t => startTile line trt t d)
      (if decide (line = d.a TRG_MODE_CFG_LINE) && d.sched = schedSTRIP then stripInterval trt d else d)).edges k = d.edges k :=
    (hfold _).trans (ite_keeps (Dev.edges k) (edges_stripInterval ..) rfl)
  unfold pulseTiles
  dsimp only
  split
  · exact hbase
  · exact (edges_stripSkip hk _).trans hbase

theorem edges_pulseShutter (line trt : Nat) (d : Dev) : (pulseShutter line trt d).edges k = d.edges k := by
  have htiles := edges_pulseTiles hk line trt d
  have hbegun : ∀ e : Dev, (e.onAry fun a => { a with stripsBegun := a.stripsBegun + 1 }).edges k = e.edges k := fun _ => rfl
  rw [pulseShutter_eq]
  split
  · exact htiles
  split
  · split
    · exact (hbegun _).trans htiles
    · exact htiles
  split
  · exact (edges_startRequest hk ..).trans htiles
  · exact htiles

theorem edges_peEvent (w : PWait) (d : Dev) : (peEvent w d).edges k = d.edges k := by
  have hmiss : ∀ (d : Dev) (e : Nat), (d.bumpI PE_EVT_MISS e 0).edges k = d.edges k := fun d e =>
    edges_setFi (edges_ne hk (.inr (by
      have haddr : PE_EVT_MISS.addr e 0 = 0x80000 + 0x1000 * e + PE_EVT_MISS.off + 0 := rfl
      omega))) d _
  refine foldl_keeps (Dev.edges k) (fun d e => ?_) _ d
  dsimp only
  split
  · rfl
  split
  · exact ite_keeps (Dev.edges k) rfl (hmiss d e)
  · exact hmiss d e

/-! ### The slot of a trigger -/

theorem edges_setFk_slot {F : Fld} (hblk : F.blk = .hmp) (d : Dev) (i v : Nat) : (d.setFk F i v).edges k = d.edges k :=
  edges_setFi (edges_ne hk (.inr (by
    have haddr : F.addr 0 i = Blk.hmp.base + Blk.hmp.size * 0 + F.off + F.stride * i := by rw [Fld.addr, hblk]
    have hbase : Blk.hmp.base = 0xA1000 := rfl
    omega))) d v

theorem edges_slotRegs (i : Nat) (d : Dev) : (slotRegs i d).edges k = d.edges k := by
  unfold slotRegs
  dsimp only
  split
  · simp only [edges_setFk_slot hk (F := HMP_TSLOT_SEQ_LO) rfl, edges_setFk_slot hk (F := HMP_TSLOT_SEQ_HI) rfl,
      edges_setFk_slot hk (F := HMP_TSLOT_CAUSE) rfl, edges_setFk_slot hk (F := HMP_TSLOT_MERGED) rfl,
      edges_setFk_slot hk (F := HMP_TSLOT_POST_CUT) rfl, edges_setFk_slot hk (F := HMP_TSLOT_PRE_SHORT) rfl,
      edges_setFk_slot hk (F := HMP_TSLOT_STATE) rfl, edges_setFk_slot hk (F := HMP_TSLOT_PROT_MIB) rfl]
  · simp only [edges_setFk_slot hk (F := HMP_TSLOT_SEQ_LO) rfl, edges_setFk_slot hk (F := HMP_TSLOT_SEQ_HI) rfl,
      edges_setFk_slot hk (F := HMP_TSLOT_CAUSE) rfl, edges_setFk_slot hk (F := HMP_TSLOT_MERGED) rfl,
      edges_setFk_slot hk (F := HMP_TSLOT_POST_CUT) rfl, edges_setFk_slot hk (F := HMP_TSLOT_PRE_SHORT) rfl,
      edges_setFk_slot hk (F := HMP_TSLOT_STATE) rfl, edges_setFk_slot hk (F := HMP_TSLOT_PROT_MIB) rfl]

theorem edges_putSlot (i : Nat) (x : Option TrigSlot) (d : Dev) : (d.putSlot i x).edges k = d.edges k :=
  (edges_slotRegs hk ..).trans rfl

theorem edges_protectBack (t : Trig) (i : Nat) (d : Dev) : (protectBack t i d).edges k = d.edges k := by
  unfold protectBack
  split
  · rfl
  · exact edges_putSlot hk ..

theorem edges_takeSlot (t : Trig) (now : Nat) (held : Bool) (d : Dev) : (takeSlot t now held d).2.edges k = d.edges k := by
  unfold takeSlot
  dsimp only
  split
  · exact (edges_protectBack hk ..).trans (edges_putSlot hk ..)
  · split
    · rfl
    · exact (edges_protectBack hk ..).trans (edges_putSlot hk ..)

theorem edges_offer (c : ChunkReq) (d : Dev) : (offer c d).edges k = d.edges k :=
  edges_of (eng_offer c d) (onlyWords_offer c d _ fun hmem => by
    have hbeside : ∀ a ∈ [0xA1F0C, 0xA1010], a < 0x13F00 ∨ 0x13F20 ≤ a := by decide
    exact edges_ne hk (hbeside _ hmem) rfl)

theorem edges_emitSeq (code : Nat) (p : Page) (pay : List Byte) (x : Dev × Recorder) :
    (emitSeq code p pay x).2.1.edges k = x.1.edges k := by
  have hacc := edges_acceptAll hk (x.1.emit code p pay).evq.length (x.1.emit code p pay) x.2
  unfold emitSeq
  dsimp only
  generalize acceptAll (x.1.emit code p pay).evq.length (x.1.emit code p pay, x.2) = y at hacc
  obtain ⟨d, r⟩ := y
  dsimp only
  split
  · exact hacc
  · exact (edges_of_regs rfl rfl).trans hacc

theorem edges_histTrigger (t post cause : Nat) (x : Dev × Recorder) :
    (histTrigger t post cause x).2.1.edges k = x.1.edges k := by
  have hseq := edges_emitSeq hk 0x080 .hmp (u16 cause ++ u64 t) x
  unfold histTrigger
  dsimp only
  generalize emitSeq 0x080 .hmp (u16 cause ++ u64 t) x = y at hseq
  obtain ⟨seq, d, r⟩ := y
  dsimp only
  have hmerge : (if d.hmp.freeSlot.isNone then (d.emit 0x081 .hmp (u16 cause)).bump HMP_MERGES else d).edges k = d.edges k :=
    ite_keeps (Dev.edges k) ((edges_setFi (edges_ne hk (.inr (by decide))) ..).trans (edges_of_regs rfl rfl)) rfl
  have htake : ∀ (tr : Trig) (e : Dev), (takeSlot tr e.time.tick false e).2.edges k = e.edges k := fun tr e =>
    edges_takeSlot hk tr _ _ e
  exact (edges_offer hk ..).trans ((htake ..).trans (hmerge.trans hseq))

theorem edges_histLine (line trt : Nat) (x : Dev × Recorder) : (histLine line trt x).1.edges k = x.1.edges k := by
  unfold histLine
  dsimp only
  split
  · exact edges_histTrigger hk ..
  · rfl

end

/-! ## A pulse -/

/-- What every engine records of a pulse. -/
def engTrigOne (line trt : Nat) (d : Dev) (e : Nat) : Dev :=
  let g := d.engine e
  if g.trig.testBit line then d.bumpI ENG_TRIG_MISS e 0
  else d.setEngine e { g with trig := orBit g.trig line, trts := SMap.set zeroNat g.trts line trt }

theorem engTrig_eq (line trt : Nat) (d : Dev) : engTrig line trt d = (List.range 96).foldl (engTrigOne line trt) d := rfl

theorem trig_engTrigOne_same (line trt e : Nat) (d : Dev) : ((engTrigOne line trt d e).engine e).trig.testBit line = true := by
  unfold engTrigOne
  dsimp only
  split
  case isTrue h => exact (congrArg (fun g => g.trig.testBit line) (Dev.engine_congr (Dev.setFi_eng ..) e)).trans h
  case isFalse => rw [Dev.engine_setEngine_same, testBit_orBit_same]

theorem trig_engTrigOne {line trt e m : Nat} {d : Dev} (h : (d.engine m).trig.testBit line = true) :
    ((engTrigOne line trt d e).engine m).trig.testBit line = true := by
  by_cases hm : m = e
  · exact hm ▸ trig_engTrigOne_same line trt m d
  · unfold engTrigOne
    dsimp only
    split
    · exact (congrArg (fun g => g.trig.testBit line) (Dev.engine_congr (Dev.setFi_eng ..) m)).trans h
    · rw [Dev.engine_setEngine_ne _ _ hm, h]

theorem trig_foldl {line trt m : Nat} (l : List Nat) {d : Dev} (h : m ∈ l ∨ (d.engine m).trig.testBit line = true) :
    ((l.foldl (engTrigOne line trt) d).engine m).trig.testBit line = true := by
  induction l generalizing d with
  | nil => exact h.resolve_left List.not_mem_nil
  | cons e l ih =>
    refine ih ?_
    rcases h with h | h
    · rcases List.mem_cons.mp h with rfl | h
      · exact .inr (trig_engTrigOne_same ..)
      · exact .inl h
    · exact .inr (trig_engTrigOne h)

theorem word_engTrig {k : Nat} (hk : k < 8) (line trt : Nat) (d : Dev) :
    (engTrig line trt d).word (TRG_EDGES.addr 0 k) = d.word (TRG_EDGES.addr 0 k) := by
  refine foldl_keeps (fun d => d.word (TRG_EDGES.addr 0 k)) (fun d e => ?_) _ d
  dsimp only
  split
  · have haddr : ENG_TRIG_MISS.addr e 0 = 0x20000 + 0x1000 * e + ENG_TRIG_MISS.off + 0 := rfl
    exact (Dev.word_setFi ..).trans (if_neg (edges_ne hk (.inr (by omega))).symm)
  · exact Dev.word_congr (Dev.setEngine_regs ..) _

/-- A pulse that TRG takes: its line is stamped, counted, recorded by every engine, and seen by the others. -/
def pulseTaken (line now : Nat) (x : Dev × Recorder) : Dev × Recorder :=
  let d := { x.1 with trg := { x.1.trg with last := SMap.set (fun _ => none) x.1.trg.last line (some now) } }
  let d := engTrig line now (d.bumpI TRG_EDGES 0 line)
  let e := pulseStart line now (pulseShutter line now d)
  histLine line (e.time.tick + (now - e.cyc / 3 * 3) / 3) (peEvent (.line (Fin.ofNat 8 line)) e, x.2)

/-- The pulse before this one lies too near. -/
def Dev.tooSoon (d : Dev) (line now : Nat) : Bool :=
  match SMap.get (fun _ => none) d.trg.last line with | some l => decide (now < l + 750) | none => false

theorem linePulse_eq (line now : Nat) (x : Dev × Recorder) : linePulse line now x =
    if x.1.enabled .trg = false then x else if x.1.tooSoon line now then (x.1.bump TRG_TRIG_FAST, x.2)
    else pulseTaken line now x := rfl

theorem pulseTaken_rules {k : Nat} (hk : k < 8) (now : Nat) (x : Dev × Recorder) :
    (pulseTaken k now x).1.fi TRG_EDGES 0 k = (x.1.fi TRG_EDGES 0 k + 1) % 2 ^ 32 ∧
    ∀ e : Fin 96, ((pulseTaken k now x).1.engine e).trig.testBit k = true := by
  unfold pulseTaken
  dsimp only
  generalize hb : ({ x.1 with trg := { x.1.trg with last := SMap.set (fun _ => none) x.1.trg.last k (some now) } } : Dev) = b
  have hregs : b.regs = x.1.regs := by rw [← hb]
  generalize hd : engTrig k now (b.bumpI TRG_EDGES 0 k) = d
  have hkeep : ∀ (t : Nat) (r : Recorder), (histLine k t (peEvent (.line (Fin.ofNat 8 k))
      (pulseStart k now (pulseShutter k now d)), r)).1.edges k = d.edges k := fun t r => by
    rw [edges_histLine hk, edges_peEvent hk, edges_pulseStart, edges_pulseShutter hk]
  refine ⟨(fi_of_edges (hkeep _ _)).trans ?_, fun e => ?_⟩
  · rw [Dev.fi, ← hd, word_engTrig hk, ← Dev.fi, Dev.fi_bumpI_same _ rfl rfl, Dev.fi_congr hregs]
  · rw [engine_of_edges (hkeep _ _), ← hd, engTrig_eq]
    exact trig_foldl _ (.inl (List.mem_range.mpr e.isLt))

/-- The lines of a write that pulses one. -/
theorem filter_oneLine (k : Fin 8) :
    ((List.range 8).filter fun j => (BitVec.ofNat 32 (2 ^ k.val)).toNat.testBit j) = [k.val] := by
  decide +revert

theorem gatePageRec_open {p : Port} {pg : Page} {s : State} (f : Dev × Recorder → Dev × Recorder) (h : s.admitsAt p pg) :
    gatePageRec p pg f (s.dev, s.evr) = f (s.dev, s.evr) := by
  obtain ⟨⟨hs, ho⟩, hr⟩ := h
  simp [gatePageRec, hs, ho, hr]

theorem exec_swTrig (p : Port) (v : Word) {s : State} (h : s.admitsAt p .trg) : exec (.swTrig p v) s =
    onRec (fun x => pulseLines (fun _ k => v.toNat.testBit k) x.1.cyc x) s := by
  have hopen := gatePageRec_open (fun x => pulseLines (fun _ k => v.toNat.testBit k) x.1.cyc x) h
  change onRec _ s = _
  simp only [onRec, hopen]

/-- No line takes the pulse. -/
theorem pulseLines_none {f : Dev → Nat → Bool} {x : Dev × Recorder} (h : ∀ k < 8, f x.1 k = false) (now : Nat) :
    pulseLines f now x = x := by
  have hnil : (List.range 8).filter (f x.1) = [] :=
    List.filter_eq_nil_iff.mpr fun k hk => by rw [h k (List.mem_range.mp hk)]; decide
  rw [pulseLines, hnil, List.foldl_nil]

theorem pulseLines_disabled {f : Dev → Nat → Bool} {x : Dev × Recorder} (h : x.1.enabled .trg = false) (now : Nat) :
    pulseLines f now x = x := by
  unfold pulseLines
  generalize (List.range 8).filter (f x.1) = l
  induction l with
  | nil => rfl
  | cons k l ih => rw [List.foldl_cons, linePulse_eq, if_pos h, ih]

/-! ## Pins -/

/-- A bit that is given a level it does not have has it. -/
theorem testBit_newLevel {n i : Nat} {b : Bool} (h : n.testBit i ≠ b) :
    (if b then n + 2 ^ i else n - 2 ^ i).testBit i = b := by
  cases b with
  | true =>
    have hn : n.testBit i = false := by simpa using h
    rw [if_pos rfl, Nat.add_comm, Nat.testBit_two_pow_add_eq, hn]
    rfl
  | false =>
    have hn : n.testBit i = true := by simpa using h
    have hle : 2 ^ i ≤ n := Nat.ge_two_pow_of_testBit hn
    have hsub := Nat.testBit_two_pow_add_eq (n - 2 ^ i) i
    rw [Nat.add_sub_cancel' hle, hn] at hsub
    rw [if_neg (by decide)]
    simpa using hsub.symm

theorem lineTakes_congr {d e : Dev} (h : e.act = d.act) (pin : Nat) (lvl : Bool) (k : Nat) :
    e.lineTakes pin lvl k = d.lineTakes pin lvl k := by
  have hak : ∀ F, e.ak F k = d.ak F k := fun F => ai_congr h F 0 k
  rw [Dev.lineTakes, hak, hak, hak, Dev.lineTakes]

theorem lineTakesPe_congr {d e : Dev} (h : e.act = d.act) (p : Nat) (rise : Bool) (k : Nat) :
    e.lineTakesPe p rise k = d.lineTakesPe p rise k := by
  have hak : ∀ F, e.ak F k = d.ak F k := fun F => ai_congr h F 0 k
  rw [Dev.lineTakesPe, hak, hak, hak, Dev.lineTakesPe]

theorem pioLines_quiet {pin now : Nat} {lvl : Bool} {x : Dev × Recorder} (h : x.1.pio.testBit pin ≠ lvl)
    (hl : ∀ k < 8, x.1.lineTakes pin lvl k = false) : pioLines pin lvl now x =
      ({ x.1 with pio := if lvl then x.1.pio + 2 ^ pin else x.1.pio - 2 ^ pin,
                  pioAt := SMap.set zeroNat x.1.pioAt pin now }, x.2) := by
  unfold pioLines
  dsimp only
  rw [if_neg h, pulseLines_none (f := fun d k => d.lineTakes pin lvl k) (x := (({ x.1 with
    pio := if lvl then x.1.pio + 2 ^ pin else x.1.pio - 2 ^ pin, pioAt := SMap.set zeroNat x.1.pioAt pin now } : Dev), x.2))
    (fun k hk => (lineTakes_congr rfl pin lvl k).trans (hl k hk)) now, ite_self]

/-- An engine sees a pin at another level. -/
def Dev.pinSeen (d : Dev) (e p : Nat) (lvl : Bool) : Dev :=
  let m := SMap.get zeroNat d.pioF e
  { d with pioF := SMap.set zeroNat d.pioF e (if lvl then m + 2 ^ p else m - 2 ^ p) }

theorem pinLevel_pinSeen {d : Dev} {e p : Nat} {lvl : Bool} (h : d.pinLevel e p ≠ lvl) : (d.pinSeen e p lvl).pinLevel e p = lvl := by
  rw [Dev.pinLevel, Dev.pinSeen, SMap.get_set_same, testBit_newLevel h]

/-- The filtered level of a pin changes: its engine's WAIT may go on. -/
theorem pePinEdge_cases {d : Dev} {e p now : Nat} {lvl : Bool} (h : d.pinLevel e p ≠ lvl) (hf : d.filtered e p lvl now = true) :
    pePinEdge e p lvl now d = d.pinSeen e p lvl ∨
    ∃ w, pePinEdge e p lvl now d = (d.pinSeen e p lvl).mapPin e fun g => { g with stall := w } := by
  unfold pePinEdge
  rw [if_neg (by rw [hf]; simpa using h)]
  dsimp only
  split
  · exact (ite_eq_or_eq ..).symm.imp id fun h => ⟨_, h⟩
  · exact .inl rfl

/-- TRIG with no line set to the engine. -/
theorem peTrig_quiet {d : Dev} {r : Recorder} {e : Fin 8} {dly : Nat} (h : d.peReady e .trig dly = true) (now : Nat)
    (hl : ∀ k < 8, d.lineTakesPe e true k = false ∧ d.lineTakesPe e false k = false) :
    peTrig e now dly (d, r) = ((d.peDone e dly).bumpI PE_TRIG_OUT e 0, r) := by
  have hact : ((d.peDone e dly).bumpI PE_TRIG_OUT e 0).act = d.act := (Dev.setFi_act ..).trans (Dev.setPin_act ..)
  have hrise : ∀ k < 8, ((d.peDone e dly).bumpI PE_TRIG_OUT e 0).lineTakesPe e true k = false := fun k hk =>
    (lineTakesPe_congr hact ..).trans (hl k hk).1
  have hfall : ∀ k < 8, ((d.peDone e dly).bumpI PE_TRIG_OUT e 0).lineTakesPe e false k = false := fun k hk =>
    (lineTakesPe_congr hact ..).trans (hl k hk).2
  unfold peTrig
  rw [if_pos h]
  dsimp only
  rw [pulseLines_none (x := ((d.peDone e dly).bumpI PE_TRIG_OUT e 0, r)) hrise,
    pulseLines_none (x := ((d.peDone e dly).bumpI PE_TRIG_OUT e 0, r)) hfall]

end Sys2Proof.Machine

open Sys2Proof Sys2Proof.Machine

/-- Settles O28: what a pulse sets off writes neither the line's counter nor an engine's record of it. -/
theorem triggerLinesPulse : Obligations.TriggerLinesPulse := by
  unfold Obligations.TriggerLinesPulse
  refine ⟨?pulse, ?tooSoon, ?disabled, ?pin, ?filtered, ?trig⟩
  case pulse =>
    intro p k s h hen hlast
    obtain ⟨hcount, htrig⟩ := pulseTaken_rules k.isLt s.dev.cyc (s.dev, s.evr)
    refine ⟨_, (pulseTaken k s.dev.cyc (s.dev, s.evr)).2, (exec_swTrig p _ h).trans ?_, hcount, htrig⟩
    have hsoon : s.dev.tooSoon k s.dev.cyc = false := by rw [Dev.tooSoon, hlast]
    simp only [onRec, pulseLines, filter_oneLine, List.foldl_cons, List.foldl_nil, linePulse_eq, hen, hsoon,
      Bool.true_eq_false, Bool.false_eq_true, if_false]
  case tooSoon =>
    intro p k l s h hen hlast hnear
    refine (exec_swTrig p _ h).trans (onRec_eq ?_)
    have hsoon : s.dev.tooSoon k s.dev.cyc = true := by rw [Dev.tooSoon, hlast]; exact decide_eq_true hnear
    simp only [pulseLines, filter_oneLine, List.foldl_cons, List.foldl_nil, linePulse_eq, hen, hsoon, Bool.true_eq_false,
      if_false, if_true]
  case disabled =>
    intro p v s h hen
    exact (exec_swTrig p v h).trans (onRec_eq (pulseLines_disabled hen _))
  case pin =>
    intro pin lvl ph s h hl
    exact ⟨_, onRec_eq (pioLines_quiet h hl), rfl, testBit_newLevel h⟩
  case filtered =>
    intro e pin lvl ph s h hf
    obtain hedge | ⟨w, hedge⟩ := pePinEdge_cases h hf
    · exact ⟨_, runs_onDev (c := .pioEdge (.pe e) pin lvl ph) (f := fun d => pePinEdge e pin lvl (d.cyc + ph) d) rfl hedge,
        pinLevel_pinSeen h, rfl, fun _ _ => rfl, rfl⟩
    · exact ⟨_, runs_onDev (c := .pioEdge (.pe e) pin lvl ph) (f := fun d => pePinEdge e pin lvl (d.cyc + ph) d) rfl hedge,
        pinLevel_pinSeen h, rfl, (onlyPin_mapPin ..).2, (congrArg PeSt.pc (Dev.pin_mapPin_same ..)).trans rfl⟩
  case trig =>
    intro e ph dly s h hl
    refine ⟨_, onRec_eq (f := fun x => peTrig e (x.1.cyc + ph) dly x) (peTrig_quiet h _ hl), ?_, ?_, ?_⟩
    · rw [Dev.fi_bumpI_same _ rfl rfl, Dev.fi_peDone]
    · exact onlyPinWords_trans ((onlyPin_peDone ⟨rfl, fun _ _ => rfl⟩ ..).words _) (onlyPinWords_bumpI ..)
    · exact (Dev.setFi_evq ..).trans (Dev.setPin_evq ..)

end

section
/-! SUPPORT. Proofs about the raw burst (R227, R228, R381). -/
namespace Sys2Proof.Machine

theorem burstState_of_regs {d e : Dev} (h : e.regs = d.regs) : e.burstState = d.burstState := Dev.fi_congr h ..
theorem burstCount_of_regs {d e : Dev} (h : e.regs = d.regs) : e.burstCount = d.burstCount := Dev.fi_congr h ..

/-! ## The end of a burst -/

/-- The state that a burst ends in. -/
def BurstSt.ended (b : BurstSt) : Nat := if b.abort then buABORTED else buDONE

/-- The status of a burst that ends, before what it deferred begins. -/
def burstEnded (d : Dev) : Dev := (d.setF ARY_BURST_STAT_STATE d.burst.ended).raise ARY_IRQ_RAW_BURST_DONE

theorem burstEnd_eq (d : Dev) : burstEnd d = retrainDeferred ((burstEnded d).emit 0x086 .hmp) := rfl

theorem regs_burstEnd (d : Dev) : (burstEnd d).regs = (burstEnded d).regs := by
  rw [burstEnd_eq, retrainDeferred, Dev.onHmp_regs, Dev.emit, Dev.emitSrc_regs]

theorem burst_burstEnd (d : Dev) : (burstEnd d).burst = d.burst := by
  rw [burstEnd_eq, retrainDeferred, Dev.onHmp_burst, Dev.emit, Dev.emitSrc_burst]
  exact (Dev.raiseBits_burst ..).trans (Dev.setFi_burst ..)

theorem frames_burstEnd (d : Dev) : (burstEnd d).frames = d.frames := by
  rw [burstEnd_eq, retrainDeferred, Dev.onHmp_frames, Dev.emit, Dev.emitSrc_frames]
  exact (Dev.raiseBits_frames ..).trans (Dev.setFi_frames ..)

theorem evq_burstEnd (d : Dev) : ∃ x, (burstEnd d).evq = d.evq ++ [x] ∧ x.code = 0x086 := by
  have hevq : (burstEnded d).evq = d.evq := (Dev.raiseBits_evq ..).trans (Dev.setFi_evq ..)
  have hemit := evq_emit (burstEnded d) 0x086 .hmp []
  rw [hevq] at hemit
  rwa [burstEnd_eq, retrainDeferred, Dev.onHmp_evq]

theorem state_burstEnd (d : Dev) : (burstEnd d).burstState = d.burst.ended := by
  have hlt : d.burst.ended < 8 := by
    unfold BurstSt.ended
    split
    · decide
    · decide
  rw [burstState_of_regs (regs_burstEnd d), burstEnded, Dev.burstState, Dev.raise_def, Dev.f_def,
    Dev.fi_raiseBits _ _ _ _ _ _ (by decide), Dev.setF_def, Dev.fi_setFi_same _ _ _ _ _ (by decide) (by decide)]
  exact Nat.mod_eq_of_lt hlt

theorem count_burstEnd (d : Dev) : (burstEnd d).burstCount = d.burstCount := by
  rw [burstCount_of_regs (regs_burstEnd d), burstEnded, Dev.burstCount, Dev.raise_def, Dev.f_def,
    Dev.fi_raiseBits _ _ _ _ _ _ (by decide), Dev.setF_def,
    Dev.fi_setFi_ne _ _ _ _ _ _ _ _ (by decide) (by decide) (by decide) (.inr (by decide)), Dev.burstCount, Dev.f_def]

theorem onlyWords_burstEnd (d : Dev) : onlyWords d (burstEnd d) [0x101C8, 0x10010] :=
  onlyWords_regs (onlyWords_trans (onlyWords_setFi d (F := ARY_BURST_STAT_STATE) (i := 0) (k := 0) (by decide) _)
    (onlyWords_raiseBits _ (p := .ary) (by decide) _)) (regs_burstEnd d)

/-! ## ARM and ABORT -/

/-- A burst that is armed, before its status says so. -/
def burstFresh (d : Dev) : Dev :=
  { d with frames := d.frames.map fun (p : Nat × Frame) => (p.1, { p.2 with burst := false })
           burst := { armAt := some d.cyc, dest := d.a ARY_BURST_CFG_DEST } }

theorem burstArm_eq (d : Dev) : burstArm d =
    ((burstFresh d).setF ARY_BURST_STAT_STATE buARMED).setF ARY_BURST_STAT_COUNT 0 := rfl

theorem burst_burstArm (d : Dev) : (burstArm d).burst = { armAt := some d.cyc, dest := d.a ARY_BURST_CFG_DEST } := by
  rw [burstArm_eq]
  exact (Dev.setFi_burst ..).trans (Dev.setFi_burst ..)

theorem state_burstArm (d : Dev) : (burstArm d).burstState = buARMED := by
  rw [burstArm_eq, Dev.burstState, Dev.f_def, Dev.setF_def,
    Dev.fi_setFi_ne _ _ _ _ _ _ _ _ (by decide) (by decide) (by decide) (.inr (by decide)), Dev.setF_def,
    Dev.fi_setFi_same _ _ _ _ _ (by decide) (by decide)]
  decide

theorem count_burstArm (d : Dev) : (burstArm d).burstCount = 0 := by
  rw [burstArm_eq, Dev.burstCount, Dev.f_def, Dev.setF_def, Dev.fi_setFi_same _ _ _ _ _ (by decide) (by decide), Nat.zero_mod]

/-- A device with the registers, frames and burst of another. -/
abbrev takeBurst (x d : Dev) : Dev := { d with regs := x.regs, frames := x.frames, burst := x.burst }

theorem frame_burstArm (d : Dev) : burstArm d = takeBurst (burstArm d) d := by
  have hset : ∀ (e : Dev) (F : Fld) (v : Nat), e.setF F v = takeBurst (e.setF F v) e := fun e F v =>
    frame_mono takeRegs takeBurst (fun _ _ => rfl) (takeRegs_setFi e F 0 0 v)
  have hfresh : burstFresh d = takeBurst (burstFresh d) d := rfl
  rw [burstArm_eq]
  exact frame_trans takeBurst (fun _ _ _ => rfl) (frame_trans takeBurst (fun _ _ _ => rfl) hfresh (hset _ _ _)) (hset _ _ _)

theorem onlyWords_burstArm (d : Dev) : onlyWords d (burstArm d) [0x101C8] := by
  rw [burstArm_eq]
  exact onlyWords_trans (e := burstFresh d) (onlyWords_of_regs rfl _) (onlyWords_trans
    (onlyWords_setFi _ (F := ARY_BURST_STAT_STATE) (i := 0) (k := 0) (by decide) _)
    (onlyWords_setFi _ (F := ARY_BURST_STAT_COUNT) (i := 0) (k := 0) (by decide) _))

theorem burstAbort_ends {d : Dev} (hst : d.burstState = buARMED ∨ d.burstState = buRECORDING)
    (hw : d.burst.begun = d.burstCount) :
    burstAbort d = burstEnd (d.onBurst fun b => { b with abort := true, cutOff := true }) := by
  unfold burstAbort
  rw [if_pos hst]
  exact if_pos hw

/-! ## A frame written -/

/-- Frame `u` written, before the burst may end with it. -/
def burstWritten (u : Nat) (fs : List BurstFr) (d : Dev) : Dev :=
  let d := d.mapFrame u fun f => { f with burst := false }
  let d := d.onBurst fun b => { b with stored := b.stored ++ fs }
  if d.burst.dest = 0 then { d with hmp := { d.hmp with powerDown := 0 } } else d

theorem burstWrite_ready {d : Dev} {u : Nat} (h : d.burstReady = some u) : ∃ fs, fs.length = (d.frame u).m ∧
    burstWrite d = (let e := (burstWritten u fs d).bump ARY_BURST_STAT_COUNT
      if e.burst.cutOff ∧ e.burst.begun = e.burstCount then burstEnd e else e) := by
  refine ⟨(List.range (d.frame u).m).map (burstPass (d.asOf u) (d.frame u) (d.pf u)), ?_, ?_⟩
  · rw [List.length_map, List.length_range]
  · unfold burstWrite
    rw [h]
    rfl

theorem burstWritten_parts (u : Nat) (fs : List BurstFr) (d : Dev) : (burstWritten u fs d).regs = d.regs ∧
    (burstWritten u fs d).burst.stored = d.burst.stored ++ fs ∧ ((burstWritten u fs d).frame u).burst = false := by
  have hframe : ((d.mapFrame u fun f => { f with burst := false }).frame u).burst = false := by
    rw [Dev.mapFrame, frame_setFrame, if_pos rfl]
  unfold burstWritten
  dsimp only
  split
  · exact ⟨rfl, rfl, hframe⟩
  · exact ⟨rfl, rfl, hframe⟩

/-- The counter of frames written, which the burst's end leaves. -/
theorem burstCounted_rules (d : Dev) : (d.bump ARY_BURST_STAT_COUNT).burstCount = (d.burstCount + 1) % 65536 ∧
    onlyWords d (d.bump ARY_BURST_STAT_COUNT) [0x101C8, 0x10010] := by
  refine ⟨?_, onlyWords_bumpI d (F := ARY_BURST_STAT_COUNT) (i := 0) (k := 0) (by decide)⟩
  rw [Dev.burstCount, Dev.bump, Dev.f_def, Dev.bumpI_def, Dev.fi_setFi_same _ _ _ _ _ (by decide) (by decide),
    Dev.burstCount, Dev.f_def]
  have hwidth : 2 ^ (ARY_BURST_STAT_COUNT.hi - ARY_BURST_STAT_COUNT.lo + 1) = 65536 := by decide
  rw [hwidth]

/-- A burst that may end keeps its count, what it stored and its frames. -/
theorem burstMayEnd_rules (c : Prop) [Decidable c] (d : Dev) :
    (if c then burstEnd d else d).burstCount = d.burstCount ∧ (if c then burstEnd d else d).burst = d.burst ∧
    (if c then burstEnd d else d).frames = d.frames ∧ onlyWords d (if c then burstEnd d else d) [0x101C8, 0x10010] := by
  split
  · exact ⟨count_burstEnd d, burst_burstEnd d, frames_burstEnd d, onlyWords_burstEnd d⟩
  · exact ⟨rfl, rfl, rfl, onlyWords_refl _ _⟩

end Sys2Proof.Machine

open Sys2Proof Sys2Proof.Machine

/-- Settles O29. -/
theorem rawBurstRecords : Obligations.RawBurstRecords := by
  unfold Obligations.RawBurstRecords
  refine ⟨?arm, ?armRefused, ?abort, ?abortIdle, ?write, ?notReady⟩
  case arm =>
    intro p s h hen hrep
    have hrun := runs_gatePage (c := .burstArm p) (f := burstArmWrite p 1#32) rfl h
    rw [burstArmWrite, if_neg fun hor => hor.elim (by omega) (by rw [hrep]; decide)] at hrun
    refine ⟨_, hrun, state_burstArm _, count_burstArm _, ?_, ?_, ?_, frame_burstArm _, onlyWords_burstArm _⟩
    · rw [burst_burstArm]
    · rw [burst_burstArm]
    · rw [burst_burstArm]
  case armRefused =>
    intro p s h hor
    have hrun := runs_gatePage (c := .burstArm p) (f := burstArmWrite p 1#32) rfl h
    rwa [burstArmWrite, if_pos hor] at hrun
  case abort =>
    intro p s h hst hw
    have hrun := runs_gatePage (c := .burstAbort p) (f := burstAbort) rfl h
    rw [burstAbort_ends hst hw] at hrun
    refine ⟨_, hrun, state_burstEnd _, ?_, ?_, evq_burstEnd _, ?_⟩
    · rw [count_burstEnd, burstCount_of_regs (Dev.onBurst_regs ..)]
    · rw [burst_burstEnd, Dev.onBurst_burst]
    · exact onlyWords_trans (onlyWords_of_regs (Dev.onBurst_regs ..) _) (onlyWords_burstEnd _)
  case abortIdle =>
    intro p s h harm hrec
    have hrun := runs_gatePage (c := .burstAbort p) (f := burstAbort) rfl h
    rwa [burstAbort, if_neg fun hor => hor.elim harm hrec] at hrun
  case write =>
    intro u s h
    obtain ⟨fs, hlen, hwrite⟩ := burstWrite_ready h
    obtain ⟨hregs, hstored, hframe⟩ := burstWritten_parts u fs s.dev
    obtain ⟨hcount, hwords⟩ := burstCounted_rules (burstWritten u fs s.dev)
    refine ⟨_, fs, runs_onDev (c := .burstFrameWrite) (f := burstWrite) rfl hwrite, ?_⟩
    dsimp only
    obtain ⟨hc, hb, hf, hw⟩ := burstMayEnd_rules (((burstWritten u fs s.dev).bump ARY_BURST_STAT_COUNT).burst.cutOff ∧
      ((burstWritten u fs s.dev).bump ARY_BURST_STAT_COUNT).burst.begun =
        ((burstWritten u fs s.dev).bump ARY_BURST_STAT_COUNT).burstCount) ((burstWritten u fs s.dev).bump ARY_BURST_STAT_COUNT)
    refine ⟨?_, ?_, hlen, ?_, ?_⟩
    · rw [hc, hcount, burstCount_of_regs hregs]
    · rw [hb]
      exact (congrArg BurstSt.stored (Dev.setFi_burst ..)).trans hstored
    · have hframes : ((burstWritten u fs s.dev).bump ARY_BURST_STAT_COUNT).frames = (burstWritten u fs s.dev).frames :=
        Dev.setFi_frames ..
      rw [Dev.frame, hf, hframes, ← Dev.frame, hframe]
    · exact onlyWords_trans (onlyWords_of_regs hregs _) (onlyWords_trans hwords hw)
  case notReady =>
    intro s h
    have hrun := runs_onDev (c := .burstFrameWrite) (f := burstWrite) (s := s) rfl rfl
    rwa [burstWrite, h] at hrun

end

section
/-! SUPPORT. Rules about lane groups and what they transmit (R434, R451, R454): which words of the registers a change of a
group's state writes, what becomes of the group, and that packets to send change the transmit side alone. -/
namespace Sys2Proof.Machine

/-! ## The transmit side -/

/-- `d` with the transmit side of `x`. -/
abbrev takeTx (x d : Dev) : Dev := { d with tx := x.tx }

theorem takeTx_trans {d e g : Dev} (h : e = takeTx e d) (h' : g = takeTx g e) : g = takeTx g d :=
  frame_trans takeTx (fun _ _ _ => rfl) h h'

theorem takeTx_setTxLane (d : Dev) (l : Nat) (x : TxLane) : d.setTxLane l x = takeTx (d.setTxLane l x) d := rfl

theorem takeTx_setTxGrp (d : Dev) (g : Nat) (x : TxGrp) : d.setTxGrp g x = takeTx (d.setTxGrp g x) d := rfl

theorem takeTx_ite {c : Prop} [Decidable c] {d x y : Dev} (hx : x = takeTx x d) (hy : y = takeTx y d) :
    (if c then x else y) = takeTx (if c then x else y) d := by
  split
  · exact hx
  · exact hy

theorem takeTx_eachLane {f : Nat → Dev → Dev} (h : ∀ l d, f l d = takeTx (f l d) d) (ls : List Nat) (d : Dev) :
    d.eachLane ls f = takeTx (d.eachLane ls f) d := by
  unfold Dev.eachLane
  induction ls generalizing d with
  | nil => rfl
  | cons l ls ih => exact takeTx_trans (h l d) (ih _)

theorem takeTx_txBits (l : Nat) (bs : List Bool) (d : Dev) : txBits l bs d = takeTx (txBits l bs d) d := rfl

theorem takeTx_txOne (l : Nat) (k : BKind) (pay : List Bool) (d : Dev) : txOne l k pay d = takeTx (txOne l k pay d) d := rfl

theorem takeTx_txBlock (l : Nat) (k : BKind) (pay : List Bool) (d : Dev) : txBlock l k pay d = takeTx (txBlock l k pay d) d := by
  have hcount : txCount l k pay d = takeTx (txCount l k pay d) d := takeTx_trans (takeTx_txOne ..) (takeTx_setTxLane ..)
  exact takeTx_trans hcount (takeTx_ite (takeTx_trans (takeTx_setTxLane ..) (takeTx_txOne ..)) rfl)

theorem takeTx_txRow (ls : List Nat) (k : BKind) (pay : Nat → List Byte) (d : Dev) :
    txRow ls k pay d = takeTx (txRow ls k pay d) d := takeTx_eachLane (fun _ _ => takeTx_txBlock ..) ls d

theorem takeTx_txAlignRow (g : Nat) (d : Dev) : txAlignRow g d = takeTx (txAlignRow g d) d :=
  takeTx_trans (takeTx_txRow ..) (takeTx_setTxGrp ..)

theorem takeTx_txStreamRow (g : Nat) (k : BKind) (pay : Nat → List Byte) (d : Dev) :
    txStreamRow g k pay d = takeTx (txStreamRow g k pay d) d := by
  have hrow : ∀ x, (txRow (d.txStream g) k pay d).setTxGrp g x = takeTx ((txRow (d.txStream g) k pay d).setTxGrp g x) d :=
    fun x => takeTx_trans (takeTx_txRow ..) (takeTx_setTxGrp _ _ x)
  exact takeTx_ite (hrow _) (takeTx_trans (hrow _) (takeTx_txAlignRow ..))

theorem takeTx_txRows (g n : Nat) (d : Dev) : txRows g n d = takeTx (txRows g n d) d := by
  induction n generalizing d with
  | zero => rfl
  | succ n ih =>
    exact takeTx_ite rfl (takeTx_trans (takeTx_trans (takeTx_setTxGrp ..) (takeTx_txStreamRow ..)) (ih _))

theorem takeTx_txClear (g : Nat) (d : Dev) : txClear g d = takeTx (txClear g d) d :=
  takeTx_eachLane (fun _ _ => takeTx_ite rfl (takeTx_setTxLane ..)) ..

theorem takeTx_txPackets (g : Nat) (bs : List Byte) (d : Dev) : txPackets g bs d = takeTx (txPackets g bs d) d :=
  takeTx_trans (takeTx_trans (takeTx_setTxGrp ..) (takeTx_txClear ..)) (takeTx_txRows ..)

/-! ## Lanes of a group -/

theorem lane_lt {g l : Nat} (hg : g < 9) (h : l ∈ txLanes g ++ rxLanes g) : l < 44 := by
  rw [List.mem_append, txLanes, rxLanes] at h
  split at h
  case isTrue =>
    simp only [List.mem_range, List.mem_cons, List.not_mem_nil, or_false] at h
    omega
  case isFalse =>
    simp only [List.mem_cons, List.not_mem_nil, or_false] at h
    omega

theorem usedLane_lt {d : Dev} {g l : Nat} (hg : g < 9) (h : l ∈ d.usedAll g) : l < 44 :=
  lane_lt hg (List.mem_of_mem_filter h)

/-- A part of the device that a change of each lane of a list keeps. -/
theorem eachLane_keeps {β : Type} (part : Dev → β) {f : Nat → Dev → Dev} {ls : List Nat}
    (h : ∀ l ∈ ls, ∀ d, part (f l d) = part d) (d : Dev) : part (d.eachLane ls f) = part d := by
  unfold Dev.eachLane
  induction ls generalizing d with
  | nil => rfl
  | cons l ls ih =>
    exact (ih (fun m hm => h m (List.mem_cons_of_mem l hm)) _).trans (h l List.mem_cons_self d)

theorem laneField_keeps {β : Type} (part : Dev → β) {ls : List Nat} {F : Fld} {v : Nat}
    (h : ∀ l ∈ ls, ∀ d, part (d.setFi F l 0 v) = part d) (d : Dev) : part (d.laneField ls F v) = part d :=
  eachLane_keeps part h d

/-! ## Words beside the lanes' pages -/

/-- Addresses beside the lanes' pages. -/
abbrev besideLanes (a : Nat) : Prop := a < 0xB0000 ∨ 0xBB000 ≤ a

/-- Fields of a lane's page that stand once in it. -/
abbrev isLaneFld (F : Fld) : Prop := F.blk = .ln ∧ F.off < 0x400

theorem laneAddr_ne {a l : Nat} {F : Fld} (h : besideLanes a) (hF : isLaneFld F) (hl : l < 44) : a ≠ F.addr l 0 := by
  obtain ⟨hblk, hoff⟩ := hF
  have haddr : F.addr l 0 = 0xB0000 + 0x400 * l + F.off := by rw [Fld.addr, hblk]; rfl
  have h' : a < 0xB0000 ∨ 0xBB000 ≤ a := h
  omega

section Beside
variable {a g : Nat} (ha : besideLanes a) (hg : g < 9)
include ha

theorem word_setFi_lane {F : Fld} (hF : isLaneFld F) {l : Nat} (hl : l < 44) (v : Nat) (d : Dev) :
    (d.setFi F l 0 v).word a = d.word a := by rw [Dev.word_setFi, if_neg (laneAddr_ne ha hF hl)]

theorem word_laneField {F : Fld} (hF : isLaneFld F) {ls : List Nat} (hls : ∀ l ∈ ls, l < 44) (v : Nat) (d : Dev) :
    (d.laneField ls F v).word a = d.word a :=
  laneField_keeps (fun e => e.word a) (fun l hl e => word_setFi_lane ha hF (hls l hl) v e) d

include hg

theorem word_groupTo (st cause : Nat) (d : Dev) : (groupTo g st cause d).word a = d.word a := by
  unfold groupTo
  dsimp only
  refine Eq.trans (ite_keeps (fun e => e.word a) rfl rfl) (Eq.trans (ite_keeps (fun e => e.word a) ?_ rfl)
    ((word_laneField ha (F := LN_STAT_STATE) ⟨rfl, by decide⟩ (fun l hl => usedLane_lt hg (List.mem_of_mem_filter hl)) ..).trans
      (word_laneField ha (F := LN_STAT_STATE) ⟨rfl, by decide⟩ (fun l hl => usedLane_lt hg hl) ..)))
  exact word_laneField ha ⟨rfl, by decide⟩ (fun l hl => lane_lt hg (List.mem_append_right _ hl)) ..

theorem word_laneReset (d : Dev) : (laneReset g d).word a = d.word a := by
  unfold laneReset
  dsimp only
  exact (word_laneField ha ⟨rfl, by decide⟩ (fun l hl => lane_lt hg hl) ..).trans
    ((word_laneField ha ⟨rfl, by decide⟩ (fun l hl => lane_lt hg hl) ..).trans
      ((word_laneField ha ⟨rfl, by decide⟩ (fun l hl => lane_lt hg hl) ..).trans
        (eachLane_keeps (fun e => e.word a) (f := fun l e => e.mapLane l LaneSt.fresh) (fun _ _ _ => rfl) d)))

theorem word_setBackoff (n : Nat) (d : Dev) : (setBackoff g n d).word a = d.word a :=
  word_laneField ha ⟨rfl, by decide⟩ (fun l hl => usedLane_lt hg hl) ..

theorem word_setFails (n : Nat) (d : Dev) : (setFails g n d).word a = d.word a :=
  word_laneField ha ⟨rfl, by decide⟩ (fun l hl => usedLane_lt hg hl) ..

theorem word_groupDeep (cause : Nat) (held : Bool) (d : Dev) : (groupDeep g cause held d).word a = d.word a := by
  unfold groupDeep
  dsimp only
  refine (word_groupTo ha hg ..).trans ((word_laneReset ha hg _).trans (ite_keeps (fun e => e.word a) ?_ rfl))
  exact eachLane_keeps (fun e => e.word a)
    (fun l hl e => word_setFi_lane ha ⟨rfl, by decide⟩ (usedLane_lt hg hl) _ e) d

theorem word_groupRequest (d : Dev) : (groupRequest g d).word a = d.word a :=
  ite_keeps (fun e => e.word a) rfl (ite_keeps (fun e => e.word a) rfl (word_groupDeep ha hg ..))

theorem word_groupRetrain (cause : Nat) (d : Dev) : (groupRetrain g cause d).word a = d.word a :=
  ite_keeps (fun e => e.word a) (word_groupRequest ha hg d)
    ((word_groupDeep ha hg ..).trans ((word_setBackoff ha hg ..).trans (word_setFails ha hg ..)))

end Beside

/-- A register field beside the lanes' pages. -/
theorem fi_of_word {d e : Dev} {F : Fld} {i k : Nat} (h : e.word (F.addr i k) = d.word (F.addr i k)) : e.fi F i k = d.fi F i k :=
  congrArg (fun w => bitsOf w F.hi F.lo) h

/-! ## Groups -/

theorem grp_setGrp (d : Dev) (g h : Nat) (x : GrpSt) : (d.setGrp g x).grp h = if h = g then x else d.grp h := SMap.get_set ..

theorem grp_of_grps {d e : Dev} (h : e.grps = d.grps) (g : Nat) : e.grp g = d.grp g := by rw [Dev.grp, h, Dev.grp]

theorem grps_laneField (ls : List Nat) (F : Fld) (v : Nat) (d : Dev) : (d.laneField ls F v).grps = d.grps :=
  laneField_keeps Dev.grps (fun _ _ _ => rfl) d

theorem lanes_laneField (ls : List Nat) (F : Fld) (v : Nat) (d : Dev) : (d.laneField ls F v).lanes = d.lanes :=
  laneField_keeps Dev.lanes (fun _ _ _ => rfl) d

theorem grps_groupTo (g st cause : Nat) (d : Dev) :
    (groupTo g st cause d).grps = (d.mapGrp g fun x => { x with state := st }).grps := by
  unfold groupTo
  dsimp only
  exact Eq.trans (ite_keeps Dev.grps rfl rfl) (Eq.trans (ite_keeps Dev.grps (grps_laneField ..) rfl)
    ((grps_laneField ..).trans (grps_laneField ..)))

theorem grp_groupTo (g st cause h : Nat) (d : Dev) :
    (groupTo g st cause d).grp h = if h = g then { d.grp g with state := st } else d.grp h :=
  (grp_of_grps (grps_groupTo ..) h).trans (grp_setGrp ..)

theorem grp_groupTo_same (g st cause : Nat) (d : Dev) : (groupTo g st cause d).grp g = { d.grp g with state := st } :=
  (grp_groupTo ..).trans (if_pos rfl)

theorem lanes_groupTo (g st cause : Nat) (d : Dev) : (groupTo g st cause d).lanes = d.lanes := by
  unfold groupTo
  dsimp only
  exact Eq.trans (ite_keeps Dev.lanes rfl rfl) (Eq.trans (ite_keeps Dev.lanes (lanes_laneField ..) rfl)
    ((lanes_laneField ..).trans (lanes_laneField ..)))

end Sys2Proof.Machine
end

section
/-! SUPPORT. Proofs about the states of satellite ports (R257 to R259, R274, R275). -/
namespace Sys2Proof.Machine

/-! ## Ports -/

theorem port_setPort_same (d : Dev) (p : Nat) (x : SpSt) : (d.setPort p x).port p = x := SMap.get_set_same ..

theorem port_mapPort_same (d : Dev) (p : Nat) (f : SpSt → SpSt) : (d.mapPort p f).port p = f (d.port p) :=
  port_setPort_same ..

theorem port_of_sp {d e : Dev} (h : e.sp = d.sp) (p : Nat) : e.port p = d.port p := by rw [Dev.port, h, Dev.port]

theorem lane_setLane (d : Dev) (l m : Nat) (x : LaneSt) : (d.setLane l x).lane m = if m = l then x else d.lane m :=
  SMap.get_set ..

theorem lane_setLane_same (d : Dev) (l : Nat) (x : LaneSt) : (d.setLane l x).lane l = x := SMap.get_set_same ..

theorem lane_of_lanes {d e : Dev} (h : e.lanes = d.lanes) (l : Nat) : e.lane l = d.lane l := by rw [Dev.lane, h, Dev.lane]

theorem spState_of_regs {d e : Dev} (h : e.regs = d.regs) (p : Nat) : e.spState p = d.spState p := Dev.fi_congr h ..

theorem spState_setFi {d : Dev} {p : Nat} (F : Fld) (i k v : Nat) (h : F.addr i k ≠ SP_PORT_STAT_STATE.addr p 0) :
    (d.setFi F i k v).spState p = d.spState p :=
  fi_of_word ((Dev.word_setFi ..).trans (if_neg h.symm))

theorem spState_setSpState (d : Dev) (p st : Nat) : (setSpState p st d).spState p = st % 8 :=
  Dev.fi_setFi_same _ _ _ _ _ (by decide) (by decide)

/-- The header of a page lies before the words of port states. -/
theorem spState_raiseBits (d : Dev) {p : Nat} (q : Page) (b : Word) (h : SP_PORT_STAT_STATE.addr p 0 ≠ q.base + 0x10) :
    (d.raiseBits q b).spState p = d.spState p := Dev.fi_raiseBits _ _ _ _ _ _ h

theorem spAddr (F : Fld) (h : F.blk = .sp) (p k : Nat) : F.addr p k = 0xC0000 + 0x1000 * p + F.off + F.stride * k := by
  rw [Fld.addr, h]; rfl

theorem spPage_base (p : Fin 8) : (spPage p).base = 0xC0000 + 0x1000 * p.val := by
  have hval : (Fin.ofNat 8 p.val).val = p.val := Nat.mod_eq_of_lt p.isLt
  change 0xC0000 + 0x1000 * (Fin.ofNat 8 p.val).val = _
  rw [hval]

/-! ## Credit packets -/

/-- `d` with the registers, the ports and the transmit side of `x`. -/
abbrev takeSent (x d : Dev) : Dev := { d with regs := x.regs, sp := x.sp, tx := x.tx }

theorem takeSent_trans {d e g : Dev} (h : e = takeSent e d) (h' : g = takeSent g e) : g = takeSent g d :=
  frame_trans takeSent (fun _ _ _ => rfl) h h'

theorem takeSent_of_tx {d e : Dev} (h : e = takeTx e d) : e = takeSent e d := frame_mono takeTx takeSent (fun _ _ => rfl) h

theorem takeSent_setPort (d : Dev) (p : Nat) (x : SpSt) : d.setPort p x = takeSent (d.setPort p x) d := rfl

theorem takeSent_setFi (d : Dev) (F : Fld) (i k v : Nat) : d.setFi F i k v = takeSent (d.setFi F i k v) d := rfl

/-- A part of the device that neither packets to send nor a field of a port change. -/
theorem tx_keeps {β : Type} (part : Dev → β) (h : ∀ x d, part (takeTx x d) = part d) (g : Nat) (bs : List Byte) (d : Dev) :
    part (txPackets g bs d) = part d := (congrArg part (takeTx_txPackets ..)).trans (h ..)

section Credit
variable (p : Nat) (ps : List (List Byte)) (d : Dev)

theorem takeSent_spTransmit : spTransmit p ps d = takeSent (spTransmit p ps d) d :=
  takeSent_trans (takeSent_setPort ..) (takeSent_of_tx (takeTx_txPackets ..))

theorem regs_spTransmit : (spTransmit p ps d).regs = d.regs := tx_keeps Dev.regs (fun _ _ => rfl) ..

theorem sp_spTransmit : (spTransmit p ps d).sp = (d.mapPort p fun q => { q with tx := ps }).sp :=
  tx_keeps Dev.sp (fun _ _ => rfl) ..

theorem sendCredit_eq : sendCredit p ps d = (spTransmit p (ps ++ [d.creditPacket p])
    (d.mapPort p fun q => { q with limitSent := q.limit })).setFi SP_CREDIT_STAT_LIMIT p 0 (d.creditLimit p) := rfl

theorem takeSent_sendCredit : sendCredit p ps d = takeSent (sendCredit p ps d) d :=
  takeSent_trans (takeSent_trans (takeSent_setPort ..) (takeSent_spTransmit ..)) (takeSent_setFi ..)

theorem evq_sendCredit : (sendCredit p ps d).evq = d.evq :=
  (sendCredit_eq p ps d).symm ▸ (Dev.setFi_evq ..).trans (tx_keeps Dev.evq (fun _ _ => rfl) ..)

theorem onlyWords_sendCredit : onlyWords d (sendCredit p ps d) [SP_CREDIT_STAT_LIMIT.addr p 0] :=
  (sendCredit_eq p ps d).symm ▸ onlyWords_trans
    (onlyWords_of_regs ((regs_spTransmit p (ps ++ [d.creditPacket p]) _).trans (Dev.setPort_regs ..)) _)
    (onlyWords_setFi _ (List.mem_singleton.mpr rfl) _)

/-- What a port has sent, once a credit packet leaves behind others. -/
theorem port_sendCredit : (sendCredit p ps d).port p =
    { d.port p with limitSent := (d.port p).limit, tx := ps ++ [d.creditPacket p] } := by
  rw [sendCredit_eq, port_of_sp (Dev.setFi_sp ..), port_of_sp (sp_spTransmit ..), port_mapPort_same, port_mapPort_same]

end Credit

/-- R274: the credit timer of a port that is UP. -/
theorem runs_satCreditTimer (p : Fin 8) {s : State} (h : s.dev.spState p = spUP) :
    runs (.satCreditTimer p) s (sendCredit p [] s.dev) :=
  runs_onDev (c := .satCreditTimer p) (f := fun d => if d.spState p = spUP then sendCredit p [] d else d) rfl (if_pos h)

/-! ## A port goes down -/

theorem evq_spTrained (p : Nat) (d : Dev) : (spTrained p d).evq = d.evq := ite_keeps Dev.evq rfl rfl

theorem fi_spTrained (p : Nat) (F : Fld) (i k : Nat) (h : F.addr i k ≠ SP_PORT_STAT_STATE.addr p 0) (d : Dev) :
    (spTrained p d).fi F i k = d.fi F i k :=
  ite_keeps (fun e => e.fi F i k) (fi_of_word ((Dev.word_setFi ..).trans (if_neg h))) rfl

/-- The word of port states lies beside the lanes' pages. -/
theorem besideLanes_sp {F : Fld} (h : F.blk = .sp) (p k : Nat) : besideLanes (F.addr p k) :=
  .inr (by rw [spAddr F h]; omega)

/-- The aligning port goes down, and asks for a new attempt of its lanes. -/
theorem spDown_aligning {d : Dev} {p : Nat} (h : d.spState p ≠ spUP) :
    spDown p d = spTrained p ((setSpState p spDOWN (d.bumpI SP_ALIGN_LOSS p 0)).emit 0x069 (spPage p)) := by
  unfold spDown
  rw [if_neg h]

theorem fi_retrain {g : Nat} (hg : g < 9) (cause : Nat) {F : Fld} (h : F.blk = .sp) (p k : Nat) (d : Dev) :
    (groupRetrain g cause d).fi F p k = d.fi F p k := fi_of_word (word_groupRetrain (besideLanes_sp h p k) hg cause d)

/-- R275: the limit of ALIGN. -/
theorem runs_spAlignTimeout (p : Fin 8) {s : State} (h : s.dev.spState p = spALIGN) :
    runs (.spAlignTimeout p) s (spDown p (groupRetrain (1 + p) 0 s.dev)) :=
  runs_onDev (c := .spAlignTimeout p) (f := fun d => if d.spState p = spALIGN then spDown p (groupRetrain (1 + p) 0 d) else d)
    rfl (if_pos h)

theorem alignLoss_ne (p : Nat) : SP_ALIGN_LOSS.addr p 0 ≠ SP_PORT_STAT_STATE.addr p 0 := by
  have hcount : SP_ALIGN_LOSS.addr p 0 = 0xC0000 + 0x1000 * p + 0xF78 + 0 * 0 := spAddr _ rfl p 0
  have hstate : SP_PORT_STAT_STATE.addr p 0 = 0xC0000 + 0x1000 * p + 0x1C0 + 0 * 0 := spAddr _ rfl p 0
  omega

section AlignTimeout
variable (p : Fin 8) {d : Dev} (h : d.spState p = spALIGN)
include h

theorem spDown_retrained : spDown p (groupRetrain (1 + p) 0 d) = spTrained p
    ((setSpState p spDOWN ((groupRetrain (1 + p) 0 d).bumpI SP_ALIGN_LOSS p 0)).emit 0x069 (spPage p)) := by
  refine spDown_aligning ?_
  rw [Dev.spState, fi_retrain (by omega) 0 rfl]
  exact h.trans_ne (by decide)

theorem alignLoss_counted :
    (spDown p (groupRetrain (1 + p) 0 d)).fi SP_ALIGN_LOSS p 0 = (d.fi SP_ALIGN_LOSS p 0 + 1) % 2 ^ 32 := by
  rw [spDown_retrained p h, fi_spTrained p _ _ _ (alignLoss_ne p), Dev.emit, Dev.fi_emitSrc, setSpState,
    fi_of_word ((Dev.word_setFi ..).trans (if_neg (alignLoss_ne p))), Dev.fi_bumpI_same _ rfl rfl, fi_retrain (by omega) 0 rfl]

theorem alignLoss_event : ∃ x ∈ (spDown p (groupRetrain (1 + p) 0 d)).evq, x.code = 0x069 := by
  obtain ⟨x, hx, hcode⟩ := evq_emit (setSpState p spDOWN ((groupRetrain (1 + p) 0 d).bumpI SP_ALIGN_LOSS p 0)) 0x069 (spPage p) []
  refine ⟨x, ?_, hcode⟩
  rw [spDown_retrained p h, evq_spTrained, hx]
  exact List.mem_append_right _ (List.mem_singleton.mpr rfl)

end AlignTimeout

/-! ## A port comes up -/

/-- The limit and the counts of bytes with which a port comes up. -/
def SpSt.freshUp (q : SpSt) : SpSt :=
  { q with limit := 8176, limitSent := 8176, received := 0, left := 0,
           strm := [], search := false, missed := (0, 0) }

/-- The port as it comes up, with its event. -/
def raisedUp (p : Nat) (d : Dev) : Dev :=
  ((setSpState p spUP (d.mapPort p SpSt.freshUp)).raiseI SP_IRQ_RAW_PORT_UP p).emit 0x068 (spPage p)

/-- The port that is up, before its HELLO and its first credit packet. -/
def measuredUp (p : Nat) (d : Dev) : Dev :=
  (d.free.2.setFi SP_RX_DELAY_NS p 0 d.free.1.toNat).setFi SP_HELLO_STAT_VALID p 0 0

/-- Its lanes count blocks from their markers on, L0 first. -/
def countedUp (p : Nat) (d : Dev) : Dev :=
  ((d.mapLane (spLane p false) fun x => { x with since := 0 }).mapLane (spLane p true) fun x => { x with since := 0 }).mapGrp
    (1 + p) fun g => { g with turn := false }

theorem spUp_eq (p : Nat) (d : Dev) :
    ∃ hello, spUp p d = sendCredit p [hello] (countedUp p (measuredUp p (raisedUp p d))) := ⟨_, rfl⟩

theorem regs_countedUp (p : Nat) (d : Dev) : (countedUp p d).regs = d.regs := rfl
theorem sp_countedUp (p : Nat) (d : Dev) : (countedUp p d).sp = d.sp := rfl
theorem evq_countedUp (p : Nat) (d : Dev) : (countedUp p d).evq = d.evq := rfl
theorem sp_measuredUp (p : Nat) (d : Dev) : (measuredUp p d).sp = d.sp := rfl
theorem evq_measuredUp (p : Nat) (d : Dev) : (measuredUp p d).evq = d.evq := rfl

/-- Words of a port's page beside its state. -/
theorem spAddr_ne_state {F : Fld} (h : F.blk = .sp) (hstr : F.stride = 0) (hoff : F.off ≠ 0x1C0) (p : Nat) :
    F.addr p 0 ≠ SP_PORT_STAT_STATE.addr p 0 := by
  have hstate : SP_PORT_STAT_STATE.addr p 0 = 0xC0000 + 0x1000 * p + 0x1C0 + 0 * 0 := spAddr _ rfl p 0
  rw [spAddr F h, hstate, hstr]
  omega

theorem spState_measuredUp (p : Nat) (d : Dev) : (measuredUp p d).spState p = d.spState p :=
  (spState_setFi _ _ _ _ (spAddr_ne_state rfl rfl (by decide) p)).trans
    (spState_setFi _ _ _ _ (spAddr_ne_state rfl rfl (by decide) p))

theorem spState_sendCredit (p : Nat) (ps : List (List Byte)) (d : Dev) : (sendCredit p ps d).spState p = d.spState p :=
  fi_of_word (onlyWords_sendCredit p ps d _ fun h =>
    spAddr_ne_state (F := SP_CREDIT_STAT_LIMIT) rfl rfl (by decide) p (List.mem_singleton.mp h).symm)

section Up
variable (p : Fin 8) (d : Dev)

theorem spState_raisedUp : (raisedUp p d).spState p = spUP := by
  have hne : SP_PORT_STAT_STATE.addr p 0 ≠ (blkPage .sp p).base + 0x10 := by
    have hbase : (blkPage .sp p).base = 0xC0000 + 0x1000 * p.val := spPage_base p
    have hstate : SP_PORT_STAT_STATE.addr p 0 = 0xC0000 + 0x1000 * p.val + 0x1C0 + 0 * 0 := spAddr _ rfl p 0
    omega
  exact (spState_raiseBits _ _ _ hne).trans (spState_setSpState (d.mapPort p SpSt.freshUp) p spUP)

theorem port_raisedUp : (raisedUp p d).port p = (d.port p).freshUp :=
  (port_of_sp (Dev.raiseBits_sp ..) p).trans (port_mapPort_same ..)

theorem evq_raisedUp : ∃ x, (raisedUp p d).evq = d.evq ++ [x] ∧ x.code = 0x068 := by
  obtain ⟨x, hx, hcode⟩ := evq_emit ((setSpState p spUP (d.mapPort p SpSt.freshUp)).raiseI SP_IRQ_RAW_PORT_UP p)
    0x068 (spPage p) []
  refine ⟨x, hx.trans ?_, hcode⟩
  rw [Dev.raiseI_def, Dev.raiseBits_evq]
  rfl

theorem spState_spUp : (spUp p d).spState p = spUP := by
  obtain ⟨hello, heq⟩ := spUp_eq p d
  rw [heq, spState_sendCredit, spState_of_regs (regs_countedUp ..), spState_measuredUp, spState_raisedUp]

theorem port_spUp : ((spUp p d).port p).limit = 8176 ∧ ((spUp p d).port p).tx.length = 2 := by
  obtain ⟨hello, heq⟩ := spUp_eq p d
  rw [heq, port_sendCredit, port_of_sp (sp_countedUp ..), port_of_sp (sp_measuredUp ..), port_raisedUp]
  exact ⟨rfl, rfl⟩

theorem evq_spUp : ∃ x, (spUp p d).evq = d.evq ++ [x] ∧ x.code = 0x068 := by
  obtain ⟨hello, heq⟩ := spUp_eq p d
  obtain ⟨x, hx, hcode⟩ := evq_raisedUp p d
  refine ⟨x, ?_, hcode⟩
  rw [heq, evq_sendCredit, evq_countedUp, evq_measuredUp, hx]

end Up

/-! ## Markers -/

/-- A lane's marker has been found. -/
def foundMarker (p : Nat) (l1 : Bool) (n : Nat) (t : List LnItem) (d : Dev) : Dev :=
  (d.setLane (spLane p l1) { d.lane (spLane p l1) with q := t, since := 0 }).mapPort p fun q => q.setMk l1 (some (some n))

theorem port_foundMarker (p : Nat) (l1 : Bool) (n : Nat) (t : List LnItem) (d : Dev) :
    (foundMarker p l1 n t d).port p = (d.port p).setMk l1 (some (some n)) := port_mapPort_same ..

theorem spFindMarker_found {p : Nat} {l1 : Bool} {n : Nat} {t : List LnItem} {d : Dev}
    (hmk : (if l1 then (d.port p).mk1 else (d.port p).mk0) = none)
    (h : findMarker l1 (d.lane (spLane p l1)).q = some (n, t)) :
    spFindMarker p l1 d = spPair p (foundMarker p l1 n t d) := by
  unfold spFindMarker
  dsimp only
  rw [hmk, if_neg (by decide), h]
  rfl

/-- One lane's marker waits for the other's. -/
theorem spPair_alone {p : Nat} {d : Dev} (h : (d.port p).mk0 = none ∨ (d.port p).mk1 = none) : spPair p d = d := by
  unfold spPair
  dsimp only
  split
  case h_1 m0 m1 h0 h1 => exact (h.elim (fun h => nomatch h0.symm.trans h) fun h => nomatch h1.symm.trans h)
  case h_2 => rfl

/-- Two markers that agree, the second time. -/
theorem spPair_agree {p n : Nat} {d : Dev} (h0 : (d.port p).mk0 = some (some n)) (h1 : (d.port p).mk1 = some (some n))
    (hseen : (d.port p).pairSeen = true) (hst : d.spState p = spALIGN) :
    spPair p d = spUp p (spSkew p (d.setPort p { d.port p with mk0 := none, mk1 := none })) := by
  unfold spPair
  dsimp only
  rw [h0, h1]
  dsimp only
  rw [if_pos rfl, if_pos hst, if_pos hseen]

theorem runs_satMarkerBlock {p : Fin 8} (l1 : Bool) {s : State} (h : s.dev.spState p = spALIGN) :
    runs (.satMarkerBlock p l1) s (spFindMarker p l1 s.dev) :=
  runs_onDev (c := .satMarkerBlock p l1) (f := fun d =>
    if d.spState p = spALIGN then spFindMarker p l1 d else if d.spState p = spUP then spSlotMarker p l1 d else d) rfl (if_pos h)

theorem setMk_alone {q : SpSt} (l1 : Bool) (m : Option (Option Nat)) (h0 : q.mk0 = none) (h1 : q.mk1 = none) :
    (q.setMk l1 m).mk0 = none ∨ (q.setMk l1 m).mk1 = none := by
  cases l1
  case false => exact .inr h1
  case true => exact .inl h0

theorem evq_paired (p : Nat) (d : Dev) (x : SpSt) : (spSkew p (d.setPort p x)).evq = d.evq := rfl

theorem evq_foundMarker (p : Nat) (l1 : Bool) (n : Nat) (t : List LnItem) (d : Dev) :
    (foundMarker p l1 n t d).evq = d.evq := rfl

end Sys2Proof.Machine

open Sys2Proof Sys2Proof.Machine

/-- Settles O30: a marker waits for the other lane's, and two that agree bring the port UP with its HELLO, its first
credit packet and its event; the limit of ALIGN counts a loss; the credit timer sends the limit alone. -/
theorem satellitePortsAlign : Obligations.SatellitePortsAlign := by
  unfold Obligations.SatellitePortsAlign
  refine ⟨?first, ?pair, ?timeout, ?elsewhere, ?credit⟩
  case first =>
    intro p l1 n t s hst hfind h0 h1
    have hpair : spPair p (foundMarker p l1 n t s.dev) = foundMarker p l1 n t s.dev :=
      spPair_alone (by rw [port_foundMarker]; exact setMk_alone l1 _ h0 h1)
    refine ⟨foundMarker p l1 n t s.dev, ?_, lane_setLane_same .., port_foundMarker .., rfl⟩
    rw [← hpair, ← spFindMarker_found (by cases l1 <;> assumption) hfind]
    exact runs_satMarkerBlock l1 hst
  case pair =>
    intro p n t s hst hfind h0 h1 hseen
    have hport := port_foundMarker p true n t s.dev
    have hpair := spPair_agree (p := p) (n := n) (d := foundMarker p true n t s.dev) (by rw [hport]; exact h0)
      (by rw [hport]; rfl) (by rw [hport]; exact hseen) hst
    have hrun := runs_satMarkerBlock true hst
    rw [spFindMarker_found (l1 := true) h1 hfind, hpair] at hrun
    have hevq := evq_paired p (foundMarker p true n t s.dev)
      { (foundMarker p true n t s.dev).port p with mk0 := none, mk1 := none }
    rw [evq_foundMarker] at hevq
    generalize spSkew p.val _ = d at hrun hevq
    obtain ⟨hlimit, htx⟩ := port_spUp p d
    exact ⟨_, hrun, spState_spUp .., hlimit, htx, hevq ▸ evq_spUp p d⟩
  case timeout =>
    intro p s hst
    exact ⟨_, runs_spAlignTimeout p hst, alignLoss_counted p hst, alignLoss_event p hst⟩
  case elsewhere =>
    intro p s hst
    exact runs_onDev (c := .spAlignTimeout p)
      (f := fun d => if d.spState p = spALIGN then spDown p (groupRetrain (1 + p) 0 d) else d) rfl (if_neg hst)
  case credit =>
    intro p s hst
    have hport := port_sendCredit p [] s.dev
    exact ⟨_, runs_satCreditTimer p hst, congrArg SpSt.tx hport, congrArg SpSt.limitSent hport, takeSent_sendCredit ..,
      onlyWords_sendCredit p [] s.dev⟩
end

section
/-! SUPPORT. Proofs about the packets of satellites (R261, R262, R266, R267, R276): what is stored, and what drains from
the buffer, leave the sensors' frames as the packet made them. -/
namespace Sys2Proof.Machine

/-! ## Virtual sensors -/

theorem vs_setPort_same (d : Dev) (p v : Nat) (x : SpSt) : (d.setPort p x).vs p v = SMap.get noVs x.vs v := by
  rw [Dev.vs, port_setPort_same]

theorem vs_of_port {d e : Dev} {p : Nat} (h : (e.port p).vs = (d.port p).vs) (v : Nat) : e.vs p v = d.vs p v := by
  rw [Dev.vs, h, Dev.vs]

theorem vs_of_sp {d e : Dev} (h : e.sp = d.sp) (p v : Nat) : e.vs p v = d.vs p v :=
  vs_of_port (congrArg SpSt.vs (port_of_sp h p)) v

theorem vs_setVs (d : Dev) (p v w : Nat) (x : VsSt) : (d.setVs p v x).vs p w = if w = v then x else d.vs p w :=
  (vs_setPort_same ..).trans (SMap.get_set ..)

theorem vs_setVs_same (d : Dev) (p v : Nat) (x : VsSt) : (d.setVs p v x).vs p v = x := (vs_setVs ..).trans (if_pos rfl)

theorem vs_mapVs_same (d : Dev) (p v : Nat) (f : VsSt → VsSt) : (d.mapVs p v f).vs p v = f (d.vs p v) := vs_setVs_same ..

/-- A part of the device that packets sent to a satellite do not change. -/
theorem sendCredit_keeps {β : Type} (part : Dev → β) (h : ∀ x d, part (takeSent x d) = part d) (p : Nat)
    (ps : List (List Byte)) (d : Dev) : part (sendCredit p ps d) = part d :=
  (congrArg part (takeSent_sendCredit p ps d)).trans (h ..)

/-- What a virtual sensor knows of its open frame, beside the lines and what waits in the buffer. -/
def VsSt.core (x : VsSt) : VsSt :=
  { x with good := [], bad := [], lineCrcs := [], q := [], leaving := none, next := 0, paused := none, urgentUsed := false }

/-- What later packets and the buffer leave of a frame: its shape and count of lines, and the marks set. -/
structure FrameLater (f g : Frame) : Prop where
  member : g.member = f.member
  fid : g.fid = f.fid
  w : g.w = f.w
  h : g.h = f.h
  bits : g.bits = f.bits
  sent : g.linesSent = f.linesSent
  marks : ∀ b, f.ingest.testBit b = true → g.ingest.testBit b = true

theorem FrameLater.refl (f : Frame) : FrameLater f f := ⟨rfl, rfl, rfl, rfl, rfl, rfl, fun _ h => h⟩

theorem FrameLater.trans {f g k : Frame} (h : FrameLater f g) (h' : FrameLater g k) : FrameLater f k :=
  ⟨h'.member.trans h.member, h'.fid.trans h.fid, h'.w.trans h.w, h'.h.trans h.h, h'.bits.trans h.bits, h'.sent.trans h.sent,
    fun b hb => h'.marks b (h.marks b hb)⟩

/-- What a port carries on while it stores, drains and marks: its sensors' open frames, the shape and marks of frames, its
count of wrong lines; and no block begins to stop. -/
structure Carries (p : Nat) (d e : Dev) : Prop where
  vs : ∀ w, (e.vs p w).core = (d.vs p w).core
  frames : ∀ u, FrameLater (d.frame u) (e.frame u)
  stopping : ∀ q ∈ e.com.stopping, q ∈ d.com.stopping
  next : e.nextFrame = d.nextFrame
  wrong : ∀ w < 4, e.fi SP_LINE_CRC_ERR p w = d.fi SP_LINE_CRC_ERR p w

theorem Carries.refl (p : Nat) (d : Dev) : Carries p d d :=
  ⟨fun _ => rfl, fun _ => .refl _, fun _ h => h, rfl, fun _ _ => rfl⟩

theorem Carries.trans {p : Nat} {d e g : Dev} (h : Carries p d e) (h' : Carries p e g) : Carries p d g :=
  ⟨fun w => (h'.vs w).trans (h.vs w), fun u => (h.frames u).trans (h'.frames u), fun q hq => h.stopping q (h'.stopping q hq),
    h'.next.trans h.next, fun w hw => (h'.wrong w hw).trans (h.wrong w hw)⟩

theorem Carries.ite {p : Nat} {c : Prop} [Decidable c] {d x y : Dev} (hx : Carries p d x) (hy : Carries p d y) :
    Carries p d (if c then x else y) := by
  split
  · exact hx
  · exact hy

theorem frameLater_of_frames {d e : Dev} (h : e.frames = d.frames) (u : Nat) : FrameLater (d.frame u) (e.frame u) := by
  have heq : e.frame u = d.frame u := by rw [Dev.frame, h, Dev.frame]
  exact heq ▸ .refl _

/-- A change of other parts of the device. -/
theorem carries_of {p : Nat} {d e : Dev} (hsp : e.sp = d.sp) (hframes : e.frames = d.frames) (hcom : e.com = d.com)
    (hnext : e.nextFrame = d.nextFrame) (hwrong : ∀ w < 4, e.fi SP_LINE_CRC_ERR p w = d.fi SP_LINE_CRC_ERR p w) :
    Carries p d e :=
  ⟨fun w => congrArg VsSt.core (vs_of_sp hsp p w), frameLater_of_frames hframes, fun _ h => hcom ▸ h, hnext, hwrong⟩

section Carried
variable {p : Nat} {d : Dev}

theorem carries_setFi {F : Fld} {i k : Nat} (h : ∀ w < 4, F.addr i k ≠ SP_LINE_CRC_ERR.addr p w) (v : Nat) :
    Carries p d (d.setFi F i k v) :=
  carries_of rfl rfl rfl rfl fun w hw => fi_of_word ((Dev.word_setFi ..).trans (if_neg (h w hw).symm))

/-- Another field of a port's page. -/
theorem carries_setSp {F : Fld} {k : Nat} (hblk : F.blk = .sp)
    (h : F.off + F.stride * k < 0xF10 ∨ 0xF20 ≤ F.off + F.stride * k) (v : Nat) : Carries p d (d.setFi F p k v) := by
  refine carries_setFi (fun w hw => ?_) v
  have hwrong : SP_LINE_CRC_ERR.addr p w = 0xC0000 + 0x1000 * p + 0xF10 + 4 * w := spAddr _ rfl p w
  rw [spAddr F hblk, hwrong]
  omega

theorem pageBase_mod (q : Page) : q.base % 0x400 = 0 := by
  have h : ∀ b : Blk, b.base % 0x400 = 0 ∧ b.size % 0x400 = 0 := fun b => by cases b <;> decide
  obtain ⟨hb, hs⟩ := h q.blk
  rw [Page.base, Nat.add_mod, hb, Nat.mul_mod, hs, Nat.zero_mul]

/-- A word of a page's common header. -/
theorem header_ne_wrong (q : Page) {a : Nat} (ha : a < 0x40) (p w : Nat) (hw : w < 4) :
    q.base + a ≠ SP_LINE_CRC_ERR.addr p w := by
  have hwrong : SP_LINE_CRC_ERR.addr p w = 0xC0000 + 0x1000 * p + 0xF10 + 4 * w := spAddr _ rfl p w
  have hmod := pageBase_mod q
  omega

theorem carries_setHf (q : Page) {F : Fld} (h : F.off < 0x40) (v : Nat) : Carries p d (d.setHf q F v) :=
  carries_of rfl rfl rfl rfl fun w hw => Dev.fi_setHf _ _ (header_ne_wrong q h p w hw).symm

theorem carries_raiseBits (q : Page) (b : Word) : Carries p d (d.raiseBits q b) :=
  carries_of (Dev.raiseBits_sp ..) (Dev.raiseBits_frames ..) (Dev.raiseBits_com ..) (Dev.raiseBits_nextFrame ..) fun w hw =>
    Dev.fi_raiseBits _ _ _ _ _ _ (header_ne_wrong q (by decide) p w hw).symm

theorem carries_setPort {x : SpSt} (h : x.vs = (d.port p).vs) : Carries p d (d.setPort p x) :=
  ⟨fun _ => congrArg VsSt.core ((vs_setPort_same ..).trans (h ▸ rfl)), frameLater_of_frames rfl, fun _ h => h, rfl,
    fun _ _ => rfl⟩

theorem carries_setVs {v : Nat} {x : VsSt} (h : x.core = (d.vs p v).core) : Carries p d (d.setVs p v x) := by
  refine ⟨fun m => ?_, frameLater_of_frames rfl, fun _ h => h, rfl, fun _ _ => rfl⟩
  rw [vs_setVs]
  split
  case isTrue heq => rw [heq, h]
  case isFalse => rfl

theorem carries_mapVs {v : Nat} {f : VsSt → VsSt} (h : ∀ x, (f x).core = x.core) : Carries p d (d.mapVs p v f) :=
  carries_setVs (h _)

theorem carries_mapFrame {u : Nat} {f : Frame → Frame} (h : ∀ x, FrameLater x (f x)) : Carries p d (d.mapFrame u f) := by
  refine ⟨fun _ => rfl, fun w => ?_, fun _ h => h, rfl, fun _ _ => rfl⟩
  rw [Dev.mapFrame, frame_setFrame]
  split
  case isTrue heq => exact heq ▸ h _
  case isFalse => exact .refl _

theorem carries_onCom {f : CommitSt → CommitSt} (h : ∀ q ∈ (f d.com).stopping, q ∈ d.com.stopping) :
    Carries p d (d.onCom f) :=
  ⟨fun _ => rfl, frameLater_of_frames rfl, h, rfl, fun _ _ => rfl⟩

theorem carries_sendCredit (ps : List (List Byte)) : Carries p d (sendCredit p ps d) := by
  have hframes : (sendCredit p ps d).frames = d.frames := sendCredit_keeps Dev.frames (fun _ _ => rfl) p ps d
  have hcom : (sendCredit p ps d).com = d.com := sendCredit_keeps Dev.com (fun _ _ => rfl) p ps d
  have hnext : (sendCredit p ps d).nextFrame = d.nextFrame := sendCredit_keeps Dev.nextFrame (fun _ _ => rfl) p ps d
  refine ⟨fun w => ?_, frameLater_of_frames hframes, fun _ h => hcom ▸ h, hnext, fun w hw => ?_⟩
  · exact congrArg VsSt.core (vs_of_port ((congrArg SpSt.vs (port_sendCredit p ps d)).trans rfl) w)
  · refine fi_of_word (onlyWords_sendCredit p ps d _ fun h => ?_)
    have hwrong : SP_LINE_CRC_ERR.addr p w = 0xC0000 + 0x1000 * p + 0xF10 + 4 * w := spAddr _ rfl p w
    have hlimit : SP_CREDIT_STAT_LIMIT.addr p 0 = 0xC0000 + 0x1000 * p + 0x1CC + 0 * 0 := spAddr _ rfl p 0
    have heq := List.mem_singleton.mp h
    omega

/-! ## The buffer -/

theorem carries_spLeave (n : Nat) : Carries p d (spLeave p n d) := by
  have hleft : Carries p d ((d.setPort p { d.port p with lvl := (d.port p).lvl - n, left := ((d.port p).left + n) % 256, limit := ((d.port p).limit + ((d.port p).left + n) / 256) % 2 ^ 32 }).setFi
      SP_BUF_STAT_LVL p 0 (((d.port p).lvl - n) / 256)) :=
    (carries_setPort (by rfl)).trans (carries_setSp rfl (by decide) _)
  unfold spLeave
  dsimp only
  exact .ite (hleft.trans (carries_sendCredit _)) hleft

theorem carries_blockStopped (q : Page) : Carries p d (blockStopped q d) := by
  have hstop : Carries p d ((d.setHf q HD_PAGE_STAT_ACTIVE 0).onCom fun c =>
      { c with stopping := c.stopping.filter fun r => r != q }) :=
    (carries_setHf q (by decide) _).trans (carries_onCom fun _ h => List.mem_of_mem_filter h)
  exact .ite (hstop.trans (carries_of rfl rfl rfl rfl fun _ _ => rfl)) hstop

theorem carries_foldl {α : Type} {f : Dev → α → Dev} (h : ∀ d x, Carries p d (f d x)) (l : List α) (d : Dev) :
    Carries p d (l.foldl f d) := by
  induction l generalizing d with
  | nil => exact .refl p d
  | cons x l ih => exact (h d x).trans (ih _)

theorem carries_satBoundary : Carries p d (satBoundary d) :=
  .ite (.refl p d) (carries_foldl (fun _ q => carries_blockStopped q) _ d)

theorem carries_bumpI {F : Fld} {k : Nat} (hblk : F.blk = .sp)
    (h : F.off + F.stride * k < 0xF10 ∨ 0xF20 ≤ F.off + F.stride * k) : Carries p d (d.bumpI F p k) := carries_setSp hblk h _

theorem carries_vsDrain {v : Nat} (hv : v < 4) (n : Nat) (d : Dev) : Carries p d (vsDrain n p v d) := by
  induction n generalizing d with
  | zero => exact .refl p d
  | succ n ih =>
    unfold vsDrain
    dsimp only
    split
    case h_1 u b t _ =>
      have hgen := carries_mapFrame (p := p) (d := d) (u := u) (f := fun f => { f with gen := d.f SYS_GEN })
        fun _ => ⟨rfl, rfl, rfl, rfl, rfl, rfl, fun _ h => h⟩
      exact (hgen.trans ((carries_setVs (by rfl)).trans (carries_spLeave _))).trans (ih _)
    case h_2 b t _ => exact ((carries_setVs (by rfl)).trans (carries_spLeave _)).trans (ih _)
    case h_3 u b c t _ =>
      have hread := carries_mapFrame (p := p) (d := d) (u := u) (f := fun f => { f with reading := false })
        fun _ => ⟨rfl, rfl, rfl, rfl, rfl, rfl, fun _ h => h⟩
      have hframes : SP_FRAMES.off + SP_FRAMES.stride * v < 0xF10 := by change 0xF00 + 4 * v < 0xF10; omega
      refine .ite ?_ (.refl p d)
      exact ((hread.trans ((carries_setVs (by rfl)).trans (carries_spLeave _))).trans
        ((carries_bumpI rfl (.inl hframes)).trans carries_satBoundary)).trans (ih _)
    case h_4 => exact .refl p d

theorem carries_spEnter (n : Nat) : Carries p d (spEnter p n d) :=
  ((carries_setPort (by rfl)).trans (carries_setSp rfl (by decide) _)).trans
    (Carries.ite (carries_setSp (F := SP_BUF_PEAK) (k := 0) rfl (by decide) _) (.refl ..))

theorem carries_spStore {v : Nat} (hv : v < 4) (n : Nat) (i : SpItem) : Carries p d (spStore p v n i d) :=
  (Carries.trans (carries_mapVs (by intro; rfl)) (carries_spEnter n)).trans (carries_vsDrain hv _ _)

/-! ## Credit used, and marks -/

/-- A port with more bytes received. -/
def SpSt.receive (q : SpSt) (n : Nat) : SpSt := { q with received := q.received + n }

def spReceived (p n : Nat) (d : Dev) : Dev := d.setPort p ((d.port p).receive n)

theorem port_spReceived (p n : Nat) (d : Dev) : (spReceived p n d).port p = (d.port p).receive n := port_setPort_same ..

theorem frames_spReceived (p n : Nat) (d : Dev) : (spReceived p n d).frames = d.frames := rfl
theorem com_spReceived (p n : Nat) (d : Dev) : (spReceived p n d).com = d.com := rfl
theorem regs_spReceived (p n : Nat) (d : Dev) : (spReceived p n d).regs = d.regs := rfl

theorem spUse_eq (p n : Nat) (d : Dev) :
    (spUse p n d).1 = spReceived p n d ∨ (spUse p n d).1 = (spReceived p n d).bumpI SP_CREDIT_OVER p 0 := by
  unfold spUse
  dsimp only
  split
  · exact .inr rfl
  · exact .inl rfl

/-- A packet is received: what it changes beside the port's counts. -/
theorem spUse_rules (p n : Nat) (d : Dev) :
    (spUse p n d).1.port p = (d.port p).receive n ∧ (spUse p n d).1.frames = d.frames ∧ (spUse p n d).1.com = d.com ∧
      onlyWords d (spUse p n d).1 [SP_CREDIT_OVER.addr p 0] ∧ Carries p d (spUse p n d).1 := by
  have hport : Carries p d (spReceived p n d) := carries_setPort (by rfl)
  obtain heq | heq := spUse_eq p n d
  · rw [heq]
    exact ⟨port_spReceived .., frames_spReceived .., com_spReceived .., onlyWords_of_regs (regs_spReceived ..) _, hport⟩
  · rw [heq]
    exact ⟨(port_of_sp (Dev.setFi_sp ..) p).trans (port_spReceived ..), (Dev.setFi_frames ..).trans (frames_spReceived ..),
      (Dev.setFi_com ..).trans (com_spReceived ..), onlyWords_trans (onlyWords_of_regs (regs_spReceived ..) _)
        (onlyWords_setFi (spReceived p n d) (List.mem_singleton.mpr rfl) _), hport.trans (carries_bumpI rfl (by decide))⟩

/-- A bit added where there was none leaves the other bits. -/
theorem testBit_add_two_pow_ne {n b c : Nat} (h : n.testBit b = false) (hne : c ≠ b) :
    (n + 2 ^ b).testBit c = n.testBit c := by
  induction b generalizing n c with
  | zero =>
    obtain _ | c := c
    · exact absurd rfl hne
    · have hhalf : (n + 2 ^ 0) / 2 = n / 2 := by
        have heven : n % 2 = 0 := Nat.mod_two_eq_zero_iff_testBit_zero.mpr h
        omega
      rw [Nat.testBit_add_one, Nat.testBit_add_one, hhalf]
  | succ b ih =>
    have hpow : 2 ^ (b + 1) = 2 * 2 ^ b := Nat.pow_succ'
    obtain _ | c := c
    · have hmod : (n + 2 ^ (b + 1)) % 2 = n % 2 := by omega
      rw [Nat.testBit_zero, Nat.testBit_zero, hmod]
    · have hhalf : (n + 2 ^ (b + 1)) / 2 = n / 2 + 2 ^ b := by omega
      rw [Nat.testBit_add_one, Nat.testBit_add_one, hhalf]
      exact ih (by rw [← Nat.testBit_add_one]; exact h) (fun heq => hne (congrArg (· + 1) heq))

theorem testBit_orBit_of (n b : Nat) {c : Nat} (h : n.testBit c = true) : (orBit n b).testBit c = true := by
  unfold orBit
  split
  case isTrue => exact h
  case isFalse hb =>
    have hcb : c ≠ b := fun heq => hb (heq ▸ h)
    exact (testBit_add_two_pow_ne (Bool.eq_false_iff.mpr hb) hcb).trans h

theorem frameLater_mark (f : Frame) (b : Nat) : FrameLater f { f with ingest := orBit f.ingest b } :=
  ⟨rfl, rfl, rfl, rfl, rfl, rfl, fun _ h => testBit_orBit_of _ b h⟩

theorem carries_spMark (v b : Nat) : Carries p d (spMark p v b d) := by
  unfold spMark
  split
  · exact .ite (.refl p d) (carries_mapFrame fun f => frameLater_mark f b)
  · exact .refl p d

theorem sp_spMark (p v b : Nat) (d : Dev) : (spMark p v b d).sp = d.sp := by
  unfold spMark
  split
  · exact ite_keeps Dev.sp rfl rfl
  · rfl

theorem regs_spMark (p v b : Nat) (d : Dev) : (spMark p v b d).regs = d.regs := by
  unfold spMark
  split
  · exact ite_keeps Dev.regs rfl rfl
  · rfl

/-- The open frame carries its mark. -/
theorem marked_spMark {v u : Nat} (b : Nat) (hopen : (d.vs p v).opened = some u) (hkept : (d.vs p v).discard = false) :
    ((spMark p v b d).frame u).ingest.testBit b = true := by
  unfold spMark
  rw [hopen, hkept]
  dsimp only
  rw [if_neg (by decide), Dev.mapFrame, frame_setFrame, if_pos rfl]
  exact testBit_orBit_same ..

theorem spCount_rules (p v n : Nat) (d : Dev) :
    (spCount p v n d).port p = (d.port p).receive n ∧ Carries p d (spCount p v n d) := by
  obtain ⟨hport, _, _, _, hcarries⟩ := spUse_rules p n d
  have heq : spCount p v n d = if (spUse p n d).2 then spMark p v inCREDIT (spUse p n d).1 else (spUse p n d).1 := rfl
  rw [heq]
  split
  · exact ⟨(port_of_sp (sp_spMark ..) p).trans hport, hcarries.trans (carries_spMark ..)⟩
  · exact ⟨hport, hcarries⟩

/-! ## A frame closes -/

theorem carries_pauseRegs : Carries p d (pauseRegs p d) :=
  (carries_setSp (F := SP_PORT_STAT_PAUSED) (k := 0) rfl (by decide) _).trans
    (carries_setSp (F := SP_PAUSE_FNUM) (k := 0) rfl (by decide) _)

theorem carries_lineClose (v segs : Nat) : Carries p d (lineClose p v segs d) := by
  unfold lineClose
  dsimp only
  refine .ite (carries_spMark ..) ?_
  split
  · refine .ite (.refl p d) (Carries.trans (carries_mapFrame ?_) (carries_mapVs (by intro; rfl)))
    exact fun _ => ⟨rfl, rfl, rfl, rfl, rfl, rfl, fun _ h => h⟩
  · exact .refl p d

theorem carries_emit (code : Nat) (q : Page) (b : List Byte) : Carries p d (d.emit code q b) :=
  carries_of rfl rfl rfl rfl fun _ _ => rfl

/-- A counter and an interrupt of a closed frame. -/
theorem carries_report {F : Fld} {k : Nat} (hblk : F.blk = .sp)
    (h : F.off + F.stride * k < 0xF10 ∨ 0xF20 ≤ F.off + F.stride * k) (G : Fld) :
    Carries p d ((d.bumpI F p k).raiseI G p) := (carries_bumpI hblk h).trans (carries_raiseBits ..)

/-- What a mark of a closed frame is reported with. -/
def reportOne (p : Nat) (f : Frame) (pay : List Byte) (bit code : Nat) (g : Dev → Dev) (d : Dev) : Dev :=
  if f.ingest.testBit bit then (g d).emit code (spPage p) pay else d

/-- The bytes of a closed frame's events. -/
def reportBytes (p v : Nat) (f : Frame) : List Byte := u64 f.fid ++ u8 (spMember p v) ++ u32 f.fid ++ u16 f.linesValid

theorem spReport_eq (p v u : Nat) (d : Dev) : spReport p v u d =
    reportOne p (d.frame u) (reportBytes p v (d.frame u)) inNOEND 0x066 id
      (reportOne p (d.frame u) (reportBytes p v (d.frame u)) inCRC 0x065 (fun d => d.raiseI SP_IRQ_RAW_CRC_ERR p)
        (reportOne p (d.frame u) (reportBytes p v (d.frame u)) inLONG 0x064
          (fun d => (d.bumpI SP_LONG p v).raiseI SP_IRQ_RAW_LONG p)
          (reportOne p (d.frame u) (reportBytes p v (d.frame u)) inSHORT 0x063
            (fun d => (d.bumpI SP_SHORT p v).raiseI SP_IRQ_RAW_SHORT p)
            (reportOne p (d.frame u) (reportBytes p v (d.frame u)) inTRUNC 0x062
              (fun d => (d.bumpI SP_TRUNC p v).raiseI SP_IRQ_RAW_TRUNC p) d)))) := rfl

theorem carries_reportOne {f : Frame} {pay : List Byte} {bit code : Nat} {g : Dev → Dev} (h : ∀ d, Carries p d (g d)) :
    Carries p d (reportOne p f pay bit code g d) := .ite ((h d).trans (carries_emit ..)) (.refl p d)

theorem carries_spReport (v u : Nat) : Carries p d (spReport p v u d) := by
  have htrunc : 0xF20 ≤ SP_TRUNC.off + SP_TRUNC.stride * v := by change 0xF20 ≤ 0xF30 + 4 * v; omega
  have hshort : 0xF20 ≤ SP_SHORT.off + SP_SHORT.stride * v := by change 0xF20 ≤ 0xF40 + 4 * v; omega
  have hlong : 0xF20 ≤ SP_LONG.off + SP_LONG.stride * v := by change 0xF20 ≤ 0xF50 + 4 * v; omega
  rw [spReport_eq]
  exact ((((carries_reportOne fun _ => carries_report rfl (.inr htrunc) _).trans
    (carries_reportOne fun _ => carries_report rfl (.inr hshort) _)).trans
    (carries_reportOne fun _ => carries_report rfl (.inr hlong) _)).trans
    (carries_reportOne fun _ => carries_raiseBits ..)).trans (carries_reportOne fun d => .refl p d)

end Carried

end Sys2Proof.Machine
end

section
/-! SUPPORT. Proofs about the packets of satellites (R261, R262, R266, R267, R276): how frames open and close, and the packet
at the head of a port's stream. -/
namespace Sys2Proof.Machine

/-! ## Closing -/

section Core
variable {p : Nat} {d e : Dev} (h : Carries p d e) (w : Nat)
include h

theorem Carries.opened : (e.vs p w).opened = (d.vs p w).opened := (congrArg VsSt.opened (h.vs w) :)
theorem Carries.fnum : (e.vs p w).fnum = (d.vs p w).fnum := (congrArg VsSt.fnum (h.vs w) :)
theorem Carries.discard : (e.vs p w).discard = (d.vs p w).discard := (congrArg VsSt.discard (h.vs w) :)
theorem Carries.trunc : (e.vs p w).trunc = (d.vs p w).trunc := (congrArg VsSt.trunc (h.vs w) :)
theorem Carries.line : (e.vs p w).line = (d.vs p w).line := (congrArg VsSt.line (h.vs w) :)
theorem Carries.nextSeg : (e.vs p w).nextSeg = (d.vs p w).nextSeg := (congrArg VsSt.nextSeg (h.vs w) :)
theorem Carries.got : (e.vs p w).got = (d.vs p w).got := (congrArg VsSt.got (h.vs w) :)
theorem Carries.total : (e.vs p w).total = (d.vs p w).total := (congrArg VsSt.total (h.vs w) :)
theorem Carries.frameCrc : (e.vs p w).frameCrc = (d.vs p w).frameCrc := (congrArg VsSt.frameCrc (h.vs w) :)

end Core

/-- What the end of a port's frames leaves: a sensor with no open frame has none, and the frames keep shape and marks. -/
structure Closes (p : Nat) (d e : Dev) : Prop where
  shut : ∀ w, (d.vs p w).opened = none → (e.vs p w).opened = none ∧ (e.vs p w).trunc = (d.vs p w).trunc
  frames : ∀ u, FrameLater (d.frame u) (e.frame u)

theorem Closes.trans {p : Nat} {d e g : Dev} (h : Closes p d e) (h' : Closes p e g) : Closes p d g := by
  refine ⟨fun w hw => ?_, fun u => (h.frames u).trans (h'.frames u)⟩
  obtain ⟨hopen, htrunc⟩ := h.shut w hw
  obtain ⟨hopen', htrunc'⟩ := h'.shut w hopen
  exact ⟨hopen', htrunc'.trans htrunc⟩

theorem Carries.closes {p : Nat} {d e : Dev} (h : Carries p d e) : Closes p d e :=
  ⟨fun w hw => ⟨(h.opened w).trans hw, h.trunc w⟩, h.frames⟩

/-- A sensor whose frame closes. -/
theorem closes_mapVs {p v : Nat} {d : Dev} {x : VsSt} (hx : x.opened = none)
    (htrunc : (d.vs p v).opened = none → x.trunc = (d.vs p v).trunc) : Closes p d (d.setVs p v x) := by
  refine ⟨fun w hw => ?_, frameLater_of_frames rfl⟩
  rw [vs_setVs]
  split
  case isTrue heq => exact ⟨hx, by rw [heq] at hw ⊢; exact htrunc hw⟩
  case isFalse => exact ⟨hw, rfl⟩

theorem closes_foldl {α : Type} {p : Nat} {f : Dev → α → Dev} {l : List α} (h : ∀ d, ∀ x ∈ l, Closes p d (f d x)) (d : Dev) :
    Closes p d (l.foldl f d) := by
  induction l generalizing d with
  | nil => exact (Carries.refl p d).closes
  | cons x l ih =>
    exact (h d x List.mem_cons_self).trans (ih (fun e y hy => h e y (List.mem_cons_of_mem x hy)) _)

/-- The marks of a frame that closes: its last line, the lines it lacks, and its missing end. -/
def closeMarks (p v u : Nat) (noEnd : Bool) (d : Dev) : Dev :=
  let e := lineClose p v (d.frame u).segs d
  let e := if (d.vs p v).total < (d.frame u).h * (d.frame u).segs then spMark p v inSHORT e else e
  if noEnd then spMark p v inNOEND e else e

/-- The sensor of a frame that has closed. -/
def VsSt.shut (x : VsSt) : VsSt := { x with opened := none, trunc := false }

theorem spClose_open {p v u bytes : Nat} {noEnd : Bool} {d : Dev} (hopen : (d.vs p v).opened = some u)
    (hkept : (d.vs p v).discard = false) : spClose p v bytes noEnd d =
      spStore p v bytes (.close u bytes (spReport p v u (closeMarks p v u noEnd d)).cyc)
        ((spReport p v u (closeMarks p v u noEnd d)).mapVs p v VsSt.shut) := by
  unfold spClose
  dsimp only
  rw [hopen, hkept]
  rfl

theorem spClose_none {p v bytes : Nat} {noEnd : Bool} {d : Dev} (h : (d.vs p v).opened = none) :
    spClose p v bytes noEnd d = d := by
  unfold spClose
  dsimp only
  rw [h]

section Closing
variable {p v u : Nat} (hv : v < 4) {d : Dev}

theorem carries_closeMarks (noEnd : Bool) : Carries p d (closeMarks p v u noEnd d) :=
  ((carries_lineClose ..).trans (.ite (carries_spMark ..) (.refl ..))).trans (.ite (carries_spMark ..) (.refl ..))

include hv in
/-- The open frame closes. -/
theorem spClose_shuts {bytes : Nat} {noEnd : Bool} (hopen : (d.vs p v).opened = some u) (hkept : (d.vs p v).discard = false) :
    ((spClose p v bytes noEnd d).vs p v).opened = none ∧ ((spClose p v bytes noEnd d).vs p v).trunc = false ∧
      ∀ w, FrameLater ((closeMarks p v u noEnd d).frame w) ((spClose p v bytes noEnd d).frame w) := by
  rw [spClose_open hopen hkept]
  have hstore := carries_spStore (p := p) (d := (spReport p v u (closeMarks p v u noEnd d)).mapVs p v VsSt.shut) hv bytes
    (.close u bytes (spReport p v u (closeMarks p v u noEnd d)).cyc)
  have hvs := (hstore.vs v).trans (congrArg VsSt.core (vs_mapVs_same ..))
  exact ⟨congrArg VsSt.opened hvs, congrArg VsSt.trunc hvs, fun w => ((carries_spReport v u).frames w).trans
    ((frameLater_of_frames rfl w).trans (hstore.frames w))⟩

/-- A frame that closes with no FRAME_END is marked. -/
theorem marked_closeMarks (hopen : (d.vs p v).opened = some u) (hkept : (d.vs p v).discard = false) :
    ((closeMarks p v u true d).frame u).ingest.testBit inNOEND = true := by
  have hlines : Carries p d (if (d.vs p v).total < (d.frame u).h * (d.frame u).segs then
      spMark p v inSHORT (lineClose p v (d.frame u).segs d) else lineClose p v (d.frame u).segs d) :=
    (carries_lineClose ..).trans (.ite (carries_spMark ..) (.refl ..))
  exact marked_spMark inNOEND ((hlines.opened v).trans hopen) ((hlines.discard v).trans hkept)

include hv in
theorem closes_spClose (bytes : Nat) (noEnd : Bool) : Closes p d (spClose p v bytes noEnd d) := by
  cases hopen : (d.vs p v).opened
  case none => rw [spClose_none hopen]; exact (Carries.refl p d).closes
  case some u =>
    cases hkept : (d.vs p v).discard
    case false =>
      rw [spClose_open hopen hkept]
      have hreport : Carries p d (spReport p v u (closeMarks p v u noEnd d)) :=
        (carries_closeMarks noEnd).trans (carries_spReport v u)
      have hstill : ((spReport p v u (closeMarks p v u noEnd d)).vs p v).opened ≠ none :=
        ((hreport.opened v).trans hopen).trans_ne (by simp)
      exact hreport.closes.trans ((closes_mapVs rfl fun h => absurd h hstill).trans (carries_spStore hv ..).closes)
    case true =>
      unfold spClose
      dsimp only
      rw [hopen, hkept]
      exact (closes_mapVs rfl fun h => absurd (hopen.symm.trans h) (by simp)).trans carries_pauseRegs.closes

end Closing

/-! ## A port that stops -/

theorem closes_spLeaveUp (p : Nat) (d : Dev) : Closes p d (spLeaveUp p d) := by
  have hshut : ∀ d, Closes p d ((List.range 4).foldl (fun d v => spClose p v 0 true d) d) :=
    closes_foldl fun d v hv => closes_spClose (List.mem_range.mp hv) 0 true
  have hpauses : ∀ d, Carries p d ((List.range 4).foldl (fun d v => d.mapVs p v fun x => { x with paused := none }) d) :=
    carries_foldl (fun d v => carries_setVs (by rfl)) _
  have hstream : ∀ d, Carries p d (d.mapPort p fun q => { q with strm := [], search := false }) :=
    fun d => carries_setPort (by rfl)
  exact (hshut d).trans (((hpauses _).trans carries_pauseRegs).trans (hstream _)).closes

theorem closes_spDisable (p : Nat) (d : Dev) : Closes p d (spDisable p d) := by
  have hstate : ∀ e, Closes p e (setSpState p spOFF e) := fun e =>
    (carries_setSp (F := SP_PORT_STAT_STATE) (k := 0) rfl (by decide) _).closes
  unfold spDisable
  dsimp only
  split
  · exact ((closes_spLeaveUp p d).trans (carries_emit 0x069 (spPage p) []).closes).trans (hstate _)
  · exact hstate d

theorem closes_spEnds (p : Nat) (f : Dev → Dev) (d : Dev) : Closes p (f d) (spEnds p f d) := by
  unfold spEnds
  dsimp only
  split
  · exact (closes_spDisable ..).trans (carries_blockStopped _).closes
  · exact (Carries.refl ..).closes

/-- A port that does not stop, or none of whose frames closes, goes on. -/
theorem spEnds_on {p : Nat} {f : Dev → Dev} {d : Dev}
    (h : spPage p ∉ (f d).com.stopping ∨ ∀ v < 4, (d.vs p v).opened.isSome = true → ((f d).vs p v).opened = (d.vs p v).opened) :
    spEnds p f d = f d := by
  unfold spEnds
  dsimp only
  refine if_neg fun hstop => ?_
  obtain ⟨hmem, hany⟩ := (Bool.and_eq_true ..).mp hstop
  obtain hnot | hsame := h
  · exact hnot (List.contains_iff_mem.mp hmem)
  · obtain ⟨v, hv, hcloses⟩ := List.any_eq_true.mp hany
    obtain ⟨hsome, hne⟩ := (Bool.and_eq_true ..).mp hcloses
    exact (of_decide_eq_true hne) (hsame v (List.mem_range.mp hv) hsome)

/-! ## The packet at the head -/

/-- The stream of a port goes on behind its first packet. -/
def spTaken (p : Nat) (t : List Byte) (d : Dev) : Dev := d.setPort p { d.port p with strm := t }

theorem port_spTaken (p : Nat) (t : List Byte) (d : Dev) : (spTaken p t d).port p = { d.port p with strm := t } :=
  port_setPort_same ..

theorem vs_spTaken (p : Nat) (t : List Byte) (d : Dev) (w : Nat) : (spTaken p t d).vs p w = d.vs p w :=
  vs_of_port (congrArg SpSt.vs (port_spTaken p t d) :) w

theorem spTake_packet {p typ : Nat} {h : SpHdr} {pay t : List Byte} {d : Dev} (f : SpHdr → List Byte → Dev → Dev)
    (hst : d.spState p = spUP) (hsearch : (d.port p).search = false) (hpkt : spPacket typ (d.port p).strm = some (h, pay, t)) :
    spTake p typ f d = f h pay (spTaken p t d) := by
  unfold spTake
  dsimp only
  rw [if_neg (by rw [hst, hsearch]; decide), hpkt]
  rfl

/-- A packet names one of four virtual sensors. -/
theorem vs_lt_of_packet {typ : Nat} {bs : List Byte} {h : SpHdr} {pay t : List Byte} (hpkt : spPacket typ bs = some (h, pay, t)) :
    h.vs < 4 := by
  unfold spPacket at hpkt
  split at hpkt
  case h_1 g hhdr =>
    have hg : g = h := by
      split at hpkt
      · exact (Prod.mk.inj (Option.some.inj hpkt)).1
      · exact nomatch hpkt
    subst hg
    unfold spHeader at hhdr
    dsimp only at hhdr
    split at hhdr
    · exact nomatch hhdr
    · split at hhdr
      · rw [← Option.some.inj (Option.some.inj hhdr)]
        exact Nat.mod_lt _ (by decide)
      · exact nomatch Option.some.inj hhdr
  case h_2 => exact nomatch hpkt

theorem spOwn_open {p : Nat} {h : SpHdr} {u : Nat} {d : Dev} (f : Dev → Dev) (hopen : (d.vs p h.vs).opened = some u)
    (hfnum : (d.vs p h.vs).fnum = h.fnum) : spOwn p h f d = f d := if_pos ⟨by rw [hopen]; rfl, hfnum⟩

/-- A packet that belongs to no open frame counts as an orphan. -/
theorem spOwn_other {p : Nat} {h : SpHdr} {d : Dev} (f : Dev → Dev)
    (hother : (d.vs p h.vs).opened = none ∨ (d.vs p h.vs).fnum ≠ h.fnum) : 
    spOwn p h f d = (spUse p (8 + 8 * h.len) (d.bumpI SP_ORPHAN p 0)).1 := by
  unfold spOwn
  exact if_neg fun ⟨hsome, hfnum⟩ =>
    hother.elim (fun hnone => by rw [hnone] at hsome; exact nomatch hsome) fun hne => hne hfnum

theorem orphan_ne_over (p : Nat) : SP_ORPHAN.addr p 0 ≠ SP_CREDIT_OVER.addr p 0 := by
  have horphan : SP_ORPHAN.addr p 0 = 0xC0000 + 0x1000 * p + 0xF74 + 0 * 0 := spAddr _ rfl p 0
  have hover : SP_CREDIT_OVER.addr p 0 = 0xC0000 + 0x1000 * p + 0xF7C + 0 * 0 := spAddr _ rfl p 0
  omega

section Orphan
variable (p n : Nat) (d : Dev)

theorem frames_orphaned : (spUse p n (d.bumpI SP_ORPHAN p 0)).1.frames = d.frames := by
  obtain ⟨_, hframes, _, _, _⟩ := spUse_rules p n (d.bumpI SP_ORPHAN p 0)
  exact hframes.trans (Dev.setFi_frames ..)

theorem com_orphaned : (spUse p n (d.bumpI SP_ORPHAN p 0)).1.com = d.com := by
  obtain ⟨_, _, hcom, _, _⟩ := spUse_rules p n (d.bumpI SP_ORPHAN p 0)
  exact hcom.trans (Dev.setFi_com ..)

theorem vs_orphaned (w : Nat) : (spUse p n (d.bumpI SP_ORPHAN p 0)).1.vs p w = d.vs p w := by
  obtain ⟨hport, _, _, _, _⟩ := spUse_rules p n (d.bumpI SP_ORPHAN p 0)
  exact (vs_of_port (congrArg SpSt.vs hport :) w).trans (vs_of_sp (Dev.setFi_sp ..) p w)

theorem fi_orphaned : (spUse p n (d.bumpI SP_ORPHAN p 0)).1.fi SP_ORPHAN p 0 = (d.fi SP_ORPHAN p 0 + 1) % 2 ^ 32 := by
  obtain ⟨_, _, _, hwords, _⟩ := spUse_rules p n (d.bumpI SP_ORPHAN p 0)
  have hkept := hwords (SP_ORPHAN.addr p 0) fun h => orphan_ne_over p (List.mem_singleton.mp h)
  rw [fi_of_word hkept, Dev.fi_bumpI_same _ rfl rfl]

theorem onlyWords_orphaned : 
    onlyWords d (spUse p n (d.bumpI SP_ORPHAN p 0)).1 [SP_ORPHAN.addr p 0, SP_CREDIT_OVER.addr p 0] := by
  obtain ⟨_, _, _, hwords, _⟩ := spUse_rules p n (d.bumpI SP_ORPHAN p 0)
  exact onlyWords_trans (onlyWords_bumpI d List.mem_cons_self) (onlyWords_mono hwords fun a ha => List.mem_cons_of_mem _ ha)

end Orphan

end Sys2Proof.Machine
end

section
/-! SUPPORT. What each packet of a satellite does (R261, R262, R266, R267, R276). -/
namespace Sys2Proof.Machine

/-- What an orphan leaves of the registers, once the stream has gone on behind it. -/
theorem onlyWords_orphan_taken (p n : Nat) (t : List Byte) (d : Dev) :
    onlyWords d (spUse p n ((spTaken p t d).bumpI SP_ORPHAN p 0)).1 [SP_ORPHAN.addr p 0, SP_CREDIT_OVER.addr p 0] :=
  onlyWords_trans (onlyWords_of_regs (Dev.setPort_regs ..) _) (onlyWords_orphaned p n (spTaken p t d))

/-! ## FRAME_START -/

section Start
variable {p : Nat} {h : SpHdr} {d : Dev} (pay : List Byte)

/-- The frame that a FRAME_START opens. -/
def startedFrame (p v : Nat) (pay : List Byte) (d : Dev) : Frame :=
  { member := spMember p v, fid := natOfBytes (pay.take 4), stamp := d.stamp,
    w := d.ai SP_VS_GEO_WIDTH p v, h := d.ai SP_VS_GEO_HEIGHT p v, bits := 10 + 2 * d.ai SP_VS_FMT_BITS p v,
    cfa := d.ai SP_VS_FMT_CFA p v, pedestal := d.ai SP_VS_FILL_FILL p v, expUs := natOfBytes ((pay.drop 4).take 4),
    weight := d.ai SP_VS_FMT_WEIGHT p v, satTime := natOfBytes (pay.drop 8), gen := d.f SYS_GEN }

/-- The sensor as its frame opens; what waits in the buffer stays. -/
def VsSt.start (x : VsSt) (u fnum : Nat) (pay : List Byte) : VsSt :=
  { q := x.q, leaving := x.leaving, next := x.next, urgentUsed := x.urgentUsed,
    opened := some u, fnum, frameCrc := crc32From 0xFFFFFFFF#32 pay }

/-- The frame in the table, and the next number. -/
def withFrame (u : Nat) (f : Frame) (d : Dev) : Dev := { d.setFrame u f with nextFrame := u + 1 }

def startedDev (p v fnum : Nat) (pay : List Byte) (d : Dev) : Dev :=
  (withFrame d.nextFrame (startedFrame p v pay d) d).setVs p v ((d.vs p v).start d.nextFrame fnum pay)

theorem spOpen_eq (p v fnum : Nat) (d : Dev) : spOpen p v fnum pay d =
    spStore p v 24 (.start d.nextFrame 24) (pauseRegs p (startedDev p v fnum pay d)) := rfl

theorem vs_startedDev (p v fnum : Nat) (d : Dev) :
    (startedDev p v fnum pay d).vs p v = (d.vs p v).start d.nextFrame fnum pay := vs_setVs_same ..
theorem frame_startedDev (p v fnum : Nat) (d : Dev) :
    (startedDev p v fnum pay d).frame d.nextFrame = startedFrame p v pay d := (frame_setFrame ..).trans (if_pos rfl)

theorem carries_started {v : Nat} (hv : v < 4) (fnum n : Nat) :
    Carries p (startedDev p v fnum pay d) (spCount p v n (spOpen p v fnum pay d)) := by
  rw [spOpen_eq]
  exact (carries_pauseRegs.trans (carries_spStore hv ..)).trans (spCount_rules ..).2

section Accepted
variable (hopen : (d.vs p h.vs).opened = none) (hstop : spPage p ∉ d.com.stopping)
include hopen hstop

theorem spStart_disabled (hen : d.ai SP_VS_FMT_EN p h.vs = 0) :
    spStart p h pay d = (spUse p 24 (d.bumpI SP_ORPHAN p 0)).1 := by
  unfold spStart
  dsimp only
  rw [spClose_none hopen, if_neg (fun hmem => hstop (List.contains_iff_mem.mp hmem)), if_pos hen]

theorem spStart_opens (hen : d.ai SP_VS_FMT_EN p h.vs ≠ 0) (hpaused : (d.vs p h.vs).paused ≠ some h.fnum) :
    spStart p h pay d = spCount p h.vs 24 (spOpen p h.vs h.fnum pay d) := by
  unfold spStart
  dsimp only
  rw [spClose_none hopen, if_neg (fun hmem => hstop (List.contains_iff_mem.mp hmem)), if_neg hen, if_neg hpaused]

end Accepted

end Start

/-! ## LINE -/

section Line
variable {p : Nat} {h : SpHdr} (pay : List Byte)

/-- The sensor after a whole segment. -/
def VsSt.segment (x : VsSt) (seg : Nat) : VsSt := { x with nextSeg := seg + 1, got := x.got + 1, total := x.total + 1 }

theorem lineAdvance_same {v segs line : Nat} {d : Dev} (hline : line = (d.vs p v).line) : lineAdvance p v segs line d = d :=
  if_pos hline

theorem spSegment_whole {u : Nat} {d : Dev} (hline : h.line = (d.vs p h.vs).line) (htrunc : (d.vs p h.vs).trunc = false)
    (hlen : h.len = ((d.frame u).segPx h.seg * (d.frame u).bits + 63) / 64) (hroom : (d.port p).lvl + 8 + 8 * h.len ≤ 2093056) :
    ∃ i, spSegment p u h pay d = spStore p h.vs (8 + 8 * h.len) i (d.mapVs p h.vs fun x => x.segment h.seg) := by
  unfold spSegment
  dsimp only
  rw [lineAdvance_same hline, htrunc, ← hlen, Nat.min_self, if_neg (by decide), if_neg (Nat.not_lt.mpr hroom),
    if_neg (Nat.lt_irrefl h.len), if_neg (Nat.lt_irrefl h.len), if_pos rfl]
  exact ⟨_, rfl⟩

theorem carries_lineCrcAdd (d : Dev) : Carries p d (lineCrcAdd p h pay d) := carries_setVs (by rfl)

theorem port_lineCrcAdd_lvl (d : Dev) : ((lineCrcAdd p h pay d).port p).lvl = (d.port p).lvl :=
  (congrArg SpSt.lvl (port_setPort_same ..) :)

/-- The device as a LINE packet's bytes have been counted. -/
def lineTaken (p : Nat) (h : SpHdr) (pay : List Byte) (d : Dev) : Dev := spCount p h.vs (8 + 8 * h.len) (lineCrcAdd p h pay d)

theorem carries_lineTaken (d : Dev) : Carries p d (lineTaken p h pay d) :=
  (carries_lineCrcAdd pay d).trans (spCount_rules ..).2

theorem lvl_lineTaken (d : Dev) : ((lineTaken p h pay d).port p).lvl = (d.port p).lvl :=
  (congrArg SpSt.lvl (spCount_rules ..).1 :).trans (port_lineCrcAdd_lvl ..)

theorem spLine_accepted {u : Nat} {d : Dev} (hopen : (d.vs p h.vs).opened = some u) (hkept : (d.vs p h.vs).discard = false)
    (hline : h.line = (d.vs p h.vs).line) (hseg : (d.vs p h.vs).nextSeg ≤ h.seg) (hh : h.line < (d.frame u).h)
    (hs : h.seg < (d.frame u).segs) : spLine p h pay d = spSegment p u h pay (lineTaken p h pay d) := by
  have hcarry := carries_lineTaken (p := p) (h := h) pay d
  have hsegs : ((lineTaken p h pay d).frame u).segs = (d.frame u).segs := by rw [Frame.segs, (hcarry.frames u).w, Frame.segs]
  have hheight := (hcarry.frames u).h
  have heq : spLine p h pay d = match ((lineTaken p h pay d).vs p h.vs).opened with
    | none => lineTaken p h pay d
    | some u =>
      if ((lineTaken p h pay d).vs p h.vs).discard then lineTaken p h pay d
      else if ((lineTaken p h pay d).frame u).h ≤ h.line then spMark p h.vs inLONG (lineTaken p h pay d)
      else if ((lineTaken p h pay d).frame u).segs ≤ h.seg ∨ h.line < ((lineTaken p h pay d).vs p h.vs).line ∨
          (h.line = ((lineTaken p h pay d).vs p h.vs).line ∧ h.seg < ((lineTaken p h pay d).vs p h.vs).nextSeg) then
        spMark p h.vs inLONG (lineSpoilt p h.vs h.line (lineTaken p h pay d))
      else spSegment p u h pay (lineTaken p h pay d) := rfl
  rw [heq, hcarry.opened, hopen, hcarry.discard, hkept, hcarry.line, hcarry.nextSeg]
  dsimp only
  rw [if_neg (by decide), if_neg (by omega), if_neg (by omega)]

/-- What a whole segment in order leaves of the sensor. -/
theorem spLine_rules {u : Nat} {d : Dev} (hv : h.vs < 4) (hopen : (d.vs p h.vs).opened = some u)
    (hkept : (d.vs p h.vs).discard = false) (htrunc : (d.vs p h.vs).trunc = false)
    (hline : h.line = (d.vs p h.vs).line) (hseg : (d.vs p h.vs).nextSeg ≤ h.seg) (hh : h.line < (d.frame u).h)
    (hs : h.seg < (d.frame u).segs) (hlen : h.len = ((d.frame u).segPx h.seg * (d.frame u).bits + 63) / 64)
    (hroom : (d.port p).lvl + 8 + 8 * h.len ≤ 2093056) :
    ((spLine p h pay d).vs p h.vs).got = (d.vs p h.vs).got + 1 ∧ ((spLine p h pay d).vs p h.vs).total = (d.vs p h.vs).total + 1 ∧
      ((spLine p h pay d).vs p h.vs).nextSeg = h.seg + 1 ∧ ((spLine p h pay d).vs p h.vs).opened = some u ∧
      ((spLine p h pay d).vs p h.vs).trunc = false := by
  have hcarry := carries_lineTaken (p := p) (h := h) pay d
  obtain ⟨i, hwhole⟩ := spSegment_whole (p := p) (h := h) (u := u) pay (d := lineTaken p h pay d)
    (by rw [hcarry.line]; exact hline) (by rw [hcarry.trunc]; exact htrunc)
    (by rw [(hcarry.frames u).bits, Frame.segPx, Frame.segs, (hcarry.frames u).w]; exact hlen)
    (by rw [lvl_lineTaken]; exact hroom)
  rw [spLine_accepted pay hopen hkept hline hseg hh hs, hwhole]
  have hstore := carries_spStore (p := p) (d := (lineTaken p h pay d).mapVs p h.vs fun x => x.segment h.seg) hv (8 + 8 * h.len) i
  have hset := vs_mapVs_same (lineTaken p h pay d) p h.vs fun x => x.segment h.seg
  rw [hstore.got, hstore.total, hstore.nextSeg, hstore.opened, hstore.trunc, hset]
  exact ⟨congrArg (· + 1) (hcarry.got _), congrArg (· + 1) (hcarry.total _), rfl, (hcarry.opened _).trans hopen,
    (hcarry.trunc _).trans htrunc⟩

end Line

/-! ## LINE_END and FRAME_END -/

section Ends
variable {p : Nat} {h : SpHdr} (pay : List Byte)

/-- The sensor with the frame's CRC register as a LINE_END leaves it. -/
def VsSt.crcEnd (x : VsSt) (pay : List Byte) : VsSt := { x with frameCrc := crc32From x.frameCrc pay }

/-- The device as a LINE_END packet's bytes have been counted. -/
def lineEnded (p : Nat) (h : SpHdr) (pay : List Byte) (d : Dev) : Dev :=
  (spCount p h.vs 16 d).mapVs p h.vs fun x => x.crcEnd pay

/-- The CRC of a line, as its register gives it. -/
def lineCrcOf (x : VsSt) (line : Nat) : BitVec 32 := SMap.get crcStart x.lineCrcs line ^^^ 0xFFFFFFFF#32

/-- The device as a line's CRC has been compared. -/
def crcCompared (p : Nat) (h : SpHdr) (ok : Prop) [Decidable ok] (d : Dev) : Dev :=
  if ok then d else spMark p h.vs inCRC (d.bumpSat SP_LINE_CRC_ERR p h.vs)

theorem spLineEnd_kept {d : Dev} (hkept : (d.vs p h.vs).discard = false) : spLineEnd p h pay d =
    spStore p h.vs 16 (.mark 16)
      (crcCompared p h (natOfBytes (pay.take 4) = (lineCrcOf (d.vs p h.vs) h.line).toNat) (lineEnded p h pay d)) := by
  unfold spLineEnd
  dsimp only
  rw [if_neg (by rw [hkept]; decide)]
  rfl

theorem vs_lineEnded (d : Dev) : (lineEnded p h pay d).vs p h.vs = (d.vs p h.vs).crcEnd pay := by
  rw [lineEnded, vs_mapVs_same, vs_of_port (congrArg SpSt.vs (spCount_rules p h.vs 16 d).1 :)]

theorem sp_bumpSat (d : Dev) (F : Fld) (i k : Nat) : (d.bumpSat F i k).sp = d.sp := ite_keeps Dev.sp rfl rfl

theorem sp_crcCompared (ok : Prop) [Decidable ok] (d : Dev) : (crcCompared p h ok d).sp = d.sp :=
  ite_keeps Dev.sp rfl ((sp_spMark ..).trans (sp_bumpSat ..))

/-- What a LINE_END leaves of the sensor and its frame. -/
theorem spLineEnd_rules {u : Nat} {d : Dev} (hv : h.vs < 4) (hopen : (d.vs p h.vs).opened = some u)
    (hkept : (d.vs p h.vs).discard = false) :
    ((spLineEnd p h pay d).vs p h.vs).frameCrc = crc32From (d.vs p h.vs).frameCrc pay ∧
      ((spLineEnd p h pay d).vs p h.vs).opened = some u ∧
      (natOfBytes (pay.take 4) = (lineCrcOf (d.vs p h.vs) h.line).toNat →
        (spLineEnd p h pay d).fi SP_LINE_CRC_ERR p h.vs = d.fi SP_LINE_CRC_ERR p h.vs) ∧
      (natOfBytes (pay.take 4) ≠ (lineCrcOf (d.vs p h.vs) h.line).toNat →
        ((spLineEnd p h pay d).frame u).ingest.testBit inCRC = true) := by
  have hended := vs_lineEnded (p := p) (h := h) pay d
  have hregs : (lineEnded p h pay d).fi SP_LINE_CRC_ERR p h.vs = d.fi SP_LINE_CRC_ERR p h.vs :=
    (spCount_rules p h.vs 16 d).2.wrong h.vs hv
  rw [spLineEnd_kept pay hkept]
  have hcompared := (vs_of_sp (sp_crcCompared (p := p) (h := h) (natOfBytes (pay.take 4) = (lineCrcOf (d.vs p h.vs) h.line).toNat)
    (lineEnded p h pay d)) p h.vs).trans hended
  have hstore := carries_spStore (p := p) (d := crcCompared p h (natOfBytes (pay.take 4) = (lineCrcOf (d.vs p h.vs) h.line).toNat)
    (lineEnded p h pay d)) hv 16 (.mark 16)
  refine ⟨(hstore.frameCrc _).trans (congrArg VsSt.frameCrc hcompared :), ?_, fun hok => ?_, fun hbad => ?_⟩
  · exact (hstore.opened _).trans ((congrArg VsSt.opened hcompared :).trans hopen)
  · rw [hstore.wrong _ hv, crcCompared, if_pos hok, hregs]
  · have hsat := (vs_of_sp (sp_bumpSat (lineEnded p h pay d) SP_LINE_CRC_ERR p h.vs) p h.vs).trans hended
    refine (hstore.frames u).marks _ ?_
    rw [crcCompared, if_neg hbad]
    exact marked_spMark inCRC (by rw [hsat]; exact hopen) (by rw [hsat]; exact hkept)

/-- The device as a FRAME_END packet's bytes and its count of lines have been taken. -/
def frameEnded (p : Nat) (h : SpHdr) (u : Nat) (pay : List Byte) (d : Dev) : Dev :=
  (spCount p h.vs 16 d).mapFrame u fun f => { f with linesSent := natOfBytes (pay.take 4) }

/-- The device as a frame's CRC has been compared. -/
def frameCompared (p : Nat) (h : SpHdr) (ok : Prop) [Decidable ok] (d : Dev) : Dev :=
  if ok then d else spMark p h.vs inCRC (d.bumpSat SP_FRAME_CRC_ERR p h.vs)

theorem spFrameEnd_kept {u : Nat} {d : Dev} (hopen : (d.vs p h.vs).opened = some u) (hkept : (d.vs p h.vs).discard = false) :
    ∃ crc : Nat, spFrameEnd p h pay d =
      spClose p h.vs 16 false (frameCompared p h (natOfBytes (pay.drop 4) = crc) (frameEnded p h u pay d)) := by
  unfold spFrameEnd
  dsimp only
  rw [hopen]
  dsimp only
  rw [if_neg (by rw [hkept]; decide)]
  exact ⟨_, rfl⟩

theorem carries_frameCompared (ok : Prop) [Decidable ok] (d : Dev) : Carries p d (frameCompared p h ok d) := by
  have hcount : 0xF20 ≤ SP_FRAME_CRC_ERR.off + SP_FRAME_CRC_ERR.stride * h.vs := Nat.le_add_right 0xF20 (4 * h.vs)
  exact .ite (.refl p d) (Carries.trans (.ite (carries_bumpI rfl (.inr hcount)) (.refl p d)) (carries_spMark ..))

theorem sent_frameEnded (u : Nat) (d : Dev) : ((frameEnded p h u pay d).frame u).linesSent = natOfBytes (pay.take 4) := by
  rw [frameEnded, Dev.mapFrame, frame_setFrame, if_pos rfl]

theorem vs_frameEnded (u : Nat) (d : Dev) : (frameEnded p h u pay d).vs p h.vs = d.vs p h.vs :=
  vs_of_port (congrArg SpSt.vs (spCount_rules p h.vs 16 d).1 :) _

/-- What a FRAME_END leaves of the open frame. -/
theorem spFrameEnd_shuts {u : Nat} {d : Dev} (hv : h.vs < 4) (hopen : (d.vs p h.vs).opened = some u)
    (hkept : (d.vs p h.vs).discard = false) :
    ((spFrameEnd p h pay d).vs p h.vs).opened = none ∧ ((spFrameEnd p h pay d).vs p h.vs).trunc = false ∧
      ((spFrameEnd p h pay d).frame u).linesSent = natOfBytes (pay.take 4) := by
  obtain ⟨crc, heq⟩ := spFrameEnd_kept pay hopen hkept
  have hcompared := carries_frameCompared (p := p) (h := h) (natOfBytes (pay.drop 4) = crc) (frameEnded p h u pay d)
  have hvs := vs_frameEnded (p := p) (h := h) pay u d
  obtain ⟨hnone, htrunc, hframes⟩ := spClose_shuts (noEnd := false) (bytes := 16) hv
    ((hcompared.opened _).trans ((congrArg VsSt.opened hvs).trans hopen))
    ((hcompared.discard _).trans ((congrArg VsSt.discard hvs).trans hkept))
  rw [heq]
  exact ⟨hnone, htrunc, (hframes u).sent.trans (((carries_closeMarks false).frames u).sent.trans
    ((hcompared.frames u).sent.trans (sent_frameEnded pay u d)))⟩

end Ends

/-! ## HELLO -/

theorem wordsOf_head {l : List Byte} (h : 4 ≤ l.length) :
    ∃ t, wordsOf l = BitVec.ofNat 32 (natOfBytes (l.take 4)) :: t := by
  match l, h with
  | a :: b :: c :: d :: t, _ => exact ⟨wordsOf t, rfl⟩

theorem natOfBytes_lt (l : List Byte) : natOfBytes l < 256 ^ l.length := by
  induction l with
  | nil => decide
  | cons b t ih =>
    have hb : b.toNat < 256 := b.isLt
    rw [natOfBytes, List.length_cons, Nat.pow_succ]
    omega

theorem strm_of_packet {typ : Nat} {bs : List Byte} {x : SpHdr × List Byte × List Byte} (hpkt : spPacket typ bs = some x) :
    8 ≤ bs.length := by
  by_contra hshort
  have hhdr : spHeader bs = none := if_pos (by omega)
  rw [spPacket, hhdr] at hpkt
  exact nomatch hpkt

/-- The words of a HELLO, in order. -/
def putHello (p : Nat) (d : Dev) (w : Word × Nat) : Dev := d.setFi SP_HELLO p w.2 w.1.toNat

theorem fi_putHello {p : Nat} {d : Dev} {w : Word × Nat} (h : 1 ≤ w.2) : (putHello p d w).fi SP_HELLO p 0 = d.fi SP_HELLO p 0 := by
  refine fi_of_word ((Dev.word_setFi ..).trans (if_neg ?_))
  have hfirst : SP_HELLO.addr p 0 = 0xC0000 + 0x1000 * p + 0x180 + 4 * 0 := spAddr _ rfl p 0
  have hword : SP_HELLO.addr p w.2 = 0xC0000 + 0x1000 * p + 0x180 + 4 * w.2 := spAddr _ rfl p w.2
  omega

theorem fi_putHello_tail (p : Nat) (t : List Word) (n : Nat) (hn : 1 ≤ n) (d : Dev) :
    ((t.zipIdx n).foldl (putHello p) d).fi SP_HELLO p 0 = d.fi SP_HELLO p 0 := by
  induction t generalizing n d with
  | nil => rfl
  | cons w t ih => exact (ih (n + 1) (by omega) _).trans (fi_putHello (w := (w, n)) hn)

theorem sp_putHello (p : Nat) (l : List (Word × Nat)) (d : Dev) : (l.foldl (putHello p) d).sp = d.sp :=
  foldl_keeps Dev.sp (f := putHello p) (fun _ _ => Dev.setFi_sp ..) l d

/-- The first word of a HELLO is the first of its header. -/
theorem fi_hello (p : Nat) {bs : List Byte} (hbs : 8 ≤ bs.length) (pay : List Byte) (d : Dev) :
    (((wordsOf (bs.take 8 ++ pay)).zipIdx).foldl (putHello p) d).fi SP_HELLO p 0 = natOfBytes (bs.take 4) := by
  have hlen : 4 ≤ (bs.take 8 ++ pay).length := by rw [List.length_append, List.length_take]; omega
  have htake : (bs.take 8 ++ pay).take 4 = bs.take 4 := by
    rw [List.take_append_of_le_length (by rw [List.length_take]; omega), List.take_take]
    rfl
  obtain ⟨t, heq⟩ := wordsOf_head hlen
  have hlt : natOfBytes (bs.take 4) < 2 ^ 32 :=
    (natOfBytes_lt _).trans_le (Nat.pow_le_pow_right (n := 256) (by decide) (List.length_take_le 4 bs))
  rw [heq, htake, List.zipIdx_cons, List.foldl_cons, fi_putHello_tail p t _ (by decide)]
  exact (Dev.fi_setFi_same _ _ _ _ _ (by decide) (by decide)).trans
    ((Nat.mod_eq_of_lt (BitVec.isLt _)).trans ((BitVec.toNat_ofNat ..).trans (Nat.mod_eq_of_lt hlt)))

/-- The words kept, and VALID. -/
def helloKept (p : Nat) (bs pay : List Byte) (d : Dev) : Dev :=
  (((wordsOf (bs.take 8 ++ pay)).zipIdx).foldl (putHello p) d).setFi SP_HELLO_STAT_VALID p 0 1

theorem spHello_eq (p : Nat) (bs pay : List Byte) (d : Dev) : spHello p (bs.take 8) pay d =
    if (spUse p 48 (helloKept p bs pay d)).1.fi SP_BASIC_PORT_AUTO p 0 = 1 ∧
      (spUse p 48 (helloKept p bs pay d)).1.hf (spPage p) HD_PAGE_CTRL_EXPERT = 0 then
      (spUse p 48 (helloKept p bs pay d)).1.setHf (spPage p) HD_PAGE_STAT_XLATE_PEND 1
    else (spUse p 48 (helloKept p bs pay d)).1 := rfl

section Hello
variable (p : Fin 8) {bs : List Byte} (pay : List Byte) (d : Dev)

theorem sp_helloKept : (helloKept p bs pay d).sp = d.sp := (Dev.setFi_sp ..).trans (sp_putHello ..)

/-- The words of HELLO lie beside those that a received packet writes. -/
theorem hello_ne_over {F : Fld} (h : F.blk = .sp) (hoff : F.off < 0xF7C) (p : Nat) :
    F.addr p 0 ∉ [SP_CREDIT_OVER.addr p 0] := fun hmem => by
  have hover : SP_CREDIT_OVER.addr p 0 = 0xC0000 + 0x1000 * p + 0xF7C + 0 * 0 := spAddr _ rfl p 0
  have heq := (spAddr F h p 0).symm.trans ((List.mem_singleton.mp hmem).trans hover)
  omega

/-- A field of the page beside the header, as a HELLO leaves it. -/
theorem fi_spHello {F : Fld} (h : F.blk = .sp) (hlo : 0x40 ≤ F.off) (hhi : F.off < 0xF7C) :
    (spHello p (bs.take 8) pay d).fi F p 0 = (helloKept p bs pay d).fi F p 0 := by
  obtain ⟨_, _, _, hwords, _⟩ := spUse_rules p 48 (helloKept p bs pay d)
  have hused := hwords _ (hello_ne_over h hhi p)
  have hne : F.addr p 0 ≠ (spPage p).base + HD_PAGE_STAT_XLATE_PEND.off := by
    have hstat : HD_PAGE_STAT_XLATE_PEND.off < 0x40 := by decide
    rw [spAddr F h, spPage_base]
    omega
  rw [spHello_eq]
  exact Eq.trans (ite_keeps (fun e => e.fi F p 0) (Dev.fi_setHf _ _ hne) rfl) (fi_of_word hused)

theorem port_spHello : (spHello p (bs.take 8) pay d).port p = (d.port p).receive 48 := by
  obtain ⟨hport, _, _, _, _⟩ := spUse_rules p 48 (helloKept p bs pay d)
  rw [spHello_eq]
  refine Eq.trans (ite_keeps (fun e => e.port p) (port_of_sp (Dev.setHf_sp ..) p) rfl) (hport.trans ?_)
  rw [port_of_sp (sp_helloKept ..)]

theorem valid_spHello : (spHello p (bs.take 8) pay d).fi SP_HELLO_STAT_VALID p 0 = 1 :=
  (fi_spHello p pay d rfl (by decide) (by decide)).trans (Dev.fi_setFi_same _ _ _ _ _ (by decide) (by decide))

theorem first_spHello (hbs : 8 ≤ bs.length) : (spHello p (bs.take 8) pay d).fi SP_HELLO p 0 = natOfBytes (bs.take 4) := by
  have hne : SP_HELLO_STAT_VALID.addr p 0 ≠ SP_HELLO.addr p 0 := by
    have hvalid : SP_HELLO_STAT_VALID.addr p 0 = 0xC0000 + 0x1000 * p.val + 0x1B0 + 0 * 0 := spAddr _ rfl p 0
    have hfirst : SP_HELLO.addr p 0 = 0xC0000 + 0x1000 * p.val + 0x180 + 4 * 0 := spAddr _ rfl p 0
    omega
  exact (fi_spHello p pay d rfl (by decide) (by decide)).trans
    ((fi_of_word ((Dev.word_setFi ..).trans (if_neg hne.symm))).trans (fi_hello p hbs pay d))

end Hello

/-! ## Header errors -/

section HeaderError
variable (p : Fin 8) (d : Dev)

/-- The frames open on the port, marked. -/
def headerMarks (p : Nat) (d : Dev) : Dev :=
  (List.range 4).foldl (fun d v => spMark p v inHDR d) ((d.bumpI SP_HDR_ERR p 0).raiseI SP_IRQ_RAW_HDR_ERR p)

theorem spHdrError_wrong {d : Dev} (hst : d.spState p = spUP) (hsearch : (d.port p).search = false)
    (hwrong : spHeader (d.port p).strm = some none) : ∃ x, spHdrError p d = (headerMarks p d).setPort p x := by
  unfold spHdrError
  dsimp only
  rw [if_neg (by rw [hst]; decide), if_neg (by rw [hsearch]; decide), hwrong]
  exact ⟨_, rfl⟩

theorem regs_headerMarks : (headerMarks p d).regs = ((d.bumpI SP_HDR_ERR p 0).raiseI SP_IRQ_RAW_HDR_ERR p).regs :=
  foldl_keeps Dev.regs (f := fun d v => spMark p v inHDR d) (fun _ _ => regs_spMark ..) _ _

theorem hdrErr_ne_raw : SP_HDR_ERR.addr p 0 ≠ (blkPage .sp p).base + 0x10 := by
  have hcount : SP_HDR_ERR.addr p 0 = 0xC0000 + 0x1000 * p.val + 0xF70 + 0 * 0 := spAddr _ rfl p 0
  have hbase : (blkPage .sp p).base = 0xC0000 + 0x1000 * p.val := spPage_base p
  omega

theorem fi_headerMarks : (headerMarks p d).fi SP_HDR_ERR p 0 = (d.fi SP_HDR_ERR p 0 + 1) % 2 ^ 32 :=
  (Dev.fi_congr (regs_headerMarks p d) ..).trans ((Dev.fi_raiseBits _ _ _ _ _ _ (hdrErr_ne_raw p)).trans
    (Dev.fi_bumpI_same _ rfl rfl ..))

theorem onlyWords_headerMarks : onlyWords d (headerMarks p d) [SP_HDR_ERR.addr p 0, (Page.sp p).base + 0x10] := by
  have hpage : blkPage .sp p = .sp p := congrArg Page.sp (Fin.ext (Nat.mod_eq_of_lt p.isLt))
  refine onlyWords_regs (onlyWords_trans (onlyWords_bumpI d List.mem_cons_self) ?_) (regs_headerMarks p d)
  rw [Dev.raiseI_def]
  refine onlyWords_raiseBits _ ?_ _
  exact hpage ▸ List.mem_cons_of_mem _ List.mem_cons_self

end HeaderError

end Sys2Proof.Machine

open Sys2Proof Sys2Proof.Machine

/-- Settles O31: the packet at the head of an aligned port's stream opens, fills, ends or orphans its sensor's frame, and
what the buffer passes on meanwhile leaves that; a header that fails counts and marks. -/
theorem satellitePacketsAct : Obligations.SatellitePacketsAct := by
  unfold Obligations.SatellitePacketsAct
  refine ⟨?fill, ?off, ?start, ?orphan, ?line, ?lineEnd, ?frameEnd, ?timeout, ?idle, ?hello, ?wrong⟩
  case fill =>
    intro p h pay t s hst hsearch hpkt
    exact ⟨_, runs_onDev (c := .satFill p) (f := spTake p 0 fun _ _ d => d) rfl
      (spTake_packet (fun _ _ d => d) hst hsearch hpkt), port_spTaken .., rfl⟩
  case off =>
    intro p h pay t s hst hsearch hpkt hopen hstop hen
    have htake : spTake p 1 (spStart p) s.dev = (spUse p 24 ((spTaken p t s.dev).bumpI SP_ORPHAN p 0)).1 :=
      (spTake_packet _ hst hsearch hpkt).trans (spStart_disabled pay ((congrArg VsSt.opened (vs_spTaken ..)).trans hopen) hstop hen)
    have hon : spEnds p (spTake p 1 (spStart p)) s.dev = (spUse p 24 ((spTaken p t s.dev).bumpI SP_ORPHAN p 0)).1 :=
      (spEnds_on (.inl (by rw [htake, com_orphaned]; exact hstop))).trans htake
    refine ⟨_, runs_onDev (c := .satFrameStart p) (f := spEnds p (spTake p 1 (spStart p))) rfl hon, frames_orphaned .., ?_,
      fi_orphaned .., onlyWords_orphan_taken _ _ _ _⟩
    rw [vs_orphaned, vs_spTaken, hopen]
  case start =>
    intro p h pay t s hst hsearch hpkt hopen hstop hen hpaused
    have hv := vs_lt_of_packet hpkt
    have hcarry := carries_started (p := p) (d := spTaken p t s.dev) pay hv h.fnum 24
    have htake : spTake p 1 (spStart p) s.dev = spCount p h.vs 24 (spOpen p h.vs h.fnum pay (spTaken p t s.dev)) :=
      (spTake_packet _ hst hsearch hpkt).trans (spStart_opens pay ((congrArg VsSt.opened (vs_spTaken ..)).trans hopen) hstop hen
        (by rw [vs_spTaken]; exact hpaused))
    have hon : spEnds p (spTake p 1 (spStart p)) s.dev = spCount p h.vs 24 (spOpen p h.vs h.fnum pay (spTaken p t s.dev)) :=
      (spEnds_on (.inl (by rw [htake]; exact fun hmem => hstop (hcarry.stopping _ hmem)))).trans htake
    have hvs := vs_startedDev (p := p) pay h.vs h.fnum (spTaken p t s.dev)
    have hframe := hcarry.frames (spTaken p t s.dev).nextFrame
    rw [frame_startedDev] at hframe
    exact ⟨_, s.dev.nextFrame, runs_onDev (c := .satFrameStart p) (f := spEnds p (spTake p 1 (spStart p))) rfl hon, rfl,
      hcarry.next, (hcarry.opened _).trans (congrArg VsSt.opened hvs), (hcarry.fnum _).trans (congrArg VsSt.fnum hvs),
      (hcarry.total _).trans (congrArg VsSt.total hvs), hframe.member, hframe.fid, hframe.w, hframe.h⟩
  case orphan =>
    intro p h pay t s hst hsearch hpkt hother
    have htake : spTake p 2 (fun h pay => spOwn p h (spLine p h pay)) s.dev =
        (spUse p (8 + 8 * h.len) ((spTaken p t s.dev).bumpI SP_ORPHAN p 0)).1 :=
      (spTake_packet _ hst hsearch hpkt).trans (spOwn_other _ (by rw [vs_spTaken]; exact hother))
    refine ⟨_, runs_onDev (c := .satLine p) (f := spTake p 2 fun h pay => spOwn p h (spLine p h pay)) rfl htake,
      frames_orphaned .., ?_, fi_orphaned .., onlyWords_orphan_taken _ _ _ _⟩
    rw [vs_orphaned, vs_spTaken]
  case line =>
    intro p h pay t u s hst hsearch hpkt hopen hfnum hkept htrunc hline hseg hh hs hlen hroom
    have hvs := vs_spTaken p t s.dev h.vs
    have htake : spTake p 2 (fun h pay => spOwn p h (spLine p h pay)) s.dev = spLine p h pay (spTaken p t s.dev) :=
      (spTake_packet _ hst hsearch hpkt).trans (spOwn_open _ (by rw [hvs]; exact hopen) (by rw [hvs]; exact hfnum))
    obtain ⟨hgot, htotal, hnext, hopen', htrunc'⟩ := spLine_rules (d := spTaken p t s.dev) pay (vs_lt_of_packet hpkt)
      (by rw [hvs]; exact hopen) (by rw [hvs]; exact hkept) (by rw [hvs]; exact htrunc) (by rw [hvs]; exact hline)
      (by rw [hvs]; exact hseg) hh hs hlen (by rw [port_spTaken]; exact hroom)
    rw [hvs] at hgot htotal
    exact ⟨_, runs_onDev (c := .satLine p) (f := spTake p 2 fun h pay => spOwn p h (spLine p h pay)) rfl htake, hgot, htotal,
      hnext, hopen', htrunc'⟩
  case lineEnd =>
    intro p h pay t u crc s hst hsearch hpkt hopen hfnum hkept hcrc
    have hvs := vs_spTaken p t s.dev h.vs
    have htake : spTake p 3 (fun h pay => spOwn p h (spLineEnd p h pay)) s.dev = spLineEnd p h pay (spTaken p t s.dev) :=
      (spTake_packet _ hst hsearch hpkt).trans (spOwn_open _ (by rw [hvs]; exact hopen) (by rw [hvs]; exact hfnum))
    obtain ⟨hreg, hopen', hok, hbad⟩ := spLineEnd_rules (d := spTaken p t s.dev) pay (vs_lt_of_packet hpkt)
      (by rw [hvs]; exact hopen) (by rw [hvs]; exact hkept)
    rw [hvs] at hreg hok hbad
    rw [lineCrcOf, ← hcrc] at hok hbad
    exact ⟨_, runs_onDev (c := .satLineEnd p) (f := spTake p 3 fun h pay => spOwn p h (spLineEnd p h pay)) rfl htake, hreg,
      hopen', hok, hbad⟩
  case frameEnd =>
    intro p h pay t u s hst hsearch hpkt hopen hfnum hkept
    have hvs := vs_spTaken p t s.dev h.vs
    have htake : spTake p 4 (fun h pay => spOwn p h (spFrameEnd p h pay)) s.dev = spFrameEnd p h pay (spTaken p t s.dev) :=
      (spTake_packet _ hst hsearch hpkt).trans (spOwn_open _ (hvs ▸ hopen) (hvs ▸ hfnum))
    obtain ⟨hnone, htrunc, hsent⟩ := spFrameEnd_shuts pay (vs_lt_of_packet hpkt) (hvs ▸ hopen) (hvs ▸ hkept)
    have hcloses := closes_spEnds p (spTake p 4 fun h pay => spOwn p h (spFrameEnd p h pay)) s.dev
    rw [htake] at hcloses
    obtain ⟨hopen', htrunc'⟩ := hcloses.shut h.vs hnone
    exact ⟨_, runs_onDev (c := .satFrameEnd p) (f := spEnds p (spTake p 4 fun h pay => spOwn p h (spFrameEnd p h pay))) rfl rfl,
      hopen', htrunc'.trans htrunc, (hcloses.frames u).sent.trans hsent⟩
  case timeout =>
    intro p v u s hopen hkept
    obtain ⟨hnone, _, hframes⟩ := spClose_shuts (noEnd := true) (bytes := 0) v.isLt hopen hkept
    have hcloses := closes_spEnds p (spClose p v 0 true) s.dev
    exact ⟨_, runs_onDev (c := .satFrameTimeout p v) (f := spEnds p (spClose p v 0 true)) rfl rfl, (hcloses.shut v hnone).1,
      (hcloses.frames u).marks _ ((hframes u).marks _ (marked_closeMarks hopen hkept))⟩
  case idle =>
    intro p v s hnone
    have hclose : spClose p v 0 true s.dev = s.dev := spClose_none hnone
    exact runs_onDev (c := .satFrameTimeout p v) (f := spEnds p (spClose p v 0 true)) rfl
      ((spEnds_on (.inr fun _ _ _ => by rw [hclose])).trans hclose)
  case hello =>
    intro p h pay t s hst hsearch hpkt
    have hport := (port_spHello p (bs := (s.dev.port p).strm) pay (spTaken p t s.dev)).trans
      (congrArg (SpSt.receive · 48) (port_spTaken ..))
    refine ⟨_, runs_onDev (c := .satHello p) (f := fun d => spTake p 6 (fun _ pay => spHello p ((d.port p).strm.take 8) pay) d) rfl
      (spTake_packet _ hst hsearch hpkt), valid_spHello .., congrArg SpSt.strm hport, first_spHello _ _ _ (strm_of_packet hpkt), ?_⟩
    exact funext fun w => vs_of_port (congrArg SpSt.vs hport :) w
  case wrong =>
    intro p s hst hsearch hwrong
    obtain ⟨x, heq⟩ := spHdrError_wrong p hst hsearch hwrong
    exact ⟨_, runs_onDev (c := .satHeaderError p) (f := spHdrError p) rfl heq,
      (Dev.fi_congr (Dev.setPort_regs ..) ..).trans (fi_headerMarks p s.dev),
      onlyWords_regs (onlyWords_headerMarks p s.dev) (Dev.setPort_regs ..)⟩
end

section
/-! SUPPORT. Proofs about rows in stage P3 (R322): a row whose key stage P2's store lists with no segment behind it. -/
namespace Sys2Proof.Machine

/-- A command has one next device. -/
theorem runs_unique {c : Instr} {s : State} {d e : Dev} (h : runs c s d) (h' : runs c s e) : d = e :=
  congrArg State.dev (Host.Outcome.next.inj (h.symm.trans h'))

/-- A satellite frame still being received, of whose one row stage P2's store lists a key and holds no segment. -/
def listedOnly : State := { State.reset with dev := { State.reset.dev with
  frames := [(0, { member := 1, w := 256, reading := true })],
  pipe := [(0, { raw := [(0, none)], p2 := [(0, none)] })] } }

theorem exec_hdrRow (u pass rk : Nat) (s : State) :
    exec (.hdrRow u pass rk) s = onDev (fun d => histSweep u (hdrRow u pass rk d)) s := rfl

theorem foldl_id {α β : Type} {f : β → α → β} {l : List α} {d : β} (h : ∀ x, f d x = d) : l.foldl f d = d := by
  induction l with
  | nil => rfl
  | cons x l ih => rw [List.foldl_cons, h, ih]

/-- A frame that the statistics take no part in sends no windows. -/
theorem histSweep_off {u : Nat} {d : Dev} (h : d.stage u stSTA = false) : histSweep u d = d :=
  foldl_id fun _ => foldl_id fun _ => if_pos (.inr (.inr (.inr (.inr (.inr h)))))

/-- Stage P3 finds nothing to pass, and no row that could leave. -/
theorem runs_hdrRow_listedOnly : runs (.hdrRow 0 0 0) listedOnly listedOnly.dev := by
  have htodo : (listedOnly.dev.hdrTodo 0 0 0).filter
      (fun s => listedOnly.dev.imageIn 0 0 || (segGet (listedOnly.dev.pf 0).p2 0 0 s).isSome) = [] := by decide
  have hentered : (listedOnly.dev.pf 0).entered = [] := by decide
  have himage : listedOnly.dev.imageIn 0 0 = false := by decide
  have hfuse : listedOnly.dev.fuses 0 = false := by decide
  have hrelease : hdrRelease 0 0 listedOnly.dev = listedOnly.dev := by
    unfold hdrRelease
    dsimp only
    rw [hentered, himage, Bool.false_and, if_neg fun h => Bool.false_ne_true h.1]
    rfl
  have hrow : hdrRow 0 0 0 listedOnly.dev = listedOnly.dev := by
    unfold hdrRow
    dsimp only
    rw [hfuse, if_neg Bool.false_ne_true, htodo]
    exact (if_pos (.inl rfl)).trans hrelease
  refine runs_onDev (exec_hdrRow ..) ?_
  rw [hrow]
  exact histSweep_off (by decide)

end Sys2Proof.Machine

open Sys2Proof Sys2Proof.Machine

/-- Refutes O32: the last clause reads a row's segments off the keys that stage P2's store lists, and asks that each reach
stage P3. A store that lists a key with no segment behind it gives that row whole, while the frame is still received; stage
P3 then has nothing to pass, and its store stays empty. -/
theorem not_rowsPassTheStages : ¬ Obligations.RowsPassTheStages := by
  unfold Obligations.RowsPassTheStages
  rintro ⟨-, -, -, -, -, hrow⟩
  obtain ⟨d, hrun, hsome, -⟩ := hrow 0 0 0 0 listedOnly (by decide) (by decide) (.inr (by decide)) (by decide) (by decide)
  rw [runs_unique hrun runs_hdrRow_listedOnly] at hsome
  exact absurd hsome (by decide)
end

section
/-! SUPPORT. Proofs about the data registers of the defect table and of the shading grid (R298, R307). -/
namespace Sys2Proof.Machine

/-! ## The address registers -/

theorem f_setF_same (d : Dev) {F : Fld} (h : F.lo ≤ F.hi) (h32 : F.hi < 32) {v : Nat} (hv : v < 2 ^ (F.hi - F.lo + 1)) :
    (d.setF F v).f F = v := (Dev.fi_setFi_same _ _ _ _ _ h h32).trans (Nat.mod_eq_of_lt hv)

theorem defAddr_stepped {a : Nat} (h : a < 66048) (d : Dev) : (d.setF PXC_DEF_ADDR_ADDR (a + 1)).f PXC_DEF_ADDR_ADDR = a + 1 := by
  have hwidth : 2 ^ (PXC_DEF_ADDR_ADDR.hi - PXC_DEF_ADDR_ADDR.lo + 1) = 131072 := by decide
  exact f_setF_same d (by decide) (by decide) (by rw [hwidth]; omega)

theorem lscAddr_stepped {a : Nat} (h : a < 25220) (d : Dev) : (d.setF PXC_LSC_ADDR_ADDR (a + 1)).f PXC_LSC_ADDR_ADDR = a + 1 := by
  have hwidth : 2 ^ (PXC_LSC_ADDR_ADDR.hi - PXC_LSC_ADDR_ADDR.lo + 1) = 32768 := by decide
  exact f_setF_same d (by decide) (by decide) (by rw [hwidth]; omega)

theorem f_output (d : Dev) (p : Port) (ws : List Word) (F : Fld) : (d.output p ws).f F = d.f F :=
  Dev.fi_congr (Dev.output_regs ..) F 0 0

/-! ## The defect table -/

/-- A write to a free defect table: the word is stored and the address steps on. -/
def defWritten (a : Nat) (w : Word) (d : Dev) : Dev :=
  { d.setF PXC_DEF_ADDR_ADDR (a + 1) with defs := SMap.set zeroWord d.defs a w }

/-- A write through DEF_DATA at an address, once the port lets it pass. -/
def defWrite (p : Port) (w : Word) (a : Nat) (d : Dev) : Dev :=
  if d.enabled .pxc then d.reject .pxc p 0x9210C w 1
  else if a < 66048 then defWritten a w d else d.setF PXC_DEF_ADDR_ADDR (a + 1)

theorem runs_pxcDefData_write {p : Port} {w : Word} {s : State} (h : s.admitsAt p .pxc) (hen : s.dev.enabled .pxc = false)
    (ha : s.dev.f PXC_DEF_ADDR_ADDR < 66048) :
    runs (.pxcDefData p (some w)) s (defWritten (s.dev.f PXC_DEF_ADDR_ADDR) w s.dev) := by
  have hrun := runs_gatePage (c := .pxcDefData p (some w)) (f := defWrite p w (s.dev.f PXC_DEF_ADDR_ADDR)) rfl h
  rw [defWrite, hen, if_neg Bool.false_ne_true, if_pos ha] at hrun
  exact hrun

theorem defWord_defWritten (a b : Nat) (w : Word) (d : Dev) :
    (defWritten a w d).defWord b = if b = a then w else d.defWord b := SMap.get_set ..

theorem runs_pxcDefData_enabled {p : Port} {w : Word} {s : State} (h : s.admitsAt p .pxc) (hen : s.dev.enabled .pxc = true) :
    runs (.pxcDefData p (some w)) s (s.dev.reject .pxc p 0x9210C w 1) := by
  have hrun := runs_gatePage (c := .pxcDefData p (some w)) (f := defWrite p w (s.dev.f PXC_DEF_ADDR_ADDR)) rfl h
  rw [defWrite, hen, if_pos rfl] at hrun
  exact hrun

theorem runs_pxcDefData_read {p : Port} {s : State} (h : s.dev.serves = true) (ha : s.dev.f PXC_DEF_ADDR_ADDR < 66048) :
    runs (.pxcDefData p none) s ((s.dev.setF PXC_DEF_ADDR_ADDR (s.dev.f PXC_DEF_ADDR_ADDR + 1)).output p
      [s.dev.defWord (s.dev.f PXC_DEF_ADDR_ADDR)]) := by
  refine runs_onDev (f := defData p none) rfl ?_
  unfold defData
  dsimp only
  rw [if_neg (by rw [h]; decide), if_pos ha]

/-! ## The shading grid -/

/-- A write to the shading bank that is not active. -/
def lscWritten (bank a : Nat) (w : Word) (d : Dev) : Dev :=
  { d.setF PXC_LSC_ADDR_ADDR (a + 1) with lsc := SMap.set unityNode d.lsc (bank * 25220 + a) (w.toNat % 65536) }

theorem runs_pxcLscData_write {p : Port} {w : Word} {s : State} (h : s.admitsAt p .pxc)
    (hnamed : s.dev.lscNamed (1 - s.dev.a PXC_LSC_CFG_BANK_SEL) = false) (ha : s.dev.f PXC_LSC_ADDR_ADDR < 25220) :
    runs (.pxcLscData p (some w)) s (lscWritten (1 - s.dev.a PXC_LSC_CFG_BANK_SEL) (s.dev.f PXC_LSC_ADDR_ADDR) w s.dev) := by
  have hrun := runs_gatePage (c := .pxcLscData p (some w)) (f := fun d =>
    if d.lscNamed (1 - s.dev.a PXC_LSC_CFG_BANK_SEL) then d.reject .pxc p 0x92128 w 3
    else if s.dev.f PXC_LSC_ADDR_ADDR < 25220 then
      { d.setF PXC_LSC_ADDR_ADDR (s.dev.f PXC_LSC_ADDR_ADDR + 1) with
        lsc := SMap.set unityNode (d.setF PXC_LSC_ADDR_ADDR (s.dev.f PXC_LSC_ADDR_ADDR + 1)).lsc
          ((1 - s.dev.a PXC_LSC_CFG_BANK_SEL) * 25220 + s.dev.f PXC_LSC_ADDR_ADDR) (w.toNat % 65536) }
    else d.setF PXC_LSC_ADDR_ADDR (s.dev.f PXC_LSC_ADDR_ADDR + 1)) rfl h
  rw [hnamed, if_neg Bool.false_ne_true, if_pos ha] at hrun
  exact hrun

theorem lscNode_lscWritten (bank a b c : Nat) (w : Word) (d : Dev) (ha : a < 25220) (hc : c < 25220) :
    (lscWritten bank a w d).lscNode b c = if b = bank ∧ c = a then w.toNat % 65536 else d.lscNode b c := by
  have hset : (lscWritten bank a w d).lscNode b c =
      if b * 25220 + c = bank * 25220 + a then w.toNat % 65536 else d.lscNode b c := SMap.get_set ..
  exact hset.trans (if_congr (by omega) rfl rfl)

theorem runs_pxcLscData_read {p : Port} {s : State} (h : s.dev.serves = true) (ha : s.dev.f PXC_LSC_ADDR_ADDR < 25220) :
    runs (.pxcLscData p none) s ((s.dev.setF PXC_LSC_ADDR_ADDR (s.dev.f PXC_LSC_ADDR_ADDR + 1)).output p
      [BitVec.ofNat 32 (s.dev.lscNode (1 - s.dev.a PXC_LSC_CFG_BANK_SEL) (s.dev.f PXC_LSC_ADDR_ADDR))]) := by
  refine runs_onDev (f := lscData p none) rfl ?_
  unfold lscData
  dsimp only
  rw [if_neg (by rw [h]; decide), if_pos ha]

end Sys2Proof.Machine

open Sys2Proof Sys2Proof.Machine

/-- Settles O33: a word written through a data register is stored at its address alone, a read gives what is stored, and
either steps the address on. -/
theorem correctionTablesAreWritten : Obligations.CorrectionTablesAreWritten := by
  unfold Obligations.CorrectionTablesAreWritten
  refine ⟨?write, ?enabled, ?read, ?node, ?nodeRead⟩
  case write =>
    intro p w s h hen ha
    refine ⟨_, runs_pxcDefData_write h hen ha, (defWord_defWritten ..).trans (if_pos rfl),
      fun a hne => (defWord_defWritten ..).trans (if_neg hne), defAddr_stepped ha s.dev, rfl, ?_⟩
    exact onlyWords_regs (onlyWords_setFi s.dev (F := PXC_DEF_ADDR_ADDR) (i := 0) (k := 0) (List.mem_singleton.mpr rfl) _) rfl
  case enabled => exact fun p w s h hen => runs_pxcDefData_enabled h hen
  case read =>
    intro p s h ha
    refine ⟨_, runs_pxcDefData_read h ha, Dev.output_given .., (f_output ..).trans (defAddr_stepped ha s.dev), ?_⟩
    cases p <;> rfl
  case node =>
    intro p w b a s h hb hnamed ha hlt
    subst hb ha
    have hsel : s.dev.a PXC_LSC_CFG_BANK_SEL < 2 := bitsOf_lt ..
    refine ⟨_, runs_pxcLscData_write h hnamed hlt, (lscNode_lscWritten _ _ _ _ _ _ hlt hlt).trans (if_pos ⟨rfl, rfl⟩),
      fun c hc hne => (lscNode_lscWritten _ _ _ _ _ _ hlt hc).trans (if_neg fun h => hne h.2),
      fun c hc => (lscNode_lscWritten _ _ _ _ _ _ hlt hc).trans (if_neg fun h => absurd h.1 (by omega)),
      lscAddr_stepped hlt s.dev, rfl⟩
  case nodeRead =>
    intro p a s h ha hlt
    subst ha
    exact ⟨_, runs_pxcLscData_read h hlt, Dev.output_given .., (f_output ..).trans (lscAddr_stepped hlt s.dev),
      Dev.output_lsc ..⟩
end

section
/-! SUPPORT. Proofs about what leaves the stages: the lines of geometry, the records of the statistics, the views and the
encoder's slices (R329, R335, R343, R352, R366). -/
namespace Sys2Proof.Machine

/-! ## Outputs of a frame -/

theorem pf_setPf (d : Dev) (u w : Nat) (x : PFrame) : (d.setPf u x).pf w = if w = u then x else d.pf w := SMap.get_set ..

theorem pf_setPf_same (d : Dev) (u : Nat) (x : PFrame) : (d.setPf u x).pf u = x := SMap.get_set_same ..

theorem pf_of_pipe {d e : Dev} (h : e.pipe = d.pipe) (u : Nat) : e.pf u = d.pf u := by rw [Dev.pf, h, Dev.pf]

theorem pf_setOutFr (d : Dev) (u n : Nat) (o : OutFr) :
    (d.setOutFr u n o).pf u = { d.pf u with outs := SMap.set noOutFr (d.pf u).outs n o } := pf_setPf_same ..

theorem outFr_setOutFr (d : Dev) (u n : Nat) (o : OutFr) : (d.setOutFr u n o).outFr u n = o := by
  rw [Dev.outFr, pf_setOutFr, SMap.get_set_same]

/-- What one output has emitted of a frame, and the frame's pixels before and behind stage P3. -/
def Dev.emitted (u n : Nat) (d : Dev) : Bool × List (Nat × List PxY) × SMap (Option (SegOf Nat)) × SMap (Option (SegOf PxY)) :=
  ((d.outFr u n).opened, (d.outFr u n).lines, (d.pf u).raw, (d.pf u).y)

theorem emitted_of_pipe {u n : Nat} {d e : Dev} (h : e.pipe = d.pipe) : e.emitted u n = d.emitted u n := by
  rw [Dev.emitted, Dev.outFr, pf_of_pipe h, Dev.emitted, Dev.outFr]

theorem emitted_setOutFr (u n : Nat) (o : OutFr) (d : Dev) :
    (d.setOutFr u n o).emitted u n = (o.opened, o.lines, (d.pf u).raw, (d.pf u).y) := by
  rw [Dev.emitted, outFr_setOutFr, pf_setOutFr]

theorem act_asOf {d e : Dev} (hact : e.act = d.act) (hgens : e.gens = d.gens) (hframes : e.frames = d.frames) (u : Nat) :
    (e.asOf u).act = (d.asOf u).act := by
  have hframe : e.frame u = d.frame u := by rw [Dev.frame, hframes, Dev.frame]
  unfold Dev.asOf
  rw [hgens, hframe]
  split
  · rfl
  · exact hact

/-! ## Geometry -/

theorem pipe_streamClosed (d : Dev) (k : Nat) (x : StreamSt) : ((d.setStream k x).closeStream k).pipe = d.pipe := rfl

theorem pipe_streamLine (d : Dev) (k line x0 trt b unit per : Nat) (px : List Nat) :
    (d.streamLine k line x0 trt b unit per px).pipe = d.pipe := rfl

theorem emitted_geoOpen (u n : Nat) (g : Geo) (d : Dev) :
    (geoOpen u n g d).emitted u n = (true, (d.outFr u n).lines, (d.pf u).raw, (d.pf u).y) := by
  unfold geoOpen
  dsimp only
  split
  case isTrue h => rw [Dev.emitted, h]
  case isFalse =>
    split
    · exact emitted_setOutFr ..
    · exact emitted_setOutFr ..

theorem emitted_geoClose (u n : Nat) (g : Geo) (d : Dev) : (geoClose u n g d).emitted u n = d.emitted u n := by
  have hraised : ∀ c : Prop, ∀ [Decidable c], (if c then d.raise GEO_IRQ_RAW_UNREAD else d).pipe = d.pipe :=
    fun c _ => ite_keeps Dev.pipe (Dev.raiseBits_pipe ..) rfl
  have hclosed : ∀ e : Dev, e.pipe = d.pipe → (e.setOutFr u n { d.outFr u n with closed := true }).emitted u n = d.emitted u n :=
    fun e he => by rw [emitted_setOutFr, pf_of_pipe he, Dev.emitted]
  unfold geoClose
  dsimp only
  split
  · exact (emitted_of_pipe (pipe_streamClosed ..)).trans (hclosed _ (hraised _))
  · exact hclosed _ (hraised _)

/-- A line leaves. -/
theorem emitted_geoEmit (u n : Nat) (g : Geo) (yo : Nat) (d : Dev) :
    ∃ l, (geoEmit u n g yo d).emitted u n = ((d.outFr u n).opened, (d.outFr u n).lines ++ [l], (d.pf u).raw, (d.pf u).y) := by
  unfold geoEmit
  dsimp only
  split
  · exact ⟨_, (emitted_of_pipe ((pipe_streamLine ..).trans (Dev.setFi_pipe ..))).trans (emitted_setOutFr ..)⟩
  · exact ⟨_, (emitted_of_pipe (Dev.setFi_pipe ..)).trans (emitted_setOutFr ..)⟩

/-- One step of an output: it is open, and at most one line is added. -/
theorem emitted_geoLine {u n : Nat} {g : Geo} {d : Dev} (h : d.geoFrame n = some (u, g)) :
    ∃ l, l.length ≤ 1 ∧ (geoLine n d).emitted u n = (true, (d.outFr u n).lines ++ l, (d.pf u).raw, (d.pf u).y) := by
  have hopen := emitted_geoOpen u n g d
  unfold geoLine
  rw [h]
  dsimp only
  generalize geoOpen u n g d = e at hopen
  obtain ⟨hopened, hlines, hraw, hy⟩ : (e.outFr u n).opened = true ∧ (e.outFr u n).lines = (d.outFr u n).lines ∧
      (e.pf u).raw = (d.pf u).raw ∧ (e.pf u).y = (d.pf u).y := by
    simpa only [Dev.emitted, Prod.mk.injEq] using hopen
  split
  case h_1 =>
    refine ⟨[], Nat.zero_le _, (ite_keeps (Dev.emitted u n) (emitted_geoClose ..) rfl).trans ?_⟩
    rw [hopen, List.append_nil]
  case h_2 yo _ =>
    obtain ⟨l, hl⟩ := emitted_geoEmit u n g yo e
    refine ⟨[l], Nat.le_refl _, (ite_keeps (Dev.emitted u n) (emitted_geoClose ..) rfl).trans (hl.trans ?_)⟩
    rw [hopened, hlines, hraw, hy]

/-! ## The encoder's streams -/

/-- A part of the device beside the streams, the registers and what is reported. -/
structure KeptByEncoder {β : Type} (part : Dev → β) : Prop where
  enc : ∀ d n x, part (d.setEnc n x) = part d
  count : ∀ d F n, part (d.add F n) = part d
  raise : ∀ d F, part (d.raise F) = part d
  once : ∀ d u code p b, part (d.onceFrame u code p b) = part d
  stream : ∀ d k x, part (d.setStream k x) = part d
  asked : ∀ (d : Dev) l, part { d with reqs := l } = part d
  opened : ∀ d x, part (d.openStream x).2 = part d

section Encoder
variable {β : Type} {part : Dev → β} (h : KeptByEncoder part)
include h

theorem encFlags_keeps (n u flags : Nat) (d : Dev) : part (encFlags n u flags d) = part d := h.enc ..

theorem encEnd_keeps (n u flags : Nat) (d : Dev) : part (encEnd n u flags d) = part d :=
  (h.enc ..).trans (encFlags_keeps h ..)

theorem encDrop_keeps (n u : Nat) (d : Dev) : part (encDrop n u d) = part d :=
  (h.once ..).trans ((h.raise ..).trans ((h.count _ ENC_DROP 1).trans (h.enc ..)))

theorem encAccept_keeps (n u : Nat) (src : List Nat) (job : EncJob) (d : Dev) : part (encAccept n u src job d) = part d :=
  Eq.trans (h.enc ..) (ite_keeps part (h.count _ ENC_GUARDED 1) rfl)

theorem encConsider_keeps (n u : Nat) (src : List Nat) (job : EncJob) (d : Dev) :
    part (encConsider n u src job d) = part d :=
  ite_keeps part rfl (ite_keeps part (encAccept_keeps h ..) (h.enc ..))

theorem encLine_keeps (n u line : Nat) (px : List Nat) (d : Dev) : part (encLine n u line px d) = part d := by
  unfold encLine
  dsimp only
  split
  · rfl
  · exact ite_keeps part rfl (ite_keeps part (h.enc ..) (ite_keeps part ((encDrop_keeps h ..).trans (h.enc ..))
      ((h.enc ..).trans (h.enc ..))))

theorem encFeed_keeps (u n : Nat) (g : Geo) (d : Dev) : part (encFeed u n g d) = part d := by
  unfold encFeed
  refine foldl_keeps part (fun d es => ?_) _ d
  dsimp only
  have hconsider : ∀ fl src job, part (encFlags es u fl (encConsider es u src job d)) = part d := fun _ _ _ =>
    (encFlags_keeps h ..).trans (encConsider_keeps h ..)
  refine Eq.trans (ite_keeps part (encEnd_keeps h ..) rfl) ?_
  split
  · exact Eq.trans (ite_keeps part rfl (encLine_keeps h ..)) (hconsider ..)
  · exact hconsider ..

theorem encFinish_keeps (n : Nat) (j : EncJob) (d : Dev) : part (encFinish n j d) = part d := by
  have hover : ∀ c : Prop, ∀ [Decidable c], part (if c then (d.bump ENC_OVERSHOOT).raise ENC_IRQ_RAW_OVERSHOOT else d) = part d :=
    fun c _ => ite_keeps part ((h.raise ..).trans (h.count _ ENC_OVERSHOOT 1)) rfl
  unfold encFinish
  dsimp only
  refine (h.enc ..).trans ((h.asked ..).trans ((h.asked ..).trans (Eq.trans (ite_keeps part (h.stream ..) rfl) ?_)))
  exact (h.opened ..).trans (hover _)

theorem encSlice_keeps (n : Nat) (d : Dev) : part (encSlice n d) = part d := by
  unfold encSlice
  dsimp only
  split
  · rfl
  · split
    · exact encFinish_keeps h ..
    · exact Eq.trans (ite_keeps part (encFinish_keeps h ..) rfl) (h.enc ..)

theorem rasterLines_keeps (es u : Nat) (rs : List (List Nat)) (d : Dev) : part (rasterLines es u rs d) = part d :=
  foldl_keeps part (fun _ _ => (encLine_keeps h ..).trans (ite_keeps part (encSlice_keeps h ..) rfl)) _ d

theorem rasterOut_keeps (u n v flags : Nat) (g : Geo) (rs : List (List Nat)) (d : Dev) :
    part (rasterOut u n v flags g rs d) = part d := by
  unfold rasterOut
  dsimp only
  have hstream : ∀ k e, part ((rs.zipIdx).foldl (fun (d : Dev) (l : List Nat × Nat) => d.streamLine k l.2 0 0 10 4 2 l.1) e) = part e :=
    fun k e => foldl_keeps part (fun _ _ => h.asked ..) _ e
  refine Eq.trans (ite_keeps part (foldl_keeps part (fun _ _ => ?_) _ _) rfl) (ite_keeps part ?_ rfl)
  · exact (encEnd_keeps h ..).trans ((rasterLines_keeps h ..).trans ((encFlags_keeps h ..).trans (encConsider_keeps h ..)))
  · exact (h.asked ..).trans ((hstream ..).trans (h.opened ..))

end Encoder

theorem pipe_keptByEncoder : KeptByEncoder Dev.pipe where
  enc _ _ _ := rfl
  count _ _ _ := rfl
  raise _ _ := Dev.raiseBits_pipe ..
  once _ u _ _ _ := by
    unfold Dev.onceFrame
    exact ite_keeps Dev.pipe rfl rfl
  stream _ _ _ := rfl
  asked _ _ := rfl
  opened _ _ := rfl

theorem views_keptByEncoder : KeptByEncoder Dev.views where
  enc _ _ _ := rfl
  count _ _ _ := rfl
  raise _ _ := Dev.raiseBits_views ..
  once _ u _ _ _ := by
    unfold Dev.onceFrame
    exact ite_keeps Dev.views rfl rfl
  stream _ _ _ := rfl
  asked _ _ := rfl
  opened _ _ := rfl

/-! ## Records -/

theorem reqs_sendStats {q typ : Nat} {f : Frame} {pass : Nat} (l : List (List Byte)) (d : Dev) :
    ∃ r, l.foldl (fun d p => d.sendStat q typ f pass p) d = { d with reqs := r } := by
  induction l generalizing d with
  | nil => exact ⟨d.reqs, rfl⟩
  | cons p l ih =>
    obtain ⟨r, hr⟩ := ih (d.sendStat q typ f pass p)
    exact ⟨r, hr⟩

theorem reqs_statsSent {q typ q' typ' : Nat} {f : Frame} (pass : Nat) (l : List (List Byte)) (pay : List Byte) (d : Dev) :
    ∃ r, (if pass = 0 then (l.foldl (fun d p => d.sendStat q typ f pass p) d).sendStat q' typ' f 0 pay
      else l.foldl (fun d p => d.sendStat q typ f pass p) d) = { d with reqs := r } := by
  obtain ⟨r, hr⟩ := reqs_sendStats (q := q) (typ := typ) (f := f) (pass := pass) l d
  rw [hr]
  split
  · exact ⟨_, rfl⟩
  · exact ⟨r, rfl⟩

/-- A frame's records as firmware finds them. -/
def withRecs (pass : Nat) (r : RecSet) (d : Dev) : Dev := { d with recs := SMap.set noRecs d.recs pass r }

def handedOver (u pass : Nat) (d : Dev) : Dev := d.setPf u { d.pf u with handed := (d.pf u).handed ++ [pass] }

theorem handRecords_on {u pass : Nat} {d : Dev} (hst : d.stage u stSTA = true) (hon : (d.asOf u).a STA_TILE_CFG_EN = 1) :
    ∃ r l, r.fid = (d.frame u).fid ∧ r.k = (d.frame u).k ∧
      handRecords u pass d = { withRecs pass r (handedOver u pass d) with reqs := l } := by
  have hstage : (handedOver u pass d).stage u stSTA = true := by
    rw [Dev.stage, handedOver, pf_setPf_same]; exact hst
  unfold handRecords
  dsimp only
  rw [if_neg (by rw [← handedOver, hstage]; decide), if_pos hon, ← handedOver]
  split
  · exact ⟨_, d.reqs, rfl, rfl, rfl⟩
  · exact Exists.elim (reqs_statsSent pass _ _ _) fun l hl => ⟨_, l, rfl, rfl, hl⟩

/-- What firmware has been handed of a frame. -/
def Dev.handedOf (u : Nat) (d : Dev) : List Nat × SMap RecSet := ((d.pf u).handed, d.recs)

theorem handedOf_hists (w u : Nat) (l : List Nat) (d : Dev) :
    (d.setPf w { d.pf w with hists := l }).handedOf u = d.handedOf u := by
  refine Prod.ext ?_ rfl
  show ((d.setPf w { d.pf w with hists := l }).pf u).handed = (d.pf u).handed
  rw [pf_setPf]
  split
  case isTrue heq => rw [heq]
  case isFalse => rfl

/-- Windows that are sent leave what firmware has been handed. -/
theorem winSend_keeps (w n op u : Nat) (d : Dev) : (winSend w n op d).handedOf u = d.handedOf u := by
  unfold winSend
  dsimp only
  refine ite_keeps (Dev.handedOf u) rfl ?_
  split
  · exact handedOf_hists ..
  · exact handedOf_hists ..

theorem histSweep_keeps (w u : Nat) (d : Dev) : (histSweep w d).handedOf u = d.handedOf u :=
  foldl_keeps (Dev.handedOf u) (fun d _ => foldl_keeps (Dev.handedOf u) (fun d _ => winSend_keeps w _ _ u d) _ d) _ d

theorem recordsReady_of {pass u : Nat} {d : Dev} (h : d.recordsOf pass = some u) :
    (recordsReady pass d).handedOf u = (handRecords u pass d).handedOf u := by
  unfold recordsReady
  rw [h]
  exact foldl_keeps (Dev.handedOf u) (fun _ _ => histSweep_keeps ..) _ _

theorem handedOf_handRecords {u pass : Nat} {d : Dev} (hst : d.stage u stSTA = true)
    (hon : (d.asOf u).a STA_TILE_CFG_EN = 1) :
    ∃ r : RecSet, r.fid = (d.frame u).fid ∧ r.k = (d.frame u).k ∧
      (handRecords u pass d).handedOf u = ((d.pf u).handed ++ [pass], SMap.set noRecs d.recs pass r) := by
  obtain ⟨r, l, hfid, hk, heq⟩ := handRecords_on (pass := pass) hst hon
  refine ⟨r, hfid, hk, ?_⟩
  rw [heq]
  exact Prod.ext (congrArg PFrame.handed (pf_setPf_same ..)) rfl

/-! ## Views -/

section Views
variable {v u n : Nat} {g : Geo} {d : Dev} (h : d.viewFrame v = some (u, n, g))

/-- The view has decided on a frame. -/
def viewDecided (v u n : Nat) (d : Dev) : Dev := d.setOutFr u n { d.outFr u n with viewed := (d.outFr u n).viewed ++ [v] }

theorem viewed_viewDecided (v u n : Nat) (d : Dev) : v ∈ ((viewDecided v u n d).outFr u n).viewed := by
  rw [viewDecided, outFr_setOutFr]
  exact List.mem_append_right _ (List.mem_singleton.mpr rfl)

theorem rate_viewDecided (v u n : Nat) (d : Dev) : rateAdmits (((viewDecided v u n d).asOf u).ak VEW_RATE_LIM_CFPS v)
      ((viewDecided v u n d).view v).last ((viewDecided v u n d).frame u).stamp.ticks =
    rateAdmits ((d.asOf u).ak VEW_RATE_LIM_CFPS v) (d.view v).last (d.frame u).stamp.ticks := by
  have hak : ((viewDecided v u n d).asOf u).ak VEW_RATE_LIM_CFPS v = (d.asOf u).ak VEW_RATE_LIM_CFPS v :=
    ai_congr (act_asOf (d := d) (e := viewDecided v u n d) rfl rfl rfl u) ..
  rw [hak]
  rfl

theorem views_lateView (v u n : Nat) (d : Dev) : ((viewDecided v u n d).bumpI VEW_SKIPPED 0 v).views = d.views :=
  Dev.setFi_views ..

theorem viewed_lateView (v u n : Nat) (d : Dev) : v ∈ (((viewDecided v u n d).bumpI VEW_SKIPPED 0 v).outFr u n).viewed := by
  have hpipe : ((viewDecided v u n d).bumpI VEW_SKIPPED 0 v).pipe = (viewDecided v u n d).pipe := Dev.setFi_pipe ..
  rw [Dev.outFr, pf_of_pipe hpipe]
  exact viewed_viewDecided v u n d

theorem skipped_lateView (v u n : Nat) (d : Dev) :
    ((viewDecided v u n d).bumpI VEW_SKIPPED 0 v).fi VEW_SKIPPED 0 v = (d.fi VEW_SKIPPED 0 v + 1) % 2 ^ 32 :=
  Dev.fi_bumpI_same (viewDecided v u n d) rfl rfl 0 v

theorem view_setView (d : Dev) (v : Nat) (x : VewSt) : (d.setView v x).view v = x := SMap.get_set_same ..

include h

theorem viewAccept_admitted (hfront : (d.view v).front = none)
    (hrate : rateAdmits ((d.asOf u).ak VEW_RATE_LIM_CFPS v) (d.view v).last (d.frame u).stamp.ticks = true) :
    viewAccept v d = (viewDecided v u n d).setView v
      { d.view v with last := some (d.frame u).stamp.ticks, front := some (u, n) } := by
  have hdecided := (rate_viewDecided v u n d).trans hrate
  have hview : (viewDecided v u n d).view v = d.view v := rfl
  unfold viewAccept
  rw [h]
  dsimp only
  rw [← viewDecided, if_neg (by rw [hdecided]; decide), hview, hfront]
  rfl

theorem viewAccept_late
    (hrate : rateAdmits ((d.asOf u).ak VEW_RATE_LIM_CFPS v) (d.view v).last (d.frame u).stamp.ticks = false) :
    viewAccept v d = (viewDecided v u n d).bumpI VEW_SKIPPED 0 v := by
  have hdecided := (rate_viewDecided v u n d).trans hrate
  unfold viewAccept
  rw [h]
  dsimp only
  rw [← viewDecided, if_pos hdecided]

end Views

theorem views_viewRaster {v : Nat} {x : Nat × Nat} {d : Dev} (h : (d.view v).front = some x) :
    (viewRaster v d).views = (d.setView v { d.view v with front := (d.view v).wait, wait := none }).views := by
  unfold viewRaster
  dsimp only
  rw [h]
  dsimp only
  split
  · rfl
  · exact rasterOut_keeps views_keptByEncoder ..

/-! ## Slices -/

/-- A frame's work as its next slice has been coded. -/
def EncJob.coding (j : EncJob) (i : Nat) (t : List Nat) (bytes : List Byte) : EncJob :=
  { j with queue := t, coded := SMap.set (noList Byte) j.coded i bytes, doneLines := j.doneLines + j.sliceLines i,
           used := j.used + bytes.length }

theorem encSlice_coding {n i : Nat} {j : EncJob} {t : List Nat} {d : Dev} (h : (d.enc n).ready = some j) (hq : j.queue = i :: t)
    (ht : t ≠ []) : ∃ bytes : List Byte, encSlice n d = d.setEnc n ((d.enc n).mapJob j.u fun _ => j.coding i t bytes) ∧
      (j.first = false → bytes.length ≤ j.budget * (j.doneLines + j.sliceLines i) / j.height - j.used) := by
  unfold encSlice
  dsimp only
  rw [h]
  dsimp only
  rw [hq]
  dsimp only
  rw [if_neg fun hend => ht (List.isEmpty_iff.mp hend.1)]
  refine ⟨_, rfl, fun hfirst => ?_⟩
  rw [hfirst]
  exact List.length_take_le ..

/-- A frame that a stream works on is among its frames. -/
theorem mem_jobs_mapJob {e : EncSt} {j : EncJob} (h : e.ready = some j) (k : EncJob) : k ∈ (e.mapJob j.u fun _ => k).jobs :=
  List.mem_map.mpr ⟨j, List.mem_of_find?_eq_some h, if_pos rfl⟩

end Sys2Proof.Machine

open Sys2Proof Sys2Proof.Machine

/-- Settles O34: an output takes at most one line at a step and what feeds the encoder leaves it; records, views and slices
change their own parts, and a slice stays within its share. -/
theorem framesLeaveTheStages : Obligations.FramesLeaveTheStages := by
  unfold Obligations.FramesLeaveTheStages
  refine ⟨?line, ?noLine, ?records, ?accept, ?late, ?raster, ?slice⟩
  case line =>
    intro n u g s h
    obtain ⟨l, hlen, hl⟩ := emitted_geoLine h
    have hfeed : (geoLineFeed n s.dev).emitted u n = (geoLine n s.dev).emitted u n := by
      unfold geoLineFeed
      rw [h]
      exact ite_keeps (Dev.emitted u n) (emitted_of_pipe (encFeed_keeps pipe_keptByEncoder ..)) rfl
    obtain ⟨hopened, hlines, hraw, hy⟩ : ((geoLineFeed n s.dev).outFr u n).opened = true ∧
        ((geoLineFeed n s.dev).outFr u n).lines = (s.dev.outFr u n).lines ++ l ∧
        ((geoLineFeed n s.dev).pf u).raw = (s.dev.pf u).raw ∧ ((geoLineFeed n s.dev).pf u).y = (s.dev.pf u).y := by
      simpa only [Dev.emitted, Prod.mk.injEq] using hfeed.trans hl
    exact ⟨_, l, runs_onDev (c := .geoLine n) (f := geoLineFeed n) rfl rfl, hopened, hlines, hlen, hraw, hy⟩
  case noLine =>
    intro n s h
    refine runs_onDev (c := .geoLine n) (f := geoLineFeed n) rfl ?_
    unfold geoLineFeed
    rw [h]
  case records =>
    intro pass u s h hst hon
    obtain ⟨r, hfid, hk, hr⟩ := handedOf_handRecords (pass := pass) hst hon
    have hready := (recordsReady_of h).trans hr
    have hhanded : ((recordsReady pass s.dev).pf u).handed = (s.dev.pf u).handed ++ [pass.val] := congrArg Prod.fst hready
    have hrecs : (recordsReady pass s.dev).recs = SMap.set noRecs s.dev.recs pass r := congrArg Prod.snd hready
    refine ⟨_, runs_onDev (c := .staRecordsReady pass) (f := recordsReady pass) rfl rfl, ?_, ?_, ?_⟩
    · rw [hhanded]; exact List.mem_append_right _ (List.mem_singleton.mpr rfl)
    · rw [hrecs, SMap.get_set_same, hfid]
    · rw [hrecs, SMap.get_set_same, hk]
  case accept =>
    intro v u n g s h hfront hrate
    refine ⟨_, runs_onDev (c := .viewFrameAccept v) (f := viewAccept v) rfl (viewAccept_admitted h hfront hrate), ?_,
      viewed_viewDecided .., ?_, rfl⟩
    · rw [view_setView]
    · rw [view_setView]
  case late =>
    intro v u n g s h hrate
    exact ⟨_, runs_onDev (c := .viewFrameAccept v) (f := viewAccept v) rfl (viewAccept_late h hrate),
      views_lateView .., viewed_lateView .., skipped_lateView ..⟩
  case raster =>
    intro v x s h
    have hview : (viewRaster v s.dev).view v = { s.dev.view v with front := (s.dev.view v).wait, wait := none } := by
      rw [Dev.view, views_viewRaster h]
      exact SMap.get_set_same ..
    exact ⟨_, runs_onDev (c := .viewRasterOut v) (f := viewRaster v) rfl rfl, (congrArg VewSt.front hview :),
      (congrArg VewSt.wait hview :), (congrArg VewSt.last hview :)⟩
  case slice =>
    intro n j i t s h hq ht
    obtain ⟨bytes, heq, hlen⟩ := encSlice_coding h hq ht
    refine ⟨_, runs_onDev (c := .encSlice n) (f := encSlice n) rfl heq, rfl, j.coding i t bytes, ?_, rfl, rfl, rfl, fun hfirst => ?_⟩
    · rw [Dev.enc, Dev.setEnc, SMap.get_set_same]
      exact mem_jobs_mapJob h _
    · have hused : (j.coding i t bytes).used = j.used + bytes.length := rfl
      have hshare := hlen hfirst
      omega
end

section
/-! SUPPORT. Rules about answers of the mailbox and about the slots of triggers (R93, R384 to R387): what an answer leaves,
which registers a slot has, and what taking a slot leaves of the ring and of the other slots. -/
namespace Sys2Proof.Machine

/-! ## Answers -/

/-- The words of an answer without response. -/
def mbxWords : List Nat := [0x7104, 0x710C, 0x7110, 0x7010]

theorem onlyRaised_setF_mbx (d : Dev) {F : Fld} (h : F.addr 0 0 ∈ mbxWords) (v : Nat) : onlyRaised d (d.setF F v) mbxWords :=
  onlyRaised_setFi d h v

theorem onlyRaised_mbxDone (d : Dev) (result : Nat) : onlyRaised d (d.mbxDone result) mbxWords :=
  onlyRaised_trans (onlyRaised_setF_mbx d (F := MBX_RESP_LEN_W) (by decide) _) <|
    onlyRaised_trans (onlyRaised_setF_mbx _ (F := MBX_RESP_TAG) (by decide) _) <|
    onlyRaised_trans (onlyRaised_setF_mbx _ (F := MBX_STAT_RESULT) (by decide) _) <|
    onlyRaised_trans (onlyRaised_setF_mbx _ (F := MBX_STAT_STATE) (by decide) _) (onlyRaised_raiseBits _ (p := .mbx) (by decide) _)

/-- A part beside the registers and the interrupts that are asked for stays. -/
theorem mbxDone_keeps {β : Type} (part : Dev → β) (hset : ∀ (e : Dev) F i k v, part (e.setFi F i k v) = part e)
    (hraise : ∀ (e : Dev) p b, part (e.raiseBits p b) = part e) (d : Dev) (result : Nat) (resp : List Byte) :
    part (d.mbxDone result resp) = part d := by
  unfold Dev.mbxDone Dev.setMbx
  simp only [Dev.setF_def, Dev.raise_def]
  rw [hraise, hset, hset, hset, hset]
  exact writeResp_keeps (P := fun x => part x = part d) (fun k v x hx => (hset ..).trans hx) _ _ rfl

theorem hmp_mbxDone (d : Dev) (result : Nat) (resp : List Byte) : (d.mbxDone result resp).hmp = d.hmp :=
  mbxDone_keeps Dev.hmp (fun _ _ _ _ _ => Dev.setFi_hmp ..) (fun _ _ _ => Dev.raiseBits_hmp ..) ..

theorem evq_mbxDone (d : Dev) (result : Nat) (resp : List Byte) : (d.mbxDone result resp).evq = d.evq :=
  mbxDone_keeps Dev.evq (fun _ _ _ _ _ => Dev.setFi_evq ..) (fun _ _ _ => Dev.raiseBits_evq ..) ..

/-! ## Slots -/

theorem slot_setSlot (h : HmpSt) (k j : Nat) (x : Option TrigSlot) : (h.setSlot k x).slot j = if j = k then x else h.slot j :=
  SMap.get_set ..

/-- A slot in use is listed. -/
theorem mem_inUse_of_slot {h : HmpSt} {k : Nat} {x : TrigSlot} (hx : h.slot k = some x) : (k, x) ∈ h.inUse := by
  have hlisted : ∀ l : SMap (Option TrigSlot), SMap.get noTrigSlot l k = some x → (k, some x) ∈ l := by
    intro l hl
    induction l with
    | nil => exact absurd hl (Option.some_ne_none x).symm
    | cons p l ih =>
      rw [SMap.get] at hl
      split at hl
      case isTrue hk => exact List.mem_cons.mpr (.inl (Prod.ext hk.symm hl.symm))
      case isFalse => exact List.mem_cons_of_mem _ (ih hl)
  exact List.mem_filterMap.mpr ⟨_, hlisted _ hx, rfl⟩

/-- The fields of a slot's registers. -/
def slotFlds : List Fld := [HMP_TSLOT_SEQ_LO, HMP_TSLOT_SEQ_HI, HMP_TSLOT_CAUSE, HMP_TSLOT_MERGED, HMP_TSLOT_POST_CUT,
  HMP_TSLOT_PRE_SHORT, HMP_TSLOT_STATE, HMP_TSLOT_PROT_MIB]

/-- What every field of a slot keeps, the slot's registers keep. -/
theorem slotRegs_rule {P : Dev → Prop} {k : Nat} (h : ∀ F ∈ slotFlds, ∀ v e, P e → P (e.setFk F k v)) {d : Dev} (hd : P d) :
    P (slotRegs k d) := by
  have hput : ∀ (lo hi cause st mib : Nat) (m c s : Bool), P ((((((((d.setFk HMP_TSLOT_SEQ_LO k lo).setFk HMP_TSLOT_SEQ_HI
      k hi).setFk HMP_TSLOT_CAUSE k cause).setFk HMP_TSLOT_MERGED k (b2n m)).setFk HMP_TSLOT_POST_CUT k (b2n c)).setFk
      HMP_TSLOT_PRE_SHORT k (b2n s)).setFk HMP_TSLOT_STATE k st).setFk HMP_TSLOT_PROT_MIB k mib) :=
    fun _ _ _ _ _ _ _ _ => h HMP_TSLOT_PROT_MIB (by decide) _ _ <| h HMP_TSLOT_STATE (by decide) _ _ <|
      h HMP_TSLOT_PRE_SHORT (by decide) _ _ <| h HMP_TSLOT_POST_CUT (by decide) _ _ <|
      h HMP_TSLOT_MERGED (by decide) _ _ <| h HMP_TSLOT_CAUSE (by decide) _ _ <|
      h HMP_TSLOT_SEQ_HI (by decide) _ _ <| h HMP_TSLOT_SEQ_LO (by decide) _ _ hd
  unfold slotRegs
  dsimp only
  split
  · exact hput ..
  · exact hput ..

theorem slotRegs_keeps {β : Type} (part : Dev → β) {k : Nat} (h : ∀ F ∈ slotFlds, ∀ v e, part (e.setFk F k v) = part e)
    (d : Dev) : part (slotRegs k d) = part d :=
  slotRegs_rule (P := fun e => part e = part d) (fun F hF v e he => (h F hF v e).trans he) rfl

theorem hmp_slotRegs (k : Nat) (d : Dev) : (slotRegs k d).hmp = d.hmp := slotRegs_keeps Dev.hmp (fun _ _ _ _ => rfl) d

theorem hmp_putSlot (d : Dev) (k : Nat) (x : Option TrigSlot) : (d.putSlot k x).hmp = d.hmp.setSlot k x := hmp_slotRegs ..

theorem slot_putSlot (d : Dev) (k j : Nat) (x : Option TrigSlot) :
    (d.putSlot k x).hmp.slot j = if j = k then x else d.hmp.slot j := by rw [hmp_putSlot, slot_setSlot]

/-- The registers of slots lie behind the page's other words of the first half. -/
theorem word_slotRegs (k : Nat) (d : Dev) {a : Nat} (h : a < 0xA1140 ∨ 0xA1140 + 16 * k + 16 ≤ a) :
    (slotRegs k d).word a = d.word a := by
  refine slotRegs_keeps (fun e => e.word a) (fun F hF v e => ?_) d
  have haddr : 0xA1140 + 16 * k ≤ F.addr 0 k ∧ F.addr 0 k < 0xA1140 + 16 * k + 16 := by
    have hat : ∀ F ∈ slotFlds, F.addr 0 k = 0xA1000 + F.off + 16 * k ∧ 0x140 ≤ F.off ∧ F.off < 0x150 := by
      simp only [slotFlds, List.forall_mem_cons, List.not_mem_nil, false_implies, implies_true, and_true]
      refine ⟨?_, ?_, ?_, ?_, ?_, ?_, ?_, ?_⟩ <;> exact ⟨rfl, by decide, by decide⟩
    have hFk := hat F hF
    omega
  rw [Dev.setFk_def, Dev.word_setFi, if_neg (by omega)]

theorem word_putSlot (d : Dev) (k : Nat) (x : Option TrigSlot) {a : Nat} (h : a < 0xA1140 ∨ 0xA1140 + 16 * k + 16 ≤ a) :
    (d.putSlot k x).word a = d.word a := word_slotRegs k _ h

/-- `d` with the registers and the Hamper of `x`. -/
abbrev takeHist (x d : Dev) : Dev := { d with regs := x.regs, hmp := x.hmp }

theorem takeHist_trans {d e g : Dev} (h : e = takeHist e d) (h' : g = takeHist g e) : g = takeHist g d :=
  frame_trans takeHist (fun _ _ _ => rfl) h h'

theorem takeHist_slotRegs (k : Nat) (d : Dev) : slotRegs k d = takeHist (slotRegs k d) d :=
  slotRegs_rule (P := fun e => e = takeHist e d) (fun _ _ _ _ he => takeHist_trans he rfl) rfl

theorem takeHist_putSlot (d : Dev) (k : Nat) (x : Option TrigSlot) : d.putSlot k x = takeHist (d.putSlot k x) d :=
  takeHist_trans (e := d.onHmp fun h => h.setSlot k x) rfl (takeHist_slotRegs ..)

/-! ## Taking a slot -/

/-- The ring, and a slot. -/
def Dev.kept (j : Nat) (d : Dev) : List Chunk × Option TrigSlot := (d.hmp.ring, d.hmp.slot j)

theorem kept_of_hmp {j : Nat} {d e : Dev} (h : e.hmp = d.hmp) : e.kept j = d.kept j := by rw [Dev.kept, h, Dev.kept]

theorem ring_putSlot (d : Dev) (k : Nat) (x : Option TrigSlot) : (d.putSlot k x).hmp.ring = d.hmp.ring :=
  (congrArg HmpSt.ring (hmp_putSlot d k x) :)

theorem kept_putSlot (d : Dev) (k j : Nat) (x : Option TrigSlot) :
    (d.putSlot k x).kept j = (d.hmp.ring, if j = k then x else d.hmp.slot j) :=
  Prod.ext (ring_putSlot ..) (slot_putSlot ..)

theorem kept_putSlot_ne (d : Dev) {k j : Nat} (h : j ≠ k) (x : Option TrigSlot) : (d.putSlot k x).kept j = d.kept j := by
  rw [kept_putSlot, if_neg h, Dev.kept]

theorem kept_protectBack {t : Trig} {k : Nat} {x : TrigSlot} {d : Dev} (h : d.hmp.slot k = some x) :
    ∃ y : TrigSlot, y.trig = x.trig ∧ (protectBack t k d).kept k = (d.hmp.ring, some y) ∧
      ∀ j, j ≠ k → (protectBack t k d).kept j = d.kept j := by
  unfold protectBack
  rw [h]
  dsimp only
  exact ⟨_, by rfl, (kept_putSlot ..).trans (congrArg _ (if_pos rfl)), fun j hj => kept_putSlot_ne _ hj _⟩

/-- A slot as a trigger finds it free. -/
def freshSlot (t : Trig) (now : Nat) (held : Bool) (d : Dev) : TrigSlot :=
  let capturing := !held && decide (now < t.hi + 25000000)
  { trig := t, capturing, cut := capturing && d.f HMP_CTRL_FREEZE = 1 }

/-- A trigger that finds a slot free takes it. -/
theorem takeSlot_free {t : Trig} {now k : Nat} {held : Bool} {d : Dev} (h : d.hmp.freeSlot = some k) :
    ∃ y : TrigSlot, y.trig = t ∧ (takeSlot t now held d).2.kept k = (d.hmp.ring, some y) ∧
      ∀ j, j ≠ k → (takeSlot t now held d).2.kept j = d.kept j := by
  have hslot : ∀ x, (d.putSlot k (some x)).hmp.slot k = some x := fun x => (slot_putSlot ..).trans (if_pos rfl)
  unfold takeSlot
  dsimp only
  rw [h]
  dsimp only
  obtain ⟨y, hy, hk, hj⟩ := kept_protectBack (t := t) (hslot (freshSlot t now held d))
  refine ⟨y, hy, hk.trans (congrArg (·, some y) (ring_putSlot ..)), fun j hne => (hj j hne).trans (kept_putSlot_ne _ hne _)⟩

theorem hmp_histDrop (d : Dev) : (histDrop d).hmp = d.hmp :=
  (Dev.emitSrc_hmp ..).trans ((Dev.raiseBits_hmp ..).trans (Dev.setFi_hmp ..))

/-- A chunk offered to the writer leaves ring and slots. -/
theorem kept_offer (j : Nat) (c : ChunkReq) (d : Dev) : (offer c d).kept j = d.kept j :=
  ite_keeps (Dev.kept j) rfl (ite_keeps (Dev.kept j) (kept_of_hmp (hmp_histDrop d)) rfl)

/-! ## Frozen and deleted slots -/

/-- A slot stands, and its capture is cut. -/
def Dev.isCut (k : Nat) (d : Dev) : Prop := ∃ y, d.hmp.slot k = some y ∧ y.cut = true

/-- FREEZE cuts one slot of those in use. -/
def cutSlot (d : Dev) (p : Nat × TrigSlot) : Dev :=
  if p.2.capturing then d.putSlot p.1 (some { p.2 with cut := true }) else d

/-- The registers of FREEZE. -/
def freezeRegs (on : Bool) (d : Dev) : Dev := (d.setF HMP_CTRL_FREEZE (b2n on)).setF HMP_STAT_FROZEN (b2n on)

theorem hmp_freezeRegs (on : Bool) (d : Dev) : (freezeRegs on d).hmp = d.hmp := (Dev.setFi_hmp ..).trans (Dev.setFi_hmp ..)

theorem setFreeze_on (d : Dev) : setFreeze true d = d.hmp.inUse.foldl cutSlot (freezeRegs true d) := by
  rw [← hmp_freezeRegs true d]
  unfold setFreeze
  exact if_pos rfl

theorem setFreeze_off (d : Dev) : setFreeze false d = freezeRegs false d := by
  unfold setFreeze
  exact if_neg Bool.false_ne_true

theorem ring_cutSlot (d : Dev) (p : Nat × TrigSlot) : (cutSlot d p).hmp.ring = d.hmp.ring :=
  ite_keeps (fun e => e.hmp.ring) (ring_putSlot ..) rfl

theorem isCut_cutSlot {k : Nat} {p : Nat × TrigSlot} {d : Dev} (h : p.1 = k ∧ p.2.capturing = true ∨ d.isCut k) :
    (cutSlot d p).isCut k := by
  have hput := slot_putSlot d p.1 k (some { p.2 with cut := true })
  unfold cutSlot
  split
  case isTrue =>
    by_cases hk : k = p.1
    · exact ⟨_, hput.trans (if_pos hk), rfl⟩
    · obtain ⟨y, hy, hcut⟩ := h.resolve_left fun hp => hk hp.1.symm
      exact ⟨y, hput.trans ((if_neg hk).trans hy), hcut⟩
  case isFalse hc => exact h.resolve_left fun hp => hc hp.2

theorem isCut_foldl {k : Nat} {l : List (Nat × TrigSlot)} {d : Dev} (h : (∃ p ∈ l, p.1 = k ∧ p.2.capturing = true) ∨ d.isCut k) :
    (l.foldl cutSlot d).isCut k := by
  induction l generalizing d with
  | nil => exact h.resolve_left fun ⟨_, hp, _⟩ => List.not_mem_nil hp
  | cons p l ih =>
    refine ih (or_iff_not_imp_left.mpr fun hl => isCut_cutSlot ?_)
    exact h.imp_left fun ⟨q, hq, hcap⟩ => by
      obtain rfl | hmem := List.mem_cons.mp hq
      · exact hcap
      · exact absurd ⟨q, hmem, hcap⟩ hl

theorem word_cutSlot (d : Dev) (p : Nat × TrigSlot) {a : Nat} (h : a < 0xA1140) : (cutSlot d p).word a = d.word a :=
  ite_keeps (fun e => e.word a) (word_putSlot _ _ _ (.inl h)) rfl

theorem evq_cutSlot (d : Dev) (p : Nat × TrigSlot) : (cutSlot d p).evq = d.evq :=
  ite_keeps Dev.evq ((congrArg Dev.evq (takeHist_putSlot ..)).trans rfl) rfl

/-- FREEZE is set, and seen. -/
theorem setFreeze_fields (on : Bool) (d : Dev) : (setFreeze on d).f HMP_CTRL_FREEZE = b2n on ∧ (setFreeze on d).f HMP_STAT_FROZEN = b2n on := by
  have hb : b2n on < 2 := by cases on <;> decide
  have hset : (freezeRegs on d).f HMP_CTRL_FREEZE = b2n on ∧ (freezeRegs on d).f HMP_STAT_FROZEN = b2n on := by
    simp only [freezeRegs, Dev.f_def, Dev.setF_def]
    rw [Dev.fi_setFi_ne _ _ _ _ _ _ _ _ (by decide) (by decide) (by decide) (.inl (by decide)),
      Dev.fi_setFi_same _ _ _ _ _ (by decide) (by decide), Dev.fi_setFi_same _ _ _ _ _ (by decide) (by decide)]
    exact ⟨Nat.mod_eq_of_lt hb, Nat.mod_eq_of_lt hb⟩
  cases on
  case false => rw [setFreeze_off]; exact hset
  case true =>
    have hkeep : ∀ F : Fld, F.addr 0 0 < 0xA1140 →
        (setFreeze true d).f F = (freezeRegs true d).f F := fun F hF => by
      rw [setFreeze_on]
      exact fi_of_word (foldl_keeps (fun e => e.word (F.addr 0 0)) (fun e p => word_cutSlot e p hF) _ _)
    exact ⟨(hkeep _ (by decide)).trans hset.1, (hkeep _ (by decide)).trans hset.2⟩

end Sys2Proof.Machine
end

section
/-! SUPPORT. Proofs about the history ring and its triggers (R377 to R388): what the writer does with a chunk, and what
becomes of a slot. -/
namespace Sys2Proof.Machine

/-! ## The writer -/

theorem dropped_histDrop (d : Dev) : (histDrop d).f HMP_HIST_DROP = (d.f HMP_HIST_DROP + 1) % 2 ^ 32 := by
  have hcount : ((d.bump HMP_HIST_DROP).raise HMP_IRQ_RAW_HIST_DROP).f HMP_HIST_DROP = (d.bump HMP_HIST_DROP).f HMP_HIST_DROP :=
    Dev.fi_raiseBits _ _ _ _ _ _ (by decide)
  exact (Dev.fi_congr (Dev.emitSrc_regs ..) ..).trans (hcount.trans (Dev.fi_bumpI_same d rfl rfl 0 0))

theorem evq_histDrop (d : Dev) : ∃ x, (histDrop d).evq = d.evq ++ [x] ∧ x.code = 0x082 := by
  have hevq : ((d.bump HMP_HIST_DROP).raise HMP_IRQ_RAW_HIST_DROP).evq = d.evq := (Dev.raiseBits_evq ..).trans (Dev.setFi_evq ..)
  rw [← hevq]
  exact evq_emit _ 0x082 .hmp []

/-- A chunk that is offered and not taken. -/
theorem chunkWrite_drops {c : ChunkReq} {t : List ChunkReq} {d : Dev} (h : d.hmp.offers = c :: t)
    (hst : d.f HMP_STAT_STATE = 3 ∨ d.f HMP_STAT_STATE = hmpREADY ∧ d.f HMP_CTRL_FREEZE = 1) :
    chunkWrite d = histDrop (d.onHmp fun x => { x with offers := t }) := by
  unfold chunkWrite
  rw [h]
  exact if_pos (hst.imp_right fun hr => ⟨hr.1, .inr hr.2⟩)

theorem chunkWrite_writes {c : ChunkReq} {t : List ChunkReq} {d : Dev} (h : d.hmp.offers = c :: t)
    (hst : d.f HMP_STAT_STATE = hmpREADY) (hcap : d.hmpBurst ≠ d.hmpCap) (hfr : d.f HMP_CTRL_FREEZE = 0)
    (hre : d.hmp.retrain = 0) : chunkWrite d = writeChunk c (d.onHmp fun x => { x with offers := t }) := by
  have hno : ¬(d.f HMP_STAT_STATE = 3 ∨ d.f HMP_STAT_STATE = hmpREADY ∧ (d.hmpBurst = d.hmpCap ∨ d.f HMP_CTRL_FREEZE = 1)) := by
    rw [hst, hfr]
    rintro (h3 | ⟨-, hb | h1⟩)
    · exact absurd h3 (by decide)
    · exact hcap hb
    · exact absurd h1 (by decide)
  unfold chunkWrite
  rw [h]
  dsimp only
  rw [if_neg hno, if_pos ⟨hst, hre⟩]

/-- What the history writer keeps of its chunks. -/
def Dev.log (d : Dev) : List Chunk × List ChunkReq × Nat := (d.hmp.ring, d.hmp.offers, d.hmp.nextNum)

theorem log_of_hmp {d e : Dev} (h : e.hmp = d.hmp) : e.log = d.log := by rw [Dev.log, h, Dev.log]

theorem log_putSlot (d : Dev) (k : Nat) (x : Option TrigSlot) : (d.putSlot k x).log = d.log := by
  rw [Dev.log, hmp_putSlot]
  rfl

theorem log_captureChunk (c : Chunk) (d : Dev) : (captureChunk c d).log = d.log := by
  refine foldl_keeps Dev.log (fun e p => ?_) _ d
  refine ite_keeps Dev.log (ite_keeps Dev.log (log_putSlot ..) ?_) rfl
  exact (log_of_hmp (Dev.raiseBits_hmp ..)).trans (log_putSlot ..)

theorem log_spanReg (d : Dev) : (spanReg d).log = d.log := log_of_hmp (Dev.setFi_hmp ..)

/-- The chunks that a new one at an offset leaves, and the new one. -/
def HmpSt.ringWith (h : HmpSt) (req : ChunkReq) (p size : Nat) : List Chunk :=
  (h.ring.filter fun c => !c.meets p size) ++ [mkChunk req h.nextNum p size]

/-- The index has room for one chunk more. -/
theorem log_indexed {h : HmpSt} (req : ChunkReq) (p size : Nat) (hlen : h.ring.length < 4194300) :
    (h.put req p size).indexed 1 = h.put req p size := by
  have hput : (h.put req p size).ring.length ≤ 4194300 := by
    have hfilter := List.length_filter_le (fun c => !Chunk.meets c p size) h.ring
    rw [HmpSt.put, List.length_append, List.length_singleton]
    omega
  exact if_pos hput

theorem log_writeChunk {req : ChunkReq} {p : Nat} {d : Dev} (hroom : findRoom d.hmp.guarded d.hmp.ring d.ringBytes
      (chunkSize req.payload.length) (2 * d.hmp.ring.length + 3) d.hmp.wp none = some (p, none))
    (hlen : d.hmp.ring.length < 4194300) :
    (writeChunk req d).log = (d.hmp.ringWith req p (chunkSize req.payload.length), d.hmp.offers, d.hmp.nextNum + 1) := by
  have hadd : ∀ x : HmpSt, (spanReg (Dev.add { d with hmp := x } HMP_CHUNKS 1)).log = (x.ring, x.offers, x.nextNum) := fun x =>
    (log_spanReg _).trans (log_of_hmp (d := { d with hmp := x }) (Dev.setFi_hmp ..))
  unfold writeChunk
  dsimp only
  rw [hroom]
  dsimp only
  rw [log_indexed req p _ hlen]
  split
  · exact (log_captureChunk ..).trans (hadd _)
  · exact hadd _

/-- A chunk's header is 64 bytes, and its CRC holds (R377). -/
theorem chunkHead_good (r : ChunkReq) (num size : Nat) :
    (chunkHead r num size).length = 64 ∧ headGood (chunkHead r num size) = true := by
  obtain ⟨h, hlen, heq⟩ : ∃ h : List Byte, h.length = 60 ∧ chunkHead r num size = h ++ u32 (crc32 h).toNat :=
    ⟨_, by simp only [List.length_append, u32, u8, u16, u64, length_bytesLE], rfl⟩
  have hdrop : (chunkHead r num size).drop 60 = u32 (crc32 h).toNat := by rw [heq, List.drop_left' hlen]
  have htake : (chunkHead r num size).take 60 = h := by rw [heq, List.take_left' hlen]
  refine ⟨by rw [heq, List.length_append, hlen, u32, length_bytesLE], ?_⟩
  rw [headGood, hdrop, htake]
  exact decide_eq_true rfl

theorem mem_ringWith {h : HmpSt} {x : Chunk} (hx : x ∈ h.ring) (req : ChunkReq) (p size : Nat) :
    x ∈ h.ringWith req p size ∨ x.meets p size = true := by
  by_cases hm : x.meets p size = true
  · exact .inr hm
  · exact .inl (List.mem_append_left _ (List.mem_filter.mpr ⟨hx, by simpa using hm⟩))

/-! ## Triggers -/

theorem ring_of_kept {d : Dev} {j : Nat} {l : List Chunk} {x : Option TrigSlot} (h : d.kept j = (l, x)) : d.hmp.ring = l :=
  congrArg Prod.fst h

/-- What an event's sequence number costs leaves the Hamper and the time. -/
theorem emitSeq_keeps (code : Nat) (p : Page) (pay : List Byte) (x : Dev × Recorder) :
    (emitSeq code p pay x).2.1.hmp = x.1.hmp ∧ (emitSeq code p pay x).2.1.time = x.1.time := by
  have hacc := (onlyRaised_acceptAll (x.1.emit code p pay).evq.length (x.1.emit code p pay) x.2).1
  unfold emitSeq
  dsimp only
  generalize acceptAll (x.1.emit code p pay).evq.length (x.1.emit code p pay, x.2) = y at hacc
  obtain ⟨d, r⟩ := y
  have hhmp : d.hmp = x.1.hmp := (congrArg Dev.hmp hacc).trans rfl
  have htime : d.time = x.1.time := (congrArg Dev.time hacc).trans rfl
  dsimp only
  split
  · exact ⟨hhmp, htime⟩
  · exact ⟨hhmp, htime⟩

/-- A trigger that finds a slot free. -/
theorem histTrigger_free {t post cause k : Nat} {x : Dev × Recorder} (h : x.1.hmp.freeSlot = some k) :
    ∃ y : TrigSlot, y.trig.t = t ∧ y.trig.cause = cause ∧
      (histTrigger t post cause x).2.1.kept k = (x.1.hmp.ring, some y) ∧
      ∀ j, j ≠ k → (histTrigger t post cause x).2.1.kept j = x.1.kept j := by
  obtain ⟨hhmp, htime⟩ := emitSeq_keeps 0x080 .hmp (u16 cause ++ u64 t) x
  unfold histTrigger
  dsimp only
  generalize emitSeq 0x080 .hmp (u16 cause ++ u64 t) x = z at hhmp htime
  obtain ⟨seq, d, r⟩ := z
  dsimp only at hhmp htime ⊢
  have hfree : d.hmp.freeSlot = some k := hhmp ▸ h
  have hno : d.hmp.freeSlot.isNone = false := by rw [hfree]; rfl
  rw [if_neg (by rw [hno]; exact Bool.false_ne_true)]
  obtain ⟨y, hy, hk, hj⟩ := takeSlot_free (t := { seq, t, lo := t - d.a HMP_PRE_MS * 250000, hi := t + post * 250000, cause })
    (now := d.time.tick) (held := false) hfree
  refine ⟨y, congrArg Trig.t hy, congrArg Trig.cause hy, (kept_offer ..).trans (hk.trans ?_), fun j hne =>
    (kept_offer ..).trans ((hj j hne).trans (kept_of_hmp hhmp))⟩
  rw [hhmp]

/-! ## Commands -/

/-- A command of the device and the recorder. -/
theorem runsRec_onRec {c : Instr} {s : State} {f : Dev × Recorder → Dev × Recorder} {d : Dev} {r : Recorder}
    (hc : exec c s = onRec f s) (h : f (s.dev, s.evr) = (d, r)) : runsRec c s d r :=
  hc.trans (by simp only [onRec, h])

theorem histOn_setMbx (d : Dev) (st : Nat) : (d.setMbx st).histOn = d.histOn := by
  have hf : ∀ F : Fld, F.addr 0 0 ≠ 0x710C → (d.setMbx st).f F = d.f F := fun F hF => fi_setMbx d st hF
  simp only [Dev.histOn, Dev.hmpBurst, Dev.hmpCap, hf HMP_STAT_STATE (by decide), hf HMP_REGION_BURST_GIB (by decide),
    hf HMP_MEM_CFG_CH_MASK (by decide), hf HMP_MEM_CFG_CAP (by decide)]

theorem histTriggerCmd_on {d : Dev} {r : Recorder} (h : d.histOn = true) : ∃ post, histTriggerCmd (d, r) =
    ((histTrigger d.time.tick post (d.cmdNat 0 2) (d, r)).2.1.mbxDone resOK (u64 (histTrigger d.time.tick post (d.cmdNat 0 2) (d, r)).1),
      (histTrigger d.time.tick post (d.cmdNat 0 2) (d, r)).2.2) := by
  unfold histTriggerCmd
  dsimp only
  rw [if_neg (by rw [h]; decide)]
  exact ⟨_, rfl⟩

theorem histTriggerCmd_off {d : Dev} {r : Recorder} (h : d.histOn = false) : histTriggerCmd (d, r) = (d.mbxDone resBAD_STATE, r) :=
  if_pos h

theorem histFreezeCmd_on {d : Dev} (h : d.histOn = true) :
    histFreezeCmd d = ((setFreeze true d).emit 0x083 .hmp).mbxDone resOK := if_neg (by rw [h]; decide)

theorem histFreezeCmd_off {d : Dev} (h : d.histOn = false) : histFreezeCmd d = d.mbxDone resBAD_STATE := if_pos h

theorem cmdNat_setMbx (d : Dev) (st start n : Nat) : (d.setMbx st).cmdNat start n = d.cmdNat start n :=
  congrArg natOfBytes (cmdBytes_setMbx ..)

/-! ## Freeze -/

theorem ring_setFreeze (d : Dev) : (setFreeze true d).hmp.ring = d.hmp.ring := by
  rw [setFreeze_on]
  exact (foldl_keeps (fun e => e.hmp.ring) ring_cutSlot _ _).trans (congrArg HmpSt.ring (hmp_freezeRegs true d) :)

theorem evq_setFreeze (d : Dev) : (setFreeze true d).evq = d.evq := by
  rw [setFreeze_on]
  exact (foldl_keeps Dev.evq evq_cutSlot _ _).trans ((Dev.setFi_evq ..).trans (Dev.setFi_evq ..))

end Sys2Proof.Machine

open Sys2Proof Sys2Proof.Machine

/-- Settles O35: the writer's cases, and the slot that each command speaks of. -/
theorem historyKeepsTriggers : Obligations.HistoryKeepsTriggers := by
  refine ⟨fun c t s h hst => ?drops, fun c t p s h hst hcap hfr hre hroom hlen => ?writes, fun k x s hx hcap hrun hend => ?ends,
    fun p k s h hx => ?noSlot, fun p k x s h hx => ?releases, fun p s h => ?thaws, fun p k x s h hx hcap => ?cuts,
    fun k s h hon hfree => ?triggers, fun s h hon => ?freezes, fun c k n s hc h hon => ?off⟩
  case drops =>
    exact ⟨_, runs_onDev (c := .histChunkWrite) rfl (chunkWrite_drops h hst), hmp_histDrop _, dropped_histDrop _,
      evq_histDrop _, onlyWords_trans (onlyWords_of_regs rfl _) (onlyWords_histDrop _)⟩
  case writes =>
    have hlog := log_writeChunk (req := c) (d := s.dev.onHmp fun x => { x with offers := t }) hroom hlen
    rw [← chunkWrite_writes h hst hcap hfr hre] at hlog
    have hring : (chunkWrite s.dev).hmp.ring = s.dev.hmp.ringWith c p (chunkSize c.payload.length) := congrArg Prod.fst hlog
    obtain ⟨h64, hgood⟩ := chunkHead_good c s.dev.hmp.nextNum (chunkSize c.payload.length)
    refine ⟨_, mkChunk c s.dev.hmp.nextNum p (chunkSize c.payload.length), runs_onDev (c := .histChunkWrite) rfl rfl,
      congrArg (fun x => x.2.1) hlog, ?_, rfl, rfl, rfl, congrArg (fun x => x.2.2) hlog, rfl, h64, hgood, fun x hx => ?_⟩
    · exact (congrArg List.getLast? hring).trans List.getLast?_concat
    · exact (mem_ringWith hx c p _).imp_left fun hm => by rw [hring]; exact hm
  case ends =>
    have hend' : captureEnd k s.dev = (s.dev.putSlot k (some { x with capturing := false })).raise HMP_IRQ_RAW_TRIG_DONE := by
      unfold captureEnd
      rw [hx]
      exact if_pos ⟨hrun, hcap, hend⟩
    have hkept : ∀ j, ((s.dev.putSlot k (some { x with capturing := false })).raise HMP_IRQ_RAW_TRIG_DONE).kept j = _ := fun j =>
      (kept_of_hmp (Dev.raiseBits_hmp ..)).trans (kept_putSlot ..)
    exact ⟨_, runs_onDev (c := .histCaptureEnd k) rfl hend', (congrArg Prod.snd (hkept k)).trans (if_pos rfl),
      congrArg Prod.fst (hkept k), fun j hj => (congrArg Prod.snd (hkept j)).trans (if_neg hj)⟩
  case noSlot =>
    have hr := runs_gatePage (c := .histRelease p k) (f := histRelease p k (BitVec.ofNat 32 (16 + k))) rfl h
    refine ⟨_, BitVec.ofNat 32 (16 + k), hr, ?_⟩
    rw [histRelease, hx]
  case releases =>
    have hr := runs_gatePage (c := .histRelease p k) (f := histRelease p k (BitVec.ofNat 32 (16 + k))) rfl h
    have hput : histRelease p k (BitVec.ofNat 32 (16 + k)) s.dev = s.dev.putSlot k
        (if s.dev.hmp.replaying k then some { x with release := true, capturing := false } else none) := by
      rw [histRelease, hx]
      exact (apply_ite (s.dev.putSlot k) ..).symm
    rw [hput] at hr
    exact ⟨_, hr, ring_putSlot .., (slot_putSlot ..).trans (if_pos rfl)⟩
  case thaws =>
    have hr := runs_gatePage (c := .hmpCtrlFreeze p false) (f := setFreeze false) rfl h
    obtain ⟨hctrl, hstat⟩ := setFreeze_fields false s.dev
    refine ⟨_, hr, hctrl, hstat, ?_⟩
    rw [setFreeze_off]
    exact onlyRegs_trans (onlyRegs_mono (onlyRegs_setFi s.dev HMP_CTRL_FREEZE 0 0 _) (by decide))
      (onlyRegs_mono (onlyRegs_setFi _ HMP_STAT_FROZEN 0 0 _) (by decide))
  case cuts =>
    have hr := runs_gatePage (c := .hmpCtrlFreeze p true) (f := setFreeze true) rfl h
    obtain ⟨y, hy, hcut⟩ := isCut_foldl (d := freezeRegs true s.dev) (.inl ⟨_, mem_inUse_of_slot hx, rfl, hcap⟩)
    rw [← setFreeze_on] at hy
    exact ⟨_, y, hr, hy, hcut, ring_setFreeze ..⟩
  case triggers =>
    have hon' : (s.dev.setMbx mbxBUSY).histOn = true := (histOn_setMbx ..).trans hon
    have hbusy : (s.dev.setMbx mbxBUSY).hmp = s.dev.hmp := Dev.setFi_hmp ..
    obtain ⟨post, hcmd⟩ := histTriggerCmd_on (r := s.evr) hon'
    obtain ⟨y, ht, hcause, hk, hj⟩ := histTrigger_free (t := (s.dev.setMbx mbxBUSY).time.tick) (post := post)
      (cause := (s.dev.setMbx mbxBUSY).cmdNat 0 2) (x := (s.dev.setMbx mbxBUSY, s.evr)) ((congrArg HmpSt.freeSlot hbusy).trans hfree)
    generalize histTrigger (s.dev.setMbx mbxBUSY).time.tick post ((s.dev.setMbx mbxBUSY).cmdNat 0 2)
      (s.dev.setMbx mbxBUSY, s.evr) = z at hcmd hk hj
    obtain ⟨n, d, r⟩ := z
    have hdone : ∀ j, (d.mbxDone resOK (u64 n)).kept j = d.kept j := fun j => kept_of_hmp (hmp_mbxDone ..)
    refine ⟨d.mbxDone resOK (u64 n), r, y, ?_, ?_, ?_, ?_, ht, hcause.trans (cmdNat_setMbx ..), fun j hne => ?_⟩
    · exact runsRec_onRec rfl ((mbxServeRec_posted h (· = 2) rfl histTriggerCmd).trans hcmd)
    · exact (mbxDone_fields d (by decide) (by rw [u64, length_bytesLE]; decide)).2.1
    · exact (congrArg HmpSt.ring (hmp_mbxDone ..)).trans ((ring_of_kept hk).trans (congrArg HmpSt.ring hbusy))
    · exact congrArg Prod.snd ((hdone k).trans hk)
    · exact congrArg Prod.snd ((hdone j).trans ((hj j hne).trans (kept_of_hmp hbusy)))
  case freezes =>
    have hr := runs_mbxServe h (c := .histFreeze) (lenOk := (· = 0)) (f := histFreezeCmd) rfl rfl
    rw [histFreezeCmd_on ((histOn_setMbx ..).trans hon)] at hr
    obtain ⟨hctrl, hstat⟩ := setFreeze_fields true (s.dev.setMbx mbxBUSY)
    have hkeep : ∀ F : Fld, F.addr 0 0 ∉ mbxWords → (((setFreeze true (s.dev.setMbx mbxBUSY)).emit 0x083 .hmp).mbxDone resOK).f F =
        (setFreeze true (s.dev.setMbx mbxBUSY)).f F := fun F hF =>
      (fi_of_onlyWords (onlyRaised_mbxDone ..).2 hF).trans (Dev.fi_congr (Dev.emitSrc_regs ..) ..)
    refine ⟨_, hr, (hkeep _ (by decide)).trans hctrl, (hkeep _ (by decide)).trans hstat,
      (mbxDone_fields _ (by decide) (by decide)).2.1, ?_, ?_⟩
    · rw [evq_mbxDone]
      have hevq := evq_emit (setFreeze true (s.dev.setMbx mbxBUSY)) 0x083 .hmp []
      rwa [evq_setFreeze] at hevq
    · rw [hmp_mbxDone, Dev.emit, Dev.emitSrc_hmp]
      exact ring_setFreeze _
  case off =>
    have hoff : (s.dev.setMbx mbxBUSY).histOn = false := (histOn_setMbx ..).trans hon
    simp only [List.mem_cons, Prod.mk.injEq, List.not_mem_nil, or_false] at hc
    obtain ⟨rfl, rfl, rfl⟩ | ⟨rfl, rfl, rfl⟩ := hc
    · exact onRec_eq ((mbxServeRec_posted h (· = 2) rfl histTriggerCmd).trans (histTriggerCmd_off hoff))
    · have hr := runs_mbxServe h (c := .histFreeze) (lenOk := (· = 0)) (f := histFreezeCmd) rfl rfl
      rwa [histFreezeCmd_off hoff] at hr
end

section
/-! SUPPORT. Proofs about replays and the memory channels (R389 to R394): what a replay sends and where it ends, and what
training, tracking and deep sleep leave of the ring. -/
namespace Sys2Proof.Machine

/-! ## Queues -/

theorem dlv_bufRegs (q : Nat) (d : Dev) : (bufRegs q d).dlv = d.dlv := ite_keeps Dev.dlv rfl rfl

theorem hmp_bufRegs (q : Nat) (d : Dev) : (bufRegs q d).hmp = d.hmp := ite_keeps Dev.hmp rfl rfl

theorem queue_of_dlv {d e : Dev} (h : e.dlv = d.dlv) (q : Nat) : e.queue q = d.queue q := by rw [Dev.queue, h, Dev.queue]

theorem queue_mapQueue_same (d : Dev) (q : Nat) (f : QueueSt → QueueSt) : (d.mapQueue q f).queue q = f (d.queue q) :=
  SMap.get_set_same ..

theorem queue_dlvPut_same (q : Nat) (ps : List Pkt) (d : Dev) :
    (dlvPut q ps d).queue q = { d.queue q with grps := (d.queue q).grps ++ [{ pkts := ps }] } :=
  (queue_of_dlv (dlv_bufRegs ..) q).trans (queue_mapQueue_same ..)

theorem hmp_dlvPut (q : Nat) (ps : List Pkt) (d : Dev) : (dlvPut q ps d).hmp = d.hmp := hmp_bufRegs ..

/-! ## Replays -/

theorem getElem?_setAt {α : Type} {l : List α} {n : Nat} {a : α} (b : α) (h : l[n]? = some a) : (setAt l n b)[n]? = some b := by
  induction l generalizing n with
  | nil => exact absurd h (by simp)
  | cons x l ih =>
    cases n with
    | zero => rfl
    | succ n => exact ih h

theorem replays_setReplay {i : Nat} {r : Replay} {d : Dev} (x : Replay) (h : d.hmp.replays[i]? = some r) :
    (setReplay i x d).hmp.replays[i]? = some x := getElem?_setAt x h

theorem replaySend_ring {i : Nat} {r : Replay} {d : Dev} (h : d.hmp.replays[i]? = some r) (hsrc : r.src = .ring)
    (hOk pOk : Bool) : replaySend i hOk pOk d = match d.replayNext r with
      | some c => sendChunk i r c hOk pOk d
      | none => replayEnd i d := by
  unfold replaySend
  rw [h]
  dsimp only
  rw [hsrc]
  dsimp only
  rw [Dev.replayMore, hsrc]
  rfl

theorem replaySend_chunk {i : Nat} {r : Replay} {c : Chunk} {d : Dev} (h : d.hmp.replays[i]? = some r) (hsrc : r.src = .ring)
    (hnext : d.replayNext r = some c) (hOk pOk : Bool) : replaySend i hOk pOk d = sendChunk i r c hOk pOk d := by
  rw [replaySend_ring h hsrc, hnext]

theorem replaySend_last {i : Nat} {r : Replay} {d : Dev} (h : d.hmp.replays[i]? = some r) (hsrc : r.src = .ring)
    (hnext : d.replayNext r = none) (hOk pOk : Bool) : replaySend i hOk pOk d = replayEnd i d := by
  rw [replaySend_ring h hsrc, hnext]

theorem replayEnd_ring {i : Nat} {r : Replay} {d : Dev} (h : d.hmp.replays[i]? = some r) (hsrc : r.src = .ring) :
    replayEnd i d = ((d.onHmp fun x => { x with replays := x.replays.eraseIdx i }).raise HMP_IRQ_RAW_REPLAY_DONE).emit 0x084 .hmp
      (u32 r.sent ++ u32 r.errs) := by
  unfold replayEnd
  rw [h]
  dsimp only
  rw [hsrc]

theorem sendChunk_bad (i : Nat) (r : Replay) (c : Chunk) (pOk : Bool) (d : Dev) : sendChunk i r c false pOk d =
    (setReplay i { r with next := c.num + 1, errs := r.errs + 1 } d).bump HMP_REPLAY_CRC_ERR := if_pos rfl

/-- A replay as it has sent one chunk more. -/
def Replay.onward (r : Replay) (c : Chunk) : Replay := { r with next := c.num + 1, sent := r.sent + 1 }

theorem sendChunk_good {i : Nat} {r : Replay} {c : Chunk} {d : Dev} (hkind : c.req.kind = 0) (hgood : headGood c.head = true)
    (htake : d.queueTakes r.qid c.req.start.length = true) : ∃ f a t l ing datas, sendChunk i r c true true d =
      dlvPut r.qid (replayPkts (setReplay i (r.onward c) d) c.req.start f a t l ing datas) (setReplay i (r.onward c) d) := by
  unfold sendChunk
  rw [if_neg (by simp [hgood]), if_neg (by simp [hkind]), if_neg (by simp [htake])]
  exact ⟨_, _, _, _, _, _, rfl⟩

theorem replay_replayPkts {d : Dev} {start : List Byte} {tag aux flags lines : Nat} {ingest : List Byte}
    {datas : List (List Byte × List Byte)} {p : Pkt} (h : p ∈ replayPkts d start tag aux flags lines ingest datas) :
    p.replay = true := by
  simp only [replayPkts, List.cons_append, List.nil_append, List.mem_cons, List.mem_append, List.mem_map,
    List.not_mem_nil, or_false] at h
  obtain rfl | ⟨_, -, rfl⟩ | rfl := h
  · rfl
  · rfl
  · rfl

theorem replays_putSlot (d : Dev) (k : Nat) (x : Option TrigSlot) : (d.putSlot k x).hmp.replays = d.hmp.replays :=
  (congrArg HmpSt.replays (hmp_putSlot d k x) :)

theorem replays_replayEnd (i : Nat) (d : Dev) : (replayEnd i d).hmp.replays = d.hmp.replays.eraseIdx i := by
  have hslot : ∀ (k : Nat) (e : Dev), (slotRegs k e).hmp.replays = e.hmp.replays := fun k e =>
    congrArg HmpSt.replays (hmp_slotRegs k e)
  have hreport : ∀ (b : List Byte) (e : Dev), ((e.raise HMP_IRQ_RAW_REPLAY_DONE).emit 0x084 .hmp b).hmp = e.hmp := fun b e =>
    (Dev.emitSrc_hmp ..).trans (Dev.raiseBits_hmp ..)
  unfold replayEnd
  split
  case h_1 h => rw [List.eraseIdx_of_length_le (List.getElem?_eq_none_iff.mp h)]
  case h_2 r _ =>
    dsimp only
    rw [hreport]
    split
    · split
      · exact ite_keeps (fun e => e.hmp.replays) (replays_putSlot ..) (hslot ..)
      · rfl
    · rfl

/-- Ended one after another, the replays are gone. -/
theorem replays_replayAbort (d : Dev) : (replayAbort d).hmp.replays = [] := by
  have hfold : ∀ (l : List Nat) (e : Dev), (l.foldl (fun d _ => replayEnd 0 d) e).hmp.replays = e.hmp.replays.drop l.length := by
    intro l
    induction l with
    | nil => exact fun e => rfl
    | cons x l ih =>
      intro e
      rw [List.foldl_cons, ih, replays_replayEnd, List.eraseIdx_zero, List.drop_tail, List.length_cons]
  rw [replayAbort, hfold, List.length_range, List.drop_length]

/-! ## The replay command -/

theorem replayJudge_ring {d : Dev} {q : Nat} (hq : q ≤ 8191) (hon : d.histOn = true) (hfr : d.f HMP_CTRL_FREEZE = 1)
    (hlen : d.hmp.replays.length < 2) : replayJudge d 0 q = (resOK, some .ring) := by
  unfold replayJudge
  rw [if_neg (by omega), if_neg (by rw [hon, hfr]; decide), if_pos rfl]
  exact if_neg (by omega)

theorem replayJudge_queue {d : Dev} {q : Nat} (seq : Nat) (hq : 8191 < q) : replayJudge d seq q = (resBAD_PARAM, none) := if_pos hq

/-! ## What the channels' state is -/

/-- The state of the memory, as STAT shows it, and whether a tracking step is awaited. -/
def Dev.memStat (d : Dev) : Nat × Nat × Nat × Bool :=
  (d.f HMP_STAT_STATE, d.f HMP_STAT_CH_OK, d.f HMP_STAT_RATE_ACT, d.hmp.leaving)

theorem state_of_memStat {d e : Dev} (h : e.memStat = d.memStat) : e.f HMP_STAT_STATE = d.f HMP_STAT_STATE := congrArg Prod.fst h

theorem leaving_of_memStat {d e : Dev} (h : e.memStat = d.memStat) : e.hmp.leaving = d.hmp.leaving :=
  congrArg (fun x : Nat × Nat × Nat × Bool => x.2.2.2) h

theorem memStat_of_word {d e : Dev} (h : e.word 0xA1130 = d.word 0xA1130) (hl : e.hmp.leaving = d.hmp.leaving) :
    e.memStat = d.memStat := by
  have hf : ∀ F : Fld, F.addr 0 0 = 0xA1130 → e.f F = d.f F := fun F hF => fi_of_word (by rw [hF, h])
  rw [Dev.memStat, hf _ rfl, hf _ rfl, hf _ rfl, hl, Dev.memStat]

theorem memStat_setF {F : Fld} (h : F.addr 0 0 ≠ 0xA1130) (v : Nat) (d : Dev) : (d.setF F v).memStat = d.memStat :=
  memStat_of_word ((Dev.word_setFi ..).trans (if_neg h.symm)) (congrArg HmpSt.leaving (Dev.setFi_hmp ..))

/-- RECOVERED and FROZEN stand beside them in STAT. -/
theorem memStat_setF_high {F : Fld} (h : F = HMP_STAT_RECOVERED ∨ F = HMP_STAT_FROZEN) (v : Nat) (d : Dev) :
    (d.setF F v).memStat = d.memStat := by
  have hf : ∀ G : Fld, G.hi < 24 → G.lo ≤ G.hi → (d.setF F v).f G = d.f G := fun G hG hlo => by
    obtain rfl | rfl := h
    · exact Dev.fi_setFi_ne _ _ _ _ _ _ _ _ (by decide) (by decide) hlo (.inr (.inl hG))
    · exact Dev.fi_setFi_ne _ _ _ _ _ _ _ _ (by decide) (by decide) hlo (.inr (.inl (hG.trans (by decide : 24 < 25))))
  rw [Dev.memStat, hf _ (by decide) (by decide), hf _ (by decide) (by decide), hf _ (by decide) (by decide), Dev.setF_def,
    Dev.setFi_hmp, Dev.memStat]

theorem memStat_putSlot (d : Dev) (k : Nat) (x : Option TrigSlot) : (d.putSlot k x).memStat = d.memStat :=
  memStat_of_word (word_putSlot _ _ _ (.inl (by decide))) (congrArg HmpSt.leaving (hmp_putSlot d k x) :)

theorem memStat_spanReg (d : Dev) : (spanReg d).memStat = d.memStat := memStat_setF (by decide) ..

theorem memStat_protectBack (t : Trig) (k : Nat) (d : Dev) : (protectBack t k d).memStat = d.memStat := by
  unfold protectBack
  split
  · rfl
  · exact memStat_putSlot ..

theorem memStat_takeSlot (t : Trig) (now : Nat) (held : Bool) (d : Dev) : (takeSlot t now held d).2.memStat = d.memStat := by
  unfold takeSlot
  dsimp only
  split
  · exact (memStat_protectBack ..).trans (memStat_putSlot ..)
  · split
    · rfl
    · exact (memStat_protectBack ..).trans (memStat_putSlot ..)

/-- Every slot is emptied. -/
def clearSlots (d : Dev) : Dev := (List.range 16).foldl (fun d k => d.putSlot k none) d

theorem memStat_clearSlots (d : Dev) : (clearSlots d).memStat = d.memStat :=
  foldl_keeps Dev.memStat (fun _ _ => memStat_putSlot ..) _ d

theorem memStat_rebuildSlots (d : Dev) : (rebuildSlots d).memStat = d.memStat :=
  (foldl_keeps Dev.memStat (fun _ _ => memStat_takeSlot ..) _ _).trans (memStat_clearSlots d)

theorem memStat_setFreeze (d : Dev) : (setFreeze true d).memStat = d.memStat := by
  rw [setFreeze_on]
  exact (foldl_keeps Dev.memStat (fun e p => ite_keeps Dev.memStat (memStat_putSlot ..) rfl) _ _).trans
    ((memStat_setF_high (.inr rfl) ..).trans (memStat_setF (by decide) ..))

theorem hmp_clearSlots (d : Dev) : ∃ m, (clearSlots d).hmp = { d.hmp with slots := m } := by
  have hfold : ∀ (l : List Nat) (e : Dev), ∃ m, (l.foldl (fun d k => d.putSlot k none) e).hmp = { e.hmp with slots := m } := by
    intro l
    induction l with
    | nil => exact fun e => ⟨e.hmp.slots, rfl⟩
    | cons k l ih =>
      intro e
      obtain ⟨m, hm⟩ := ih (e.putSlot k none)
      rw [hmp_putSlot] at hm
      exact ⟨m, hm⟩
  exact hfold _ d

theorem slot_clearSlots {k : Nat} (hk : k < 16) (d : Dev) : (clearSlots d).hmp.slot k = none := by
  have hfold : ∀ (l : List Nat) (e : Dev), k ∈ l ∨ e.hmp.slot k = none →
      (l.foldl (fun d k => d.putSlot k none) e).hmp.slot k = none := by
    intro l
    induction l with
    | nil => exact fun e h => h.resolve_left List.not_mem_nil
    | cons j l ih =>
      intro e h
      refine ih _ (or_iff_not_imp_left.mpr fun hl => (slot_putSlot ..).trans ?_)
      split
      · rfl
      case isFalse hne => exact h.resolve_left fun hm => (List.mem_cons.mp hm).elim hne hl
  exact hfold _ d (.inl (List.mem_range.mpr hk))

theorem word_clearSlots {a : Nat} (h : a < 0xA1140 ∨ 0xA1240 ≤ a) (d : Dev) : (clearSlots d).word a = d.word a := by
  have hfold : ∀ (l : List Nat) (e : Dev), (∀ k ∈ l, k < 16) → (l.foldl (fun d k => d.putSlot k none) e).word a = e.word a := by
    intro l
    induction l with
    | nil => exact fun e _ => rfl
    | cons j l ih =>
      intro e hl
      have hj := hl j List.mem_cons_self
      exact (ih _ fun k hk => hl k (List.mem_cons_of_mem j hk)).trans (word_putSlot _ _ _ (by omega))
  exact hfold _ d fun k hk => List.mem_range.mp hk

/-! ## The ring as the channels become ready -/

/-- The registers that stand before the ring is looked at. -/
def ringRegs (d : Dev) : Dev := (d.setF HMP_RING_MIB (d.ringBytes / 2 ^ 20)).setF HMP_STAT_RECOVERED 0

theorem memStat_ringRegs (d : Dev) : (ringRegs d).memStat = d.memStat :=
  (memStat_setF_high (.inl rfl) ..).trans (memStat_setF (by decide) ..)

/-- An empty ring with a descriptor. -/
def ringEmpty (x : Option RingDesc) (d : Dev) : Dev := spanReg (clearSlots (d.onHmp fun h => { h with ring := [], wp := 0, desc := x }))

theorem memStat_ringEmpty (x : Option RingDesc) (d : Dev) : (ringEmpty x d).memStat = d.memStat :=
  (memStat_spanReg _).trans ((memStat_clearSlots _).trans rfl)

theorem ring_ringEmpty (x : Option RingDesc) (d : Dev) : (ringEmpty x d).hmp.ring = [] := by
  obtain ⟨m, hm⟩ := hmp_clearSlots (d.onHmp fun h => { h with ring := [], wp := 0, desc := x })
  rw [ringEmpty, spanReg, Dev.setF_def, Dev.setFi_hmp, hm]
  rfl

/-- A ring that is kept. -/
def ringKept (d : Dev) : Dev :=
  spanReg (((setFreeze true (rebuildSlots d)).setF HMP_STAT_RECOVERED 1).emit 0x085 .hmp)

theorem memStat_emit (d : Dev) (code : Nat) (p : Page) (b : List Byte) : (d.emit code p b).memStat = d.memStat :=
  memStat_of_word (Dev.word_congr (Dev.emitSrc_regs ..) _) (congrArg HmpSt.leaving (Dev.emitSrc_hmp ..))

theorem memStat_ringKept (d : Dev) : (ringKept d).memStat = d.memStat :=
  (memStat_spanReg _).trans ((memStat_emit ..).trans ((memStat_setF_high (.inl rfl) ..).trans
    ((memStat_setFreeze _).trans (memStat_rebuildSlots d))))

theorem ringStart_cases (b : Bool) (d : Dev) : (∃ x, ringStart b d = ringEmpty x (ringRegs d)) ∨
    b = true ∧ ringStart b d = ringKept (ringRegs d) := by
  unfold ringStart
  dsimp only
  split
  · exact .inl ⟨none, rfl⟩
  · split
    case isTrue h => exact .inr ⟨h.1, rfl⟩
    case isFalse => exact .inl ⟨_, rfl⟩

theorem memStat_ringStart (b : Bool) (d : Dev) : (ringStart b d).memStat = d.memStat := by
  obtain ⟨x, hx⟩ | ⟨-, hx⟩ := ringStart_cases b d
  · rw [hx]
    exact (memStat_ringEmpty ..).trans (memStat_ringRegs d)
  · rw [hx]
    exact (memStat_ringKept _).trans (memStat_ringRegs d)

theorem ring_ringStart_new (d : Dev) : (ringStart false d).hmp.ring = [] := by
  obtain ⟨x, hx⟩ | ⟨h, -⟩ := ringStart_cases false d
  · rw [hx, ring_ringEmpty]
  · exact absurd h Bool.false_ne_true

theorem memStat_wantRetrain (m : Nat) (d : Dev) : (wantRetrain m d).memStat = d.memStat :=
  ite_keeps Dev.memStat rfl (ite_keeps Dev.memStat rfl rfl)

/-! ## Training -/

theorem f_onHmp (d : Dev) (g : HmpSt → HmpSt) (F : Fld) : (d.onHmp g).f F = d.f F := Dev.fi_congr (Dev.onHmp_regs ..) ..

theorem f_setF_ne {F G : Fld} (hlo : F.lo ≤ F.hi) (h32 : F.hi < 32) (hG : G.lo ≤ G.hi)
    (h : G.addr 0 0 ≠ F.addr 0 0 ∨ G.hi < F.lo ∨ F.hi < G.lo) (v : Nat) (d : Dev) : (d.setF F v).f G = d.f G :=
  Dev.fi_setFi_ne _ _ _ _ _ _ _ _ hlo h32 hG h

/-- Training ends, with these channels. -/
def trainEnds (m : Nat) (d : Dev) : Dev :=
  (d.setF HMP_STAT_CH_OK m).onHmp fun h => { h with trained := (m, d.f HMP_MEM_CFG_RATE) }

/-- The memory is ready at the rate that is set. -/
def memReady (d : Dev) : Dev := (d.setF HMP_STAT_STATE hmpREADY).setF HMP_STAT_RATE_ACT (d.f HMP_MEM_CFG_RATE)

theorem memStat_memReady (d : Dev) :
    (memReady d).memStat = (hmpREADY, d.f HMP_STAT_CH_OK, d.f HMP_MEM_CFG_RATE, d.hmp.leaving) := by
  have hrate : d.f HMP_MEM_CFG_RATE < 2 ^ (HMP_STAT_RATE_ACT.hi - HMP_STAT_RATE_ACT.lo + 1) := bitsOf_lt ..
  have hst : (memReady d).f HMP_STAT_STATE = hmpREADY := by
    rw [memReady, f_setF_ne (by decide) (by decide) (by decide) (.inr (.inl (by decide))),
      f_setF_same _ (by decide) (by decide) (by decide)]
  have hok : (memReady d).f HMP_STAT_CH_OK = d.f HMP_STAT_CH_OK := by
    rw [memReady, f_setF_ne (by decide) (by decide) (by decide) (.inr (.inl (by decide))),
      f_setF_ne (by decide) (by decide) (by decide) (.inr (.inr (by decide)))]
  have hact : (memReady d).f HMP_STAT_RATE_ACT = d.f HMP_MEM_CFG_RATE := f_setF_same _ (by decide) (by decide) hrate
  rw [Dev.memStat, hst, hok, hact, memReady, Dev.setF_def, Dev.setFi_hmp, Dev.setF_def, Dev.setFi_hmp]

theorem ok_trainEnds {m : Nat} (h : m < 16) (d : Dev) : (trainEnds m d).f HMP_STAT_CH_OK = m := by
  have hwidth : 2 ^ (HMP_STAT_CH_OK.hi - HMP_STAT_CH_OK.lo + 1) = 16 := by decide
  exact (f_onHmp ..).trans (f_setF_same d (by decide) (by decide) (by rwa [hwidth]))

theorem rate_trainEnds (m : Nat) (d : Dev) : (trainEnds m d).f HMP_MEM_CFG_RATE = d.f HMP_MEM_CFG_RATE :=
  (f_onHmp ..).trans (f_setF_ne (by decide) (by decide) (by decide) (.inl (by decide)) ..)

section
variable {d : Dev} {ok : Nat} (hst : d.f HMP_STAT_STATE = 1) (hl : d.hmp.leaving = false) (hlock : d.clk.memLock = true)
include hst hl hlock

theorem trainDone_all (b : Bool) (hok : ok &&& d.f HMP_MEM_CFG_CH_MASK = d.f HMP_MEM_CFG_CH_MASK) :
    trainDone ok b d = ringStart b (memReady (trainEnds (d.f HMP_MEM_CFG_CH_MASK) d)) := by
  have hrate := rate_trainEnds (d.f HMP_MEM_CFG_CH_MASK) d
  unfold trainDone
  dsimp only
  rw [if_neg (by simp [hst, hl, hlock, -Dev.f_def]), if_pos hok, hok]
  rfl

theorem trainDone_some (b : Bool) (hok : ok &&& d.f HMP_MEM_CFG_CH_MASK ≠ d.f HMP_MEM_CFG_CH_MASK) :
    trainDone ok b d = (((trainEnds (ok &&& d.f HMP_MEM_CFG_CH_MASK) d).setF HMP_STAT_STATE 3).raise
      HMP_IRQ_RAW_TRAIN_FAIL).emit 0x087 .hmp := by
  unfold trainDone
  dsimp only
  rw [if_neg (by simp [hst, hl, hlock, -Dev.f_def]), if_neg hok]
  rfl

end

/-! ## Tracking and deep sleep -/

/-- The channels have left self-refresh. -/
def memBack (d : Dev) : Dev :=
  (((d.onHmp fun h => { h with leaving := false }).setF HMP_STAT_STATE hmpREADY).setF HMP_STAT_CH_OK
    (d.f HMP_MEM_CFG_CH_MASK)).setF HMP_STAT_RATE_ACT ((((d.onHmp fun h => { h with leaving := false }).setF HMP_STAT_STATE
      hmpREADY).setF HMP_STAT_CH_OK (d.f HMP_MEM_CFG_CH_MASK)).f HMP_MEM_CFG_RATE)

theorem tracked_leaving {moved : Nat} {d : Dev} (h : d.hmp.leaving = true) :
    tracked moved d = wantRetrain moved (ringStart true (memBack d)) := if_pos h

theorem state_memBack (d : Dev) : (memBack d).f HMP_STAT_STATE = hmpREADY ∧ (memBack d).hmp.leaving = false := by
  refine ⟨?_, ?_⟩
  · rw [memBack, f_setF_ne (by decide) (by decide) (by decide) (.inr (.inl (by decide))),
      f_setF_ne (by decide) (by decide) (by decide) (.inr (.inl (by decide))), f_setF_same _ (by decide) (by decide) (by decide)]
  · rw [memBack, Dev.setF_def, Dev.setFi_hmp, Dev.setF_def, Dev.setFi_hmp, Dev.setF_def, Dev.setFi_hmp, Dev.onHmp_hmp]

theorem wantRetrain_ready {d : Dev} (h : d.f HMP_STAT_STATE = hmpREADY) (m : Nat) : wantRetrain m d =
    if d.f ARY_BURST_STAT_STATE = 2 then d.onHmp fun x => { x with deferred := x.deferred ||| (m &&& d.f HMP_MEM_CFG_CH_MASK) }
    else d.onHmp fun x => { x with retrain := x.retrain ||| (m &&& d.f HMP_MEM_CFG_CH_MASK) } := if_neg (not_not_intro h)

/-- In deep sleep what was stored is lost, a burst in the Hamper as well. -/
def burstLost (d : Dev) : Dev := if d.burst.dest = 0 then { d with burst := { d.burst with stored := [] } } else d

/-- The ring, its descriptor and what was trained are lost. -/
def contentsLost (d : Dev) : Dev :=
  (burstLost d).onHmp fun h => { h with ring := [], wp := 0, desc := none, trained := (0, 0) }

theorem regs_contentsLost (d : Dev) : (contentsLost d).regs = d.regs := by
  rw [contentsLost, Dev.onHmp_regs, burstLost]
  exact ite_keeps Dev.regs rfl rfl

theorem deepSleep_disabled {d : Dev} (h : d.enabled .hmp = false) :
    deepSleep d = spanReg ((clearSlots (contentsLost d)).setF HMP_STAT_STATE 5) := if_neg (by rw [h]; decide)

theorem spanReg_empty {d : Dev} (h : d.hmp.ring = []) : spanReg d = d.setF HMP_SPAN_MS 0 := by
  unfold spanReg
  rw [h]
  rfl

end Sys2Proof.Machine

open Sys2Proof Sys2Proof.Machine

/-- Settles O36: a replay's steps and its end, what is asked for while the memory is ready, and the memory's states. -/
theorem hamperReplaysAndTrains : Obligations.HamperReplaysAndTrains := by
  refine ⟨fun i hOk pOk r s h hsrc hnext => ?ends, fun i pOk r c s h hsrc hnext => ?bad,
    fun i r c s h hsrc hnext hkind hgood htake => ?sends, fun i hOk pOk s h => ?noReplay,
    fun s h hseq hq hon hfr hlen => ?begins, fun s h hq => ?noQueue, fun p s h => ?aborts,
    fun c m p s hc hst => ?wants, fun m s hl => ?back, fun c s hbit => ?retrained, fun c s hst hm => ?powerDown,
    fun p s h hen => ?sleeps, fun p s h hen => ?awake, fun ok s hst hl hlock hok => ?trained,
    fun ok b s hst hl hlock hok => ?fails⟩
  case ends =>
    have hend := (replaySend_last h hsrc hnext hOk pOk).trans (replayEnd_ring h hsrc)
    refine ⟨_, runs_onDev (c := .histReplaySend i hOk pOk) rfl hend, ?_, ?_⟩
    · exact (Dev.emitSrc_hmp ..).trans (Dev.raiseBits_hmp ..)
    · exact ⟨_, congrArg (· ++ _) (Dev.raiseBits_evq ..), rfl, rfl⟩
  case bad =>
    have hsend := (replaySend_chunk h hsrc hnext false pOk).trans (sendChunk_bad ..)
    have hfi : (setReplay i { r with next := c.num + 1, errs := r.errs + 1 } s.dev).f HMP_REPLAY_CRC_ERR =
        s.dev.f HMP_REPLAY_CRC_ERR := f_onHmp ..
    refine ⟨_, runs_onDev (c := .histReplaySend i false pOk) rfl hsend, Dev.setFi_dlv .., ?_, ?_, ?_⟩
    · rw [Dev.bump_def, Dev.setFi_hmp]
      exact replays_setReplay _ h
    · rw [← hfi]
      exact Dev.fi_bumpI_same _ rfl rfl 0 0
    · exact onlyWords_trans (onlyWords_of_regs (Dev.onHmp_regs ..) _) (onlyWords_setFi _ (List.mem_singleton.mpr rfl) _)
  case sends =>
    have hsend := replaySend_chunk h hsrc hnext true true
    obtain ⟨f, a, t, l, ing, datas, hput⟩ := sendChunk_good (i := i) hkind hgood htake
    refine ⟨_, _, runs_onDev (c := .histReplaySend i true true) rfl (hsend.trans hput), ?_,
      congrArg QueueSt.grps (queue_dlvPut_same ..), fun p hp => replay_replayPkts hp⟩
    rw [hmp_dlvPut]
    exact replays_setReplay (r.onward c) h
  case noReplay =>
    refine runs_onDev (c := .histReplaySend i hOk pOk) (f := replaySend i hOk pOk) rfl ?_
    unfold replaySend
    rw [h]
  case begins =>
    have hr := runs_mbxServe h (c := .histReplay) (lenOk := (· = 3)) (f := histReplayCmd) rfl rfl
    have hcmd : histReplayCmd (s.dev.setMbx mbxBUSY) = ((s.dev.setMbx mbxBUSY).onHmp fun x =>
        { x with replays := x.replays ++ [{ src := .ring, qid := s.dev.cmdNat 8 2 }] }).mbxDone resOK := by
      unfold histReplayCmd
      dsimp only
      rw [cmdNat_setMbx, cmdNat_setMbx, hseq, replayJudge_ring hq ((histOn_setMbx ..).trans hon)
        ((fi_setMbx _ _ (by decide)).trans hfr) (by rw [Dev.setMbx, Dev.setF_def, Dev.setFi_hmp]; exact hlen)]
      rfl
    rw [hcmd] at hr
    obtain ⟨hstate, hres, -, -⟩ := mbxDone_fields ((s.dev.setMbx mbxBUSY).onHmp fun x =>
        { x with replays := x.replays ++ [{ src := .ring, qid := s.dev.cmdNat 8 2 }] }) (result := resOK) (resp := [])
      (by decide) (by decide)
    refine ⟨_, { src := .ring, qid := s.dev.cmdNat 8 2 }, hr, ?_, rfl, rfl, hres, hstate⟩
    rw [hmp_mbxDone, Dev.onHmp_hmp, Dev.setMbx, Dev.setF_def, Dev.setFi_hmp]
  case noQueue =>
    have hr := runs_mbxServe h (c := .histReplay) (lenOk := (· = 3)) (f := histReplayCmd) rfl rfl
    unfold histReplayCmd at hr
    dsimp only at hr
    rwa [cmdNat_setMbx, cmdNat_setMbx, replayJudge_queue _ hq] at hr
  case aborts => exact ⟨_, runs_gatePage (c := .hmpCtrlAbort p) (f := replayAbort) rfl h, replays_replayAbort _⟩
  case wants =>
    have hrun : runs c s (wantRetrain m s.dev) := by
      obtain ⟨rfl, hl⟩ | ⟨rfl, rfl, h⟩ := hc
      · exact runs_onDev (c := .hmpTracking m) rfl (if_neg (by rw [hl]; exact Bool.false_ne_true))
      · exact runs_gatePage (c := .hmpCtrlRetrain p) (f := wantRetrain 15) rfl h
    rw [wantRetrain_ready hst] at hrun
    refine ⟨_, hrun, ?_, ?_⟩
    · split
      · rfl
      · rfl
    · split
      · rfl
      · rfl
  case back =>
    have hstat := (memStat_wantRetrain m (ringStart true (memBack s.dev))).trans (memStat_ringStart true (memBack s.dev))
    obtain ⟨hst, hleave⟩ := state_memBack s.dev
    exact ⟨_, runs_onDev (c := .hmpTracking m) rfl (tracked_leaving hl), (state_of_memStat hstat).trans hst,
      (leaving_of_memStat hstat).trans hleave⟩
  case retrained =>
    have hcount : ((s.dev.onHmp fun h => { h with retrain := h.retrain - 2 ^ c.val }).bump HMP_RETRAINS).f HMP_RETRAINS =
        (s.dev.f HMP_RETRAINS + 1) % 2 ^ 32 := Dev.fi_bumpI_same _ rfl rfl 0 0
    have hhmp : (((s.dev.onHmp fun h => { h with retrain := h.retrain - 2 ^ c.val }).bump HMP_RETRAINS).raise
        HMP_IRQ_RAW_RETRAIN).hmp = { s.dev.hmp with retrain := s.dev.hmp.retrain - 2 ^ c.val } :=
      (Dev.raiseBits_hmp ..).trans (Dev.setFi_hmp ..)
    refine ⟨_, runs_onDev (c := .hmpRetrainDone c) rfl (if_pos hbit), hhmp,
      (Dev.fi_raiseBits _ _ _ _ _ _ (by decide)).trans hcount, ?_⟩
    rw [hhmp]
    exact onlyRaised_trans (onlyRaised_setFi _ (F := HMP_RETRAINS) (i := 0) (k := 0) (by decide) _)
      (onlyRaised_raiseBits _ (p := .hmp) (by decide) _)
  case powerDown => exact ⟨_, runs_onDev (c := .hmpPowerDown c) rfl (if_pos ⟨hst, hm⟩), rfl⟩
  case sleeps =>
    have hr := runs_gatePage (c := .hmpCtrlDsm p) (f := deepSleep) rfl h
    obtain ⟨m, hm⟩ := hmp_clearSlots (contentsLost s.dev)
    have hring : ((clearSlots (contentsLost s.dev)).setF HMP_STAT_STATE 5).hmp.ring = [] := by
      rw [Dev.setF_def, Dev.setFi_hmp, hm]
      rfl
    have hhmp : (((clearSlots (contentsLost s.dev)).setF HMP_STAT_STATE 5).setF HMP_SPAN_MS 0).hmp =
        (clearSlots (contentsLost s.dev)).hmp := (Dev.setFi_hmp ..).trans (Dev.setFi_hmp ..)
    rw [deepSleep_disabled hen, spanReg_empty hring] at hr
    refine ⟨_, hr, ?_, ?_, ?_, fun k hk => ?_, f_setF_same _ (by decide) (by decide) (by decide), fun a ha => ?_⟩
    · rw [f_setF_ne (by decide) (by decide) (by decide) (.inl (by decide)), f_setF_same _ (by decide) (by decide) (by decide)]
    · rw [hhmp, hm]
      rfl
    · rw [hhmp, hm]
      rfl
    · rw [hhmp]
      exact slot_clearSlots hk _
    · have hbase : Page.hmp.base = 0xA1000 := rfl
      have hsize : Page.hmp.size = 0x1000 := rfl
      have hstate : a ≠ HMP_STAT_STATE.addr 0 0 := by
        have haddr : HMP_STAT_STATE.addr 0 0 = 0xA1130 := rfl
        omega
      have hspan : a ≠ HMP_SPAN_MS.addr 0 0 := by
        have haddr : HMP_SPAN_MS.addr 0 0 = 0xA1138 := rfl
        omega
      rw [Dev.setF_def, Dev.word_setFi, if_neg hspan, Dev.setF_def, Dev.word_setFi, if_neg hstate,
        word_clearSlots (by omega), Dev.word_congr (regs_contentsLost _)]
  case awake =>
    have hr := runs_gatePage (c := .hmpCtrlDsm p) (f := deepSleep) rfl h
    rwa [deepSleep, if_pos hen] at hr
  case trained =>
    have hmask : s.dev.f HMP_MEM_CFG_CH_MASK < 16 := bitsOf_lt ..
    have hstat := (memStat_ringStart false _).trans (memStat_memReady (trainEnds (s.dev.f HMP_MEM_CFG_CH_MASK) s.dev))
    exact ⟨_, runs_onDev (c := .hmpTrainDone ok false) rfl (trainDone_all hst hl hlock false hok), congrArg Prod.fst hstat,
      ring_ringStart_new _, (congrArg (fun x => x.2.1) hstat).trans (ok_trainEnds hmask _),
      (congrArg (fun x => x.2.2.1) hstat).trans (rate_trainEnds ..)⟩
  case fails =>
    refine ⟨_, runs_onDev (c := .hmpTrainDone ok b) rfl (trainDone_some hst hl hlock b hok), ?_, ?_, ?_, ?_⟩
    · exact (Dev.fi_congr (Dev.emitSrc_regs ..) ..).trans ((Dev.fi_raiseBits _ _ _ _ _ _ (by decide)).trans
        (f_setF_same _ (by decide) (by decide) (by decide)))
    · rw [Dev.emit, Dev.emitSrc_hmp, Dev.raise_def, Dev.raiseBits_hmp, Dev.setF_def, Dev.setFi_hmp, trainEnds, Dev.onHmp_hmp,
        Dev.setF_def, Dev.setFi_hmp]
    · exact ⟨_, congrArg (· ++ _) (Dev.raiseBits_evq ..), rfl⟩
    · have htrain : onlyWords s.dev (trainEnds (ok &&& s.dev.f HMP_MEM_CFG_CH_MASK) s.dev)
          [HMP_STAT_STATE.addr 0 0, Page.hmp.base + 0x10] :=
        onlyWords_regs (onlyWords_setFi _ (F := HMP_STAT_CH_OK) (i := 0) (k := 0) (by decide) _) (Dev.onHmp_regs ..)
      exact onlyWords_emit (onlyWords_trans htrain (onlyWords_trans
        (onlyWords_setFi _ (F := HMP_STAT_STATE) (i := 0) (k := 0) (by decide) _)
        (onlyWords_raiseBits _ (p := .hmp) (by decide) _))) _ _ _
end

section
/-! SUPPORT. Rules about queue entries and the delivery buffer (R407 to R412): which words a change writes, what a queue
holds after it, and what handing packets over leaves. -/
namespace Sys2Proof.Machine

/-! ## Entries -/

theorem qAddr_inj {q r v w : Nat} (hv : v < 8) (hw : w < 8) (h : qAddr q v = qAddr r w) : q = r ∧ v = w := by
  simp only [qAddr] at h
  omega

theorem qAddr_ne_word (q r : Nat) {v w : Nat} (hv : v < 8) (hw : w < 8) (h : v ≠ w) : qAddr q v ≠ qAddr r w :=
  fun he => h (qAddr_inj hv hw he).2

theorem qAddr_high (q w : Nat) : 0x140000 ≤ qAddr q w := by simp only [qAddr]; omega

theorem decodeAddr_queue (q : Fin 8192) {w : Nat} (hw : w < 8) : decodeAddr (BitVec.ofNat 24 (qAddr q w)).toNat = .queue q w := by
  have hq := q.isLt
  have hto : (BitVec.ofNat 24 (qAddr q w)).toNat = qAddr q w := by
    rw [BitVec.toNat_ofNat]
    simp only [qAddr]
    omega
  rw [hto]
  unfold decodeAddr qAddr
  dsimp only
  rw [dif_neg (by omega), dif_neg (by omega), dif_neg (by omega), dif_neg (by omega), if_neg (by omega), if_pos (by omega)]
  exact congrArg₂ Target.queue (by omega) (by omega)

theorem word_qSet (d : Dev) (q w hi lo v a : Nat) :
    (d.qSet q w hi lo v).word a = if a = qAddr q w then setBits (d.word (qAddr q w)) hi lo v else d.word a := Dev.word_putWord ..

theorem onlyRegs_qSet (d : Dev) (q w hi lo v : Nat) : onlyRegs d (d.qSet q w hi lo v) [qAddr q w] := onlyRegs_putWord ..

theorem qGet_congr {d e : Dev} {q w : Nat} (h : e.word (qAddr q w) = d.word (qAddr q w)) (hi lo : Nat) :
    e.qGet q w hi lo = d.qGet q w hi lo := congrArg (fun x => bitsOf x hi lo) h

theorem qGet_of_onlyWords {d e : Dev} {as : List Nat} (h : onlyWords d e as) {q w : Nat} (ha : qAddr q w ∉ as) (hi lo : Nat) :
    e.qGet q w hi lo = d.qGet q w hi lo := qGet_congr (h _ ha) hi lo

theorem qGet_qSet_same (d : Dev) (q w : Nat) {hi lo : Nat} (v : Nat) (h : lo ≤ hi) (h32 : hi < 32) :
    (d.qSet q w hi lo v).qGet q w hi lo = v % 2 ^ (hi - lo + 1) := by
  rw [Dev.qGet, word_qSet, if_pos rfl, bitsOf_setBits_same _ _ _ _ h h32]

/-- Other bits of the same word stay. -/
theorem qGet_qSet_bits (d : Dev) (q w : Nat) {hi lo hi' lo' : Nat} (v : Nat) (h : lo ≤ hi) (h32 : hi < 32) (h' : lo' ≤ hi')
    (hne : hi' < lo ∨ hi < lo') : (d.qSet q w hi lo v).qGet q w hi' lo' = d.qGet q w hi' lo' := by
  rw [Dev.qGet, word_qSet, if_pos rfl, bitsOf_setBits_ne _ _ _ _ _ _ h h32 hne h', Dev.qGet]

theorem qGet_qSet_word (d : Dev) (q r : Nat) {w x : Nat} (hi lo v hi' lo' : Nat) (hw : w < 8) (hx : x < 8) (h : x ≠ w) :
    (d.qSet q w hi lo v).qGet r x hi' lo' = d.qGet r x hi' lo' :=
  qGet_congr ((word_qSet ..).trans (if_neg (qAddr_ne_word r q hx hw h))) ..

theorem qUsed_qSet_word (d : Dev) (q r : Nat) {w : Nat} (hi lo v : Nat) (hw : w < 8) (h : 2 ≠ w) :
    (d.qSet q w hi lo v).qUsed r = d.qUsed r := qGet_qSet_word d q r hi lo v 31 0 hw (by decide) h

/-! ## The buffer's registers -/

/-- The words that report the use of the buffer. -/
def bufWords (q : Nat) : List Nat := [qAddr q 5, DLV_BUF_STAT_LVL.addr 0 0, DLV_BUF_PEAK.addr 0 0]

theorem onlyWords_bufRegs (q : Nat) (d : Dev) : onlyWords d (bufRegs q d) (bufWords q) :=
  onlyWords_trans (onlyWords_mono (onlyRegs_qSet d q 5 14 0 _).2 (by simp [bufWords])) <|
    onlyWords_trans (onlyWords_setFi _ (F := DLV_BUF_STAT_LVL) (i := 0) (k := 0) (by simp [bufWords]) _)
      (onlyWords_peakI _ (F := DLV_BUF_PEAK) (i := 0) (k := 0) (by simp [bufWords]) _)

theorem onlyWords_dlvPut (q : Nat) (ps : List Pkt) (d : Dev) : onlyWords d (dlvPut q ps d) (bufWords q) :=
  onlyWords_trans (onlyWords_of_regs rfl _) (onlyWords_bufRegs q (d.mapQueue q fun x => { x with grps := x.grps ++ [{ pkts := ps }] }))

theorem not_mem_bufWords (q : Nat) {a : Nat} (h : a ≠ qAddr q 5 ∧ a ≠ 0x98240 ∧ a ≠ 0x98F20) : a ∉ bufWords q := by
  obtain ⟨h5, hlvl, hpeak⟩ := h
  simp only [bufWords, List.mem_cons, List.not_mem_nil, or_false, not_or]
  exact ⟨h5, hlvl, hpeak⟩

/-- Use of credit is no word of the buffer's use. -/
theorem used_not_mem_bufWords (q r : Nat) : qAddr q 2 ∉ bufWords r := by
  have hhigh := qAddr_high q 2
  exact not_mem_bufWords r ⟨qAddr_ne_word q r (by decide) (by decide) (by decide), by omega, by omega⟩

theorem low_not_mem_bufWords (q : Nat) {a : Nat} (h : a < 0x98000 ∨ 0x99000 ≤ a ∧ a < 0x140000) : a ∉ bufWords q := by
  have hhigh := qAddr_high q 5
  exact not_mem_bufWords q ⟨by omega, by omega, by omega⟩

/-- `d` with the registers and the delivery block of `x`. -/
abbrev takeDlv (x d : Dev) : Dev := { d with regs := x.regs, dlv := x.dlv }

theorem takeDlv_trans {d e g : Dev} (h : e = takeDlv e d) (h' : g = takeDlv g e) : g = takeDlv g d :=
  frame_trans takeDlv (fun _ _ _ => rfl) h h'

theorem takeDlv_of_regs {d e : Dev} (h : e = takeRegs e d) : e = takeDlv e d := frame_mono takeRegs takeDlv (fun _ _ => rfl) h

theorem takeDlv_bufRegs (q : Nat) (d : Dev) : bufRegs q d = takeDlv (bufRegs q d) d :=
  takeDlv_of_regs (frame_trans takeRegs (fun _ _ _ => rfl) (takeRegs_putWord ..)
    (frame_trans takeRegs (fun _ _ _ => rfl) (takeRegs_setFi ..) (takeRegs_peakI ..)))

theorem takeDlv_dlvPut (q : Nat) (ps : List Pkt) (d : Dev) : dlvPut q ps d = takeDlv (dlvPut q ps d) d :=
  takeDlv_trans (e := d.mapQueue q fun x => { x with grps := x.grps ++ [{ pkts := ps }] }) rfl (takeDlv_bufRegs ..)

theorem queue_setQueue (d : Dev) (q r : Nat) (x : QueueSt) : (d.setQueue q x).queue r = if r = q then x else d.queue r :=
  SMap.get_set ..

theorem queue_dlvPut_ne (q r : Nat) (ps : List Pkt) (d : Dev) (h : r ≠ q) : (dlvPut q ps d).queue r = d.queue r :=
  (queue_of_dlv (dlv_bufRegs ..) r).trans ((queue_setQueue ..).trans (if_neg h))

/-! ## Settling -/

/-- A part of the device that handing waiting packets over leaves. -/
structure KeptBySettling {β : Type} (part : Dev → β) : Prop where
  put : ∀ q ps d, part (dlvPut q ps d) = part d
  irq : ∀ (d : Dev) x, part (d.onDlv fun s => { s with irqW := x }) = part d
  time : ∀ (d : Dev) x, part (d.onDlv fun s => { s with timeW := x }) = part d
  resps : ∀ (d : Dev) x, part (d.onDlv fun s => { s with resps := x }) = part d

/-- The IRQ packet that waits, the TIME packets and the first response are handed over, one source after the other. -/
def irqSettled (d : Dev) : Dev :=
  match d.dlv.irqW with
  | some p =>
    if d.bound (d.a DLV_BIND_IRQ_QID) then dlvPut (d.a DLV_BIND_IRQ_QID) [p] (d.onDlv fun s => { s with irqW := none }) else d
  | none => d

def timeSettled (q : Nat) (d : Dev) : Dev :=
  if d.bound q then d.dlv.timeW.foldl (fun d p => dlvPut q [p] d) (d.onDlv fun s => { s with timeW := [] }) else d

def respSettled (d : Dev) : Dev :=
  match d.dlv.resps with
  | (q, p) :: t =>
    if d.bound q ∧ (d.allPkts.all fun p => p.typ ≠ 0x12) then dlvPut q [p] (d.onDlv fun s => { s with resps := t }) else d
  | [] => d

theorem dlvSettle_eq (d : Dev) : dlvSettle d = respSettled (timeSettled (d.a DLV_BIND_TIME_QID) (irqSettled d)) := rfl

theorem dlvSettle_keeps {β : Type} {part : Dev → β} (h : KeptBySettling part) (d : Dev) : part (dlvSettle d) = part d := by
  have hirq : part (irqSettled d) = part d := by
    unfold irqSettled
    split
    · exact ite_keeps part ((h.put ..).trans (h.irq ..)) rfl
    · rfl
  have htime : ∀ q e, part (timeSettled q e) = part e := fun q e =>
    ite_keeps part ((foldl_keeps part (fun _ _ => h.put ..) _ _).trans (h.time ..)) rfl
  have hresp : ∀ e, part (respSettled e) = part e := fun e => by
    unfold respSettled
    split
    · exact ite_keeps part ((h.put ..).trans (h.resps ..)) rfl
    · rfl
  rw [dlvSettle_eq]
  exact (hresp _).trans ((htime ..).trans hirq)

/-- With nothing that waits, nothing is handed over. -/
theorem dlvSettle_none {d : Dev} (hirq : d.dlv.irqW = none) (htime : d.dlv.timeW = []) (hresps : d.dlv.resps = []) :
    dlvSettle d = d := by
  have h1 : irqSettled d = d := by rw [irqSettled, hirq]
  have hempty : (d.onDlv fun s => { s with timeW := [] }) = d := by
    have hsame : { d.dlv with timeW := [] } = d.dlv := by rw [← htime]
    rw [Dev.onDlv, hsame]
  have h2 : ∀ q, timeSettled q d = d := fun q => by
    unfold timeSettled
    rw [htime, List.foldl_nil, hempty, ite_self]
  have h3 : respSettled d = d := by rw [respSettled, hresps]
  rw [dlvSettle_eq, h1, h2, h3]

end Sys2Proof.Machine
end

section
/-! SUPPORT. Proofs about delivery (R407 to R416): what becomes of a packet that enters, what a grant sends, and what a
write to an entry sets. -/
namespace Sys2Proof.Machine

/-! ## Packets that enter -/

theorem dlvEnqueue_stat {q typ tag aux : Nat} {pay : List Byte} {t : List PktReq} {d : Dev}
    (h : d.reqs = .stat q typ tag aux pay :: t) : dlvEnqueue d = statEnqueue q typ tag aux pay { d with reqs := t } := by
  unfold dlvEnqueue
  rw [h]

theorem dlvEnqueue_start {k : Nat} {t : List PktReq} {d : Dev} (h : d.reqs = .frameStart k :: t) :
    dlvEnqueue d = startEnqueue k { d with reqs := t } := by
  unfold dlvEnqueue
  rw [h]

theorem statEnqueue_taken {q : Nat} {pay : List Byte} {d : Dev} (typ tag aux : Nat) (h : d.queueTakes q pay.length = true) :
    statEnqueue q typ tag aux pay d = dlvPut q [{ kind := .drop, typ, tag, aux, since := d.cyc, payload := pay }] d := if_pos h

theorem statEnqueue_dropped {q : Nat} {pay : List Byte} {d : Dev} (typ tag aux : Nat) (h : d.queueTakes q pay.length = false) :
    statEnqueue q typ tag aux pay d = (d.bump STA_REC_DROP).raise STA_IRQ_RAW_REC_DROP := if_neg (by rw [h]; decide)

theorem recDropped_rules (d : Dev) : ((d.bump STA_REC_DROP).raise STA_IRQ_RAW_REC_DROP).dlv = d.dlv ∧
    ((d.bump STA_REC_DROP).raise STA_IRQ_RAW_REC_DROP).f STA_REC_DROP = (d.f STA_REC_DROP + 1) % 2 ^ 32 ∧
    onlyWords d ((d.bump STA_REC_DROP).raise STA_IRQ_RAW_REC_DROP) [STA_REC_DROP.addr 0 0, Page.sta.base + 0x10] :=
  ⟨(Dev.raiseBits_dlv ..).trans (Dev.setFi_dlv ..),
    (Dev.fi_raiseBits _ _ _ _ _ _ (by decide)).trans (Dev.fi_bumpI_same d rfl rfl 0 0),
    onlyWords_trans (onlyWords_setFi d (F := STA_REC_DROP) (i := 0) (k := 0) (by decide) _)
      (onlyWords_raiseBits _ (p := .sta) (by decide) _)⟩

theorem stream_setStream_same (d : Dev) (k : Nat) (x : StreamSt) : (d.setStream k x).stream k = x := SMap.get_set_same ..

theorem stream_of_dlv {d e : Dev} (h : e.dlv = d.dlv) (k : Nat) : e.stream k = d.stream k := by rw [Dev.stream, h, Dev.stream]

theorem startEnqueue_unbound {k : Nat} {d : Dev} (hact : d.active .dlv = true) (hb : d.bound (d.stream k).q = false) :
    startEnqueue k d = ((d.setStream k { d.stream k with dead := true }).bump DLV_UNBOUND).raise DLV_IRQ_RAW_UNBOUND := by
  unfold startEnqueue
  dsimp only
  rw [if_neg (by rw [hact]; decide), if_pos hb]

/-- The group of a frame that begins. -/
def startGrp (k : Nat) (d : Dev) : PGrp :=
  { key := k, frame := some (d.stream k).frame, closed := false,
    pkts := [{ kind := .start, typ := 0x02, tag := (d.stream k).tag, aux := (d.stream k).aux, since := d.cyc,
               payload := (d.stream k).start }] }

theorem startEnqueue_begun {k : Nat} {d : Dev} (hact : d.active .dlv = true) (hb : d.bound (d.stream k).q = true)
    (hbuf : buffered d.allPkts + 148 ≤ 2 ^ 24) : startEnqueue k d = bufRegs (d.stream k).q
      ((d.setStream k { d.stream k with begun := true }).mapQueue (d.stream k).q fun y => { y with grps := y.grps ++ [startGrp k d] }) := by
  unfold startEnqueue
  dsimp only
  rw [if_neg (by rw [hact]; decide), if_neg (by rw [hb]; decide), if_neg (by omega)]
  rfl

/-- A frame that finds its queue unbound is dead from its start. -/
theorem unboundDev_rules (k : Nat) (d : Dev) :
    ((((d.setStream k { d.stream k with dead := true }).bump DLV_UNBOUND).raise DLV_IRQ_RAW_UNBOUND).stream k).dead = true ∧
    (((d.setStream k { d.stream k with dead := true }).bump DLV_UNBOUND).raise DLV_IRQ_RAW_UNBOUND).dlv.queues = d.dlv.queues ∧
    (((d.setStream k { d.stream k with dead := true }).bump DLV_UNBOUND).raise DLV_IRQ_RAW_UNBOUND).f DLV_UNBOUND =
      (d.f DLV_UNBOUND + 1) % 2 ^ 32 ∧
    onlyWords d (((d.setStream k { d.stream k with dead := true }).bump DLV_UNBOUND).raise DLV_IRQ_RAW_UNBOUND)
      [DLV_UNBOUND.addr 0 0, Page.dlv.base + 0x10] := by
  have hdlv : (((d.setStream k { d.stream k with dead := true }).bump DLV_UNBOUND).raise DLV_IRQ_RAW_UNBOUND).dlv =
      (d.setStream k { d.stream k with dead := true }).dlv := (Dev.raiseBits_dlv ..).trans (Dev.setFi_dlv ..)
  have hcount : ((d.setStream k { d.stream k with dead := true }).bump DLV_UNBOUND).f DLV_UNBOUND = (d.f DLV_UNBOUND + 1) % 2 ^ 32 :=
    Dev.fi_bumpI_same _ rfl rfl 0 0
  refine ⟨?_, ?_, (Dev.fi_raiseBits _ _ _ _ _ _ (by decide)).trans hcount, ?_⟩
  · rw [stream_of_dlv hdlv, stream_setStream_same]
  · rw [hdlv]
    rfl
  · exact onlyWords_trans (onlyWords_of_regs rfl _) (onlyWords_trans
      (onlyWords_setFi _ (F := DLV_UNBOUND) (i := 0) (k := 0) (by decide) _) (onlyWords_raiseBits _ (p := .dlv) (by decide) _))

/-- A frame that begins has a group of its own behind those of its queue. -/
theorem begunDev_rules (k : Nat) (d : Dev) :
    (bufRegs (d.stream k).q ((d.setStream k { d.stream k with begun := true }).mapQueue (d.stream k).q fun y =>
      { y with grps := y.grps ++ [startGrp k d] })).reqs = d.reqs ∧
    ((bufRegs (d.stream k).q ((d.setStream k { d.stream k with begun := true }).mapQueue (d.stream k).q fun y =>
      { y with grps := y.grps ++ [startGrp k d] })).stream k).begun = true ∧
    ((bufRegs (d.stream k).q ((d.setStream k { d.stream k with begun := true }).mapQueue (d.stream k).q fun y =>
      { y with grps := y.grps ++ [startGrp k d] })).queue (d.stream k).q).grps =
      (d.queue (d.stream k).q).grps ++ [startGrp k d] := by
  refine ⟨(congrArg Dev.reqs (takeDlv_bufRegs ..)).trans rfl, ?_, ?_⟩
  · rw [stream_of_dlv (dlv_bufRegs ..)]
    exact congrArg StreamSt.begun (stream_setStream_same d k _)
  · rw [queue_of_dlv (dlv_bufRegs ..), queue_mapQueue_same]
    rfl

/-! ## A grant -/

theorem dlvRearm_keeps {β : Type} {part : Dev → β} (h : ∀ d q x, part (Dev.setQueue d q x) = part d) (d : Dev) :
    part (dlvRearm d) = part d := foldl_keeps part (fun _ _ => h ..) _ d

theorem regs_dlvRearm (d : Dev) : (dlvRearm d).regs = d.regs := dlvRearm_keeps (fun _ _ _ => rfl) d

theorem hlp_dlvRearm (d : Dev) : (dlvRearm d).hlp = d.hlp := dlvRearm_keeps (fun _ _ _ => rfl) d

/-- What a grant leaves behind it: that the link is busy, with what, and what has come in. -/
def Dev.link (d : Dev) : Bool × List Byte × List Byte := (d.dlv.busy, d.dlv.last, d.hlp.strm)

theorem busy_of_link {d : Dev} {b : Bool} {bs l : List Byte} (h : d.link = (b, bs, l)) : d.dlv.busy = b := congrArg Prod.fst h

theorem last_of_link {d : Dev} {b : Bool} {bs l : List Byte} (h : d.link = (b, bs, l)) : d.dlv.last = bs :=
  congrArg (fun x => x.2.1) h

theorem strm_of_link {d : Dev} {b : Bool} {bs l : List Byte} (h : d.link = (b, bs, l)) : d.hlp.strm = l :=
  congrArg (fun x => x.2.2) h

theorem link_dlvPut (q : Nat) (ps : List Pkt) (d : Dev) : (dlvPut q ps d).link = d.link := by
  have hdlv : (dlvPut q ps d).dlv = (d.mapQueue q fun x => { x with grps := x.grps ++ [{ pkts := ps }] }).dlv := dlv_bufRegs ..
  have hhlp : (dlvPut q ps d).hlp = d.hlp := (congrArg Dev.hlp (takeDlv_dlvPut q ps d)).trans rfl
  rw [Dev.link, hdlv, hhlp]
  rfl

theorem link_keptBySettling : KeptBySettling Dev.link where
  put := link_dlvPut
  irq _ _ := rfl
  time _ _ := rfl
  resps _ _ := rfl

theorem used_keptBySettling (q : Nat) : KeptBySettling fun d => d.qUsed q where
  put r ps d := qGet_of_onlyWords (onlyWords_dlvPut r ps d) (used_not_mem_bufWords q r) 31 0
  irq _ _ := rfl
  time _ _ := rfl
  resps _ _ := rfl

theorem regs_urgentEnd (q : Nat) (d : Dev) : (urgentEnd q d).regs = d.regs ∧ (urgentEnd q d).hlp = d.hlp :=
  ⟨ite_keeps Dev.regs rfl rfl, ite_keeps Dev.hlp rfl rfl⟩

theorem finalPayload_start {q : Nat} {p : Pkt} (d : Dev) (htime : p.time = none) (htyp : p.typ = 0x02) : finalPayload q p d =
    (p.payload.take 54 ++ u16 (d.qGet q 3 31 16) ++ p.payload.drop 56, d.qSet q 3 31 16 0) := by
  unfold finalPayload
  rw [htime]
  exact if_pos htyp

theorem finalPayload_other {q : Nat} {p : Pkt} (d : Dev) (htime : p.time = none) (htyp : p.typ ≠ 0x02) :
    finalPayload q p d = (p.payload, d) := by
  unfold finalPayload
  rw [htime]
  exact if_neg htyp

theorem hlp_qSet (d : Dev) (q w hi lo v : Nat) : (d.qSet q w hi lo v).hlp = d.hlp := rfl

/-- A packet's payload as it leaves is as long as it stood. -/
theorem finalPayload_rules {q : Nat} {p : Pkt} {d : Dev} (htime : p.time = none) (hlen : p.typ ≠ 0x02 ∨ 56 ≤ p.payload.length) :
    (finalPayload q p d).1.length = p.len ∧ (finalPayload q p d).2.qUsed q = d.qUsed q ∧ (finalPayload q p d).2.hlp = d.hlp := by
  by_cases htyp : p.typ = 0x02
  case pos =>
    have hlong := hlen.resolve_left (not_not_intro htyp)
    rw [finalPayload_start d htime htyp]
    dsimp only
    refine ⟨?_, qUsed_qSet_word _ _ _ _ _ _ (by decide) (by decide), hlp_qSet ..⟩
    simp only [List.length_append, List.length_take, List.length_drop, u16, length_bytesLE, Pkt.len]
    omega
  case neg =>
    rw [finalPayload_other d htime htyp]
    exact ⟨rfl, rfl, rfl⟩

theorem length_packetBytes (typ cls q pseq tag aux : Nat) (replay urgent : Bool) (pay : List Byte) :
    (packetBytes typ cls q pseq tag aux replay urgent pay).length = pay.length + 20 := by
  simp only [packetBytes, List.length_append, List.length_singleton, u16, u32, length_bytesLE]
  omega

/-- The counters of a queue's entry as a packet leaves. -/
def leaveCounts (q len : Nat) (d : Dev) : Dev :=
  let n := d.qGet q 3 15 0
  let d := d.qSet q 2 31 0 (d.qUsed q + credits len)
  (d.qSet q 3 15 0 (n + 1)).qSet q 6 31 0 (d.qGet q 6 31 0 + 1)

theorem qUsed_leaveCounts (q len : Nat) (d : Dev) : (leaveCounts q len d).qUsed q = (d.qUsed q + credits len) % 2 ^ 32 := by
  unfold leaveCounts
  dsimp only
  rw [qUsed_qSet_word _ _ _ _ _ _ (by decide) (by decide), qUsed_qSet_word _ _ _ _ _ _ (by decide) (by decide)]
  exact qGet_qSet_same _ _ _ _ (by decide) (by decide)

theorem hlp_leaveCounts (q len : Nat) (d : Dev) : (leaveCounts q len d).hlp = d.hlp := by
  unfold leaveCounts
  dsimp only
  rw [hlp_qSet, hlp_qSet, hlp_qSet]

/-- A packet's bytes go to the lanes, and the space it took is free. -/
def ontoLink (q frees : Nat) (bs : List Byte) (d : Dev) : Dev :=
  txPackets 0 bs (dlvRearm (bufRegs q (Dev.onDlv { d with hlp := { d.hlp with held := d.hlp.held - frees } } fun s =>
    { s with last := bs, busy := true })))

theorem ontoLink_rules (q frees : Nat) (bs : List Byte) (d : Dev) :
    (ontoLink q frees bs d).link = (true, bs, d.hlp.strm) ∧ (ontoLink q frees bs d).qUsed q = d.qUsed q := by
  have htx := takeTx_txPackets 0 bs (dlvRearm (bufRegs q (Dev.onDlv { d with hlp := { d.hlp with held := d.hlp.held - frees } } fun s =>
    { s with last := bs, busy := true })))
  have hlink : ∀ e : Dev, (dlvRearm (bufRegs q e)).link = e.link := fun e =>
    (dlvRearm_keeps (part := Dev.link) (fun _ _ _ => rfl) _).trans (by
      have hhlp : (bufRegs q e).hlp = e.hlp := (congrArg Dev.hlp (takeDlv_bufRegs q e)).trans rfl
      rw [Dev.link, dlv_bufRegs, hhlp, Dev.link])
  have hused : ∀ e : Dev, (dlvRearm (bufRegs q e)).qUsed q = e.qUsed q := fun e =>
    (qGet_congr (Dev.word_congr (regs_dlvRearm _) _) 31 0).trans
      (qGet_of_onlyWords (onlyWords_bufRegs q e) (used_not_mem_bufWords q q) 31 0)
  refine ⟨(congrArg Dev.link htx).trans ((hlink _).trans rfl), ?_⟩
  exact (congrArg (fun e => Dev.qUsed e q) htx).trans ((hused _).trans rfl)

/-- A packet with this payload leaves. -/
def packetSent (q : Nat) (p : Pkt) (urgent : Bool) (pay : List Byte) (d : Dev) : Dev :=
  let e := leaveCounts q pay.length d
  ontoLink q p.frees (packetBytes p.typ (e.qClass q) q (d.qGet q 3 15 0) p.tag (if p.time.isSome then e.time.tick else p.aux)
    p.replay urgent pay) e

theorem packetSent_rules (q : Nat) (p : Pkt) (urgent : Bool) (pay : List Byte) (d : Dev) :
    ∃ bs : List Byte, bs.length = pay.length + 20 ∧ (packetSent q p urgent pay d).link = (true, bs, d.hlp.strm) ∧
      (packetSent q p urgent pay d).qUsed q = (d.qUsed q + credits pay.length) % 2 ^ 32 := by
  unfold packetSent
  dsimp only
  obtain ⟨hlink, hused⟩ := ontoLink_rules q p.frees (packetBytes p.typ ((leaveCounts q pay.length d).qClass q) q (d.qGet q 3 15 0)
    p.tag (if p.time.isSome then (leaveCounts q pay.length d).time.tick else p.aux) p.replay urgent pay) (leaveCounts q pay.length d)
  rw [hlp_leaveCounts] at hlink
  exact ⟨_, length_packetBytes .., hlink, hused.trans (qUsed_leaveCounts ..)⟩

/-- The head packet of a queue. -/
theorem grps_of_head {x : QueueSt} {p : Pkt} (h : x.head = some p) : ∃ g gs t, x.grps = g :: gs ∧ g.pkts = p :: t := by
  unfold QueueSt.head at h
  obtain ⟨g, hg, hp⟩ := Option.bind_eq_some_iff.mp h
  obtain ⟨gs, hgs⟩ := List.head?_eq_some_iff.mp hg
  obtain ⟨t, ht⟩ := List.head?_eq_some_iff.mp hp
  exact ⟨g, gs, t, hgs, ht⟩

theorem dlvSend_head {q : Nat} {g : PGrp} {gs : List PGrp} {p : Pkt} {t : List Pkt} {d : Dev} (urgent : Bool)
    (hgrps : (d.queue q).grps = g :: gs) (hpkts : g.pkts = p :: t) : dlvSend q urgent d =
      packetSent q p urgent
        (finalPayload q p (urgentEnd q (d.mapQueue q fun x =>
          { x with grps := if t.isEmpty && g.closed then gs else { g with pkts := t } :: gs }))).1
        (finalPayload q p (urgentEnd q (d.mapQueue q fun x =>
          { x with grps := if t.isEmpty && g.closed then gs else { g with pkts := t } :: gs }))).2 := by
  unfold dlvSend
  rw [hgrps]
  dsimp only
  rw [hpkts]
  rfl

theorem dlvSend_rules {q : Nat} {p : Pkt} {d : Dev} (urgent : Bool) (h : (d.queue q).head = some p) (htime : p.time = none)
    (hlen : p.typ ≠ 0x02 ∨ 56 ≤ p.payload.length) : ∃ bs : List Byte, bs.length = p.len + 20 ∧
      (dlvSend q urgent d).link = (true, bs, d.hlp.strm) ∧
      (dlvSend q urgent d).qUsed q = (d.qUsed q + credits p.len) % 2 ^ 32 := by
  obtain ⟨g, gs, t, hgrps, hpkts⟩ := grps_of_head h
  have hend : ∀ l, (urgentEnd q (d.mapQueue q fun x => { x with grps := l })).regs = d.regs ∧
      (urgentEnd q (d.mapQueue q fun x => { x with grps := l })).hlp = d.hlp := fun l => regs_urgentEnd ..
  rw [dlvSend_head urgent hgrps hpkts]
  generalize (if t.isEmpty && g.closed then gs else { g with pkts := t } :: gs) = l
  obtain ⟨hregs, hhlp⟩ := hend l
  generalize urgentEnd q (d.mapQueue q fun x => { x with grps := l }) = b at hregs hhlp
  obtain ⟨hpay, hused, hb⟩ := finalPayload_rules (q := q) (d := b) htime hlen
  have hsame : b.qUsed q = d.qUsed q := qGet_congr (Dev.word_congr hregs _) 31 0
  obtain ⟨bs, hbs, hlink, hcount⟩ := packetSent_rules q p urgent (finalPayload q p b).1 (finalPayload q p b).2
  rw [hpay] at hbs
  rw [hb, hhlp] at hlink
  rw [hused, hsame, hpay] at hcount
  exact ⟨bs, hbs, hlink, hcount⟩

theorem dlvChoose_control {d : Dev} {q : Nat} {p : Pkt}
    (h : oldest ((dlvRearm d).eligible.filter fun e => (dlvRearm d).qClass e.1 = 0) = some (q, p)) :
    ∃ x : Option (Nat × Nat), dlvChoose d = some (q, false, (dlvRearm d).onDlv fun s => { s with urgent := x }) := by
  have hclass : ∀ x : Option (Nat × Nat), oldest ((dlvRearm d).eligible.filter fun e =>
      ((dlvRearm d).onDlv fun s => { s with urgent := x }).qClass e.1 = 0) = some (q, p) := fun _ => h
  unfold dlvChoose
  dsimp only
  generalize ((dlvRearm d).dlv.urgent.bind fun u =>
    ((dlvRearm d).eligible.find? fun e => e.1 = u.1 && decide (e.2.size ≤ u.2)).map fun e => (e, u.2)) = going
  cases going with
  | none =>
    simp only [Option.isNone_none, if_true]
    rw [hclass none]
    exact ⟨none, rfl⟩
  | some g =>
    simp only [Option.isNone_some, Bool.false_eq_true, if_false]
    rw [h]
    exact ⟨(dlvRearm d).dlv.urgent, rfl⟩

theorem peBatch_off {e : Nat} {d : Dev} (h : d.peDmaOn e = false) : peBatch e d = d :=
  if_neg fun hon => by rw [h] at hon; exact Bool.false_ne_true hon.1

theorem dlvGrant_control {d : Dev} {q : Nat} {p : Pkt} (hact : d.active .dlv = true) (hdma : ∀ e < 8, d.peDmaOn e = false)
    (hirq : d.dlv.irqW = none) (htime : d.dlv.timeW = []) (hresps : d.dlv.resps = [])
    (h : oldest ((dlvRearm d).eligible.filter fun e => (dlvRearm d).qClass e.1 = 0) = some (q, p)) :
    ∃ x : Option (Nat × Nat), dlvGrant d = dlvSettle (dlvSend q false ((dlvRearm d).onDlv fun s => { s with urgent := x })) := by
  have hbatch : (List.range 8).foldl (fun d e => peBatch e d) d = d := by
    have hfold : ∀ l : List Nat, (∀ e ∈ l, e < 8) → l.foldl (fun d e => peBatch e d) d = d := by
      intro l hl
      induction l with
      | nil => rfl
      | cons e l ih =>
        rw [List.foldl_cons, peBatch_off (hdma e (hl e List.mem_cons_self))]
        exact ih fun m hm => hl m (List.mem_cons_of_mem e hm)
    exact hfold _ fun e he => List.mem_range.mp he
  obtain ⟨x, hx⟩ := dlvChoose_control h
  unfold dlvGrant
  rw [if_neg (by rw [hact]; decide), hbatch, dlvSettle_none hirq htime hresps]
  dsimp only
  rw [hx]
  exact ⟨x, rfl⟩

/-! ## Entries -/

theorem queueWrite_entry {q : Fin 8192} {w : Nat} (hw : w < 8) (hq : q ≠ 0) (p : Port) (v : Word) (d : Dev) :
    queueWrite p (BitVec.ofNat 24 (qAddr q w)) v d = if w = 0 then queueWord0 p q (BitVec.ofNat 24 (qAddr q w)) v d
      else if w = 1 then d.qSet q 1 31 0 v.toNat else d := by
  have hq0 : q.val ≠ 0 := fun h => hq (Fin.ext h)
  unfold queueWrite
  rw [decodeAddr_queue q hw]
  exact if_neg hq0

/-- An entry's first word as a queue is enabled. -/
def entryWord (q : Nat) (v : Word) (d : Dev) : Dev :=
  ((((d.qSet q 0 24 16 (bitsOf v 24 16)).qSet q 0 15 8 (bitsOf v 15 8)).qSet q 0 6 4 (bitsOf v 6 4)).qSet q 0 3 1
    (bitsOf v 3 1)).qSet q 0 0 0 (bitsOf v 0 0)

theorem queueWord0_enables {q : Nat} {v : Word} {d : Dev} (p : Port) (a : BitVec 24) (hoff : d.qEn q = false)
    (hen : bitsOf v 0 0 = 1) (hcap : bitsOf v 24 16 ≤ 256) (hmax : bitsOf v 6 4 ≤ 4) :
    queueWord0 p q a v d = ((entryWord q v d).qSet q 2 31 0 0).qSet q 3 15 0 0 := by
  have hc : decide (256 < bitsOf v 24 16) = false := decide_eq_false (by omega)
  have hm : decide (4 < bitsOf v 6 4) = false := decide_eq_false (by omega)
  unfold queueWord0
  dsimp only
  simp only [hoff, hc, hm, hen, Bool.and_false, Bool.not_false, Bool.false_eq_true, if_false, or_self, and_self, if_true, false_and]
  rw [entryWord, hen]

theorem qSet_bits (d : Dev) (q : Nat) {hi lo : Nat} (v : Word) (h : lo ≤ hi) (h32 : hi < 32) :
    (d.qSet q 0 hi lo (bitsOf v hi lo)).qGet q 0 hi lo = bitsOf v hi lo :=
  (qGet_qSet_same _ _ _ _ h h32).trans (Nat.mod_eq_of_lt (bitsOf_lt ..))

theorem bitsOf_class (w : Word) : bitsOf w 2 1 = bitsOf w 3 1 % 4 :=
  (Nat.mod_mod_of_dvd (w.toNat / 2 ^ 1) (by decide : 2 ^ (2 - 1 + 1) ∣ 2 ^ (3 - 1 + 1))).symm

/-- What an enabling write leaves in the entry. -/
theorem entryWord_fields (q : Nat) (v : Word) (d : Dev) :
    (entryWord q v d).qGet q 0 0 0 = bitsOf v 0 0 ∧ (entryWord q v d).qGet q 0 24 16 = bitsOf v 24 16 ∧
      (entryWord q v d).qGet q 0 15 8 = bitsOf v 15 8 ∧ (entryWord q v d).qGet q 0 2 1 = bitsOf v 2 1 := by
  have hclass : (entryWord q v d).qGet q 0 3 1 = bitsOf v 3 1 := by
    rw [entryWord, qGet_qSet_bits _ _ _ _ (by decide) (by decide) (by decide) (by decide), qSet_bits _ _ _ (by decide) (by decide)]
  refine ⟨qSet_bits _ _ _ (by decide) (by decide), ?_, ?_, ?_⟩
  · rw [entryWord, qGet_qSet_bits _ _ _ _ (by decide) (by decide) (by decide) (by decide),
      qGet_qSet_bits _ _ _ _ (by decide) (by decide) (by decide) (by decide),
      qGet_qSet_bits _ _ _ _ (by decide) (by decide) (by decide) (by decide),
      qGet_qSet_bits _ _ _ _ (by decide) (by decide) (by decide) (by decide), qSet_bits _ _ _ (by decide) (by decide)]
  · rw [entryWord, qGet_qSet_bits _ _ _ _ (by decide) (by decide) (by decide) (by decide),
      qGet_qSet_bits _ _ _ _ (by decide) (by decide) (by decide) (by decide),
      qGet_qSet_bits _ _ _ _ (by decide) (by decide) (by decide) (by decide), qSet_bits _ _ _ (by decide) (by decide)]
  · rw [Dev.qGet, bitsOf_class, ← Dev.qGet, hclass, bitsOf_class]

theorem onlyRegs_entryWord (q : Nat) (v : Word) (d : Dev) : onlyRegs d (entryWord q v d) [qAddr q 0] :=
  onlyRegs_trans (onlyRegs_trans (onlyRegs_trans (onlyRegs_trans (onlyRegs_qSet ..) (onlyRegs_qSet ..)) (onlyRegs_qSet ..))
    (onlyRegs_qSet ..)) (onlyRegs_qSet ..)

end Sys2Proof.Machine

open Sys2Proof Sys2Proof.Machine

/-- Settles O37: what enters a queue and what is dropped, what a grant sends, and the entries' words. -/
theorem deliveryMovesPackets : Obligations.DeliveryMovesPackets := by
  refine ⟨fun s h => ?none, fun q typ tag aux pay t s h htake => ?taken, fun q typ tag aux pay t s h htake => ?dropped,
    fun k t s h hact hb => ?unbound, fun k t s h hact hb hbuf => ?begun,
    fun q p d0 s hact hdma hirq htime hresps hd0 hold hhead hp hlen => ?grants, fun s hact => ?inactive,
    fun p q v s h hq => ?limit, fun p q v s h hq hoff hen hcap hmax => ?enables, fun s hact hper => ?periodic,
    fun p s h => ?timeSend⟩
  case none =>
    refine runs_onDev (c := .dlvEnqueue) (f := dlvEnqueue) rfl ?_
    unfold dlvEnqueue
    rw [h]
  case taken =>
    have henq := (dlvEnqueue_stat h).trans (statEnqueue_taken (d := { s.dev with reqs := t }) typ tag aux htake)
    exact ⟨_, _, runs_onDev (c := .dlvEnqueue) rfl henq, (congrArg Dev.reqs (takeDlv_dlvPut ..)).trans rfl,
      congrArg QueueSt.grps (queue_dlvPut_same ..), rfl, rfl, fun r hr => queue_dlvPut_ne _ _ _ _ hr⟩
  case dropped =>
    have henq := (dlvEnqueue_stat h).trans (statEnqueue_dropped (d := { s.dev with reqs := t }) typ tag aux htake)
    obtain ⟨hdlv, hcount, honly⟩ := recDropped_rules { s.dev with reqs := t }
    exact ⟨_, runs_onDev (c := .dlvEnqueue) rfl henq, hdlv, hcount, onlyWords_trans (onlyWords_of_regs rfl _) honly⟩
  case unbound =>
    have henq := (dlvEnqueue_start h).trans (startEnqueue_unbound (d := { s.dev with reqs := t }) hact hb)
    obtain ⟨hdead, hqueues, hcount, honly⟩ := unboundDev_rules k { s.dev with reqs := t }
    exact ⟨_, runs_onDev (c := .dlvEnqueue) rfl henq, hdead, hqueues, hcount, onlyWords_trans (onlyWords_of_regs rfl _) honly⟩
  case begun =>
    have henq := (dlvEnqueue_start h).trans (startEnqueue_begun (d := { s.dev with reqs := t }) hact hb hbuf)
    obtain ⟨hreqs, hbegun, hgrps⟩ := begunDev_rules k { s.dev with reqs := t }
    exact ⟨_, startGrp k { s.dev with reqs := t }, runs_onDev (c := .dlvEnqueue) rfl henq, hreqs, hbegun, rfl, rfl, hgrps⟩
  case grants =>
    subst hd0
    obtain ⟨x, hx⟩ := dlvGrant_control hact hdma hirq htime hresps hold
    obtain ⟨bs, hbs, hlink, hused⟩ := dlvSend_rules (d := (dlvRearm s.dev).onDlv fun y => { y with urgent := x }) false hhead hp hlen
    have hl := (dlvSettle_keeps link_keptBySettling _).trans hlink
    have hu := (dlvSettle_keeps (used_keptBySettling q) _).trans hused
    have hrearm : ((dlvRearm s.dev).onDlv fun y => { y with urgent := x }).qUsed q = s.dev.qUsed q :=
      qGet_congr (Dev.word_congr (regs_dlvRearm _) _) 31 0
    rw [← hx] at hl hu
    rw [hrearm] at hu
    refine ⟨_, runs_onDev (c := .dlvGrant) (f := dlvGrant) rfl rfl, busy_of_link hl, ?_, hu, ?_⟩
    · rw [last_of_link hl, hbs]
    · rw [strm_of_link hl, Dev.onDlv_hlp, hlp_dlvRearm]
  case inactive => exact runs_onDev (c := .dlvGrant) (f := dlvGrant) rfl (if_pos hact)
  case limit =>
    have hr := runs_gateWrite (c := .queueEntryWrite p (BitVec.ofNat 24 (qAddr q 1)) v)
      (f := queueWrite p (BitVec.ofNat 24 (qAddr q 1)) v) rfl h
    rw [queueWrite_entry (by decide) hq, if_neg (by decide), if_pos rfl] at hr
    refine ⟨_, hr, ?_, onlyRegs_qSet ..⟩
    exact (qGet_qSet_same _ _ _ _ (by decide) (by decide)).trans (Nat.mod_eq_of_lt v.isLt)
  case enables =>
    have hr := runs_gateWrite (c := .queueEntryWrite p (BitVec.ofNat 24 (qAddr q 0)) v)
      (f := queueWrite p (BitVec.ofNat 24 (qAddr q 0)) v) rfl h
    rw [queueWrite_entry (by decide) hq, if_pos rfl, queueWord0_enables _ _ hoff hen hcap hmax] at hr
    have hq0 : q.val ≠ 0 := fun h => hq (Fin.ext h)
    have hword : ∀ hi lo, (((entryWord q v s.dev).qSet q 2 31 0 0).qSet q 3 15 0 0).qGet q 0 hi lo =
        (entryWord q v s.dev).qGet q 0 hi lo := fun hi lo => by
      rw [qGet_qSet_word _ _ _ _ _ _ _ _ (by decide) (by decide) (by decide),
        qGet_qSet_word _ _ _ _ _ _ _ _ (by decide) (by decide) (by decide)]
    obtain ⟨hEn, hCap, hWeight, hClass⟩ := entryWord_fields q v s.dev
    refine ⟨_, hr, ?_, ?_, ?_, (hword ..).trans hWeight, ?_, ?_⟩
    · rw [Dev.qEn, hword, hEn, hen]
      simp
    · rw [qUsed_qSet_word _ _ _ _ _ _ (by decide) (by decide)]
      exact qGet_qSet_same _ _ _ _ (by decide) (by decide)
    · rw [Dev.qCap, hword, hCap]
    · rw [Dev.qClass, if_neg hq0, hword, hClass]
    · exact onlyRegs_trans (onlyRegs_trans (onlyRegs_mono (onlyRegs_entryWord ..) (by simp))
        (onlyRegs_mono (onlyRegs_qSet ..) (by simp))) (onlyRegs_mono (onlyRegs_qSet ..) (by simp))
  case periodic => exact runs_onDev (c := .timePeriodic) rfl (if_pos ⟨hact, hper⟩)
  case timeSend => exact runs_gatePage (c := .timeSend p) (f := fun d => d.sendTime 3) rfl h
end

section
/-! SUPPORT. Proofs about host packets (R401, R410, R417 to R424): what a good packet does, what one that fails its checks
counts, and what the timers of bring-up send. -/
namespace Sys2Proof.Machine

/-! ## Register requests -/

theorem hostWrite_one {h : HostHdr} {pay : List Byte} {w : Word} {x : Dev × Recorder} (vt : Vault) (hm : h.malformed true = false)
    (ho : x.1.portOpen .inband = true) (hack : h.noAck = true) (hw : wordsOf pay = [w]) :
    hostWrite vt h pay x = writeWord vt .inband h.addr w x := by
  have hone := writeWords_one vt .inband h.next h.addr w x
  unfold hostWrite
  dsimp only
  rw [if_neg (by rw [hm]; decide), if_neg (by rw [ho]; decide), hw]
  generalize writeWords vt .inband h.next h.addr [w] x = y at hone
  obtain ⟨y, b⟩ := y
  dsimp only at hone ⊢
  rw [if_pos hack, ite_self, hone]

/-- What a register write does with the packet in front. -/
def regWrFront (s : State) (h : HostHdr) (pay : List Byte) (d : Dev) : Dev × Recorder :=
  if d.serves = false then (d, s.evr)
  else match hostHold h d with
  | some d => hostWrite s.vault h pay (d, s.evr)
  | none => (hostOverflow d, s.evr)

theorem exec_hostRegWr {s : State} {h : HostHdr} {pay : List Byte} {d : Dev} (hf : hostFront 0x10 s.dev = some (h, pay, d)) :
    exec .hostRegWr s = .next { s with dev := (regWrFront s h pay d).1, evr := (regWrFront s h pay d).2 } := by
  have hexec : exec .hostRegWr s = execHostRegWr s := rfl
  rw [hexec]
  unfold execHostRegWr onAccess onRec
  dsimp only
  rw [hf]
  rfl

theorem exec_hostRegRd {s : State} {h : HostHdr} {pay : List Byte} {d : Dev} (hf : hostFront 0x11 s.dev = some (h, pay, d)) :
    runs .hostRegRd s (if d.serves = false then d else match hostHold h d with
      | some d => hostRead s.evr s.vault h d
      | none => hostOverflow d) := by
  have hexec : exec .hostRegRd s = execHostRegRd s := rfl
  unfold runs
  rw [hexec]
  unfold execHostRegRd onDevR
  dsimp only
  rw [hf] <;> rfl

theorem exec_hostRegWr_none {s : State} (hf : hostFront 0x10 s.dev = none) : runs .hostRegWr s s.dev := by
  have hexec : exec .hostRegWr s = execHostRegWr s := rfl
  unfold runs
  rw [hexec]
  unfold execHostRegWr onAccess onRec
  dsimp only
  rw [hf]

theorem exec_hostRegRd_none {s : State} (hf : hostFront 0x11 s.dev = none) : runs .hostRegRd s s.dev := by
  have hexec : exec .hostRegRd s = execHostRegRd s := rfl
  unfold runs
  rw [hexec]
  unfold execHostRegRd onDevR
  dsimp only
  rw [hf]

theorem hostHold_room {h : HostHdr} {d : Dev} (hroom : d.hlp.held + h.len + 20 ≤ 65536) :
    hostHold h d = some { d with hlp := { d.hlp with held := d.hlp.held + h.len + 20 } } := if_neg (by omega)

theorem hostHold_full {h : HostHdr} {d : Dev} (hfull : 65536 < d.hlp.held + h.len + 20) : hostHold h d = none := if_pos hfull

theorem overflow_rules (d : Dev) : (hostOverflow d).f HLP_RX_OVF = (d.f HLP_RX_OVF + 1) % 2 ^ 32 ∧
    onlyRaised d (hostOverflow d) [HLP_RX_OVF.addr 0 0, Page.hlp.base + 0x10] :=
  ⟨(Dev.fi_raiseBits _ _ _ _ _ _ (by decide)).trans (Dev.fi_bumpI_same d rfl rfl 0 0),
    onlyRaised_trans (onlyRaised_setFi d (F := HLP_RX_OVF) (i := 0) (k := 0) (by decide) _)
      (onlyRaised_raiseBits _ (p := .hlp) (by decide) _)⟩

theorem out_keptBySettling : KeptBySettling Dev.out where
  put _ _ _ := (congrArg Dev.out (takeDlv_dlvPut ..)).trans rfl
  irq _ _ := rfl
  time _ _ := rfl
  resps _ _ := rfl

theorem given_respond (h : HostHdr) (status count : Nat) (ws : List Word) (p : Port) (d : Dev) :
    (respond h status count ws d).given p = d.given p := by
  have hout : (respond h status count ws d).out = d.out := (dlvSettle_keeps out_keptBySettling _).trans rfl
  unfold Dev.given
  rw [hout]

theorem given_hostRead {h : HostHdr} {d : Dev} (r : Recorder) (v : Vault) (hm : h.malformed false = false) :
    ((hostRead r v h d).given .inband).length = h.count := by
  have hlen := readWords_length r v .inband h.next h.count h.addr d
  unfold hostRead
  rw [if_neg (by rw [hm]; decide)]
  generalize readWords r v .inband h.next h.count h.addr d = y at hlen
  obtain ⟨ws, e⟩ := y
  dsimp only
  rw [given_respond]
  exact hlen

/-! ## Credit -/

theorem creditAll_one {bs : List Byte} (h : bs.length = 8) (n : Nat) (d : Dev) : creditAll (n + 2) bs d =
    creditEntry (natOfBytes (bs.take 2) % 8192) (natOfBytes ((bs.drop 4).take 4)) d := by
  have hrest : ∀ e : Dev, creditAll (n + 1) (bs.drop 8) e = e := fun e => by
    unfold creditAll
    exact if_pos (by rw [List.length_drop]; omega)
  rw [creditAll, if_neg (by omega), hrest]

theorem creditEntry_back {q v : Nat} {d : Dev} (hq : q ≠ 0) (h : 2 ^ 31 ≤ (v + 2 ^ 32 - d.qLimit q) % 2 ^ 32) :
    creditEntry q v d = (d.bump DLV_CREDIT_BACK).raise DLV_IRQ_RAW_CREDIT_BACK := by rw [creditEntry, if_neg hq, if_pos h]

theorem creditEntry_on {q v : Nat} {d : Dev} (hq : q ≠ 0) (h : ¬2 ^ 31 ≤ (v + 2 ^ 32 - d.qLimit q) % 2 ^ 32) :
    creditEntry q v d = d.qSet q 1 31 0 v := by rw [creditEntry, if_neg hq, if_neg h]

theorem creditBack_rules (q : Nat) (d : Dev) :
    ((d.bump DLV_CREDIT_BACK).raise DLV_IRQ_RAW_CREDIT_BACK).qLimit q = d.qLimit q ∧
    ((d.bump DLV_CREDIT_BACK).raise DLV_IRQ_RAW_CREDIT_BACK).f DLV_CREDIT_BACK = (d.f DLV_CREDIT_BACK + 1) % 2 ^ 32 := by
  have honly : onlyWords d ((d.bump DLV_CREDIT_BACK).raise DLV_IRQ_RAW_CREDIT_BACK) [DLV_CREDIT_BACK.addr 0 0, Page.dlv.base + 0x10] :=
    onlyWords_trans (onlyWords_setFi d (F := DLV_CREDIT_BACK) (i := 0) (k := 0) (by decide) _)
      (onlyWords_raiseBits _ (p := .dlv) (by decide) _)
  have hlow : ∀ a ∈ [DLV_CREDIT_BACK.addr 0 0, Page.dlv.base + 0x10], a < 0x140000 := by decide
  have hhigh := qAddr_high q 1
  refine ⟨qGet_of_onlyWords honly (fun hmem => ?_) 31 0,
    (Dev.fi_raiseBits _ _ _ _ _ _ (by decide)).trans (Dev.fi_bumpI_same d rfl rfl 0 0)⟩
  have hlt := hlow _ hmem
  omega

theorem hostTake_some {t : Nat} {h : HostHdr} {pay : List Byte} {d e : Dev} (f : HostHdr → List Byte → Dev → Dev)
    (hf : hostFront t d = some (h, pay, e)) : hostTake t f d = f h pay e := by rw [hostTake, hf]

theorem hostTake_none {t : Nat} {d : Dev} (f : HostHdr → List Byte → Dev → Dev) (hf : hostFront t d = none) :
    hostTake t f d = d := by rw [hostTake, hf]

/-! ## Errors -/

theorem hostError_header {d : Dev} (hst : d.hlState = hlUP) (hs : d.hlp.search = false) (hlen : 16 ≤ d.hostStream.length)
    (hdec : hostDecode d.hostStream = none) :
    ∃ bs b, hostError d = ((d.bump HLP_RX_ERR).raise HLP_IRQ_RAW_RX_ERR).setStrm bs b := by
  unfold hostError
  dsimp only
  rw [if_neg fun h => h.2 hst, if_neg (by rw [hs]; decide), if_neg (by omega), hdec]
  exact ⟨_, _, rfl⟩

theorem regs_setStrm (d : Dev) (bs : List Byte) (b : Bool) : (d.setStrm bs b).regs = d.regs := rfl

/-! ## Timers of bring-up -/

theorem helloPayload_rules (d : Dev) : (helloPayload d).1.length = 32 ∧ (helloPayload d).2.regs = d.regs ∧
    (helloPayload d).2.dlv = d.dlv := by
  unfold helloPayload
  dsimp only
  split
  · refine ⟨?_, rfl, rfl⟩
    simp only [List.length_append, u8, u16, u32, u64, length_bytesLE]
  · refine ⟨?_, rfl, rfl⟩
    simp only [List.length_append, u8, u16, u32, u64, length_bytesLE]

/-- A HELLO enters queue 0. -/
theorem sendHello_rules (d : Dev) : ∃ p : Pkt, ((sendHello d).queue 0).grps = (d.queue 0).grps ++ [{ pkts := [p] }] ∧
    p.typ = 1 ∧ p.payload.length = 32 ∧ (sendHello d).hlState = d.hlState := by
  obtain ⟨hlen, hregs, hdlv⟩ := helloPayload_rules d
  unfold sendHello
  generalize helloPayload d = y at hlen hregs hdlv
  obtain ⟨pay, e⟩ := y
  dsimp only at hlen hregs hdlv ⊢
  refine ⟨{ kind := .control, typ := 0x01, aux := e.tickLow, since := e.cyc, payload := pay },
    (congrArg QueueSt.grps (queue_dlvPut_same ..)).trans ?_, rfl, hlen, ?_⟩
  · rw [queue_of_dlv hdlv]
  · have hstate : HLP_STAT_STATE.addr 0 0 ∉ bufWords 0 := low_not_mem_bufWords 0 (.inr (by decide))
    exact (fi_of_onlyWords (onlyWords_dlvPut 0 _ e) hstate).trans (Dev.fi_congr hregs ..)

theorem hlTo_state {st : Nat} (hst : st < 4) (d : Dev) : (hlTo st d).hlState = st := by
  unfold hlTo
  split
  case isTrue h => exact h
  case isFalse =>
    exact (Dev.fi_congr (Dev.emitSrc_regs ..) ..).trans (f_setF_same d (by decide) (by decide)
      (by have hwidth : 2 ^ (HLP_STAT_STATE.hi - HLP_STAT_STATE.lo + 1) = 4 := by decide
          rwa [hwidth]))

theorem onlyWords_hlTo (st : Nat) (d : Dev) : onlyWords d (hlTo st d) [HLP_STAT_STATE.addr 0 0] :=
  onlyWords_either (onlyWords_refl d _) (onlyWords_emit (onlyWords_setFi d (List.mem_singleton.mpr rfl) _) _ _ _)

/-- Bring-up that ends without a partner begins again. -/
theorem initEnds_rules (d : Dev) : (groupRetrain 0 0 (hlTo hlTRAINING (d.bump HLP_RETRAIN))).hlState = hlTRAINING ∧
    (groupRetrain 0 0 (hlTo hlTRAINING (d.bump HLP_RETRAIN))).f HLP_RETRAIN = (d.f HLP_RETRAIN + 1) % 2 ^ 32 := by
  have hword : ∀ F : Fld, besideLanes (F.addr 0 0) → (groupRetrain 0 0 (hlTo hlTRAINING (d.bump HLP_RETRAIN))).f F =
      (hlTo hlTRAINING (d.bump HLP_RETRAIN)).f F := fun F hF => fi_of_word (word_groupRetrain hF (by decide) 0 _)
  refine ⟨(hword _ (by decide)).trans (hlTo_state (by decide) _), (hword _ (by decide)).trans ?_⟩
  exact (fi_of_onlyWords (onlyWords_hlTo hlTRAINING (d.bump HLP_RETRAIN)) (by decide)).trans (Dev.fi_bumpI_same d rfl rfl 0 0)

end Sys2Proof.Machine

open Sys2Proof Sys2Proof.Machine

/-- Settles O38: a packet in front acts as its type has it, and the timers act in INIT alone. -/
theorem hostPacketsAreServed : Obligations.HostPacketsAreServed := by
  refine ⟨fun h pay w a d1 s hf hs hroom hm ho hack ha hw => ?write, fun h pay d1 s hf hs hfull => ?overflow,
    fun h pay d1 s hf hs hroom hm => ?read, fun c t h pay d1 s hc hf hs => ?unserved,
    fun h pay d1 q v s hf hlen hq hv hq0 => ?credit, fun c t s hc hf => ?nothing, fun s hst hse hlen hdec => ?error,
    fun s hst => ?hello, fun s hst => ?ends, fun c s hc hst => ?idle⟩
  case write =>
    obtain ⟨t, ht, -⟩ := exec_answers .hostRegWr s
    refine ⟨(exec_hostRegWr hf).trans ?_, t, ht⟩
    have hfront : regWrFront s h pay d1 = writeWord s.vault .inband a.toNat w
        ({ d1 with hlp := { d1.hlp with held := d1.hlp.held + h.len + 20 } }, s.evr) := by
      unfold regWrFront
      rw [if_neg (by rw [hs]; decide), hostHold_room hroom, ← ha]
      exact hostWrite_one _ hm ho hack hw
    rw [hfront]
    rfl
  case overflow =>
    have hfront : regWrFront s h pay d1 = (hostOverflow d1, s.evr) := by
      unfold regWrFront
      rw [if_neg (by rw [hs]; decide), hostHold_full hfull]
    have hr := exec_hostRegWr hf
    rw [hfront] at hr
    obtain ⟨hcount, honly⟩ := overflow_rules d1
    exact ⟨_, hr, hcount, honly⟩
  case read =>
    have hr := exec_hostRegRd hf
    rw [if_neg (by rw [hs]; decide), hostHold_room hroom] at hr
    exact ⟨_, hr, given_hostRead _ _ hm⟩
  case unserved =>
    simp only [List.mem_cons, Prod.mk.injEq, List.not_mem_nil, or_false] at hc
    obtain ⟨rfl, rfl⟩ | ⟨rfl, rfl⟩ := hc
    · have hr := exec_hostRegWr hf
      rwa [regWrFront, if_pos hs] at hr
    · have hr := exec_hostRegRd hf
      rwa [if_pos hs] at hr
  case credit =>
    have hr := runs_onDev (c := .hostCredit) (s := s) rfl (hostTake_some (fun _ pay => creditAll 512 pay) hf)
    rw [creditAll_one hlen 510, ← hq, ← hv] at hr
    refine ⟨_, hr, ?_⟩
    split
    case isTrue hback =>
      rw [creditEntry_back hq0 hback]
      exact creditBack_rules q d1
    case isFalse hback =>
      rw [creditEntry_on hq0 hback]
      have hlt : v < 2 ^ 32 := by
        rw [hv]
        exact (natOfBytes_lt _).trans_le (Nat.pow_le_pow_right (n := 256) (by decide) (List.length_take_le 4 _))
      exact ⟨(qGet_qSet_same _ _ _ _ (by decide) (by decide)).trans (Nat.mod_eq_of_lt hlt), onlyRegs_qSet ..⟩
  case nothing =>
    simp only [List.mem_cons, Prod.mk.injEq, List.not_mem_nil, or_false] at hc
    obtain ⟨rfl, rfl⟩ | ⟨rfl, rfl⟩ | ⟨rfl, rfl⟩ := hc
    · exact exec_hostRegWr_none hf
    · exact exec_hostRegRd_none hf
    · exact runs_onDev (c := .hostCredit) rfl (hostTake_none (fun _ pay => creditAll 512 pay) hf)
  case error =>
    obtain ⟨bs, b, herr⟩ := hostError_header hst hse hlen hdec
    refine ⟨_, runs_onDev (c := .hostPacketError) rfl herr, ?_, ?_⟩
    · exact (Dev.fi_congr (regs_setStrm ..) ..).trans ((Dev.fi_raiseBits _ _ _ _ _ _ (by decide)).trans
        (Dev.fi_bumpI_same s.dev rfl rfl 0 0))
    · exact onlyWords_regs (onlyWords_trans (onlyWords_setFi _ (F := HLP_RX_ERR) (i := 0) (k := 0) (by decide) _)
        (onlyWords_raiseBits _ (p := .hlp) (by decide) _)) (regs_setStrm ..)
  case hello =>
    obtain ⟨p, hgrps, htyp, hlen, hstate⟩ := sendHello_rules s.dev
    exact ⟨_, p, runs_onDev (c := .hlpHelloTimer) rfl (if_pos hst), hgrps, htyp, hlen, hstate.trans hst⟩
  case ends =>
    obtain ⟨hstate, hcount⟩ := initEnds_rules s.dev
    exact ⟨_, runs_onDev (c := .hlpInitTimeout) rfl (if_pos hst), hstate, hcount⟩
  case idle =>
    simp only [List.mem_cons, List.not_mem_nil, or_false] at hc
    obtain rfl | rfl := hc
    · exact runs_onDev rfl (if_neg hst)
    · exact runs_onDev rfl (if_neg hst)
end

section
/-! SUPPORT. What a link takes with it when its lanes fail (R275, R422): the layers above change, the lane groups and the
rest of the device do not. -/
namespace Sys2Proof.Machine

/-- `d` with the layers above the lanes of `x`: registers, requests, events, frames, ports, queues and host link. -/
abbrev takeLink (x d : Dev) : Dev :=
  { d with regs := x.regs, reqs := x.reqs, evq := x.evq, com := x.com, refs := x.refs, frames := x.frames, tx := x.tx,
           sp := x.sp, dlv := x.dlv, hlp := x.hlp }

/-- A change of the layers above the lanes alone, which takes no event and no request back. -/
structure OnlyLink (d e : Dev) : Prop where
  same : e = takeLink e d
  evq : d.evq <+: e.evq
  reqs : d.reqs <+: e.reqs

theorem OnlyLink.refl (d : Dev) : OnlyLink d d := ⟨rfl, List.prefix_rfl, List.prefix_rfl⟩

theorem OnlyLink.trans {d e g : Dev} (h : OnlyLink d e) (h' : OnlyLink e g) : OnlyLink d g :=
  ⟨frame_trans takeLink (fun _ _ _ => rfl) h.same h'.same, h.evq.trans h'.evq, h.reqs.trans h'.reqs⟩

/-- A change that neither adds an event nor a request. -/
theorem OnlyLink.of {d e : Dev} (h : e = takeLink e d) (hevq : e.evq = d.evq) (hreqs : e.reqs = d.reqs) : OnlyLink d e :=
  ⟨h, hevq ▸ List.prefix_rfl, hreqs ▸ List.prefix_rfl⟩

theorem OnlyLink.ite {c : Prop} [Decidable c] {d x y : Dev} (hx : OnlyLink d x) (hy : OnlyLink d y) :
    OnlyLink d (if c then x else y) := by
  split
  · exact hx
  · exact hy

theorem OnlyLink.foldl {α : Type} {f : Dev → α → Dev} (h : ∀ d x, OnlyLink d (f d x)) (l : List α) (d : Dev) :
    OnlyLink d (l.foldl f d) := by
  induction l generalizing d with
  | nil => exact .refl d
  | cons x l ih => exact (h d x).trans (ih _)

/-- A part of the device below the layers that change. -/
theorem OnlyLink.keeps {d e : Dev} (h : OnlyLink d e) {β : Type} (part : Dev → β) (hpart : ∀ x d, part (takeLink x d) = part d) :
    part e = part d := (congrArg part h.same).trans (hpart e d)

/-- An interrupt adds at most its packets to the requests. -/
theorem reqs_raiseBits (d : Dev) (p : Page) (b : Word) : d.reqs <+: (d.raiseBits p b).reqs := by
  unfold Dev.raiseBits irqPackets
  dsimp only
  split
  · exact List.prefix_append ..
  · exact List.prefix_rfl

section
variable {d : Dev}

theorem onlyLink_raiseBits (p : Page) (b : Word) : OnlyLink d (d.raiseBits p b) :=
  ⟨frame_mono takeRaised takeLink (fun _ _ => rfl) (takeRaised_raiseBits d p b), Dev.raiseBits_evq d p b ▸ List.prefix_rfl,
    reqs_raiseBits d p b⟩

theorem onlyLink_setFi (F : Fld) (i k v : Nat) : OnlyLink d (d.setFi F i k v) := .of rfl rfl rfl

theorem onlyLink_emit (code : Nat) (p : Page) (b : List Byte) : OnlyLink d (d.emit code p b) :=
  ⟨rfl, List.prefix_append .., List.prefix_rfl⟩

theorem onlyLink_setPort (p : Nat) (x : SpSt) : OnlyLink d (d.setPort p x) := .of rfl rfl rfl

theorem onlyLink_setVs (p v : Nat) (x : VsSt) : OnlyLink d (d.setVs p v x) := .of rfl rfl rfl

theorem onlyLink_mapFrame (u : Nat) (f : Frame → Frame) : OnlyLink d (d.mapFrame u f) := .of rfl rfl rfl

theorem onlyLink_onDlv (f : DlvSt → DlvSt) : OnlyLink d (d.onDlv f) := .of rfl rfl rfl

theorem onlyLink_mapQueue (q : Nat) (f : QueueSt → QueueSt) : OnlyLink d (d.mapQueue q f) := .of rfl rfl rfl

theorem onlyLink_qSet (q w hi lo v : Nat) : OnlyLink d (d.qSet q w hi lo v) := .of rfl rfl rfl

theorem onlyLink_sendCredit (p : Nat) (ps : List (List Byte)) : OnlyLink d (sendCredit p ps d) :=
  .of (frame_mono takeSent takeLink (fun _ _ => rfl) (takeSent_sendCredit p ps d)) (sendCredit_keeps Dev.evq (fun _ _ => rfl) ..)
    (sendCredit_keeps Dev.reqs (fun _ _ => rfl) ..)

theorem onlyLink_bufRegs (q : Nat) : OnlyLink d (bufRegs q d) :=
  .of (frame_mono takeDlv takeLink (fun _ _ => rfl) (takeDlv_bufRegs q d)) (congrArg Dev.evq (takeDlv_bufRegs q d) :)
    (congrArg Dev.reqs (takeDlv_bufRegs q d) :)

/-! ## A satellite port goes down -/

theorem onlyLink_spMark (p v b : Nat) : OnlyLink d (spMark p v b d) := by
  unfold spMark
  split
  · exact .ite (.refl d) (onlyLink_mapFrame ..)
  · exact .refl d

theorem onlyLink_lineClose (p v segs : Nat) : OnlyLink d (lineClose p v segs d) := by
  unfold lineClose
  dsimp only
  refine .ite (onlyLink_spMark ..) ?_
  split
  · exact .ite (.refl d) ((onlyLink_mapFrame ..).trans (onlyLink_setVs ..))
  · exact .refl d

theorem onlyLink_reportOne (p : Nat) (f : Frame) (pay : List Byte) (bit code : Nat) {g : Dev → Dev}
    (h : ∀ d, OnlyLink d (g d)) : OnlyLink d (reportOne p f pay bit code g d) := .ite ((h d).trans (onlyLink_emit ..)) (.refl d)

theorem onlyLink_counted (F G : Fld) (p k : Nat) : OnlyLink d ((d.bumpI F p k).raiseI G p) :=
  (onlyLink_setFi ..).trans (onlyLink_raiseBits ..)

theorem onlyLink_spReport (p v u : Nat) : OnlyLink d (spReport p v u d) := by
  rw [spReport_eq]
  exact ((((onlyLink_reportOne _ _ _ _ _ fun _ => onlyLink_counted ..).trans
    (onlyLink_reportOne _ _ _ _ _ fun _ => onlyLink_counted ..)).trans
    (onlyLink_reportOne _ _ _ _ _ fun _ => onlyLink_counted ..)).trans
    (onlyLink_reportOne _ _ _ _ _ fun _ => onlyLink_raiseBits ..)).trans (onlyLink_reportOne _ _ _ _ _ fun d => .refl d)

theorem onlyLink_blockStopped (p : Page) : OnlyLink d (blockStopped p d) := .ite (.of rfl rfl rfl) (.of rfl rfl rfl)

theorem onlyLink_satBoundary : OnlyLink d (satBoundary d) := .ite (.refl d) (.foldl (fun _ p => onlyLink_blockStopped p) _ d)

theorem onlyLink_spLeave (p n : Nat) : OnlyLink d (spLeave p n d) := by
  unfold spLeave
  dsimp only
  exact .ite (((onlyLink_setPort ..).trans (onlyLink_setFi ..)).trans (onlyLink_sendCredit ..))
    ((onlyLink_setPort ..).trans (onlyLink_setFi ..))

theorem onlyLink_vsDrain (n p v : Nat) (d : Dev) : OnlyLink d (vsDrain n p v d) := by
  induction n generalizing d with
  | zero => exact .refl d
  | succ n ih =>
    unfold vsDrain
    dsimp only
    split
    case h_1 => exact (((onlyLink_mapFrame ..).trans (onlyLink_setVs ..)).trans (onlyLink_spLeave ..)).trans (ih _)
    case h_2 => exact ((onlyLink_setVs ..).trans (onlyLink_spLeave ..)).trans (ih _)
    case h_3 =>
      exact .ite (((((onlyLink_mapFrame ..).trans (onlyLink_setVs ..)).trans (onlyLink_spLeave ..)).trans
        ((onlyLink_setFi ..).trans onlyLink_satBoundary)).trans (ih _)) (.refl d)
    case h_4 => exact .refl d

theorem onlyLink_spEnter (p n : Nat) : OnlyLink d (spEnter p n d) :=
  ((onlyLink_setPort ..).trans (onlyLink_setFi ..)).trans (.ite (onlyLink_setFi ..) (.refl _))

theorem onlyLink_spStore (p v bytes : Nat) (i : SpItem) : OnlyLink d (spStore p v bytes i d) :=
  ((onlyLink_setVs ..).trans (onlyLink_spEnter ..)).trans (onlyLink_vsDrain ..)

theorem onlyLink_pauseRegs (p : Nat) : OnlyLink d (pauseRegs p d) := (onlyLink_setFi ..).trans (onlyLink_setFi ..)

theorem onlyLink_spClose (p v bytes : Nat) (noEnd : Bool) : OnlyLink d (spClose p v bytes noEnd d) := by
  unfold spClose
  dsimp only
  split
  case h_1 => exact .refl d
  case h_2 =>
    refine .ite ((onlyLink_setVs ..).trans (onlyLink_pauseRegs p)) ?_
    exact ((((onlyLink_lineClose ..).trans (.ite (onlyLink_spMark ..) (.refl _))).trans
      (.ite (onlyLink_spMark ..) (.refl _))).trans (onlyLink_spReport ..)).trans ((onlyLink_setVs ..).trans (onlyLink_spStore ..))

theorem onlyLink_spLeaveUp (p : Nat) : OnlyLink d (spLeaveUp p d) :=
  (((OnlyLink.foldl (fun _ _ => onlyLink_spClose ..) _ d).trans (.foldl (fun _ _ => onlyLink_setVs ..) _ _)).trans
    (onlyLink_pauseRegs p)).trans (onlyLink_setPort ..)

theorem onlyLink_spTrained (p : Nat) : OnlyLink d (spTrained p d) :=
  .ite ((onlyLink_setPort ..).trans (onlyLink_setFi ..)) (.refl d)

theorem onlyLink_spDown (p : Nat) : OnlyLink d (spDown p d) :=
  (OnlyLink.ite ((onlyLink_spLeaveUp p).trans (onlyLink_raiseBits ..)) (.refl d)).trans
    ((((onlyLink_setFi ..).trans (onlyLink_setFi ..)).trans (onlyLink_emit ..)).trans (onlyLink_spTrained p))

theorem onlyLink_spLaneLoss (p : Nat) : OnlyLink d (spLaneLoss p d) := .ite (onlyLink_spDown p) (.refl d)

/-! ## The host link goes down -/

theorem onlyLink_dropOn (q : Nat) : OnlyLink d (dropOn q d) :=
  ((onlyLink_qSet ..).trans ((onlyLink_setFi ..).trans (onlyLink_raiseBits ..))).trans (onlyLink_emit ..)

theorem onlyLink_hlLeaveUp : OnlyLink d (hlLeaveUp d) :=
  (((OnlyLink.foldl (fun _ _ => .foldl (fun _ _ => .ite (.refl _) (onlyLink_dropOn _)) _ _) _ d).trans
    (onlyLink_onDlv _)).trans (.foldl (fun _ _ => (onlyLink_mapQueue ..).trans (onlyLink_bufRegs _)) _ _)).trans
    (.of rfl rfl rfl)

theorem onlyLink_hlTo (st : Nat) : OnlyLink d (hlTo st d) := .ite (.refl d) ((onlyLink_setFi ..).trans (onlyLink_emit ..))

theorem onlyLink_hlDown : OnlyLink d (hlDown d) :=
  .ite ((onlyLink_hlLeaveUp.trans ((onlyLink_raiseBits ..).trans (onlyLink_setFi ..))).trans (onlyLink_hlTo _)) (.refl d)

end

/-! ## A group changes -/

/-- What follows above a group that leaves ACTIVE. -/
def lostAbove (g : Nat) (d : Dev) : Dev := if g = 0 then hlDown d else spLaneLoss (g - 1) d

theorem onlyLink_lostAbove (g : Nat) (d : Dev) : OnlyLink d (lostAbove g d) := .ite onlyLink_hlDown (onlyLink_spLaneLoss _)

/-- A group that a change leaves out of ACTIVE: what follows above it is no change of a group. -/
theorem withGroup_lost {g : Nat} {f : Dev → Dev} {d : Dev} (h : ((f d).grp g).state ≠ lnACTIVE) :
    OnlyLink (f d) (withGroup g f d) := by
  unfold withGroup
  dsimp only
  refine .ite (onlyLink_lostAbove g (f d)) ?_
  rw [if_neg fun hup => h hup.2]
  exact .refl _

end Sys2Proof.Machine
end

section
/-! SUPPORT. Rules about lanes and lane groups that train (R429, R434, R451 to R456): the rows they send, the words of their
pages, and what a failure, DEEP and a new attempt make of a group. -/
namespace Sys2Proof.Machine

/-! ## Rows sent -/

theorem takeTx_txSkip (l : Nat) (d : Dev) : txSkip l d = takeTx (txSkip l d) d :=
  takeTx_ite (takeTx_trans (takeTx_setTxLane ..) (takeTx_txOne ..)) rfl

theorem takeTx_txCount (l : Nat) (k : BKind) (pay : List Bool) (d : Dev) : txCount l k pay d = takeTx (txCount l k pay d) d :=
  takeTx_trans (takeTx_txOne ..) (takeTx_setTxLane ..)

theorem takeTx_ctrlRows (g code n : Nat) (d : Dev) : ctrlRows g code n d = takeTx (ctrlRows g code n d) d := by
  induction n generalizing d with
  | zero => rfl
  | succ n ih => exact takeTx_trans (takeTx_txRow ..) (ih _)

theorem takeTx_txTrain (g : Nat) (d : Dev) : txTrain g d = takeTx (txTrain g d) d :=
  takeTx_ite (takeTx_trans (takeTx_txClear ..) (takeTx_ctrlRows ..)) rfl

theorem takeTx_txPlain (g : Nat) (d : Dev) : txPlain g d = takeTx (txPlain g d) d :=
  takeTx_eachLane (fun _ _ => takeTx_ite (takeTx_setTxLane ..) rfl) _ d

theorem takeTx_txStart (g : Nat) (d : Dev) : txStart g d = takeTx (txStart g d) d :=
  takeTx_eachLane (fun _ _ => takeTx_trans (takeTx_trans (takeTx_txCount ..) (takeTx_setTxLane ..)) (takeTx_txSkip ..)) _ d

theorem takeTx_txFill (l : Nat) (d : Dev) : txFill l d = takeTx (txFill l d) d :=
  takeTx_ite rfl (takeTx_trans (takeTx_setTxLane ..) (takeTx_txBits ..))

theorem takeTx_txSleepRow (g : Nat) (d : Dev) : txSleepRow g d = takeTx (txSleepRow g d) d := by
  have hrow := takeTx_eachLane
    (f := fun l e => txFill l (txCount l .ctrl (byteBits (e.ctrlPay g 3 (laneIndex l))) e))
    (fun _ _ => takeTx_trans (takeTx_txCount ..) (takeTx_txFill ..)) (d.partTx g) (txClear g d)
  exact takeTx_trans (takeTx_trans (takeTx_txClear g d) hrow) (takeTx_txPlain ..)

theorem takeTx_txWake (g : Nat) (d : Dev) : txWake g d = takeTx (txWake g d) d := by
  have hstart := takeTx_trans (takeTx_trans (takeTx_txClear g d) (takeTx_ctrlRows g 4 64 _)) (takeTx_txStart g _)
  exact takeTx_ite (takeTx_trans hstart (takeTx_txAlignRow ..)) (takeTx_trans hstart (takeTx_txRows ..))

/-- A part of the device beside the transmit side. -/
theorem tx_same {β : Type} (part : Dev → β) (h : ∀ x d, part (takeTx x d) = part d) {d e : Dev} (he : e = takeTx e d) :
    part e = part d := (congrArg part he).trans (h e d)

/-! ## Words of the lanes' pages -/

theorem lnAddr (F : Fld) (h : F.blk = .ln) (l k : Nat) : F.addr l k = 0xB0000 + 0x400 * l + F.off + F.stride * k := by
  rw [Fld.addr, h]; rfl

/-- Words beside those in which lanes report. -/
abbrev besideStatus (a : Nat) : Prop := besideLanes a ∨ a % 0x400 < 0x180

/-- Fields in which a lane reports its training. -/
abbrev isStatus (F : Fld) : Prop := F.blk = .ln ∧ 0x180 ≤ F.off ∧ F.off < 0x400

section Status
variable {a : Nat} (ha : besideStatus a)
include ha

theorem word_setFi_status {F : Fld} (hF : isStatus F) {l : Nat} (hl : l < 44) (v : Nat) (d : Dev) :
    (d.setFi F l 0 v).word a = d.word a := by
  obtain ⟨hblk, hlo, hhi⟩ := hF
  have ha' : (a < 0xB0000 ∨ 0xBB000 ≤ a) ∨ a % 0x400 < 0x180 := ha
  have hne : a ≠ F.addr l 0 := by rw [lnAddr F hblk]; omega
  rw [Dev.word_setFi, if_neg hne]

theorem word_laneField_status {F : Fld} (hF : isStatus F) {ls : List Nat} (hls : ∀ l ∈ ls, l < 44) (v : Nat) (d : Dev) :
    (d.laneField ls F v).word a = d.word a :=
  laneField_keeps (fun e => e.word a) (fun l hl e => word_setFi_status ha hF (hls l hl) v e) d

theorem word_groupTo_status {g : Nat} (hg : g < 9) (st cause : Nat) (d : Dev) : (groupTo g st cause d).word a = d.word a := by
  unfold groupTo
  dsimp only
  refine Eq.trans (ite_keeps (fun e => e.word a) rfl rfl) (Eq.trans (ite_keeps (fun e => e.word a) ?_ rfl)
    ((word_laneField_status ha (F := LN_STAT_STATE) ⟨rfl, by decide, by decide⟩
        (fun l hl => usedLane_lt hg (List.mem_of_mem_filter hl)) ..).trans
      (word_laneField_status ha (F := LN_STAT_STATE) ⟨rfl, by decide, by decide⟩ (fun l hl => usedLane_lt hg hl) ..)))
  exact word_laneField_status ha ⟨rfl, by decide, by decide⟩ (fun l hl => lane_lt hg (List.mem_append_right _ hl)) ..

end Status

/-- From `d` to `e` no word changes but those in which lanes report. -/
def sameSettings (d e : Dev) : Prop := ∀ a, besideStatus a → e.word a = d.word a

section Settings
variable {d e : Dev} (h : sameSettings d e)
include h

theorem rate_of_settings (l : Nat) : e.fi LN_CFG_RATE l 0 = d.fi LN_CFG_RATE l 0 := by
  have haddr : LN_CFG_RATE.addr l 0 = 0xB0000 + 0x400 * l + 0x100 + 0 * 0 := lnAddr _ rfl l 0
  exact fi_of_word (h _ (.inr (by omega)))

theorem laneUsed_of_settings (l : Nat) : e.laneUsed l = d.laneUsed l := by
  have hbase : (lnPage l).base + HD_PAGE_CTRL_EN.off = 0xB0000 + 0x400 * (l % 44) + 8 := rfl
  have hen : e.hf (lnPage l) HD_PAGE_CTRL_EN = d.hf (lnPage l) HD_PAGE_CTRL_EN :=
    congrArg (fun w => bitsOf w 0 0) (h _ (.inr (by omega)))
  have htx : e.f HLP_CFG_TX_LANES = d.f HLP_CFG_TX_LANES := fi_of_word (h _ (.inl (by decide)))
  have hrx : e.f HLP_CFG_RX_LANES = d.f HLP_CFG_RX_LANES := fi_of_word (h _ (.inl (by decide)))
  rw [Dev.laneUsed, hen, htx, hrx, Dev.laneUsed]

theorem groupRates_of_settings (g : Nat) : e.groupRates g = d.groupRates g := by
  unfold Dev.groupRates
  rw [rate_of_settings h, rate_of_settings h]

theorem rateConflict_of_settings (g : Nat) : e.rateConflict g = d.rateConflict g := by
  have hused : e.laneUsed = d.laneUsed := funext (laneUsed_of_settings h)
  unfold Dev.rateConflict Dev.quadLead
  rw [groupRates_of_settings h, hused]
  dsimp only
  rw [rate_of_settings h]

end Settings

theorem sameSettings_trans {d e g : Dev} (h : sameSettings d e) (h' : sameSettings e g) : sameSettings d g :=
  fun a ha => (h' a ha).trans (h a ha)

theorem sameSettings_laneField {F : Fld} (hF : isStatus F) {ls : List Nat} (hls : ∀ l ∈ ls, l < 44) (v : Nat) (d : Dev) :
    sameSettings d (d.laneField ls F v) := fun _ ha => word_laneField_status ha hF hls v d

theorem sameSettings_groupTo {g : Nat} (hg : g < 9) (st cause : Nat) (d : Dev) : sameSettings d (groupTo g st cause d) :=
  fun _ ha => word_groupTo_status ha hg st cause d

/-! ## A field of each lane of a list -/

theorem lnAddr_inj {F : Fld} (h : F.blk = .ln) {l m : Nat} (hne : m ≠ l) : F.addr m 0 ≠ F.addr l 0 := by
  rw [lnAddr F h, lnAddr F h]; omega

/-- What a change of each lane of a list does to one of them, where it reaches a value that the changes of the others keep. -/
theorem eachLane_reaches {f : Nat → Dev → Dev} {P : Dev → Prop} {m : Nat} (hset : ∀ d, P (f m d))
    (hkeep : ∀ l d, l ≠ m → P d → P (f l d)) {ls : List Nat} (h : m ∈ ls) (d : Dev) : P (d.eachLane ls f) := by
  have hstays : ∀ (ls : List Nat) d, P d → P (d.eachLane ls f) := by
    intro ls
    induction ls with
    | nil => exact fun _ hd => hd
    | cons l ls ih =>
      intro d hd
      refine ih (f l d) ?_
      by_cases heq : l = m
      · exact heq ▸ hset d
      · exact hkeep l d heq hd
  induction ls generalizing d with
  | nil => exact absurd h List.not_mem_nil
  | cons l ls ih =>
    obtain rfl | hmem := List.mem_cons.mp h
    · exact hstays ls _ (hset d)
    · exact ih hmem _

theorem fi_laneField {F : Fld} (hblk : F.blk = .ln) (hlo : F.lo ≤ F.hi) (h32 : F.hi < 32) {ls : List Nat} {m : Nat} (h : m ∈ ls)
    (v : Nat) (d : Dev) : (d.laneField ls F v).fi F m 0 = v % 2 ^ (F.hi - F.lo + 1) :=
  eachLane_reaches (P := fun e => e.fi F m 0 = v % 2 ^ (F.hi - F.lo + 1)) (fun e => Dev.fi_setFi_same e _ _ _ _ hlo h32)
    (fun _ e hne he => (Dev.fi_setFi_ne e _ _ _ _ _ _ _ hlo h32 hlo (.inl (lnAddr_inj hblk hne.symm))).trans he) h d

/-- A field of the status word beside STATE and SIGNAL. -/
theorem fi_groupTo {g st : Nat} (hst : lnDEEP < st) {F : Fld} (hlo : F.lo ≤ F.hi)
    (hF : LN_STAT_STATE.hi < F.lo) (cause l k : Nat) (d : Dev) : (groupTo g st cause d).fi F l k = d.fi F l k := by
  have hfield : ∀ (ls : List Nat) v (e : Dev), (e.laneField ls LN_STAT_STATE v).fi F l k = e.fi F l k := fun ls v e =>
    laneField_keeps (fun x => x.fi F l k) (fun _ _ x =>
      Dev.fi_setFi_ne x _ _ _ _ _ _ _ (by decide) (by decide) hlo (.inr (.inr hF))) e
  unfold groupTo
  dsimp only
  rw [if_neg (Nat.not_le_of_lt hst)]
  exact Eq.trans (ite_keeps (fun x => x.fi F l k) rfl rfl) ((hfield ..).trans (hfield ..))

/-! ## Groups -/

theorem grp_mapGrp_same (d : Dev) (g : Nat) (f : GrpSt → GrpSt) : (d.mapGrp g f).grp g = f (d.grp g) :=
  (grp_setGrp ..).trans (if_pos rfl)

theorem grp_mapGrp_ne {g h : Nat} (hne : h ≠ g) (d : Dev) (f : GrpSt → GrpSt) : (d.mapGrp g f).grp h = d.grp h :=
  (grp_setGrp ..).trans (if_neg hne)

theorem grps_laneIrq (g : Nat) (F : Fld) (d : Dev) : (laneIrq g F d).grps = d.grps :=
  eachLane_keeps Dev.grps (fun _ _ _ => Dev.raiseBits_grps ..) d

theorem grp_setFails_same (g n : Nat) (d : Dev) : (setFails g n d).grp g = { d.grp g with fails := n } :=
  (grp_of_grps (grps_laneField ..) g).trans (grp_mapGrp_same ..)

theorem grp_setFails_ne {g h : Nat} (hne : h ≠ g) (n : Nat) (d : Dev) : (setFails g n d).grp h = d.grp h :=
  (grp_of_grps (grps_laneField ..) h).trans (grp_mapGrp_ne hne ..)

theorem grp_setBackoff_same (g n : Nat) (d : Dev) : (setBackoff g n d).grp g = { d.grp g with backoff := n, since := d.cyc } :=
  (grp_of_grps (grps_laneField ..) g).trans (grp_mapGrp_same ..)

theorem grp_setBackoff_ne {g h : Nat} (hne : h ≠ g) (n : Nat) (d : Dev) : (setBackoff g n d).grp h = d.grp h :=
  (grp_of_grps (grps_laneField ..) h).trans (grp_mapGrp_ne hne ..)

/-- A group that has forgotten what an attempt learnt of the far end. -/
def GrpSt.forget (x : GrpSt) : GrpSt :=
  { x with farState := 0, farReady := 0, farAck := 0, farFec := false, farPre := false, turn := false }

/-- The lanes' side of a reset of a group's receivers. -/
def lanesReset (ls : List Nat) (d : Dev) : Dev :=
  (((d.eachLane ls fun l d => d.mapLane l LaneSt.fresh).laneField ls LN_STAT_BLOCK_LOCK 0).laneField ls LN_STAT_RX_SLEEP 0).laneField
    ls LN_STAT_TX_SLEEP 0

theorem laneReset_eq (g : Nat) (d : Dev) : laneReset g d = (lanesReset (txLanes g ++ rxLanes g) d).mapGrp g GrpSt.forget := rfl

theorem grps_lanesReset (ls : List Nat) (d : Dev) : (lanesReset ls d).grps = d.grps :=
  (grps_laneField ..).trans ((grps_laneField ..).trans ((grps_laneField ..).trans
    (eachLane_keeps Dev.grps (f := fun l e => e.mapLane l LaneSt.fresh) (fun _ _ _ => rfl) d)))

theorem grp_laneReset_same (g : Nat) (d : Dev) : (laneReset g d).grp g = (d.grp g).forget := by
  rw [laneReset_eq, grp_mapGrp_same, grp_of_grps (grps_lanesReset ..)]

theorem grp_laneReset_ne {g h : Nat} (hne : h ≠ g) (d : Dev) : (laneReset g d).grp h = d.grp h := by
  rw [laneReset_eq, grp_mapGrp_ne hne, grp_of_grps (grps_lanesReset ..)]

/-- The back-off where a command that holds it found it. -/
def backoffStands (g : Nat) (held : Bool) (d : Dev) : Dev :=
  if held then d.eachLane (d.usedAll g) fun l d => d.setFi LN_BACKOFF_MS l 0 (d.backoffLeft l) else d

theorem grps_backoffStands (g : Nat) (held : Bool) (d : Dev) : (backoffStands g held d).grps = d.grps :=
  ite_keeps Dev.grps (eachLane_keeps Dev.grps (f := fun l d => d.setFi LN_BACKOFF_MS l 0 (d.backoffLeft l))
    (fun _ _ _ => Dev.setFi_grps ..) d) rfl

/-- A group as it rests in DEEP. -/
def GrpSt.deep (x : GrpSt) (held : Bool) : GrpSt := { x with txIdle := false, held, req := false }

theorem groupDeep_eq (g cause : Nat) (held : Bool) (d : Dev) : groupDeep g cause held d =
    groupTo g lnDEEP cause ((laneReset g (backoffStands g held d)).mapGrp g fun x => x.deep held) := rfl

/-- A group that enters DEEP. -/
theorem grp_groupDeep_same (g cause : Nat) (held : Bool) (d : Dev) : (groupDeep g cause held d).grp g =
    { (d.grp g).forget.deep held with state := lnDEEP } := by
  rw [groupDeep_eq, grp_groupTo_same, grp_mapGrp_same, grp_laneReset_same, grp_of_grps (grps_backoffStands ..)]

theorem grp_groupDeep_ne {g h : Nat} (hne : h ≠ g) (cause : Nat) (held : Bool) (d : Dev) :
    (groupDeep g cause held d).grp h = d.grp h := by
  rw [groupDeep_eq, grp_groupTo, if_neg hne, grp_mapGrp_ne hne, grp_laneReset_ne hne, grp_of_grps (grps_backoffStands ..)]

/-- A group to train anew: in DEEP, or in OFF where no lane of it is enabled. -/
theorem groupRetrain_state (g cause : Nat) (d : Dev) :
    ((groupRetrain g cause d).grp g).state = lnDEEP ∨ ((groupRetrain g cause d).grp g).state = lnOFF := by
  unfold groupRetrain groupRequest
  split
  case isTrue hoff =>
    rw [if_neg (not_not.mpr hoff)]
    split
    · exact .inr ((congrArg GrpSt.state (grp_mapGrp_same ..)).trans hoff)
    · exact .inl (congrArg GrpSt.state (grp_groupDeep_same ..))
  case isFalse => exact .inl (congrArg GrpSt.state (grp_groupDeep_same ..))

theorem grp_groupRetrain_ne {g h : Nat} (hne : h ≠ g) (cause : Nat) (d : Dev) : (groupRetrain g cause d).grp h = d.grp h := by
  unfold groupRetrain groupRequest
  split
  case isTrue hoff =>
    rw [if_neg (not_not.mpr hoff)]
    split
    · exact grp_mapGrp_ne hne ..
    · exact grp_groupDeep_ne hne ..
  case isFalse => rw [grp_groupDeep_ne hne, grp_setBackoff_ne hne, grp_setFails_ne hne]

/-! ## A failure (R452) -/

/-- What a failure reports on the lanes of its group. -/
def failReported (g cause : Nat) (d : Dev) : Dev :=
  ((if (d.grp g).state = lnACTIVE then laneIrq g LN_IRQ_RAW_DOWN d else d).eachLane
      ((if (d.grp g).state = lnACTIVE then laneIrq g LN_IRQ_RAW_DOWN d else d).usedAll g)
      fun l d => d.bumpI LN_TRAIN_FAIL l 0).laneField
    (((if (d.grp g).state = lnACTIVE then laneIrq g LN_IRQ_RAW_DOWN d else d).eachLane
      ((if (d.grp g).state = lnACTIVE then laneIrq g LN_IRQ_RAW_DOWN d else d).usedAll g)
      fun l d => d.bumpI LN_TRAIN_FAIL l 0).usedAll g) LN_STAT_CAUSE cause

/-- Any part of the device that reports of lanes leave. -/
theorem failReported_keeps {β : Type} (part : Dev → β) (hset : ∀ (e : Dev) F i k v, part (e.setFi F i k v) = part e)
    (hraise : ∀ (e : Dev) p b, part (e.raiseBits p b) = part e) (g cause : Nat) (d : Dev) :
    part (failReported g cause d) = part d :=
  (laneField_keeps part (fun _ _ e => hset e ..) _).trans ((eachLane_keeps part (fun _ _ e => hset e ..) _).trans
    (ite_keeps part (eachLane_keeps part (fun _ _ e => hraise e ..) d) rfl))

/-- The failure that counts: a new attempt, or DEEP with a back-off. -/
def failCounted (g cause : Nat) (x : GrpSt) (d : Dev) : Dev :=
  if x.fails + 1 < 3 then groupTo g lnDETECT cause (d.mapGrp g fun x => { x with txIdle := true })
  else groupTo g lnDEEP cause
    ((laneIrq g LN_IRQ_RAW_DEEP (setBackoff g (if x.fails + 1 = 3 then 500 else min 8000 (2 * x.backoff)) d)).mapGrp g fun x =>
      { x with txIdle := false })

/-- What follows from a failure: it is counted only while firmware runs. -/
def failFollows (g cause : Nat) (run : Bool) (x : GrpSt) (d : Dev) : Dev :=
  let d := if run then setFails g (min 15 (x.fails + 1)) d else d
  let d := laneReset g d
  if x.fails + 1 < 3 ∨ run = false then groupTo g lnDETECT cause (d.mapGrp g fun x => { x with txIdle := true })
  else groupTo g lnDEEP cause
    ((laneIrq g LN_IRQ_RAW_DEEP (setBackoff g (if x.fails + 1 = 3 then 500 else min 8000 (2 * x.backoff)) d)).mapGrp g fun x =>
      { x with txIdle := false })

theorem groupFail_eq (g cause : Nat) (d : Dev) : groupFail g cause d =
    failFollows g cause (decide ((failReported g cause d).boot.run = .running)) (d.grp g) (failReported g cause d) := rfl

theorem failFollows_counted (g cause : Nat) (x : GrpSt) (d : Dev) :
    failFollows g cause true x d = failCounted g cause x (laneReset g (setFails g (min 15 (x.fails + 1)) d)) := by
  unfold failFollows failCounted
  dsimp only
  rw [if_pos rfl]
  exact if_congr (or_iff_left (by decide)) rfl rfl

theorem groupFail_running {g cause : Nat} {d : Dev} (h : d.boot.run = .running) : groupFail g cause d =
    failCounted g cause (d.grp g) (laneReset g (setFails g (min 15 ((d.grp g).fails + 1)) (failReported g cause d))) := by
  have hboot : (failReported g cause d).boot = d.boot :=
    failReported_keeps Dev.boot (fun _ _ _ _ _ => rfl) (fun _ _ _ => Dev.raiseBits_boot ..) g cause d
  rw [groupFail_eq, hboot, h]
  exact failFollows_counted ..

theorem grp_failCounted (g cause : Nat) (x : GrpSt) (d : Dev) :
    ((failCounted g cause x d).grp g).fails = (d.grp g).fails ∧
      ((failCounted g cause x d).grp g).state = if x.fails + 1 < 3 then lnDETECT else lnDEEP := by
  unfold failCounted
  split
  · rw [grp_groupTo_same, grp_mapGrp_same]
    exact ⟨rfl, rfl⟩
  · rw [grp_groupTo_same, grp_mapGrp_same, grp_of_grps (grps_laneIrq ..), grp_setBackoff_same]
    exact ⟨rfl, rfl⟩

/-- A failure while firmware runs. -/
theorem grp_groupFail {g cause : Nat} {d : Dev} (h : d.boot.run = .running) :
    ((groupFail g cause d).grp g).fails = min 15 ((d.grp g).fails + 1) ∧
      ((groupFail g cause d).grp g).state = if (d.grp g).fails + 1 < 3 then lnDETECT else lnDEEP := by
  rw [groupFail_running h]
  obtain ⟨hfails, hstate⟩ := grp_failCounted g cause (d.grp g)
    (laneReset g (setFails g (min 15 ((d.grp g).fails + 1)) (failReported g cause d)))
  exact ⟨hfails.trans (by rw [grp_laneReset_same, grp_setFails_same]; rfl), hstate⟩

/-- The same, with what follows above the group. -/
theorem grp_laneFail {g cause : Nat} {d : Dev} (h : d.boot.run = .running) :
    ((laneFail g cause d).grp g).fails = min 15 ((d.grp g).fails + 1) ∧
      ((laneFail g cause d).grp g).state = if (d.grp g).fails + 1 < 3 then lnDETECT else lnDEEP := by
  obtain ⟨hfails, hstate⟩ := grp_groupFail (g := g) (cause := cause) h
  have hdown : ((groupFail g cause d).grp g).state ≠ lnACTIVE := by
    rw [hstate]
    split
    · decide
    · decide
  have hgrp : (laneFail g cause d).grp g = (groupFail g cause d).grp g :=
    (withGroup_lost (f := groupFail g cause) hdown).keeps (fun e => e.grp g) fun _ _ => rfl
  rw [hgrp]
  exact ⟨hfails, hstate⟩

end Sys2Proof.Machine
end

section
/-! SUPPORT. Proofs about the states of lane groups (R440, R451 to R456). -/
namespace Sys2Proof.Machine

/-! ## An attempt -/

/-- What a lane group reports as an attempt begins. -/
def attemptReported (g : Nat) (d : Dev) : Dev :=
  ((((d.laneField (txLanes g) LN_STAT_RATE_ACT (d.groupRates g).1).laneField (rxLanes g) LN_STAT_RATE_ACT
    (d.groupRates g).2).laneField (txLanes g ++ rxLanes g) LN_STAT_FEC_ACT 0).laneField (txLanes g ++ rxLanes g)
      LN_STAT_PRECODE_ACT 0)

theorem grps_attemptReported (g : Nat) (d : Dev) : (attemptReported g d).grps = d.grps :=
  (grps_laneField ..).trans ((grps_laneField ..).trans ((grps_laneField ..).trans (grps_laneField ..)))

theorem sameSettings_attemptReported {g : Nat} (hg : g < 9) (d : Dev) : sameSettings d (attemptReported g d) := by
  have htx : ∀ l ∈ txLanes g, l < 44 := fun l hl => lane_lt hg (List.mem_append_left _ hl)
  have hrx : ∀ l ∈ rxLanes g, l < 44 := fun l hl => lane_lt hg (List.mem_append_right _ hl)
  exact sameSettings_trans (sameSettings_trans (sameSettings_trans
    (sameSettings_laneField ⟨rfl, by decide, by decide⟩ htx _ d)
    (sameSettings_laneField ⟨rfl, by decide, by decide⟩ hrx _ _))
    (sameSettings_laneField ⟨rfl, by decide, by decide⟩ (fun l hl => lane_lt hg hl) _ _))
    (sameSettings_laneField ⟨rfl, by decide, by decide⟩ (fun l hl => lane_lt hg hl) _ _)

theorem groupAttempt_eq (g : Nat) (d : Dev) : groupAttempt g d =
    if (groupTo g lnDETECT 0 (attemptReported g d)).rateConflict g then
      laneFail g lnCONFLICT (groupTo g lnDETECT 0 (attemptReported g d))
    else txTrain g (txPlain g (groupTo g lnDETECT 0 (attemptReported g d))) := rfl

/-- An attempt at rates that agree. -/
theorem grp_groupAttempt {g : Nat} (hg : g < 9) {d : Dev} (h : d.rateConflict g = false) (k : Nat) :
    (groupAttempt g d).grp k = if k = g then { d.grp g with state := lnDETECT } else d.grp k := by
  have hsame := sameSettings_trans (sameSettings_attemptReported hg d) (sameSettings_groupTo hg lnDETECT 0 _)
  have hkeep : (groupAttempt g d).grps = (groupTo g lnDETECT 0 (attemptReported g d)).grps := by
    rw [groupAttempt_eq, if_neg (by rw [rateConflict_of_settings hsame, h]; decide)]
    exact tx_same Dev.grps (fun _ _ => rfl) (takeTx_trans (takeTx_txPlain ..) (takeTx_txTrain ..))
  rw [grp_of_grps hkeep, grp_groupTo, grp_of_grps (grps_attemptReported ..), grp_of_grps (grps_attemptReported ..)]

/-- The end of the back-off. -/
theorem runs_backoffEnd (g : Fin 9) {s : State} (hrun : s.dev.boot.run = .running) (hdeep : (s.dev.grp g).state = lnDEEP)
    (hheld : (s.dev.grp g).held = false) (hloops : s.dev.loopsRun g = true) :
    runs (.laneBackoffEnd g) s (groupAttempt g (s.dev.laneField (s.dev.usedAll g) LN_BACKOFF_MS 0)) :=
  runs_onDev (c := .laneBackoffEnd g) (f := fun d =>
    if d.boot.run = .running ∧ (d.grp g).state = lnDEEP ∧ (d.grp g).held = false ∧ d.loopsRun g then
      groupAttempt g (d.laneField (d.usedAll g) LN_BACKOFF_MS 0)
    else d) rfl (if_pos ⟨hrun, hdeep, hheld, hloops⟩)

/-- A group whose transmitters end their idle time. -/
def idleEnded (g : Nat) (d : Dev) : Dev := d.setGrp g { d.grp g with txIdle := false }

theorem runs_failIdleEnd (g : Fin 9) {s : State} (hrun : s.dev.boot.run = .running) (hidle : (s.dev.grp g).txIdle = true)
    (hst : (s.dev.grp g).state = lnDETECT) : runs (.laneFailIdleEnd g) s (groupAttempt g (idleEnded g s.dev)) :=
  runs_onDev (c := .laneFailIdleEnd g) (f := fun d =>
    if d.boot.run = .running ∧ (d.grp g).txIdle then
      if (d.grp g).state = lnDETECT then groupAttempt g (idleEnded g d) else idleEnded g d
    else d) rfl ((if_pos ⟨hrun, hidle⟩).trans (if_pos hst))

/-! ## Signal and clock -/

/-- A word that no equaliser setting is reported in. -/
theorem word_eqRegs {a : Nat} (ha : a % 0x400 < 0x184) (l : Nat) (d : Dev) : (eqRegs l d).word a = d.word a := by
  have hset : ∀ (F : Fld) (k v : Nat) (e : Dev), F.blk = .ln → 0x184 ≤ F.off + F.stride * k → F.off + F.stride * k < 0x400 →
      (e.setFi F l k v).word a = e.word a := fun F k v e hblk hlo hhi => by
    have hne : a ≠ F.addr l k := by rw [lnAddr F hblk]; omega
    rw [Dev.word_setFi, if_neg hne]
  have htaps : ∀ (ws : List Nat), (∀ w ∈ ws, w < 3) → ∀ (f : Nat → Nat) (e : Dev),
      (ws.foldl (fun d w => d.setFi LN_DFE l w (f w)) e).word a = e.word a := by
    intro ws hws f
    induction ws with
    | nil => exact fun _ => rfl
    | cons w ws ih =>
      intro e
      have hw := hws w List.mem_cons_self
      refine (ih (fun m hm => hws m (List.mem_cons_of_mem w hm)) _).trans (hset LN_DFE w (f w) e rfl ?_ ?_)
      · change 0x184 ≤ 0x188 + 4 * w; omega
      · change 0x188 + 4 * w < 0x400; omega
  unfold eqRegs
  dsimp only
  rw [htaps _ (fun w hw => List.mem_range.mp hw), hset LN_RX_EQ_PHASE _ _ _ rfl (by decide) (by decide),
    hset LN_RX_EQ_VGA _ _ _ rfl (by decide) (by decide), hset LN_RX_EQ_CTLE _ _ _ rfl (by decide) (by decide)]

/-- A part of the device beside the registers. -/
theorem eqRegs_keeps {β : Type} (part : Dev → β) (hset : ∀ (e : Dev) F i k v, part (e.setFi F i k v) = part e) (l : Nat) (d : Dev) :
    part (eqRegs l d) = part d := by
  unfold eqRegs
  dsimp only
  rw [foldl_keeps part (fun _ _ => hset ..), hset, hset, hset]

/-- A lane with a coarse setting found. -/
def coarseFound (l : Nat) (d : Dev) : Dev :=
  d.free.2.mapLane l fun x =>
    { x with eq := [((d.free.1.toNat % 16 : Nat) : Int), ((d.free.1.toNat / 16 % 256 : Nat) : Int)] ++ x.eq.drop 2 }

theorem laneCoarse_eq (l : Nat) (d : Dev) : laneCoarse l d = eqRegs l (coarseFound l d) := rfl

theorem signal_laneCoarse (l m : Nat) (d : Dev) : (laneCoarse m d).fi LN_STAT_SIGNAL l 0 = d.fi LN_STAT_SIGNAL l 0 := by
  have haddr : LN_STAT_SIGNAL.addr l 0 = 0xB0000 + 0x400 * l + 0x180 + 0 * 0 := lnAddr _ rfl l 0
  rw [laneCoarse_eq]
  exact fi_of_word (word_eqRegs (by omega) m (coarseFound m d))

/-- The attempt once the group has signal. -/
def acquired (g : Nat) (d : Dev) : Dev := txTrain g (groupTo g lnACQUIRE 0 (d.eachLane (d.signalled g) laneCoarse))

theorem laneSignal_detect {l : Nat} {d : Dev} (hrx : laneRx l = true) (hused : d.laneUsed l = true)
    (hst : (d.grp (laneGroup l)).state = lnDETECT) (hidle : (d.grp (laneGroup l)).txIdle = false) :
    laneSignal l d = acquired (laneGroup l) (d.setFi LN_STAT_SIGNAL l 0 1) := by
  unfold laneSignal
  dsimp only
  rw [if_neg (by rw [hrx, hused, hst]; decide)]
  exact if_pos ⟨hst, hidle⟩

theorem state_acquired (g : Nat) (d : Dev) : ((acquired g d).grp g).state = lnACQUIRE :=
  congrArg GrpSt.state ((grp_of_grps (tx_same Dev.grps (fun _ _ => rfl) (takeTx_txTrain ..)) g).trans (grp_groupTo_same ..))

theorem signal_acquired (g l : Nat) (d : Dev) : (acquired g d).fi LN_STAT_SIGNAL l 0 = d.fi LN_STAT_SIGNAL l 0 :=
  (tx_same (fun e => e.fi LN_STAT_SIGNAL l 0) (fun _ _ => rfl) (takeTx_txTrain ..)).trans
    ((fi_groupTo (by decide) (by decide) (by decide) ..).trans
      (eachLane_keeps (fun e => e.fi LN_STAT_SIGNAL l 0) (fun m _ e => signal_laneCoarse l m e) d))

/-- A lane whose clock is recovered. -/
def clockFound (l : Nat) (d : Dev) : Dev := d.mapLane l fun x => { x with cdr := true }

theorem lane_mapLane_same (d : Dev) (l : Nat) (f : LaneSt → LaneSt) : (d.mapLane l f).lane l = f (d.lane l) :=
  lane_setLane_same ..

theorem lane_mapLane_ne {l m : Nat} (h : m ≠ l) (d : Dev) (f : LaneSt → LaneSt) : (d.mapLane l f).lane m = d.lane m :=
  (lane_setLane ..).trans (if_neg h)

theorem cdr_clockFound (l m : Nat) (d : Dev) : ((clockFound l d).lane m).cdr = (decide (m = l) || (d.lane m).cdr) := by
  by_cases h : m = l
  · subst h
    exact (congrArg LaneSt.cdr (lane_mapLane_same ..)).trans (by simp)
  · exact (congrArg LaneSt.cdr (lane_mapLane_ne h ..)).trans (by simp [h])

theorem signalled_clockFound (l g : Nat) (d : Dev) : (clockFound l d).signalled g = d.signalled g := by
  have hleft : ∀ m, ((clockFound l d).lane m).left = (d.lane m).left := fun m => by
    by_cases h : m = l
    · subst h
      exact (congrArg LaneSt.left (lane_mapLane_same d m fun x => { x with cdr := true })).trans rfl
    · exact congrArg LaneSt.left (lane_mapLane_ne h ..)
  unfold Dev.signalled Dev.partRx Dev.partLanes
  simp only [hleft]
  rfl

theorem laneCdr_acquire {l : Nat} {d : Dev} (hrx : laneRx l = true) (hst : (d.grp (laneGroup l)).state = lnACQUIRE) :
    laneCdr l d = if (d.signalled (laneGroup l)).all (fun m => ((clockFound l d).lane m).cdr) then
      txTrain (laneGroup l) (groupTo (laneGroup l) lnSYNC 0 (clockFound l d)) else clockFound l d := by
  rw [← signalled_clockFound]
  unfold laneCdr
  dsimp only
  rw [if_neg (by rw [hrx, hst]; decide)]
  rfl

/-! ## Equalisation done -/

/-- The settings an equaliser has reached, within what its registers hold. -/
def eqReached (l : Nat) (eq : List Int) : List Int :=
  ((eq ++ List.replicate 13 0).take (3 + laneTaps l)).zipIdx.map fun (p : Int × Nat) => eqClamp p.2 p.1

/-- The lane that has reached them. -/
def LaneSt.equalised (x : LaneSt) (e : List Int) : LaneSt := { x with eqDone := true, eq := e, eq0 := e, eqAt := [] }

theorem laneEqDone_eq {l : Nat} {d : Dev} (eq : List Int) (hst : (d.grp (laneGroup l)).state = lnEQUALISE)
    (hpart : l ∈ d.partRx (laneGroup l)) :
    laneEqDone l eq d = readyCheck (laneGroup l) (eqRegs l (d.mapLane l fun x => x.equalised (eqReached l eq))) := by
  have hmem : (d.partRx (laneGroup l)).contains l = true := List.contains_iff_mem.mpr hpart
  unfold laneEqDone
  dsimp only
  rw [if_neg (by rw [hst, hmem]; decide)]
  rfl

theorem lanes_readyCheck (g : Nat) (d : Dev) : (readyCheck g d).lanes = d.lanes :=
  ite_keeps Dev.lanes ((tx_same Dev.lanes (fun _ _ => rfl) (takeTx_txTrain ..)).trans (lanes_groupTo ..)) rfl

theorem lane_laneEqDone {l : Nat} {d : Dev} (eq : List Int) (hst : (d.grp (laneGroup l)).state = lnEQUALISE)
    (hpart : l ∈ d.partRx (laneGroup l)) (m : Nat) :
    (laneEqDone l eq d).lane m = (d.mapLane l fun x => x.equalised (eqReached l eq)).lane m := by
  rw [laneEqDone_eq eq hst hpart]
  exact lane_of_lanes ((lanes_readyCheck ..).trans (eqRegs_keeps Dev.lanes (fun _ _ _ _ _ => Dev.setFi_lanes ..) l _)) m

/-! ## Timeout and loss of signal -/

theorem laneTimeout_fails {g : Nat} {d : Dev} (hst : (d.grp g).state ∈ [lnDETECT, lnACQUIRE, lnEQUALISE, lnCONFIG])
    (hrun : d.boot.run = .running) (hidle : (d.grp g).txIdle = false) : ∃ cause, laneTimeout g d = laneFail g cause d := by
  unfold laneTimeout
  dsimp only
  rw [if_neg (not_not.mpr hrun), hidle]
  obtain h | h | h | h : (d.grp g).state = lnDETECT ∨ (d.grp g).state = lnACQUIRE ∨ (d.grp g).state = lnEQUALISE ∨
      (d.grp g).state = lnCONFIG := by simpa using hst
  all_goals rw [h]; exact ⟨_, rfl⟩

/-- A lane without its signal. -/
def signalLost (l : Nat) (d : Dev) : Dev := (d.bumpI LN_LOS l 0).setFi LN_STAT_SIGNAL l 0 0

theorem signalLost_keeps {β : Type} (part : Dev → β) (hset : ∀ (e : Dev) F i k v, part (e.setFi F i k v) = part e) (l : Nat)
    (d : Dev) : part (signalLost l d) = part d := by
  unfold signalLost
  rw [Dev.bumpI_def, hset, hset]

theorem laneLos_eq {l : Nat} {d : Dev} (hrx : laneRx l = true) (hused : d.laneUsed l = true)
    (hsig : d.fi LN_STAT_SIGNAL l 0 = 1) : laneLos l d =
      if lnACQUIRE ≤ (d.grp (laneGroup l)).state ∧ (d.lane l).left = false then laneFail (laneGroup l) lnLOS (signalLost l d)
      else signalLost l d := by
  have hgrps : (signalLost l d).grps = d.grps := signalLost_keeps Dev.grps (fun _ _ _ _ _ => Dev.setFi_grps ..) l d
  have hlanes : (signalLost l d).lanes = d.lanes := signalLost_keeps Dev.lanes (fun _ _ _ _ _ => Dev.setFi_lanes ..) l d
  rw [← grp_of_grps hgrps, ← lane_of_lanes hlanes]
  unfold laneLos
  dsimp only
  rw [if_neg (by rw [hrx, hused, hsig]; decide)]
  rfl

theorem onlyRegs_bumpI (d : Dev) (F : Fld) (i k : Nat) : onlyRegs d (d.bumpI F i k) [F.addr i k] := by
  rw [Dev.bumpI_def]
  exact onlyRegs_setFi ..

theorem signalLost_rules (l : Nat) (d : Dev) : (signalLost l d).fi LN_STAT_SIGNAL l 0 = 0 ∧
    (signalLost l d).fi LN_LOS l 0 = (d.fi LN_LOS l 0 + 1) % 2 ^ 32 ∧
    onlyRegs d (signalLost l d) [LN_LOS.addr l 0, LN_STAT_SIGNAL.addr l 0] := by
  have hlos : LN_LOS.addr l 0 = 0xB0000 + 0x400 * l + 0x3E0 + 0 * 0 := lnAddr _ rfl l 0
  have hstat : LN_STAT_SIGNAL.addr l 0 = 0xB0000 + 0x400 * l + 0x180 + 0 * 0 := lnAddr _ rfl l 0
  refine ⟨Dev.fi_setFi_same _ _ _ _ _ (by decide) (by decide), ?_, ?_⟩
  · exact (Dev.fi_setFi_ne _ _ _ _ _ _ _ _ (by decide) (by decide) (by decide) (.inl (by omega))).trans
      (Dev.fi_bumpI_same d rfl rfl l 0)
  · exact onlyRegs_trans (onlyRegs_mono (onlyRegs_bumpI d LN_LOS l 0) fun a ha => List.mem_cons.mpr (.inl (List.mem_singleton.mp ha)))
      (onlyRegs_mono (onlyRegs_setFi (d.bumpI LN_LOS l 0) LN_STAT_SIGNAL l 0 0) fun a ha => List.mem_cons_of_mem _ ha)

/-! ## Commands -/

/-- A group that a write sends to DEEP. -/
theorem grp_laneDeep {l : Nat} {d : Dev} (h : (d.grp (laneGroup l)).state ≠ lnOFF) :
    ((laneDeep l d).grp (laneGroup l)).state = lnDEEP ∧ ((laneDeep l d).grp (laneGroup l)).held = true := by
  have hdeep := grp_groupDeep_same (laneGroup l) lnCOMMAND true d
  have hdown : ((groupDeep (laneGroup l) lnCOMMAND true d).grp (laneGroup l)).state ≠ lnACTIVE := by
    rw [hdeep]
    exact show lnDEEP ≠ lnACTIVE by decide
  have heq : laneDeep l d = withGroup (laneGroup l) (groupDeep (laneGroup l) lnCOMMAND true) d := if_neg h
  rw [heq, (withGroup_lost (f := groupDeep (laneGroup l) lnCOMMAND true) hdown).keeps (fun e => e.grp (laneGroup l))
    (fun _ _ => rfl), hdeep]
  exact ⟨rfl, rfl⟩

/-- A lane whose boundary slips while it is sought. -/
def slipping (l : Nat) (d : Dev) : Dev := (d.setFi LN_STAT_BLOCK_LOCK l 0 0).mapLane l LaneSt.slip

theorem laneSlip_sync {l : Nat} {d : Dev} (h : (d.grp (laneGroup l)).state = lnSYNC) : laneSlip l d = slipping l d := if_pos h

theorem laneSlip_active {l : Nat} {d : Dev} (h : (d.grp (laneGroup l)).state = lnACTIVE) :
    laneSlip l d = d.mapLane l fun x => { x with slipped := true } := by
  unfold laneSlip
  dsimp only
  rw [h]
  rfl

theorem slipping_rules (l : Nat) (d : Dev) : slipping l d = { d with lanes := (slipping l d).lanes, regs := (slipping l d).regs } ∧
    (slipping l d).locked l = false ∧ onlyWords d (slipping l d) [LN_STAT_BLOCK_LOCK.addr l 0] ∧
    (slipping l d).lane l = { d.lane l with good := 0, slips := (d.lane l).slips + 1, discard := 2 } := by
  have hregs : (slipping l d).regs = (d.setFi LN_STAT_BLOCK_LOCK l 0 0).regs := rfl
  have hlock : (slipping l d).fi LN_STAT_BLOCK_LOCK l 0 = 0 :=
    (Dev.fi_congr hregs ..).trans (Dev.fi_setFi_same _ _ _ _ _ (by decide) (by decide))
  refine ⟨rfl, ?_, ?_, lane_mapLane_same ..⟩
  · unfold Dev.locked
    rw [hlock]
    rfl
  · exact onlyWords_regs (onlyWords_setFi d (List.mem_singleton.mpr rfl) 0) hregs

theorem runs_laneSlip (p : Port) (l : Fin 44) {s : State} (h : s.admitsAt p (.ln l)) (hrx : laneRx l = true) :
    runs (.laneSlip p l) s (laneSlip l s.dev) := by
  have hrun := runs_gatePage (c := .laneSlip p l) (f := fun d => if laneRx l then laneSlip l d else d) rfl h
  rwa [if_pos hrx] at hrun

/-! ## Sleep -/

/-- One lane of a direction that goes to sleep. -/
def laneAsleep (l : Nat) (d : Dev) : Dev := (d.setFi LN_STAT_TX_SLEEP l 0 1).bumpI LN_SLEEPS l 0

theorem laneAsleep_same (l : Nat) (d : Dev) : (laneAsleep l d).fi LN_STAT_TX_SLEEP l 0 = 1 := by
  have hcount : LN_SLEEPS.addr l 0 = 0xB0000 + 0x400 * l + 0x3E8 + 0 * 0 := lnAddr _ rfl l 0
  have hstat : LN_STAT_TX_SLEEP.addr l 0 = 0xB0000 + 0x400 * l + 0x180 + 0 * 0 := lnAddr _ rfl l 0
  exact (Dev.fi_setFi_ne _ _ _ _ _ _ _ _ (by decide) (by decide) (by decide) (.inl (by omega))).trans
    (Dev.fi_setFi_same d _ _ _ _ (by decide) (by decide))

theorem laneAsleep_ne {l m : Nat} (h : l ≠ m) (d : Dev) : (laneAsleep l d).fi LN_STAT_TX_SLEEP m 0 = d.fi LN_STAT_TX_SLEEP m 0 := by
  have hcount : LN_SLEEPS.addr l 0 = 0xB0000 + 0x400 * l + 0x3E8 + 0 * 0 := lnAddr _ rfl l 0
  have hstat : LN_STAT_TX_SLEEP.addr m 0 = 0xB0000 + 0x400 * m + 0x180 + 0 * 0 := lnAddr _ rfl m 0
  exact (Dev.fi_setFi_ne _ _ _ _ _ _ _ _ (by decide) (by decide) (by decide) (.inl (by omega))).trans
    (Dev.fi_setFi_ne d _ _ _ _ _ _ _ (by decide) (by decide) (by decide) (.inl (lnAddr_inj rfl h.symm)))

theorem groupSleep_eq {g : Nat} {d : Dev} (hst : (d.grp g).state = lnACTIVE)
    (hus : d.fi LN_PWR_CFG_SLEEP_US (leadLane (txLanes g)) 0 ≠ 0) (hsleep : d.fi LN_STAT_TX_SLEEP (leadLane (txLanes g)) 0 = 0)
    (hidle : (d.txGrp g).idle = true) (hbytes : (d.txGrp g).bytes = []) :
    groupSleep g d = (txSleepRow g d).eachLane (d.partTx g) laneAsleep := by
  have hstay : ¬((d.grp g).state ≠ lnACTIVE ∨ d.fi LN_PWR_CFG_SLEEP_US (leadLane (txLanes g)) 0 = 0 ∨
      d.fi LN_STAT_TX_SLEEP (leadLane (txLanes g)) 0 = 1 ∨ (d.txGrp g).idle = false ∨ (d.txGrp g).bytes ≠ []) := by
    rw [hst, hsleep, hidle, hbytes]
    simpa using hus
  exact if_neg hstay

/-- `d` with the registers and the transmit side of `x`. -/
abbrev takeRows (x d : Dev) : Dev := { d with regs := x.regs, tx := x.tx }

theorem takeRows_trans {d e g : Dev} (h : e = takeRows e d) (h' : g = takeRows g e) : g = takeRows g d :=
  frame_trans takeRows (fun _ _ _ => rfl) h h'

theorem takeRows_of_tx {d e : Dev} (h : e = takeTx e d) : e = takeRows e d := frame_mono takeTx takeRows (fun _ _ => rfl) h

theorem takeRows_eachLane {f : Nat → Dev → Dev} (h : ∀ l d, f l d = takeRows (f l d) d) (ls : List Nat) (d : Dev) :
    d.eachLane ls f = takeRows (d.eachLane ls f) d := by
  unfold Dev.eachLane
  induction ls generalizing d with
  | nil => rfl
  | cons l ls ih => exact takeRows_trans (h l d) (ih _)

theorem takeRows_setFi (d : Dev) (F : Fld) (i k v : Nat) : d.setFi F i k v = takeRows (d.setFi F i k v) d := rfl

theorem takeRows_laneAsleep (l : Nat) (d : Dev) : laneAsleep l d = takeRows (laneAsleep l d) d := by
  unfold laneAsleep
  rw [Dev.bumpI_def]
  exact takeRows_trans (takeRows_setFi ..) (takeRows_setFi ..)

theorem takeRows_groupWake (g : Nat) (d : Dev) : groupWake g d = takeRows (groupWake g d) d := by
  unfold groupWake
  split
  · exact takeRows_trans (takeRows_eachLane (f := fun l e => e.setFi LN_STAT_TX_SLEEP l 0 0) (fun _ _ => rfl) _ d)
      (takeRows_of_tx (takeTx_txWake ..))
  · rfl

theorem groupWake_awake (g : Nat) (d : Dev) {m : Nat} (h : m ∈ d.partTx g) : (groupWake g d).fi LN_STAT_TX_SLEEP m 0 = 0 := by
  unfold groupWake
  split
  case isTrue =>
    exact (tx_same (fun e => e.fi LN_STAT_TX_SLEEP m 0) (fun _ _ => rfl) (takeTx_txWake ..)).trans
      (fi_laneField rfl (by decide) (by decide) h 0 d)
  case isFalse hnone =>
    have hlt : d.fi LN_STAT_TX_SLEEP m 0 < 2 := bitsOf_lt _ 17 17
    have hne : d.fi LN_STAT_TX_SLEEP m 0 ≠ 1 := fun hone => hnone (List.any_eq_true.mpr ⟨m, h, decide_eq_true hone⟩)
    omega

/-! ## LINK_RETRAIN -/

/-- One group of those that LINK_RETRAIN names. -/
def retrainOne (m g : Nat) (d : Dev) : Dev := if m.testBit g then withGroup g (groupRetrain g lnCOMMAND) d else d

/-- The groups that LINK_RETRAIN names train anew. -/
def retrainAll (m : Nat) (d : Dev) : Dev := (List.range 9).foldl (fun d g => retrainOne m g d) d

/-- A group at rest. -/
def Dev.rests (d : Dev) (g : Nat) : Prop := (d.grp g).state = lnDEEP ∨ (d.grp g).state = lnOFF

theorem onlyLink_retrainOne (g : Nat) (d : Dev) :
    OnlyLink (groupRetrain g lnCOMMAND d) (withGroup g (groupRetrain g lnCOMMAND) d) := by
  refine withGroup_lost (f := groupRetrain g lnCOMMAND) ?_
  obtain h | h := groupRetrain_state g lnCOMMAND d <;> rw [h] <;> decide

theorem grp_retrained (g h : Nat) (d : Dev) :
    (withGroup g (groupRetrain g lnCOMMAND) d).grp h = (groupRetrain g lnCOMMAND d).grp h :=
  (onlyLink_retrainOne g d).keeps (fun e => e.grp h) fun _ _ => rfl

theorem rests_retrainOne {m g : Nat} (h : m.testBit g = true) (d : Dev) : (retrainOne m g d).rests g := by
  unfold retrainOne Dev.rests
  rw [if_pos h, grp_retrained]
  exact groupRetrain_state ..

theorem rests_kept {g : Nat} (m k : Nat) {d : Dev} (h : d.rests g) : (retrainOne m k d).rests g := by
  by_cases heq : g = k
  · subst heq
    by_cases hbit : m.testBit g = true
    · exact rests_retrainOne hbit d
    · unfold retrainOne
      rwa [if_neg hbit]
  · have hgrp : (retrainOne m k d).grp g = d.grp g :=
      ite_keeps (fun e => e.grp g) ((grp_retrained ..).trans (grp_groupRetrain_ne heq ..)) rfl
    unfold Dev.rests
    rwa [hgrp]

theorem rests_retrainAll {m g : Nat} (h : m.testBit g = true) (hg : g < 9) (d : Dev) : (retrainAll m d).rests g :=
  eachLane_reaches (f := retrainOne m) (P := fun e => e.rests g) (fun e => rests_retrainOne h e)
    (fun k _ _ he => rests_kept m k he) (List.mem_range.mpr hg) d

theorem linkRetrain_good {d : Dev} (h : d.cmdNat 0 2 < 512) : linkRetrain d = (retrainAll (d.cmdNat 0 2) d).mbxDone resOK :=
  if_neg (Nat.not_le_of_lt h)

theorem linkRetrain_bad {d : Dev} (h : 512 ≤ d.cmdNat 0 2) : linkRetrain d = d.mbxDone resBAD_PARAM := if_pos h

theorem grp_mbxDone (d : Dev) (result g : Nat) : (d.mbxDone result).grp g = d.grp g :=
  grp_of_grps (mbxDone_keeps Dev.grps (fun _ _ _ _ _ => Dev.setFi_grps ..) (fun _ _ _ => Dev.raiseBits_grps ..) ..) g

end Sys2Proof.Machine

open Sys2Proof Sys2Proof.Machine

/-- Settles O39: what each command makes of the group's state, of its lanes and of what they report; a group that leaves
ACTIVE takes the layers above with it, and no other group. -/
theorem laneGroupsTrain : Obligations.LaneGroupsTrain := by
  unfold Obligations.LaneGroupsTrain
  refine ⟨?backoff, ?idle, ?signal, ?clock, ?equalised, ?timeout, ?left, ?lost, ?deep, ?slip, ?slipped, ?sleep, ?wake, ?retrain,
    ?param⟩
  case backoff =>
    intro g s hrun hdeep hheld hloops hrate
    have hsame := sameSettings_laneField (F := LN_BACKOFF_MS) (ls := s.dev.usedAll g) ⟨rfl, by decide, by decide⟩
      (fun l hl => usedLane_lt g.isLt hl) 0 s.dev
    have hgrp := grp_groupAttempt g.isLt ((rateConflict_of_settings hsame g).trans hrate)
    refine ⟨_, runs_backoffEnd g hrun hdeep hheld hloops, ?_, fun h hne => ?_⟩
    · rw [hgrp, if_pos rfl]
    · rw [hgrp, if_neg hne, grp_of_grps (grps_laneField ..)]
  case idle =>
    intro g s hrun hidle hst hrate
    have hgrp := grp_groupAttempt (d := idleEnded g s.dev) g.isLt hrate g.val
    rw [if_pos rfl, idleEnded, grp_setGrp, if_pos rfl] at hgrp
    exact ⟨_, runs_failIdleEnd g hrun hidle hst, congrArg GrpSt.state hgrp, congrArg GrpSt.txIdle hgrp⟩
  case signal =>
    intro l s hrx hused hst hidle
    refine ⟨_, runs_onDev (c := .laneSignalDetect l) (f := laneSignal l) rfl (laneSignal_detect hrx hused hst hidle), ?_,
      state_acquired ..⟩
    rw [signal_acquired]
    exact Dev.fi_setFi_same _ _ _ _ _ (by decide) (by decide)
  case clock =>
    intro l s hrx hst
    refine ⟨_, runs_onDev (c := .laneCdrLock l) (f := laneCdr l) rfl (laneCdr_acquire hrx hst), ?_, ?_⟩
    · have hlanes : ∀ b : Bool, (if b then txTrain (laneGroup l) (groupTo (laneGroup l) lnSYNC 0 (clockFound l s.dev))
          else clockFound l s.dev).lanes = (clockFound l s.dev).lanes := fun _ =>
        ite_keeps Dev.lanes ((tx_same Dev.lanes (fun _ _ => rfl) (takeTx_txTrain ..)).trans (lanes_groupTo ..)) rfl
      rw [lane_of_lanes (hlanes _), cdr_clockFound]
      simp
    · have hall : (s.dev.signalled (laneGroup l)).all (fun m => ((clockFound l s.dev).lane m).cdr) = true ↔
          ∀ m ∈ s.dev.signalled (laneGroup l), m = l.val ∨ (s.dev.lane m).cdr = true := by
        simp only [List.all_eq_true, cdr_clockFound, Bool.or_eq_true, decide_eq_true_eq]
      rw [← hall]
      split
      case isTrue h =>
        refine iff_of_true ?_ h
        rw [grp_of_grps (tx_same Dev.grps (fun _ _ => rfl) (takeTx_txTrain ..)), grp_groupTo_same]
      case isFalse h =>
        exact iff_of_false (fun hsync => absurd (hst.symm.trans hsync) (by decide)) h
  case equalised =>
    intro l eq s hst hpart
    have hlane := lane_laneEqDone eq hst hpart
    refine ⟨_, runs_onDev (c := .laneEqDone l eq) (f := laneEqDone l eq) rfl rfl, ?_, ?_, fun m hne => ?_⟩
    · rw [hlane, lane_mapLane_same]; rfl
    · rw [hlane, lane_mapLane_same]; rfl
    · rw [hlane, lane_mapLane_ne hne]
  case timeout =>
    intro g st s hst hmem hrun hidle
    obtain ⟨cause, hfail⟩ := laneTimeout_fails (hst ▸ hmem) hrun hidle
    exact ⟨_, runs_onDev (c := .laneStateTimeout g) (f := laneTimeout g) rfl hfail, grp_laneFail hrun⟩
  case left =>
    intro l s hrx hused hsig hleft
    have hlos := (laneLos_eq hrx hused hsig).trans (if_neg fun h => absurd (hleft.symm.trans h.2) (by decide))
    exact ⟨_, runs_onDev (c := .laneLos l) (f := laneLos l) rfl hlos, signalLost_rules l s.dev⟩
  case lost =>
    intro l s hrx hused hsig hleft hst hrun
    have hlos := (laneLos_eq hrx hused hsig).trans (if_pos ⟨hst, hleft⟩)
    have hboot := signalLost_keeps Dev.boot (fun _ _ _ _ _ => Dev.setFi_boot ..) l s.dev
    have hgrps := signalLost_keeps Dev.grps (fun _ _ _ _ _ => Dev.setFi_grps ..) l s.dev
    obtain ⟨hfails, _⟩ := grp_laneFail (g := laneGroup l) (cause := lnLOS) (d := signalLost l s.dev) (by rw [hboot, hrun])
    rw [grp_of_grps hgrps] at hfails
    exact ⟨_, runs_onDev (c := .laneLos l) (f := laneLos l) rfl hlos, hfails⟩
  case deep =>
    intro p l s hadm hst
    exact ⟨_, runs_gatePage (c := .laneDeepReq p l) (f := laneDeep l) rfl hadm, grp_laneDeep hst⟩
  case slip =>
    intro p l s hadm hrx hst
    have hrun := runs_laneSlip p l hadm hrx
    rw [laneSlip_sync hst] at hrun
    exact ⟨_, hrun, slipping_rules l s.dev⟩
  case slipped =>
    intro p l s hadm hrx hst
    have hrun := runs_laneSlip p l hadm hrx
    rw [laneSlip_active hst] at hrun
    exact ⟨_, hrun, rfl, lane_mapLane_same ..⟩
  case sleep =>
    intro g l s hl hst hus hsleep hidle hbytes
    subst hl
    refine ⟨_, runs_onDev (c := .laneSleep g) (f := groupSleep g) rfl (groupSleep_eq hst hus hsleep hidle hbytes), fun m hm => ?_, ?_⟩
    · exact eachLane_reaches (P := fun e => e.fi LN_STAT_TX_SLEEP m 0 = 1) (laneAsleep_same m)
        (fun l e hne he => (laneAsleep_ne hne e).trans he) hm _
    · exact takeRows_trans (takeRows_of_tx (takeTx_txSleepRow ..)) (takeRows_eachLane takeRows_laneAsleep _ _)
  case wake =>
    intro g s
    exact ⟨_, runs_onDev (c := .laneWake g) (f := groupWake g) rfl rfl, fun m hm => groupWake_awake g s.dev hm,
      takeRows_groupWake g s.dev⟩
  case retrain =>
    intro s hpost hlt
    have hrun := runs_mbxServe hpost (c := .linkRetrain) (lenOk := (· = 1)) (f := linkRetrain) rfl rfl
    rw [linkRetrain_good (by rwa [cmdNat_setMbx]), cmdNat_setMbx] at hrun
    obtain ⟨hstate, hresult, _, _⟩ := mbxDone_fields (retrainAll (s.dev.cmdNat 0 2) (s.dev.setMbx mbxBUSY)) (result := resOK)
      (resp := []) (by decide) (by decide)
    refine ⟨_, hrun, hstate, hresult, fun g hbit => ?_⟩
    rw [grp_mbxDone]
    exact rests_retrainAll hbit g.isLt _
  case param =>
    intro s hpost hle
    have hrun := runs_mbxServe hpost (c := .linkRetrain) (lenOk := (· = 1)) (f := linkRetrain) rfl rfl
    rwa [linkRetrain_bad (by rwa [cmdNat_setMbx])] at hrun
end

section
/-! SUPPORT. Rules about a block that a lane with lock receives (R430, R433, R434, R437 to R443): what it leaves on the lane
and in its counters before it acts. -/
namespace Sys2Proof.Machine

/-! ## Words of a lane's page -/

/-- Two fields of lanes' pages that stand in different words. -/
abbrev otherWord (F G : Fld) : Prop := F.blk = .ln ∧ G.blk = .ln ∧ F.off < 0x400 ∧ G.off < 0x400 ∧ F.off ≠ G.off

theorem otherWord_addr {F G : Fld} (h : otherWord F G) (l m : Nat) : F.addr l 0 ≠ G.addr m 0 := by
  obtain ⟨hF, hG, hFo, hGo, hne⟩ := h
  rw [lnAddr F hF, lnAddr G hG]
  omega

theorem fi_setFi_lane {F G : Fld} (h : otherWord F G) (l m v : Nat) (d : Dev) : (d.setFi F l 0 v).fi G m 0 = d.fi G m 0 :=
  fi_of_word ((Dev.word_setFi ..).trans (if_neg (otherWord_addr h l m).symm))

theorem fi_bumpI_lane {F G : Fld} (h : otherWord F G) (l m : Nat) (d : Dev) : (d.bumpI F l 0).fi G m 0 = d.fi G m 0 := by
  rw [Dev.bumpI_def]
  exact fi_setFi_lane h ..

/-- A word that holds what is written already stays as it is. -/
theorem setBits_held (w : Word) {hi lo v : Nat} (h : lo ≤ hi) (h32 : hi < 32) (hv : bitsOf w hi lo = v) : setBits w hi lo v = w := by
  refine BitVec.eq_of_toNat_eq (Nat.eq_of_testBit_eq fun n => ?_)
  rw [setBits_testBit w hi lo v n h h32]
  split
  case isTrue hn =>
    obtain ⟨hlo, hhi⟩ := hn
    have hin : n - lo < hi - lo + 1 := by omega
    rw [← hv, bitsOf_testBit, decide_eq_true hin, Bool.true_and, Nat.add_sub_cancel' hlo]
  case isFalse => rfl

theorem word_setFi_held {F : Fld} {i k v : Nat} {d : Dev} (hlo : F.lo ≤ F.hi) (h32 : F.hi < 32) (hv : d.fi F i k = v) (a : Nat) :
    (d.setFi F i k v).word a = d.word a := by
  rw [Dev.word_setFi]
  split
  case isTrue heq => rw [heq]; exact setBits_held _ hlo h32 hv
  case isFalse => rfl

/-! ## The elastic buffer -/

theorem ebMove_eq {l fill : Nat} {n : Int} {d : Dev} (h : (fill : Int) = (d.fi LN_EB_FILL_BITS l 0 : Int) + n) (hfull : fill ≤ 1040) :
    ebMove l n d = d.setFi LN_EB_FILL_BITS l 0 fill := by
  have hclamp : (clampInt 0 1040 ((d.fi LN_EB_FILL_BITS l 0 : Int) + n)).toNat = fill := by
    rw [← h, clampInt]
    omega
  exact congrArg (d.setFi LN_EB_FILL_BITS l 0) hclamp

theorem fill_setFi {l fill : Nat} (d : Dev) (hfull : fill ≤ 1040) :
    (d.setFi LN_EB_FILL_BITS l 0 fill).fi LN_EB_FILL_BITS l 0 = fill := by
  have hsame := Dev.fi_setFi_same d LN_EB_FILL_BITS l 0 fill (by decide) (by decide)
  have hwidth : 2 ^ (LN_EB_FILL_BITS.hi - LN_EB_FILL_BITS.lo + 1) = 2048 := by decide
  rw [hwidth] at hsame
  omega

theorem ebOut_between {l fill : Nat} (h : 0 < fill) (h' : fill < 1040) (k : BKind) (v : BitVec 256) (d : Dev) :
    ebOut l fill k v d = blockOut l k v d := by
  unfold ebOut
  rw [if_neg (by omega), if_neg (by omega)]

/-! ## A block is taken -/

/-- The lane that has heard a block. -/
def LaneSt.heard (x : LaneSt) (bad : Bool) (prev : Nat) : LaneSt := { x with prev, hist := (bad :: x.hist).take 64 }

/-- The lane that has taken it. -/
def LaneSt.took (x : LaneSt) (k : BKind) (v : BitVec 256) (b : BitVec 260) : LaneSt :=
  { x with desc := (descramble x.desc v).2, idleOnly := decide (k = .idle ∨ k = .skip), slipped := false,
           last := if k = .bad then none else some (decide (k = .ctrl), b) }

/-- A bad header is counted, and a slip as one. -/
def headerCounted (l : Nat) (bad slipped : Bool) (d : Dev) : Dev := if bad ∨ slipped then d.bumpI LN_HDR_ERR l 0 else d

/-- The device that has taken a block, before the block acts. -/
def blockTaken (l : Nat) (k : BKind) (bad : Bool) (v : BitVec 256) (b : BitVec 260) (drift : Int) (d : Dev) : Dev :=
  ebMove l drift ((headerCounted l bad (d.lane l).slipped d).mapLane l fun x => x.took k v b)

/-- How a block acts that has been taken. -/
def blockActs (l : Nat) (k : BKind) (slipped : Bool) (r : BitVec 256) (d : Dev) : Dev :=
  let fill := d.fi LN_EB_FILL_BITS l 0
  let d := if k = .skip ∧ slipped = false then skipBlock l fill d else d
  if slipped then blockOut l (slipKind l k) r d else ebOut l fill k r d

/-- The lane's record of its headers. -/
def headerHeard (l : Nat) (bad : Bool) (d : Dev) : Dev := d.setLane l { d.lane l with hist := (bad :: (d.lane l).hist).take 64 }

theorem headerHist_kept {l : Nat} {bad : Bool} {d : Dev} (hfec : (d.lane l).fec = false)
    (hcount : ((bad :: (d.lane l).hist).take 64).countP id < 16) : headerHist l bad d = (false, headerHeard l bad d) := by
  have hlen : ¬16 ≤ (((bad :: (d.lane l).hist).take 64).filter id).length := by
    rw [← List.countP_eq_length_filter]
    exact Nat.not_le_of_lt hcount
  unfold headerHist
  dsimp only
  rw [if_neg (by rw [hfec]; decide), decide_eq_false hlen]
  rfl

theorem takeBits_plain {l : Nat} (k : BKind) (hdr : Option Nat) (v : BitVec 256) {d : Dev} (hfec : (d.lane l).fec = false) :
    takeBits l k hdr v d = some (k, d) := if_pos hfec

/-- Of a lane with lock that takes no codewords. -/
theorem lockedBlock_plain {l : Nat} {k : BKind} {hdr : Option Nat} {v : BitVec 256} {b : BitVec 260} {drift : Int} {d : Dev}
    (hfec : (d.lane l).fec = false) (hcount : ((hdr.isNone :: (d.lane l).hist).take 64).countP id < 16) :
    lockedBlock l k hdr v b drift d =
      blockActs l k ((headerHeard l hdr.isNone d).lane l).slipped
        (descramble ((headerCounted l hdr.isNone ((headerHeard l hdr.isNone d).lane l).slipped (headerHeard l hdr.isNone d)).lane l).desc v).1
        (blockTaken l k hdr.isNone v b drift (headerHeard l hdr.isNone d)) := by
  unfold lockedBlock
  rw [takeBits_plain k hdr v hfec]
  dsimp only
  rw [headerHist_kept hfec hcount]
  dsimp only
  rw [if_neg (by decide)]
  rfl

/-- What a block leaves that a lane has taken: on the lane, in the fill of its elastic buffer, in its count of bad
headers. -/
structure Taken (l : Nat) (k : BKind) (bad : Bool) (v : BitVec 256) (b : BitVec 260) (prev fill : Nat) (d e : Dev) : Prop where
  frame : e = { d with lanes := e.lanes, regs := e.regs }
  lane : e.lane l = ((d.lane l).heard bad prev).took k v b
  other : ∀ m, m ≠ l → e.lane m = d.lane m
  fill : e.fi LN_EB_FILL_BITS l 0 = fill
  errs : e.fi LN_HDR_ERR l 0 = (d.fi LN_HDR_ERR l 0 + b2n (bad || (d.lane l).slipped)) % 2 ^ 32
  words : onlyWords d e (LN_EB_FILL_BITS.addr l 0 :: if bad || (d.lane l).slipped then [LN_HDR_ERR.addr l 0] else [])

/-- `d` with the lanes and the registers of `x`. -/
abbrev takeLane (x d : Dev) : Dev := { d with lanes := x.lanes, regs := x.regs }

theorem takeLane_trans {d e g : Dev} (h : e = takeLane e d) (h' : g = takeLane g e) : g = takeLane g d :=
  frame_trans takeLane (fun _ _ _ => rfl) h h'

theorem takeLane_setFi (d : Dev) (F : Fld) (i k v : Nat) : d.setFi F i k v = takeLane (d.setFi F i k v) d := rfl

theorem takeLane_mapLane (d : Dev) (l : Nat) (f : LaneSt → LaneSt) : d.mapLane l f = takeLane (d.mapLane l f) d := rfl

theorem takeLane_bumpI (d : Dev) (F : Fld) (i k : Nat) : d.bumpI F i k = takeLane (d.bumpI F i k) d := by
  rw [Dev.bumpI_def]
  exact takeLane_setFi ..

theorem takeLane_headerCounted (l : Nat) (bad slipped : Bool) (d : Dev) :
    headerCounted l bad slipped d = takeLane (headerCounted l bad slipped d) d := by
  unfold headerCounted
  split
  · exact takeLane_bumpI ..
  · rfl

theorem lanes_headerCounted (l : Nat) (bad slipped : Bool) (d : Dev) : (headerCounted l bad slipped d).lanes = d.lanes :=
  ite_keeps Dev.lanes (by rw [Dev.bumpI_def, Dev.setFi_lanes]) rfl

theorem errs_headerCounted (l : Nat) (bad slipped : Bool) (d : Dev) : (headerCounted l bad slipped d).fi LN_HDR_ERR l 0 =
    (d.fi LN_HDR_ERR l 0 + b2n (bad || slipped)) % 2 ^ 32 := by
  have hlt : d.fi LN_HDR_ERR l 0 < 2 ^ 32 := bitsOf_lt _ 31 0
  unfold headerCounted
  cases hc : bad || slipped
  case true =>
    rw [if_pos (by simpa using hc)]
    exact Dev.fi_bumpI_same d rfl rfl l 0
  case false =>
    rw [if_neg (by simpa using hc)]
    exact (Nat.mod_eq_of_lt hlt).symm

theorem onlyWords_headerCounted (l : Nat) (bad slipped : Bool) (d : Dev) :
    onlyWords d (headerCounted l bad slipped d) (if bad || slipped then [LN_HDR_ERR.addr l 0] else []) := by
  unfold headerCounted
  cases hc : bad || slipped
  case true =>
    rw [if_pos (by simpa using hc), if_pos rfl]
    exact onlyWords_bumpI d (List.mem_singleton.mpr rfl)
  case false =>
    rw [if_neg (by simpa using hc)]
    exact onlyWords_refl d _

theorem fill_headerCounted (l : Nat) (bad slipped : Bool) (d : Dev) :
    (headerCounted l bad slipped d).fi LN_EB_FILL_BITS l 0 = d.fi LN_EB_FILL_BITS l 0 :=
  ite_keeps (fun e => e.fi LN_EB_FILL_BITS l 0) (fi_bumpI_lane (by decide) ..) rfl

theorem regs_mapLane (d : Dev) (l : Nat) (f : LaneSt → LaneSt) : (d.mapLane l f).regs = d.regs := rfl

/-- The lane and the record of its header, as the block is taken. -/
theorem taken_blockTaken {l : Nat} (k : BKind) (bad : Bool) (v : BitVec 256) (b : BitVec 260) (prev : Nat) {fill : Nat} {drift : Int}
    {d : Dev} (hfill : (fill : Int) = (d.fi LN_EB_FILL_BITS l 0 : Int) + drift) (hfull : fill ≤ 1040) :
    Taken l k bad v b prev fill d (blockTaken l k bad v b drift (headerHeard l bad (d.mapLane l fun x => { x with prev }))) := by
  have hheard : ∀ m, (headerHeard l bad (d.mapLane l fun x => { x with prev })).lane m =
      if m = l then (d.lane l).heard bad prev else d.lane m := fun m => by
    rw [headerHeard, lane_setLane, lane_mapLane_same]
    split
    case isTrue => rfl
    case isFalse hne => rw [lane_mapLane_ne hne]
  have hregs : (headerHeard l bad (d.mapLane l fun x => { x with prev })).regs = d.regs := rfl
  have hframe : headerHeard l bad (d.mapLane l fun x => { x with prev }) =
      takeLane (headerHeard l bad (d.mapLane l fun x => { x with prev })) d := rfl
  generalize headerHeard l bad (d.mapLane l fun x => { x with prev }) = h at hheard hregs hframe
  have hslip : (h.lane l).slipped = (d.lane l).slipped := by rw [hheard, if_pos rfl]; rfl
  have hmoved : blockTaken l k bad v b drift h =
      ((headerCounted l bad (h.lane l).slipped h).mapLane l fun x => x.took k v b).setFi LN_EB_FILL_BITS l 0 fill := by
    refine ebMove_eq ?_ hfull
    rw [Dev.fi_congr (regs_mapLane ..), fill_headerCounted, Dev.fi_congr hregs]
    exact hfill
  have hlane : ∀ m, (blockTaken l k bad v b drift h).lane m =
      if m = l then (h.lane l).took k v b else h.lane m := fun m => by
    rw [hmoved, lane_of_lanes (Dev.setFi_lanes ..), Dev.mapLane, lane_setLane, lane_of_lanes (lanes_headerCounted ..),
      lane_of_lanes (lanes_headerCounted ..)]
  refine ⟨?_, ?_, fun m hne => ?_, ?_, ?_, ?_⟩
  · rw [hmoved]
    exact takeLane_trans (takeLane_trans (takeLane_trans hframe (takeLane_headerCounted ..)) (takeLane_mapLane ..)) (takeLane_setFi ..)
  · rw [hlane, if_pos rfl, hheard, if_pos rfl]
  · rw [hlane, if_neg hne, hheard, if_neg hne]
  · rw [hmoved]
    exact fill_setFi _ hfull
  · rw [hmoved, fi_setFi_lane (by decide), Dev.fi_congr (regs_mapLane ..), errs_headerCounted, Dev.fi_congr hregs, hslip]
  · rw [hmoved, hslip]
    refine onlyWords_trans (onlyWords_trans (onlyWords_trans (onlyWords_of_regs hregs _) ?_) (onlyWords_of_regs (regs_mapLane ..) _))
      (onlyWords_setFi _ List.mem_cons_self _)
    exact onlyWords_mono (onlyWords_headerCounted l bad (d.lane l).slipped h) fun a ha => List.mem_cons_of_mem _ ha

/-- A lane with lock that receives, without FEC and awake, and the fill of its elastic buffer after a block. -/
structure Receives (l : Nat) (bad : Bool) (drift : Int) (fill : Nat) (d : Dev) : Prop where
  hears : d.laneHears l = true
  locked : d.locked l = true
  awake : d.fi LN_STAT_RX_SLEEP l 0 = 0
  plain : (d.lane l).fec = false
  steady : ((bad :: (d.lane l).hist).take 64).countP id < 16
  moves : (fill : Int) = (d.fi LN_EB_FILL_BITS l 0 : Int) + drift
  some : 0 < fill
  room : fill < 1040

/-- A block that a lane with lock takes: it acts on what it leaves. -/
theorem laneBlock_taken {l : Nat} {k : BKind} {b : BitVec 260} {drift : Int} {fill : Nat} {d : Dev}
    (hkind : (kindOf (d.rxBlock l b).1).getD .bad = k)
    (h : Receives l (kindOf (d.rxBlock l b).1).isNone drift fill d) :
    ∃ e, Taken l k (kindOf (d.rxBlock l b).1).isNone (d.rxBlock l b).2.1 b (d.rxBlock l b).2.2 fill d e ∧
      laneBlock l k b drift d =
        if (d.lane l).slipped then
          blockOut l (slipKind l k) (descramble (d.lane l).desc (d.rxBlock l b).2.1).1 e
        else blockOut l k (descramble (d.lane l).desc (d.rxBlock l b).2.1).1 (if k = .skip then skipBlock l fill e else e) := by
  obtain ⟨hhears, hlocked, hawake, hplain, hsteady, hmoves, hsome, hroom⟩ := h
  generalize hx : d.rxBlock l b = x at hkind hsteady ⊢
  obtain ⟨code, v, prev⟩ := x
  dsimp only at hkind hsteady ⊢
  have htaken := taken_blockTaken (l := l) k (kindOf code).isNone v b prev hmoves (Nat.le_of_lt hroom)
  have hlane : (d.mapLane l fun x => { x with prev }).lane l = { d.lane l with prev } := lane_mapLane_same ..
  have hnone : ((kindOf code).map headerOf).isNone = (kindOf code).isNone := Option.isNone_map
  refine ⟨_, htaken, ?_⟩
  have hblock : laneBlock l k b drift d =
      lockedBlock l k ((kindOf code).map headerOf) v b drift (d.mapLane l fun x => { x with prev }) := by
    unfold laneBlock
    rw [hx]
    dsimp only
    rw [if_neg (by rw [hhears, hkind]; simp), if_neg (by rw [hlocked]; decide), if_neg (by rw [hawake]; simp)]
  have hacts := lockedBlock_plain (l := l) (k := k) (hdr := (kindOf code).map headerOf) (v := v) (b := b) (drift := drift)
    (d := d.mapLane l fun x => { x with prev }) (by rw [hlane]; exact hplain) (by rw [hlane, hnone]; exact hsteady)
  rw [hblock, hacts, hnone]
  have hheard : (headerHeard l (kindOf code).isNone (d.mapLane l fun x => { x with prev })).lane l =
      (d.lane l).heard (kindOf code).isNone prev := by
    rw [headerHeard, lane_setLane_same, hlane]
    rfl
  rw [lane_of_lanes (lanes_headerCounted ..), hheard]
  generalize blockTaken l k (kindOf code).isNone v b drift
    (headerHeard l (kindOf code).isNone (d.mapLane l fun x => { x with prev })) = e at htaken
  change blockActs l k (d.lane l).slipped (descramble (d.lane l).desc v).1 e = _
  unfold blockActs
  dsimp only
  rw [htaken.fill]
  cases (d.lane l).slipped
  case true => simp
  case false => simp [ebOut_between hsome hroom]

end Sys2Proof.Machine
end

section
/-! SUPPORT. Proofs about the blocks, codewords, equaliser and margin check of a lane (R430 to R448, R455, R456). -/
namespace Sys2Proof.Machine

/-! ## The search for the boundary (R438) -/

theorem laneBlock_search {l : Nat} {k : BKind} (b : BitVec 260) (drift : Int) {d : Dev}
    (hkind : (kindOf (d.rxBlock l b).1).getD .bad = k) (hhears : d.laneHears l = true) (hlock : d.locked l = false) :
    laneBlock l k b drift d = syncBlock l (kindOf (d.rxBlock l b).1).isSome d := by
  generalize hx : d.rxBlock l b = x at hkind ⊢
  obtain ⟨code, v, prev⟩ := x
  unfold laneBlock
  rw [hx]
  dsimp only at hkind ⊢
  rw [if_neg (by rw [hhears, hkind]; simp), if_pos hlock]

theorem syncBlock_settling {l : Nat} (ok : Bool) {d : Dev} (h : (d.lane l).discard ≠ 0) :
    syncBlock l ok d = d.setLane l { d.lane l with discard := (d.lane l).discard - 1 } := if_pos (Nat.pos_of_ne_zero h)

theorem syncBlock_slips {l : Nat} {d : Dev} (h : (d.lane l).discard = 0) :
    syncBlock l false d = d.setLane l (d.lane l).slip := by
  unfold syncBlock
  dsimp only
  rw [if_neg (by omega), if_pos rfl]

theorem syncBlock_good {l : Nat} {d : Dev} (h : (d.lane l).discard = 0) (hgood : (d.lane l).good + 1 < 64) :
    syncBlock l true d = d.setLane l { d.lane l with good := (d.lane l).good + 1 } := by
  unfold syncBlock
  dsimp only
  rw [if_neg (by omega), if_neg (by decide), if_pos hgood]

/-- Each command that names a kind of block runs the receiver with it. -/
theorem runs_block {c : Instr} {k : BKind} {l : Fin 44} {b : BitVec 260} {drift : Int} {s : State} {d : Dev}
    (hc : (c, k) ∈ [(.laneDataBlock l b drift, .data), (.laneIdleBlock l b drift, .idle), (.laneSkipBlock l b drift, .skip),
      (.laneAlignRow l b drift, .align), (.laneCtrlBlock l b drift, .ctrl), (.laneInvalidHeader l b drift, BKind.bad)])
    (h : laneBlock l k b drift s.dev = d) : runs c s d := by
  simp only [List.mem_cons, Prod.mk.injEq, List.not_mem_nil, or_false] at hc
  obtain ⟨rfl, rfl⟩ | ⟨rfl, rfl⟩ | ⟨rfl, rfl⟩ | ⟨rfl, rfl⟩ | ⟨rfl, rfl⟩ | ⟨rfl, rfl⟩ := hc
  · exact runs_onDev (f := laneBlock l .data b drift) rfl h
  · exact runs_onDev (f := laneBlock l .idle b drift) rfl h
  · exact runs_onDev (f := laneBlock l .skip b drift) rfl h
  · exact runs_onDev (f := laneBlock l .align b drift) rfl h
  · exact runs_onDev (f := laneBlock l .ctrl b drift) rfl h
  · exact runs_onDev (f := laneBlock l .bad b drift) rfl h

/-! ## The host direction's lanes wait for one another (R434) -/

/-- Words of lanes' pages beside those of their status. -/
abbrev laneCounters (as : List Nat) : Prop := ∀ a ∈ as, 0xB0000 ≤ a ∧ a < 0xBB000 ∧ a % 0x400 ≠ 0x180

theorem hostRx_of_words {d e : Dev} {as : List Nat} (h : onlyWords d e as) (has : laneCounters as) : e.hostRx = d.hostRx := by
  have htrained : e.laneTrained = d.laneTrained := funext fun l => by
    have haddr : LN_STAT_STATE.addr l 0 = 0xB0000 + 0x400 * l + 0x180 + 0 * 0 := lnAddr _ rfl l 0
    have hword := h (LN_STAT_STATE.addr l 0) fun hmem => by
      obtain ⟨_, _, hmod⟩ := has _ hmem
      omega
    exact congrArg (fun n => decide (n = lnACTIVE)) (fi_of_word (F := LN_STAT_STATE) hword)
  have hlanes : e.f HLP_CFG_RX_LANES = d.f HLP_CFG_RX_LANES := fi_of_word (h _ fun hmem => by
    obtain ⟨_, hlt, _⟩ := has _ hmem
    exact absurd hlt (by decide))
  unfold Dev.hostRx trainedRun
  rw [htrained, hlanes]

theorem deskew_room {l : Nat} (i : LnItem) {d : Dev} (h : l ∈ d.hostRx) (hroom : (d.lane l).q.length < 32) :
    deskew l i d = d.mapLane l fun x => { x with q := x.q ++ [i] } := by
  have hmem : d.hostRx.contains l = true := List.contains_iff_mem.mpr h
  exact if_neg (by rw [hmem]; simpa using hroom)

/-- A row waits for a lane that has no block. -/
theorem hostSettle_waits {d : Dev} {m : Nat} (h : m ∈ d.hostRx) (hq : (d.lane m).q = []) : hostSettle d = d := by
  unfold hostSettle
  dsimp only
  generalize d.hostRx.foldl (fun n l => n + (d.lane l).q.length) 0 = n
  cases n with
  | zero => rfl
  | succ n =>
    unfold hostPump
    dsimp only
    refine if_pos (.inr (List.any_eq_true.mpr ⟨none, List.mem_map.mpr ⟨m, h, ?_⟩, rfl⟩))
    rw [hq]
    rfl

/-- A block of a lane that waits for another. -/
theorem deskew_waits {l m : Nat} (i : LnItem) {d : Dev} (hl : l ∈ d.hostRx) (hm : m ∈ d.hostRx) (hne : m ≠ l)
    (hq : (d.lane m).q = []) (hroom : (d.lane l).q.length < 32) :
    hostSettle (deskew l i d) = d.mapLane l fun x => { x with q := x.q ++ [i] } := by
  rw [deskew_room i hl hroom]
  refine hostSettle_waits (m := m) ?_ ((congrArg LaneSt.q (lane_mapLane_ne hne ..)).trans hq)
  rw [hostRx_of_words (onlyWords_of_regs (regs_mapLane ..) []) (fun _ h => absurd h List.not_mem_nil)]
  exact hm

theorem deliver_host {l : Nat} (i : LnItem) (v : Option (BitVec 256)) {d : Dev} (hstart : (d.lane l).started = true)
    (hg : laneGroup l = 0) : deliver l i v d = hostSettle (deskew l i d) := by
  unfold deliver
  dsimp only
  rw [if_neg (by rw [hstart]; decide), if_pos hg]

theorem deliver_early {l : Nat} (i : LnItem) (v : Option (BitVec 256)) {d : Dev} (hstart : (d.lane l).started = false) :
    deliver l i v d = d := if_pos hstart

theorem deliver_satIdle {l : Nat} (i : LnItem) {d : Dev} (hg : laneGroup l ≠ 0) : deliver l i none d = d := by
  unfold deliver
  dsimp only
  rw [if_neg hg]
  exact ite_self d

/-! ## SKIP blocks (R442, R443) -/

theorem longRequest_of {d e : Dev} {as : List Nat} (hhlp : e.hlp = d.hlp) (hq : ∀ m, (e.lane m).q = (d.lane m).q)
    (h : onlyWords d e as) (has : laneCounters as) : e.longRequest = d.longRequest := by
  unfold Dev.longRequest
  dsimp only
  rw [hhlp, hostRx_of_words h has, funext hq]

/-- The elastic buffer's action on a SKIP block, by its fill. -/
theorem skipBlock_plain {l fill : Nat} {d : Dev} (hpost : (d.lane l).postponed = false)
    (hlong : laneGroup l ≠ 0 ∨ d.longRequest = false) (hfill : d.fi LN_EB_FILL_BITS l 0 = fill) (hroom : fill < 1040) :
    skipBlock l fill d =
      if 650 ≤ fill then (d.bumpI LN_SKIP_DEL l 0).setFi LN_EB_FILL_BITS l 0 (fill - 260)
      else if fill ≤ 390 then (d.bumpI LN_SKIP_INS l 0).setFi LN_EB_FILL_BITS l 0 (fill + 260) else d := by
  have hheld : ¬(laneGroup l = 0 ∧ d.longRequest = true) := fun hp =>
    hlong.elim (fun hg => hg hp.1) fun hno => absurd (hno.symm.trans hp.2) (by decide)
  have hdel : (d.bumpI LN_SKIP_DEL l 0).fi LN_EB_FILL_BITS l 0 = fill := (fi_bumpI_lane (by decide) ..).trans hfill
  have hins : (d.bumpI LN_SKIP_INS l 0).fi LN_EB_FILL_BITS l 0 = fill := (fi_bumpI_lane (by decide) ..).trans hfill
  unfold skipBlock skipDelete
  dsimp only
  rw [if_neg (by rw [hpost]; decide), if_neg hheld]
  refine ite_congr rfl (fun hfull => ?_) fun _ => ite_congr rfl (fun hempty => ?_) fun _ => rfl
  · exact ebMove_eq (by rw [hdel]; omega) (by omega)
  · exact ebMove_eq (by rw [hins]; omega) (by omega)

/-- What a SKIP block leaves. -/
theorem skipBlock_rules {l fill : Nat} {d : Dev} (hpost : (d.lane l).postponed = false)
    (hlong : laneGroup l ≠ 0 ∨ d.longRequest = false) (hfill : d.fi LN_EB_FILL_BITS l 0 = fill) (hroom : fill < 1040) :
    (skipBlock l fill d).fi LN_EB_FILL_BITS l 0 = (if 650 ≤ fill then fill - 260 else if fill ≤ 390 then fill + 260 else fill) ∧
      (skipBlock l fill d).fi LN_SKIP_DEL l 0 = (d.fi LN_SKIP_DEL l 0 + if 650 ≤ fill then 1 else 0) % 2 ^ 32 ∧
      (skipBlock l fill d).fi LN_SKIP_INS l 0 = (d.fi LN_SKIP_INS l 0 + if fill ≤ 390 then 1 else 0) % 2 ^ 32 ∧
      (skipBlock l fill d).lanes = d.lanes ∧
      onlyWords d (skipBlock l fill d) [LN_EB_FILL_BITS.addr l 0, LN_SKIP_DEL.addr l 0, LN_SKIP_INS.addr l 0] := by
  have hdel : d.fi LN_SKIP_DEL l 0 < 2 ^ 32 := bitsOf_lt _ 31 0
  have hins : d.fi LN_SKIP_INS l 0 < 2 ^ 32 := bitsOf_lt _ 31 0
  rw [skipBlock_plain hpost hlong hfill hroom]
  by_cases hfull : 650 ≤ fill
  case pos =>
    have hempty : ¬fill ≤ 390 := by omega
    simp only [if_pos hfull, if_neg hempty]
    refine ⟨fill_setFi _ (by omega), ?_, ?_, ?_, ?_⟩
    · rw [fi_setFi_lane (by decide)]
      exact Dev.fi_bumpI_same d rfl rfl l 0
    · rw [fi_setFi_lane (by decide), fi_bumpI_lane (by decide)]
      exact (Nat.mod_eq_of_lt hins).symm
    · rw [Dev.setFi_lanes, Dev.bumpI_def, Dev.setFi_lanes]
    · exact onlyWords_trans (onlyWords_bumpI d (by simp)) (onlyWords_setFi _ (by simp) _)
  case neg =>
    by_cases hempty : fill ≤ 390
    case pos =>
      simp only [if_neg hfull, if_pos hempty]
      refine ⟨fill_setFi _ (by omega), ?_, ?_, ?_, ?_⟩
      · rw [fi_setFi_lane (by decide), fi_bumpI_lane (by decide)]
        exact (Nat.mod_eq_of_lt hdel).symm
      · rw [fi_setFi_lane (by decide)]
        exact Dev.fi_bumpI_same d rfl rfl l 0
      · rw [Dev.setFi_lanes, Dev.bumpI_def, Dev.setFi_lanes]
      · exact onlyWords_trans (onlyWords_bumpI d (by simp)) (onlyWords_setFi _ (by simp) _)
    case neg =>
      simp only [if_neg hfull, if_neg hempty]
      exact ⟨hfill, (Nat.mod_eq_of_lt hdel).symm, (Nat.mod_eq_of_lt hins).symm, trivial, onlyWords_refl d _⟩

/-! ## ALIGN and CTRL blocks (R434, R449, R455, R456) -/

/-- An ALIGN block of a lane that waits for another. -/
theorem alignBlock_waits {l m : Nat} (v : BitVec 256) {d : Dev} (hlt : l < 44) (hg : laneGroup l = 0)
    (hstart : (d.lane l).started = true) (hl : l ∈ d.hostRx) (hm : m ∈ d.hostRx) (hne : m ≠ l) (hq : (d.lane m).q = [])
    (hroom : (d.lane l).q.length < 32) :
    ∃ n, alignBlock l v d = (d.mapLane l fun x =>
      { x with q := x.q ++ [.align (natOfBytes ((blockBytes v).take 4))] }).setFi LN_SKEW_BLOCKS l 0 n := by
  have haddr : LN_SKEW_BLOCKS.addr l 0 = 0xB0000 + 0x400 * l + 0x19C + 0 * 0 := lnAddr _ rfl l 0
  unfold alignBlock
  dsimp only
  rw [if_neg (by rw [hg, hstart]; decide), deskew_room _ hl hroom]
  refine ⟨_, hostSettle_waits (m := m) ?_ ?_⟩
  · rw [hostRx_of_words (onlyWords_trans (onlyWords_of_regs (regs_mapLane ..) [LN_SKEW_BLOCKS.addr l 0])
      (onlyWords_setFi _ (List.mem_singleton.mpr rfl) _)) fun a ha => by rw [List.mem_singleton.mp ha, haddr]; omega]
    exact hm
  · rw [lane_of_lanes (Dev.setFi_lanes ..), lane_mapLane_ne hne]
    exact hq

/-- The lane after its START. -/
def LaneSt.start (x : LaneSt) (fec : Bool) : LaneSt :=
  { x with started := true, awake := true, fec, prev := 0, bits := [], uncRun := 0 }

/-- A lane whose stream starts. -/
def laneStarted (l : Nat) (fec : Bool) (d : Dev) : Dev := (d.setFi LN_STAT_RX_SLEEP l 0 0).mapLane l fun x => x.start fec

theorem ctrlStart_awake {l : Nat} {d : Dev} (h : d.fi LN_STAT_RX_SLEEP l 0 = 0) :
    ctrlStart l d = laneStarted l (decide (d.fi LN_STAT_FEC_ACT l 0 = 1)) d := by
  have hfound : startMissed l d = false := by unfold startMissed; rw [h]; rfl
  have hfec : (d.setFi LN_STAT_RX_SLEEP l 0 0).fi LN_STAT_FEC_ACT l 0 = d.fi LN_STAT_FEC_ACT l 0 :=
    Dev.fi_setFi_ne _ _ _ _ _ _ _ _ (by decide) (by decide) (by decide) (.inr (by decide))
  unfold ctrlStart laneStarted
  rw [hfound, ← hfec]
  rfl

/-- The lane after a SLEEP row. -/
def LaneSt.sleep (x : LaneSt) : LaneSt := { x with fec := false, awake := false, bits := [], good := 0, margin := false }

/-- What a lane reports as its direction goes to sleep. -/
def sleepCounted (l : Nat) (d : Dev) : Dev := (d.setFi LN_STAT_RX_SLEEP l 0 1).bumpI LN_SLEEPS l 0

theorem ctrlSleep_eq (l : Nat) (d : Dev) : ctrlSleep l d = (sleepCounted l d).mapLane l LaneSt.sleep := rfl

theorem ctrlBlock_start {l : Nat} {v : BitVec 256} {d : Dev} (hcode : natOfBytes ((blockBytes v).take 1) = 2)
    (hst : (d.grp (laneGroup l)).state = lnACTIVE) : ctrlBlock l v d = ctrlStart l d := by
  unfold ctrlBlock
  dsimp only
  rw [hcode]
  exact if_pos hst

theorem ctrlBlock_sleep {l : Nat} {v : BitVec 256} {d : Dev} (hcode : natOfBytes ((blockBytes v).take 1) = 3)
    (hst : (d.grp (laneGroup l)).state = lnACTIVE) : ctrlBlock l v d = ctrlSleep l d := by
  unfold ctrlBlock
  dsimp only
  rw [hcode]
  exact if_pos hst

/-! ## Satellite lanes -/

theorem spBlock_align {p l : Nat} (v : BitVec 256) {d : Dev} (h : d.spState p = spALIGN) :
    spBlock p l v d = d.mapLane l fun x => { x with q := x.q ++ [.data v] } := by
  unfold spBlock
  rw [if_neg (by rw [h]; decide)]
  exact if_neg fun hup => absurd (h.symm.trans hup) (by decide)

/-! ## Codewords (R437) -/

/-- The lane after a codeword that could be corrected. -/
def LaneSt.corrected (x : LaneSt) (c : List Nat) : LaneSt :=
  { x with uncRun := 0, bits := x.bits ++ (rsMessage c).map fun b => (b, false) }

/-- The symbol register after a codeword, and what it corrected. -/
def fecCounted (l prev n : Nat) (d : Dev) : Dev := (d.mapLane l fun x => { x with prev }).addI LN_FEC_CORR l 0 n

theorem fecWord_corrected {l : Nat} {w : List (BitVec 10)} {c : List Nat} {n : Nat} {d : Dev} (hfec : (d.lane l).fec = true)
    (hlen : w.length = 272)
    (h : rsDecode (symsOf 272 (bitsOfSymbols (d.rxSymbols l (symbolsOf (w.flatMap fun s => symBits s.toNat))).1)) = some (c, n)) :
    fecWord l w d = (fecCounted l (d.rxSymbols l (symbolsOf (w.flatMap fun s => symBits s.toNat))).2 n d).mapLane l
      fun x => x.corrected c := by
  unfold fecWord
  rw [if_neg (by rw [hfec, hlen]; decide)]
  generalize d.rxSymbols l (symbolsOf (w.flatMap fun s => symBits s.toNat)) = r at h ⊢
  obtain ⟨ss, prev⟩ := r
  dsimp only at h ⊢
  rw [h]
  rfl

theorem fecCounted_rules (l prev n : Nat) (d : Dev) :
    (fecCounted l prev n d).fi LN_FEC_CORR l 0 = (d.fi LN_FEC_CORR l 0 + n) % 2 ^ 32 ∧
      ((fecCounted l prev n d).lane l).bits = (d.lane l).bits ∧ onlyWords d (fecCounted l prev n d) [LN_FEC_CORR.addr l 0] := by
  have heq : fecCounted l prev n d = (d.mapLane l fun x => { x with prev }).setFi LN_FEC_CORR l 0
      ((d.mapLane l fun x => { x with prev }).fi LN_FEC_CORR l 0 + n) := rfl
  have hold : (d.mapLane l fun x => { x with prev }).fi LN_FEC_CORR l 0 = d.fi LN_FEC_CORR l 0 :=
    Dev.fi_congr (regs_mapLane ..) ..
  rw [hold] at heq
  rw [heq]
  refine ⟨Dev.fi_setFi_same _ _ _ _ _ (by decide) (by decide), ?_,
    onlyWords_trans (onlyWords_of_regs (regs_mapLane ..) _) (onlyWords_setFi _ (List.mem_singleton.mpr rfl) _)⟩
  rw [lane_of_lanes (Dev.setFi_lanes ..), lane_mapLane_same]

/-! ## Adaptation (R447) -/

/-- How far a setting may move in one update. -/
def adaptsWithin (l : Nat) (d : Dev) (i : Nat) (now v : Int) : Prop :=
  now - d.fi LN_RX_CFG_STEP_MAX l 0 ≤ v ∧ v ≤ now + d.fi LN_RX_CFG_STEP_MAX l 0 ∧
    ((((d.lane l).eq0[i]?).getD 0 - d.fi LN_RX_CFG_DRIFT_MAX l 0 ≤ now → now ≤ ((d.lane l).eq0[i]?).getD 0 + d.fi LN_RX_CFG_DRIFT_MAX l 0 →
      ((d.lane l).eq0[i]?).getD 0 - d.fi LN_RX_CFG_DRIFT_MAX l 0 ≤ v ∧ v ≤ ((d.lane l).eq0[i]?).getD 0 + d.fi LN_RX_CFG_DRIFT_MAX l 0)) ∧
    (now = ((d.lane l).eq0[i]?).getD 0 - d.fi LN_RX_CFG_DRIFT_MAX l 0 ∨ now = ((d.lane l).eq0[i]?).getD 0 + d.fi LN_RX_CFG_DRIFT_MAX l 0 →
      v = now)

theorem adaptsWithin_refl (l : Nat) (d : Dev) (i : Nat) (now : Int) : adaptsWithin l d i now now :=
  ⟨by omega, by omega, fun h h' => ⟨h, h'⟩, fun _ => rfl⟩

/-- What an update keeps, and how it moves the settings of some indices. -/
structure Adapts (l : Nat) (P : Nat → Prop) (d e : Dev) : Prop where
  eq0 : (e.lane l).eq0 = (d.lane l).eq0
  q : (e.lane l).q = (d.lane l).q
  step : e.fi LN_RX_CFG_STEP_MAX l 0 = d.fi LN_RX_CFG_STEP_MAX l 0
  drift : e.fi LN_RX_CFG_DRIFT_MAX l 0 = d.fi LN_RX_CFG_DRIFT_MAX l 0
  moves : ∀ i v, (e.lane l).eq[i]? = some v →
    (d.lane l).eq[i]? = some v ∨ P i ∧ ∃ now, (d.lane l).eq[i]? = some now ∧ adaptsWithin l d i now v

theorem Adapts.refl (l : Nat) (P : Nat → Prop) (d : Dev) : Adapts l P d d := ⟨rfl, rfl, rfl, rfl, fun _ _ h => .inl h⟩

theorem Adapts.within {l : Nat} {P : Nat → Prop} {d e : Dev} (h : Adapts l P d e) {i : Nat} {now v : Int}
    (hv : adaptsWithin l e i now v) : adaptsWithin l d i now v := by
  unfold adaptsWithin at hv ⊢
  rwa [h.eq0, h.step, h.drift] at hv

/-- One index after others. -/
theorem Adapts.trans {l : Nat} {P Q R : Nat → Prop} {d e g : Dev} (h : Adapts l P d e) (h' : Adapts l Q e g)
    (hP : ∀ i, P i → R i) (hQ : ∀ i, Q i → R i) (hdisj : ∀ i, P i → ¬Q i) : Adapts l R d g := by
  refine ⟨h'.eq0.trans h.eq0, h'.q.trans h.q, h'.step.trans h.step, h'.drift.trans h.drift, fun i v hv => ?_⟩
  obtain hold | ⟨hQi, now, hnow, hwithin⟩ := h'.moves i v hv
  · obtain hsame | ⟨hPi, hmoved⟩ := h.moves i v hold
    · exact .inl hsame
    · exact .inr ⟨hP i hPi, hmoved⟩
  · obtain hsame | ⟨hPi, _⟩ := h.moves i now hnow
    · exact .inr ⟨hQ i hQi, now, hsame, h.within hwithin⟩
    · exact absurd hQi (hdisj i hPi)

theorem getElem?_setAt_some {α : Type} {l : List α} {n i : Nat} {b v : α} (h : (setAt l n b)[i]? = some v) :
    l[i]? = some v ∨ i = n ∧ v = b ∧ ∃ w, l[i]? = some w := by
  induction l generalizing n i with
  | nil => exact .inl h
  | cons a t ih =>
    cases n with
    | zero =>
      cases i with
      | zero => exact .inr ⟨rfl, (Option.some.inj h).symm, a, rfl⟩
      | succ i => exact .inl h
    | succ n =>
      cases i with
      | zero => exact .inl h
      | succ i =>
        obtain hold | ⟨hi, hv, hw⟩ := ih h
        · exact .inl hold
        · exact .inr ⟨congrArg (· + 1) hi, hv, hw⟩

/-- The value of a setting that an update moves to. -/
def adaptTo (l i : Nat) (delta : Int) (d : Dev) : Int :=
  let now := (((d.lane l).eq[i]?).getD 0)
  let base := (((d.lane l).eq0[i]?).getD 0)
  let step : Int := d.fi LN_RX_CFG_STEP_MAX l 0
  let drift : Int := d.fi LN_RX_CFG_DRIFT_MAX l 0
  clampInt (now - step) (now + step) (clampInt (base - drift) (base + drift) (eqClamp i (now + clampInt (-step) step delta)))

theorem clampInt_within (now base step drift u : Int) (hs : 0 ≤ step) (hd : 0 ≤ drift) :
    now - step ≤ clampInt (now - step) (now + step) (clampInt (base - drift) (base + drift) u) ∧
      clampInt (now - step) (now + step) (clampInt (base - drift) (base + drift) u) ≤ now + step ∧
      (base - drift ≤ now → now ≤ base + drift →
        base - drift ≤ clampInt (now - step) (now + step) (clampInt (base - drift) (base + drift) u) ∧
          clampInt (now - step) (now + step) (clampInt (base - drift) (base + drift) u) ≤ base + drift) := by
  unfold clampInt
  omega

theorem adaptTo_within {l i : Nat} (delta : Int) {d : Dev} {now : Int} (hnow : (d.lane l).eq[i]? = some now)
    (hlo : now ≠ ((d.lane l).eq0[i]?).getD 0 - d.fi LN_RX_CFG_DRIFT_MAX l 0)
    (hhi : now ≠ ((d.lane l).eq0[i]?).getD 0 + d.fi LN_RX_CFG_DRIFT_MAX l 0) : adaptsWithin l d i now (adaptTo l i delta d) := by
  obtain ⟨hdown, hup, hdrift⟩ := clampInt_within now (((d.lane l).eq0[i]?).getD 0) (d.fi LN_RX_CFG_STEP_MAX l 0)
    (d.fi LN_RX_CFG_DRIFT_MAX l 0) (eqClamp i (now + clampInt (-(d.fi LN_RX_CFG_STEP_MAX l 0)) (d.fi LN_RX_CFG_STEP_MAX l 0) delta))
    (Int.natCast_nonneg _) (Int.natCast_nonneg _)
  unfold adaptTo
  rw [hnow]
  exact ⟨hdown, hup, hdrift, fun h => (h.elim hlo hhi).elim⟩

/-- The lane with one setting moved. -/
def adaptMoved (l i : Nat) (v : Int) (d : Dev) : Dev :=
  d.setLane l { d.lane l with eq := setAt (d.lane l).eq i v, eqAt := SMap.set zeroNat (d.lane l).eqAt i (d.cyc + 1) }

/-- The count and the interrupt of a setting at its bound. -/
def clampCounted (l : Nat) (d : Dev) : Dev := (d.bumpI LN_ADAPT_CLAMP l 0).raiseI LN_IRQ_RAW_ADAPT_CLAMP l

def LaneSt.clamp (x : LaneSt) : LaneSt := { x with clamped := true }

/-- A setting at its drift bound is counted, and the first of an attempt written. -/
def adaptClamped (l : Nat) (d : Dev) : Dev :=
  if ((clampCounted l d).lane l).clamped then clampCounted l d
  else ((clampCounted l d).mapLane l LaneSt.clamp).emit 0x092 (lnPage l)

theorem adaptOne_eq (l i : Nat) (delta : Int) (d : Dev) :
    adaptOne l i delta d = d ∨
      (((d.lane l).eq[i]?).getD 0 ≠ ((d.lane l).eq0[i]?).getD 0 - d.fi LN_RX_CFG_DRIFT_MAX l 0 ∧
        ((d.lane l).eq[i]?).getD 0 ≠ ((d.lane l).eq0[i]?).getD 0 + d.fi LN_RX_CFG_DRIFT_MAX l 0 ∧
        (adaptOne l i delta d = adaptMoved l i (adaptTo l i delta d) d ∨
          adaptOne l i delta d = adaptClamped l (adaptMoved l i (adaptTo l i delta d) d))) := by
  unfold adaptOne
  dsimp only
  split
  case isTrue => exact .inl rfl
  case isFalse h =>
    obtain ⟨_, hlo, hhi, _⟩ : _ ∧ _ ∧ _ ∧ _ := by simpa only [not_or] using h
    refine .inr ⟨hlo, hhi, ?_⟩
    split
    · exact .inl rfl
    · exact .inr rfl

theorem lane_of_header (l : Nat) : (blkPage .ln l).base + 0x10 = 0xB0000 + 0x400 * (l % 44) + 0x10 := rfl

theorem lanes_clampCounted (l : Nat) (d : Dev) : (clampCounted l d).lanes = d.lanes := by
  unfold clampCounted
  rw [Dev.raiseI_def, Dev.raiseBits_lanes, Dev.bumpI_def, Dev.setFi_lanes]

theorem fi_clampCounted {F : Fld} (h : F.blk = .ln ∧ F.off = 0x110) (l : Nat) (d : Dev) :
    (clampCounted l d).fi F l 0 = d.fi F l 0 := by
  obtain ⟨hblk, hoff⟩ := h
  have haddr : F.addr l 0 = 0xB0000 + 0x400 * l + 0x110 + F.stride * 0 := by rw [lnAddr F hblk, hoff]
  have hraw := lane_of_header l
  have hword : otherWord LN_ADAPT_CLAMP F :=
    ⟨rfl, hblk, by decide, by rw [hoff]; decide, by rw [hoff]; decide⟩
  unfold clampCounted
  rw [Dev.raiseI_def, Dev.fi_raiseBits _ _ _ _ _ _ (by change _ ≠ (blkPage .ln l).base + 0x10; omega), fi_bumpI_lane hword]

/-- The settings and what bounds them are beside what a bound is reported with. -/
theorem adaptClamped_rules (l : Nat) (d : Dev) : ((adaptClamped l d).lane l).eq = (d.lane l).eq ∧
    ((adaptClamped l d).lane l).eq0 = (d.lane l).eq0 ∧ ((adaptClamped l d).lane l).q = (d.lane l).q ∧
    ∀ F : Fld, F.blk = .ln ∧ F.off = 0x110 → (adaptClamped l d).fi F l 0 = d.fi F l 0 := by
  have hlane : (clampCounted l d).lane l = d.lane l := lane_of_lanes (lanes_clampCounted l d) l
  have hfi : ∀ F : Fld, F.blk = .ln ∧ F.off = 0x110 → (clampCounted l d).fi F l 0 = d.fi F l 0 := fun F h => fi_clampCounted h l d
  unfold adaptClamped
  generalize clampCounted l d = e at hlane hfi ⊢
  split
  case isTrue => exact ⟨by rw [hlane], by rw [hlane], by rw [hlane], hfi⟩
  case isFalse =>
    have hmap : ((e.mapLane l LaneSt.clamp).emit 0x092 (lnPage l)).lane l = (e.lane l).clamp :=
      (lane_of_lanes (Dev.emitSrc_lanes ..) l).trans (lane_mapLane_same e l LaneSt.clamp)
    have hregs : ((e.mapLane l LaneSt.clamp).emit 0x092 (lnPage l)).regs = e.regs := (Dev.emitSrc_regs ..).trans (regs_mapLane ..)
    rw [hmap, hlane]
    exact ⟨rfl, rfl, rfl, fun F hF => (Dev.fi_congr hregs ..).trans (hfi F hF)⟩

theorem adapts_moved {l i : Nat} {delta : Int} {d : Dev}
    (hlo : ((d.lane l).eq[i]?).getD 0 ≠ ((d.lane l).eq0[i]?).getD 0 - d.fi LN_RX_CFG_DRIFT_MAX l 0)
    (hhi : ((d.lane l).eq[i]?).getD 0 ≠ ((d.lane l).eq0[i]?).getD 0 + d.fi LN_RX_CFG_DRIFT_MAX l 0) :
    Adapts l (· = i) d (adaptMoved l i (adaptTo l i delta d) d) := by
  have hlane := lane_setLane_same d l
    { d.lane l with eq := setAt (d.lane l).eq i (adaptTo l i delta d), eqAt := SMap.set zeroNat (d.lane l).eqAt i (d.cyc + 1) }
  refine ⟨(congrArg LaneSt.eq0 hlane :), (congrArg LaneSt.q hlane :), rfl, rfl, fun j v hj => ?_⟩
  have heq : ((adaptMoved l i (adaptTo l i delta d) d).lane l).eq = setAt (d.lane l).eq i (adaptTo l i delta d) :=
    (congrArg LaneSt.eq hlane :)
  rw [heq] at hj
  obtain hold | ⟨rfl, rfl, now, hnow⟩ := getElem?_setAt_some hj
  · exact .inl hold
  · rw [hnow] at hlo hhi
    exact .inr ⟨rfl, now, hnow, adaptTo_within delta hnow hlo hhi⟩

theorem adapts_adaptOne (l i : Nat) (delta : Int) (d : Dev) : Adapts l (· = i) d (adaptOne l i delta d) := by
  obtain heq | ⟨hlo, hhi, heq | heq⟩ := adaptOne_eq l i delta d
  · rw [heq]
    exact .refl l _ d
  · rw [heq]
    exact adapts_moved hlo hhi
  · rw [heq]
    obtain ⟨heq', heq0, hq, hfi⟩ := adaptClamped_rules l (adaptMoved l i (adaptTo l i delta d) d)
    obtain ⟨h0, h1, h2, h3, h4⟩ := adapts_moved (delta := delta) hlo hhi
    exact ⟨heq0.trans h0, hq.trans h1, (hfi _ ⟨rfl, rfl⟩).trans h2, (hfi _ ⟨rfl, rfl⟩).trans h3, fun j v hj => h4 j v (heq' ▸ hj)⟩

theorem adapts_all (l n : Nat) (ds : List Int) (d : Dev) :
    Adapts l (n ≤ ·) d ((ds.zipIdx n).foldl (fun d p => adaptOne l p.2 p.1 d) d) := by
  induction ds generalizing n d with
  | nil => exact .refl l _ d
  | cons x ds ih =>
    exact (adapts_adaptOne l n x d).trans (ih (n + 1) _) (fun i hi => Nat.le_of_eq hi.symm) (fun i hi => Nat.le_of_lt hi)
      fun i hi hlt => Nat.lt_irrefl _ (hi ▸ hlt)

theorem laneAdapt_eq {l : Nat} (ds : List Int) {d : Dev} (htrained : d.laneTrained l = true) (hrx : laneRx l = true)
    (hen : d.fi LN_RX_CFG_ADAPT_EN l 0 = 1) (hawake : d.fi LN_STAT_RX_SLEEP l 0 = 0) (hrich : d.blockRich l = true) :
    laneAdapt l ds d = eqRegs l ((ds.take (3 + laneTaps l)).zipIdx.foldl (fun d p => adaptOne l p.2 p.1 d) d) := by
  unfold laneAdapt
  rw [if_neg (by rw [htrained, hrx, hen, hawake, hrich]; decide)]

/-! ## The margin check (R448) -/

/-- The eye that a margin check has found. -/
def eyeFound (l w h : Nat) (d : Dev) : Dev :=
  (((d.mapLane l fun x => { x with margin := false }).setFi LN_EYE_H l 0 h).setFi LN_EYE_W l 0 w).bumpI LN_MARGIN_CHECKS l 0

theorem eyeFound_rules (l : Nat) {w h : Nat} (hw : w < 2 ^ 16) (hh : h < 2 ^ 16) (d : Dev) :
    ((eyeFound l w h d).lane l).margin = false ∧ (eyeFound l w h d).fi LN_EYE_W l 0 = w ∧ (eyeFound l w h d).fi LN_EYE_H l 0 = h ∧
      (eyeFound l w h d).fi LN_MARGIN_CHECKS l 0 = (d.fi LN_MARGIN_CHECKS l 0 + 1) % 2 ^ 32 ∧
      (eyeFound l w h d).fi LN_MARGIN_CFG_MIN_W l 0 = d.fi LN_MARGIN_CFG_MIN_W l 0 ∧
      (eyeFound l w h d).fi LN_MARGIN_CFG_MIN_H l 0 = d.fi LN_MARGIN_CFG_MIN_H l 0 ∧ (eyeFound l w h d).evq = d.evq := by
  have hregs : (d.mapLane l fun x => { x with margin := false }).regs = d.regs := regs_mapLane ..
  have hevq : (d.mapLane l fun x => { x with margin := false }).evq = d.evq := rfl
  have hlane : ((d.mapLane l fun x => { x with margin := false }).lane l).margin = false :=
    (congrArg LaneSt.margin (lane_mapLane_same d l fun x => { x with margin := false }) :)
  unfold eyeFound
  generalize (d.mapLane l fun x => { x with margin := false }) = e at hregs hevq hlane
  have hcfg : ∀ F : Fld, F.blk = .ln ∧ F.off = 0x11C →
      (((e.setFi LN_EYE_H l 0 h).setFi LN_EYE_W l 0 w).bumpI LN_MARGIN_CHECKS l 0).fi F l 0 = d.fi F l 0 := fun F hF => by
    obtain ⟨hblk, hoff⟩ := hF
    have hword : ∀ G : Fld, G.blk = .ln ∧ G.off < 0x400 ∧ G.off ≠ 0x11C → otherWord G F := fun G hG =>
      ⟨hG.1, hblk, hG.2.1, by rw [hoff]; decide, by rw [hoff]; exact hG.2.2⟩
    rw [fi_bumpI_lane (hword _ (by decide)), fi_setFi_lane (hword _ (by decide)), fi_setFi_lane (hword _ (by decide)),
      Dev.fi_congr hregs]
  refine ⟨?_, ?_, ?_, ?_, hcfg _ (by decide), hcfg _ (by decide), ?_⟩
  · rw [Dev.bumpI_def, lane_of_lanes (Dev.setFi_lanes ..), lane_of_lanes (Dev.setFi_lanes ..), lane_of_lanes (Dev.setFi_lanes ..)]
    exact hlane
  · rw [fi_bumpI_lane (by decide), Dev.fi_setFi_same _ _ _ _ _ (by decide) (by decide)]
    exact Nat.mod_eq_of_lt hw
  · rw [fi_bumpI_lane (by decide), Dev.fi_setFi_ne _ _ _ _ _ _ _ _ (by decide) (by decide) (by decide) (.inr (by decide)),
      Dev.fi_setFi_same _ _ _ _ _ (by decide) (by decide)]
    exact Nat.mod_eq_of_lt hh
  · rw [Dev.fi_bumpI_same _ rfl rfl, fi_setFi_lane (by decide), fi_setFi_lane (by decide), Dev.fi_congr hregs]
  · rw [Dev.bumpI_def, Dev.setFi_evq, Dev.setFi_evq, Dev.setFi_evq, hevq]

/-- The report of an eye too small. -/
def marginLow (l : Nat) (d : Dev) : Dev := (d.raiseI LN_IRQ_RAW_MARGIN_LOW l).emit 0x093 (lnPage l)

theorem laneMarginDone_eq {l : Nat} (w h : Nat) {d : Dev} (hm : (d.lane l).margin = true) : laneMarginDone l w h d =
    if w < (eyeFound l w h d).fi LN_MARGIN_CFG_MIN_W l 0 ∨ h < (eyeFound l w h d).fi LN_MARGIN_CFG_MIN_H l 0 then
      marginLow l (eyeFound l w h d)
    else eyeFound l w h d := by
  unfold laneMarginDone
  rw [if_neg (by rw [hm]; decide)]
  rfl

theorem marginLow_rules (l : Nat) (d : Dev) : (marginLow l d).lanes = d.lanes ∧ (∃ x, (marginLow l d).evq = d.evq ++ [x] ∧ x.code = 0x093) ∧
    ∀ F : Fld, F.blk = .ln ∧ 0x40 ≤ F.off ∧ F.off < 0x400 → (marginLow l d).fi F l 0 = d.fi F l 0 := by
  obtain ⟨x, hx, hcode⟩ := evq_emit (d.raiseI LN_IRQ_RAW_MARGIN_LOW l) 0x093 (lnPage l) []
  refine ⟨?_, ⟨x, hx.trans ?_, hcode⟩, fun F hF => ?_⟩
  · exact Dev.raiseBits_lanes ..
  · rw [Dev.raiseI_def, Dev.raiseBits_evq]
  · obtain ⟨hblk, hlo, hhi⟩ := hF
    have hraw := lane_of_header l
    have haddr := lnAddr F hblk l 0
    exact Dev.fi_raiseBits _ _ _ _ _ _ (by change _ ≠ (blkPage .ln l).base + 0x10; omega)

end Sys2Proof.Machine
end

section
/-! SUPPORT. The blocks of a lane, by kind (R430 to R443, R455, R456). -/
namespace Sys2Proof.Machine

/-- Commands by the kind of block they name. -/
abbrev blockCommands (l : Fin 44) (b : BitVec 260) (drift : Int) : List (Instr × BKind) :=
  [(.laneDataBlock l b drift, .data), (.laneIdleBlock l b drift, .idle), (.laneSkipBlock l b drift, .skip),
    (.laneAlignRow l b drift, .align), (.laneCtrlBlock l b drift, .ctrl), (.laneInvalidHeader l b drift, .bad)]

/-- A block with a good header that a lane with lock takes. -/
theorem block_received {c : Instr} {k : BKind} {l : Fin 44} {b : BitVec 260} {drift : Int} {fill : Nat} {s : State}
    (hc : (c, k) ∈ blockCommands l b drift) (hkind : kindOf (s.dev.rxBlock l b).1 = some k)
    (h : Receives l false drift fill s.dev) :
    ∃ e, Taken l k false (s.dev.rxBlock l b).2.1 b (s.dev.rxBlock l b).2.2 fill s.dev e ∧
      runs c s (if (s.dev.lane l).slipped then
          blockOut l (slipKind l k) (descramble (s.dev.lane l).desc (s.dev.rxBlock l b).2.1).1 e
        else blockOut l k (descramble (s.dev.lane l).desc (s.dev.rxBlock l b).2.1).1 (if k = .skip then skipBlock l fill e else e)) := by
  obtain ⟨e, htaken, heq⟩ := laneBlock_taken (l := l) (k := k) (b := b) (by rw [hkind]; rfl) (by rw [hkind]; exact h)
  rw [hkind] at htaken
  exact ⟨e, htaken, runs_block hc heq⟩

/-- The same of a lane that has not slipped, for the kinds that the elastic buffer passes on. -/
theorem block_acts {c : Instr} {k : BKind} {l : Fin 44} {b : BitVec 260} {drift : Int} {fill : Nat} {s : State}
    (hc : (c, k) ∈ blockCommands l b drift) (hkind : kindOf (s.dev.rxBlock l b).1 = some k) (hskip : k ≠ .skip)
    (hslip : (s.dev.lane l).slipped = false) (h : Receives l false drift fill s.dev) :
    ∃ e, Taken l k false (s.dev.rxBlock l b).2.1 b (s.dev.rxBlock l b).2.2 fill s.dev e ∧
      runs c s (blockOut l k (descramble (s.dev.lane l).desc (s.dev.rxBlock l b).2.1).1 e) := by
  obtain ⟨e, htaken, hrun⟩ := block_received hc hkind h
  rw [hslip, if_neg (by decide), if_neg hskip] at hrun
  exact ⟨e, htaken, hrun⟩

theorem Taken.fill_only {l : Nat} {k : BKind} {v : BitVec 256} {b : BitVec 260} {prev fill : Nat} {d e : Dev}
    (h : Taken l k false v b prev fill d e) (hslip : (d.lane l).slipped = false) :
    onlyWords d e [LN_EB_FILL_BITS.addr l 0] := by
  have hwords := h.words
  rwa [hslip] at hwords

theorem Taken.counted {l : Nat} {k : BKind} {bad : Bool} {v : BitVec 256} {b : BitVec 260} {prev fill : Nat} {d e : Dev}
    (h : Taken l k bad v b prev fill d e) : onlyWords d e [LN_EB_FILL_BITS.addr l 0, LN_HDR_ERR.addr l 0] := by
  refine onlyWords_mono h.words fun a ha => ?_
  obtain rfl | hmem := List.mem_cons.mp ha
  · exact List.mem_cons_self
  · split at hmem
    · exact List.mem_cons_of_mem _ hmem
    · exact absurd hmem List.not_mem_nil

section Addresses
variable (l : Fin 44)

theorem laneCounters_counted : laneCounters [LN_EB_FILL_BITS.addr l 0, LN_HDR_ERR.addr l 0] := fun a ha => by
  have hfill : LN_EB_FILL_BITS.addr l 0 = 0xB0000 + 0x400 * l.val + 0x1A0 + 0 * 0 := lnAddr _ rfl l 0
  have herrs : LN_HDR_ERR.addr l 0 = 0xB0000 + 0x400 * l.val + 0x3C8 + 0 * 0 := lnAddr _ rfl l 0
  obtain rfl | hmem := List.mem_cons.mp ha
  · omega
  · rw [List.mem_singleton.mp hmem]
    omega

end Addresses

section Parts
variable {l : Nat} {k : BKind} {bad : Bool} {v : BitVec 256} {b : BitVec 260} {prev fill : Nat} {d e : Dev}
  (h : Taken l k bad v b prev fill d e)
include h

theorem Taken.keeps {β : Type} (part : Dev → β) (hpart : ∀ x d, part (takeLane x d) = part d) : part e = part d :=
  (congrArg part h.frame).trans (hpart e d)

theorem Taken.queue (m : Nat) : (e.lane m).q = (d.lane m).q := by
  by_cases hm : m = l
  · rw [hm, h.lane]
    rfl
  · rw [h.other m hm]

theorem Taken.started : (e.lane l).started = (d.lane l).started := by rw [h.lane]; rfl

theorem Taken.postponed : (e.lane l).postponed = (d.lane l).postponed := by rw [h.lane]; rfl

theorem Taken.desc : (e.lane l).desc = (descramble (d.lane l).desc v).2 := by rw [h.lane]; rfl

theorem Taken.idleOnly : (e.lane l).idleOnly = decide (k = .idle ∨ k = .skip) := by rw [h.lane]; rfl

/-- Words beside those of the fill and of the bad headers. -/
theorem Taken.field {F : Fld} (hF : F.blk = .ln ∧ F.off < 0x400 ∧ F.off ≠ 0x1A0 ∧ F.off ≠ 0x3C8) (m : Nat) :
    e.fi F m 0 = d.fi F m 0 := by
  obtain ⟨hblk, hoff, hfill, herrs⟩ := hF
  refine fi_of_word (h.counted _ fun hmem => ?_)
  obtain heq | heq := List.mem_cons.mp hmem
  · exact otherWord_addr (F := F) (G := LN_EB_FILL_BITS) ⟨hblk, rfl, hoff, by decide, hfill⟩ m l heq
  · exact otherWord_addr (F := F) (G := LN_HDR_ERR) ⟨hblk, rfl, hoff, by decide, herrs⟩ m l (List.mem_singleton.mp heq)

end Parts

/-! ## Blocks that say nothing (R442) -/

theorem blockOut_idle {l : Nat} (r : BitVec 256) {e : Dev} (h : laneGroup l ≠ 0 ∨ (e.lane l).started = false) :
    blockOut l .idle r e = e := h.elim (fun hg => deliver_satIdle .idle hg) fun hs => deliver_early .idle none hs

/-- In the place of an IDLE block that a slip has discarded. -/
theorem blockOut_slippedIdle {l : Nat} (r : BitVec 256) {e : Dev} (h : laneGroup l ≠ 0 ∨ (e.lane l).started = false) :
    blockOut l (slipKind l .idle) r e = e := by
  unfold slipKind
  dsimp only
  split
  case isTrue hg => exact deliver_early .lost (some allOnes256) (h.resolve_left (not_not.mpr hg))
  case isFalse => rfl

/-- A block of an idle row, on a lane whose stream has not begun or is a satellite's. -/
theorem idle_silent {l : Fin 44} {b : BitVec 260} {drift : Int} {fill : Nat} {s : State}
    (hkind : kindOf (s.dev.rxBlock l b).1 = some .idle) (h : Receives l false drift fill s.dev)
    (hquiet : laneGroup l ≠ 0 ∨ (s.dev.lane l).started = false) :
    ∃ e, Taken l .idle false (s.dev.rxBlock l b).2.1 b (s.dev.rxBlock l b).2.2 fill s.dev e ∧ runs (.laneIdleBlock l b drift) s e := by
  obtain ⟨e, htaken, hrun⟩ := block_received (c := .laneIdleBlock l b drift) (by simp) hkind h
  have hquiet' : laneGroup l ≠ 0 ∨ (e.lane l).started = false := hquiet.imp_right (htaken.started.trans ·)
  rw [blockOut_slippedIdle _ hquiet', if_neg (by decide : ¬BKind.idle = .skip), blockOut_idle _ hquiet', ite_self] at hrun
  exact ⟨e, htaken, hrun⟩

/-- A lane of the host direction that has room, while another has no block. -/
structure HostWaits (l m : Nat) (d : Dev) : Prop where
  group : laneGroup l = 0
  started : (d.lane l).started = true
  mine : l ∈ d.hostRx
  other : m ∈ d.hostRx
  ne : m ≠ l
  empty : (d.lane m).q = []
  room : (d.lane l).q.length < 32

theorem HostWaits.taken {l m : Nat} {k : BKind} {bad : Bool} {v : BitVec 256} {b : BitVec 260} {prev fill : Nat} {d e : Dev}
    (hw : HostWaits l m d) (hl : l < 44) (h : Taken l k bad v b prev fill d e) : HostWaits l m e := by
  have hrx : e.hostRx = d.hostRx := hostRx_of_words h.counted (laneCounters_counted ⟨l, hl⟩)
  obtain ⟨hg, hs, hmine, hother, hne, hq, hroom⟩ := hw
  exact ⟨hg, h.started.trans hs, hrx ▸ hmine, hrx ▸ hother, hne, (h.queue m).trans hq, (h.queue l) ▸ hroom⟩

/-- A lane that queues an item. -/
def queued (l : Nat) (i : LnItem) (d : Dev) : Dev := d.mapLane l fun x => { x with q := x.q ++ [i] }

theorem deliver_waits {l m : Nat} (i : LnItem) (v : Option (BitVec 256)) {d : Dev} (h : HostWaits l m d) :
    deliver l i v d = queued l i d :=
  (deliver_host i v h.started h.group).trans (deskew_waits i h.mine h.other h.ne h.empty h.room)

theorem queued_rules (l : Nat) (i : LnItem) (d : Dev) : ((queued l i d).lane l).q = (d.lane l).q ++ [i] ∧
    (∀ m, m ≠ l → (queued l i d).lane m = d.lane m) ∧ (queued l i d).hlp = d.hlp ∧ (queued l i d).regs = d.regs ∧
    ((queued l i d).lane l).desc = (d.lane l).desc :=
  ⟨(congrArg LaneSt.q (lane_mapLane_same d l fun x => { x with q := x.q ++ [i] }) :), fun _ hne => lane_mapLane_ne hne .., rfl, rfl,
    (congrArg LaneSt.desc (lane_mapLane_same d l fun x => { x with q := x.q ++ [i] }) :)⟩

/-- A block of an idle row of the host direction: it waits, or what a slip leaves in its place does. -/
theorem idle_waits {l : Fin 44} {m : Nat} {b : BitVec 260} {drift : Int} {fill : Nat} {s : State}
    (hkind : kindOf (s.dev.rxBlock l b).1 = some .idle) (h : Receives l false drift fill s.dev) (hw : HostWaits l m s.dev) :
    ∃ e, Taken l .idle false (s.dev.rxBlock l b).2.1 b (s.dev.rxBlock l b).2.2 fill s.dev e ∧
      runs (.laneIdleBlock l b drift) s (queued l (if (s.dev.lane l).slipped then .lost else .idle) e) := by
  obtain ⟨e, htaken, hrun⟩ := block_received (c := .laneIdleBlock l b drift) (by simp) hkind h
  have hwaits := hw.taken l.isLt htaken
  have hkindSlip : slipKind l .idle = .bad := if_pos hw.group
  refine ⟨e, htaken, ?_⟩
  rw [hkindSlip, if_neg (by decide : ¬BKind.idle = .skip)] at hrun
  cases hslip : (s.dev.lane l).slipped
  case true =>
    rw [hslip, if_pos rfl] at hrun
    rw [if_pos rfl, ← deliver_waits .lost (some allOnes256) hwaits]
    exact hrun
  case false =>
    rw [hslip, if_neg (by decide)] at hrun
    rw [if_neg (by decide), ← deliver_waits .idle none hwaits]
    exact hrun

/-- A DATA block on a satellite lane whose port aligns. -/
theorem deliver_aligning {p l : Nat} {v : BitVec 256} {e : Dev} (hg : laneGroup l = 1 + p) (hstart : (e.lane l).started = true)
    (hport : e.spState p = spALIGN) : blockOut l .data v e = queued l (.data v) e := by
  have hgroup : laneGroup l - 1 = p := by omega
  change deliver l (.data v) (some v) e = _
  unfold deliver
  dsimp only
  rw [if_neg (by rw [hstart]; decide), if_neg (by omega), hgroup]
  exact spBlock_align v hport

/-! ## START and SLEEP -/

theorem started_rules (l : Nat) (fec : Bool) {d : Dev} (h : d.fi LN_STAT_RX_SLEEP l 0 = 0) :
    (laneStarted l fec d).lane l = (d.lane l).start fec ∧ (∀ m, m ≠ l → (laneStarted l fec d).lane m = d.lane m) ∧
      onlyWords d (laneStarted l fec d) [] := by
  have hlanes := Dev.setFi_lanes d LN_STAT_RX_SLEEP l 0 0
  have hwords : onlyWords d (d.setFi LN_STAT_RX_SLEEP l 0 0) [] := fun a _ =>
    word_setFi_held (F := LN_STAT_RX_SLEEP) (by decide) (by decide) h a
  refine ⟨(lane_mapLane_same ..).trans (by rw [lane_of_lanes hlanes]), fun m hne => ?_, onlyWords_regs hwords (regs_mapLane ..)⟩
  exact (lane_mapLane_ne hne ..).trans (lane_of_lanes hlanes m)

theorem sleepCounted_rules (l : Nat) (d : Dev) : (sleepCounted l d).lanes = d.lanes ∧
    (sleepCounted l d).fi LN_STAT_RX_SLEEP l 0 = 1 ∧ (sleepCounted l d).fi LN_SLEEPS l 0 = (d.fi LN_SLEEPS l 0 + 1) % 2 ^ 32 ∧
    onlyWords d (sleepCounted l d) [LN_STAT_RX_SLEEP.addr l 0, LN_SLEEPS.addr l 0] := by
  unfold sleepCounted
  refine ⟨?_, ?_, ?_, onlyWords_trans (onlyWords_setFi d (by simp) 1) (onlyWords_bumpI _ (by simp))⟩
  · rw [Dev.bumpI_def, Dev.setFi_lanes, Dev.setFi_lanes]
  · exact (fi_bumpI_lane (by decide) ..).trans (Dev.fi_setFi_same _ _ _ _ _ (by decide) (by decide))
  · rw [Dev.fi_bumpI_same _ rfl rfl, fi_setFi_lane (by decide)]

theorem slept_rules (l : Nat) (d : Dev) : (ctrlSleep l d).fi LN_STAT_RX_SLEEP l 0 = 1 ∧
    (ctrlSleep l d).fi LN_SLEEPS l 0 = (d.fi LN_SLEEPS l 0 + 1) % 2 ^ 32 ∧ ((ctrlSleep l d).lane l).awake = false ∧
    (∀ m, m ≠ l → (ctrlSleep l d).lane m = d.lane m) ∧
    onlyWords d (ctrlSleep l d) [LN_STAT_RX_SLEEP.addr l 0, LN_SLEEPS.addr l 0] := by
  obtain ⟨hlanes, hsleep, hcount, hwords⟩ := sleepCounted_rules l d
  rw [ctrlSleep_eq]
  exact ⟨(Dev.fi_congr (regs_mapLane ..) ..).trans hsleep, (Dev.fi_congr (regs_mapLane ..) ..).trans hcount,
    (congrArg LaneSt.awake (lane_mapLane_same (sleepCounted l d) l LaneSt.sleep) :),
    fun m hne => (lane_mapLane_ne hne ..).trans (lane_of_lanes hlanes m), onlyWords_regs hwords (regs_mapLane ..)⟩

/-! ## A codeword -/

theorem corrected_rules (l prev n : Nat) (c : List Nat) (d : Dev) :
    ((fecCounted l prev n d).mapLane l fun x => x.corrected c).fi LN_FEC_CORR l 0 = (d.fi LN_FEC_CORR l 0 + n) % 2 ^ 32 ∧
      (((fecCounted l prev n d).mapLane l fun x => x.corrected c).lane l).uncRun = 0 ∧
      (((fecCounted l prev n d).mapLane l fun x => x.corrected c).lane l).bits.map (·.1) =
        (d.lane l).bits.map (·.1) ++ rsMessage c ∧
      onlyWords d ((fecCounted l prev n d).mapLane l fun x => x.corrected c) [LN_FEC_CORR.addr l 0] := by
  obtain ⟨hcount, hbits, hwords⟩ := fecCounted_rules l prev n d
  have hlane := lane_mapLane_same (fecCounted l prev n d) l fun x => x.corrected c
  refine ⟨(Dev.fi_congr (regs_mapLane ..) ..).trans hcount, congrArg LaneSt.uncRun hlane,
    (congrArg (fun x : LaneSt => x.bits.map (·.1)) hlane).trans ?_, onlyWords_regs hwords (regs_mapLane ..)⟩
  change ((((fecCounted l prev n d).lane l).bits ++ (rsMessage c).map fun b => (b, false)).map (·.1)) = _
  rw [hbits, List.map_append, List.map_map]
  exact congrArg _ (List.map_id _)

end Sys2Proof.Machine

open Sys2Proof Sys2Proof.Machine

/-- Settles O40: blocks move the search for the boundary; with lock a block is descrambled and counted and moves the elastic
buffer, and then acts by its kind; a codeword is corrected, a setting of the equaliser moves within its bounds, and a
margin check reports the eye it finds. -/
theorem laneBlocksAreReceived : Obligations.LaneBlocksAreReceived := by
  unfold Obligations.LaneBlocksAreReceived
  refine ⟨?good, ?settling, ?slips, ?idle, ?waits, ?skip, ?data, ?bad, ?codeword, ?adapt, ?check, ?eye, ?align, ?start, ?sleep⟩
  case good =>
    intro c k l b drift s hc hkind hhears hlock hdiscard hgood
    have hmem : (c, k) ∈ blockCommands l b drift := List.mem_append_left [(Instr.laneInvalidHeader l b drift, BKind.bad)] hc
    have hblock := laneBlock_search b drift (k := k) (by rw [hkind]; rfl) hhears hlock
    rw [hkind, Option.isSome_some, syncBlock_good hdiscard hgood] at hblock
    exact ⟨_, runs_block hmem hblock, rfl, lane_setLane_same ..⟩
  case settling =>
    intro c l b drift s hc hhears hlock hdiscard
    obtain ⟨rfl, hkind⟩ | ⟨rfl, hkind⟩ := hc
    · have hblock := laneBlock_search b drift (k := .data) (by rw [hkind]; rfl) hhears hlock
      rw [syncBlock_settling _ hdiscard] at hblock
      exact ⟨_, runs_block (by simp) hblock, rfl, lane_setLane_same ..⟩
    · have hblock := laneBlock_search b drift (k := .bad) (by rw [hkind]; rfl) hhears hlock
      rw [syncBlock_settling _ hdiscard] at hblock
      exact ⟨_, runs_block (by simp) hblock, rfl, lane_setLane_same ..⟩
  case slips =>
    intro l b drift s hkind hhears hlock hdiscard
    have hblock := laneBlock_search b drift (k := .bad) (by rw [hkind]; rfl) hhears hlock
    rw [hkind, Option.isSome_none, syncBlock_slips hdiscard] at hblock
    exact ⟨_, runs_block (c := .laneInvalidHeader l b drift) (by simp) hblock, rfl, lane_setLane_same ..⟩
  case idle =>
    intro l b drift fill s hkind hhears hlock hawake hplain hsteady hmoves hsome hroom hquiet
    obtain ⟨e, htaken, hrun⟩ := idle_silent hkind ⟨hhears, hlock, hawake, hplain, hsteady, hmoves, hsome, hroom⟩ hquiet
    exact ⟨e, hrun, htaken.desc, htaken.fill, htaken.idleOnly, htaken.queue l, htaken.errs, htaken.counted⟩
  case waits =>
    intro l b drift fill m s hkind hhears hlock hawake hplain hsteady hmoves hsome hroom hg hstart hmine hother hne hq hlen
    obtain ⟨e, htaken, hrun⟩ := idle_waits hkind ⟨hhears, hlock, hawake, hplain, hsteady, hmoves, hsome, hroom⟩
      ⟨hg, hstart, hmine, hother, hne, hq, hlen⟩
    obtain ⟨hqueue, hlanes, hhlp, hregs, _⟩ := queued_rules l (if (s.dev.lane l).slipped then .lost else .idle) e
    refine ⟨_, hrun, hqueue.trans (by rw [htaken.queue]), fun k hk => (hlanes k hk).trans (htaken.other k hk),
      hhlp.trans (htaken.keeps Dev.hlp fun _ _ => rfl), (Dev.fi_congr hregs ..).trans htaken.errs, onlyWords_regs htaken.counted hregs⟩
  case skip =>
    intro l b drift fill s hkind hhears hlock hawake hplain hslip hpost hlong hsteady hmoves hsome hroom
    obtain ⟨e, htaken, hrun⟩ := block_received (c := .laneSkipBlock l b drift) (by simp) hkind
      ⟨hhears, hlock, hawake, hplain, hsteady, hmoves, hsome, hroom⟩
    rw [hslip, if_neg (by decide), if_pos rfl] at hrun
    have hlong' : laneGroup l ≠ 0 ∨ e.longRequest = false := hlong.imp_right
      ((longRequest_of (htaken.keeps Dev.hlp fun _ _ => rfl) htaken.queue htaken.counted (laneCounters_counted l)).trans ·)
    obtain ⟨hfill, hdel, hins, hlanes, hwords⟩ := skipBlock_rules (htaken.postponed.trans hpost) hlong' htaken.fill hroom
    refine ⟨_, hrun, hfill, ?_, ?_, ?_, ?_, ?_⟩
    · rw [← htaken.field (F := LN_SKIP_DEL) (by decide)]; exact hdel
    · rw [← htaken.field (F := LN_SKIP_INS) (by decide)]; exact hins
    · exact (congrArg LaneSt.idleOnly (lane_of_lanes hlanes l)).trans htaken.idleOnly
    · exact (congrArg LaneSt.q (lane_of_lanes hlanes l)).trans (htaken.queue l)
    · exact onlyWords_trans (onlyWords_mono (htaken.fill_only hslip) (by simp)) hwords
  case data =>
    intro l b drift fill p s hkind hhears hlock hg hst hstart hslip hawake hplain hsteady hmoves hsome hroom
    obtain ⟨e, htaken, hrun⟩ := block_acts (c := .laneDataBlock l b drift) (by simp) hkind (by decide) hslip
      ⟨hhears, hlock, hawake, hplain, hsteady, hmoves, hsome, hroom⟩
    have hport : e.spState p = spALIGN := (fi_of_word (htaken.fill_only hslip _ fun hmem => by
      have haddr : LN_EB_FILL_BITS.addr l 0 = 0xB0000 + 0x400 * l.val + 0x1A0 + 0 * 0 := lnAddr _ rfl l 0
      have hstate : SP_PORT_STAT_STATE.addr p 0 = 0xC0000 + 0x1000 * p + 0x1C0 + 0 * 0 := spAddr _ rfl p 0
      have heq := List.mem_singleton.mp hmem
      omega)).trans hst
    have hdesc := htaken.desc
    generalize descramble (s.dev.lane l).desc (s.dev.rxBlock l b).2.1 = r at hrun hdesc ⊢
    have hact : blockOut l .data r.1 e = queued l (.data r.1) e :=
      deliver_aligning hg (htaken.started.trans hstart) hport
    rw [hact] at hrun
    obtain ⟨hqueue, _, _, hregs, hdesc'⟩ := queued_rules l (.data r.1) e
    exact ⟨_, hrun, hdesc'.trans hdesc, hqueue.trans (by rw [htaken.queue]), (Dev.fi_congr hregs ..).trans htaken.fill,
      onlyWords_regs (htaken.fill_only hslip) hregs⟩
  case bad =>
    intro l b drift fill s hkind hhears hlock hstart hawake hplain hsteady hmoves hsome hroom
    obtain ⟨e, htaken, heq⟩ := laneBlock_taken (l := l) (k := .bad) (b := b) (d := s.dev) (by rw [hkind]; rfl)
      (by rw [hkind]; exact ⟨hhears, hlock, hawake, hplain, hsteady, hmoves, hsome, hroom⟩)
    rw [hkind] at htaken
    have hsilent : ∀ r, blockOut l .bad r e = e := fun _ => deliver_early .lost (some allOnes256) (htaken.started.trans hstart)
    have hkindSlip : slipKind l .bad = .bad := rfl
    rw [hkindSlip, if_neg (by decide : ¬BKind.bad = .skip), hsilent, ite_self] at heq
    exact ⟨e, runs_block (c := .laneInvalidHeader l b drift) (by simp) heq, htaken.errs, htaken.desc, htaken.counted⟩
  case codeword =>
    intro l w x c n s hfec hlen hx hdec
    rw [hx] at hdec
    exact ⟨_, runs_onDev (c := .fecCodeword l w) (f := fecWord l w) rfl (fecWord_corrected hfec hlen hdec), corrected_rules ..⟩
  case adapt =>
    intro l ds s htrained hrx hen hawake hrich
    have hadapts := adapts_all l 0 (ds.take (3 + laneTaps l)) s.dev
    have hlane : (laneAdapt l ds s.dev).lane l = (((ds.take (3 + laneTaps l)).zipIdx 0).foldl (fun d p => adaptOne l p.2 p.1 d) s.dev).lane l :=
      (congrArg (fun e => e.lane l) (laneAdapt_eq ds htrained hrx hen hawake hrich)).trans
        (lane_of_lanes (eqRegs_keeps Dev.lanes (fun _ _ _ _ _ => Dev.setFi_lanes ..) l _) l)
    refine ⟨_, runs_onDev (c := .laneAdaptUpdate l ds) (f := laneAdapt l ds) rfl rfl, (congrArg LaneSt.eq0 hlane).trans hadapts.eq0,
      (congrArg LaneSt.q hlane).trans hadapts.q, fun i v now lo hi hv hnow hlo hhi => ?_⟩
    subst hlo hhi
    rw [hlane] at hv
    obtain hsame | ⟨_, old, hold, hwithin⟩ := hadapts.moves i v hv
    · rw [hsame] at hnow
      exact hnow ▸ adaptsWithin_refl l s.dev i v
    · rw [hold] at hnow
      exact hnow ▸ hwithin
  case check =>
    intro l s htrained hrx hidle hawake
    exact ⟨_, runs_onDev (c := .laneMarginCheck l) (f := fun d =>
      if d.laneTrained l ∧ laneRx l ∧ (d.lane l).idleOnly ∧ d.fi LN_STAT_RX_SLEEP l 0 = 0 then
        d.mapLane l fun x => { x with margin := true }
      else d) rfl (if_pos ⟨htrained, hrx, hidle, hawake⟩), rfl, lane_mapLane_same ..⟩
  case eye =>
    intro l w h s hm
    obtain ⟨hmargin, hw, hh, hchecks, hminW, hminH, hevq⟩ := eyeFound_rules l w.isLt h.isLt s.dev
    have hdone := laneMarginDone_eq w.toNat h.toNat hm
    rw [hminW, hminH] at hdone
    generalize eyeFound l w.toNat h.toNat s.dev = e at hmargin hw hh hchecks hevq hdone
    refine ⟨_, runs_onDev (c := .laneMarginDone l w h) (f := laneMarginDone l w.toNat h.toNat) rfl hdone, ?_⟩
    split
    case isTrue hlow =>
      obtain ⟨hlanes, ⟨x, hx, hcode⟩, hfi⟩ := marginLow_rules l e
      exact ⟨(congrArg LaneSt.margin (lane_of_lanes hlanes l)).trans hmargin, (hfi _ (by decide)).trans hw,
        (hfi _ (by decide)).trans hh, (hfi _ (by decide)).trans hchecks, iff_of_true ⟨x, by rw [hx, hevq], hcode⟩ hlow⟩
    case isFalse hwide =>
      refine ⟨hmargin, hw, hh, hchecks, iff_of_false (fun hev => ?_) hwide⟩
      obtain ⟨x, hx, _⟩ := hev
      rw [hevq] at hx
      exact absurd (congrArg List.length hx) (by simp)
  case align =>
    intro l b drift fill m v s hkind hhears hlock hawake hplain hslip hsteady hmoves hsome hroom hv hg hstart hmine hother hne hq hlen
    subst hv
    obtain ⟨e, htaken, hrun⟩ := block_acts (c := .laneAlignRow l b drift) (by simp) hkind (by decide) hslip
      ⟨hhears, hlock, hawake, hplain, hsteady, hmoves, hsome, hroom⟩
    obtain ⟨hg', hs', hmine', hother', hne', hq', hroom'⟩ :=
      HostWaits.taken (m := m) ⟨hg, hstart, hmine, hother, hne, hq, hlen⟩ l.isLt htaken
    generalize (descramble (s.dev.lane l).desc (s.dev.rxBlock l b).2.1).1 = v at hrun ⊢
    obtain ⟨n, hact⟩ := alignBlock_waits v l.isLt hg' hs' hmine' hother' hne' hq' hroom'
    have hout : blockOut l .align v e = (queued l (.align (natOfBytes ((blockBytes v).take 4))) e).setFi LN_SKEW_BLOCKS l 0 n := hact
    rw [hout] at hrun
    obtain ⟨hqueue, hlanes, hhlp, hregs, _⟩ := queued_rules l (.align (natOfBytes ((blockBytes v).take 4))) e
    generalize queued l.val (.align (natOfBytes ((blockBytes v).take 4))) e = g at hrun hqueue hlanes hhlp hregs
    refine ⟨_, hrun, ?_, fun k hk => ?_, ?_, ?_⟩
    · rw [lane_of_lanes (Dev.setFi_lanes ..), hqueue, htaken.queue]
    · rw [lane_of_lanes (Dev.setFi_lanes ..), hlanes k hk, htaken.other k hk]
    · rw [Dev.setFi_hlp, hhlp]
      exact htaken.keeps Dev.hlp fun _ _ => rfl
    · exact onlyWords_trans (onlyWords_mono (onlyWords_regs (htaken.fill_only hslip) hregs) (by simp)) (onlyWords_setFi g (by simp) n)
  case start =>
    intro l b drift fill v s hkind hhears hlock hawake hplain hslip hsteady hmoves hsome hroom hv hst hcode
    subst hv
    obtain ⟨e, htaken, hrun⟩ := block_acts (c := .laneCtrlBlock l b drift) (by simp) hkind (by decide) hslip
      ⟨hhears, hlock, hawake, hplain, hsteady, hmoves, hsome, hroom⟩
    have hgrp : e.grp (laneGroup l) = s.dev.grp (laneGroup l) := grp_of_grps (htaken.keeps Dev.grps fun _ _ => rfl) _
    have hout := (ctrlBlock_start (l := l) hcode (by rw [hgrp, hst])).trans
      (ctrlStart_awake ((htaken.field (F := LN_STAT_RX_SLEEP) (by decide) l).trans hawake))
    have hrun' : runs (.laneCtrlBlock l b drift) s (laneStarted l (decide (e.fi LN_STAT_FEC_ACT l 0 = 1)) e) := hout ▸ (hrun :)
    obtain ⟨hlane, hlanes, hwords⟩ := started_rules l (decide (e.fi LN_STAT_FEC_ACT l 0 = 1))
      ((htaken.field (F := LN_STAT_RX_SLEEP) (by decide) l).trans hawake)
    refine ⟨_, hrun', congrArg LaneSt.started hlane, congrArg LaneSt.awake hlane, congrArg LaneSt.prev hlane,
      (congrArg LaneSt.fec hlane).trans (by rw [← htaken.field (F := LN_STAT_FEC_ACT) (by decide)]; rfl),
      (congrArg LaneSt.q hlane).trans (htaken.queue l), fun k hk => (hlanes k hk).trans (htaken.other k hk),
      onlyWords_trans (htaken.fill_only hslip) (onlyWords_mono hwords (by simp))⟩
  case sleep =>
    intro l b drift fill v s hkind hhears hlock hawake hplain hslip hsteady hmoves hsome hroom hv hst hcode
    subst hv
    obtain ⟨e, htaken, hrun⟩ := block_acts (c := .laneCtrlBlock l b drift) (by simp) hkind (by decide) hslip
      ⟨hhears, hlock, hawake, hplain, hsteady, hmoves, hsome, hroom⟩
    have hgrp : e.grp (laneGroup l) = s.dev.grp (laneGroup l) := grp_of_grps (htaken.keeps Dev.grps fun _ _ => rfl) _
    have hout := ctrlBlock_sleep (l := l) hcode (by rw [hgrp, hst])
    have hrun' : runs (.laneCtrlBlock l b drift) s (ctrlSleep l e) := hout ▸ hrun
    obtain ⟨hasleep, hsleeps, hawake', hlanes, hwords⟩ := slept_rules l e
    rw [htaken.field (F := LN_SLEEPS) (by decide)] at hsleeps
    exact ⟨_, hrun', hasleep, hsleeps, hawake', fun k hk => (hlanes k hk).trans (htaken.other k hk),
      onlyWords_trans (onlyWords_mono (htaken.fill_only hslip) (by simp)) (onlyWords_mono hwords (by simp))⟩
end

section
/-! SUPPORT. Proofs about the clock outputs, their ramps and PHASE_STEP (R467 to R471). -/
namespace Sys2Proof.Machine

/-! ## What is raised, counted and reported -/

/-- An interrupt of a page, a count and an event. -/
def reported (p : Page) (bit : Word) (F : Fld) (code : Nat) (b : List Byte) (d : Dev) : Dev :=
  ((d.raiseBits p bit).bump F).emit code p b

/-- A counter of the whole word, beside the interrupt word of a page. -/
abbrev counterBeside (F : Fld) (p : Page) : Prop := F.lo = 0 ∧ F.hi = 31 ∧ F.addr 0 0 ≠ p.base + 0x10

theorem evq_emit_payload (d : Dev) (code : Nat) (p : Page) (b : List Byte) :
    ∃ x, (d.emit code p b).evq = d.evq ++ [x] ∧ x.code = code ∧ x.payload = b := ⟨_, rfl, rfl, rfl⟩

theorem reported_rules {p : Page} {F : Fld} (h : counterBeside F p) (bit : Word) (code : Nat) (b : List Byte) (d : Dev) :
    (reported p bit F code b d).f F = (d.f F + 1) % 2 ^ 32 ∧
      (∃ x, (reported p bit F code b d).evq = d.evq ++ [x] ∧ x.code = code ∧ x.payload = b) ∧
      onlyRaised d (reported p bit F code b d) [F.addr 0 0, p.base + 0x10] := by
  obtain ⟨hlo, hhi, hne⟩ := h
  unfold reported
  rw [Dev.bump_def]
  refine ⟨?_, ?_, ?_⟩
  · rw [Dev.f_def, Dev.emit_def, Dev.fi_emitSrc, Dev.fi_setFi_same _ _ _ _ _ (by omega) (by omega), hlo, hhi,
      Dev.fi_raiseBits _ _ _ _ _ _ hne, Dev.f_def]
  · obtain ⟨x, hx, hrest⟩ := evq_emit_payload ((d.raiseBits p bit).setFi F 0 0 ((d.raiseBits p bit).fi F 0 0 + 1)) code p b
    exact ⟨x, hx.trans (by rw [Dev.setFi_evq, Dev.raiseBits_evq]), hrest⟩
  · exact onlyRaised_trans (onlyRaised_trans (onlyRaised_raiseBits d (List.mem_cons_of_mem _ List.mem_cons_self) bit)
      (onlyRaised_setFi _ List.mem_cons_self _)) (onlyRaised_emitSrc _ _ _ _ _)

/-- A part of the device beside the registers, the requests and the events. -/
theorem onlyRaised_keeps {β : Type} (part : Dev → β) (hpart : ∀ x d, part (takeRaised x d) = part d) {d e : Dev} {as : List Nat}
    (h : onlyRaised d e as) : part e = part d := (congrArg part h.1).trans (hpart e d)

/-! ## Outputs -/

theorem outN_setOut (d : Dev) (n m : Nat) (o : OutSt) : (d.setOut n o).outN m = if m = n then o else d.outN m := SMap.get_set ..

theorem outN_setOut_same (d : Dev) (n : Nat) (o : OutSt) : (d.setOut n o).outN n = o := (outN_setOut ..).trans (if_pos rfl)

theorem outN_setOut_ne {n m : Nat} (h : m ≠ n) (d : Dev) (o : OutSt) : (d.setOut n o).outN m = d.outN m :=
  (outN_setOut ..).trans (if_neg h)

theorem outN_of_clk {d e : Dev} (h : e.clk = d.clk) (n : Nat) : e.outN n = d.outN n := by rw [Dev.outN, h, Dev.outN]

theorem clk_setFi (d : Dev) (F : Fld) (i k v : Nat) : (d.setFi F i k v).clk = d.clk := rfl

/-- `d` with the registers and the clocks of `x`. -/
abbrev takeClk (x d : Dev) : Dev := { d with regs := x.regs, clk := x.clk }

theorem takeClk_setFi (d : Dev) (F : Fld) (i k v : Nat) : d.setFi F i k v = takeClk (d.setFi F i k v) d := rfl

theorem takeClk_setOut (d : Dev) (n : Nat) (o : OutSt) : d.setOut n o = takeClk (d.setOut n o) d := rfl

/-- An output whose EN is written, with its state. -/
def enWritten (n v : Nat) (o : OutSt) (d : Dev) : Dev := (d.setFk CLK_OUT_CFG_EN n v).setOut n o

theorem enWritten_rules (n : Nat) {v : Nat} (hv : v < 2) (o : OutSt) (d : Dev) :
    (enWritten n v o d).fk CLK_OUT_CFG_EN n = v ∧ (enWritten n v o d).outN n = o ∧
      (∀ m, m ≠ n → (enWritten n v o d).outN m = d.outN m) ∧ onlyWords d (enWritten n v o d) [CLK_OUT_CFG_EN.addr 0 n] ∧
      enWritten n v o d = { d with regs := (enWritten n v o d).regs, clk := (enWritten n v o d).clk } := by
  have hfk : (enWritten n v o d).fk CLK_OUT_CFG_EN n = v % 2 :=
    (Dev.fi_congr (Dev.setOut_regs ..) ..).trans (Dev.fi_setFi_same _ _ _ _ _ (by decide) (by decide))
  refine ⟨hfk.trans (Nat.mod_eq_of_lt hv), outN_setOut_same .., fun m hne => ?_, ?_,
    frame_trans takeClk (fun _ _ _ => rfl) (takeClk_setFi ..) (takeClk_setOut ..)⟩
  · exact (outN_setOut_ne hne ..).trans (outN_of_clk (clk_setFi ..) m)
  · exact onlyWords_regs (onlyWords_setFi d (List.mem_singleton.mpr rfl) v) (Dev.setOut_regs ..)

/-- An output that runs at a frequency. -/
def OutSt.at (f : Nat) (gated : Bool) : OutSt := { fAct := f, fRamp := f, fOld := f, fNew := f, gated }

theorem outEnable_on {n : Nat} {d : Dev} (h : d.fk CLK_OUT_CFG_EN n = 0) :
    outEnable n true d = enWritten n 1 (OutSt.at (d.outFreq n) (decide (d.clk.state = clkLOST))) d := by
  unfold outEnable
  rw [if_pos rfl, if_neg (by omega)]
  rfl

theorem outEnable_off (n : Nat) (d : Dev) : outEnable n false d = enWritten n 0 {} d := rfl

/-! ## Ramps -/

/-- A segment that has ended. -/
def OutSt.segmentDone (o : OutSt) (f dur : Nat) : OutSt := { o with fAct := f, seg := o.seg + 1, segAt := o.segAt + 750 * dur }

/-- The output once a segment of its ramp has ended. -/
def OutSt.afterSegment (o : OutSt) (f dur : Nat) (ends : Bool) : OutSt :=
  if f = o.fNew then { o.segmentDone f dur with ramping := false }
  else if ends then (o.segmentDone f dur).stepTo o.fNew
  else o.segmentDone f dur

theorem overGuard_nil (d : Dev) (n : Nat) : d.overGuard n [] = 0 := rfl

/-- The ramp's part of the end of a segment. -/
def rampEnd (n : Nat) (d : Dev) : Dev :=
  if (d.outN n).ramping = false then d
  else
    d.setOut n ((d.outN n).afterSegment
      (toward (d.outN n).fAct (d.outN n).fNew
        (segMove (d.outN n) (d.segment (d.ak CLK_OUT_CFG_PROFILE n) (d.outN n).seg).1
          (d.segment (d.ak CLK_OUT_CFG_PROFILE n) (d.outN n).seg).2))
      (d.segment (d.ak CLK_OUT_CFG_PROFILE n) (d.outN n).seg).2
      (d.profileOver (d.ak CLK_OUT_CFG_PROFILE n) ((d.outN n).seg + 1)))

theorem segmentEnd_eq (n : Nat) (fs : List Nat) (d : Dev) : segmentEnd n fs d =
    rampEnd n (if d.fk CLK_OUT_CFG_EN n = 1 then guardCycles n (d.overGuard n fs) d else d) := rfl

theorem guardCycles_zero (n : Nat) (d : Dev) : guardCycles n 0 d = d := if_pos rfl

theorem segmentEnd_unguarded {n : Nat} {fs : List Nat} {d : Dev} (h : d.overGuard n fs = 0) : segmentEnd n fs d = rampEnd n d := by
  rw [segmentEnd_eq, h, guardCycles_zero, ite_self]

theorem rampEnd_ramping {n : Nat} {d : Dev} {o : OutSt} {prof f : Nat} (ho : d.outN n = o) (hramp : o.ramping = true)
    (hprof : prof = d.ak CLK_OUT_CFG_PROFILE n)
    (hf : f = toward o.fAct o.fNew (segMove o (d.segment prof o.seg).1 (d.segment prof o.seg).2)) :
    rampEnd n d = d.setOut n (o.afterSegment f (d.segment prof o.seg).2 (d.profileOver prof (o.seg + 1))) := by
  subst hprof hf
  unfold rampEnd
  rw [ho, if_neg (by rw [hramp]; decide)]

/-! ## The guard (R470) -/

/-- The first cycle of a ramp that the guard suppresses. -/
def guardReported (n c : Nat) (d : Dev) : Dev :=
  (((d.add CLK_GUARD_GATED c).setOut n { d.outN n with guardSeen := true }).raise CLK_IRQ_RAW_GUARD).emit 0x023 .clk (u8 n)

theorem guardCycles_first {n c : Nat} {d : Dev} (h : (d.outN n).guardSeen = false) (hc : 0 < c) :
    guardCycles n c d = guardReported n c d := by
  have hout : (d.add CLK_GUARD_GATED c).outN n = d.outN n := outN_of_clk (clk_setFi ..) n
  unfold guardCycles
  rw [if_neg (Nat.ne_of_gt hc)]
  dsimp only
  rw [hout, if_neg (by rw [h]; decide)]
  rfl

/-- A change of the clocks and of registers. -/
theorem onlyRaised_of_takeClk {d e : Dev} {as : List Nat} (h : e = takeClk e d) (hw : onlyWords d e as) :
    onlyRaised { d with clk := e.clk } e as := by
  refine ⟨?_, hw⟩
  have hreqs : e.reqs = d.reqs := (congrArg Dev.reqs h :)
  have hevq : e.evq = d.evq := (congrArg Dev.evq h :)
  rw [hreqs, hevq]
  exact h

/-- A count, a change of the clocks and a report: what a first suppressed cycle leaves. -/
theorem guardReported_rules (n c : Nat) (d : Dev) :
    (guardReported n c d).f CLK_GUARD_GATED = (d.f CLK_GUARD_GATED + c) % 2 ^ 32 ∧
      (guardReported n c d).outN n = { d.outN n with guardSeen := true } ∧
      (∃ x, (guardReported n c d).evq = d.evq ++ [x] ∧ x.code = 0x023 ∧ x.payload = u8 n) ∧
      onlyRaised { d with clk := (guardReported n c d).clk } (guardReported n c d) [CLK_GUARD_GATED.addr 0 0, Page.clk.base + 0x10] := by
  have hadd : d.add CLK_GUARD_GATED c = d.setFi CLK_GUARD_GATED 0 0 (d.f CLK_GUARD_GATED + c) := rfl
  have hcount := Dev.fi_setFi_same d CLK_GUARD_GATED 0 0 (d.f CLK_GUARD_GATED + c) (by decide) (by decide)
  have hwidth : CLK_GUARD_GATED.hi - CLK_GUARD_GATED.lo + 1 = 32 := by decide
  rw [hwidth] at hcount
  have hwords := onlyWords_setFi d (F := CLK_GUARD_GATED) (i := 0) (k := 0)
    (as := [CLK_GUARD_GATED.addr 0 0, Page.clk.base + 0x10]) (by decide) (d.f CLK_GUARD_GATED + c)
  have hframe := takeClk_setFi d CLK_GUARD_GATED 0 0 (d.f CLK_GUARD_GATED + c)
  have hevq := Dev.setFi_evq d CLK_GUARD_GATED 0 0 (d.f CLK_GUARD_GATED + c)
  unfold guardReported
  rw [hadd, Dev.raise_def, Dev.emit_def]
  generalize d.setFi CLK_GUARD_GATED 0 0 (d.f CLK_GUARD_GATED + c) = e at hcount hwords hframe hevq
  have hclk : ∀ o : OutSt, (((e.setOut n o).raiseBits (blkPage CLK_IRQ_RAW_GUARD.blk 0) (BitVec.ofNat 32 (2 ^ CLK_IRQ_RAW_GUARD.lo))).emitSrc
      0x023 Page.clk.code (u8 n)).clk = (e.setOut n o).clk := fun o => by rw [Dev.emitSrc_clk, Dev.raiseBits_clk]
  refine ⟨?_, (outN_of_clk (hclk _) n).trans (outN_setOut_same ..), ?_, ?_⟩
  · rw [Dev.f_def, Dev.fi_emitSrc, Dev.fi_raiseBits _ _ _ _ _ _ (by decide), Dev.fi_congr (Dev.setOut_regs ..)]
    exact hcount
  · obtain ⟨x, hx, hrest⟩ := evq_emit_payload ((e.setOut n { d.outN n with guardSeen := true }).raiseBits
      (blkPage CLK_IRQ_RAW_GUARD.blk 0) (BitVec.ofNat 32 (2 ^ CLK_IRQ_RAW_GUARD.lo))) 0x023 .clk (u8 n)
    exact ⟨x, hx.trans (by rw [Dev.raiseBits_evq, Dev.setOut_evq, hevq]), hrest⟩
  · have hset : ∀ o : OutSt, onlyRaised { d with clk := (e.setOut n o).clk } (e.setOut n o)
        [CLK_GUARD_GATED.addr 0 0, Page.clk.base + 0x10] := fun o =>
      onlyRaised_of_takeClk (frame_trans takeClk (fun _ _ _ => rfl) hframe (takeClk_setOut ..))
        (onlyWords_regs hwords (Dev.setOut_regs ..))
    rw [hclk]
    exact onlyRaised_trans (onlyRaised_trans (hset _) (onlyRaised_raiseBits _ (by decide) _)) (onlyRaised_emitSrc _ _ _ _ _)

theorem guardSeen_afterSegment (o : OutSt) (f dur : Nat) (ends : Bool) : (o.afterSegment f dur ends).guardSeen = o.guardSeen := by
  unfold OutSt.afterSegment
  split
  · rfl
  · split
    · rfl
    · rfl

/-- The end of a segment changes the outputs alone. -/
theorem rampEnd_rules (n : Nat) (d : Dev) : rampEnd n d = { d with clk := (rampEnd n d).clk } ∧
    ((rampEnd n d).outN n).guardSeen = (d.outN n).guardSeen := by
  unfold rampEnd
  split
  · exact ⟨rfl, rfl⟩
  · exact ⟨rfl, (congrArg OutSt.guardSeen (outN_setOut_same ..)).trans (guardSeen_afterSegment ..)⟩

theorem regs_rampEnd (n : Nat) (d : Dev) : (rampEnd n d).regs = d.regs := (congrArg Dev.regs (rampEnd_rules n d).1 :)

theorem evq_rampEnd (n : Nat) (d : Dev) : (rampEnd n d).evq = d.evq := (congrArg Dev.evq (rampEnd_rules n d).1 :)

/-- A change of the clocks after what is raised. -/
theorem onlyRaised_clk {d e g : Dev} {as : List Nat} (h : onlyRaised { d with clk := e.clk } e as)
    (hg : g = { e with clk := g.clk }) : onlyRaised { d with clk := g.clk } g as := by
  obtain ⟨hframe, hwords⟩ := h
  refine ⟨?_, fun a ha => ?_⟩
  · rw [hg]
    conv_lhs => rw [hframe]
  · rw [hg]
    exact hwords a ha

theorem f_of_regs {d e : Dev} (h : e.regs = d.regs) (F : Fld) : e.f F = d.f F := by
  rw [Dev.f_def, Dev.fi_congr h, Dev.f_def]

/-- The end of a segment in which the guard acted first. -/
theorem guardedEnd_rules (n c : Nat) (d : Dev) :
    (rampEnd n (guardReported n c d)).f CLK_GUARD_GATED = (d.f CLK_GUARD_GATED + c) % 2 ^ 32 ∧
      ((rampEnd n (guardReported n c d)).outN n).guardSeen = true ∧
      (∃ x, (rampEnd n (guardReported n c d)).evq = d.evq ++ [x] ∧ x.code = 0x023 ∧ x.payload = u8 n) ∧
      onlyRaised { d with clk := (rampEnd n (guardReported n c d)).clk } (rampEnd n (guardReported n c d))
        [CLK_GUARD_GATED.addr 0 0, Page.clk.base + 0x10] := by
  obtain ⟨hcount, hout, ⟨x, hx, hrest⟩, hraised⟩ := guardReported_rules n c d
  obtain ⟨hframe, hkept⟩ := rampEnd_rules n (guardReported n c d)
  exact ⟨(f_of_regs (regs_rampEnd ..) _).trans hcount, hkept.trans (congrArg OutSt.guardSeen hout),
    ⟨x, (evq_rampEnd ..).trans hx, hrest⟩, onlyRaised_clk hraised hframe⟩

/-! ## The target, and the limit of a relock -/

theorem targetReached_at {n : Nat} {d : Dev} {o : OutSt} {g : Nat × Nat} (ho : d.outN n = o) (hramp : o.ramping = true)
    (hg : g = d.segment (d.ak CLK_OUT_CFG_PROFILE n) o.seg) (h : toward o.fAct o.fNew (segMove o g.1 g.2) = o.fNew) :
    targetReached n d = d.setOut n { o with fAct := o.fNew, ramping := false } := by
  subst ho hg
  exact if_pos ⟨hramp, h⟩

theorem relockTimeout_eq {n : Nat} {d : Dev} (hen : d.fk CLK_OUT_CFG_EN n = 1) (hgated : (d.outN n).gated = true)
    (hlock : (d.outN n).lock = false) (hfail : (d.outN n).relockFail = false) :
    relockTimeout n d = reported .clk (BitVec.ofNat 32 (2 ^ CLK_IRQ_RAW_RELOCK_FAIL.lo)) CLK_RELOCK_FAILS 0x024 []
      (d.setOut n { d.outN n with relockFail := true }) := if_pos ⟨hen, hgated, hlock, hfail⟩

/-! ## PHASE_STEP (R467) -/

theorem phaseStep_eq (d : Dev) : phaseStep d =
    if d.clk.state ≠ clkLOCKED then d.mbxDone resBAD_STATE
    else if d.clk.slewing = true ∨ d.clk.slewReq.isSome = true then d.mbxDone resRESOURCE_BUSY
    else Dev.mbxDone { d with clk := { d.clk with slewReq := some (signed 32 (d.cmdNat 0 4)) } } resOK := rfl

theorem clk_setMbx (d : Dev) (st : Nat) : (d.setMbx st).clk = d.clk := rfl

/-- The device with another state of the clocks. -/
theorem setMbx_withClk (d : Dev) (st : Nat) (c : ClkSt) : Dev.setMbx { d with clk := c } st = { d.setMbx st with clk := c } := rfl

end Sys2Proof.Machine

open Sys2Proof Sys2Proof.Machine

/-- Settles O42: EN sets an output up or clears it; a segment's end moves the frequency toward its target, and the guard's
first suppressed cycle is reported beside it; PHASE_STEP is asked for in LOCKED, one at a time. -/
theorem clockOutputsRamp : Obligations.ClockOutputsRamp := by
  unfold Obligations.ClockOutputsRamp
  refine ⟨?enable, ?disable, ?segment, ?guard, ?still, ?target, ?relock, ?phase, ?slewed, ?slewing⟩
  case enable =>
    intro p n s hadm hen
    have hrun := runs_gateWrite (c := .clkOutEnable p n true) (f := outEnable n true) rfl hadm
    rw [outEnable_on hen] at hrun
    exact ⟨_, _, hrun, rfl, enWritten_rules n (by decide) _ s.dev⟩
  case disable =>
    intro p n s hadm
    have hrun := runs_gateWrite (c := .clkOutEnable p n false) (f := outEnable n false) rfl hadm
    rw [outEnable_off] at hrun
    exact ⟨_, hrun, enWritten_rules n (by decide) _ s.dev⟩
  case segment =>
    intro n o prof f s ho hramp hprof hf
    have hend := (segmentEnd_unguarded (overGuard_nil s.dev n)).trans (rampEnd_ramping ho hramp hprof hf)
    refine ⟨_, runs_onDev (c := .clkRampSegmentEnd n []) (f := segmentEnd n []) rfl hend, rfl, fun hreach => ?_, fun hshort hmore => ?_,
      fun hshort hover => ?_, fun m hne => outN_setOut_ne hne ..⟩
    · rw [outN_setOut_same, OutSt.afterSegment, if_pos hreach]
      rfl
    · rw [outN_setOut_same, OutSt.afterSegment, if_neg hshort, hmore, if_neg (by decide)]
      rfl
    · rw [outN_setOut_same, OutSt.afterSegment, if_neg hshort, hover, if_pos rfl]
      exact ⟨rfl, rfl, rfl⟩
  case guard =>
    intro n fs c s hen hseen hc hpos
    have hend : segmentEnd n fs s.dev = rampEnd n (guardReported n c s.dev) := by
      rw [segmentEnd_eq, if_pos hen, ← hc, guardCycles_first hseen hpos]
    exact ⟨_, runs_onDev (c := .clkRampSegmentEnd n fs) (f := segmentEnd n fs) rfl hend, guardedEnd_rules n c s.dev⟩
  case still =>
    intro n g s hramp hguard
    exact runs_onDev (c := .clkRampSegmentEnd n g) (f := segmentEnd n g) rfl ((segmentEnd_unguarded hguard).trans (if_pos hramp))
  case target =>
    intro n o g s ho hramp hg h
    exact ⟨_, runs_onDev (c := .clkRampTargetReached n) (f := targetReached n) rfl (targetReached_at ho hramp hg h), rfl,
      outN_setOut_same .., fun m hne => outN_setOut_ne hne ..⟩
  case relock =>
    intro n s hen hgated hlock hfail
    obtain ⟨hcount, ⟨x, hx, hcode, _⟩, hraised⟩ := reported_rules (p := .clk) (F := CLK_RELOCK_FAILS) (by decide)
      (BitVec.ofNat 32 (2 ^ CLK_IRQ_RAW_RELOCK_FAIL.lo)) 0x024 [] (s.dev.setOut n { s.dev.outN n with relockFail := true })
    have hclk := onlyRaised_keeps Dev.clk (fun _ _ => rfl) hraised
    refine ⟨_, runs_onDev (c := .clkRelockTimeout n) (f := relockTimeout n) rfl (relockTimeout_eq hen hgated hlock hfail),
      (outN_of_clk hclk n).trans (outN_setOut_same ..), hcount, ⟨x, hx, hcode⟩, ?_⟩
    rw [hclk]
    exact hraised
  case phase =>
    intro s hpost
    have hrun := runs_mbxServe hpost (c := .phaseStep) (lenOk := (· = 1)) (f := phaseStep) rfl rfl
    rw [phaseStep_eq, cmdNat_setMbx, clk_setMbx, ← setMbx_withClk] at hrun
    exact hrun
  case slewed =>
    intro s hslew hleft
    exact runs_onDev (c := .phaseSlewDone) (f := slewDone) rfl (if_pos ⟨hslew, hleft⟩)
  case slewing =>
    intro s h
    refine runs_onDev (c := .phaseSlewDone) (f := slewDone) rfl (if_neg fun hdone => ?_)
    exact h.elim (fun hoff => absurd (hoff.symm.trans hdone.1) (by decide)) fun hleft => hleft hdone.2
end

section
/-! SUPPORT. What falls on a tick of the timebase beside the time (R33, R472): commits that apply, blocks that stop, the row
clock of the first start tick and phase steps leave the time of day as the tick made it, and take no event and no request
back. -/
namespace Sys2Proof.Machine

/-- A change that keeps the cycle and the time of day, and takes no event and no request back. -/
structure KeepsTime (d e : Dev) : Prop where
  cyc : e.cyc = d.cyc
  time : e.time = d.time
  evq : d.evq <+: e.evq
  reqs : d.reqs <+: e.reqs

namespace KeepsTime

theorem refl (d : Dev) : KeepsTime d d := ⟨rfl, rfl, List.prefix_rfl, List.prefix_rfl⟩

theorem trans {d e g : Dev} (h : KeepsTime d e) (h' : KeepsTime e g) : KeepsTime d g :=
  ⟨h'.cyc.trans h.cyc, h'.time.trans h.time, h.evq.trans h'.evq, h.reqs.trans h'.reqs⟩

theorem ite {c : Prop} [Decidable c] {d x y : Dev} (hx : KeepsTime d x) (hy : KeepsTime d y) : KeepsTime d (if c then x else y) := by
  split
  · exact hx
  · exact hy

theorem foldl {α : Type} {f : Dev → α → Dev} (h : ∀ d x, KeepsTime d (f d x)) (l : List α) (d : Dev) :
    KeepsTime d (l.foldl f d) := by
  induction l generalizing d with
  | nil => exact refl d
  | cons x l ih => exact (h d x).trans (ih _)

/-- A change of other parts of the device. -/
theorem of {d e : Dev} (hcyc : e.cyc = d.cyc) (htime : e.time = d.time) (hevq : e.evq = d.evq) (hreqs : e.reqs = d.reqs) :
    KeepsTime d e := ⟨hcyc, htime, hevq ▸ List.prefix_rfl, hreqs ▸ List.prefix_rfl⟩

end KeepsTime

theorem OnlyLink.keepsTime {d e : Dev} (h : OnlyLink d e) : KeepsTime d e :=
  ⟨h.keeps Dev.cyc fun _ _ => rfl, h.keeps Dev.time fun _ _ => rfl, h.evq, h.reqs⟩

section
variable {d : Dev}

theorem keepsTime_setFi (F : Fld) (i k v : Nat) : KeepsTime d (d.setFi F i k v) := .of rfl rfl rfl rfl

theorem keepsTime_setHf (p : Page) (F : Fld) (v : Nat) : KeepsTime d (d.setHf p F v) := .of rfl rfl rfl rfl

theorem keepsTime_raiseBits (p : Page) (b : Word) : KeepsTime d (d.raiseBits p b) := (onlyLink_raiseBits p b).keepsTime

theorem keepsTime_emit (code : Nat) (p : Page) (b : List Byte) : KeepsTime d (d.emit code p b) :=
  (onlyLink_emit code p b).keepsTime

theorem keepsTime_onCom (f : CommitSt → CommitSt) : KeepsTime d (d.onCom f) := .of rfl rfl rfl rfl

theorem keepsTime_onAry (f : ArySt → ArySt) : KeepsTime d (d.onAry f) := .of rfl rfl rfl rfl

theorem keepsTime_setOut (n : Nat) (o : OutSt) : KeepsTime d (d.setOut n o) := .of rfl rfl rfl rfl

theorem keepsTime_setCom (p : Page) (c : Commit) : KeepsTime d (d.setCom p c) := .of rfl rfl rfl rfl

/-! ## Commits that apply -/

theorem keepsTime_unaccept (p : Page) : KeepsTime d (d.unaccept p) := (keepsTime_setHf ..).trans (keepsTime_onCom _)

theorem keepsTime_comStatus (p : Page) (st reason ofs : Nat) : KeepsTime d (d.comStatus p st reason ofs) :=
  ((keepsTime_setHf ..).trans (keepsTime_setHf ..)).trans (keepsTime_setHf ..)

theorem keepsTime_donePage (p : Page) : KeepsTime d (donePage p d) :=
  ((keepsTime_unaccept p).trans (keepsTime_comStatus ..)).trans (keepsTime_raiseBits ..)

theorem keepsTime_bankSwapped (b : Nat) : KeepsTime d ((d.setF EXP_CTX_CTRL_ACTIVE b).bump EXP_CTX_SEQ) :=
  (keepsTime_setFi ..).trans (keepsTime_setFi ..)

theorem keepsTime_expApplied : KeepsTime d (expApplied d) := by
  unfold expApplied
  dsimp only
  split
  · exact ((((KeepsTime.ite (.refl d) (keepsTime_bankSwapped _)).trans (keepsTime_setFi ..)).trans (keepsTime_setFi ..)).trans
      (keepsTime_setFi ..)).trans (keepsTime_onAry _)
  · exact .ite (.refl d) (keepsTime_bankSwapped _)

theorem keepsTime_wrapApply (e : Nat) : KeepsTime d (wrapApply e d) := .ite (.of rfl rfl rfl rfl) (.of rfl rfl rfl rfl)

theorem keepsTime_rampStart (n now : Nat) : KeepsTime d (rampStart n now d) :=
  .ite (.refl d) (.ite (keepsTime_setOut ..) (.ite (keepsTime_setOut ..) (keepsTime_setOut ..)))

theorem keepsTime_clkApplied (old : Dev) : KeepsTime d (clkApplied old d) :=
  .foldl (fun _ _ => .ite (keepsTime_setOut ..) (keepsTime_rampStart ..)) _ d

theorem keepsTime_fstApplied (old : Dev) : KeepsTime d (fstApplied old d) := .ite (.of rfl rfl rfl rfl) (.of rfl rfl rfl rfl)

theorem keepsTime_declared : KeepsTime d (declared d) :=
  ((((keepsTime_setFi ..).trans (keepsTime_setFi ..)).trans (keepsTime_setFi ..)).trans
    ((keepsTime_setFi ..).trans (keepsTime_setFi ..))).trans
    ((KeepsTime.ite (keepsTime_raiseBits ..) (.refl _)).trans (.ite (keepsTime_emit ..) (.refl _)))

theorem keepsTime_applied (old : Dev) (p : Page) : KeepsTime d (applied old p d) := by
  unfold applied
  split
  case h_1 => exact keepsTime_expApplied
  case h_2 => exact keepsTime_wrapApply _
  case h_3 => exact keepsTime_clkApplied old
  case h_4 => exact keepsTime_fstApplied old
  case h_5 => exact keepsTime_setFi ..
  case h_6 => exact .of rfl rfl rfl rfl
  case h_7 => exact .of rfl rfl rfl rfl
  case h_8 => exact .refl d

theorem keepsTime_prune : KeepsTime d (prune d) := .of rfl rfl rfl rfl

theorem keepsTime_newGeneration (act : SMap Word) : KeepsTime d (newGeneration act d) :=
  ((KeepsTime.of rfl rfl rfl rfl : KeepsTime d { d with gens := SMap.insertAt (d.f SYS_GEN) d.act (SMap.erase d.gens (d.f SYS_GEN)), act }).trans
    (keepsTime_setFi ..)).trans keepsTime_prune

theorem keepsTime_lowerWait (w : Option Nat) : KeepsTime d { d with pwr := { d.pwr with lowerWait := w } } := .of rfl rfl rfl rfl

theorem keepsTime_encChanged (old : Dev) : KeepsTime d (encChanged old d) := .of rfl rfl rfl rfl

theorem keepsTime_retranslate (p : Page) : KeepsTime d (retranslate p d) :=
  .ite ((keepsTime_setHf ..).trans (keepsTime_onCom _)) (.refl d)

theorem keepsTime_followOne (keys : (Fld → Nat → Nat → Nat) → List Nat) (f : Dev → Dev) (p : Page) (old : Dev) :
    KeepsTime d (followOne keys f p old d) := .ite (keepsTime_retranslate p) (.refl d)

theorem keepsTime_followTrg (old : Dev) : KeepsTime d (followTrg old d) :=
  .ite ((keepsTime_retranslate _).trans (keepsTime_onCom _)) (.refl d)

theorem keepsTime_followSets (old : Dev) : KeepsTime d (followSets old d) :=
  (((keepsTime_followOne ..).trans (keepsTime_followOne ..)).trans (keepsTime_followOne ..)).trans (keepsTime_followTrg old)

theorem keepsTime_applyPages (l : SMap Word) (ps : List Page) : KeepsTime d (applyPages l ps d) := by
  unfold applyPages
  dsimp only
  have hgen := keepsTime_newGeneration (d := d) (d.candidate l ps).act
  generalize newGeneration _ d = new at hgen ⊢
  have hwait : KeepsTime new (if new.demand < d.demand then { new with pwr := { new.pwr with lowerWait := some (new.f SYS_GEN) } }
      else new) := .ite (keepsTime_lowerWait _) (.refl _)
  generalize (if new.demand < d.demand then _ else new) = new' at hwait ⊢
  exact ((((hgen.trans hwait).trans (.foldl (fun _ p => keepsTime_applied d p) ps new')).trans (keepsTime_encChanged d)).trans
    keepsTime_declared).trans (keepsTime_followSets d)

theorem keepsTime_applyCommit (p : Page) : KeepsTime d (applyCommit p d) :=
  (keepsTime_applyPages ..).trans (keepsTime_donePage p)

theorem keepsTime_applyGlobal : KeepsTime d (applyGlobal d) := by
  unfold applyGlobal
  dsimp only
  have happly := keepsTime_applyPages (d := d) d.com.glob.latched (allPages.filter (d.differs d.com.glob.latched))
  generalize applyPages _ _ d = e at happly ⊢
  exact (happly.trans (.foldl (fun _ p => keepsTime_donePage p) allPages e)).trans (keepsTime_onCom _)

theorem keepsTime_boundaryPage (idle : Bool) (p : Page) : KeepsTime d (boundaryPage idle p d) :=
  .ite (.refl d) (.ite ((keepsTime_setCom ..).trans (keepsTime_setHf ..)) (keepsTime_applyCommit p))

theorem keepsTime_boundaryGlobal (idle : Bool) : KeepsTime d (boundaryGlobal idle d) :=
  .ite (.ite ((KeepsTime.foldl (fun _ _ => keepsTime_setHf ..) _ d).trans (keepsTime_onCom _)) keepsTime_applyGlobal) (.refl d)

theorem keepsTime_boundary (idle : Bool) : KeepsTime d (boundary idle d) :=
  (keepsTime_boundaryGlobal idle).trans (.foldl (fun _ p => keepsTime_boundaryPage idle p) _ _)

/-! ## Blocks that stop -/

theorem keepsTime_spDisable (p : Nat) : KeepsTime d (spDisable p d) :=
  (KeepsTime.ite ((onlyLink_spLeaveUp p).keepsTime.trans (keepsTime_emit ..)) (.refl d)).trans (keepsTime_setFi ..)

theorem keepsTime_pageStopped (p : Page) : KeepsTime d (pageStopped p d) := by
  have hstop := (onlyLink_blockStopped (d := d) p).keepsTime
  unfold pageStopped
  dsimp only
  split
  · exact hstop.trans (keepsTime_spDisable _)
  · exact hstop

theorem keepsTime_stopIdle : KeepsTime d (stopIdle d) := .foldl (fun _ p => keepsTime_pageStopped p) _ d

theorem keepsTime_setPin (e : Nat) (g : PeSt) : KeepsTime d (d.setPin e g) := .of rfl rfl rfl rfl

theorem keepsTime_peHalt (e cause : Nat) : KeepsTime d (peHalt e cause d) := by
  by_cases h : (d.pin e).state = peSTOPPED
  · rw [show peHalt e cause d = d from if_pos h]
    exact .refl d
  · rw [peHalt_eq h]
    exact (((keepsTime_setPin ..).trans (keepsTime_setHf ..)).trans (keepsTime_setHf ..)).trans (keepsTime_raiseBits ..)

/-! ## The tick -/

theorem keepsTime_slewTick : KeepsTime d (slewTick d) := .ite (.of rfl rfl rfl rfl) (.refl d)

theorem keepsTime_slewBegin : KeepsTime d (slewBegin d) := by
  unfold slewBegin
  split
  · exact .of rfl rfl rfl rfl
  · exact .refl d

theorem keepsTime_peStopTick : KeepsTime d (peStopTick d) := .foldl (fun _ e => .ite (keepsTime_peHalt e 1) (.refl _)) _ d

theorem keepsTime_armClock : KeepsTime d (armClock d) :=
  .ite (.refl d) (.ite ((keepsTime_setFi ..).trans (keepsTime_onAry _)) (keepsTime_onAry _))

theorem keepsTime_todArms (written : Bool) : KeepsTime d (todArms written d) := .ite (keepsTime_onAry _) (.refl d)

theorem keepsTime_tickWork : KeepsTime d (tickWork d) :=
  (((keepsTime_slewTick.trans keepsTime_peStopTick).trans keepsTime_armClock).trans (keepsTime_todArms false)).trans
    (.ite keepsTime_stopIdle ((keepsTime_boundary true).trans (keepsTime_stopIdle.trans keepsTime_slewBegin)))

end

/-- The device as its tick begins: the cycle has moved on, and the time of day is `t`. -/
def ticked (t : TimeSt) (d : Dev) : Dev := { d with cyc := d.cyc + 3, time := t }

/-- A TIME_STEP that falls on the tick. -/
def stepDue : Option (Nat × Nat) → Dev → Dev
  | some (sec, ns), d => Dev.stepTime { d with time := { d.time with stepNow := none } } sec ns 0 0
  | none, d => d

/-- A tick that is not the aligned PPS. The proof names the function by `f`: the kernel then meets the advance of the time
of day, whose numbers are too large to compute with, as a variable. -/
theorem tickTime_plain {d : Dev} {t : TimeSt} (hadv : d.time.advance = (t, false)) :
    tickTime d = (stepDue t.stepNow (ticked t d), false) := by
  have hf : ∀ f, f = tickTime → f d = (stepDue t.stepNow (ticked t d), false) := by
    intro f hf
    delta tickTime at hf
    subst hf
    beta_reduce
    rw [hadv]
    obtain ⟨_, _, _, _, _, _, _, _, _, _, _, _, _, _, now, pps⟩ := t
    cases now with
    | none =>
      cases pps with
      | none => rfl
      | some _ => rfl
    | some _ =>
      dsimp only
      rw [if_neg (by decide)]
      split
      case h_1 htrue => cases htrue
      case h_2 => rfl
  exact hf _ rfl

/-- A tick that is not the aligned PPS: the time, then what falls on the tick. -/
theorem timebaseTick_plain {x : Dev × Recorder} {e : Dev} (h : tickTime x.1 = (e, false)) :
    timebaseTick x = (tickWork e, x.2) := by
  have hf : ∀ f, f = timebaseTick → f x = (tickWork e, x.2) := by
    intro f hf
    delta timebaseTick at hf
    subst hf
    beta_reduce
    rw [h]
    rfl
  exact hf _ rfl

/-! ## The time of day -/

/-- A tick within the second. -/
def withinSecond (t : TimeSt) : TimeSt :=
  { t with tick := (t.tick + 1) % 2 ^ 64, ns := (t.sub + tickAdd t) / 2 ^ 32, frac := (t.sub + tickAdd t) % 2 ^ 32 }

/-- A tick that ends the second. -/
def nextSecond (t : TimeSt) : TimeSt :=
  { t with tick := (t.tick + 1) % 2 ^ 64, sec := (t.sec + 1) % 2 ^ 48, ns := (t.sub + tickAdd t - secU) / 2 ^ 32,
           frac := (t.sub + tickAdd t - secU) % 2 ^ 32 }

theorem advance_eq (t : TimeSt) :
    t.advance = if secU ≤ t.sub + tickAdd t then (nextSecond t, true) else (withinSecond t, false) := by
  have hf : ∀ f, f = TimeSt.advance →
      f t = if secU ≤ t.sub + tickAdd t then (nextSecond t, true) else (withinSecond t, false) := by
    intro f hf
    delta TimeSt.advance at hf
    subst hf
    rfl
  exact hf _ rfl

/-- A tick that is not the aligned PPS lies within the second. -/
theorem advance_plain {t : TimeSt} (h : t.advance.2 = false) : t.advance = (withinSecond t, false) := by
  rw [advance_eq] at h ⊢
  split at h
  · cases h
  · rename_i hlt
    exact if_neg hlt

end Sys2Proof.Machine
end

section
/-! SUPPORT. Proofs about the time of day (R472 to R479): steps of it, the servo that follows the PPS edges, and reading it. -/
namespace Sys2Proof.Machine

/-! ## The tick (R473) -/

/-- A tick within the second: the step that is due, then what falls on the tick beside the time. -/
theorem runs_tick {s : State} (hpps : s.dev.time.advance.2 = false) :
    runs .timebaseTick s (tickWork (stepDue s.dev.time.stepNow (ticked (withinSecond s.dev.time) s.dev))) := by
  have hplain : tickTime s.dev = (stepDue s.dev.time.stepNow (ticked (withinSecond s.dev.time) s.dev), false) :=
    tickTime_plain (advance_plain hpps)
  exact (show exec .timebaseTick s = onRec timebaseTick s from rfl).trans (onRec_eq (timebaseTick_plain hplain))

theorem sub_split (v : Nat) : v / 2 ^ 32 * 2 ^ 32 + v % 2 ^ 32 = v := Nat.div_add_mod' v (2 ^ 32)

/-- The time of day moves on by what a tick adds. -/
theorem advance_adds {t : TimeSt} (h : t.sec + 1 < 2 ^ 48) :
    t.advance.1.sec * secU + t.advance.1.sub = t.sec * secU + t.sub + tickAdd t := by
  rw [advance_eq]
  split
  case isTrue hle =>
    have hsec : (nextSecond t).sec = t.sec + 1 := Nat.mod_eq_of_lt h
    have hsub : (nextSecond t).sub = t.sub + tickAdd t - secU := sub_split _
    rw [hsec, hsub, Nat.add_mul, Nat.one_mul]
    omega
  case isFalse _ =>
    have hsub : (withinSecond t).sub = t.sub + tickAdd t := sub_split _
    rw [hsub, ← Nat.add_assoc]
    rfl

/-! ## Steps (R478, R479) -/

/-- The time of day is set, with its event and its packet. -/
def timeSet (sec ns frac cause : Nat) (d : Dev) : Dev :=
  Dev.sendTime (Dev.emit { d with time := { d.time with sec := sec % 2 ^ 48, ns, frac, todSet := true, epoch := (d.time.epoch + 1) % 65536 } }
    0x026 .tbs (todBytes d.time.sec d.time.ns ++ todBytes sec ns ++ u8 cause ++ u64 d.time.tick)) 1 (some d.time.epoch)

theorem stepTime_eq (d : Dev) (sec ns frac cause : Nat) :
    d.stepTime sec ns frac cause = ((timeSet sec ns frac cause d).raise TBS_IRQ_RAW_STEP).bump TBS_STEPS := rfl

theorem keepsTime_stepTime (d : Dev) (sec ns frac cause : Nat) :
    KeepsTime (timeSet sec ns frac cause d) (d.stepTime sec ns frac cause) := by
  rw [stepTime_eq, Dev.raise_def, Dev.bump_def]
  exact (keepsTime_raiseBits ..).trans (keepsTime_setFi ..)

theorem timeSet_rules (sec ns frac cause : Nat) (d : Dev) :
    (timeSet sec ns frac cause d).time =
        { d.time with sec := sec % 2 ^ 48, ns, frac, todSet := true, epoch := (d.time.epoch + 1) % 65536 } ∧
      (∃ x ∈ (timeSet sec ns frac cause d).evq, x.code = 0x026) ∧
      PktReq.time 1 (some d.time.epoch) ∈ (timeSet sec ns frac cause d).reqs :=
  ⟨rfl, ⟨_, List.mem_append_right _ List.mem_cons_self, rfl⟩, List.mem_append_right _ List.mem_cons_self⟩

theorem timeStep_badNs {d : Dev} (h : 999999999 < d.cmdNat 6 4) : timeStep d = d.mbxDone resBAD_PARAM := if_pos h

theorem timeStep_now {d : Dev} (h : d.cmdNat 6 4 ≤ 999999999) (hpps : d.on TBS_TIME_CFG_STEP_AT_PPS = false) :
    timeStep d = Dev.mbxDone { d with time := { d.time with stepNow := some (d.cmdNat 0 6, d.cmdNat 6 4), stepPps := none } } resOK
      (u16 d.time.epoch) :=
  (if_neg (Nat.not_lt.mpr h)).trans (if_neg (by rw [hpps]; decide))

theorem timeStep_atPps {d : Dev} (h : d.cmdNat 6 4 = 0) (hpps : d.on TBS_TIME_CFG_STEP_AT_PPS = true)
    (hvalid : d.time.ppsValid = true) :
    timeStep d = Dev.mbxDone { d with time := { d.time with stepPps := some (d.cmdNat 0 6), stepNow := none } } resOK
      (u16 d.time.epoch) :=
  (if_neg (by rw [h]; decide)).trans ((if_pos hpps).trans ((if_neg (not_not_intro h)).trans (if_neg (by rw [hvalid]; decide))))

theorem time_setMbx (d : Dev) (st : Nat) : (d.setMbx st).time = d.time := rfl

theorem setMbx_withTime (d : Dev) (st : Nat) (t : TimeSt) : Dev.setMbx { d with time := t } st = { d.setMbx st with time := t } := rfl

theorem stepAtPps_setMbx (d : Dev) (st : Nat) : (d.setMbx st).on TBS_TIME_CFG_STEP_AT_PPS = d.on TBS_TIME_CFG_STEP_AT_PPS :=
  congrArg (fun n => n != 0) (f_setF_ne (by decide) (by decide) (by decide) (.inl (by decide)) st d)

/-! ## PPS edges (R475, R476) -/

theorem clocked_of_serves {d : Dev} (h : d.serves = true) : d.clocked = true := (Bool.and_eq_true_iff.mp h).1

/-- A counter of the whole word counts one. -/
theorem f_bump_same (d : Dev) {F : Fld} (hlo : F.lo = 0) (hhi : F.hi = 31) : (d.bump F).f F = (d.f F + 1) % 2 ^ 32 :=
  Dev.fi_bumpI_same d hlo hhi 0 0

/-- An accepted edge. -/
def edgeTaken (now : Nat) (d : Dev) : Dev :=
  Dev.bump { d with time := { d.time with ppsLast := some now, ppsCand := none, ppsRun := d.time.ppsRun + 1 } } TBS_PPS_EDGES

/-- A rejected edge is a candidate. -/
def edgeRejected (now : Nat) (d : Dev) : Dev :=
  Dev.bump { d with time := { d.time with ppsCand := some now, ppsRun := 0 } } TBS_PPS_REJECT

/-- An edge that PPS_CFG asks for, of a device whose PPS is measured. -/
structure EdgeSeen (lvl : Bool) (d : Dev) : Prop where
  serves : d.serves = true
  enabled : d.on TBS_PPS_CFG_EN = true
  level : lvl ≠ d.on TBS_PPS_CFG_EDGE

theorem EdgeSeen.not_ignored {lvl : Bool} {d : Dev} (h : EdgeSeen lvl d) :
    ¬ (d.clocked = false ∨ d.on TBS_PPS_CFG_EN = false ∨ lvl = d.on TBS_PPS_CFG_EDGE) := by
  rw [clocked_of_serves h.serves, h.enabled]
  exact fun hno => hno.elim (fun h' => absurd h' (by decide)) fun hno => hno.elim (fun h' => absurd h' (by decide)) h.level

theorem ppsEdge_rejected {lvl : Bool} {ph : Nat} {d : Dev} (h : EdgeSeen lvl d)
    (hlast : d.ppsFits (d.cyc + ph) d.time.ppsLast = false) (hcand : d.ppsFits (d.cyc + ph) d.time.ppsCand = false) :
    ppsEdge lvl ph d = edgeRejected (d.cyc + ph) d :=
  (if_neg h.not_ignored).trans (if_pos (by rw [hlast, hcand]; rfl))

/-- PPS is found by its second accepted edge. -/
def ppsFound (d : Dev) : Dev :=
  if !d.time.ppsValid && 2 ≤ d.time.ppsRun then
    Dev.raise { d with time := { d.time with ppsValid := true, ppsEver := true } } TBS_IRQ_RAW_PPS_FOUND
  else d

/-- What an accepted edge does beside: PPS may be found, and the servo acts while it is valid. -/
def edgeFollowed (ph : Nat) (d : Dev) : Dev := if (ppsFound d).time.ppsValid then servo ph (ppsFound d) else ppsFound d

theorem ppsEdge_accepted {lvl : Bool} {ph : Nat} {d : Dev} (h : EdgeSeen lvl d)
    (hfits : d.ppsFits (d.cyc + ph) d.time.ppsLast = true ∨ d.ppsFits (d.cyc + ph) d.time.ppsCand = true) :
    ppsEdge lvl ph d = edgeFollowed ph (edgeTaken (d.cyc + ph) d) := by
  refine (if_neg h.not_ignored).trans (if_neg ?_)
  obtain hfits | hfits := hfits
  · rw [hfits]
    exact Bool.false_ne_true
  · rw [hfits, Bool.not_true, Bool.and_false]
    exact Bool.false_ne_true

theorem edgeFollowed_valid {ph : Nat} {d : Dev} (h : d.time.ppsValid = true) : edgeFollowed ph d = servo ph d := by
  have hfound : ppsFound d = d := if_neg (by rw [h, Bool.not_true, Bool.false_and]; exact Bool.false_ne_true)
  rw [edgeFollowed, hfound, if_pos h]

theorem edgeFollowed_first {ph : Nat} {d : Dev} (h : d.time.ppsValid = false) (hrun : d.time.ppsRun = 1) : edgeFollowed ph d = d := by
  have hfound : ppsFound d = d := if_neg (by rw [hrun, decide_eq_false (by decide : ¬ 2 ≤ 1), Bool.and_false]; exact Bool.false_ne_true)
  rw [edgeFollowed, hfound, if_neg (by rw [h]; exact Bool.false_ne_true)]

theorem edgeTaken_rules (now : Nat) (d : Dev) :
    (edgeTaken now d).time = { d.time with ppsLast := some now, ppsCand := none, ppsRun := d.time.ppsRun + 1 } ∧
      (edgeTaken now d).f TBS_PPS_EDGES = (d.f TBS_PPS_EDGES + 1) % 2 ^ 32 ∧ onlyWords d (edgeTaken now d) [TBS_PPS_EDGES.addr 0 0] ∧
      edgeTaken now d = { d with regs := (edgeTaken now d).regs, time := (edgeTaken now d).time } :=
  ⟨rfl, f_bump_same _ rfl rfl, onlyWords_setFi _ List.mem_cons_self _, rfl⟩

theorem edgeRejected_rules (now : Nat) (d : Dev) :
    (edgeRejected now d).time = { d.time with ppsCand := some now, ppsRun := 0 } ∧
      (edgeRejected now d).f TBS_PPS_REJECT = (d.f TBS_PPS_REJECT + 1) % 2 ^ 32 ∧
      onlyWords d (edgeRejected now d) [TBS_PPS_REJECT.addr 0 0] ∧
      edgeRejected now d = { d with regs := (edgeRejected now d).regs, time := (edgeRejected now d).time } :=
  ⟨rfl, f_bump_same _ rfl rfl, onlyWords_setFi _ List.mem_cons_self _, rfl⟩

theorem ppsFits_of {d : Dev} {now l : Nat} (hlo : l + 750000000 ≤ now + 3 * d.f TBS_PPS_TOL_TICKS)
    (hhi : now ≤ l + 750000000 + 3 * d.f TBS_PPS_TOL_TICKS) : d.ppsFits now (some l) = true :=
  Bool.and_eq_true_iff.mpr ⟨decide_eq_true hlo, decide_eq_true hhi⟩

theorem ppsFits_early {d : Dev} {now l : Nat} (h : now + 3 * d.f TBS_PPS_TOL_TICKS < l + 750000000) : d.ppsFits now (some l) = false :=
  Bool.and_eq_false_imp.mpr fun hle => absurd (of_decide_eq_true hle) (Nat.not_le.mpr h)

theorem time_edgeTaken (now : Nat) (d : Dev) :
    (edgeTaken now d).time = { d.time with ppsLast := some now, ppsCand := none, ppsRun := d.time.ppsRun + 1 } := rfl

/-- PPS is gone. -/
def ppsGone (d : Dev) : Dev :=
  Dev.emit (Dev.raise { d with time := { d.time with ppsValid := false, ppsRun := 0 } } TBS_IRQ_RAW_PPS_LOST) 0x025 .tbs

theorem ppsGone_rules (d : Dev) :
    (ppsGone d).time = { d.time with ppsValid := false, ppsRun := 0 } ∧ (∃ x, (ppsGone d).evq = d.evq ++ [x] ∧ x.code = 0x025) ∧
      onlyRaised { d with time := { d.time with ppsValid := false, ppsRun := 0 } } (ppsGone d) [Page.tbs.base + 0x10] := by
  unfold ppsGone
  generalize hx : { d with time := { d.time with ppsValid := false, ppsRun := 0 } } = x
  have htime : x.time = { d.time with ppsValid := false, ppsRun := 0 } := hx ▸ rfl
  have hevq : x.evq = d.evq := hx ▸ rfl
  rw [Dev.emit_def, Dev.raise_def]
  refine ⟨?_, ?_, onlyRaised_trans (onlyRaised_raiseBits x List.mem_cons_self _) (onlyRaised_emitSrc ..)⟩
  · rw [Dev.emitSrc_time, Dev.raiseBits_time, htime]
  · rw [Dev.emitSrc_evq, Dev.raiseBits_evq, hevq]
    exact ⟨_, rfl, rfl⟩

/-! ## The servo (R476) -/

/-- The servo's rate for an error. -/
def servoRate (e : Int) (d : Dev) : Int :=
  clampInt (-(1000 * d.f TBS_SERVO_CFG_SLEW_MAX * 2 ^ 38)) (1000 * d.f TBS_SERVO_CFG_SLEW_MAX * 2 ^ 38) (-(16 * e + (d.time.iU + e)))

/-- The servo has taken an error: its sum, its rate, and the rate as the register has it. -/
def servoed (iU rateU : Int) (rate : Nat) (d : Dev) : Dev :=
  Dev.setF { d with time := { d.time with iU, rateU, nOver := 0 } } TBS_RATE rate

/-- The error is reported. -/
def errorNoted (v : Nat) (d : Dev) : Dev := d.setF TBS_PPS_ERR v

/-- The servo has taken an error within its threshold. -/
def servoTook (e : Int) (d : Dev) : Dev :=
  servoed (d.time.iU + e) (servoRate e d) (unsigned 32 (servoRate e d / 2 ^ 38)) d

theorem servo_within {ph : Nat} {d : Dev} {e : Int} (he : ppsError d ph = e)
    (h : e.natAbs ≤ 1000 * (errorNoted (unsigned 32 (e / 2 ^ 32)) d).f TBS_SERVO_CFG_STEP_THR * 2 ^ 32) :
    servo ph d = servoTook e (errorNoted (unsigned 32 (e / 2 ^ 32)) d) := by
  have hf : ∀ f, f = servo → f ph d = servoTook e (errorNoted (unsigned 32 (e / 2 ^ 32)) d) := by
    intro f hf
    delta servo at hf
    subst hf
    beta_reduce
    rw [he]
    exact if_pos h
  exact hf _ rfl

theorem ppsError_of {d e : Dev} (ph : Nat) (hofs : e.f TBS_PPS_CFG_OFS = d.f TBS_PPS_CFG_OFS) (hns : e.time.sub = d.time.sub)
    (hrate : e.time.rateU = d.time.rateU) : ppsError e ph = ppsError d ph := by
  have hadd : tickAdd e.time = tickAdd d.time := congrArg (fun r => ((2 ^ 34 : Int) + r / 16000000000).toNat) hrate
  have hf : ∀ f, f = ppsError → f e ph = f d ph := by
    intro f hf
    delta ppsError at hf
    subst hf
    beta_reduce
    rw [hofs, hns, hadd]
  exact hf _ rfl

theorem time_errorNoted (v : Nat) (d : Dev) : (errorNoted v d).time = d.time := Dev.setFi_time d TBS_PPS_ERR 0 0 v

theorem f_errorNoted (v : Nat) (d : Dev) (h : v < 2 ^ 32) : (errorNoted v d).f TBS_PPS_ERR = v :=
  f_setF_same d (by decide) (by decide) h

/-- `d` with the registers and the time of `x`. -/
abbrev takeTime (x d : Dev) : Dev := { d with regs := x.regs, time := x.time }

theorem takeTime_edgeTaken (now : Nat) (d : Dev) : edgeTaken now d = takeTime (edgeTaken now d) d := rfl

theorem takeTime_errorNoted (v : Nat) (d : Dev) : errorNoted v d = takeTime (errorNoted v d) d :=
  frame_mono takeRegs takeTime (fun _ _ => rfl) (takeRegs_setFi d TBS_PPS_ERR 0 0 v)

theorem time_servoed (iU rateU : Int) (rate : Nat) (d : Dev) :
    (servoed iU rateU rate d).time = { d.time with iU, rateU, nOver := 0 } := rfl

theorem takeTime_servoed (iU rateU : Int) (rate : Nat) (d : Dev) :
    servoed iU rateU rate d = takeTime (servoed iU rateU rate d) d := rfl

theorem f_servoed {G : Fld} (hG : G.lo ≤ G.hi) (h : G.addr 0 0 ≠ TBS_RATE.addr 0 0) (iU rateU : Int) (rate : Nat) (d : Dev) :
    (servoed iU rateU rate d).f G = d.f G := f_setF_ne (by decide) (by decide) hG (.inl h) _ _

theorem onlyWords_servoed (iU rateU : Int) (rate : Nat) (d : Dev) : onlyWords d (servoed iU rateU rate d) [TBS_RATE.addr 0 0] :=
  onlyWords_setFi _ List.mem_cons_self _

/-- An accepted edge whose error is reported, as the servo has taken it. -/
theorem servoedEdge_rules (iU rateU : Int) (rate now : Nat) {v : Nat} (hv : v < 2 ^ 32) (d : Dev) :
    (servoed iU rateU rate (errorNoted v (edgeTaken now d))).f TBS_PPS_ERR = v ∧
      (servoed iU rateU rate (errorNoted v (edgeTaken now d))).time =
        { d.time with ppsLast := some now, ppsCand := none, ppsRun := d.time.ppsRun + 1, iU, rateU, nOver := 0 } ∧
      (servoed iU rateU rate (errorNoted v (edgeTaken now d))).f TBS_PPS_EDGES = (d.f TBS_PPS_EDGES + 1) % 2 ^ 32 ∧
      onlyWords d (servoed iU rateU rate (errorNoted v (edgeTaken now d)))
        [TBS_PPS_ERR.addr 0 0, TBS_RATE.addr 0 0, TBS_PPS_EDGES.addr 0 0] ∧
      servoed iU rateU rate (errorNoted v (edgeTaken now d)) =
        takeTime (servoed iU rateU rate (errorNoted v (edgeTaken now d))) d := by
  obtain ⟨_, hcount, htaken, _⟩ := edgeTaken_rules now d
  have hnoted : onlyWords (edgeTaken now d) (errorNoted v (edgeTaken now d)) [TBS_PPS_ERR.addr 0 0] :=
    onlyWords_setFi _ List.mem_cons_self _
  refine ⟨(f_servoed (by decide) (by decide) ..).trans (f_errorNoted v _ hv), ?_, ?_, ?_, ?_⟩
  · rw [time_servoed, time_errorNoted, time_edgeTaken]
  · exact (f_servoed (by decide) (by decide) ..).trans
      ((f_setF_ne (by decide) (by decide) (by decide) (.inl (by decide)) _ _).trans hcount)
  · exact onlyWords_trans (onlyWords_trans (onlyWords_mono htaken (by simp)) (onlyWords_mono hnoted (by simp)))
      (onlyWords_mono (onlyWords_servoed _ _ _ _) (by simp))
  · exact frame_trans takeTime (fun _ _ _ => rfl) (frame_trans takeTime (fun _ _ _ => rfl) (takeTime_edgeTaken ..)
      (takeTime_errorNoted ..)) (takeTime_servoed ..)

/-- The servo takes an accepted edge within its threshold. -/
theorem servoed_edge {lvl : Bool} {ph : Nat} {d : Dev} (h : EdgeSeen lvl d)
    (hfits : d.ppsFits (d.cyc + ph) d.time.ppsLast = true) (hvalid : d.time.ppsValid = true)
    (hthr : (ppsError d ph).natAbs ≤ 1000 * d.f TBS_SERVO_CFG_STEP_THR * 2 ^ 32) :
    ppsEdge lvl ph d = servoTook (ppsError d ph)
      (errorNoted (unsigned 32 (ppsError d ph / 2 ^ 32)) (edgeTaken (d.cyc + ph) d)) := by
  have hother : ∀ G : Fld, G.lo ≤ G.hi → G.addr 0 0 ≠ TBS_PPS_EDGES.addr 0 0 → (edgeTaken (d.cyc + ph) d).f G = d.f G :=
    fun G hG hne => f_setF_ne (by decide) (by decide) hG (.inl hne) _ _
  have herr : ppsError (edgeTaken (d.cyc + ph) d) ph = ppsError d ph :=
    ppsError_of ph (hother TBS_PPS_CFG_OFS (by decide) (by decide)) (by rw [time_edgeTaken]; rfl) (by rw [time_edgeTaken])
  have hthr' : ∀ v, (errorNoted v (edgeTaken (d.cyc + ph) d)).f TBS_SERVO_CFG_STEP_THR = d.f TBS_SERVO_CFG_STEP_THR := fun v =>
    (f_setF_ne (by decide) (by decide) (by decide) (.inl (by decide)) v _).trans (hother _ (by decide) (by decide))
  rw [ppsEdge_accepted h (.inl hfits), edgeFollowed_valid (by rw [time_edgeTaken]; exact hvalid)]
  exact servo_within herr (by rw [hthr']; exact hthr)

/-! ## Reading the time (R474) -/

/-- The words of the four registers that a read of TICK_LO latches. -/
def timeWords : List Nat := [TBS_TICK_HI.addr 0 0, TBS_TOD_NS_NS.addr 0 0, TBS_TOD_SEC_LO.addr 0 0, TBS_TOD_SEC_HI_SEC.addr 0 0]

theorem latchTime_eq (d : Dev) : latchTime d =
    ((((d.setF TBS_TICK_HI (d.time.tick / 2 ^ 32)).setF TBS_TOD_NS_NS d.time.ns).setF TBS_TOD_SEC_LO d.time.sec).setF
      TBS_TOD_SEC_HI_SEC (d.time.sec / 2 ^ 32)).setF TBS_TOD_SEC_HI_EPOCH d.time.epoch := rfl

/-- Two fields of different words, or of different bits of one. -/
abbrev apart (F G : Fld) : Prop :=
  F.lo ≤ F.hi ∧ F.hi < 32 ∧ G.lo ≤ G.hi ∧ (G.addr 0 0 ≠ F.addr 0 0 ∨ G.hi < F.lo ∨ F.hi < G.lo)

theorem f_setF_apart {F G : Fld} (h : apart F G) (v : Nat) (d : Dev) : (d.setF F v).f G = d.f G :=
  f_setF_ne h.1 h.2.1 h.2.2.1 h.2.2.2 v d

/-- `d` with the registers and the answers of `x`. -/
abbrev takeOut (x d : Dev) : Dev := { d with regs := x.regs, out := x.out }

theorem takeOut_output (d : Dev) (p : Port) (ws : List Word) : d.output p ws = takeOut (d.output p ws) d := by cases p <;> rfl

theorem latchTime_rules {d : Dev} (htick : d.time.tick < 2 ^ 64) (hns : d.time.ns < 2 ^ 30) :
    (latchTime d).f TBS_TICK_HI = d.time.tick / 2 ^ 32 ∧ (latchTime d).f TBS_TOD_NS_NS = d.time.ns ∧
      (latchTime d).f TBS_TOD_SEC_LO = d.time.sec % 2 ^ 32 ∧
      (latchTime d).f TBS_TOD_SEC_HI_SEC = d.time.sec / 2 ^ 32 % 2 ^ 16 ∧
      (latchTime d).f TBS_TOD_SEC_HI_EPOCH = d.time.epoch % 2 ^ 16 := by
  rw [latchTime_eq]
  refine ⟨?_, ?_, ?_, ?_, Dev.fi_setFi_same _ _ _ _ _ (by decide) (by decide)⟩
  · rw [f_setF_apart (by decide), f_setF_apart (by decide), f_setF_apart (by decide), f_setF_apart (by decide)]
    exact f_setF_same d (by decide) (by decide) (Nat.div_lt_of_lt_mul htick)
  · rw [f_setF_apart (by decide), f_setF_apart (by decide), f_setF_apart (by decide)]
    exact f_setF_same _ (by decide) (by decide) hns
  · rw [f_setF_apart (by decide), f_setF_apart (by decide)]
    exact Dev.fi_setFi_same _ _ _ _ _ (by decide) (by decide)
  · rw [f_setF_apart (by decide)]
    exact Dev.fi_setFi_same _ _ _ _ _ (by decide) (by decide)

theorem onlyWords_latchTime (d : Dev) : onlyWords d (latchTime d) timeWords := by
  rw [latchTime_eq]
  have hset : ∀ (F : Fld) (v : Nat) (e : Dev), F.addr 0 0 ∈ timeWords → onlyWords e (e.setF F v) timeWords :=
    fun F v e h => onlyWords_setFi e h v
  exact onlyWords_trans (onlyWords_trans (onlyWords_trans (onlyWords_trans (hset _ _ _ (by decide)) (hset _ _ _ (by decide)))
    (hset _ _ _ (by decide))) (hset _ _ _ (by decide))) (hset _ _ _ (by decide))

theorem takeRegs_latchTime (d : Dev) : latchTime d = takeRegs (latchTime d) d := by
  have hset : ∀ (F : Fld) (v : Nat) (e : Dev), e = takeRegs e d → e.setF F v = takeRegs (e.setF F v) d :=
    fun F v e h => frame_trans takeRegs (fun _ _ _ => rfl) h (takeRegs_setFi e F 0 0 v)
  rw [latchTime_eq]
  exact hset _ _ _ (hset _ _ _ (hset _ _ _ (hset _ _ _ (hset _ _ _ rfl))))

end Sys2Proof.Machine

open Sys2Proof Sys2Proof.Machine

/-- Settles O43: a tick moves the count and the time of day on, and what falls on it beside changes neither; a TIME_STEP is
asked for, the servo takes an edge in time, and a read of TICK_LO latches the time. -/
theorem timeIsKept : Obligations.TimeIsKept := by
  unfold Obligations.TimeIsKept
  refine ⟨?tick, ?advance, ?step, ?badNs, ?now, ?atPps, ?servo, ?reject, ?candidate, ?lost, ?read⟩
  case tick =>
    intro s _ hnow hpps
    have hrun := runs_tick hpps
    rw [hnow] at hrun
    have hkeep := keepsTime_tickWork (d := stepDue none (ticked (withinSecond s.dev.time) s.dev))
    refine ⟨_, hrun, hkeep.cyc, ?_, ?_⟩
    · rw [hkeep.time, advance_plain hpps]
      rfl
    · rw [hkeep.time]
      rfl
  case advance => exact fun t h => advance_adds h
  case step =>
    intro sec ns s _ hnow hpps
    have hrun := runs_tick hpps
    rw [hnow] at hrun
    obtain ⟨htime, ⟨x, hx, hcode⟩, hreq⟩ := timeSet_rules sec ns 0 0 { ticked (withinSecond s.dev.time) s.dev with
      time := { (ticked (withinSecond s.dev.time) s.dev).time with stepNow := none } }
    have hkeep := (keepsTime_stepTime _ sec ns 0 0).trans (keepsTime_tickWork (d := stepDue (some (sec, ns)) (ticked (withinSecond s.dev.time) s.dev)))
    have htime := hkeep.time.trans htime
    refine ⟨_, hrun, ?_, ?_, ?_, ?_, ?_, ⟨x, hkeep.evq.subset hx, hcode⟩, hkeep.reqs.subset hreq⟩
    · exact (congrArg TimeSt.sec htime :)
    · exact (congrArg TimeSt.ns htime :)
    · exact (congrArg TimeSt.frac htime :)
    · exact (congrArg TimeSt.epoch htime :)
    · exact (congrArg TimeSt.stepNow htime :)
  case badNs =>
    intro s hpost h
    have hrun := runs_mbxServe hpost (c := .timeStep) (lenOk := (· = 3)) (f := timeStep) rfl rfl
    rw [timeStep_badNs (by rw [cmdNat_setMbx]; exact h)] at hrun
    exact hrun
  case now =>
    intro s hpost h hpps
    have hrun := runs_mbxServe hpost (c := .timeStep) (lenOk := (· = 3)) (f := timeStep) rfl rfl
    rw [timeStep_now (by rw [cmdNat_setMbx]; exact h) (by rw [stepAtPps_setMbx]; exact hpps), cmdNat_setMbx, cmdNat_setMbx,
      time_setMbx, ← setMbx_withTime] at hrun
    exact hrun
  case atPps =>
    intro s hpost hns hpps hvalid
    have hrun := runs_mbxServe hpost (c := .timeStep) (lenOk := (· = 3)) (f := timeStep) rfl rfl
    rw [timeStep_atPps (by rw [cmdNat_setMbx]; exact hns) (by rw [stepAtPps_setMbx]; exact hpps) (by rw [time_setMbx]; exact hvalid),
      cmdNat_setMbx, time_setMbx, ← setMbx_withTime] at hrun
    exact hrun
  case servo =>
    intro lvl ph l s hserves hen hlvl hlast hvalid hlo hhi hthr
    have hedge := servoed_edge (ph := ph) ⟨hserves, hen, hlvl⟩ (by rw [hlast]; exact ppsFits_of hlo hhi) hvalid hthr
    obtain ⟨herr, htime, hcount, hwords, hframe⟩ := servoedEdge_rules (s.dev.time.iU + ppsError s.dev ph) _ _ (s.dev.cyc + ph)
      (unsigned_lt 32 (ppsError s.dev ph / 2 ^ 32)) s.dev
    rw [servoTook, time_errorNoted, time_edgeTaken] at hedge
    refine ⟨_, runs_onDev (c := .ppsEdge lvl ph) (f := ppsEdge lvl ph) rfl hedge, herr, ?_, ?_, ?_, ?_, ?_, hcount, hwords, hframe⟩
    · exact (congrArg TimeSt.iU htime :)
    · exact (congrArg TimeSt.nOver htime :)
    · exact (congrArg TimeSt.ppsLast htime :)
    · exact (congrArg TimeSt.sub htime :)
    · exact (congrArg TimeSt.sec htime :)
  case reject =>
    intro lvl ph l s hserves hen hlvl hlast hlo hcand
    obtain ⟨htime, hcount, hwords, hframe⟩ := edgeRejected_rules (s.dev.cyc + ph) s.dev
    exact ⟨_, runs_onDev (c := .ppsEdge lvl ph) (f := ppsEdge lvl ph) rfl
      (ppsEdge_rejected ⟨hserves, hen, hlvl⟩ (by rw [hlast]; exact ppsFits_early hlo) hcand), htime, hcount, hwords, hframe⟩
  case candidate =>
    intro lvl ph c s hserves hen hlvl hcand hvalid hrun hfits
    obtain ⟨htime, hcount, hwords, _⟩ := edgeTaken_rules (s.dev.cyc + ph) s.dev
    have hedge := (ppsEdge_accepted (ph := ph) ⟨hserves, hen, hlvl⟩ (.inr (by rw [hcand]; exact hfits))).trans
      (edgeFollowed_first (by rw [time_edgeTaken]; exact hvalid) (by rw [time_edgeTaken, hrun]))
    exact ⟨_, runs_onDev (c := .ppsEdge lvl ph) (f := ppsEdge lvl ph) rfl hedge, htime.trans (by rw [hrun]), hcount, hwords⟩
  case lost =>
    intro s hvalid
    obtain ⟨htime, hevq, hraised⟩ := ppsGone_rules s.dev
    exact ⟨ppsGone s.dev, runs_onDev (c := .ppsLost) (f := ppsLost) rfl (if_pos hvalid), htime, hevq, by rw [htime]; exact hraised⟩
  case read =>
    intro p s hserves htick hns
    obtain ⟨hhi, hnsr, hlo, hsec, hepoch⟩ := latchTime_rules htick hns
    have hf : ∀ F : Fld, ((latchTime s.dev).output p [s.dev.tickLo]).f F = (latchTime s.dev).f F :=
      fun F => f_of_regs (Dev.output_regs ..) F
    refine ⟨_, runs_onDev (c := .tbsTickLoRead p) (f := readTickLo p) rfl ((if_pos hserves).trans rfl), Dev.output_given .., (hf _).trans hhi,
      (hf _).trans hnsr, (hf _).trans hlo, (hf _).trans hsec, (hf _).trans hepoch, ?_, ?_⟩
    · exact onlyWords_regs (onlyWords_latchTime s.dev) (Dev.output_regs ..)
    · exact frame_trans takeOut (fun _ _ _ => rfl) (frame_mono takeRegs takeOut (fun _ _ => rfl) (takeRegs_latchTime s.dev))
        (takeOut_output ..)
end

section
/-! SUPPORT. Proofs about the rails (R485 to R487, R503, R506): rises and lowerings step by step, and rail faults. -/
namespace Sys2Proof.Machine

/-! ## Rises -/

theorem mayRise_of {a : AonSt} (hvaon : a.vaon = true) (hreset : a.resetN = true) (hflush : a.flushing = false)
    (hshut : a.shutPending = false) : a.mayRise = true := by
  rw [AonSt.mayRise, hvaon, hreset, hflush, hshut]
  rfl

theorem of_mayRise {a : AonSt} (h : a.mayRise = true) : a.vaon = true ∧ a.resetN = true := by
  obtain ⟨h, -⟩ := Bool.and_eq_true_iff.mp h
  exact Bool.and_eq_true_iff.mp (Bool.and_eq_true_iff.mp h).1

/-- The always-on state as RESET_N rises, with the straps sampled. -/
def released (boot i2c : Nat) (a : AonSt) : AonSt := { a with resetN := true, strapBoot := boot, strapI2c := i2c }

theorem resetRelease_rises {boot i2c : Nat} {d : Dev} (hvaon : d.aon.vaon = true) (hwait : d.aon.waitFor = .resetN)
    (hseq : d.aon.seq = .steady) (hflush : d.aon.flushing = false) (hshut : d.aon.shutPending = false) :
    resetRelease boot i2c d = d.setAon ((released boot i2c d.aon).rise d.aon.cause) := by
  have hrise : (released boot i2c d.aon).mayRise = true := mayRise_of hvaon rfl hflush hshut
  refine (if_neg (by rw [hvaon]; decide)).trans ((if_pos hwait).trans ?_)
  rw [hseq]
  exact if_pos hrise

theorem selfRise_rises {w : RiseOn} {kind : Nat} {d : Dev} (hwait : d.aon.waitFor = w) (hseq : d.aon.seq = .steady)
    (hrise : d.aon.mayRise = true) : selfRise w kind d = d.setAon (d.aon.rise kind) :=
  (if_pos ⟨hwait, hseq, (of_mayRise hrise).1⟩).trans (if_pos hrise)

theorem pfailRestart_rises {d : Dev} (hwait : d.aon.waitFor = .pfail) (hseq : d.aon.seq = .steady)
    (hrise : d.aon.mayRise = true) : pfailRestart d = d.setAon (({ d.aon with pfailN := true } : AonSt).rise 6) := by
  obtain ⟨hvaon, hreset⟩ := of_mayRise hrise
  have hset : (if d.aon.vaon then d.setAon { d.aon with pfailN := true } else d) = d.setAon { d.aon with pfailN := true } :=
    if_pos hvaon
  unfold pfailRestart
  rw [hset]
  exact (if_pos hreset).trans (selfRise_rises (d := d.setAon { d.aon with pfailN := true }) hwait hseq hrise)

/-- A rise that the sequencer begins by itself, by its command. -/
theorem runs_ownRise {c : Instr} {w : RiseOn} {k : Nat} {s : State}
    (hc : (c, w, k) ∈ [(Instr.railFaultRetry, RiseOn.railRetry, 7), (.softwareResetRise, .fullReset, 3), (.pfailRestart, .pfail, 6)])
    (hwait : s.dev.aon.waitFor = w) (hseq : s.dev.aon.seq = .steady) (hrise : s.dev.aon.mayRise = true) :
    ∃ a : AonSt, runs c s (s.dev.setAon (a.rise k)) ∧ a.en = s.dev.aon.en := by
  simp only [List.mem_cons, Prod.mk.injEq, List.mem_nil_iff, or_false] at hc
  obtain ⟨rfl, rfl, rfl⟩ | ⟨rfl, rfl, rfl⟩ | ⟨rfl, rfl, rfl⟩ := hc
  · exact ⟨s.dev.aon, runs_onDev (c := .railFaultRetry) (f := selfRise .railRetry 7) rfl (selfRise_rises hwait hseq hrise), rfl⟩
  · exact ⟨s.dev.aon, runs_onDev (c := .softwareResetRise) (f := selfRise .fullReset 3) rfl (selfRise_rises hwait hseq hrise), rfl⟩
  · exact ⟨_, runs_onDev (c := .pfailRestart) (f := pfailRestart) rfl (pfailRestart_rises hwait hseq hrise), rfl⟩

/-! ## The restart after a cutoff (R503) -/

/-- Readings in a row that both sensors have stayed below the restart threshold, with the present one. -/
def coolCount (pix log : Int) (a : AonSt) : Nat :=
  if pix < 16 * ((a.warnPix : Int) - a.hyst) ∧ log < 16 * ((a.warnLog : Int) - a.hyst) then a.coolFor + 1 else 0

theorem autoCheck_eq {pix log : Int} {d : Dev} (hwait : d.aon.waitFor = .auto) (hseq : d.aon.seq = .steady) :
    autoCheck pix log d =
      if 100 ≤ coolCount pix log d.aon ∧ d.aon.mayRise = true then d.setAon (({ d.aon with coolFor := 0 } : AonSt).rise 5)
      else d.setAon { d.aon with coolFor := coolCount pix log d.aon } := if_pos ⟨hwait, hseq⟩

theorem coolCount_warm {pix : Int} {a : AonSt} (hpix : 16 * ((a.warnPix : Int) - a.hyst) ≤ pix) (log : Int) :
    coolCount pix log a = 0 := if_neg fun h => absurd h.1 (Int.not_lt.mpr hpix)

/-! ## Enables and power-goods -/

theorem aon_pmbStart (d : Dev) : (pmbStart d).aon = d.aon := by
  unfold pmbStart
  split
  · rfl
  · rfl

/-- `d` with the always-on domain, the power control and the start-up of `x`. -/
abbrev takeRails (x d : Dev) : Dev := { d with aon := x.aon, pwr := x.pwr, boot := x.boot }

theorem takePwr_pmbStart (d : Dev) : pmbStart d = { d with pwr := (pmbStart d).pwr } := by
  unfold pmbStart
  split
  · rfl
  · rfl

theorem enStep_up {i : Nat} {d : Dev} (hseq : d.aon.seq = .raising) (hnext : nextUp d.aon.en = some i)
    (hgood : i = 0 ∨ railBit d.aon.pg (i - 1) = true) (hpmb : i ≠ 3 ∨ d.pwr.pmbBegun = true ∧ d.pwr.pmbQ = []) :
    enStep d = d.setAon { d.aon with en := setRail d.aon.en i } := by
  refine (if_pos hseq).trans ?_
  rw [hnext]
  exact if_pos ⟨hgood, hpmb⟩

theorem enStep_waits {i : Nat} {d : Dev} (hseq : d.aon.seq = .raising) (hnext : nextUp d.aon.en = some i)
    (hi : i ≠ 0) (hgood : railBit d.aon.pg (i - 1) = false) : enStep d = d := by
  refine (if_pos hseq).trans ?_
  rw [hnext]
  exact if_neg fun h => h.1.elim hi fun hg => absurd (hgood.symm.trans hg) (by decide)

/-- The step that raises an enable, and what the PMBus master then begins. -/
theorem enStepped_rules (a : AonSt) (d : Dev) :
    (pmbStart (d.setAon a)).aon = a ∧
      pmbStart (d.setAon a) = { d with aon := (pmbStart (d.setAon a)).aon, pwr := (pmbStart (d.setAon a)).pwr } := by
  refine ⟨aon_pmbStart _, ?_⟩
  conv_lhs => rw [takePwr_pmbStart]
  rw [aon_pmbStart]
  rfl

/-- A power-good of an enabled rail, and the PMBus master that VIO's starts. -/
def railGood (i : Nat) (d : Dev) : Dev := pmbStart (d.setAon { d.aon with pg := setRail d.aon.pg i })

theorem pgRise_eq {i : Nat} {d : Dev} (hvaon : d.aon.vaon = true) (hen : railBit d.aon.en i = true) :
    pgRise i d = if d.aon.seq = .raising ∧ d.aon.en = 0x3F ∧ setRail d.aon.pg i = 0x3F then reachOn (railGood i d) else railGood i d :=
  if_pos ⟨hvaon, hen⟩

theorem railGood_rules (i : Nat) (d : Dev) :
    (railGood i d).aon = { d.aon with pg := setRail d.aon.pg i } ∧ railGood i d = takeRails (railGood i d) d := by
  obtain ⟨haon, hframe⟩ := enStepped_rules { d.aon with pg := setRail d.aon.pg i } d
  refine ⟨haon, ?_⟩
  unfold railGood
  conv_lhs => rw [hframe]
  conv_rhs => rw [hframe]

theorem reachOn_rules (d : Dev) :
    (reachOn d).aon = { d.aon with seq := .steady, level := 2, waitFor := .none, faults := 0 } ∧ reachOn d = takeRails (reachOn d) d :=
  ⟨rfl, rfl⟩

/-! ## Lowering -/

/-- An enable of a lowering falls, and the power-good with it. -/
def railDown (i : Nat) (a : AonSt) : AonSt := { a with en := clearRail a.en i, pg := clearRail a.pg i }

theorem lowerStep_eq {o : Bool} {i : Nat} {d : Dev} (hseq : d.aon.seq = .lowering o) (hnext : nextDown d.aon.en o = some i) :
    lowerStep d = if (nextDown (clearRail d.aon.en i) o).isNone = true then lowered o (d.setAon (railDown i d.aon))
      else d.setAon (railDown i d.aon) := by
  unfold lowerStep
  rw [hseq]
  dsimp only
  rw [hnext]
  rfl

/-- The always-on domain where a lowering has ended. -/
def atLevel (o : Bool) (a : AonSt) : AonSt := { a with seq := .steady, level := if o then 0 else 1 }

theorem lowered_eq (o : Bool) (d : Dev) : lowered o d =
    if d.aon.waitFor = .released ∧ (atLevel o d.aon).mayRise = true then d.setAon ((atLevel o d.aon).rise d.aon.cause)
    else d.setAon (if d.aon.waitFor = .released then { atLevel o d.aon with waitFor := .resetN } else atLevel o d.aon) := rfl

theorem lowered_en (o : Bool) (d : Dev) : (lowered o d).aon.en = d.aon.en := by
  rw [lowered_eq]
  split
  · rfl
  · split
    · rfl
    · rfl

theorem lowered_frame (o : Bool) (d : Dev) : lowered o d = { d with aon := (lowered o d).aon } := by
  rw [lowered_eq]
  split
  · rfl
  · rfl

theorem lowered_level {o : Bool} {d : Dev} (h : d.aon.waitFor ≠ .released) : (lowered o d).aon = atLevel o d.aon := by
  rw [lowered_eq, if_neg fun hr => h hr.1, if_neg h]
  rfl

/-! ## Rail faults (R487) -/

/-- What waits and stands in the always-on domain after a rail fault. -/
def faulted (d : Dev) : AonSt :=
  let n := d.aon.faults + 1
  let now := if 3 ≤ n then RiseOn.stuck else .railRetry
  let w := waitAfter d.faultWait now
  let kind := if w = now then 7 else if d.aon.shutPending then 5 else d.aon.cause
  ({ d.aon with faults := n, cause := kind, shutPending := false } : AonSt).lower true w

/-- PWR.FAULT names a rail and a cause. -/
def faultFields (rail cause : Nat) (d : Dev) : Dev :=
  ((d.setF PWR_FAULT_VALID 1).setF PWR_FAULT_RAIL rail).setF PWR_FAULT_CAUSE cause

/-- The interrupt, the count and the event of a rail fault. -/
def faultReported (d : Dev) : Dev := reported .pwr (BitVec.ofNat 32 (2 ^ PWR_IRQ_RAW_RAIL_FAULT.lo)) PWR_RAIL_FAULTS 0x032 [] d

/-- PWR.FAULT, the interrupt, the count and the event of a rail fault. -/
def faultNoted (rail cause : Nat) (d : Dev) : Dev := faultReported (faultFields rail cause d)

theorem railFault_eq (rail cause : Nat) (d : Dev) (r : Recorder) :
    railFault rail cause (d, r) = (faultNoted rail cause (resetDev (d.setAon (faulted d))), resetRecorder r) := rfl

theorem faulted_rules (d : Dev) :
    (faulted d).seq = .lowering true ∧ (faulted d).level = 3 ∧ (faulted d).shutPending = false ∧
      (faulted d).faults = d.aon.faults + 1 ∧ (faulted d).pg = d.aon.pg := ⟨rfl, rfl, rfl, rfl, rfl⟩

theorem resetDev_keeps (d : Dev) : (resetDev d).aon = d.aon ∧ (resetDev d).evq = d.evq ∧ (resetDev d).nvm = d.nvm := ⟨rfl, rfl, rfl⟩

theorem faultWait_plain {d : Dev} (hseq : d.aon.seq = .steady ∨ d.aon.seq = .raising) (hshut : d.aon.shutPending = false) :
    d.faultWait = .none := by
  refine (if_neg (by rw [hshut]; decide)).trans ?_
  obtain hseq | hseq := hseq
  · rw [hseq]
  · rw [hseq]

theorem faultWait_lowering {o : Bool} {d : Dev} (hseq : d.aon.seq = .lowering o) (hshut : d.aon.shutPending = false) :
    d.faultWait = d.aon.waitFor := by
  refine (if_neg (by rw [hshut]; decide)).trans ?_
  rw [hseq]

/-- The rise that a fault of the rails alone leaves due. -/
def faultRise (n : Nat) : RiseOn := if 3 ≤ n then .stuck else .railRetry

theorem faultRise_eq (n : Nat) : faultRise (n + 1) = if 2 ≤ n then .stuck else .railRetry := by
  unfold faultRise
  congr 1
  rw [Nat.succ_le_succ_iff]

theorem waitFor_faulted (d : Dev) : (faulted d).waitFor = waitAfter d.faultWait (faultRise (d.aon.faults + 1)) := rfl

theorem cause_faulted (d : Dev) : (faulted d).cause =
    if waitAfter d.faultWait (faultRise (d.aon.faults + 1)) = faultRise (d.aon.faults + 1) then 7
    else if d.aon.shutPending then 5 else d.aon.cause := rfl

/-- A fault that meets no lowering and no shutdown. -/
theorem faulted_plain {d : Dev} (hseq : d.aon.seq = .steady ∨ d.aon.seq = .raising) (hshut : d.aon.shutPending = false) :
    (faulted d).waitFor = (if 2 ≤ d.aon.faults then .stuck else .railRetry) ∧ (faulted d).cause = 7 := by
  have hwait : waitAfter d.faultWait (faultRise (d.aon.faults + 1)) = faultRise (d.aon.faults + 1) := by
    rw [faultWait_plain hseq hshut]
    exact if_neg (by simp)
  exact ⟨(waitFor_faulted d).trans (hwait.trans (faultRise_eq _)), (cause_faulted d).trans (if_pos hwait)⟩

/-- A fault in the lowering of a power failure. -/
theorem faulted_pfail {o : Bool} {d : Dev} (hseq : d.aon.seq = .lowering o) (hshut : d.aon.shutPending = false)
    (hwait : d.aon.waitFor = .pfail) : (faulted d).waitFor = .pfail := by
  rw [waitFor_faulted, faultWait_lowering hseq hshut, hwait]
  rfl

/-- One of the first two faults in the lowering of a shutdown. -/
theorem faulted_auto {o : Bool} {d : Dev} (hseq : d.aon.seq = .lowering o) (hshut : d.aon.shutPending = false)
    (hwait : d.aon.waitFor = .auto) (hfew : d.aon.faults < 2) : (faulted d).waitFor = .auto ∧ (faulted d).cause = d.aon.cause := by
  have hrise : faultRise (d.aon.faults + 1) = .railRetry := (faultRise_eq _).trans (if_neg (by omega))
  rw [waitFor_faulted, cause_faulted, faultWait_lowering hseq hshut, hwait, hrise, hshut]
  exact ⟨rfl, rfl⟩

theorem faultFields_rules {rail cause : Nat} (hrail : rail < 8) (hcause : cause < 16) (d : Dev) :
    (faultFields rail cause d).f PWR_FAULT_VALID = 1 ∧ (faultFields rail cause d).f PWR_FAULT_RAIL = rail ∧
      (faultFields rail cause d).f PWR_FAULT_CAUSE = cause := by
  unfold faultFields
  refine ⟨?_, ?_, ?_⟩
  · rw [f_setF_apart (by decide), f_setF_apart (by decide)]
    exact f_setF_same d (by decide) (by decide) (by decide)
  · rw [f_setF_apart (by decide)]
    exact f_setF_same _ (by decide) (by decide) hrail
  · exact f_setF_same _ (by decide) (by decide) hcause

theorem takeRegs_faultFields (rail cause : Nat) (d : Dev) : faultFields rail cause d = takeRegs (faultFields rail cause d) d :=
  frame_trans takeRegs (fun _ _ _ => rfl) (frame_trans takeRegs (fun _ _ _ => rfl) (takeRegs_setFi d PWR_FAULT_VALID 0 0 1)
    (takeRegs_setFi _ PWR_FAULT_RAIL 0 0 rail)) (takeRegs_setFi _ PWR_FAULT_CAUSE 0 0 cause)

theorem railFaults_beside : counterBeside PWR_RAIL_FAULTS .pwr := by decide

theorem onlyRaised_faultReported (d : Dev) :
    onlyRaised d (faultReported d) [PWR_RAIL_FAULTS.addr 0 0, Page.pwr.base + 0x10] :=
  (reported_rules railFaults_beside (BitVec.ofNat 32 (2 ^ PWR_IRQ_RAW_RAIL_FAULT.lo)) 0x032 [] d).2.2

theorem evq_faultReported (d : Dev) : ∃ x, (faultReported d).evq = d.evq ++ [x] ∧ x.code = 0x032 :=
  let ⟨x, hx, hcode, _⟩ := (reported_rules railFaults_beside (BitVec.ofNat 32 (2 ^ PWR_IRQ_RAW_RAIL_FAULT.lo)) 0x032 [] d).2.1
  ⟨x, hx, hcode⟩

/-- What a rail fault reports leaves the other registers and domains. -/
theorem faultReported_keeps (d : Dev) :
    (∀ F : Fld, F.addr 0 0 ∉ [PWR_RAIL_FAULTS.addr 0 0, Page.pwr.base + 0x10] → (faultReported d).f F = d.f F) ∧
      (faultReported d).aon = d.aon ∧ (faultReported d).nvm = d.nvm :=
  have hraised := onlyRaised_faultReported d
  ⟨fun _ h => fi_of_word (hraised.2 _ h), onlyRaised_keeps Dev.aon (fun _ _ => rfl) hraised,
    onlyRaised_keeps Dev.nvm (fun _ _ => rfl) hraised⟩

/-- A part of the device beside the registers. -/
theorem keeps_of_takeRegs {β : Type} (part : Dev → β) (hpart : ∀ x d, part (takeRegs x d) = part d) {d e : Dev}
    (h : e = takeRegs e d) : part e = part d := (congrArg part h).trans (hpart e d)

theorem faultFields_keeps (rail cause : Nat) (d : Dev) : (faultFields rail cause d).aon = d.aon ∧
    (faultFields rail cause d).nvm = d.nvm ∧ (faultFields rail cause d).evq = d.evq :=
  have hframe := takeRegs_faultFields rail cause d
  ⟨keeps_of_takeRegs Dev.aon (fun _ _ => rfl) hframe, keeps_of_takeRegs Dev.nvm (fun _ _ => rfl) hframe,
    keeps_of_takeRegs Dev.evq (fun _ _ => rfl) hframe⟩

/-- What stands after a rail fault, whatever the always-on domain was. -/
theorem railFault_rules (rail : Fin 6) {cause : Nat} (hcause : cause < 16) (d : Dev) (r : Recorder) :
    ∃ e, railFault rail cause (d, r) = (e, resetRecorder r) ∧ e.aon = faulted d ∧ e.nvm = d.nvm ∧
      e.f PWR_FAULT_VALID = 1 ∧ e.f PWR_FAULT_RAIL = rail ∧ e.f PWR_FAULT_CAUSE = cause ∧
      ∃ x, e.evq = d.evq ++ [x] ∧ x.code = 0x032 := by
  have hreset := resetDev_keeps (d.setAon (faulted d))
  rw [railFault_eq, faultNoted]
  generalize resetDev (d.setAon (faulted d)) = x at hreset ⊢
  obtain ⟨haon, hevq, hnvm⟩ := hreset
  obtain ⟨hvalid, hr, hc⟩ := faultFields_rules (show rail.val < 8 by omega) hcause x
  obtain ⟨haon', hnvm', hevq'⟩ := faultFields_keeps rail cause x
  generalize faultFields rail cause x = y at hvalid hr hc haon' hnvm' hevq' ⊢
  obtain ⟨hf, haon'', hnvm''⟩ := faultReported_keeps y
  obtain ⟨e, he, hcode⟩ := evq_faultReported y
  refine ⟨_, rfl, haon''.trans (haon'.trans haon), hnvm''.trans (hnvm'.trans hnvm), (hf _ (by decide)).trans hvalid,
    (hf _ (by decide)).trans hr, (hf _ (by decide)).trans hc, e, ?_, hcode⟩
  rw [he, hevq', hevq]
  rfl

/-- The first enabled rail that is not good. -/
theorem firstBad {a : AonSt} {i : Fin 6} (hlow : ∀ j, j < i.val → railBit a.en j = true → railBit a.pg j = true)
    (hen : railBit a.en i = true) (hpg : railBit a.pg i = false) :
    ((List.range 6).find? fun i => railBit a.en i && !railBit a.pg i) = some i.val := by
  rw [List.find?_range_eq_some]
  refine ⟨by rw [hen, hpg]; rfl, List.mem_range.mpr i.isLt, fun j hj => ?_⟩
  by_cases hj' : railBit a.en j = true
  · rw [hlow j hj hj', Bool.not_true, Bool.and_false]
    rfl
  · rw [Bool.eq_false_iff.mpr hj']
    rfl

/-- While rails rise or stand, the first of them that is not good has failed. -/
theorem pgTimeout_first {i : Fin 6} {s : State} (hvaon : s.dev.aon.vaon = true)
    (hseq : s.dev.aon.seq = .raising ∨ s.dev.aon.seq = .steady)
    (hlow : ∀ j, j < i.val → railBit s.dev.aon.en j = true → railBit s.dev.aon.pg j = true)
    (hen : railBit s.dev.aon.en i = true) (hpg : railBit s.dev.aon.pg i = false) :
    pgTimeout (s.dev, s.evr) = railFault i 1 (s.dev, s.evr) := by
  have hnot : s.dev.aon.seq ≠ .lowering true := by
    obtain hseq | hseq := hseq
    · rw [hseq]
      decide
    · rw [hseq]
      decide
  refine (if_pos ⟨hvaon, fun h => hnot h.1⟩).trans ?_
  rw [firstBad hlow hen hpg]

end Sys2Proof.Machine

open Sys2Proof Sys2Proof.Machine

/-- Settles O44: what begins a rise, how enables rise and fall one at a time, and what a rail fault leaves. -/
theorem railsAreSequenced : Obligations.RailsAreSequenced := by
  unfold Obligations.RailsAreSequenced
  refine ⟨?release, ?ownRise, ?cool, ?warm, ?enable, ?waits, ?good, ?lower, ?timeout, ?lost⟩
  case release =>
    intro b i s hvaon hwait hseq hflush hshut
    exact ⟨_, runs_onDev (c := .resetNRelease b i) (f := resetRelease b i) rfl (resetRelease_rises hvaon hwait hseq hflush hshut),
      rfl, rfl, rfl, rfl, rfl, rfl, rfl⟩
  case ownRise =>
    intro c w k s hc hwait hseq hrise
    obtain ⟨a, hrun, hen⟩ := runs_ownRise hc hwait hseq hrise
    exact ⟨_, hrun, rfl, rfl, rfl, rfl, hen⟩
  case cool =>
    intro pix log s hwait hseq hrise hpix hlog
    have hcheck := autoCheck_eq (pix := pix.toInt) (log := log.toInt) hwait hseq
    have hcount : coolCount pix.toInt log.toInt s.dev.aon = s.dev.aon.coolFor + 1 := if_pos ⟨hpix, hlog⟩
    rw [hcount] at hcheck
    have hrun := runs_onDev (c := .autoRestartCheck pix log) (s := s) (f := autoCheck pix.toInt log.toInt) rfl hcheck
    by_cases hlong : 99 ≤ s.dev.aon.coolFor
    · rw [if_pos ⟨Nat.succ_le_succ hlong, hrise⟩] at hrun
      exact ⟨_, hrun, rfl, (if_pos hlong).mpr ⟨rfl, rfl⟩⟩
    · rw [if_neg fun h => hlong (Nat.le_of_succ_le_succ h.1)] at hrun
      exact ⟨_, hrun, rfl, (if_neg hlong).mpr rfl⟩
  case warm =>
    intro pix log s hwait hseq hpix
    have hcheck := autoCheck_eq (pix := pix.toInt) (log := log.toInt) hwait hseq
    rw [coolCount_warm hpix, if_neg fun h => absurd h.1 (by decide)] at hcheck
    exact runs_onDev (c := .autoRestartCheck pix log) (f := autoCheck pix.toInt log.toInt) rfl hcheck
  case enable =>
    intro i s hseq hnext hgood hpmb
    exact ⟨_, runs_onDev (c := .railEnStep) (f := fun d => pmbStart (enStep d)) rfl
      (congrArg pmbStart (enStep_up hseq hnext hgood hpmb)), enStepped_rules _ s.dev⟩
  case waits =>
    intro i s hseq hnext hi hgood
    exact ⟨_, runs_onDev (c := .railEnStep) (f := fun d => pmbStart (enStep d)) rfl
      (congrArg pmbStart (enStep_waits hseq hnext hi hgood)), aon_pmbStart s.dev⟩
  case good =>
    intro i s hvaon hen
    obtain ⟨haon, hframe⟩ := railGood_rules i s.dev
    obtain ⟨hon, honframe⟩ := reachOn_rules (railGood i s.dev)
    have hrun := runs_onDev (c := .railPgRise i) (s := s) (f := pgRise i) rfl (pgRise_eq hvaon hen)
    by_cases hall : s.dev.aon.seq = .raising ∧ s.dev.aon.en = 0x3F ∧ setRail s.dev.aon.pg i = 0x3F
    · rw [if_pos hall] at hrun
      rw [haon] at hon
      refine ⟨_, hrun, ?_, ?_, fun _ _ _ => ⟨?_, ?_⟩, frame_trans takeRails (fun _ _ _ => rfl) hframe honframe⟩
      · exact (congrArg AonSt.pg hon :)
      · exact (congrArg AonSt.en hon :)
      · exact (congrArg AonSt.level hon :)
      · exact (congrArg AonSt.seq hon :)
    · rw [if_neg hall] at hrun
      refine ⟨_, hrun, ?_, ?_, fun hseq hens hpgs => absurd ⟨hseq, hens, hpgs⟩ hall, hframe⟩
      · exact (congrArg AonSt.pg haon :)
      · exact (congrArg AonSt.en haon :)
  case lower =>
    intro o i s hseq hnext
    have hrun := runs_onDev (c := .railEnLowerStep) (s := s) (f := lowerStep) rfl (lowerStep_eq hseq hnext)
    by_cases hlast : nextDown (clearRail s.dev.aon.en i) o = none
    · rw [if_pos (Option.isNone_iff_eq_none.mpr hlast)] at hrun
      refine ⟨_, hrun, lowered_frame o (s.dev.setAon _), lowered_en .., fun _ hwait => ?_⟩
      rw [lowered_level (d := s.dev.setAon (railDown i s.dev.aon)) hwait]
      exact ⟨rfl, rfl⟩
    · rw [if_neg fun h => hlast (Option.isNone_iff_eq_none.mp h)] at hrun
      exact ⟨_, hrun, rfl, rfl, fun hnone => absurd hnone hlast⟩
  case timeout =>
    intro i s hvaon hseq hshut hlow hen hpg
    obtain ⟨e, hfault, haon, hnvm, hvalid, hrail, hcause, hevq⟩ := railFault_rules i (cause := 1) (by decide) s.dev s.evr
    obtain ⟨hwait, hkind⟩ := faulted_plain (Or.symm hseq) hshut
    obtain ⟨hlowering, hlevel, _, hcount, _⟩ := faulted_rules s.dev
    have hrun := runsRec_onRec (c := .railPgTimeout) (s := s) (f := pgTimeout) rfl
      ((pgTimeout_first hvaon hseq hlow hen hpg).trans hfault)
    refine ⟨e, _, hrun, ?_, ?_, ?_, ?_, ?_, hvalid, hrail, hcause, hevq, hnvm, rfl⟩
    · rw [haon, hlowering]
    · rw [haon, hlevel]
    · rw [haon, hwait]
    · rw [haon, hcount]
    · rw [haon, hkind]
  case lost =>
    intro i s hvaon hen hpg
    obtain ⟨e, hfault, haon, hnvm, hvalid, hrail, hcause, hevq⟩ := railFault_rules i (cause := 2) (by decide)
      (s.dev.setAon { s.dev.aon with pg := clearRail s.dev.aon.pg i }) s.evr
    obtain ⟨hlowering, hlevel, hended, _, hgood⟩ := faulted_rules (s.dev.setAon { s.dev.aon with pg := clearRail s.dev.aon.pg i })
    have hrun := runsRec_onRec (c := .railPgLost i) (s := s) (f := pgLost i) rfl ((if_pos ⟨hvaon, hen, hpg⟩).trans hfault)
    rw [← haon] at hlowering hlevel hended hgood
    refine ⟨e, _, hrun, hlowering, hlevel, hended, fun hseq hshut => ?_, fun hseq hshut hwait => ?_, fun hseq hshut hwait hfew => ?_,
      hgood, hvalid, hrail, hcause, hevq, hnvm, rfl⟩
    · rw [haon]
      exact faulted_plain (d := s.dev.setAon { s.dev.aon with pg := clearRail s.dev.aon.pg i }) hseq hshut
    · rw [haon]
      exact faulted_pfail (d := s.dev.setAon { s.dev.aon with pg := clearRail s.dev.aon.pg i }) hseq hshut hwait
    · rw [haon]
      exact faulted_auto (d := s.dev.setAon { s.dev.aon with pg := clearRail s.dev.aon.pg i }) hseq hshut hwait hfew
end

section
/-! SUPPORT. Proofs about the kinds of reset (R488, R548 to R550, R556): the words and the state that each keeps. -/
namespace Sys2Proof.Machine

theorem word_resetDev (d : Dev) (a : Nat) : (resetDev d).word a = if a ∈ aonWords then d.word a else resetWord a := by
  have hget := SMap.get_filter resetWord d.regs (fun a => aonWords.contains a) a
  rw [List.contains_eq_mem] at hget
  simp only [decide_eq_true_eq] at hget
  exact hget

/-- What a reset through RETAIN or OFF keeps, and what it clears. -/
theorem resetDev_rules (d : Dev) :
    (∀ a, a ∉ aonWords → (resetDev d).word a = resetWord a) ∧ (∀ a ∈ aonWords, (resetDev d).word a = d.word a) ∧
      (resetDev d).act = [] ∧ (resetDev d).nvm = d.nvm ∧ (d.aon.seq ≠ .lowering true → (resetDev d).hmp.ring = d.hmp.ring) := by
  refine ⟨fun a ha => (word_resetDev d a).trans (if_neg ha), fun a ha => (word_resetDev d a).trans (if_pos ha), rfl, rfl, fun h => ?_⟩
  have hkept : (resetDev d).hmp = d.hmp.kept (d.aon.seq = .lowering true) := rfl
  rw [hkept, decide_eq_false h]
  rfl

theorem resetDev_clears (d : Dev) : (resetDev d).clk = {} ∧ (resetDev d).time = {} := ⟨rfl, rfl⟩

/-- RESET_N low at ON. -/
theorem resetAssert_on {d : Dev} (r : Recorder) (hvaon : d.aon.vaon = true) (hshut : d.aon.shutPending = false)
    (hflush : d.aon.flushing = false) (hlevel : d.aon.level = 2) :
    resetAssert (d, r) =
      (resetDev (d.setAon (({ d.aon with resetN := false, cause := 2 } : AonSt).lower false .resetN)), resetRecorder r) := by
  refine (if_neg (by rw [hvaon]; decide)).trans ((if_neg fun h => ?_).trans (if_pos (.inl hlevel)))
  exact h.elim (fun h => absurd (hshut.symm.trans h) (by decide)) fun h => absurd (hflush.symm.trans h) (by decide)

theorem level_of_serves {d : Dev} (h : d.serves = true) : d.aon.level = 2 :=
  of_decide_eq_true (Bool.and_eq_true_iff.mp (clocked_of_serves h)).1

theorem resetBusy_of {d : Dev} (h : d.serves = true) (hshut : d.aon.shutPending = false) (hflush : d.aon.flushing = false) :
    d.resetBusy = false := by
  rw [Dev.resetBusy, level_of_serves h, hshut, hflush]
  rfl

theorem fullReset_on {d : Dev} (r : Recorder) (h : d.resetBusy = false) : fullReset (d, r) =
    (resetDev (d.setAon (({ d.aon with cause := 3 } : AonSt).lower false .fullReset)), resetRecorder r) :=
  if_neg (by rw [h]; decide)

/-! ## A warm reset (R548, R550) -/

theorem get_commitGone {p : Page} {a : Nat} (hstat : a ≠ p.base + 0x20) (hpage : a ≠ p.base + 0x0C) (regs : SMap Word) :
    SMap.get resetWord (commitGone regs p) a = SMap.get resetWord regs a := by
  unfold commitGone
  dsimp only
  split
  · rw [SMap.get_set_ne _ _ _ _ _ hpage, SMap.get_set_ne _ _ _ _ _ hstat]
  · rfl

/-- The words of a page that a commit, as it is discarded, changes. -/
def commitWords (p : Page) : List Nat := [p.base + 0x20, p.base + 0x0C]

theorem get_commitsGone {a : Nat} (ps : List Page) (h : ∀ p ∈ ps, a ∉ commitWords p) (regs : SMap Word) :
    SMap.get resetWord (ps.foldl commitGone regs) a = SMap.get resetWord regs a := by
  induction ps generalizing regs with
  | nil => rfl
  | cons p ps ih =>
    have hp := h p List.mem_cons_self
    rw [List.foldl_cons, ih fun q hq => h q (List.mem_cons_of_mem _ hq)]
    simp only [commitWords, List.mem_cons, List.mem_nil_iff, or_false, not_or] at hp
    exact get_commitGone hp.1 hp.2 regs

/-- A word of no commit, after a warm reset. -/
theorem word_warmDev {a : Nat} (h : ∀ p ∈ allPages.filter keptWarm, a ∉ commitWords p) (d : Dev) :
    (warmDev d).word a = if keepWord a = true then d.word a else resetWord a :=
  (get_commitsGone _ h _).trans (SMap.get_filter resetWord d.regs keepWord a)

theorem warmDev_rules {d : Dev} (hseq : d.aon.seq = .steady) :
    (warmDev d).aon = d.aon ∧ (warmDev d).time = d.time ∧ (warmDev d).clk = { d.clk with laneLock := [] } ∧
      (warmDev d).pwr = d.pwr ∧ (warmDev d).thm = d.thm ∧ (warmDev d).tap = d.tap ∧ (warmDev d).nvm = d.nvm ∧
      (warmDev d).ary = {} ∧ (warmDev d).eng = [] ∧ (warmDev d).boot.run = .off ∧ (warmDev d).boot.warm = true ∧
      (warmDev d).hmp.ring = d.hmp.ring :=
  ⟨rfl, rfl, rfl, rfl, rfl, rfl, rfl, rfl, rfl, rfl, rfl, (resetDev_rules d).2.2.2.2 (by rw [hseq]; decide)⟩

/-- Words of SYS, ARY and the kept pages that a warm reset keeps, and words of the others that it clears. -/
theorem warmKept : ∀ a ∈ [0x118, 0x200, 0x20C, 0x101A8, 0x101AC, 0x1100, 0x2100, 0x3110, 0x4180],
    keepWord a = true ∧ ∀ p ∈ allPages.filter keptWarm, a ∉ commitWords p := by decide

theorem warmCleared : ∀ F ∈ Blk.fields .nrd ++ Blk.fields .exp ++ Blk.fields .dlv ++ Blk.fields .mbx,
    keepWord (F.addr 0 0) = false ∧ ∀ p ∈ allPages.filter keptWarm, F.addr 0 0 ∉ commitWords p := by decide

end Sys2Proof.Machine

open Sys2Proof Sys2Proof.Machine

/-- Settles O45: what each reset clears and keeps; the words of a warm reset by the page that holds them. -/
theorem resetsKeepTheirOwn : Obligations.ResetsKeepTheirOwn := by
  unfold Obligations.ResetsKeepTheirOwn
  refine ⟨?powerOn, ?loss, ?resetN, ?full, ?warm⟩
  case powerOn =>
    intro b s hvaon
    have hon : powerOn b (s.dev, s.evr) = _ := if_neg (by rw [hvaon]; decide)
    exact ⟨_, _, runsRec_onRec (c := .vaonPowerOn b) (f := powerOn b) rfl hon, rfl, rfl, rfl, rfl, rfl, rfl, rfl, rfl, rfl, rfl⟩
  case loss =>
    intro s hvaon
    have hloss : vaonLoss (s.dev, s.evr) = _ := if_neg (by rw [hvaon]; decide)
    exact ⟨_, _, runsRec_onRec (c := .vaonLoss) (f := vaonLoss) rfl hloss, rfl, rfl, rfl, rfl, rfl⟩
  case resetN =>
    intro s hvaon hshut hflush hlevel
    have hrun := runsRec_onRec (c := .resetNAssert) (s := s) (f := resetAssert) rfl (resetAssert_on s.evr hvaon hshut hflush hlevel)
    obtain ⟨hclear, hkeep, hact, hnvm, hring⟩ := resetDev_rules
      (s.dev.setAon (({ s.dev.aon with resetN := false, cause := 2 } : AonSt).lower false .resetN))
    obtain ⟨hclk, htime⟩ := resetDev_clears
      (s.dev.setAon (({ s.dev.aon with resetN := false, cause := 2 } : AonSt).lower false .resetN))
    exact ⟨_, _, hrun, rfl, rfl, rfl, hclear, hkeep, hact, hclk, htime, hnvm, hring (show Seq.lowering false ≠ .lowering true by decide), rfl⟩
  case full =>
    intro p s hadm hshut hflush
    have hopen := gateWriteRec_open (x := (s.dev, s.evr)) fullReset hadm.1 hadm.2
    rw [fullReset_on s.evr (resetBusy_of hadm.1 hshut hflush)] at hopen
    have hrun := runsRec_onRec (c := .fullReset p) (s := s) (f := gateWriteRec p fullReset) rfl hopen
    obtain ⟨hclear, hkeep, hact, hnvm, hring⟩ := resetDev_rules
      (s.dev.setAon (({ s.dev.aon with cause := 3 } : AonSt).lower false .fullReset))
    exact ⟨_, _, hrun, rfl, rfl, rfl, hclear, hkeep, hact, hnvm, hring (show Seq.lowering false ≠ .lowering true by decide), rfl⟩
  case warm =>
    intro p s hadm hshut hflush hseq
    have hrun := runs_gateWrite (c := .warmReset p) (f := warmReset) rfl hadm
    have hwarm : warmReset s.dev = warmDev (s.dev.setAon { s.dev.aon with cause := 4 }) :=
      if_neg (by rw [resetBusy_of hadm.1 hshut hflush]; decide)
    rw [hwarm] at hrun
    obtain ⟨haon, htime, hclk, hpwr, hthm, htap, hnvm, hary, heng, hrunf, hwarmf, hring⟩ :=
      warmDev_rules (d := s.dev.setAon { s.dev.aon with cause := 4 }) hseq
    refine ⟨_, hrun, haon, htime, hclk, hpwr, hthm, htap, hnvm, hary, heng, hrunf, hwarmf, hring, fun a ha => ?_, fun F hF => ?_⟩
    · obtain ⟨hkept, hwords⟩ := warmKept a ha
      exact (word_warmDev hwords _).trans (if_pos hkept)
    · obtain ⟨hlost, hwords⟩ := warmCleared F hF
      exact congrArg (fun w => bitsOf w F.hi F.lo) ((word_warmDev hwords _).trans (if_neg (by rw [hlost]; decide)))
end

section
/-! SUPPORT. Where a record goes (R510, R518, R519): the buffer keeps what it has while it has room, and takes the record. -/
namespace Sys2Proof.Machine

theorem setAt_split {α : Type} {l : List α} {n : Nat} {a : α} (b : α) (h : l[n]? = some a) :
    setAt l n b = l.take n ++ b :: l.drop (n + 1) ∧ l = l.take n ++ a :: l.drop (n + 1) := by
  induction l generalizing n with
  | nil => exact absurd h (by simp)
  | cons x l ih =>
    cases n with
    | zero =>
      obtain rfl := Option.some.inj h
      exact ⟨rfl, rfl⟩
    | succ n =>
      obtain ⟨hset, hl⟩ := ih h
      exact ⟨congrArg (x :: ·) hset, congrArg (x :: ·) hl⟩

/-- Sealing changes no record. -/
theorem bufRecs_sealImage (sev : Nat) (r : Recorder) : (sealImage sev r).bufRecs = r.bufRecs := by
  have hrecs : ∀ p : PageImg, (if p.sev = sev ∧ p.sealed = false then { p with sealed := true } else p).recs = p.recs := by
    intro p
    split
    · rfl
    · rfl
  unfold Recorder.bufRecs sealImage
  rw [List.flatMap_map]
  exact congrArg (fun f => List.flatMap f r.images) (funext hrecs)

/-- The image whose severity a record has takes it. -/
theorem bufRecs_setAt {l : List PageImg} {n : Nat} {p : PageImg} (x : Rec) (h : l[n]? = some p) :
    ∀ y, y ∈ (setAt l n { p with recs := p.recs ++ [x] }).flatMap (·.recs) ↔ y = x ∨ y ∈ l.flatMap (·.recs) := by
  intro y
  obtain ⟨hset, hl⟩ := setAt_split { p with recs := p.recs ++ [x] } h
  rw [hset, List.flatMap_append, List.flatMap_cons]
  conv_rhs => rw [hl, List.flatMap_append, List.flatMap_cons]
  simp only [List.mem_append, List.mem_singleton]
  tauto

/-- The buffer's place for a record: an open image of its severity with space for it. -/
def placeOf (x : Rec) (l : List PageImg) : Option Nat :=
  match openImage l x.sev with
  | some n => match l[n]? with
    | some p => if p.used + x.size ≤ 256 then some n else none
    | none => none
  | none => none

theorem placeOf_spec {x : Rec} {l : List PageImg} {n : Nat} (h : placeOf x l = some n) : ∃ p, l[n]? = some p := by
  unfold placeOf at h
  split at h
  · split at h
    · rename_i p hp
      split at h
      · obtain rfl := Option.some.inj h
        exact ⟨p, hp⟩
      · cases h
    · cases h
  · cases h

/-- With room in the buffer a record enters it, and nothing leaves. -/
theorem placeRec_room (x : Rec) (d : Dev) {r : Recorder} (h : r.images.length < 1024) :
    ∃ r', placeRec x (d, r) = (d, r') ∧ r' = { r with images := r'.images } ∧ ∀ y, y ∈ r'.bufRecs ↔ y = x ∨ y ∈ r.bufRecs := by
  have hlen : (sealImage x.sev r).images.length < 1024 := by
    rw [sealImage, List.length_map]
    exact h
  unfold placeRec
  dsimp only
  split
  case h_1 n hfits =>
    obtain ⟨p, hp⟩ := placeOf_spec (x := x) (l := r.images) hfits
    rw [hp]
    exact ⟨_, rfl, rfl, bufRecs_setAt x hp⟩
  case h_2 _ =>
    rw [if_pos hlen]
    refine ⟨_, rfl, rfl, fun y => ?_⟩
    have hbuf := bufRecs_sealImage x.sev r
    unfold Recorder.bufRecs at hbuf ⊢
    dsimp only
    rw [List.flatMap_append, hbuf, List.mem_append, List.flatMap_singleton, List.mem_singleton, or_comm]

/-- Even where the buffer is full, a record changes nothing of the recorder beside it, and adds at most itself. -/
theorem placeRec_any (x : Rec) (d : Dev) (r : Recorder) :
    ∃ d' r', placeRec x (d, r) = (d', r') ∧ r' = { r with images := r'.images } ∧ ∀ y ∈ r'.bufRecs, y = x ∨ y ∈ r.bufRecs := by
  by_cases hroom : r.images.length < 1024
  · obtain ⟨r', hrec, hr, hmem⟩ := placeRec_room x d hroom
    exact ⟨d, r', hrec, hr, fun y hy => (hmem y).mp hy⟩
  · have hlen : ¬ (sealImage x.sev r).images.length < 1024 := by
      rw [sealImage, List.length_map]
      exact hroom
    have hbuf := bufRecs_sealImage x.sev r
    unfold Recorder.bufRecs at hbuf ⊢
    unfold placeRec
    dsimp only
    split
    case h_1 n hfits =>
      obtain ⟨p, hp⟩ := placeOf_spec (x := x) (l := r.images) hfits
      rw [hp]
      exact ⟨_, _, rfl, rfl, fun y => (bufRecs_setAt x hp y).mp⟩
    case h_2 _ =>
      rw [if_neg hlen]
      split
      case h_1 n _ =>
        refine ⟨_, _, rfl, rfl, fun y hy => ?_⟩
        dsimp only at hy
        rw [List.flatMap_append, List.mem_append, List.flatMap_singleton, List.mem_singleton] at hy
        refine hy.symm.imp_right fun hy => hbuf ▸ ?_
        obtain ⟨p, hp, hy⟩ := List.mem_flatMap.mp hy
        exact List.mem_flatMap.mpr ⟨p, List.mem_of_mem_eraseIdx hp, hy⟩
      case h_2 _ => exact ⟨_, _, rfl, rfl, fun y hy => .inr (hbuf ▸ hy)⟩

/-- The record that an event becomes. -/
def recordOf (e : Ev) (d : Dev) (seq : Nat) : Rec :=
  { code := e.code, sev := e.sev, src := e.src, payload := e.payload, seq, stamp := d.stamp, inferred := e.inferred }

/-- The recorder as a record takes the next number. -/
def numbered (e : Ev) (r : Recorder) : Recorder :=
  { r with
    nextSeq := r.nextSeq + 1
    last := SMap.set (fun _ => {}) r.last e.src
      { code := e.code, payload := e.payload, seq := r.nextSeq, cyc := e.cyc, valid := true } }

theorem acceptRec_eq (e : Ev) (d : Dev) (r : Recorder) :
    acceptRec e (d, r) = placeRec (recordOf e d r.nextSeq) (burstSeq e.code r.nextSeq (d.bump EVR_ACCEPTED), numbered e r) := rfl

/-- With room in the buffer an event becomes a record of the next number. -/
theorem acceptRec_room (e : Ev) (d : Dev) {r : Recorder} (h : r.images.length < 1024) :
    ∃ r', acceptRec e (d, r) = (burstSeq e.code r.nextSeq (d.bump EVR_ACCEPTED), r') ∧
      r' = { numbered e r with images := r'.images } ∧ ∀ y, y ∈ r'.bufRecs ↔ y = recordOf e d r.nextSeq ∨ y ∈ r.bufRecs := by
  rw [acceptRec_eq]
  exact placeRec_room (recordOf e d r.nextSeq) _ (r := numbered e r) h

theorem acceptRec_any (e : Ev) (d : Dev) (r : Recorder) :
    ∃ d' r', acceptRec e (d, r) = (d', r') ∧ r' = { numbered e r with images := r'.images } ∧
      ∀ y ∈ r'.bufRecs, y = recordOf e d r.nextSeq ∨ y ∈ r.bufRecs := by
  rw [acceptRec_eq]
  exact placeRec_any (recordOf e d r.nextSeq) _ (numbered e r)

end Sys2Proof.Machine
end

section
/-! SUPPORT. Proofs about the ways down (R501 to R505): the SHUTDOWN record, the cutoff's latch, and the flush of a power
failure. -/
namespace Sys2Proof.Machine

/-! ## Pages of the log (R522) -/

/-- What the target page of an image depends on. -/
theorem targetPage_of {d e : Dev} {r q : Recorder} (hnvm : e.nvm = d.nvm) (hlog : q.log = r.log) (sev : Nat) :
    targetPage e q sev = targetPage d r sev := by
  unfold targetPage
  rw [hnvm, hlog]

theorem programImage_at {p : PageImg} {d : Dev} {r : Recorder} {n : Nat} {o : Bool} (h : targetPage d r p.sev = some (n, o)) :
    programImage p (d, r) = some (pageTaken o d, { r with log := SMap.set noPage r.log n { p with sealed := true } }) := by
  unfold programImage
  dsimp only
  rw [h]
  rfl

/-- An image of the buffer is programmed into its page. -/
theorem programAt_done {k m : Nat} {o : Bool} {p : PageImg} {d : Dev} {r : Recorder} (hp : r.images[k]? = some p)
    (h : targetPage d r p.sev = some (m, o)) : programAt false k (d, r) =
      (pageTaken o d, { r with images := r.images.eraseIdx k, log := SMap.set noPage r.log m { p with sealed := true } }) := by
  unfold programAt
  dsimp only
  rw [hp, Option.getD_some, h]
  rfl

/-- A page that is programmed changes the counts, the interrupts and the boot's flag alone. -/
theorem pageTaken_keeps (o : Bool) (d : Dev) {β : Type} (part : Dev → β) (hpart : ∀ x d, part (takeRaised x d) = part d)
    (hboot : ∀ b d, part { d with boot := b } = part d) : part (pageTaken o d) = part d := by
  have hset : ∀ (F : Fld) (v : Nat) (e : Dev), part (e.setFi F 0 0 v) = part e := fun F v e =>
    (congrArg part (takeRegs_setFi e F 0 0 v)).trans (hpart { e.setFi F 0 0 v with evq := e.evq, reqs := e.reqs } e)
  unfold pageTaken
  dsimp only
  rw [Dev.bump_def, Dev.bump_def]
  split
  · split
    · exact (hset ..).trans (hset ..)
    · rw [hboot, Dev.raise_def]
      exact ((congrArg part (takeRaised_raiseBits _ _ _)).trans (hpart ..)).trans ((hset ..).trans (hset ..))
  · exact hset ..

/-! ## The SHUTDOWN record (R501, R503) -/

/-- The SHUTDOWN record. -/
def shutdownRec (d : Dev) (seq : Nat) : Rec :=
  { code := 0x031, sev := 6, src := Page.code .thm, payload := d.latchBytes, seq, stamp := d.stamp }

/-- The log with a SHUTDOWN record as a page of its own. -/
def withShutdown (n : Nat) (d : Dev) (r : Recorder) : Recorder :=
  { r with nextSeq := r.nextSeq + 1,
           log := SMap.set noPage r.log n { sev := 6, recs := [shutdownRec d r.nextSeq], sealed := true } }

/-- The SHUTDOWN record is programmed. -/
def shutdownNoted (o : Bool) (d : Dev) : Dev := (pageTaken o (d.bump EVR_ACCEPTED)).setF THM_LATCH_RECORD_DONE 1

theorem shutdownRecord_at {n : Nat} {o : Bool} {d : Dev} {r : Recorder} (h : targetPage d r 6 = some (n, o)) :
    shutdownRecord (d, r) = ((shutdownNoted o d).setAon { (pageTaken o (d.bump EVR_ACCEPTED)).aon with shutDue := false },
      withShutdown n d r) := by
  have htarget : targetPage (d.bump EVR_ACCEPTED) { r with nextSeq := r.nextSeq + 1 } 6 = some (n, o) :=
    (targetPage_of (Dev.setFi_nvm ..) rfl 6).trans h
  have hprog := programImage_at (p := { sev := 6, recs := [shutdownRec d r.nextSeq], sealed := true }) htarget
  unfold shutdownRecord
  dsimp only
  unfold shutdownRec at hprog
  rw [hprog]
  rfl

theorem shutdownNoted_done (o : Bool) (d : Dev) : (shutdownNoted o d).f THM_LATCH_RECORD_DONE = 1 :=
  f_setF_same _ (by decide) (by decide) (by decide)

/-- The always-on domain as a shutdown lowers the rails. -/
def shutDown (w : RiseOn) (a : AonSt) : AonSt := ({ a with shutPending := false, cause := 5 } : AonSt).lower false w

theorem shutdownDone_of {d : Dev} {r : Recorder} {x : Dev × Recorder} (hpend : d.aon.shutPending = true)
    (hdue : d.aon.shutDue = true) (h : shutdownRecord (d, r) = x) :
    shutdownDone (d, r) = (resetDev (x.1.setAon (shutDown x.1.afterShutdown x.1.aon)), resetRecorder x.2) := by
  unfold shutdownDone
  dsimp only
  rw [if_pos hpend, if_pos hdue, h]
  rfl

/-- The log's page with the SHUTDOWN record. -/
theorem page_withShutdown (n : Nat) (d : Dev) (r : Recorder) :
    SMap.get noPage (withShutdown n d r).log n = { sev := 6, recs := [shutdownRec d r.nextSeq], sealed := true } := by
  unfold withShutdown
  dsimp only
  exact SMap.get_set_same noPage r.log n _

/-! ## The cutoff (R502) -/

theorem setLatch_rules {cause temp : Nat} (hcause : cause < 16) (htemp : temp < 256) (d : Dev) :
    (d.setLatch cause temp).f THM_LATCH_CAUSE = cause ∧ (d.setLatch cause temp).f THM_LATCH_TEMP = temp ∧
      (d.setLatch cause temp).f THM_LATCH_RECORD_DONE = 0 := by
  unfold Dev.setLatch
  refine ⟨?_, ?_, ?_⟩
  · rw [f_setF_apart (by decide), f_setF_apart (by decide)]
    exact f_setF_same d (by decide) (by decide) hcause
  · rw [f_setF_apart (by decide)]
    exact f_setF_same _ (by decide) (by decide) htemp
  · exact f_setF_same _ (by decide) (by decide) (by decide)

theorem takeRegs_setLatch (cause temp : Nat) (d : Dev) : d.setLatch cause temp = takeRegs (d.setLatch cause temp) d :=
  frame_trans takeRegs (fun _ _ _ => rfl) (frame_trans takeRegs (fun _ _ _ => rfl) (takeRegs_setFi d THM_LATCH_CAUSE 0 0 cause)
    (takeRegs_setFi _ THM_LATCH_TEMP 0 0 temp)) (takeRegs_setFi _ THM_LATCH_RECORD_DONE 0 0 0)

theorem onlyWords_setLatch (cause temp : Nat) (d : Dev) : onlyWords d (d.setLatch cause temp) aonWords :=
  onlyWords_trans (onlyWords_trans (onlyWords_setFi d (F := THM_LATCH_CAUSE) (by decide) cause)
    (onlyWords_setFi _ (F := THM_LATCH_TEMP) (by decide) temp)) (onlyWords_setFi _ (F := THM_LATCH_RECORD_DONE) (by decide) 0)

/-- `d` with the registers and the always-on domain of `x`. -/
abbrev takeRegsAon (x d : Dev) : Dev := { d with regs := x.regs, aon := x.aon }

/-- A field of the always-on words, after a reset through RETAIN or OFF. -/
theorem f_resetDev {F : Fld} (h : F.addr 0 0 ∈ aonWords) (d : Dev) : (resetDev d).f F = d.f F :=
  fi_of_word ((word_resetDev d _).trans (if_pos h))

/-- The cause that the cutoff of a sensor records. -/
def cutoffCause (pix : Bool) : Nat := if pix then 3 else 4

theorem cutoffCause_lt (pix : Bool) : cutoffCause pix < 16 := by cases pix <;> decide

/-- The always-on domain after a cutoff at ON. -/
def cutOff (w : RiseOn) (a : AonSt) : AonSt :=
  { a with shutPending := false, shutDue := true, en := a.en % 8, pg := a.pg % 8, level := 1, seq := .steady, waitFor := w,
           cause := 5, coolFor := 0 }

theorem cutoff_on {pix : Bool} {temp : Nat} {d : Dev} (r : Recorder) (hvaon : d.aon.vaon = true) (hlevel : d.aon.level = 2)
    (hseq : d.aon.seq = .steady) : cutoff pix temp (d, r) =
      (resetDev ((d.setLatch (cutoffCause pix) temp).setAon
        (cutOff (d.setLatch (cutoffCause pix) temp).afterShutdown d.aon)), resetRecorder r) := by
  refine (if_neg (by rw [hvaon]; decide)).trans ((if_neg fun h => h.2.1 hlevel).trans (if_neg ?_))
  rw [hseq]
  decide

theorem cutoff_low {pix : Bool} {temp : Nat} {d : Dev} (r : Recorder) (hvaon : d.aon.vaon = true) (hlevel : d.aon.level ≠ 2)
    (hseq : d.aon.seq ≠ .raising) (hen : d.aon.en < 8) (hcause : d.f THM_LATCH_CAUSE = 0) : cutoff pix temp (d, r) =
      ((d.setLatch (cutoffCause pix) temp).setAon { d.aon with shutDue := true }, r) := by
  refine (if_neg (by rw [hvaon]; decide)).trans ((if_pos ⟨hen, hlevel, hseq⟩).trans ?_)
  rw [if_pos hcause]
  rfl

/-! ## The flush of a power failure (R505) -/

/-- The event of a power failure. -/
def powerFail (d : Dev) : Ev := { code := 0x030, sev := 6, src := Page.code .pwr, payload := [], cyc := d.cyc }

/-- The always-on domain as a power failure is accepted. -/
def pfailed (a : AonSt) : AonSt :=
  ({ a with pfailN := false, flushing := true, shutPending := false, pfailSeen := true, cause := 6 } : AonSt).lower true .pfail

theorem pfailAccept_quiet {d : Dev} {r : Recorder} (hvaon : d.aon.vaon = true) (hflush : d.aon.flushing = false) (hevq : d.evq = []) :
    pfailAccept (d, r) =
      (let x := acceptRec (powerFail d) (d, { r with frozen := false })
       (faultFields 0 4 (resetDev (x.1.setAon (pfailed x.1.aon))), resetRecorder x.2)) := by
  have hnot : ¬ (d.aon.vaon = false ∨ d.aon.flushing = true) := by
    rw [hvaon, hflush]
    decide
  refine (if_neg hnot).trans ?_
  rw [hevq]
  rfl

theorem nextSealed_single (ok : PageImg → Bool) {p : PageImg} (h : p.sealed = true) :
    nextSealed ok [p] = if ok p = true then some 0 else none := by
  unfold nextSealed
  rw [List.zipIdx_singleton, List.foldl_cons, List.foldl_nil, h, Bool.true_and]
  cases ok p with
  | true => rfl
  | false => rfl

/-- A single image that has a page is the next of the flush. -/
theorem flushPick_single {p : PageImg} {d : Dev} {r : Recorder} {t : Nat × Bool} (himages : r.images = [{ p with sealed := true }])
    (htarget : targetPage d r p.sev = some t) : flushPick d r = some 0 := by
  unfold flushPick nextReady
  rw [himages, nextSealed_single _ rfl, nextSealed_single _ rfl, htarget, Option.isSome_some, Bool.and_true, if_pos rfl]
  cases p.recs.any fun x => x.code = 0x030 with
  | true => rfl
  | false => rfl

/-- With no image left, nothing is flushed. -/
theorem flushPick_none {d : Dev} {r : Recorder} (h : r.images = []) : flushPick d r = none := by
  unfold flushPick nextReady
  rw [h]
  rfl

theorem flushRest_none {d : Dev} {r : Recorder} (hdue : d.aon.shutDue = false) (himages : r.images = []) (n : Nat) :
    flushRest n (d, r) = (d, r) := by
  have hseal : sealAll r = r := by
    unfold sealAll
    rw [himages]
    cases r
    cases himages
    rfl
  have hstep : flushStep false (d, r) = (d, r) := by
    refine (if_neg (by rw [hdue]; decide)).trans ?_
    rw [hseal, flushPick_none himages]
  induction n with
  | zero => rfl
  | succ n ih => exact (congrArg (flushRest n) hstep).trans ih

/-- The flush of a single image. -/
theorem flushStep_single {p : PageImg} {m : Nat} {o : Bool} {d : Dev} {r : Recorder} (hdue : d.aon.shutDue = false)
    (himages : r.images = [p]) (htarget : targetPage d r p.sev = some (m, o)) :
    flushStep false (d, r) =
      (pageTaken o d, { r with images := [], log := SMap.set noPage r.log m { p with sealed := true } }) := by
  have hsealed : (sealAll r).images = [{ p with sealed := true }] := by
    unfold sealAll
    rw [himages]
    rfl
  have htarget' : targetPage d (sealAll r) p.sev = some (m, o) := (targetPage_of rfl rfl _).trans htarget
  refine (if_neg (by rw [hdue]; decide)).trans ?_
  rw [flushPick_single hsealed htarget']
  refine (programAt_done (p := { p with sealed := true }) (by rw [hsealed]; rfl) htarget').trans ?_
  rw [hsealed]
  rfl

theorem aon_pageTaken (o : Bool) (d : Dev) : (pageTaken o d).aon = d.aon :=
  pageTaken_keeps o d Dev.aon (fun _ _ => rfl) fun _ _ => rfl

/-- The flush of a power failure that finds a single image, with a page for it. -/
theorem pfailFlush_single {p : PageImg} {m : Nat} {o : Bool} {d : Dev} {r : Recorder} (hflush : d.aon.flushing = true)
    (hdue : d.aon.shutDue = false) (himages : r.images = [p]) (htarget : targetPage d r p.sev = some (m, o)) :
    pfailFlush (d, r) = ((pageTaken o d).setAon { d.aon with flushing := false },
      { r with images := [], log := SMap.set noPage r.log m { p with sealed := true } }) := by
  have hrest : flushRest (r.images.length + 2) (d, r) =
      (pageTaken o d, { r with images := [], log := SMap.set noPage r.log m { p with sealed := true } }) := by
    rw [himages]
    exact (congrArg (flushRest 2) (flushStep_single hdue himages htarget)).trans
      (flushRest_none (by rw [aon_pageTaken]; exact hdue) rfl 2)
  refine (if_pos hflush).trans ?_
  dsimp only
  rw [hrest, aon_pageTaken]

end Sys2Proof.Machine

open Sys2Proof Sys2Proof.Machine

/-- Settles O46: the SHUTDOWN record as a page of its own, the latch of a cutoff, and the records that the flush of a power
failure leaves in the log. -/
theorem shutdownsLeaveRecords : Obligations.ShutdownsLeaveRecords := by
  unfold Obligations.ShutdownsLeaveRecords
  refine ⟨?record, ?cutoff, ?latch, ?accept, ?flush, ?quiet⟩
  case record =>
    intro s hpend hdue htarget
    obtain ⟨⟨n, o⟩, htarget⟩ := Option.ne_none_iff_exists'.mp htarget
    have hdone := shutdownDone_of hpend hdue (shutdownRecord_at htarget)
    refine ⟨_, _, runsRec_onRec (c := .shutdownRecordDone) (f := shutdownDone) rfl hdone, rfl, rfl, rfl, ?_, rfl, n,
      shutdownRec s.dev s.evr.nextSeq, ?_, rfl, rfl, rfl⟩
    · exact (f_resetDev (by decide) _).trans ((f_of_regs (Dev.setAon_regs ..) _).trans
        ((f_of_regs (Dev.setAon_regs ..) _).trans (shutdownNoted_done o s.dev)))
    · exact congrArg PageImg.recs (page_withShutdown n s.dev s.evr)
  case cutoff =>
    intro pix t s hvaon hlevel hseq
    obtain ⟨hc, ht, hdone⟩ := setLatch_rules (cutoffCause_lt pix) t.isLt s.dev
    refine ⟨_, _, runsRec_onRec (c := .cutoffTrip pix t) (f := cutoff pix t.toNat) rfl (cutoff_on s.evr hvaon hlevel hseq), rfl, rfl, rfl,
      ?_, ?_, ?_, ?_, rfl⟩
    · exact (f_resetDev (by decide) _).trans ((f_of_regs (Dev.setAon_regs ..) _).trans hc)
    · exact (f_resetDev (by decide) _).trans ((f_of_regs (Dev.setAon_regs ..) _).trans ht)
    · exact (f_resetDev (by decide) _).trans ((f_of_regs (Dev.setAon_regs ..) _).trans hdone)
    · obtain ⟨_, _, hnvm⟩ := resetDev_keeps ((s.dev.setLatch (cutoffCause pix) t.toNat).setAon
        (cutOff (s.dev.setLatch (cutoffCause pix) t.toNat).afterShutdown s.dev.aon))
      exact hnvm.trans ((Dev.setAon_nvm ..).trans (keeps_of_takeRegs Dev.nvm (fun _ _ => rfl) (takeRegs_setLatch ..)))
  case latch =>
    intro pix t s hvaon hlevel hseq hen hnone
    obtain ⟨hc, ht, _⟩ := setLatch_rules (cutoffCause_lt pix) t.isLt s.dev
    have hrun : runs (.cutoffTrip pix t) s ((s.dev.setLatch (cutoffCause pix) t.toNat).setAon { s.dev.aon with shutDue := true }) :=
      (show exec (.cutoffTrip pix t) s = onRec (cutoff pix t.toNat) s from rfl).trans
        (onRec_eq (cutoff_low s.evr hvaon hlevel hseq hen hnone))
    refine ⟨_, hrun, rfl, (f_of_regs (Dev.setAon_regs ..) _).trans hc, (f_of_regs (Dev.setAon_regs ..) _).trans ht,
      onlyWords_regs (onlyWords_setLatch _ _ _) (Dev.setAon_regs ..), ?_⟩
    exact frame_trans takeRegsAon (fun _ _ _ => rfl) (frame_mono takeRegs takeRegsAon (fun _ _ => rfl) (takeRegs_setLatch ..)) rfl
  case accept =>
    intro s hvaon hflush hevq hroom
    obtain ⟨r, hrec, hr, hmem⟩ := acceptRec_room (powerFail s.dev) s.dev (r := { s.evr with frozen := false }) hroom
    have haccept := pfailAccept_quiet (r := s.evr) hvaon hflush hevq
    rw [hrec] at haccept
    obtain ⟨hvalid, _, hcause⟩ := faultFields_rules (rail := 0) (cause := 4) (by decide) (by decide) (resetDev
      ((burstSeq (powerFail s.dev).code s.evr.nextSeq (s.dev.bump EVR_ACCEPTED)).setAon
        (pfailed (burstSeq (powerFail s.dev).code s.evr.nextSeq (s.dev.bump EVR_ACCEPTED)).aon)))
    obtain ⟨haon, _, _⟩ := faultFields_keeps 0 4 (resetDev
      ((burstSeq (powerFail s.dev).code s.evr.nextSeq (s.dev.bump EVR_ACCEPTED)).setAon
        (pfailed (burstSeq (powerFail s.dev).code s.evr.nextSeq (s.dev.bump EVR_ACCEPTED)).aon)))
    refine ⟨_, _, recordOf (powerFail s.dev) s.dev s.evr.nextSeq, runsRec_onRec (c := .pfailAccept) (f := pfailAccept) rfl haccept,
      ?_, ?_, ?_, hvalid, hcause, rfl, ?_, (hmem _).mpr (.inl rfl), rfl, rfl, ?_⟩
    · rw [haon]
      rfl
    · rw [haon]
      rfl
    · rw [haon]
      rfl
    · exact (congrArg Recorder.log hr :)
    · exact (congrArg Recorder.nextSeq hr :)
  case flush =>
    intro p m o s hflush hdue himages htarget
    exact ⟨_, _, runsRec_onRec (c := .pfailFlushDone) (f := pfailFlush) rfl (pfailFlush_single hflush hdue himages htarget), rfl, rfl,
      SMap.get_set_same .., fun n hn => SMap.get_set_ne _ _ _ _ _ hn⟩
  case quiet =>
    intro s hflush
    exact (show exec .pfailFlushDone s = onRec pfailFlush s from rfl).trans (onRec_eq (if_neg (by rw [hflush]; decide)))
end

section
/-! SUPPORT. Proofs about the events that the recorder takes (R510, R514 to R517): filtered, coalesced, dropped or accepted. -/
namespace Sys2Proof.Machine

/-- The device as the recorder takes an event from its input. -/
def without (e : Ev) (d : Dev) : Dev := { d with evq := d.evq.erase e }

theorem acceptNext_none {d : Dev} (r : Recorder) (h : d.evq = [] ∨ d.recOpen = false) : acceptNext (d, r) = (d, r) := by
  have hnext : (if d.recOpen = true then nextEvent d.evq else none) = none := by
    obtain h | h := h
    · rw [h]
      exact ite_self _
    · exact if_neg (by rw [h]; decide)
  unfold acceptNext
  dsimp only
  rw [hnext]

theorem acceptNext_some {e : Ev} {d : Dev} (r : Recorder) (hopen : d.recOpen = true) (h : nextEvent d.evq = some e) :
    acceptNext (d, r) = handleEvent e (without e d, r) := by
  unfold acceptNext
  dsimp only
  rw [if_pos hopen, h]
  rfl

/-- The last record of an event's source. -/
abbrev lastOf (e : Ev) (r : Recorder) : LastRec := SMap.get (fun _ => {}) r.last e.src

/-- The bucket of an event's source. -/
abbrev bucketOf (e : Ev) (r : Recorder) : Bucket := SMap.get (fun _ => {}) r.buckets e.src

/-- Has a bucket a token left? -/
abbrev hasToken (b : Bucket) (d : Dev) : Prop := b.taken - (d.cyc - b.cyc) + tokenCost ≤ bucketDepth

theorem handleEvent_filtered {e : Ev} {d : Dev} {r : Recorder} (h : e.sev < d.f EVR_CFG_MIN_SEV) :
    handleEvent e (d, r) = (d.bump EVR_FILTERED, r) := if_pos h

/-- The recorder as an event repeats the last record of its source. -/
def repeated (e : Ev) (d : Dev) (r : Recorder) : Recorder :=
  coalesce d (lastOf e r).seq { r with last := SMap.set (fun _ => {}) r.last e.src { lastOf e r with cyc := e.cyc } }

theorem handleEvent_repeats {e : Ev} {d : Dev} {r : Recorder} (hsev : d.f EVR_CFG_MIN_SEV ≤ e.sev)
    (h : repeats d r e (lastOf e r) = true) : handleEvent e (d, r) = (d.bump EVR_COALESCED, repeated e d r) :=
  (if_neg (Nat.not_lt.mpr hsev)).trans (if_pos h)

/-- The recorder as a token of an event's source is taken. -/
def tokenTaken (e : Ev) (d : Dev) (r : Recorder) : Recorder :=
  let b : Bucket := { taken := (bucketOf e r).taken - (d.cyc - (bucketOf e r).cyc) + tokenCost, cyc := d.cyc }
  { r with buckets := SMap.set (fun _ => {}) r.buckets e.src b }

/-- Events that no bucket limits. -/
abbrev unlimited (e : Ev) : Prop := e.sev = 6 ∨ e.sev = 7 ∨ e.code = 0x001

theorem handleEvent_new {e : Ev} {d : Dev} {r : Recorder} (hsev : d.f EVR_CFG_MIN_SEV ≤ e.sev)
    (h : repeats d r e (lastOf e r) = false) : handleEvent e (d, r) =
      if unlimited e then acceptRec e (d, r)
      else if hasToken (bucketOf e r) d then acceptRec e (d, tokenTaken e d r) else rateDrop e (d, r) :=
  (if_neg (Nat.not_lt.mpr hsev)).trans (if_neg (by rw [h]; exact Bool.false_ne_true))

/-- An event that enters the buffer, with the recorder as it then stands. -/
theorem handleEvent_accepts {e : Ev} {d : Dev} {r : Recorder} (hsev : d.f EVR_CFG_MIN_SEV ≤ e.sev)
    (h : repeats d r e (lastOf e r) = false) (htoken : unlimited e ∨ hasToken (bucketOf e r) d) :
    ∃ q, handleEvent e (d, r) = acceptRec e (d, q) ∧ q.images = r.images ∧ q.log = r.log ∧ q.nextSeq = r.nextSeq := by
  rw [handleEvent_new hsev h]
  by_cases hfree : unlimited e
  · exact ⟨r, if_pos hfree, rfl, rfl, rfl⟩
  · exact ⟨tokenTaken e d r, (if_neg hfree).trans (if_pos (htoken.resolve_left hfree)), rfl, rfl, rfl⟩

/-! ## Coalescing (R514, R515) -/

/-- A record as a repeat of it is counted. -/
def grown (d : Dev) (seq : Nat) (x : Rec) : Rec :=
  if x.seq = seq then
    { x with rep := x.rep + 1, coalesced := true, stepped := x.stepped || x.stamp.epoch != d.time.epoch }
  else x

theorem seq_grown (d : Dev) (seq : Nat) (x : Rec) : (grown d seq x).seq = x.seq := by
  unfold grown
  split
  · rfl
  · rfl

theorem bufRecs_coalesce (d : Dev) (seq : Nat) (r : Recorder) : (coalesce d seq r).bufRecs = r.bufRecs.map (grown d seq) := by
  unfold Recorder.bufRecs coalesce
  rw [List.flatMap_map, List.map_flatMap]
  rfl

theorem repeated_rules {e : Ev} {d : Dev} {r : Recorder} (h : repeats d r e (lastOf e r) = true) (d' : Dev) :
    (repeated e d' r).nextSeq = r.nextSeq ∧ (repeated e d' r).log = r.log ∧
      (repeated e d' r).bufRecs.map (·.seq) = r.bufRecs.map (·.seq) ∧
      ∃ x ∈ (repeated e d' r).bufRecs, x.seq = (lastOf e r).seq ∧ x.coalesced = true := by
  obtain ⟨-, hany⟩ := Bool.and_eq_true_iff.mp h
  obtain ⟨x, hx, hseq⟩ := List.any_eq_true.mp hany
  have hseq : x.seq = (lastOf e r).seq := of_decide_eq_true (Bool.and_eq_true_iff.mp hseq).1
  have hbuf : (repeated e d' r).bufRecs = r.bufRecs.map (grown d' (lastOf e r).seq) := bufRecs_coalesce ..
  refine ⟨rfl, rfl, ?_, grown d' (lastOf e r).seq x, ?_, (seq_grown ..).trans hseq, ?_⟩
  · rw [hbuf, List.map_map]
    exact List.map_congr_left fun x _ => seq_grown ..
  · rw [hbuf]
    exact List.mem_map_of_mem hx
  · rw [grown, if_pos hseq]

/-! ## Drops (R516) -/

/-- The drops of a source, with one more. -/
def moreDrops (e : Ev) (d : Dev) (a : DropAcc) : DropAcc :=
  if a.n = 0 then { n := 1, first := d.time.tick, last := d.time.tick, code := e.code, sev := e.sev }
  else { a with n := a.n + 1, last := d.time.tick, sev := max a.sev e.sev }

theorem n_moreDrops (e : Ev) (d : Dev) (a : DropAcc) : (moreDrops e d a).n = a.n + 1 := by
  unfold moreDrops
  split
  case isTrue h => rw [h]
  case isFalse _ => rfl

theorem rateDrop_eq (e : Ev) (d : Dev) (r : Recorder) : rateDrop e (d, r) =
    ((d.bump EVR_RATE_DROPPED).raise EVR_IRQ_RAW_RATE_DROP,
      { r with drops := SMap.set (fun _ => {}) r.drops e.src (moreDrops e d (SMap.get (fun _ => {}) r.drops e.src)) }) := rfl

theorem f_rateDropped (d : Dev) :
    ((d.bump EVR_RATE_DROPPED).raise EVR_IRQ_RAW_RATE_DROP).f EVR_RATE_DROPPED = (d.f EVR_RATE_DROPPED + 1) % 2 ^ 32 := by
  rw [Dev.raise_def, Dev.f_def, Dev.fi_raiseBits _ _ _ _ _ _ (by decide)]
  exact f_bump_same d rfl rfl

/-! ## Records accepted (R510) -/

/-- A counter of the recorder is a register alone. -/
theorem onlyRegs_bump (d : Dev) (F : Fld) : onlyRegs d (d.bump F) [F.addr 0 0] := onlyRegs_setFi d F 0 0 _

theorem f_recorded {code : Nat} (seq : Nat) (d : Dev) :
    (burstSeq code seq (d.bump EVR_ACCEPTED)).f EVR_ACCEPTED = (d.f EVR_ACCEPTED + 1) % 2 ^ 32 := by
  have hbump := f_bump_same d (F := EVR_ACCEPTED) rfl rfl
  unfold burstSeq
  split
  · rw [f_setF_apart (by decide), f_setF_apart (by decide)]
    exact hbump
  · exact hbump

/-- An accepted event, with room in the buffer. -/
theorem accepted_rules (e : Ev) (d : Dev) {r : Recorder} (h : r.images.length < 1024) :
    ∃ d' r', acceptRec e (d, r) = (d', r') ∧ r'.nextSeq = r.nextSeq + 1 ∧ r'.log = r.log ∧ r'.drops = r.drops ∧
      d'.f EVR_ACCEPTED = (d.f EVR_ACCEPTED + 1) % 2 ^ 32 ∧ (∀ x ∈ r.bufRecs, x ∈ r'.bufRecs) ∧
      recordOf e d r.nextSeq ∈ r'.bufRecs := by
  obtain ⟨r', hrec, hr, hmem⟩ := acceptRec_room e d h
  refine ⟨_, r', hrec, ?_, ?_, ?_, f_recorded .., fun x hx => (hmem x).mpr (.inr hx), (hmem _).mpr (.inl rfl)⟩
  · exact (congrArg Recorder.nextSeq hr :)
  · exact (congrArg Recorder.log hr :)
  · exact (congrArg Recorder.drops hr :)

/-- The event of a source's drops. -/
def dropEvent (src : Nat) (a : DropAcc) (d : Dev) : Ev :=
  { code := 0x001, sev := a.sev, src, cyc := d.cyc, payload := u32 a.n ++ u64 a.first ++ u64 a.last ++ u16 a.code }

theorem droppedRecord_none {src : Nat} {d : Dev} {r : Recorder}
    (h : (SMap.get (fun _ => ({} : DropAcc)) r.drops src).n = 0 ∨ d.recOpen = false) : droppedRecord src (d, r) = (d, r) := if_pos h

/-- The recorder as a source's drops are recorded. -/
def dropsCleared (src : Nat) (r : Recorder) : Recorder := { r with drops := SMap.set (fun _ => {}) r.drops src {} }

theorem droppedRecord_some {src : Nat} {d : Dev} {r : Recorder} {a : DropAcc} (ha : a = SMap.get (fun _ => {}) r.drops src)
    (hn : a.n ≠ 0) (hopen : d.recOpen = true) (hsev : d.f EVR_CFG_MIN_SEV ≤ a.sev) :
    droppedRecord src (d, r) = acceptRec (dropEvent src a d) (d, dropsCleared src r) := by
  subst ha
  refine (if_neg fun h => h.elim hn fun h => absurd (hopen.symm.trans h) (by decide)).trans ?_
  exact if_neg (Nat.not_lt.mpr hsev)

/-- Taking an event from the input changes no register. -/
theorem f_without (e : Ev) (d : Dev) (F : Fld) : (without e d).f F = d.f F := f_of_regs rfl F

theorem repeats_without (e : Ev) (d : Dev) (r : Recorder) (e' : Ev) (l : LastRec) :
    repeats (without e d) r e' l = repeats d r e' l := by
  unfold repeats
  rw [f_without]

end Sys2Proof.Machine

open Sys2Proof Sys2Proof.Machine

/-- Settles O49: the four ends of an event (filtered, coalesced, accepted, dropped), and the record of a source's drops. -/
theorem recorderAcceptsEvents : Obligations.RecorderAcceptsEvents := by
  unfold Obligations.RecorderAcceptsEvents
  refine ⟨?none, ?filtered, ?repeats, ?accepted, ?dropped, ?noDrops, ?drops⟩
  case none =>
    intro s h
    exact (show exec .eventAccept s = onRec acceptNext s from rfl).trans (onRec_eq (acceptNext_none s.evr h))
  case filtered =>
    intro e s hopen hnext hsev
    have hnext' := acceptNext_some s.evr hopen hnext
    rw [handleEvent_filtered (by rw [f_without]; exact hsev)] at hnext'
    refine ⟨(without e s.dev).bump EVR_FILTERED,
      (show exec .eventAccept s = onRec acceptNext s from rfl).trans (onRec_eq hnext'), rfl, ?_, onlyRegs_bump ..⟩
    exact (f_bump_same (without e s.dev) rfl rfl).trans (by rw [f_without])
  case repeats =>
    intro e l s hopen hnext hsev hl hrep
    subst hl
    have hnext' := acceptNext_some s.evr hopen hnext
    rw [handleEvent_repeats (by rw [f_without]; exact hsev) (by rw [repeats_without]; exact hrep)] at hnext'
    obtain ⟨hseq, hlog, hbuf, hcoal⟩ := repeated_rules hrep (without e s.dev)
    refine ⟨_, _, runsRec_onRec (c := .eventAccept) (f := acceptNext) rfl hnext', ?_, hseq, hlog, hbuf, hcoal, onlyRegs_bump ..⟩
    exact (f_bump_same (without e s.dev) rfl rfl).trans (by rw [f_without])
  case accepted =>
    intro e l b s hopen hnext hsev hl hrep hb htoken hroom
    subst hl hb
    have hnext' := acceptNext_some s.evr hopen hnext
    obtain ⟨q, haccept, himages, hlog, hseq⟩ := handleEvent_accepts (e := e) (d := without e s.dev) (r := s.evr)
      (by rw [f_without]; exact hsev) (by rw [repeats_without]; exact hrep) (by tauto)
    obtain ⟨d, r, hrec, hseq', hlog', -, hcount, hkeep, hmem⟩ := accepted_rules e (without e s.dev) (r := q) (by rw [himages]; exact hroom)
    have hbuf : q.bufRecs = s.evr.bufRecs := by rw [Recorder.bufRecs, himages, Recorder.bufRecs]
    refine ⟨d, r, runsRec_onRec (c := .eventAccept) (f := acceptNext) rfl (hnext'.trans (haccept.trans hrec)), hseq'.trans (by rw [hseq]),
      hlog'.trans hlog, hcount.trans (by rw [f_without]), fun x hx => hkeep x (hbuf ▸ hx), _, hmem, hseq, rfl, rfl, rfl, rfl, rfl⟩
  case dropped =>
    intro e l b s hopen hnext hsev hl hrep hb h6 h7 hcode hfull
    subst hl hb
    have hnext' := acceptNext_some s.evr hopen hnext
    rw [handleEvent_new (by rw [f_without]; exact hsev) (by rw [repeats_without]; exact hrep), if_neg (by tauto),
      if_neg (show ¬ hasToken (bucketOf e s.evr) (without e s.dev) from Nat.not_le.mpr hfull), rateDrop_eq] at hnext'
    refine ⟨_, _, runsRec_onRec (c := .eventAccept) (f := acceptNext) rfl hnext', (f_rateDropped _).trans (by rw [f_without]), rfl, ?_⟩
    dsimp only
    rw [SMap.get_set_same, n_moreDrops]
  case noDrops =>
    intro src s h
    exact (show exec (.evrDroppedRecord src) s = onRec (droppedRecord src.toNat) s from rfl).trans (onRec_eq (droppedRecord_none h))
  case drops =>
    intro src a s ha hn hopen hsev hroom
    obtain ⟨d, r, hrec, hseq, -, hdrops, -, -, hmem⟩ := accepted_rules (dropEvent src.toNat a s.dev) s.dev
      (r := dropsCleared src.toNat s.evr) hroom
    refine ⟨d, r, runsRec_onRec (c := .evrDroppedRecord src) (f := droppedRecord src.toNat) rfl
      ((droppedRecord_some ha hn hopen hsev).trans hrec), hseq, ?_, _, hmem, rfl, rfl, rfl, rfl⟩
    rw [hdrops, dropsCleared]
    dsimp only
    exact SMap.get_set_same ..
end

section
/-! SUPPORT. Proofs about the pages of the event log (R518, R522, R524, R530): images sealed, programmed and retired. -/
namespace Sys2Proof.Machine

theorem sealed_sealImage (sev : Nat) (r : Recorder) : ∀ p ∈ (sealImage sev r).images, p.sev = sev → p.sealed = true := by
  intro p hp hsev
  obtain ⟨q, -, rfl⟩ := List.mem_map.mp hp
  by_cases hq : q.sev = sev ∧ q.sealed = false
  · rw [if_pos hq]
  · rw [if_neg hq] at hsev ⊢
    exact Bool.not_eq_false _ ▸ fun h => hq ⟨hsev, h⟩

/-! ## Programming (R522) -/

theorem pageProgram_ready {fail : Bool} {n : Nat} {d : Dev} {r : Recorder} (hfrozen : r.frozen = false)
    (hshut : d.aon.shutPending = false) (hlevel : d.aon.level = 2) (h : nextReady d r = some n) :
    pageProgram fail (d, r) = programAt fail n (d, r) := by
  refine (if_neg ?_).trans ?_
  · rw [hfrozen, hshut, hlevel]
    decide
  · rw [h]

theorem pageProgram_held {fail : Bool} {d : Dev} {r : Recorder}
    (h : r.frozen = true ∨ d.aon.shutPending = true ∨ d.aon.level ≠ 2 ∨ nextReady d r = none) : pageProgram fail (d, r) = (d, r) := by
  by_cases hheld : r.frozen = true ∨ d.aon.shutPending = true ∨ d.aon.level ≠ 2
  · exact if_pos hheld
  · have hnone : nextReady d r = none := by tauto
    refine (if_neg hheld).trans ?_
    rw [hnone]

/-- The command programs a page by itself while no power failure is flushed. -/
theorem exec_evrPageProgram (fail : Bool) {s : State} (hflush : s.dev.aon.flushing = false) :
    exec (.evrPageProgram fail) s = onRec (pageProgram fail) s := by
  have hstep : (fun dr : Dev × Recorder => if dr.1.aon.flushing = true then flushStep fail dr else pageProgram fail dr) (s.dev, s.evr) =
      pageProgram fail (s.dev, s.evr) := if_neg (by rw [hflush]; decide)
  calc exec (.evrPageProgram fail) s
      = onRec (fun dr => if dr.1.aon.flushing = true then flushStep fail dr else pageProgram fail dr) s := rfl
    _ = onRec (pageProgram fail) s := by
      unfold onRec
      rw [hstep]

/-- A register beside the interrupt word of a page. -/
theorem f_raise_ne {F G : Fld} (h : G.addr 0 0 ≠ (blkPage F.blk 0).base + 0x10) (d : Dev) : (d.raise F).f G = d.f G := by
  rw [Dev.raise_def, Dev.f_def, Dev.fi_raiseBits _ _ _ _ _ _ h, Dev.f_def]

/-- The log's interrupt as it is first full, with the boot's flag. -/
def logFilled (d : Dev) : Dev := { d.raise EVR_IRQ_RAW_LOG_FULL with boot := { d.boot with logFull := true } }

theorem f_logFilled {G : Fld} (h : G.addr 0 0 ≠ Page.evr.base + 0x10) (d : Dev) : (logFilled d).f G = d.f G :=
  (f_of_regs (e := logFilled d) (d := d.raise EVR_IRQ_RAW_LOG_FULL) rfl G).trans (f_raise_ne h d)

theorem evq_logFilled (d : Dev) : (logFilled d).evq = d.evq := by
  have hraise : (logFilled d).evq = (d.raise EVR_IRQ_RAW_LOG_FULL).evq := rfl
  rw [hraise, Dev.raise_def, Dev.raiseBits_evq]

theorem evq_bump (d : Dev) (F : Fld) : (d.bump F).evq = d.evq := Dev.setFi_evq d F 0 0 _

/-- A page overwritten is counted, and reported as the log is first full. -/
def pageLost (d : Dev) : Dev :=
  if (d.bump EVR_OVERWRITTEN).boot.logFull then d.bump EVR_OVERWRITTEN else logFilled (d.bump EVR_OVERWRITTEN)

theorem pageTaken_eq (o : Bool) (d : Dev) :
    pageTaken o d = if o then pageLost (d.bump NVM_PAGE_PROG) else d.bump NVM_PAGE_PROG := rfl

theorem evq_pageLost (d : Dev) : (pageLost d).evq = d.evq := by
  unfold pageLost
  split
  · exact evq_bump ..
  · rw [evq_logFilled, evq_bump]

theorem evq_pageTaken (o : Bool) (d : Dev) : (pageTaken o d).evq = d.evq := by
  rw [pageTaken_eq]
  split
  · rw [evq_pageLost, evq_bump]
  · exact evq_bump ..

theorem f_pageLost (d : Dev) : (pageLost d).f EVR_OVERWRITTEN = (d.f EVR_OVERWRITTEN + 1) % 2 ^ 32 ∧
    (pageLost d).f NVM_PAGE_PROG = d.f NVM_PAGE_PROG := by
  have hcount := f_bump_same d (F := EVR_OVERWRITTEN) rfl rfl
  have hother : (d.bump EVR_OVERWRITTEN).f NVM_PAGE_PROG = d.f NVM_PAGE_PROG := f_setF_apart (by decide) _ d
  unfold pageLost
  split
  · exact ⟨hcount, hother⟩
  · exact ⟨(f_logFilled (by decide) _).trans hcount, (f_logFilled (by decide) _).trans hother⟩

/-- The counts of a page that is programmed. -/
theorem f_pageTaken (o : Bool) (d : Dev) :
    (pageTaken o d).f NVM_PAGE_PROG = (d.f NVM_PAGE_PROG + 1) % 2 ^ 32 ∧
      (pageTaken o d).f EVR_OVERWRITTEN = (d.f EVR_OVERWRITTEN + b2n o) % 2 ^ 32 := by
  have hprog := f_bump_same d (F := NVM_PAGE_PROG) rfl rfl
  have hover : (d.bump NVM_PAGE_PROG).f EVR_OVERWRITTEN = d.f EVR_OVERWRITTEN := f_setF_apart (by decide) _ d
  rw [pageTaken_eq]
  cases o with
  | false =>
    have hlt : d.f EVR_OVERWRITTEN < 2 ^ 32 := bitsOf_lt _ 31 0
    have hnone : b2n false = 0 := rfl
    rw [if_neg Bool.false_ne_true, hprog, hover, hnone]
    exact ⟨rfl, (Nat.mod_eq_of_lt hlt).symm⟩
  | true =>
    obtain ⟨hcount, hkept⟩ := f_pageLost (d.bump NVM_PAGE_PROG)
    have hone : b2n true = 1 := rfl
    rw [if_pos rfl, hkept, hcount, hprog, hover, hone]
    exact ⟨rfl, rfl⟩

/-- A page whose read-back fails is retired. -/
def pageRetired (m : Nat) (d : Dev) : Dev :=
  Dev.emit (Dev.raise { d with nvm := { d.nvm with retired := d.nvm.retired ++ [m] } } NVM_IRQ_RAW_PROG_FAIL) 0x009 .nvm

theorem programAt_failed {k m : Nat} {o : Bool} {p : PageImg} {d : Dev} {r : Recorder} (hp : r.images[k]? = some p)
    (h : targetPage d r p.sev = some (m, o)) :
    programAt true k (d, r) = (pageRetired m (pageTaken o d), { r with log := SMap.set noPage r.log m {} }) := by
  unfold programAt
  dsimp only
  rw [hp, Option.getD_some, h]
  rfl

theorem pageRetired_rules (m : Nat) (d : Dev) :
    (pageRetired m d).nvm.retired = d.nvm.retired ++ [m] ∧ ∃ x, (pageRetired m d).evq = d.evq ++ [x] ∧ x.code = 0x009 := by
  unfold pageRetired
  generalize hx : { d with nvm := { d.nvm with retired := d.nvm.retired ++ [m] } } = x
  have hnvm : x.nvm.retired = d.nvm.retired ++ [m] := hx ▸ rfl
  have hevq : x.evq = d.evq := hx ▸ rfl
  rw [Dev.emit_def, Dev.raise_def]
  refine ⟨?_, ?_⟩
  · rw [Dev.emitSrc_nvm, Dev.raiseBits_nvm, hnvm]
  · rw [Dev.emitSrc_evq, Dev.raiseBits_evq, hevq]
    exact ⟨_, rfl, rfl⟩

/-! ## Freezes (R524) -/

/-- The end of a freeze is reported. -/
def freezeEnded (d : Dev) : Dev := (d.raise EVR_IRQ_RAW_FREEZE_EXP).emit 0x006 .evr

theorem freezeEnded_rules (d : Dev) : (∃ x, (freezeEnded d).evq = d.evq ++ [x] ∧ x.code = 0x006) ∧
    onlyRaised d (freezeEnded d) [Page.evr.base + 0x10] := by
  unfold freezeEnded
  rw [Dev.emit_def, Dev.raise_def]
  refine ⟨?_, onlyRaised_trans (onlyRaised_raiseBits d List.mem_cons_self _) (onlyRaised_emitSrc ..)⟩
  rw [Dev.emitSrc_evq, Dev.raiseBits_evq]
  exact ⟨_, rfl, rfl⟩

end Sys2Proof.Machine

open Sys2Proof Sys2Proof.Machine

/-- Settles O50: an image sealed, programmed into its page or kept where the page fails; a freeze and a nonce that lapse. -/
theorem logIsProgrammed : Obligations.LogIsProgrammed := by
  unfold Obligations.LogIsProgrammed
  refine ⟨?sealing, ?programmed, ?failed, ?held, ?expire, ?thawed, ?nonce⟩
  case sealing =>
    intro v s
    exact ⟨_, runsRec_onRec (c := .evrImageSeal v) (f := fun dr => (dr.1, sealImage v dr.2)) rfl rfl, rfl, bufRecs_sealImage ..,
      sealed_sealImage v s.evr⟩
  case programmed =>
    intro n m o p s hfrozen hshut hflush hlevel hready hp htarget
    obtain ⟨hprog, hover⟩ := f_pageTaken o s.dev
    exact ⟨_, _, runsRec_onRec (exec_evrPageProgram false hflush)
      ((pageProgram_ready hfrozen hshut hlevel hready).trans (programAt_done hp htarget)), rfl, rfl, SMap.get_set_same ..,
      fun k hk => SMap.get_set_ne _ _ _ _ _ hk, hprog, hover⟩
  case failed =>
    intro n m o p s hfrozen hshut hflush hlevel hready hp htarget
    obtain ⟨hretired, x, hevq, hcode⟩ := pageRetired_rules m (pageTaken o s.dev)
    refine ⟨_, _, runsRec_onRec (exec_evrPageProgram true hflush)
      ((pageProgram_ready hfrozen hshut hlevel hready).trans (programAt_failed hp htarget)), rfl, ?_,
      SMap.get_set_same noPage s.evr.log m {}, x, ?_, hcode⟩
    · rw [hretired, pageTaken_keeps o s.dev Dev.nvm (fun _ _ => rfl) fun _ _ => rfl]
    · rw [hevq, evq_pageTaken]
  case held =>
    intro f s hflush h
    exact (exec_evrPageProgram f hflush).trans (onRec_eq (pageProgram_held h))
  case expire =>
    intro s hfrozen
    obtain ⟨hevq, hraised⟩ := freezeEnded_rules s.dev
    exact ⟨freezeEnded s.dev, runsRec_onRec (c := .evrFreezeExpire) (f := freezeExpire) rfl (if_pos hfrozen), hevq, hraised⟩
  case thawed =>
    intro s hfrozen
    exact (show exec .evrFreezeExpire s = onRec freezeExpire s from rfl).trans (onRec_eq (if_neg (by rw [hfrozen]; decide)))
  case nonce =>
    intro s
    exact runsRec_onRec (c := .nonceExpire) (f := fun dr => (dr.1, { dr.2 with nonce := none })) rfl rfl
end

section
/-! SUPPORT. Proofs about the commands that read, freeze and clear the log, and about the operator key (R523 to R528, R537). -/
namespace Sys2Proof.Machine

/-! ## Reading (R523) -/

theorem length_recBytes (x : Rec) (isOpen : Bool) : (x.bytes isOpen).length = x.size := by
  unfold Rec.bytes Rec.size
  simp only [List.length_append, u64, length_bytesLE]

theorem length_takeFitting (d : Dev) (r : Recorder) (l : List Rec) (room : Nat) : (takeFitting d r room l).length ≤ room := by
  induction l generalizing room with
  | nil => exact Nat.zero_le _
  | cons x l ih =>
    unfold takeFitting
    split
    case isTrue hfits =>
      have hrest := ih (room - x.size)
      rw [List.length_append, length_recBytes]
      omega
    case isFalse _ => exact Nat.zero_le _

theorem evrRead_bad {d : Dev} (r : Recorder) (h : d.cmdNat 8 2 < 256 ∨ 1024 < d.cmdNat 8 2) :
    evrRead (d, r) = (d.mbxDone resBAD_PARAM, r) := if_pos h

theorem evrRead_ok {d : Dev} (r : Recorder) (hlo : 256 ≤ d.cmdNat 8 2) (hhi : d.cmdNat 8 2 ≤ 1024) :
    evrRead (d, r) =
      (d.mbxDone resOK (takeFitting d r (d.cmdNat 8 2) (sortSeq (r.readable.filter fun x => decide (d.cmdNat 0 8 ≤ x.seq)))), r) :=
  if_neg (not_or.mpr ⟨Nat.not_lt.mpr hlo, Nat.not_lt.mpr hhi⟩)

/-! ## Mailbox commands with the recorder -/

/-- A mailbox command with a recorder, posted with its length. -/
theorem runsRec_mbxServe {c : Instr} {opc len : Nat} {lenOk : Nat → Bool} {s : State} (h : s.posted opc len)
    {f : Dev × Recorder → Dev × Recorder} {d : Dev} {r : Recorder} (hc : exec c s = onRec (mbxServeRec opc lenOk f) s)
    (hlen : lenOk len = true) (hf : f (s.dev.setMbx mbxBUSY, s.evr) = (d, r)) : runsRec c s d r :=
  runsRec_onRec hc ((mbxServeRec_posted h lenOk hlen f).trans hf)

/-- One that leaves the recorder as it is. -/
theorem runs_mbxServeRec {c : Instr} {opc len : Nat} {lenOk : Nat → Bool} {s : State} (h : s.posted opc len)
    {f : Dev × Recorder → Dev × Recorder} {d : Dev} (hc : exec c s = onRec (mbxServeRec opc lenOk f) s)
    (hlen : lenOk len = true) (hf : f (s.dev.setMbx mbxBUSY, s.evr) = (d, s.evr)) : runs c s d :=
  hc.trans (onRec_eq ((mbxServeRec_posted h lenOk hlen f).trans hf))

/-- An answer without a response writes the mailbox alone. -/
theorem f_mbxDone {F : Fld} (h : F.addr 0 0 ∉ mbxWords) (d : Dev) (result : Nat) : (d.mbxDone result).f F = d.f F :=
  fi_of_word ((onlyRaised_mbxDone d result).2 _ h)

/-! ## The authorised clear (R525 to R527) -/

/-- Does the code of a clear's message agree? -/
def authorised (v : Vault) (nonce : Option (List Byte)) (first last : Nat) (mac : List Byte) : Bool :=
  match v.key, nonce with
  | some k, some n => hmacSha256 k (clearMessage n first last) == mac
  | _, _ => false

/-- A clear that is not authorised. -/
def clearDenied (first last : Nat) (d : Dev) : Dev :=
  ((d.emitFw 0x003 (u64 first ++ u64 last)).bump SEC_CLEAR_DENIED).mbxDone resAUTH_FAIL

/-- The event of a clear. -/
def clearEvent (first last : Nat) (nonce : List Byte) (d : Dev) (r : Recorder) : Ev :=
  { code := 0x002, sev := 7, src := Page.code .evr, cyc := d.cyc,
    payload := u64 first ++ u64 last ++ u32 ((r.logRecs ++ r.bufRecs).filter (clears first last)).length ++ nonce }

/-- A clear, as its message is authorised or not; the nonce is consumed. -/
def clearAs (ok : Bool) (first last : Nat) (nonce : List Byte) (d : Dev) (r : Recorder) : Dev × Recorder :=
  if !ok then (clearDenied first last d, r)
  else if last < first ∨ r.nextSeq ≤ last then (d.mbxDone resBAD_PARAM, r)
  else if r.frozen then (d.mbxDone resBAD_STATE, r)
  else
    let x := acceptRec (clearEvent first last nonce d r) (d, clearRange first last r)
    (x.1.mbxDone resOK, x.2)

/-- The recorder with no nonce. -/
def nonceGone (r : Recorder) : Recorder := { r with nonce := none }

theorem evrClear_eq (v : Vault) (d : Dev) (r : Recorder) : evrClear v (d, r) =
    clearAs (authorised v r.nonce (d.cmdNat 0 8) (d.cmdNat 8 8) (d.cmdBytes 16 32)) (d.cmdNat 0 8) (d.cmdNat 8 8) (r.nonce.getD []) d
      (nonceGone r) := rfl

theorem authorised_none {v : Vault} {nonce : Option (List Byte)} (h : v.key = none ∨ nonce = none) (first last : Nat)
    (mac : List Byte) : authorised v nonce first last mac = false := by
  unfold authorised
  obtain h | h := h
  · rw [h]
  · rw [h]
    cases v.key with
    | none => rfl
    | some _ => rfl

theorem authorised_some {v : Vault} {nonce : Option (List Byte)} {k n : List Byte} (hkey : v.key = some k) (hnonce : nonce = some n)
    {first last : Nat} {mac : List Byte} (hmac : hmacSha256 k (clearMessage n first last) = mac) :
    authorised v nonce first last mac = true := by
  unfold authorised
  rw [hkey, hnonce]
  exact beq_iff_eq.mpr hmac

theorem clearAs_denied (first last : Nat) (nonce : List Byte) (d : Dev) (r : Recorder) :
    clearAs false first last nonce d r = (clearDenied first last d, r) := rfl

theorem clearAs_done {first last : Nat} {d : Dev} {r : Recorder} (nonce : List Byte) (horder : first ≤ last) (hlast : last < r.nextSeq)
    (hfrozen : r.frozen = false) : clearAs true first last nonce d r =
      (let x := acceptRec (clearEvent first last nonce d r) (d, clearRange first last r)
       (x.1.mbxDone resOK, x.2)) := by
  have hrange : ¬ (last < first ∨ r.nextSeq ≤ last) := by omega
  refine (if_neg (by decide)).trans ((if_neg hrange).trans (if_neg ?_))
  rw [hfrozen]
  exact Bool.false_ne_true

theorem clearDenied_rules (first last : Nat) (d : Dev) :
    (clearDenied first last d).f MBX_STAT_RESULT = resAUTH_FAIL ∧
      (clearDenied first last d).f SEC_CLEAR_DENIED = (d.f SEC_CLEAR_DENIED + 1) % 2 ^ 32 ∧
      ∃ x, (clearDenied first last d).evq = d.evq ++ [x] ∧ x.code = 0x003 := by
  obtain ⟨x, hx, hcode, _⟩ := evq_emitFw d 0x003 (u64 first ++ u64 last)
  unfold clearDenied
  generalize he : d.emitFw 0x003 (u64 first ++ u64 last) = e at hx
  have hf : e.f SEC_CLEAR_DENIED = d.f SEC_CLEAR_DENIED := he ▸ f_of_regs rfl SEC_CLEAR_DENIED
  refine ⟨(mbxDone_fields _ (by decide) (by decide)).2.1, ?_, x, ?_, hcode⟩
  · rw [f_mbxDone (by decide), f_bump_same e rfl rfl, hf]
  · rw [evq_mbxDone, evq_bump, hx]

/-! ### What a clear leaves -/

theorem mem_clear (first last : Nat) (p : PageImg) (x : Rec) :
    x ∈ (p.clear first last).recs ↔ x ∈ p.recs ∧ clears first last x = false := by
  unfold PageImg.clear
  rw [List.mem_filter, Bool.not_eq_true']

/-- An image with a record is not dropped. -/
theorem recs_ne_nil {p : PageImg} {x : Rec} (h : x ∈ p.recs) : (p.recs != []) = true := by
  rw [bne_iff_ne]
  exact List.ne_nil_of_mem h

theorem mem_logRecs_clearRange (first last : Nat) (r : Recorder) (x : Rec) :
    x ∈ (clearRange first last r).logRecs ↔ x ∈ r.logRecs ∧ clears first last x = false := by
  unfold Recorder.logRecs clearRange
  simp only [List.mem_flatMap, List.mem_filter, List.mem_map]
  constructor
  · rintro ⟨_, ⟨⟨p, hp, rfl⟩, -⟩, hx⟩
    obtain ⟨hx, hclear⟩ := (mem_clear ..).mp hx
    exact ⟨⟨p, hp, hx⟩, hclear⟩
  · rintro ⟨⟨p, hp, hx⟩, hclear⟩
    have hmem := (mem_clear first last p.2 x).mpr ⟨hx, hclear⟩
    exact ⟨(p.1, p.2.clear first last), ⟨⟨p, hp, rfl⟩, recs_ne_nil hmem⟩, hmem⟩

theorem mem_bufRecs_clearRange (first last : Nat) (r : Recorder) (x : Rec) :
    x ∈ (clearRange first last r).bufRecs ↔ x ∈ r.bufRecs ∧ clears first last x = false := by
  unfold Recorder.bufRecs clearRange
  simp only [List.mem_flatMap, List.mem_filter, List.mem_map]
  constructor
  · rintro ⟨_, ⟨⟨p, hp, rfl⟩, -⟩, hx⟩
    obtain ⟨hx, hclear⟩ := (mem_clear ..).mp hx
    exact ⟨⟨p, hp, hx⟩, hclear⟩
  · rintro ⟨⟨p, hp, hx⟩, hclear⟩
    have hmem := (mem_clear first last p x).mpr ⟨hx, hclear⟩
    exact ⟨p.clear first last, ⟨⟨p, hp, rfl⟩, recs_ne_nil hmem⟩, hmem⟩

/-- Records that a clear leaves. -/
theorem clears_false {first last : Nat} {x : Rec} : clears first last x = false ↔ x.sev = 7 ∨ x.seq < first ∨ last < x.seq := by
  unfold clears
  simp only [Bool.and_eq_false_iff, decide_eq_false_iff_not, bne_eq_false_iff_eq, not_le]
  tauto

/-- The clear's own record. -/
theorem clearRecorded_rules (e : Ev) (hsev : e.sev = 7) {first last : Nat} (d : Dev) (r : Recorder) :
    (acceptRec e (d, clearRange first last r)).2.nonce = r.nonce ∧
      (acceptRec e (d, clearRange first last r)).2.nextSeq = r.nextSeq + 1 ∧
      (∀ x ∈ (acceptRec e (d, clearRange first last r)).2.logRecs ++ (acceptRec e (d, clearRange first last r)).2.bufRecs,
        first ≤ x.seq → x.seq ≤ last → x.sev = 7) ∧
      ∀ x ∈ r.logRecs, x.sev = 7 ∨ x.seq < first ∨ last < x.seq →
        x ∈ (acceptRec e (d, clearRange first last r)).2.logRecs := by
  obtain ⟨d', r', hrec, hr, hmem⟩ := acceptRec_any e d (clearRange first last r)
  have hlog : r'.logRecs = (clearRange first last r).logRecs := by
    rw [hr]
    rfl
  rw [hrec]
  refine ⟨by rw [hr]; rfl, by rw [hr]; rfl, fun x hx hlo hhi => ?_, fun x hx hout => ?_⟩
  · have hleft : x = recordOf e d (clearRange first last r).nextSeq ∨ clears first last x = false := by
      obtain hx | hx := List.mem_append.mp hx
      · exact .inr ((mem_logRecs_clearRange ..).mp (hlog ▸ hx)).2
      · exact (hmem x hx).imp_right fun hx => ((mem_bufRecs_clearRange ..).mp hx).2
    obtain rfl | hclear := hleft
    · exact hsev
    · obtain hout | hout | hout := clears_false.mp hclear
      · exact hout
      · omega
      · omega
  · dsimp only
    rw [hlog]
    exact (mem_logRecs_clearRange ..).mpr ⟨hx, clears_false.mpr hout⟩

/-! ## The operator key (R528, R537) -/

theorem exec_keyProg (p : Port) {s : State} (h : s.admits p) : runs (.keyProg p) s (keyProg s.vault p 1#32 s.dev) := by
  have hopen : gateWrite p (keyProg s.vault p 1#32) s.dev = keyProg s.vault p 1#32 s.dev := gateWrite_open _ p _ h.1 h.2
  have hexec : exec (.keyProg p) s = .next { s with dev := gateWrite p (keyProg s.vault p 1#32) s.dev } := rfl
  exact hexec.trans (by rw [hopen])

/-- The device as the key has been programmed. -/
def keyDropped (d : Dev) : Dev := { d with boot := { d.boot with keyBusy := none, keyWords := [] } }

theorem keyDone_rules (d : Dev) :
    (keyDone d).boot = { d.boot with keyBusy := none, keyWords := [] } ∧ (∃ x, (keyDone d).evq = d.evq ++ [x] ∧ x.code = 0x00A) ∧
      onlyRaised (keyDropped d) (keyDone d) [Page.sec.base + 0x10] := by
  have heq : keyDone d = ((keyDropped d).raise SEC_IRQ_RAW_KEY_DONE).emit 0x00A .sec := rfl
  have hboot : (keyDropped d).boot = { d.boot with keyBusy := none, keyWords := [] } := rfl
  have hevq : (keyDropped d).evq = d.evq := rfl
  rw [heq]
  generalize keyDropped d = x at hboot hevq ⊢
  rw [Dev.emit_def, Dev.raise_def]
  refine ⟨?_, ?_, onlyRaised_trans (onlyRaised_raiseBits x List.mem_cons_self _) (onlyRaised_emitSrc ..)⟩
  · rw [Dev.emitSrc_boot, Dev.raiseBits_boot, hboot]
  · rw [Dev.emitSrc_evq, Dev.raiseBits_evq, hevq]
    exact ⟨_, rfl, rfl⟩

end Sys2Proof.Machine

open Sys2Proof Sys2Proof.Machine

/-- Settles O51: a read within its limit, freezes and thaws, a clear denied or authorised, and the key programmed once. -/
theorem logAndKeyAreServed : Obligations.LogAndKeyAreServed := by
  unfold Obligations.LogAndKeyAreServed
  refine ⟨?read, ?badRead, ?freeze, ?thaw, ?already, ?nonce, ?denied, ?cleared, ?prog, ?again, ?done⟩
  case read =>
    intro s hpost hlo hhi
    exact ⟨_, runs_mbxServeRec hpost (c := .evrRead) (lenOk := (· = 3)) (f := evrRead) rfl rfl
      (evrRead_ok s.evr (by rw [cmdNat_setMbx]; exact hlo) (by rw [cmdNat_setMbx]; exact hhi)),
      (length_takeFitting ..).trans (by rw [cmdNat_setMbx])⟩
  case badRead =>
    intro s hpost h
    exact runs_mbxServeRec hpost (c := .evrRead) (lenOk := (· = 3)) (f := evrRead) rfl rfl
      (evrRead_bad s.evr (by rw [cmdNat_setMbx]; exact h))
  case freeze =>
    intro s hpost hfrozen
    exact ⟨_, runsRec_mbxServe hpost (c := .evrFreeze) (lenOk := (· = 0)) (f := evrFreeze) rfl rfl
      (if_neg (by rw [hfrozen]; decide)), rfl⟩
  case thaw =>
    intro s hpost hfrozen
    exact ⟨_, runsRec_mbxServe hpost (c := .evrThaw) (lenOk := (· = 0)) (f := evrThaw) rfl rfl (if_pos hfrozen), rfl⟩
  case already =>
    intro c k b s hc hpost hfrozen
    simp only [List.mem_cons, Prod.mk.injEq, List.mem_nil_iff, or_false] at hc
    obtain ⟨rfl, rfl, rfl⟩ | ⟨rfl, rfl, rfl⟩ := hc
    · exact runs_mbxServeRec hpost (c := .evrFreeze) (lenOk := (· = 0)) (f := evrFreeze) rfl rfl (if_pos hfrozen)
    · exact runs_mbxServeRec hpost (c := .evrThaw) (lenOk := (· = 0)) (f := evrThaw) rfl rfl (if_neg (by rw [hfrozen]; decide))
  case nonce =>
    intro s hpost
    refine ⟨_, _, runsRec_mbxServe hpost (c := .evrClearNonce) (lenOk := (· = 0)) (f := clearNonce) rfl rfl rfl, ?_, rfl⟩
    rw [List.length_map, List.length_range]
  case denied =>
    intro s hpost h
    have hclear := evrClear_eq s.vault (s.dev.setMbx mbxBUSY) s.evr
    rw [authorised_none h, clearAs_denied] at hclear
    obtain ⟨hresult, hcount, hevq⟩ := clearDenied_rules ((s.dev.setMbx mbxBUSY).cmdNat 0 8) ((s.dev.setMbx mbxBUSY).cmdNat 8 8)
      (s.dev.setMbx mbxBUSY)
    refine ⟨_, runsRec_mbxServe hpost (c := .evrClear) (lenOk := (· = 12)) (f := evrClear s.vault) rfl rfl hclear, hresult, ?_, hevq⟩
    rw [hcount]
    exact congrArg (fun n => (n + 1) % 2 ^ 32) (fi_setMbx s.dev mbxBUSY (F := SEC_CLEAR_DENIED) (by decide))
  case cleared =>
    intro k n first last s hpost hkey hnonce hfirst hlast hmac horder hnext hfrozen
    have hclear := evrClear_eq s.vault (s.dev.setMbx mbxBUSY) s.evr
    rw [cmdNat_setMbx, cmdNat_setMbx, cmdBytes_setMbx, ← hfirst, ← hlast, authorised_some hkey hnonce hmac,
      clearAs_done (r := nonceGone s.evr) _ horder hnext hfrozen] at hclear
    obtain ⟨hgone, hseq, hkept, hrest⟩ := clearRecorded_rules (clearEvent first last (s.evr.nonce.getD []) (s.dev.setMbx mbxBUSY)
      (nonceGone s.evr)) rfl (first := first) (last := last) (s.dev.setMbx mbxBUSY) (nonceGone s.evr)
    exact ⟨_, _, runsRec_mbxServe hpost (c := .evrClear) (lenOk := (· = 12)) (f := evrClear s.vault) rfl rfl hclear,
      (mbxDone_fields _ (by decide) (by decide)).2.1, hgone, hseq, hkept, hrest⟩
  case prog =>
    intro p s hadm hkey hbusy hwords
    exact (exec_keyProg p hadm).trans (by rw [show keyProg s.vault p 1#32 s.dev = _ from if_pos ⟨hkey, hbusy, hwords⟩]; rfl)
  case again =>
    intro p k s hadm hkey
    have hno : ¬ (s.vault.key = none ∧ s.dev.boot.keyBusy = none ∧ s.dev.boot.keyWords ≠ []) := fun h => absurd (hkey.symm.trans h.1) (by simp)
    exact (exec_keyProg p hadm).trans (by rw [show keyProg s.vault p 1#32 s.dev = _ from if_neg hno])
  case done =>
    intro k s hbusy
    obtain ⟨hboot, hevq, hraised⟩ := keyDone_rules s.dev
    have hexec : exec .keyProgDone s = .next { s with dev := keyDone s.dev, vault := { key := some (s.vault.key.getD k) } } := by
      show execKeyProgDone s = _
      unfold execKeyProgDone
      rw [hbusy]
    refine ⟨keyDone s.dev, _, hexec, ?_, hboot, hevq, by rw [hboot]; exact hraised⟩
    cases s.vault.key with
    | none => rfl
    | some _ => rfl
end

section
/-! SUPPORT. Proofs about firmware images, from their update to their confirmation, and the stored boot settings (R532, R534, R544, R547). -/
namespace Sys2Proof.Machine

/-! ## Commands that program MRAM (R501) -/

/-- A posted command that programs MRAM, while no flush and no shutdown holds it back. -/
theorem runs_unlessBusy {c : Instr} {opc len : Nat} {lenOk : Nat → Bool} {s : State} (h : s.posted opc len)
    (hfree : s.dev.presetBusy = false) {f : Dev → Dev} {d : Dev} (hc : exec c s = onDev (mbxServe opc lenOk (unlessBusy f)) s)
    (hlen : lenOk len = true) (hf : f (s.dev.setMbx mbxBUSY) = d) : runs c s d := by
  have hfree' : (s.dev.setMbx mbxBUSY).presetBusy = false := hfree
  have hrun : unlessBusy f (s.dev.setMbx mbxBUSY) = d := (if_neg (by rw [hfree']; decide)).trans hf
  exact hrun ▸ runs_mbxServe h lenOk hc hlen

theorem nvm_mbxDone (d : Dev) (result : Nat) (resp : List Byte) : (d.mbxDone result resp).nvm = d.nvm :=
  mbxDone_keeps Dev.nvm (fun _ _ _ _ _ => Dev.setFi_nvm ..) (fun _ _ _ => Dev.raiseBits_nvm ..) ..

theorem boot_mbxDone (d : Dev) (result : Nat) (resp : List Byte) : (d.mbxDone result resp).boot = d.boot :=
  mbxDone_keeps Dev.boot (fun _ _ _ _ _ => Dev.setFi_boot ..) (fun _ _ _ => Dev.raiseBits_boot ..) ..

theorem nvm_addI (d : Dev) (F : Fld) (i k n : Nat) : (d.addI F i k n).nvm = d.nvm := Dev.setFi_nvm ..

theorem boot_addI (d : Dev) (F : Fld) (i k n : Nat) : (d.addI F i k n).boot = d.boot := Dev.setFi_boot ..

theorem evq_addI (d : Dev) (F : Fld) (i k n : Nat) : (d.addI F i k n).evq = d.evq := Dev.setFi_evq ..

/-- A device answered OK. -/
theorem mbxDone_ok (d : Dev) : (d.mbxDone resOK).f MBX_STAT_RESULT = resOK ∧ (d.mbxDone resOK).f MBX_STAT_STATE = mbxDONE := by
  obtain ⟨hstate, hresult, _⟩ := mbxDone_fields d (result := resOK) (resp := []) (by decide) (by decide)
  exact ⟨hresult, hstate⟩

/-! ## Images -/

theorem img_setImg_same (n : NvmSt) (b : Bool) (m : FwImg) : (n.setImg b m).img b = m := by
  cases b with
  | false => rfl
  | true => rfl

theorem img_setImg_other (n : NvmSt) (b : Bool) (m : FwImg) : (n.setImg b m).img (!b) = n.img (!b) := by
  cases b with
  | false => rfl
  | true => rfl

theorem decide_b2n (b : Bool) : decide (b2n b = 1) = b := by
  cases b with
  | false => rfl
  | true => rfl

theorem b2n_le (b : Bool) : b2n b ≤ 1 := by
  cases b with
  | false => exact Nat.zero_le _
  | true => exact Nat.le_refl _

/-! ## FW_BEGIN (R532) -/

/-- An image being written. -/
def fwBegun (b : Bool) (len : Nat) (d : Dev) : Dev :=
  ((d.onNvm fun n => n.setImg b { n.img b with len, valid := false, shipped := false, sig := [] }).onBoot
    fun s => { s with xfer := some (b, len) }).bump NVM_PAGE_PROG

theorem fwBegin_badParam {d : Dev} (h : 1 < d.cmdNat 0 1 ∨ d.cmdNat 1 4 < 64 ∨ 4194048 < d.cmdNat 1 4) :
    fwBegin d = d.mbxDone resBAD_PARAM := if_pos h

theorem fwBegin_eq {b : Bool} {d : Dev} (hslot : d.cmdNat 0 1 = b2n b) (hlo : 64 ≤ d.cmdNat 1 4) (hhi : d.cmdNat 1 4 ≤ 4194048) :
    fwBegin d = if d.slotKept b then d.mbxDone resBAD_STATE else (fwBegun b (d.cmdNat 1 4) d).mbxDone resOK := by
  have hok : ¬ (1 < d.cmdNat 0 1 ∨ d.cmdNat 1 4 < 64 ∨ 4194048 < d.cmdNat 1 4) := by
    have := b2n_le b
    omega
  have hb : decide (d.cmdNat 0 1 = 1) = b := by rw [hslot, decide_b2n]
  unfold fwBegin
  dsimp only
  rw [if_neg hok, hb]
  rfl

theorem fwBegun_rules (b : Bool) (len : Nat) (d : Dev) : ((fwBegun b len d).mbxDone resOK).boot.xfer = some (b, len) ∧
    (((fwBegun b len d).mbxDone resOK).nvm.img b).valid = false ∧ ((fwBegun b len d).mbxDone resOK).nvm.img (!b) = d.nvm.img (!b) := by
  rw [boot_mbxDone, nvm_mbxDone]
  unfold fwBegun Dev.bump Dev.bumpI
  rw [boot_addI, nvm_addI]
  refine ⟨rfl, ?_, img_setImg_other ..⟩
  exact congrArg FwImg.valid (img_setImg_same d.nvm b _)

/-! ## FW_DATA (R532) -/

/-- Bytes written in order leave what is before them. -/
theorem get_foldl_below (at' : Nat) (bs : List Byte) (k : Nat) (t : SMap Byte) {j : Nat} (hj : j < at' + k) :
    SMap.get zeroByte ((bs.zipIdx k).foldl (fun t p => SMap.set zeroByte t (at' + p.2) p.1) t) j = SMap.get zeroByte t j := by
  induction bs generalizing k t with
  | nil => rfl
  | cons x bs ih =>
    rw [List.zipIdx_cons, List.foldl_cons, ih (k + 1) _ (by omega), SMap.get_set_ne _ _ _ _ _ (by dsimp only; omega)]

theorem get_foldl_written (at' : Nat) (bs : List Byte) (k : Nat) (t : SMap Byte) {i : Nat} (hi : i < bs.length) :
    SMap.get zeroByte ((bs.zipIdx k).foldl (fun t p => SMap.set zeroByte t (at' + p.2) p.1) t) (at' + (k + i)) = bs[i] := by
  induction bs generalizing k t i with
  | nil => exact absurd hi (Nat.not_lt_zero _)
  | cons x bs ih =>
    rw [List.zipIdx_cons, List.foldl_cons]
    cases i with
    | zero => rw [get_foldl_below _ _ _ _ (by omega), Nat.add_zero, SMap.get_set_same, List.getElem_cons_zero]
    | succ i =>
      have hshift : k + (i + 1) = k + 1 + i := by omega
      rw [hshift, ih (k + 1) _ (Nat.lt_of_succ_lt_succ hi), List.getElem_cons_succ]

theorem byte_write (m : FwImg) (at' : Nat) (bs : List Byte) {i : Nat} (hi : i < bs.length) : (m.write at' bs).byte (at' + i) = bs[i] := by
  have hwritten := get_foldl_written at' bs 0 m.data hi
  rwa [Nat.zero_add] at hwritten

theorem getElem_cmdBytes (d : Dev) (start n : Nat) {i : Nat} (h : i < (d.cmdBytes start n).length) :
    (d.cmdBytes start n)[i] = d.cmdByte (start + i) := by simp only [Dev.cmdBytes, List.getElem_map, List.getElem_range]

theorem fwData_none {d : Dev} (h : d.boot.xfer = none) : fwData d = d.mbxDone resBAD_STATE := by
  unfold fwData
  rw [h]

/-- An image that takes bytes. -/
def fwTaken (b : Bool) (at' : Nat) (bs : List Byte) (d : Dev) : Dev :=
  (d.onNvm fun t => t.setImg b ((t.img b).write at' bs)).add NVM_PAGE_PROG (pagesTouched at' bs.length)

theorem fwData_some {b : Bool} {len n : Nat} {d : Dev} (h : d.boot.xfer = some (b, len)) (hlen : d.f MBX_CMD_LEN_W = n)
    (hword : d.cmdNat 0 4 % 4 = 0) (hend : d.cmdNat 0 4 + 4 * (n - 1) ≤ len) :
    fwData d = (fwTaken b (d.cmdNat 0 4) (d.cmdBytes 4 (4 * (n - 1))) d).mbxDone resOK := by
  have hok : ¬ (d.cmdNat 0 4 % 4 ≠ 0 ∨ len < d.cmdNat 0 4 + 4 * (n - 1)) := by omega
  have hbytes : (d.cmdBytes 4 (4 * (n - 1))).length = 4 * (n - 1) := by rw [Dev.cmdBytes, List.length_map, List.length_range]
  unfold fwData fwTaken
  rw [h]
  dsimp only
  rw [hlen, if_neg hok, hbytes]

theorem fwTaken_rules (b : Bool) (at' : Nat) (bs : List Byte) (d : Dev) :
    (∀ i (hi : i < bs.length), (((fwTaken b at' bs d).mbxDone resOK).nvm.img b).byte (at' + i) = bs[i]) ∧
      ((fwTaken b at' bs d).mbxDone resOK).nvm.img (!b) = d.nvm.img (!b) := by
  rw [nvm_mbxDone]
  unfold fwTaken Dev.add
  rw [nvm_addI, Dev.onNvm_nvm, img_setImg_same]
  exact ⟨fun i hi => byte_write _ _ _ hi, img_setImg_other ..⟩

/-! ## FW_END (R532) -/

/-- The transfer is over. -/
def xferGone (d : Dev) : Dev := d.onBoot fun s => { s with xfer := none }

/-- An image that verified. -/
def fwKept (b : Bool) (m : FwImg) (d : Dev) : Dev :=
  (((xferGone d).onNvm fun n => n.setImg b { m with valid := true }).bump NVM_PAGE_PROG).emitFw 0x012

theorem fwEnd_eq {b : Bool} {len : Nat} {d : Dev} (h : d.boot.xfer = some (b, len)) {m : FwImg}
    (hm : m = { d.nvm.img b with sig := d.cmdBytes 0 64 }) :
    fwEnd d = if m.verifies ∧ d.nvm.svnMin ≤ m.svn then (fwKept b m d).mbxDone resOK
      else ((xferGone d).bump SEC_SIG_FAIL).mbxDone resAUTH_FAIL := by
  subst hm
  unfold fwEnd
  rw [h]
  rfl

theorem fwKept_rules (b : Bool) (m : FwImg) (d : Dev) : ((fwKept b m d).mbxDone resOK).boot.xfer = none ∧
    ((fwKept b m d).mbxDone resOK).nvm.img b = { m with valid := true } ∧
    ∃ x, ((fwKept b m d).mbxDone resOK).evq = d.evq ++ [x] ∧ x.code = 0x012 := by
  rw [boot_mbxDone, nvm_mbxDone, evq_mbxDone]
  unfold fwKept
  obtain ⟨x, hx, hcode, _⟩ := evq_emitFw (((xferGone d).onNvm fun n => n.setImg b { m with valid := true }).bump NVM_PAGE_PROG) 0x012 []
  refine ⟨?_, ?_, x, hx.trans ?_, hcode⟩
  · rw [Dev.emitFw_def, Dev.emitSrc_boot]
    exact congrArg BootSt.xfer (boot_addI ..)
  · rw [Dev.emitFw_def, Dev.emitSrc_nvm]
    exact (congrArg (NvmSt.img · b) (nvm_addI ..)).trans (img_setImg_same ..)
  · rw [evq_bump]
    rfl

theorem fwRefused_rules (d : Dev) : (((xferGone d).bump SEC_SIG_FAIL).mbxDone resAUTH_FAIL).boot.xfer = none ∧
    (((xferGone d).bump SEC_SIG_FAIL).mbxDone resAUTH_FAIL).nvm = d.nvm ∧
    (((xferGone d).bump SEC_SIG_FAIL).mbxDone resAUTH_FAIL).f MBX_STAT_RESULT = resAUTH_FAIL ∧
    (((xferGone d).bump SEC_SIG_FAIL).mbxDone resAUTH_FAIL).f SEC_SIG_FAIL = (d.f SEC_SIG_FAIL + 1) % 2 ^ 32 := by
  refine ⟨?_, ?_, (mbxDone_fields _ (by decide) (by decide)).2.1, ?_⟩
  · rw [boot_mbxDone]
    exact congrArg BootSt.xfer (boot_addI ..)
  · rw [nvm_mbxDone]
    exact nvm_addI ..
  · have hgone : (xferGone d).f SEC_SIG_FAIL = d.f SEC_SIG_FAIL := f_of_regs (Dev.onBoot_regs ..) SEC_SIG_FAIL
    rw [f_mbxDone (by decide), f_bump_same _ rfl rfl, hgone]

/-! ## Boot control (R530, R534) -/

/-- Boot control as MRAM stores it touches nothing but its copies. -/
theorem bootControl_rules (d : Dev) : (∃ cs g, (bootControl d).nvm = { d.nvm with copies := cs, gen := g }) ∧
    (bootControl d).boot = d.boot ∧ (bootControl d).evq = d.evq := by
  unfold bootControl Dev.add
  rw [Dev.onNvm_nvm, Dev.onNvm_boot, Dev.onNvm_evq, nvm_addI, boot_addI, evq_addI]
  exact ⟨⟨_, _, rfl⟩, rfl, rfl⟩

/-! ## The restart of firmware (R548) -/

/-- Firmware lets go of its command and of its pin engine. -/
theorem focusFree_mbxAbort_keeps (d : Dev) : (focusFree d.mbxAbort).nvm = d.nvm ∧ (focusFree d.mbxAbort).boot = d.boot := by
  have habort : d.mbxAbort.nvm = d.nvm ∧ d.mbxAbort.boot = d.boot := by
    unfold Dev.mbxAbort Dev.setMbx
    split
    · exact ⟨(Dev.raiseBits_nvm ..).trans (Dev.setFi_nvm ..), (Dev.raiseBits_boot ..).trans (Dev.setFi_boot ..)⟩
    · exact ⟨rfl, rfl⟩
  have hfree : ∀ e : Dev, (focusFree e).nvm = e.nvm ∧ (focusFree e).boot = e.boot := by
    intro e
    unfold focusFree
    split
    · exact ⟨rfl, rfl⟩
    · exact ⟨rfl, rfl⟩
  exact ⟨(hfree _).1.trans habort.1, (hfree _).2.trans habort.2⟩

theorem fwRestart_rules {cause : Nat} (hcause : cause < 16) (d : Dev) :
    (fwRestart cause d).nvm = d.nvm ∧
      (fwRestart cause d).boot = { d.boot with run := .rom, scanned := false, verified := false, restart := some cause } ∧
      (fwRestart cause d).f SYS_RST_CAUSE_FW = cause := by
  obtain ⟨hnvm, hboot⟩ := focusFree_mbxAbort_keeps d
  have hcount : apart SYS_FW_RESTARTS_COUNT SYS_RST_CAUSE_FW := by decide
  unfold fwRestart
  dsimp only
  generalize focusFree d.mbxAbort = e at hnvm hboot
  refine ⟨?_, ?_, ?_⟩
  · rw [Dev.onBoot_nvm, Dev.bump_def, Dev.setFi_nvm, Dev.setF_def, Dev.setFi_nvm, hnvm]
  · rw [Dev.onBoot_boot, Dev.bump_def, Dev.setFi_boot, Dev.setF_def, Dev.setFi_boot, hboot]
  · rw [f_of_regs (Dev.onBoot_regs ..), Dev.bump_def, ← Dev.setF_def, f_setF_apart hcount,
      f_setF_same _ (by decide) (by decide) hcause]

theorem fwActivate_badParam {d : Dev} (h : 1 < d.cmdNat 0 1) : fwActivate d = d.mbxDone resBAD_PARAM := if_pos (.inl h)

/-- A slot that boots next. -/
def fwChosen (b : Bool) (d : Dev) : Dev :=
  (bootControl (d.onNvm fun n => { n with trialPending := true, trialSlot := b })).onBoot fun s => { s with activate := some b }

theorem fwActivate_eq {b : Bool} {d : Dev} (hslot : d.cmdNat 0 1 = b2n b) (hvalid : (d.nvm.img b).valid = true)
    (hrun : d.boot.run = .running) : fwActivate d = fwRestart 3 (fwChosen b d) := by
  have hb : decide (d.cmdNat 0 1 = 1) = b := by rw [hslot, decide_b2n]
  have hok : ¬ (1 < d.cmdNat 0 1 ∨ (d.nvm.img b).valid = false) := by
    have := b2n_le b
    rw [hvalid]
    simp only [Bool.true_eq_false, or_false]
    omega
  unfold fwActivate
  dsimp only
  rw [hb, if_neg hok, hrun]
  rfl

theorem fwChosen_rules (b : Bool) (d : Dev) : (fwChosen b d).nvm.trialPending = true ∧ (fwChosen b d).nvm.trialSlot = b ∧
    (fwChosen b d).boot = { d.boot with activate := some b } := by
  obtain ⟨⟨cs, g, hnvm⟩, hboot, _⟩ := bootControl_rules (d.onNvm fun n => { n with trialPending := true, trialSlot := b })
  unfold fwChosen
  rw [Dev.onBoot_nvm, Dev.onBoot_boot, hnvm, hboot]
  exact ⟨rfl, rfl, rfl⟩

/-! ## FW_CONFIRM (R534) -/

/-- The image on trial is confirmed. -/
def fwConfirmed (d : Dev) : Dev :=
  let svn := max d.nvm.svnMin (d.nvm.img d.boot.image).svn
  ((bootControl (d.onNvm fun n => { n with conf := d.boot.image, svnMin := svn, onTrial := false })).onBoot
    fun s => { s with trial := false }).emitFw 0x015

theorem fwConfirm_trial {d : Dev} (hrun : d.boot.run = .running) (htrial : d.boot.trial = true) : fwConfirm d = fwConfirmed d :=
  if_pos ⟨hrun, htrial⟩

theorem fwConfirmed_rules (d : Dev) : (fwConfirmed d).nvm.conf = d.boot.image ∧ (fwConfirmed d).nvm.onTrial = false ∧
    (fwConfirmed d).boot.trial = false ∧ (fwConfirmed d).nvm.svnMin = max d.nvm.svnMin (d.nvm.img d.boot.image).svn ∧
    ∃ x, (fwConfirmed d).evq = d.evq ++ [x] ∧ x.code = 0x015 := by
  unfold fwConfirmed
  dsimp only
  generalize max d.nvm.svnMin (d.nvm.img d.boot.image).svn = svn
  obtain ⟨⟨cs, g, hnvm⟩, hboot, hevq⟩ := bootControl_rules (d.onNvm fun n => { n with conf := d.boot.image, svnMin := svn, onTrial := false })
  generalize bootControl _ = e at hnvm hboot hevq
  obtain ⟨x, hx, hcode, _⟩ := evq_emitFw (e.onBoot fun s => { s with trial := false }) 0x015 []
  have hn : ((e.onBoot fun s => { s with trial := false }).emitFw 0x015).nvm = e.nvm := Dev.emitSrc_nvm ..
  have hb : ((e.onBoot fun s => { s with trial := false }).emitFw 0x015).boot.trial = false := congrArg BootSt.trial (Dev.emitSrc_boot ..)
  rw [hn, hnvm]
  exact ⟨rfl, rfl, hb, rfl, x, hx.trans (congrArg (· ++ [x]) hevq), hcode⟩

/-! ## BOOT_CFG (R544, R553) -/

/-- The settings a write of BOOT_CFG gives. -/
def bootCfgFields (v : Word) (d : Dev) : Dev :=
  ((d.setF SYS_BOOT_CFG_AUTOSTART (bitsOf v 8 8)).setF SYS_BOOT_CFG_PRESET_EN (bitsOf v 7 7)).setF SYS_BOOT_CFG_SLOT (bitsOf v 4 0)

theorem bootCfgWrite_save {v : Word} {d : Dev} (hrun : d.boot.run = .running) (hsave : bitsOf v 16 16 = 1) :
    bootCfgWrite v d = (bootCfgFields v d).onBoot fun s => { s with saving := true } := (if_pos hrun).trans (if_pos hsave)

theorem bootCfgFields_rules (v : Word) (d : Dev) :
    (bootCfgFields v d).f SYS_BOOT_CFG_AUTOSTART = bitsOf v 8 8 ∧ (bootCfgFields v d).f SYS_BOOT_CFG_PRESET_EN = bitsOf v 7 7 ∧
      (bootCfgFields v d).f SYS_BOOT_CFG_SLOT = bitsOf v 4 0 := by
  have hpa : apart SYS_BOOT_CFG_PRESET_EN SYS_BOOT_CFG_AUTOSTART := by decide
  have hsa : apart SYS_BOOT_CFG_SLOT SYS_BOOT_CFG_AUTOSTART := by decide
  have hsp : apart SYS_BOOT_CFG_SLOT SYS_BOOT_CFG_PRESET_EN := by decide
  unfold bootCfgFields
  refine ⟨?_, ?_, f_setF_same _ (by decide) (by decide) (bitsOf_lt v 4 0)⟩
  · rw [f_setF_apart hsa, f_setF_apart hpa, f_setF_same _ (by decide) (by decide) (bitsOf_lt v 8 8)]
  · rw [f_setF_apart hsp, f_setF_same _ (by decide) (by decide) (bitsOf_lt v 7 7)]

theorem onlyWords_bootCfgFields (v : Word) (d : Dev) : onlyWords d (bootCfgFields v d) [0x210] :=
  onlyWords_trans (onlyWords_trans (onlyWords_setFi d (F := SYS_BOOT_CFG_AUTOSTART) (by decide) _)
    (onlyWords_setFi _ (F := SYS_BOOT_CFG_PRESET_EN) (by decide) _)) (onlyWords_setFi _ (F := SYS_BOOT_CFG_SLOT) (by decide) _)

theorem takeRegs_bootCfgFields (v : Word) (d : Dev) : bootCfgFields v d = takeRegs (bootCfgFields v d) d :=
  frame_trans takeRegs (fun _ _ _ => rfl) (frame_trans takeRegs (fun _ _ _ => rfl) (takeRegs_setFi d SYS_BOOT_CFG_AUTOSTART 0 0 _)
    (takeRegs_setFi _ SYS_BOOT_CFG_PRESET_EN 0 0 _)) (takeRegs_setFi _ SYS_BOOT_CFG_SLOT 0 0 _)

/-- BOOT_CFG stored. -/
def settingsStored (d : Dev) : Dev :=
  bootControl (d.onNvm fun n => { n with bootSlot := d.f SYS_BOOT_CFG_SLOT, bootPresetEn := d.on SYS_BOOT_CFG_PRESET_EN,
                                         bootAutostart := d.on SYS_BOOT_CFG_AUTOSTART })

theorem bootCfgSaved_saving {d : Dev} (hsaving : d.boot.saving = true) (hrun : d.boot.run = .running) (hfree : d.presetBusy = false) :
    bootCfgSaved d = (settingsStored d).onBoot fun s => { s with saving := false } := if_pos ⟨hsaving, hrun, hfree⟩

theorem settingsStored_rules (d : Dev) : (settingsStored d).nvm.bootSlot = d.f SYS_BOOT_CFG_SLOT ∧
    (settingsStored d).nvm.bootPresetEn = d.on SYS_BOOT_CFG_PRESET_EN ∧
    (settingsStored d).nvm.bootAutostart = d.on SYS_BOOT_CFG_AUTOSTART := by
  unfold settingsStored
  generalize d.f SYS_BOOT_CFG_SLOT = slot
  generalize d.on SYS_BOOT_CFG_PRESET_EN = preset
  generalize d.on SYS_BOOT_CFG_AUTOSTART = auto
  obtain ⟨⟨cs, g, hnvm⟩, -, -⟩ := bootControl_rules (d.onNvm fun n => { n with bootSlot := slot, bootPresetEn := preset, bootAutostart := auto })
  rw [hnvm]
  exact ⟨rfl, rfl, rfl⟩

end Sys2Proof.Machine

open Sys2Proof Sys2Proof.Machine

/-- Settles O52: images from FW_BEGIN to FW_CONFIRM, and the boot settings stored. -/
theorem firmwareIsUpdated : Obligations.FirmwareIsUpdated := by
  unfold Obligations.FirmwareIsUpdated
  refine ⟨?badSlot, ?kept, ?begun, ?data, ?noData, ?ended, ?activate, ?badActivate, ?confirm, ?save, ?saved⟩
  case badSlot =>
    intro s hpost hfree h
    exact runs_unlessBusy hpost hfree (c := .fwBegin) (lenOk := (· = 2)) (f := fwBegin) rfl rfl
      (fwBegin_badParam (by rw [cmdNat_setMbx, cmdNat_setMbx]; exact h))
  case kept =>
    intro b s hpost hfree hslot hlo hhi hkept
    have hkept' : (s.dev.setMbx mbxBUSY).slotKept b = true := hkept
    exact runs_unlessBusy hpost hfree (c := .fwBegin) (lenOk := (· = 2)) (f := fwBegin) rfl rfl
      ((fwBegin_eq (b := b) (by rw [cmdNat_setMbx, hslot]) (by rw [cmdNat_setMbx]; exact hlo) (by rw [cmdNat_setMbx]; exact hhi)).trans
        (if_pos hkept'))
  case begun =>
    intro b s hpost hfree hslot hlo hhi hkept
    have hkept' : (s.dev.setMbx mbxBUSY).slotKept b = false := hkept
    obtain ⟨hxfer, hvalid, hother⟩ := fwBegun_rules b (s.dev.cmdNat 1 4) (s.dev.setMbx mbxBUSY)
    refine ⟨_, runs_unlessBusy hpost hfree (c := .fwBegin) (lenOk := (· = 2)) (f := fwBegin) rfl rfl
      ((fwBegin_eq (b := b) (by rw [cmdNat_setMbx, hslot]) (by rw [cmdNat_setMbx]; exact hlo) (by rw [cmdNat_setMbx]; exact hhi)).trans
        ((if_neg (by rw [hkept']; decide)).trans (by rw [cmdNat_setMbx]))), hxfer, hvalid, hother, mbxDone_ok _⟩
  case data =>
    intro n len b s hn hn' hpost hfree hxfer hword hend
    have hlen : (s.dev.setMbx mbxBUSY).f MBX_CMD_LEN_W = n := (fi_setMbx s.dev mbxBUSY (F := MBX_CMD_LEN_W) (by decide)).trans hpost.2.2.2
    obtain ⟨hbytes, hother⟩ := fwTaken_rules b (s.dev.cmdNat 0 4) (s.dev.cmdBytes 4 (4 * (n - 1))) (s.dev.setMbx mbxBUSY)
    have hdata := fwData_some (d := s.dev.setMbx mbxBUSY) (b := b) (len := len) hxfer hlen (by rw [cmdNat_setMbx]; exact hword)
      (by rw [cmdNat_setMbx]; exact hend)
    rw [cmdNat_setMbx, cmdBytes_setMbx] at hdata
    refine ⟨_, runs_unlessBusy hpost hfree (c := .fwData) (lenOk := fun n => 1 ≤ n && n ≤ 64) (f := fwData) rfl
      (by simp [hn, hn']) hdata, fun i hi => ?_, hother, mbxDone_ok _⟩
    have hi' : i < (s.dev.cmdBytes 4 (4 * (n - 1))).length := by rwa [Dev.cmdBytes, List.length_map, List.length_range]
    exact (hbytes i hi').trans (getElem_cmdBytes ..)
  case noData =>
    intro n s hn hn' hpost hfree hxfer
    exact runs_unlessBusy hpost hfree (c := .fwData) (lenOk := fun n => 1 ≤ n && n ≤ 64) (f := fwData) rfl (by simp [hn, hn'])
      (fwData_none hxfer)
  case ended =>
    intro b len m s hpost hfree hxfer hm
    have hend := fwEnd_eq (d := s.dev.setMbx mbxBUSY) (b := b) (len := len) hxfer (m := m) (by rw [hm, cmdBytes_setMbx]; rfl)
    have hcount : (s.dev.setMbx mbxBUSY).f SEC_SIG_FAIL = s.dev.f SEC_SIG_FAIL := fi_setMbx s.dev mbxBUSY (F := SEC_SIG_FAIL) (by decide)
    by_cases hok : m.verifies = true ∧ s.dev.nvm.svnMin ≤ m.svn
    · obtain ⟨hgone, himg, hevq⟩ := fwKept_rules b m (s.dev.setMbx mbxBUSY)
      refine ⟨_, runs_unlessBusy hpost hfree (c := .fwEnd) (lenOk := (· = 16)) (f := fwEnd) rfl rfl (hend.trans (if_pos hok)), hgone,
        fun _ => ⟨himg, hevq, (mbxDone_ok _).1⟩, fun hbad => ?_⟩
      obtain hbad | hbad := hbad
      · exact absurd (hok.1.symm.trans hbad) (by decide)
      · exact absurd hok.2 (Nat.not_le.mpr hbad)
    · obtain ⟨hgone, hnvm, hresult, hfail⟩ := fwRefused_rules (s.dev.setMbx mbxBUSY)
      exact ⟨_, runs_unlessBusy hpost hfree (c := .fwEnd) (lenOk := (· = 16)) (f := fwEnd) rfl rfl (hend.trans (if_neg hok)), hgone,
        fun h => absurd h hok, fun _ => ⟨hnvm, hresult, by rw [hfail, hcount]⟩⟩
  case activate =>
    intro b s hpost hfree hslot hvalid
    have hact := fwActivate_eq (d := s.dev.setMbx mbxBUSY) (b := b) (by rw [cmdNat_setMbx, hslot]) hvalid hpost.1
    obtain ⟨hpending, htrial, hchosen⟩ := fwChosen_rules b (s.dev.setMbx mbxBUSY)
    obtain ⟨hnvm, hboot, hcause⟩ := fwRestart_rules (cause := 3) (by decide) (fwChosen b (s.dev.setMbx mbxBUSY))
    refine ⟨_, runs_unlessBusy hpost hfree (c := .fwActivate) (lenOk := (· = 1)) (f := fwActivate) rfl rfl hact, ?_⟩
    rw [hnvm, hboot, hchosen]
    exact ⟨hpending, htrial, rfl, rfl, rfl, hcause⟩
  case badActivate =>
    intro s hpost hfree h
    exact runs_unlessBusy hpost hfree (c := .fwActivate) (lenOk := (· = 1)) (f := fwActivate) rfl rfl
      (fwActivate_badParam (by rw [cmdNat_setMbx]; exact h))
  case confirm =>
    intro p s hadm hrun htrial
    exact ⟨_, fwConfirm_trial hrun htrial ▸ runs_gateWrite (c := .fwConfirm p) rfl hadm, fwConfirmed_rules s.dev⟩
  case save =>
    intro p v s hadm hrun
    have hkept : ∀ hi lo : Nat, lo ≤ hi → hi < 16 → bitsOf (setBits v 16 16 1) hi lo = bitsOf v hi lo := fun hi lo hle hlt =>
      bitsOf_setBits_ne v 16 16 hi lo 1 (by decide) (by decide) (.inl hlt) hle
    have hsave : bitsOf (setBits v 16 16 1) 16 16 = 1 := bitsOf_setBits_same v 16 16 1 (by decide) (by decide)
    have hwrite := bootCfgWrite_save hrun hsave
    obtain ⟨hauto, hpreset, hslot⟩ := bootCfgFields_rules (setBits v 16 16 1) s.dev
    have honly := onlyWords_bootCfgFields (setBits v 16 16 1) s.dev
    have hframe := takeRegs_bootCfgFields (setBits v 16 16 1) s.dev
    rw [hkept _ _ (by decide) (by decide)] at hauto hpreset hslot
    have hrun' := runs_gateWrite (c := .bootCfgSave p v) (f := bootCfgWrite (setBits v 16 16 1)) rfl hadm
    rw [hwrite] at hrun'
    generalize bootCfgFields (setBits v 16 16 1) s.dev = e at *
    exact ⟨_, hrun', hauto, hpreset, hslot, rfl, honly, by rw [hframe]; rfl⟩
  case saved =>
    intro s hsaving hrun hfree
    obtain ⟨hslot, hpreset, hauto⟩ := settingsStored_rules s.dev
    exact ⟨_, runs_onDev (c := .bootCfgSaveDone) (f := bootCfgSaved) rfl (bootCfgSaved_saving hsaving hrun hfree), hslot, hpreset, hauto, rfl⟩
end

section
/-! SUPPORT. Proofs about the PMBus master, the rate governor and the rate monitors (R47 to R53, R489 to R493). -/
namespace Sys2Proof.Machine

/-- `d` with the registers and the regulator of `x`. -/
abbrev takeRegsPwr (x d : Dev) : Dev := { d with regs := x.regs, pwr := x.pwr }

theorem takeRegsPwr_trans {d e g : Dev} (h : e = takeRegsPwr e d) (h' : g = takeRegsPwr g e) : g = takeRegsPwr g d :=
  frame_trans takeRegsPwr (fun _ _ _ => rfl) h h'

theorem takeRegsPwr_setF (d : Dev) (F : Fld) (v : Nat) : d.setF F v = takeRegsPwr (d.setF F v) d := rfl

theorem takeRegsPwr_onPwr (d : Dev) (f : PwrSt → PwrSt) : d.onPwr f = takeRegsPwr (d.onPwr f) d := rfl

/-- An interrupt source of one bit that is raised reads 1. -/
theorem f_raise_same {F : Fld} (h : F.addr 0 0 = (blkPage F.blk 0).base + 0x10) (hbit : F.hi = F.lo) (h32 : F.lo < 32) (d : Dev) :
    (d.raise F).f F = 1 := by
  have hset : (BitVec.ofNat 32 (2 ^ F.lo)).toNat = 2 ^ F.lo := by
    rw [BitVec.toNat_ofNat, Nat.mod_eq_of_lt (Nat.pow_lt_pow_right (by decide) h32)]
  rw [Dev.raise_def, Dev.f_def, Dev.fi, Dev.word_raiseBits, h, if_pos rfl, hbit]
  apply Nat.eq_of_testBit_eq
  intro i
  rw [bitsOf_testBit, BitVec.toNat_or, hset, Nat.testBit_or, Nat.sub_self, Nat.zero_add]
  cases i with
  | zero => simp
  | succ i => simp [Nat.testBit_succ]

/-! ## Transactions (R489 to R491) -/

/-- The transaction under way has succeeded. -/
def pmbTook (t : PmbTx) (rest : List PmbTx) (data : Nat) (d : Dev) : Dev :=
  (d.onPwr fun w => { w with pmbQ := rest, pmbStuck := false, bus := pmbBytes d t data }).setF PWR_PMB_STAT_OK 1

/-- The transaction under way has failed. -/
def pmbFailed (d : Dev) : Dev := (d.bump PWR_PMB_ERR).setF PWR_PMB_STAT_OK 0

section
variable {d : Dev} {t : PmbTx} {rest : List PmbTx} (h : d.pwr.pmbQ = t :: rest)
include h

theorem pmbEnd_ok (data : Nat) : pmbEnd true data d = pmbOk t (t.word data) (pmbTook t rest (t.word data) d) := by
  unfold pmbEnd
  rw [h]
  exact if_pos rfl

theorem pmbEnd_retried (hfails : t.fails < 3) (data : Nat) :
    pmbEnd false data d = (pmbFailed d).onPwr fun w => { w with pmbQ := { t with fails := t.fails + 1 } :: rest } := by
  unfold pmbEnd
  rw [h]
  dsimp only
  rw [if_neg Bool.false_ne_true, if_pos hfails]
  unfold pmbFailed
  with_reducible rfl

theorem pmbEnd_givenUp (hfails : 3 ≤ t.fails) (data : Nat) : ∃ b, pmbEnd false data d =
    (((pmbFailed d).onPwr fun w => { w with pmbQ := rest, pmbStuck := true, fixedByFault := w.fixedByFault || b }).raise PWR_IRQ_RAW_PMB_ERR).emit
      0x033 .pwr := by
  refine ⟨(pmbFailed d).aon.level != 2 && [0x20, 0x01, 0x27, 0x24, 0x21].contains t.code, ?_⟩
  unfold pmbEnd
  rw [h]
  dsimp only
  rw [if_neg Bool.false_ne_true, if_neg (Nat.not_lt.mpr hfails)]
  unfold pmbFailed
  with_reducible rfl

theorem faultAfter_eq (ok : Bool) : d.faultAfter ok =
    (decide (t.code = 0x03) && (ok || decide (3 ≤ t.fails)) && vregFault (t.value % 65536) (t.value / 65536)) := by
  unfold Dev.faultAfter
  rw [h]

theorem faultAfter_other (hcode : t.code ≠ 0x03) (ok : Bool) : d.faultAfter ok = false := by
  rw [faultAfter_eq h, decide_eq_false hcode, Bool.false_and, Bool.false_and]

theorem faultAfter_early (hfails : t.fails < 3) : d.faultAfter false = false := by
  rw [faultAfter_eq h, decide_eq_false (Nat.not_le.mpr hfails), Bool.or_false, Bool.and_false, Bool.false_and]

end

theorem pmbNext_rules (code value : Nat) (d : Dev) : (pmbNext code value d).pwr.pmbQ = { code, value } :: d.pwr.pmbQ ∧
    (pmbNext code value d).evq = d.evq ∧ (pmbNext code value d).regs = d.regs := ⟨rfl, rfl, rfl⟩

/-- A transaction that is no clearing of an alert that means a rail fault. -/
theorem runs_pmbEnd {ok : Bool} {data : BitVec 16} {s : State} {e : Dev} (hon : s.dev.pmbOn = true) (hfault : s.dev.faultAfter ok = false)
    (he : pmbEnd ok data.toNat s.dev = e) : runs (.pmbusTransactionDone ok data) s e := by
  have hdone : pmbDone ok data.toNat (s.dev, s.evr) = (pmbEnd ok data.toNat s.dev, s.evr) :=
    (if_neg (by rw [hon]; decide)).trans (if_neg (by rw [hfault]; decide))
  rw [he] at hdone
  exact (show exec (.pmbusTransactionDone ok data) s = onRec (pmbDone ok data.toNat) s from rfl).trans (onRec_eq hdone)

/-! ### Voltages (R489) -/

/-- VCORE is commanded. -/
def voutSet (t : PmbTx) (d : Dev) : Dev :=
  ((d.onPwr fun w => { w with vSet := t.value, settled := false }).setF PWR_VCORE_STAT_V_SET t.value).bump PWR_VOUT_WRITES

theorem pmbOk_vout {t : PmbTx} (hcode : t.code = 0x21) {d : Dev} (hlevel : d.aon.level = 2) (data : Nat) :
    pmbOk t data d = voutSet t d := by
  unfold pmbOk
  rw [hcode]
  exact if_pos hlevel

/-- The words that a commanded voltage writes. -/
def voutWords : List Nat := [PWR_VOUT_WRITES.addr 0 0, PWR_PMB_STAT_OK.addr 0 0, PWR_VCORE_STAT_V_SET.addr 0 0]

theorem voutSet_rules (t : PmbTx) (rest : List PmbTx) (data : Nat) (d : Dev) :
    (voutSet t (pmbTook t rest data d)).pwr =
        { d.pwr with pmbQ := rest, pmbStuck := false, vSet := t.value, settled := false, bus := pmbBytes d t data } ∧
      (voutSet t (pmbTook t rest data d)).f PWR_VOUT_WRITES = (d.f PWR_VOUT_WRITES + 1) % 2 ^ 32 ∧
      (voutSet t (pmbTook t rest data d)).f PWR_PMB_STAT_OK = 1 ∧ onlyWords d (voutSet t (pmbTook t rest data d)) voutWords ∧
      voutSet t (pmbTook t rest data d) = takeRegsPwr (voutSet t (pmbTook t rest data d)) d := by
  have hvset : apart PWR_VCORE_STAT_V_SET PWR_VOUT_WRITES := by decide
  have hvok : apart PWR_VCORE_STAT_V_SET PWR_PMB_STAT_OK := by decide
  have hok : apart PWR_PMB_STAT_OK PWR_VOUT_WRITES := by decide
  have hwrites : apart PWR_VOUT_WRITES PWR_PMB_STAT_OK := by decide
  unfold voutSet pmbTook
  refine ⟨?_, ?_, ?_, ?_, ?_⟩
  · rw [Dev.bump_def, Dev.setFi_pwr, Dev.setF_def, Dev.setFi_pwr]
    rfl
  · rw [f_bump_same _ rfl rfl, f_setF_apart hvset, f_of_regs (Dev.onPwr_regs ..), f_setF_apart hok, f_of_regs (Dev.onPwr_regs ..)]
  · rw [Dev.bump_def, ← Dev.setF_def, f_setF_apart hwrites, f_setF_apart hvok, f_of_regs (Dev.onPwr_regs ..),
      f_setF_same _ (by decide) (by decide) (by decide)]
  · exact onlyWords_trans (onlyWords_trans (onlyWords_trans (onlyWords_of_regs (Dev.onPwr_regs ..) _)
      (onlyWords_setFi _ (F := PWR_PMB_STAT_OK) (by decide) _)) (onlyWords_trans (onlyWords_of_regs (Dev.onPwr_regs ..) _)
      (onlyWords_setFi _ (F := PWR_VCORE_STAT_V_SET) (by decide) _))) (onlyWords_setFi _ (F := PWR_VOUT_WRITES) (by decide) _)
  · exact takeRegsPwr_trans (takeRegsPwr_trans (takeRegsPwr_trans (takeRegsPwr_onPwr d _) (takeRegsPwr_setF ..))
      (takeRegsPwr_trans (takeRegsPwr_onPwr ..) (takeRegsPwr_setF ..))) (takeRegsPwr_setF ..)

/-! ### Failures (R491) -/

/-- The words that a failed transaction writes. -/
def failWords : List Nat := [PWR_PMB_ERR.addr 0 0, PWR_PMB_STAT_OK.addr 0 0]

theorem pmbFailed_rules (d : Dev) : (pmbFailed d).pwr = d.pwr ∧ (pmbFailed d).f PWR_PMB_ERR = (d.f PWR_PMB_ERR + 1) % 2 ^ 32 ∧
    (pmbFailed d).f PWR_PMB_STAT_OK = 0 ∧ onlyWords d (pmbFailed d) failWords ∧ pmbFailed d = takeRegs (pmbFailed d) d := by
  have hok : apart PWR_PMB_STAT_OK PWR_PMB_ERR := by decide
  unfold pmbFailed
  refine ⟨?_, ?_, f_setF_same _ (by decide) (by decide) (by decide), ?_, ?_⟩
  · rw [Dev.setF_def, Dev.setFi_pwr, Dev.bump_def, Dev.setFi_pwr]
  · rw [f_setF_apart hok, f_bump_same _ rfl rfl]
  · exact onlyWords_trans (onlyWords_setFi d (F := PWR_PMB_ERR) (by decide) _) (onlyWords_setFi _ (F := PWR_PMB_STAT_OK) (by decide) _)
  · exact frame_trans takeRegs (fun _ _ _ => rfl) (takeRegs_setFi d PWR_PMB_ERR 0 0 _) (takeRegs_setFi _ PWR_PMB_STAT_OK 0 0 _)

theorem onPwr_bump_setF (d : Dev) (F G : Fld) (v : Nat) (f : PwrSt → PwrSt) :
    ((d.bump F).setF G v).onPwr f = ((d.onPwr f).bump F).setF G v := rfl

theorem onPwr_pmbFailed (d : Dev) (f : PwrSt → PwrSt) : (pmbFailed d).onPwr f = pmbFailed (d.onPwr f) := onPwr_bump_setF ..

/-- A transaction given up is reported. -/
def pmbReported (d : Dev) : Dev := ((pmbFailed d).raise PWR_IRQ_RAW_PMB_ERR).emit 0x033 .pwr

theorem pmbReported_rules (d : Dev) : (pmbReported d).pwr = d.pwr ∧ (∃ x, (pmbReported d).evq = d.evq ++ [x] ∧ x.code = 0x033) ∧
    onlyRaised d (pmbReported d) [PWR_PMB_ERR.addr 0 0, PWR_PMB_STAT_OK.addr 0 0, Page.pwr.base + 0x10] := by
  obtain ⟨hpwr, -, -, hwords, hframe⟩ := pmbFailed_rules d
  have hevq : (pmbFailed d).evq = d.evq := keeps_of_takeRegs Dev.evq (fun _ _ => rfl) hframe
  unfold pmbReported
  generalize pmbFailed d = x at *
  have hfailed : onlyRaised d x [PWR_PMB_ERR.addr 0 0, PWR_PMB_STAT_OK.addr 0 0, Page.pwr.base + 0x10] :=
    ⟨takeRaised_of_regs hframe, onlyWords_mono hwords (by decide)⟩
  obtain ⟨e, he, hcode⟩ := evq_emit (x.raise PWR_IRQ_RAW_PMB_ERR) 0x033 .pwr []
  refine ⟨?_, ⟨e, he.trans ?_, hcode⟩, ?_⟩
  · rw [Dev.emit_def, Dev.emitSrc_pwr, Dev.raise_def, Dev.raiseBits_pwr, hpwr]
  · rw [Dev.raise_def, Dev.raiseBits_evq, hevq]
  · rw [Dev.emit_def, Dev.raise_def]
    exact onlyRaised_trans hfailed (onlyRaised_trans (onlyRaised_raiseBits x (List.mem_cons_of_mem _ (List.mem_cons_of_mem _
      List.mem_cons_self)) _) (onlyRaised_emitSrc ..))

/-! ### Alerts (R492) -/

/-- Fields of the regulator's status and alert. -/
theorem alertRead_rules (st : Nat) {vout : Nat} (hvout : vout < 256) (d : Dev) :
    (alertRead st vout d).f PWR_PMB_STAT_VOUT = vout ∧ (alertRead st vout d).f PWR_PMB_STAT_STATUS = d.f PWR_PMB_STAT_STATUS ∧
      (alertRead st vout d).f PWR_IRQ_RAW_VREG_ALERT = 1 ∧
      (alertRead st vout d).pwr.pmbQ = { code := 0x03, value := st + 65536 * vout } :: d.pwr.pmbQ ∧
      ∃ x, (alertRead st vout d).evq = d.evq ++ [x] ∧ x.code = 0x034 ∧ x.payload = u16 st ++ u8 vout := by
  have hstatus : apart PWR_PMB_STAT_VOUT PWR_PMB_STAT_STATUS := by decide
  have hv : (d.setF PWR_PMB_STAT_VOUT vout).f PWR_PMB_STAT_VOUT = vout := f_setF_same d (by decide) (by decide) hvout
  have hs : (d.setF PWR_PMB_STAT_VOUT vout).f PWR_PMB_STAT_STATUS = d.f PWR_PMB_STAT_STATUS := f_setF_apart hstatus vout d
  have hpwr : (d.setF PWR_PMB_STAT_VOUT vout).pwr = d.pwr := Dev.setFi_pwr d PWR_PMB_STAT_VOUT 0 0 vout
  have hevq : (d.setF PWR_PMB_STAT_VOUT vout).evq = d.evq := Dev.setFi_evq d PWR_PMB_STAT_VOUT 0 0 vout
  unfold alertRead
  dsimp only
  generalize d.setF PWR_PMB_STAT_VOUT vout = x at *
  obtain ⟨e, he, hcode, hpayload⟩ := evq_emit_payload ((pmbNext 0x03 (st + 65536 * vout) x).raise PWR_IRQ_RAW_VREG_ALERT) 0x034 .pwr
    (u16 st ++ u8 vout)
  have hregs : (pmbNext 0x03 (st + 65536 * vout) x).regs = x.regs := rfl
  refine ⟨?_, ?_, ?_, ?_, e, he.trans ?_, hcode, hpayload⟩
  · exact ((f_of_regs rfl _).trans (f_raise_ne (by decide) _)).trans ((f_of_regs hregs _).trans hv)
  · exact ((f_of_regs rfl _).trans (f_raise_ne (by decide) _)).trans ((f_of_regs hregs _).trans hs)
  · exact (f_of_regs rfl _).trans (f_raise_same (by decide) (by decide) (by decide) _)
  · rw [Dev.emit_def, Dev.emitSrc_pwr, Dev.raise_def, Dev.raiseBits_pwr, ← hpwr]
    rfl
  · rw [Dev.raise_def, Dev.raiseBits_evq, ← hevq]
    rfl

/-- The status word of an alert. -/
def alertWord (st : Nat) (d : Dev) : Dev := d.setF PWR_PMB_STAT_STATUS st

theorem pmbOk_word {t : PmbTx} (hcode : t.code = 0x79) (data : Nat) (d : Dev) : pmbOk t data d =
    if (t.value % 65536).testBit 15 then pmbNext 0x7A t.value (alertWord (t.value % 65536) d)
    else alertRead (t.value % 65536) 0 (alertWord (t.value % 65536) d) := by
  unfold pmbOk
  rw [hcode]
  rfl

theorem pmbOk_vstatus {t : PmbTx} (hcode : t.code = 0x7A) (data : Nat) (d : Dev) :
    pmbOk t data d = alertRead (t.value % 65536) (t.value / 65536) d := by
  unfold pmbOk
  rw [hcode]
  rfl

theorem testBit_low (n : Nat) : (n % 65536).testBit 15 = n.testBit 15 := by
  rw [show 65536 = 2 ^ 16 from rfl, Nat.testBit_mod_two_pow, decide_eq_true (by decide), Bool.true_and]

theorem alertWord_rules {st : Nat} (hst : st < 65536) (d : Dev) : (alertWord st d).f PWR_PMB_STAT_STATUS = st ∧
    (alertWord st d).pwr = d.pwr ∧ (alertWord st d).evq = d.evq :=
  ⟨f_setF_same d (by decide) (by decide) hst, Dev.setFi_pwr d PWR_PMB_STAT_STATUS 0 0 st, Dev.setFi_evq d PWR_PMB_STAT_STATUS 0 0 st⟩

theorem pmbTook_rules (t : PmbTx) (rest : List PmbTx) (data : Nat) (d : Dev) :
    (pmbTook t rest data d).pwr.pmbQ = rest ∧ (pmbTook t rest data d).evq = d.evq := by
  unfold pmbTook
  rw [Dev.setF_def, Dev.setFi_pwr, Dev.setFi_evq]
  exact ⟨rfl, rfl⟩

theorem pmbAlert_on {d : Dev} (h : d.pmbOn = true) (st vout : Nat) :
    pmbAlert st vout d = pmbSend 0x79 (st + 65536 * vout) (d.setF PWR_PMB_STAT_ALERT 1) := if_pos h

/-! ## The governor (R48, R51 to R53, R493) -/

/-- A voltage that differs from the one in force is commanded. -/
theorem governorStep_moves {cl el v : Nat} {d : Dev} (hon : (prune d).isOn = true) (hstuck : (prune d).pwr.pmbStuck = false)
    (hsettled : (prune d).pwr.settled = true) (hpending : (prune d).voutPending = false) (hgoal : governorGoal cl el (prune d) = v)
    (hv : v ≠ (prune d).pwr.vSet) : governorStep cl el d = pmbSend 0x21 v (prune d) := by
  have hfree : ¬ ((prune d).isOn = false ∨ (prune d).pwr.pmbStuck = true ∨ (prune d).pwr.settled = false ∨ (prune d).voutPending = true) := by
    simp only [hon, hstuck, hsettled, hpending, Bool.true_eq_false, Bool.false_eq_true, or_self, not_false_eq_true]
  unfold governorStep
  dsimp only
  rw [if_neg hfree, hgoal, if_neg hv]

theorem governorStep_unsettled {cl el : Nat} {d : Dev} (h : d.pwr.settled = false) : governorStep cl el d = prune d :=
  if_pos (.inr (.inr (.inl h)))

section
variable {cl el : Nat} {d : Dev} (hfault : d.pwr.fixedByFault = false) (hfixed : d.on PWR_GOV_FIXED = false)
include hfault hfixed

theorem governorGoal_raise (htop : d.pwr.vSet + 10 ≤ min 850 (min d.pwr.vCeil (d.f PWR_GOV_V_V_MAX)))
    (hmeets : d.meets d.minCap (d.f ENC_CAP_MPXS) = false) : governorGoal cl el d = d.pwr.vSet + 10 := by
  have hfree : ¬ (d.pwr.fixedByFault = true ∨ d.on PWR_GOV_FIXED = true) := by rw [hfault, hfixed]; decide
  unfold governorGoal
  dsimp only
  rw [if_neg (by omega), if_neg hfree, if_pos hmeets, if_pos htop]

theorem governorGoal_lower (htop : d.pwr.vSet ≤ min 850 (min d.pwr.vCeil (d.f PWR_GOV_V_V_MAX))) (hlow : 610 ≤ d.pwr.vSet)
    (hmeets : d.meets d.minCap (d.f ENC_CAP_MPXS) = true) (hmeets' : d.meets cl el = true) (hwait : d.pwr.lowerWait = none) :
    governorGoal cl el d = d.pwr.vSet - 10 := by
  have hfree : ¬ (d.pwr.fixedByFault = true ∨ d.on PWR_GOV_FIXED = true) := by rw [hfault, hfixed]; decide
  unfold governorGoal
  dsimp only
  rw [if_neg (by omega), if_neg hfree, if_neg (by rw [hmeets]; decide), if_pos ⟨hmeets', hwait, hlow⟩]

end

/-! ## Rate monitors (R47) -/

theorem onlyRegs_foldl {α : Type} {f : Dev → α → Dev} {as : List Nat} (l : List α) (h : ∀ d, ∀ x ∈ l, onlyRegs d (f d x) as) (d : Dev) :
    onlyRegs d (l.foldl f d) as := by
  induction l generalizing d with
  | nil => exact onlyRegs_refl ..
  | cons x l ih => exact onlyRegs_trans (h d x List.mem_cons_self) (ih (fun d y hy => h d y (List.mem_cons_of_mem _ hy)) _)

/-- One monitor's reading. -/
def monitorSet (d : Dev) (e : (Fld × Fld) × Word × Word) : Dev := (d.setF e.1.1 e.2.1.toNat).setF e.1.2 e.2.2.toNat

/-- Registers of two monitors that share no word. -/
abbrev monitorsApart (m n : Fld × Fld) : Prop := apart m.1 n.1 ∧ apart m.1 n.2 ∧ apart m.2 n.1 ∧ apart m.2 n.2

/-- A monitor's registers fill their words, and not the same one. -/
abbrev wholeMonitor (m : Fld × Fld) : Prop := m.1.lo = 0 ∧ m.1.hi = 31 ∧ m.2.lo = 0 ∧ m.2.hi = 31 ∧ apart m.2 m.1

theorem f_monitorsWritten_apart {G : Fld} (ms : List (Fld × Fld)) (h : ∀ m ∈ ms, apart m.1 G ∧ apart m.2 G) (l : List (Word × Word)) (d : Dev) :
    ((ms.zip l).foldl monitorSet d).f G = d.f G := by
  induction ms generalizing l d with
  | nil => rfl
  | cons m ms ih =>
    cases l with
    | nil => rfl
    | cons v l =>
      obtain ⟨h1, h2⟩ := h m List.mem_cons_self
      rw [List.zip_cons_cons, List.foldl_cons, ih fun n hn => h n (List.mem_cons_of_mem _ hn)]
      unfold monitorSet
      rw [f_setF_apart h2, f_setF_apart h1]

theorem f_setF_whole (d : Dev) {F : Fld} (hlo : F.lo = 0) (hhi : F.hi = 31) (v : Word) : (d.setF F v.toNat).f F = v.toNat := by
  refine f_setF_same d (by omega) (by omega) ?_
  rw [hlo, hhi]
  exact v.isLt

theorem f_monitorSet {m : Fld × Fld} (h : wholeMonitor m) (v : Word × Word) (d : Dev) :
    (monitorSet d (m, v)).f m.1 = v.1.toNat ∧ (monitorSet d (m, v)).f m.2 = v.2.toNat := by
  obtain ⟨hlo, hhi, hlo', hhi', hapart⟩ := h
  exact ⟨(f_setF_apart hapart ..).trans (f_setF_whole _ hlo hhi v.1), f_setF_whole _ hlo' hhi' v.2⟩

theorem f_monitorsWritten (ms : List (Fld × Fld)) (hwhole : ∀ m ∈ ms, wholeMonitor m)
    (hapart : ms.Pairwise fun m n => monitorsApart n m) (l : List (Word × Word)) (d : Dev) {i : Nat} {m : Fld × Fld} {v : Word × Word}
    (hm : ms[i]? = some m) (hv : l[i]? = some v) :
    ((ms.zip l).foldl monitorSet d).f m.1 = v.1.toNat ∧ ((ms.zip l).foldl monitorSet d).f m.2 = v.2.toNat := by
  induction ms generalizing l d i with
  | nil => cases hm
  | cons n ms ih =>
    obtain ⟨hhead, htail⟩ := List.pairwise_cons.mp hapart
    cases l with
    | nil => cases hv
    | cons w l =>
      rw [List.zip_cons_cons, List.foldl_cons]
      cases i with
      | zero =>
        obtain rfl : n = m := Option.some.inj hm
        obtain rfl : w = v := Option.some.inj hv
        obtain ⟨h1, h2⟩ := f_monitorSet (hwhole n List.mem_cons_self) w d
        rw [f_monitorsWritten_apart ms fun k hk => ⟨(hhead k hk).1, (hhead k hk).2.2.1⟩,
          f_monitorsWritten_apart ms fun k hk => ⟨(hhead k hk).2.1, (hhead k hk).2.2.2⟩]
        exact ⟨h1, h2⟩
      | succ i => exact ih (fun k hk => hwhole k (List.mem_cons_of_mem _ hk)) htail l _ hm hv

/-- The words of some monitors. -/
def monitorWords (ms : List (Fld × Fld)) : List Nat := ms.flatMap fun m => [m.1.addr 0 0, m.2.addr 0 0]

theorem onlyRegs_monitorSet {ms : List (Fld × Fld)} {e : (Fld × Fld) × Word × Word} (he : e.1 ∈ ms) (d : Dev) :
    onlyRegs d (monitorSet d e) (monitorWords ms) := by
  have hmem : ∀ a ∈ [e.1.1.addr 0 0, e.1.2.addr 0 0], a ∈ monitorWords ms := fun a ha => List.mem_flatMap.mpr ⟨e.1, he, ha⟩
  exact onlyRegs_trans (onlyRegs_mono (onlyRegs_setFi d e.1.1 0 0 _) fun a ha => hmem a (List.mem_cons.mpr (.inl (List.mem_singleton.mp ha))))
    (onlyRegs_mono (onlyRegs_setFi _ e.1.2 0 0 _) fun a ha => hmem a (List.mem_cons_of_mem _ ha))

theorem onlyRegs_monitorsWritten {ms : List (Fld × Fld)} (es : List ((Fld × Fld) × Word × Word)) (h : ∀ e ∈ es, e.1 ∈ ms) (d : Dev) :
    onlyRegs d (es.foldl monitorSet d) (monitorWords ms) := onlyRegs_foldl es (fun d e he => onlyRegs_monitorSet (h e he) d) d

theorem wholeMonitor_monitors : ∀ m ∈ monitors, wholeMonitor m := by decide

theorem monitorsApart_monitors : monitors.Pairwise fun m n => monitorsApart n m := by decide

/-- Readings that are not whole leave an unsettled step unsettled. -/
theorem monitorUpdate_unsettled (l : List (Word × Word)) {d : Dev} (hlevel : d.aon.level = 2) (h : d.pwr.settled = false) :
    monitorUpdate l false d = monitorWrite l d := by
  have hframe := (onlyRegs_monitorsWritten (monitors.zip l) (fun e he => (List.of_mem_zip he).1) d).1
  have hpwr : (monitorWrite l d).pwr = d.pwr := keeps_of_takeRegs Dev.pwr (fun _ _ => rfl) hframe
  have hsettled : (monitorWrite l d).pwr.settled = false := hpwr ▸ h
  unfold monitorUpdate
  dsimp only
  generalize monitorWrite l d = x at hsettled
  have hsame : (x.onPwr fun w => { w with settled := w.settled || false }) = x := by
    unfold Dev.onPwr
    dsimp only
    rw [Bool.or_false]
  rw [if_neg (not_not.mpr hlevel), hsame, if_neg (by rw [hsettled]; decide)]

end Sys2Proof.Machine

open Sys2Proof Sys2Proof.Machine

/-- Settles O47: PMBus transactions as they succeed and fail, an alert, the governor's steps, and the monitors. -/
theorem regulatorFollowsGovernor : Obligations.RegulatorFollowsGovernor := by
  unfold Obligations.RegulatorFollowsGovernor
  refine ⟨?vout, ?retried, ?givenUp, ?alert, ?word, ?wordMore, ?vstatus, ?fault, ?raise, ?lower, ?unsettled, ?monitors⟩
  case vout =>
    intro data t rest s hon hq hcode hlevel
    have hword : t.word data.toNat = data.toNat := by simp [PmbTx.word, hcode]
    have hend := pmbEnd_ok hq data.toNat
    rw [hword, pmbOk_vout hcode (show (pmbTook t rest data.toNat s.dev).aon.level = 2 from hlevel)] at hend
    exact ⟨_, runs_pmbEnd hon (faultAfter_other hq (by rw [hcode]; decide) true) hend, voutSet_rules ..⟩
  case retried =>
    intro data t rest s hon hq hfails
    obtain ⟨hpwr, herr, hok, hwords, hframe⟩ := pmbFailed_rules s.dev
    refine ⟨_, runs_pmbEnd hon (faultAfter_early hq hfails) (pmbEnd_retried hq hfails data.toNat), ?_, (f_of_regs (Dev.onPwr_regs ..) _).trans herr,
      (f_of_regs (Dev.onPwr_regs ..) _).trans hok, onlyWords_regs hwords (Dev.onPwr_regs ..),
      takeRegsPwr_trans (frame_mono takeRegs takeRegsPwr (fun _ _ => rfl) hframe) (takeRegsPwr_onPwr ..)⟩
    unfold Dev.onPwr
    rw [hpwr]
  case givenUp =>
    intro data t rest s hon hq hfails hcode
    obtain ⟨b, hend⟩ := pmbEnd_givenUp hq hfails data.toNat
    rw [onPwr_pmbFailed] at hend
    obtain ⟨hpwr, hevq, hraised⟩ := pmbReported_rules (s.dev.onPwr fun w => { w with pmbQ := rest, pmbStuck := true, fixedByFault := w.fixedByFault || b })
    refine ⟨_, runs_pmbEnd hon (faultAfter_other hq hcode false) hend, congrArg PwrSt.pmbQ hpwr, congrArg PwrSt.pmbStuck hpwr, hevq, ?_⟩
    have hpwr' := hpwr
    unfold pmbReported at hpwr'
    rw [hpwr']
    exact hraised
  case alert =>
    intro st v s hon
    refine ⟨_, runs_onDev (c := .pmbAlert st v) (f := pmbAlert st.toNat v.toNat) rfl (pmbAlert_on hon st.toNat v.toNat), ?_, ?_, ?_, ?_⟩
    · exact (f_of_regs (Dev.onPwr_regs ..) _).trans (f_setF_same s.dev (by decide) (by decide) (by decide))
    · rfl
    · exact onlyWords_regs (onlyWords_setFi s.dev (F := PWR_PMB_STAT_ALERT) (by decide) 1) (Dev.onPwr_regs ..)
    · exact takeRegsPwr_trans (takeRegsPwr_setF s.dev ..) (takeRegsPwr_onPwr ..)
  case word =>
    intro data t rest s hon hq hcode hbit
    have hend := pmbEnd_ok hq data.toNat
    obtain ⟨hrest, hevq⟩ := pmbTook_rules t rest (t.word data.toNat) s.dev
    generalize pmbTook t rest (t.word data.toNat) s.dev = x at hend hrest hevq
    rw [pmbOk_word hcode, if_neg (by rw [testBit_low, hbit]; decide)] at hend
    obtain ⟨hst, hpwr, hevq'⟩ := alertWord_rules (Nat.mod_lt t.value (by decide : 0 < 65536)) x
    obtain ⟨hvout, hstatus, hirq, hnext, hevent⟩ := alertRead_rules (t.value % 65536) (vout := 0) (by decide) (alertWord (t.value % 65536) x)
    rw [hpwr, hrest] at hnext
    rw [hevq', hevq] at hevent
    exact ⟨_, runs_pmbEnd hon (faultAfter_other hq (by rw [hcode]; decide) true) hend, hstatus.trans hst, hvout, hirq, hnext, hevent⟩
  case wordMore =>
    intro data t rest s hon hq hcode hbit
    have hend := pmbEnd_ok hq data.toNat
    obtain ⟨hrest, hevq⟩ := pmbTook_rules t rest (t.word data.toNat) s.dev
    generalize pmbTook t rest (t.word data.toNat) s.dev = x at hend hrest hevq
    rw [pmbOk_word hcode, if_pos (by rw [testBit_low, hbit])] at hend
    obtain ⟨hst, hpwr, hevq'⟩ := alertWord_rules (Nat.mod_lt t.value (by decide : 0 < 65536)) x
    obtain ⟨hnext, hevq'', hregs⟩ := pmbNext_rules 0x7A t.value (alertWord (t.value % 65536) x)
    rw [hpwr, hrest] at hnext
    exact ⟨_, runs_pmbEnd hon (faultAfter_other hq (by rw [hcode]; decide) true) hend, (f_of_regs hregs _).trans hst, hnext,
      hevq''.trans (hevq'.trans hevq)⟩
  case vstatus =>
    intro data t rest s hon hq hcode hvalue
    have hend := pmbEnd_ok hq data.toNat
    obtain ⟨hrest, hevq⟩ := pmbTook_rules t rest (t.word data.toNat) s.dev
    generalize pmbTook t rest (t.word data.toNat) s.dev = x at hend hrest hevq
    rw [pmbOk_vstatus hcode] at hend
    obtain ⟨hvout, -, hirq, hnext, hevent⟩ := alertRead_rules (t.value % 65536) (vout := t.value / 65536) (by omega) x
    rw [hrest, Nat.mod_add_div] at hnext
    rw [hevq] at hevent
    exact ⟨_, runs_pmbEnd hon (faultAfter_other hq (by rw [hcode]; decide) true) hend, hvout, hirq, hnext, hevent⟩
  case fault =>
    intro data t rest s hon hq hcode hfault
    have hafter : s.dev.faultAfter true = true := by
      rw [faultAfter_eq hq, hcode, hfault]
      rfl
    obtain ⟨e, hrail, haon, -, -, hr, hc, -⟩ := railFault_rules 3 (cause := 3) (by decide) (pmbEnd true data.toNat s.dev) s.evr
    have hdone : pmbDone true data.toNat (s.dev, s.evr) = (e, resetRecorder s.evr) :=
      (if_neg (by rw [hon]; decide)).trans ((if_pos hafter).trans hrail)
    exact ⟨e, _, runsRec_onRec (c := .pmbusTransactionDone true data) (f := pmbDone true data.toNat) rfl hdone,
      (congrArg AonSt.seq haon).trans (faulted_rules _).1, hr, hc, rfl⟩
  case raise =>
    intro cl el g s hg hon hstuck hsettled hpending hfault hfixed htop hmeets
    subst hg
    exact ⟨_, runs_onDev (c := .governorStep cl el) (f := governorStep cl.toNat el.toNat) rfl
      (governorStep_moves hon hstuck hsettled hpending (governorGoal_raise hfault hfixed htop hmeets) (by omega)), rfl, rfl⟩
  case lower =>
    intro cl el g s hg hon hstuck hsettled hpending hfault hfixed htop hlow hmeets hmeets' hwait
    subst hg
    exact ⟨_, runs_onDev (c := .governorStep cl el) (f := governorStep cl.toNat el.toNat) rfl
      (governorStep_moves hon hstuck hsettled hpending (governorGoal_lower hfault hfixed htop hlow hmeets hmeets' hwait) (by omega)), rfl, rfl⟩
  case unsettled =>
    intro cl el s h
    exact ⟨_, runs_onDev (c := .governorStep cl el) (f := governorStep cl.toNat el.toNat) rfl (governorStep_unsettled h), rfl, rfl⟩
  case monitors =>
    intro l s hlevel hlen hsettled
    refine ⟨_, runs_onDev (c := .rateMonitorUpdate l false) (f := monitorUpdate l false) rfl (monitorUpdate_unsettled l hlevel hsettled), ?_,
      onlyRegs_monitorsWritten (monitors.zip l) (fun e he => (List.of_mem_zip he).1) s.dev⟩
    intro i m v hm hv
    exact f_monitorsWritten monitors wholeMonitor_monitors monitorsApart_monitors l s.dev hm hv
end

section
/-! SUPPORT. Proofs about the gait, the throttle, the sensors and shutdown pending (R494 to R501). -/
namespace Sys2Proof.Machine

/-! ## What heat rests on -/

/-- A change that keeps the samples and the words listed. -/
structure KeepsReadings (ws : List Nat) (d e : Dev) : Prop where
  hist : e.thm.hist = d.thm.hist
  words : ∀ a ∈ ws, e.word a = d.word a

/-- One that also keeps the throttle's value and the always-on state. -/
structure KeepsHeat (ws : List Nat) (d e : Dev) : Prop extends KeepsReadings ws d e where
  rAct : e.thm.rAct = d.thm.rAct
  aon : e.aon = d.aon

theorem KeepsReadings.trans {ws : List Nat} {d e g : Dev} (h : KeepsReadings ws d e) (h' : KeepsReadings ws e g) : KeepsReadings ws d g :=
  ⟨h'.hist.trans h.hist, fun a ha => (h'.words a ha).trans (h.words a ha)⟩

namespace KeepsHeat
variable {ws : List Nat} {d e g : Dev}

theorem refl (ws : List Nat) (d : Dev) : KeepsHeat ws d d := ⟨⟨rfl, fun _ _ => rfl⟩, rfl, rfl⟩

theorem trans (h : KeepsHeat ws d e) (h' : KeepsHeat ws e g) : KeepsHeat ws d g :=
  ⟨h.toKeepsReadings.trans h'.toKeepsReadings, h'.rAct.trans h.rAct, h'.aon.trans h.aon⟩

theorem of {as : List Nat} (hthm : e.thm = d.thm) (haon : e.aon = d.aon) (hwords : onlyWords d e as) (h : ∀ a ∈ ws, a ∉ as) :
    KeepsHeat ws d e :=
  ⟨⟨congrArg ThmSt.hist hthm, fun a ha => hwords a (h a ha)⟩, congrArg ThmSt.rAct hthm, haon⟩

theorem ite {c : Prop} [Decidable c] (hd : KeepsHeat ws d e) (hg : KeepsHeat ws d g) : KeepsHeat ws d (if c then e else g) := by
  split
  · exact hd
  · exact hg

/-- A step made only where a condition holds. -/
theorem also {c : Prop} [Decidable c] (h : KeepsHeat ws d e) (h' : KeepsHeat ws e g) : KeepsHeat ws d (if c then g else e) :=
  .ite (h.trans h') h

theorem foldl {α : Type} {f : Dev → α → Dev} (h : ∀ d x, KeepsHeat ws d (f d x)) (l : List α) (d : Dev) :
    KeepsHeat ws d (l.foldl f d) := by
  induction l generalizing d with
  | nil => exact refl ws d
  | cons x l ih => exact (h d x).trans (ih _)

end KeepsHeat

section
variable {ws : List Nat} {d : Dev}

theorem keepsHeat_setFi {F : Fld} {i k : Nat} (h : F.addr i k ∉ ws) (v : Nat) : KeepsHeat ws d (d.setFi F i k v) :=
  .of (Dev.setFi_thm ..) (Dev.setFi_aon ..) (onlyWords_setFi d (List.mem_singleton.mpr rfl) v) fun _ ha hmem =>
    h (List.mem_singleton.mp hmem ▸ ha)

theorem keepsHeat_setF {F : Fld} (h : F.addr 0 0 ∉ ws) (v : Nat) : KeepsHeat ws d (d.setF F v) := keepsHeat_setFi h v

theorem keepsHeat_add {F : Fld} (h : F.addr 0 0 ∉ ws) (n : Nat) : KeepsHeat ws d (d.add F n) := keepsHeat_setFi h _

theorem keepsHeat_bump {F : Fld} (h : F.addr 0 0 ∉ ws) : KeepsHeat ws d (d.bump F) := keepsHeat_setFi h _

theorem keepsHeat_raise {F : Fld} (h : (blkPage F.blk 0).base + 0x10 ∉ ws) : KeepsHeat ws d (d.raise F) :=
  .of (Dev.raiseBits_thm ..) (Dev.raiseBits_aon ..) (onlyWords_raiseBits d (List.mem_singleton.mpr rfl) _) fun _ ha hmem =>
    h (List.mem_singleton.mp hmem ▸ ha)

theorem keepsHeat_emit (code : Nat) (p : Page) (b : List Byte) : KeepsHeat ws d (d.emit code p b) :=
  ⟨⟨rfl, fun _ _ => rfl⟩, rfl, rfl⟩

theorem keepsHeat_onHmp (f : HmpSt → HmpSt) : KeepsHeat ws d (d.onHmp f) := ⟨⟨rfl, fun _ _ => rfl⟩, rfl, rfl⟩

theorem keepsHeat_onPwr (f : PwrSt → PwrSt) : KeepsHeat ws d (d.onPwr f) := ⟨⟨rfl, fun _ _ => rfl⟩, rfl, rfl⟩

/-! ### Changes of the gait, of the ceiling and of what is declared -/

theorem keepsHeat_gaitEval (h : PWR_GAIT_ACTIVE.addr 0 0 ∉ ws) (reason : Nat) : KeepsHeat ws d (gaitEval reason d) :=
  .ite (.refl ws d) ((keepsHeat_setF h _).trans (keepsHeat_emit ..))

theorem keepsHeat_setCeil (h : PWR_VCORE_STAT_V_CEIL.addr 0 0 ∉ ws) (mv : Nat) : KeepsHeat ws d (setCeil mv d) :=
  .ite (.refl ws d) (((keepsHeat_onPwr _).trans (keepsHeat_setF h mv)).trans (keepsHeat_onPwr _))

theorem keepsHeat_ceiling (h : PWR_VCORE_STAT_V_CEIL.addr 0 0 ∉ ws) : KeepsHeat ws d (ceiling d) :=
  .ite (.refl ws d) (.ite (keepsHeat_setCeil h _) (.ite (keepsHeat_setCeil h _) (.refl ws d)))

theorem keepsHeat_setExtThr : KeepsHeat ws d (setExtThr d) := ⟨⟨rfl, fun _ _ => rfl⟩, rfl, rfl⟩

theorem keepsHeat_setRowExt (h : THM_ROW_EXT_E.addr 0 0 ∉ ws) : KeepsHeat ws d (setRowExt d) := keepsHeat_setF h _

/-- The pages of what is declared lie behind those of heat. -/
theorem keepsHeat_declared (h : ∀ a ∈ ws, a < 0x90000) : KeepsHeat ws d (declared d) := by
  have hset : ∀ (F : Fld) (v : Nat) (e : Dev), 0x90000 ≤ F.addr 0 0 → KeepsHeat ws d e → KeepsHeat ws d (e.setF F v) :=
    fun F v e hF he => he.trans (keepsHeat_setF (fun hmem => absurd (h _ hmem) (Nat.not_lt.mpr hF)) v)
  have hirq : (blkPage ING_IRQ_RAW_SAT_LIMITED.blk 0).base + 0x10 ∉ ws := fun hmem => absurd (h _ hmem) (by decide)
  unfold declared
  exact .also (.also (hset _ _ _ (by decide) (hset _ _ _ (by decide) (hset _ _ _ (by decide) (hset _ _ _ (by decide)
    (hset _ _ _ (by decide) (.refl ws d)))))) (keepsHeat_raise hirq)) (keepsHeat_emit ..)

/-! ### The Hamper disabled -/

section
variable (h : ∀ a ∈ ws, a < 0x90000)
include h

theorem keepsHeat_slotRegs (k : Nat) : KeepsHeat ws d (slotRegs k d) := by
  have hframe := takeHist_slotRegs k d
  exact ⟨⟨(congrArg (·.thm.hist) hframe :), fun a ha => word_slotRegs k d (.inl (Nat.lt_trans (h a ha) (by decide)))⟩,
    (congrArg (·.thm.rAct) hframe :), (congrArg Dev.aon hframe :)⟩

theorem keepsHeat_putSlot (k : Nat) (x : Option TrigSlot) : KeepsHeat ws d (d.putSlot k x) :=
  (keepsHeat_onHmp _).trans (keepsHeat_slotRegs h k)

theorem keepsHeat_histDrop : KeepsHeat ws d (histDrop d) :=
  ((keepsHeat_bump fun hmem => absurd (h _ hmem) (by decide)).trans (keepsHeat_raise fun hmem => absurd (h _ hmem) (by decide))).trans
    (keepsHeat_emit ..)

theorem keepsHeat_replayEnd (i : Nat) : KeepsHeat ws d (replayEnd i d) := by
  have hirq : (blkPage HMP_IRQ_RAW_REPLAY_DONE.blk 0).base + 0x10 ∉ ws := fun hmem => absurd (h _ hmem) (by decide)
  unfold replayEnd
  split
  · exact .refl ws d
  · dsimp only
    refine KeepsHeat.trans ?_ ((keepsHeat_raise hirq).trans (keepsHeat_emit ..))
    split
    · split
      · exact (keepsHeat_onHmp _).trans (.ite (keepsHeat_putSlot h ..) (keepsHeat_slotRegs h _))
      · exact keepsHeat_onHmp _
    · exact keepsHeat_onHmp _

theorem keepsHeat_hmpDisable : KeepsHeat ws d (hmpDisable d) :=
  (((KeepsHeat.foldl (fun _ _ => keepsHeat_replayEnd h 0) _ d).trans (.foldl (fun _ _ => keepsHeat_histDrop h) _ _)).trans
    (keepsHeat_onHmp _)).trans (keepsHeat_setF (fun hmem => absurd (h _ hmem) (by decide)) 4)

end

end

/-! ## Gaits (R494 to R496) -/

theorem gait_of_f {d e : Dev} (h : ∀ F ∈ [THM_STAT_PIX, THM_STAT_LOG, PWR_GAIT_SEL, PWR_GAIT_WARN_GAIT], e.f F = d.f F) :
    e.gait = d.gait := by
  obtain ⟨hpix, hlog, hsel, hwarn⟩ : e.f THM_STAT_PIX = d.f THM_STAT_PIX ∧ e.f THM_STAT_LOG = d.f THM_STAT_LOG ∧
      e.f PWR_GAIT_SEL = d.f PWR_GAIT_SEL ∧ e.f PWR_GAIT_WARN_GAIT = d.f PWR_GAIT_WARN_GAIT := by simpa using h
  unfold Dev.gait
  rw [hpix, hlog, hsel, hwarn]

theorem gait_lt (d : Dev) : d.gait < 4 := by
  have hsel : d.f PWR_GAIT_SEL < 4 := by
    rw [Dev.f_def, Dev.fi]
    exact Nat.lt_of_lt_of_le (bitsOf_lt ..) (by decide)
  unfold Dev.gait
  split
  · exact Nat.lt_of_le_of_lt (Nat.min_le_left ..) hsel
  · exact hsel

/-- The fields the gait is formed of. -/
def gaitFields : List Fld := [THM_STAT_PIX, THM_STAT_LOG, PWR_GAIT_SEL, PWR_GAIT_WARN_GAIT]

theorem gaitEval_rules (reason : Nat) (d : Dev) : (gaitEval reason d).f PWR_GAIT_ACTIVE = d.gait ∧
    ∀ F ∈ gaitFields, (gaitEval reason d).f F = d.f F := by
  have happart : ∀ F ∈ gaitFields, apart PWR_GAIT_ACTIVE F := by decide
  unfold gaitEval
  dsimp only
  split
  case isTrue h => exact ⟨h.symm, fun _ _ => rfl⟩
  case isFalse _ =>
    exact ⟨(f_of_regs rfl _).trans (f_setF_same d (by decide) (by decide) (gait_lt d)),
      fun F hF => (f_of_regs (d := d.setF PWR_GAIT_ACTIVE d.gait) rfl F).trans (f_setF_apart (happart F hF) _ d)⟩

theorem gaitSet_bad {d : Dev} (h : 3 < d.cmdNat 0 1) : gaitSet d = d.mbxDone resBAD_PARAM := if_pos h

theorem gaitSet_ok {d : Dev} {g : Nat} (hg : d.cmdNat 0 1 = g) (h : g ≤ 3) :
    gaitSet d = (gaitEval 0 (d.setF PWR_GAIT_SEL g)).mbxDone resOK := by
  subst hg
  exact if_neg (Nat.not_lt.mpr h)

theorem gaitSelected_rules {g : Nat} (hg : g ≤ 3) (d : Dev) :
    ((gaitEval 0 (d.setF PWR_GAIT_SEL g)).mbxDone resOK).f PWR_GAIT_SEL = g ∧
      ((gaitEval 0 (d.setF PWR_GAIT_SEL g)).mbxDone resOK).f PWR_GAIT_ACTIVE = ((gaitEval 0 (d.setF PWR_GAIT_SEL g)).mbxDone resOK).gait := by
  have hmbx : ∀ F ∈ gaitFields, F.addr 0 0 ∉ mbxWords := by decide
  have hsel : (d.setF PWR_GAIT_SEL g).f PWR_GAIT_SEL = g := f_setF_same d (by decide) (by decide) (show g < 4 by omega)
  generalize d.setF PWR_GAIT_SEL g = x at hsel
  obtain ⟨hactive, hkeep⟩ := gaitEval_rules 0 x
  have hgait : ((gaitEval 0 x).mbxDone resOK).gait = x.gait :=
    gait_of_f fun F hF => (f_mbxDone (hmbx F hF) ..).trans (hkeep F hF)
  rw [hgait, f_mbxDone (by decide), f_mbxDone (by decide)]
  exact ⟨(hkeep _ (by decide)).trans hsel, hactive⟩

/-! ### The power average (R495) -/

/-- `d` with the registers, the requests, the events and the regulator of `x`. -/
abbrev takeRaisedPwr (x d : Dev) : Dev := { d with regs := x.regs, reqs := x.reqs, evq := x.evq, pwr := x.pwr }

theorem takeRaisedPwr_trans {d e g : Dev} (h : e = takeRaisedPwr e d) (h' : g = takeRaisedPwr g e) : g = takeRaisedPwr g d :=
  frame_trans takeRaisedPwr (fun _ _ _ => rfl) h h'

theorem takeRaisedPwr_onPwr (d : Dev) (f : PwrSt → PwrSt) : d.onPwr f = takeRaisedPwr (d.onPwr f) d := rfl

theorem takeRaisedPwr_setF (d : Dev) (F : Fld) (v : Nat) : d.setF F v = takeRaisedPwr (d.setF F v) d := rfl

theorem takeRaisedPwr_raise (d : Dev) (F : Fld) : d.raise F = takeRaisedPwr (d.raise F) d :=
  frame_mono takeRaised takeRaisedPwr (fun _ _ => rfl) (takeRaised_raiseBits ..)

theorem takeRaisedPwr_emit (d : Dev) (code : Nat) (p : Page) (b : List Byte) : d.emit code p b = takeRaisedPwr (d.emit code p b) d := rfl

/-- The words of the power estimate. -/
def powerWords : List Nat := [PWR_P_EST.addr 0 0, PWR_P_VCORE.addr 0 0, PWR_R_GAIT_R.addr 0 0, Page.pwr.base + 0x10]

/-- The estimate and its average. -/
def powerTaken (p est : Nat) (d : Dev) : Dev :=
  ((d.setF PWR_P_VCORE p).setF PWR_P_EST est).onPwr fun w => { w with pAvg := (est :: w.pAvg).take 10 }

/-- The gait's part of the throttle follows. -/
def gaitThrottled (d : Dev) : Dev :=
  (d.onPwr fun w => { w with rGait := gaitThrottle d }).setF PWR_R_GAIT_R (gaitThrottle d * 256).floor.toNat

theorem gaitUpdate_on {d : Dev} (hon : d.isOn = true) (hrun : d.boot.run = .running) (other : Nat) :
    gaitUpdate other d = pmbSend 0x8C 0 (pmbSend 0x8B 0 (gaitLimit (gaitThrottled (powerTaken d.vcorePower (d.vcorePower + other) d)))) := by
  have hok : ¬ (d.isOn = false ∨ d.boot.run ≠ .running) := by simp [hon, hrun]
  unfold gaitUpdate
  rw [if_neg hok]
  rfl

theorem gaitUpdate_off {d : Dev} (h : d.isOn = false) (other : Nat) : gaitUpdate other d = d := if_pos (.inl h)

theorem rMax_nonneg (d : Dev) : 0 ≤ d.rMax := by
  unfold Dev.rMax
  positivity

theorem gaitThrottle_bounds (d : Dev) : 0 ≤ gaitThrottle d ∧ gaitThrottle d ≤ d.rMax :=
  ⟨le_max_left .., max_le (rMax_nonneg d) (min_le_left ..)⟩

theorem powerTaken_rules (p est : Nat) (d : Dev) : (powerTaken p est d).f PWR_P_EST = est % 2 ^ 32 ∧
    (powerTaken p est d).pwr = { d.pwr with pAvg := (est :: d.pwr.pAvg).take 10 } ∧ (powerTaken p est d).rMax = d.rMax ∧
    onlyWords d (powerTaken p est d) powerWords ∧ powerTaken p est d = takeRaisedPwr (powerTaken p est d) d := by
  have hmax : apart PWR_P_VCORE THM_THROTTLE_R_MAX := by decide
  have hmax' : apart PWR_P_EST THM_THROTTLE_R_MAX := by decide
  unfold powerTaken
  refine ⟨?_, ?_, ?_, ?_, ?_⟩
  · exact (f_of_regs (Dev.onPwr_regs ..) _).trans (Dev.fi_setFi_same _ _ _ _ _ (by decide) (by decide))
  · rw [Dev.onPwr_pwr, Dev.setF_def, Dev.setFi_pwr, Dev.setF_def, Dev.setFi_pwr]
  · unfold Dev.rMax
    rw [f_of_regs (Dev.onPwr_regs ..), f_setF_apart hmax', f_setF_apart hmax]
  · exact onlyWords_regs (onlyWords_trans (onlyWords_setFi d (F := PWR_P_VCORE) (by decide) p)
      (onlyWords_setFi _ (F := PWR_P_EST) (by decide) est)) (Dev.onPwr_regs ..)
  · exact takeRaisedPwr_trans (takeRaisedPwr_trans (takeRaisedPwr_setF ..) (takeRaisedPwr_setF ..)) (takeRaisedPwr_onPwr ..)

theorem gaitThrottled_rules (d : Dev) : (gaitThrottled d).f PWR_P_EST = d.f PWR_P_EST ∧
    (gaitThrottled d).pwr = { d.pwr with rGait := gaitThrottle d } ∧
    onlyWords d (gaitThrottled d) powerWords ∧ gaitThrottled d = takeRaisedPwr (gaitThrottled d) d := by
  have hest : apart PWR_R_GAIT_R PWR_P_EST := by decide
  unfold gaitThrottled
  generalize gaitThrottle d = r
  refine ⟨?_, ?_, ?_, ?_⟩
  · rw [f_setF_apart hest, f_of_regs (Dev.onPwr_regs ..)]
  · rw [Dev.setF_def, Dev.setFi_pwr, Dev.onPwr_pwr]
  · exact onlyWords_trans (onlyWords_of_regs (Dev.onPwr_regs ..) _) (onlyWords_setFi _ (F := PWR_R_GAIT_R) (by decide) _)
  · exact takeRaisedPwr_trans (takeRaisedPwr_onPwr ..) (takeRaisedPwr_setF ..)

/-- Updates at R_MAX with the average above the cap are counted. -/
def limitCounted (d : Dev) : Dev :=
  d.onPwr fun w => { w with atMax := if d.pwr.rGait = d.rMax ∧ (gaitCap (d.f PWR_GAIT_ACTIVE) : Rat) < pAverage d.pwr.pAvg then w.atMax + 1 else 0 }

theorem gaitLimit_eq (d : Dev) : gaitLimit d =
    if (limitCounted d).pwr.atMax = 101 then ((limitCounted d).raise PWR_IRQ_RAW_GAIT_LIMIT).emit 0x035 .pwr else limitCounted d := rfl

theorem limitCounted_rules (d : Dev) : (limitCounted d).regs = d.regs ∧ (∃ n, (limitCounted d).pwr = { d.pwr with atMax := n }) ∧
    limitCounted d = takeRaisedPwr (limitCounted d) d := ⟨rfl, ⟨_, rfl⟩, rfl⟩

theorem gaitLimit_rules (d : Dev) : (gaitLimit d).f PWR_P_EST = d.f PWR_P_EST ∧ (∃ n, (gaitLimit d).pwr = { d.pwr with atMax := n }) ∧
    onlyWords d (gaitLimit d) powerWords ∧ gaitLimit d = takeRaisedPwr (gaitLimit d) d := by
  obtain ⟨hregs, hpwr, hframe⟩ := limitCounted_rules d
  rw [gaitLimit_eq]
  generalize limitCounted d = x at hregs hpwr hframe
  have hwords : onlyWords d x powerWords := onlyWords_of_regs hregs _
  split
  · refine ⟨?_, ?_, ?_, ?_⟩
    · exact (f_of_regs rfl _).trans ((f_raise_ne (by decide) _).trans (f_of_regs hregs _))
    · rw [Dev.emit_def, Dev.emitSrc_pwr, Dev.raise_def, Dev.raiseBits_pwr]
      exact hpwr
    · exact onlyWords_emit (as := powerWords) (onlyWords_trans hwords (onlyWords_raiseBits x (p := .pwr) (by decide) _)) _ _ _
    · exact takeRaisedPwr_trans (takeRaisedPwr_trans hframe (takeRaisedPwr_raise ..)) (takeRaisedPwr_emit ..)
  · exact ⟨f_of_regs hregs _, hpwr, hwords, hframe⟩

/-- The reads of the next update are sent. -/
theorem readsSent_rules (d : Dev) : (pmbSend 0x8C 0 (pmbSend 0x8B 0 d)).regs = d.regs ∧
    (pmbSend 0x8C 0 (pmbSend 0x8B 0 d)).pwr =
      { d.pwr with pmbQ := d.pwr.pmbQ ++ [{ code := 0x8B, value := 0 }] ++ [{ code := 0x8C, value := 0 }] } ∧
    pmbSend 0x8C 0 (pmbSend 0x8B 0 d) = takeRaisedPwr (pmbSend 0x8C 0 (pmbSend 0x8B 0 d)) d := ⟨rfl, rfl, rfl⟩

theorem gaitUpdate_rules {d : Dev} (hon : d.isOn = true) (hrun : d.boot.run = .running) (w : Nat) :
    (gaitUpdate w d).f PWR_P_EST = (d.vcorePower + w) % 2 ^ 32 ∧
      (gaitUpdate w d).pwr.pAvg = ((d.vcorePower + w) :: d.pwr.pAvg).take 10 ∧ 0 ≤ (gaitUpdate w d).pwr.rGait ∧
      (gaitUpdate w d).pwr.rGait ≤ d.rMax ∧
      (gaitUpdate w d).pwr.pmbQ = d.pwr.pmbQ ++ [{ code := 0x8B, value := 0 }, { code := 0x8C, value := 0 }] ∧
      onlyRaised { d with pwr := (gaitUpdate w d).pwr } (gaitUpdate w d) powerWords := by
  obtain ⟨hest, hpwr, hmax, hwords, hframe⟩ := powerTaken_rules d.vcorePower (d.vcorePower + w) d
  rw [gaitUpdate_on hon hrun w]
  generalize powerTaken d.vcorePower (d.vcorePower + w) d = x at hest hpwr hmax hwords hframe ⊢
  obtain ⟨hest', hpwr', hwords', hframe'⟩ := gaitThrottled_rules x
  obtain ⟨hlow, hhigh⟩ := gaitThrottle_bounds x
  generalize gaitThrottled x = y at hest' hpwr' hwords' hframe' ⊢
  obtain ⟨hest'', ⟨n, hpwr''⟩, hwords'', hframe''⟩ := gaitLimit_rules y
  generalize gaitLimit y = z at hest'' hpwr'' hwords'' hframe'' ⊢
  rw [hpwr', hpwr] at hpwr''
  obtain ⟨hregs, hsent, hframe'''⟩ := readsSent_rules z
  refine ⟨(f_of_regs hregs _).trans (hest''.trans (hest'.trans hest)), ?_, ?_, ?_, ?_,
    takeRaisedPwr_trans (takeRaisedPwr_trans (takeRaisedPwr_trans hframe hframe') hframe'') hframe''',
    onlyWords_regs (onlyWords_trans (onlyWords_trans hwords hwords') hwords'') hregs⟩
  · rw [hsent, hpwr'']
  · rw [hsent, hpwr'']
    exact hlow
  · rw [hsent, hpwr'', ← hmax]
    exact hhigh
  · rw [hsent, hpwr'', List.append_assoc]
    rfl

/-! ## The throttle (R499) -/

theorem slew_le (was goal n : Nat) : slew was goal n ≤ was + n := by
  unfold slew
  split <;> omega

theorem le_slew (was goal n : Nat) : was ≤ slew was goal n + n := by
  unfold slew
  split <;> omega

/-- A value of the throttle, with each group's. -/
def throttleSet (r idle pix log : Nat) (d : Dev) : Dev :=
  ((((d.onThm fun t => { t with rAct := r, zeroMs := idle }).setF THM_R_ACT_R r).setF THM_R_ACT_R_PIX pix).setF
    THM_R_ACT_R_LOG log).setF THM_STAT_THROTTLING (b2n (0 < r))

/-- What a value of the throttle leads to. -/
def throttleActs (was r ms : Nat) (d : Dev) : Dev :=
  let d := if was = 0 ∧ 0 < r then d.raise THM_IRQ_RAW_THROTTLE else d
  let d := if 0 < r then d.add THM_THROTTLE_MS ms else d
  let d := setExtThr (ceiling d)
  declared (if d.inFrame then d else setRowExt d)

/-- The words that a value of the throttle leads to lie beside these. -/
structure BesideThrottle (ws : List Nat) : Prop where
  irq : (blkPage THM_IRQ_RAW_THROTTLE.blk 0).base + 0x10 ∉ ws
  ms : THM_THROTTLE_MS.addr 0 0 ∉ ws
  ceil : PWR_VCORE_STAT_V_CEIL.addr 0 0 ∉ ws
  ext : THM_ROW_EXT_E.addr 0 0 ∉ ws
  low : ∀ a ∈ ws, a < 0x90000

theorem keepsHeat_throttleActs {ws : List Nat} (h : BesideThrottle ws) (was r ms : Nat) (d : Dev) : KeepsHeat ws d (throttleActs was r ms d) := by
  have hraised : ∀ e : Dev, KeepsHeat ws e (if was = 0 ∧ 0 < r then e.raise THM_IRQ_RAW_THROTTLE else e) := fun e =>
    .also (.refl ws e) (keepsHeat_raise h.irq)
  have hcounted : ∀ e : Dev, KeepsHeat ws e (if 0 < r then e.add THM_THROTTLE_MS ms else e) := fun e =>
    .also (.refl ws e) (keepsHeat_add h.ms ms)
  have hrows : ∀ e : Dev, KeepsHeat ws e (declared (if e.inFrame then e else setRowExt e)) := fun e =>
    (KeepsHeat.ite (.refl ws e) (keepsHeat_setRowExt h.ext)).trans (keepsHeat_declared h.low)
  exact ((((hraised d).trans (hcounted _)).trans (keepsHeat_ceiling h.ceil)).trans keepsHeat_setExtThr).trans (hrows _)

/-- The value after a computation. -/
def throttleNext (d : Dev) : Nat :=
  slew d.thm.rAct ((max (max (groupThrottle pixGroup d) (groupThrottle logGroup d)) d.pwr.rGait) * 256).floor.toNat (d.f THM_THROTTLE_R_SLEW)

theorem throttleUpdate_on {d : Dev} (hon : d.isOn = true) :
    ∃ idle pix log ms, throttleUpdate d = throttleActs d.thm.rAct (throttleNext d) ms (throttleSet (throttleNext d) idle pix log d) := by
  unfold throttleUpdate
  rw [if_neg (by rw [hon]; decide)]
  exact ⟨_, _, _, _, rfl⟩

theorem throttleUpdate_off {d : Dev} (h : d.isOn = false) : throttleUpdate d = d := if_pos h

/-- The computation of every 10 ms. -/
def throttleTimed (d : Dev) : Dev := if d.f THM_DWELL_MS = 0 then d else throttleUpdate d

/-- The words of the value in force. -/
def throttleWords : List Nat := [THM_R_ACT_R.addr 0 0, THM_STAT_THROTTLING.addr 0 0]

theorem besideThrottle_value : BesideThrottle throttleWords := ⟨by decide, by decide, by decide, by decide, by decide⟩

theorem throttleSet_rules (r idle pix log : Nat) (d : Dev) : (throttleSet r idle pix log d).thm.rAct = r ∧
    (throttleSet r idle pix log d).thm.hist = d.thm.hist ∧ (throttleSet r idle pix log d).aon = d.aon ∧
    (throttleSet r idle pix log d).f THM_R_ACT_R = r % 256 ∧ (throttleSet r idle pix log d).f THM_STAT_THROTTLING = b2n (0 < r) ∧
    onlyWords d (throttleSet r idle pix log d) throttleWords := by
  have hpix : apart THM_R_ACT_R_PIX THM_R_ACT_R := by decide
  have hlog : apart THM_R_ACT_R_LOG THM_R_ACT_R := by decide
  have hstat : apart THM_STAT_THROTTLING THM_R_ACT_R := by decide
  unfold throttleSet
  refine ⟨?_, ?_, ?_, ?_, ?_, ?_⟩
  · rw [Dev.setF_def, Dev.setFi_thm, Dev.setF_def, Dev.setFi_thm, Dev.setF_def, Dev.setFi_thm, Dev.setF_def, Dev.setFi_thm]
    rfl
  · rw [Dev.setF_def, Dev.setFi_thm, Dev.setF_def, Dev.setFi_thm, Dev.setF_def, Dev.setFi_thm, Dev.setF_def, Dev.setFi_thm]
    rfl
  · rw [Dev.setF_def, Dev.setFi_aon, Dev.setF_def, Dev.setFi_aon, Dev.setF_def, Dev.setFi_aon, Dev.setF_def, Dev.setFi_aon]
    rfl
  · rw [f_setF_apart hstat, f_setF_apart hlog, f_setF_apart hpix]
    exact Dev.fi_setFi_same _ _ _ _ _ (by decide) (by decide)
  · refine f_setF_same _ (by decide) (by decide) ?_
    exact Nat.lt_of_le_of_lt (b2n_le _) (by decide)
  · exact onlyWords_trans (onlyWords_trans (onlyWords_trans (onlyWords_trans (onlyWords_of_regs (Dev.onThm_regs ..) _)
      (onlyWords_setFi _ (F := THM_R_ACT_R) (by decide) _)) (onlyWords_setFi _ (F := THM_R_ACT_R_PIX) (by decide) _))
      (onlyWords_setFi _ (F := THM_R_ACT_R_LOG) (by decide) _)) (onlyWords_setFi _ (F := THM_STAT_THROTTLING) (by decide) _)

theorem throttleUpdate_rules {d : Dev} (hon : d.isOn = true) :
    (throttleUpdate d).thm.rAct ≤ d.thm.rAct + d.f THM_THROTTLE_R_SLEW ∧
      d.thm.rAct ≤ (throttleUpdate d).thm.rAct + d.f THM_THROTTLE_R_SLEW ∧
      (throttleUpdate d).f THM_R_ACT_R = (throttleUpdate d).thm.rAct % 256 ∧
      (throttleUpdate d).f THM_STAT_THROTTLING = b2n (0 < (throttleUpdate d).thm.rAct) ∧ (throttleUpdate d).aon = d.aon := by
  obtain ⟨idle, pix, log, ms, hupdate⟩ := throttleUpdate_on hon
  obtain ⟨hr, -, haon, hact, hstat, -⟩ := throttleSet_rules (throttleNext d) idle pix log d
  have hkeep := keepsHeat_throttleActs besideThrottle_value d.thm.rAct (throttleNext d) ms (throttleSet (throttleNext d) idle pix log d)
  rw [← hupdate] at hkeep
  rw [hkeep.rAct, hr]
  exact ⟨slew_le .., le_slew .., (fi_of_word (hkeep.words _ (by decide))).trans hact,
    (fi_of_word (hkeep.words _ (by decide))).trans hstat, hkeep.aon.trans haon⟩

/-! ## The sensors (R497) -/

/-- The word of two sensors. -/
def sensorWord (k : Nat) : Nat := Page.thm.base + 0x200 + 4 * k

/-- The words of all sensors. -/
def sensorWords : List Nat := (List.range 16).map sensorWord

theorem sensorWord_mem {k : Nat} (h : k < 16) : sensorWord k ∈ sensorWords := List.mem_map_of_mem (List.mem_range.mpr h)

/-- The readings of two sensors stored. -/
def pairStored (h : List (List Int)) (d : Dev) (k : Nat) : Dev :=
  (d.setFk THM_SENS_EVEN k (unsigned 16 (reading h (2 * k)))).setFk THM_SENS_ODD k (unsigned 16 (reading h (2 * k + 1)))

/-- A group's temperature and peak stored. -/
def groupStored (h : List (List Int)) (d : Dev) (e : TGroup × Int) : Dev :=
  let d := d.setF e.1.temp (unsigned 16 e.2)
  if h.length = 1 ∨ signed 16 (d.f e.1.peak) < e.2 then d.setF e.1.peak (unsigned 16 e.2) else d

theorem storeReadings_eq (d : Dev) : storeReadings d =
    groupStored d.thm.hist (groupStored d.thm.hist ((List.range 16).foldl (pairStored d.thm.hist) d) (pixGroup, highest d.thm.hist 0))
      (logGroup, highest d.thm.hist 16) := rfl

theorem onlyRegs_pairStored (h : List (List Int)) (d : Dev) (k : Nat) : onlyRegs d (pairStored h d k) [sensorWord k] :=
  onlyRegs_trans (onlyRegs_setFi d THM_SENS_EVEN 0 k _) (onlyRegs_setFi _ THM_SENS_ODD 0 k _)

theorem fk_pairStored (h : List (List Int)) (d : Dev) (k : Nat) :
    (pairStored h d k).fk THM_SENS_EVEN k = unsigned 16 (reading h (2 * k)) ∧
      (pairStored h d k).fk THM_SENS_ODD k = unsigned 16 (reading h (2 * k + 1)) := by
  unfold pairStored
  generalize reading h (2 * k) = a
  generalize reading h (2 * k + 1) = b
  constructor
  · exact (Dev.fi_setFi_ne _ THM_SENS_ODD THM_SENS_EVEN 0 k 0 k _ (by decide) (by decide) (by decide) (.inr (.inl (by decide)))).trans
      ((Dev.fi_setFi_same d THM_SENS_EVEN 0 k _ (by decide) (by decide)).trans (Nat.mod_eq_of_lt (unsigned_lt 16 a)))
  · exact (Dev.fi_setFi_same _ THM_SENS_ODD 0 k _ (by decide) (by decide)).trans (Nat.mod_eq_of_lt (unsigned_lt 16 b))

theorem fk_pairsStored (h : List (List Int)) (d : Dev) (n : Nat) {k : Nat} (hk : k < n) :
    ((List.range n).foldl (pairStored h) d).fk THM_SENS_EVEN k = unsigned 16 (reading h (2 * k)) ∧
      ((List.range n).foldl (pairStored h) d).fk THM_SENS_ODD k = unsigned 16 (reading h (2 * k + 1)) := by
  induction n with
  | zero => exact absurd hk (Nat.not_lt_zero _)
  | succ n ih =>
    rw [List.range_succ, List.foldl_append, List.foldl_cons, List.foldl_nil]
    obtain hlt | rfl := Nat.lt_or_eq_of_le (Nat.le_of_lt_succ hk)
    · have hword : ∀ e : Dev, (pairStored h e n).word (sensorWord k) = e.word (sensorWord k) := fun e =>
        (onlyRegs_pairStored h e n).2 _ (by rw [List.mem_singleton]; unfold sensorWord; omega)
      exact ⟨(fi_of_word (hword _)).trans (ih hlt).1, (fi_of_word (hword _)).trans (ih hlt).2⟩
    · exact fk_pairStored ..

theorem onlyRegs_groupStored (h : List (List Int)) (d : Dev) (e : TGroup × Int) :
    onlyRegs d (groupStored h d e) [e.1.temp.addr 0 0, e.1.peak.addr 0 0] := by
  have htemp : onlyRegs d (d.setF e.1.temp (unsigned 16 e.2)) [e.1.temp.addr 0 0, e.1.peak.addr 0 0] :=
    onlyRegs_mono (onlyRegs_setFi d e.1.temp 0 0 _) fun a ha => List.mem_cons.mpr (.inl (List.mem_singleton.mp ha))
  unfold groupStored
  dsimp only
  split
  · exact onlyRegs_trans htemp (onlyRegs_mono (onlyRegs_setFi _ e.1.peak 0 0 _) fun a ha => List.mem_cons_of_mem _ ha)
  · exact htemp

/-- The words of readings: sensors, group temperatures and peaks. -/
def readingWords : List Nat := [THM_GRP_TEMP_PIX.addr 0 0, THM_PEAK_PIX.addr 0 0] ++ sensorWords

theorem onlyRegs_storeReadings (d : Dev) : onlyRegs d (storeReadings d) readingWords := by
  rw [storeReadings_eq]
  exact onlyRegs_trans (onlyRegs_trans (onlyRegs_foldl _ (fun e k hk => onlyRegs_mono (onlyRegs_pairStored _ e k)
      fun a ha => List.mem_append_right _ (List.mem_singleton.mp ha ▸ sensorWord_mem (List.mem_range.mp hk))) d)
    (onlyRegs_mono (onlyRegs_groupStored ..) fun a ha => List.mem_append_left _ ha))
    (onlyRegs_mono (onlyRegs_groupStored ..) fun a ha => List.mem_append_left _ ha)

theorem fk_storeReadings (d : Dev) {k : Nat} (hk : k < 16) :
    (storeReadings d).fk THM_SENS_EVEN k = unsigned 16 (reading d.thm.hist (2 * k)) ∧
      (storeReadings d).fk THM_SENS_ODD k = unsigned 16 (reading d.thm.hist (2 * k + 1)) := by
  have hbeside : sensorWord k ∉ [pixGroup.temp.addr 0 0, pixGroup.peak.addr 0 0] ∧
      sensorWord k ∉ [logGroup.temp.addr 0 0, logGroup.peak.addr 0 0] := by
    have haddr : pixGroup.temp.addr 0 0 = Page.thm.base + 0x184 ∧ pixGroup.peak.addr 0 0 = Page.thm.base + 0xF08 ∧
      logGroup.temp.addr 0 0 = Page.thm.base + 0x184 ∧ logGroup.peak.addr 0 0 = Page.thm.base + 0xF08 := ⟨rfl, rfl, rfl, rfl⟩
    simp only [haddr, sensorWord, List.mem_cons, List.not_mem_nil, or_false, not_or]
    omega
  have hword : (storeReadings d).word (sensorWord k) = ((List.range 16).foldl (pairStored d.thm.hist) d).word (sensorWord k) := by
    rw [storeReadings_eq, (onlyRegs_groupStored ..).2 _ hbeside.2, (onlyRegs_groupStored ..).2 _ hbeside.1]
  obtain ⟨heven, hodd⟩ := fk_pairsStored d.thm.hist d 16 hk
  exact ⟨(fi_of_word hword).trans heven, (fi_of_word hword).trans hodd⟩

theorem signed_unsigned {v : Int} (hlo : 0 ≤ v) (hhi : v < 2 ^ 15) : signed 16 (unsigned 16 v) = v := by
  have hmod : unsigned 16 v = v.toNat := congrArg Int.toNat (Int.emod_eq_of_lt hlo (by norm_num; omega))
  have hnat : v.toNat % 65536 = v.toNat := Nat.mod_eq_of_lt (by omega)
  unfold signed
  rw [hmod, show 2 ^ 16 = 65536 from rfl, show 2 ^ (16 - 1) = 32768 from rfl, hnat, if_pos (by omega)]
  exact Int.toNat_of_nonneg hlo

theorem groupTemp_storeReadings {d : Dev} (hlo : 0 ≤ highest d.thm.hist 0) (hhi : highest d.thm.hist 0 < 2 ^ 15) :
    (storeReadings d).groupTemp pixGroup = highest d.thm.hist 0 := by
  have htemp : apart THM_GRP_TEMP_LOG THM_GRP_TEMP_PIX := by decide
  have hpeak : apart THM_PEAK_LOG THM_GRP_TEMP_PIX := by decide
  have hpeak' : apart THM_PEAK_PIX THM_GRP_TEMP_PIX := by decide
  have hlog : ∀ (h : List (List Int)) (v : Int) (e : Dev), (groupStored h e (logGroup, v)).f THM_GRP_TEMP_PIX = e.f THM_GRP_TEMP_PIX := by
    intro h v e
    unfold groupStored
    dsimp only
    split
    · exact (f_setF_apart hpeak ..).trans (f_setF_apart htemp ..)
    · exact f_setF_apart htemp ..
  have hpix : ∀ (h : List (List Int)) (v : Int) (e : Dev), (groupStored h e (pixGroup, v)).f THM_GRP_TEMP_PIX = unsigned 16 v := by
    intro h v e
    have hset : (e.setF THM_GRP_TEMP_PIX (unsigned 16 v)).f THM_GRP_TEMP_PIX = unsigned 16 v :=
      f_setF_same e (by decide) (by decide) (unsigned_lt 16 v)
    unfold groupStored
    dsimp only
    split
    · exact (f_setF_apart hpeak' ..).trans hset
    · exact hset
  have hf : (storeReadings d).f THM_GRP_TEMP_PIX = unsigned 16 (highest d.thm.hist 0) := by rw [storeReadings_eq, hlog, hpix]
  exact (congrArg (signed 16) hf).trans (signed_unsigned hlo hhi)

/-! ## The states of the groups (R500, R501) -/

/-- The words that a group's state machine writes lie beside these. -/
structure BesideGroup (g : TGroup) (ws : List Nat) : Prop where
  stat : g.stat.addr 0 0 ∉ ws
  irq : (blkPage g.irq.blk 0).base + 0x10 ∉ ws
  entries : THM_WARN_ENTRIES.addr 0 0 ∉ ws
  active : PWR_GAIT_ACTIVE.addr 0 0 ∉ ws

section
variable {g : TGroup} {ws : List Nat} (h : BesideGroup g ws)
include h

theorem keepsHeat_stat (v : Nat) (d : Dev) : KeepsHeat ws d (gaitEval 1 (d.setF g.stat v)) :=
  (keepsHeat_setF h.stat v).trans (keepsHeat_gaitEval h.active 1)

/-- Warnings that begin and end. -/
theorem keepsHeat_warn (w : Dwell) (d : Dev) : KeepsHeat ws d (if d.f g.stat = 0 ∧ d.dwell ≤ w.up then
      gaitEval 1 ((((d.setF g.stat 1).raise g.irq).bump THM_WARN_ENTRIES).emit 0x037 .thm)
    else if d.f g.stat = 1 ∧ d.dwell ≤ w.dn then gaitEval 1 ((d.setF g.stat 0).emit 0x038 .thm) else d) :=
  .ite (((((keepsHeat_setF h.stat 1).trans (keepsHeat_raise h.irq)).trans (keepsHeat_bump h.entries)).trans (keepsHeat_emit ..)).trans
      (keepsHeat_gaitEval h.active 1))
    (.ite (((keepsHeat_setF h.stat 0).trans (keepsHeat_emit ..)).trans (keepsHeat_gaitEval h.active 1)) (.refl ws d))

/-- While the shutdown pends, a group's state changes nothing else. -/
theorem keepsHeat_groupStep {d : Dev} (hpending : d.aon.shutPending = true) (w : Dwell) : KeepsHeat ws d (groupStep g w d) := by
  unfold groupStep
  rw [if_pos hpending]
  exact .ite (keepsHeat_stat h 2 d) (keepsHeat_warn h w d)

end

/-- The latch, and the Hamper at rest. -/
def shutdownLatched (g : TGroup) (d : Dev) : Dev :=
  let d := (gaitEval 1 (d.setF g.stat 2)).setLatch g.cause (unsigned 8 (d.groupTemp g / 16))
  if d.enabled .hmp then hmpDisable d else d

/-- Shutdown pending, with what it discards. -/
def shutdownBegun (d : Dev) : Dev :=
  { d with hlp := { d.hlp with strm := [] }, boot := { d.boot with xfer := none }, aon := { d.aon with shutPending := true, shutDue := true } }

theorem shutdownBegun_rules (d : Dev) : (shutdownBegun d).aon = { d.aon with shutPending := true, shutDue := true } ∧
    (shutdownBegun d).regs = d.regs ∧ (shutdownBegun d).thm = d.thm := ⟨rfl, rfl, rfl⟩

/-- The word of the latch. -/
def latchWord : Nat := THM_LATCH_CAUSE.addr 0 0

theorem keepsHeat_setLatch {ws : List Nat} (h : latchWord ∉ ws) (cause temp : Nat) (d : Dev) : KeepsHeat ws d (d.setLatch cause temp) :=
  ((keepsHeat_setF (F := THM_LATCH_CAUSE) h cause).trans (keepsHeat_setF (F := THM_LATCH_TEMP) h temp)).trans
    (keepsHeat_setF (F := THM_LATCH_RECORD_DONE) h 0)

theorem keepsHeat_shutdownLatched {g : TGroup} {ws : List Nat} (h : BesideGroup g ws) (hlatch : latchWord ∉ ws) (hlow : ∀ a ∈ ws, a < 0x90000)
    (d : Dev) : KeepsHeat ws d (shutdownLatched g d) :=
  ((keepsHeat_stat h 2 d).trans (keepsHeat_setLatch hlatch ..)).trans (.ite (keepsHeat_hmpDisable hlow) (.refl ws _))

theorem keepsReadings_shutdownPending {g : TGroup} {ws : List Nat} (h : BesideGroup g ws) (hlatch : latchWord ∉ ws)
    (hlow : ∀ a ∈ ws, a < 0x90000) (d : Dev) : KeepsReadings ws d (shutdownPending g d) :=
  (keepsHeat_shutdownLatched h hlatch hlow d).toKeepsReadings.trans ⟨rfl, fun _ _ => rfl⟩

theorem keepsReadings_groupStep {g : TGroup} {ws : List Nat} (h : BesideGroup g ws) (hlatch : latchWord ∉ ws)
    (hlow : ∀ a ∈ ws, a < 0x90000) (w : Dwell) (d : Dev) : KeepsReadings ws d (groupStep g w d) := by
  cases hpending : d.aon.shutPending with
  | true => exact (keepsHeat_groupStep h hpending w).toKeepsReadings
  | false =>
    unfold groupStep
    rw [hpending, if_neg Bool.false_ne_true]
    split
    · exact keepsReadings_shutdownPending h hlatch hlow d
    · exact (keepsHeat_warn h w d).toKeepsReadings

theorem besideSensors {g : TGroup} (h : g = pixGroup ∨ g = logGroup) : BesideGroup g sensorWords := by
  obtain rfl | rfl := h
  · exact ⟨by decide, by decide, by decide, by decide⟩
  · exact ⟨by decide, by decide, by decide, by decide⟩

theorem sensorWords_lt : ∀ a ∈ sensorWords, a < 0x90000 := by decide

theorem latchWord_beside : latchWord ∉ sensorWords := by decide

theorem besideThrottle_sensors : BesideThrottle sensorWords := ⟨by decide, by decide, by decide, by decide, by decide⟩

theorem keepsReadings_throttleUpdate (d : Dev) : KeepsReadings sensorWords d (throttleUpdate d) := by
  cases hon : d.isOn with
  | false =>
    rw [throttleUpdate_off hon]
    exact (KeepsHeat.refl sensorWords d).toKeepsReadings
  | true =>
    obtain ⟨idle, pix, log, ms, heq⟩ := throttleUpdate_on hon
    obtain ⟨-, hhist, -, -, -, hwords⟩ := throttleSet_rules (throttleNext d) idle pix log d
    have hbeside : ∀ a ∈ sensorWords, a ∉ throttleWords := by decide
    rw [heq]
    exact KeepsReadings.trans ⟨hhist, fun a ha => hwords a (hbeside a ha)⟩
      (keepsHeat_throttleActs besideThrottle_sensors ..).toKeepsReadings

/-- A shutdown that begins leaves the group's temperature in the latch. -/
theorem shutdownPending_rules (d : Dev) : (shutdownPending pixGroup d).aon = { d.aon with shutPending := true, shutDue := true } ∧
    (shutdownPending pixGroup d).f THM_LATCH_CAUSE = 1 ∧
    (shutdownPending pixGroup d).f THM_LATCH_TEMP = unsigned 8 (d.groupTemp pixGroup / 16) ∧
    (shutdownPending pixGroup d).f THM_LATCH_RECORD_DONE = 0 := by
  have hbeside : BesideGroup pixGroup [] := ⟨by decide, by decide, by decide, by decide⟩
  have haon := (keepsHeat_shutdownLatched hbeside (by decide) (by decide) d).aon
  obtain ⟨haon', hregs, -⟩ := shutdownBegun_rules (shutdownLatched pixGroup d)
  obtain ⟨hcause, htemp, hdone⟩ := setLatch_rules (cause := 1) (by decide) (unsigned_lt 8 (d.groupTemp pixGroup / 16))
    (gaitEval 1 (d.setF pixGroup.stat 2))
  have hkeep : ∀ e : Dev, (if e.enabled .hmp then hmpDisable e else e).word latchWord = e.word latchWord := fun e =>
    (KeepsHeat.ite (keepsHeat_hmpDisable (ws := [latchWord]) (by decide)) (.refl _ e)).words _ (by decide)
  have hlatched : ∀ F : Fld, F.addr 0 0 = latchWord → (shutdownPending pixGroup d).f F =
      ((gaitEval 1 (d.setF pixGroup.stat 2)).setLatch 1 (unsigned 8 (d.groupTemp pixGroup / 16))).f F := by
    intro F hF
    refine (f_of_regs hregs F).trans (fi_of_word ?_)
    rw [hF]
    exact hkeep _
  refine ⟨haon'.trans (by rw [haon]), ?_, ?_, ?_⟩
  · rw [hlatched THM_LATCH_CAUSE rfl, hcause]
  · rw [hlatched THM_LATCH_TEMP rfl, htemp]
  · rw [hlatched THM_LATCH_RECORD_DONE rfl, hdone]

/-! ## A sample (R497, R500) -/

/-- The sample taken and stored. -/
def sampleStored (h : List (List Int)) (d : Dev) : Dev := storeReadings (d.onThm fun t => { t with hist := h })

/-- The conditions of both groups on it. -/
def sampleJudged (d : Dev) : Dev := d.onThm fun t => { t with pix := dwellNext pixGroup d t.pix, log := dwellNext logGroup d t.log }

/-- The groups' steps. -/
def groupsStepped (d : Dev) : Dev := groupStep logGroup d.thm.log (groupStep pixGroup d.thm.pix d)

theorem thermalSample_on {l : List Int} {h : List (List Int)} {d : Dev} (hon : d.isOn = true) (hh : h = (l :: d.thm.hist).take 16) :
    thermalSample l d = if (groupsStepped (sampleJudged (sampleStored h d))).f THM_DWELL_MS = 0 then
        throttleUpdate (groupsStepped (sampleJudged (sampleStored h d)))
      else groupsStepped (sampleJudged (sampleStored h d)) := by
  subst hh
  unfold thermalSample
  rw [if_neg (by rw [hon]; decide)]
  rfl

theorem thermalSample_off {d : Dev} (h : d.isOn = false) (l : List Int) : thermalSample l d = d := if_pos h

theorem runs_thermalSample (l : List (BitVec 16)) {s : State} {d : Dev} (h : thermalSample (l.map (·.toInt)) s.dev = d) :
    runs (.thermalSample l) s d := runs_onDev (c := .thermalSample l) rfl h

theorem sampleStored_rules (h : List (List Int)) (d : Dev) : (sampleStored h d).thm = { d.thm with hist := h } ∧
    (sampleStored h d).aon = d.aon ∧ onlyWords d (sampleStored h d) readingWords := by
  obtain ⟨hframe, hwords⟩ := onlyRegs_storeReadings (d.onThm fun t => { t with hist := h })
  have hthm := keeps_of_takeRegs Dev.thm (fun _ _ => rfl) hframe
  have haon := keeps_of_takeRegs Dev.aon (fun _ _ => rfl) hframe
  exact ⟨hthm, haon, hwords⟩

theorem sampleJudged_rules (d : Dev) : (sampleJudged d).regs = d.regs ∧ (sampleJudged d).aon = d.aon ∧
    (sampleJudged d).thm.hist = d.thm.hist ∧ (sampleJudged d).thm.pix = dwellNext pixGroup d d.thm.pix := ⟨rfl, rfl, rfl, rfl⟩

theorem keepsReadings_groupsStepped (d : Dev) : KeepsReadings sensorWords d (groupsStepped d) :=
  (keepsReadings_groupStep (besideSensors (.inl rfl)) latchWord_beside sensorWords_lt ..).trans
    (keepsReadings_groupStep (besideSensors (.inr rfl)) latchWord_beside sensorWords_lt ..)

/-- What a sample leaves in the sensors' registers. -/
theorem sensors_thermalSample {l : List Int} {h : List (List Int)} {d : Dev} (hon : d.isOn = true) (hh : h = (l :: d.thm.hist).take 16) :
    (thermalSample l d).thm.hist = h ∧ ∀ k, k < 16 → (thermalSample l d).fk THM_SENS_EVEN k = unsigned 16 (reading h (2 * k)) ∧
      (thermalSample l d).fk THM_SENS_ODD k = unsigned 16 (reading h (2 * k + 1)) := by
  have hstored := (sampleStored_rules h d).1
  have hjudged : KeepsReadings sensorWords (sampleStored h d) (sampleJudged (sampleStored h d)) := ⟨rfl, fun _ _ => rfl⟩
  have hkeep : KeepsReadings sensorWords (sampleStored h d) (thermalSample l d) := by
    rw [thermalSample_on hon hh]
    have hstepped := hjudged.trans (keepsReadings_groupsStepped _)
    split
    · exact hstepped.trans (keepsReadings_throttleUpdate _)
    · exact hstepped
  refine ⟨hkeep.hist.trans (congrArg ThmSt.hist hstored), fun k hk => ?_⟩
  obtain ⟨heven, hodd⟩ := fk_storeReadings (d.onThm fun t => { t with hist := h }) hk
  have hword := hkeep.words _ (sensorWord_mem hk)
  exact ⟨(fi_of_word hword).trans heven, (fi_of_word hword).trans hodd⟩

theorem isOn_pending {d : Dev} (h : d.aon.shutPending = true) : d.isOn = false := by
  unfold Dev.isOn
  rw [h, Bool.not_true, Bool.and_false]

theorem shutPending_of_isOn {d : Dev} (h : d.isOn = true) : d.aon.shutPending = false := by
  unfold Dev.isOn at h
  simpa using (Bool.and_eq_true_iff.mp h).2

/-- A pixel group that has been too hot for long enough. -/
theorem groupsStepped_shut {d : Dev} (hpending : d.aon.shutPending = false) (hdwell : d.dwell ≤ d.thm.pix.sh) :
    KeepsHeat [latchWord] (shutdownPending pixGroup d) (groupsStepped d) := by
  have hpix : groupStep pixGroup d.thm.pix d = shutdownPending pixGroup d :=
    (if_pos hdwell).trans (if_neg (by rw [hpending]; decide))
  have hbeside : BesideGroup logGroup [latchWord] := ⟨by decide, by decide, by decide, by decide⟩
  unfold groupsStepped
  rw [hpix]
  exact keepsHeat_groupStep hbeside (by rw [(shutdownPending_rules d).1]) _

theorem dwellNext_shut {g : TGroup} {d : Dev} (h : 16 * (d.f g.shut : Int) ≤ d.groupTemp g) (w : Dwell) : (dwellNext g d w).sh = w.sh + 1 :=
  if_pos h

theorem shut_thermalSample {l : List Int} {h : List (List Int)} {d : Dev} (hon : d.isOn = true) (hh : h = (l :: d.thm.hist).take 16)
    (hmax : highest h 0 < 2 ^ 15) (hshut : 16 * (d.f THM_THR_PIX_SHUT : Int) ≤ highest h 0) (hdwell : d.dwell ≤ d.thm.pix.sh + 1) :
    (thermalSample l d).aon = { d.aon with shutPending := true, shutDue := true } ∧ (thermalSample l d).f THM_LATCH_CAUSE = 1 ∧
      (thermalSample l d).f THM_LATCH_TEMP = unsigned 8 (highest h 0 / 16) ∧ (thermalSample l d).f THM_LATCH_RECORD_DONE = 0 := by
  obtain ⟨hthm, haon, hwords⟩ := sampleStored_rules h d
  have htemp : (sampleStored h d).groupTemp pixGroup = highest h 0 :=
    groupTemp_storeReadings (d := d.onThm fun t => { t with hist := h }) (le_trans (by positivity) hshut) hmax
  have hthreshold : (sampleStored h d).f THM_THR_PIX_SHUT = d.f THM_THR_PIX_SHUT := fi_of_word (hwords _ (by decide))
  have hms : (sampleStored h d).f THM_DWELL_MS = d.f THM_DWELL_MS := fi_of_word (hwords _ (by decide))
  generalize hx : sampleStored h d = x at hthm haon hwords htemp hthreshold hms
  have hsh : (sampleJudged x).thm.pix.sh = d.thm.pix.sh + 1 := by
    have hnext := dwellNext_shut (g := pixGroup) (d := x) (by rw [htemp, show x.f pixGroup.shut = _ from hthreshold]; exact hshut) x.thm.pix
    rw [hthm] at hnext
    rw [(sampleJudged_rules x).2.2.2, hthm]
    exact hnext
  have hlong : (sampleJudged x).dwell ≤ (sampleJudged x).thm.pix.sh := by
    rw [hsh]
    unfold Dev.dwell at hdwell ⊢
    rwa [f_of_regs (sampleJudged_rules x).1, hms]
  have hopen : (sampleJudged x).aon.shutPending = false := by
    rw [(sampleJudged_rules x).2.1, haon]
    exact shutPending_of_isOn hon
  have hkeep := groupsStepped_shut hopen hlong
  obtain ⟨hpending, hcause, hlatch, hdone⟩ := shutdownPending_rules (sampleJudged x)
  have hoff : (groupsStepped (sampleJudged x)).isOn = false := isOn_pending (by rw [hkeep.aon, hpending])
  have hsample : thermalSample l d = groupsStepped (sampleJudged x) := by
    rw [thermalSample_on hon hh, hx, throttleUpdate_off hoff, ite_self]
  have htemp' : (sampleJudged x).groupTemp pixGroup = highest h 0 := htemp
  have hword : ∀ F : Fld, F.addr 0 0 = latchWord → (thermalSample l d).f F = (shutdownPending pixGroup (sampleJudged x)).f F := by
    intro F hF
    rw [hsample]
    exact fi_of_word (by rw [hF]; exact hkeep.words _ List.mem_cons_self)
  rw [hword THM_LATCH_CAUSE rfl, hword THM_LATCH_TEMP rfl, hword THM_LATCH_RECORD_DONE rfl, hcause, hlatch, hdone, htemp', hsample, hkeep.aon, hpending, (sampleJudged_rules x).2.1, haon]
  exact ⟨rfl, rfl, rfl, rfl⟩

end Sys2Proof.Machine

open Sys2Proof Sys2Proof.Machine

/-- Settles O48: the gait and the power average, the throttle, the sensors, and the shutdown that a hot pixel group begins. -/
theorem heatIsHeldBack : Obligations.HeatIsHeldBack := by
  unfold Obligations.HeatIsHeldBack
  refine ⟨?gait, ?badGait, ?gaitSet, ?throttle, ?off, ?sample, ?shut, ?read⟩
  case gait =>
    intro w s hon hrun
    exact ⟨_, runs_onDev (c := .gaitUpdate w) (f := gaitUpdate w.toNat) rfl rfl, gaitUpdate_rules hon hrun w.toNat⟩
  case badGait =>
    intro s hpost h
    have hrun := runs_mbxServe hpost (c := .gaitSet) (· = 1) (f := gaitSet) rfl rfl
    rwa [gaitSet_bad (by rw [cmdNat_setMbx]; exact h)] at hrun
  case gaitSet =>
    intro s hpost h
    have hrun := runs_mbxServe hpost (c := .gaitSet) (· = 1) (f := gaitSet) rfl rfl
    rw [gaitSet_ok (cmdNat_setMbx s.dev mbxBUSY 0 1) h] at hrun
    obtain ⟨hsel, hactive⟩ := gaitSelected_rules h (s.dev.setMbx mbxBUSY)
    exact ⟨_, hrun, hsel, hactive, (mbxDone_ok _).2, (mbxDone_ok _).1⟩
  case throttle =>
    intro s hon hms
    exact ⟨_, runs_onDev (c := .throttleUpdate) (f := throttleTimed) rfl (if_neg hms), throttleUpdate_rules hon⟩
  case off =>
    intro c l w s hc hoff
    simp only [List.mem_cons, List.not_mem_nil, or_false] at hc
    obtain rfl | rfl | rfl := hc
    · exact runs_onDev (c := .throttleUpdate) (f := throttleTimed) rfl
        ((ite_congr rfl (fun _ => rfl) fun _ => throttleUpdate_off hoff).trans (ite_self _))
    · exact runs_thermalSample l (thermalSample_off hoff _)
    · exact runs_onDev (c := .gaitUpdate w) (f := gaitUpdate w.toNat) rfl (gaitUpdate_off hoff _)
  case sample =>
    intro l h s hon hh
    exact ⟨_, runs_thermalSample l rfl, sensors_thermalSample hon hh⟩
  case shut =>
    intro l h s hon hh hmax hshut hdwell
    exact ⟨_, runs_thermalSample l rfl, shut_thermalSample hon hh hmax hshut hdwell⟩
  case read =>
    intro s hpost
    refine ⟨(List.range 16).flatMap fun k => u16 ((s.dev.setMbx mbxBUSY).fk THM_SENS_EVEN k) ++ u16 ((s.dev.setMbx mbxBUSY).fk THM_SENS_ODD k),
      ?_, runs_mbxServe hpost (c := .thermalRead) (· = 0) (f := thermalRead) rfl rfl⟩
    simp only [List.length_flatMap, List.length_append, u16, length_bytesLE, List.map_const', List.sum_replicate, List.length_range]
    rfl
end
